-- ==== Sys2Proof/Word.lean ====
section
/-! DEFINITION. The word types of the Hive and their plainest arithmetic (R11, R17, R19).
Byte-order helpers stand in Machine/Bytes.lean. -/

namespace Sys2Proof

/-- One byte. -/
abbrev Byte := BitVec 8

/-- A byte string; index 0 is the lowest address (R17). -/
abbrev Bytes := List Byte

/-- A 32-bit register (R11) or a free-running ring index (R45). -/
abbrev W32 := BitVec 32

/-- A 64-bit register (R11) or a bus address. -/
abbrev W64 := BitVec 64

/-- HT80 of R19: an unsigned 80-bit count of 2⁻¹⁶ ns. -/
abbrev HT80 := BitVec 80

/-- `(a − b) mod 2³²`, the ring distance of R45 and R47, as a number. -/
def ringDist (a b : W32) : Nat := (a - b).toNat

/-- A counter that stops at `top` (the saturating counters of R131, R165, R183, R212, R345, R365). -/
def satAdd (top a b : Nat) : Nat := min top (a + b)

end Sys2Proof
end

