-- ==== Sys2Proof/Syntax.lean ====
section
/-! DEFINITION. The commands and events of the Hive: one constructor per row of
spec/opcode_table.json, in the table's order. Operands name what the command acts on and carry
what the outside world supplies with it; the table gives them no bits. -/

namespace Sys2Proof

/-- Who makes a register access (R16, R462): a function over the link, the debug access port, or a
fabric source. -/
inductive Requester where
  | fn (n : Nat)
  | debug
  | fabric (src : Nat)
deriving DecidableEq, Repr

/-- Where an inbound access arrives (R325, R326): a BAR of a function, a fabric address, the debug
port with an offset in PF0 BAR0 and, from 0x2000000 on, in PF0 BAR2 (R390), or the configuration space of a function
(R320, R321). -/
inductive Access where
  | endpoint (fn bar off : Nat)
  | fabric (src addr : Nat)
  | debug (off : Nat)
  | config (fn off : Nat)
deriving DecidableEq, Repr

/-- The path of a queue command: the queue page (R71), the QS window (R432), or MCTP (R428). -/
inductive CmdVia where
  | page | qs | mctp
deriving DecidableEq, Repr

/-- The triggers of a warm reset (R366). -/
inductive WarmCause where
  | hvReset | hiveRst | endpoint
deriving DecidableEq, Repr

/-- What the ECC found in the memory words an event reads (R38). -/
inductive Ecc where
  | clean | corrected | uncorrectable
deriving DecidableEq, Repr

/-- The forager memory that DESCRIPTOR_FETCH_DONE reads and that an error may hit (R38): a slot of the descriptor
cache, where a claimed push lies too, the staging of a push, or the queue's state entry. -/
inductive FetchEcc where
  | clean | corrected | cacheSlot (idx : W32) | staged | queueState
deriving DecidableEq, Repr

/-- The memory a job's end reads and that an error may hit (R38, R185, R332, R358); `page` counts 2 KiB pages of the
job's output. -/
inductive JobEcc where
  | clean | corrected | context | staging (page : Nat) | contextCache | messageBuffer | completionBuffer
  | egressBuffer | freePage
deriving DecidableEq, Repr

/-- The part of a key slot that a pull finds damaged (R226). -/
inductive KeyEcc where
  | clean | corrected | tag | payload | targetTag | targetPayload
deriving DecidableEq, Repr

/-- Where a supply domain lies: below 90 % of nominal, outside its tolerance, within it, or above 110 % (R404, R440). -/
inductive Supply where
  | sag | outside | within | surge
deriving DecidableEq, Repr

/-- What the debug port asks for (R390, R396): it halts, releases or steps the keeper, reads or writes a byte of keeper
RAM, enters scan or memory test mode, and in that mode programs a test token. -/
inductive DbgCmd where
  | halt | run | step
  | ramRead (addr : Nat) | ramWrite (addr : Nat) (b : Byte)
  | scan | memTest
  | token (k : Nat) (v : BitVec 128)
deriving DecidableEq, Repr

/-- The status of a read completion (R333). -/
inductive CplStatus where
  | ok | ur | ca | poisoned
deriving DecidableEq, Repr

/-- How a read of the keeper ended: whole, with status UR or CA, with poisoned data, or by a timeout (R333, R334). -/
inductive ReadEnd where
  | ok | error | poisoned | timeout
deriving DecidableEq, Repr

/-- The accounts of R106; `none` is the work that reaches no engine. -/
inductive Account where
  | bulk | digest | number | lattice | propolis | none
deriving DecidableEq, Repr

/-- One word of the peer ingress interface (R347). -/
structure PeerWord where
  data   : Bytes
  par    : BitVec 8
  poison : Bool
  sop    : Bool
  eop    : Bool
  prio   : Nat
  client : Nat
  nbytes : Nat
deriving DecidableEq, Repr

/-- The four registers of a DMA window entry (R316). -/
inductive DmawReg where
  | base | limit | xlate | ctrl
deriving DecidableEq, Repr

/-- The two registers whose write registers the K2H pool (R309, R315). -/
inductive PoolReg where
  | base (v : W64) | ctrl (v : W32)
deriving DecidableEq, Repr

/-- What an MSI-X mask write changes (R339): a word of a table entry, or the function's MSI-X
Enable and Function Mask. -/
inductive MaskWrite where
  | entry (vec word : Nat) (v : W32)
  | control (enable mask : Bool)
deriving DecidableEq, Repr

/-- The hash a GET_MEASUREMENTS or CHALLENGE requester chose is the negotiated one; a challenge
carries a nonce (R343). -/
structure SpdmChallenge where
  slot  : Nat
  nonce : Bytes
deriving DecidableEq, Repr

/-- The commands and events of the Hive. -/
inductive Instr where
  | coldPowerOn
  | warmReset (cause : WarmCause)
  | hiveRstNAssert
  | startupStepDone (ins : BitVec 4) (ramEcc : Ecc)
  | pllLockTimeout
  | svnCommitProgram
  | keeperRestart (ramError : Bool) (readOk : Bool)
  | keeperWatchdogExpiry (readOk : Bool)
  | qDbWrite (client q : Nat) (v : W32)
  | qDbNodataWrite (client q : Nat)
  | producerMirrorReadDone (client q : Nat)
  | pushWindowWrite (client q off : Nat) (relaxed : Bool) (data : Bytes)
  | pushStagingTimeout (client q : Nat)
  | descriptorPrefetch (client q : Nat) (evict : List W32)
  | descriptorFetchDone (client q : Nat) (ecc : FetchEcc)
  | qCmdEnable (client q : Nat) (gen : BitVec 11) (via : CmdVia)
  | qCmdPause (client q : Nat) (gen : BitVec 11) (via : CmdVia)
  | pauseAck (client q : Nat)
  | qCmdResume (client q : Nat) (gen : BitVec 11) (via : CmdVia)
  | qCmdReset (client q : Nat) (gen : BitVec 11) (via : CmdVia)
  | resetAck (client q : Nat)
  | qCmdInvalidate (client q : Nat) (gen : BitVec 11) (start : W32) (count : BitVec 17) (via : CmdVia)
  | invalidateAck (client q : Nat)
  | qCmdRestart (client q : Nat) (gen : BitVec 11) (via : CmdVia)
  | restartAck (client q : Nat)
  | qCmdReserved (client q : Nat) (word : W64) (via : CmdVia)
  | queueDrainEnd (client q : Nat)
  | jobDispatch (acct : Account)
  | schedulingEpochStart (busy : List (Nat × Nat))
  | keyPull (job : Nat) (ecc : KeyEcc)
  | nonceReservationWriteDone (client slot : Nat)
  | readCompletion (tag : Nat) (status : CplStatus) (data : Bytes)
  | completionTimeout (tag : Nat)
  | atsTranslationCompletion (fn : Nat) (pasid : Option Nat) (page : Nat) (rd wr : Bool) (xlate : Nat)
  | atsInvalidationRequest (fn : Nat) (pasid : Option Nat) (page npages itag : Nat)
  | atsInvalidationDone (fn itag : Nat)
  | sliceBoundary (job busy : Nat)
  | jobEnd (job overlapFree : Nat) (ecc : JobEcc)
  | leafAssign (job : Nat)
  | headAdvance (client q : Nat)
  | headMirrorWrite (client q : Nat)
  | completionRecordWrite (client q : Nat)
  | tnCrConsWrite (client : Nat) (v : W32)
  | fenceEnd (job : Nat)
  | nop (job : Nat)
  | fence (job : Nat)
  | stamp (job : Nat)
  | aesGcmEnc (job : Nat)
  | aesGcmDec (job : Nat)
  | aesCcmEnc (job : Nat)
  | aesCcmDec (job : Nat)
  | aesCbcEnc (job : Nat)
  | aesCbcDec (job : Nat)
  | aesCtr (job : Nat)
  | aesXtsEnc (job : Nat)
  | aesXtsDec (job : Nat)
  | chachaPolyEnc (job : Nat)
  | chachaPolyDec (job : Nat)
  | aesGmac (job : Nat)
  | tls13RecSeal (job : Nat)
  | tls13RecOpen (job : Nat)
  | espSeal (job : Nat)
  | espOpen (job : Nat)
  | hash (job : Nat)
  | shakeXof (job : Nat)
  | hmacGen (job : Nat)
  | hmacVerify (job : Nat)
  | kmac (job : Nat)
  | cmacGen (job : Nat)
  | cmacVerify (job : Nat)
  | rsaPriv (job : Nat) (fault : Bool)
  | rsaPub (job : Nat)
  | ecdsaSign (job : Nat) (fault : Bool)
  | ecdsaVerify (job : Nat)
  | eddsaSign (job : Nat) (fault : Bool)
  | eddsaVerify (job : Nat)
  | ecdh (job : Nat) (fault : Bool)
  | xdh (job : Nat) (fault : Bool)
  | modexpRaw (job : Nat)
  | ecPointMulRaw (job : Nat) (fault : Bool)
  | mlkemKeygen (job : Nat)
  | mlkemEncap (job : Nat)
  | mlkemDecap (job : Nat)
  | mldsaKeygen (job : Nat)
  | mldsaSign (job : Nat)
  | mldsaVerify (job : Nat)
  | keyGenerate (job : Nat)
  | keyDerive (job : Nat)
  | keyWrap (job : Nat)
  | keyUnwrap (job : Nat)
  | keyCheckValue (job : Nat)
  | keyInvalidate (job : Nat)
  | keyAttest (job : Nat)
  | keyAgreeToSlot (job : Nat) (fault : Bool)
  | random (job : Nat)
  | ctxExport (job : Nat)
  | ctxImport (job : Nat)
  | scrubPassStart
  | scrubSlotVisit
  | ksZeroiseStart
  | zeroisationStep5Done
  | ksProvGenerate
  | ksProvUnwrap
  | ksProvInvalidate
  | ksProvOp3
  | provDone (read : ReadEnd) (blob : Bytes)
  | todWord (w : BitVec 128)
  | freezeEnd
  | todLost
  | errorBoundExceeded
  | ppsEdge (sub : Nat)
  | ppsTimeout
  | epochClose (lost : List Nat) (corrected : Nat)
  | epochReservationWriteDone
  | receiptCheckpoint
  | ckptLate
  | wgMlogConsWrite (v : W32)
  | tnRlogConsWrite (client : Nat) (v : W32)
  | peerWordWrite (w : PeerWord)
  | packetRead (ecc : List Nat) (corrected : Nat)
  | peerEgressHandoff (ready : Bool)
  | piPeerReset (p : Nat)
  | peerResetDone
  | piCommit
  | tnAdmCreate
  | tnAdmResize
  | tnAdmDestroy
  | tnAdmOp0
  | admKeeperTimeout
  | destroyComplete (client : Nat)
  | tnDmawEntryWrite (reg : DmawReg) (v : W64)
  | tnDmawFlip (client : Nat)
  | dmawFlipEffect (client : Nat)
  | dmawFlipDrained (client : Nat)
  | hiWttFlip
  | wttFlipEffect
  | wttFlipDrained
  | mbH2kMsgWrite (client : Nat) (v : W32)
  | h2kKeeperRead (client : Nat) (read : ReadEnd) (body : Bytes)
  | echo (client : Nat)
  | unknownType (client : Nat)
  | k2hPost (client : Nat)
  | mbK2hMsgRead (client : Nat)
  | mbPoolRegister (client : Nat) (reg : PoolReg)
  | bmeClear (fn : Nat)
  | bmeSet (fn : Nat)
  | flr (fn : Nat)
  | flrReadsDrained (fn : Nat)
  | flrDone (fn : Nat)
  | d3hotEntry (fn : Nat)
  | d3hotToD0 (fn : Nat)
  | vfEnableClear
  | msixMessageSend (client vec : Nat)
  | moderationIntervalEnd (client vec : Nat)
  | msixMaskWrite (client : Nat) (w : MaskWrite)
  | linkIdleSignal
  | doeDiscovery (index : Nat)
  | getVersion
  | getCapabilities
  | negotiateAlgorithms (sha256 sha384 ed25519 : Bool)
  | getDigests
  | getCertificate (slot off len : Nat)
  | challenge (c : SpdmChallenge)
  | getMeasurements (index : Nat) (signed : Bool) (nonce : Bytes)
  | spdmUnsupportedRequest (code : BitVec 8)
  | doeAbort
  | setEndpointId (eid : BitVec 8)
  | getEndpointId
  | getMctpVersionSupport (msgType : BitVec 8)
  | getMessageTypeSupport
  | getVendorDefinedMessageSupport (selector : Nat)
  | readState (inst : Byte) (kind index : Nat)
  | combCmd (inst : Byte) (comb : Nat) (word : W32)
  | queueCmd (inst : Byte) (pool : Nat) (word : W64)
  | readSticky (inst : Byte)
  | clearSticky (inst : Byte) (mask : BitVec 256)
  | eventRecordWrite (source : Nat)
  | evLogConsWrite (v : W32)
  | evPendClear (i : Nat) (mask : W32) (raised : W32)
  | evRouteWrite (v : W32)
  | stickyClear (i : Nat) (mask : W32)
  | cbCmdOnline (comb : Nat) (gen : BitVec 16)
  | cbCmdOffline (comb : Nat) (gen : BitVec 16)
  | cbCmdInvalid (comb : Nat) (word : W32)
  | combDrainEnd (comb : Nat)
  | tamperInTrip (n : Nat) (high : Bool)
  | voltageTrip (domain : Fin 5) (reads : Supply)
  | pllLockLoss
  | refclkFrequencyTrip (outside : Bool)
  | temperatureTrip (outside : Bool)
  | pllRelockRetry (locked : Bool)
  | tpLatchClear (mask : BitVec 7)
  | lcToTestUnlocked (k : Nat) (confirm : BitVec 16)
  | lcToTestLocked (k : Nat) (confirm : BitVec 16)
  | lcToManufactured (confirm : BitVec 16)
  | lcToProvisioned (confirm : BitVec 16)
  | lcToRma (confirm : BitVec 16)
  | lcToScrap (confirm : BitVec 16)
  | lcTransitionRefused (target confirm : BitVec 16)
  | lcTransitionOtpDone
  | lcDbgReqDebug
  | lcDbgReqRma
  | lcRespCommit
  | debugAuthVerifyDone (read : ReadEnd) (resp : Bytes)
  | substitutionRefDeadline
  | substitutionZeroise
  | cfUpdCommit
  | updatePhaseDone (read : ReadEnd) (buf : Bytes)
  | updateKeeperTimeout
  | hvSleepEnter (key : Byte)
  | sleepEntryDone
  | hvSleepWake (key : Byte)
  | sleepWake (cause : Nat)
  | wakeDone
  | tnQcfgSelWrite (client : Nat) (v : W32)
  | tnQcfgCommit (client : Nat)
  | tnCrSelWrite (client : Nat) (v : W32)
  | tnCrCommit (client : Nat)
  | tnRlogCommit (client : Nat)
  | schCommit
  | wgSyncCommit
  | wgMlogCommit
  | wgTselWrite (v : W32)
  | wgTcommit
  | evLogCommit
  | registerWrite (who : Requester) (a : Access) (n : Nat) (data : W64)
  | rcRegisterRead (who : Requester) (a : Access) (n : Nat)
  | splitReadLatch (who : Requester) (a : Access)
  | entropySourceHealthFail
  | debugKeeperHalt (cmd : DbgCmd)
deriving DecidableEq, Repr

end Sys2Proof
end

