-- ==== Sys2Proof/WellFormed.lean ====
section
/-! DEFINITION. The commands whose operands lie in the ranges the spec gives them. An ill-formed
command changes nothing (log entry 2). -/

namespace Sys2Proof

/-- A client number of R218. -/
def okClient (c : Nat) : Bool := c < 4160
/-- A function number (R2). -/
def okFn (c : Nat) : Bool := c < 4096
/-- A queue number of R73: 15 bits. -/
def okQueue (c q : Nat) : Bool := okClient c && q < 16384
/-- A vector of R73: 11 bits. -/
def okVec (v : Nat) : Bool := v < 2048

/-- The operands of a command lie in their ranges. -/
def Instr.wf : Instr → Bool
  | .qDbWrite c q _ | .qDbNodataWrite c q | .producerMirrorReadDone c q | .pushStagingTimeout c q
  | .descriptorPrefetch c q _ | .descriptorFetchDone c q _ | .qCmdEnable c q _ _
  | .qCmdPause c q _ _ | .pauseAck c q | .qCmdResume c q _ _ | .qCmdReset c q _ _ | .resetAck c q
  | .qCmdInvalidate c q _ _ _ _ | .invalidateAck c q | .qCmdRestart c q _ _ | .restartAck c q
  | .queueDrainEnd c q | .headAdvance c q | .headMirrorWrite c q | .completionRecordWrite c q
  | .qCmdReserved c q _ _ => okQueue c q
  | .pushWindowWrite c q off _ d => okQueue c q && off < 512 && 0 < d.length
  | .nonceReservationWriteDone c _ | .tnCrConsWrite c _ | .tnRlogConsWrite c _ | .destroyComplete c
  | .tnDmawFlip c | .dmawFlipEffect c | .dmawFlipDrained c | .tnQcfgSelWrite c _ | .tnQcfgCommit c
  | .tnCrSelWrite c _ | .tnCrCommit c | .tnRlogCommit c => okClient c
  | .mbH2kMsgWrite c _ | .h2kKeeperRead c _ _ | .echo c | .unknownType c | .k2hPost c
  | .mbK2hMsgRead c | .mbPoolRegister c _ | .msixMaskWrite c _ => okFn c
  | .bmeClear f | .bmeSet f | .flr f | .flrReadsDrained f | .flrDone f | .d3hotEntry f
  | .d3hotToD0 f | .atsTranslationCompletion f _ _ _ _ _ | .atsInvalidationRequest f _ _ _ _
  | .atsInvalidationDone f _ => okFn f
  | .msixMessageSend c v | .moderationIntervalEnd c v => okFn c && okVec v
  | .peerWordWrite w => w.data.length = 64 && w.prio < 8 && w.client < 64 && w.nbytes < 64
  | .piPeerReset p => p < 64
  | .tamperInTrip n _ => n < 4
  | .debugKeeperHalt (.token k _) => k < 8
  | .lcToTestUnlocked k _ | .lcToTestLocked k _ => k < 8
  | .evPendClear i _ _ => i < 16
  | .stickyClear i _ => i < 8
  | .cbCmdOnline c _ | .cbCmdOffline c _ | .cbCmdInvalid c _ | .combDrainEnd c => c < 64
  | .ppsEdge sub => sub < 4
  | .sleepWake cause => 1 ≤ cause && cause ≤ 8
  | .registerWrite _ _ n _ => n = 1 || n = 2 || n = 4 || n = 8
  | .rcRegisterRead _ _ n => n = 1 || n = 2 || n = 4 || n = 8
  | .getCertificate slot off len => slot < 8 && off < 65536 && len < 65536
  | .challenge c => c.slot < 8 && c.nonce.length = 32
  | .getMeasurements i _ nonce => i < 256 && (nonce.length = 32 || nonce.isEmpty)
  | _ => true

end Sys2Proof
end

