-- ==== Sys2Proof/Decode.lean ====
section
/-! DEFINITION. The command a word of the opcode table spells. The table gives no row any bits:
the rows are commands and events of a block, which reach it as register accesses, bus events and
pin events, so no word spells one. -/

namespace Sys2Proof

/-- The command a word of `nbits` bits spells by the table: none, for every word. -/
def decodeTableWord (_nbits _w : Nat) : Option Instr := none

end Sys2Proof
end

