-- ==== Sys2Proof/Machine/Bytes.lean ====
section
/-! DEFINITION. Byte strings: the little-endian fields of R17, the big-endian integers of R18, and
slices. -/

namespace Sys2Proof.Machine

/-- The bytes from `off`, at most `n` of them. -/
def slice (b : Bytes) (off n : Nat) : Bytes := (b.drop off).take n

/-- `n` zero bytes. -/
def zeros (n : Nat) : Bytes := List.replicate n 0

/-- Exactly `n` bytes: cut, or filled up with zero bytes. -/
def fit (b : Bytes) (n : Nat) : Bytes := b.take n ++ zeros (n - b.length)

/-- The value of a little-endian byte string (R17). -/
def leNat : Bytes → Nat
  | [] => 0
  | x :: t => x.toNat + 256 * leNat t

/-- `n` little-endian bytes of `v` (R17). -/
def natLe : Nat → Nat → Bytes
  | 0, _ => []
  | n + 1, v => BitVec.ofNat 8 v :: natLe n (v / 256)

/-- The value of a big-endian byte string (R18). -/
def beNat (b : Bytes) : Nat := b.foldl (fun a x => a * 256 + x.toNat) 0

/-- `n` big-endian bytes of `v` (R18). -/
def natBe (n v : Nat) : Bytes := (natLe n v).reverse

/-- The little-endian field of `n` bytes at `off`. -/
def leAt (b : Bytes) (off n : Nat) : Nat := leNat (slice b off n)

/-- Bits `hi:lo` of a number. -/
def bits (v hi lo : Nat) : Nat := (v >>> lo) % 2 ^ (hi + 1 - lo)

/-- Bit `i` of a number. -/
def bit (v i : Nat) : Bool := v.testBit i

/-- The exclusive or of two byte strings, as long as the shorter. -/
def xorB (a b : Bytes) : Bytes := List.zipWith (· ^^^ ·) a b

/-- The byte string in pieces of `n` bytes, the last one shorter; `fuel` bounds the pieces. -/
def chunksF (n : Nat) : Nat → Bytes → List Bytes
  | 0, _ => []
  | fuel + 1, b => if b.isEmpty then [] else b.take n :: chunksF n fuel (b.drop n)

/-- The byte string in pieces of `n` bytes, the last one shorter. -/
def chunks (n : Nat) (b : Bytes) : List Bytes := chunksF n b.length b

/-- Every byte is zero. -/
def allZero (b : Bytes) : Bool := b.all (· == 0)

/-- The bytes of `b` from `off` replaced by those of `v`. -/
def patch (b : Bytes) (off : Nat) (v : Bytes) : Bytes :=
  b.take off ++ v ++ b.drop (off + v.length)

/-- The bytes of a byte string written as a bit vector of `n` bytes, most significant first. -/
def bvBe {w : Nat} (n : Nat) (v : BitVec w) : Bytes := natBe n v.toNat

/-- The bytes of a bit vector, least significant first. -/
def bvLe {w : Nat} (n : Nat) (v : BitVec w) : Bytes := natLe n v.toNat

/-- The characters of a text as bytes, for the labels and constants the cited standards spell. -/
def ascii (t : String) : Bytes := t.toList.map fun c => BitVec.ofNat 8 c.toNat

/-- `⌈a ÷ b⌉`. -/
def ceilDiv (a b : Nat) : Nat := (a + b - 1) / b

end Sys2Proof.Machine
end

