-- ==== Sys2Proof/Machine/Tbl.lean ====
section
/-! DEFINITION. Sparse tables: lists of (number, value) pairs with numbers strictly rising and no
entry equal to the value an unlisted number has, so that equal tables are equal data. -/

namespace Sys2Proof.Machine

/-- A sparse table from numbers to `V`. -/
abbrev Tbl (V : Type) := List (Nat × V)

/-- The value at `k`, `d` where nothing is listed. -/
def tblGet {V : Type} (d : V) : Tbl V → Nat → V
  | [], _ => d
  | (j, v) :: t, k => if j = k then v else tblGet d t k

/-- The table without an entry at `k`. -/
def tblErase {V : Type} : Tbl V → Nat → Tbl V
  | [], _ => []
  | (j, v) :: t, k => if j = k then t else (j, v) :: tblErase t k

/-- The table with `v` listed at `k`, numbers kept rising. -/
def tblPut {V : Type} : Tbl V → Nat → V → Tbl V
  | [], k, v => [(k, v)]
  | (j, w) :: t, k, v =>
    if k < j then (k, v) :: (j, w) :: t
    else if j = k then (k, v) :: t
    else (j, w) :: tblPut t k v

/-- The table with `v` at `k`; writing what an unlisted number has removes the entry. -/
def tblSet {V : Type} [DecidableEq V] (d : V) (t : Tbl V) (k : Nat) (v : V) : Tbl V :=
  if v = d then tblErase t k else tblPut t k v

/-- The form every table of the state has. -/
def tblWf {V : Type} [DecidableEq V] (d : V) : Tbl V → Bool
  | [] => true
  | [(_, v)] => decide (v ≠ d)
  | (j, v) :: (k, w) :: t => decide (j < k) && decide (v ≠ d) && tblWf d ((k, w) :: t)

/-- Every listed value changed by `f`, entries that become `d` removed. -/
def tblMap {V : Type} [DecidableEq V] (d : V) (f : Nat → V → V) : Tbl V → Tbl V
  | [] => []
  | (k, v) :: t => if f k v = d then tblMap d f t else (k, f k v) :: tblMap d f t

/-- The entries whose number and value meet `p` removed. -/
def tblDrop {V : Type} (p : Nat → V → Bool) (t : Tbl V) : Tbl V :=
  t.filter fun e => !p e.1 e.2

/-- The numbers listed. -/
def tblKeys {V : Type} (t : Tbl V) : List Nat := t.map (·.1)

/-- How many listed entries meet `p`. -/
def tblCount {V : Type} (p : Nat → V → Bool) (t : Tbl V) : Nat :=
  (t.filter fun e => p e.1 e.2).length

end Sys2Proof.Machine
end

