-- ==== Sys2Proof/Machine/StateQueue.lean ====
section
/-! DEFINITION. The state of queues, completion rings, jobs and stream contexts (chapters 02 to 07
of spec/). Default values are those after cold power-on. -/

namespace Sys2Proof.Machine

/-- The state codes of R67. -/
inductive QState where
  | disabled | active | stopped | draining | paused | frozen
deriving DecidableEq, Repr

/-- Committed values of the queue configuration group (R73). -/
structure QCfg where
  ring     : W64 := 0
  pmirror  : W64 := 0
  hmirror  : W64 := 0
  sizeLog2 : Nat := 0
  crEn     : Bool := false
  crId     : Nat := 0
  vec      : Nat := 0
  init     : W32 := 0
deriving DecidableEq, Repr

/-- One push-window slot being staged: its bytes and which of them were written (R51). -/
structure StagedSlot where
  data : Bytes := zeros 64
  mask : BitVec 64 := 0
deriving DecidableEq, Repr

/-- A held copy of a ring slot: fetched or pushed, or a read that failed (R53, R54, R100). -/
structure CachedSlot where
  data   : Bytes := []
  pushed : Bool := false
  /-- the index of slot 0 of its push -/
  push   : W32 := 0
  bad    : Bool := false
deriving DecidableEq, Repr

/-- The producer mirror read of R49: the outstanding read, its result, whether a further read is
wanted and whether its value is discarded. -/
structure MirrorRead where
  busy    : Bool := false
  again   : Bool := false
  discard : Bool := false
  result  : Option (Option W32) := none
deriving DecidableEq, Repr

/-- The command a queue has accepted and not acknowledged (R71). -/
inductive QPending where
  | pause | reset | invalidate (late : Bool) | restart
deriving DecidableEq, Repr

/-- A queue of a client: its configuration, its state word, its indices, and what the forager and
the dispatcher hold for it (R43 to R75). -/
structure Queue where
  cfg       : QCfg := {}
  state     : QState := .disabled
  gen       : BitVec 11 := 0
  stop      : BitVec 8 := 0
  pi        : W32 := 0
  head      : W32 := 0
  errIdx    : W32 := 0
  cmdResult : Nat := 0
  cmd       : Option QPending := none
  /-- a RESET is under way: of Q_CMD, or of the Hive itself (R68, R71, R293, R299) -/
  resetting : Bool := false
  crPending : Bool := false
  pushDrop  : Bool := false
  dbIgnored : Bool := false
  staged    : Tbl StagedSlot := []
  stagedBad : Bool := false
  stagedAt  : Option Nat := none
  mirror    : MirrorRead := {}
  cache     : Tbl CachedSlot := []
  fetching  : List Nat := []
  /-- the index of the next descriptor to check at stage 3 -/
  chk       : W32 := 0
  /-- accepted producer values with their acceptance stamps, oldest first (R258) -/
  accepts   : List (W32 × Nat) := []
  stopPt    : Option W32 := none
  drainEnd  : Option W32 := none
  /-- jobs that passed stage 3 and are not dispatched, in queue order -/
  ready     : List Nat := []
  /-- dispatched jobs that HEAD has not passed, in queue order: the reorder window (R115) -/
  window    : List Nat := []
  /-- a head mirror write is due (R60) -/
  hmDue     : Bool := false
  /-- a completion record is due (R63, R65) -/
  crDue     : Bool := false
  /-- the ring whose record is due or pending (R62, R65) -/
  crAt      : Nat := 0
  /-- what the next head mirror write has to tell: an interrupt, a change of STATE or STOP (R61, R63) -/
  irqDue    : Bool := false
  chgDue    : Bool := false
  /-- IRQ and STATE_CHANGE of the record that is due or pending (R63) -/
  crIrq     : Bool := false
  crChg     : Bool := false
  clearExport : Bool := false
  /-- the queue leaves its function when it is DISABLED (R293, R299) -/
  leaving   : Bool := false
deriving DecidableEq, Repr

/-- A completion ring context (R62 to R65, R74). -/
structure CrRing where
  base     : W64 := 0
  sizeLog2 : Nat := 0
  enable   : Bool := false
  vec      : Nat := 0
  tail     : W32 := 0
  cons     : W32 := 0
  overflow : Bool := false
  consErr  : Bool := false
  /-- overflow mode (R65) -/
  mode     : Bool := false
  /-- one past the queue that overflow recovery served last -/
  lastServed : Nat := 0
deriving DecidableEq, Repr

/-- Where a job came from: slot index `idx` of queue `q` of a client, or packet `seq` of a
priority of a peer client (R29, R30). -/
inductive JobSrc where
  | ring (q : Nat) (idx : W32)
  | peer (prio : Nat) (seq : W32) (pkt : Nat)
  | prov
deriving DecidableEq, Repr

/-- How far a job has come through the stages of R29. -/
inductive Stage where
  /-- passed stage 3, waits for dispatch (stage 4) -/
  | ready
  /-- placed; waits for stage 5 -/
  | key
  /-- stage 6 -/
  | run
  /-- saved at a slice boundary; resumable (R119) -/
  | saved
  /-- the cell has reported its status -/
  | cellDone
  /-- stage 8, not yet assigned (R262) -/
  | leaf
  /-- ended (R58) -/
  | ended
deriving DecidableEq, Repr

/-- One segment of a source or destination (R87). -/
structure Seg where
  addr    : W64 := 0
  len     : Nat := 0
  noSnoop : Bool := false
deriving DecidableEq, Repr

/-- What the forager is reading for a job at stage 6 (R89 to R93). -/
inductive Gather where
  | idle
  | srcList (i : Nat)
  | src
  | dstList (i : Nat)
  | done
deriving DecidableEq, Repr

/-- The cell kinds of a comb. -/
inductive Cell where
  | bulk | digest | number | lattice
deriving DecidableEq, Repr

/-- A job: the execution of one descriptor (R29, R95 to R98). -/
structure Job where
  client   : Nat := 0
  src      : JobSrc := .prov
  /-- QS_POLICY.CLEAR_EXPORT of its queue at stage 3 (R131) -/
  clear    : Bool := false
  /-- the bytes of every slot of the descriptor -/
  desc     : Bytes := []
  stage    : Stage := .ready
  /-- the engine the job is charged to (R106) -/
  acct     : Account := .none
  comb     : Option Nat := none
  /-- the job holds its place in the latency lane (R114) -/
  lane     : Bool := false
  /-- the order in which jobs were placed on cells; 0 before -/
  seat     : Nat := 0
  /-- the job has left its cell (R22, R113) -/
  left     : Bool := false
  /-- the step of R107 that took it, 0 before -/
  step     : Nat := 0
  charged  : Bool := false
  /-- cycles of the 256 paid at dispatch not yet used up (R109) -/
  credit   : Nat := 0
  sliceLog2 : Nat := 14
  /-- source bytes consumed up to the last slice boundary passed, and up to the last resumption (R116) -/
  sliced   : Nat := 0
  base     : Nat := 0
  /-- slices run since the last resumption (R117) -/
  since    : Nat := 0
  /-- the saved state lies in the preemption reserve (R118) -/
  inReserve : Bool := false
  preempted : Bool := false
  demoted  : Bool := false
  /-- positions of key slots the job holds references on (R120) -/
  refs     : List Nat := []
  /-- the run the job has reserved (R233) -/
  reserved : List Nat := []
  keyMat   : Bytes := []
  wrapMat  : Bytes := []
  /-- the random share that travels beside the masked material; the two joined are `keyMat` (R221) -/
  keyShare : Bytes := []
  /-- the random share of the second key on the lane: the one KEY_WRAP wraps, or the one a job commits (R221) -/
  lane2    : Bytes := []
  nonce    : Option Bytes := none
  /-- the stream's context is held by the job; its opcode was DONE before, at a restart (R175) -/
  holdsCtx : Bool := false
  restarted : Bool := false
  /-- the jobs a FENCE recorded (R129) -/
  waits    : List Nat := []
  /-- staging pages reserved, or in transit (R150) -/
  pages    : Nat := 0
  gather   : Gather := .idle
  srcSegs  : List Seg := []
  dstSegs  : List Seg := []
  /-- source bytes received: by the offset of their request, then joined; and the offsets of the requests
  not yet answered -/
  parts    : Tbl Bytes := []
  /-- which of them came from the host and hold room of the completion buffer (R332) -/
  hostParts : List Nat := []
  got      : Bytes := []
  open_    : List Nat := []
  trunc    : Bool := false
  pass2    : Bool := false
  pass1Tag : Bytes := []
  /-- what the cell produced -/
  output   : Bytes := []
  status   : BitVec 8 := 0
  detail   : BitVec 8 := 0
  opInfo   : Nat := 0
  nbytes   : Nat := 0
  digest   : Bytes := []
  noComb   : Bool := false
  tArrive  : Nat := 0
  tDone    : Nat := 0
  record   : Bytes := []
  isLeaf   : Bool := false
  pendingLeaf : Bool := false
  epoch    : Nat := 0
  leafIdx  : Nat := 0
  /-- destination bytes whose writes were issued -/
  written  : Nat := 0
  unsync   : Bool := false
  twoPass  : Bool := false
  combState : Nat := 0
  /-- busy cycles: of the block stage in all, reported at slice boundaries, and of saves and restores
  not yet charged (R109) -/
  cycles   : Nat := 0
  busy     : Nat := 0
  extra    : Nat := 0
deriving DecidableEq, Repr

/-- The context states of R121. -/
inductive CtxState where
  | closed | opened | held | done
deriving DecidableEq, Repr

/-- A context of a client: its binding, and the state of its stream (R121 to R127, R174). -/
structure Ctx where
  state   : CtxState := .closed
  /-- the state a CTX_EXPORT or CTX_IMPORT that holds it found -/
  was     : CtxState := .closed
  opcode  : Nat := 0
  alg     : Nat := 0
  keySlot : Nat := 0
  keyGen  : BitVec 16 := 0
  /-- the job that holds it -/
  holder  : Nat := 0
  /-- the algorithm's chaining state, and the bytes consumed so far -/
  chain   : Bytes := []
  done    : Nat := 0
  aad     : Nat := 0
  nonce   : Bytes := []
  hwNonce : Bool := false
  s       : Bytes := []
deriving DecidableEq, Repr

end Sys2Proof.Machine
end

