-- ==== Sys2Proof/Machine/Operands.lean ====
section
/-! DEFINITION. The descriptor: its opcodes, its header fields, its parameter slot and inline list,
its lengths (R76 to R92, R81, R84, R85, R134, R168, R192), and the job status and stop codes (R102,
R103). A descriptor is the byte string of its slots. -/

namespace Sys2Proof.Machine

/-- The opcodes of R81. -/
inductive Op where
  | nop | fence | stamp
  | aesGcmEnc | aesGcmDec | aesCcmEnc | aesCcmDec | aesCbcEnc | aesCbcDec | aesCtr | aesXtsEnc
  | aesXtsDec | chachaPolyEnc | chachaPolyDec | aesGmac
  | tls13RecSeal | tls13RecOpen | espSeal | espOpen
  | hash | hmacGen | hmacVerify | kmac | cmacGen | cmacVerify | shakeXof
  | rsaPriv | rsaPub | ecdsaSign | ecdsaVerify | eddsaSign | eddsaVerify | ecdh | xdh | modexpRaw
  | ecPointMulRaw
  | mlkemKeygen | mlkemEncap | mlkemDecap | mldsaKeygen | mldsaSign | mldsaVerify
  | keyGenerate | keyDerive | keyWrap | keyUnwrap | keyCheckValue | keyInvalidate | keyAttest
  | keyAgreeToSlot
  | random | ctxExport | ctxImport
deriving DecidableEq, Repr

/-- The opcode table of R81. -/
def opTable : List (Nat × Op) :=
  [(0x0000, .nop), (0x0001, .fence), (0x0002, .stamp), (0x0101, .aesGcmEnc), (0x0102, .aesGcmDec),
    (0x0103, .aesCcmEnc), (0x0104, .aesCcmDec), (0x0105, .aesCbcEnc), (0x0106, .aesCbcDec),
    (0x0107, .aesCtr), (0x0108, .aesXtsEnc), (0x0109, .aesXtsDec), (0x010A, .chachaPolyEnc),
    (0x010B, .chachaPolyDec), (0x010C, .aesGmac)] ++
  [(0x0110, .tls13RecSeal), (0x0111, .tls13RecOpen), (0x0112, .espSeal), (0x0113, .espOpen),
    (0x0201, .hash), (0x0202, .hmacGen), (0x0203, .hmacVerify), (0x0204, .kmac),
    (0x0205, .cmacGen), (0x0206, .cmacVerify), (0x0207, .shakeXof)] ++
  [(0x0301, .rsaPriv), (0x0302, .rsaPub), (0x0303, .ecdsaSign), (0x0304, .ecdsaVerify),
    (0x0305, .eddsaSign), (0x0306, .eddsaVerify), (0x0307, .ecdh), (0x0308, .xdh),
    (0x0309, .modexpRaw), (0x030A, .ecPointMulRaw), (0x0401, .mlkemKeygen), (0x0402, .mlkemEncap),
    (0x0403, .mlkemDecap), (0x0404, .mldsaKeygen), (0x0405, .mldsaSign), (0x0406, .mldsaVerify)] ++
  [(0x0501, .keyGenerate), (0x0502, .keyDerive), (0x0503, .keyWrap), (0x0504, .keyUnwrap),
    (0x0505, .keyCheckValue), (0x0506, .keyInvalidate), (0x0507, .keyAttest),
    (0x0508, .keyAgreeToSlot), (0x0601, .random), (0x0701, .ctxExport), (0x0702, .ctxImport)]

/-- The opcode of a code, none outside the table. -/
def opOf (code : Nat) : Option Op := (opTable.find? fun e => e.1 == code).map (·.2)

/-- The code of an opcode. -/
def opCode (o : Op) : Nat :=
  match opTable.find? fun e => e.2 == o with
  | some e => e.1
  | none => 0

/-! ## Header fields (R76, R78, R84) -/

def dCode (d : Bytes) : Nat := leAt d 0 2
def dOp (d : Bytes) : Option Op := opOf (dCode d)
def dSlots (d : Bytes) : Nat := leAt d 2 1
def dFlags (d : Bytes) : Nat := leAt d 4 2
def dAlg (d : Bytes) : Nat := leAt d 6 1
def dKeySlot (d : Bytes) : Nat := bits (leAt d 8 4) 19 0
def dCtx (d : Bytes) : Nat := bits (leAt d 12 4) 16 0
def dMsg (d : Bytes) : Nat := leAt d 16 5
def dAad (d : Bytes) : Nat := leAt d 21 3
def dSrc (d : Bytes) : Nat := leAt d 24 8
def dDst (d : Bytes) : Nat := leAt d 32 8
def dResult (d : Bytes) : Nat := leAt d 40 8
def dCookie (d : Bytes) : Bytes := slice d 48 8
def dSrcN (d : Bytes) : Nat := leAt d 56 2
def dDstN (d : Bytes) : Nat := leAt d 58 2
def dParam (d : Bytes) : Nat := leAt d 60 4

def dReceipt (d : Bytes) : Bool := bit (dFlags d) 2
def dCommit (d : Bytes) : Bool := bit (dFlags d) 3
def dIrq (d : Bytes) : Bool := bit (dFlags d) 4
def dInline (d : Bytes) : Bool := bit (dFlags d) 5
def dFenceBefore (d : Bytes) : Bool := bit (dFlags d) 6
def dClass (d : Bytes) : Nat := bits (dFlags d) 8 7

def dTagLen (d : Bytes) : Nat := bits (dParam d) 4 0
/-- T of R81. -/
def dT (d : Bytes) : Nat := if dTagLen d = 0 then 16 else dTagLen d
def dIvLen (d : Bytes) : Nat := bits (dParam d) 12 8
def dVerify (d : Bytes) : Bool := bit (dParam d) 16
def dPad (d : Bytes) : Bool := bit (dParam d) 17
def dDu (d : Bytes) : Nat := bits (dParam d) 27 24
def dOutLen (d : Bytes) : Nat := bits (dParam d) 23 0
def dSLen (d : Bytes) : Nat := bits (dParam d) 31 24
def dVariant (d : Bytes) : Nat := bits (dParam d) 7 0
def dHash (d : Bytes) : Nat := bits (dParam d) 15 8
def dSub (d : Bytes) : Nat := bits (dParam d) 7 0
def dLabelLen (d : Bytes) : Nat := bits (dParam d) 15 8
def dPr (d : Bytes) : Bool := bit (dParam d) 0

/-- The sum of R77 over slot 0. -/
def headerSum (slot0 : Bytes) : Nat := (slot0.foldl (fun a b => a + b.toNat) 0) % 256

/-! ## What R81 says of each opcode -/

/-- The opcode is streamable. -/
def Op.streamable : Op → Bool
  | .aesGcmEnc | .chachaPolyEnc | .aesGmac | .aesCbcEnc | .aesCbcDec | .aesCtr | .hash | .shakeXof
  | .hmacGen | .hmacVerify | .kmac | .cmacGen | .cmacVerify => true
  | _ => false

/-- KEY_SLOT names a key the job uses. -/
def Op.usesKey : Op → Bool
  | .nop | .fence | .stamp | .hash | .shakeXof | .rsaPub | .modexpRaw | .ecPointMulRaw
  | .ecdsaVerify | .eddsaVerify | .mldsaVerify | .mlkemEncap | .random | .ctxExport | .ctxImport =>
    false
  | _ => true

/-- The L column of the table reads 0, RANDOM included. -/
def Op.noSource : Op → Bool
  | .nop | .fence | .stamp | .mlkemKeygen | .mldsaKeygen | .keyGenerate | .keyWrap | .keyCheckValue
  | .keyInvalidate | .random | .ctxExport => true
  | _ => false

/-- L contains AAD_LEN. -/
def Op.hasAad : Op → Bool
  | .aesGcmEnc | .chachaPolyEnc | .aesCcmEnc | .aesGcmDec | .aesCcmDec | .chachaPolyDec
  | .tls13RecSeal | .tls13RecOpen | .espSeal | .espOpen => true
  | _ => false

/-- An authenticated decryption with staged or two-pass output (R149). -/
def Op.aeadDec : Op → Bool
  | .aesGcmDec | .aesCcmDec | .chachaPolyDec | .tls13RecOpen | .espOpen => true
  | _ => false

/-- A digest opcode: 0x02xx. -/
def Op.digest : Op → Bool
  | .hash | .hmacGen | .hmacVerify | .kmac | .cmacGen | .cmacVerify | .shakeXof => true
  | _ => false

/-- The opcode carries a key block. -/
def Op.keyBlock : Op → Bool
  | .mlkemKeygen | .mldsaKeygen | .keyGenerate | .keyDerive | .keyWrap | .keyUnwrap
  | .keyAgreeToSlot => true
  | _ => false

/-- The opcode creates the slot its key block names (R233). -/
def Op.creates : Op → Bool
  | .mlkemKeygen | .mldsaKeygen | .keyGenerate | .keyDerive | .keyUnwrap | .keyAgreeToSlot => true
  | _ => false

/-- FIRST and FINAL as R79 reads them: a job of an opcode that is not streamable is single-shot. -/
def dFirst (o : Op) (d : Bytes) : Bool := !o.streamable || bit (dFlags d) 0
def dFinal (o : Op) (d : Bytes) : Bool := !o.streamable || bit (dFlags d) 1
/-- A stream descriptor: it names a context (R79). -/
def dStream (o : Op) (d : Bytes) : Bool := o.streamable && !(bit (dFlags d) 0 && bit (dFlags d) 1)
/-- The descriptor names a context. -/
def dUsesCtx (o : Op) (d : Bytes) : Bool := dStream o d || o == .ctxExport || o == .ctxImport

/-- The parameter slot layouts of R85. -/
inductive ParamKind where
  | none | iv | tls | esp | mac | s | key
deriving DecidableEq, Repr

/-- The parameter slot the descriptor carries (R81). -/
def paramKind (o : Op) (d : Bytes) : ParamKind :=
  match o with
  | .aesGcmEnc | .chachaPolyEnc | .aesCcmEnc | .aesGcmDec | .aesCcmDec | .chachaPolyDec
  | .aesXtsEnc | .aesXtsDec => if dIvLen d = 0 then .none else .iv
  | .aesGmac | .aesCbcEnc | .aesCbcDec | .aesCtr => if dFirst o d && dIvLen d != 0 then .iv else .none
  | .tls13RecSeal | .tls13RecOpen => .tls
  | .espSeal | .espOpen => .esp
  | .hmacVerify | .cmacVerify => if dFinal o d then .mac else .none
  | .kmac => if dFirst o d && dSLen d != 0 then .s else .none
  | _ => if o.keyBlock then .key else .none

/-- How many parameter slots the descriptor carries. -/
def paramSlots (o : Op) (d : Bytes) : Nat := if paramKind o d = .none then 0 else 1

/-- The parameter slot. -/
def dBlock (d : Bytes) : Bytes := slice d 64 64

/-- L of R81. -/
def dL (o : Op) (d : Bytes) : Nat :=
  if o.noSource then 0
  else
    match o with
    | .aesGcmDec | .aesCcmDec | .chachaPolyDec => dAad d + dMsg d + dT d
    | .aesGmac => dMsg d + (if dVerify d then dT d else 0)
    | _ => if o.hasAad then dAad d + dMsg d else dMsg d

/-! ## Key block and other parameter fields (R85) -/

def kbTarget (d : Bytes) : Nat := bits (leAt (dBlock d) 0 4) 19 0
def kbPolicy (d : Bytes) : Nat := leAt (dBlock d) 8 8
def kbType (d : Bytes) : Nat := leAt (dBlock d) 16 2
def kbLabel (d : Bytes) : Bytes := slice (dBlock d) 24 (min (dLabelLen d) 40)
def ivBytes (d : Bytes) : Bytes := (dBlock d).take (dIvLen d)
def tlsSeq (d : Bytes) : Nat := leAt (dBlock d) 16 8
def tlsInner (d : Bytes) : Nat := leAt (dBlock d) 24 1
def tlsPad (d : Bytes) : Nat := leAt (dBlock d) 26 2
def espSpi (d : Bytes) : Nat := leAt (dBlock d) 16 4
def espSeq (d : Bytes) : Nat := leAt (dBlock d) 20 8
def espNext (d : Bytes) : Nat := leAt (dBlock d) 28 1
def espAlign (d : Bytes) : Nat := leAt (dBlock d) 29 1

/-! ## Inline entries (R87, R88) -/

/-- The 16-byte entries from byte `off` on. -/
def entryAt (b : Bytes) (off : Nat) : Seg :=
  { addr := BitVec.ofNat 64 (leAt b off 8), len := leAt b (off + 8) 4, noSnoop := bit (leAt b (off + 12) 4) 0 }

/-- An entry has a non-zero reserved bit. -/
def entryBad (b : Bytes) (off : Nat) : Bool := leAt b (off + 12) 4 / 2 != 0

/-- Where the inline entries begin. -/
def inlineAt (o : Op) (d : Bytes) : Nat := 64 * (1 + paramSlots o d)

def inlineN (d : Bytes) : Nat := if dInline d then dSrcN d + dDstN d else 0

def inlineSegs (o : Op) (d : Bytes) (from_ n : Nat) : List Seg :=
  (List.range n).map fun i => entryAt d (inlineAt o d + 16 * (from_ + i))

def inlineSrc (o : Op) (d : Bytes) : List Seg := inlineSegs o d 0 (dSrcN d)
def inlineDst (o : Op) (d : Bytes) : List Seg := inlineSegs o d (dSrcN d) (dDstN d)

/-- The slots a descriptor needs (R88). -/
def minSlots (o : Op) (d : Bytes) : Nat := 1 + paramSlots o d + ceilDiv (inlineN d) 4

/-! ## Key types (R222) -/

/-- The material length of a key type, none outside the table. -/
def keyLen (kt : Nat) : Option Nat :=
  match kt with
  | 0x0001 => some 16
  | 0x0002 => some 24
  | 0x0003 => some 32
  | 0x0004 => some 32
  | 0x0005 => some 64
  | 0x0006 => some 32
  | 0x0180 => some 32
  | 0x0301 => some 32
  | 0x0302 => some 48
  | 0x0303 => some 66
  | 0x0311 => some 32
  | 0x0312 => some 57
  | 0x0321 => some 32
  | 0x0322 => some 56
  | 0x0341 | 0x0342 | 0x0343 => some 64
  | 0x0351 | 0x0352 | 0x0353 => some 32
  | _ =>
    if 0x0110 ≤ kt && kt ≤ 0x0142 then some (kt - 0x0100)
    else if 0x0210 ≤ kt && kt ≤ 0x0280 then some (20 * (kt - 0x0200) + 4)
    else none

/-- A symmetric type: a code below 0x0200. -/
def ktSym (kt : Nat) : Bool := kt < 0x0200 && (keyLen kt).isSome
/-- A secret of n bytes. -/
def ktSecret (kt : Nat) : Bool := 0x0110 ≤ kt && kt ≤ 0x0142
def ktRsa (kt : Nat) : Bool := 0x0210 ≤ kt && kt ≤ 0x0280
/-- A curve type: the key types KEY_GENERATE makes in the number cell (R234). -/
def ktCurve (kt : Nat) : Bool :=
  kt == 0x301 || kt == 0x302 || kt == 0x303 || kt == 0x311 || kt == 0x312 || kt == 0x321 || kt == 0x322
def ktKem (kt : Nat) : Bool := kt == 0x341 || kt == 0x342 || kt == 0x343
def ktDsa (kt : Nat) : Bool := kt == 0x351 || kt == 0x352 || kt == 0x353
/-- The slots a key takes (R220). -/
def runOf (kt : Nat) : Nat := ceilDiv ((keyLen kt).getD 64) 64

/-! ## Sizes of R188 -/

def pubLen (alg : Nat) : Nat :=
  match alg with
  | 0x01 => 65
  | 0x02 => 97
  | 0x03 => 133
  | 0x11 => 32
  | 0x12 => 57
  | 0x21 => 32
  | 0x22 => 56
  | 0x41 => 800
  | 0x42 => 1184
  | 0x43 => 1568
  | 0x51 => 1312
  | 0x52 => 1952
  | 0x53 => 2592
  | _ => 0

def sigLen (alg : Nat) : Nat :=
  match alg with
  | 0x01 => 64
  | 0x02 => 96
  | 0x03 => 132
  | 0x11 => 64
  | 0x12 => 114
  | 0x51 => 2420
  | 0x52 => 3309
  | 0x53 => 4627
  | _ => 0

def scalarLen (alg : Nat) : Nat :=
  match alg with
  | 0x01 => 32
  | 0x02 => 48
  | 0x03 => 66
  | 0x11 => 32
  | 0x12 => 56
  | 0x21 => 32
  | 0x22 => 56
  | _ => 0

/-- f and g of R188. -/
def fieldLen (alg : Nat) : Nat := scalarLen alg

def kemCt (alg : Nat) : Nat := if alg = 0x41 then 768 else if alg = 0x42 then 1088 else 1568

/-- Shared secrets of R207. -/
def secretLen (alg : Nat) : Nat := if 0x41 ≤ alg then 32 else scalarLen alg

/-! ## Output lengths (R134, R168, R192, R241, R245) -/

/-- c of R168, given the full length of the algorithm. -/
def digestOut (o : Op) (d : Bytes) (full : Nat) : Nat :=
  if dOutLen d = 0 && o != .shakeXof then full else dOutLen d

/-- The padding P of R156. -/
def espPadOf (msg align : Nat) : Nat := (align - (msg + 2) % align) % align

/-- The output length that R93 checks, where the descriptor fixes it: KEY_CHECK_VALUE, KEY_WRAP and
CTX_EXPORT have theirs from a slot or a context. `full` is the full output of the digest. -/
def outLen (o : Op) (d : Bytes) (full : Nat) : Nat :=
  let fin := dFinal o d
  let a := dAlg d
  let k := 8 * a
  match o with
  | .aesGcmEnc | .chachaPolyEnc => dMsg d + (if fin then dT d else 0)
  | .aesCcmEnc => dMsg d + dT d
  | .aesGcmDec | .aesCcmDec | .chachaPolyDec => dMsg d
  | .aesGmac => if fin && !dVerify d then dT d else 0
  | .aesCbcEnc => if dPad d then dMsg d + 16 - dMsg d % 16 else dMsg d
  | .aesCbcDec | .aesCtr | .aesXtsEnc | .aesXtsDec => dMsg d
  | .tls13RecSeal => 5 + dMsg d + 1 + tlsPad d + 16
  | .tls13RecOpen => dMsg d - 16
  | .espSeal => 16 + dMsg d + espPadOf (dMsg d) (espAlign d) + 2 + dT d
  | .espOpen => dMsg d - dT d
  | .hash | .shakeXof | .hmacGen | .kmac | .cmacGen => if fin then digestOut o d full else 0
  | .rsaPriv => if dVariant d = 3 then k - 2 * full - 2 else k
  | .rsaPub => if dVariant d = 1 || dVariant d = 2 then 0 else k
  | .modexpRaw => k
  | .ecdsaSign => sigLen a
  | .eddsaSign | .mldsaSign => sigLen a
  | .ecdh | .xdh => scalarLen a
  | .ecPointMulRaw => pubLen a
  | .mlkemKeygen | .mldsaKeygen => pubLen a
  | .mlkemEncap => kemCt a + 32
  | .mlkemDecap => 32
  | .keyGenerate => if ktCurve (kbType d) then pubLen (kbType d % 256) else 0
  | .keyAttest => 216
  | .random => dMsg d
  | _ => 0

/-! ## Status and stop codes (R102, R103) -/

abbrev Status := BitVec 8

def stOk : Status := 0x00
def stTrunc : Status := 0x01
def stAuthFail : Status := 0x10
def stShort : Status := 0x11
def stOrphaned : Status := 0x12
def stPolicy : Status := 0x13
def stExhausted : Status := 0x14
def stCtxNotOpen : Status := 0x15
def stDma : Status := 0x16
def stPoison : Status := 0x17
def stTamper : Status := 0x18
def stRange : Status := 0x19
def stSigInvalid : Status := 0x1A
def stCtxBusy : Status := 0x1B
def stUnsupported : Status := 0x1C

def qerrDoorbell : BitVec 8 := 0x80
def qerrHeader : BitVec 8 := 0x81
def qerrOpcode : BitVec 8 := 0x82
def qerrSlots : BitVec 8 := 0x83
def qerrReserved : BitVec 8 := 0x84
def qerrFetch : BitVec 8 := 0x85
def qerrBme : BitVec 8 := 0x86
def qerrRange : BitVec 8 := 0x87
def qerrFrozen : BitVec 8 := 0x88

end Sys2Proof.Machine
end

