-- ==== Sys2Proof/Config.lean ====
section
/-! DEFINITION. What one part or one board fixes, and every free value: constants without a body,
so that no proof can see what they are. Each is named in the assumption log. -/

namespace Sys2Proof

/-! ## What the part and its board fix -/

/-- GRADE of HV_BUILD (R3, R4): 0 = QH-16 … 3 = QH-64. -/
opaque Config.grade : Fin 4
/-- Bank A and bank B of the external flash as found at power-on (R372). -/
opaque Config.flashA : Bytes
/-- Bank B of the external flash as found at power-on (R372). -/
opaque Config.flashB : Bytes
/-- The raw content of the persistent store before this power-on: for each record, by the identifier it is for, the
address of its bank A and the size of a bank, then bank A and bank B as (ID, SEQ, LEN, CRC, payload) (R382). -/
opaque Config.mram :
  List (Nat × Nat × Nat × (W32 × W32 × W32 × W32 × Bytes) × (W32 × W32 × W32 × W32 × Bytes))
/-- Writes of each 64-byte unit of the persistent store before this power-on (R382). -/
opaque Config.mramWear : List (Nat × Nat)
/-- Which of the free places in the first area of the store a new system record takes (R381); the spec gives none. -/
opaque Config.systemPlace : Nat → Nat
/-- How many key records step 6 of R249 still reaches when a supply of the store fails (R444). -/
opaque Config.erasesReached : Nat → Nat
/-- The bits of a word that the OTP array has programmed when the write of it is cut short (R393, R399). -/
opaque Config.otpCut : Nat → BitVec 32
/-- Which of the outstanding record writes the store's controller has begun (R443). -/
opaque Config.begunWrite : Nat → Nat
/-- A byte of the store that no record of R382 holds: the keeper firmware's own records, and unused places (R381). -/
opaque Config.mramElse : Nat → Byte
/-- The three copies of the LC word in OTP (R392). -/
opaque Config.otpLc : BitVec 32 × BitVec 32 × BitVec 32
/-- The journal of OTP: 20 entries of three intent copies and three done copies (R392). -/
opaque Config.otpJournal : List ((BitVec 32 × BitVec 32 × BitVec 32) × (BitVec 32 × BitVec 32 × BitVec 32))
/-- The three owner key hash fields of OTP, each in three copies of 52 bytes (R392). -/
opaque Config.otpOwner : List (Bytes × Bytes × Bytes)
/-- The eight test tokens of OTP, and which of them the ECC cannot read (R392, R396). -/
opaque Config.otpTokens : List (BitVec 128 × Bool)
/-- The three root secret fields of OTP: intent word, done word and scrambled 256-bit value, each in three copies (R213,
R392). -/
opaque Config.otpRoot :
  List ((BitVec 32 × BitVec 32 × BitVec 32) × (BitVec 32 × BitVec 32 × BitVec 32) ×
    (BitVec 256 × BitVec 256 × BitVec 256))
/-- How the Hive scrambles a root secret for its OTP field (R213); the spec gives no function. -/
opaque Config.otpScramble : Equiv.Perm (BitVec 256)
/-- The three cells of the SVN thermometer field (R374). -/
opaque Config.otpSvn : BitVec 64 × BitVec 64 × BitVec 64
/-- The test root in the ladder's ROM; R215 gives no value. -/
opaque Config.testRoot : BitVec 256
/-- The vendor key hash in the boot ROM (R374). -/
opaque Config.vendorKeyHash : BitVec 384
/-- The authorisation key hash in the boot ROM (R401). -/
opaque Config.authKeyHash : BitVec 384
/-- The hash of the boot ROM, SPDM measurement 1 (R343), by hash length. -/
opaque Config.bootRomHash : Nat → BitVec 512
/-- Claelmen's assigned Vendor ID (R320). -/
opaque Config.vendorId : BitVec 16
/-- The certificate chain of DeviceID that Claelmen's CA issued (R244, R343). -/
opaque Config.certChain : Bytes
/-- The certificates served under the test root, which no CA chain covers (R343). -/
opaque Config.testCertChain : Bytes
/-- The hash the responder selects where a requester offers both (R343 leaves it open). -/
opaque Config.spdmTakesSha384 : Bool
/-- The form of SPDM measurement 4 from the state CODE and whether debug is open; R343 gives none. -/
opaque Config.measureLifeCycle : Nat → Bool → Bytes
/-- The DMTF value type of an SPDM measurement block, which R343 does not give. -/
opaque Config.measureType : Nat → Byte
/-- The pool queue the keeper would choose next (R287). -/
opaque Config.poolQueueChoice : Nat → Nat
/-- The context store entry that a client's context lies in (R286), for the record of R419. -/
opaque Config.ctxPlace : Nat → Nat
/-- The key granule the keeper would choose next (R286). -/
opaque Config.granuleChoice : Nat → Nat
/-- The identifier the keeper would choose for a new key record (R382). -/
opaque Config.keyRecordIdChoice : Nat → BitVec 32
/-- The personalisation string of a comb's DRBG: comb number and HV_BUILD, in an encoding R158 does
not give. -/
opaque Config.drbgPersonalisation : Nat → BitVec 32 → Bytes

/-- The base of the Hive's fabric aperture, which the adapter's address map fixes (R322, R370). -/
opaque Config.apertureBase : Nat

/-! ## Free values: outputs the spec leaves open -/

/-- A configuration-space word of a function whose content the spec does not give (the standard fields
of R320 and R321), by function and offset. -/
opaque Config.cfgWord : Nat → Nat → W32

/-- The n-th 384-bit draw from the TRNG or the entropy source (R158, R213, R221). -/
opaque Config.trng : Nat → BitVec 384
/-- The state of a comb's DRBG after draws whose number and size the spec does not state (R203). -/
opaque Config.drbgAfterBlinding : Nat → BitVec 256 × BitVec 128
/-- The random share of delivered material, by draw and length (R221). -/
opaque Config.laneShare : Nat → Nat → Bytes
/-- The mask of a stored payload, by scramble key and physical address (R221); the spec gives no function. -/
opaque Config.scrambleMask : BitVec 128 → Nat → BitVec 512
/-- The permutation of the pool's physical locations under a scramble key (R221). -/
opaque Config.scramblePlace : BitVec 128 → Equiv.Perm (Fin 524288)
/-- The state of the propolis engine's DRBG after an operation, whose draws the spec does not count (R239). -/
opaque Config.ppDrbgAfter : Nat → BitVec 384
/-- Destination bytes that overlap the source or another destination (R90, R135). -/
opaque Config.overlapBytes : Nat → Nat → Byte
/-- The internal bytes of a wrapped context blob, which R126 leaves undocumented. -/
opaque Config.ctxBlobPad : Nat → Bytes
/-- The customisation string of a KMAC stream after a CTX_IMPORT (R126 documents no place for it). -/
opaque Config.importedS : Nat → Bytes
/-- The remaining fields of an SPDM response (DSP0274), which this spec does not give. -/
opaque Config.spdmBody : Nat → Bytes
/-- The transcript an SPDM signature covers (DSP0274), which this spec does not give. -/
opaque Config.spdmTranscript : Nat → Bytes
/-- The DOE Discovery response object's reserved content (PCI Express), which this spec does not
give. -/
opaque Config.doeBody : Nat → Bytes
/-- The body of an MCTP control response (DSP0236), which this spec does not give. -/
opaque Config.mctpBody : Nat → Bytes
/-- Random bytes that a job other than RANDOM draws from its comb's DRBG, by draw (R203). -/
opaque Config.drawn : Nat → Nat → Byte
/-- DEVICEID_HASH of a challenge where no production root exists, which R400 does not give. -/
opaque Config.noDeviceId : Bytes
/-- Busy cycles of an operation whose count the spec bounds or does not list (R209). -/
opaque Config.openCycles : Nat → Nat
/-- The result of a verification whose key fails its own decoding rules where the cited standard
gives none. -/
opaque Config.openVerdict : Nat → Bool

/-- STATUS and DETAIL of KS_PROV_STATUS after a commit with OP 3, which R246 refuses without giving them. -/
opaque Config.provRefusal : BitVec 8 × BitVec 8

/-- Busy CCLK cycles that a job of the bulk cell waits for a seed of the entropy source (R160). -/
opaque Config.seedWait : Nat → Nat

/-- Plaintext bytes of the second pass whose writes had been issued when it failed (R98, R153). -/
opaque Config.pass2Issued : Nat → Nat

end Sys2Proof
end

