-- ==== Sys2Proof/Machine/StateKeys.lean ====
section
/-! DEFINITION. The state of the dispatcher, the combs, the key store, the propolis engine and the
persistent store (chapters 04, 05, 08, 13 of spec/). Default values are those after cold
power-on. -/

namespace Sys2Proof.Machine

/-- The class configuration group (R131). -/
structure SchCfg where
  slice : List Nat := [14, 14, 14, 14]
  cap   : Nat := 32
deriving DecidableEq, Repr

/-- The dispatcher (R104 to R120, R131). Tables are numbered by tenant, class and account. -/
structure Sched where
  shadow   : SchCfg := {}
  cfg      : SchCfg := {}
  waiting  : Option SchCfg := none
  refused  : Bool := false
  epoch    : W64 := 0
  epochAt  : Nat := 0
  demoted  : Nat := 0
  preempts : Nat := 0
  nosave   : Nat := 0
  peerWeight : Tbl Nat := []
  /-- weights in force this epoch (R112) -/
  weight   : Tbl Nat := []
  deficit  : Tbl Int := []
  credit   : Tbl Nat := []
  latUsed  : Tbl Nat := []
  /-- jobs denied step 1 in this epoch (R111) -/
  denied   : List Nat := []
  rrTenant : Tbl Nat := []
  rrQueue  : Tbl Nat := []
  lastComb : Nat := 0
  /-- placements on cells so far -/
  seats    : Nat := 0
  placedAt : Tbl Nat := []
  rsvPeak  : Nat := 0
deriving DecidableEq, Repr

/-- An entry of a comb's nonce table (R144). -/
structure NonceBlock where
  pos  : Nat := 0
  gen  : BitVec 16 := 0
  next : Nat := 0
  stop : Nat := 0
deriving DecidableEq, Repr

/-- The CTR_DRBG of a comb (R158). -/
structure Drbg where
  key   : BitVec 256 := 0
  v     : BitVec 128 := 0
  count : Nat := 0
  live  : Bool := false
  /-- the tick of the last reseed (R160) -/
  seedAt : Nat := 0
deriving DecidableEq, Repr

/-- An entry of a comb's context cache: a stream context or a saved state (R22, R118). -/
inductive CacheEntry where
  | ctx (key : Nat)
  | saved (job : Nat)
deriving DecidableEq, Repr

/-- A comb: its state word, nonce table, DRBG, context cache and counters (R144, R158, R165, R183,
R212, R425, R431). MODE is coded as in R425. -/
structure Comb where
  mode      : Nat := 1
  faultCell : BitVec 4 := 0
  gen       : BitVec 16 := 0
  cmdResult : Nat := 0
  /-- bits 7:0 of the state word as last announced (R414, kind 2) -/
  before    : Nat := 1
  nonces    : List NonceBlock := []
  abandoned : W64 := 0
  twoPass   : Nat := 0
  authFail  : Nat := 0
  digRestart : Nat := 0
  digVerify : Nat := 0
  digCommits : Nat := 0
  pkFault   : Nat := 0
  pkInvalid : Nat := 0
  signs     : Nat := 0
  iters     : Nat := 0
  drbg      : Drbg := {}
  cache     : List CacheEntry := []
deriving DecidableEq, Repr

/-- The slot states of R220. -/
inductive KState where
  | empty | reserved | valid | invalid | orphan | cont
deriving DecidableEq, Repr

/-- A pool slot: tag and payload (R220). `mat` is the material of the run the slot starts. -/
structure KSlot where
  state   : KState := .empty
  owner   : Nat := 0
  root    : Bool := false
  prov    : Bool := false
  origin  : Nat := 0
  exposed : Bool := false
  run     : Nat := 0
  ktype   : Nat := 0
  policy  : W64 := 0
  gen     : BitVec 16 := 0
  parent  : Nat := 0
  pgen    : BitVec 16 := 0
  sgen    : BitVec 16 := 0
  refs    : Nat := 0
  mat     : Bytes := []
  next    : Nat := 0
  res     : Nat := 0
  /-- GEN advances since the scrub pass began (R237) -/
  adv     : Nat := 0
  /-- a reservation write of R238 is outstanding -/
  resBusy : Bool := false
  /-- an uncorrectable error lies in the payload (1) or the tag (2) until the slot is invalidated (R38) -/
  bad     : Nat := 0
deriving DecidableEq, Repr

/-- What started a zeroisation (R249). -/
inductive ZTrigger where
  | tamper | substitution | lifecycle | command
deriving DecidableEq, Repr

/-- The KS_PROV group (R246, R251). -/
structure ProvCfg where
  client : Nat := 0
  op     : Nat := 0
  slot   : Nat := 0
  policy : W64 := 0
  ktype  : Nat := 0
  wrap   : Nat := 0
  addr   : W64 := 0
  len    : Nat := 0
deriving DecidableEq, Repr

/-- The key store, its ladder and its scrubber (R213 to R251, R464). -/
structure Ks where
  testRoot : Bool := false
  rootFail : Bool := false
  hrk      : Option Bytes := none
  psk      : Option Bytes := none
  devSeed  : Option Bytes := none
  zeroising : Option ZTrigger := none
  scrubbing : Bool := false
  scrubPos : Nat := 0
  scrubAt  : Nat := 0
  periodMs : Nat := 10
  reclaimed : Nat := 0
  stepLog2 : Nat := 32
  erasePersist : Bool := false
  lock     : Bool := false
  inspect  : W32 := 0
  prov     : ProvCfg := {}
  provRun  : Option ProvCfg := none
  provStatus : BitVec 8 := 0
  provDetail : BitVec 8 := 0
  /-- the public part that GENERATE is writing, and the bytes of it already issued (R246, R302) -/
  provOut  : Bytes := []
  provAt   : Nat := 0
  /-- step 6 of R249 belongs to the zeroisation that runs -/
  zErase   : Bool := false
  /-- steps that advanced every slot's GEN together (R249 step 5), and those of the scrub pass -/
  genBase  : BitVec 16 := 0
  genAdv   : Nat := 0
  /-- the entropy source fails its health tests (R160) -/
  entropyFail : Bool := false
  /-- propolis: class queues, the running job, operations completed (R113, R251) -/
  ppQueues : List (List Nat) := [[], [], [], []]
  ppOps    : W64 := 0
  /-- the scramble key; none once step 2 of R249 has cleared it (R221, R248) -/
  scramble : Option (BitVec 128) := none
  /-- the state of the propolis engine's own DRBG, none while it is cleared (R239, R249) -/
  ppDrbg   : Option (BitVec 384) := none
  /-- steps 3 and 4 of R249 wait for the clocks (R407) -/
  zPend    : Bool := false
  /-- clients created while the lane was closed: their records are restored when it opens (R247, R464) -/
  restoreDue : List Nat := []
deriving DecidableEq, Repr

/-- One bank of a persistent record (R382). -/
structure Bank where
  id      : Nat := 0
  seq     : Nat := 0
  len     : Nat := 0
  crc     : Nat := 0
  payload : Bytes := []
deriving DecidableEq, Repr

/-- A persistent record: the address of bank A, the size of a bank, which bank B follows, and both banks (R382). -/
structure Record where
  place : Nat := 0
  size  : Nat := 0
  a : Bank := {}
  b : Bank := {}
deriving DecidableEq, Repr

/-- The persistent store and the configuration flash (R372 to R388). -/
structure Store where
  mram     : Tbl Record := []
  /-- writes of each 64-byte unit of the store (R382) -/
  wear     : Tbl Nat := []
  scanned  : Bool := false
  damaged  : Bool := false
  errDamaged : Nat := 0
  errKey   : Nat := 0
  flashA   : Bytes := []
  flashB   : Bytes := []
  active   : Nat := 0
  aCheck   : Nat := 0
  bCheck   : Nat := 0
  cfSigner : Nat := 0
  cfSvn    : Nat := 0
  cfSeq    : W32 := 0
  updAddr  : W64 := 0
  updLen   : Nat := 0
  updPhase : Nat := 0
  updBusy  : Bool := false
  updTaken : Bool := false
  updAt    : Nat := 0
  updResult : Nat := 0
  updProgress : Nat := 0
  updRunAddr : W64 := 0
  updRunLen : Nat := 0
  updHash  : Bytes := []
  /-- FEPOCH of PF0 when the keeper took the update (R312) -/
  updEpoch : BitVec 16 := 0
  updBuf   : Bytes := []
deriving DecidableEq, Repr

end Sys2Proof.Machine
end

