-- ==== Sys2Proof/Machine/StateHost.lean ====
section
/-! DEFINITION. The state of tenants, windows, mailboxes, functions, DMA, events, the always-on
domain, the life cycle, peer ingress and the waggle unit (chapters 09 to 16 of spec/). Default
values are those after cold power-on. -/

namespace Sys2Proof.Machine

/-- A DMA window entry (R300). -/
structure Dmaw where
  base  : W64 := 0
  limit : W64 := 0
  xlate : W64 := 0
  ctrl  : W32 := 0
deriving DecidableEq, Repr

/-- A flip of a banked table: none, requested, or in effect with old-bank accesses left. -/
inductive Flip where
  | none | asked | draining
deriving DecidableEq, Repr

/-- The two banks of a client's DMA windows (R300, R303). -/
structure Windows where
  a       : Tbl Dmaw := []
  b       : Tbl Dmaw := []
  active  : Bool := false
  flip    : Flip := .none
  refused : Bool := false
deriving DecidableEq, Repr

/-- A message the keeper has generated for a K2H mailbox (R307, R310). -/
structure Mail where
  word : W32 := 0
  body : Bytes := []
deriving DecidableEq, Repr

/-- A request the keeper has read: its message word, its buffer, the FEPOCH at that moment, and its body once the
keeper has read it (R308, R312). -/
structure MailRead where
  word  : W32 := 0
  addr  : W64 := 0
  len   : Nat := 0
  epoch : BitVec 16 := 0
  body  : Option Bytes := none
deriving DecidableEq, Repr

/-- The mailboxes of a function (R307 to R315). -/
structure Mbox where
  h2kAddr : W64 := 0
  h2kLen  : Nat := 0
  h2kMsg  : W32 := 0
  k2hAddr : W64 := 0
  k2hLen  : Nat := 0
  k2hMsg  : W32 := 0
  pool    : W64 := 0
  poolN   : Nat := 0
  vec     : Nat := 0
  k2hIe   : Bool := false
  h2kIe   : Bool := false
  h2kFull : Bool := false
  k2hFull : Bool := false
  h2kErr  : Bool := false
  drop    : Bool := false
  fepoch  : BitVec 16 := 0
  dropSeq : BitVec 16 := 0
  /-- replies and notices generated and not yet posted, oldest first (R310, R311) -/
  held    : List Mail := []
  /-- messages posted since the pool was registered (R309) -/
  count   : Nat := 0
  /-- a request the keeper has read and not yet answered -/
  read    : Option MailRead := none
deriving DecidableEq, Repr

/-- A log ring's commit group (R271, R272, R281, R419). -/
structure LogCfg where
  base : W64 := 0
  size : Nat := 0
  en   : Bool := false
  vec  : Nat := 0
deriving DecidableEq, Repr

/-- A log ring: shadow, committed values, indices, and the entries held while it is full. -/
structure LogRing where
  shadow  : LogCfg := {}
  cfg     : LogCfg := {}
  tail    : W32 := 0
  cons    : W32 := 0
  consErr : Bool := false
  refused : Bool := false
  held    : List Bytes := []
deriving DecidableEq, Repr

/-- The WG_T group of a client (R280): ENABLE and PEND_MAX. -/
structure WgT where
  enable  : Bool := false
  pendMax : Nat := 256
deriving DecidableEq, Repr

/-- A client's tenant (R283 to R316). `granules` are the key granules of its allocation, in index
order; `qmap` gives the pool queue of each of its queues. -/
structure Tenant where
  state    : Nat := 0
  gen      : BitVec 16 := 0
  queues   : Nat := 0
  granules : List Nat := []
  /-- steps 3 to 5 of a DESTROY have been taken (R299) -/
  orphaned : Bool := false
  ctxGran  : Nat := 0
  vectors  : Nat := 0
  vecDrop  : Nat := 0
  winDrop  : Nat := 0
  weight   : Nat := 0
  epoch    : W32 := 0
  qmap     : Tbl (Option Nat) := []
  win      : Windows := {}
  mb       : Mbox := {}
  rlog     : LogRing := {}
  wgT      : WgT := {}
  /-- leaves assigned in the open epoch, in LEAF_IDX order -/
  leaves   : List Bytes := []
  qcfgSel  : Nat := 0
  qcfgSh   : QCfg := {}
  qcfgReason : Nat := 0
  crSel    : Nat := 0
  crShBase : W64 := 0
  crShCtrl : W32 := 0
  crRefused : Bool := false
deriving DecidableEq, Repr

/-- An MSI-X table entry (R339). -/
structure Msix where
  addr   : W64 := 0
  data   : W32 := 0
  masked : Bool := true
deriving DecidableEq, Repr

/-- Moderation of one vector (R418): the tick before which no further message goes, and a merged one that
waits. -/
structure Imod where
  next   : Nat := 0
  merged : Bool := false
deriving DecidableEq, Repr

/-- The configuration space and the vectors of a function (R320, R321, R336 to R339). -/
structure Func where
  bme      : Bool := false
  msixEn   : Bool := false
  fmask    : Bool := false
  d3hot    : Bool := false
  /-- 0 none, 1 steps 1 to 3 of R338, 2 steps 4 and 5 -/
  flr      : Nat := 0
  atsEn    : Bool := false
  roEn     : Bool := true
  nsEn     : Bool := true
  aerCto   : Bool := false
  aerUc    : Bool := false
  msix     : Tbl Msix := []
  pba      : BitVec 2048 := 0
  /-- vectors signalled whose message is not yet sent, judged or moderated -/
  due      : List Nat := []
  imod     : Tbl Imod := []
deriving DecidableEq, Repr

/-- What a non-posted request is for (R331, R333, R334). -/
inductive Purpose where
  | desc (q : Nat) (idx : W32)
  | mirror (q : Nat)
  | srcList (job i : Nat)
  | dstList (job i : Nat)
  | source (job off : Nat)
  /-- a Translation Request for a page (R335) -/
  | xlate (pasid : Option Nat) (page : Nat)
  /-- its completion is accepted and discarded; after a clear of bus master enable or an FLR it counts as
  unexpected (R333, R336) -/
  | dropped (counted : Bool)
deriving DecidableEq, Repr

/-- A request of the forager (R330 to R335): the client's address `win`, and where its windows put it. `bank`
is the window bank it was translated under. -/
structure Req where
  client  : Nat := 0
  purpose : Purpose := .mirror 0
  win     : Nat := 0
  addr    : W64 := 0
  len     : Nat := 0
  target  : Nat := 0
  pasid   : Option Nat := none
  noSnoop : Bool := false
  bank    : Bool := false
  got     : Bytes := []
  issued  : Nat := 0
deriving DecidableEq, Repr

/-- An entry of the address translation cache (R335). -/
structure Atc where
  fn    : Nat := 0
  pasid : Option Nat := none
  page  : Nat := 0
  rd    : Bool := false
  wr    : Bool := false
  xlate : Nat := 0
deriving DecidableEq, Repr

/-- An Invalidation Request that waits for requests issued under its entries (R335). -/
structure AtsInv where
  fn   : Nat := 0
  itag : Nat := 0
  tags : List Nat := []
deriving DecidableEq, Repr

/-- The forager's reads (R331 to R335): outstanding by tag, waiting for a tag, buffer room or a
translation, and the translation cache. -/
structure Dma where
  reads   : Tbl (Option Req) := []
  waiting : List Req := []
  atc     : List Atc := []
  asked   : List (Nat × Option Nat × Nat) := []
  invs    : List AtsInv := []
  peak    : Nat := 0
deriving DecidableEq, Repr

/-- A window translation table entry (R325, R345). -/
structure Wtt where
  mat    : W64 := 0
  target : W64 := 0
  offset : W32 := 0
deriving DecidableEq, Repr

/-- The HI registers, PF0's capability bits and the DOE mailbox (R317 to R346). -/
structure Hi where
  cfg      : BitVec 4 := 0
  /-- the discovery mode in force, which holds until the next reset (R319) -/
  rom      : Bool := false
  lock     : Bool := false
  cplTo    : Nat := 10000
  fnMax    : Nat := 1024
  timeouts : Nat := 0
  unexpected : Nat := 0
  cplErr   : Nat := 0
  poisoned : Nat := 0
  subword  : Nat := 0
  unmapped : Nat := 0
  idleUs   : Nat := 0
  idle     : Bool := false
  busyAt   : Nat := 0
  ltr      : W32 := 0
  ltrSent  : Option (BitVec 13) := none
  ltrAt    : Nat := 0
  /-- idle was signalled or withdrawn and the message has not gone (R342) -/
  ltrDue   : Bool := false
  fnSel    : Nat := 0
  wttSel   : W32 := 0
  wttA     : Tbl Wtt := []
  wttB     : Tbl Wtt := []
  wttActive : Bool := false
  wttFlip  : Flip := .none
  wttRefused : Bool := false
  /-- how many of the held accesses came before the last flip took effect (R328, R463) -/
  wttOld   : Nat := 0
  subVendor : BitVec 16 := 0
  subId    : BitVec 16 := 0
  numVf    : Nat := 0
  discTable : Bytes := []
deriving DecidableEq, Repr

/-- The writable configuration bits of PF0's capabilities that rules name (R318, R321, R331). -/
structure Cap where
  vfEnable : Bool := false
  /-- NumVFs (R318) -/
  numVfs   : Nat := 0
  /-- the bases of PF0's BARs and of the VF BARs (R323) -/
  bar0     : W64 := 0
  bar2     : W64 := 0
  vbar0    : W64 := 0
  vbar2    : W64 := 0
  /-- P2P Request Redirect and P2P Completion Redirect of ACS (R321) -/
  acs      : BitVec 2 := 0
  pasidEn  : Bool := false
  tag14    : Bool := false
  tag10    : Bool := false
  ltrEn    : Bool := false
  mps      : Nat := 0
  mrrs     : Nat := 2
deriving DecidableEq, Repr

/-- The DOE mailbox, the SPDM responder and the MCTP endpoint (R343, R344, R427). -/
structure Doe where
  busy   : Bool := false
  error  : Bool := false
  /-- the negotiated version and hash: 0 none, 32 SHA-256, 48 SHA-384 -/
  ver    : Bool := false
  caps   : Bool := false
  hash   : Nat := 0
  eid    : BitVec 8 := 0
  /-- the request object that waits for the keeper (R344) -/
  held   : Option Instr := none
  /-- QUEUE_CMD requests whose acknowledgement is awaited: INSTANCE and pool queue (R428) -/
  waits  : List (Byte × Nat) := []
deriving DecidableEq, Repr

/-- A source's route (R416). -/
structure Route where
  en  : Bool := false
  log : Bool := false
  vec : Nat := 0
deriving DecidableEq, Repr

/-- An event record under construction (R419, R420). -/
structure EvRec where
  count  : Nat := 0
  info   : W32 := 0
  time   : Nat := 0
  /-- the vector is signalled after the record's write (R416) -/
  signal : Bool := false
deriving DecidableEq, Repr

/-- The EV registers (R413 to R420, R430). -/
structure Ev where
  pend     : BitVec 512 := 0
  routes   : Tbl Route := []
  routeSel : Nat := 0
  isolate  : Bool := true
  mctpEn   : Bool := false
  mctpWr   : Bool := false
  eccCorr  : Nat := 0
  log      : LogRing := {}
  overflow : Bool := false
  mode     : Bool := false
  lastServed : Nat := 0
  recs     : Tbl EvRec := []
  imodSel  : Nat := 0
  interval : Tbl Nat := []
deriving DecidableEq, Repr

/-- The always-on domain: sticky record and tamper registers (R404, R412, R421, R422, R430). -/
structure Aon where
  cycles  : Nat := 0
  sticky  : BitVec 256 := 0
  first   : Nat := 0
  firstOk : Bool := false
  firstAt : Nat := 0
  alert   : BitVec 3 := 7
  /-- what the sources read: the TAMPER_IN inputs that are high, the domains above 110 % and below 90 % of nominal and
  those outside their tolerance, REFCLK outside its band, the root PLL's lock lost, the junction too hot or too cold
  (R404, R437, R440, R441) -/
  ins     : BitVec 4 := 0
  high    : BitVec 5 := 0
  low     : BitVec 5 := 0
  outside : BitVec 5 := 0
  refOut  : Bool := false
  unlock  : Bool := false
  hot     : Bool := false
  /-- the voltage monitor has armed (R441) -/
  monitor : Bool := false
  /-- the AON cycle at which every domain had first come within tolerance since the cold power-on (R441, R442) -/
  goodAt  : Option Nat := none
  latch   : BitVec 7 := 0
  responding : Bool := false
  arm     : BitVec 4 := 0xF
  debUs   : BitVec 8 := 0
  lock    : Bool := false
  count   : Nat := 0
  lastAt  : Nat := 0
  lastSrc : BitVec 7 := 0
  tampered : Bool := false
deriving DecidableEq, Repr

/-- Three copies of an OTP word (R392). -/
structure Otp3 where
  a : BitVec 32 := 0
  b : BitVec 32 := 0
  c : BitVec 32 := 0
deriving DecidableEq, Repr

/-- A journal entry: intent and done words (R392). -/
structure JEntry where
  intent : Otp3 := {}
  done   : Otp3 := {}
deriving DecidableEq, Repr

/-- A root secret field, each of its parts in three copies (R213, R392). -/
structure RootField where
  intent : Otp3 := {}
  done   : Otp3 := {}
  secret : BitVec 256 × BitVec 256 × BitVec 256 := (0, 0, 0)
deriving DecidableEq, Repr

/-- The OTP array (R213, R374, R392). -/
structure Otp where
  lc      : Otp3 := {}
  journal : List JEntry := []
  owner   : List (Bytes × Bytes × Bytes) := []
  /-- each token, and whether its single copy has an error that the ECC cannot correct -/
  tokens  : List (BitVec 128 × Bool) := []
  root    : List RootField := []
  svn     : BitVec 64 × BitVec 64 × BitVec 64 := (0, 0, 0)
deriving DecidableEq, Repr

/-- The OTP writes of a running transition (R397): the journal entry and the owner field they go to, 20 and 3 where
there is none, the bytes for the owner field, the AON cycle in which the first word began, and the words programmed. -/
structure OtpRun where
  entry : Nat := 20
  field : Nat := 3
  owner : Bytes := []
  since : Nat := 0
  words : Nat := 0
deriving DecidableEq, Repr

/-- The life cycle and debug registers (R389 to R403, R411). -/
structure Lc where
  word      : BitVec 32 := 0
  resumed   : Bool := false
  abandoned : Bool := false
  debugOpen : Bool := false
  busy      : Option Nat := none
  /-- the OTP writes of the running transition, none before they begin (R397) -/
  run       : Option OtpRun := none
  result    : Nat := 0
  tokenFails : Nat := 0
  token     : BitVec 128 := 0
  ownerHash : Tbl W32 := []
  ownerWritten : Bool := false
  dbgState  : Nat := 0
  fails     : Nat := 0
  rmaGrant  : Bool := false
  chal      : Bytes := []
  chalOut   : Bool := false
  respAddr  : W64 := 0
  respLen   : Nat := 0
  runAddr   : W64 := 0
  runLen    : Nat := 0
  /-- the substitution of R216: since which tick, and whether its deadline has passed -/
  subst     : Option Nat := none
  substDue  : Bool := false
deriving DecidableEq, Repr

/-- The marks of R348. -/
inductive PktMark where
  | none | framing | oversize | overrun | noTenant
deriving DecidableEq, Repr

/-- A packet in the peer store (R348 to R353). -/
structure Packet where
  client  : Nat := 0
  prio    : Nat := 0
  seq     : W32 := 0
  words   : List (Bytes × Bool) := []
  nbytes  : Nat := 0
  mark    : PktMark := .none
  tArrive : Nat := 0
  /-- the order in which it became readable; none while its EOP is missing -/
  ready   : Option Nat := none
  read    : Bool := false
deriving DecidableEq, Repr

/-- An egress packet (R359, R360): in SEQ order within its peer queue. -/
structure Egress where
  client : Nat := 0
  prio   : Nat := 0
  seq    : W32 := 0
  /-- the number of the packet it answers, which no other packet has -/
  pkt    : Nat := 0
  kind   : Nat := 0
  bytes  : Bytes := []
  room   : Nat := 0
  job    : Nat := 0
  ready  : Bool := false
  /-- its first word has been handed off; `bytes` is what is left -/
  started : Bool := false
deriving DecidableEq, Repr

/-- A notice that waits (R363). -/
structure Notice where
  client : Nat := 0
  ty     : Nat := 0
  queue  : Nat := 0
deriving DecidableEq, Repr

/-- The peer ingress block (R347 to R365). -/
structure Pi where
  packets : Tbl Packet := []
  nextPkt : Nat := 0
  nextReady : Nat := 0
  open_   : Tbl (Option Nat) := []
  /-- priorities on which the rest of a packet is discarded up to its EOP -/
  discard : List Nat := []
  seq     : Tbl W32 := []
  /-- rejected packets and jobs that hold reorder window positions, per peer queue, oldest first -/
  order   : List Egress := []
  notices : List Notice := []
  lastClient : Nat := 0
  xoff    : BitVec 8 := 0
  refused : Bool := false
  resetBusy : Option Nat := none
  stall   : Bool := false
  wmSh    : List W32 := List.replicate 8 0
  wm      : List W32 := List.replicate 8 0
  parity  : Nat := 0
  poison  : Nat := 0
  framing : Nat := 0
  overrun : Nat := 0
  reject  : Nat := 0
  dropped : Nat := 0
  seqSel  : W32 := 0
deriving DecidableEq, Repr

/-- The sync configuration group (R280). -/
structure SyncCfg where
  sync : W32 := 0
  hold : W32 := 0
  pps  : W32 := 0
  loop : W32 := 0
deriving DecidableEq, Repr

/-- The time base (R252 to R257). Times are HT80 counts; `acc` is the remainder of R34. -/
structure Sync where
  h       : Nat := 0
  acc     : Nat := 0
  /-- a forward step that the next tick takes (R253) -/
  stepDue : Nat := 0
  state   : Nat := 0
  adj     : Int := 0
  integ   : Int := 0
  eLast   : Int := 0
  errEst  : Nat := 0
  lastAt  : Option Nat := none
  lost    : Bool := false
  frozen  : Bool := false
  /-- nominal advance less actual advance during a freeze, still to be worked off, in 2⁻¹⁶ ns ÷ (3 × 10¹²) (R253) -/
  freezeLeft : Int := 0
  seq     : Option (BitVec 8) := none
  src     : Nat := 0
  locked  : Nat := 0
  steps   : Nat := 0
  seqErr  : Nat := 0
  shadow  : SyncCfg := {}
  cfg     : SyncCfg := {}
  waiting : Option SyncCfg := none
  refused : Bool := false
  ppsState : Nat := 0
  ppsOff  : Option Int := none
  /-- the tick of the last edge used, and of the last used since EN was set, the start or LOST (R257) -/
  ppsUsed : Option Nat := none
  ppsAt   : Option Nat := none
  ppsBad  : Bool := false
  /-- the stamp in ps, before DELAY_PS, of an edge used on this tick and not yet judged (R255, R257) -/
  ppsEdge : Option Nat := none
  nowHi   : BitVec 16 := 0
deriving DecidableEq, Repr

/-- The open epoch, the receipt buffer and the logs of the waggle unit (R260 to R282). -/
structure Wg where
  signer   : Bool := false
  aliasKey : Option Bytes := none
  sigAlg   : Nat := 0
  bufFull  : Bool := false
  ckptLate : Bool := false
  periodMs : Nat := 0
  period   : Nat := 0
  ckptS    : Nat := 0
  ckptLock : Bool := false
  ckptAt   : Nat := 0
  isOpen   : Bool := false
  epoch    : Nat := 0
  anchor   : Nat := 0
  anchorAt : Nat := 0
  eres     : Nat := 0
  eresNext : Option Nat := none
  kind     : Nat := 0
  gapFrom  : Nat := 0
  gapCause : Nat := 0
  prev     : Bytes := []
  tOpen    : Nat := 0
  offMax   : Nat := 0
  errMax   : Nat := 0
  holdTicks : Nat := 0
  epSteps  : Nat := 0
  syncAll  : Bool := true
  leaves   : W64 := 0
  pendPeak : Nat := 0
  lastRec  : Bytes := []
  /-- ROOT, DEVICE_ID and SIGNER_HASH of the alias (R267, R268) -/
  root     : Bool := false
  devId    : Bytes := []
  signHash : Bytes := []
  mlog     : LogRing := {}
  mlost    : Nat := 0
  tsel     : Nat := 0
  tcfgSh   : WgT := {}
  plogSh   : LogCfg := {}
  tRefused : Bool := false
deriving DecidableEq, Repr

/-- The administration group (R289, R316). -/
structure AdmCfg where
  client  : Nat := 0
  op      : Nat := 0
  force   : Bool := false
  gen     : BitVec 16 := 0
  queues  : Nat := 0
  keyGran : Nat := 0
  ctxGran : Nat := 0
  vectors : Nat := 0
  weight  : Nat := 0
deriving DecidableEq, Repr

/-- Tenant administration and its selection registers (R289, R316). -/
structure Adm where
  shadow  : AdmCfg := {}
  running : Option AdmCfg := none
  /-- the RESIZE whose decreases are fenced while the keeper checks them (R296) -/
  fenced  : Option AdmCfg := none
  offeredAt : Nat := 0
  result  : Nat := 0
  qmapSel : W32 := 0
  dmawSel : W32 := 0
deriving DecidableEq, Repr

/-- Start-up, clocks, the keeper, power and pins (R33 to R35, R366 to R371, R441 to R451). -/
structure Hv where
  step     : Nat := 0
  /-- a cold power-on has begun (R366, R442) -/
  powered  : Bool := false
  ready    : Bool := false
  recovery : Bool := false
  tampered : Bool := false
  keeperFail : Bool := false
  fail     : BitVec 8 := 0
  warm     : Bool := false
  halted   : Bool := false
  ramRetry : Bool := false
  rstHeld  : Bool := false
  rootLock : Bool := false
  cclk     : Bool := false
  fclk     : Bool := false
  kclk     : Bool := false
  xclk     : Bool := false
  lockLoss : Nat := 0
  keeperUp : Bool := false
  dbgHalt  : Bool := false
  /-- the firmware in keeper RAM, and the SHA-384 recorded at step 4 (R371) -/
  fw       : Bytes := []
  fwHash   : Bytes := []
  /-- keeper RAM, from the first byte of the firmware on -/
  ram      : Bytes := []
  /-- the test mode the debug port entered: 1 scan, 2 memory test (R390) -/
  testMode : Nat := 0
  wdMs     : Nat := 0
  tick     : Nat := 0
  pwr      : Nat := 0
  refuse   : Nat := 0
  wakeCause : Nat := 0
  /-- a wake cause that came while ENTERING, 0 none (R447) -/
  wakeNext : Nat := 0
  /-- the first wake cause while AWAKE of the last FCLK cycle that had one, and that cycle (R447) -/
  causeAt  : Option (Nat × Nat) := none
  /-- the FCLK cycle of the last ENTER that was not refused (R447) -/
  enterAt  : Option Nat := none
  modes    : Tbl Nat := []
  heldCmds : List Instr := []
  syncHold : Bool := false
deriving DecidableEq, Repr

/-- What the Hive puts on its boundary (R1, R59, R63, R99, R329, R339, R342, R359), oldest first. -/
inductive Out where
  /-- a memory write of a client: target, address after translation, bytes, No Snoop, Relaxed Ordering, PASID,
  AT = Translated -/
  | write (client target addr : Nat) (bytes : Bytes) (noSnoop relaxed : Bool) (pasid : Option Nat) (at_ : Bool)
  /-- a memory read request: tag, client, target, address, bytes, No Snoop, PASID, AT = Translated -/
  | read (tag client target addr len : Nat) (noSnoop : Bool) (pasid : Option Nat) (at_ : Bool)
  /-- an MSI-X message: function, address, data -/
  | msi (fn : Nat) (addr : W64) (data : W32)
  /-- a Translation Request: tag, function, PASID, page -/
  | ats (tag fn : Nat) (pasid : Option Nat) (page : Nat)
  /-- an Invalidation Completion -/
  | atsDone (fn itag : Nat)
  /-- an LTR message -/
  | ltr (v : BitVec 13)
  /-- an egress word: KIND, client, priority, SEQ, SOP, EOP, BYTES, data, parity -/
  | egress (kind client prio seq : Nat) (sop eop : Bool) (nbytes : Nat) (data : Bytes) (par : BitVec 8)
  /-- a DOE response object -/
  | doe (bytes : Bytes)
  /-- an MCTP response -/
  | mctp (bytes : Bytes)
deriving DecidableEq, Repr

end Sys2Proof.Machine
end

