-- ==== Sys2Proof/Machine/State.lean ====
section
/-! DEFINITION. The machine state of the Hive, its outcomes, and the state at the moment before a
cold power-on. -/

namespace Sys2Proof.Machine

/-- Everything the Hive holds (INVENTORY.md, State). Tables are numbered: functions and tenants by
client, queues by `client × 32,768 + q`, completion rings by `client × 512 + ring`, contexts by
`client × 131,072 + id`, slots by pool position, jobs by the order of their stage 3. -/
structure State where
  /-- the commands that wait, first in, first out -/
  pending : List Instr := []
  hv      : Hv := {}
  store   : Store := {}
  otp     : Otp := {}
  aon     : Aon := {}
  ev      : Ev := {}
  hi      : Hi := {}
  cap     : Cap := {}
  dma     : Dma := {}
  doe     : Doe := {}
  lc      : Lc := {}
  peer    : Pi := {}
  sync    : Sync := {}
  wg      : Wg := {}
  adm     : Adm := {}
  ks      : Ks := {}
  sch     : Sched := {}
  fns     : Tbl Func := []
  tenants : Tbl Tenant := []
  queues  : Tbl Queue := []
  rings   : Tbl CrRing := []
  ctxs    : Tbl Ctx := []
  slots   : Tbl KSlot := []
  combs   : Tbl Comb := []
  jobs    : Tbl Job := []
  nextJob : Nat := 1
  /-- what left the Hive at its boundary, oldest first -/
  out     : List Out := []
  /-- lower halves written and upper halves latched, by requester and register (R16, R462) -/
  halves  : List ((Requester × Nat) × W32) := []
  latches : List ((Requester × Nat) × W32) := []
  /-- the value the last register read returned -/
  resp    : W64 := 0
  /-- the last access was completed with Request Retry Status (R338, R369) -/
  retry   : Bool := false
  /-- the model's own: draws from the TRNG so far, and free values used so far -/
  trngN   : Nat := 0
  freeN   : Nat := 0
deriving DecidableEq, Repr

/-- No command of the Hive stops it: the reason type is empty. Nobody raises it. -/
inductive Fault where
deriving DecidableEq, Repr

/-- Why a command has no outcome. -/
inductive Refusal where
  /-- Raised by an arm of `exec` whose command has no meaning yet; safe. -/
  | notModelled (mnemonic : String)
deriving DecidableEq, Repr

/-- A bank as `Config.mram` writes it. -/
def bankOf (b : W32 × W32 × W32 × W32 × Bytes) : Bank :=
  ⟨b.1.toNat, b.2.1.toNat, b.2.2.1.toNat, b.2.2.2.1.toNat, b.2.2.2.2⟩

/-- The persistent store before this power-on. -/
def mramOf : List (Nat × Nat × Nat × (W32 × W32 × W32 × W32 × Bytes) × (W32 × W32 × W32 × W32 × Bytes)) →
    Tbl Record
  | [] => []
  | (id, place, size, a, b) :: t =>
    tblSet {} (mramOf t) id { place := place, size := size, a := bankOf a, b := bankOf b }

/-- The writes of each unit of the store before this power-on. -/
def wearOf : List (Nat × Nat) → Tbl Nat
  | [] => []
  | (u, n) :: t => tblSet 0 (wearOf t) u n

/-- The OTP array as the part holds it. -/
def otpOf : Otp :=
  { lc := ⟨Config.otpLc.1, Config.otpLc.2.1, Config.otpLc.2.2⟩,
    journal := Config.otpJournal.map fun e =>
      { intent := ⟨e.1.1, e.1.2.1, e.1.2.2⟩, done := ⟨e.2.1, e.2.2.1, e.2.2.2⟩ },
    owner := Config.otpOwner, tokens := Config.otpTokens
    root := Config.otpRoot.map fun e =>
      { intent := ⟨e.1.1, e.1.2.1, e.1.2.2⟩, done := ⟨e.2.1.1, e.2.1.2.1, e.2.1.2.2⟩, secret := e.2.2 }
    svn := Config.otpSvn }

/-- Every field at its Cold value (R12, R456), no step of start-up begun, with the flash, the OTP
array and the persistent store as the part holds them. The commands come from outside: the first
is COLD_POWER_ON. -/
def State.reset : State :=
  { otp := otpOf
    store := { flashA := Config.flashA, flashB := Config.flashB, mram := mramOf Config.mram
               wear := wearOf Config.mramWear } }

end Sys2Proof.Machine
end

