-- ==== Sys2Proof/Machine/Ops.lean ====
section
/-! DEFINITION. The named operations over the state that every family shares: reading and changing
one table entry, raising events and interrupts, the DMA windows, and the forager's requests. -/

namespace Sys2Proof.Machine

/-! ## Tables -/

/-- The number of combs of the grade (R4). -/
def combCount : Nat := 16 * (Config.grade.val + 1)

/-- The numbers that one client's queues may have in the table. -/
def qSpan : Nat := 2 ^ 40

def qKey (c q : Nat) : Nat := c * qSpan + q
def ringKey (c r : Nat) : Nat := c * 512 + r
def ctxKey (c x : Nat) : Nat := c * 131072 + x

def State.queue (s : State) (c q : Nat) : Queue := tblGet {} s.queues (qKey c q)
def State.setQueue (s : State) (c q : Nat) (v : Queue) : State :=
  { s with queues := tblSet {} s.queues (qKey c q) v }
def State.modQueue (s : State) (c q : Nat) (f : Queue → Queue) : State :=
  s.setQueue c q (f (s.queue c q))

def State.tenant (s : State) (c : Nat) : Tenant := tblGet {} s.tenants c
def State.modTenant (s : State) (c : Nat) (f : Tenant → Tenant) : State :=
  { s with tenants := tblSet {} s.tenants c (f (s.tenant c)) }

def State.func (s : State) (c : Nat) : Func := tblGet {} s.fns c
def State.modFunc (s : State) (c : Nat) (f : Func → Func) : State :=
  { s with fns := tblSet {} s.fns c (f (s.func c)) }

def State.ring (s : State) (c r : Nat) : CrRing := tblGet {} s.rings (ringKey c r)
def State.modRing (s : State) (c r : Nat) (f : CrRing → CrRing) : State :=
  { s with rings := tblSet {} s.rings (ringKey c r) (f (s.ring c r)) }

def State.ctx (s : State) (c x : Nat) : Ctx := tblGet {} s.ctxs (ctxKey c x)
def State.modCtx (s : State) (c x : Nat) (f : Ctx → Ctx) : State :=
  { s with ctxs := tblSet {} s.ctxs (ctxKey c x) (f (s.ctx c x)) }

def State.slot (s : State) (pos : Nat) : KSlot := tblGet {} s.slots pos
def State.modSlot (s : State) (pos : Nat) (f : KSlot → KSlot) : State :=
  { s with slots := tblSet {} s.slots pos (f (s.slot pos)) }

def State.comb (s : State) (c : Nat) : Comb := tblGet {} s.combs c
def State.modComb (s : State) (c : Nat) (f : Comb → Comb) : State :=
  { s with combs := tblSet {} s.combs c (f (s.comb c)) }

def State.job (s : State) (j : Nat) : Job := tblGet {} s.jobs j
def State.modJob (s : State) (j : Nat) (f : Job → Job) : State :=
  { s with jobs := tblSet {} s.jobs j (f (s.job j)) }
/-- The job no longer exists. -/
def State.dropJob (s : State) (j : Nat) : State := { s with jobs := tblErase s.jobs j }
/-- A job of that number exists. -/
def State.hasJob (s : State) (j : Nat) : Bool := s.jobs.any fun e => e.1 == j

/-- Fold an operation over a list. -/
def State.each {α : Type} (s : State) (l : List α) (f : State → α → State) : State := l.foldl f s

/-- The client numbers of R218. -/
def isClient (c : Nat) : Bool := c < 4160
def isFn (c : Nat) : Bool := c < 4096

/-- The tenant of the client exists (R283). -/
def State.exists_ (s : State) (c : Nat) : Bool := (s.tenant c).state != 0

/-- The clients that have a tenant, in ascending order. -/
def State.clients (s : State) : List Nat :=
  (s.tenants.filter fun e => e.2.state != 0).map (·.1)

/-- KEY_COUNT and CTX_COUNT of R286. -/
def Tenant.keyCount (t : Tenant) : Nat := if t.state = 0 then 0 else 2 + 64 * t.granules.length
def Tenant.ctxCount (t : Tenant) : Nat := 64 * t.ctxGran

/-- The pool position of index `i` of a client's allocation, of a node, or none where the index
lies outside the client's count (R218, R219). -/
def State.slotPos (s : State) (c i : Nat) : Option Nat :=
  let t := s.tenant c
  if t.state = 0 then none
  else if i = 0 then some (3 * c + 1)
  else if i = 1 then some (3 * c)
  else match t.granules[(i - 2) / 64]? with
    | some g => some (12480 + 64 * g + (i - 2) % 64)
    | none => none

/-- The RESIZE of a client whose decreases are fenced (R296). -/
def State.fence (s : State) (c : Nat) : Option AdmCfg := s.adm.fenced.filter fun a => a.client == c

/-- An index of a resource lies in its fenced range. -/
def State.fencedKey (s : State) (c i : Nat) : Bool :=
  ((s.fence c).map fun a => decide (2 + 64 * a.keyGran ≤ i)).getD false
def State.fencedCtx (s : State) (c i : Nat) : Bool := ((s.fence c).map fun a => decide (64 * a.ctxGran ≤ i)).getD false
def State.fencedVec (s : State) (c i : Nat) : Bool := ((s.fence c).map fun a => decide (a.vectors ≤ i)).getD false

/-- The queues of a client that exist: below QUEUES, or leaving it (R287). -/
def State.hasQueue (s : State) (c q : Nat) : Bool :=
  s.exists_ c && (q < (s.tenant c).queues || (s.queue c q).leaving)

/-- The numbers of the queues of a client that hold anything. -/
def State.queuesOf (s : State) (c : Nat) : List Nat :=
  (s.queues.filter fun e => e.1 / qSpan == c).map fun e => e.1 % qSpan

/-- The queue number of an entry: where a number is used again while the queue that had it before still owes writes,
that queue stands 32,768 higher (R60, R65). -/
def qNum (q : Nat) : Nat := q % 32768

/-- The released queues of a number whose writes are still owed though the number is used again, oldest first. -/
def State.gonesOf (s : State) (c q : Nat) : List Nat := (s.queuesOf c).filter fun k => 32768 ≤ k && qNum k == q

/-- The keeper runs (R27): on KCLK, out of debug halt and awake (R33, R390, R445). -/
def State.keeperOk (s : State) : Bool := s.hv.keeperUp && !s.hv.dbgHalt && s.hv.pwr == 0 && s.hv.kclk

/-- A part whose clock stands still does nothing (R33, R35). -/
def onClock (on : Bool) (s : State) (k : State → State) : State := if on then k s else s

/-- The core clocks have stopped for want of the root PLL's lock (R35). -/
def State.unclocked (s : State) : Bool := !s.hv.rootLock && decide (3 ≤ s.hv.step)

/-- An access from outside that arrives while the core clocks are stopped waits for them, as one that wakes the
Hive does. -/
def whenClocked (i : Instr) (s : State) (k : State → State) : State :=
  if s.unclocked then { s with hv.heldCmds := s.hv.heldCmds ++ [i] } else k s

/-- The core domains are off: VDD_CORE or VDD_SRAM, the first two of R440, lies below 90 % (R438). -/
def State.coreOff (s : State) : Bool := s.aon.low.getLsbD 0 || s.aon.low.getLsbD 1

/-- The functions have been released, or recovery mode presents the manager's (R369, R370). -/
def State.released (s : State) : Bool := s.hv.ready || (s.hv.recovery && s.hv.halted)

/-- The Hive answers accesses: function ready is driven, and no isolation cell holds it at 0 (R369, R370, R438). -/
def State.presented (s : State) : Bool := s.released && !s.coreOff

/-- What the Hive puts on its boundary. With the core domains off the isolation cells hold its outputs, and nothing
leaves (R438). -/
def State.emit (s : State) (l : List Out) : State := if s.coreOff then s else { s with out := s.out ++ l }

/-- The first wake cause of this FCLK cycle that found the Hive AWAKE, 0 none (R447). -/
def causeNow (s : State) : Nat :=
  match s.hv.causeAt with
  | some (t, c) => if t = s.hv.tick then c else 0
  | none => 0

/-- ENTER was applied in this FCLK cycle: a wake cause of the cycle is applied before it (R447). -/
def entersNow (s : State) : Bool := s.hv.pwr == 1 && s.hv.enterAt == some s.hv.tick

/-- A wake cause of R446: it wakes a Hive in retention sleep, or one that is entering it as soon as entry
completes. One that finds the Hive AWAKE is kept for an ENTER of the same FCLK cycle, and one behind such an ENTER puts
it off to the end of the cycle (R447). -/
def wake (s : State) (cause : Nat) : State :=
  if s.hv.pwr = 2 then { s with hv.pwr := 3, hv.wakeCause := cause }
  else if s.hv.pwr = 0 || entersNow s then
    { s with hv.pwr := 0, hv.causeAt := if causeNow s = 0 then some (s.hv.tick, cause) else s.hv.causeAt }
  else if s.hv.pwr = 1 && s.hv.wakeNext = 0 then { s with hv.wakeNext := cause }
  else s

/-- What waits for a wake of cause `w` (R446) is held while the Hive sleeps. -/
def whenAwakeBy (w : Nat) (i : Instr) (s : State) (k : State → State) : State :=
  let s := wake s w
  if s.hv.pwr = 0 && !s.unclocked then k s else { s with hv.heldCmds := s.hv.heldCmds ++ [i] }

/-- An access to the KS, PP and CB blocks or to a mailbox register is held until the Hive is awake (R463). -/
def whenAwake (i : Instr) (s : State) (k : State → State) : State := whenAwakeBy 1 i s k

/-- The n-th draw from the TRNG as 48 bytes, and the state that has made it. -/
def State.trng (s : State) : Bytes × State :=
  (natBe 48 (Config.trng s.trngN).toNat, { s with trngN := s.trngN + 1 })

/-! ## Interrupts -/

/-- A signal is due on vector `v` of function `c` (R287, R413, R418): MSIX_MESSAGE_SEND judges it.
At or above VECTORS it is not sent and VEC_DROP counts it. -/
def signalVec (s : State) (c v : Nat) : State :=
  if v < (s.tenant c).vectors then
    s.modFunc c fun f => if f.due.contains v then f else { f with due := f.due ++ [v] }
  else s.modTenant c fun t => { t with vecDrop := satAdd 65535 t.vecDrop 1 }

/-- A notice for a peer client waits; at most one per type and queue (R363). -/
def noticeFor (s : State) (c ty q : Nat) : State :=
  let n : Notice := { client := c, ty := ty, queue := q }
  if s.peer.notices.contains n then s else { s with peer.notices := s.peer.notices ++ [n] }

/-! ## Events and the sticky record -/

def State.route (s : State) (src : Nat) : Route := tblGet {} s.ev.routes src

/-- The record under construction of a source takes one more raise (R419, R420). -/
def recMerge (s : State) (src : Nat) (info : W32) (signal : Bool) : State :=
  let r := tblGet {} s.ev.recs src
  let r' : EvRec :=
    if r.count = 0 then { count := 1, info := info, time := s.sync.h, signal := signal }
    else { r with count := satAdd 0xFFFFFFFF r.count 1, info := info, signal := r.signal || signal }
  { s with ev.recs := tblSet {} s.ev.recs src r' }

/-- Source `src` is raised (R414 to R416). -/
def raise (s : State) (src : Nat) (info : W32) : State :=
  let r := s.route src
  let new := !s.ev.pend.getLsbD src
  let s := { s with ev.pend := s.ev.pend ||| (1#512 <<< src) }
  let logs := r.log && s.ev.log.cfg.en
  let s := if logs then recMerge s src info (new && r.en) else s
  if new && r.en && !logs then signalVec s 0 r.vec else s

/-- A hive source (R414). -/
def raiseHive (s : State) (h : Nat) (info : W32) : State := raise s (256 + h) info

/-- Bits 7:0 of CB_STATE (R425). -/
def State.combByte (s : State) (c : Nat) : Nat :=
  let b := s.comb c
  if c < combCount then
    b.mode + (if s.aon.sticky.getLsbD c then 8 else 0) + b.faultCell.toNat * 16
  else 0

/-- CB_STATE (R425, R431). -/
def State.combWord (s : State) (c : Nat) : W32 :=
  if c < combCount then
    BitVec.ofNat 32 (s.combByte c + (s.comb c).cmdResult * 512 + (s.comb c).gen.toNat * 65536)
  else 0

/-- After a change of the state byte of comb `c`: GEN moves and the STATE source is raised (R414,
R425). -/
def combSync (s : State) (c : Nat) : State :=
  if s.combByte c = (s.comb c).before then s
  else
    let s := s.modComb c fun b => { b with gen := b.gen + 1, before := s.combByte c }
    raise s (4 * c + 2) (s.combWord c)

/-- A sticky bit sets. ST_FIRST takes it while the record is clear, and the lowest of those that set in one AON cycle
(R422). -/
def stick (s : State) (b : Nat) : State :=
  let cap := decide (s.aon.sticky = 0)
  { s with
    aon.first := if cap then b
      else if s.aon.firstOk && s.aon.firstAt == s.aon.cycles then min b s.aon.first else s.aon.first
    aon.firstOk := s.aon.firstOk || cap
    aon.firstAt := if cap then s.aon.cycles else s.aon.firstAt
    aon.sticky := s.aon.sticky ||| (1#256 <<< b) }

/-- A sticky bit's cause occurs: the bit sets and its source is raised (R414, R421, R422). -/
def sticky (s : State) (b : Nat) (info : W32) : State :=
  let s := stick s b
  if b < 64 then combSync (raise s (4 * b) info) b else raiseHive s b info

/-- Sticky bits named by a mask clear; ST_FIRST is re-armed when none is left (R422, R424). -/
def stickyDrop (s : State) (mask : BitVec 256) : State :=
  let r := s.aon.sticky &&& ~~~mask
  let s := { s with aon.sticky := r, aon.firstOk := s.aon.firstOk && r != 0 }
  s.each (List.range combCount) combSync

/-- `n` corrected single-bit errors outside the combs are counted (R38). -/
def eccCount (s : State) (n : Nat) : State := { s with ev.eccCorr := satAdd 0xFFFFFFFF s.ev.eccCorr n }

/-- A corrected single-bit error (R38): counted hive-wide; in a comb's memory its source is raised
(R414, kind 1). -/
def eccCorrected (s : State) (comb : Option Nat) : State :=
  let s := eccCount s 1
  match comb with
  | some c => raise s (4 * c + 1) 0
  | none => s

/-- A comb counter that stops at its top; reaching it raises the COUNTER source (R414, kind 3). -/
def combCount1 (s : State) (c : Nat) (top : Nat) (get : Comb → Nat) (put : Comb → Nat → Comb) : State :=
  let v := get (s.comb c)
  let s := s.modComb c fun b => put b (satAdd top v 1)
  if v < top && satAdd top v 1 = top then raise s (4 * c + 3) 0 else s

/-- A FAULT of comb `c` whose job's data it hit used cell `cell` (R414, R425, R426). -/
def combFault (s : State) (c : Nat) (cell : Option Cell) (info : W32) : State :=
  let bitOf : BitVec 4 := match cell with
    | some .bulk => 1 | some .digest => 2 | some .number => 4 | some .lattice => 8 | none => 0
  let b := s.comb c
  let enters := s.ev.isolate && (b.mode == 1 || b.mode == 2 || b.mode == 3)
  let s := s.modComb c fun b =>
    if b.mode = 5 then { b with faultCell := b.faultCell ||| bitOf }
    else if enters then { b with mode := 5, faultCell := bitOf }
    else b
  combSync (raise (stick s c) (4 * c) info) c

/-! ## Link idleness (R341, R342) -/

/-- The LTR value of the present link state. -/
def ltrValue (s : State) : BitVec 13 :=
  if s.hi.idle then BitVec.ofNat 13 (bits s.hi.ltr.toNat 28 16) else BitVec.ofNat 13 (bits s.hi.ltr.toNat 12 0)

/-- A due LTR message goes when its value changed and 1 µs has passed since the last. -/
def sendLtr (s : State) : State :=
  if !s.hi.ltrDue then s
  else if !s.cap.ltrEn || s.hi.ltrSent == some (ltrValue s) then { s with hi.ltrDue := false }
  else if s.hi.ltrSent.isSome && s.hv.tick < s.hi.ltrAt + 1200 then s
  else
    let v := ltrValue s
    { s with hi.ltrDue := false, hi.ltrSent := some v, hi.ltrAt := s.hv.tick }.emit [.ltr v]

/-- Idle is withdrawn: a doorbell, push, mailbox write or a request for the link. -/
def linkActive (s : State) : State :=
  let s := { s with hi.busyAt := s.hv.tick }
  if s.hi.idle then sendLtr { s with hi.idle := false, hi.ltrDue := true } else s

/-- A doorbell, push or mailbox write of a function withdraws idle; a peer client's does not (R341). -/
def fnActive (s : State) (c : Nat) : State := if isFn c then linkActive s else s

/-! ## DMA windows -/

def State.rom (s : State) : Bool := s.hi.rom

/-- Bus master enable holds; peer clients have none to clear (R336). -/
def State.busMaster (s : State) (c : Nat) : Bool :=
  if isFn c then (s.func c).bme && (s.func c).flr == 0 && !(s.func c).d3hot else true

/-- Virtual function `c` is enabled in the SR-IOV capability. -/
def Cap.hasVf (g : Cap) (c : Nat) : Bool := g.vfEnable && decide (c ≤ g.numVfs)

/-- The function answers accesses: not in FLR or D3hot, and a VF of standard mode with VF Enable set
(R284, R318, R337). Peer clients reach their pages over the fabric. -/
def fnReachable (s : State) (c : Nat) : Bool :=
  !isFn c || ((s.func c).flr == 0 && !(s.func c).d3hot && (c == 0 || s.cap.hasVf c || s.rom))

/-- The active bank of a client (R300). -/
def Windows.bank (w : Windows) : Tbl Dmaw := if w.active then w.b else w.a

/-- The window covers byte `a` (R300, R319, R335). -/
def covers (s : State) (w : Dmaw) (a : Nat) : Bool :=
  let tgt := bits w.ctrl.toNat 5 4
  w.ctrl.getLsbD 0 && tgt != 3 && !(tgt == 0 && s.rom)
    && !(w.ctrl.getLsbD 6 && !s.cap.pasidEn)
    && w.base.toNat / 4096 ≤ a / 4096 && a / 4096 ≤ w.limit.toNat / 4096

/-- Where an access of `n` bytes at `a` goes (R301): target, translated address, PASID; none where
it is not allowed. -/
def windowed (s : State) (c a n : Nat) (wr : Bool) : Option (Nat × Nat × Option Nat) :=
  let bank := (s.tenant c).win.bank
  match (List.range 16).find? fun i => covers s (tblGet {} bank i) a with
  | none => none
  | some i =>
    let w := tblGet {} bank i
    let tgt := bits w.ctrl.toNat 5 4
    let ok := if wr then w.ctrl.getLsbD 2 else w.ctrl.getLsbD 1
    if ok && (n = 0 || (a + n - 1) / 4096 ≤ w.limit.toNat / 4096) then
      some (tgt,
        if tgt = 0 then a else a - w.base.toNat / 4096 * 4096 + w.xlate.toNat / 4096 * 4096,
        if tgt = 0 && w.ctrl.getLsbD 6 then some (bits w.ctrl.toNat 27 8) else none)
    else none

/-- The window is defined for every byte of a range that one request may not span (R301, R330):
the pieces between multiples of 4,096 are each allowed. `fuel` bounds the pieces. -/
def rangeAllowed (s : State) (c : Nat) (wr : Bool) : Nat → Nat → Nat → Bool
  | 0, _, n => n == 0
  | fuel + 1, a, n =>
    if n = 0 then true
    else
      let m := min n (4096 - a % 4096)
      (windowed s c a m wr).isSome && rangeAllowed s c wr fuel (a + m) (n - m)

/-- Stage-3 judgement of a range (R101, R302). -/
def allowed (s : State) (c a n : Nat) (wr : Bool) : Bool :=
  rangeAllowed s c wr (n / 4096 + 2) a n

def winDrop (s : State) (c : Nat) : State :=
  s.modTenant c fun t => { t with winDrop := satAdd 65535 t.winDrop 1 }

/-- The answer of the address translation cache for a page (R335). -/
inductive Xl where
  | to (a : Nat) | ask | denied
deriving DecidableEq, Repr

/-- The address a request to a target is issued with: translated when ATS is on (R335). -/
def xlated (s : State) (c tgt a : Nat) (pasid : Option Nat) (wr : Bool) : Xl :=
  if tgt = 0 && isFn c && (s.func c).atsEn then
    match s.dma.atc.find? fun e => e.fn == c && e.pasid == pasid && e.page == a / 4096 with
    | some e => if (if wr then e.wr else e.rd) then .to (e.xlate * 4096 + a % 4096) else .denied
    | none => .ask
  else .to a

/-- The request to a target carries an address that the cache has translated (R335). -/
def atMark (s : State) (c tgt : Nat) : Bool := tgt == 0 && isFn c && (s.func c).atsEn

/-- The host tag limit of R331. -/
def State.tagLimit (s : State) : Nat := if s.cap.tag14 then 4096 else if s.cap.tag10 then 768 else 256
/-- The first tag value of R331. -/
def State.tagBase (s : State) : Nat := if s.cap.tag14 then 0 else if s.cap.tag10 then 256 else 0

/-- A Translation Request, which takes no completion of a read. -/
def Req.isXlate (r : Req) : Bool := match r.purpose with | .xlate .. => true | _ => false

/-- The outstanding requests. -/
def State.reqs (s : State) : List (Nat × Req) :=
  s.dma.reads.filterMap fun e => e.2.map fun r => (e.1, r)

def hostReqs (s : State) : List (Nat × Req) := s.reqs.filter fun e => e.2.target == 0

/-- A function may take one more host tag (R331). -/
def tagFree (s : State) (c : Nat) : Bool :=
  (hostReqs s).length < s.tagLimit && ((hostReqs s).filter fun e => e.2.client == c).length < s.hi.fnMax

/-- The lowest free number from `base`; `fuel` bounds the search. -/
def freeFrom (used : List Nat) : Nat → Nat → Nat
  | 0, base => base
  | fuel + 1, base => if used.contains base then freeFrom used fuel (base + 1) else base

/-- The tag that the next host request takes. -/
def State.nextTag (s : State) : Nat := freeFrom (tblKeys s.dma.reads) 4096 s.tagBase

/-- A Translation Request for a page, once while it is unanswered; it takes a tag, and waits for one (R331,
R335). -/
def askXlate (s : State) (c : Nat) (pasid : Option Nat) (page : Nat) : State :=
  if s.dma.asked.contains (c, pasid, page) || !tagFree s c then s
  else
    let tag := s.nextTag
    let r : Req := { client := c, purpose := .xlate pasid page, pasid := pasid, issued := s.hv.tick }
    let s := linkActive s
    { s with
      dma.asked := s.dma.asked ++ [(c, pasid, page)]
      dma.peak := max s.dma.peak ((hostReqs s).length + 1)
      dma.reads := tblPut s.dma.reads tag (some r) }.emit [.ats tag c pasid page]

/-- What became of a write: it waits for a translation, a window refused it (R302), a translation denied
it (R335), or it was issued. -/
inductive Wrote where
  | waits | refused | denied | issued
deriving DecidableEq, Repr

/-- The write of a record, a head mirror, a log entry or a mailbox body (R302, R329): checked,
translated, issued without Relaxed Ordering; a refusal is counted in WIN_DROP. Without bus master
enable nothing is issued (R336). -/
def recordWrite (s : State) (c : Nat) (a : Nat) (b : Bytes) : Wrote × State :=
  if !s.busMaster c then (.waits, s)
  else match windowed s c a b.length true with
    | none => (.refused, winDrop s c)
    | some (tgt, a', pasid) =>
      match xlated s c tgt a' pasid true with
      | .denied => (.denied, winDrop s c)
      | .ask => (.waits, askXlate s c pasid (a' / 4096))
      | .to x =>
        let s := if tgt = 0 then linkActive s else s
        (.issued, s.emit [.write c tgt x b false false pasid (atMark s c tgt)])

/-! ## Reads -/

/-- The source bytes of a job that have reached its cell: those that arrived without a gap. -/
def frontOf : Tbl Bytes → Nat → Nat
  | [], n => n
  | (o, b) :: t, n => if o = n then frontOf t (n + b.length) else n

def Job.front (j : Job) : Nat := frontOf j.parts 0

/-- Room of a job's host data that waits for bytes before it. -/
def Job.heldRoom (j : Job) : Nat :=
  j.parts.foldl (fun a e => if j.front ≤ e.1 && j.hostParts.contains e.1 then a + ceilDiv e.2.length 64 * 64 else a) 0

/-- Room that an outstanding read reserves: what has not reached its destination (R332). -/
def reqRoom (s : State) (r : Req) : Nat :=
  let gone := match r.purpose with
    | .source j o => if (s.job j).front = o then r.got.length else 0
    | _ => r.got.length
  ceilDiv (r.len - gone) 64 * 64

/-- Completion buffer bytes reserved: by outstanding host reads, and by host data that waits until the bytes
before it have reached the cell (R332, R333). -/
def State.cplUsed (s : State) : Nat :=
  (hostReqs s).foldl (fun a e => a + reqRoom s e.2) 0 + s.jobs.foldl (fun a e => a + e.2.heldRoom) 0

/-- A read joins those that wait (R332). -/
def waitRead (s : State) (r : Req) : State := { s with dma.waiting := s.dma.waiting ++ [r] }

/-- A read leaves the forager if bus master enable, a tag, buffer room and its translation allow; else it waits
(R331, R332, R335, R336). Fabric reads take identifiers from 65,536 up. -/
def issueRead (s : State) (r : Req) : State :=
  if !s.busMaster r.client then waitRead s r
  else if r.target = 0 then
    if tagFree s r.client && s.cplUsed + ceilDiv r.len 64 * 64 ≤ 1048576 then
      match xlated s r.client 0 r.addr.toNat r.pasid false with
      | .to x =>
        let tag := s.nextTag
        let n := (hostReqs s).length + 1
        let s := linkActive s
        { s with
          dma.reads := tblPut s.dma.reads tag (some { r with issued := s.hv.tick })
          dma.peak := max s.dma.peak n }.emit [.read tag r.client 0 x r.len r.noSnoop r.pasid (atMark s r.client 0)]
      | .ask => waitRead (askXlate s r.client r.pasid (r.addr.toNat / 4096)) r
      | .denied => waitRead s r
    else waitRead s r
  else
    let tag := freeFrom (tblKeys s.dma.reads) (s.dma.reads.length + 1) 65536
    { s with dma.reads := tblPut s.dma.reads tag (some { r with issued := s.hv.tick }) }.emit
      [.read tag r.client r.target r.addr.toNat r.len false none false]

/-- The requests of a read of `n` bytes at `a`, cut at multiples of 4,096 and, for the host, of
Max_Read_Request_Size (R330): pairs of address and length. `fuel` bounds them. -/
def cutF (step : Nat) : Nat → Nat → Nat → List (Nat × Nat)
  | 0, _, _ => []
  | fuel + 1, a, n =>
    if n = 0 then []
    else
      let m := min n (step - a % step)
      (a, m) :: cutF step fuel (a + m) (n - m)

def cuts (step a n : Nat) : List (Nat × Nat) := cutF step (n / step + 2) a n

/-- Max_Payload_Size and Max_Read_Request_Size in bytes (R321, R330). -/
def State.mps (s : State) : Nat := min 512 (128 * 2 ^ s.cap.mps)
def State.mrrs (s : State) : Nat := min 4096 (128 * 2 ^ s.cap.mrrs)

/-- The pieces of an access of `n` bytes at `a`: cut at multiples of 4,096, and in a window of the host at
multiples of `step` (R330). -/
def reqCuts (s : State) (c step a n : Nat) (wr : Bool) : List (Nat × Nat) :=
  (cuts 4096 a n).flatMap fun p =>
    match windowed s c p.1 p.2 wr with
    | some (0, _, _) => cuts step p.1 p.2
    | _ => [p]

/-- A read in the window that holds it now, or none where no window allows it (R301, R302). -/
def Req.inWindow (s : State) (r : Req) : Option Req :=
  (windowed s r.client r.win r.len false).map fun w =>
    { r with addr := BitVec.ofNat 64 w.2.1, target := w.1, pasid := w.2.2, bank := (s.tenant r.client).win.active }

/-- The requests of one read access, each judged in its window, or none at the first refusal
(R301, R329, R330). -/
def readPieces (s : State) (c a n : Nat) (mk : Nat → Purpose) (noSnoop : Bool) : Option (List Req) :=
  (reqCuts s c s.mrrs a n false).foldr (fun p acc =>
    let r : Req := { client := c, purpose := mk (p.1 - a), win := p.1, len := p.2
                     noSnoop := noSnoop && (s.func c).nsEn }
    match acc, r.inWindow s with
    | some l, some r => some (r :: l)
    | _, _ => none) (some [])

/-- No address of the requests has a translation that denies reading (R335). -/
def readable (s : State) (l : List Req) : Bool :=
  l.all fun r => xlated s r.client r.target r.addr.toNat r.pasid false != .denied

/-- The read and its room are free again (R332); an Invalidation Request no longer waits for it
(R335). -/
def dropRead (s : State) (tag : Nat) : State :=
  { s with
    dma.reads := tblErase s.dma.reads tag
    dma.invs := s.dma.invs.map fun i => { i with tags := i.tags.filter (· != tag) } }

/-- The client's reads that meet `p`: those not yet issued are dropped, and the completions of the
others will be accepted and discarded; after a clear of bus master enable or an FLR they are counted (R333,
R336). A Translation Request stays outstanding until it is answered. -/
def orphanReads (s : State) (counted : Bool) (p : Req → Bool) : State :=
  { s with
    dma.reads := tblMap none (fun _ v => v.map fun r =>
      match r.purpose with
      | .xlate .. => r
      | _ => if p r then { r with purpose := .dropped counted } else r) s.dma.reads
    dma.waiting := s.dma.waiting.filter fun r => !p r }

/-- One read of the keeper: its tag is free again with its completion (R329 to R331). -/
def keeperIssue (s : State) (r : Req) : State :=
  if r.target = 0 then
    let x := match xlated s r.client 0 r.addr.toNat r.pasid false with | .to x => x | _ => r.addr.toNat
    let tag := s.nextTag
    let n := (hostReqs s).length + 1
    let s := linkActive s
    { s with dma.peak := max s.dma.peak n }.emit [.read tag r.client 0 x r.len false r.pasid (atMark s r.client 0)]
  else
    let tag := freeFrom (tblKeys s.dma.reads) (s.dma.reads.length + 1) 65536
    s.emit [.read tag r.client r.target r.addr.toNat r.len false none false]

/-- A completion timeout is counted, and reported through AER of its function and the sticky record (R334, R421). -/
def timedOut (s : State) (fn : Nat) : State :=
  let s := { s with hi.timeouts := satAdd 65535 s.hi.timeouts 1 }
  sticky (if isFn fn then s.modFunc fn fun f => { f with aerCto := true } else s) 105 0

/-- A completion with status UR or CA, or with poisoned data, is counted (R345). -/
def cplBad (s : State) : State := { s with hi.cplErr := satAdd 65535 s.hi.cplErr 1 }
def cplPoisoned (s : State) : State := { s with hi.poisoned := satAdd 65535 s.hi.poisoned 1 }

/-- How a read of the keeper ended is counted as for any read (R333, R334, R345). -/
def keeperEnd (s : State) (c : Nat) (e : ReadEnd) : State :=
  match e with
  | .ok => s
  | .error => cplBad s
  | .poisoned => cplPoisoned s
  | .timeout => timedOut s c

/-- A tag is free and the completion buffer has room for each host request of the keeper, which makes them one after
the other (R331, R332). -/
def keeperRoom (s : State) (c : Nat) (l : List Req) : Bool :=
  l.all fun r => r.target != 0 || (tagFree s c && s.cplUsed + ceilDiv r.len 64 * 64 ≤ 1048576)

/-- The keeper reads `n` bytes at `a` of a client: refused by a window, denied by a translation, waiting, or
read with the end `e` (R302, R308, R331 to R336). -/
def keeperRead (s : State) (c a n : Nat) (e : ReadEnd) : Wrote × State :=
  match readPieces s c a n (fun _ => .mirror 0) false with
  | none => (.refused, s)
  | some l =>
    if l.isEmpty then (.issued, s)
    else if !readable s l then (.denied, s)
    else if !s.busMaster c then (.waits, s)
    else match l.find? fun r => xlated s c r.target r.addr.toNat r.pasid false == .ask with
      | some r => (.waits, askXlate s c r.pasid (r.addr.toNat / 4096))
      | none =>
        if keeperRoom s c l then (.issued, keeperEnd (s.each l keeperIssue) c e) else (.waits, s)

/-- The write of a mailbox body or a log entry, cut into requests (R302, R330). Either lies in one page, so that what
its first request meets the others meet. -/
def bodyWrite (s : State) (c a : Nat) (b : Bytes) : Wrote × State :=
  (reqCuts s c s.mps a b.length true).foldl (fun w p =>
    if w.1 = .issued then recordWrite w.2 c p.1 (slice b (p.1 - a) p.2) else w) (.issued, s)

end Sys2Proof.Machine
end

