-- ==== Sys2Proof/Machine/Sha.lean ====
section
/-! DEFINITION. SHA-2 of FIPS 180-4 and the sponges of FIPS 202 (PRESUMED: the standards' texts,
which R166 cites, are not in the spec; log entry 10). Chaining states are byte strings: the words of
SHA-2 most significant byte first, the lanes of Keccak least significant byte first. -/

namespace Sys2Proof.Machine

/-! ## Constants -/

/-- The largest `r` below `2^fuel` with `r^k ≤ n`, bit by bit from the top. -/
def rootF (k n : Nat) : Nat → Nat → Nat
  | 0, r => r
  | fuel + 1, r => rootF k n fuel (if (r + 2 ^ fuel) ^ k ≤ n then r + 2 ^ fuel else r)

/-- The first eighty primes. -/
def primes80 : List Nat :=
  [2, 3, 5, 7, 11, 13, 17, 19, 23, 29, 31, 37, 41, 43, 47, 53, 59, 61, 67, 71] ++
  [73, 79, 83, 89, 97, 101, 103, 107, 109, 113, 127, 131, 137, 139, 149, 151, 157, 163, 167, 173] ++
  [179, 181, 191, 193, 197, 199, 211, 223, 227, 229, 233, 239, 241, 251, 257, 263, 269, 271, 277,
    281] ++
  [283, 293, 307, 311, 313, 317, 331, 337, 347, 349, 353, 359, 367, 373, 379, 383, 389, 397, 401,
    409]

/-- The first 64 bits of the fractional parts of the cube roots of the first eighty primes. -/
def shaK : List (BitVec 64) := primes80.map fun p => BitVec.ofNat 64 (rootF 3 (p * 2 ^ 192) 67 0)

/-- The first 64 bits of the fractional parts of the square roots of sixteen primes. -/
def shaRoots : List (BitVec 64) :=
  (primes80.take 16).map fun p => BitVec.ofNat 64 (rootF 2 (p * 2 ^ 128) 67 0)

/-! ## SHA-2 -/

/-- The rotation and shift counts of the six functions of FIPS 180-4 for a word size. -/
structure ShaFns where
  s0 : Nat × Nat × Nat
  s1 : Nat × Nat × Nat
  e0 : Nat × Nat × Nat
  e1 : Nat × Nat × Nat

def shaFns32 : ShaFns := ⟨(7, 18, 3), (17, 19, 10), (2, 13, 22), (6, 11, 25)⟩
def shaFns64 : ShaFns := ⟨(1, 8, 7), (19, 61, 6), (28, 34, 39), (14, 18, 41)⟩

def shaBig {w : Nat} (r : Nat × Nat × Nat) (x : BitVec w) : BitVec w :=
  x.rotateRight r.1 ^^^ x.rotateRight r.2.1 ^^^ x.rotateRight r.2.2
def shaSmall {w : Nat} (r : Nat × Nat × Nat) (x : BitVec w) : BitVec w :=
  x.rotateRight r.1 ^^^ x.rotateRight r.2.1 ^^^ (x >>> r.2.2)

/-- The message schedule from the last sixteen words on; the list is kept newest first. -/
def shaSched {w : Nat} (f : ShaFns) : Nat → List (BitVec w) → List (BitVec w)
  | 0, l => l
  | fuel + 1, l =>
    shaSched f fuel ((shaSmall f.s1 (l.getD 1 0) + l.getD 6 0 + shaSmall f.s0 (l.getD 14 0)
      + l.getD 15 0) :: l)

/-- The eight working variables. -/
structure ShaVars (w : Nat) where
  a : BitVec w
  b : BitVec w
  c : BitVec w
  d : BitVec w
  e : BitVec w
  f : BitVec w
  g : BitVec w
  h : BitVec w

/-- One round. -/
def shaRound {w : Nat} (fn : ShaFns) (v : ShaVars w) (k m : BitVec w) : ShaVars w :=
  let t1 := v.h + shaBig fn.e1 v.e + ((v.e &&& v.f) ^^^ (~~~v.e &&& v.g)) + k + m
  let t2 := shaBig fn.e0 v.a + ((v.a &&& v.b) ^^^ (v.a &&& v.c) ^^^ (v.b &&& v.c))
  ⟨t1 + t2, v.a, v.b, v.c, v.d + t1, v.e, v.f, v.g⟩

/-- The words of a byte string, `n` bytes each, most significant byte first. -/
def beWords (w n : Nat) (b : Bytes) : List (BitVec w) :=
  (chunks n b).map fun c => BitVec.ofNat w (beNat c)

/-- The compression of one block into a chaining state. -/
def shaBlock (w rounds : Nat) (f : ShaFns) (ks : List (BitVec w)) (st block : Bytes) : Bytes :=
  let n := w / 8
  let h := beWords w n st
  let ms := (shaSched f (rounds - 16) (beWords w n block).reverse).reverse
  let v0 : ShaVars w := ⟨h.getD 0 0, h.getD 1 0, h.getD 2 0, h.getD 3 0, h.getD 4 0, h.getD 5 0,
    h.getD 6 0, h.getD 7 0⟩
  let v := (List.zip ks ms).foldl (fun v km => shaRound f v km.1 km.2) v0
  (List.zipWith (· + ·) h [v.a, v.b, v.c, v.d, v.e, v.f, v.g, v.h]).flatMap (bvBe n)

def sha256Ks : List (BitVec 32) := (shaK.take 64).map fun (k : BitVec 64) => (k >>> 32).setWidth 32
def sha256Block (st block : Bytes) : Bytes := shaBlock 32 64 shaFns32 sha256Ks st block
def sha512Block (st block : Bytes) : Bytes := shaBlock 64 80 shaFns64 shaK st block

/-! ## Keccak -/

def keccakRho : List Nat :=
  [0, 1, 62, 28, 27, 36, 44, 6, 55, 20, 3, 10, 43] ++
  [25, 39, 41, 45, 15, 21, 8, 18, 2, 61, 56, 14]

def keccakRc : List (BitVec 64) :=
  [0x0000000000000001, 0x0000000000008082, 0x800000000000808A, 0x8000000080008000,
    0x000000000000808B, 0x0000000080000001, 0x8000000080008081, 0x8000000000008009] ++
  [0x000000000000008A, 0x0000000000000088, 0x0000000080008009, 0x000000008000000A,
    0x000000008000808B, 0x800000000000008B, 0x8000000000008089, 0x8000000000008003] ++
  [0x8000000000008002, 0x8000000000000080, 0x000000000000800A, 0x800000008000000A,
    0x8000000080008081, 0x8000000000008080, 0x0000000080000001, 0x8000000080008008]

/-- One round of Keccak-f[1600] on 25 lanes, lane `x + 5 y` at its number. -/
def keccakRound (a : Array (BitVec 64)) (rc : BitVec 64) : Array (BitVec 64) :=
  let c := ((List.range 5).map fun x =>
    a.getD x 0 ^^^ a.getD (x + 5) 0 ^^^ a.getD (x + 10) 0 ^^^ a.getD (x + 15) 0
      ^^^ a.getD (x + 20) 0).toArray
  let d := ((List.range 5).map fun x =>
    c.getD ((x + 4) % 5) 0 ^^^ (c.getD ((x + 1) % 5) 0).rotateLeft 1).toArray
  let t := ((List.zip (List.range 25) keccakRho).map fun ir =>
    (a.getD ir.1 0 ^^^ d.getD (ir.1 % 5) 0).rotateLeft ir.2).toArray
  -- lane (x, y) of the permuted state is lane (x + 3y, x) of the rotated one
  let b := ((List.range 25).map fun i => t.getD ((i % 5 + 3 * (i / 5)) % 5 + 5 * (i % 5)) 0).toArray
  ((List.range 25).map fun i =>
    let x := i % 5
    let y := i - x
    let v := b.getD i 0 ^^^ (~~~(b.getD ((x + 1) % 5 + y) 0) &&& b.getD ((x + 2) % 5 + y) 0)
    if i = 0 then v ^^^ rc else v).toArray

/-- Keccak-f[1600] on 200 bytes. -/
def keccakF (st : Bytes) : Bytes :=
  let a := ((chunks 8 st).map fun c => BitVec.ofNat 64 (leNat c)).toArray
  (keccakRc.foldl keccakRound a).toList.flatMap (bvLe 8)

/-- Absorb one block of `rate` bytes. -/
def keccakAbsorb (st block : Bytes) : Bytes :=
  keccakF (xorB st (fit block 200))

/-- The final block: the tail below the rate, the domain byte and the closing bit. -/
def keccakPad (rate : Nat) (dom : Byte) (tail : Bytes) : Bytes :=
  xorB (fit (tail ++ [dom]) rate) (zeros (rate - 1) ++ [0x80])

/-- Squeeze `n` bytes; `fuel` bounds the blocks. -/
def keccakSqueeze (rate : Nat) : Nat → Bytes → Nat → Bytes
  | 0, _, _ => []
  | fuel + 1, st, n =>
    if n ≤ rate then st.take n
    else st.take rate ++ keccakSqueeze rate fuel (keccakF st) (n - rate)

/-- The sponge over a whole message. -/
def sponge (rate : Nat) (dom : Byte) (msg : Bytes) (n : Nat) : Bytes :=
  let whole := msg.length / rate * rate
  let st := (chunks rate (msg.take whole)).foldl keccakAbsorb (zeros 200)
  keccakSqueeze rate (n / rate + 1) (keccakAbsorb st (keccakPad rate dom (msg.drop whole))) n

def shake128 (msg : Bytes) (n : Nat) : Bytes := sponge 168 0x1F msg n
def shake256 (msg : Bytes) (n : Nat) : Bytes := sponge 136 0x1F msg n

/-! ## The hashes of R166 by ALG code -/

/-- The block of R166. -/
def hashBlock (alg : Nat) : Nat :=
  match alg with
  | 0x01 | 0x02 => 64
  | 0x03 | 0x04 => 128
  | 0x11 => 144
  | 0x12 => 136
  | 0x13 => 104
  | 0x14 => 72
  | 0x21 | 0x31 => 168
  | 0x22 | 0x32 => 136
  | _ => 16

/-- The full output of R166; for KMAC the output when OUT_LEN is 0. -/
def hashLen (alg : Nat) : Nat :=
  match alg with
  | 0x01 | 0x11 => 28
  | 0x02 | 0x12 | 0x31 => 32
  | 0x03 | 0x13 => 48
  | 0x04 | 0x14 | 0x32 => 64
  | _ => 16

/-- An ALG code of R83 for HASH. -/
def isHash (alg : Nat) : Bool :=
  alg = 1 || alg = 2 || alg = 3 || alg = 4 || alg = 0x11 || alg = 0x12 || alg = 0x13 || alg = 0x14

/-- The state of an empty message. -/
def hashInit (alg : Nat) : Bytes :=
  match alg with
  | 0x01 => (shaRoots.drop 8).flatMap fun (r : BitVec 64) => bvBe 4 (r.setWidth 32)
  | 0x02 => (shaRoots.take 8).flatMap fun (r : BitVec 64) => bvBe 4 ((r >>> 32).setWidth 32)
  | 0x03 => (shaRoots.drop 8).flatMap fun (r : BitVec 64) => bvBe 8 r
  | 0x04 => (shaRoots.take 8).flatMap fun (r : BitVec 64) => bvBe 8 r
  | _ => zeros 200

/-- One whole block enters the state. -/
def hashStep (alg : Nat) (st block : Bytes) : Bytes :=
  match alg with
  | 0x01 | 0x02 => sha256Block st block
  | 0x03 | 0x04 => sha512Block st block
  | _ => keccakAbsorb st block

/-- Whole blocks enter the state. -/
def hashAbsorb (alg : Nat) (st msg : Bytes) : Bytes :=
  (chunks (hashBlock alg) msg).foldl (hashStep alg) st

/-- The domain byte of the sponges of R166. -/
def hashDom (alg : Nat) : Byte :=
  match alg with
  | 0x21 | 0x22 => 0x1F
  | 0x31 | 0x32 => 0x04
  | _ => 0x06

/-- `n` bytes of output for a state that has taken `total` bytes less the `tail`. -/
def hashFinish (alg : Nat) (st : Bytes) (total : Nat) (tail : Bytes) (n : Nat) : Bytes :=
  let b := hashBlock alg
  let whole := tail.length / b * b
  let st := hashAbsorb alg st (tail.take whole)
  let rest := tail.drop whole
  match alg with
  | 0x01 | 0x02 =>
    let m := rest ++ [0x80] ++ zeros ((119 - rest.length) % 64) ++ natBe 8 (8 * total)
    (hashAbsorb alg st m).take n
  | 0x03 | 0x04 =>
    let m := rest ++ [0x80] ++ zeros ((239 - rest.length) % 128) ++ natBe 16 (8 * total)
    (hashAbsorb alg st m).take n
  | _ => keccakSqueeze b (n / b + 1) (keccakAbsorb st (keccakPad b (hashDom alg) rest)) n

/-- A whole message hashed to `n` bytes. -/
def hashN (alg : Nat) (msg : Bytes) (n : Nat) : Bytes :=
  hashFinish alg (hashInit alg) msg.length msg n

/-- A whole message hashed to the full output. -/
def hashOf (alg : Nat) (msg : Bytes) : Bytes := hashN alg msg (hashLen alg)

def sha256 (msg : Bytes) : Bytes := hashOf 2 msg
def sha384 (msg : Bytes) : Bytes := hashOf 3 msg
def sha512 (msg : Bytes) : Bytes := hashOf 4 msg

/-! ## HMAC and KMAC -/

/-- A key padded to the block and masked with a constant byte (R167). -/
def hmacPad (alg : Nat) (c : Byte) (key : Bytes) : Bytes :=
  (fit (if hashBlock alg < key.length then hashOf alg key else key) (hashBlock alg)).map (· ^^^ c)

/-- The outer hash of HMAC over an inner digest. -/
def hmacOuter (alg : Nat) (key inner : Bytes) : Bytes := hashOf alg (hmacPad alg 0x5c key ++ inner)

/-- HMAC of FIPS 198-1. -/
def hmac (alg : Nat) (key msg : Bytes) : Bytes :=
  hmacOuter alg key (hashOf alg (hmacPad alg 0x36 key ++ msg))

/-- The bytes of a number without leading zeros, at least one; `fuel` bounds them. -/
def minBe : Nat → Nat → Bytes
  | 0, _ => []
  | fuel + 1, v => if v < 256 then [BitVec.ofNat 8 v] else minBe fuel (v / 256) ++ [BitVec.ofNat 8 v]

/-- left_encode and right_encode of SP 800-185. -/
def leftEncode (v : Nat) : Bytes :=
  let b := minBe 16 v
  BitVec.ofNat 8 b.length :: b
def rightEncode (v : Nat) : Bytes :=
  let b := minBe 16 v
  b ++ [BitVec.ofNat 8 b.length]

def encodeString (b : Bytes) : Bytes := leftEncode (8 * b.length) ++ b

def bytepad (b : Bytes) (w : Nat) : Bytes :=
  let m := leftEncode w ++ b
  fit m (ceilDiv m.length w * w)

/-- The state of a KMAC after its function name, customisation string and key (R167). -/
def kmacInit (alg : Nat) (key s : Bytes) : Bytes :=
  let b := hashBlock alg
  hashAbsorb alg (zeros 200)
    (bytepad (encodeString (ascii "KMAC") ++ encodeString s) b ++ bytepad (encodeString key) b)

/-- KMAC's output of `n` bytes from a state and the message's remaining bytes. -/
def kmacFinish (alg : Nat) (st tail : Bytes) (n : Nat) : Bytes :=
  hashFinish alg st 0 (tail ++ rightEncode (8 * n)) n

/-- KMAC of SP 800-185. -/
def kmacOf (alg : Nat) (key s msg : Bytes) (n : Nat) : Bytes :=
  kmacFinish alg (kmacInit alg key s) msg n

end Sys2Proof.Machine
end

