-- ==== Sys2Proof/Machine/Checks.lean ====
section
/-! DEFINITION. The checks of stage 3: the malformed-entry table (R100) and the failures of a job
before it is dispatched (R101 with R83, R94, R123, R133, R142, R154 to R159, R168, R169, R179, R191,
R192, R196, R232, R243, R245). -/

namespace Sys2Proof.Machine

/-! ## The malformed-entry table -/

/-- The block of R116 and R166 for a digest opcode. -/
def digestBlock (o : Op) (alg : Nat) : Nat :=
  if o == .cmacGen || o == .cmacVerify then 16 else hashBlock alg

/-- The full output of a digest opcode (R166). -/
def digestFull (o : Op) (alg : Nat) : Nat :=
  if o == .cmacGen || o == .cmacVerify then 16 else hashLen alg

/-- The hash length that the output length depends on. -/
def outFull (o : Op) (d : Bytes) : Nat := if o.digest then digestFull o (dAlg d) else hashLen (dHash d)

/-- The output length of the descriptor. -/
def dOut (o : Op) (d : Bytes) : Nat := outLen o d (outFull o d)

/-- ALG lies in the opcode's set (R83). -/
def algOk (o : Op) (a : Nat) : Bool :=
  match o with
  | .aesXtsEnc | .aesXtsDec => a == 1 || a == 3
  | .aesGcmEnc | .aesGcmDec | .aesCcmEnc | .aesCcmDec | .aesCbcEnc | .aesCbcDec | .aesCtr | .aesGmac
  | .cmacGen | .cmacVerify => a == 1 || a == 2 || a == 3
  | .chachaPolyEnc | .chachaPolyDec => a == 4
  | .tls13RecSeal | .tls13RecOpen | .espSeal | .espOpen => a == 1 || a == 3 || a == 4
  | .hash | .hmacGen | .hmacVerify => isHash a
  | .shakeXof => a == 0x21 || a == 0x22
  | .kmac => a == 0x31 || a == 0x32
  | .rsaPriv | .rsaPub => 0x10 ≤ a && a ≤ 0x80
  | .modexpRaw => 2 ≤ a && a ≤ 0x80
  | .ecdsaSign | .ecdsaVerify | .ecdh => a == 1 || a == 2 || a == 3
  | .eddsaSign | .eddsaVerify => a == 0x11 || a == 0x12
  | .xdh => a == 0x21 || a == 0x22
  | .ecPointMulRaw => a == 1 || a == 2 || a == 3 || a == 0x11 || a == 0x12 || a == 0x21 || a == 0x22
  | .mlkemKeygen | .mlkemEncap | .mlkemDecap => a == 0x41 || a == 0x42 || a == 0x43
  | .mldsaKeygen | .mldsaSign | .mldsaVerify => a == 0x51 || a == 0x52 || a == 0x53
  | .keyAgreeToSlot =>
    a == 1 || a == 2 || a == 3 || a == 0x21 || a == 0x22 || a == 0x41 || a == 0x42 || a == 0x43
  | _ => a == 0

/-- The OP_PARAM bits that R84 defines for the opcode on this descriptor. -/
def paramMask (o : Op) (d : Bytes) : Nat :=
  let code := opCode o
  if code / 256 = 1 then
    0x1F1F + (if o == .aesGmac && dFinal o d then 0x10000 else 0)
      + (if o == .aesCbcEnc || o == .aesCbcDec then 0x20000 else 0)
      + (if o == .aesXtsEnc || o == .aesXtsDec then 0xF000000 else 0)
  else if code / 256 = 2 then (if o == .kmac then 0xFFFFFFFF else 0xFFFFFF)
  else if code / 256 = 3 || code / 256 = 4 then 0xFFFF
  else if code / 256 = 5 then (if o == .keyDerive then 0xFFFF else 0xFF)
  else if o == .random then 1
  else 0

/-- The opcode writes output on this descriptor (R81, R193). -/
def dstAllowed (o : Op) (d : Bytes) : Bool :=
  match o with
  | .nop | .fence | .stamp | .hmacVerify | .cmacVerify | .ecdsaVerify | .eddsaVerify | .mldsaVerify
  | .keyDerive | .keyUnwrap | .keyInvalidate | .keyAgreeToSlot | .ctxImport => false
  | .aesGmac => dFinal o d && !dVerify d
  | .hash | .shakeXof | .hmacGen | .cmacGen | .kmac => dFinal o d
  | .rsaPub => !(dVariant d == 1 || dVariant d == 2)
  | .keyGenerate => ktCurve (kbType d)
  | _ => true

/-- COMMIT_DIGEST is allowed on the descriptor (R78). -/
def commitAllowed (o : Op) (d : Bytes) : Bool :=
  (o == .hash || o == .hmacGen || o == .kmac || o == .cmacGen) && dFinal o d && dReceipt d

/-- Byte `i` of the parameter slot lies in a field of its layout that is in use (R85). -/
def paramUsed (o : Op) (d : Bytes) (i : Nat) : Bool :=
  match paramKind o d with
  | .none => true
  | .iv => i < min (dIvLen d) 16
  | .tls => i < 12 || (16 ≤ i && i < 24)
    || (o == .tls13RecSeal && (i == 24 || i == 26 || i == 27))
  | .esp => i < min (dIvLen d) 12 || (16 ≤ i && i < 28)
    || (o == .espSeal && (i == 28 || i == 29))
  | .mac =>
    let n := if dOutLen d = 0 then (if algOk o (dAlg d) then digestFull o (dAlg d) else 64) else dOutLen d
    i < min n 64
  | .s => i < min (dSLen d) 64
  | .key => i < 4 || (8 ≤ i && i < 18)
    || (o == .keyDerive && 24 ≤ i && i < 24 + min (dLabelLen d) 40)

/-- A byte of the parameter slot that R85 requires to be 0 is not. -/
def paramDirty (o : Op) (d : Bytes) : Bool :=
  paramKind o d != .none &&
    ((dBlock d).zipIdx.any (fun bi => bi.1 != 0 && !paramUsed o d bi.2)
      || (paramKind o d == .key && leAt (dBlock d) 0 4 / 2 ^ 20 != 0))

/-- Check 7 of R100. A zero-length inline entry is not checked (R87). That SRC and SRC_SG_COUNT be 0 where L is 0
is demanded of the opcodes whose L column reads 0, not of a descriptor whose lengths make L 0 (DESIGN CHOICE,
log 59). -/
def reservedBad (o : Op) (d : Bytes) : Bool :=
  let stop := inlineAt o d + 16 * inlineN d
  leAt d 7 1 != 0 || dFlags d / 2 ^ 9 != 0 || leAt d 8 4 / 2 ^ 20 != 0 || leAt d 12 4 / 2 ^ 17 != 0
    || (dCtx d != 0 && !dUsesCtx o d)
    || (dKeySlot d != 0 && !o.usesKey)
    || (dAad d != 0 && !o.hasAad)
    || (dMsg d != 0 && o.noSource && o != .random)
    || (o.noSource && (dSrc d != 0 || dSrcN d != 0))
    || (!dstAllowed o d && (dDst d != 0 || dDstN d != 0))
    || Nat.land (dParam d) (0xFFFFFFFF - paramMask o d) != 0
    || (dCommit d && !commitAllowed o d)
    || (dInline d && (dSrc d != 0 || dDst d != 0))
    || (!dInline d && ((dSrcN d != 0 && dSrc d % 16 != 0) || (dDstN d != 0 && dDst d % 16 != 0)))
    || dResult d % 64 != 0
    || paramDirty o d
    || (List.range (inlineN d)).any (fun i =>
      (entryAt d (inlineAt o d + 16 * i)).len != 0 && entryBad d (inlineAt o d + 16 * i))
    || !allZero (slice d stop (64 * dSlots d - stop))

/-- RESULT_ADDR lies outside the windows (R100, order 8). -/
def resultBad (s : State) (c : Nat) (d : Bytes) : Bool :=
  dResult d != 0 && !allowed s c (dResult d) 64 true

/-- Check 8 of R100. -/
def rangeBad (s : State) (c : Nat) (o : Op) (d : Bytes) : Bool :=
  let t := s.tenant c
  (o.usesKey && t.keyCount ≤ dKeySlot d)
    || (o.keyBlock && t.keyCount ≤ kbTarget d)
    || (dUsesCtx o d && t.ctxCount ≤ dCtx d)
    || resultBad s c d

/-- Checks 5 to 8 of R100 on a whole descriptor: the stop code, or the opcode. -/
def structural (s : State) (c : Nat) (d : Bytes) : BitVec 8 ⊕ Op :=
  match dOp d with
  | none => .inl qerrOpcode
  | some .nop =>
    if dResult d % 64 != 0 then .inl qerrReserved
    else if resultBad s c d then .inl qerrRange
    else .inr .nop
  | some o =>
    if dSlots d < minSlots o d then .inl qerrSlots
    else if reservedBad o d then .inl qerrReserved
    else if rangeBad s c o d then .inl qerrRange
    else .inr o

/-! ## Lengths and parameters -/

/-- The block of R116 for a streamable opcode. -/
def streamBlock (o : Op) (alg : Nat) : Nat :=
  if o.digest then digestBlock o alg
  else if o == .chachaPolyEnc || o == .chachaPolyDec
      || ((o == .tls13RecSeal || o == .tls13RecOpen || o == .espSeal || o == .espOpen) && alg == 4) then 64
  else 16

/-- The total length a stream or job may take (R133, R169). -/
def msgMax (o : Op) : Nat :=
  match o with
  | .aesGcmEnc | .aesGcmDec => 2 ^ 36 - 32
  | .chachaPolyEnc | .chachaPolyDec => (2 ^ 32 - 1) * 64
  | _ => if o.digest then 2 ^ 61 - 1 else 2 ^ 40 - 1

/-- MSG_LEN and AAD_LEN are values R123, R133, R142, R155, R157, R159, R192, R232, R243 and R245
allow. AES_CCM with IV_LEN 0 is held to the limit of n = 12 also where no nonce is built for it and stage 5 would refuse
it (R133; DESIGN CHOICE, log 86). The row of R192 for an OAEP encryption states k bytes more than n ‖ e ‖ message has
with the message of R196, and the model takes the latter: k + 4 to 2k + 2 − 2h (DESIGN CHOICE, log 86). -/
def lenOk (o : Op) (d : Bytes) : Bool :=
  let m := dMsg d
  let a := dAlg d
  let k := 8 * a
  let h := hashLen (dHash d)
  let v := dVariant d
  -- FIRST and MIDDLE carry whole blocks, and additional data stands on FIRST only
  let streamOk := !dStream o d ||
    ((dFinal o d || (m % streamBlock o a == 0 && dAad d % streamBlock o a == 0))
      && (dFirst o d || dAad d == 0))
  streamOk && match o with
  | .aesGcmEnc | .aesGcmDec | .chachaPolyEnc | .chachaPolyDec => m ≤ msgMax o
  | .aesCcmEnc | .aesCcmDec =>
    let n := if dIvLen d = 0 then 12 else dIvLen d
    if 7 ≤ n && n ≤ 13 then m ≤ 2 ^ (8 * (15 - n)) - 1 else true
  | .aesCbcEnc => dPad d || m % 16 == 0
  | .aesCbcDec => m % 16 == 0 && (!dPad d || 16 ≤ m)
  | .aesXtsEnc | .aesXtsDec => if dDu d ≤ 7 then 0 < m && m % 2 ^ (dDu d + 9) == 0 else true
  | .tls13RecSeal => m ≤ 16384 && dAad d == 0
  | .tls13RecOpen => dAad d == 5 && 17 ≤ m && m ≤ 16640
  | .espSeal => dAad d == 0
  | .espOpen => dAad d == 16 && dT d + 4 ≤ m && m ≤ 65535 && (m - dT d) % 4 == 0
  | .random => 1 ≤ m && m ≤ 65536
  | .rsaPriv => if v = 1 || v = 2 then m == h else m == k
  | .rsaPub =>
    if v = 0 then m == 2 * k + 4
    else if v = 3 then k + 4 ≤ m && m + 2 * h ≤ 2 * k + 2
    else m == 2 * k + 4 + h
  | .modexpRaw => m == 3 * k
  | .ecdsaSign => 1 ≤ m && m ≤ 64
  | .ecdsaVerify => pubLen a + sigLen a + 1 ≤ m && m ≤ pubLen a + sigLen a + 64
  | .eddsaSign => if v = 0 then m ≤ 65536 else m == 64
  | .eddsaVerify =>
    if v = 0 then pubLen a + sigLen a ≤ m && m ≤ pubLen a + sigLen a + 65536
    else m == pubLen a + sigLen a + 64
  | .ecdh | .xdh => m == pubLen a
  | .ecPointMulRaw => if v = 0 then m == scalarLen a + pubLen a else m == scalarLen a
  | .mlkemEncap => m == pubLen a
  | .mlkemDecap => m == kemCt a
  | .mldsaSign => v = 0 || v = 1 || m == 64
  | .mldsaVerify =>
    if v = 0 then pubLen a + sigLen a ≤ m else m == pubLen a + sigLen a + 64
  | .keyAgreeToSlot => if 0x41 ≤ a then m == kemCt a else m == pubLen a
  | .keyDerive => m ≤ 64
  | .keyUnwrap =>
    if dSub d = 0 then 40 ≤ m && m ≤ 2592
    else if dSub d = 1 then 24 ≤ m && m ≤ 72
    else 24 ≤ m && m ≤ 2576
  | .keyAttest => m ≤ 64
  | .ctxImport => m == 272 || m == 280
  | _ => true

/-- VARIANT and HASH are values of R191, and the modulus is long enough (R196). -/
def variantOk (o : Op) (d : Bytes) : Bool :=
  let v := dVariant d
  let hs := dHash d
  let k := 8 * dAlg d
  let h := hashLen hs
  match o with
  | .rsaPriv | .rsaPub =>
    (v == 0 && hs == 0) ||
      ((v == 1 || v == 2 || v == 3) && isHash hs && (v == 1 || 2 * h + 2 ≤ k))
  | .ecdsaSign => (v == 0 && hs == 0) || (v == 1 && isHash hs)
  | .eddsaSign | .eddsaVerify | .ecPointMulRaw => (v == 0 || v == 1) && hs == 0
  | .mldsaSign => v ≤ 3 && hs == 0
  | .mldsaVerify => (v == 0 || v == 2) && hs == 0
  | _ => v == 0 && hs == 0

/-- IV_LEN of the bulk opcodes; 0 on FIRST or single-shot is judged at stage 5 (R133). -/
def ivOk (o : Op) (d : Bytes) : Bool :=
  let n := dIvLen d
  if !dFirst o d then n == 0
  else n == 0 || match o with
    | .aesGcmEnc | .aesGcmDec | .aesGmac => n ≤ 16
    | .aesCcmEnc | .aesCcmDec => 7 ≤ n && n ≤ 13
    | .aesCbcEnc | .aesCbcDec | .aesCtr | .aesXtsEnc | .aesXtsDec => n == 16
    | .espOpen => n == 4
    | _ => n == 12

/-- TAG_LEN of the bulk opcodes (R133). -/
def tagOk (o : Op) (d : Bytes) : Bool :=
  let t := dTagLen d
  if !dFinal o d then t == 0
  else t == 0 || match o with
    | .aesGcmEnc | .aesGcmDec | .aesGmac => t == 4 || t == 8 || (12 ≤ t && t ≤ 16)
    | .aesCcmEnc | .aesCcmDec => 4 ≤ t && t ≤ 16 && t % 2 == 0
    | .chachaPolyEnc | .chachaPolyDec | .tls13RecSeal | .tls13RecOpen => t == 16
    | .espSeal | .espOpen => t == 16 || (dAlg d != 4 && (t == 8 || t == 12))
    | _ => false

/-- OUT_LEN and S_LEN of the digest opcodes (R168, R169, R179). -/
def outLenOk (o : Op) (d : Bytes) : Bool :=
  let n := dOutLen d
  let full := digestFull o (dAlg d)
  let lenGood :=
    if !dFinal o d then n == 0
    else match o with
      | .shakeXof => 1 ≤ n
      | .kmac => true
      | .hash => n ≤ full
      | _ => n == 0 || (4 ≤ n && n ≤ full)
  let sGood := o != .kmac || (if dFirst o d then dSLen d ≤ 64 else dSLen d == 0)
  lenGood && sGood && (!dCommit d || digestOut o d full ≤ 64)

/-- OP_PARAM field values are in their sets (R84). -/
def paramOk (o : Op) (d : Bytes) : Bool :=
  let code := opCode o
  if code / 256 = 1 then
    ivOk o d && tagOk o d && (dFinal o d || !dPad d)
      && (!(o == .aesXtsEnc || o == .aesXtsDec) || dDu d ≤ 7)
  else if code / 256 = 2 then outLenOk o d
  else if code / 256 = 3 || code / 256 = 4 then variantOk o d
  else if code / 256 = 5 then
    match o with
    | .keyDerive => dSub d ≤ 1 && dLabelLen d ≤ 40
    | .keyWrap | .keyUnwrap => dSub d ≤ 2
    | _ => dSub d == 0
  else true

/-- The required MSG_LEN depends on VARIANT or HASH, which R191 then judges before it; R243 has a range for each
SUB. -/
def paramFirst (o : Op) : Bool :=
  match o with
  | .rsaPriv | .rsaPub | .eddsaSign | .eddsaVerify | .ecPointMulRaw | .mldsaSign | .mldsaVerify | .keyUnwrap => true
  | _ => false

/-- The protocol checks of R154 and R156, by DETAIL. -/
def protoFail (o : Op) (d : Bytes) : Option (BitVec 8) :=
  match o with
  | .tls13RecSeal =>
    if tlsInner d = 0 then some 0x85
    else if 16640 < dMsg d + 1 + tlsPad d + 16 then some 0x83 else none
  | .espSeal =>
    let a := espAlign d
    if !(a == 4 || a == 8 || a == 16 || a == 32 || a == 64) then some 0x85
    else if 65535 < dOut o d then some 0x83 else none
  | _ => none

/-- The output length of a contiguous destination that stage 3 judges (R101): for CTX_EXPORT the
form that the context and the queue select as they stand. -/
def stage3Out (s : State) (c : Nat) (clear : Bool) (o : Op) (d : Bytes) : Nat :=
  match o with
  | .ctxExport =>
    let x := s.ctx c (dCtx d)
    if clear && (x.opcode == 0x0201 || x.opcode == 0x0207) then 272 else 280
  | _ => dOut o d

/-- The failures of stage 3 in the order of R101: status and DETAIL, none where the job goes on.
`peer` marks a job from peer ingress, whose source is the packet. -/
def jobFail (s : State) (c : Nat) (clear peer : Bool) (o : Op) (d : Bytes) :
    Option (Status × BitVec 8) :=
  if o = .nop then none
  else if !algOk o (dAlg d) then some (stUnsupported, 0)
  else if paramFirst o && !paramOk o d then some (stRange, 0x02)
  else if !lenOk o d || (peer && (1048576 < dOut o d || (o.aeadDec && 262144 < dOut o d))) then some (stRange, 0x01)
  else if !paramOk o d then some (stRange, 0x02)
  else match protoFail o d with
    | some x => some (stRange, x)
    | none =>
      if !peer && !dInline d && dSrcN d = 0 && !allowed s c (dSrc d) (dL o d) false then some (stDma, 0x01)
      else if !peer && !dInline d && dDstN d = 0 && dstAllowed o d
          && !allowed s c (dDst d) (stage3Out s c clear o d) true then some (stDma, 0x02)
      else none

end Sys2Proof.Machine
end

