-- ==== Sys2Proof/Machine/Aes.lean ====
section
/-! DEFINITION. The AES block cipher of FIPS 197 for 16-, 24- and 32-byte keys (PRESUMED: the
standard's text, which R132 cites, is not in the spec; log entry 10). A block is 16 bytes, column
by column. -/

namespace Sys2Proof.Machine

/-- Multiplication by x in the field of FIPS 197. -/
def gfX (b : Byte) : Byte := if b.msb then (b <<< 1) ^^^ 0x1b else b <<< 1

/-- The product of two bytes in the field; `fuel` counts the bits of the second. -/
def gfMulF : Nat → Byte → Byte → Byte
  | 0, _, _ => 0
  | fuel + 1, a, b => (if b.getLsbD 0 then a else 0) ^^^ gfMulF fuel (gfX a) (b >>> 1)

def gfMul (a b : Byte) : Byte := gfMulF 8 a b

/-- The inverse in the field, as the power 254: 2 + 4 + … + 128. -/
def gfInv (a : Byte) : Byte :=
  let p2 := gfMul a a
  let p4 := gfMul p2 p2
  let p8 := gfMul p4 p4
  let p16 := gfMul p8 p8
  let p32 := gfMul p16 p16
  let p64 := gfMul p32 p32
  let p128 := gfMul p64 p64
  gfMul p2 (gfMul p4 (gfMul p8 (gfMul p16 (gfMul p32 (gfMul p64 p128)))))

/-- The substitution of FIPS 197: the inverse, then the affine map. -/
def aesSub (a : Byte) : Byte :=
  let v := gfInv a
  v ^^^ v.rotateLeft 1 ^^^ v.rotateLeft 2 ^^^ v.rotateLeft 3 ^^^ v.rotateLeft 4 ^^^ 0x63

/-- Its inverse. -/
def aesSubInv (a : Byte) : Byte :=
  gfInv (a.rotateLeft 1 ^^^ a.rotateLeft 3 ^^^ a.rotateLeft 6 ^^^ 0x05)

/-- The substitutions tabulated once. -/
def aesSboxT : Array Byte := ((List.range 256).map fun i => aesSub (BitVec.ofNat 8 i)).toArray
def aesSboxInvT : Array Byte := ((List.range 256).map fun i => aesSubInv (BitVec.ofNat 8 i)).toArray
def sboxAt (b : Byte) : Byte := aesSboxT.getD b.toNat 0
def sboxInvAt (b : Byte) : Byte := aesSboxInvT.getD b.toNat 0

/-- The bytes of a block at the given places. -/
def pick (b : Bytes) (ix : List Nat) : Bytes := ix.map fun i => b.getD i 0

def aesShift (b : Bytes) : Bytes := pick b [0, 5, 10, 15, 4, 9, 14, 3, 8, 13, 2, 7, 12, 1, 6, 11]
def aesShiftInv (b : Bytes) : Bytes := pick b [0, 13, 10, 7, 4, 1, 14, 11, 8, 5, 2, 15, 12, 9, 6, 3]

/-- One column times the circulant of the four coefficients. -/
def aesColumn (k : List Byte) (c : Bytes) : Bytes :=
  (List.range 4).map fun r =>
    (List.range 4).foldl (fun x j => x ^^^ gfMul (c.getD j 0) (k.getD ((j + 4 - r) % 4) 0)) 0

def aesMix (b : Bytes) : Bytes := (chunksF 4 4 b).flatMap (aesColumn [2, 3, 1, 1])
def aesMixInv (b : Bytes) : Bytes := (chunksF 4 4 b).flatMap (aesColumn [14, 11, 13, 9])

/-- Words of the key schedule from number `i` on; `nk` words of the key are given. -/
def aesExpand (nk : Nat) : Nat → Nat → Byte → List Bytes → List Bytes
  | 0, _, _, w => w
  | fuel + 1, i, rcon, w =>
    let last := w.getD (i - 1) []
    let t :=
      if i % nk = 0 then
        match (last.drop 1 ++ last.take 1).map sboxAt with
        | x :: r => (x ^^^ rcon) :: r
        | [] => []
      else if 6 < nk && i % nk == 4 then last.map sboxAt
      else last
    let rcon' := if i % nk = 0 then gfX rcon else rcon
    aesExpand nk fuel (i + 1) rcon' (w ++ [xorB (w.getD (i - nk) []) t])

/-- The round keys of a key of 16, 24 or 32 bytes. -/
def aesKeys (key : Bytes) : List Bytes :=
  let nk := key.length / 4
  let w := aesExpand nk (4 * (nk + 7) - nk) nk 1 (chunks 4 key)
  (chunks 16 w.flatten)

/-- The middle rounds and the last. -/
def aesRounds : List Bytes → Bytes → Bytes
  | [], b => b
  | [k], b => xorB (aesShift (b.map sboxAt)) k
  | k :: ks, b => aesRounds ks (xorB (aesMix (aesShift (b.map sboxAt))) k)

/-- Encrypt a block under expanded keys. -/
def aesEncK (ks : List Bytes) (b : Bytes) : Bytes :=
  match ks with
  | [] => b
  | k :: rest => aesRounds rest (xorB b k)

def aesRoundsInv : List Bytes → Bytes → Bytes
  | [], b => b
  | [k], b => xorB b k
  | k :: ks, b => aesRoundsInv ks ((aesShiftInv (aesMixInv (xorB b k))).map sboxInvAt)

/-- Decrypt a block under expanded keys. -/
def aesDecK (ks : List Bytes) (b : Bytes) : Bytes :=
  match ks.reverse with
  | [] => b
  | k :: rest => aesRoundsInv rest ((aesShiftInv (xorB b k)).map sboxInvAt)

/-- Encrypt and decrypt a block under a key. -/
def aesEnc (key b : Bytes) : Bytes := aesEncK (aesKeys key) b
def aesDec (key b : Bytes) : Bytes := aesDecK (aesKeys key) b

end Sys2Proof.Machine
end

