-- ==== Sys2Proof/Machine/Modes.lean ====
section
/-! DEFINITION. The modes of the bulk cell: GCM, CCM, CBC, CTR, XTS, CMAC, key wrapping, and
ChaCha20-Poly1305 (PRESUMED: the texts of the standards R132, R166 and R242 cite are not in the
spec; log entry 10). Streaming forms take the state after whole blocks. -/

namespace Sys2Proof.Machine

/-! ## Counters -/

/-- The block plus `n` as a 128-bit big-endian integer (R139). -/
def ctrAdd (b : Bytes) (n : Nat) : Bytes := natBe 16 (beNat b + n)

/-- The block with its last four bytes plus `n` modulo 2³² (SP 800-38D). -/
def ctrAdd32 (b : Bytes) (n : Nat) : Bytes := b.take 12 ++ natBe 4 (beNat (b.drop 12) + n)

/-- Each 16-byte piece masked with the encryption of its counter block; `inc b n` is the counter
block `n` after `b`. -/
def ctrMask (ks : List Bytes) (inc : Bytes → Nat → Bytes) (b : Bytes) (data : Bytes) : Bytes :=
  ((chunks 16 data).zipIdx.map fun ci => xorB ci.1 (aesEncK ks (inc b ci.2))).flatten

/-! ## GCM (R136) -/

/-- One step of the multiplication in GF(2¹²⁸), most significant bit first. -/
def gf128F : Nat → BitVec 128 → BitVec 128 → BitVec 128 → BitVec 128
  | 0, _, _, z => z
  | fuel + 1, x, v, z =>
    gf128F fuel (x <<< 1)
      (if v.getLsbD 0 then (v >>> 1) ^^^ 0xE1000000000000000000000000000000#128 else v >>> 1)
      (if x.msb then z ^^^ v else z)

def gf128Mul (x y : BitVec 128) : BitVec 128 := gf128F 128 x y 0

def beBlock (b : Bytes) : BitVec 128 := BitVec.ofNat 128 (beNat b)

/-- GHASH of the data, its last block filled with zeros, from state `y`. -/
def ghash (h y : Bytes) (data : Bytes) : Bytes :=
  bvBe 16 ((chunks 16 data).foldl
    (fun a c => gf128Mul (a ^^^ beBlock (fit c 16)) (beBlock h)) (beBlock y))

/-- J0 (R136). -/
def gcmJ0 (key iv : Bytes) : Bytes :=
  if iv.length = 12 then iv ++ [0, 0, 0, 1]
  else
    let h := aesEnc key (zeros 16)
    ghash h (ghash h (zeros 16) iv) (zeros 8 ++ natBe 8 (8 * iv.length))

/-- The state after the additional data. -/
def gcmAad (key aad : Bytes) : Bytes := ghash (aesEnc key (zeros 16)) (zeros 16) aad

/-- Mask data whose first byte is byte `done` of the message. -/
def gcmMask (key j0 : Bytes) (done : Nat) (data : Bytes) : Bytes :=
  ctrMask (aesKeys key) ctrAdd32 (ctrAdd32 j0 (1 + done / 16)) data

/-- The state after ciphertext. -/
def gcmHash (key y ct : Bytes) : Bytes := ghash (aesEnc key (zeros 16)) y ct

/-- The full tag. -/
def gcmTag (key j0 y : Bytes) (aadLen ctLen : Nat) : Bytes :=
  let h := aesEnc key (zeros 16)
  xorB (ghash h y (natBe 8 (8 * aadLen) ++ natBe 8 (8 * ctLen))) (aesEnc key j0)

/-- One whole encryption: ciphertext, tag. -/
def gcmEnc (key iv aad pt : Bytes) : Bytes × Bytes :=
  let j0 := gcmJ0 key iv
  let ct := gcmMask key j0 0 pt
  (ct, gcmTag key j0 (gcmHash key (gcmAad key aad) ct) aad.length ct.length)

/-- One whole decryption: plaintext, tag computed. -/
def gcmDec (key iv aad ct : Bytes) : Bytes × Bytes :=
  let j0 := gcmJ0 key iv
  (gcmMask key j0 0 ct, gcmTag key j0 (gcmHash key (gcmAad key aad) ct) aad.length ct.length)

/-! ## CCM (R137) -/

/-- CBC-MAC of whole and zero-filled blocks from state `y`. -/
def cbcMac (ks : List Bytes) (y data : Bytes) : Bytes :=
  (chunks 16 data).foldl (fun a c => aesEncK ks (xorB a (fit c 16))) y

/-- The tag before masking. -/
def ccmMac (ks : List Bytes) (n aad pt : Bytes) (t : Nat) : Bytes :=
  let q := 15 - n.length
  let flags := (if aad.isEmpty then 0 else 64) + 8 * ((t - 2) / 2) + (q - 1)
  let b0 := BitVec.ofNat 8 flags :: n ++ natBe q pt.length
  let a := if aad.isEmpty then []
    else if aad.length < 65280 then natBe 2 aad.length ++ aad
    else [0xFF, 0xFE] ++ natBe 4 aad.length ++ aad
  (cbcMac ks (cbcMac ks (cbcMac ks (zeros 16) b0) a) pt).take t

/-- The counter block of CCM. -/
def ccmCtr (n : Bytes) : Bytes := BitVec.ofNat 8 (14 - n.length) :: n ++ zeros (15 - n.length)

def ccmMask (ks : List Bytes) (n data : Bytes) : Bytes :=
  ctrMask ks ctrAdd (ctrAdd (ccmCtr n) 1) data

def ccmTag (ks : List Bytes) (n aad pt : Bytes) (t : Nat) : Bytes :=
  xorB (ccmMac ks n aad pt t) (aesEncK ks (ccmCtr n))

def ccmEnc (key n aad pt : Bytes) (t : Nat) : Bytes × Bytes :=
  let ks := aesKeys key
  (ccmMask ks n pt, ccmTag ks n aad pt t)

def ccmDec (key n aad ct : Bytes) (t : Nat) : Bytes × Bytes :=
  let ks := aesKeys key
  let pt := ccmMask ks n ct
  (pt, ccmTag ks n aad pt t)

/-! ## CBC, CTR, XTS (R139 to R141) -/

/-- CBC encryption from a chaining block: the ciphertext. -/
def cbcEnc (ks : List Bytes) : Bytes → List Bytes → Bytes
  | _, [] => []
  | iv, c :: t =>
    let x := aesEncK ks (xorB iv c)
    x ++ cbcEnc ks x t

/-- CBC decryption from a chaining block: the plaintext. -/
def cbcDec (ks : List Bytes) : Bytes → List Bytes → Bytes
  | _, [] => []
  | iv, c :: t => xorB (aesDecK ks c) iv ++ cbcDec ks c t

/-- The PKCS#7 padding of R141 for a message of `n` bytes. -/
def pkcs7 (n : Nat) : Bytes := List.replicate (16 - n % 16) (BitVec.ofNat 8 (16 - n % 16))

/-- The padding length of a last block, none where it is invalid (R141). -/
def pkcs7Len (b : Bytes) : Option Nat :=
  let p := (b.getLastD 0).toNat
  if 1 ≤ p && p ≤ 16 && (b.drop (16 - p)).all (fun x => x.toNat == p) then some p else none

/-- The tweak of the next block: multiplication by α (IEEE 1619, low byte first). -/
def xtsNext (t : BitVec 128) : BitVec 128 := if t.msb then (t <<< 1) ^^^ 0x87#128 else t <<< 1

/-- The blocks of one data unit. -/
def xtsUnit (f : Bytes → Bytes) : BitVec 128 → List Bytes → Bytes
  | _, [] => []
  | t, c :: r =>
    let m := bvLe 16 t
    xorB (f (xorB c m)) m ++ xtsUnit f (xtsNext t) r

/-- XTS over data units of `du` bytes from a first tweak value (R140). -/
def xts (enc : Bool) (key tweak : Bytes) (du : Nat) (data : Bytes) : Bytes :=
  let half := key.length / 2
  let k1 := aesKeys (key.take half)
  let k2 := aesKeys (key.drop half)
  ((chunks du data).zipIdx.map fun ui =>
    let t := BitVec.ofNat 128 (leNat (aesEncK k2 (natLe 16 (leNat tweak + ui.2))))
    xtsUnit (if enc then aesEncK k1 else aesDecK k1) t (chunks 16 ui.1)).flatten

/-! ## CMAC -/

/-- The doubling of SP 800-38B. -/
def cmacDouble (b : Bytes) : Bytes :=
  let v := beBlock b
  bvBe 16 (if v.msb then (v <<< 1) ^^^ 0x87#128 else v <<< 1)

/-- The MAC from a CBC-MAC state and the bytes not yet taken, at most one block unless more follow:
all but the last block enter the state, the last one enters masked. -/
def cmacFinish (key st rest : Bytes) : Bytes :=
  let ks := aesKeys key
  let k1 := cmacDouble (aesEncK ks (zeros 16))
  let n := (rest.length - 1) / 16 * 16
  let last := rest.drop n
  let m := if last.length = 16 then xorB last k1
    else xorB (fit (last ++ [0x80]) 16) (cmacDouble k1)
  cbcMac ks (cbcMac ks st (rest.take n)) m

/-- AES-CMAC of a whole message. -/
def cmac (key msg : Bytes) : Bytes := cmacFinish key (zeros 16) msg

/-! ## Key wrapping of SP 800-38F -/

/-- The six rounds of W: `a` and the semiblocks, `t` counting from one. -/
def kwRound (ks : List Bytes) : Nat → Bytes → List Bytes → Bytes × List Bytes
  | _, a, [] => (a, [])
  | t, a, r :: rs =>
    let b := aesEncK ks (a ++ r)
    let (a', rs') := kwRound ks (t + 1) (xorB (b.take 8) (natBe 8 t)) rs
    (a', b.drop 8 :: rs')

def kwRounds (ks : List Bytes) : Nat → Nat → Bytes × List Bytes → Bytes × List Bytes
  | 0, _, p => p
  | j + 1, t, (a, rs) => kwRounds ks j (t + rs.length) (kwRound ks t a rs)

/-- W over an integrity block and semiblocks. -/
def kwW (key a : Bytes) (data : Bytes) : Bytes :=
  let (a', rs) := kwRounds (aesKeys key) 6 1 (a, chunks 8 data)
  a' ++ rs.flatten

/-- One inverse round, from the last semiblock to the first; lists run last first. -/
def kwRoundInv (ks : List Bytes) : Nat → Bytes → List Bytes → Bytes × List Bytes
  | _, a, [] => (a, [])
  | t, a, r :: rs =>
    let b := aesDecK ks (xorB a (natBe 8 t) ++ r)
    let (a', rs') := kwRoundInv ks (t - 1) (b.take 8) rs
    (a', b.drop 8 :: rs')

def kwRoundsInv (ks : List Bytes) : Nat → Nat → Bytes × List Bytes → Bytes × List Bytes
  | 0, _, p => p
  | j + 1, t, (a, rs) => kwRoundsInv ks j (t - rs.length) (kwRoundInv ks t a rs)

/-- W⁻¹: the integrity block and the data. -/
def kwWInv (key c : Bytes) : Bytes × Bytes :=
  let rs := chunks 8 (c.drop 8)
  let (a, out) := kwRoundsInv (aesKeys key) 6 (6 * rs.length) (c.take 8, rs.reverse)
  (a, out.reverse.flatten)

/-- AES-KW of data that is a multiple of 8 bytes, at least 16. -/
def kwWrap (key data : Bytes) : Bytes := kwW key (List.replicate 8 0xA6) data

def kwUnwrap (key c : Bytes) : Option Bytes :=
  let (a, p) := kwWInv key c
  if 24 ≤ c.length && c.length % 8 == 0 && a == List.replicate 8 0xA6 then some p else none

/-- AES-KWP of data of any length from one byte. -/
def kwpWrap (key data : Bytes) : Bytes :=
  let a := [0xA6, 0x59, 0x59, 0xA6] ++ natBe 4 data.length
  let p := fit data (ceilDiv data.length 8 * 8)
  if p.length = 8 then aesEnc key (a ++ p) else kwW key a p

def kwpUnwrap (key c : Bytes) : Option Bytes :=
  let (a, p) :=
    if c.length = 16 then
      let b := aesDec key c
      (b.take 8, b.drop 8)
    else kwWInv key c
  let n := beNat (a.drop 4)
  if 16 ≤ c.length && c.length % 8 == 0 && a.take 4 == [0xA6, 0x59, 0x59, 0xA6]
      && p.length - 8 < n && n ≤ p.length && allZero (p.drop n) then some (p.take n)
  else none

/-! ## ChaCha20-Poly1305 (R138) -/

def chachaQuarter (s : Array (BitVec 32)) (i j k l : Nat) : Array (BitVec 32) :=
  let a := s.getD i 0
  let b := s.getD j 0
  let c := s.getD k 0
  let d := s.getD l 0
  let a := a + b
  let d := (d ^^^ a).rotateLeft 16
  let c := c + d
  let b := (b ^^^ c).rotateLeft 12
  let a := a + b
  let d := (d ^^^ a).rotateLeft 8
  let c := c + d
  let b := (b ^^^ c).rotateLeft 7
  (((s.setIfInBounds i a).setIfInBounds j b).setIfInBounds k c).setIfInBounds l d

def chachaDouble (s : Array (BitVec 32)) : Array (BitVec 32) :=
  let s := chachaQuarter s 0 4 8 12
  let s := chachaQuarter s 1 5 9 13
  let s := chachaQuarter s 2 6 10 14
  let s := chachaQuarter s 3 7 11 15
  let s := chachaQuarter s 0 5 10 15
  let s := chachaQuarter s 1 6 11 12
  let s := chachaQuarter s 2 7 8 13
  chachaQuarter s 3 4 9 14

def chachaRounds : Nat → Array (BitVec 32) → Array (BitVec 32)
  | 0, s => s
  | n + 1, s => chachaRounds n (chachaDouble s)

/-- A key stream block. -/
def chachaBlock (key : Bytes) (ctr : Nat) (nonce : Bytes) : Bytes :=
  let init := ((chunks 4 (ascii "expand 32-byte k" ++ key ++ natLe 4 ctr ++ nonce)).map
    fun c => BitVec.ofNat 32 (leNat c))
  (List.zipWith (· + ·) init (chachaRounds 10 init.toArray).toList).flatMap (bvLe 4)

/-- Data masked from block counter `ctr` on. -/
def chachaMask (key nonce : Bytes) (ctr : Nat) (data : Bytes) : Bytes :=
  ((chunks 64 data).zipIdx.map fun ci => xorB ci.1 (chachaBlock key (ctr + ci.2) nonce)).flatten

/-- The Poly1305 accumulator after whole or zero-filled blocks of 16 bytes; the state is 17 bytes,
low byte first. -/
def polyBlocks (otk st data : Bytes) : Bytes :=
  let r := leNat (otk.take 16) &&& 0x0FFFFFFC0FFFFFFC0FFFFFFC0FFFFFFF
  natLe 17 ((chunks 16 data).foldl
    (fun a c => (a + leNat (fit c 16) + 2 ^ 128) * r % (2 ^ 130 - 5)) (leNat st))

def polyOtk (key nonce : Bytes) : Bytes := (chachaBlock key 0 nonce).take 32

/-- The tag after additional data and ciphertext. -/
def polyTag (otk st : Bytes) (aadLen ctLen : Nat) : Bytes :=
  natLe 16 (leNat (polyBlocks otk st (natLe 8 aadLen ++ natLe 8 ctLen)) + leNat (otk.drop 16))

def chachaTag (key nonce aad ct : Bytes) : Bytes :=
  let otk := polyOtk key nonce
  polyTag otk (polyBlocks otk (polyBlocks otk (zeros 17) aad) ct) aad.length ct.length

def chachaEnc (key nonce aad pt : Bytes) : Bytes × Bytes :=
  let ct := chachaMask key nonce 1 pt
  (ct, chachaTag key nonce aad ct)

def chachaDec (key nonce aad ct : Bytes) : Bytes × Bytes :=
  (chachaMask key nonce 1 ct, chachaTag key nonce aad ct)

/-! ## CTR_DRBG of SP 800-90A with AES-256 and the derivation function (R158) -/

/-- Block_Cipher_df to 48 bytes. -/
def drbgDf (input : Bytes) : Bytes :=
  let s := natBe 4 input.length ++ natBe 4 48 ++ input ++ [0x80]
  let s := fit s (ceilDiv s.length 16 * 16)
  let k0 := aesKeys ((List.range 32).map (BitVec.ofNat 8))
  let t := (List.range 3).flatMap fun i => cbcMac k0 (zeros 16) (natBe 4 i ++ zeros 12 ++ s)
  let ks := aesKeys (t.take 32)
  let x1 := aesEncK ks (slice t 32 16)
  let x2 := aesEncK ks x1
  x1 ++ x2 ++ aesEncK ks x2

/-- CTR_DRBG_Update: the new key and V. -/
def drbgUpdate (key v data : Bytes) : Bytes × Bytes :=
  let ks := aesKeys key
  let t := xorB ((List.range 3).flatMap fun i => aesEncK ks (ctrAdd v (i + 1))) data
  (t.take 32, t.drop 32)

/-- `n` bytes of output, and the key and V after it. -/
def drbgOut (key v : Bytes) (n : Nat) : Bytes × Bytes × Bytes :=
  let ks := aesKeys key
  let m := ceilDiv n 16
  let out := ((List.range m).flatMap fun i => aesEncK ks (ctrAdd v (i + 1))).take n
  (out, drbgUpdate key (ctrAdd v m) (zeros 48))

end Sys2Proof.Machine
end

