-- ==== Sys2Proof/Machine/KeyOps.lean ====
section
/-! DEFINITION. The key store's operations on tags: the brood and its derivations, the checks of a
pull, reservation and commit, invalidation, and the nonce blocks of the combs (R143 to R149, R214 to
R245). -/

namespace Sys2Proof.Machine

/-! ## The life-cycle word (R393) -/

/-- The contiguous set bits from bit 0. -/
def lowOnes (w : BitVec 32) : Nat → Nat → Nat
  | 0, n => n
  | fuel + 1, n => if w.getLsbD n then lowOnes w fuel (n + 1) else n

/-- The state CODE of R389 that a voted word decodes to; an invalid word is SCRAP. -/
def lcOf (w : BitVec 32) : Nat :=
  let n := lowOnes w 16 0
  let valid := w.toNat % 65536 == 2 ^ n - 1 && w.toNat / 2 ^ 20 == 0
    && (!(w.getLsbD 17 || w.getLsbD 18) || w.getLsbD 16) && (!w.getLsbD 16 || n % 2 == 1)
  if !valid || w.getLsbD 19 then 0x0600
  else if w.getLsbD 18 then 0x0500
  else if w.getLsbD 17 then 0x0400
  else if w.getLsbD 16 then 0x0300
  else if n = 0 then 0
  else if n % 2 = 1 then 0x0100 + (n - 1) / 2
  else 0x0200 + (n - 2) / 2

def State.lcCode (s : State) : Nat := lcOf s.lc.word

/-! ## Runs (R220) -/

/-- The place of a pool position in its owner's allocation, none where it lies in no granule of it. -/
def allocIndex (s : State) (owner pos : Nat) : Option Nat :=
  let l := (s.tenant owner).granules
  if pos < 12480 then none
  else
    let g := (pos - 12480) / 64
    if l.contains g then some (l.idxOf g * 64 + (pos - 12480) % 64) else none

/-- The pool position of a place in an allocation. -/
def allocPos (s : State) (owner i : Nat) : Option Nat :=
  ((s.tenant owner).granules[i / 64]?).map fun g => 12480 + 64 * g + i % 64

/-- The positions of the run that a slot starts. -/
def runFrom (s : State) (pos : Nat) : List Nat :=
  let k := s.slot pos
  match allocIndex s k.owner pos with
  | none => [pos]
  | some i => (List.range (max 1 k.run)).filterMap fun j => allocPos s k.owner (i + j)

/-! ## Derivation -/

/-- The counter-mode KDF of R230; `n` is the output length in bytes. -/
def kdf (kin label ctx : Bytes) (n : Nat) : Bytes :=
  ((List.range (ceilDiv n 16)).flatMap fun i =>
    cmac kin (natBe 4 (i + 1) ++ label ++ [0] ++ ctx ++ natBe 4 (8 * n))).take n

/-- The one-step KDF of R232, SUB 0x01. -/
def kdfHash (z label ctx : Bytes) (n : Nat) : Bytes :=
  ((List.range (ceilDiv n 32)).flatMap fun i =>
    sha256 (natBe 4 (i + 1) ++ z ++ label ++ [0] ++ ctx ++ natBe 4 (8 * n))).take n

def trPos (c : Nat) : Nat := 3 * c
def spPos (c : Nat) : Nat := 3 * c + 1
def ckPos (c : Nat) : Nat := 3 * c + 2

/-- GEN of a slot: its own count and the steps that advanced every slot at once. -/
def State.gen (s : State) (pos : Nat) : BitVec 16 := (s.slot pos).gen + s.ks.genBase

/-- GEN of a slot advances by one (R235, R236). -/
def bumpGen (s : State) (pos : Nat) : State :=
  s.modSlot pos fun k => { k with gen := k.gen + 1, adv := k.adv + 1 }

/-- A slot or node whose GEN may not advance further in this pass (R237). -/
def State.held237 (s : State) (pos : Nat) : Bool := 16384 ≤ (s.slot pos).adv + s.ks.genAdv

/-- The tag and material of a node; references that jobs hold on it stand (R227). -/
def nodeSlot (k : KSlot) (c : Nat) (root : Bool) (pol : Nat) (parent : Nat) (pgen : BitVec 16)
    (mat : Bytes) : KSlot :=
  { gen := k.gen, adv := k.adv, refs := k.refs, state := .valid, owner := c, root := root, run := 1, ktype := 0x0180,
    policy := BitVec.ofNat 64 pol, parent := parent, pgen := pgen, mat := mat }

/-- SP(c) and CK(c) are derived from TR(c) (R231). -/
def deriveSession (s : State) (c : Nat) : State :=
  let tr := s.slot (trPos c)
  let g := bvBe 2 (s.gen (spPos c))
  let rt := s.ks.testRoot
  let pg := s.gen (trPos c)
  let s := s.modSlot (spPos c) fun k =>
    nodeSlot k c rt 0x300 (trPos c) pg (kdf tr.mat (ascii "QHV1 SESSION") g 32)
  s.modSlot (ckPos c) fun k =>
    nodeSlot k c rt 0 (trPos c) pg (kdf tr.mat (ascii "QHV1 CTXKEY") g 32)

/-- A zeroisation runs, or a transition to RMA or SCRAP has not yet come to its warm reset: the key store takes no pull
and no reservation, and what waits for one waits (R464). -/
def laneShut (s : State) : Bool := s.ks.zeroising.isSome || s.lc.busy == some 0x0500 || s.lc.busy == some 0x0600

/-- TR(c), SP(c) and CK(c) are derived (R231); without HRK nothing is. -/
def deriveNodes (s : State) (c : Nat) : State :=
  match s.ks.hrk with
  | none => s
  | some hrk =>
    let m := kdf hrk (ascii "QHV1 TROOT") (natBe 2 c ++ bvBe 4 (s.tenant c).epoch) 32
    let rt := s.ks.testRoot
    deriveSession (s.modSlot (trPos c) fun k => nodeSlot k c rt 0 (trPos c) 0 m) c

/-- HRK, PSK and the DeviceID seed are derived from a root secret (R231). -/
def deriveRoot (s : State) (secret : Bytes) (test : Bool) : State :=
  let hrk := kdf secret (ascii "QHV1 HRK") [if test then 2 else 1] 32
  { s with ks := { s.ks with
      testRoot := test, hrk := some hrk, psk := some (kdf hrk (ascii "QHV1 PERSIST") [] 32),
      devSeed := some (kdf hrk (ascii "QHV1 DEVICEID") [] 32) } }

/-! ## The checks of a pull (R226) -/

/-- Every link up to the tenant root has PGEN equal to the parent's GEN; `fuel` bounds the links. -/
def linksOk (s : State) : Nat → Nat → Bool
  | 0, _ => false
  | fuel + 1, pos =>
    if pos < 12480 && pos % 3 == 0 then true
    else (s.slot pos).pgen == s.gen (s.slot pos).parent && linksOk s fuel (s.slot pos).parent

/-- The links from a slot to its tenant root, at most `fuel`. -/
def linkCount (s : State) : Nat → Nat → Nat
  | 0, _ => 0
  | fuel + 1, pos =>
    if pos < 12480 && pos % 3 == 0 then 0 else linkCount s fuel (s.slot pos).parent + 1

/-- Check 3. -/
def chainOk (s : State) (pos : Nat) : Bool :=
  let k := s.slot pos
  linksOk s 9 pos && (pos < 12480 || k.prov || k.sgen == s.gen (spPos k.owner))

/-- Check 2, and the substitution of R216. -/
def rootOk (s : State) (k : KSlot) : Bool :=
  !s.ks.rootFail && s.lcCode != 0x0600 && k.root == s.ks.testRoot
    && !(s.lc.subst.isSome && !k.root)

abbrev Fail := Option (Status × BitVec 8)

/-- Checks 1 to 3 on the slot at a client's index. Without a root every pull fails alike (R217). -/
def slotIssue (s : State) (c i : Nat) : Fail :=
  if s.ks.rootFail then some (stOrphaned, 0x03)
  else match s.slotPos c i with
  | none => some (stOrphaned, 0x04)
  | some pos =>
    let k := s.slot pos
    if k.bad = 2 then some (stPoison, 0)
    else match k.state with
      | .empty | .reserved => some (stOrphaned, 0x04)
      | .invalid | .orphan => some (stOrphaned, 0x01)
      | .cont => some (stPolicy, 0x06)
      | .valid =>
        if !rootOk s k then some (stOrphaned, 0x03)
        else if !chainOk s pos then some (stOrphaned, 0x02)
        else none

/-- The use of index 0 or 1 as KEY_SLOT is allowed (R219). -/
def indexOk (o : Op) (i : Nat) : Bool :=
  if i = 0 then
    o == .keyGenerate || o == .mlkemKeygen || o == .mldsaKeygen || o == .keyDerive
      || o == .keyInvalidate || o == .keyAttest
  else if i = 1 then o == .keyAttest
  else true

/-- KEY_TYPE fits the opcode and ALG (R222, R232). -/
def typeFits (o : Op) (d : Bytes) (kt : Nat) : Bool :=
  let a := dAlg d
  let aes := kt == a && 1 ≤ a && a ≤ 3
  match o with
  | .aesGcmEnc | .aesGcmDec | .aesCcmEnc | .aesCcmDec | .aesCbcEnc | .aesCbcDec | .aesCtr | .aesGmac
  | .cmacGen | .cmacVerify => aes
  | .aesXtsEnc | .aesXtsDec => (a == 1 && kt == 4) || (a == 3 && kt == 5)
  | .chachaPolyEnc | .chachaPolyDec => kt == 6
  | .tls13RecSeal | .tls13RecOpen | .espSeal | .espOpen => (a != 4 && aes) || (a == 4 && kt == 6)
  | .hmacGen | .hmacVerify | .kmac => 0x0110 ≤ kt && kt ≤ 0x0140
  | .rsaPriv => kt == 0x0200 + a
  | .ecdsaSign | .ecdh | .eddsaSign | .xdh | .mlkemDecap | .mldsaSign | .keyAgreeToSlot =>
    kt == 0x0300 + a
  | .keyDerive =>
    if dSub d = 0 then
      kt == 1 || kt == 2 || kt == 3 || kt == 0x180 || kt == 0x110 || kt == 0x118 || kt == 0x120
    else ktSecret kt
  | .keyGenerate | .mlkemKeygen | .mldsaKeygen => kt == 0x0180
  | .keyWrap | .keyUnwrap => kt == 1 || kt == 2 || kt == 3
  | _ => true

/-- The policy bits of which one is required (R225); empty where none is. -/
def policyNeed (o : Op) (d : Bytes) : List Nat :=
  match o with
  | .aesGcmEnc | .aesCcmEnc | .chachaPolyEnc | .aesCbcEnc | .aesXtsEnc | .tls13RecSeal | .espSeal => [0]
  | .aesGcmDec | .aesCcmDec | .chachaPolyDec | .aesCbcDec | .aesXtsDec | .tls13RecOpen | .espOpen => [1]
  | .aesGmac => if !dStream o d && dVerify d then [1] else [0]
  | .aesCtr => [0, 1]
  | .hmacGen | .cmacGen | .kmac => [2]
  | .hmacVerify | .cmacVerify => [3]
  | .rsaPriv => if dVariant d = 0 then [15] else if dVariant d = 3 then [5] else [4]
  | .ecdsaSign | .eddsaSign | .mldsaSign => [4]
  | .mlkemDecap => [5]
  | .ecdh | .xdh => [7]
  | .keyAgreeToSlot => [6]
  | .keyDerive => [8]
  | .keyGenerate | .mlkemKeygen | .mldsaKeygen => [9]
  | .keyWrap => [10]
  | .keyUnwrap => [11]
  | _ => []

/-- A policy bit of a slot. -/
def KSlot.pol (k : KSlot) (i : Nat) : Bool := k.policy.getLsbD i
/-- LIMIT of a NONCE_HW slot (R223). -/
def KSlot.limit (k : KSlot) : Nat := bits k.policy.toNat 31 22 * 2 ^ bits k.policy.toNat 21 16

/-- Checks 1 to 7 on KEY_SLOT; `gen` is the generation a stream recorded. -/
def pullIssue (s : State) (c : Nat) (o : Op) (d : Bytes) (gen : Option (BitVec 16)) : Fail :=
  match slotIssue s c (dKeySlot d), s.slotPos c (dKeySlot d) with
  | none, some pos =>
    let k := s.slot pos
    if gen.isSome && gen != some (s.gen pos) then some (stOrphaned, 0x05)
    else if !indexOk o (dKeySlot d) then some (stPolicy, 0x03)
    else if !typeFits o d k.ktype then some (stPolicy, 0x02)
    else if policyNeed o d != [] && !(policyNeed o d).any k.pol then some (stPolicy, 0x01)
    else none
  | x, _ => x

/-- The opcode builds a nonce on this descriptor with a NONCE_HW key (R143). -/
def buildsNonce (o : Op) (d : Bytes) : Bool :=
  match o with
  | .aesGcmEnc | .chachaPolyEnc => dFirst o d
  | .aesCcmEnc | .espSeal => true
  | .aesGmac => dFirst o d && !(dVerify d)
  | _ => false

/-- The material length of KEY_CHECK_VALUE's key has a check value (R241). -/
def checkValueLen (kt : Nat) : Option Nat :=
  if kt == 1 || kt == 2 || kt == 3 || kt == 6 || kt == 0x110 || kt == 0x118 || kt == 0x120 then some 16
  else if kt == 4 || kt == 5 then some 32
  else none

/-- The output length of KEY_WRAP (R242), none where SUB 0x01 cannot take the material. -/
def wrapLen (sub n : Nat) : Option Nat :=
  if sub = 0 then some (8 * ceilDiv (16 + n) 8 + 8)
  else if sub = 1 then (if n % 8 == 0 && 16 ≤ n then some (n + 8) else none)
  else some (8 * ceilDiv n 8 + 8)

/-- Check 8 of R226: the opcode's own key rules on its KEY_SLOT, but for the counter (R133, R140,
R143, R148, R241). `hwStream` marks a stream whose nonce was built. -/
def ruleIssue (o : Op) (d : Bytes) (k : KSlot) (hwStream : Bool) : Fail :=
  let hw := k.pol 13
  let n := k.mat.length / 2
  if opCode o / 256 = 1 then
    if (o == .aesXtsEnc || o == .aesXtsDec) && k.mat.take n == k.mat.drop n then some (stPolicy, 0x83)
    else if hw && (o == .tls13RecSeal || o == .aesCbcEnc || o == .aesCtr || o == .aesXtsEnc) then
      some (stPolicy, 0x82)
    else if hw && buildsNonce o d && dIvLen d != 0 then some (stPolicy, 0x80)
    else if o == .aesGmac && dStream o d && dFinal o d && dVerify d && hwStream then some (stPolicy, 0x80)
    else if dFirst o d && dIvLen d == 0 && !(hw && (buildsNonce o d || o == .espOpen)) then
      some (stRange, 0x02)
    else none
  else if o == .keyCheckValue && (checkValueLen k.ktype).isNone then some (stPolicy, 0x09)
  else none

/-- The checks on KEY_WRAP's TARGET_SLOT (R226, R242). -/
def wrapIssue (s : State) (c : Nat) (d : Bytes) : Fail :=
  match slotIssue s c (kbTarget d), s.slotPos c (kbTarget d) with
  | none, some pos =>
    let k := s.slot pos
    if kbTarget d < 2 then some (stPolicy, 0x03)
    else if !k.pol 12 then some (stPolicy, 0x0A)
    else if (wrapLen (dSub d) k.mat.length).isNone then some (stPolicy, 0x09)
    else none
  | x, _ => x

/-! ## References -/

/-- A reference is held on a slot (R226). -/
def takeRef (s : State) (pos : Nat) : State := s.modSlot pos fun k => { k with refs := k.refs + 1 }
def dropRef (s : State) (pos : Nat) : State := s.modSlot pos fun k => { k with refs := k.refs - 1 }

/-! ## Creation (R224, R233) -/

/-- The policy flags that some opcode accepting the type requires (R225). -/
def usable (kt : Nat) : List Nat :=
  if kt == 1 || kt == 2 || kt == 3 then [0, 1, 2, 3, 8, 10, 11]
  else if kt == 4 || kt == 5 || kt == 6 then [0, 1]
  else if ktSecret kt then (if kt ≤ 0x140 then [2, 3, 8] else [8])
  else if kt == 0x180 then [8, 9]
  else if ktRsa kt then [4, 5, 15]
  else if kt == 0x301 || kt == 0x302 || kt == 0x303 then [4, 6, 7]
  else if kt == 0x311 || kt == 0x312 || ktDsa kt then [4]
  else if kt == 0x321 || kt == 0x322 then [6, 7]
  else if ktKem kt then [5, 6]
  else []

/-- POLICY is valid for a new slot of the type (R224). -/
def policyOk (kt pol : Nat) (prov : Bool) : Bool :=
  let hw := bit pol 13
  (hw || pol / 2 ^ 16 == 0)
    && (!hw || ((kt == 1 || kt == 2 || kt == 3 || kt == 6) && !bit pol 12
          && bits pol 31 22 != 0 && bits pol 21 16 ≤ 54))
    && (!bit pol 14 || prov)
    && (List.range 16).all fun i => !bit pol i || i == 12 || i == 13 || i == 14 || (usable kt).contains i

/-- Order 2 of R233: the operation can make the type. -/
def makeIssue (o : Op) (d : Bytes) : Fail :=
  let kt := kbType d
  match o with
  | .keyDerive =>
    if ktSym kt || kt == 0x311 || kt == 0x312 || kt == 0x321 || kt == 0x322 || ktKem kt || ktDsa kt then none
    else some (stPolicy, 0x09)
  | .keyGenerate => if ktSym kt || ktCurve kt then none else some (stPolicy, 0x09)
  | .mlkemKeygen | .mldsaKeygen => if kt == 0x300 + dAlg d then none else some (stPolicy, 0x02)
  | .keyAgreeToSlot =>
    if !(ktSym kt && (keyLen kt) == some (secretLen (dAlg d))) then some (stPolicy, 0x84)
    else if kbTarget d = dKeySlot d then some (stPolicy, 0x85)
    else none
  | _ => none

/-- The pool positions of `n` indices from `i` on, none where one lies outside the count. -/
def runSlots (s : State) (c i n : Nat) : Option (List Nat) :=
  (List.range n).foldr (fun j acc =>
    match acc, s.slotPos c (i + j) with
    | some l, some p => some (p :: l)
    | _, _ => none) (some [])

/-- The checks of R233 in order; `parent` is the pool position of the parent. -/
def reserveIssue (s : State) (c t kt pol parent : Nat) (prov : Bool) (make : Fail) : Fail :=
  if (keyLen kt).isNone then some (stPolicy, 0x02)
  else if make.isSome then make
  else if t < 2 then some (stPolicy, 0x08)
  else if s.fencedKey c (t + runOf kt - 1) then some (stPolicy, 0x07)
  else match runSlots s c t (runOf kt) with
    | none => some (stPolicy, 0x07)
    | some l =>
      if l.any fun p => (s.slot p).state != .empty || s.held237 p then some (stPolicy, 0x08)
      else if 8 < linkCount s 9 parent + 1 then some (stPolicy, 0x05)
      else if !policyOk kt pol prov then some (stPolicy, 0x04)
      else none

/-- ORIGIN and EXPOSED of a new slot (R234). -/
def originOf (o : Op) (pol : Nat) (parent : KSlot) : Nat × Bool :=
  match o with
  | .keyAgreeToSlot => (1, true)
  | .keyUnwrap => (2, true)
  | .keyDerive => (parent.origin, parent.exposed || parent.pol 12)
  | _ => (0, bit pol 12)

/-- The run is reserved and its first tag records what R233 says. -/
def reserveRun (s : State) (c : Nat) (l : List Nat) (kt pol parent : Nat) (prov : Bool)
    (origin : Nat) (exposed : Bool) : State :=
  let pg := s.gen parent
  let sg := s.gen (spPos c)
  let rt := s.ks.testRoot
  s.each l fun s p => s.modSlot p fun k =>
    if some p = l.head? then
      { gen := k.gen, adv := k.adv, state := .reserved, owner := c, root := rt, prov := prov,
        origin := origin, exposed := exposed, run := l.length, ktype := kt,
        policy := BitVec.ofNat 64 pol, parent := parent, pgen := pg, sgen := sg }
    else { gen := k.gen, adv := k.adv, state := .reserved, owner := c }

/-- Slots return to EMPTY with the GEN they had (R233). -/
def freeRun (s : State) (l : List Nat) : State :=
  s.each l fun s p => s.modSlot p fun k => { gen := k.gen, adv := k.adv }

/-- Slots are overwritten with zeros, their GEN advances and they become EMPTY (R236). -/
def clearRun (s : State) (l : List Nat) : State :=
  s.each l fun s p => s.modSlot p fun k => { gen := k.gen + 1, adv := k.adv + 1 }

/-- The parent at pool position `p` still passes checks 1 to 3 (R233). -/
def parentOk (s : State) (p : Nat) : Bool :=
  let k := s.slot p
  k.state == .valid && k.bad != 2 && rootOk s k && chainOk s p

/-- The commit of a reserved run: VALID with the material, or EMPTY again and KEY_ORPHANED 0x02. -/
def commitRun (s : State) (l : List Nat) (mat : Bytes) : Bool × State :=
  match l.head? with
  | none => (false, s)
  | some h =>
    if s.ks.zeroising.isNone && (s.slot h).state == .reserved && parentOk s (s.slot h).parent then
      (true, s.each l fun s p => s.modSlot p fun k =>
        if p = h then { k with state := .valid, mat := mat } else { k with state := .cont })
    else (false, freeRun s l)

/-- The positions of the run that the slot at index `i` of client `c` governs. -/
def runAt (s : State) (c i : Nat) : List Nat :=
  match s.slotPos c i with
  | none => []
  | some p => (runSlots s c i (max 1 (s.slot p).run)).getD [p]

/-! ## Invalidation (R235) -/

/-- The checks of KEY_INVALIDATE on the tag. -/
def invalidateIssue (s : State) (c i : Nat) : Fail :=
  if i = 1 then some (stPolicy, 0x03)
  else match s.slotPos c i with
    | none => some (stOrphaned, 0x04)
    | some p =>
      let k := s.slot p
      if k.bad = 2 then none
      else match k.state with
        | .cont => some (stPolicy, 0x06)
        | .empty | .reserved => some (stOrphaned, 0x04)
        | _ => none

/-- The session parent of a client moves: SP and CK are derived afresh (R235). -/
def moveSession (s : State) (c : Nat) : State :=
  let s := bumpGen s (spPos c)
  if s.ks.hrk.isSome then deriveSession s c else s

/-- KEY_INVALIDATE applied to an index that passed its checks. A tag with an uncorrectable error is
rewritten as an INVALID run of one slot. -/
def invalidate (s : State) (c i : Nat) : State :=
  if i = 0 then moveSession s c
  else match s.slotPos c i with
    | none => s
    | some p =>
      bumpGen (s.modSlot p fun k =>
        { k with state := .invalid, run := if k.bad = 2 then 1 else k.run, bad := 0 }) p

/-- The advance waits under R237. -/
def invalidateWaits (s : State) (c i : Nat) : Bool :=
  match s.slotPos c i with
  | some p => s.held237 p
  | none => false

/-! ## Nonce blocks (R144 to R146) -/

/-- The values of a block that are not handed out are abandoned and counted (R145). -/
def abandonNonces (s : State) (comb n : Nat) : State :=
  s.modComb comb fun b => { b with abandoned := b.abandoned + BitVec.ofNat 64 n }

/-- The blocks of a comb that meet `p` are retired. -/
def retire (s : State) (comb : Nat) (p : NonceBlock → Bool) : State :=
  let lost := ((s.comb comb).nonces.filter p).foldl (fun a b => a + (b.stop - b.next)) 0
  abandonNonces (s.modComb comb fun b => { b with nonces := b.nonces.filter fun e => !p e }) comb lost

/-- Every comb retires its block of a slot (R145). -/
def retireSlot (s : State) (pos : Nat) : State :=
  s.each (tblKeys s.combs) fun s c => retire s c fun b => b.pos == pos

/-- Every comb retires every block (R145). -/
def retireAll (s : State) : State :=
  s.each (tblKeys s.combs) fun s c => retire s c fun _ => true

/-- S of R238. -/
def resStep (s : State) : Nat := 2 ^ s.ks.stepLog2

/-- A reservation write is due when NEXT has passed RES − 2^(S−1) (R238). -/
def resDue (s : State) (k : KSlot) : Bool := k.pol 14 && k.res < k.next + resStep s / 2

/-- What a job that needs a nonce gets. -/
inductive NonceGot where
  | value (v : Nat) | exhausted | waits
deriving DecidableEq, Repr

/-- The comb's entry for a slot is used last. An entry whose block is spent leaves the table at once (DESIGN CHOICE,
log 62). -/
def putBlock (s : State) (comb : Nat) (e : NonceBlock) : State :=
  s.modComb comb fun b =>
    let rest := b.nonces.filter fun x => x.pos != e.pos
    { b with nonces := if e.next < e.stop then rest ++ [e] else rest }

/-- A value of the slot's counter for a job on a comb (R144, R146, R238). -/
def takeNonce (s : State) (comb pos : Nat) : NonceGot × State :=
  let g := s.gen pos
  let s := retire s comb fun b => b.pos == pos && b.gen != g
  match (s.comb comb).nonces.find? fun b => b.pos == pos with
  | some e => (.value e.next, putBlock s comb { e with next := e.next + 1 })
  | none =>
    let k := s.slot pos
    if k.limit ≤ k.next then (.exhausted, s)
    else
      let stop := min (k.next + 64) k.limit
      if k.pol 14 && k.res < stop then (.waits, s.modSlot pos fun k => { k with resBusy := true })
      else
        let s := match (s.comb comb).nonces with
          | old :: rest => if 16 ≤ rest.length + 1 then retire s comb fun b => b.pos == old.pos else s
          | [] => s
        let s := s.modSlot pos fun x =>
          { x with next := stop, resBusy := x.resBusy || resDue s { x with next := stop } }
        (.value k.next, putBlock s comb { pos := pos, gen := g, next := k.next + 1, stop := stop })

/-- The 12-byte nonce of R143. -/
def hwNonce (k : KSlot) (v : Nat) : Bytes := natBe 4 (bits k.policy.toNat 63 32) ++ natBe 8 v

/-! ## The combs' random bit generators (R158 to R160) -/

/-- HV_BUILD of the grade (R452). -/
def hvBuild : W32 := BitVec.ofNat 32 (0x00010010 + Config.grade.val * 0x110)

/-- A DRBG is instantiated with 48 bytes of entropy input and its personalisation string; without a
seed it is not live. -/
def drbgInit (s : State) (comb : Nat) : State :=
  if s.ks.entropyFail then s.modComb comb fun b => { b with drbg := {} }
  else
    let (e, s) := s.trng
    let (k, v) := drbgUpdate (zeros 32) (zeros 16) (drbgDf (e ++ Config.drbgPersonalisation comb hvBuild))
    s.modComb comb fun b =>
      { b with drbg := { key := BitVec.ofNat 256 (beNat k), v := BitVec.ofNat 128 (beNat v),
                         live := true, seedAt := s.hv.tick } }

/-- A reseed with 48 bytes of fresh entropy input. -/
def drbgReseed (s : State) (comb : Nat) : State :=
  let (e, s) := s.trng
  s.modComb comb fun b =>
    let (k, v) := drbgUpdate (bvBe 32 b.drbg.key) (bvBe 16 b.drbg.v) (drbgDf e)
    { b with drbg := { key := BitVec.ofNat 256 (beNat k), v := BitVec.ofNat 128 (beNat v),
                       live := true, seedAt := s.hv.tick } }

/-- The DRBG before a request: reseeded where PR asks for it or the schedule of R160 does; none where
it cannot serve the request. -/
def drbgReady (s : State) (comb : Nat) (pr : Bool) : Option State :=
  let g := (s.comb comb).drbg
  let due := pr || 65536 ≤ g.count || g.seedAt + 120000000 ≤ s.hv.tick
  if s.ks.entropyFail then
    if pr || !g.live || 2 ^ 20 ≤ g.count then none else some s
  else if !g.live then some (drbgInit s comb)
  else if due then some (drbgReseed s comb) else some s

/-- One generate request of `n` bytes. -/
def drbgGenerate (s : State) (comb n : Nat) : Bytes × State :=
  let g := (s.comb comb).drbg
  let (out, k, v) := drbgOut (bvBe 32 g.key) (bvBe 16 g.v) n
  (out, s.modComb comb fun b =>
    { b with drbg := { b.drbg with key := BitVec.ofNat 256 (beNat k), v := BitVec.ofNat 128 (beNat v),
                                   count := b.drbg.count + 1 } })

/-- One generate request for each value, in order (R158). -/
def drbgGenerates (s : State) (comb : Nat) : List Nat → Bytes × State
  | [] => ([], s)
  | n :: rest =>
    let r := drbgGenerate s comb n
    let q := drbgGenerates r.2 comb rest
    (r.1 ++ q.1, q.2)

/-- Random bytes of a job that also draws blinding values (R203): the spec states neither the number nor the order
of its requests, so the bytes and the DRBG after them are free values. Toward the 65,536 and 2²⁰ requests of R160 all of
it counts as one (DESIGN CHOICE, log 11). -/
def drawFree (s : State) (comb n : Nat) : Bytes × State :=
  ((List.range n).map (Config.drawn s.freeN),
    { s.modComb comb fun b =>
        { b with drbg := { b.drbg with key := (Config.drbgAfterBlinding s.freeN).1,
                                       v := (Config.drbgAfterBlinding s.freeN).2,
                                       count := b.drbg.count + 1 } } with freeN := s.freeN + 1 })

end Sys2Proof.Machine
end

