-- ==== Sys2Proof/Machine/Flags.lean ====
section
/-! DEFINITION. The result record and its flags (R96 to R98), and the leaf of a job (R261). -/

namespace Sys2Proof.Machine

/-- The job came from peer ingress. -/
def Job.fromPeer (j : Job) : Bool := match j.src with | .peer .. => true | _ => false

/-- The status is OK or OK_TRUNCATED. -/
def Job.good (j : Job) : Bool := j.status.toNat ≤ 1

/-- The digest enters the leaf (R178, R179). -/
def Job.commits (j : Job) : Bool := j.isLeaf && j.good && dCommit j.desc && !j.digest.isEmpty

def flagBit (b : Bool) (i : Nat) : Nat := if b then 2 ^ i else 0

/-- RFLAGS (R97). -/
def Job.rflags (j : Job) : Nat :=
  flagBit j.trunc 0 + flagBit j.restarted 1 + flagBit j.isLeaf 2 + flagBit j.nonce.isSome 3
    + flagBit j.preempted 4 + flagBit j.lane 5 + flagBit j.commits 6 + flagBit j.fromPeer 7
    + flagBit j.unsync 8 + flagBit j.twoPass 9

/-- The COMB field (R96). -/
def Job.combByte (j : Job) : Nat := if j.noComb then 0xFF else j.comb.getD 0xFF

/-- The result record (R96). -/
def recordOf (j : Job) : Bytes :=
  [j.status, j.detail] ++ natLe 2 j.rflags
    ++ [BitVec.ofNat 8 j.combByte, if j.combByte = 0xFF then 0 else BitVec.ofNat 8 j.combState]
    ++ natLe 2 j.opInfo ++ fit (dCookie j.desc) 8 ++ natLe 5 j.nbytes
    ++ natLe 5 (if j.isLeaf then j.epoch else 0) ++ fit (j.nonce.getD []) 12
    ++ natLe 10 j.tArrive ++ natLe 10 j.tDone ++ natLe 4 (if j.isLeaf then j.leafIdx else 0) ++ zeros 2

/-- QUEUE and SLOT of a leaf (R261). -/
def Job.place (j : Job) : Nat × W32 :=
  match j.src with
  | .ring q i => (q, i)
  | .peer p sq _ => (p, sq)
  | .prov => (0, 0)

/-- The leaf of a job, big-endian (R261). -/
def leafOf (j : Job) : Bytes :=
  let dig := if j.commits then j.digest else []
  let slot := match dOp j.desc with | some o => if o.usesKey then dKeySlot j.desc else 0 | none => 0
  [0x01, j.status, j.detail, BitVec.ofNat 8 j.combByte] ++ natBe 2 j.rflags
    ++ natBe 2 (dCode j.desc) ++ [BitVec.ofNat 8 (dAlg j.desc), BitVec.ofNat 8 (dClass j.desc)]
    ++ natBe 2 j.client ++ natBe 4 j.place.1 ++ bvBe 4 j.place.2 ++ natBe 4 slot
    ++ natBe 8 (leNat (dCookie j.desc)) ++ natBe 5 j.nbytes ++ [BitVec.ofNat 8 dig.length]
    ++ natBe 2 j.opInfo ++ natBe 10 j.tArrive ++ natBe 10 j.tDone ++ fit (j.nonce.getD []) 12
    ++ fit dig 64

/-- BYTES by status (R98). `l` is L, `total` the source total of a short input, `written` the
destination bytes whose writes were issued. -/
def bytesOf (status : Status) (l total written : Nat) (noComb : Bool) : Nat :=
  if noComb then (if status.toNat ≤ 1 then l else 0)
  else if status.toNat ≤ 1 || status == stAuthFail || status == stSigInvalid then l
  else if status == stShort then total
  else if status == stDma || status == stPoison || status == stTamper || status == stOrphaned then written
  else 0

end Sys2Proof.Machine
end

