-- ==== Sys2Proof/Machine/JobOps.lean ====
section
/-! DEFINITION. What every family does with a job: the cell and the comb it holds, its charge, its
context, its reads and writes, its failure, its abandonment and its forced end (R70, R98, R99, R106
to R122, R147, R153, R184, R249). -/

namespace Sys2Proof.Machine

/-! ## Accounts and combs -/

def acctIndex : Account → Nat
  | .bulk => 0
  | .digest => 1
  | .number => 2
  | .lattice => 3
  | .propolis => 4
  | .none => 5

/-- The cell kind of an account. -/
def acctCell : Account → Option Cell
  | .bulk => some .bulk
  | .digest => some .digest
  | .number => some .number
  | .lattice => some .lattice
  | _ => none

/-- The account a curve or key type of R222 is worked on by (R245). -/
def attestAcct (kt : Nat) : Account :=
  if ktKem kt || ktDsa kt then .lattice else if ktCurve kt || ktRsa kt then .number else .propolis

/-- The account of an opcode (R106, R184, R232, R234, R245). -/
def acctOf (s : State) (c : Nat) (o : Op) (d : Bytes) : Account :=
  let code := opCode o / 256
  if code = 1 then .bulk
  else if code = 2 then .digest
  else if code = 3 then .number
  else if code = 4 then .lattice
  else match o with
    | .random => .bulk
    | .keyGenerate => if ktCurve (kbType d) then .number else .bulk
    | .keyDerive => if dSub d = 1 then .digest else .propolis
    | .keyAgreeToSlot => if 0x41 ≤ dAlg d then .lattice else .number
    | .keyAttest =>
      match s.slotPos c (dKeySlot d) with
      | some p => attestAcct (s.slot p).ktype
      | none => .propolis
    | .keyWrap | .keyUnwrap | .keyCheckValue | .ctxExport | .ctxImport => .propolis
    | _ => .none

/-- The job holds a place on its comb's cell: placed, and not saved or past the cell. -/
def Job.onCell (j : Job) : Bool :=
  j.comb.isSome && (j.stage == .key || j.stage == .run || j.stage == .cellDone) && !j.left && j.record.isEmpty

/-- The key slot the job pulled (R226). -/
def Job.keyPos (j : Job) : Nat := j.refs.headD 0

/-- The job is in the setup stage of its cell or in the block stage behind it (R113). -/
def Job.enters (j : Job) : Bool := j.onCell && j.stage != .cellDone

/-- The job has been dispatched and has not ended. -/
def Job.live (j : Job) : Bool := j.stage != .ready && j.stage != .ended

/-- The jobs that meet `p`, in the order of their stage 3. -/
def State.jobsWith (s : State) (p : Job → Bool) : List Nat :=
  (s.jobs.filter fun e => p e.2).map (·.1)

/-- Two jobs share a cell, and in it the lane or the stages beside it (R22, R23). -/
def Job.sameCell (a b : Job) : Bool := a.comb == b.comb && acctCell a.acct == acctCell b.acct && a.lane == b.lane

/-- The job is in the block stage of its cell, or runs in its lane: it is the first of those placed there, and a job
whose output waits for pages stalls the block stage with it (R22, R113, R150, R163). A lane has a place for each of its
jobs (R114, R149). Work that needs no cell is never behind another. -/
def inBlock (s : State) (id : Nat) : Bool :=
  let j := s.job id
  (acctCell j.acct).isNone
    || (j.enters && s.jobs.all fun e =>
      e.1 == id || !(e.2.onCell && e.2.sameCell j) || (j.lane && !e.2.enters) || (e.2.enters && j.seat < e.2.seat))

/-- Free staging pages of a comb (R150). -/
def freePages (s : State) (comb : Nat) : Nat :=
  128 - s.jobs.foldl (fun a e => if e.2.comb == some comb && e.2.live then a + e.2.pages else a) 0

/-! ## The context caches of the combs (R22, R118) -/

/-- Saved states in the preemption reserve. -/
def rsvUsed (s : State) : Nat := (s.jobsWith fun j => j.stage == .saved && j.inReserve).length

/-- An entry leaves every comb's cache. -/
def cacheDrop (s : State) (e : CacheEntry) : State :=
  s.each (tblKeys s.combs) fun s c => s.modComb c fun b => { b with cache := b.cache.filter (· != e) }

/-- A running job holds the cache entry. -/
def cacheHeld (s : State) : CacheEntry → Bool
  | .saved _ => false
  | .ctx k =>
    let x := tblGet {} s.ctxs k
    x.state == .held && (s.job x.holder).stage != .saved

/-- A saved state lies in the preemption reserve from now on. -/
def toReserve (s : State) (j : Nat) : State :=
  let s := s.modJob j fun x => { x with inReserve := true }
  { s with sch.rsvPeak := max s.sch.rsvPeak (rsvUsed s) }

/-- The least recently used entry that no running job holds leaves a full cache; a saved state goes to the
preemption reserve, while that has room. None where no entry may leave (R118). -/
def cacheRoom (s : State) (comb : Nat) : Option State :=
  if (s.comb comb).cache.length < 32 then some s
  else
    let may := fun (e : CacheEntry) => !cacheHeld s e &&
      match e with | .saved _ => decide (rsvUsed s < 4096) | .ctx _ => true
    match (s.comb comb).cache.find? may with
    | none => none
    | some e =>
      let s := s.modComb comb fun b => { b with cache := b.cache.filter (· != e) }
      match e with
      | .ctx _ => some s
      | .saved j => some (toReserve s j)

/-- An entry is the most recently used one of a comb's cache. -/
def cachePut (s : State) (comb : Nat) (e : CacheEntry) : State :=
  let s := cacheDrop s e
  match cacheRoom s comb with
  | some s => s.modComb comb fun b => { b with cache := b.cache ++ [e] }
  | none => s

/-- A place for a saved state exists: in the cache of its comb, or in the reserve (R118). -/
def canSave (s : State) (comb : Nat) : Bool := (cacheRoom s comb).isSome || decide (rsvUsed s < 4096)

/-- The saved state of a job takes its place. -/
def placeSaved (s : State) (id comb : Nat) : State :=
  if (cacheRoom s comb).isSome then cachePut s comb (.saved id) else toReserve s id

/-! ## Charges (R109 to R111) -/

/-- The tenant-class-account number of the scheduler's tables. -/
def defKey (t a c : Nat) : Nat := t * 20 + a * 4 + c

/-- The class whose deficit a job is charged to: LATENCY counts as NORMAL. -/
def Job.chargeClass (j : Job) : Nat := max 1 (dClass j.desc)

/-- `n` cycles are charged to a job's tenant, and to the cap when step 1 took it. -/
def chargeCycles (s : State) (id n : Nat) : State :=
  let j := s.job id
  if j.charged && j.acct != .none then
    let k := defKey j.client (acctIndex j.acct) j.chargeClass
    let v : Int := max (tblGet 0 s.sch.deficit k - n) (-(2 ^ 39))
    { s with
      sch.deficit := tblSet 0 s.sch.deficit k v
      sch.latUsed := if j.step = 1 then
        tblSet 0 s.sch.latUsed (acctIndex j.acct) (tblGet 0 s.sch.latUsed (acctIndex j.acct) + n)
        else s.sch.latUsed }
  else s

/-- Busy cycles are charged, less whatever part of the 256 paid at dispatch is not yet used up. -/
def chargeBusy (s : State) (id n : Nat) : State :=
  let c := min (s.job id).credit n
  chargeCycles (s.modJob id fun j => { j with credit := j.credit - c }) id (n - c)

/-! ## Contexts (R122) -/

/-- The context a job names. -/
def Job.ctxId (j : Job) : Option Nat :=
  match dOp j.desc with
  | some o => if dUsesCtx o j.desc then some (dCtx j.desc) else none
  | none => none

/-- A context is closed and overwritten with zeros. -/
def closeCtx (s : State) (c x : Nat) : State :=
  cacheDrop { s with ctxs := tblErase s.ctxs (ctxKey c x) } (.ctx (ctxKey c x))

/-- The internal bytes of a wrapped blob (R126: undocumented): 216 to 231 and 240 to 271 with STATE, masked
by a free value. -/
def blobMask (b : Bytes) : Bytes := xorB b (fit (Config.ctxBlobPad b.length) b.length)

/-- A context takes the binding and the state of an import blob (R127). `imported` is the customisation
string of a KMAC stream, for which the blob has no place. -/
def loadBlob (b : Bytes) (imported : Bytes) (k : Ctx) : Ctx :=
  let kind0 := leAt b 1 1 == 0
  let op := leAt b 2 2
  let alg := leAt b 4 1
  let area := blobMask (slice b 16 200)
  let more := blobMask (slice b 216 16 ++ slice b 240 32)
  let n := if alg = 1 || alg = 2 then 32 else if alg = 3 || alg = 4 then 64 else 200
  { k with
    opcode := op, alg := alg, keySlot := leAt b 8 4, keyGen := BitVec.ofNat 16 (leAt b 12 4)
    done := leAt b 232 8
    chain := if kind0 then slice b 16 n else area.take (leAt more 16 1)
    nonce := if kind0 then [] else slice more 0 (leAt more 17 1)
    hwNonce := !kind0 && leAt more 18 1 == 1
    aad := if kind0 then 0 else leAt more 19 8
    s := if op = 0x0204 then imported.take 64 else [] }

/-- The context that a job holds takes the state that the job's end gives it. The context of an export or an import that
ends in any way but success, abandoned and TAMPER_ABORT among them, returns to the state it had: R122 closes a context
that a stream held, R125 and R127 speak only of a failed check (DESIGN CHOICE, log 83). -/
def endCtx (s : State) (id : Nat) (abandoned : Bool) : State :=
  let j := s.job id
  match dOp j.desc, j.ctxId with
  | some o, some x =>
    if !j.holdsCtx then s
    else
      let s := s.modJob id fun j => { j with holdsCtx := false }
      if o == .ctxExport then s.modCtx j.client x fun k => { k with state := k.was, was := .closed, holder := 0 }
      else if o == .ctxImport then
        if j.good && !abandoned then
          let imported := Config.importedS s.freeN
          { s.modCtx j.client x fun k =>
              { loadBlob j.wrapMat imported k with state := .opened, was := .closed, holder := 0 } with
            freeN := s.freeN + 1 }
        else s.modCtx j.client x fun k => { k with state := k.was, was := .closed, holder := 0 }
      else
        let fin := dFinal o j.desc
        let ok := !abandoned &&
          (j.good || (fin && (j.status == stAuthFail || j.status == stSigInvalid)))
        if !ok then closeCtx s j.client x
        else if !fin then s.modCtx j.client x fun k => { k with state := .opened, holder := 0 }
        else if o.digest then
          s.modCtx j.client x fun k => { k with state := .done, holder := 0, chain := [] }
        else closeCtx s j.client x
  | _, _ => s

/-! ## Ends -/

/-- The engine's next job: class by class, in order of entry (R113); jobs past the engine are passed
over. -/
def ppNext (s : State) : Option Nat :=
  s.ks.ppQueues.flatten.find? fun id => (s.job id).stage == .key || (s.job id).stage == .run

/-- The job's entry of the propolis input queue is free (R105). -/
def ppFree (s : State) (id : Nat) : State :=
  { s with ks.ppQueues := s.ks.ppQueues.map fun (q : List Nat) => q.filter (· != id) }

/-- References, the reserved run, staging pages and the context of a job are released; its operands and its message
are cleared (R206). -/
def releaseJob (s : State) (id : Nat) (abandoned : Bool) : State :=
  let j := s.job id
  let s := s.each j.refs dropRef
  let s := freeRun s (j.reserved.filter fun p => (s.slot p).state == .reserved)
  let s := endCtx s id abandoned
  let s := ppFree (cacheDrop s (.saved id)) id
  s.modJob id fun j =>
    { j with
      refs := [], reserved := [], pages := 0, keyMat := [], keyShare := [], wrapMat := [], lane2 := []
      inReserve := false
      got := [], parts := [], hostParts := [], pass1Tag := [] }

/-- The reads of a job are orphaned. -/
def orphanJobReads (s : State) (id : Nat) : State :=
  let s := orphanReads s false fun r =>
    match r.purpose with
    | .srcList j _ | .dstList j _ | .source j _ => j == id
    | _ => false
  s.modJob id fun j => { j with open_ := [] }

/-- The job is abandoned with no write (R70). -/
def abandonJob (s : State) (id : Nat) : State :=
  (releaseJob (orphanJobReads s id) id true).dropJob id

/-- The cell, the propolis engine or the dispatcher decides the job's status: JOB_END then ends it. -/
def decide7 (s : State) (id : Nat) (st : Status) (detail : BitVec 8) : State :=
  let s := ppFree (orphanJobReads s id) id
  s.modJob id fun j =>
    { j with stage := .cellDone, status := st, detail := detail, tDone := s.sync.h,
             unsync := s.sync.state != 2,
             combState := match j.comb with | some c => s.combByte c | none => 0 }

/-- The job leaves its cell, which clears its operands, its key and its message before it takes another job (R206). -/
def leaveCell (s : State) (id : Nat) : State :=
  s.modJob id fun j =>
    { j with left := true, keyMat := [], keyShare := [], got := [], parts := [], hostParts := [], pass1Tag := [] }

/-- A failure of stage 6: nothing further is written, and the cell has nothing left to do. -/
def fail6 (s : State) (id : Nat) (st : Status) (detail : BitVec 8) : State :=
  leaveCell ((decide7 s id st detail).modJob id fun j => { j with output := [] }) id

/-- A failure at stage 5: the result reports no comb (R98). -/
def fail5 (s : State) (id : Nat) (st : Status) (detail : BitVec 8) : State :=
  (fail6 s id st detail).modJob id fun j => { j with noComb := true }

/-- The job uses a key, or is a wrapped export or import (R408). -/
def keyedJob (s : State) (j : Job) : Bool :=
  match dOp j.desc with
  | none => false
  | some o =>
    o.usesKey
      || (o == .ctxImport && dMsg j.desc == 280)
      || (o == .ctxExport &&
          let x := s.ctx j.client (dCtx j.desc)
          !(j.clear && (x.opcode == 0x0201 || x.opcode == 0x0207)))

/-- A keyed job that has not ended ends with TAMPER_ABORT or KEY_ORPHANED (R101, R216, R464): no
further output; bytes issued before are reported. -/
def forceEnd (s : State) (id : Nat) (st : Status) (detail : BitVec 8) : State :=
  let j := s.job id
  let s := releaseJob (decide7 s id st detail) id true
  s.modJob id fun x =>
    { x with
      -- what of a peer job's output has left for egress stands in front of its result (R359)
      output := if j.fromPeer then j.output.take j.written else [], digest := [], record := []
      nbytes := j.written
      -- a leaf that is already assigned keeps EPOCH and LEAF_IDX (R277)
      stage := if j.stage == .leaf then .leaf else .cellDone
      noComb := j.noComb || j.comb.isNone || (j.stage == .key && !j.preempted)
      comb := j.comb }

/-! ## Writes -/

def segTotal (l : List Seg) : Nat := l.foldl (fun a g => a + g.len) 0

/-- Data bytes leave for a client: where a piece is refused or waits, what was issued before it
stands. The result is how many bytes were issued. -/
def dataPieces (s : State) (c : Nat) (noSnoop : Bool) : List (Nat × Nat) → Bytes → Nat → Wrote × Nat × State
  | [], _, n => (.issued, n, s)
  | (a, m) :: rest, b, n =>
    match windowed s c a m true with
    | none => (.refused, n, s)
    | some (tgt, x, pasid) =>
      match xlated s c tgt x pasid true with
      | .denied => (.denied, n, s)
      | .ask => (.waits, n, askXlate s c pasid (x / 4096))
      | .to y =>
        let s := if tgt = 0 then linkActive s else s
        let s := s.emit [.write c tgt y (b.take m) (noSnoop && (s.func c).nsEn && tgt == 0)
          ((s.func c).roEn && isFn c && s.hi.cfg.getLsbD 3) pasid (atMark s c tgt)]
        dataPieces s c noSnoop rest (b.drop m) (n + m)

/-- A destination segment is judged whole at its first write, then written (R101, R302). -/
def writeSeg (s : State) (c : Nat) (g : Seg) (first : Bool) (b : Bytes) : Wrote × Nat × State :=
  let a := g.addr.toNat
  if !s.busMaster c then (.waits, 0, s)
  else if first && !allowed s c a b.length true then (.refused, 0, s)
  else dataPieces s c g.noSnoop (reqCuts s c s.mps a b.length true) b 0

/-- The output from byte `done` on is written over the segments, in list order. `skip` counts the
bytes of earlier segments. -/
def writeOut (s : State) (c done : Nat) : List Seg → Bytes → Nat → Wrote × Nat × State
  | [], _, n => (.issued, n, s)
  | g :: rest, b, n =>
    if b.isEmpty then (.issued, n, s)
    else if g.len ≤ done then writeOut s c (done - g.len) rest b n
    else
      let part := b.take (g.len - done)
      let r := writeSeg s c { g with addr := g.addr + BitVec.ofNat 64 done, len := g.len - done }
        (done == 0) part
      match r.1 with
      | .issued => writeOut r.2.2 c 0 rest (b.drop part.length) (n + r.2.1)
      | w => (w, n + r.2.1, r.2.2)

/-- The two lists name the same bytes in the same order, as far as the shorter goes. -/
def sameList : List Seg → List Seg → Bool
  | [], _ => true
  | _, [] => true
  | g :: r, h :: t =>
    g.addr == h.addr
      && (if g.len = h.len then sameList r t else if g.len < h.len then r.isEmpty else t.isEmpty)

/-- The destination is the source, which R135 supports for every bulk opcode but two, and R90 where the output is
nowhere longer than the input. -/
def inPlace (o : Op) (j : Job) : Bool :=
  sameList j.srcSegs j.dstSegs && o != .tls13RecSeal && o != .espSeal
    && (opCode o / 256 == 1 || j.output.length ≤ segTotal j.srcSegs)

/-- A stretch of memory behind a window. -/
structure Place3 where
  /-- 0 host, 1 adapter, 2 peer; 3: no window holds it -/
  target : Nat
  /-- the function and the PASID whose host addresses these are (R329); none for the other targets -/
  space  : Option (Nat × Option Nat)
  addr   : Nat
  /-- the translated address, where ATS has given one (R335) -/
  phys   : Option Nat
  len    : Nat
deriving DecidableEq, Repr

/-- Where the windows of a client put its segments, and the translation cache behind them. -/
def placesOf (s : State) (c : Nat) (wr : Bool) (l : List Seg) : List Place3 :=
  l.flatMap fun g => (cuts 4096 g.addr.toNat g.len).map fun p =>
    match windowed s c p.1 p.2 wr with
    | some (tgt, x, pasid) =>
      { target := tgt, space := if tgt = 0 then some (c, pasid) else none, addr := x, len := p.2
        phys := if atMark s c tgt then (match xlated s c tgt x pasid wr with | .to y => some y | _ => none) else none }
    | none => { target := 3, space := none, addr := p.1, phys := none, len := p.2 }

/-- `m` bytes from `a` and `n` bytes from `b` share one. -/
def rangesMeet (a m b n : Nat) : Bool := a < b + n && b < a + m

/-- Two stretches share a byte: behind one window target at one address, for the host of one function and PASID, or
where ATS has translated both to one address (R329, R335; log 13). -/
def Place3.overlaps (g h : Place3) : Bool :=
  g.target == h.target && g.target != 3
    && ((g.space == h.space && rangesMeet g.addr g.len h.addr h.len)
      || match g.phys, h.phys with
        | some a, some b => rangesMeet a g.len b h.len
        | _, _ => false)

/-- The bytes of stretches, in order. -/
def placeBytes (l : List Place3) : List Place3 :=
  l.flatMap fun g => (List.range g.len).map fun i =>
    { g with addr := g.addr + i, phys := g.phys.map (· + i), len := 1 }

/-- The memory that the job's output may not meet: that of its own source, unless it works in place, and the
destinations of all other jobs that HEAD has not passed, of whatever client (R90). -/
def foreignPlaces (s : State) (id : Nat) (o : Op) : List Place3 :=
  let j := s.job id
  (if inPlace o j then [] else placesOf s j.client false j.srcSegs)
    ++ (s.jobs.filter fun e => e.1 != id && e.2.stage != .ready).flatMap fun e => placesOf s e.2.client true e.2.dstSegs

/-- Output bytes whose place overlaps otherwise than R90 allows are undefined: free values. -/
def overlapFix (s : State) (o : Op) (id : Nat) : Bytes :=
  let j := s.job id
  let mine := placesOf s j.client true j.dstSegs
  let l := (foreignPlaces s id o).filter fun h => mine.any fun g => g.overlaps h
  if j.fromPeer || l.isEmpty then j.output
  else
    List.zipWith (fun (b : Byte) (ai : Place3 × Nat) =>
      if l.any ai.1.overlaps then Config.overlapBytes id ai.2 else b)
      j.output ((placeBytes mine).take j.output.length).zipIdx

/-! ## Reads -/

/-- The offset a source read fills. -/
def Req.off (r : Req) : Nat := match r.purpose with | .source _ o => o | _ => 0

/-- The requests of one access of a job are issued. The DETAIL is `code` where a window refuses it, and
0x08 where a translation denies it (R335). -/
def jobRead (s : State) (id : Nat) (a n : Nat) (mk : Nat → Purpose) (noSnoop : Bool) (code : BitVec 8) :
    Option (BitVec 8) × State :=
  match readPieces s (s.job id).client a n mk noSnoop with
  | none => (some code, s)
  | some l =>
    if readable s l then
      (none, (s.modJob id fun j => { j with open_ := j.open_ ++ l.map Req.off }).each l issueRead)
    else (some 0x08, s)

end Sys2Proof.Machine
end

