-- ==== Sys2Proof/Machine/QueueOps.lean ====
section
/-! DEFINITION. What every family does with a queue: its state changes, its stops, the copies it
holds, its release, and the publication of HEAD (R45, R58 to R70, R293). -/

namespace Sys2Proof.Machine

/-- S of R45. -/
def Queue.slots (u : Queue) : Nat := 2 ^ u.cfg.sizeLog2
/-- The ring address of a slot (R46). -/
def Queue.slotAddr (u : Queue) (i : W32) : Nat := u.cfg.ring.toNat + i.toNat % u.slots * 64

/-- STATE as in Q_STATUS (R67). -/
def qCode : QState → Nat
  | .disabled => 0
  | .active => 1
  | .stopped => 2
  | .draining => 3
  | .paused => 4
  | .frozen => 5

/-- The queue takes doorbells and pushes (R67, R299); a RESET that waits for its jobs does not change that
(R71). -/
def takesDoorbells (s : State) (c q : Nat) : Bool :=
  let u := s.queue c q
  (u.state == .active || u.state == .paused) && !u.leaving && (s.tenant c).state != 3

/-- The queue takes descriptors at stages 2 and 3. -/
def takesSlots (u : Queue) : Bool :=
  (u.state == .active || u.state == .paused || u.state == .draining) && !u.resetting

/-- The end of what the queue may take: PI, or the drain end (R68). -/
def Queue.limit (u : Queue) : W32 := if u.state == .draining then u.drainEnd.getD u.pi else u.pi

/-- A head mirror write is due, and for a bound queue a completion record after it (R60, R65). -/
def Queue.publish (u : Queue) (change irq : Bool) : Queue :=
  { u with hmDue := true, chgDue := u.chgDue || change, irqDue := u.irqDue || irq }

/-- Staged slots of the queue are discarded; staged bytes set PUSH_DROP (R52). -/
def Queue.unstage (u : Queue) (flag : Bool) : Queue :=
  { u with
    staged := [], stagedBad := false, stagedAt := none
    pushDrop := u.pushDrop || (flag && (!u.staged.isEmpty || u.stagedBad)) }

/-- The reads of the forager for a queue that meet `p` are orphaned. -/
def orphanQueueReads (s : State) (c q : Nat) : State :=
  orphanReads s false fun r => r.client == c &&
    match r.purpose with
    | .desc q' _ | .mirror q' => q' == q
    | _ => false

/-- Cached and staged slots and the mirror read of a queue are dropped; staged bytes set PUSH_DROP (R52, R68). -/
def dropCopies (s : State) (c q : Nat) : State :=
  (orphanQueueReads s c q).modQueue c q fun u =>
    { u.unstage true with cache := [], fetching := [], mirror := {} }

/-- A change of state or a setting of STOP made by another trigger than the command that waits: that
command ends STALE_GEN, RESET excepted (R71). -/
def Queue.interrupt (u : Queue) : Queue :=
  if u.cmd.isSome && u.cmd != some .reset then { u with cmd := none, cmdResult := 2 } else u

/-- A change to DRAINING ends every command that waits STALE_GEN, RESET too, and the queue drains (R71). -/
def Queue.interruptAll (u : Queue) : Queue :=
  if u.cmd.isSome then { u with cmd := none, cmdResult := 2, resetting := u.resetting && u.leaving } else u

/-- A step of R68: the new state, GEN moved once, and the head mirror due. -/
def Queue.enter (u : Queue) (st : QState) : Queue :=
  ({ u with state := st, gen := u.gen + 1 }).publish true false

/-- The jobs of a queue that have passed stage 3 and are not dispatched are forgotten. -/
def dropReady (s : State) (c q : Nat) : State :=
  let l := (s.queue c q).ready
  (s.each l fun s j => s.dropJob j).modQueue c q fun u => { u with ready := [] }

/-- A stop of an ACTIVE or PAUSED queue, or the end of a drain at a malformed entry (R68): the stop
point is the next index to check. -/
def stopQueue (s : State) (c q : Nat) (code : BitVec 8) (erridx : W32) : State :=
  let u := s.queue c q
  if u.state == .draining then
    (dropCopies s c q).modQueue c q fun u =>
      ({ u.interrupt with stop := code, errIdx := erridx, gen := u.gen + 1, drainEnd := some u.chk
                          accepts := [] }).publish true false
  else if u.state == .active || u.state == .paused then
    (dropCopies s c q).modQueue c q fun u =>
      ({ u.interrupt with stop := code, errIdx := erridx, stopPt := some u.chk }).enter .stopped
  else s

/-- An excess queue of a client that is not yet released (R294). -/
def leavingCount (s : State) (c : Nat) : Nat :=
  ((s.queuesOf c).filter fun q => (s.queue c q).leaving).length

/-! ## The tenant's state word and its notices (R288, R310, R363) -/

/-- A reply or notice is generated for a function's K2H mailbox; without a registered pool it is
discarded (R309). A waiting notice of the same type takes the new body and keeps its place (R310, R311; the place is a
DESIGN CHOICE, log 87). -/
def mailFor (s : State) (c : Nat) (m : Mail) : State :=
  let t := s.tenant c
  if t.mb.poolN = 0 then s
  else if m.word.getLsbD 9 && t.mb.held.any (fun h => h.word == m.word) then
    s.modTenant c fun t =>
      { t with mb.held := t.mb.held.map fun h => if h.word == m.word then m else h }
  else s.modTenant c fun t => { t with mb.held := t.mb.held ++ [m] }

/-- The body of TENANT_CHANGED (R310). -/
def tenantBody (t : Tenant) : Bytes :=
  bvLe 2 t.gen ++ [BitVec.ofNat 8 t.state, 0] ++ natLe 4 t.queues ++ natLe 4 t.keyCount ++ natLe 4 t.ctxCount

/-- A notice of the tenant's state word is due at its client. -/
def tenantChanged (s : State) (c : Nat) : State :=
  if isFn c then mailFor s c { word := 0x210, body := tenantBody (s.tenant c) }
  else noticeFor s (c - 4096) 3 0

/-- The tenant's state word moves one step (R288). -/
def stepTenant (s : State) (c st : Nat) : State :=
  tenantChanged (s.modTenant c fun t => { t with state := st, gen := t.gen + 1 }) c

/-- The last excess queue of a RESIZING tenant is released (R294). -/
def resized (s : State) (c : Nat) : State :=
  if (s.tenant c).state = 2 && leavingCount s c = 0 then stepTenant s c 1 else s

/-! ## Ends of a queue -/

/-- The queue is DISABLED; `mirror` asks for the one head mirror that shows it, and for a bound queue for the
record of the change (R65, R71, R293). HEAD keeps its value until the next ENABLE. Q_ERRIDX is 0 from then on
(DESIGN CHOICE, log 57). -/
def Queue.disable (u : Queue) (mirror : Bool) : Queue :=
  { u with
    state := .disabled, gen := u.gen + 1, errIdx := 0, stopPt := none, drainEnd := none
    resetting := false, crPending := u.crPending && mirror, crDue := u.crDue && mirror, chgDue := mirror
    irqDue := u.irqDue && mirror, crIrq := u.crIrq && mirror, crChg := u.crChg && mirror, hmDue := mirror
    accepts := [], cache := [], fetching := [], mirror := {}
    staged := [], stagedBad := false, stagedAt := none }

/-- A queue leaves its function and returns DISABLED to the pool (R293). What is left of it is only
the head mirror that is still due, and for a bound queue its record. -/
def releaseQueue (s : State) (c q : Nat) (mirror : Bool) : State :=
  let s := dropReady (dropCopies s c q) c q
  let u := s.queue c q
  let s := s.setQueue c q
    (if mirror then
      { cfg := u.cfg, state := .disabled, gen := u.gen + 1, stop := u.stop, head := u.head, hmDue := true,
        chgDue := true, irqDue := u.irqDue, crDue := u.crDue, crPending := u.crPending, crAt := u.crAt
        crIrq := u.crIrq, crChg := u.crChg }
     else {})
  resized (s.modTenant c fun t => { t with qmap := tblErase t.qmap q }) c

/-- The Hive itself resets a queue that will leave its function (R68, R293, R299). -/
def hiveReset (s : State) (c q : Nat) : State :=
  (dropReady (dropCopies s c q) c q).modQueue c q fun u =>
    { u.interrupt with resetting := true, leaving := true }

/-- The producer mirror read of a queue is given up. -/
def dropMirror (s : State) (c q : Nat) : State :=
  (orphanReads s false fun r => r.client == c && r.purpose == .mirror q).modQueue c q fun u => { u with mirror := {} }

/-- A tamper response, or a keyed descriptor in TAMPERED state, freezes a queue (R68, R408): its cached and staged slots
stay (R429), and nothing of it is dispatched or taken. A RESET of Q_CMD ends REFUSED there (R71); a queue that is
leaving is reset by the Hive. -/
def freezeQueue (s : State) (c q : Nat) : State :=
  let s := dropReady (dropMirror s c q) c q
  s.modQueue c q fun u =>
    let u := if u.cmd == some .reset then { u with cmd := none, cmdResult := 3, resetting := false }
      else u.interrupt
    ({ u with stop := qerrFrozen, errIdx := u.head, stopPt := none, drainEnd := none,
              resetting := u.leaving }).enter .frozen

/-- What the queue owes its client is forgotten. -/
def Queue.owesNothing (u : Queue) : Queue :=
  { u with
    hmDue := false, crDue := false, crPending := false, irqDue := false, chgDue := false
    crIrq := false, crChg := false }

/-- The vector of an interrupt that is due with the next head mirror write of a queue: of the ring it is bound to, or
its own (R61). -/
def irqVec (s : State) (c q : Nat) : Nat :=
  let u := s.queue c q
  if u.cfg.crEn then (s.ring c u.cfg.crId).vec
  else u.cfg.vec

/-- Bus master enable of the function is cleared (R68, R70, R336): the queue's jobs are abandoned with
no write, no mirror or completion record is written, and interrupts due set their pending bits. -/
def bmeQueue (s : State) (c q : Nat) : State :=
  let u := s.queue c q
  let s := if u.crIrq then signalVec s c (s.ring c u.crAt).vec else s
  let s := if u.irqDue then signalVec s c (irqVec s c q) else s
  if u.state == .disabled then
    if s.hasQueue c q then s.modQueue c q Queue.owesNothing else s.setQueue c q {}
  else
    let s := dropReady (dropCopies s c q) c q
    let s := s.each u.window abandonJob
    let s := s.modQueue c q fun u => { u with window := [] }
    if u.state == .draining then releaseQueue s c q false
    else s.modQueue c q fun u =>
      (({ u.interrupt with stop := qerrBme, errIdx := u.head, stopPt := none, drainEnd := none
                           accepts := [] }).enter .stopped).owesNothing

/-- FLR, warm reset, or a peer reset: DISABLED with Cold values and no mirror; QS_POLICY is kept, and
a queue that is leaving is released (R68, R72, R131, R294, R364). -/
def flrQueue (s : State) (c q : Nat) : State :=
  let u := s.queue c q
  let s := dropReady (dropCopies s c q) c q
  let s := s.each u.window abandonJob
  if u.leaving then releaseQueue s c q false
  else s.setQueue c q { clearExport := u.clearExport }

/-! ## Publication (R58 to R65) -/

/-- The 8 bytes of the head mirror (R59). -/
def mirrorBytes (u : Queue) : Bytes :=
  bvLe 4 u.head ++ [BitVec.ofNat 8 (qCode u.state), u.stop] ++ natLe 2 u.gen.toNat

/-- The completion record of a queue (R63). -/
def crRecord (q : Nat) (u : Queue) (replay : Bool) (idx : W32) : Bytes :=
  natLe 4 (qNum q) ++ bvLe 4 u.head
    ++ natLe 2 (flagBit u.crIrq 0 + flagBit replay 1 + flagBit u.crChg 2)
    ++ [BitVec.ofNat 8 (qCode u.state), u.stop] ++ bvLe 4 idx

def CrRing.full (r : CrRing) : Bool := ringDist r.tail r.cons == 2 ^ r.sizeLog2

/-- The queues that are not DISABLED and bind to a ring, in ascending order (R62). -/
def boundQueues (s : State) (c r : Nat) : List Nat :=
  (s.queuesOf c).filter fun q =>
    let u := s.queue c q
    u.cfg.crEn && u.cfg.crId == r && u.state != .disabled

/-- The queues whose record the ring owes (R65): one that has become DISABLED or is bound elsewhere since is among them
(DESIGN CHOICE, log 57). -/
def pendingQueues (s : State) (c r : Nat) : List Nat :=
  (s.queuesOf c).filter fun q => (s.queue c q).crPending && (s.queue c q).crAt == r

/-- One completion record of a bound queue is written, and then its interrupt is signalled. A refused
record takes no position (R302), and its interrupt is due all the same (R61). -/
def writeCr (s : State) (c r q : Nat) (replay : Bool) : Wrote × State :=
  let u := s.queue c q
  let g := s.ring c r
  let w := recordWrite s c (g.base.toNat + g.tail.toNat % 2 ^ g.sizeLog2 * 16) (crRecord q u replay g.tail)
  match w.1 with
  | .waits => w
  | k =>
    let s := if k = .issued then w.2.modRing c r fun g => { g with tail := g.tail + 1 } else w.2
    let s := if u.crIrq then signalVec s c g.vec else s
    (k, if s.hasQueue c q then
        s.modQueue c q fun u => { u with crDue := false, crPending := false, crIrq := false, crChg := false }
      else s.setQueue c q {})

/-- The entry of the lowest queue number, a released queue before the one that has its number now. -/
def lowestNum : List Nat → Option Nat
  | [] => none
  | q :: l =>
    match lowestNum l with
    | none => some q
    | some k => if qNum k ≤ qNum q then some k else some q

/-- The pending queue that overflow recovery serves next: ascending, after the last one served. -/
def nextPending (s : State) (c r : Nat) : Option Nat :=
  let l := pendingQueues s c r
  match lowestNum (l.filter fun q => (s.ring c r).lastServed ≤ qNum q) with
  | some q => some q
  | none => lowestNum l

/-- REPLAY records are written while space lasts; with none pending the ring is in direct mode again
(R65). A record waits for the head mirror write that carries its HEAD (R63). -/
def replayRing (s : State) (c r : Nat) : Nat → State
  | 0 => s
  | fuel + 1 =>
    if !(s.ring c r).mode then s
    else match nextPending s c r with
      | none => s.modRing c r fun g => { g with mode := false }
      | some q =>
        if (s.ring c r).full || (s.queue c q).hmDue then s
        else
          let w := writeCr s c r q true
          match w.1 with
          | .waits => w.2
          | _ => replayRing (w.2.modRing c r fun g => { g with lastServed := qNum q + 1 }) c r fuel

end Sys2Proof.Machine
end

