-- ==== Sys2Proof/Machine/Gathering.lean ====
section
/-! DEFINITION. Stage 6 before the cell consumes: the source and destination lists, their totals, the
window checks, and the source reads, in the order of R101 (R86 to R93, R330, R353). -/

namespace Sys2Proof.Machine

/-- The output length that the job's destination must hold; for a key check value, a wrapped key or a
context export it depends on the slot or the context (R101). -/
def jobOut (s : State) (j : Job) : Nat :=
  match dOp j.desc with
  | none => 0
  | some .keyCheckValue =>
    match s.slotPos j.client (dKeySlot j.desc) with
    | some p => (checkValueLen (s.slot p).ktype).getD 0
    | none => 0
  | some .keyWrap => (wrapLen (dSub j.desc) j.wrapMat.length).getD 0
  | some .ctxExport => stage3Out s j.client j.clear .ctxExport j.desc
  | some o => dOut o j.desc

/-- Source bytes of the job: L. -/
def Job.srcLen (j : Job) : Nat := match dOp j.desc with | some o => dL o j.desc | none => 0

/-- One entry joins a list that is totalled up to `need`: the segments, and whether the entry has bytes
left after `need` (R87, R91). -/
def addEntry (need : Nat) (l : List Seg) (e : Seg) : List Seg × Bool :=
  let take := min e.len (need - segTotal l)
  if e.len = 0 then (l, false) else (l ++ [{ e with len := take }], take < e.len)

/-- An inline list, read up to `need`: the segments and whether bytes or entries remain (R91). -/
def addInline (need : Nat) : List Seg → List Seg → Bool → List Seg × Bool
  | [], l, more => (l, more)
  | e :: rest, l, more =>
    if need ≤ segTotal l then (l, true)
    else
      let r := addEntry need l e
      addInline need rest r.1 (more || r.2)

/-- The source reads of a job's segments are issued from source byte `off` on. -/
def readSegs (id : Nat) : List Seg → Nat → State → Option (BitVec 8) × State
  | [], _, s => (none, s)
  | g :: rest, off, s =>
    match jobRead s id g.addr.toNat g.len (fun o => .source id (off + o)) g.noSnoop 0x01 with
    | (none, s) => readSegs id rest (off + g.len) s
    | x => x

/-- The source is read, from its first byte. -/
def readSource (s : State) (id : Nat) : State :=
  let s := s.modJob id fun j => { j with parts := [], hostParts := [], got := [], open_ := [], gather := .src }
  match readSegs id (s.job id).srcSegs 0 s with
  | (some d, s) => fail6 s id stDma d
  | (none, s) =>
    if (s.job id).open_.isEmpty then s.modJob id fun j => { j with gather := .done } else s

/-- A destination whose length stage 5 revealed is judged whole before the first write (R101). -/
def lateDst (o : Op) (d : Bytes) : Bool :=
  (o == .keyCheckValue || o == .keyWrap) && !dInline d && dDstN d == 0

/-- Both lists are totalled: the checks of R101 that precede the reads. BYTES of a short input is T, as R98 and R353
give it (log 59). -/
def judgeLists (s : State) (id : Nat) : State :=
  let j := s.job id
  match dOp j.desc with
  | none => s
  | some o =>
    if segTotal j.srcSegs < j.srcLen then
      (fail6 s id stShort 0x01).modJob id fun x => { x with nbytes := segTotal j.srcSegs }
    else if j.srcSegs.any fun g => !allowed s j.client g.addr.toNat g.len false then fail6 s id stDma 0x01
    else if !j.fromPeer && segTotal j.dstSegs < jobOut s j then fail6 s id stDma 0x05
    else if !j.fromPeer && lateDst o j.desc && !allowed s j.client (dDst j.desc) (jobOut s j) true then
      fail6 s id stDma 0x02
    else readSource s id

/-- The destination list from entry `i` on: it is read no further than the output length (R89), one
entry a request (DESIGN CHOICE, log 84). -/
def stepDst (s : State) (id i : Nat) : State :=
  let j := s.job id
  if jobOut s j ≤ segTotal j.dstSegs || dDstN j.desc ≤ i then judgeLists s id
  else
    let s := s.modJob id fun j => { j with gather := .dstList i }
    match jobRead s id (dDst j.desc + 16 * i) 16 (fun _ => .dstList id i) false 0x03 with
    | (none, s) => s
    | (some d, s) => fail6 s id stDma d

/-- The destination is taken: contiguous, inline or indirect (R86). -/
def startDst (s : State) (id : Nat) : State :=
  let j := s.job id
  match dOp j.desc with
  | none => s
  | some o =>
    let n := jobOut s j
    if dInline j.desc then
      let l := (addInline n (inlineDst o j.desc) [] false).1
      judgeLists (s.modJob id fun j => { j with dstSegs := l }) id
    else if dDstN j.desc = 0 then
      let l : List Seg := if n = 0 then [] else [{ addr := BitVec.ofNat 64 (dDst j.desc), len := n }]
      judgeLists (s.modJob id fun j => { j with dstSegs := l }) id
    else stepDst s id 0

/-- The source list from entry `i` on: it is read no further than L (R89, R91). The spec gives the blocks in which a
list is read no size: the model reads one 16-byte entry a request (DESIGN CHOICE, log 84). -/
def stepSrc (s : State) (id i : Nat) : State :=
  let j := s.job id
  if j.srcLen ≤ segTotal j.srcSegs || dSrcN j.desc ≤ i then
    startDst (s.modJob id fun j =>
      { j with trunc := j.trunc || (j.srcLen ≤ segTotal j.srcSegs && i < dSrcN j.desc) }) id
  else
    let s := s.modJob id fun j => { j with gather := .srcList i }
    match jobRead s id (dSrc j.desc + 16 * i) 16 (fun _ => .srcList id i) false 0x03 with
    | (none, s) => s
    | (some d, s) => fail6 s id stDma d

/-- The packet of a peer job. -/
def packetOf (s : State) (j : Job) : Nat × Packet :=
  match j.src with
  | .peer _ _ k => (k, tblGet {} s.peer.packets k)
  | _ => (0, {})

/-- A peer job's source is the rest of its packet (R351, R353): too short a packet fails before a byte is consumed,
and a poisoned word among those consumed gives POISON (R350); it and what follows are left to be dropped (R354). -/
def peerSource (s : State) (id : Nat) : State :=
  let j := s.job id
  let (k, p) := packetOf s j
  let l := j.srcLen
  if p.nbytes < l then
    (fail6 s id stShort 0x02).modJob id fun x => { x with nbytes := p.nbytes }
  else
    let used := p.words.take (ceilDiv l 64)
    let n := (used.takeWhile fun w => !w.2).length
    let s := { s with peer.packets := tblSet {} s.peer.packets k { p with words := p.words.drop n } }
    let s := s.modJob id fun j => { j with trunc := decide (l < p.nbytes) }
    if n < used.length then fail6 s id stPoison 0
    else s.modJob id fun j => { j with got := (used.flatMap (·.1)).take l, gather := .done }

/-- Stage 6 begins (R86, R101). -/
def startRun (s : State) (id : Nat) : State :=
  let j := s.job id
  match dOp j.desc with
  | none => s
  | some o =>
    if j.fromPeer then peerSource s id
    else if dInline j.desc then
      let r := addInline j.srcLen (inlineSrc o j.desc) [] false
      startDst (s.modJob id fun j => { j with srcSegs := r.1, trunc := r.2 }) id
    else if dSrcN j.desc = 0 then
      let l : List Seg :=
        if j.srcLen = 0 then [] else [{ addr := BitVec.ofNat 64 (dSrc j.desc), len := j.srcLen }]
      startDst (s.modJob id fun j => { j with srcSegs := l }) id
    else stepSrc s id 0

/-- The opcode reads no source list of a ring descriptor: FENCE has none, and a NOP ignores those fields (R82). -/
def noLists (j : Job) : Bool := !j.fromPeer && (dOp j.desc == some .fence || dOp j.desc == some .nop)

/-- Stage 6 begins where the job has entered it. -/
def startIfRun (s : State) (id : Nat) : State :=
  let j := s.job id
  if j.stage == .run && j.gather == .idle && !noLists j then startRun s id else s

/-! ## What a completed read brings -/

/-- An entry of an indirect list arrives (R89, R101). -/
def entryArrives (s : State) (id i : Nat) (src : Bool) (b : Bytes) : State :=
  let j := s.job id
  let e := entryAt b 0
  if j.gather != (if src then .srcList i else .dstList i) then s
  else if e.len != 0 && entryBad b 0 then fail6 s id stDma 0x04
  else if src then
    let r := addEntry j.srcLen j.srcSegs e
    stepSrc (s.modJob id fun j => { j with srcSegs := r.1, trunc := j.trunc || r.2, open_ := [] }) id (i + 1)
  else
    let r := addEntry (jobOut s j) j.dstSegs e
    stepDst (s.modJob id fun j => { j with dstSegs := r.1, open_ := [] }) id (i + 1)

/-- Source bytes arrive, from the host or not; with the last of them the source is whole (R333). -/
def sourceArrives (s : State) (id off : Nat) (host : Bool) (b : Bytes) : State :=
  s.modJob id fun j =>
    let parts := tblPut j.parts off b
    let left := j.open_.filter (· != off)
    if left.isEmpty then
      { j with parts := [], hostParts := [], open_ := [], got := parts.flatMap (·.2), gather := .done }
    else { j with parts := parts, open_ := left, hostParts := if host then off :: j.hostParts else j.hostParts }

end Sys2Proof.Machine
end

