-- ==== Sys2Proof/Machine/Placing.lean ====
section
/-! DEFINITION. The dispatcher: what a queue offers, the order of R107, the choice of comb and lane,
shares, slices, preemption and fences (R104 to R120, R129, R150, R151, R358). -/

namespace Sys2Proof.Machine

/-! ## What a queue offers (R104, R105) -/

/-- The queues of a tenant as the dispatcher numbers them: ring queues by their number, the peer queue
of priority `n` as 16,384 + n. -/
def peerQueueBase : Nat := 16384

/-- The entries of a peer queue that have not been handed off, in SEQ order. -/
def peerOrder (s : State) (c n : Nat) : List Egress :=
  s.peer.order.filter fun e => e.client + 4096 == c && e.prio == n

/-- The oldest undispatched descriptor of a queue. -/
def queuePoint (s : State) (c q : Nat) : Option Nat :=
  if q < peerQueueBase then (s.queue c q).ready.head?
  else ((peerOrder s c (q - peerQueueBase)).find? fun e =>
    e.job != 0 && (s.job e.job).stage == .ready).map (·.job)

/-- The dispatched descriptors of a queue that hold reorder window positions (R115, R353). -/
def queueWindow (s : State) (c q : Nat) : List Nat :=
  if q < peerQueueBase then (s.queue c q).window
  else ((peerOrder s c (q - peerQueueBase)).filter fun e =>
    e.job == 0 || (s.job e.job).stage != .ready).map (·.job)

/-- The queue's state lets it offer (R67, R68); a queue that is being reset has nothing left to offer. Undispatched
descriptors lie below the stop point and the drain end. -/
def queueOffers (s : State) (c q : Nat) : Bool :=
  if q < peerQueueBase then
    let u := s.queue c q
    !u.resetting && (u.state == .active || u.state == .draining || (u.state == .stopped && u.stop != qerrBme))
  else true

def State.ended (s : State) (j : Nat) : Bool := !s.hasJob j || (s.job j).stage == .ended

/-- The conditions of R105 that concern the descriptor. -/
def mayOffer (s : State) (j : Job) (window : List Nat) : Bool :=
  window.length < 256
    && (!dFenceBefore j.desc || window.all s.ended)
    && window.all (fun w => s.ended w || dOp (s.job w).desc != some .fence)
    && (match j.ctxId with
        | none => true
        | some x => window.all fun w =>
            !((s.job w).ctxId == some x && (s.job w).live
              && ((s.job w).holdsCtx || (s.job w).stage == .key)))
    && (j.acct != .propolis || ((s.ks.ppQueues[dClass j.desc]?).getD []).length < 64)

/-- The job that a queue offers. -/
def offer (s : State) (c q : Nat) : Option Nat :=
  match queuePoint s c q with
  | none => none
  | some id => if queueOffers s c q && mayOffer s (s.job id) (queueWindow s c q) then some id else none

/-- The queues of a client that hold a descriptor, in ascending order. -/
def activeQueues (s : State) (c : Nat) : List Nat :=
  ((s.queuesOf c).filter fun q => !(s.queue c q).ready.isEmpty)
    ++ (if isFn c then [] else (List.range 8).map (peerQueueBase + ·))

/-- The jobs a client's queues offer for an account: pairs of queue and job. -/
def offers (s : State) (c : Nat) (a : Account) : List (Nat × Nat) :=
  (activeQueues s c).filterMap fun q =>
    match offer s c q with
    | some id => if (s.job id).acct == a then some (q, id) else none
    | none => none

/-- The resumable jobs of a client for an account. -/
def resumable (s : State) (c : Nat) (a : Account) : List Nat :=
  s.jobsWith fun j => j.client == c && j.acct == a && j.stage == .saved

/-! ## Placement (R113, R114, R150, R358) -/

/-- The job is an authenticated decryption that stages its output (R149). -/
def stagedDec (j : Job) : Bool :=
  match dOp j.desc with
  | some o => o.aeadDec && dOut o j.desc ≤ 262144
  | none => false

/-- The job is a saved one whose output is staged in its comb: it stays there (R119, R149). -/
def Job.pinned (j : Job) : Bool := j.stage == .saved && stagedDec j

/-- A comb where the dispatcher may place the job: ONLINE, or for a pinned saved job its own
(R426). -/
def combOpen (s : State) (j : Job) (c : Nat) : Bool :=
  if j.pinned then j.comb == some c && (s.comb c).mode != 4 else (s.comb c).mode == 1

/-- The jobs that hold a cell of a comb, lane jobs apart or alone. -/
def cellJobs (s : State) (c : Nat) (k : Cell) (lane : Bool) : Nat :=
  (s.jobsWith fun j => j.onCell && j.comb == some c && acctCell j.acct == some k && j.lane == lane).length

/-- The jobs in the setup and block stages of a cell. -/
def cellEntered (s : State) (c : Nat) (k : Cell) : Nat :=
  (s.jobsWith fun j => j.enters && j.comb == some c && acctCell j.acct == some k && !j.lane).length

/-- A cell is free (R113): a bulk or digest cell while its setup stage holds no job, whatever its block and finish
stages hold. -/
def cellFree (s : State) (c : Nat) (k : Cell) : Bool :=
  if k == .bulk || k == .digest then cellEntered s c k < 2 else cellJobs s c k false == 0

/-- Busy cells of a comb. -/
def busyCells (s : State) (c : Nat) : Nat :=
  ([Cell.bulk, .digest, .number, .lattice].filter fun k => cellJobs s c k false != 0).length

/-- The staged decryptions that hold pages on a comb (R165). -/
def stagedJobs (s : State) (comb : Nat) : Nat :=
  (s.jobsWith fun j => j.comb == some comb && j.live && j.pages != 0 && stagedDec j).length

/-- The staging pages a new job reserves (R150); in a lane it reserves none. -/
def needPages (j : Job) (lane : Bool) : Nat :=
  match dOp j.desc with
  | some o => if stagedDec j && !lane && j.stage == .ready then ceilDiv (dOut o j.desc) 2048 else 0
  | none => 0

/-- At most one placement per comb in 256 CCLK, which are 192 FCLK (R113). -/
def combPaced (s : State) (c : Nat) : Bool :=
  let t := tblGet 0 s.sch.placedAt c
  t == 0 || t + 192 ≤ s.hv.tick

/-- The context cache entry a job would find again. -/
def affinity (s : State) (id : Nat) : Option CacheEntry :=
  let j := s.job id
  if j.stage == .saved then some (.saved id)
  else j.ctxId.map fun x => .ctx (ctxKey j.client x)

/-- The choice of R113 among combs that are possible. -/
def bestComb (s : State) (id : Nat) (l : List Nat) : Option Nat :=
  let near := match affinity s id with
    | some e => l.filter fun c => (s.comb c).cache.contains e
    | none => []
  let l := if near.isEmpty then l else near
  let least := l.foldl (fun m c => min m (busyCells s c)) 4
  let l := l.filter fun c => busyCells s c == least
  match l.find? fun c => s.sch.lastComb ≤ c with
  | some c => some c
  | none => l.head?

/-- A LATENCY job of at most 2,048 bytes taken at step 1 goes to a lane of a bulk or digest cell
(R114). -/
def laneFor (s : State) (id : Nat) (k : Cell) (step : Nat) : Option Nat :=
  let j := s.job id
  if step = 1 && dClass j.desc = 0 && dMsg j.desc ≤ 2048 && (k == .bulk || k == .digest)
      && j.stage == .ready then
    let open_ := (List.range combCount).filter fun c => combOpen s j c && combPaced s c
    match bestComb s id (open_.filter fun c => cellJobs s c k true == 0) with
    | some c => some c
    | none => bestComb s id (open_.filter fun c => cellJobs s c k true == 1)
  else none

/-- The comb for a job that enters a cell like any other. -/
def cellFor (s : State) (id : Nat) (k : Cell) : Option Nat :=
  let j := s.job id
  bestComb s id ((List.range combCount).filter fun c =>
    combOpen s j c && combPaced s c && cellFree s c k && needPages j false ≤ freePages s c)

/-- Egress room of a peer job: its result and its output, in whole words (R358); one that failed at stage 3 has no
output (R353). The output of a key operation is measured on the tag as it stands. -/
def outRoom (s : State) (j : Job) : Nat :=
  let tag := fun (i : Nat) => match s.slotPos j.client i with | some p => (s.slot p).ktype | none => 0
  let n := match dOp j.desc with
    | some .keyWrap => (wrapLen (dSub j.desc) ((keyLen (tag (kbTarget j.desc))).getD 0)).getD 0
    | some .keyCheckValue => (checkValueLen (tag (dKeySlot j.desc))).getD 0
    | some .ctxExport => 280
    | some o => dOut o j.desc
    | none => 0
  if j.status != 0 then 64 else 64 + 64 * ceilDiv n 64

/-- Bytes of the egress buffer reserved. -/
def egressUsed (s : State) : Nat :=
  s.peer.order.foldl (fun a e => a + e.room) 0 + 64 * s.peer.notices.length

def egressFits (s : State) (j : Job) : Bool :=
  !(j.fromPeer && j.stage == .ready) || egressUsed s + outRoom s j ≤ 2097152

/-- Where a job would go at a step of R107: a comb and its lane, no comb for work that needs no cell,
and nothing where it must wait. -/
def placeOf (s : State) (id step : Nat) : Option (Option Nat × Bool) :=
  let j := s.job id
  if !egressFits s j then none
  else match acctCell j.acct with
    | none => some (none, false)
    | some k =>
      match laneFor s id k step with
      | some c => some (some c, true)
      | none => (cellFor s id k).map fun c => (some c, false)

/-! ## The order of R107 -/

/-- Engines of an account times the cycles of their clock in 1 µs (R106). -/
def capacity : Account → Nat
  | .propolis => 600
  | .none => 0
  | _ => combCount * 1600

def deficitOf (s : State) (t : Nat) (a : Account) (c : Nat) : Int :=
  tblGet 0 s.sch.deficit (defKey t (acctIndex a) c)

/-- The cap of R111 is not spent. -/
def capLeft (s : State) (a : Account) : Bool :=
  tblGet 0 s.sch.latUsed (acctIndex a) < s.sch.cfg.cap * capacity a / 256

/-- The guard of R111 lets a tenant through. -/
def guardPass (s : State) (t : Nat) (a : Account) : Bool :=
  let d := deficitOf s t a 1
  let q : Int := (tblGet 0 s.sch.credit (defKey t (acctIndex a) 1) : Nat)
  !(d < 0 && d ≤ -q)

/-- The weight of a tenant that is in force in this epoch (R112). -/
def weightNow (s : State) (t : Nat) : Nat := tblGet 0 s.sch.weight t

/-- A class is taken at a step, for a tenant; step 5 is cut into 5, 6 and 7 for its three classes. A tenant of weight
0 receives only step 5 work (R108). -/
def stepTakes (s : State) (t : Nat) (a : Account) (step cls : Nat) : Bool :=
  match step with
  | 1 => cls == 0 && weightNow s t != 0 && capLeft s a && guardPass s t a
  | 2 => cls ≤ 1 && weightNow s t != 0 && 0 < deficitOf s t a 1
  | 3 => cls == 2 && weightNow s t != 0 && 0 < deficitOf s t a 2
  | 4 => cls == 3 && weightNow s t != 0 && 0 < deficitOf s t a 3
  | 5 => cls ≤ 1
  | 6 => cls == 2
  | 7 => cls == 3
  | _ => false

/-- The first number at or after a pointer, else the first. -/
def rotate (p : Nat) (l : List Nat) : Option Nat :=
  match l.find? fun x => p ≤ x with
  | some x => some x
  | none => l.head?

/-- What the dispatcher chose: the tenant, the queue, the job, the step. -/
structure Choice where
  tenant : Nat
  queue  : Nat
  job    : Nat
  step   : Nat
deriving DecidableEq, Repr

/-- The queue a job came from, as the dispatcher numbers it. -/
def Job.queueNo (j : Job) : Nat :=
  match j.src with
  | .ring q _ => q
  | .peer p _ _ => peerQueueBase + p
  | .prov => 0

/-- A tenant's job at a step: a resumable one before a new descriptor, queues in rotation. -/
def tenantChoice (s : State) (a : Account) (step t : Nat) (ok : Nat → Nat → Bool) : Option Choice :=
  let good := fun id => stepTakes s t a step (dClass (s.job id).desc) && ok id step
  let pick := fun (l : List (Nat × Nat)) =>
    (rotate (tblGet 0 s.sch.rrQueue t) (l.map (·.1)).mergeSort).bind fun q =>
      (l.find? fun e => e.1 == q).map fun e => ({ tenant := t, queue := q, job := e.2, step := step } : Choice)
  match pick (((resumable s t a).filter good).map fun id => ((s.job id).queueNo, id)) with
  | some ch => some ch
  | none => pick ((offers s t a).filter fun e => good e.2)

/-- The pointer of a step and an account; the three parts of step 5 share one. -/
def rrKey (a : Account) (step : Nat) : Nat := acctIndex a * 8 + min step 5

/-- The first choice over the steps of a list, tenants in rotation. -/
def chooseAt (s : State) (a : Account) (ok : Nat → Nat → Bool) : List Nat → Option Choice
  | [] => none
  | st :: rest =>
    let l := s.clients.filter fun t => (tenantChoice s a st t ok).isSome
    match rotate (tblGet 0 s.sch.rrTenant (rrKey a st)) l with
    | some t => tenantChoice s a st t ok
    | none => chooseAt s a ok rest

/-- The next job of an account by R107, among the jobs that meet `ok`. -/
def choose (s : State) (a : Account) (ok : Nat → Nat → Bool) : Option Choice :=
  chooseAt s a ok [1, 2, 3, 4, 5, 6, 7]

/-! ## Dispatch -/

/-- The slots of a dispatched descriptor leave the descriptor cache (R53). -/
def dropSlots (s : State) (c q : Nat) (i : W32) (n : Nat) : State :=
  s.modQueue c q fun u =>
    { u with cache := u.cache.filter fun e => !decide (ringDist (BitVec.ofNat 32 e.1) i < n) }

/-- The descriptor passes from the queue's undispatched ones into its reorder window. -/
def enterWindow (s : State) (id : Nat) : State :=
  let j := s.job id
  match j.src with
  | .ring q i =>
    dropSlots (s.modQueue j.client q fun u =>
      { u with ready := u.ready.filter (· != id), window := u.window ++ [id] }) j.client q i (dSlots j.desc)
  | .peer .. =>
    { s with peer.order := s.peer.order.map fun e => if e.job == id then { e with room := outRoom s j } else e }
  | .prov => s

/-- The stage a job enters at dispatch: a stage-3 failure needs only its result; a key or a context is
judged at stage 5. -/
def firstStage (j : Job) : Stage :=
  match dOp j.desc with
  | none => .run
  | some o =>
    if j.status != 0 then .cellDone
    else if o != .keyInvalidate && (o.usesKey || dUsesCtx o j.desc) then .key
    else .run

/-- The slice of R116 for a class and a step. -/
def sliceOf (s : State) (cls step : Nat) : Nat :=
  (s.sch.cfg.slice[if cls = 0 && step != 1 then 1 else cls]?).getD 14

/-- The pointers, the comb's pace and the engine's input queue after a choice. -/
def noteChoice (s : State) (a : Account) (ch : Choice) (comb : Option Nat) : State :=
  let s := { s with
    sch.rrTenant := tblSet 0 s.sch.rrTenant (rrKey a ch.step) (ch.tenant + 1)
    sch.rrQueue := tblSet 0 s.sch.rrQueue ch.tenant (ch.queue + 1) }
  let s := match comb with
    | some c =>
      let n := s.sch.seats + 1
      { s with sch.lastComb := c + 1, sch.seats := n, sch.placedAt := tblSet 0 s.sch.placedAt c s.hv.tick }.modJob
        ch.job fun j => { j with seat := n, left := false }
    | none => s
  if a == .propolis then
    { s with ks.ppQueues := s.ks.ppQueues.mapIdx fun i (l : List Nat) =>
        if i = dClass (s.job ch.job).desc then l ++ [ch.job] else l }
  else s

/-- A new descriptor is dispatched: window, placement, slice and the 256 cycles of R109. -/
def dispatchNew (s : State) (ch : Choice) (comb : Option Nat) (lane : Bool) : State :=
  let j := s.job ch.job
  let cls := dClass j.desc
  let h := s.sync.h
  let uns := s.sync.state != 2
  let charged := ch.step ≤ 4 && j.acct != .none
  let s := enterWindow s ch.job
  let slice := sliceOf s cls ch.step
  let dem := s.sch.denied.contains ch.job && ch.step != 1
  let s := s.modJob ch.job fun j =>
    { j with
      comb := comb, lane := lane, step := ch.step, charged := charged, sliceLog2 := slice
      pages := needPages j lane, demoted := dem, stage := firstStage j
      tDone := if firstStage j == .run then h else j.tDone
      unsync := if firstStage j == .run then uns else j.unsync }
  let s := if dem then { s with sch.demoted := satAdd 0xFFFFFFFF s.sch.demoted 1 } else s
  let s := if charged then (chargeCycles s ch.job 256).modJob ch.job fun j => { j with credit := 256 } else s
  startIfRun s ch.job

/-- A saved job resumes (R110, R119): the restore takes 64 CCLK, and from the context store 400 FCLK before them,
which are charged as 534 CCLK (DESIGN CHOICE, log 58). A keyed job pulls its key again (R120). It was dispatched
before, so it counts in no SCH_LAT_DEMOTED again (R111). -/
def dispatchSaved (s : State) (ch : Choice) (comb : Option Nat) : State :=
  let j := s.job ch.job
  let near := match comb with | some c => (s.comb c).cache.contains (.saved ch.job) | none => false
  (cacheDrop s (.saved ch.job)).modJob ch.job fun x =>
    { x with
      comb := comb, step := ch.step, charged := ch.step ≤ 4 && j.acct != .none
      stage := if x.refs.isEmpty then .run else .key
      since := 0, base := x.sliced, inReserve := false
      extra := x.extra + (if near then 64 else 598) }

/-- The LATENCY jobs of an account that step 1 denies (R111). -/
def deniedNow (s : State) (a : Account) : List Nat :=
  s.clients.flatMap fun t =>
    if capLeft s a && guardPass s t a then []
    else ((offers s t a).map (·.2) ++ resumable s t a).filter fun id =>
      dClass (s.job id).desc == 0 && a != .none

/-- An engine of an account is free, and the dispatcher chooses the next job (R107). Work that reaches
no engine is taken when its queue offers it (R106). -/
def opJobDispatch (a : Account) (s : State) : State :=
  let s := { s with sch.denied := s.sch.denied ++ (deniedNow s a).filter fun id => !s.sch.denied.contains id }
  match (if s.hv.fclk then choose s a fun id st => (placeOf s id st).isSome else none) with
  | none => s
  | some ch =>
    match placeOf s ch.job ch.step with
    | none => s
    | some (comb, lane) =>
      let saved := (s.job ch.job).stage == .saved
      let s := noteChoice s a ch comb
      if saved then dispatchSaved s ch comb else dispatchNew s ch comb lane

def execJobDispatch (acct : Account) (s : State) : Host.Outcome State Fault Refusal :=
  .next (opJobDispatch acct s)

/-! ## Scheduling epochs (R108, R112) -/

def allAccounts : List Account := [.bulk, .digest, .number, .lattice, .propolis]

/-- W of a client: TN_SHARE.WEIGHT, or SCH_PEER_WEIGHT whose reset value is 1. -/
def weightOf (s : State) (t : Nat) : Nat :=
  if isFn t then (s.tenant t).weight else tblGet 1 s.sch.peerWeight (t - 4096)

/-- A tenant is backlogged in a class of an account; LATENCY counts as NORMAL. -/
def backlogged (s : State) (t : Nat) (a : Account) (cls : Nat) : Bool :=
  ((offers s t a).map (·.2) ++ resumable s t a).any fun id => (s.job id).chargeClass == cls

/-- The update of R108 in one account and class; no credit where every backlogged tenant has weight 0, so that there
is nothing to divide (DESIGN CHOICE, log 58). -/
def creditClass (a : Account) (cls : Nat) (s : State) : State :=
  let back := s.clients.filter fun t => backlogged s t a cls
  let sumw := back.foldl (fun n t => n + weightOf s t) 0
  s.each s.clients fun s t =>
    let k := defKey t (acctIndex a) cls
    if back.contains t then
      let q : Nat := if sumw = 0 then 0 else capacity a * weightOf s t / sumw
      { s with
        sch.deficit := tblSet 0 s.sch.deficit k (min (tblGet 0 s.sch.deficit k + q) q)
        sch.credit := tblSet 0 s.sch.credit k q }
    else
      { s with sch.deficit := tblSet 0 s.sch.deficit k 0, sch.credit := tblSet 0 s.sch.credit k 0 }

/-- A job has used cycles that are charged in the epoch in which they fall (R109): in the block stage of a bulk or
digest cell, in the propolis engine, on the way back from a save, or in what it did before its end, which has not come
yet. A number or lattice job is charged when it ends. -/
def chargedAsItRuns (s : State) (id : Nat) : Bool :=
  let j := s.job id
  let cell := j.acct == .bulk || j.acct == .digest
  match j.stage with
  | .run => (cell && inBlock s id) || (j.acct == .propolis && ppNext s == some id)
  | .key => cell && j.preempted
  | .cellDone => (cell || j.acct == .propolis) && j.record.isEmpty
  | _ => false

/-- Busy cycles of a running job since its last charge (R109). -/
def epochCharge (s : State) (e : Nat × Nat) : State :=
  if chargedAsItRuns s e.1 then
    (chargeBusy s e.1 e.2).modJob e.1 fun j => { j with busy := j.busy + e.2 }
  else s

/-- A scheduling epoch starts, 1,200 FCLK after the one before (R108, R111, R112, R131). The cycles that running
jobs have used so far fall into the epoch that ends (R109). -/
def opSchedulingEpochStart (busy : List (Nat × Nat)) (s : State) : State :=
  if !s.hv.fclk || s.hv.tick < s.sch.epochAt + 1200 then s
  else
    let s := s.each busy epochCharge
    let s := { s with
      sch.epoch := s.sch.epoch + 1, sch.epochAt := s.hv.tick, sch.latUsed := [], sch.denied := []
      sch.cfg := s.sch.waiting.getD s.sch.cfg, sch.waiting := none
      sch.weight := s.clients.foldl (fun t c => tblSet 0 t c (weightOf s c)) [] }
    s.each allAccounts fun s a => s.each [1, 2, 3] fun s cls => creditClass a cls s

def execSchedulingEpochStart (busy : List (Nat × Nat)) (s : State) : Host.Outcome State Fault Refusal :=
  .next (opSchedulingEpochStart busy s)

/-! ## Slice boundaries (R116 to R118, R151) -/

/-- Source bytes before the message: additional data, or the header of a record or packet. -/
def msgAt (o : Op) (d : Bytes) : Nat :=
  match o with
  | .tls13RecOpen => 5
  | .espOpen => 16
  | _ => if o.hasAad && o != .tls13RecSeal && o != .espSeal then dAad d else 0

/-- Bytes that the cell puts before the additional data in their first block: CCM's length (R137). -/
def aadPre (o : Op) (n : Nat) : Nat :=
  if (o == .aesCcmEnc || o == .aesCcmDec) && n != 0 then (if n < 65280 then 2 else 6) else 0

/-- Source bytes before the tag that follows the message. -/
def msgEnd (o : Op) (d : Bytes) : Nat :=
  match o with
  | .tls13RecOpen => dL o d - 16
  | .espOpen | .aesGcmDec | .aesCcmDec | .chachaPolyDec => dL o d - dT d
  | .aesGmac => dMsg d
  | _ => dL o d

/-- The first boundary of the algorithm's block at or after byte `x` of one pass over the source: blocks of the
additional data, whose last is padded, then whole blocks of the message; none where only a part of a block is left
(R116). -/
def blockEnd (o : Op) (d : Bytes) (x : Nat) : Option Nat :=
  let b := max 1 (streamBlock o (dAlg d))
  let a := msgAt o d
  let y := a + ceilDiv (x - a) b * b
  if x ≤ a then some (min a (ceilDiv (x + aadPre o a) b * b - aadPre o a))
  else if y ≤ msgEnd o d then some y else none

/-- Source bytes the job has received, those of a first pass included (R152). -/
def Job.received (j : Job) : Nat :=
  (if j.pass2 then j.srcLen else 0) + j.got.length + j.parts.foldl (fun a e => a + e.2.length) 0

/-- Source bytes the job consumes in all: twice L in two passes. -/
def Job.consumes (j : Job) (o : Op) : Nat :=
  if o.aeadDec && 262144 < dOut o j.desc then 2 * dL o j.desc else dL o j.desc

/-- The next slice boundary of a running job, none where it reaches no further one; the second pass counts on from the
first (R116, R152). -/
def nextBoundary (j : Job) (o : Op) : Option Nat :=
  let x := j.base + (j.since + 1) * 2 ^ j.sliceLog2
  let l := dL o j.desc
  match (if x ≤ l then blockEnd o j.desc x else none) with
  | some y => some y
  | none => if j.consumes o = l then none else (blockEnd o j.desc (max 1 (x - l))).map (l + ·)

/-- A page of the comb's staging buffer is there for the job's output: one it has reserved, or a free one; a decryption
in a lane has the lane's own buffer. The first of two passes puts nothing out (R149, R150, R152). -/
def pageReady (s : State) (j : Job) (o : Op) : Bool :=
  match j.comb with
  | none => true
  | some c =>
    (j.lane && stagedDec j) || j.pages != 0 || jobOut s j = 0 || (j.consumes o != dL o j.desc && !j.pass2)
      || freePages s c != 0

/-- The latency lane of the job's cell holds a block ready, and takes every issue cycle (R23). -/
def laneHolds (s : State) (id : Nat) : Bool :=
  let j := s.job id
  !j.lane && (acctCell j.acct).isSome && s.jobs.any fun e =>
    e.2.lane && e.2.stage == .run && e.2.gather == .done && e.2.comb == j.comb
      && acctCell e.2.acct == acctCell j.acct
      && ((dOp e.2.desc).map fun o => pageReady s e.2 o).getD false

/-- The output of the bytes before boundary `at_` has found pages; a digest cell and GMAC put nothing out before their
end, and additional data gives none (R150). -/
def outputPassed (s : State) (j : Job) (o : Op) (at_ : Nat) : Bool :=
  j.acct == .digest || o == .aesGmac || at_ ≤ msgAt o j.desc || pageReady s j o

/-- The rank of a job's class; a LATENCY job not taken at step 1 ranks as NORMAL. -/
def rankOf (cls step : Nat) : Nat := if cls = 0 && step != 1 then 1 else cls

/-- The job that would take the cell, where R117 lets it. One that could go to a lane has a free place, one without room
in the egress buffer could not be placed (R114, R358). On a comb that takes no new job there is none but a pinned saved
job, and only for a job that is pinned there itself: any other that runs there ends there (R426). -/
def successor (s : State) (j : Job) (comb : Nat) (k : Cell) : Option Choice :=
  match choose s j.acct fun id _ => egressFits s (s.job id) with
  | none => none
  | some ch =>
    let n := s.job ch.job
    if (n.client != j.client || n.queueNo != j.queueNo)
        && rankOf (dClass n.desc) ch.step ≤ rankOf (dClass j.desc) j.step
        && (List.range combCount).all (fun c => !((s.comb c).mode == 1 && cellFree s c k))
        && (laneFor s ch.job k ch.step).isNone
        && combOpen s n comb && ((s.comb comb).mode == 1 || stagedDec j)
        && needPages n false ≤ freePages s comb then some ch
    else none

/-- The pages rule of R151 for a staged decryption. -/
def pagesAllow (s : State) (j : Job) (ch : Choice) : Bool :=
  match j.comb with
  | none => false
  | some c => !stagedDec j || 8 + needPages (s.job ch.job) false ≤ freePages s c

/-- The job is saved, and its cell is free for another; the key is not part of the saved state (R120). -/
def saveJob (s : State) (id comb : Nat) : State :=
  let s := placeSaved s id comb
  let s := { s with sch.preempts := satAdd 0xFFFFFFFF s.sch.preempts 1 }
  s.modJob id fun j =>
    { j with stage := .saved, preempted := true, keyMat := [], keyShare := [], extra := j.extra + 64 }

/-- The chosen job takes the cell of the job that was saved for it (R117). Where the comb took a job within the last 256
CCLK, its next placement counts from the end of those (R113; log 58). -/
def takeOver (s : State) (a : Account) (ch : Choice) (comb : Nat) : State :=
  let last := tblGet 0 s.sch.placedAt comb
  let at_ := if last = 0 then s.hv.tick else max s.hv.tick (last + 192)
  let saved := (s.job ch.job).stage == .saved
  let s := noteChoice s a ch (some comb)
  let s := { s with sch.placedAt := tblSet 0 s.sch.placedAt comb at_ }
  if saved then dispatchSaved s ch (some comb) else dispatchNew s ch (some comb) false

/-- A running job reaches a slice boundary, `busy` cycles after the last charge: it runs on, or it is saved and the next
job takes its cell. -/
def opSliceBoundary (id busy : Nat) (s : State) : State :=
  let j := s.job id
  match (dOp j.desc).bind fun o => (nextBoundary j o).map fun b => (o, b), j.comb, acctCell j.acct with
  | some (o, at_), some comb, some k =>
    if !s.hv.cclk || j.stage != .run || j.lane || j.fromPeer || !(k == .bulk || k == .digest)
        || !inBlock s id || laneHolds s id || j.received < at_ || !outputPassed s j o at_ then s
    else
      let s := chargeBusy s id busy
      let s := s.modJob id fun j => { j with sliced := at_, since := j.since + 1, busy := j.busy + busy }
      match successor s (s.job id) comb k with
      | none => s
      | some ch =>
        if !pagesAllow s (s.job id) ch then s
        else if !canSave s comb then { s with sch.nosave := satAdd 0xFFFFFFFF s.sch.nosave 1 }
        else takeOver (saveJob s id comb) (s.job id).acct ch comb
  | _, _, _ => s

def execSliceBoundary (job busy : Nat) (s : State) : Host.Outcome State Fault Refusal :=
  .next (opSliceBoundary job busy s)

/-! ## NOP, STAMP and FENCE (R82, R129, R259) -/

/-- The clock of an account's engine runs (R33). -/
def clockOn (s : State) (a : Account) : Bool :=
  match a with
  | .propolis => s.hv.kclk
  | .none => s.hv.fclk
  | _ => s.hv.cclk

/-- The job runs and has the opcode. -/
def State.runs (s : State) (id : Nat) (o : Op) : Bool :=
  s.hasJob id && (s.job id).stage == .run && dOp (s.job id).desc == some o && clockOn s (s.job id).acct

/-- NOP and STAMP end OK with the stamp of their dispatch (R258). -/
def endMark (s : State) (id : Nat) : State :=
  let j := s.job id
  (decide7 s id stOk 0).modJob id fun x => { x with noComb := true, tDone := j.tDone, unsync := j.unsync }

def opNop (id : Nat) (s : State) : State := if s.runs id .nop then endMark s id else s

def execNop (job : Nat) (s : State) : Host.Outcome State Fault Refusal := .next (opNop job s)

def opStamp (id : Nat) (s : State) : State := if s.runs id .stamp then endMark s id else s

def execStamp (job : Nat) (s : State) : Host.Outcome State Fault Refusal := .next (opStamp job s)

/-- A FENCE ends OK. -/
def endFence (s : State) (id : Nat) : State :=
  (decide7 s id stOk 0).modJob id fun x => { x with noComb := true, waits := [] }

/-- A FENCE in force drops the recorded jobs that have ended (R129), and ends when none is left. -/
def opFence (id : Nat) (s : State) : State :=
  if s.runs id .fence then
    let left := (s.job id).waits.filter fun j => !s.ended j
    if left.isEmpty then endFence s id else s.modJob id fun j => { j with waits := left }
  else s

def execFence (job : Nat) (s : State) : Host.Outcome State Fault Refusal := .next (opFence job s)

/-- Every recorded job has ended. -/
def opFenceEnd (id : Nat) (s : State) : State :=
  if s.runs id .fence && (s.job id).waits.all s.ended then endFence s id else s

def execFenceEnd (job : Nat) (s : State) : Host.Outcome State Fault Refusal :=
  .next (onClock s.hv.fclk s (opFenceEnd job))

end Sys2Proof.Machine
end

