-- ==== Sys2Proof/Machine/Cells.lean ====
section
/-! DEFINITION. What every cell does with a job whose source is whole: it takes the stream's state,
decides the job's status, and leaves the stream's next state (R29, R98, R122). -/

namespace Sys2Proof.Machine

/-- What a cell makes of a job: status, DETAIL, OP_INFO, output, digest, block-stage cycles (R109,
R163) and the next state of a stream. -/
structure CellOut where
  status : Status := stOk
  detail : BitVec 8 := 0
  opInfo : Nat := 0
  output : Bytes := []
  digest : Bytes := []
  cycles : Nat := 0
  ctx    : Option Ctx := none
deriving DecidableEq, Repr

/-- A failure of the cell without output. -/
def cellFail (st : Status) (detail : BitVec 8) : CellOut := { status := st, detail := detail }

/-- The job runs, has the opcode, is in the block stage of its cell, the lane leaves it the cell, its source is whole,
and its output finds a page: otherwise the cell stalls and loses nothing (R22, R23, R150). -/
def State.ready (s : State) (id : Nat) (o : Op) : Bool :=
  s.runs id o && (s.job id).gather == .done && inBlock s id && !laneHolds s id
    && pageReady s (s.job id) o

/-- The stream's state before the job: of its context, or a fresh one. -/
def streamOf (s : State) (j : Job) (o : Op) : Ctx :=
  if dStream o j.desc then s.ctx j.client (dCtx j.desc)
  else
    { nonce := j.nonce.getD (ivBytes j.desc)
      s := if o == .kmac then slice j.desc 64 (dSLen j.desc) else [] }

/-- The pages that the output of a job holds when `n` bytes of it are there and `w` of them have left: those it has
reserved, else of the pages that are free or its own as many as the rest fills (R150). A decryption in a lane holds
none (R149). -/
def outPages (s : State) (j : Job) (n w : Nat) : Nat :=
  match j.comb with
  | none => 0
  | some c =>
    if stagedDec j then j.pages else min (ceilDiv n 2048 - w / 2048) (freePages s c + j.pages)

/-- What is left of the output takes pages, and with all of it there or gone the job leaves its cell. -/
def drainCell (s : State) (id : Nat) : State :=
  let j := s.job id
  let n := outPages s j j.output.length j.written
  let s := s.modJob id fun j => { j with pages := n }
  if j.output.length - j.written / 2048 * 2048 ≤ 2048 * n then leaveCell s id else s

/-- The cell reports its status: JOB_END ends the job. -/
def finishCell (s : State) (id : Nat) (r : CellOut) : State :=
  let j := s.job id
  let s := drainCell ((decide7 s id r.status r.detail).modJob id fun x =>
    { x with opInfo := r.opInfo, output := r.output, digest := r.digest, cycles := x.cycles + r.cycles }) id
  match r.ctx with
  | some k =>
    if j.holdsCtx then
      s.modCtx j.client (dCtx j.desc) fun x => { x with chain := k.chain, done := k.done, aad := k.aad }
    else s
  | none => s

/-- A cell's operation: nothing happens unless the job runs, has the opcode and has its source. -/
def runCell (o : Op) (f : Job → Ctx → CellOut) (id : Nat) (s : State) : State :=
  if s.ready id o then finishCell s id (f (s.job id) (streamOf s (s.job id) o)) else s

/-- The comb of a job. -/
def Job.on (j : Job) : Nat := j.comb.getD 0

/-- The job's comb has no seed (R160). -/
def seedFail (s : State) (id : Nat) : State := fail6 s id stPoison 0x81

/-- Where the DRBG was reseeded between two states, the job of the bulk cell that asked waited for the seed: busy
cycles whose number the spec does not fix, a free value (R160; log 71). -/
def seedWaited (s t : State) (id : Nat) : State :=
  if t.trngN = s.trngN || (s.job id).acct != .bulk then t
  else
    let n := Config.seedWait t.freeN
    { t.modJob id fun j => { j with cycles := j.cycles + n } with freeN := t.freeN + 1 }

/-- The comb's DRBG serves a job, or the job fails (R158, R160). -/
def withSeed (s : State) (id : Nat) (pr : Bool) (draw : State → Nat → Bytes × State) (f : Bytes → State → State) :
    State :=
  let c := (s.job id).on
  match drbgReady s c pr with
  | none => seedFail s id
  | some t =>
    let r := draw (seedWaited s t id) c
    f r.1 r.2

/-- The job draws values of these lengths and nothing else, each by a generate request of its own (R158; log 60). -/
def withDrbg (s : State) (id : Nat) (ns : List Nat) (f : Bytes → State → State) : State :=
  withSeed s id false (fun t c => drbgGenerates t c ns) f

/-- The job draws `n` bytes beside its blinding values (R203). -/
def withDraw (s : State) (id n : Nat) (f : Bytes → State → State) : State :=
  withSeed s id false (fun t c => drawFree t c n) f

/-- The fault check of R204 fails: POISON, nothing is written, the comb is faulted. -/
def faultCheck (s : State) (id cycles : Nat) : State :=
  let j := s.job id
  let s := combCount1 s j.on 0xFFFFFFFF (·.pkFault) fun b v => { b with pkFault := v }
  let s := combFault s j.on (acctCell j.acct) (BitVec.ofNat 32 (dCode j.desc + j.client * 65536))
  finishCell s id { status := stPoison, detail := 0x80, cycles := cycles }

/-- The reserved run becomes the new key, whose material goes over the key lane in two shares (R208, R221, R233); the
output is written only when it did. -/
def commitKey (s : State) (id : Nat) (mat out : Bytes) (cycles : Nat) : State :=
  let r := commitRun s (s.job id).reserved mat
  let n := s.freeN
  let s := { r.2.modJob id fun j =>
      { j with reserved := [], lane2 := fit (Config.laneShare n mat.length) mat.length } with freeN := n + 1 }
  if r.1 then finishCell s id { output := out, cycles := cycles }
  else finishCell s id { status := stOrphaned, detail := 0x02, cycles := cycles }

/-- Busy cycles of an operation whose exact count the spec does not list, at most `c` (R209). -/
def atMost (c key : Nat) : Nat := min c (Config.openCycles key)

end Sys2Proof.Machine
end

