-- ==== Sys2Proof/Machine/Bulk.lean ====
section
/-! DEFINITION. The bulk cell: ciphers, authenticated ciphers, record helpers and random numbers
(R133 to R163). -/

namespace Sys2Proof.Machine

/-! ## Cycles of the block stage (R163) -/

/-- Blocks of `n` bytes, `per` cycles each. -/
def blocks (per size n : Nat) : Nat := per * ceilDiv n size

/-- CBC encryption and CCM chain their blocks. -/
def chainCycles (alg : Nat) : Nat := if alg = 1 then 24 else if alg = 2 then 28 else 32

/-- Additional data and message fill blocks of their own. -/
def gcmCycles (aad msg : Nat) : Nat := blocks 4 16 aad + blocks 4 16 msg

/-- The block cycles of a TLS record or an ESP packet, by the table of its cipher. ChaCha20-Poly1305 counts its
additional data and its message as one run of 64-byte blocks (DESIGN CHOICE, log 62). -/
def aeadCycles (alg aad msg : Nat) : Nat :=
  if alg = 4 then blocks 16 64 (aad + msg) else gcmCycles aad msg

/-! ## Authenticated encryption (R134, R136 to R138, R142) -/

/-- The additional data and the message of a source. -/
def srcAad (j : Job) : Bytes := j.got.take (dAad j.desc)
def srcMsg (j : Job) : Bytes := slice j.got (dAad j.desc) (dMsg j.desc)

def gcmEncCell (j : Job) (k : Ctx) : CellOut :=
  let d := j.desc
  let key := j.keyMat
  let j0 := gcmJ0 key k.nonce
  let ct := gcmMask key j0 k.done (srcMsg j)
  let y := gcmHash key (if k.chain.isEmpty then gcmAad key (srcAad j) else k.chain) ct
  let aad := k.aad + dAad d
  let done := k.done + dMsg d
  { output := ct ++ (if dFinal .aesGcmEnc d then (gcmTag key j0 y aad done).take (dT d) else [])
    cycles := gcmCycles (dAad d) (dMsg d)
    ctx := some { k with chain := y, aad := aad, done := done } }

def opAesGcmEnc (id : Nat) (s : State) : State := runCell .aesGcmEnc gcmEncCell id s

def execAesGcmEnc (job : Nat) (s : State) : Host.Outcome State Fault Refusal := .next (opAesGcmEnc job s)

/-- ChaCha20-Poly1305 counts its additional data and its message as one run of 64-byte blocks: the table does not
say which blocks count (DESIGN CHOICE, log 62). -/
def chachaEncCell (j : Job) (k : Ctx) : CellOut :=
  let d := j.desc
  let otk := polyOtk j.keyMat k.nonce
  let ct := chachaMask j.keyMat k.nonce (1 + k.done / 64) (srcMsg j)
  let st := if k.chain.isEmpty then polyBlocks otk (zeros 17) (srcAad j) else k.chain
  let st := polyBlocks otk st ct
  let aad := k.aad + dAad d
  let done := k.done + dMsg d
  { output := ct ++ (if dFinal .chachaPolyEnc d then (polyTag otk st aad done).take (dT d) else [])
    cycles := blocks 16 64 (dAad d + dMsg d)
    ctx := some { k with chain := st, aad := aad, done := done } }

def opChachaPolyEnc (id : Nat) (s : State) : State := runCell .chachaPolyEnc chachaEncCell id s

def execChachaPolyEnc (job : Nat) (s : State) : Host.Outcome State Fault Refusal :=
  .next (opChachaPolyEnc job s)

/-- CCM counts the blocks of its additional data and of its message, and neither B0 nor the block of lengths: the
table does not say which blocks count (DESIGN CHOICE, log 62). -/
def ccmEncCell (j : Job) (k : Ctx) : CellOut :=
  let d := j.desc
  let r := ccmEnc j.keyMat k.nonce (srcAad j) (srcMsg j) (dT d)
  { output := r.1 ++ r.2
    cycles := blocks (chainCycles (dAlg d)) 16 (dAad d) + blocks (chainCycles (dAlg d)) 16 (dMsg d) }

def opAesCcmEnc (id : Nat) (s : State) : State := runCell .aesCcmEnc ccmEncCell id s

def execAesCcmEnc (job : Nat) (s : State) : Host.Outcome State Fault Refusal := .next (opAesCcmEnc job s)

/-- AES_GMAC: the data is the additional data of an empty message (R136). -/
def gmacCell (j : Job) (k : Ctx) : CellOut :=
  let d := j.desc
  let key := j.keyMat
  let done := k.done + dMsg d
  let y := gcmHash key (if k.chain.isEmpty then zeros 16 else k.chain) (j.got.take (dMsg d))
  let tag := (gcmTag key (gcmJ0 key k.nonce) y done 0).take (dT d)
  let cyc := blocks 4 16 (dMsg d)
  let next := some { k with chain := y, done := done }
  if !dFinal .aesGmac d then { cycles := cyc, ctx := next }
  else if dVerify d then
    { status := if tag == slice j.got (dMsg d) (dT d) then stOk else stAuthFail, cycles := cyc, ctx := next }
  else { output := tag, cycles := cyc, ctx := next }

def opAesGmac (id : Nat) (s : State) : State := runCell .aesGmac gmacCell id s

def execAesGmac (job : Nat) (s : State) : Host.Outcome State Fault Refusal := .next (opAesGmac job s)

/-! ## Authenticated decryption (R149 to R153) -/

/-- A decryption before its tag is judged: plaintext, tag computed, tag received, cycles of one pass. -/
structure Opened where
  plain  : Bytes := []
  tag    : Bytes := []
  want   : Bytes := []
  cycles : Nat := 0
deriving DecidableEq, Repr

/-- The staged and two-pass outcomes. `post` judges a plaintext whose tag matched. A decryption that ends before its
tag of pass 1 is judged counts as no two-pass one (DESIGN CHOICE, log 62). -/
def runDec (o : Op) (f : State → Job → Opened) (head : State → Job → Option CellOut)
    (post : Job → Bytes → CellOut) (id : Nat) (s : State) : State :=
  let j := s.job id
  if !s.ready id o then s
  else match head s j with
    | some r => finishCell s id r
    | none =>
      let r := f s j
      let two := decide (262144 < dOut o j.desc)
      if j.pass2 then
        finishCell s id { status := if r.tag == j.pass1Tag then stOk else stAuthFail
                          opInfo := if r.tag == j.pass1Tag then 0 else 2
                          output := r.plain, cycles := r.cycles }
      else if r.tag != r.want then
        (finishCell s id { status := stAuthFail, opInfo := 1, cycles := r.cycles }).modJob id fun j =>
          { j with twoPass := two }
      else if two then
        readSource (s.modJob id fun j =>
          { j with twoPass := true, pass2 := true, pass1Tag := r.tag, cycles := j.cycles + r.cycles }) id
      else
        let c := post j r.plain
        finishCell s id { c with cycles := r.cycles }

def noHead (_ : State) (_ : Job) : Option CellOut := none
def plainOut (_ : Job) (p : Bytes) : CellOut := { output := p }

/-- The tag that follows the message in the source. -/
def srcTag (j : Job) : Bytes := slice j.got (dAad j.desc + dMsg j.desc) (dT j.desc)

def gcmOpen (_ : State) (j : Job) : Opened :=
  let d := j.desc
  let r := gcmDec j.keyMat (ivBytes d) (srcAad j) (srcMsg j)
  { plain := r.1, tag := r.2.take (dT d), want := srcTag j, cycles := gcmCycles (dAad d) (dMsg d) }

def opAesGcmDec (id : Nat) (s : State) : State := runDec .aesGcmDec gcmOpen noHead plainOut id s

def execAesGcmDec (job : Nat) (s : State) : Host.Outcome State Fault Refusal := .next (opAesGcmDec job s)

def ccmOpen (_ : State) (j : Job) : Opened :=
  let d := j.desc
  let r := ccmDec j.keyMat (ivBytes d) (srcAad j) (srcMsg j) (dT d)
  { plain := r.1, tag := r.2, want := srcTag j
    cycles := blocks (chainCycles (dAlg d)) 16 (dAad d) + blocks (chainCycles (dAlg d)) 16 (dMsg d) }

def opAesCcmDec (id : Nat) (s : State) : State := runDec .aesCcmDec ccmOpen noHead plainOut id s

def execAesCcmDec (job : Nat) (s : State) : Host.Outcome State Fault Refusal := .next (opAesCcmDec job s)

def chachaOpen (_ : State) (j : Job) : Opened :=
  let d := j.desc
  let r := chachaDec j.keyMat (ivBytes d) (srcAad j) (srcMsg j)
  { plain := r.1, tag := r.2.take (dT d), want := srcTag j
    cycles := blocks 16 64 (dAad d + dMsg d) }

def opChachaPolyDec (id : Nat) (s : State) : State := runDec .chachaPolyDec chachaOpen noHead plainOut id s

def execChachaPolyDec (job : Nat) (s : State) : Host.Outcome State Fault Refusal :=
  .next (opChachaPolyDec job s)

/-! ## CBC, CTR, XTS (R139 to R142) -/

/-- The chaining block before the job. -/
def cbcIv (k : Ctx) : Bytes := if k.chain.isEmpty then k.nonce else k.chain

/-- The last block of a byte string, or the block before it. -/
def lastBlock (b before : Bytes) : Bytes := if b.isEmpty then before else b.drop (b.length - 16)

def cbcEncCell (j : Job) (k : Ctx) : CellOut :=
  let d := j.desc
  let pt := j.got ++ (if dPad d then pkcs7 (dMsg d) else [])
  let ct := cbcEnc (aesKeys j.keyMat) (cbcIv k) (chunks 16 pt)
  { output := ct, cycles := blocks (chainCycles (dAlg d)) 16 ct.length
    ctx := some { k with chain := lastBlock ct (cbcIv k), done := k.done + dMsg d } }

def opAesCbcEnc (id : Nat) (s : State) : State := runCell .aesCbcEnc cbcEncCell id s

def execAesCbcEnc (job : Nat) (s : State) : Host.Outcome State Fault Refusal := .next (opAesCbcEnc job s)

/-- With PAD the last block is held and judged (R141). -/
def cbcDecCell (j : Job) (k : Ctx) : CellOut :=
  let d := j.desc
  let pt := cbcDec (aesKeys j.keyMat) (cbcIv k) (chunks 16 j.got)
  let cyc := blocks 4 16 (dMsg d)
  let next := some { k with chain := lastBlock j.got (cbcIv k), done := k.done + dMsg d }
  if dPad d then
    match pkcs7Len (pt.drop (pt.length - 16)) with
    | some p => { output := pt.take (pt.length - p), opInfo := p, cycles := cyc, ctx := next }
    | none =>
      { status := stRange, detail := 0x80, output := pt.take (pt.length - 16), cycles := cyc, ctx := next }
  else { output := pt, cycles := cyc, ctx := next }

def opAesCbcDec (id : Nat) (s : State) : State := runCell .aesCbcDec cbcDecCell id s

def execAesCbcDec (job : Nat) (s : State) : Host.Outcome State Fault Refusal := .next (opAesCbcDec job s)

def ctrCell (j : Job) (k : Ctx) : CellOut :=
  { output := ctrMask (aesKeys j.keyMat) ctrAdd (ctrAdd k.nonce (k.done / 16)) j.got
    cycles := blocks 4 16 (dMsg j.desc)
    ctx := some { k with done := k.done + dMsg j.desc } }

def opAesCtr (id : Nat) (s : State) : State := runCell .aesCtr ctrCell id s

def execAesCtr (job : Nat) (s : State) : Host.Outcome State Fault Refusal := .next (opAesCtr job s)

def xtsCell (enc : Bool) (j : Job) (_ : Ctx) : CellOut :=
  { output := xts enc j.keyMat (ivBytes j.desc) (2 ^ (dDu j.desc + 9)) j.got
    cycles := blocks 4 16 (dMsg j.desc) }

def opAesXtsEnc (id : Nat) (s : State) : State := runCell .aesXtsEnc (xtsCell true) id s

def execAesXtsEnc (job : Nat) (s : State) : Host.Outcome State Fault Refusal := .next (opAesXtsEnc job s)

def opAesXtsDec (id : Nat) (s : State) : State := runCell .aesXtsDec (xtsCell false) id s

def execAesXtsDec (job : Nat) (s : State) : Host.Outcome State Fault Refusal := .next (opAesXtsDec job s)

/-! ## TLS 1.3 records (R154, R155) -/

/-- The authenticated cipher of the helpers: ALG 0x04 is ChaCha20-Poly1305. -/
def aeadEnc (alg : Nat) (key nonce aad pt : Bytes) : Bytes × Bytes :=
  if alg = 4 then chachaEnc key nonce aad pt else gcmEnc key nonce aad pt
def aeadDec (alg : Nat) (key nonce aad ct : Bytes) : Bytes × Bytes :=
  if alg = 4 then chachaDec key nonce aad ct else gcmDec key nonce aad ct

def tlsNonce (d : Bytes) : Bytes := xorB (slice (dBlock d) 0 12) (zeros 4 ++ natBe 8 (tlsSeq d))

def tlsHeader (n : Nat) : Bytes := [0x17, 0x03, 0x03] ++ natBe 2 n

def tlsSealCell (j : Job) (_ : Ctx) : CellOut :=
  let d := j.desc
  let inner := j.got ++ [BitVec.ofNat 8 (tlsInner d)] ++ zeros (tlsPad d)
  let head := tlsHeader (inner.length + 16)
  let r := aeadEnc (dAlg d) j.keyMat (tlsNonce d) head inner
  { output := head ++ r.1 ++ r.2, cycles := aeadCycles (dAlg d) 5 inner.length }

def opTls13RecSeal (id : Nat) (s : State) : State := runCell .tls13RecSeal tlsSealCell id s

def execTls13RecSeal (job : Nat) (s : State) : Host.Outcome State Fault Refusal :=
  .next (opTls13RecSeal job s)

def tlsHead (_ : State) (j : Job) : Option CellOut :=
  if j.got.take 5 == tlsHeader (dMsg j.desc) then none else some (cellFail stRange 0x82)

def tlsOpen (_ : State) (j : Job) : Opened :=
  let d := j.desc
  let n := dMsg d - 16
  let r := aeadDec (dAlg d) j.keyMat (tlsNonce d) (j.got.take 5) (slice j.got 5 n)
  { plain := r.1, tag := r.2, want := slice j.got (5 + n) 16, cycles := aeadCycles (dAlg d) 5 n }

/-- The offset of the last non-zero byte is the content length. -/
def tlsPost (_ : Job) (p : Bytes) : CellOut :=
  let z := (p.reverse.takeWhile (· == 0)).length
  if z = p.length then { status := stRange, detail := 0x81, output := p }
  else { output := p, opInfo := p.length - z - 1 }

def opTls13RecOpen (id : Nat) (s : State) : State := runDec .tls13RecOpen tlsOpen tlsHead tlsPost id s

def execTls13RecOpen (job : Nat) (s : State) : Host.Outcome State Fault Refusal :=
  .next (opTls13RecOpen job s)

/-! ## ESP packets (R156, R157) -/

def espAad (d : Bytes) : Bytes := natBe 4 (espSpi d) ++ natBe 8 (espSeq d)

/-- The bytes 0x01, 0x02, …. -/
def espPad (n : Nat) : Bytes := (List.range n).map fun i => BitVec.ofNat 8 (i + 1)

def espSealCell (j : Job) (k : Ctx) : CellOut :=
  let d := j.desc
  let p := espPadOf (dMsg d) (espAlign d)
  let pt := j.got ++ espPad p ++ [BitVec.ofNat 8 p, BitVec.ofNat 8 (espNext d)]
  let r := aeadEnc (dAlg d) j.keyMat k.nonce (espAad d) pt
  { output := natBe 4 (espSpi d) ++ natBe 4 (espSeq d) ++ k.nonce.drop 4 ++ r.1 ++ r.2.take (dT d)
    cycles := aeadCycles (dAlg d) 12 pt.length }

def opEspSeal (id : Nat) (s : State) : State := runCell .espSeal espSealCell id s

def execEspSeal (job : Nat) (s : State) : Host.Outcome State Fault Refusal := .next (opEspSeal job s)

def espHead (_ : State) (j : Job) : Option CellOut :=
  let d := j.desc
  if beNat (j.got.take 4) == espSpi d && beNat (slice j.got 4 4) == espSeq d % 2 ^ 32 then none
  else some (cellFail stRange 0x82)

def espOpenOf (s : State) (j : Job) : Opened :=
  let d := j.desc
  let n := dMsg d - dT d
  let salt := if dIvLen d = 0 then natBe 4 (bits (s.slot j.keyPos).policy.toNat 63 32) else ivBytes d
  let r := aeadDec (dAlg d) j.keyMat (salt ++ slice j.got 8 8) (espAad d) (slice j.got 16 n)
  { plain := r.1, tag := r.2.take (dT d), want := slice j.got (16 + n) (dT d)
    cycles := aeadCycles (dAlg d) 12 n }

/-- The trailer of a packet: padding, its length, next header. -/
def espPost (_ : Job) (b : Bytes) : CellOut :=
  let n := b.length
  let p := (b.getD (n - 2) 0).toNat
  if n - 2 < p || slice b (n - 2 - p) p != espPad p then { status := stRange, detail := 0x84, output := b }
  else { output := b, opInfo := n - 2 - p }

def opEspOpen (id : Nat) (s : State) : State := runDec .espOpen espOpenOf espHead espPost id s

def execEspOpen (job : Nat) (s : State) : Host.Outcome State Fault Refusal := .next (opEspOpen job s)

/-! ## RANDOM (R159 to R161) -/

def opRandom (id : Nat) (s : State) : State :=
  let j := s.job id
  let n := dMsg j.desc
  if !s.ready id .random then s
  else withSeed s id (dPr j.desc) (fun t c => drbgGenerate t c n) fun out t =>
    finishCell t id { output := out, cycles := blocks 4 16 n + (if t.trngN = s.trngN then 0 else 160) }

def execRandom (job : Nat) (s : State) : Host.Outcome State Fault Refusal := .next (opRandom job s)

end Sys2Proof.Machine
end

