-- ==== Sys2Proof/Machine/Combs.lean ====
section
/-! DEFINITION. The commands of a comb's state word (R424 to R426, R431). -/

namespace Sys2Proof.Machine

/-- A CB_CMD word with an operation from 1 to 2 reaches comb `c`: what becomes of it, 0 DONE,
1 STALE_GEN, 2 REFUSED, and the state. -/
def combCommand (s : State) (c op : Nat) (gen : BitVec 16) : Nat × State :=
  let b := s.comb c
  let others := (List.range combCount).any fun d => d != c && (s.comb d).mode == 1
  let r :=
    if gen != b.gen then 1
    else if op = 1 then (if b.mode = 3 || b.mode = 5 then 0 else 2)
    else if op = 2 then (if b.mode = 1 && others then 0 else 2)
    else 2
  let s := s.modComb c fun b => { b with cmdResult := r }
  (r, if r != 0 then s
    else if op = 1 then combSync (s.modComb c fun b => { b with mode := 1, faultCell := 0 }) c
    else combSync (s.modComb c fun b => { b with mode := 2 }) c)

/-- A write of CB_CMD. Operation 0 does nothing. -/
def cbWrite (s : State) (c op : Nat) (gen : BitVec 16) : State :=
  if !s.hv.ready || combCount ≤ c || op = 0 then s else (combCommand s c op gen).2

def execCbCmdOnline (comb : Nat) (gen : BitVec 16) (s : State) : Host.Outcome State Fault Refusal :=
  .next (whenAwake (.cbCmdOnline comb gen) s fun s => cbWrite s comb 1 gen)

def execCbCmdOffline (comb : Nat) (gen : BitVec 16) (s : State) : Host.Outcome State Fault Refusal :=
  .next (whenAwake (.cbCmdOffline comb gen) s fun s => cbWrite s comb 2 gen)

/-- A CB_CMD word of any content. -/
def opCbCmdInvalid (comb : Nat) (word : W32) (s : State) : State :=
  cbWrite s comb (bits word.toNat 3 0) (BitVec.ofNat 16 (word.toNat / 65536))

def execCbCmdInvalid (comb : Nat) (word : W32) (s : State) : Host.Outcome State Fault Refusal :=
  .next (whenAwake (.cbCmdInvalid comb word) s (opCbCmdInvalid comb word))

/-- A job runs in the comb, or a saved job is pinned to it (R119). -/
def combInUse (s : State) (c : Nat) : Bool :=
  s.jobs.any fun e =>
    e.2.comb == some c && (e.2.onCell || e.2.pinned || (e.2.stage == .cellDone && e.2.record.isEmpty))

/-- A DRAINING comb with no work left becomes OFFLINE. -/
def opCombDrainEnd (c : Nat) (s : State) : State :=
  if (s.comb c).mode = 2 && !combInUse s c then combSync (s.modComb c fun b => { b with mode := 3 }) c else s

def execCombDrainEnd (comb : Nat) (s : State) : Host.Outcome State Fault Refusal :=
  .next (onClock s.hv.cclk s (opCombDrainEnd comb))

end Sys2Proof.Machine
end

