-- ==== Sys2Proof/Machine/Digest.lean ====
section
/-! DEFINITION. The digest cell: hashes, HMAC, KMAC, CMAC and SHAKE, single-shot and as streams
(R166 to R182). -/

namespace Sys2Proof.Machine

/-! ## Cycles (R180) -/

/-- CCLK per block. -/
def hashPer (alg : Nat) : Nat := if alg = 1 || alg = 2 then 32 else if alg = 3 || alg = 4 then 40 else 24

/-- Blocks of a descriptor's message: whole blocks, and on FINAL what the padding adds. -/
def hashBlocks (alg n : Nat) (fin : Bool) : Nat :=
  let b := hashBlock alg
  if !fin then n / b
  else if alg = 1 || alg = 2 then ceilDiv (n + 9) 64
  else if alg = 3 || alg = 4 then ceilDiv (n + 17) 128
  else n / b + 1

/-- A job of `n` blocks with its finish. -/
def digestCycles (per n : Nat) : Nat := per * n + 8

/-! ## The stream before a job -/

/-- The job starts its stream: FIRST, single-shot, or a silent restart (R173). -/
def starts (k : Ctx) : Bool := k.chain.isEmpty

/-- The output c of R168. -/
def outN (o : Op) (j : Job) : Nat := digestOut o j.desc (digestFull o (dAlg j.desc))

/-- The outcome of a MAC comparison (R171). -/
def verdict (mac : Bytes) (j : Job) (o : Op) (cyc : Nat) (next : Option Ctx) : CellOut :=
  let c := outN o j
  { status := if mac.take c == (dBlock j.desc).take c then stOk else stAuthFail, cycles := cyc, ctx := next }

/-- The output of a digest; a committed digest leaves by its own path as well (R178). -/
def digested (j : Job) (b : Bytes) (cyc : Nat) (next : Option Ctx) : CellOut :=
  { output := b, digest := if dCommit j.desc then b else [], cycles := cyc, ctx := next }

/-! ## HASH and SHAKE_XOF -/

def hashCell (o : Op) (j : Job) (k : Ctx) : CellOut :=
  let d := j.desc
  let alg := dAlg d
  let st := if starts k then hashInit alg else k.chain
  let done := k.done + dMsg d
  let fin := dFinal o d
  let c := outN o j
  let n := if o == .shakeXof then dMsg d / hashBlock alg + (if fin then ceilDiv c (hashBlock alg) else 0)
    else hashBlocks alg (dMsg d) fin
  let cyc := digestCycles (hashPer alg) n
  if fin then digested j (hashFinish alg st done j.got c) cyc (some { k with done := done })
  else { cycles := cyc, ctx := some { k with chain := hashAbsorb alg st j.got, done := done } }

def opHash (id : Nat) (s : State) : State := runCell .hash (hashCell .hash) id s

def execHash (job : Nat) (s : State) : Host.Outcome State Fault Refusal := .next (opHash job s)

def opShakeXof (id : Nat) (s : State) : State := runCell .shakeXof (hashCell .shakeXof) id s

def execShakeXof (job : Nat) (s : State) : Host.Outcome State Fault Refusal := .next (opShakeXof job s)

/-! ## HMAC -/

def hmacCell (o : Op) (j : Job) (k : Ctx) : CellOut :=
  let d := j.desc
  let alg := dAlg d
  let st := if starts k then hashStep alg (hashInit alg) (hmacPad alg 0x36 j.keyMat) else k.chain
  let done := k.done + dMsg d
  let fin := dFinal o d
  let n := (if starts k then 1 else 0) + hashBlocks alg (dMsg d) fin + (if fin then 2 else 0)
  let cyc := digestCycles (hashPer alg) n
  if fin then
    let inner := hashFinish alg st (hashBlock alg + done) j.got (hashLen alg)
    let mac := hmacOuter alg j.keyMat inner
    let next := some { k with done := done }
    if o == .hmacVerify then verdict mac j o cyc next else digested j (mac.take (outN o j)) cyc next
  else { cycles := cyc, ctx := some { k with chain := hashAbsorb alg st j.got, done := done } }

def opHmacGen (id : Nat) (s : State) : State := runCell .hmacGen (hmacCell .hmacGen) id s

def execHmacGen (job : Nat) (s : State) : Host.Outcome State Fault Refusal := .next (opHmacGen job s)

def opHmacVerify (id : Nat) (s : State) : State := runCell .hmacVerify (hmacCell .hmacVerify) id s

def execHmacVerify (job : Nat) (s : State) : Host.Outcome State Fault Refusal := .next (opHmacVerify job s)

/-! ## KMAC -/

def kmacCell (j : Job) (k : Ctx) : CellOut :=
  let d := j.desc
  let alg := dAlg d
  let b := hashBlock alg
  let st := if starts k then kmacInit alg j.keyMat k.s else k.chain
  let done := k.done + dMsg d
  let c := outN .kmac j
  let two := if starts k then 2 else 0
  if dFinal .kmac d then
    digested j (kmacFinish alg st j.got c)
      (digestCycles 24 (two + (dMsg d + (rightEncode (8 * c)).length) / b + ceilDiv c b)) (some { k with done := done })
  else
    { cycles := digestCycles 24 (two + dMsg d / b)
      ctx := some { k with chain := hashAbsorb alg st j.got, done := done } }

def opKmac (id : Nat) (s : State) : State := runCell .kmac kmacCell id s

def execKmac (job : Nat) (s : State) : Host.Outcome State Fault Refusal := .next (opKmac job s)

/-! ## CMAC: the last whole block is held back (R170) -/

/-- CCLK per block of AES-CMAC. -/
def cmacPer (alg : Nat) : Nat := if alg = 1 then 24 else if alg = 2 then 28 else 32

def cmacCell (o : Op) (j : Job) (k : Ctx) : CellOut :=
  let d := j.desc
  let st := if starts k then zeros 16 else k.chain.take 16
  let rest := k.chain.drop 16 ++ j.got
  let done := k.done + dMsg d
  let one := if starts k then 1 else 0
  if dFinal o d then
    let mac := cmacFinish j.keyMat st rest
    let cyc := digestCycles (cmacPer (dAlg d)) (one + max 1 (ceilDiv (dMsg d) 16))
    let next := some { k with done := done }
    if o == .cmacVerify then verdict mac j o cyc next else digested j (mac.take (outN o j)) cyc next
  else
    let n := (rest.length - 1) / 16 * 16
    { cycles := digestCycles (cmacPer (dAlg d)) (one + dMsg d / 16)
      ctx := some { k with chain := cbcMac (aesKeys j.keyMat) st (rest.take n) ++ rest.drop n, done := done } }

def opCmacGen (id : Nat) (s : State) : State := runCell .cmacGen (cmacCell .cmacGen) id s

def execCmacGen (job : Nat) (s : State) : Host.Outcome State Fault Refusal := .next (opCmacGen job s)

def opCmacVerify (id : Nat) (s : State) : State := runCell .cmacVerify (cmacCell .cmacVerify) id s

def execCmacVerify (job : Nat) (s : State) : Host.Outcome State Fault Refusal := .next (opCmacVerify job s)

end Sys2Proof.Machine
end

