-- ==== Sys2Proof/Machine/Lattice.lean ====
section
/-! DEFINITION. The lattice cell: ML-KEM of FIPS 203 and ML-DSA of FIPS 204 (PRESUMED: the
standards' texts, which R186 cites, are not in the spec; log entry 10). A polynomial is the list of
its 256 coefficients modulo q; masking in shares (R203) never changes a result and is not
computed. -/

namespace Sys2Proof.Machine

abbrev Poly := List Nat

/-! ## Shared arithmetic -/

/-- The low `n` bits in reverse order. -/
def bitRev : Nat → Nat → Nat
  | 0, _ => 0
  | n + 1, v => (v % 2) * 2 ^ n + bitRev n (v / 2)

/-- `b ^ e` modulo q, by multiplication one at a time, for the tables of roots. -/
def rootPow (q b : Nat) : Nat → Nat
  | 0 => 1
  | e + 1 => rootPow q b e * b % q

/-- The powers 0 to `n − 1` of `b`. -/
def powersF (q b : Nat) : Nat → Nat → List Nat
  | 0, _ => []
  | n + 1, v => v :: powersF q b n (v * b % q)

def pAdd (q : Nat) (a b : Poly) : Poly := List.zipWith (fun x y => (x + y) % q) a b
def pSub (q : Nat) (a b : Poly) : Poly := List.zipWith (fun x y => (x + q - y) % q) a b
def pScale (q z : Nat) (a : Poly) : Poly := a.map fun x => x * z % q

/-- The forward transform: `lv` levels, node `k` with root `z[k]`. -/
def nttF (q : Nat) (z : Array Nat) : Nat → Nat → Poly → Poly
  | 0, _, f => f
  | lv + 1, k, f =>
    let h := f.length / 2
    let lo := f.take h
    let t := pScale q (z.getD k 0) (f.drop h)
    nttF q z lv (2 * k) (pAdd q lo t) ++ nttF q z lv (2 * k + 1) (pSub q lo t)

/-- The inverse transform without its scaling; `zi[k]` is the inverse of the root of node `k`. -/
def nttInvF (q : Nat) (zi : Array Nat) : Nat → Nat → Poly → Poly
  | 0, _, f => f
  | lv + 1, k, f =>
    let h := f.length / 2
    let l := nttInvF q zi lv (2 * k) (f.take h)
    let r := nttInvF q zi lv (2 * k + 1) (f.drop h)
    pAdd q l r ++ pScale q (zi.getD k 0) (pSub q l r)

/-- Coefficients of `d` bits packed into bytes, low bit first. -/
def packBits (d : Nat) (f : List Nat) : Bytes :=
  natLe (ceilDiv (d * f.length) 8) (f.foldr (fun x acc => x + 2 ^ d * acc) 0)

/-- `n` coefficients of `d` bits from a number. -/
def unpackF (d : Nat) : Nat → Nat → List Nat
  | 0, _ => []
  | n + 1, v => v % 2 ^ d :: unpackF d n (v / 2 ^ d)

def unpackBits (d n : Nat) (b : Bytes) : List Nat := unpackF d n (leNat b)

/-- Coefficients accepted from the blocks of a sponge until `need` are held. -/
def rejectF (rate : Nat) (take : Bytes → List Nat) (need : Nat) : Nat → Bytes → List Nat → List Nat
  | 0, _, acc => acc
  | fuel + 1, st, acc =>
    let acc := acc ++ take (st.take rate)
    if need ≤ acc.length then acc.take need else rejectF rate take need fuel (keccakF st) acc

/-- A sponge after a short seed, ready to squeeze. -/
def xofOf (rate : Nat) (seed : Bytes) : Bytes :=
  let whole := seed.length / rate * rate
  let st := (chunks rate (seed.take whole)).foldl keccakAbsorb (zeros 200)
  keccakAbsorb st (keccakPad rate 0x1F (seed.drop whole))

/-- The sum of the products of a row with a vector. -/
def rowMul (q : Nat) (mul : Poly → Poly → Poly) (row v : List Poly) : Poly :=
  (List.zipWith mul row v).foldl (pAdd q) (List.replicate 256 0)

def transpose (n : Nat) (m : List (List Poly)) : List (List Poly) :=
  (List.range n).map fun j => m.map fun row => row.getD j []

/-! ## ML-KEM -/

structure KemSet where
  k : Nat
  eta1 : Nat
  du : Nat
  dv : Nat

def kemSet (alg : Nat) : KemSet :=
  if alg = 0x41 then ⟨2, 3, 10, 4⟩ else if alg = 0x42 then ⟨3, 2, 10, 4⟩ else ⟨4, 2, 11, 5⟩

def kemQ : Nat := 3329
def kemPow : Array Nat := (powersF kemQ 17 256 1).toArray
def kemZ : Array Nat := ((List.range 128).map fun k => kemPow.getD (bitRev 7 k) 0).toArray
def kemZi : Array Nat := ((List.range 128).map fun k => kemPow.getD ((256 - bitRev 7 k) % 256) 0).toArray
def kemGamma : List Nat := (List.range 128).map fun i => kemPow.getD (2 * bitRev 7 i + 1) 0

def kemNtt (f : Poly) : Poly := nttF kemQ kemZ 7 1 f
def kemInv (f : Poly) : Poly := pScale kemQ 3303 (nttInvF kemQ kemZi 7 1 f)

/-- The product in the transformed domain, pair by pair. -/
def kemMulF : List Nat → Poly → Poly → Poly
  | g :: gs, a0 :: a1 :: as, b0 :: b1 :: bs =>
    (a0 * b0 + a1 * b1 % kemQ * g) % kemQ :: (a0 * b1 + a1 * b0) % kemQ :: kemMulF gs as bs
  | _, _, _ => []

def kemMul (a b : Poly) : Poly := kemMulF kemGamma a b

/-- Candidates of 12 bits below q. -/
def kemTake : Bytes → List Nat
  | a :: b :: c :: t =>
    let d1 := a.toNat + 256 * (b.toNat % 16)
    let d2 := b.toNat / 16 + 16 * c.toNat
    (if d1 < kemQ then [d1] else []) ++ (if d2 < kemQ then [d2] else []) ++ kemTake t
  | _ => []

def kemSample (seed : Bytes) : Poly := rejectF 168 kemTake 256 64 (xofOf 168 seed) []

/-- The centred binomial sample. -/
def kemCbd (eta : Nat) (b : Bytes) : Poly :=
  (unpackBits (2 * eta) 256 b).map fun v =>
    let cnt := fun (x : Nat) => ((List.range eta).filter fun i => x.testBit i).length
    (cnt v + kemQ - cnt (v >>> eta)) % kemQ

def kemPrf (eta : Nat) (s : Bytes) (n : Nat) : Poly :=
  kemCbd eta (shake256 (s ++ [BitVec.ofNat 8 n]) (64 * eta))

def kemCompress (d : Nat) (x : Nat) : Nat := (x * 2 ^ (d + 1) + kemQ) / (2 * kemQ) % 2 ^ d
def kemDecompress (d : Nat) (y : Nat) : Nat := (2 * kemQ * y + 2 ^ d) / 2 ^ (d + 1)

def kemMatrix (k : Nat) (rho : Bytes) : List (List Poly) :=
  (List.range k).map fun i => (List.range k).map fun j =>
    kemSample (rho ++ [BitVec.ofNat 8 j, BitVec.ofNat 8 i])

/-- ML-KEM.KeyGen_internal: the encapsulation key, and the secret of K-PKE. -/
def kemKeys (alg : Nat) (d : Bytes) : Bytes × List Poly :=
  let ps := kemSet alg
  let g := hashOf 0x14 (d ++ [BitVec.ofNat 8 ps.k])
  let rho := g.take 32
  let sigma := g.drop 32
  let a := kemMatrix ps.k rho
  let s := (List.range ps.k).map fun i => kemNtt (kemPrf ps.eta1 sigma i)
  let e := (List.range ps.k).map fun i => kemNtt (kemPrf ps.eta1 sigma (ps.k + i))
  let t := List.zipWith (fun row ei => pAdd kemQ (rowMul kemQ kemMul row s) ei) a e
  (t.flatMap (packBits 12) ++ rho, s)

/-- K-PKE.Encrypt. -/
def kemEncrypt (alg : Nat) (ek m r : Bytes) : Bytes :=
  let ps := kemSet alg
  let t := (chunks 384 (ek.take (384 * ps.k))).map (unpackBits 12 256)
  let a := kemMatrix ps.k (ek.drop (384 * ps.k))
  let y := (List.range ps.k).map fun i => kemNtt (kemPrf ps.eta1 r i)
  let e1 := (List.range ps.k).map fun i => kemPrf 2 r (ps.k + i)
  let e2 := kemPrf 2 r (2 * ps.k)
  let u := List.zipWith (fun row ei => pAdd kemQ (kemInv (rowMul kemQ kemMul row y)) ei)
    (transpose ps.k a) e1
  let mu := (unpackBits 1 256 m).map (kemDecompress 1)
  let v := pAdd kemQ (pAdd kemQ (kemInv (rowMul kemQ kemMul t y)) e2) mu
  (u.flatMap fun p => packBits ps.du (p.map (kemCompress ps.du)))
    ++ packBits ps.dv (v.map (kemCompress ps.dv))

/-- K-PKE.Decrypt. -/
def kemDecrypt (alg : Nat) (s : List Poly) (c : Bytes) : Bytes :=
  let ps := kemSet alg
  let n := 32 * ps.du
  let u := (chunks n (c.take (n * ps.k))).map fun b => (unpackBits ps.du 256 b).map (kemDecompress ps.du)
  let v := (unpackBits ps.dv 256 (c.drop (n * ps.k))).map (kemDecompress ps.dv)
  let w := pSub kemQ v (kemInv (rowMul kemQ kemMul s (u.map kemNtt)))
  packBits 1 (w.map (kemCompress 1))

/-- The modulus check of FIPS 203, section 7.2 (R194). -/
def kemEkOk (alg : Nat) (ek : Bytes) : Bool :=
  let k := (kemSet alg).k
  ek.length == 384 * k + 32 && (unpackBits 12 (256 * k) (ek.take (384 * k))).all (· < kemQ)

/-- Encaps_internal: ciphertext and K. -/
def kemEncaps (alg : Nat) (ek m : Bytes) : Bytes × Bytes :=
  let g := hashOf 0x14 (m ++ hashOf 0x12 ek)
  (kemEncrypt alg ek m (g.drop 32), g.take 32)

/-- Decaps_internal from the seed d ‖ z (R200). -/
def kemDecaps (alg : Nat) (seed c : Bytes) : Bytes :=
  let (ek, s) := kemKeys alg (seed.take 32)
  let m := kemDecrypt alg s c
  let g := hashOf 0x14 (m ++ hashOf 0x12 ek)
  if kemEncrypt alg ek m (g.drop 32) == c then g.take 32 else shake256 (seed.drop 32 ++ c) 32

/-! ## ML-DSA -/

structure DsaSet where
  k : Nat
  l : Nat
  eta : Nat
  tau : Nat
  lam : Nat
  /-- γ1 = 2^g1 -/
  g1 : Nat
  g2 : Nat
  omega : Nat

def dsaQ : Nat := 8380417

def dsaSet (alg : Nat) : DsaSet :=
  if alg = 0x51 then ⟨4, 4, 2, 39, 128, 17, (dsaQ - 1) / 88, 80⟩
  else if alg = 0x52 then ⟨6, 5, 4, 49, 192, 19, (dsaQ - 1) / 32, 55⟩
  else ⟨8, 7, 2, 60, 256, 19, (dsaQ - 1) / 32, 75⟩

def DsaSet.beta (p : DsaSet) : Nat := p.tau * p.eta

def dsaPow : Array Nat := (powersF dsaQ 1753 512 1).toArray
def dsaZ : Array Nat := ((List.range 256).map fun k => dsaPow.getD (bitRev 8 k) 0).toArray
def dsaZi : Array Nat := ((List.range 256).map fun k => dsaPow.getD ((512 - bitRev 8 k) % 512) 0).toArray

def dsaNtt (f : Poly) : Poly := nttF dsaQ dsaZ 8 1 f
def dsaInv (f : Poly) : Poly := pScale dsaQ 8347681 (nttInvF dsaQ dsaZi 8 1 f)
def dsaMul (a b : Poly) : Poly := List.zipWith (fun x y => x * y % dsaQ) a b

/-- Candidates of 23 bits below q. -/
def dsaTake : Bytes → List Nat
  | a :: b :: c :: t =>
    let z := a.toNat + 256 * b.toNat + 65536 * (c.toNat % 128)
    (if z < dsaQ then [z] else []) ++ dsaTake t
  | _ => []

def dsaMatrix (p : DsaSet) (rho : Bytes) : List (List Poly) :=
  (List.range p.k).map fun r => (List.range p.l).map fun s =>
    rejectF 168 dsaTake 256 64 (xofOf 168 (rho ++ [BitVec.ofNat 8 s, BitVec.ofNat 8 r])) []

/-- Small coefficients of half bytes, modulo q. -/
def dsaHalf (eta v : Nat) : List Nat :=
  if eta = 2 then (if v < 15 then [(dsaQ + 2 - v % 5) % dsaQ] else [])
  else (if v < 9 then [(dsaQ + 4 - v) % dsaQ] else [])

def dsaShort (eta : Nat) (seed : Bytes) : Poly :=
  rejectF 136 (fun b => b.flatMap fun x => dsaHalf eta (x.toNat % 16) ++ dsaHalf eta (x.toNat / 16))
    256 64 (xofOf 136 seed) []

/-- An expanded key. -/
structure DsaKey where
  pk : Bytes
  tr : Bytes
  kk : Bytes
  a : List (List Poly)
  s1 : List Poly
  s2 : List Poly
  t0 : List Poly

/-- t1 of Power2Round. -/
def dsaHi13 (r : Nat) : Nat := (r + 4095) / 8192

/-- ML-DSA.KeyGen_internal (R202); all secret polynomials are transformed. -/
def dsaKeys (alg : Nat) (xi : Bytes) : DsaKey :=
  let p := dsaSet alg
  let h := shake256 (xi ++ [BitVec.ofNat 8 p.k, BitVec.ofNat 8 p.l]) 128
  let rho := h.take 32
  let rho' := slice h 32 64
  let a := dsaMatrix p rho
  let s1 := (List.range p.l).map fun r => dsaNtt (dsaShort p.eta (rho' ++ natLe 2 r))
  let s2 := (List.range p.k).map fun r => dsaShort p.eta (rho' ++ natLe 2 (r + p.l))
  let t := List.zipWith (fun row e => pAdd dsaQ (dsaInv (rowMul dsaQ dsaMul row s1)) e) a s2
  let pk := rho ++ t.flatMap fun f => packBits 10 (f.map dsaHi13)
  { pk := pk, tr := shake256 pk 64, kk := h.drop 96, a := a, s1 := s1, s2 := s2.map dsaNtt
    t0 := t.map fun f => dsaNtt (f.map fun r => (r + dsaQ - dsaHi13 r * 8192) % dsaQ) }

/-- Decompose: the high part and the low part plus q. -/
def dsaDecompose (g2 r : Nat) : Nat × Nat :=
  let m := r % (2 * g2)
  -- the centred remainder plus q
  let r0 := if m ≤ g2 then m + dsaQ else m + dsaQ - 2 * g2
  let d := r + dsaQ - r0
  if d = dsaQ - 1 then (0, r0 - 1) else (d / (2 * g2), r0)

def dsaHigh (g2 r : Nat) : Nat := (dsaDecompose g2 r).1

/-- The absolute value of a coefficient modulo q. -/
def dsaAbs (x : Nat) : Nat := min (x % dsaQ) ((dsaQ - x % dsaQ) % dsaQ)
def dsaBelow (b : Nat) (f : Poly) : Bool := f.all fun x => dsaAbs x < b

def dsaW1 (p : DsaSet) (w1 : List Poly) : Bytes :=
  w1.flatMap (packBits (if p.g2 = (dsaQ - 1) / 88 then 6 else 4))

/-- SampleInBall: signs and positions from one stream. -/
def ballF (signs : Nat) (tau : Nat) : Nat → Nat → Bytes → List Nat → List Nat
  | 0, _, _, c => c
  | _, _, [], c => c
  | fuel + 1, i, b :: t, c =>
    if 256 ≤ i then c
    else if i < b.toNat then ballF signs tau fuel i t c
    else
      let v := if signs.testBit (i + tau - 256) then dsaQ - 1 else 1
      ballF signs tau fuel (i + 1) t ((c.set i (c.getD b.toNat 0)).set b.toNat v)

def dsaBall (p : DsaSet) (seed : Bytes) : Poly :=
  let b := shake256 seed 680
  ballF (leNat (b.take 8)) p.tau 672 (256 - p.tau) (b.drop 8) (List.replicate 256 0)

/-- BitPack and BitUnpack of values in (−γ1, γ1]. -/
def dsaZPack (p : DsaSet) (f : Poly) : Bytes :=
  packBits (p.g1 + 1) (f.map fun x => (2 ^ p.g1 + dsaQ - x) % dsaQ)
def dsaZUnpack (p : DsaSet) (b : Bytes) : Poly :=
  (unpackBits (p.g1 + 1) 256 b).map fun v => (2 ^ p.g1 + dsaQ - v) % dsaQ

def dsaMask (p : DsaSet) (seed : Bytes) (kappa : Nat) : List Poly :=
  (List.range p.l).map fun r =>
    dsaZUnpack p (shake256 (seed ++ natLe 2 (kappa + r)) (32 * (p.g1 + 1)))

/-- The positions of the ones of one hint polynomial. -/
def hintIx (f : List Bool) : List Nat := (f.zipIdx.filter (·.1)).map (·.2)

def dsaHintPack (p : DsaSet) (h : List (List Bool)) : Bytes :=
  let ix := h.map hintIx
  let all := ix.flatten
  let ends := (List.range p.k).map fun i => ((ix.take (i + 1)).map List.length).sum
  fit (all.map (BitVec.ofNat 8)) p.omega ++ ends.map (BitVec.ofNat 8)

def ascending : List Nat → Bool
  | a :: b :: t => a < b && ascending (b :: t)
  | _ => true

/-- HintBitUnpack for the polynomials from number `i` on; `from_` is the place of the first. -/
def hintUnpackF (ix : List Nat) (omega : Nat) : List Nat → Nat → Option (List (List Bool))
  | [], from_ => if (ix.drop from_).all (· == 0) then some [] else none
  | e :: es, from_ =>
    if e < from_ || omega < e then none
    else
      let l := (ix.take e).drop from_
      if ascending l then
        match hintUnpackF ix omega es e with
        | some r => some (((List.range 256).map fun j => l.contains j) :: r)
        | none => none
      else none

def dsaHintUnpack (p : DsaSet) (b : Bytes) : Option (List (List Bool)) :=
  let n := b.map BitVec.toNat
  hintUnpackF (n.take p.omega) p.omega (n.drop p.omega) 0

/-- One iteration of the rejection loop; none where it is rejected. -/
def dsaTry (p : DsaSet) (key : DsaKey) (mu seed : Bytes) (kappa : Nat) : Option Bytes :=
  let y := dsaMask p seed kappa
  let yh := y.map dsaNtt
  let w := key.a.map fun row => dsaInv (rowMul dsaQ dsaMul row yh)
  let w1 := w.map (·.map (dsaHigh p.g2))
  let ct := shake256 (mu ++ dsaW1 p w1) (p.lam / 4)
  let c := dsaNtt (dsaBall p ct)
  let z := List.zipWith (fun yi s => pAdd dsaQ yi (dsaInv (dsaMul c s))) y key.s1
  let wc := List.zipWith (fun wi s => pSub dsaQ wi (dsaInv (dsaMul c s))) w key.s2
  let low := wc.map (·.map fun r => (dsaDecompose p.g2 r).2 % dsaQ)
  if !(z.all (dsaBelow (2 ^ p.g1 - p.beta)) && low.all (dsaBelow (p.g2 - p.beta))) then none
  else
    let ct0 := key.t0.map fun t => dsaInv (dsaMul c t)
    let h := List.zipWith (fun a b => List.zipWith (fun x y =>
      dsaHigh p.g2 ((x + y) % dsaQ) != dsaHigh p.g2 x) a b) wc ct0
    if !(ct0.all (dsaBelow p.g2)) || p.omega < (h.map fun f => (hintIx f).length).sum then none
    else some (ct ++ z.flatMap (dsaZPack p) ++ dsaHintPack p h)

/-- The rejection loop of at most `fuel` iterations: the signature and the iteration count. -/
def dsaLoop (p : DsaSet) (key : DsaKey) (mu seed : Bytes) : Nat → Nat → Option (Bytes × Nat)
  | 0, _ => none
  | fuel + 1, i =>
    match dsaTry p key mu seed (p.l * i) with
    | some s => some (s, i + 1)
    | none => dsaLoop p key mu seed fuel (i + 1)

/-- ML-DSA.Sign_internal from μ, at most 1,000 iterations (R202). -/
def dsaSign (alg : Nat) (key : DsaKey) (mu rnd : Bytes) : Option (Bytes × Nat) :=
  dsaLoop (dsaSet alg) key mu (shake256 (key.kk ++ rnd ++ mu) 64) 1000 0

/-- μ of a message under an empty context (R202). -/
def dsaMu (tr msg : Bytes) : Bytes := shake256 (tr ++ [0x00, 0x00] ++ msg) 64

def dsaUseHint (g2 : Nat) (h : Bool) (r : Nat) : Nat :=
  let m := (dsaQ - 1) / (2 * g2)
  let (r1, r0) := dsaDecompose g2 r
  if h then (if dsaQ < r0 then (r1 + 1) % m else (r1 + m - 1) % m) else r1

/-- ML-DSA.Verify_internal from μ. -/
def dsaOk (alg : Nat) (pk sig mu : Bytes) : Bool :=
  let p := dsaSet alg
  let zl := 32 * (p.g1 + 1)
  let ct := sig.take (p.lam / 4)
  let z := (chunks zl (slice sig (p.lam / 4) (p.l * zl))).map (dsaZUnpack p)
  match dsaHintUnpack p (sig.drop (p.lam / 4 + p.l * zl)) with
  | none => false
  | some h =>
    if !(z.all (dsaBelow (2 ^ p.g1 - p.beta))) then false
    else
      let t1 := (chunks 320 (pk.drop 32)).map fun b =>
        dsaNtt ((unpackBits 10 256 b).map fun v => v * 8192 % dsaQ)
      let c := dsaNtt (dsaBall p ct)
      let zh := z.map dsaNtt
      let w := List.zipWith (fun row t =>
        dsaInv (pSub dsaQ (rowMul dsaQ dsaMul row zh) (dsaMul c t))) (dsaMatrix p (pk.take 32)) t1
      let w1 := List.zipWith (fun hi f => List.zipWith (dsaUseHint p.g2) hi f) h w
      shake256 (mu ++ dsaW1 p w1) (p.lam / 4) == ct

end Sys2Proof.Machine
end

