-- ==== Sys2Proof/Machine/LatticeOps.lean ====
section
/-! DEFINITION. The lattice cell: ML-KEM and ML-DSA (R189, R194, R200 to R202, R210). -/

namespace Sys2Proof.Machine

def kemKeygenCycles (alg : Nat) : Nat := if alg = 0x41 then 4700 else if alg = 0x42 then 7200 else 10600
def kemEncapCycles (alg : Nat) : Nat := if alg = 0x41 then 5800 else if alg = 0x42 then 8880 else 12900
def kemDecapCycles (alg : Nat) : Nat := if alg = 0x41 then 11000 else if alg = 0x42 then 16800 else 24200
def dsaKeygenCycles (alg : Nat) : Nat := if alg = 0x51 then 6000 else if alg = 0x52 then 9500 else 14000
def dsaSetup (alg : Nat) : Nat := if alg = 0x51 then 6500 else if alg = 0x52 then 9000 else 13000
def dsaPer (alg : Nat) : Nat := if alg = 0x51 then 3800 else if alg = 0x52 then 5200 else 7000
def dsaVerifyCycles (alg : Nat) : Nat := if alg = 0x51 then 7400 else if alg = 0x52 then 11000 else 16500

/-- What absorbing a message adds. -/
def dsaMsgCycles (n : Nat) : Nat := 24 * ((n + 66) / 136)

/-! ## ML-KEM (R200, R201) -/

def opMlkemKeygen (id : Nat) (s : State) : State :=
  let a := dAlg (s.job id).desc
  if s.ready id .mlkemKeygen then
    withDrbg s id [32, 32] fun seed s =>
      commitKey s id seed (kemKeys a (seed.take 32)).1 (kemKeygenCycles a)
  else s

def execMlkemKeygen (job : Nat) (s : State) : Host.Outcome State Fault Refusal := .next (opMlkemKeygen job s)

def opMlkemEncap (id : Nat) (s : State) : State :=
  let j := s.job id
  let a := dAlg j.desc
  let cyc := kemEncapCycles a
  if !s.ready id .mlkemEncap then s
  else if !kemEkOk a j.got then
    finishCell s id { status := stRange, detail := 0x81, cycles := atMost cyc (0x40200 + a) }
  else withDrbg s id [32] fun m s =>
    let r := kemEncaps a j.got m
    finishCell s id { output := r.1 ++ r.2, cycles := cyc }

def execMlkemEncap (job : Nat) (s : State) : Host.Outcome State Fault Refusal := .next (opMlkemEncap job s)

/-- Decapsulation ends OK whether or not the re-encryption matches. -/
def opMlkemDecap (id : Nat) (s : State) : State :=
  let j := s.job id
  let a := dAlg j.desc
  if s.ready id .mlkemDecap then
    withDraw s id 32 fun _ s =>
      finishCell s id { output := kemDecaps a j.keyMat j.got, cycles := kemDecapCycles a }
  else s

def execMlkemDecap (job : Nat) (s : State) : Host.Outcome State Fault Refusal := .next (opMlkemDecap job s)

/-! ## ML-DSA (R202) -/

def opMldsaKeygen (id : Nat) (s : State) : State :=
  let a := dAlg (s.job id).desc
  if s.ready id .mldsaKeygen then
    withDrbg s id [32] fun xi s => commitKey s id xi (dsaKeys a xi).pk (dsaKeygenCycles a)
  else s

def execMldsaKeygen (job : Nat) (s : State) : Host.Outcome State Fault Refusal := .next (opMldsaKeygen job s)

/-- A signature that reaches the limit of iterations ends OPERAND_RANGE with OP_INFO 0: R211 gives OP_INFO as the count
of a signature that is made, and does not say what this end leaves (DESIGN CHOICE, log 86). -/
def opMldsaSign (id : Nat) (s : State) : State :=
  let j := s.job id
  let a := dAlg j.desc
  let v := dVariant j.desc
  let ext := 2 ≤ v
  let base := dsaSetup a + (if ext then 0 else dsaMsgCycles (dMsg j.desc))
  if s.ready id .mldsaSign then
    withDraw s id 32 fun r s =>
      let key := dsaKeys a j.keyMat
      let mu := if ext then j.got else dsaMu key.tr j.got
      match dsaSign a key mu (if v % 2 = 0 then r else zeros 32) with
      | some (sig, i) => finishCell s id { output := sig, opInfo := i, cycles := base + dsaPer a * i }
      | none => finishCell s id { status := stRange, detail := 0x85, cycles := base + dsaPer a * 1000 }
  else s

def execMldsaSign (job : Nat) (s : State) : Host.Outcome State Fault Refusal := .next (opMldsaSign job s)

def mldsaVerifyCell (j : Job) (_ : Ctx) : CellOut :=
  let a := dAlg j.desc
  let pk := j.got.take (pubLen a)
  let sig := slice j.got (pubLen a) (sigLen a)
  let m := j.got.drop (pubLen a + sigLen a)
  let ext := dVariant j.desc = 2
  let mu := if ext then m else dsaMu (shake256 pk 64) m
  let cyc := dsaVerifyCycles a + (if ext then 0 else dsaMsgCycles (dMsg j.desc))
  let ok := dsaOk a pk sig mu
  { status := if ok then stOk else stSigInvalid, cycles := if ok then cyc else atMost cyc (0x40600 + a) }

def opMldsaVerify (id : Nat) (s : State) : State := runCell .mldsaVerify mldsaVerifyCell id s

def execMldsaVerify (job : Nat) (s : State) : Host.Outcome State Fault Refusal := .next (opMldsaVerify job s)

end Sys2Proof.Machine
end

