-- ==== Sys2Proof/Machine/Persist.lean ====
section
/-! DEFINITION. The persistent store: records with two banks, their value, writing and erasing them,
and the key records among them (R247, R382 to R385). -/

namespace Sys2Proof.Machine

/-- SEQ `a` is later than `b` (R375). -/
def laterSeq (a b : Nat) : Bool :=
  let d := (a + 2 ^ 32 - b % 2 ^ 32) % 2 ^ 32
  1 ≤ d && d ≤ 2 ^ 31 - 1

/-- The check value of a bank (R382). -/
def bankCrc (seq len : Nat) (payload : Bytes) : Nat :=
  (crc32c (natLe 4 seq ++ natLe 4 len ++ payload)).toNat

/-- The size of a bank: fixed for a system record; a key record's 16 bytes and payload, rounded up to 64 (R382). -/
def bankSize (id n : Nat) : Nat :=
  if id = 0x10 then 128 else if id < 0x80000000 then 64 else 64 * ceilDiv (16 + n) 64

/-- A bank of `size` bytes is valid for the record (R384). -/
def bankOk (id size : Nat) (k : Bank) : Bool :=
  k.id == id && id != 0 && id != 0xFFFFFFFF && 16 + k.len ≤ size && k.payload.length == k.len
    && bankCrc k.seq k.len k.payload == k.crc

/-- Bank A, bank B is valid. -/
def Record.okA (r : Record) (id : Nat) : Bool := bankOk id r.size r.a
def Record.okB (r : Record) (id : Nat) : Bool := bankOk id r.size r.b

/-- Bank B holds the value (R384); both or one may be valid. -/
def holdsB (id : Nat) (r : Record) : Bool := r.okB id && (!r.okA id || laterSeq r.b.seq r.a.seq)

def State.record (s : State) (id : Nat) : Record := tblGet {} s.store.mram id

/-- The value of a record, none where it is absent or damaged. -/
def State.recValue (s : State) (id : Nat) : Option Bytes :=
  let r := s.record id
  if holdsB id r then some r.b.payload else if r.okA id then some r.a.payload else none

/-- The record is damaged (R384). -/
def State.recDamaged (s : State) (id : Nat) : Bool :=
  let r := s.record id
  (r.a.id == id || r.b.id == id) && id != 0 && !r.okA id && !r.okB id

/-! ## Places (R381, R382) -/

/-- The areas of the store: base and size. -/
inductive MramArea where
  | system | keys | firmware | reserved
deriving DecidableEq, Repr

def MramArea.base : MramArea → Nat
  | .system => 0
  | .keys => 0x100000
  | .firmware => 0x500000
  | .reserved => 0x700000

def MramArea.size : MramArea → Nat
  | .system => 0x100000
  | .keys => 0x400000
  | .firmware => 0x200000
  | .reserved => 0x100000

/-- The record occupies its banks: it is present or damaged. -/
def occupied (s : State) (id : Nat) : Bool := (s.recValue id).isSome || s.recDamaged id

/-- No record lies in the two banks of `size` bytes from `place` on. -/
def placeFree (s : State) (place size : Nat) : Bool :=
  s.store.mram.all fun e =>
    !occupied s e.1 || place + 2 * size ≤ e.2.place || e.2.place + 2 * e.2.size ≤ place

/-- The most writes that a unit of the two banks has had. -/
def wearAt (s : State) (place size : Nat) : Nat :=
  (List.range (2 * size / 64)).foldl (fun m i => max m (tblGet 0 s.store.wear (place / 64 + i))) 0

/-- The places in an area where a record of that bank size fits. -/
def freePlaces (s : State) (a : MramArea) (size : Nat) : List Nat :=
  ((List.range (a.size / 64)).map fun i => a.base + 64 * i).filter fun p =>
    p + 2 * size ≤ a.base + a.size && placeFree s p size

/-- The places in the key area where a record of that bank size fits. -/
def keyPlaces (s : State) (size : Nat) : List Nat := freePlaces s .keys size

/-- The place of a new system record: one of those where it fits, which the spec does not fix (R381). -/
def systemPlaceOf (s : State) (id size : Nat) : Nat :=
  let l := freePlaces s .system size
  (l[Config.systemPlace id % l.length]?).getD MramArea.system.base

/-- The place of a new key record: of those where it fits, the lowest among the least written (R382). -/
def bestPlace (s : State) (size : Nat) : Option Nat :=
  (keyPlaces s size).foldl (fun best p =>
    match best with
    | some b => if wearAt s p size < wearAt s b size then some p else best
    | none => some p) none

/-- Where a record lies and the size of its banks: a present one where it is, a new one in its area. -/
def placeFor (s : State) (id n : Nat) : Nat × Nat :=
  let r := s.record id
  let size := bankSize id n
  if occupied s id && r.size = size then (r.place, size)
  else if id < 0x80000000 then (systemPlaceOf s id size, size)
  else ((bestPlace s size).getD MramArea.keys.base, size)

/-- The units of a bank have one more write each. -/
def wearBank (w : Tbl Nat) (place size : Nat) : Tbl Nat :=
  (List.range (size / 64)).foldl (fun w i => tblSet 0 w (place / 64 + i) (tblGet 0 w (place / 64 + i) + 1)) w

/-- The store takes words: VDD_CORE, VDD_SRAM and VDDIO_HV lie at or above 90 % (R444). -/
def mramOn (s : State) : Bool := !(s.aon.low.getLsbD 0 || s.aon.low.getLsbD 1 || s.aon.low.getLsbD 4)

/-- A record is written into the bank that does not hold its value (R383); at a new place into bank A. Without its
supplies the store starts no word. -/
def writeRec (s : State) (id : Nat) (payload : Bytes) : State :=
  if !mramOn s then s
  else
  let at_ := placeFor s id payload.length
  let stays := occupied s id && (s.record id).size == at_.2
  let r : Record := if stays then s.record id else { place := at_.1, size := at_.2 }
  let seq := if (s.recValue id).isSome then ((if holdsB id r then r.b.seq else r.a.seq) + 1) % 2 ^ 32 else 1
  let k : Bank := { id := id, seq := seq, len := payload.length, payload := payload,
                    crc := bankCrc seq payload.length payload }
  let toB := r.okA id && !holdsB id r
  let r' : Record := if toB then { r with b := k } else { r with a := k }
  { s with
    store.mram := tblSet {} s.store.mram id r'
    store.wear := wearBank s.store.wear (r.place + if toB then r.size else 0) r.size }

/-- Word 0 of the banks of a record is written to 0 (R383). -/
def wipeRec (s : State) (id : Nat) : State :=
  let r := s.record id
  let r' : Record := { a := { r.a with id := 0, seq := 0 }, b := { r.b with id := 0, seq := 0 } }
  { s with
    store.mram := tblSet {} s.store.mram id r'
    store.wear := wearBank (wearBank s.store.wear r.place 64) (r.place + r.size) 64 }

/-- A record is erased (R383); without its supplies the store starts no word (R444). -/
def eraseRec (s : State) (id : Nat) : State := if mramOn s then wipeRec s id else s

/-- A byte of a bank: its header, then its payload (R382). -/
def bankByte (k : Bank) (i : Nat) : Byte :=
  ((natLe 4 k.id ++ natLe 4 k.seq ++ natLe 4 k.len ++ natLe 4 k.crc ++ k.payload)[i]?).getD 0

/-- A byte of the store as its controller reads it (R381): 0 in the reserved area, what the firmware keeps in its own,
and in the other two a bank of a record or what the records of R382 do not cover. -/
def mramByte (s : State) (a : Nat) : Byte :=
  if MramArea.reserved.base ≤ a then 0
  else if MramArea.firmware.base ≤ a then Config.mramElse a
  else match s.store.mram.find? fun e => e.2.place ≤ a && a < e.2.place + 2 * e.2.size with
    | some e =>
      let i := a - e.2.place
      if i < e.2.size then bankByte e.2.a i else bankByte e.2.b (i - e.2.size)
    | none => Config.mramElse a

/-! ## Key records (R247) -/

/-- The identifiers of the key records that have a value. -/
def keyRecs (s : State) : List Nat :=
  (tblKeys s.store.mram).filter fun id => 0x80000000 ≤ id && (s.recValue id).isSome

/-- The header of a key record's payload: FORMAT, ORIGIN and EXPOSED, CLIENT, TENANT_EPOCH, SLOT. -/
def keyRecHead (k : KSlot) (c : Nat) (epoch : W32) (slot : Nat) : Bytes :=
  [0x02, BitVec.ofNat 8 (k.origin + if k.exposed then 4 else 0)] ++ natLe 2 c ++ bvLe 4 epoch
    ++ natLe 4 slot ++ zeros 4

/-- The payload of a key record. -/
def keyRecBody (psk : Bytes) (k : KSlot) (c : Nat) (epoch : W32) (slot res : Nat) : Bytes :=
  let h := keyRecHead k c epoch slot
  h ++ natLe 8 res ++ kwpWrap psk (h ++ bvLe 8 k.policy ++ natLe 2 k.ktype ++ natLe 2 k.mat.length
    ++ zeros 4 ++ k.mat)

/-- CLIENT, TENANT_EPOCH and SLOT of a key record. -/
def recClient (b : Bytes) : Nat := leAt b 2 2
def recEpoch (b : Bytes) : Nat := leAt b 4 4
def recSlot (b : Bytes) : Nat := leAt b 8 4

/-- The key record of a client's slot under its present TENANT_EPOCH. -/
def keyRecOf (s : State) (c slot : Nat) : Option Nat :=
  (keyRecs s).find? fun id =>
    let b := (s.recValue id).getD []
    recClient b == c && recSlot b == slot && recEpoch b == (s.tenant c).epoch.toNat

/-- Bytes of the key area in use: both banks of each key record. -/
def keyAreaUsed (s : State) : Nat := (keyRecs s).foldl (fun a id => a + 2 * (s.record id).size) 0

/-- A new key record of a payload length fits the key area. -/
def keyAreaFits (s : State) (n : Nat) : Bool := (bestPlace s (bankSize 0x80000000 n)).isSome

/-- The identifier of a new key record: the keeper's choice, moved up past identifiers in use. -/
def newRecId (s : State) : Nat :=
  let want := (Config.keyRecordIdChoice s.freeN).toNat
  let used := (tblKeys s.store.mram).filter (occupied s)
  freeFrom used (used.length + 1) (0x80000000 + want % 0x7FFF0000)

/-- RES of a slot's record is rewritten (R238). -/
def writeRes (s : State) (c slot res : Nat) : State :=
  match keyRecOf s c slot with
  | none => s
  | some id => writeRec s id (patch ((s.recValue id).getD []) 16 (natLe 8 res))

/-- The next reservation of a slot's nonce counter is written (R238). -/
def putRes (s : State) (c i pos : Nat) : State :=
  let res := (s.slot pos).res + resStep s
  writeRes (s.modSlot pos fun k => { k with res := res, resBusy := false }) c i res

/-- The slots whose reservation is being written. -/
def resSlots (s : State) : List Nat := (s.slots.filter fun e => e.2.resBusy).map (·.1)

/-- The reservation of a slot is written for its owner. -/
def putResOf (s : State) (pos : Nat) : State :=
  match allocIndex s (s.slot pos).owner pos with
  | some i => putRes s (s.slot pos).owner (i + 2) pos
  | none => s

end Sys2Proof.Machine
end

