-- ==== Sys2Proof/Machine/Numbers.lean ====
section
/-! DEFINITION. The number cell: modular arithmetic, RSA, the Weierstrass, Edwards and Montgomery
curves (chapter 07 of spec/; PRESUMED: the texts of the standards R186 cites are not in the spec;
log entry 10). Blinding never changes a result (R203) and is not computed. -/

namespace Sys2Proof.Machine

/-! ## Modular arithmetic -/

/-- `b ^ e mod m` by squaring; `fuel` bounds the bits of `e`. -/
def powModF (m : Nat) : Nat → Nat → Nat → Nat → Nat
  | 0, _, _, acc => acc
  | fuel + 1, b, e, acc =>
    if e = 0 then acc
    else powModF m fuel (b * b % m) (e / 2) (if e % 2 = 1 then acc * b % m else acc)

def powMod (b e m : Nat) : Nat := powModF m (e.log2 + 1) (b % m) e (1 % m)

/-- The extended Euclidean steps: `r` and `r'` with their coefficients modulo `m`. -/
def invF (m : Nat) : Nat → Nat → Nat → Nat → Nat → Nat
  | 0, _, _, _, _ => 0
  | fuel + 1, r, r', t, t' =>
    if r' = 0 then (if r = 1 then t else 0)
    else invF m fuel r' (r % r') t' ((t + m * m - (r / r' % m) * t') % m)

/-- The inverse modulo `m`, 0 where there is none. -/
def invMod (a m : Nat) : Nat := invF m (2 * m.log2 + 4) m (a % m) 0 1

def subMod (a b p : Nat) : Nat := (a % p + p - b % p) % p

/-! ## RSA (R189, R196) -/

/-- The material of an RSA key slot. -/
structure RsaKey where
  p : Nat
  q : Nat
  dP : Nat
  dQ : Nat
  qInv : Nat
  e : Nat

def rsaKey (k : Nat) (mat : Bytes) : RsaKey :=
  let h := k / 2
  { p := beNat (slice mat 0 h), q := beNat (slice mat h h), dP := beNat (slice mat (2 * h) h),
    dQ := beNat (slice mat (3 * h) h), qInv := beNat (slice mat (4 * h) h),
    e := beNat (slice mat (5 * h) 4) }

/-- The CRT private operation, and whether its result passes the check against the public exponent (R204). -/
def rsaCrt (key : RsaKey) (m : Nat) : Nat × Bool :=
  let m1 := powMod m key.dP key.p
  let m2 := powMod m key.dQ key.q
  let h := key.qInv * subMod m1 m2 key.p % key.p
  let s := m2 + h * key.q
  let n := key.p * key.q
  (s, key.p != 0 && key.q != 0 && powMod s key.e n == m && decide (s < n))

/-- MGF1 of RFC 8017; `fuel` counts the blocks. -/
def mgf1 (alg : Nat) (seed : Bytes) (n : Nat) : Bytes :=
  ((List.range (ceilDiv n (hashLen alg))).flatMap fun i => hashOf alg (seed ++ natBe 4 i)).take n

/-- The last arc of the NIST object identifier of a hash. -/
def hashArc (alg : Nat) : Byte :=
  match alg with
  | 0x01 => 4
  | 0x02 => 1
  | 0x03 => 2
  | 0x04 => 3
  | 0x11 => 7
  | 0x12 => 8
  | 0x13 => 9
  | _ => 10

/-- EMSA-PKCS1-v1_5 over a digest. -/
def emsaPkcs1 (alg k : Nat) (digest : Bytes) : Bytes :=
  let h := hashLen alg
  let t := [0x30, BitVec.ofNat 8 (17 + h), 0x30, 0x0D, 0x06, 0x09, 0x60, 0x86, 0x48, 0x01, 0x65,
    0x03, 0x04, 0x02, hashArc alg, 0x05, 0x00, 0x04, BitVec.ofNat 8 h] ++ digest
  [0x00, 0x01] ++ List.replicate (k - 3 - t.length) 0xFF ++ [0x00] ++ t

/-- EMSA-PSS with a salt of the hash length, for a modulus of `8 k` bits. -/
def emsaPss (alg k : Nat) (digest salt : Bytes) : Bytes :=
  let h := hashOf alg (zeros 8 ++ digest ++ salt)
  let db := zeros (k - 2 * hashLen alg - 2) ++ [0x01] ++ salt
  let masked := xorB db (mgf1 alg h db.length)
  (masked.headD 0 &&& 0x7F) :: masked.drop 1 ++ h ++ [0xBC]

/-- EMSA-PSS verification with a salt of exactly the hash length. -/
def emsaPssOk (alg k : Nat) (digest em : Bytes) : Bool :=
  let hl := hashLen alg
  let n := k - hl - 1
  let masked := em.take n
  let h := slice em n hl
  let db := xorB masked (mgf1 alg h n)
  let db := (db.headD 0 &&& 0x7F) :: db.drop 1
  let z := k - 2 * hl - 2
  2 * hl + 2 ≤ k && em.getLastD 0 == 0xBC && (masked.headD 0).msb == false
    && allZero (db.take z) && db.getD z 0 == 0x01
    && hashOf alg (zeros 8 ++ digest ++ db.drop (z + 1)) == h

/-- EME-OAEP encoding with an empty label. -/
def oaepEncode (alg k : Nat) (msg seed : Bytes) : Bytes :=
  let hl := hashLen alg
  let db := hashOf alg [] ++ zeros (k - msg.length - 2 * hl - 2) ++ [0x01] ++ msg
  let mdb := xorB db (mgf1 alg seed db.length)
  [0x00] ++ xorB seed (mgf1 alg mdb hl) ++ mdb

/-- EME-OAEP decoding: none at every failure. -/
def oaepDecode (alg k : Nat) (em : Bytes) : Option Bytes :=
  let hl := hashLen alg
  let mseed := slice em 1 hl
  let mdb := em.drop (1 + hl)
  let seed := xorB mseed (mgf1 alg mdb hl)
  let db := xorB mdb (mgf1 alg seed (k - hl - 1))
  let rest := (db.drop hl).dropWhile (· == 0)
  if em.headD 1 == 0 && db.take hl == hashOf alg [] && rest.headD 0 == 0x01 then some (rest.drop 1)
  else none

/-! ## Weierstrass curves (R197, R199) -/

/-- A curve y² = x³ − 3x + b over p, of prime order n, with coordinates of `f` bytes. -/
structure WCurve where
  p : Nat
  b : Nat
  n : Nat
  gx : Nat
  gy : Nat
  f : Nat

def wP256 : WCurve :=
  { p := 2 ^ 256 - 2 ^ 224 + 2 ^ 192 + 2 ^ 96 - 1
    b := 0x5AC635D8AA3A93E7B3EBBD55769886BC651D06B0CC53B0F63BCE3C3E27D2604B
    n := 0xFFFFFFFF00000000FFFFFFFFFFFFFFFFBCE6FAADA7179E84F3B9CAC2FC632551
    gx := 0x6B17D1F2E12C4247F8BCE6E563A440F277037D812DEB33A0F4A13945D898C296
    gy := 0x4FE342E2FE1A7F9B8EE7EB4A7C0F9E162BCE33576B315ECECBB6406837BF51F5
    f := 32 }

def wP384 : WCurve :=
  { p := 2 ^ 384 - 2 ^ 128 - 2 ^ 96 + 2 ^ 32 - 1
    b := 0xB3312FA7E23EE7E4988E056BE3F82D19181D9C6EFE8141120314088F5013875AC656398D8A2ED19D2A85C8EDD3EC2AEF
    n := 0xFFFFFFFFFFFFFFFFFFFFFFFFFFFFFFFFFFFFFFFFFFFFFFFFC7634D81F4372DDF581A0DB248B0A77AECEC196ACCC52973
    gx := 0xAA87CA22BE8B05378EB1C71EF320AD746E1D3B628BA79B9859F741E082542A385502F25DBF55296C3A545E3872760AB7
    gy := 0x3617DE4A96262C6F5D9E98BF9292DC29F8F41DBD289A147CE9DA3113B5F0B8C00A60B1CE1D7E819D7A431D7C90EA0E5F
    f := 48 }

def wP521 : WCurve :=
  { p := 2 ^ 521 - 1
    b := 0x0051953EB9618E1C9A1F929A21A0B68540EEA2DA725B99B315F3B8B489918EF109E156193951EC7E937B1652C0BD3BB1BF073573DF883D2C34F1EF451FD46B503F00
    n := 0x01FFFFFFFFFFFFFFFFFFFFFFFFFFFFFFFFFFFFFFFFFFFFFFFFFFFFFFFFFFFFFFFFFA51868783BF2F966B7FCC0148F709A5D03BB5C9B8899C47AEBB6FB71E91386409
    gx := 0x00C6858E06B70404E9CD9E3ECB662395B4429C648139053FB521F828AF606B4D3DBAA14B5E77EFE75928FE1DC127A2FFA8DE3348B3C1856A429BF97E7E31C2E5BD66
    gy := 0x011839296A789A3BC0045C8A5FB42C7D1BD998F54449579B446817AFBD17273E662C97EE72995EF42640C550B9013FAD0761353C7086A272C24088BE94769FD16650
    f := 66 }

def wCurve (alg : Nat) : WCurve := if alg = 1 then wP256 else if alg = 2 then wP384 else wP521

/-- An affine point; none is the point at infinity. -/
abbrev WPoint := Option (Nat × Nat)

def wOn (c : WCurve) (x y : Nat) : Bool :=
  x < c.p && y < c.p && y * y % c.p == (x * x * x + (c.p - 3) * x + c.b) % c.p

def wAdd (c : WCurve) (a b : WPoint) : WPoint :=
  match a, b with
  | none, q => q
  | q, none => q
  | some (x1, y1), some (x2, y2) =>
    if x1 = x2 && (y1 + y2) % c.p = 0 then none
    else
      let l := if x1 = x2 then (3 * x1 * x1 + (c.p - 3)) * invMod (2 * y1) c.p % c.p
        else subMod y2 y1 c.p * invMod (subMod x2 x1 c.p) c.p % c.p
      let x3 := subMod (l * l) (x1 + x2) c.p
      some (x3, subMod (l * subMod x1 x3 c.p) y1 c.p)

/-- Scalar multiplication by doubling; `fuel` bounds the bits. -/
def wMulF (c : WCurve) : Nat → Nat → WPoint → WPoint → WPoint
  | 0, _, _, acc => acc
  | fuel + 1, k, q, acc =>
    if k = 0 then acc
    else wMulF c fuel (k / 2) (wAdd c q q) (if k % 2 = 1 then wAdd c acc q else acc)

def wMul (c : WCurve) (k : Nat) (q : WPoint) : WPoint := wMulF c (k.log2 + 1) k q none

def wBase (c : WCurve) : WPoint := some (c.gx, c.gy)

/-- SEC 1 uncompressed point to coordinates, where it lies on the curve (R194, order 1). -/
def wDecode (c : WCurve) (b : Bytes) : Option (Nat × Nat) :=
  let x := beNat (slice b 1 c.f)
  let y := beNat (slice b (1 + c.f) c.f)
  if b.headD 0 == 0x04 && wOn c x y then some (x, y) else none

def wEncode (c : WCurve) (q : Nat × Nat) : Bytes := [0x04] ++ natBe c.f q.1 ++ natBe c.f q.2

def bitLen (n : Nat) : Nat := if n = 0 then 0 else n.log2 + 1

/-- The integer of a digest's leftmost bits (R197). -/
def digestInt (n : Nat) (d : Bytes) : Nat := beNat d >>> (8 * d.length - bitLen n)

/-- r and s from a digest integer and a secret; none where one of them is 0. -/
def ecdsaTry (c : WCurve) (d z k : Nat) : Option (Nat × Nat) :=
  match wMul c k (wBase c) with
  | none => none
  | some (x, _) =>
    let r := x % c.n
    let s := invMod k c.n * (z + r * d) % c.n
    if r = 0 || s = 0 then none else some (r, s)

/-- One attempt after another over candidate secrets; a candidate outside 1 to n − 1 is passed
over. -/
def ecdsaLoop (c : WCurve) (d z : Nat) (next : Bytes × Bytes → Nat × (Bytes × Bytes)) :
    Nat → Bytes × Bytes → Nat × Nat
  | 0, _ => (0, 0)
  | fuel + 1, st =>
    let (k, st') := next st
    if k = 0 || c.n ≤ k then ecdsaLoop c d z next fuel st'
    else match ecdsaTry c d z k with
      | some rs => rs
      | none => ecdsaLoop c d z next fuel st'

/-- Bytes of HMAC_DRBG until `n` are held. -/
def rfc6979T (alg n : Nat) (k : Bytes) : Nat → Bytes → Bytes → Bytes × Bytes
  | 0, v, t => (v, t)
  | fuel + 1, v, t =>
    if n ≤ t.length then (v, t)
    else
      let v := hmac alg k v
      rfc6979T alg n k fuel v (t ++ v)

/-- One candidate of RFC 6979, and K and V after its rejection. -/
def rfc6979Next (alg : Nat) (c : WCurve) (kv : Bytes × Bytes) : Nat × (Bytes × Bytes) :=
  let rl := ceilDiv (bitLen c.n) 8
  let (v, t) := rfc6979T alg rl kv.1 (rl + 1) kv.2 []
  let k' := hmac alg kv.1 (v ++ [0x00])
  (digestInt c.n (t.take rl), (k', hmac alg k' v))

/-- K and V at the start of RFC 6979. -/
def rfc6979Init (alg : Nat) (c : WCurve) (d : Nat) (digest : Bytes) : Bytes × Bytes :=
  let rl := ceilDiv (bitLen c.n) 8
  let m := natBe rl d ++ natBe rl (digestInt c.n digest % c.n)
  let v := List.replicate (hashLen alg) 0x01
  let k := hmac alg (zeros (hashLen alg)) (v ++ [0x00] ++ m)
  let v := hmac alg k v
  let k := hmac alg k (v ++ [0x01] ++ m)
  (k, hmac alg k v)

/-- ECDSA with the secrets that `next` draws. -/
def ecdsaSign (c : WCurve) (d : Nat) (digest : Bytes)
    (next : Bytes × Bytes → Nat × (Bytes × Bytes)) (st : Bytes × Bytes) : Bytes :=
  let (r, s) := ecdsaLoop c d (digestInt c.n digest) next 128 st
  natBe c.f r ++ natBe c.f s

/-- The verification of FIPS 186-5. -/
def ecdsaOk (c : WCurve) (q : Nat × Nat) (r s : Nat) (digest : Bytes) : Bool :=
  if r = 0 || c.n ≤ r || s = 0 || c.n ≤ s then false
  else
    let w := invMod s c.n
    let z := digestInt c.n digest
    match wAdd c (wMul c (z * w % c.n) (wBase c)) (wMul c (r * w % c.n) (some q)) with
    | none => false
    | some (x, _) => x % c.n == r

/-! ## Edwards curves (R198) -/

/-- A twisted Edwards curve a x² + y² = 1 + d x² y²; `len` is the encoding's length. -/
structure ECurve where
  p : Nat
  a : Nat
  d : Nat
  l : Nat
  bx : Nat
  by_ : Nat
  len : Nat
  cof : Nat

def eP25519 : Nat := 2 ^ 255 - 19
def eEd25519 : ECurve :=
  { p := eP25519, a := eP25519 - 1, d := 0x52036CEE2B6FFE738CC740797779E89800700A4D4141D8AB75EB4DCA135978A3
    l := 2 ^ 252 + 27742317777372353535851937790883648493
    bx := 15112221349535400772501151409588531511454012693041857206046113283949847762202
    by_ := 46316835694926478169428394003475163141307993866256225615783033603165251855960
    len := 32, cof := 8 }

def eP448 : Nat := 2 ^ 448 - 2 ^ 224 - 1
def eEd448 : ECurve :=
  { p := eP448, a := 1, d := eP448 - 39081
    l := 2 ^ 446 - 13818066809895115352007386748515426880336692474882178609894547503885
    bx := 224580040295924300187604334099896036246789641632564134246125461686950415467406032909029192869357953282578032075146446173674602635247710
    by_ := 298819210078481492676017930443930673437544040154080242095928241372331506189835876003536878655418784733982303233503462500531545062832660
    len := 57, cof := 4 }

def eCurve (alg : Nat) : ECurve := if alg = 0x11 then eEd25519 else eEd448

def eAdd (c : ECurve) (a b : Nat × Nat) : Nat × Nat :=
  let t := c.d * (a.1 * b.1 % c.p) % c.p * (a.2 * b.2 % c.p) % c.p
  ((a.1 * b.2 + a.2 * b.1) % c.p * invMod (1 + t) c.p % c.p,
   subMod (a.2 * b.2) (c.a * (a.1 * b.1 % c.p)) c.p * invMod (subMod 1 t c.p) c.p % c.p)

def eMulF (c : ECurve) : Nat → Nat → Nat × Nat → Nat × Nat → Nat × Nat
  | 0, _, _, acc => acc
  | fuel + 1, k, q, acc =>
    if k = 0 then acc
    else eMulF c fuel (k / 2) (eAdd c q q) (if k % 2 = 1 then eAdd c acc q else acc)

def eMul (c : ECurve) (k : Nat) (q : Nat × Nat) : Nat × Nat := eMulF c (k.log2 + 1) k q (0, 1)

def eEncode (c : ECurve) (q : Nat × Nat) : Bytes :=
  natLe c.len (q.2 + (q.1 % 2) * 2 ^ (8 * c.len - 1))

/-- A square root modulo p of the form 4k + 3 or 8k + 5, none where there is none. -/
def sqrtMod (p v : Nat) : Option Nat :=
  let r := if p % 4 = 3 then powMod v ((p + 1) / 4) p else powMod v ((p + 3) / 8) p
  if r * r % p = v % p then some r
  else
    let r' := r * powMod 2 ((p - 1) / 4) p % p
    if r' * r' % p = v % p then some r' else none

/-- The decoding of RFC 8032 with y below p (R198). -/
def eDecode (c : ECurve) (b : Bytes) : Option (Nat × Nat) :=
  let v := leNat b
  let top := 2 ^ (8 * c.len - 1)
  let y := v % top
  let sign := v / top
  if c.p ≤ y then none
  else
    let u := subMod (y * y) 1 c.p
    let w := subMod (c.d * (y * y % c.p)) c.a c.p
    match sqrtMod c.p (u * invMod w c.p) with
    | none => none
    | some x =>
      if x = 0 && sign = 1 then none
      else some (if x % 2 = sign then x else c.p - x, y)

/-- The hash of the scheme and its prefix: SHA-512 or SHAKE256 with dom4; Ed25519ph takes dom2. -/
def edHash (alg : Nat) (ph : Bool) (m : Bytes) : Bytes :=
  if alg = 0x11 then
    sha512 ((if ph then ascii "SigEd25519 no Ed25519 collisions" ++ [0x01, 0x00] else []) ++ m)
  else shake256 (ascii "SigEd448" ++ [if ph then 0x01 else 0x00, 0x00] ++ m) 114

/-- The secret scalar and the prefix of a seed. -/
def edExpand (alg : Nat) (seed : Bytes) : Nat × Bytes :=
  if alg = 0x11 then
    let h := sha512 seed
    (leNat (h.take 32) % 2 ^ 255 / 8 * 8 % 2 ^ 254 + 2 ^ 254, h.drop 32)
  else
    let h := shake256 seed 114
    (leNat (h.take 56) % 2 ^ 447 / 4 * 4 + 2 ^ 447, h.drop 57)

def edPublic (alg : Nat) (seed : Bytes) : Bytes :=
  let c := eCurve alg
  eEncode c (eMul c (edExpand alg seed).1 (c.bx, c.by_))

def edSign (alg : Nat) (ph : Bool) (seed m : Bytes) : Bytes :=
  let c := eCurve alg
  let (a, pre) := edExpand alg seed
  let pk := eEncode c (eMul c a (c.bx, c.by_))
  let r := leNat (edHash alg ph (pre ++ m)) % c.l
  let rp := eEncode c (eMul c r (c.bx, c.by_))
  let k := leNat (edHash alg ph (rp ++ pk ++ m)) % c.l
  rp ++ natLe c.len ((r + k * a) % c.l)

/-- The cofactored verification of R198, for a key that decodes. -/
def edOk (alg : Nat) (ph : Bool) (pk : Bytes) (a : Nat × Nat) (sig m : Bytes) : Bool :=
  let c := eCurve alg
  let rb := sig.take c.len
  let s := leNat (sig.drop c.len)
  match eDecode c rb with
  | none => false
  | some r =>
    if c.l ≤ s then false
    else
      let k := leNat (edHash alg ph (rb ++ pk ++ m)) % c.l
      eMul c (c.cof * s) (c.bx, c.by_) == eMul c c.cof (eAdd c r (eMul c k a))

/-! ## Montgomery curves (R199) -/

/-- The ladder of RFC 7748, from the top bit `t − 1` down. Values: x2, z2, x3, z3. -/
def ladder (p a24 u k : Nat) : Nat → Nat × Nat × Nat × Nat → Nat × Nat × Nat × Nat
  | 0, s => s
  | t + 1, (x2, z2, x3, z3) =>
    let sw := k.testBit t
    let (x2, x3) := if sw then (x3, x2) else (x2, x3)
    let (z2, z3) := if sw then (z3, z2) else (z2, z3)
    let a := (x2 + z2) % p
    let aa := a * a % p
    let b := subMod x2 z2 p
    let bb := b * b % p
    let e := subMod aa bb p
    let da := subMod x3 z3 p * a % p
    let cb := (x3 + z3) * b % p
    let x3' := (da + cb) % p * ((da + cb) % p) % p
    let z3' := u * (subMod da cb p * subMod da cb p % p) % p
    let x2' := aa * bb % p
    let z2' := e * ((aa + a24 * e) % p) % p
    let r := if sw then (x3', z3', x2', z2') else (x2', z2', x3', z3')
    ladder p a24 u k t r

/-- The u-coordinate of k times the point of u, none at infinity. -/
def mMul (alg bits k u : Nat) : Option Nat :=
  let p := if alg = 0x21 then eP25519 else eP448
  let a24 := if alg = 0x21 then 121665 else 39081
  let (x2, z2, _, _) := ladder p a24 (u % p) k bits (1, 0, u % p, 1)
  if z2 = 0 then none else some (x2 * invMod z2 p % p)

def mLen (alg : Nat) : Nat := if alg = 0x21 then 32 else 56

/-- The decoded u-coordinate (R199). -/
def mDecode (alg : Nat) (b : Bytes) : Nat := if alg = 0x21 then leNat b % 2 ^ 255 else leNat b

/-- The clamped scalar. -/
def mClamp (alg : Nat) (b : Bytes) : Nat :=
  if alg = 0x21 then leNat b % 2 ^ 254 / 8 * 8 + 2 ^ 254 else leNat b % 2 ^ 447 / 4 * 4 + 2 ^ 447

/-- X25519 and X448. -/
def xdh (alg : Nat) (scalar u : Bytes) : Bytes :=
  natLe (mLen alg) ((mMul alg (8 * mLen alg) (mClamp alg scalar) (mDecode alg u)).getD 0)

def mBase (alg : Nat) : Nat := if alg = 0x21 then 9 else 5

end Sys2Proof.Machine
end

