-- ==== Sys2Proof/Machine/PublicKey.lean ====
section
/-! DEFINITION. The number cell: RSA, elliptic curves and modular exponentiation (R184 to R209,
R211). -/

namespace Sys2Proof.Machine

/-! ## Cycles (R209) -/

/-- The count of a listed size; between two sizes at most the larger's; none is given elsewhere. -/
def sizeCycles (t : List (Nat × Nat)) (alg key : Nat) : Nat :=
  match t.find? fun e => alg ≤ e.1 with
  | some e => if e.1 = alg then e.2
    else if t.any fun x => x.1 < alg then atMost e.2 key else Config.openCycles key
  | none => Config.openCycles key

def rsaPrivCycles (alg : Nat) : Nat :=
  sizeCycles [(0x10, 27000), (0x20, 168400), (0x30, 540000), (0x40, 1240000), (0x80, 9600000)] alg
    (0x30100 + alg)

def onesF : Nat → Nat → Nat
  | 0, _ => 0
  | fuel + 1, v => v % 2 + onesF fuel (v / 2)

/-- RSA_PUB scales with the exponent. -/
def rsaPubCycles (alg e : Nat) : Nat :=
  sizeCycles [(0x20, 4600), (0x30, 9800), (0x40, 16500), (0x80, 64000)] alg (0x30200 + alg)
    * ((bitLen e - 1) + (onesF 32 e - 1)) / 17

def modexpCycles (alg : Nat) : Nat := sizeCycles [(0x20, 620000), (0x40, 4800000)] alg (0x30900 + alg)

def by3 (alg a b c : Nat) : Nat := if alg % 16 = 1 then a else if alg % 16 = 2 then b else c

def ecdsaSignCycles (alg : Nat) : Nat := by3 alg 25800 67000 138000
def ecdsaVerifyCycles (alg : Nat) : Nat := by3 alg 34000 88000 181000
def ecdhCycles (alg : Nat) : Nat := by3 alg 24600 64000 132000
def xdhCycles (alg : Nat) : Nat := by3 alg 20000 52000 52000
def edSignCycles (alg : Nat) : Nat := by3 alg 16840 44000 44000
def edVerifyCycles (alg : Nat) : Nat := by3 alg 36000 96000 96000

/-- What the message of pure EdDSA adds, once. -/
def edMsgCycles (alg n : Nat) : Nat := (if alg = 0x11 then 40 else 24) * ceilDiv (n - 32) 128

/-! ## RSA (R196) -/

/-- k of R187. -/
def Job.k (j : Job) : Nat := 8 * dAlg j.desc

/-- The raw private operation on a value, and what is made of its result. A result that cannot be decoded fails
before the fault check (R194). -/
def rsaApply (s : State) (id m cyc : Nat) (fault : Bool) (f : Bytes → CellOut) : State :=
  let j := s.job id
  let r := rsaCrt (rsaKey j.k j.keyMat) m
  let o := f (natBe j.k r.1)
  if o.status == stOk && (fault || !r.2) then faultCheck s id cyc else finishCell s id { o with cycles := cyc }

def opRsaPriv (id : Nat) (fault : Bool) (s : State) : State :=
  let j := s.job id
  let d := j.desc
  let v := dVariant d
  let h := dHash d
  let key := rsaKey j.k j.keyMat
  let cyc := rsaPrivCycles (dAlg d)
  if !s.ready id .rsaPriv then s
  else if (v = 0 || v = 3) && key.p * key.q ≤ beNat j.got then
    finishCell s id { status := stRange, detail := 0x80, cycles := cyc }
  else withDraw s id (hashLen h) fun salt s =>
    if v = 0 then rsaApply s id (beNat j.got) cyc fault fun b => { output := b }
    else if v = 1 then rsaApply s id (beNat (emsaPkcs1 h j.k j.got)) cyc fault fun b => { output := b }
    else if v = 2 then rsaApply s id (beNat (emsaPss h j.k j.got salt)) cyc fault fun b => { output := b }
    else rsaApply s id (beNat j.got) cyc fault fun b =>
      match oaepDecode h j.k b with
      | some m => { output := m, opInfo := m.length }
      | none => cellFail stRange 0x84

def execRsaPriv (job : Nat) (fault : Bool) (s : State) : Host.Outcome State Fault Refusal :=
  .next (opRsaPriv job fault s)

/-- RSA_PUB reads n, e and the rest from byte k + 4 on, for OAEP too (R192, R196; log 86). -/
def opRsaPub (id : Nat) (s : State) : State :=
  let j := s.job id
  let d := j.desc
  let k := j.k
  let v := dVariant d
  let h := dHash d
  let n := beNat (j.got.take k)
  let e := beNat (slice j.got k 4)
  let rest := j.got.drop (k + 4)
  let cyc := rsaPubCycles (dAlg d) e
  let early := atMost cyc (0x30280 + dAlg d)
  let ends := fun (r : CellOut) => finishCell s id r
  if !s.ready id .rsaPub then s
  else if n % 2 = 0 || n < 2 ^ (8 * k - 1) || e % 2 = 0 || e < 3 then
    ends { status := stRange, detail := 0x81, cycles := early }
  else if v = 0 then
    if n ≤ beNat rest then ends { status := stRange, detail := 0x80, cycles := early }
    else ends { output := natBe k (powMod (beNat rest) e n), cycles := cyc }
  else if v = 3 then withDrbg s id [hashLen h] fun seed s =>
    finishCell s id { output := natBe k (powMod (beNat (oaepEncode h k rest seed)) e n), cycles := cyc }
  else
    let sig := beNat (rest.take k)
    let em := natBe k (powMod sig e n)
    let dig := rest.drop k
    let ok := sig < n && (if v = 1 then em == emsaPkcs1 h k dig else emsaPssOk h k dig em)
    ends { status := if ok then stOk else stSigInvalid, cycles := if ok then cyc else early }

def execRsaPub (job : Nat) (s : State) : Host.Outcome State Fault Refusal := .next (opRsaPub job s)

def opModexpRaw (id : Nat) (s : State) : State :=
  let j := s.job id
  let k := j.k
  let n := beNat (j.got.take k)
  let e := beNat (slice j.got k k)
  let b := beNat (slice j.got (2 * k) k)
  let cyc := modexpCycles (dAlg j.desc)
  if !s.ready id .modexpRaw then s
  else if n % 2 = 0 || n ≤ 1 then finishCell s id { status := stRange, detail := 0x83, cycles := cyc }
  else if n ≤ b then finishCell s id { status := stRange, detail := 0x80, cycles := cyc }
  else finishCell s id { output := natBe k (powMod b e n), cycles := cyc }

def execModexpRaw (job : Nat) (s : State) : Host.Outcome State Fault Refusal := .next (opModexpRaw job s)

/-! ## ECDSA (R197) -/

/-- One candidate secret from 1 to n − 1 out of a stream of random bytes. -/
def randomSecret (n : Nat) (st : Bytes × Bytes) : Nat × (Bytes × Bytes) :=
  (1 + beNat (st.1.take 72) % (n - 1), (st.1.drop 72, st.2))

def opEcdsaSign (id : Nat) (fault : Bool) (s : State) : State :=
  let j := s.job id
  let c := wCurve (dAlg j.desc)
  let x := beNat j.keyMat
  let cyc := ecdsaSignCycles (dAlg j.desc)
  if !s.ready id .ecdsaSign then s
  else withDraw s id 9216 fun r s =>
    let sig := if dVariant j.desc = 0 then ecdsaSign c x j.got (randomSecret c.n) (r, [])
      else ecdsaSign c x j.got (rfc6979Next (dHash j.desc) c) (rfc6979Init (dHash j.desc) c x j.got)
    if fault then faultCheck s id cyc else finishCell s id { output := sig, cycles := cyc }

def execEcdsaSign (job : Nat) (fault : Bool) (s : State) : Host.Outcome State Fault Refusal :=
  .next (opEcdsaSign job fault s)

/-- The status of a verification, and the cycles of one that fails. -/
def verified (ok : Bool) (cyc key : Nat) : CellOut :=
  { status := if ok then stOk else stSigInvalid, cycles := if ok then cyc else atMost cyc key }

def ecdsaVerifyCell (j : Job) (_ : Ctx) : CellOut :=
  let a := dAlg j.desc
  let c := wCurve a
  let f := c.f
  let cyc := ecdsaVerifyCycles a
  match wDecode c (j.got.take (1 + 2 * f)) with
  | none => { status := stRange, detail := 0x81, cycles := atMost cyc (0x30400 + a) }
  | some q =>
    verified (ecdsaOk c q (beNat (slice j.got (1 + 2 * f) f)) (beNat (slice j.got (1 + 3 * f) f))
      (j.got.drop (1 + 4 * f))) cyc (0x30400 + a)

def opEcdsaVerify (id : Nat) (s : State) : State := runCell .ecdsaVerify ecdsaVerifyCell id s

def execEcdsaVerify (job : Nat) (s : State) : Host.Outcome State Fault Refusal := .next (opEcdsaVerify job s)

/-! ## EdDSA (R198) -/

def opEddsaSign (id : Nat) (fault : Bool) (s : State) : State :=
  let j := s.job id
  let a := dAlg j.desc
  let ph := dVariant j.desc = 1
  let cyc := edSignCycles a + (if ph then 0 else 2 * edMsgCycles a (dMsg j.desc))
  if !s.ready id .eddsaSign then s
  else withDraw s id 16 fun _ s =>
    if fault then faultCheck s id cyc
    else finishCell s id { output := edSign a ph j.keyMat j.got, cycles := cyc }

def execEddsaSign (job : Nat) (fault : Bool) (s : State) : Host.Outcome State Fault Refusal :=
  .next (opEddsaSign job fault s)

def eddsaVerifyCell (j : Job) (_ : Ctx) : CellOut :=
  let a := dAlg j.desc
  let ph := dVariant j.desc = 1
  let pk := j.got.take (pubLen a)
  let sig := slice j.got (pubLen a) (sigLen a)
  let m := j.got.drop (pubLen a + sigLen a)
  let cyc := edVerifyCycles a + (if ph then 0 else edMsgCycles a m.length)
  match eDecode (eCurve a) pk with
  | none => { status := stRange, detail := 0x81, cycles := atMost cyc (0x30600 + a) }
  | some q => verified (edOk a ph pk q sig m) cyc (0x30600 + a)

def opEddsaVerify (id : Nat) (s : State) : State := runCell .eddsaVerify eddsaVerifyCell id s

def execEddsaVerify (job : Nat) (s : State) : Host.Outcome State Fault Refusal := .next (opEddsaVerify job s)

/-! ## Key agreement (R199, R207) -/

/-- The shared secret on a P-curve, or the DETAIL of the check that fails. -/
def ecdhOf (alg : Nat) (scalar peer : Bytes) : BitVec 8 ⊕ Bytes :=
  let c := wCurve alg
  match wDecode c peer with
  | none => .inl 0x81
  | some q =>
    match wMul c (beNat scalar) (some q) with
    | none => .inl 0x82
    | some (x, _) => .inr (natBe c.f x)

/-- The shared secret of X25519 or X448. -/
def xdhOf (alg : Nat) (scalar peer : Bytes) : BitVec 8 ⊕ Bytes :=
  let r := xdh alg scalar peer
  if allZero r then .inl 0x82 else .inr r

/-- A secret or point passes the checks of R194 in order and goes to `f`; the blinding values are drawn (R203) once the
operands have passed. -/
def agreed (s : State) (id cyc : Nat) (fault : Bool) (r : BitVec 8 ⊕ Bytes) (f : Bytes → State → State) : State :=
  match r with
  | .inl det =>
    let ends := fun (s : State) => finishCell s id { status := stRange, detail := det, cycles := cyc }
    if det = 0x81 then ends s else withDraw s id 16 fun _ s => ends s
  | .inr b => withDraw s id 16 fun _ s => if fault then faultCheck s id cyc else f b s

/-- The job's output, after so many busy cycles. -/
def outputs (id cyc : Nat) (b : Bytes) (s : State) : State := finishCell s id { output := b, cycles := cyc }

def opEcdh (id : Nat) (fault : Bool) (s : State) : State :=
  let j := s.job id
  if s.ready id .ecdh then
    agreed s id (ecdhCycles (dAlg j.desc)) fault (ecdhOf (dAlg j.desc) j.keyMat j.got)
      (outputs id (ecdhCycles (dAlg j.desc)))
  else s

def execEcdh (job : Nat) (fault : Bool) (s : State) : Host.Outcome State Fault Refusal :=
  .next (opEcdh job fault s)

def opXdh (id : Nat) (fault : Bool) (s : State) : State :=
  let j := s.job id
  if s.ready id .xdh then
    agreed s id (xdhCycles (dAlg j.desc)) fault (xdhOf (dAlg j.desc) j.keyMat j.got)
      (outputs id (xdhCycles (dAlg j.desc)))
  else s

def execXdh (job : Nat) (fault : Bool) (s : State) : Host.Outcome State Fault Refusal :=
  .next (opXdh job fault s)

/-! ## EC_POINT_MUL_RAW (R199) -/

/-- A scalar times a point, or the DETAIL of the check that fails; `base` takes the standard base
point. -/
def pointMul (alg : Nat) (base : Bool) (b : Bytes) : BitVec 8 ⊕ Bytes :=
  let sc := b.take (scalarLen alg)
  let pt := b.drop (scalarLen alg)
  if alg < 0x10 then
    let c := wCurve alg
    match if base then some (c.gx, c.gy) else wDecode c pt with
    | none => .inl 0x81
    | some q =>
      match wMul c (beNat sc % c.n) (some q) with
      | none => .inl 0x82
      | some r => .inr (wEncode c r)
  else if alg < 0x20 then
    let c := eCurve alg
    match if base then some (c.bx, c.by_) else eDecode c pt with
    | none => .inl 0x81
    | some q =>
      let r := eMul c (leNat sc % c.l) q
      if r = (0, 1) then .inl 0x82 else .inr (eEncode c r)
  else
    match mMul alg (8 * mLen alg) (leNat sc) (if base then mBase alg else mDecode alg pt) with
    | none => .inl 0x82
    | some u => .inr (natLe (mLen alg) u)

/-- The busy cycles of EC_POINT_MUL_RAW (R209). Ed25519 and Ed448 have no ECDH or XDH count: VARIANT 0x00 takes those of
X25519 and X448 (DESIGN CHOICE, log 80). -/
def pointCycles (alg variant : Nat) : Nat :=
  if 0x20 ≤ alg then xdhCycles alg
  else if alg < 0x10 then (if variant = 0 then ecdhCycles alg else ecdsaSignCycles alg)
  else if variant = 0 then (if alg = 0x11 then 20000 else 52000)
  else edSignCycles alg

def opEcPointMulRaw (id : Nat) (fault : Bool) (s : State) : State :=
  let j := s.job id
  let a := dAlg j.desc
  if s.ready id .ecPointMulRaw then
    agreed s id (pointCycles a (dVariant j.desc)) fault (pointMul a (dVariant j.desc == 1) j.got)
      (outputs id (pointCycles a (dVariant j.desc)))
  else s

def execEcPointMulRaw (job : Nat) (fault : Bool) (s : State) : Host.Outcome State Fault Refusal :=
  .next (opEcPointMulRaw job fault s)

end Sys2Proof.Machine
end

