-- ==== Sys2Proof/Machine/KeyRows.lean ====
section
/-! DEFINITION. The key management opcodes, and the export and import of contexts (R125 to R127, R176,
R177, R207, R230 to R235, R239 to R245). -/

namespace Sys2Proof.Machine

/-! ## The propolis engine -/

/-- The job may run: on propolis it is the engine's next one. -/
def served (s : State) (id : Nat) (o : Op) : Bool :=
  s.ready id o && ((s.job id).acct != .propolis || ppNext s == some id)

/-- A propolis operation is completed (R251); the engine's DRBG has moved on (R239). -/
def ppCount (s : State) : State :=
  { s with ks.ppOps := s.ks.ppOps + 1, ks.ppDrbg := some (Config.ppDrbgAfter s.freeN), freeN := s.freeN + 1 }

/-- The operation of a job that the engine worked on is completed. -/
def ppDone (s : State) (id : Nat) : State := if (s.job id).acct == .propolis then ppCount s else s

/-- The engine reports the outcome of a job. -/
def ppEnds (s : State) (id : Nat) (r : CellOut) : State := ppDone (finishCell s id r) id

/-- The cost of wrapping or unwrapping `m` semiblocks (R240). -/
def wrapCost (m : Nat) : Nat := if m = 1 then 150 else 6 * m * 150

/-! ## KEY_GENERATE (R234) -/

/-- Material and public part of a generated curve key. -/
def curveKey (kt : Nat) (r : Bytes) : Bytes × Bytes :=
  let a := kt % 256
  if a < 0x10 then
    let c := wCurve a
    let d := beNat r % (c.n - 1) + 1
    (natBe c.f d, match wMul c d (wBase c) with | some q => wEncode c q | none => [])
  else if a < 0x20 then (r, edPublic a r)
  else (r, natLe (mLen a) ((mMul a (8 * mLen a) (mClamp a r) (mBase a)).getD 0))

def opKeyGenerate (id : Nat) (s : State) : State :=
  let kt := kbType (s.job id).desc
  let n := (keyLen kt).getD 0
  if !s.ready id .keyGenerate then s
  else if ktCurve kt then
    withDrbg s id [if kt % 256 < 0x10 then n + 8 else n] fun r s =>
      commitKey s id (curveKey kt r).1 (curveKey kt r).2 (pointCycles (kt % 256) 1)
  else withDrbg s id [n] fun r s => commitKey s id r [] 64

def execKeyGenerate (job : Nat) (s : State) : Host.Outcome State Fault Refusal := .next (opKeyGenerate job s)

/-! ## KEY_DERIVE (R230 to R232) -/

/-- The context of R231. -/
def deriveCtx (j : Job) : Bytes :=
  natBe 2 (kbType j.desc) ++ natBe 8 (kbPolicy j.desc) ++ natBe 2 j.client ++ j.got

def deriveCost (j : Job) (n : Nat) : Nat :=
  let fixed := 4 + (kbLabel j.desc).length + 1 + 12 + j.got.length + 4
  if dSub j.desc = 1 then
    32 * (ceilDiv n 32 * ceilDiv (fixed + j.keyMat.length + 9) 64) + 8
  else (1 + ceilDiv n 16 * ceilDiv fixed 16) * 150

def opKeyDerive (id : Nat) (s : State) : State :=
  let j := s.job id
  let n := (keyLen (kbType j.desc)).getD 0
  let k := if dSub j.desc = 1 then kdfHash j.keyMat (kbLabel j.desc) (deriveCtx j) n
    else kdf j.keyMat (kbLabel j.desc) (deriveCtx j) n
  if served s id .keyDerive then ppDone (commitKey s id k [] (deriveCost j n)) id else s

def execKeyDerive (job : Nat) (s : State) : Host.Outcome State Fault Refusal := .next (opKeyDerive job s)

/-! ## KEY_WRAP and KEY_UNWRAP (R242, R243) -/

/-- The header of a Hive blob. -/
def blobHeader (kt len : Nat) (policy : W64) : Bytes :=
  [0x01, 0x00] ++ natLe 2 kt ++ natLe 2 len ++ zeros 2 ++ bvLe 8 policy

def opKeyWrap (id : Nat) (s : State) : State :=
  let j := s.job id
  let k := s.slot ((j.refs[1]?).getD 0)
  let sub := dSub j.desc
  let m := j.wrapMat
  if served s id .keyWrap then
    let out :=
      if sub = 0 then kwpWrap j.keyMat (blobHeader k.ktype m.length k.policy ++ m)
      else if sub = 1 then kwWrap j.keyMat m
      else kwpWrap j.keyMat m
    ppEnds s id { output := out, cycles := wrapCost (out.length / 8 - 1) }
  else s

def execKeyWrap (job : Nat) (s : State) : Host.Outcome State Fault Refusal := .next (opKeyWrap job s)

/-- The content of an unwrapped key: its material, or nothing where R243 refuses it. -/
def unwrapped (sub kt pol : Nat) (p : Bytes) : Option Bytes :=
  let n := (keyLen kt).getD 0
  let m := if sub = 0 then p.drop 16 else p
  let okHead := sub != 0 || (16 ≤ p.length && p.headD 0 == 0x01 && leAt p 1 1 == 0 && leAt p 2 2 == kt
    && leAt p 4 2 == n && leAt p 6 2 == 0
    && (List.range 16).all fun i => !bit pol i || bit (leAt p 8 8) i)
  let okScalar := !(kt == 0x301 || kt == 0x302 || kt == 0x303)
    || (1 ≤ beNat m && beNat m < (wCurve (kt % 256)).n)
  if okHead && m.length == n && okScalar then some m else none

def unwrapPlain (sub : Nat) (key b : Bytes) : Option Bytes :=
  if sub = 1 then kwUnwrap key b else kwpUnwrap key b

def opKeyUnwrap (id : Nat) (s : State) : State :=
  let j := s.job id
  let d := j.desc
  let cyc := wrapCost (dMsg d / 8 - 1)
  if !served s id .keyUnwrap then s
  else match unwrapPlain (dSub d) j.keyMat j.got with
    | none => ppEnds s id { status := stAuthFail, cycles := cyc }
    | some p =>
      match unwrapped (dSub d) (kbType d) (kbPolicy d) p with
      | none => ppEnds s id { status := stPolicy, detail := 0x0B, cycles := cyc }
      | some m => ppDone (commitKey s id m [] cyc) id

def execKeyUnwrap (job : Nat) (s : State) : Host.Outcome State Fault Refusal := .next (opKeyUnwrap job s)

/-! ## KEY_CHECK_VALUE (R241) -/

def checkValue (kt : Nat) (m : Bytes) : Bytes :=
  if kt = 4 || kt = 5 then
    let h := m.length / 2
    cmac (m.take h) (zeros 16) ++ cmac (m.drop h) (zeros 16)
  else cmac m (zeros 16)

def opKeyCheckValue (id : Nat) (s : State) : State :=
  let j := s.job id
  if served s id .keyCheckValue then
    let out := checkValue (s.slot j.keyPos).ktype j.keyMat
    ppEnds s id { output := out, cycles := 300 * (out.length / 16) }
  else s

def execKeyCheckValue (job : Nat) (s : State) : Host.Outcome State Fault Refusal :=
  .next (opKeyCheckValue job s)

/-! ## KEY_INVALIDATE (R235, R237, R246) -/

/-- The invalidation of a slot erases its persistent record. -/
def eraseSlotRec (s : State) (c i : Nat) : State :=
  match s.slotPos c i with
  | none => s
  | some p =>
    if (s.slot p).pol 14 then
      match keyRecOf s c i with
      | some r => eraseRec s r
      | none => s
    else s

def opKeyInvalidate (id : Nat) (s : State) : State :=
  let j := s.job id
  let c := j.client
  let i := dKeySlot j.desc
  let noComb := fun (s : State) => s.modJob id fun x => { x with noComb := true }
  if !s.ready id .keyInvalidate || !s.hv.kclk then s
  else match invalidateIssue s c i with
    | some (st, det) => noComb (finishCell s id (cellFail st det))
    | none =>
      if invalidateWaits s c i then s
      else noComb (finishCell (invalidate (eraseSlotRec s c i) c i) id {})

def execKeyInvalidate (job : Nat) (s : State) : Host.Outcome State Fault Refusal :=
  .next (opKeyInvalidate job s)

/-! ## KEY_ATTEST (R244, R245) -/

/-- The public key of R188 of a key, n ‖ e for RSA, nothing for a symmetric type. -/
def publicOf (kt : Nat) (m : Bytes) : Bytes :=
  let a := kt % 256
  if ktRsa kt then
    let k := 8 * (kt - 0x0200)
    let r := rsaKey k m
    natBe k (r.p * r.q) ++ natBe 4 r.e
  else if kt == 0x301 || kt == 0x302 || kt == 0x303 then
    match wMul (wCurve a) (beNat m) (wBase (wCurve a)) with
    | some q => wEncode (wCurve a) q
    | none => []
  else if kt == 0x311 || kt == 0x312 then edPublic a m
  else if kt == 0x321 || kt == 0x322 then natLe (mLen a) ((mMul a (8 * mLen a) (mClamp a m) (mBase a)).getD 0)
  else if ktKem kt then (kemKeys a (m.take 32)).1
  else if ktDsa kt then (dsaKeys a m).pk
  else []

def attestCost (kt : Nat) (m : Bytes) : Nat :=
  let a := kt % 256
  if ktRsa kt then rsaPubCycles (kt - 0x0200) (rsaKey (8 * (kt - 0x0200)) m).e
  else if ktCurve kt then pointCycles a 1
  else if ktKem kt then kemKeygenCycles a
  else if ktDsa kt then dsaKeygenCycles a
  else 300

/-- The 152-byte statement. -/
def statement (s : State) (j : Job) (pos : Nat) : Bytes :=
  let k := s.slot pos
  [0x51, 0x48, 0x4B, 0x41, 0x01, if k.root then 1 else 0] ++ natLe 2 j.client
    ++ bvLe 4 (s.tenant j.client).epoch ++ natLe 4 (dKeySlot j.desc) ++ natLe 2 k.ktype
    ++ natLe 2 s.lcCode ++ bvLe 2 (s.gen pos) ++ zeros 2 ++ bvLe 8 k.policy
    ++ [BitVec.ofNat 8 k.origin, if k.exposed then 1 else 0, BitVec.ofNat 8 (dMsg j.desc), 0]
    ++ natLe 8 (if k.pol 13 then k.next else 0) ++ natLe 10 s.sync.h ++ zeros 2
    ++ (if ktSym k.ktype then zeros 32 else sha256 (publicOf k.ktype j.keyMat)) ++ fit j.got 64

def opKeyAttest (id : Nat) (s : State) : State :=
  let j := s.job id
  let pos := j.keyPos
  if !served s id .keyAttest then s
  else
    let s := if (s.slot pos).pol 13 then retireSlot s pos else s
    let st := statement s j pos
    let sig := edSign 0x11 false (s.ks.devSeed.getD []) (ascii "QHV1 KEY_ATTEST" ++ [0] ++ st)
    ppEnds s id { output := st ++ sig, cycles := attestCost (s.slot pos).ktype j.keyMat }

def execKeyAttest (job : Nat) (s : State) : Host.Outcome State Fault Refusal := .next (opKeyAttest job s)

/-! ## KEY_AGREE_TO_SLOT (R207, R208) -/

def opKeyAgreeToSlot (id : Nat) (fault : Bool) (s : State) : State :=
  let j := s.job id
  let a := dAlg j.desc
  if !s.ready id .keyAgreeToSlot then s
  else if 0x41 ≤ a then
    withDraw s id 32 fun _ s => commitKey s id (kemDecaps a j.keyMat j.got) [] (kemDecapCycles a)
  else
    let cyc := if a < 0x10 then ecdhCycles a else xdhCycles a
    agreed s id cyc fault (if a < 0x10 then ecdhOf a j.keyMat j.got else xdhOf a j.keyMat j.got)
      fun z s => commitKey s id z [] cyc

def execKeyAgreeToSlot (job : Nat) (fault : Bool) (s : State) : Host.Outcome State Fault Refusal :=
  .next (opKeyAgreeToSlot job fault s)

/-! ## CTX_EXPORT and CTX_IMPORT (R125 to R127, R176, R177) -/

/-- KIND of a stream. -/
def ctxKind (op : Nat) : Nat := if op = 0x0201 || op = 0x0207 then 0 else if op / 256 = 2 then 1 else 2

/-- The 272-byte blob of R126. -/
def exportBlob (c : Nat) (k : Ctx) : Bytes :=
  let kind := ctxKind k.opcode
  let head := [0x01, BitVec.ofNat 8 kind] ++ natLe 2 k.opcode ++ [BitVec.ofNat 8 k.alg, 0] ++ natLe 2 c
  if kind = 0 then head ++ zeros 8 ++ fit k.chain 216 ++ natLe 8 k.done ++ zeros 32
  else
    let more := blobMask (fit k.nonce 16
      ++ fit ([BitVec.ofNat 8 k.chain.length, BitVec.ofNat 8 k.nonce.length, if k.hwNonce then 1 else 0]
        ++ natLe 8 k.aad) 32)
    head ++ natLe 4 k.keySlot ++ natLe 4 k.keyGen.toNat ++ blobMask (fit k.chain 200) ++ more.take 16
      ++ natLe 8 k.done ++ more.drop 16

/-- The tenant's context key, while it is valid. -/
def ctxKeyOf (s : State) (c : Nat) : Option Bytes :=
  let k := s.slot (ckPos c)
  if k.state == .valid && rootOk s k then some k.mat else none

def opCtxExport (id : Nat) (s : State) : State :=
  let j := s.job id
  let k := s.ctx j.client (dCtx j.desc)
  if !served s id .ctxExport then s
  else if ctxKind k.opcode = 0 && j.clear then ppEnds s id { output := exportBlob j.client k }
  else if s.ks.zeroising == some .substitution then ppEnds s id (cellFail stOrphaned 0x03)
  else if laneShut s then s
  else match ctxKeyOf s j.client with
    | none => ppEnds s id (cellFail stOrphaned 0x03)
    | some ck => ppEnds s id { output := kwpWrap ck (exportBlob j.client k), cycles := wrapCost 34 }

def execCtxExport (job : Nat) (s : State) : Host.Outcome State Fault Refusal := .next (opCtxExport job s)

/-- OPCODE and ALG form a streamable pair (R127). -/
def streamable (op alg : Nat) : Bool :=
  match opOf op with
  | some o => o.streamable && algOk o alg
  | none => false

/-- The third check of R127 with R177's for KIND 0. A KIND 0 blob whose OPCODE is neither HASH nor SHAKE_XOF has not the
form (DESIGN CHOICE, log 74: the spec names no check of KIND against OPCODE). -/
def blobForm (b : Bytes) : Bool :=
  let op := leAt b 2 2
  let alg := leAt b 4 1
  let n := if alg = 1 || alg = 2 then 32 else if alg = 3 || alg = 4 then 64 else 200
  leAt b 0 1 == 1 && streamable op alg
    && (leAt b 1 1 != 0
      || (ctxKind op == 0 && leAt b 5 1 == 0 && allZero (slice b 216 16) && allZero (slice b 240 32)
        && allZero (slice b 8 8) && leAt b 232 8 % hashBlock alg == 0 && leAt b 232 8 ≤ 2 ^ 61 - 1
        && allZero (slice b (16 + n) (200 - n))))

/-- The checks of R127 on a blob, in order. -/
def importIssue (s : State) (j : Job) (b : Bytes) (clear : Bool) : Fail :=
  if !blobForm b then some (stRange, 0x03)
  else if leAt b 6 2 != j.client then some (stPolicy, 0x00)
  else if clear && !(leAt b 1 1 == 0 && j.clear) then some (stPolicy, 0x00)
  else if leAt b 1 1 == 0 then none
  else match s.slotPos j.client (leAt b 8 4) with
    | some p =>
      if (s.slot p).state == .valid && (s.gen p).toNat == leAt b 12 4 then none else some (stOrphaned, 0x05)
    | none => some (stOrphaned, 0x05)

/-- The blob is kept until the context takes it at the job's end. -/
def importBlob (s : State) (id : Nat) (b : Bytes) (clear : Bool) : State :=
  let cyc := if clear then 0 else wrapCost 34
  match importIssue s (s.job id) b clear with
  | some (st, det) => ppEnds s id { status := st, detail := det, cycles := cyc }
  | none => ppEnds (s.modJob id fun j => { j with wrapMat := b }) id { cycles := cyc }

def opCtxImport (id : Nat) (s : State) : State :=
  let j := s.job id
  if !served s id .ctxImport then s
  else if dMsg j.desc = 272 then importBlob s id j.got true
  else if s.ks.zeroising == some .substitution then ppEnds s id (cellFail stOrphaned 0x03)
  else if laneShut s then s
  else match ctxKeyOf s j.client with
    | none => ppEnds s id (cellFail stOrphaned 0x03)
    | some ck =>
      match kwpUnwrap ck j.got with
      | none => ppEnds s id { status := stAuthFail, cycles := wrapCost 34 }
      | some b => importBlob s id b false

def execCtxImport (job : Nat) (s : State) : Host.Outcome State Fault Refusal := .next (opCtxImport job s)

end Sys2Proof.Machine
end

