-- ==== Sys2Proof/Machine/LcOps.lean ====
section
/-! DEFINITION. The OTP array: votes, the journal, the owner fields and the life-cycle word, and what the
always-on domain programs into them (R392 to R398). Programming only sets bits. -/

namespace Sys2Proof.Machine

/-! ## Votes (R392) -/

/-- Each bit takes the value held by at least two of the three copies. -/
def vote {w : Nat} (a b c : BitVec w) : BitVec w := (a &&& b) ||| (a &&& c) ||| (b &&& c)

def Otp3.voted (o : Otp3) : BitVec 32 := vote o.a o.b o.c
/-- Some bit of some copy is set. -/
def Otp3.used (o : Otp3) : Bool := (o.a ||| o.b ||| o.c) != 0
/-- All three copies are programmed with a word. -/
def Otp3.program (o : Otp3) (w : BitVec 32) : Otp3 := ⟨o.a ||| w, o.b ||| w, o.c ||| w⟩

/-- An owner key hash field, voted bit by bit: 48 bytes of hash and its CRC-32C. -/
def ownerVote (f : Bytes × Bytes × Bytes) : Bytes :=
  (List.range 52).map fun i => vote (f.1[i]?.getD 0) (f.2.1[i]?.getD 0) (f.2.2[i]?.getD 0)

def ownerUsed (f : Bytes × Bytes × Bytes) : Bool := !(allZero f.1 && allZero f.2.1 && allZero f.2.2)

/-- The voted CRC of a field matches its hash. -/
def ownerOk (v : Bytes) : Bool := leAt v 48 4 == (crc32c (v.take 48)).toNat

/-- The fields that are used, in order. -/
def Otp.owners (o : Otp) : List Bytes := ((o.owner.take 3).filter ownerUsed).map ownerVote

/-- OWNER_KEY_HASH: the last used field whose CRC matches (R374, R398). -/
def Otp.ownerHash (o : Otp) : Option Bytes := ((o.owners.filter ownerOk).getLast?).map (·.take 48)

/-- SVN_MIN: the programmed bits of the voted thermometer field (R374). -/
def Otp.svnMin (o : Otp) : Nat :=
  let v := vote o.svn.1 o.svn.2.1 o.svn.2.2
  ((List.range 64).filter v.getLsbD).length

/-! ## The journal (R397, R398) -/

def Otp.entry (o : Otp) (i : Nat) : JEntry := (o.journal[i]?).getD {}

/-- The next free entry: the one after the highest entry whose intent word has any bit set. -/
def Otp.nextEntry (o : Otp) : Nat :=
  (List.range 20).foldl (fun n i => if (o.entry i).intent.used then i + 1 else n) 0

/-- JOURNAL_FREE of LC_STATUS. -/
def Otp.journalFree (o : Otp) : Nat := 20 - o.nextEntry

def Otp.setEntry (o : Otp) (i : Nat) (e : JEntry) : Otp :=
  { o with journal := (List.range 20).map fun k => if k = i then e else o.entry k }

/-- TARGET and its complement. -/
def intentWord (target : Nat) : BitVec 32 := BitVec.ofNat 32 (target % 65536 + (65535 - target % 65536) * 65536)

/-- The target of a valid intent word. -/
def intentTarget (w : BitVec 32) : Option Nat :=
  let t := w.toNat % 65536
  if w = intentWord t then some t else none

/-- The LC word bit that a transition to a state sets (R393). -/
def targetBit (code : Nat) : Nat :=
  if code = 0x0600 then 19
  else if code = 0x0500 then 18
  else if code = 0x0400 then 17
  else if code = 0x0300 then 16
  else if code / 256 = 2 then 2 * (code % 256) + 1
  else 2 * (code % 256)

/-- Step 3: the target's bit of the LC word. -/
def Otp.writeLc (o : Otp) (target : Nat) : Otp := { o with lc := o.lc.program (1#32 <<< targetBit target) }

/-- Step 4: the done word of the highest used entry; bit 0 DONE, bit 1 ABANDONED. -/
def Otp.writeDone (o : Otp) (w : BitVec 32) : Otp :=
  let n := o.nextEntry
  if n = 0 then o
  else o.setEntry (n - 1) { o.entry (n - 1) with done := (o.entry (n - 1)).done.program w }

/-! ## The words of a transition (R397 to R399) -/

/-- Bits are programmed in one copy of a word. -/
def Otp3.programCopy (o : Otp3) (copy : Nat) (w : BitVec 32) : Otp3 :=
  match copy with
  | 0 => { o with a := o.a ||| w }
  | 1 => { o with b := o.b ||| w }
  | _ => { o with c := o.c ||| w }

/-- Bits are programmed in word `i` of one copy of an owner field. -/
def ownerProgram (f : Bytes × Bytes × Bytes) (copy i : Nat) (w : BitVec 32) : Bytes × Bytes × Bytes :=
  let put := fun (b : Bytes) => patch (fit b 52) (4 * i) (bvLe 4 (BitVec.ofNat 32 (leAt (fit b 52) (4 * i) 4) ||| w))
  match copy with
  | 0 => (put f.1, f.2.1, f.2.2)
  | 1 => (f.1, put f.2.1, f.2.2)
  | _ => (f.1, f.2.1, put f.2.2)

/-- A word of the OTP array that a transition programs: which one, and in which copy. -/
inductive OtpWord where
  | intent (entry copy : Nat)
  | owner (field copy i : Nat)
  | lc (copy : Nat)
  | done (entry copy : Nat)
deriving DecidableEq, Repr

/-- Bits of a word are programmed. -/
def Otp.put (o : Otp) (p : OtpWord) (w : BitVec 32) : Otp :=
  match p with
  | .intent e k => o.setEntry e { o.entry e with intent := (o.entry e).intent.programCopy k w }
  | .owner f k i =>
    { o with owner := (List.range 3).map fun n =>
      let g := (o.owner[n]?).getD ([], [], [])
      if n = f then ownerProgram g k i w else g }
  | .lc k => { o with lc := o.lc.programCopy k w }
  | .done e k => o.setEntry e { o.entry e with done := (o.entry e).done.programCopy k w }

/-- The words of a transition in their order, each with its value: intent, owner field, LC word, done word. Without a
free entry SCRAP has no intent and no done word. The copies of the owner field follow each other whole (DESIGN CHOICE,
log 88: R397 gives the order of the copies for the LC word alone). -/
def transWords (r : OtpRun) (target : Nat) : List (OtpWord × BitVec 32) :=
  let copies := List.range 3
  (if r.entry < 20 then copies.map fun k => (.intent r.entry k, intentWord target) else [])
    ++ (if target = 0x0400 && r.field < 3 then
        copies.flatMap fun k => (List.range 13).map fun i =>
          (.owner r.field k i, BitVec.ofNat 32 (leAt r.owner (4 * i) 4))
      else [])
    ++ copies.map (fun k => (.lc k, 1#32 <<< targetBit target))
    ++ (if r.entry < 20 then copies.map fun k => (.done r.entry k, 1) else [])

/-- Words are programmed, in order. -/
def Otp.putWords (o : Otp) (l : List (OtpWord × BitVec 32)) : Otp := l.foldl (fun o p => o.put p.1 p.2) o

/-- The OTP writes of the transition that runs begin: into the next free entry, and the next unused owner field. -/
def startJournal (s : State) : State :=
  if s.lc.busy.isNone || s.lc.run.isSome then s
  else
    let hash := fit ((List.range 12).flatMap fun i => bvLe 4 (tblGet 0 s.lc.ownerHash i)) 48
    let field := ((List.range 3).find? fun i => !ownerUsed ((s.otp.owner[i]?).getD ([], [], []))).getD 3
    let run : OtpRun :=
      { entry := s.otp.nextEntry, field := field, owner := hash ++ bvLe 4 (crc32c hash), since := s.aon.cycles }
    { s with lc.run := some run }

/-- The words still to be programmed. -/
def otpLeft (s : State) : List (OtpWord × BitVec 32) :=
  match s.lc.busy, s.lc.run with
  | some t, some r => (transWords r t).drop r.words
  | _, _ => []

/-- One word takes 50 µs, 5,000 AON cycles: the next is programmed when its time has passed. -/
def otpTick (s : State) : State :=
  match otpLeft s, s.lc.run with
  | p :: _, some r =>
    if r.since + 5000 * (r.words + 1) ≤ s.aon.cycles then
      { s with otp := s.otp.put p.1 p.2, lc.run := some { r with words := r.words + 1 } }
    else s
  | _, _ => s

/-- A reset or a loss of power cuts the writes short (R399): of the word that is being programmed any bits may have been
(log 88). -/
def cutOtp (s : State) : State :=
  match otpLeft s with
  | p :: _ => { s with otp := s.otp.put p.1 (p.2 &&& Config.otpCut s.freeN), freeN := s.freeN + 1 }
  | [] => s

end Sys2Proof.Machine
end

