-- ==== Sys2Proof/Machine/Logs.lean ====
section
/-! DEFINITION. Log rings: their commit, their consumer index, writing an entry and holding it while
the ring is full (R64, R271, R272, R280, R281, R302). -/

namespace Sys2Proof.Machine

def LogRing.full (r : LogRing) : Bool := ringDist r.tail r.cons == 2 ^ r.cfg.size

/-- A commit of the group; sizes from `lo` to `hi` are in range (R280). Entries that are held go with a
log that leaves use. -/
def LogRing.commit (r : LogRing) (lo hi : Nat) : LogRing :=
  let w := r.shadow
  if w.en && ((r.cfg.en && (w.base != r.cfg.base || w.size != r.cfg.size)) || w.size < lo || hi < w.size) then
    { r with refused := true }
  else if w.en && !r.cfg.en then { r with cfg := w, refused := false, tail := 0, cons := 0, held := [] }
  else { r with cfg := w, refused := false, held := if w.en then r.held else [] }

/-- A write of the consumer index (R64). -/
def LogRing.consume (r : LogRing) (v : W32) : LogRing :=
  if ringDist v r.cons ≤ ringDist r.tail r.cons then { r with cons := v } else { r with consErr := true }

/-- One entry is written at the tail of a client's ring, its index in its first bytes. It waits while
the ring is full or the write cannot be issued; a refused entry takes no position (R302). -/
def logTry (s : State) (c : Nat) (r : LogRing) (b : Bytes) : Wrote × State × LogRing :=
  if r.full then (.waits, s, r)
  else
    let a := r.cfg.base.toNat + r.tail.toNat % 2 ^ r.cfg.size * b.length
    let w := bodyWrite s c a (patch b 0 (bvLe 4 r.tail))
    (w.1, w.2, if w.1 = .issued then { r with tail := r.tail + 1 } else r)

/-- Held entries are written in order while that succeeds; `sig` signals each written entry. -/
def logDrain (c : Nat) (sig : State → State) : List Bytes → State → LogRing → State × LogRing
  | [], s, r => (s, { r with held := [] })
  | b :: rest, s, r =>
    match logTry s c r b with
    | (.waits, s, r) => (s, { r with held := b :: rest })
    | (.issued, s, r) => logDrain c sig rest (sig s) r
    | (_, s, r) => logDrain c sig rest s r

/-! ## The receipt log of a client (R272) -/

/-- The signal of a written receipt log entry (R281, R363). -/
def rlogSignal (c : Nat) (s : State) : State :=
  if isFn c then signalVec s c (s.tenant c).rlog.cfg.vec else noticeFor s (c - 4096) 2 0

/-- Held entries of a client's receipt log are written as space allows. -/
def rlogResume (s : State) (c : Nat) : State :=
  let r := (s.tenant c).rlog
  if r.held.isEmpty then s
  else
    let x := logDrain c (rlogSignal c) r.held s r
    x.1.modTenant c fun t => { t with rlog := x.2 }

/-- A new entry of a client's receipt log; without a log it is discarded. -/
def rlogPut (s : State) (c : Nat) (b : Bytes) : State :=
  if (s.tenant c).rlog.cfg.en then
    rlogResume (s.modTenant c fun t => { t with rlog := { t.rlog with held := t.rlog.held ++ [b] } }) c
  else s

/-! ## The manager's epoch log (R271) -/

/-- Held entries of the manager's log are written as space allows. -/
def mlogResume (s : State) : State :=
  let r := s.wg.mlog
  if r.held.isEmpty then s
  else
    let x := logDrain 0 (fun s => signalVec s 0 s.wg.mlog.cfg.vec) r.held s r
    { x.1 with wg.mlog := x.2 }

/-- A new entry of the manager's log: up to 64 are held, and the oldest is dropped beyond that. While the log is out of
use an entry is discarded, the TYPE 3 of start-up too, as R272 has it for the logs of clients (DESIGN CHOICE, log 87).
-/
def mlogPut (s : State) (b : Bytes) : State :=
  if !s.wg.mlog.cfg.en then s
  else
    let s := mlogResume { s with wg.mlog := { s.wg.mlog with held := s.wg.mlog.held ++ [b] } }
    if 64 < s.wg.mlog.held.length then
      sticky { s with
        wg.mlog := { s.wg.mlog with held := s.wg.mlog.held.drop 1 }
        wg.mlost := satAdd 65535 s.wg.mlost 1 } 99 0
    else s

end Sys2Proof.Machine
end

