-- ==== Sys2Proof/Machine/Queues.lean ====
section
/-! DEFINITION. The commands and events of a queue: doorbells, pushes, fetch and check of descriptors,
queue commands, HEAD and its publication (R43 to R75, R100, R101). -/

namespace Sys2Proof.Machine

/-- The queue page of queue `q` answers: below QUEUES, or an excess queue that is DRAINING (R287, R337). -/
def pageOpen (s : State) (c q : Nat) : Bool :=
  isClient c && s.exists_ c && fnReachable s c
    && (decide (q < (s.tenant c).queues) || ((s.queue c q).leaving && (s.queue c q).state == .draining))

/-! ## Doorbells (R47 to R49) -/

/-- The check of R47. -/
def dbGood (u : Queue) (v : W32) : Bool :=
  decide (ringDist u.pi u.head ≤ ringDist v u.head) && decide (ringDist v u.head ≤ u.slots)

/-- An accepted producer value and its stamp (R48, R258); `V = PI` has no effect. -/
def acceptDb (s : State) (c q : Nat) (v : W32) : State :=
  let h := s.sync.h
  s.modQueue c q fun u => if v = u.pi then u else { u with pi := v, accepts := u.accepts ++ [(v, h)] }

/-- A producer mirror read starts, or the queue stops (R49, R73). -/
def issueMirror (s : State) (c q : Nat) : State :=
  let u := s.queue c q
  if u.cfg.pmirror = 0 then stopQueue s c q qerrFetch u.pi
  else match readPieces s c u.cfg.pmirror.toNat 4 (fun _ => .mirror q) false with
    | none => stopQueue s c q qerrFetch u.pi
    | some l =>
      if readable s l then (s.modQueue c q fun u => { u with mirror := { busy := true } }).each l issueRead
      else stopQueue s c q qerrFetch u.pi

/-- Slots that the descriptor cache holds or awaits, over all queues. -/
def cacheUsed (s : State) : Nat :=
  s.queues.foldl (fun a e => a + e.2.cache.length + e.2.fetching.length) 0

/-- The undispatched descriptors of a queue from the first that meets `p` on lose their check: the check goes back
to it. -/
def uncheck (s : State) (c q : Nat) (p : Nat → Bool) : State :=
  let undo := (s.queue c q).ready.dropWhile (!p ·)
  match undo with
  | [] => s
  | j :: _ =>
    let chk := match (s.job j).src with | .ring _ i => i | _ => (s.queue c q).chk
    (s.each undo fun s j => s.dropJob j).modQueue c q fun u =>
      { u with chk := chk, ready := u.ready.takeWhile (!p ·) }

/-- The slots of a job lie in a range of ring indices. -/
def jobHit (s : State) (start : W32) (n : Nat) (j : Nat) : Bool :=
  match (s.job j).src with
  | .ring _ i => (List.range (dSlots (s.job j).desc)).any fun k =>
      ringDist (i + BitVec.ofNat 32 k) start < n
  | _ => false

/-- A fetched slot leaves the cache: its descriptor, if it was checked, is checked again when the slot has been
fetched again (R54). Pushed copies stay (R53). -/
def evictOne (s : State) (c q : Nat) (i : W32) : State :=
  let k := tblGet { bad := true } (s.queue c q).cache i.toNat
  if k.pushed || k.bad then s
  else (uncheck s c q (jobHit s i 1)).modQueue c q fun u => { u with cache := tblErase u.cache i.toNat }

/-- A fetched slot that may leave: of the first queue that holds one, the last listed. -/
def evictable (s : State) : Option (Nat × W32) :=
  s.queues.findSome? fun e =>
    ((e.2.cache.filter fun k => !k.2.pushed && !k.2.bad).getLast?).map fun k => (e.1, BitVec.ofNat 32 k.1)

/-- Fetched slots leave a full cache until `n` more fit (R37, R54). -/
def cacheMake (n : Nat) : Nat → State → State
  | 0, s => s
  | fuel + 1, s =>
    if cacheUsed s + n ≤ 8192 then s
    else match evictable s with
      | none => s
      | some (k, i) => cacheMake n fuel (evictOne s (k / qSpan) (k % qSpan) i)

/-- The staging of a queue is a push that a producer value `v` accepts (R51, R52). -/
def Queue.pushGood (u : Queue) (v : W32) : Bool :=
  let k := u.staged.length
  !u.stagedBad && 1 ≤ k && k ≤ ringDist v u.pi && tblKeys u.staged == List.range k
    && u.staged.all fun e => e.2.mask == BitVec.allOnes 64

/-- Pushed slots become held copies of ring slots. -/
def Queue.claim (u : Queue) : Queue :=
  { u with
    cache := u.staged.foldl (fun t e =>
      tblPut t (u.pi + BitVec.ofNat 32 e.1).toNat { data := e.2.data, pushed := true, push := u.pi }) u.cache
    staged := [], stagedBad := false, stagedAt := none }

/-- The push claim of R51 for a producer value `v` that R47 accepted; a push that is not accepted, or for which
pushed copies leave the descriptor cache no room, sets PUSH_DROP (R37, R52). -/
def claimPush (s : State) (c q : Nat) (v : W32) : State :=
  let u := s.queue c q
  let n := u.staged.length
  if u.staged.isEmpty && !u.stagedBad then s
  else if u.pushGood v then
    let s := cacheMake n n s
    s.modQueue c q fun u => if cacheUsed s + n ≤ 8192 then u.claim else u.unstage true
  else s.modQueue c q fun u => u.unstage true

/-- A write of `v` to Q_DB (R47 to R49, R51, R52, R67). -/
def opQDbWrite (c q : Nat) (v : W32) (s : State) : State :=
  if !pageOpen s c q then s
  else if !takesDoorbells s c q then s.modQueue c q fun u => { u with dbIgnored := true }
  else if dbGood (s.queue c q) v then
    acceptDb ((claimPush s c q v).modQueue c q fun u =>
      { u with mirror := if u.mirror.busy then { u.mirror with discard := true } else u.mirror }) c q v
  else stopQueue s c q qerrDoorbell v

def execQDbWrite (client q : Nat) (v : W32) (s : State) : Host.Outcome State Fault Refusal :=
  .next (whenClocked (.qDbWrite client q v) s fun s => opQDbWrite client q v (fnActive (wake s 1) client))

/-- A write to Q_DB_NODATA (R49, R51). -/
def opQDbNodataWrite (c q : Nat) (s : State) : State :=
  if !pageOpen s c q then s
  else if !takesDoorbells s c q then s.modQueue c q fun u => { u with dbIgnored := true }
  else
    let s := s.modQueue c q fun u => u.unstage true
    if (s.queue c q).mirror.busy then
      s.modQueue c q fun u => { u with mirror := { u.mirror with again := true } }
    else issueMirror s c q

def execQDbNodataWrite (client q : Nat) (s : State) : Host.Outcome State Fault Refusal :=
  .next (whenClocked (.qDbNodataWrite client q) s fun s => opQDbNodataWrite client q (fnActive (wake s 1) client))

/-- The completed producer mirror read is judged (R49). -/
def opProducerMirrorReadDone (c q : Nat) (s : State) : State :=
  let u := s.queue c q
  match u.mirror.result with
  | none => s
  | some r =>
    let s := s.modQueue c q fun u => { u with mirror := {} }
    match r with
    | none => stopQueue s c q qerrFetch u.pi
    | some v =>
      if u.mirror.discard then issueMirror s c q
      else if dbGood u v then
        let s := acceptDb s c q v
        if u.mirror.again then issueMirror s c q else s
      else stopQueue s c q qerrDoorbell v

def execProducerMirrorReadDone (client q : Nat) (s : State) : Host.Outcome State Fault Refusal :=
  .next (onClock s.hv.fclk s (opProducerMirrorReadDone client q))

/-! ## Pushes (R44, R51, R52) -/

/-- Staged push slots of all queues. -/
def pushUsed (s : State) : Nat := s.queues.foldl (fun a e => a + e.2.staged.length) 0

/-- Byte `x` is staged at offset `o`; a slot for which the buffer has no room makes the push fail. -/
def Queue.stageByte (u : Queue) (room o : Nat) (x : Byte) : Queue :=
  let j := o / 64
  if u.staged.any (fun e => e.1 == j) || u.staged.length < room then
    let w := tblGet {} u.staged j
    let w' : StagedSlot := { data := patch w.data (o % 64) [x], mask := w.mask ||| (1#64 <<< (o % 64)) }
    { u with staged := tblPut u.staged j w' }
  else { u with stagedBad := true }

/-- The staged slots that a discarded write touches count as not written (R44). -/
def Queue.unwrite (u : Queue) (off n : Nat) : Queue :=
  { u with
    pushDrop := true
    staged := u.staged.map fun e =>
      if off / 64 ≤ e.1 && e.1 ≤ (off + n - 1) / 64 then (e.1, { e.2 with mask := 0 }) else e }

/-- A write to the push window (R44, R51, R52). One that crosses 0x1BF sets PUSH_DROP alone, also where the queue takes
no pushes (DESIGN CHOICE, log 57: R44 and R67 do not say which comes first). -/
def opPushWindowWrite (c q off : Nat) (relaxed : Bool) (data : Bytes) (s : State) : State :=
  let n := data.length
  if !pageOpen s c q || n = 0 || 448 ≤ off then s
  else if 448 < off + n then s.modQueue c q fun u => u.unwrite off n
  else if !takesDoorbells s c q then
    s.modQueue c q fun u => { u with pushDrop := true, dbIgnored := true }
  else if n < 8 || off % 8 != 0 then s.modQueue c q fun u => u.unwrite off n
  else
    let used := pushUsed s
    let tick := s.hv.tick
    s.modQueue c q fun u =>
      let u := { u with stagedBad := u.stagedBad || relaxed, stagedAt := some (u.stagedAt.getD tick) }
      let room := u.staged.length + (2048 - used)
      data.zipIdx.foldl (fun u b => u.stageByte room (off + b.2) b.1) u

def execPushWindowWrite (client q off : Nat) (relaxed : Bool) (data : Bytes) (s : State) :
    Host.Outcome State Fault Refusal :=
  .next (whenClocked (.pushWindowWrite client q off relaxed data) s fun s =>
    opPushWindowWrite client q off relaxed data (fnActive (wake s 1) client))

/-- 128 µs have passed since the first staged byte (R52). -/
def opPushStagingTimeout (c q : Nat) (s : State) : State :=
  match (s.queue c q).stagedAt with
  | some t => if t + 153600 ≤ s.hv.tick then s.modQueue c q fun u => u.unstage true else s
  | none => s

def execPushStagingTimeout (client q : Nat) (s : State) : Host.Outcome State Fault Refusal :=
  .next (onClock s.hv.fclk s (opPushStagingTimeout client q))

/-! ## Fetch (R54, R46) -/

/-- The dispatch point of a queue (R104). -/
def dispatchPoint (s : State) (u : Queue) : W32 :=
  match u.ready with
  | j :: _ => match (s.job j).src with | .ring _ i => i | _ => u.chk
  | [] => u.chk

/-- One slot is fetched if it is owned, not held and not awaited, and the cache has room. A read that
its window refuses is held as failed (R100, order 1). -/
def fetchSlot (c q : Nat) (s : State) (i : W32) : State :=
  let u := s.queue c q
  if u.cache.any (fun e => e.1 == i.toNat) || u.fetching.contains i.toNat || 8192 ≤ cacheUsed s then s
  else
    let l := readPieces s c (u.slotAddr i) 64 (fun _ => .desc q i) false
    if l.isSome && readable s (l.getD []) then
      (s.modQueue c q fun u => { u with fetching := u.fetching ++ [i.toNat] }).each (l.getD []) issueRead
    else s.modQueue c q fun u => { u with cache := tblPut u.cache i.toNat { bad := true } }

/-- The slots that may be fetched: not yet checked, below the limit, within 64 of the dispatch
point. -/
def fetchable (s : State) (u : Queue) : List W32 :=
  let ahead := 64 - ringDist u.chk (dispatchPoint s u)
  (List.range (min ahead (ringDist u.limit u.chk))).map fun i => u.chk + BitVec.ofNat 32 i

/-- A fetched slot of a descriptor not yet dispatched leaves a full cache (R54). -/
def evictSlot (c q : Nat) (s : State) (i : W32) : State := if 8192 ≤ cacheUsed s then evictOne s c q i else s

/-- The forager fetches ahead of dispatch (R54). -/
def opDescriptorPrefetch (c q : Nat) (evict : List W32) (s : State) : State :=
  if !s.hasQueue c q || !takesSlots (s.queue c q) then s
  else
    let s := s.each evict (evictSlot c q)
    s.each (fetchable s (s.queue c q)) (fetchSlot c q)

def execDescriptorPrefetch (client q : Nat) (evict : List W32) (s : State) :
    Host.Outcome State Fault Refusal := .next (onClock s.hv.fclk s (opDescriptorPrefetch client q evict))

/-- A fetched slot arrives, or its read has failed; a pushed copy prevails (R53). -/
def slotArrives (s : State) (c q : Nat) (i : W32) (data : Option Bytes) : State :=
  let u := s.queue c q
  if u.fetching.contains i.toNat then
    s.modQueue c q fun u =>
      { u with
        fetching := u.fetching.filter (· != i.toNat)
        cache := if u.cache.any (fun e => e.1 == i.toNat) then u.cache
          else tblPut u.cache i.toNat (match data with
            | some b => { data := b }
            | none => { bad := true }) }
  else s

/-- The producer mirror's value arrives, or its read has failed. -/
def mirrorArrives (s : State) (c q : Nat) (data : Option Bytes) : State :=
  s.modQueue c q fun u =>
    if u.mirror.busy then
      { u with mirror := { u.mirror with result := some (data.map fun b => BitVec.ofNat 32 (leAt b 0 4)) } }
    else u

/-! ## The check (R100, R101) -/

/-- What stage 3 finds at the next index: nothing to judge yet, a stop, or a whole descriptor. -/
inductive Judged where
  | waits
  | stops (code : BitVec 8)
  | whole (d : Bytes)
deriving DecidableEq, Repr

/-- The slots of the descriptor at `chk` from number `j` on, `n` of them. -/
def gatherSlots (u : Queue) : Nat → Nat → Bytes → Judged
  | 0, _, acc => .whole acc
  | n + 1, j, acc =>
    match u.cache.find? fun e => e.1 == (u.chk + BitVec.ofNat 32 j).toNat with
    | none => .waits
    | some e => if e.2.bad then .stops qerrFetch else gatherSlots u n (j + 1) (acc ++ e.2.data)

/-- Checks 1 to 4. A slot 0 that was pushed is never read, and order 1 does not hold its ring address against the
windows (R54, R100; DESIGN CHOICE, log 84). -/
def judge (u : Queue) : Judged :=
  if ringDist u.limit u.chk = 0 then .waits
  else match gatherSlots u 1 0 [] with
    | .whole h =>
      if headerSum h != 0 then .stops qerrHeader
      else if dSlots h = 0 || 8 < dSlots h then .stops qerrSlots
      else if ringDist u.limit u.chk < dSlots h then .waits
      else gatherSlots u (dSlots h) 0 []
    | x => x

/-- T_ARRIVE of the descriptor of `n` slots at `chk`: the first accepted value that covers its last
slot (R258). -/
def arrival (s : State) (u : Queue) (n : Nat) : Nat :=
  match u.accepts.find? fun a => n ≤ ringDist a.1 u.chk && ringDist a.1 u.chk ≤ u.slots with
  | some a => a.2
  | none => s.sync.h

/-- A descriptor that passed the checks becomes the job `s.nextJob`, with the failure of stage 3 that
R101 finds, and a FENCE records the jobs it waits for (R129). -/
def newJob (s : State) (c : Nat) (src : JobSrc) (clear peer : Bool) (o : Op) (d : Bytes) (arr : Nat) :
    Nat × State :=
  let id := s.nextJob
  let base : Job := { client := c, src := src, clear := clear, desc := d, tArrive := arr }
  let waits := if o = .fence then s.jobsWith fun j => j.client == c && j.live else []
  let j : Job := match jobFail s c clear peer o d with
    | some (st, det) =>
      { base with status := st, detail := det, noComb := true, tDone := s.sync.h, unsync := s.sync.state != 2 }
    | none => { base with acct := acctOf s c o d, waits := waits }
  (id, { s with jobs := tblSet {} s.jobs id j, nextJob := id + 1 })

/-- The effect of a memory error that the check meets (R38). -/
def fetchEcc (s : State) (c q : Nat) (e : FetchEcc) : State :=
  match e with
  | .clean => s
  | .corrected => eccCorrected s none
  | .cacheSlot i =>
    let k := tblGet { bad := true } (s.queue c q).cache i.toNat
    if ringDist i (s.queue c q).chk < 8 && !k.bad then
      sticky (s.modQueue c q fun u => { u with cache := tblErase u.cache i.toNat }) 70 0
    else s
  | .staged =>
    if (s.queue c q).staged.isEmpty then s else sticky (s.modQueue c q fun u => u.unstage true) 71 0
  | .queueState =>
    let n := (tblGet none (s.tenant c).qmap q).getD 0
    stopQueue (sticky s 67 (BitVec.ofNat 32 n)) c q qerrFetch (s.queue c q).head

/-- The slots of a descriptor are held: stage 3 runs (R100, R101, R408). -/
def opDescriptorFetchDone (c q : Nat) (ecc : FetchEcc) (s : State) : State :=
  if !s.hv.fclk || !s.hasQueue c q || !takesSlots (s.queue c q) then s
  else
    let s := fetchEcc s c q ecc
    let u := s.queue c q
    if !takesSlots u then s
    else match judge u with
      | .waits => s
      | .stops code => stopQueue s c q code u.chk
      | .whole d =>
        match structural s c d with
        | .inl code => stopQueue s c q code u.chk
        | .inr o =>
          let n := newJob s c (.ring q u.chk) u.clearExport false o d (arrival s u (dSlots d))
          if s.aon.tampered && keyedJob s (n.2.job n.1) then freezeQueue s c q
          else n.2.modQueue c q fun u =>
            { u with chk := u.chk + BitVec.ofNat 32 (dSlots d), ready := u.ready ++ [n.1] }

def execDescriptorFetchDone (client q : Nat) (ecc : FetchEcc) (s : State) :
    Host.Outcome State Fault Refusal :=
  .next (opDescriptorFetchDone client q ecc s)

/-! ## Queue commands (R68, R71) -/

/-- A Q_CMD word. -/
def qWord (code : Nat) (count : Nat) (gen : BitVec 11) (start : W32) : W64 :=
  BitVec.ofNat 64 (code % 16 + count % 2 ^ 17 * 16 + gen.toNat * 2 ^ 21 + start.toNat * 2 ^ 32)

/-- A command ends at once with a result: 0 DONE, 1 LATE, 2 STALE_GEN, 3 REFUSED. -/
def cmdResult (s : State) (c q r : Nat) : State := s.modQueue c q fun u => { u with cmdResult := r }

/-- ENABLE finds a valid committed configuration (R71, R73). -/
def cfgValid (s : State) (c : Nat) (g : QCfg) : Bool :=
  6 ≤ g.sizeLog2 && g.sizeLog2 ≤ 16 && g.hmirror != 0
    && (!g.crEn || ((s.ring c g.crId).enable && (boundQueues s c g.crId).length < 64))

/-- INVALIDATE of `n` slots from `start` (R56): held copies of undispatched slots are dropped, and the
check goes back to the first descriptor that loses one. -/
def doInvalidate (s : State) (c q : Nat) (start : W32) (n : Nat) : State :=
  let late := (s.queue c q).window.any (jobHit s start n)
  let hit := fun (k : Nat) => decide (ringDist (BitVec.ofNat 32 k) start < n)
  let s := orphanReads (uncheck s c q (jobHit s start n)) false fun r => r.client == c &&
    match r.purpose with | .desc q' i => q' == q && hit i.toNat | _ => false
  s.modQueue c q fun u =>
    { u with
      cmd := some (.invalidate late)
      cache := u.cache.filter fun e => !hit e.1
      fetching := u.fetching.filter fun k => !hit k }

/-- The queue starts at TN_QCFG_INIT (R68). -/
def doEnable (s : State) (c q : Nat) : State :=
  s.modQueue c q fun u =>
    ({ u with pi := u.cfg.init, head := u.cfg.init, chk := u.cfg.init, stop := 0, cmdResult := 0 }).enter
      .active

/-- RESET begins: held copies and undispatched descriptors go (R71). -/
def doReset (s : State) (c q : Nat) : State :=
  (dropCopies (uncheck s c q fun _ => true) c q).modQueue c q fun u =>
    { u with cmd := some .reset, resetting := true }

/-- The command with a code from 1 to 6 is allowed in the queue's present state (R71). -/
def cmdAllowed (u : Queue) (code : Nat) (tampered : Bool) : Bool :=
  !u.resetting && !u.leaving &&
    match code with
    | 1 => u.state == .disabled
    | 2 => u.state == .active
    | 3 => u.state == .paused
    | 4 => u.state == .active || u.state == .paused || u.state == .stopped
        || (u.state == .frozen && !tampered)
    | 5 => u.state == .active || u.state == .paused
    | 6 => u.state == .stopped && u.stop != qerrBme && u.stop != qerrFrozen
    | _ => false

/-- A Q_CMD or QS_CMD word reaches a queue (R71, R428, R432). GEN is judged first, then the state, and COUNT of
INVALIDATE last (DESIGN CHOICE, log 57). -/
def qCmd (s : State) (c q code : Nat) (gen : BitVec 11) (count : Nat) (start : W32) (via : CmdVia) :
    State :=
  let u := s.queue c q
  if !isClient c || !s.hasQueue c q || (via == .page && !pageOpen s c q) then s
  else if u.cmd.isSome || code = 0 then s
  else if 6 < code || (via != .page && code = 5)
      || (via == .mctp && code != 2 && code != 3 && code != 4) then cmdResult s c q 3
  else if gen != u.gen then cmdResult s c q 2
  else if !cmdAllowed u code s.aon.tampered then cmdResult s c q 3
  else match code with
    | 1 =>
      if cfgValid s c u.cfg && (s.tenant c).state != 3 then doEnable s c q else cmdResult s c q 3
    | 2 => s.modQueue c q fun u => ({ u with cmd := some .pause }).enter .paused
    | 3 => s.modQueue c q fun u => ({ u with cmdResult := 0 }).enter .active
    | 4 => doReset s c q
    | 5 =>
      if 65536 < count then cmdResult s c q 3
      else if count = 0 then cmdResult s c q 0
      else doInvalidate s c q start count
    | _ => s.modQueue c q fun u => { u with cmd := some .restart }

def execQCmdEnable (client q : Nat) (gen : BitVec 11) (via : CmdVia) (s : State) :
    Host.Outcome State Fault Refusal :=
  .next (whenClocked (.qCmdEnable client q gen via) s fun s => qCmd (wake s 1) client q 1 gen 0 0 via)

def execQCmdPause (client q : Nat) (gen : BitVec 11) (via : CmdVia) (s : State) :
    Host.Outcome State Fault Refusal :=
  .next (whenClocked (.qCmdPause client q gen via) s fun s => qCmd (wake s 1) client q 2 gen 0 0 via)

def execQCmdResume (client q : Nat) (gen : BitVec 11) (via : CmdVia) (s : State) :
    Host.Outcome State Fault Refusal :=
  .next (whenClocked (.qCmdResume client q gen via) s fun s => qCmd (wake s 1) client q 3 gen 0 0 via)

def execQCmdReset (client q : Nat) (gen : BitVec 11) (via : CmdVia) (s : State) :
    Host.Outcome State Fault Refusal :=
  .next (whenClocked (.qCmdReset client q gen via) s fun s => qCmd (wake s 1) client q 4 gen 0 0 via)

def execQCmdInvalidate (client q : Nat) (gen : BitVec 11) (start : W32) (count : BitVec 17)
    (via : CmdVia) (s : State) : Host.Outcome State Fault Refusal :=
  .next (whenClocked (.qCmdInvalidate client q gen start count via) s fun s =>
    qCmd (wake s 1) client q 5 gen count.toNat start via)

def execQCmdRestart (client q : Nat) (gen : BitVec 11) (via : CmdVia) (s : State) :
    Host.Outcome State Fault Refusal :=
  .next (whenClocked (.qCmdRestart client q gen via) s fun s => qCmd (wake s 1) client q 6 gen 0 0 via)

/-- A whole Q_CMD word of any content: a reserved code is refused at once, and any other word acts as
the word it is (R71). -/
def opQCmdReserved (client q : Nat) (word : W64) (via : CmdVia) (s : State) : State :=
  let w := word.toNat
  qCmd s client q (bits w 3 0) (BitVec.ofNat 11 (bits w 31 21)) (bits w 20 4)
    (BitVec.ofNat 32 (w / 2 ^ 32)) via

def execQCmdReserved (client q : Nat) (word : W64) (via : CmdVia) (s : State) :
    Host.Outcome State Fault Refusal :=
  .next (whenClocked (.qCmdReserved client q word via) s fun s => opQCmdReserved client q word via (wake s 1))

/-- The dispatch of a paused queue has ceased (R68, R71). -/
def opPauseAck (c q : Nat) (s : State) : State :=
  if (s.queue c q).cmd = some .pause then
    s.modQueue c q fun u => { u with cmd := none, cmdResult := 0 }
  else s

def execPauseAck (client q : Nat) (s : State) : Host.Outcome State Fault Refusal :=
  .next (onClock s.hv.fclk s (opPauseAck client q))

/-- Every dispatched job of a resetting queue has ended and HEAD has passed it (R68, R71, R293). -/
def opResetAck (c q : Nat) (s : State) : State :=
  let u := s.queue c q
  if u.resetting && u.window.isEmpty then
    if u.leaving then releaseQueue s c q (s.busMaster c)
    else
      let bm := s.busMaster c
      (dropCopies s c q).modQueue c q fun u => { u.disable bm with cmd := none, cmdResult := 0 }
  else s

def execResetAck (client q : Nat) (s : State) : Host.Outcome State Fault Refusal :=
  .next (onClock s.hv.fclk s (opResetAck client q))

/-- INVALIDATE ends (R56). -/
def opInvalidateAck (c q : Nat) (s : State) : State :=
  match (s.queue c q).cmd with
  | some (.invalidate late) =>
    s.modQueue c q fun u => { u with cmd := none, cmdResult := if late then 1 else 0 }
  | _ => s

def execInvalidateAck (client q : Nat) (s : State) : Host.Outcome State Fault Refusal :=
  .next (onClock s.hv.fclk s (opInvalidateAck client q))

/-- HEAD has reached the stop point: RESTART takes effect (R68). -/
def opRestartAck (c q : Nat) (s : State) : State :=
  let u := s.queue c q
  if u.cmd = some .restart && u.state == .stopped && u.stopPt == some u.head then
    s.modQueue c q fun u =>
      ({ u with cmd := none, cmdResult := 0, stopPt := none, chk := u.head }).enter .active
  else s

def execRestartAck (client q : Nat) (s : State) : Host.Outcome State Fault Refusal :=
  .next (onClock s.hv.fclk s (opRestartAck client q))

/-- HEAD of a DRAINING queue has reached its drain end (R68, R293, R294). -/
def opQueueDrainEnd (c q : Nat) (s : State) : State :=
  let u := s.queue c q
  if u.state == .draining && !u.resetting && u.window.isEmpty && u.ready.isEmpty
      && u.drainEnd == some u.head then
    releaseQueue s c q (s.busMaster c)
  else s

def execQueueDrainEnd (client q : Nat) (s : State) : Host.Outcome State Fault Refusal :=
  .next (onClock s.hv.fclk s (opQueueDrainEnd client q))

/-! ## HEAD (R58 to R65) -/

/-- HEAD passes the ended jobs at the front of the window, at most `fuel` of them. -/
def popEnded (c q : Nat) : Nat → State → State
  | 0, s => s
  | fuel + 1, s =>
    match (s.queue c q).window with
    | [] => s
    | j :: rest =>
      let x := s.job j
      if x.stage == .ended then
        popEnded c q fuel <| (s.dropJob j).modQueue c q fun u =>
          { u with window := rest, head := u.head + BitVec.ofNat 32 (dSlots x.desc) }.publish false (dIrq x.desc)
      else s

/-- Accepted values that HEAD has passed are forgotten. -/
def Queue.prune (u : Queue) : Queue :=
  { u with accepts := u.accepts.filter fun a => 1 ≤ ringDist a.1 u.head && ringDist a.1 u.head ≤ u.slots }

/-- HEAD advances in queue order over descriptors whose jobs have ended (R58). -/
def opHeadAdvance (c q : Nat) (s : State) : State :=
  (popEnded c q (s.queue c q).window.length s).modQueue c q Queue.prune

def execHeadAdvance (client q : Nat) (s : State) : Host.Outcome State Fault Refusal :=
  .next (onClock s.hv.fclk s (opHeadAdvance client q))

/-- A notice of a queue that is bound to no ring is due at its client, on the queue's vector or as a packet (R61,
R363). -/
def queueSignal (s : State) (c q : Nat) (irq chg : Bool) : State :=
  let u := s.queue c q
  if isFn c then
    if irq then signalVec s c u.cfg.vec else s
  else if irq || chg then noticeFor s (c - 4096) 1 (qNum q)
  else s

/-- The queue's record is due on the ring it is bound to, with what the head mirror write had to tell. One still pending
on another ring is merged into it (DESIGN CHOICE, log 57). -/
def Queue.oweRecord (u : Queue) : Queue :=
  { u with
    hmDue := false, crDue := true, crAt := u.cfg.crId, crPending := u.crPending && u.crAt == u.cfg.crId
    irqDue := false, chgDue := false, crIrq := u.crIrq || u.irqDue, crChg := u.crChg || u.chgDue }

/-- The head mirror of an unbound queue is out. A record still pending on a ring has the same to tell, because it
carries the HEAD and the STATE of the moment at which it is written (R63). -/
def Queue.told (u : Queue) : Queue :=
  let owes := u.crDue || u.crPending
  { u with
    hmDue := false, irqDue := false, chgDue := false
    crIrq := u.crIrq || (owes && u.irqDue), crChg := u.crChg || (owes && u.chgDue) }

/-- The queue of a number whose head mirror goes next: one that was released before it goes first (log 85). -/
def mirrorTurn (s : State) (c q : Nat) : Nat := ((s.gonesOf c q).find? fun k => (s.queue c k).hmDue).getD q

/-- The queue of a number whose record goes next: one whose record is due before one whose record is pending, and a
released one first (log 85). -/
def recordTurn (s : State) (c q : Nat) : Nat :=
  let l := s.gonesOf c q ++ [q]
  match l.find? fun k => (s.queue c k).crDue && !(s.queue c k).hmDue with
  | some k => k
  | none => (l.find? fun k => (s.queue c k).crPending).getD q

/-- The head mirror is written, or refused (R59 to R61, R302). -/
def opHeadMirrorWrite (c q0 : Nat) (s : State) : State :=
  let q := mirrorTurn s c q0
  let u := s.queue c q
  if !u.hmDue then s
  else
    let w := recordWrite s c u.cfg.hmirror.toNat (mirrorBytes u)
    match w.1 with
    | .waits => w.2
    | _ =>
      let s := w.2
      if u.cfg.crEn then
        s.modQueue c q fun u => u.oweRecord
      else
        let s := queueSignal s c q u.irqDue u.chgDue
        if s.hasQueue c q then
          s.modQueue c q Queue.told
        else if (s.queue c q).crDue || (s.queue c q).crPending then s.modQueue c q Queue.told
        else s.setQueue c q {}

def execHeadMirrorWrite (client q : Nat) (s : State) : Host.Outcome State Fault Refusal :=
  .next (onClock s.hv.fclk s (opHeadMirrorWrite client q))

/-- The record of a queue stays owed (R65). -/
def crOwe (s : State) (c q : Nat) : State :=
  s.modQueue c q fun u => { u with crDue := false, crPending := true }

/-- A completion record is due (R63, R65); it follows the head mirror write that carries its HEAD. Where the queue's
record is pending, the ring's REPLAY records go on. -/
def opCompletionRecordWrite (c q0 : Nat) (s : State) : State :=
  let q := recordTurn s c q0
  let u := s.queue c q
  let r := u.crAt
  if u.hmDue then s
  else if !u.crDue then (if u.crPending then replayRing s c r 65 else s)
  else
    let s := if (pendingQueues s c r).isEmpty then s.modRing c r fun g => { g with mode := false } else s
    if (s.ring c r).mode then replayRing (crOwe s c q) c r 65
    else if (s.ring c r).full then
      crOwe (signalVec (s.modRing c r fun g => { g with mode := true, overflow := true }) c (s.ring c r).vec) c q
    else (writeCr s c r q false).2

def execCompletionRecordWrite (client q : Nat) (s : State) : Host.Outcome State Fault Refusal :=
  .next (onClock s.hv.fclk s (opCompletionRecordWrite client q))

/-- A write of TN_CR_CONS for the selected ring (R64, R65). -/
def opTnCrConsWrite (c : Nat) (v : W32) (s : State) : State :=
  if !isFn c || !s.exists_ c || !fnReachable s c then s
  else
    let r := (s.tenant c).crSel
    let g := s.ring c r
    if ringDist v g.cons ≤ ringDist g.tail g.cons then
      replayRing (s.modRing c r fun g => { g with cons := v }) c r 65
    else s.modRing c r fun g => { g with consErr := true }

def execTnCrConsWrite (client : Nat) (v : W32) (s : State) : Host.Outcome State Fault Refusal :=
  .next (whenClocked (.tnCrConsWrite client v) s fun s => opTnCrConsWrite client v (wake s 1))

end Sys2Proof.Machine
end

