-- ==== Sys2Proof/Machine/Stages.lean ====
section
/-! DEFINITION. Stage 5, nonce reservations, and the completions of reads and translations (R122,
R142 to R148, R173 to R175, R226, R233, R238, R331 to R335). -/

namespace Sys2Proof.Machine

/-! ## Stage 5 -/

/-- The context of a stream descriptor, an export or an import, judged under R122, R125, R127 and
R296. -/
def ctxFail (s : State) (j : Job) (o : Op) : Fail :=
  let d := j.desc
  if !dUsesCtx o d then none
  else
    let k := s.ctx j.client (dCtx d)
    if (s.tenant j.client).ctxCount ≤ dCtx d then some (stCtxNotOpen, 0x03)
    else if s.fencedCtx j.client (dCtx d) then some (stCtxBusy, 0x02)
    else if k.state == .held then some (stCtxBusy, 0x01)
    else if o == .ctxExport then (if k.state == .opened then none else some (stCtxNotOpen, 0x01))
    else if o == .ctxImport || bit (dFlags d) 0 then none
    else match k.state with
      | .opened =>
        if k.opcode == opCode o && k.alg == dAlg d && k.keySlot == dKeySlot d then none
        else some (stCtxNotOpen, 0x02)
      | .done => if o.digest then none else some (stCtxNotOpen, 0x01)
      | _ => some (stCtxNotOpen, 0x01)

/-- The descriptor continues an open stream. -/
def continues (s : State) (j : Job) (o : Op) : Bool :=
  dStream o j.desc && !bit (dFlags j.desc) 0 && (s.ctx j.client (dCtx j.desc)).state == .opened

/-- The silent restart of R173. -/
def restarts (s : State) (j : Job) (o : Op) : Bool :=
  dStream o j.desc && !bit (dFlags j.desc) 0 && o.digest
    && (s.ctx j.client (dCtx j.desc)).state == .done

/-- The total over a stream stays within its limit (R142, R169). -/
def totalFail (s : State) (j : Job) (o : Op) : Fail :=
  if continues s j o && msgMax o < (s.ctx j.client (dCtx j.desc)).done + dMsg j.desc then
    some (stRange, 0x01)
  else none

/-- The generation that check 4 compares (R175). -/
def wantGen (s : State) (j : Job) (o : Op) : Option (BitVec 16) :=
  if continues s j o then some (s.ctx j.client (dCtx j.desc)).keyGen else none

/-- The customisation string of a stream that opens (R174). -/
def openS (j : Job) (o : Op) (old : Ctx) : Bytes :=
  let d := j.desc
  if o != .kmac then []
  else if bit (dFlags d) 0 then slice d 64 (dSLen d)
  else if old.opcode == opCode o && old.alg == dAlg d && old.keySlot == dKeySlot d then old.s
  else []

/-- The job holds its context (R121, R122, R173). -/
def holdCtx (s : State) (id : Nat) (o : Op) (gen : BitVec 16) (nonce : Option Bytes) : State :=
  let j := s.job id
  let d := j.desc
  if !dUsesCtx o d then s
  else
    let fresh := dStream o d && !continues s j o
    let again := restarts s j o
    let s := s.modCtx j.client (dCtx d) fun k =>
      if fresh then
        { state := .held, opcode := opCode o, alg := dAlg d, keySlot := dKeySlot d, keyGen := gen
          holder := id, nonce := nonce.getD (ivBytes d), hwNonce := nonce.isSome, s := openS j o k }
      else { k with state := .held, was := k.state, holder := id }
    let s := s.modJob id fun j => { j with holdsCtx := true, restarted := again }
    match j.comb with
    | none => s
    | some c =>
      let s := cachePut s c (.ctx (ctxKey j.client (dCtx d)))
      if again then combCount1 s c 0xFFFFFFFF (·.digRestart) fun b v => { b with digRestart := v } else s

/-- The job has passed stage 5. -/
def passFive (s : State) (id : Nat) : State := startRun (s.modJob id fun j => { j with stage := .run }) id

/-- An uncorrectable error in a tag, found at check 1 of the pull that reads it (R38, R226). -/
def tagEcc (s : State) (c i : Nat) (hit : Bool) : State :=
  match s.slotPos c i with
  | some p =>
    if hit then sticky (s.modSlot p fun k => { k with bad := 2 }) 65 (BitVec.ofNat 32 p) else s
  | none => s

/-- An uncorrectable error in a payload, found as the material is read after check 8. -/
def payloadEcc (s : State) (pos : Nat) (hit : Bool) : State :=
  if hit && (s.slot pos).bad == 0 then
    sticky (s.modSlot pos fun k => { k with bad := 1 }) 64 (BitVec.ofNat 32 pos)
  else s

/-- Material travels over the key lane in two shares, one of them random: a free value (R221). -/
def deliver (s : State) (id pos : Nat) : State :=
  let m := (s.slot pos).mat
  { (takeRef s pos).modJob id fun j =>
      { j with refs := [pos], keyMat := m, keyShare := fit (Config.laneShare s.freeN m.length) m.length }
    with freeN := s.freeN + 1 }

/-- KEY_WRAP's second transaction: the TARGET_SLOT it wraps (R226). A pull waits while REFS is at its top (R227). -/
def pullTarget (s : State) (id : Nat) (ecc : KeyEcc) : State :=
  let j := s.job id
  let t := kbTarget j.desc
  let s := tagEcc s j.client t (ecc == .targetTag)
  match wrapIssue s j.client j.desc, s.slotPos j.client t with
  | some (st, det), _ => fail5 s id st det
  | none, none => s
  | none, some p =>
    let s := payloadEcc s p (ecc == .targetPayload)
    if (s.slot p).bad = 1 then fail5 s id stPoison 0
    else if (s.slot p).refs = 65535 then s
    else
      let m := (s.slot p).mat
      let n := s.freeN
      passFive
        { (takeRef s p).modJob id fun j =>
            { j with refs := j.refs ++ [p], wrapMat := m, lane2 := fit (Config.laneShare n m.length) m.length }
          with freeN := n + 1 } id

/-- The last steps of a pull that passed its checks: the damaged payload, the delivery, KEY_WRAP's target, and the
reservation of R233. -/
def finishPull (s : State) (id : Nat) (o : Op) (pos : Nat) (ecc : KeyEcc) (nonce : Option Bytes) : State :=
  let j := s.job id
  let d := j.desc
  let s := payloadEcc (s.modJob id fun j => { j with nonce := nonce }) pos (ecc == .payload)
  let k := s.slot pos
  if k.bad = 1 then fail5 s id stPoison 0
  else if o == .keyWrap then pullTarget (deliver s id pos) id ecc
  else
    let f := if o.creates then
        reserveIssue s j.client (kbTarget d) (kbType d) (kbPolicy d) pos false (makeIssue o d)
      else none
    match f with
    | some (st, det) => fail5 s id st det
    | none =>
      let s := deliver (holdCtx s id o (s.gen pos) nonce) id pos
      let s := if o.creates then
          let l := (runSlots s j.client (kbTarget d) (runOf (kbType d))).getD []
          let og := originOf o (kbPolicy d) k
          (reserveRun s j.client l (kbType d) (kbPolicy d) pos false og.1 og.2).modJob id fun j =>
            { j with reserved := l }
        else s
      passFive s id

/-- The pull of KEY_SLOT (R226), with the nonce of R143 where the opcode builds one. -/
def pullKey (s : State) (id : Nat) (o : Op) (ecc : KeyEcc) : State :=
  let j := s.job id
  let d := j.desc
  let s := tagEcc s j.client (dKeySlot d) (ecc == .tag)
  match pullIssue s j.client o d (wantGen s j o), s.slotPos j.client (dKeySlot d) with
  | some (st, det), _ => fail5 s id st det
  | none, none => s
  | none, some pos =>
    let k := s.slot pos
    if k.refs = 65535 then s
    else match ruleIssue o d k (s.ctx j.client (dCtx d)).hwNonce with
      | some (st, det) => fail5 s id st det
      | none =>
        if k.pol 13 && buildsNonce o d && dIvLen d = 0 then
          match takeNonce s (j.comb.getD 0) pos with
          | (.exhausted, s) => fail5 s id stExhausted 0x80
          | (.waits, s) => s
          | (.value v, s) => finishPull s id o pos ecc (some (hwNonce k v))
        else finishPull s id o pos ecc none

/-- A resumed job pulls its key again: its generation and the checks of R226 are behind it, and its reference stands;
an error in the slot is met as at any pull (R38, R120). -/
def pullAgain (s : State) (id : Nat) (ecc : KeyEcc) : State :=
  let j := s.job id
  let pos := j.keyPos
  let s := tagEcc s j.client (dKeySlot j.desc) (ecc == .tag)
  let s := payloadEcc s pos (ecc == .payload)
  let k := s.slot pos
  if k.bad != 0 then fail5 s id stPoison 0
  else
    let n := s.freeN
    { s.modJob id fun j =>
        { j with keyMat := k.mat, keyShare := fit (Config.laneShare n k.mat.length) k.mat.length, stage := .run }
      with freeN := n + 1 }

/-- Stage 5 of a job (R101, R120, R226, R464). The total of a stream is judged after its context and before its key
(DESIGN CHOICE, log 73: R101 and R226 order only the context's check). -/
def opKeyPull (id : Nat) (ecc : KeyEcc) (s : State) : State :=
  let j := s.job id
  if !s.hasJob id || j.stage != .key || !s.hv.kclk then s
  else match dOp j.desc with
    | none => s
    | some o =>
      match (if j.preempted then none else (ctxFail s j o).orElse fun _ => totalFail s j o) with
      | some (st, det) => fail5 s id st det
      | none =>
        if !o.usesKey then passFive (holdCtx s id o 0 none) id
        else if s.ks.zeroising == some .substitution then fail5 s id stOrphaned 0x03
        else if laneShut s then s
        else
          let s := if ecc = .corrected then eccCorrected s none else s
          if j.preempted then pullAgain s id ecc
          else if j.refs.isEmpty then pullKey s id o ecc
          else pullTarget s id ecc

def execKeyPull (job : Nat) (ecc : KeyEcc) (s : State) : Host.Outcome State Fault Refusal :=
  .next (opKeyPull job ecc s)

/-- A reservation write of R238 completes. -/
def opNonceReservationWriteDone (c i : Nat) (s : State) : State :=
  match s.slotPos c i with
  | none => s
  | some p =>
    if (s.slot p).resBusy && mramOn s then putRes s c i p else s

def execNonceReservationWriteDone (client slot : Nat) (s : State) : Host.Outcome State Fault Refusal :=
  .next (onClock s.hv.kclk s (opNonceReservationWriteDone client slot))

/-! ## Completions (R333, R334) -/

/-- The plaintext of the source bytes that a second pass has received (R152). -/
def pass2Plain (s : State) (j : Job) (src : Bytes) : Bytes :=
  let x := { j with got := src }
  let b := match dOp j.desc with
    | some .aesGcmDec => (gcmOpen s x).plain
    | some .aesCcmDec => (ccmOpen s x).plain
    | some .chachaPolyDec => (chachaOpen s x).plain
    | some .tls13RecOpen => (tlsOpen s x).plain
    | some .espOpen => (espOpenOf s x).plain
    | _ => []
  b.take (src.length - match dOp j.desc with | some o => msgAt o j.desc | none => 0)

/-- A source read of a job fails. In the second of two passes the plaintext whose writes were issued before stands;
how much that is the rules leave open: a free value, at most what the source received so far gives (R98, R153). -/
def sourceFails (s : State) (id : Nat) (st : Status) (det : BitVec 8) : State :=
  let j := s.job id
  if j.pass2 then
    let src := (j.parts.flatMap (·.2)).take j.front
    let b := (pass2Plain s j src).take (Config.pass2Issued s.freeN)
    { (fail6 s id st det).modJob id fun x => { x with output := b } with freeN := s.freeN + 1 }
  else fail6 s id st det

/-- A request has failed: its job's outcome, or for a descriptor or mirror read the stop that the queue's
check will make; a translation that is not answered is asked for again. -/
def readFails (s : State) (r : Req) (st : Status) (det : BitVec 8) : State :=
  match r.purpose with
  | .desc q i => slotArrives s r.client q i none
  | .mirror q => mirrorArrives s r.client q none
  | .srcList j _ | .dstList j _ | .source j _ => if s.hasJob j then sourceFails s j st det else s
  | .xlate pasid page => { s with dma.asked := s.dma.asked.filter (· != (r.client, pasid, page)) }
  | .dropped _ => s

/-- A read has brought all its bytes. -/
def readDone (s : State) (r : Req) : State :=
  match r.purpose with
  | .desc q i => slotArrives s r.client q i (some r.got)
  | .mirror q => mirrorArrives s r.client q (some r.got)
  | .srcList j i => entryArrives s j i true r.got
  | .dstList j i => entryArrives s j i false r.got
  | .source j off => sourceArrives s j off (r.target == 0) r.got
  | .xlate .. | .dropped _ => s

/-- The DETAIL of a request that its window refuses at issue (R101, R302). -/
def Req.refusal (r : Req) : BitVec 8 := match r.purpose with | .source .. => 0x01 | _ => 0x03

/-- A read that waited is offered again, judged against the windows and the translations of this moment (R302,
R332, R335). -/
def retryRead (s : State) (r : Req) : State :=
  if !s.dma.waiting.contains r then s
  else
    let s := { s with dma.waiting := s.dma.waiting.erase r }
    if !s.busMaster r.client then waitRead s r
    else match r.inWindow s with
      | none => readFails s r stDma r.refusal
      | some r =>
        if xlated s r.client r.target r.addr.toNat r.pasid false == .denied then readFails s r stDma 0x08
        else issueRead s r

/-- Reads that waited are offered again, in order. -/
def retryReads (s : State) : State := s.each s.dma.waiting retryRead

/-- A completion or timeout is counted and reported through AER of a function (R333, R334). -/
def unexpected (s : State) (fn : Nat) : State :=
  let s := { s with hi.unexpected := satAdd 65535 s.hi.unexpected 1 }
  let s := if isFn fn then s.modFunc fn fun f => { f with aerUc := true } else s
  sticky s 105 0

/-- A completion arrives for a tag (R333). -/
def opReadCompletion (tag : Nat) (status : CplStatus) (data : Bytes) (s : State) : State :=
  match tblGet none s.dma.reads tag with
  | none => unexpected s 0
  | some r =>
    if r.isXlate || (status == .ok && (data.isEmpty || r.len < r.got.length + data.length)) then
      unexpected s r.client
    else
      let r' := { r with got := r.got ++ data }
      let whole := status != .ok || r.len ≤ r'.got.length
      let s := if r.purpose == .dropped true then unexpected s r.client else s
      let s := match status with
        | .ur | .ca => cplBad s
        | .poisoned => cplPoisoned s
        | .ok => s
      if !whole then { s with dma.reads := tblPut s.dma.reads tag (some r') }
      else
        let s := dropRead s tag
        retryReads (match status with
          | .ok => readDone s r'
          | .poisoned => readFails s r stPoison 0
          | _ => readFails s r stDma 0x06)

def execReadCompletion (tag : Nat) (status : CplStatus) (data : Bytes) (s : State) :
    Host.Outcome State Fault Refusal :=
  .next (whenClocked (.readCompletion tag status data) s fun s => opReadCompletion tag status data s)

/-- A read has been outstanding for TO_US (R334). -/
def opCompletionTimeout (tag : Nat) (s : State) : State :=
  match tblGet none s.dma.reads tag with
  | none => s
  | some r =>
    if s.hv.tick < r.issued + 1200 * s.hi.cplTo then s
    else retryReads (readFails (dropRead (timedOut s r.client) tag) r stDma 0x07)

def execCompletionTimeout (tag : Nat) (s : State) : Host.Outcome State Fault Refusal :=
  .next (onClock s.hv.fclk s (opCompletionTimeout tag))

/-! ## ATS (R335) -/

/-- A waiting read uses a page of the host. -/
def waitsOn (fn : Nat) (pasid : Option Nat) (page : Nat) (r : Req) : Bool :=
  r.client == fn && r.target == 0 && r.pasid == pasid && r.addr.toNat / 4096 == page

/-- The Translation Request for a page, by its tag. -/
def xlateTag (s : State) (fn : Nat) (pasid : Option Nat) (page : Nat) : Option Nat :=
  (s.reqs.find? fun e => e.2.client == fn && e.2.purpose == .xlate pasid page).map (·.1)

/-- The translation is cached, the oldest entry leaving a full cache; reads that it denies fail. -/
def xlateCached (s : State) (fn : Nat) (pasid : Option Nat) (page : Nat) (rd wr : Bool) (xlate : Nat) : State :=
  let e : Atc := { fn := fn, pasid := pasid, page := page, rd := rd, wr := wr, xlate := xlate }
  let old := s.dma.atc.filter fun x => !(x.fn == fn && x.pasid == pasid && x.page == page)
  let s := { s with dma.atc := (if 4096 ≤ old.length then old.drop 1 else old) ++ [e] }
  let s := rlogResume (if fn = 0 then mlogResume s else s) fn
  if rd then s
  else
    let hit := s.dma.waiting.filter (waitsOn fn pasid page)
    let s := { s with dma.waiting := s.dma.waiting.filter fun r => !waitsOn fn pasid page r }
    s.each hit fun s r => readFails s r stDma 0x08

/-- A Translation Completion frees the tag of its request. One whose request an FLR or a clear of ATS Enable
overtook is discarded. -/
def opAtsTranslationCompletion (fn : Nat) (pasid : Option Nat) (page : Nat) (rd wr : Bool) (xlate : Nat)
    (s : State) : State :=
  match xlateTag s fn pasid page with
  | none => s
  | some tag =>
    let s := dropRead s tag
    let live := s.dma.asked.contains (fn, pasid, page)
    let s := { s with dma.asked := s.dma.asked.filter (· != (fn, pasid, page)) }
    retryReads (if live && (s.func fn).atsEn then xlateCached s fn pasid page rd wr xlate else s)

def execAtsTranslationCompletion (fn : Nat) (pasid : Option Nat) (page : Nat) (rd wr : Bool) (xlate : Nat)
    (s : State) : Host.Outcome State Fault Refusal :=
  .next (whenClocked (.atsTranslationCompletion fn pasid page rd wr xlate) s fun s =>
    opAtsTranslationCompletion fn pasid page rd wr xlate s)

/-- An Invalidation Request: matching entries go, and the request waits for the reads issued under
them; writes have been issued already. -/
def opAtsInvalidationRequest (fn : Nat) (pasid : Option Nat) (page npages itag : Nat) (s : State) : State :=
  let hit := fun (p : Nat) => page ≤ p && p < page + npages
  let tags := (s.reqs.filter fun e =>
    !e.2.isXlate && e.2.client == fn && e.2.target == 0 && e.2.pasid == pasid
      && hit (e.2.addr.toNat / 4096)).map (·.1)
  { s with
    dma.atc := s.dma.atc.filter fun e => !(e.fn == fn && e.pasid == pasid && hit e.page)
    dma.invs := s.dma.invs ++ [{ fn := fn, itag := itag, tags := tags }] }

def execAtsInvalidationRequest (fn : Nat) (pasid : Option Nat) (page npages itag : Nat) (s : State) :
    Host.Outcome State Fault Refusal :=
  .next (whenClocked (.atsInvalidationRequest fn pasid page npages itag) s fun s =>
    opAtsInvalidationRequest fn pasid page npages itag s)

/-- No read issued under the invalidated entries is outstanding: the request is completed. -/
def opAtsInvalidationDone (fn itag : Nat) (s : State) : State :=
  match s.dma.invs.find? fun i => i.fn == fn && i.itag == itag with
  | none => s
  | some i =>
    if i.tags.isEmpty then
      let s := linkActive s
      { s with dma.invs := s.dma.invs.filter fun x => !(x.fn == fn && x.itag == itag) }.emit [.atsDone fn itag]
    else s

def execAtsInvalidationDone (fn itag : Nat) (s : State) : Host.Outcome State Fault Refusal :=
  .next (onClock s.hv.fclk s (opAtsInvalidationDone fn itag))

end Sys2Proof.Machine
end

