-- ==== Sys2Proof/Machine/Ends.lean ====
section
/-! DEFINITION. The end of a job: destination writes, counters, charges, the result record, and the
leaf of a job with a receipt (R29, R38, R58, R95 to R101, R109, R150, R258 to R264, R354). -/

namespace Sys2Proof.Machine

/-! ## Leaves: who waits, who is pending (R260, R262, R264) -/

/-- The receipts of a client are enabled (R260). -/
def receiptsOn (s : State) (c : Nat) : Bool := (s.tenant c).wgT.enable && s.wg.signer

/-- The job asks for a receipt; a NOP ignores the flag (R82). -/
def Job.wantsLeaf (j : Job) : Bool := dReceipt j.desc && dOp j.desc != some .nop

/-- The dispatched jobs of the job's queue, in queue order. -/
def queueMates (s : State) (id : Nat) : List Nat :=
  let j := s.job id
  match j.src with
  | .ring q _ => (s.queue j.client q).window
  | .peer p _ _ => (queueWindow s j.client (peerQueueBase + p)).filter (· != 0)
  | .prov => []

/-- A RECEIPT job that has no leaf yet and may still get one. -/
def unassigned (s : State) (id : Nat) : Bool :=
  let j := s.job id
  s.hasJob id && j.wantsLeaf && j.stage != .ended && !j.isLeaf

/-- Every earlier RECEIPT job of the queue has been assigned. -/
def leafFirst (s : State) (id : Nat) : Bool :=
  ((queueMates s id).takeWhile (· != id)).all fun w => !unassigned s w

/-- Pending leaves of the Hive, or of one client. -/
def pendingLeaves (s : State) (c : Option Nat) : Nat :=
  (s.jobsWith fun j => j.stage == .leaf && j.pendingLeaf && !j.isLeaf && (c.isNone || c == some j.client)).length

/-- Jobs that wait at stage 8 behind an earlier one become pending while there is room. -/
def refreshPending (s : State) : State :=
  let l := s.jobsWith fun j => j.stage == .leaf && !j.isLeaf && !j.pendingLeaf
  let s := s.each l fun s id =>
    let c := (s.job id).client
    if !leafFirst s id && pendingLeaves s (some c) < (s.tenant c).wgT.pendMax
        && pendingLeaves s none < 16384 then s.modJob id fun j => { j with pendingLeaf := true }
    else s
  let n := pendingLeaves s none
  let full := decide (16384 ≤ n)
  let was := s.wg.bufFull
  let s := { s with wg.bufFull := full, wg.pendPeak := max s.wg.pendPeak n }
  if full && !was then raiseHive s 7 0 else s

/-! ## The result record leaves (R95, R99, R354, R359) -/

/-- The rest of a job's packet is dropped (R354). -/
def dropPacket (s : State) (id : Nat) : State :=
  match (s.job id).src with
  | .peer _ _ k =>
    let n := (tblGet {} s.peer.packets k).words.length
    { s with peer.packets := tblErase s.peer.packets k, peer.dropped := satAdd 0xFFFFFFFF s.peer.dropped n }
  | _ => s

/-- Where the record of a ring job goes. -/
def resultAddr (s : State) (j : Job) : Nat :=
  if dResult j.desc != 0 then dResult j.desc
  else match j.src with
    | .ring q i => (s.queue j.client q).slotAddr i
    | _ => 0

/-- The record write is issued, or the egress packet is ready, and the job has ended. -/
def sendResult (s : State) (id : Nat) : State :=
  let j := s.job id
  let b := recordOf j
  if j.fromPeer then
    let s := dropPacket s id
    let b' := fit j.output (64 * ceilDiv j.output.length 64) ++ b
    let s := { s with peer.order := s.peer.order.map fun (e : Egress) =>
      if e.job == id then { e with ready := true, bytes := b' } else e }
    s.modJob id fun j => { j with stage := .ended, record := b }
  else
    let w := recordWrite s j.client (resultAddr s j) b
    match w.1 with
    | .waits => w.2
    | _ => w.2.modJob id fun j => { j with stage := .ended, record := b }

/-- Stage 8 assigns the leaf its epoch and index; the digest that enters it is counted (R178, R262). -/
def assignLeaf (s : State) (id : Nat) : State :=
  let c := (s.job id).client
  let n := (s.tenant c).leaves.length
  let ep := s.wg.epoch
  let s := s.modJob id fun j => { j with isLeaf := true, pendingLeaf := false, epoch := ep, leafIdx := n }
  let j := s.job id
  let s := s.modTenant c fun t => { t with leaves := t.leaves ++ [leafOf j] }
  let s := { s with wg.leaves := s.wg.leaves + 1 }
  let s := match j.comb with
    | some k => if j.commits then combCount1 s k 0xFFFFFFFF (·.digCommits) fun b v => { b with digCommits := v } else s
    | none => s
  sendResult s id

/-- The job waits at stage 8 for its leaf and may be assigned. -/
def mayAssign (s : State) (id : Nat) : Bool :=
  let j := s.job id
  s.hasJob id && j.stage == .leaf && !j.isLeaf && leafFirst s id && s.wg.isOpen && s.wg.signer
    && (s.tenant j.client).rlog.held.isEmpty

/-- The job reaches the end of stage 7: it waits at stage 8, or its record leaves. -/
def endSeven (s : State) (id : Nat) : State :=
  let j := s.job id
  if j.wantsLeaf && receiptsOn s j.client then
    refreshPending (s.modJob id fun j => { j with stage := .leaf })
  else sendResult s id

/-! ## Memory errors at the end of a job (R38, R426) -/

/-- INFO of a comb FAULT: the opcode and the client of the job (R419). -/
def faultInfo (j : Job) : W32 := BitVec.ofNat 32 (dCode j.desc + j.client * 65536)

/-- The job ends POISON with no further output after its first `n` bytes. -/
def poisonAfter (s : State) (id n : Nat) : State :=
  let b := (s.job id).output.take n
  (decide7 s id stPoison 0).modJob id fun j => { j with output := b }

/-- The job ends POISON with no further output. -/
def poisonJob (s : State) (id : Nat) : State := poisonAfter s id 0

/-- The entry of the context store, or of a comb's context cache, that the job reads at its end: the context it
holds, or the saved state it resumed from. -/
def Job.readsEntry (j : Job) : Bool := (j.ctxId.isSome && j.holdsCtx) || j.preempted

/-- The place of that entry in the context store. -/
def Job.entryPlace (j : Job) (id : Nat) : Nat :=
  match j.ctxId with
  | some x => Config.ctxPlace (ctxKey j.client x)
  | none => Config.ctxPlace (2 ^ 32 + id)

/-- The context that the job holds, if it holds one, is closed. -/
def closeHeld (s : State) (id : Nat) : State :=
  let j := s.job id
  match j.ctxId with
  | some x => if j.holdsCtx then closeCtx s j.client x else s
  | none => s

/-- The effect of a memory error that the end of the job meets (R38). A corrected one is counted whenever it is met;
once output has been issued, only a page of which no byte has left can still be affected, and the message buffer holds
the message of a pure EdDSA job alone (R185). -/
def jobEccAt (s : State) (id : Nat) (e : JobEcc) : State :=
  let j := s.job id
  let comb := j.comb.getD 0
  let met : JobEcc := match e with
    | .staging p => .staging p
    | .corrected => .corrected
    | e => if j.written = 0 then e else .clean
  match met with
  | .clean => s
  | .corrected => eccCorrected s j.comb
  | .freePage => if j.comb.isSome then combFault s comb none 0 else s
  | .context =>
    if j.readsEntry then closeHeld (poisonJob (sticky s 66 (BitVec.ofNat 32 (j.entryPlace id))) id) id else s
  | .contextCache =>
    if j.readsEntry && j.comb.isSome then
      closeHeld (poisonJob (combFault s comb (acctCell j.acct) (faultInfo j)) id) id
    else s
  | .staging page =>
    if j.comb.isSome && j.written ≤ 2048 * page && 2048 * page < j.output.length then
      poisonAfter (combFault s comb (acctCell j.acct) (faultInfo j)) id (2048 * page)
    else s
  | .messageBuffer =>
    if j.comb.isSome && dVariant j.desc = 0 && (dOp j.desc == some .eddsaSign || dOp j.desc == some .eddsaVerify) then
      poisonJob (combFault s comb (some .number) (faultInfo j)) id
    else s
  | .completionBuffer => if j.fromPeer || j.srcLen = 0 then s else poisonJob (sticky s 73 0) id
  | .egressBuffer => if j.fromPeer && !j.output.isEmpty then poisonJob (sticky s 74 0) id else s

/-! ## Writes, counters, charge -/

/-- The counters of R165, R183 and R212 that the end of a job moves. A signature that ends OK_TRUNCATED counts in SIGNS
and ITERS as one that ends OK (DESIGN CHOICE, log 79). -/
def endCounts (s : State) (id : Nat) : State :=
  let j := s.job id
  match j.comb, dOp j.desc with
  | some c, some o =>
    if j.noComb then s
    else
      let s := if j.acct == .bulk && j.status == stAuthFail then
        combCount1 s c 0xFFFFFFFF (·.authFail) fun b v => { b with authFail := v } else s
      let s := if j.twoPass then
        combCount1 s c 0xFFFFFFFF (·.twoPass) fun b v => { b with twoPass := v } else s
      let s := if (o == .hmacVerify || o == .cmacVerify) && j.status == stAuthFail then
        combCount1 s c 0xFFFFFFFF (·.digVerify) fun b v => { b with digVerify := v } else s
      let s := if j.status == stSigInvalid then
        combCount1 s c 0xFFFFFFFF (·.pkInvalid) fun b v => { b with pkInvalid := v } else s
      if o == .mldsaSign && j.good then
        let s := combCount1 s c 0xFFFFFF (·.signs) fun b v => { b with signs := v }
        let it := (s.comb c).iters
        let s := s.modComb c fun b => { b with iters := satAdd (2 ^ 40 - 1) it j.opInfo }
        if it < 2 ^ 40 - 1 && 2 ^ 40 - 1 ≤ it + j.opInfo then raise s (4 * c + 3) 0 else s
      else s
  | _, _ => s

/-- Output bytes not yet issued, with the free values of R90. -/
def leftToWrite (s : State) (id : Nat) : Bytes :=
  let j := s.job id
  match dOp j.desc with
  | some o => (overlapFix s o id).drop j.written
  | none => []

/-- The output of a peer job is in the egress buffer, in front of its result. Of a failed job that is what R98 reports
as issued, and of another failure nothing (R359). -/
def peerDst (s : State) (id : Nat) : State :=
  s.modJob id fun j =>
    if j.good || j.status == stDma || j.status == stPoison || j.status == stTamper || j.status == stOrphaned then
      { j with written := j.output.length }
    else { j with output := [] }

/-- A committed digest is exactly what the destination takes, free bytes of R90 among them (R178). -/
def handOver (s : State) (id : Nat) : State :=
  let j := s.job id
  let b := j.output.take j.written ++ leftToWrite s id
  if j.digest.isEmpty || j.output.isEmpty then s else s.modJob id fun j => { j with output := b, digest := b }

/-- The destination writes of a job (R101, R150, R258, R329). The second part says whether all that can
be issued has been. -/
def writeDst (s : State) (id : Nat) : State × Bool :=
  let s := handOver s id
  let j := s.job id
  if j.fromPeer then (peerDst s id, true)
  else if j.output.length ≤ j.written then (s, true)
  else
    let r := writeOut s j.client j.written j.dstSegs (leftToWrite s id) 0
    let s := r.2.2.modJob id fun j => { j with written := j.written + r.2.1 }
    let fails := fun (s : State) (det : BitVec 8) =>
      (decide7 s id stDma det).modJob id fun j => { j with output := j.output.take j.written }
    match r.1 with
    | .waits => (s, false)
    | .refused => (fails s 0x02, true)
    | .denied => (fails s 0x08, true)
    | .issued =>
      if j.good then
        let h := s.sync.h
        let un := s.sync.state != 2
        let st := match j.comb with | some c => s.combByte c | none => 0
        (s.modJob id fun j => { j with tDone := h, unsync := un, combState := st }, true)
      else (s, true)

/-- The setup and finish cycles of a job, which neighbours in its cell may overlap: in the bulk cell those of its
mode, twice in two passes (R163), in RANDOM 32 of setup and 48 of the state's update (R161); 8 of finish in a digest
cell (R180). -/
def setupFinish (j : Job) (o : Op) : Nat :=
  let d := j.desc
  let n := if j.twoPass then 2 else 1
  let gcm := if bit (dFlags d) 0 || !o.streamable then (if dIvLen d != 0 && dIvLen d != 12 then 64 else 48) else 48
  match o with
  | .aesGcmEnc | .aesGcmDec | .aesGmac => n * gcm
  | .aesCcmEnc | .aesCcmDec => n * 64
  | .chachaPolyEnc | .chachaPolyDec => n * 48
  | .aesCbcEnc | .aesCbcDec | .aesCtr => 32
  | .aesXtsEnc | .aesXtsDec => 56
  | .tls13RecSeal | .tls13RecOpen | .espSeal | .espOpen => n * 80
  | .random => 80
  | _ => 0

/-- The busy cycles of a job: of the block stage, of its saves and restores, and in the bulk cell whatever part of
setup and finish no neighbour overlapped (R109, R163, R180). -/
def Job.allBusy (j : Job) (overlapFree : Nat) : Nat :=
  let free := match dOp j.desc with
    | some o => if j.acct == .bulk then min overlapFree (setupFinish j o) else 0
    | none => 0
  j.cycles + free + j.extra

/-- OK_TRUNCATED, BYTES, the charge, the counters and the releases: the record can be formed. -/
def closeJob (s : State) (id overlapFree : Nat) : State :=
  let j := s.job id
  let st := if j.status == stOk && j.trunc then stTrunc else j.status
  let s := s.modJob id fun j =>
    { j with
      status := st
      nbytes := if st == stShort then j.nbytes else bytesOf st j.srcLen 0 j.written j.noComb
      digest := if st.toNat ≤ 1 then j.digest else [] }
  let s := endCounts s id
  let s := chargeBusy s id (j.allBusy overlapFree - j.busy)
  let s := releaseJob s id false
  (s.modJob id fun j => { j with record := recordOf j })

/-- A decided job ends (R29, stages 7 and 8). `overlapFree` counts setup and finish cycles that no
neighbour overlapped (R163). Pages free as its writes issue, and what is left of its output takes them (R150); a record
whose write waited is offered again. -/
def opJobEnd (id overlapFree : Nat) (ecc : JobEcc) (s : State) : State :=
  let j := s.job id
  if !s.hasJob id || j.stage != .cellDone || !s.hv.fclk then s
  else if !j.record.isEmpty then sendResult s id
  else
    let s := if j.noComb then s else jobEccAt s id ecc
    let w := writeDst s id
    if w.2 then endSeven (closeJob (leaveCell w.1 id) id overlapFree) id else drainCell w.1 id

def execJobEnd (job overlapFree : Nat) (ecc : JobEcc) (s : State) : Host.Outcome State Fault Refusal :=
  .next (opJobEnd job overlapFree ecc s)

end Sys2Proof.Machine
end

