-- ==== Sys2Proof/Machine/Waggle.lean ====
section
/-! DEFINITION. The waggle unit: the time-of-day input and its loop, the sync state, PPS, epochs, their
trees, records and log entries, checkpoints and reservations (R252 to R282). -/

namespace Sys2Proof.Machine

/-! ## The fields of the sync configuration group (R280) -/

def SyncCfg.lockNs (c : SyncCfg) : Nat := bits c.sync.toNat 11 0
def SyncCfg.stepNs (c : SyncCfg) : Nat := bits c.sync.toNat 27 12
def SyncCfg.driftPpb (c : SyncCfg) : Nat := bits c.hold.toNat 15 0
def SyncCfg.maxErrNs (c : SyncCfg) : Nat := bits c.hold.toNat 31 16
def SyncCfg.ppsEn (c : SyncCfg) : Bool := c.pps.getLsbD 0
def SyncCfg.require (c : SyncCfg) : Bool := c.pps.getLsbD 1
def SyncCfg.limitNs (c : SyncCfg) : Nat := bits c.pps.toNat 15 2
def SyncCfg.delayPs (c : SyncCfg) : Int := (BitVec.ofNat 16 (bits c.pps.toNat 31 16)).toInt
def SyncCfg.kp (c : SyncCfg) : Nat := bits c.loop.toNat 3 0
def SyncCfg.ki (c : SyncCfg) : Nat := bits c.loop.toNat 11 8

/-- The values of the group lie in their ranges. -/
def SyncCfg.ok (c : SyncCfg) : Bool :=
  1 ≤ c.lockNs && 100 ≤ c.stepNs && 1 ≤ c.driftPpb && 10 ≤ c.maxErrNs && 1 ≤ c.limitNs && c.kp ≤ c.ki

/-! ## The error bound and the sync state (R255 to R257) -/

/-- B of R256 in ps, saturated to 32 bits; 12 FCLK ticks are 10 ns. -/
def errBound (s : State) : Nat :=
  if s.sync.state = 0 then 0xFFFFFFFF
  else
    let t := (s.hv.tick - s.sync.lastAt.getD 0) * 5 / 6
    min 0xFFFFFFFF
      (s.sync.eLast.natAbs + s.sync.errEst * 1000 + 2000 + s.sync.cfg.driftPpb * t / 1000000)

def boundOk (s : State) : Bool := errBound s ≤ s.sync.cfg.maxErrNs * 1000

/-- The PPS condition fails (R257). -/
def ppsFails (s : State) : Bool :=
  s.sync.ppsState == 2 || (s.sync.ppsState == 3 && s.sync.cfg.require)

/-- The largest B of the epoch follows B. -/
def noteBound (s : State) : State := { s with wg.errMax := max s.wg.errMax (errBound s) }

/-- ADJ is clamped to ±500 ppm (R253). -/
def clampAdj (v : Int) : Int := max (-500000000) (min 500000000 v)

/-- The sync state changes (R255): its event, the sticky bit of UNSYNC, the ADJ of holdover. In a HOLDOVER that a word
entered, each word used still sets ADJ to P + I; ADJ is I from the loss of the words on (R253; DESIGN CHOICE, log 38).
-/
def setSync (s : State) (st : Nat) : State :=
  if s.sync.state = st then s
  else
    let s := { s with sync.state := st, wg.syncAll := s.wg.syncAll && st == 2 }
    let s := if st = 3 && s.sync.lost then { s with sync.adj := clampAdj s.sync.integ } else s
    let s := raiseHive s 5 0
    noteBound (if st = 4 then sticky s 97 0 else s)

def setPps (s : State) (st : Nat) : State :=
  if s.sync.ppsState = st then s else raiseHive { s with sync.ppsState := st } 6 0

/-- A state that the bound or the PPS condition ends (R255). -/
def judgeSync (s : State) : State :=
  if (s.sync.state = 2 || s.sync.state = 3) && (!boundOk s || ppsFails s) then setSync s 4 else s

/-! ## Update words (R252, R253) -/

/-- A waiting sync commit takes effect with a word (R280). -/
def applySync (s : State) : State :=
  match s.sync.waiting with
  | none => s
  | some c =>
    let was := s.sync.cfg.ppsEn
    let s := { s with sync.cfg := c, sync.waiting := none }
    if c.ppsEn && !was then setPps { s with sync.ppsAt := none, sync.ppsBad := false } 3
    else if !c.ppsEn && was then setPps s 0
    else s

/-- The offset acts on the Hive time: loop, forward step of the next tick, or freeze (R253). The second part
says whether a step or a freeze began. `e` is in 2⁻¹⁶ ns, `ps` in ps. -/
def steer (s : State) (e ps : Int) : State × Bool :=
  let y := s.sync
  let lim : Int := (y.cfg.stepNs * 65536 : Nat)
  let units := fun (n : Nat) => (n : Int) * (3 * 10 ^ 12)
  if lim < e then
    ({ s with
        sync.stepDue := e.toNat, sync.frozen := false, sync.freezeLeft := 0
        sync.steps := satAdd 65535 y.steps 1, wg.epSteps := satAdd 65535 s.wg.epSteps 1 }, true)
  else if e < -lim then
    ({ s with
        sync.stepDue := 0, sync.frozen := true, sync.freezeLeft := units e.natAbs
        sync.steps := if y.frozen then y.steps else satAdd 65535 y.steps 1
        wg.epSteps := if y.frozen then s.wg.epSteps else satAdd 65535 s.wg.epSteps 1 }, true)
  else if y.frozen && e < 0 then ({ s with sync.stepDue := 0, sync.freezeLeft := units e.natAbs }, false)
  else
    let i := y.integ + Int.tdiv (ps * 10 ^ 6) (2 ^ y.cfg.ki)
    let p := Int.tdiv (ps * 10 ^ 6) (2 ^ y.cfg.kp)
    ({ s with
        sync.integ := i, sync.adj := clampAdj (p + i), sync.stepDue := 0, sync.frozen := false, sync.freezeLeft := 0 },
      false)

/-- The state after a word that was used, by the triggers of R255. -/
def wordState (s : State) (src : Nat) (moved : Bool) : State :=
  let st := s.sync.state
  if st = 0 then setSync s 1
  else if moved then (if st = 1 then s else setSync s 1)
  else if st = 2 && src = 2 then judgeSync (setSync s 3)
  else if (st = 2 || st = 3) && (!boundOk s || ppsFails s) then setSync s 4
  else if st != 2 && 16 ≤ s.sync.locked && boundOk s && !ppsFails s then setSync s 2
  else s

/-- A word that is used. A sync commit that waits takes effect with it, and not with a sampled word that is ignored
(R280: "the next word"; DESIGN CHOICE, log 38). -/
def useWord (s : State) (time src est : Nat) : State :=
  let s := noteBound (applySync (noteBound s))
  let e : Int := (time : Int) - (s.sync.h : Int)
  let ps := Int.tdiv (e * 1000) 65536
  let good := src == 3 && decide (ps.natAbs ≤ s.sync.cfg.lockNs * 1000)
  let r := steer s e ps
  let s := r.1
  let s := { s with
    sync.eLast := ps, sync.errEst := est, sync.lastAt := some s.hv.tick
    sync.lost := false, sync.src := src, sync.locked := if good then min 16 (s.sync.locked + 1) else 0
    wg.offMax := max s.wg.offMax (min 0xFFFFFFFF ps.natAbs) }
  noteBound (wordState s src r.2)

/-- An update word is sampled (R252). -/
def opTodWord (w : BitVec 128) (s : State) : State :=
  let v := w.toNat
  let src := bits v 81 80
  let seq := BitVec.ofNat 8 (bits v 111 104)
  if !s.hv.fclk || s.hv.step < 9 then s
  else
    let follows := match s.sync.seq with | some p => seq == p + 1 | none => true
    let s := { s with sync.seq := some seq }
    let bad := bits v 87 82 != 0 || bits v 127 112 != 0 || src ≤ 1
    let s := if bad || !follows then { s with sync.seqErr := satAdd 65535 s.sync.seqErr 1 } else s
    if bad then s else useWord s (bits v 79 0) src (bits v 103 88)

def execTodWord (w : BitVec 128) (s : State) : Host.Outcome State Fault Refusal := .next (opTodWord w s)

/-- The offset of a frozen Hive time has been worked off (R253). -/
def opFreezeEnd (s : State) : State :=
  if s.hv.fclk && s.sync.frozen && s.sync.freezeLeft ≤ 0 then
    { s with sync.frozen := false, sync.freezeLeft := 0 }
  else s

def execFreezeEnd (s : State) : Host.Outcome State Fault Refusal := .next (opFreezeEnd s)

/-- No word has been used for 4 µs (R252, R255). -/
def opTodLost (s : State) : State :=
  match s.sync.lastAt with
  | some t =>
    if !s.sync.lost && s.hv.fclk && t + 4800 ≤ s.hv.tick then
      let s := sticky { s with sync.lost := true, sync.locked := 0 } 96 0
      if s.sync.state = 2 then judgeSync (setSync s 3)
      else if s.sync.state = 1 then setSync s 4
      else if s.sync.state = 3 then { s with sync.adj := clampAdj s.sync.integ }
      else s
    else s
  | none => s

def execTodLost (s : State) : Host.Outcome State Fault Refusal := .next (opTodLost s)

/-- The error bound passes MAX_ERR_NS (R256). -/
def opErrorBoundExceeded (s : State) : State :=
  if s.hv.fclk && (s.sync.state = 2 || s.sync.state = 3) && !boundOk s then setSync s 4 else s

def execErrorBoundExceeded (s : State) : Host.Outcome State Fault Refusal := .next (opErrorBoundExceeded s)

/-! ## PPS (R257) -/

/-- The signed distance of a stamp in ps to the nearest whole second. -/
def ppsOffset (stamp : Int) : Int :=
  let r := Int.emod stamp (10 ^ 12)
  if 10 ^ 12 < 2 * r then r - 10 ^ 12 else r

/-- A rising edge on PPS_IN, `sub` root clock periods after the last FCLK edge. It is stamped; one within half a second
of the last used edge is not used. A used edge is judged at the end of its tick, behind a word that is sampled on the
same edge (R255; log 38). Before the Hive time starts, an edge is stamped against H = 0 (R257 is silent; DESIGN CHOICE,
log 38). -/
def opPpsEdge (sub : Nat) (s : State) : State :=
  let soon := match s.sync.ppsUsed with | some t => decide (s.hv.tick < t + 600000000) | none => false
  if !s.hv.fclk || soon then s
  else { s with
    sync.ppsUsed := some s.hv.tick, sync.ppsEdge := some (s.sync.h * 1000 / 65536 + sub % 4 * 625 / 3) }

/-- The edge that was used on this tick is judged: its offset, and PPS_STATE while the check is on. -/
def judgeEdge (s : State) : State :=
  match s.sync.ppsEdge with
  | none => s
  | some stamp =>
    let y := s.sync
    let off := ppsOffset ((stamp : Int) - y.cfg.delayPs)
    let out := decide (y.cfg.limitNs * 1000 < off.natAbs)
    let s := { s with sync.ppsOff := some off, sync.ppsEdge := none }
    if !y.cfg.ppsEn then s
    else
      let s := { s with sync.ppsAt := some s.hv.tick, sync.ppsBad := out }
      judgeSync (if !out then setPps s 1 else if y.ppsAt.isSome && y.ppsBad then setPps s 2 else s)

def execPpsEdge (sub : Nat) (s : State) : Host.Outcome State Fault Refusal := .next (opPpsEdge sub s)

/-- No edge has been used for 1.5 s. -/
def opPpsTimeout (s : State) : State :=
  match s.sync.ppsAt with
  | some t =>
    if s.hv.fclk && s.sync.ppsEdge.isNone && s.sync.cfg.ppsEn && t + 1800000000 ≤ s.hv.tick then
      judgeSync (setPps { s with sync.ppsAt := none, sync.ppsBad := false } 3)
    else s
  | none => s

def execPpsTimeout (s : State) : Host.Outcome State Fault Refusal := .next (opPpsTimeout s)

/-! ## Trees (R265, R266) -/

/-- The largest power of two below `n`, for `n` above 1; `fuel` bounds the doublings. -/
def splitAt2 : Nat → Nat → Nat → Nat
  | 0, k, _ => k
  | fuel + 1, k, n => if 2 * k < n then splitAt2 fuel (2 * k) n else k

/-- The Merkle tree hash of RFC 9162 over hashed items. -/
def treeRoot : Nat → List Bytes → Bytes
  | 0, l => l.headD (sha256 [])
  | fuel + 1, l =>
    match l with
    | [] => sha256 []
    | [h] => h
    | l =>
      let k := splitAt2 64 1 l.length
      sha256 ([1] ++ treeRoot fuel (l.take k) ++ treeRoot fuel (l.drop k))

/-- The audit path of item `m` in RFC 9162, from the item up. -/
def auditPath : Nat → Nat → List Bytes → List Bytes
  | 0, _, _ => []
  | fuel + 1, m, l =>
    if l.length ≤ 1 then []
    else
      let k := splitAt2 64 1 l.length
      if m < k then auditPath fuel m (l.take k) ++ [treeRoot fuel (l.drop k)]
      else auditPath fuel (m - k) (l.drop k) ++ [treeRoot fuel (l.take k)]

/-- The root of a client's subtree. -/
def subtreeRoot (leaves : List Bytes) : Bytes :=
  treeRoot 64 (leaves.map fun b => sha256 ([0] ++ b))

/-- A tenant entry. -/
def tenantEntry (c : Nat) (epoch : W32) (count : Nat) (root : Bytes) : Bytes :=
  natBe 2 c ++ natBe 4 (if isFn c then epoch.toNat else 0) ++ natBe 4 count ++ fit root 32

/-! ## Records (R267 to R269) -/

/-- A signed ps field. -/
def psField (v : Int) : Bytes :=
  natBe 4 (BitVec.ofInt 32 (max (-0x7FFFFFFF) (min 0x7FFFFFFF v))).toNat

def wgAlg (s : State) : Nat := if s.wg.sigAlg = 1 then 0x12 else 0x11

/-- The record of the open epoch, closed now over `entries`; `lost` leaves are left out. -/
def epochRecord (s : State) (entries : List Bytes) (leaves lost : Nat) : Bytes :=
  let g := s.wg
  let gap2 := lost != 0 && g.kind == 0
  [0x51, 0x48, 0x45, 0x52, 0x01, BitVec.ofNat 8 (if gap2 then 1 else g.kind),
    BitVec.ofNat 8 (if gap2 then 2 else g.gapCause), if g.root then 1 else 0, BitVec.ofNat 8 g.sigAlg,
    BitVec.ofNat 8 s.sync.state, if g.syncAll then 1 else 0, BitVec.ofNat 8 s.sync.src,
    BitVec.ofNat 8 s.sync.ppsState, 0, 0, 0]
    ++ fit g.devId 8 ++ natBe 8 g.epoch ++ natBe 10 g.tOpen ++ natBe 10 s.sync.h
    ++ natBe 4 entries.length ++ natBe 8 leaves ++ natBe 8 lost ++ natBe 8 g.gapFrom
    ++ natBe 4 g.offMax ++ psField s.sync.eLast
    ++ (match s.sync.ppsOff with | some v => psField v | none => natBe 4 0x80000000)
    ++ natBe 4 (errBound s) ++ natBe 4 (max g.errMax (errBound s)) ++ natBe 4 (g.holdTicks / 1200000)
    ++ natBe 2 g.epSteps ++ zeros 6 ++ fit g.prev 32
    ++ treeRoot 64 (entries.map fun b => sha256 ([2] ++ b)) ++ fit g.signHash 32

/-- The alias signs a record. -/
def signRecord (s : State) (rec : Bytes) : Bytes :=
  edSign (wgAlg s) false (s.wg.aliasKey.getD []) (ascii "QHV1 EPOCH" ++ [0] ++ rec)

/-- Bytes 4 on of a manager log entry and the zero index before them. -/
def mlogEntry (ty : Byte) (body sig : Bytes) : Bytes :=
  zeros 4 ++ [ty] ++ zeros 11 ++ fit body 208 ++ fit sig 128 ++ zeros 160

/-- A receipt log entry (R272). -/
def rlogEntry (ty : Byte) (index : Nat) (path : List Bytes) (rec sig entry : Bytes) : Bytes :=
  zeros 4 ++ [ty, BitVec.ofNat 8 path.length] ++ zeros 2 ++ natLe 4 index ++ zeros 4 ++ fit rec 208
    ++ fit sig 128 ++ entry ++ zeros 6 ++ fit path.flatten 416 ++ zeros 208

/-- The alias statement (R268). -/
def aliasStatement (alg : Nat) (root : Bool) (devId pub : Bytes) : Bytes :=
  [0x51, 0x48, 0x57, 0x41, 0x01, BitVec.ofNat 8 alg, if root then 1 else 0, 0] ++ fit devId 8 ++ fit pub 57
    ++ zeros 7

/-- The waggle alias key is derived, SIGNER_READY sets, and the manager's log takes the signed alias
statement (R268, R271). -/
def deriveAlias (s : State) : State :=
  match s.ks.hrk, s.ks.devSeed with
  | some hrk, some dev =>
    let a := s.wg.sigAlg
    let seed := kdf hrk (ascii "QHV1 WGALIAS") [BitVec.ofNat 8 a] (if a = 1 then 57 else 32)
    let pub := edPublic (wgAlg s) seed
    let devId := (sha256 (edPublic 0x11 dev)).take 8
    let st := aliasStatement a s.ks.testRoot devId pub
    let sig := edSign 0x11 false dev (ascii "QHV1 WG_ALIAS" ++ [0] ++ st)
    let was := s.wg.signer
    let s := { s with wg := { s.wg with
      signer := true, aliasKey := some seed, root := s.ks.testRoot, devId := devId, signHash := sha256 pub } }
    if was then s else raiseHive (mlogPut s (mlogEntry 3 st sig)) 13 0
  | _, _ => s

/-! ## Reservations (R275) -/

/-- The reservation record's payload. -/
def resPayload (e : Nat) : Bytes := [0x11] ++ zeros 7 ++ natLe 8 e

/-- The reservation is written; under the test root it is only kept (R385). -/
def putReservation (s : State) (e : Nat) : State :=
  let s := { s with wg.eres := e, wg.eresNext := none }
  if s.ks.testRoot then s else writeRec s 0x11 (resPayload e)

/-- The open epoch has come within 32,768 of E_RES: the next reservation is on its way. -/
def reserveMore (s : State) : State :=
  if s.wg.eresNext.isNone && s.wg.eres ≤ s.wg.epoch + 32768 then
    { s with wg.eresNext := some (s.wg.eres + 32768) }
  else s

/-- The reservation write completes. -/
def opEpochReservationWriteDone (s : State) : State :=
  match s.wg.eresNext with
  | some e => if s.hv.fclk && mramOn s then putReservation s e else s
  | none => s

def execEpochReservationWriteDone (s : State) : Host.Outcome State Fault Refusal :=
  .next (opEpochReservationWriteDone s)

/-! ## Epochs (R269, R270, R276) -/

/-- An epoch opens now. -/
def openEpoch (s : State) (epoch kind cause gapFrom : Nat) (prev : Bytes) : State :=
  { s with wg := { s.wg with
      isOpen := true, epoch := epoch, kind := kind, gapCause := cause, gapFrom := gapFrom, prev := prev
      tOpen := s.sync.h, offMax := 0, errMax := errBound s, holdTicks := 0, epSteps := 0
      syncAll := s.sync.state == 2, period := s.wg.periodMs } }

/-- A chain begins with a GENESIS record (R269): its epoch is 1 or the reservation, whichever is higher. -/
def openGenesis (s : State) : State :=
  let e := max 1 s.wg.eres
  openEpoch (putReservation s (e + 65536)) e 2 0 0 []

/-- The chain resumes from the anchor with a GAP record (R276). -/
def openGap (s : State) (anchor : Nat) (hash : Bytes) : State :=
  let e := s.wg.eres
  openEpoch (putReservation s (e + 65536)) e 1 1 anchor hash

/-- The boundary of the open epoch: the first multiple of its period after T_OPEN. -/
def epochBoundary (s : State) : Nat :=
  let p := s.wg.period * 1000000 * 65536
  if p = 0 then s.wg.tOpen else (s.wg.tOpen / p + 1) * p

/-- The clients that hold leaves, in ascending order. -/
def leafClients (s : State) : List Nat :=
  (s.tenants.filter fun e => !e.2.leaves.isEmpty).map (·.1)

/-- The entries of the epoch go to the receipt logs: TYPE 1 for the clients in the tree, TYPE 2 for those
whose subtree was lost (R272, R277). -/
def tenantLogs (s : State) (kept lost : List Nat) (entries : List Bytes) (rec sig : Bytes) : State :=
  let hashes := entries.map fun b => sha256 ([2] ++ b)
  let s := s.each (kept.zip entries).zipIdx fun s e =>
    rlogPut s e.1.1 (rlogEntry 1 e.2 (auditPath 64 e.2 hashes) rec sig e.1.2)
  s.each lost fun s c =>
    let t := s.tenant c
    rlogPut s c (rlogEntry 2 0 [] rec sig (tenantEntry c t.epoch t.leaves.length (zeros 32)))

/-- The open epoch closes: its record is signed, logged and chained. `lostIn` are clients whose part of
the receipt buffer an uncorrectable error hit (R38, R277). -/
def closeEpoch (s : State) (lostIn : List Nat) : State :=
  let all := leafClients s
  let lost := all.filter lostIn.contains
  let kept := all.filter fun c => !lostIn.contains c
  let count := fun (l : List Nat) => l.foldl (fun a c => a + (s.tenant c).leaves.length) 0
  let entries := kept.map fun c =>
    tenantEntry c (s.tenant c).epoch (s.tenant c).leaves.length (subtreeRoot (s.tenant c).leaves)
  let rec_ := epochRecord s entries (count kept) (count lost)
  let sig := signRecord s rec_
  let s := if lost.isEmpty then s else sticky (sticky s 68 0) 98 0
  let s := mlogPut s (mlogEntry 1 rec_ sig)
  let s := tenantLogs s kept lost entries rec_ sig
  let s := s.each all fun s c => s.modTenant c fun t => { t with leaves := [] }
  { s with wg := { s.wg with
      isOpen := false, prev := sha256 ([3] ++ rec_), lastRec := if s.wg.root then s.wg.lastRec else rec_ } }

/-- The Hive time has reached the epoch boundary, a record can be signed, and the close does not wait at E_RES
(R270, R275, R277). -/
def closeDue (s : State) : Bool :=
  s.wg.isOpen && s.wg.signer && s.hv.fclk && epochBoundary s ≤ s.sync.h && s.wg.epoch + 1 < s.wg.eres

/-- The open epoch closes, and the next opens on the same edge (R270). `corrected` single-bit errors were met in
the receipt buffer (R38). -/
def opEpochClose (lost : List Nat) (corrected : Nat) (s : State) : State :=
  if !closeDue s then s
  else
    let e := s.wg.epoch + 1
    let s := closeEpoch (eccCount s corrected) lost
    reserveMore (openEpoch s e 0 0 0 s.wg.prev)

def execEpochClose (lost : List Nat) (corrected : Nat) (s : State) : Host.Outcome State Fault Refusal :=
  .next (opEpochClose lost corrected s)

/-! ## The assignment of leaves (R262, R263, R270) -/

/-- No job of a lower client, or of a lower queue of the client, can be assigned on this edge. -/
def leafTurn (s : State) (id : Nat) : Bool :=
  let key := fun k => (s.job k).client * 2 ^ 32 + (s.job k).place.1
  (s.jobsWith fun j => j.stage == .leaf).all fun k => !mayAssign s k || key id ≤ key k

/-- A leaf is assigned; on the same edge those that waited directly behind it follow (R262). An epoch whose boundary
this edge reaches closes first (R270). A record whose write waited is offered again, with or without a leaf (R277).
R277 does not say what becomes of jobs that wait while a debug substitution has no signer: they go without a leaf when
this row finds them before the test chain opens (DESIGN CHOICE, log 39). -/
def opLeafAssign (id : Nat) (s : State) : State :=
  let j := s.job id
  if !s.hv.fclk then s
  else if s.hasJob id && j.stage == .leaf && (j.isLeaf || !s.wg.signer) then sendResult s id
  else
    let s := opEpochClose [] 0 s
    if !mayAssign s id || !leafTurn s id then s
    else
      let after := (queueMates s id).dropWhile (· != id)
      refreshPending (s.each after fun s k => if mayAssign s k then assignLeaf s k else s)

def execLeafAssign (job : Nat) (s : State) : Host.Outcome State Fault Refusal := .next (opLeafAssign job s)

/-! ## Checkpoints (R274, R27) -/

/-- The anchor's payload for a signed record. -/
def anchorPayload (rec_ : Bytes) : Bytes :=
  [0x10] ++ zeros 7 ++ natLe 8 (beNat (slice rec_ 24 8)) ++ natLe 10 (beNat (slice rec_ 42 10)) ++ zeros 6
    ++ sha256 ([3] ++ rec_)

/-- PERIOD_S in FCLK ticks. -/
def ckptTicks (s : State) : Nat := s.wg.ckptS * 1200000000

/-- The checkpoint time has come. -/
def ckptDue (s : State) : Bool := s.wg.ckptAt + ckptTicks s ≤ s.hv.tick

/-- The checkpoint time passes; the next lies a whole number of periods after it. -/
def ckptNext (s : State) : State :=
  { s with wg.ckptAt := s.hv.tick - (s.hv.tick - s.wg.ckptAt) % ckptTicks s }

/-- A checkpoint that falls due while the keeper is away is missed (R27). One that falls due in sleep wakes the
Hive (R446). -/
def ckptMissed (s : State) : State :=
  if ckptDue s && s.hv.ready && s.hv.pwr = 0 && !s.keeperOk then ckptNext s else s

/-- PERIOD_S has passed, and the keeper writes the receipt anchor; without the MRAM's supply nothing is written, and the
anchor stays as old as it is (R274, R444). -/
def opReceiptCheckpoint (s0 : State) : State :=
  let s := wake s0 4
  if !ckptDue s0 then s0
  else if !s.hv.ready || s.hv.pwr != 0 then s
  else if !s.keeperOk then ckptMissed s
  else
    let s := ckptNext s
    if s.ks.testRoot || s.wg.lastRec.isEmpty || !mramOn s then s
    else
      let s := writeRec s 0x10 (anchorPayload s.wg.lastRec)
      { s with
        wg.anchor := beNat (slice s.wg.lastRec 24 8)
        wg.anchorAt := s.hv.tick, wg.ckptLate := false }

def execReceiptCheckpoint (s : State) : Host.Outcome State Fault Refusal := .next (opReceiptCheckpoint s)

/-- The anchor is older than twice PERIOD_S. -/
def opCkptLate (s : State) : State :=
  if s.hv.ready && !s.wg.ckptLate && s.wg.anchorAt + 2 * s.wg.ckptS * 1200000000 < s.hv.tick then
    raiseHive { s with wg.ckptLate := true } 8 0
  else s

def execCkptLate (s : State) : Host.Outcome State Fault Refusal := .next (onClock s.hv.fclk s opCkptLate)

/-! ## Consumer indices (R271, R272) -/

/-- WG_MLOG_CONS is written. -/
def opWgMlogConsWrite (v : W32) (s : State) : State :=
  if s.hv.ready then mlogResume { s with wg.mlog := s.wg.mlog.consume v } else s

def execWgMlogConsWrite (v : W32) (s : State) : Host.Outcome State Fault Refusal :=
  .next (whenClocked (.wgMlogConsWrite v) s fun s => opWgMlogConsWrite v (wake s 1))

/-- TN_RLOG_CONS of a client is written. -/
def opTnRlogConsWrite (c : Nat) (v : W32) (s : State) : State :=
  if isClient c && s.exists_ c && fnReachable s c then
    rlogResume (s.modTenant c fun t => { t with rlog := t.rlog.consume v }) c
  else s

def execTnRlogConsWrite (client : Nat) (v : W32) (s : State) : Host.Outcome State Fault Refusal :=
  .next (whenClocked (.tnRlogConsWrite client v) s fun s => opTnRlogConsWrite client v (wake s 1))

/-! ## Losses (R277) -/

/-- The jobs that wait at stage 8 for a leaf go without one. -/
def sendUnassigned (s : State) : State :=
  s.each (s.jobsWith fun j => j.stage == .leaf && !j.isLeaf) fun s id =>
    sendResult (s.modJob id fun j => { j with pendingLeaf := false }) id

/-- A tamper response at the waggle unit. -/
def tamperWaggle (s : State) : State :=
  let s := s.each (leafClients s) fun s c => s.modTenant c fun t => { t with leaves := [] }
  sendUnassigned { s with wg := { s.wg with signer := false, aliasKey := none, isOpen := false, bufFull := false } }

/-- A client's part of R277 under FLR, peer reset and DESTROY: its held entry goes, and a function's log group
returns to Cold values; the group of a peer client is the manager's and stays (R282). Leaves already assigned stay
in the epoch; its other jobs are abandoned. -/
def dropReceipts (s : State) (c : Nat) : State :=
  s.modTenant c fun t => { t with rlog := if isFn c then {} else { t.rlog with held := [] } }

end Sys2Proof.Machine
end

