-- ==== Sys2Proof/Machine/Keystore.lean ====
section
/-! DEFINITION. The key store's own work: the active root, zeroisation, the scrubber and the manager's
provisioning (R213 to R217, R236, R237, R246 to R249, R464). -/

namespace Sys2Proof.Machine

/-! ## The active root (R213, R215) -/

/-- The active root secret. -/
inductive Root where
  | none
  | missing
  | secret (b : Bytes) (test : Bool)
deriving DecidableEq, Repr

/-- The secret of a root field: its stored form, voted, descrambled (R213, R392). -/
def RootField.value (f : RootField) : BitVec 256 :=
  Config.otpScramble.symm (vote f.secret.1 f.secret.2.1 f.secret.2.2)

/-- The last root field whose voted intent and done words are programmed (R213, R392). -/
def productionRoot (o : Otp) : Option Bytes :=
  ((o.root.filter fun f => f.intent.voted != 0 && f.done.voted != 0).getLast?).map fun f => bvBe 32 f.value

/-- The test root is the active one: in the test states, in RMA, and where debug was reopened. -/
def testRooted (code : Nat) (debugOpen : Bool) : Bool :=
  code < 0x0300 || code == 0x0500 || (code == 0x0400 && debugOpen)

/-- The active root in the present life-cycle state. -/
def activeRoot (s : State) : Root :=
  if s.lcCode = 0x0600 then .none
  else if testRooted s.lcCode s.lc.debugOpen then .secret (bvBe 32 Config.testRoot) true
  else match productionRoot s.otp with
    | some b => .secret b false
    | none => .missing

/-- The ladder derives HRK, PSK and the DeviceID seed, or ROOT_FAIL sets (R214, R217). A failure persists as long as the
state requires the production root. -/
def deriveLadder (s : State) : State :=
  match activeRoot s with
  | .secret b test => if s.ks.rootFail && !test then s else deriveRoot { s with ks.rootFail := false } b test
  | .missing => sticky { s with ks.rootFail := true, ks.testRoot := false } 88 0
  | .none => s

/-! ## Zeroisation (R249, R464) -/

/-- A KS_PROV operation ends with a status (R246). -/
def provEnd (s : State) (st : Status) (detail : BitVec 8) : State :=
  raiseHive { s with ks := { s.ks with
    provRun := none, provStatus := st, provDetail := detail, provOut := [], provAt := 0 } } 1 0

/-- The keyed jobs that step 4 ends: under a tamper response every one that has not ended, else those
that run or are saved. -/
def endedBy (s : State) (t : ZTrigger) (j : Job) : Bool :=
  keyedJob s j &&
    match t with
    | .tamper => j.live
    | .command | .lifecycle =>
      j.stage == .run || j.stage == .saved || (j.stage == .cellDone && j.record.isEmpty && !j.noComb)
        || !j.refs.isEmpty
    | _ => false

/-- A keyed packet from peer ingress that waits for dispatch ends TAMPER_ABORT (R408). -/
def abortReady (s : State) (id : Nat) : State :=
  let h := s.sync.h
  s.modJob id fun j =>
    { j with status := stTamper, detail := 0, acct := .none, noComb := true, tDone := h,
             unsync := s.sync.state != 2 }

/-- Step 4. -/
def endKeyed (s : State) (t : ZTrigger) : State :=
  let l := s.jobsWith (endedBy s t)
  let st := if t = .tamper then stTamper else stOrphaned
  let det : BitVec 8 := if t = .tamper then 0 else 0x06
  let s := s.each l fun s id => forceEnd s id st det
  if t = .tamper then
    let r := s.jobsWith fun j => keyedJob s j && j.stage == .ready && j.fromPeer
    let s := s.each r abortReady
    if s.ks.provRun.isSome then provEnd s stTamper 0 else s
  else s

/-- Steps 1 and 2, which need the always-on domain alone: the lane closes; the scramble key and the mask shares are
cleared. A zeroisation that runs takes up a further trigger (R407). -/
def zeroMark (s : State) (t : ZTrigger) (erase : Bool) : State :=
  let t' := match s.ks.zeroising with
    | none => t
    | some u => if t = .tamper || u = .command then t else u
  { s with
    ks := { s.ks with zeroising := some t', zErase := s.ks.zErase || erase, scramble := none, zPend := true }
    jobs := tblMap {} (fun _ j => { j with keyShare := [], lane2 := [] }) s.jobs }

/-- Steps 3 and 4: key registers, nonce tables, the propolis engine and the ladder are cleared, and keyed jobs end. -/
def zeroNow (s : State) (t : ZTrigger) : State :=
  let s := { s with ks := { s.ks with hrk := none, psk := none, devSeed := none, ppDrbg := none, zPend := false } }
  let s := retireAll s
  let s := if t = .tamper then
    { s with combs := tblMap {} (fun _ b => { b with drbg := {} }) s.combs } else s
  endKeyed s t

/-- A zeroisation begins; what needs a clock that stands still waits for it. -/
def zeroise (s : State) (t : ZTrigger) (erase : Bool) : State :=
  let s := zeroMark s t erase
  if s.hv.kclk then zeroNow s t else s

/-- A write of KS_ZEROISE with START set. -/
def opKsZeroiseStart (s : State) : State := if s.hv.ready then zeroise s .command false else s

def execKsZeroiseStart (s : State) : Host.Outcome State Fault Refusal :=
  .next (whenAwake .ksZeroiseStart s opKsZeroiseStart)

/-- Step 5: every payload is cleared, every tag EMPTY with its GEN one higher. -/
def clearPool (s : State) : State :=
  { s with
    slots := tblMap {} (fun _ k => { gen := k.gen, adv := k.adv }) s.slots
    ks.genBase := s.ks.genBase + 1, ks.genAdv := s.ks.genAdv + 1 }

/-- Step 6: every persistent key record is erased; where a supply of the store fails, those it still reaches (R444). -/
def eraseKeyRecs (s : State) : State :=
  if mramOn s then s.each (keyRecs s) wipeRec
  else { s.each ((keyRecs s).take (Config.erasesReached s.freeN)) wipeRec with freeN := s.freeN + 1 }

/-- The nodes of every existing client are derived. -/
def deriveAllNodes (s : State) : State := s.each s.clients deriveNodes

/-- A new scramble key is drawn from the TRNG (R221, R248). -/
def drawScramble (s : State) : State :=
  let r := s.trng
  { r.2 with ks.scramble := some (BitVec.ofNat 128 (beNat (r.1.take 16))) }

/-- The propolis engine's DRBG is seeded from the TRNG (R239). -/
def seedPropolis (s : State) : State :=
  let r := s.trng
  { r.2 with ks.ppDrbg := some (BitVec.ofNat 384 (beNat r.1)) }

/-- Debug opens at the end of step 4 of R216. -/
def openDebug (s : State) : State :=
  let s := { s with ks.testRoot := true, lc.debugOpen := true, lc.subst := none, lc.substDue := false }
  let s := deriveAllNodes (deriveLadder s)
  let s := raiseHive { s with lc.dbgState := 3 } 4 0
  let s := sticky s 101 0
  openGenesis (deriveAlias s)

/-! ### Records that are restored (R247) -/

/-- A key record is discarded (R247, R385). -/
def discardRec (s : State) (id : Nat) : State :=
  let s := eraseRec s id
  sticky { s with store.errKey := satAdd 65535 s.store.errKey 1 } 90 0

/-- A key record of a client under its present epoch is restored, or discarded. -/
def restoreRec (s : State) (c id : Nat) : State :=
  let b := (s.recValue id).getD []
  match s.ks.psk.bind fun psk => kwpUnwrap psk (b.drop 24) with
  | none => discardRec s id
  | some p =>
    let kt := leAt p 24 2
    let m := p.drop 32
    let i := recSlot b
    let l := runSlots s c i (runOf kt)
    let ok := p.take 16 == b.take 16 && keyLen kt == some (leAt p 26 2) && m.length == leAt p 26 2 && 2 ≤ i
    match l with
    | none => discardRec s id
    | some l =>
      if !ok || l.any (fun q => (s.slot q).state != .empty) then discardRec s id
      else
        let pol := leAt p 16 8
        let f := leAt b 1 1
        let res := leAt b 16 8
        let s := reserveRun s c l kt pol (trPos c) true (f % 4) (bit f 2)
        let s := (commitRun s l m).2
        s.modSlot (l.headD 0) fun k => { k with next := if bit pol 13 then res else 0, res := res }

/-- Under the production root the client's records are restored, and those of an older epoch erased. -/
def restoreRecs (s : State) (c : Nat) : State :=
  if s.ks.testRoot || s.ks.psk.isNone then s
  else
    let epoch := (s.tenant c).epoch.toNat
    s.each ((keyRecs s).filter fun id => recClient ((s.recValue id).getD []) == c) fun s id =>
      let b := (s.recValue id).getD []
      if recEpoch b = epoch then restoreRec s c id
      else if recEpoch b < epoch then eraseRec s id
      else s

/-- The records of the tenants created while the lane was closed are restored. -/
def restoreWaiting (s : State) (l : List Nat) : State := s.each (l.filter s.exists_) restoreRecs

/-- Steps 5 to 7 end, and what the trigger asks for follows (R216, R464). -/
def opZeroisationStep5Done (s : State) : State :=
  match s.ks.zeroising with
  | none => s
  | some t =>
    if !s.hv.kclk || s.ks.zPend then s
    else
      let s := seedPropolis (clearPool s)
      let s := if s.ks.zErase then eraseKeyRecs s else s
      let due := s.ks.restoreDue
      let s := startJournal (sticky { s with ks.zeroising := none, ks.zErase := false, ks.restoreDue := [] } 89 0)
      match t with
      | .tamper => { s.each (List.range combCount) drbgInit with aon.responding := false }
      | .substitution => if s.lc.subst.isSome then openDebug (drawScramble s) else s
      | .lifecycle => s
      | .command =>
        if s.aon.tampered then s else restoreWaiting (deriveAllNodes (deriveLadder (drawScramble s))) due

def execZeroisationStep5Done (s : State) : Host.Outcome State Fault Refusal :=
  .next (onClock s.hv.kclk s opZeroisationStep5Done)

/-! ## The scrubber (R236, R237) -/

/-- The held advances of R237 are released. -/
def releaseHeld (s : State) : State :=
  { s with slots := tblMap {} (fun _ k => { k with adv := 0 }) s.slots, ks.genAdv := 0 }

/-- A pass starts. -/
def opScrubPassStart (s : State) : State :=
  if s.hv.kclk && !s.ks.scrubbing && s.ks.scrubAt + s.ks.periodMs * 1200000 ≤ s.hv.tick then
    let s := releaseHeld s
    { s with ks.scrubbing := true, ks.scrubPos := 0, ks.scrubAt := s.hv.tick }
  else s

def execScrubPassStart (s : State) : Host.Outcome State Fault Refusal := .next (opScrubPassStart s)

/-- A CONT slot that no run before it covers. -/
def strayCont (s : State) (pos : Nat) : Bool :=
  let k := s.slot pos
  k.state == .cont &&
    match allocIndex s k.owner pos with
    | none => true
    | some i => !((List.range 63).any fun d =>
        d + 1 ≤ i &&
          match allocPos s k.owner (i - (d + 1)) with
          | some p =>
            let h := s.slot p
            (h.state == .valid || h.state == .invalid || h.state == .orphan) && h.owner == k.owner && d + 1 < h.run
          | none => false)

/-- A run is reclaimed: payloads zero, the GEN of its tag one higher, every slot EMPTY (R236). -/
def reclaimRun (s : State) : List Nat → State
  | [] => s
  | h :: rest => freeRun (clearRun s [h]) rest

/-- What the scrubber does at a slot. -/
def scrubSlot (s : State) (pos : Nat) : State :=
  let k := s.slot pos
  let s := if k.state == .valid && !chainOk s pos then s.modSlot pos fun k => { k with state := .orphan } else s
  let k := s.slot pos
  if (k.state == .orphan || k.state == .invalid) && k.refs = 0 then
    let s := reclaimRun s (runFrom s pos)
    { s with ks.reclaimed := satAdd 0xFFFFFFFF s.ks.reclaimed 1 }
  else if strayCont s pos then clearRun s [pos]
  else s

/-- The scrubber visits the next slot; the last one ends the pass. -/
def opScrubSlotVisit (s : State) : State :=
  if !s.ks.scrubbing || !s.hv.kclk then s
  else
    let p := s.ks.scrubPos
    let s := scrubSlot s p
    if p + 1 < 524288 then { s with ks.scrubPos := p + 1 }
    else
      let s := releaseHeld s
      raiseHive { s with ks.scrubbing := false, ks.scrubPos := 0 } 9 0

def execScrubSlotVisit (s : State) : Host.Outcome State Fault Refusal := .next (opScrubSlotVisit s)

/-! ## Provisioning (R246, R247) -/

/-- A KS_PROV commit: discarded while BUSY; in TAMPERED state the operation ends at once (R409). -/
def provCommit (s : State) (op : Nat) : State :=
  if !s.hv.ready || s.ks.provRun.isSome || s.ks.prov.op != op then s
  else if s.aon.tampered then provEnd s stTamper 0
  else { s with ks.provRun := some s.ks.prov }

def execKsProvGenerate (s : State) : Host.Outcome State Fault Refusal :=
  .next (whenAwake .ksProvGenerate s fun s => provCommit s 0)

def execKsProvUnwrap (s : State) : Host.Outcome State Fault Refusal :=
  .next (whenAwake .ksProvUnwrap s fun s => provCommit s 1)

def execKsProvInvalidate (s : State) : Host.Outcome State Fault Refusal :=
  .next (whenAwake .ksProvInvalidate s fun s => provCommit s 2)

/-- OP 3 is refused: nothing starts, and KS_PROV_STATUS reports it (R246, R457), with a STATUS and DETAIL that the spec
does not give: free values (log 75). -/
def opKsProvOp3 (s : State) : State :=
  if !s.hv.ready || s.ks.provRun.isSome || s.ks.prov.op != 3 then s
  else if s.aon.tampered then provEnd s stTamper 0
  else { s with ks.provStatus := Config.provRefusal.1, ks.provDetail := Config.provRefusal.2 }

def execKsProvOp3 (s : State) : Host.Outcome State Fault Refusal :=
  .next (whenAwake .ksProvOp3 s opKsProvOp3)

/-- Bytes of a key record's payload for a type. -/
def keyRecLen (kt : Nat) : Nat := 24 + 8 * ceilDiv (32 + (keyLen kt).getD 0) 8 + 8

/-- The checks of a provisioned creation on the tags: the tenant root, the reservation, the store. -/
def provIssue (s : State) (p : ProvCfg) : Fail :=
  match slotIssue s p.client 1 with
  | some x => some x
  | none =>
    let make : Fail := if p.op = 0 && !(ktSym p.ktype || ktCurve p.ktype) then some (stPolicy, 0x09) else none
    match reserveIssue s p.client p.slot p.ktype p.policy.toNat (trPos p.client) true make with
    | some x => some x
    | none =>
      if bit p.policy.toNat 14 && !keyAreaFits s (keyRecLen p.ktype) then some (stPolicy, 0x0D) else none

/-- The new slot becomes VALID, and a PERSIST slot's record is written. -/
def provCreate (s : State) (p : ProvCfg) (mat : Bytes) : State :=
  let l := (runSlots s p.client p.slot (runOf p.ktype)).getD []
  let og := if p.op = 1 then (2, true) else (0, bit p.policy.toNat 12)
  let s := reserveRun s p.client l p.ktype p.policy.toNat (trPos p.client) true og.1 og.2
  let s := (commitRun s l mat).2
  match l.head?, s.ks.psk with
  | some h, some psk =>
    if bit p.policy.toNat 14 then
      let epoch := (s.tenant p.client).epoch
      let id := newRecId s
      writeRec { s with freeN := s.freeN + 1 } id (keyRecBody psk (s.slot h) p.client epoch p.slot 0)
    else s
  | _, _ => s

/-- The work is charged to the manager at NORMAL class (R246, R109). -/
def chargeManager (s : State) (a : Account) (n : Nat) : State :=
  let k := defKey 0 (acctIndex a) 1
  { s with sch.deficit := tblSet 0 s.sch.deficit k (max (tblGet 0 s.sch.deficit k - (max 256 n : Nat)) (-(2 ^ 39))) }

/-- The length of the public part that GENERATE writes. -/
def provPublicLen (kt : Nat) : Nat := if ktCurve kt then pubLen (kt % 256) else 0

/-- What is left of the public part of GENERATE is written through the manager's windows, and the operation ends; a
write that waits is offered again (R246, R302, R335, R336). -/
def provWrite (s : State) (p : ProvCfg) : State :=
  let b := s.ks.provOut
  let r := writeOut s 0 s.ks.provAt [{ addr := p.addr, len := b.length }] (b.drop s.ks.provAt) s.ks.provAt
  match r.1 with
  | .issued => provEnd r.2.2 stOk 0
  | .waits => { r.2.2 with ks.provAt := r.2.1 }
  | .refused => provEnd r.2.2 stDma 0x02
  | .denied => provEnd r.2.2 stDma 0x08

/-- GENERATE on the comb that R113 chooses; without a comb online it waits. -/
def provGenerate (s : State) (p : ProvCfg) : State :=
  let n := (keyLen p.ktype).getD 0
  if ktCurve p.ktype && !allowed s 0 p.addr.toNat (provPublicLen p.ktype) true then provEnd s stDma 0x02
  else match provIssue s p with
    | some (st, det) => provEnd s st det
    | none =>
      match bestComb s 0 ((List.range combCount).filter fun c => (s.comb c).mode == 1) with
      | none => s
      | some c =>
        match drbgReady s c false with
        | none => provEnd s stPoison 0x81
        | some t =>
          let r := drbgGenerate t c (if ktCurve p.ktype && p.ktype % 256 < 0x10 then n + 8 else n)
          let key := if ktCurve p.ktype then curveKey p.ktype r.1 else (r.1, [])
          let s := chargeManager r.2 (if ktCurve p.ktype then .number else .bulk)
            (if ktCurve p.ktype then pointCycles (p.ktype % 256) 1 else 64)
          provWrite { provCreate s p key.1 with ks.provOut := key.2 } p

/-- The wrapping slot's checks (R226) for UNWRAP. -/
def provWrapIssue (s : State) (i : Nat) : Fail :=
  match slotIssue s 0 i, s.slotPos 0 i with
  | none, some pos =>
    let k := s.slot pos
    if i < 2 then some (stPolicy, 0x03)
    else if !(k.ktype == 1 || k.ktype == 2 || k.ktype == 3) then some (stPolicy, 0x02)
    else if !k.pol 11 then some (stPolicy, 0x01)
    else if k.bad = 1 then some (stPoison, 0)
    else none
  | x, _ => x

/-- The status of a read that failed (R333, R334). -/
def readFail (e : ReadEnd) : Fail :=
  match e with
  | .ok => none
  | .error => some (stDma, 0x06)
  | .poisoned => some (stPoison, 0)
  | .timeout => some (stDma, 0x07)

/-- UNWRAP: the keeper reads the wrapped key through the manager's windows. A read that waits for its tag, its
translation or bus master enable leaves the operation as it is. -/
def provUnwrap (s : State) (p : ProvCfg) (read : ReadEnd) (blob : Bytes) : State :=
  if p.len < 40 || 2592 < p.len then provEnd s stRange 0x01
  else if !allowed s 0 p.addr.toNat p.len false then provEnd s stDma 0x01
  else match provWrapIssue s p.wrap with
    | some (st, det) => provEnd s st det
    | none =>
      match provIssue s p, keeperRead s 0 p.addr.toNat p.len read with
      | some (st, det), _ => provEnd s st det
      | none, (.waits, s) => s
      | none, (.refused, s) => provEnd s stDma 0x01
      | none, (.denied, s) => provEnd s stDma 0x08
      | none, (.issued, s) =>
        match readFail read with
        | some (st, det) => provEnd s st det
        | none =>
          let b := fit blob p.len
          let s := chargeManager s .propolis (wrapCost (p.len / 8 - 1))
          let s := ppCount s
          match kwpUnwrap (s.slot ((s.slotPos 0 p.wrap).getD 0)).mat b with
          | none => provEnd s stAuthFail 0
          | some m =>
            match unwrapped 0 p.ktype p.policy.toNat m with
            | none => provEnd s stPolicy 0x0B
            | some m => provEnd (provCreate s p m) stOk 0

def provInvalidate (s : State) (p : ProvCfg) : State :=
  match invalidateIssue s p.client p.slot with
  | some (st, det) => provEnd s st det
  | none =>
    if invalidateWaits s p.client p.slot then s
    else provEnd (invalidate (eraseSlotRec s p.client p.slot) p.client p.slot) stOk 0

/-- The operation takes place and ends, or goes on writing its public part. It pulls and commits at this moment, which
the closed lane puts off, but for the zeroisation of a substitution, under which it fails (R464); INVALIDATE does not
pull. -/
def opProvDone (read : ReadEnd) (blob : Bytes) (s : State) : State :=
  match s.ks.provRun with
  | none => s
  | some p =>
    if p.op = 2 then provInvalidate s p
    else if !s.ks.provOut.isEmpty then provWrite s p
    else if s.ks.zeroising == some .substitution then provEnd s stOrphaned 0x03
    else if laneShut s then s
    else if p.op = 0 then provGenerate s p
    else provUnwrap s p read blob

def execProvDone (read : ReadEnd) (blob : Bytes) (s : State) : Host.Outcome State Fault Refusal :=
  .next (onClock s.hv.kclk s (opProvDone read blob))

/-! ## The entropy source (R160) -/

/-- The entropy source fails its health tests. -/
def opEntropySourceHealthFail (s : State) : State := sticky { s with ks.entropyFail := true } 75 0

def execEntropySourceHealthFail (s : State) : Host.Outcome State Fault Refusal :=
  .next (opEntropySourceHealthFail s)

end Sys2Proof.Machine
end

