-- ==== Sys2Proof/Machine/Tamper.lean ====
section
/-! DEFINITION. The tamper sources and the tamper response (R35, R403 to R409). -/

namespace Sys2Proof.Machine

/-! ## Queues that use keys (R408) -/

/-- A fetched descriptor from index `i` on names a key slot; `fuel` bounds the slots walked. -/
def cachedKeys (s : State) (c : Nat) (u : Queue) : Nat → W32 → Bool
  | 0, _ => false
  | fuel + 1, i =>
    match u.cache.find? fun e => e.1 == i.toNat with
    | none => false
    | some e =>
      let d := e.2.data
      if e.2.bad || headerSum d != 0 || dSlots d = 0 || 8 < dSlots d then false
      else
        keyedJob s { client := c, clear := u.clearExport, desc := d }
          || cachedKeys s c u fuel (i + BitVec.ofNat 32 (dSlots d))

/-- A ring queue uses keys now. -/
def usesKeys (s : State) (c q : Nat) : Bool :=
  let u := s.queue c q
  ((u.ready ++ u.window).any fun j =>
      !s.ended j && (keyedJob s (s.job j) || !(s.job j).refs.isEmpty))
    || cachedKeys s c u (u.cache.length + 1) u.chk

/-- The queues that a response freezes: any that is not DISABLED and uses keys. -/
def keyedQueues (s : State) : List (Nat × Nat) :=
  (s.queues.filter fun e =>
    let u := s.queue (e.1 / qSpan) (e.1 % qSpan)
    u.state != .disabled && u.state != .frozen && usesKeys s (e.1 / qSpan) (e.1 % qSpan)).map
    fun e => (e.1 / qSpan, e.1 % qSpan)

/-! ## The sources (R404, R437, R441) -/

/-- The supply domains of R440, in the order of RAIL_OK. -/
def domVddAon : Nat := 2
def domVddioAon : Nat := 3
def domVddioHv : Nat := 4

/-- What the sources read (TP_STATUS.LIVE; R404, R437, R441). An unpowered VDDIO_AON trips every input. Undervoltage is
not watched while HIVE_RST_N is asserted, and nothing before the monitor has armed. -/
def State.live (s : State) : BitVec 7 :=
  let a := s.aon
  let ins : Nat := if a.low.getLsbD domVddioAon then 0xF else a.ins.toNat
  let volt := a.monitor && (a.high != 0 || (a.low != 0 && !s.hv.rstHeld))
  BitVec.ofNat 7 (ins + flagBit volt 4 + flagBit (a.refOut || a.unlock) 5 + flagBit a.hot 6)

/-! ## The response (R403, R406, R407) -/

/-- A reopening that has not reached step 4 of R216 ends. -/
def endReopening (s : State) : State :=
  if s.lc.dbgState = 1 || s.lc.dbgState = 2 || s.lc.subst.isSome then
    raiseHive { s with
      lc.dbgState := 4, lc.subst := none, lc.substDue := false, lc.chalOut := false, lc.chal := [] } 4 0
  else s

/-- What of a zeroisation waits for the clocks: steps 3 and 4 of R249, and under a tamper response the freezing of the
queues that use keys and the waggle unit's part (R406, R407). -/
def zeroRest (s : State) : State :=
  if !s.ks.zPend || !s.hv.kclk then s
  else match s.ks.zeroising with
    | some .tamper =>
      let l := keyedQueues s
      tamperWaggle ((zeroNow s .tamper).each l fun s e => freezeQueue s e.1 e.2)
    | some t => zeroNow s t
    | none => s

/-- A tamper response begins. While the Hive is entering sleep, entry is abandoned; in sleep it wakes, and in the FCLK
cycle of an ENTER it comes first (R447). -/
def tamperResponse (s : State) : State :=
  let s := { s with aon := { s.aon with
    count := satAdd 65535 s.aon.count 1, lastAt := s.aon.cycles, lastSrc := s.live, responding := true
    tampered := true } }
  let s := if s.released then s else { s with hv.tampered := true }
  let s := sticky s 87 0
  let s := if s.hv.pwr = 1 && !entersNow s then { s with hv.pwr := 0, hv.wakeNext := 0 } else wake s 5
  let s := endReopening s
  zeroRest (zeroMark s .tamper (s.ks.erasePersist && s.released))

/-- A source trips: its latch, its sticky bit, and where it is armed the response. -/
def trip (s : State) (src : Nat) : State :=
  let armed := decide (4 ≤ src) || s.aon.arm.getLsbD src
  let s := { s with aon.latch := s.aon.latch ||| (1#7 <<< src) }
  let s := sticky s (80 + src) 0
  if armed then tamperResponse s else s

/-- Bit `i` of a set takes a value. -/
def setBit {w : Nat} (v : BitVec w) (i : Nat) (b : Bool) : BitVec w :=
  (v &&& ~~~(1#w <<< i)) ||| (if b then 1#w <<< i else 0#w)

/-- TAMPER_IN[n] stays at its tripped level past its debounce, or is back at its intact one (R404, R437). -/
def opTamperInTrip (n : Nat) (high : Bool) (s : State) : State :=
  if 4 ≤ n then s
  else
    let s := { s with aon.ins := setBit s.aon.ins n high }
    if high then trip s n else s

/-- The voltage monitor arms, and trips at once on a supply that has left its limits (R441). -/
def armMonitor (s : State) : State :=
  if s.aon.monitor then s
  else
    let s := { s with aon.monitor := true }
    if s.live.getLsbD 4 then trip s 4 else s

/-- The monitor arms 100 µs, 10,000 AON cycles, after every domain has first come within tolerance (R441). -/
def armTick (s : State) : State :=
  match s.aon.goodAt with
  | some t => if t + 10000 ≤ s.aon.cycles then armMonitor s else s
  | none => s

/-- Every domain is within tolerance; the first such moment since the cold power-on is kept (R441, R442). -/
def noteRails (s : State) : State :=
  if s.hv.powered && s.aon.goodAt.isNone && (s.aon.high ||| s.aon.low ||| s.aon.outside) == 0 then
    { s with aon.goodAt := some s.aon.cycles }
  else s

/-- A supply passes a limit (R404, R441, R444). What the monitor watches trips it, and the loss of VDDIO_AON the inputs
that read intact before. -/
def opVoltageTrip (domain : Nat) (reads : Supply) (s : State) : State :=
  let was := s.live
  let s := { s with aon := { s.aon with
    high := setBit s.aon.high domain (reads == Supply.surge)
    low := setBit s.aon.low domain (reads == Supply.sag)
    outside := setBit s.aon.outside domain (reads == Supply.outside) } }
  let watched := s.aon.monitor && (reads == .surge || (reads == .sag && !s.hv.rstHeld))
  let s := s.each ((List.range 4).filter fun i => s.live.getLsbD i && !was.getLsbD i) trip
  noteRails (if watched then trip s 4 else s)

/-- The root PLL loses lock: the derived clocks stop, and the clock source trips (R35). In retention sleep
that wakes the Hive (R446). -/
def opPllLockLoss (s : State) : State :=
  if !s.hv.rootLock then s
  else
    let s := { s with hv := { s.hv with
      rootLock := false, cclk := false, fclk := false, kclk := false, xclk := false
      lockLoss := satAdd 255 s.hv.lockLoss 1 }
                      aon.unlock := true }
    trip (wake (sticky s 92 0) 8) 5

/-- REFCLK leaves 95 to 105 MHz while the PLL stays locked, or is back in it. -/
def opRefclkFrequencyTrip (outside : Bool) (s : State) : State :=
  let s := { s with aon.refOut := outside }
  if outside then trip s 5 else s

/-- The junction leaves −40 to 125 °C, or is back in it. -/
def opTemperatureTrip (outside : Bool) (s : State) : State :=
  let s := { s with aon.hot := outside }
  if outside then trip s 6 else s

/-- A W1C write of TP_LATCH: a latch clears only while its source reads intact (R405). -/
def opTpLatchClear (mask : BitVec 7) (s : State) : State :=
  if s.presented then { s with aon.latch := s.aon.latch &&& ~~~(mask &&& ~~~s.live) } else s

def execTpLatchClear (mask : BitVec 7) (s : State) : Host.Outcome State Fault Refusal :=
  .next (whenClocked (.tpLatchClear mask) s fun s => opTpLatchClear mask (wake s 1))

end Sys2Proof.Machine
end

