-- ==== Sys2Proof/Machine/PeerOps.lean ====
section
/-! DEFINITION. The steps of a peer client reset, which a DESTROY runs as well (R364). -/

namespace Sys2Proof.Machine

/-- Every context of a client is overwritten with zeros and CLOSED (R121). -/
def closeCtxs (s : State) (c : Nat) : State :=
  s.each ((s.ctxs.filter fun e => e.1 / 131072 == c).map (·.1)) fun s k =>
    cacheDrop { s with ctxs := tblErase s.ctxs k } (.ctx k)

/-- A ring queue of a peer client becomes DISABLED: its jobs are abandoned and nothing is written (R70). Its
configuration stays, and one that is leaving is released. -/
def peerQueueReset (s : State) (c q : Nat) : State :=
  let s := dropReady (dropCopies s c q) c q
  let s := s.each (s.queue c q).window abandonJob
  if (s.queue c q).leaving then releaseQueue s c q false
  else if 32768 ≤ q then s.setQueue c q {}
  else if (s.queue c q).state == .disabled then s.modQueue c q Queue.owesNothing
  else s.modQueue c q fun u => { u.interruptAll.disable false with cmd := none, window := [] }

/-- Steps 1 to 4: packets, jobs, egress with a packet whose hand-off has begun, numbers and ring queues. -/
def peerDiscard (s : State) (p : Nat) : State :=
  let c := p + 4096
  let cut := (s.peer.open_.filter fun e =>
    match e.2 with | some k => (tblGet {} s.peer.packets k).client == p | none => false).map (·.1)
  let jobs := s.jobsWith fun j => j.client == c
  let s := s.each (s.queuesOf c) fun s q => peerQueueReset s c q
  let s := s.each jobs fun s j =>
    if !s.hasJob j then s else if (s.job j).live then abandonJob s j else s.dropJob j
  let s := orphanReads s false fun r => r.client == c
  refreshPending { s with peer := { s.peer with
    packets := tblDrop (fun _ k => k.client == p) s.peer.packets
    open_ := tblDrop (fun n _ => cut.contains n) s.peer.open_
    discard := s.peer.discard ++ cut
    order := s.peer.order.filter fun e => e.client != p
    notices := s.peer.notices.filter fun n => n.client != p
    seq := tblDrop (fun k _ => k / 8 == p) s.peer.seq } }

/-- Step 5: contexts and keys; the leaves not yet assigned went with their jobs. Keys held by R237 are left. -/
def peerEnd (s : State) (p : Nat) : State :=
  let c := p + 4096
  let s := if s.exists_ c && !s.held237 (spPos c) then moveSession s c else s
  closeCtxs s c

end Sys2Proof.Machine
end

