-- ==== Sys2Proof/Machine/Views.lean ====
section
/-! DEFINITION. The state words that registers and MCTP read: queues, tenants, combs and the sticky
record (R67, R71, R287, R288, R421, R424, R432). -/

namespace Sys2Proof.Machine

/-- Q_STATUS of a queue (R67, R71). -/
def Queue.status (u : Queue) : W32 :=
  BitVec.ofNat 32
    (qCode u.state + flagBit u.cmd.isSome 3 + u.cmdResult % 8 * 16 + u.stop.toNat * 256 + flagBit u.crPending 16
      + flagBit u.pushDrop 17 + flagBit u.dbIgnored 18 + u.gen.toNat * 2 ^ 21)

/-- TN_STATE of a client (R288). -/
def Tenant.word (t : Tenant) : W32 := BitVec.ofNat 32 (t.state + t.gen.toNat * 65536)

/-- The client and the number of the queue that a pool queue serves (R287). -/
def poolOwner (s : State) (n : Nat) : Option (Nat × Nat) :=
  s.tenants.findSome? fun e => (e.2.qmap.find? fun m => m.2 == some n).map fun m => (e.1, m.1)

/-- QS_STATUS of a pool queue (R432). -/
def poolStatus (s : State) (n : Nat) : W32 :=
  match poolOwner s n with
  | some (c, q) => (s.queue c q).status
  | none => 0

/-- What the key pool holds of slot `part` of the run at a position: its physical place, and the payload under the
scramble key's mask (R220, R221). NEXT of a NONCE_HW slot lies big-endian in bytes 56 to 63 (DESIGN CHOICE, log 72: R220
states no byte order). Without the key nothing can be decoded. -/
def storedPayload (s : State) (pos part : Nat) : Option (Nat × BitVec 512) :=
  s.ks.scramble.map fun key =>
    let k := s.slot pos
    let b := slice k.mat (64 * part) 64
    let b := if k.pol 13 then patch (fit b 64) 56 (natBe 8 k.next) else fit b 64
    let slot := ((runFrom s pos)[part]?).getD pos
    let place := (Config.scramblePlace key ⟨slot % 524288, Nat.mod_lt _ (by decide)⟩).val
    (place, BitVec.ofNat 512 (leNat b) ^^^ Config.scrambleMask key place)

/-- An entry of a comb's stream table: what a comb keeps of a stream whose context its cache holds (R22, R121). -/
structure StreamEntry where
  client : Nat
  ctx    : Nat
  opcode : Nat
  alg    : Nat
deriving DecidableEq, Repr

/-- The stream table of a comb: one entry for each context in its cache. -/
def streamTable (s : State) (comb : Nat) : List StreamEntry :=
  (s.comb comb).cache.filterMap fun e =>
    match e with
    | .ctx k =>
      let x := tblGet {} s.ctxs k
      some { client := k / 131072, ctx := k % 131072, opcode := x.opcode, alg := x.alg }
    | .saved _ => none

/-- ST_REC0 to ST_REC7 as bytes (R428). -/
def stickyBytes (s : State) : Bytes := bvLe 32 s.aon.sticky

/-- OCC of a priority (R355): the words of its packets that the store holds. -/
def occ (s : State) (n : Nat) : Nat :=
  s.peer.packets.foldl (fun a e => if e.2.prio = n then a + e.2.words.length else a) 0

/-- HWM and LWM of a priority, in KiB (R355). -/
def hwm (l : List W32) (n : Nat) : Nat := bits (l[n]?.getD 0).toNat 13 0
def lwm (l : List W32) (n : Nat) : Nat := bits (l[n]?.getD 0).toNat 29 16

/-- PF_XOFF as an FCLK edge sets it (R356). Before step 10 the isolation cells hold it (R438). -/
def xoffEdge (s : State) : State :=
  if !s.hv.ready then s
  else
    let bit := fun (n : Nat) =>
      if 16 * hwm s.peer.wm n ≤ occ s n then true
      else if occ s n ≤ 16 * lwm s.peer.wm n then false
      else s.peer.xoff.getLsbD n
    { s with peer.xoff := BitVec.ofNat 8 ((List.range 8).foldl (fun a n => a + (if bit n then 2 ^ n else 0)) 0) }

/-- An MCTP response of the data message type: the type, Claelmen's Vendor ID, and the payload of R428. -/
def mctpData (cmd : Nat) (inst : Byte) (code : Byte) (data : Bytes) : Bytes :=
  [0x7E] ++ bvBe 2 Config.vendorId ++ [BitVec.ofNat 8 (cmd + 0x80), inst, code, 0] ++ data

end Sys2Proof.Machine
end

