-- ==== Sys2Proof/Machine/Peer.lean ====
section
/-! DEFINITION. Peer ingress and egress (R347 to R364). -/

namespace Sys2Proof.Machine

/-! ## The store (R348 to R350) -/

/-- Words that the store holds. -/
def storeUsed (s : State) : Nat := s.peer.packets.foldl (fun a e => a + e.2.words.length) 0

/-- The parity of a word: bit `i` is even parity over bytes 8i to 8i + 7 (R347, R359). -/
def parityOf (data : Bytes) : BitVec 8 :=
  BitVec.ofNat 8 ((List.range 8).foldl (fun a i =>
    a + flagBit ((List.range 64).foldl (fun x b => xor x ((leAt data (8 * i) 8).testBit b)) false) i) 0)

def parityOk (data : Bytes) (par : BitVec 8) : Bool := parityOf data == par

/-- A mark; among several the first that R352 names stays. -/
def worseMark (a b : PktMark) : PktMark :=
  let rank : PktMark → Nat
    | .none => 4 | .framing => 3 | .oversize => 2 | .overrun => 1 | .noTenant => 0
  if rank b < rank a then b else a

def modPacket (s : State) (k : Nat) (f : Packet → Packet) : State :=
  { s with peer.packets := tblSet {} s.peer.packets k (f (tblGet {} s.peer.packets k)) }

/-- A packet becomes readable (R352). -/
def closePacket (s : State) (n k : Nat) (mark : PktMark) : State :=
  let r := s.peer.nextReady
  let s := modPacket s k fun p => { p with mark := worseMark p.mark mark, ready := some r }
  { s with peer.nextReady := r + 1, peer.open_ := tblErase s.peer.open_ n }

def countFraming (s : State) : State := { s with peer.framing := satAdd 0xFFFFFFFF s.peer.framing 1 }

/-- A word finds the store full. -/
def countOverrun (s : State) : State :=
  sticky { s with peer.overrun := satAdd 0xFFFFFFFF s.peer.overrun 1 } 91 0

/-- A stored word's bytes count to the packet; `n` is the valid bytes of an EOP word. -/
def storeWord (s : State) (k : Nat) (w : PeerWord) (bad : Bool) : State :=
  let n := if w.eop && w.nbytes != 0 then w.nbytes else 64
  modPacket s k fun p => { p with words := p.words ++ [(w.data, bad)], nbytes := p.nbytes + n }

/-- The first word of a packet. -/
def startPacket (s : State) (w : PeerWord) (bad : Bool) : State :=
  let n := w.prio
  let p := w.client
  let s := match tblGet none s.peer.open_ n with
    | some k => closePacket s n k .framing
    | none => s
  let s := { s with peer.discard := s.peer.discard.filter (· != n) }
  if s.peer.resetBusy = some p then
    let s := countFraming s
    if w.eop then s else { s with peer.discard := s.peer.discard ++ [n] }
  else if 131072 ≤ storeUsed s then countOverrun s
  else
    let k := s.peer.nextPkt
    let q := tblGet 0 s.peer.seq (p * 8 + n)
    let h := s.sync.h
    let absent := (s.tenant (p + 4096)).state == 0
    let s := modPacket { s with
        peer.nextPkt := k + 1
        peer.seq := tblSet 0 s.peer.seq (p * 8 + n) (q + 1)
        peer.open_ := tblSet none s.peer.open_ n (some k) } k fun _ =>
      { client := p, prio := n, seq := q, tArrive := h, mark := if absent then .noTenant else .none }
    let s := storeWord s k w bad
    if w.eop then closePacket s n k .none else s

/-- A further word of the packet that is open on its priority. -/
def nextWord (s : State) (w : PeerWord) (bad : Bool) : State :=
  let n := w.prio
  if s.peer.discard.contains n then
    if w.eop then { s with peer.discard := s.peer.discard.filter (· != n) } else s
  else match tblGet none s.peer.open_ n with
    | none => countFraming s
    | some k =>
      let s :=
        if 16384 ≤ (tblGet {} s.peer.packets k).words.length then
          modPacket s k fun p => { p with mark := worseMark p.mark .oversize }
        else if 131072 ≤ storeUsed s then
          modPacket (countOverrun s) k fun p => { p with mark := worseMark p.mark .overrun }
        else storeWord s k w bad
      if w.eop then closePacket s n k .none else s

/-- The pipeline writes a word. -/
def opPeerWordWrite (w : PeerWord) (s : State) : State :=
  if !s.hv.ready || !s.hv.fclk || s.coreOff
      || !(w.data.length = 64 && w.prio < 8 && w.client < 64 && w.nbytes < 64) then s
  else
    let p := !parityOk w.data w.par
    let s := if p then { s with peer.parity := satAdd 0xFFFFFFFF s.peer.parity 1 } else s
    let s := if w.poison then { s with peer.poison := satAdd 0xFFFFFFFF s.peer.poison 1 } else s
    xoffEdge (if w.sop then startPacket s w (p || w.poison) else nextWord s w (p || w.poison))

/-- A word written while the core domains are off is lost, whatever the clocks do (R439). -/
def execPeerWordWrite (w : PeerWord) (s : State) : Host.Outcome State Fault Refusal :=
  .next (if s.coreOff then s else whenClocked (.peerWordWrite w) s fun s => opPeerWordWrite w (wake s 2))

/-! ## The reader (R351 to R353) -/

/-- Read packets of a peer queue that wait for dispatch. -/
def waitingReads (s : State) (p n : Nat) : Nat :=
  (peerOrder s (p + 4096) n).foldl (fun a e => if e.job != 0 && (s.job e.job).stage == .ready then a + 1 else a) 0

/-- The readable packets in the order of R352: priority, then the order of readiness. -/
def readerBefore (a b : Packet) : Bool :=
  b.prio < a.prio || (a.prio == b.prio && decide (a.ready.getD 0 < b.ready.getD 0))

/-- The packet the reader takes next. -/
def readerChoice (s : State) : Option Nat :=
  let l := s.peer.packets.filter fun e =>
    e.2.ready.isSome && !e.2.read && waitingReads s e.2.client e.2.prio < 4
  (l.foldl (fun (a : Option (Nat × Packet)) e =>
    match a with
    | none => some e
    | some b => if readerBefore e.2 b.2 then some e else some b) none).map (·.1)

/-- Fields of R351 that a peer descriptor keeps at 0. -/
def peerFieldsBad (d : Bytes) : Bool :=
  dSrc d != 0 || dDst d != 0 || dSrcN d != 0 || dDstN d != 0 || dResult d != 0 || dInline d || dIrq d

/-- The check of a packet's descriptor: the cause of a rejection, or the opcode and the descriptor. -/
def checkPacket (s : State) (p : Packet) : BitVec 8 ⊕ (Op × Bytes) :=
  match p.mark with
  | .noTenant => .inl 0x90
  | .overrun => .inl 0x91
  | .oversize => .inl 0x92
  | .framing => .inl 0x93
  | .none =>
    let h := (p.words[0]?.map (·.1)).getD []
    if (p.words[0]?.map (·.2)).getD true then .inl qerrFetch
    else if headerSum h != 0 then .inl qerrHeader
    else if dSlots h = 0 || 8 < dSlots h || p.words.length < dSlots h || p.nbytes < 64 * dSlots h then
      .inl qerrSlots
    else if (p.words.take (dSlots h)).any (·.2) then .inl qerrFetch
    else
      let d := (p.words.take (dSlots h)).flatMap (·.1)
      match structural s (p.client + 4096) d with
      | .inl code => .inl (if code = qerrRange && peerFieldsBad d then qerrReserved else code)
      | .inr o => if peerFieldsBad d then .inl qerrReserved else .inr (o, d)

/-- The REJECT packet of R360. A poisoned slot 0 has not passed HCHK. -/
def rejectBytes (p : Packet) (cause : BitVec 8) : Bytes :=
  let h := (p.words[0]?.map (·.1)).getD []
  let bad := (p.words[0]?.map (·.2)).getD true
  let cookie := if !bad && h.length = 64 && headerSum h == 0 then slice h 48 8 else zeros 8
  [cause] ++ zeros 3 ++ natLe 4 p.nbytes ++ bvLe 4 p.seq ++ zeros 4 ++ natLe 10 p.tArrive ++ zeros 6 ++ cookie
    ++ zeros 24

/-- A packet is rejected: it forms no leaf, its words are freed, and it takes a place in its queue's order.
It waits while the egress buffer or the reorder window has no room for it. -/
def rejectPacket (s : State) (k : Nat) (p : Packet) (cause : BitVec 8) : State :=
  if 2097152 < egressUsed s + 64 || 256 ≤ (queueWindow s (p.client + 4096) (peerQueueBase + p.prio)).length then s
  else
    let e : Egress :=
      { client := p.client, prio := p.prio, seq := p.seq, pkt := k, kind := 1,
        bytes := rejectBytes p cause, room := 64, ready := true }
    { s with peer := { s.peer with
        packets := tblErase s.peer.packets k, order := s.peer.order ++ [e]
        reject := satAdd 0xFFFFFFFF s.peer.reject 1 } }

/-- A packet passes the checks and becomes a job (R353). A keyed packet in TAMPERED state ends TAMPER_ABORT
(R408). -/
def acceptPacket (s : State) (k : Nat) (p : Packet) (o : Op) (d : Bytes) : State :=
  let n := dSlots d
  let s := modPacket s k fun p => { p with read := true, words := p.words.drop n, nbytes := p.nbytes - 64 * n }
  let x := newJob s (p.client + 4096) (.peer p.prio p.seq k) false true o d p.tArrive
  let e : Egress := { client := p.client, prio := p.prio, seq := p.seq, pkt := k, job := x.1 }
  let s := { x.2 with peer.order := x.2.peer.order ++ [e] }
  if s.aon.tampered && keyedJob s (s.job x.1) then
    s.modJob x.1 fun j =>
      { j with
        status := stTamper, detail := 0, acct := .none, noComb := true
        tDone := s.sync.h, unsync := s.sync.state != 2 }
  else s

/-- Uncorrectable errors poison words of a packet (R350). -/
def poisonWords (s : State) (k : Nat) (ecc : List Nat) : State :=
  let n := (tblGet {} s.peer.packets k).words.length
  let hit := ecc.filter fun i => decide (i < n)
  let s := modPacket s k fun p => { p with words := p.words.mapIdx fun i w => (w.1, w.2 || hit.contains i) }
  if hit.isEmpty then s else sticky s 72 0

/-- The reader takes a packet. `ecc` numbers the words in which an uncorrectable error lies, and `corrected` counts
the errors that ECC corrects (R38). -/
def opPacketRead (ecc : List Nat) (corrected : Nat) (s : State) : State :=
  match (if s.hv.fclk then readerChoice s else none) with
  | none => s
  | some k =>
    let s := poisonWords (eccCount s corrected) k ecc
    let p := tblGet {} s.peer.packets k
    xoffEdge (match checkPacket s p with
      | .inl cause => rejectPacket s k p cause
      | .inr x => acceptPacket s k p x.1 x.2)

def execPacketRead (ecc : List Nat) (corrected : Nat) (s : State) : Host.Outcome State Fault Refusal :=
  .next (opPacketRead ecc corrected s)

/-! ## Egress (R359 to R361, R363) -/

/-- The word of a notice, with the values of this moment (R363). -/
def noticeBytes (s : State) (n : Notice) : Bytes :=
  let c := n.client + 4096
  let t := s.tenant c
  let u := s.queue c n.queue
  fit (match n.ty with
    | 1 => [1, 0, 0, 0] ++ natLe 4 n.queue ++ bvLe 4 u.head ++ [BitVec.ofNat 8 (qCode u.state), u.stop]
    | 2 => [2, 0, 0, 0] ++ zeros 4 ++ bvLe 4 t.rlog.tail
    | _ => [3, 0, 0, 0] ++ zeros 4 ++ bvLe 2 t.gen ++ zeros 2 ++ [BitVec.ofNat 8 t.state]) 64

/-- Two entries are one packet: SEQ alone may come again after CREATE (R291, R359). -/
def Egress.same (e f : Egress) : Bool :=
  f.client == e.client && f.prio == e.prio && f.seq == e.seq && f.pkt == e.pkt

/-- The first entry of each peer queue, where its packet is ready. -/
def readyHeads (s : State) : List Egress :=
  s.peer.order.filter fun e =>
    e.ready && ((peerOrder s (e.client + 4096) e.prio).head?.map e.same).getD false

/-- The packet that is handed off next: highest priority, then the next client (R359). -/
def egressChoice (s : State) : Option Egress :=
  let l := readyHeads s
  let top := l.foldl (fun m e => max m e.prio) 0
  let l := l.filter fun e => e.prio == top
  let dist := fun (e : Egress) => (e.client + 64 - s.peer.lastClient) % 64
  l.foldl (fun (a : Option Egress) e =>
    match a with
    | none => some e
    | some b => if dist e < dist b then some e else some b) none

/-- One word of a packet of `order` is handed off; its room frees. -/
def handOff (s : State) (e : Egress) : State :=
  let last := decide (e.bytes.length ≤ 64)
  let w := fit e.bytes 64
  let s := s.emit [.egress e.kind e.client e.prio e.seq.toNat (!e.started) last 0 w (parityOf w)]
  let s := { s with
    peer.order :=
      if last then s.peer.order.filter fun f => !e.same f
      else s.peer.order.map fun f =>
        if e.same f then { f with started := true, bytes := f.bytes.drop 64, room := f.bytes.length - 64 } else f
    peer.lastClient := if e.started then s.peer.lastClient else (e.client + 1) % 64 }
  if last && e.job != 0 then s.dropJob e.job else s

/-- An egress word waits on PE_READY. -/
def setStall (s : State) (w : Bool) : State :=
  let was := s.peer.stall
  let s := { s with peer.stall := w }
  if w && !was then raiseHive s 11 0 else s

/-- An edge of the egress interface with PE_READY as given. -/
def opPeerEgressHandoff (ready : Bool) (s : State) : State :=
  if !s.hv.fclk then s
  else match s.peer.order.find? (·.started) with
    | some e => if ready then handOff (setStall s false) e else setStall s true
    | none =>
      match s.peer.notices with
      | n :: rest =>
        if !ready then setStall s true
        else
          let s := setStall s false
          let w := noticeBytes s n
          { s with peer.notices := rest }.emit [.egress 2 n.client 7 0 true true 0 w (parityOf w)]
      | [] =>
        match egressChoice s with
        | none => setStall s false
        | some e => if ready then handOff (setStall s false) e else setStall s true

def execPeerEgressHandoff (ready : Bool) (s : State) : Host.Outcome State Fault Refusal :=
  .next (opPeerEgressHandoff ready s)

/-! ## Reset and watermarks (R357, R364) -/

/-- A write of PI_PEER_RESET. -/
def opPiPeerReset (p : Nat) (s : State) : State :=
  if !s.hv.ready || s.peer.resetBusy.isSome || 64 ≤ p then s
  else xoffEdge (peerDiscard { s with peer.resetBusy := some p } p)

def execPiPeerReset (p : Nat) (s : State) : Host.Outcome State Fault Refusal :=
  .next (whenClocked (.piPeerReset p) s fun s => opPiPeerReset p (wake s 1))

/-- Every step has ended: step 5 is taken, which waits under R237, and RESET_BUSY clears. -/
def opPeerResetDone (s : State) : State :=
  match s.peer.resetBusy with
  | none => s
  | some p =>
    if s.held237 (spPos (p + 4096)) then s
    else
      let s := peerEnd s p
      raiseHive { s with peer.resetBusy := none } 10 0

def execPeerResetDone (s : State) : Host.Outcome State Fault Refusal :=
  .next (onClock (s.hv.fclk && s.hv.kclk) s opPeerResetDone)

/-- The watermark group may be applied (R357). -/
def wmOk (l : List W32) : Bool :=
  ((List.range 8).all fun n => hwm l n != 0 && lwm l n < hwm l n)
    && (List.range 8).foldl (fun a n => a + hwm l n + 16) 0 ≤ 8192

/-- A write of PI_COMMIT. -/
def opPiCommit (s : State) : State :=
  if !s.hv.ready then s
  else if wmOk s.peer.wmSh then xoffEdge { s with peer.wm := s.peer.wmSh, peer.refused := false }
  else { s with peer.refused := true }

def execPiCommit (s : State) : Host.Outcome State Fault Refusal :=
  .next (whenClocked .piCommit s fun s => opPiCommit (wake s 1))

end Sys2Proof.Machine
end

