-- ==== Sys2Proof/Machine/Tenants.lean ====
section
/-! DEFINITION. Tenant administration: pools, CREATE, RESIZE, DESTROY, and the DMA window registers
(R283 to R303). -/

namespace Sys2Proof.Machine

/-! ## Pools (R286) -/

/-- The first free number at or after `start` in a pool of `limit`, going round. -/
def freeMod (used : List Nat) (limit : Nat) : Nat → Nat → Nat
  | 0, start => start % limit
  | fuel + 1, start =>
    if used.contains (start % limit) then freeMod used limit fuel (start + 1) else start % limit

/-- Pool queues that belong to clients. -/
def usedQueues (s : State) : List Nat := s.tenants.flatMap fun e => e.2.qmap.filterMap (·.2)
/-- Key granules that belong to clients. -/
def usedGranules (s : State) : List Nat := s.tenants.flatMap fun e => e.2.granules
def freeQueues (s : State) : Nat := 262144 - (usedQueues s).length
def freeKeyGran (s : State) : Nat := 7997 - (usedGranules s).length
def freeCtxGran (s : State) : Nat := 1472 - s.tenants.foldl (fun a e => a + e.2.ctxGran) 0
def freeVectors (s : State) : Nat := 32768 - s.tenants.foldl (fun a e => a + e.2.vectors) 0

/-- The queue takes a pool queue that the keeper chooses (R287). -/
def takeQueue (s : State) (c q : Nat) : State :=
  let used := usedQueues s
  let n := freeMod used 262144 used.length (Config.poolQueueChoice s.freeN)
  { s.modTenant c fun t => { t with qmap := tblPut t.qmap q (some n) } with freeN := s.freeN + 1 }

/-- A further key granule. -/
def takeGranule (s : State) (c : Nat) : State :=
  let used := usedGranules s
  let n := freeMod used 7997 used.length (Config.granuleChoice s.freeN)
  { s.modTenant c fun t => { t with granules := t.granules ++ [n] } with freeN := s.freeN + 1 }

/-- The number of a released queue is used again: a head mirror and a record that the queue still owes stay owed beside
its new use (R60, R61, R65; log 85). -/
def keepOwed (s : State) (c q : Nat) : State :=
  let u := s.queue c q
  if u.hmDue || u.crDue || u.crPending then s.setQueue c (((s.gonesOf c q).getLast?.getD q) + 32768) u else s

/-- Queues `a` to `b − 1` join the client, DISABLED. -/
def addQueues (s : State) (c a b : Nat) : State :=
  s.each ((List.range (b - a)).map (a + ·)) fun s q => takeQueue ((keepOwed s c q).setQueue c q {}) c q

def addGranules (s : State) (c n : Nat) : State := s.each (List.range n) fun s _ => takeGranule s c

/-! ## The checks of R290 -/

/-- The requested counts lie in their ranges (R286). -/
def countsOk (a : AdmCfg) : Bool :=
  a.queues ≤ 16384 && a.keyGran ≤ 7997 && a.ctxGran ≤ 1472
    && a.vectors ≤ (if isFn a.client then 2048 else 0)

/-- Every increase fits its pool. -/
def poolsOk (s : State) (a : AdmCfg) : Bool :=
  let t := s.tenant a.client
  a.queues - t.queues ≤ freeQueues s && a.keyGran - t.granules.length ≤ freeKeyGran s
    && a.ctxGran - t.ctxGran ≤ freeCtxGran s && a.vectors - t.vectors ≤ freeVectors s

/-- The pool positions of a list of granules. -/
def granuleSlots (l : List Nat) : List Nat :=
  l.flatMap fun g => (List.range 64).map fun i => 12480 + 64 * g + i

/-- A removed resource is in use (R295). -/
def inUse (s : State) (a : AdmCfg) : Bool :=
  let c := a.client
  let t := s.tenant c
  ((granuleSlots (t.granules.drop a.keyGran)).any fun p => (s.slot p).state != .empty)
    || (s.ctxs.any fun e => e.1 / 131072 == c && 64 * a.ctxGran ≤ e.1 % 131072 && e.2.state != .closed)
    || (s.func c).msix.any fun e => a.vectors ≤ e.1 && e.1 < t.vectors && !e.2.masked

/-- The RESULT of the first five checks of R290, 0 where the command passes them. -/
def admIssue (s : State) (a : AdmCfg) : Nat :=
  let t := s.tenant a.client
  if a.op = 0 || 4160 ≤ a.client then 4
  else if a.gen != t.gen then 5
  else if !(match a.op with
      | 1 => t.state == 0 && a.client != 0
      | 2 => t.state == 1
      | _ => (t.state == 1 || t.state == 2) && a.client != 0) then 3
  else if a.op = 3 then 0
  else if !countsOk a then 4
  else if !poolsOk s a then 1
  else 0

/-- A RESIZE that lowers a count whose resources may be in use: its removed ranges are fenced while they are checked
(R296). -/
def fences (s : State) (a : AdmCfg) : Bool :=
  let t := s.tenant a.client
  a.op = 2 && (a.keyGran < t.granules.length || a.ctxGran < t.ctxGran || a.vectors < t.vectors)

/-! ## CREATE (R291) -/

/-- Steps 1 to 5 of CREATE; the initial weight is in force at once. In TAMPERED state no node is derived and no
record restored (R409); while the lane is closed both wait until it opens (R247, R464). -/
def createTenant (s : State) (a : AdmCfg) : State :=
  let c := a.client
  let s := s.modTenant c fun t =>
    { t with
      state := 1, queues := a.queues, ctxGran := a.ctxGran, vectors := a.vectors, weight := a.weight
      win := { active := t.win.active } }
  let s := { s with sch.weight := tblSet 0 s.sch.weight c (weightOf s c) }
  let s := if isFn c then s else { s with peer.seq := tblDrop (fun k _ => k / 8 + 4096 == c) s.peer.seq }
  let s := addGranules (addQueues s c 0 a.queues) c a.keyGran
  let s := if s.aon.tampered then s
    else if laneShut s then { s with ks.restoreDue := s.ks.restoreDue.filter (· != c) ++ [c] }
    else restoreRecs (deriveNodes s c) c
  stepTenant s c 1

/-! ## RESIZE (R292 to R297) -/

/-- An excess queue is handled by its state (R293). -/
def excessQueue (s : State) (c : Nat) (force : Bool) (q : Nat) : State :=
  let u := s.queue c q
  let mir := s.busMaster c && u.cfg.hmirror != 0
  match u.state with
  | .disabled => releaseQueue s c q mir
  | .frozen => hiveReset s c q
  | .stopped =>
    if force then hiveReset s c q
    else if u.stop = qerrBme then releaseQueue s c q mir
    else (dropCopies s c q).modQueue c q fun u =>
      { ({ u.interruptAll with drainEnd := u.stopPt, stopPt := none }).enter .draining with leaving := true }
  | _ =>
    if force then hiveReset s c q
    else (dropMirror s c q).modQueue c q fun u =>
      { ({ u.interruptAll.unstage true with drainEnd := some u.pi }).enter .draining with leaving := true }

/-- RESIZE as one step of GEN; one that changes neither a count nor STATE is no step (R288, R292). -/
def resizeTenant (s : State) (a : AdmCfg) : State :=
  let c := a.client
  let t := s.tenant c
  let s := s.modTenant c fun t =>
    { t with
      queues := a.queues, granules := t.granules.take a.keyGran, ctxGran := a.ctxGran, vectors := a.vectors }
  let s := s.modFunc c fun f =>
    { f with
      msix := f.msix.filter fun e => e.1 < a.vectors
      due := f.due.filter fun v => v < a.vectors
      imod := f.imod.filter fun e => e.1 < a.vectors
      pba := f.pba &&& ((1#2048 <<< a.vectors) - 1) }
  let s := addGranules (addQueues s c t.queues a.queues) c (a.keyGran - t.granules.length)
  let s := s.each ((List.range (t.queues - a.queues)).map (a.queues + ·)) fun s q =>
    excessQueue s c a.force q
  if t.queues = a.queues && t.granules.length = a.keyGran && t.ctxGran = a.ctxGran
      && t.vectors = a.vectors then s
  else stepTenant s c (if leavingCount s c = 0 then 1 else 2)

/-! ## DESTROY (R299) -/

/-- The mailboxes of a function are cleared and FEPOCH increments (R306, R312). -/
def clearMail (s : State) (c : Nat) : State :=
  s.modTenant c fun t => { t with mb := { fepoch := t.mb.fepoch + 1 } }

/-- The client's queues have been released, with the mirrors and the records that are due written, and its jobs have
ended. A record that a full ring keeps pending goes with the ring (log 31). -/
def quiet (s : State) (c : Nat) : Bool :=
  (s.tenant c).qmap.isEmpty && (s.queuesOf c).all (fun q => !(s.queue c q).hmDue && !(s.queue c q).crDue)
    && (s.jobsWith fun j => j.client == c && j.live).isEmpty

/-- Steps 3 to 5: the slots are orphaned, TENANT_EPOCH moves, contexts, windows, mailboxes and the log
group are cleared. They wait until the jobs that step 2 leaves have ended. -/
def orphanTenant (s : State) (c : Nat) : State :=
  let s := bumpGen s (trPos c)
  let e := (s.tenant c).epoch + 1
  let s := writeRec s (0x10000 + c) (bvLe 4 e)
  let s := s.modTenant c fun t => { t with epoch := e, win := {}, orphaned := true }
  let s := clearMail (closeCtxs s c) c
  let s := { s with rings := tblDrop (fun k _ => k / 512 == c) s.rings }
  dropReceipts s c

/-- The job is a FENCE that waits for a job which has not ended (R129). -/
def fenceWaits (s : State) (k : Nat) : Bool :=
  (s.job k).stage == .run && dOp (s.job k).desc == some .fence && (s.job k).waits.any fun w => !s.ended w

/-- The jobs of the client that wait for a leaf behind its held log entry, and FENCEs that wait for others, where no
other job of it is left: they can only go with step 5. -/
def blockedLeaves (s : State) (c : Nat) : List Nat :=
  let l := s.jobsWith fun j => j.client == c && j.live
  let stuck := l.filter fun k => (s.job k).stage == .leaf && !(s.job k).isLeaf
  if (s.tenant c).rlog.held.isEmpty || !(l.all fun k => (s.job k).stage == .leaf || fenceWaits s k) then []
  else l.filter fun k => stuck.contains k || (fenceWaits s k && (s.job k).waits.any stuck.contains)

/-- They are discarded with their records, as by an FLR (R277). -/
def dropBlocked (s : State) (c : Nat) : State :=
  let l := blockedLeaves s c
  let s := s.each l abandonJob
  refreshPending (s.each (s.queuesOf c) fun s q =>
    s.modQueue c q fun u => { u with window := u.window.filter fun k => !l.contains k })

def orphanIfQuiet (s0 : State) (c : Nat) : State :=
  let s := if (s0.tenant c).state = 3 && !(s0.tenant c).orphaned then dropBlocked s0 c else s0
  if (s.tenant c).state = 3 && !(s.tenant c).orphaned && quiet s c then orphanTenant s c else s

/-- Steps 1 and 2, and what follows at once. -/
def destroyTenant (s : State) (a : AdmCfg) : State :=
  let c := a.client
  let s := stepTenant s c 3
  let s := if isFn c then s else peerEnd (peerDiscard s (c - 4096)) (c - 4096)
  let s := s.each (tblKeys (s.tenant c).qmap) fun s q =>
    let u := s.queue c q
    if u.state == .disabled then releaseQueue s c q (s.busMaster c && u.cfg.hmirror != 0)
    else hiveReset s c q
  orphanIfQuiet s c

/-- The queues are gone and the slots of the allocation are reclaimed: every resource returns, and STATE
becomes ABSENT. The context granules and the vectors return here, with the key granules, and not at steps 4 and 5
(R297, R299; DESIGN CHOICE, log 31). -/
def opDestroyComplete (c : Nat) (s : State) : State :=
  let s := orphanIfQuiet s c
  let t := s.tenant c
  if t.state = 3 && t.orphaned
      && (granuleSlots t.granules).all (fun p => (s.slot p).state == .empty) then
    let s := stepTenant (s.modTenant c fun t =>
      { gen := t.gen, epoch := t.epoch, weight := t.weight, vecDrop := t.vecDrop, winDrop := t.winDrop
        wgT := t.wgT, mb := t.mb, leaves := t.leaves }) c 0
    { s.modFunc c fun f => { f with msix := [], due := [], imod := [], pba := 0 } with
      queues := tblDrop (fun k _ => k / qSpan == c) s.queues
      sch.deficit := tblDrop (fun k _ => k / 20 == c) s.sch.deficit
      sch.credit := tblDrop (fun k _ => k / 20 == c) s.sch.credit }
  else s

def execDestroyComplete (client : Nat) (s : State) : Host.Outcome State Fault Refusal :=
  .next (onClock (s.hv.fclk && s.hv.kclk) s (opDestroyComplete client))

/-! ## The administration group (R289) -/

/-- The command ends with a result. -/
def admEnd (s : State) (a : AdmCfg) (r : Nat) : State :=
  raiseHive { s with adm.running := none, adm.result := r } 0 (BitVec.ofNat 32 (a.client + r * 65536))

/-- The keeper has checked the fenced ranges: the RESIZE is refused, or applied, and the fences go (R295, R296). -/
def fenceCheck (s : State) : State :=
  match s.adm.fenced with
  | none => s
  | some a =>
    if !s.keeperOk then s
    else
      let bad := inUse s a
      let s := { s with adm.fenced := none }
      if bad then admEnd s a 2 else admEnd (resizeTenant s a) a 0

/-- The keeper takes the command that is offered, and ends it; a RESIZE that needs fences ends with their check. -/
def admTake (s : State) : State :=
  match s.adm.running with
  | none => s
  | some a =>
    if !s.keeperOk || s.adm.fenced.isSome then s
    else
      let r := admIssue s a
      if r != 0 then admEnd s a r
      else if fences s a then { s with adm.fenced := some a }
      else
        let s := match a.op with
          | 1 => createTenant s a
          | 2 => resizeTenant s a
          | _ => destroyTenant s a
        admEnd s a 0

/-- A commit of the group: discarded while BUSY. -/
def admCommit (s : State) : State :=
  if !s.hv.ready || s.adm.running.isSome then s
  else admTake { s with adm.running := some s.adm.shadow, adm.offeredAt := s.hv.tick }

def opTnAdmCreate (s : State) : State := if s.adm.shadow.op = 1 then admCommit s else s

def execTnAdmCreate (s : State) : Host.Outcome State Fault Refusal :=
  .next (whenClocked .tnAdmCreate s fun s => opTnAdmCreate (wake s 1))

def opTnAdmResize (s : State) : State := if s.adm.shadow.op = 2 then admCommit s else s

def execTnAdmResize (s : State) : Host.Outcome State Fault Refusal :=
  .next (whenClocked .tnAdmResize s fun s => opTnAdmResize (wake s 1))

def opTnAdmDestroy (s : State) : State := if s.adm.shadow.op = 3 then admCommit s else s

def execTnAdmDestroy (s : State) : Host.Outcome State Fault Refusal :=
  .next (whenClocked .tnAdmDestroy s fun s => opTnAdmDestroy (wake s 1))

/-- A commit that R290 refuses: OP 0 and every other failed check. -/
def opTnAdmOp0 (s : State) : State := if admIssue s s.adm.shadow != 0 then admCommit s else s

def execTnAdmOp0 (s : State) : Host.Outcome State Fault Refusal :=
  .next (whenClocked .tnAdmOp0 s fun s => opTnAdmOp0 (wake s 1))

/-- The keeper has not taken the command within 10 ms. -/
def opAdmKeeperTimeout (s : State) : State :=
  match s.adm.running with
  | some a => if s.hv.fclk && s.adm.fenced.isNone && s.adm.offeredAt + 12000000 ≤ s.hv.tick then admEnd s a 6 else s
  | none => s

def execAdmKeeperTimeout (s : State) : Host.Outcome State Fault Refusal := .next (opAdmKeeperTimeout s)

/-! ## DMA windows (R303, R316) -/

def dmawClient (s : State) : Nat := bits s.adm.dmawSel.toNat 12 0
def dmawBank (s : State) : Bool := s.adm.dmawSel.getLsbD 13
def dmawIndex (s : State) : Nat := bits s.adm.dmawSel.toNat 19 16

def modWin (s : State) (c : Nat) (f : Windows → Windows) : State :=
  s.modTenant c fun t => { t with win := f t.win }

/-- An entry with one register written; reserved bits stay 0. -/
def Dmaw.put (w : Dmaw) (reg : DmawReg) (v : W64) : Dmaw :=
  match reg with
  | .base => { w with base := v &&& ~~~0xFFF#64 }
  | .limit => { w with limit := v &&& ~~~0xFFF#64 }
  | .xlate => { w with xlate := v &&& ~~~0xFFF#64 }
  | .ctrl => { w with ctrl := v.setWidth 32 &&& 0x0FFFFF77#32 }

/-- A write to a register of the selected entry. -/
def opTnDmawEntryWrite (reg : DmawReg) (v : W64) (s : State) : State :=
  let c := dmawClient s
  let w := (s.tenant c).win
  if !s.hv.ready || !isClient c || !s.exists_ c then s
  else if w.flip != .none || dmawBank s == w.active then modWin s c fun w => { w with refused := true }
  else
    let i := dmawIndex s
    modWin s c fun w =>
      if dmawBank s then { w with b := tblSet {} w.b i ((tblGet {} w.b i).put reg v) }
      else { w with a := tblSet {} w.a i ((tblGet {} w.a i).put reg v) }

def execTnDmawEntryWrite (reg : DmawReg) (v : W64) (s : State) : Host.Outcome State Fault Refusal :=
  .next (whenClocked (.tnDmawEntryWrite reg v) s fun s => opTnDmawEntryWrite reg v (wake s 1))

/-- A write of TN_DMAW_FLIP. -/
def opTnDmawFlip (c : Nat) (s : State) : State :=
  if !s.hv.ready || !isClient c || !s.exists_ c then s
  else modWin s c fun w => if w.flip != .none then { w with refused := true } else { w with flip := .asked }

def execTnDmawFlip (client : Nat) (s : State) : Host.Outcome State Fault Refusal :=
  .next (whenClocked (.tnDmawFlip client) s fun s => opTnDmawFlip client (wake s 1))

/-- Requests of a client translated under a bank are in flight; those that wait are judged anew (R302). -/
def bankBusy (s : State) (c : Nat) (bank : Bool) : Bool :=
  s.reqs.any fun e => !e.2.isXlate && e.2.client == c && e.2.bank == bank

/-- The flip takes effect; with nothing in flight FLIP_BUSY clears on that edge. -/
def opDmawFlipEffect (c : Nat) (s : State) : State :=
  let w := (s.tenant c).win
  if w.flip != .asked then s
  else modWin s c fun w => { w with active := !w.active, flip := if bankBusy s c w.active then .draining else .none }

def execDmawFlipEffect (client : Nat) (s : State) : Host.Outcome State Fault Refusal :=
  .next (onClock s.hv.fclk s (opDmawFlipEffect client))

/-- Every request translated under the old bank has finished. -/
def opDmawFlipDrained (c : Nat) (s : State) : State :=
  let w := (s.tenant c).win
  if w.flip == .draining && !bankBusy s c (!w.active) then modWin s c fun w => { w with flip := .none } else s

def execDmawFlipDrained (client : Nat) (s : State) : Host.Outcome State Fault Refusal :=
  .next (onClock s.hv.fclk s (opDmawFlipDrained client))

end Sys2Proof.Machine
end

