-- ==== Sys2Proof/Machine/Mailbox.lean ====
section
/-! DEFINITION. The mailboxes of functions and the keeper's part in them (R307 to R313). -/

namespace Sys2Proof.Machine

/-- The mailbox registers of a function answer (R285, R337). -/
def mailOpen (s : State) (c : Nat) : Bool := isFn c && s.exists_ c && fnReachable s c

def modMail (s : State) (c : Nat) (f : Mbox → Mbox) : State := s.modTenant c fun t => { t with mb := f t.mb }

/-- TYPE, and the fields that a request keeps at zero. -/
def mailType (w : W32) : Nat := bits w.toNat 7 0
def mailMalformed (w : W32) : Bool := bits w.toNat 15 8 != 0

/-- Replies that wait inside the keeper (R311). -/
def Mbox.replies (m : Mbox) : Nat := (m.held.filter fun h => h.word.getLsbD 8).length

/-- A write of MB_H2K_ADDR or MB_H2K_LEN, discarded while a request waits (R308). -/
def writeH2k (s : State) (c : Nat) (f : Mbox → Mbox) : State :=
  modMail s c fun m => if m.h2kFull then { m with h2kErr := true } else f m

/-- A write of MB_H2K_MSG (R308). -/
def opMbH2kMsgWrite (c : Nat) (v : W32) (s : State) : State :=
  if !mailOpen s c then s
  else modMail s c fun m =>
    if m.h2kFull || mailType v = 0 then { m with h2kErr := true } else { m with h2kMsg := v, h2kFull := true }

def execMbH2kMsgWrite (client : Nat) (v : W32) (s : State) : Host.Outcome State Fault Refusal :=
  .next (whenAwake (.mbH2kMsgWrite client v) s fun s => opMbH2kMsgWrite client v (fnActive s client))

/-- The reply to a request: its TYPE and SEQ, REPLY and a RESULT (R307, R310). -/
def replyWord (w : W32) (result : Nat) : W32 :=
  BitVec.ofNat 32 (mailType w + 256 + result * 4096 + w.toNat / 65536 * 65536)

def reply (s : State) (c : Nat) (w : W32) (result : Nat) (body : Bytes) : State :=
  mailFor s c { word := replyWord w result, body := body }

/-- The request that the keeper holds is replied to at once. -/
def refuseMail (s : State) (c : Nat) (w : W32) (result : Nat) : State :=
  reply (modMail s c fun m => { m with read := none }) c w result []

/-- The keeper reads the body of the request it holds; while bus master enable or a translation holds the read back,
the request waits (R308, R336). -/
def readBody (s : State) (c : Nat) (read : ReadEnd) (body : Bytes) : State :=
  match (s.tenant c).mb.read with
  | none => s
  | some r =>
    if r.body.isSome then s
    else if mailMalformed r.word then refuseMail s c r.word 1
    else if 4096 < r.len then refuseMail s c r.word 3
    else
      let got := fun s => modMail s c fun m => { m with read := some { r with body := some (fit body r.len) } }
      if r.len = 0 then got s
      else match keeperRead s c r.addr.toNat r.len read with
        | (.waits, s) => s
        | (.issued, s) => if read = .ok then got s else refuseMail s c r.word 3
        | (_, s) => refuseMail s c r.word 3

/-- The keeper reads a request's message word, which clears H2K_FULL, whatever else holds, and then its body; the
seventeenth request is discarded unread (R308, R311, R312). -/
def opH2kKeeperRead (c : Nat) (read : ReadEnd) (body : Bytes) (s : State) : State :=
  let m := (s.tenant c).mb
  let full := decide (16 ≤ m.replies)
  if !isFn c || !s.keeperOk then s
  else if !m.h2kFull || (m.read.isSome && !full) then readBody s c read body
  else
    let w := m.h2kMsg
    let s := modMail s c fun m => { m with h2kFull := false }
    let s := if m.h2kIe then signalVec s c m.vec else s
    if full then modMail s c fun m => { m with drop := true, dropSeq := BitVec.ofNat 16 (w.toNat / 65536) }
    else
      let r : MailRead := { word := w, addr := m.h2kAddr, len := m.h2kLen, epoch := m.fepoch }
      readBody (modMail s c fun m => { m with read := some r }) c read body

def execH2kKeeperRead (client : Nat) (read : ReadEnd) (body : Bytes) (s : State) :
    Host.Outcome State Fault Refusal :=
  .next (opH2kKeeperRead client read body s)

/-- The request that the keeper holds is answered; its reply is dropped when FEPOCH has moved. -/
def answer (s : State) (c : Nat) (isType : Nat → Bool) (result : Nat) (echo : Bool) : State :=
  match (s.tenant c).mb.read with
  | none => s
  | some r =>
    if !s.keeperOk || r.body.isNone || !isType (mailType r.word) then s
    else
      let s := modMail s c fun m => { m with read := none }
      if r.epoch = (s.tenant c).mb.fepoch then reply s c r.word result (if echo then r.body.getD [] else []) else s

/-- ECHO (R310). -/
def opEcho (c : Nat) (s : State) : State := answer s c (· == 1) 0 true

def execEcho (client : Nat) (s : State) : Host.Outcome State Fault Refusal := .next (opEcho client s)

/-- A type that the shipped firmware does not handle (R310). The types 0x10 and 0x11, which the table has only as
notices of the keeper, are among them: DESIGN CHOICE, log 78. -/
def opUnknownType (c : Nat) (s : State) : State := answer s c (· != 1) 2 false

def execUnknownType (client : Nat) (s : State) : Host.Outcome State Fault Refusal := .next (opUnknownType client s)

/-- The keeper posts its oldest message (R309, R310, R302). -/
def opK2hPost (c : Nat) (s : State) : State :=
  let m := (s.tenant c).mb
  match m.held with
  | [] => s
  | h :: rest =>
    if !isFn c || !s.keeperOk || m.k2hFull || m.poolN = 0 || !s.busMaster c then s
    else
      let a := m.pool + BitVec.ofNat 64 (m.count % m.poolN * 4096)
      let w : Wrote × State := if h.body.isEmpty then (.issued, s) else bodyWrite s c a.toNat h.body
      match w.1 with
      | .waits => w.2
      | _ =>
        let s := modMail w.2 c fun m =>
          { m with held := rest, k2hAddr := a, k2hLen := h.body.length, k2hMsg := h.word, k2hFull := true,
                   count := m.count + 1 }
        if m.k2hIe then signalVec s c m.vec else s

def execK2hPost (client : Nat) (s : State) : Host.Outcome State Fault Refusal := .next (opK2hPost client s)

/-- A read of MB_K2H_MSG. -/
def opMbK2hMsgRead (c : Nat) (s : State) : State :=
  if !mailOpen s c then { s with resp := 0 }
  else
    let w := (s.tenant c).mb.k2hMsg
    { modMail s c fun m => { m with k2hMsg := 0, k2hFull := false } with resp := w.setWidth 64 }

def execMbK2hMsgRead (client : Nat) (s : State) : Host.Outcome State Fault Refusal :=
  .next (whenAwake (.mbK2hMsgRead client) s (opMbK2hMsgRead client))

/-- A write of MB_POOL_BASE or MB_CTRL registers the pool and restarts its counter. -/
def opMbPoolRegister (c : Nat) (reg : PoolReg) (s : State) : State :=
  if !mailOpen s c then s
  else modMail s c fun m =>
    match reg with
    | .base v => { m with pool := v &&& ~~~0xFFF#64, count := 0 }
    | .ctrl v =>
      let n := min 16 (bits v.toNat 4 0)
      { m with
        poolN := n, vec := bits v.toNat 15 5, k2hIe := v.getLsbD 16, h2kIe := v.getLsbD 17, count := 0
        held := if n = 0 then [] else m.held }

def execMbPoolRegister (client : Nat) (reg : PoolReg) (s : State) : Host.Outcome State Fault Refusal :=
  .next (whenAwake (.mbPoolRegister client reg) s fun s => opMbPoolRegister client reg (fnActive s client))

/-- The keeper has restarted: what it held is lost, and KEEPER_RESTARTED is its first message (R310,
R313). -/
def restartMail (s : State) (c : Nat) : State :=
  let s := modMail s c fun m => { m with held := [], read := none }
  mailFor s c { word := 0x211 }

end Sys2Proof.Machine
end

