-- ==== Sys2Proof/Machine/Sleep.lean ====
section
/-! DEFINITION. The request for retention sleep and its refusals (R445, R447). -/

namespace Sys2Proof.Machine

/-! ## The reasons for a refusal (R445) -/

/-- The queue holds an owned slot, from HEAD to PI (R45), whose job has not ended. -/
def ownedWork (s : State) (u : Queue) : Bool :=
  u.state != .disabled
    && decide (((u.window.filter s.ended).map fun j => dSlots (s.job j).desc).sum < ringDist u.pi u.head)

/-- The peer store or the egress buffer holds a word. -/
def peerWork (s : State) : Bool :=
  (s.peer.packets.any fun e => !e.2.words.isEmpty) || (s.peer.order.any fun e => !e.bytes.isEmpty)
    || !s.peer.notices.isEmpty

/-- Reason 1. -/
def sleepWork (s : State) : Bool :=
  (s.queues.any fun e => ownedWork s e.2) || !(s.jobsWith Job.live).isEmpty || peerWork s

/-- A mailbox holds a message, or the keeper a reply. -/
def mailWaits (t : Tenant) : Bool :=
  t.mb.h2kFull || t.mb.k2hFull || !t.mb.held.isEmpty || t.mb.read.isSome

/-- Reason 2. -/
def sleepMgmt (s : State) : Bool :=
  s.adm.running.isSome || s.ks.provRun.isSome || s.store.updBusy || s.lc.busy.isSome
    || s.lc.dbgState == 1 || s.lc.dbgState == 2 || s.lc.subst.isSome
    || (s.fns.any fun e => e.2.flr != 0) || s.peer.resetBusy.isSome || s.tenants.any fun e => mailWaits e.2

/-- The reason for which a request is refused, 0 none. -/
def sleepReason (s : State) : Nat :=
  if sleepWork s then 1
  else if sleepMgmt s then 2
  else if s.lc.debugOpen then 3
  else if !s.hv.rootLock then 4
  else 0

/-! ## Entry -/

/-- ENTER is judged. A wake cause of the same FCLK cycle came first, and the Hive that enters wakes at once (R447). -/
def judgeEnter (s : State) : State :=
  let r := sleepReason s
  if r = 0 then { s with hv.pwr := 1, hv.wakeNext := causeNow s, hv.enterAt := some s.hv.tick }
  else { s with hv.refuse := r }

/-- The FCLK cycle ends in which a wake cause followed an ENTER: the cause has been applied, and ENTER is judged behind
it (R447). -/
def enterAgain (s : State) : State := if s.hv.pwr = 0 && s.hv.enterAt == some s.hv.tick then judgeEnter s else s

end Sys2Proof.Machine
end

