-- ==== Sys2Proof/Machine/Time.lean ====
section
/-! DEFINITION. What one FCLK tick changes when no command waits (log entry 3): the FCLK count, the AON cycle count, the
arming of the voltage monitor (R441), the OTP words of a transition (R397), the Hive time (R28, R34, R253), an edge of
PPS_IN (R255), an ENTER that a wake cause of its cycle followed (R447), the close of an epoch (R270), the assignment of
leaves (R262), a missed checkpoint (R27), the check of fenced ranges (R296), the time in HOLDOVER (R267), link idleness
(R341), PF_XOFF (R356) and the answers of MCTP that wait for an acknowledgement (R428). -/

namespace Sys2Proof.Machine

/-- The advance of the Hive time in one FCLK tick, as a numerator over 3 × 10¹²: the nominal step of
54,613⅓ units of 2⁻¹⁶ ns times (1 + ADJ), or 1/16 of it while frozen (R34, R253, R254). -/
def tickAdvance (y : Sync) : Nat :=
  if y.frozen then 10240 * 10 ^ 12 else (163840 * (10 ^ 12 + y.adj)).toNat

/-- The Hive time after one FCLK tick, with a forward step that is due. A freeze takes the difference between the
nominal and the actual advance off the offset still to be worked off. -/
def syncTick (y : Sync) : Sync :=
  let a := y.acc + tickAdvance y
  { y with
    h := y.h + y.stepDue + a / (3 * 10 ^ 12), stepDue := 0, acc := a % (3 * 10 ^ 12)
    freezeLeft := if y.frozen then y.freezeLeft - 153600 * 10 ^ 12 else y.freezeLeft }

/-- The link is not idle: a read or a posted request for it is outstanding or queued, or a queue of a
function holds an owned slot whose job has not ended (R341). -/
def linkBusy (s : State) : Bool :=
  !(hostReqs s).isEmpty || s.dma.waiting.any (fun r => r.target == 0)
    || s.fns.any (fun e => !e.2.due.isEmpty)
    || s.queues.any fun e =>
      isFn (e.1 / qSpan) && (e.2.hmDue || e.2.crDue || (e.2.state != .disabled && e.2.pi != e.2.head))

/-- Link idleness as a tick samples it. -/
def linkTick (s : State) : State := sendLtr (if linkBusy s then linkActive s else s)

/-- The keeper answers the MCTP QUEUE_CMD requests whose commands have been acknowledged (R428): the
completion code, and QS_STATUS. -/
def answerQueueCmds (s : State) : State :=
  let busy := fun (w : Byte × Nat) => (poolStatus s w.2).getLsbD 3
  let l := s.doe.waits.filter fun w => !busy w
  if l.isEmpty || !s.keeperOk then s
  else
    { s with doe.waits := s.doe.waits.filter busy }.emit (l.map fun (w : Byte × Nat) =>
      let st := poolStatus s w.2
      let r := bits st.toNat 6 4
      Out.mctp (mctpData 3 w.1 (if r = 2 then 1 else if r = 3 then 2 else 0) (bvLe 4 st)))

/-- The AON domain counts REFCLK: one cycle in twelve FCLK. -/
def countTick (s : State) : State :=
  let n := s.hv.tick + 1
  { s with hv.tick := n, aon.cycles := if n % 12 = 0 then s.aon.cycles + 1 else s.aon.cycles }

/-- An FCLK edge: the link, the peers' flow control, the keeper's answers, and the loop of the Hive time (R34). -/
def fclkTick (s : State) : State :=
  let s := xoffEdge (answerQueueCmds (linkTick s))
  { s with
    sync := if s.hv.step < 9 then s.sync else syncTick s.sync
    wg.holdTicks := if s.sync.state = 3 then s.wg.holdTicks + 1 else s.wg.holdTicks }

/-- The leaves that are due are assigned, the lowest queue first (R262); `fuel` bounds the assignments. -/
def assignDue (s : State) : Nat → State
  | 0 => s
  | fuel + 1 =>
    match (s.jobsWith fun j => j.stage == .leaf).find? fun id => mayAssign s id && leafTurn s id with
    | some id => assignDue (opLeafAssign id s) fuel
    | none => s

/-- What an FCLK edge does before time moves: an ENTER that a wake cause of its cycle followed is judged (R447), an edge
of PPS_IN is (R255), an epoch whose boundary the last tick reached closes (R270), due leaves are assigned (R262), a
missed checkpoint passes (R27), and the keeper judges fenced ranges (R296). -/
def edgeWork (s : State) : State :=
  let s := opEpochClose [] 0 (judgeEdge (enterAgain s))
  fenceCheck (ckptMissed (assignDue s s.jobs.length))

/-- One FCLK tick with no command waiting. Where FCLK does not run, only the counts of the AON domain move. -/
def idleTick (s : State) : State :=
  let s := otpTick (armTick (countTick (edgeWork s)))
  onClock s.hv.fclk s fclkTick

end Sys2Proof.Machine
end

