-- ==== Sys2Proof/Machine/Functions.lean ====
section
/-! DEFINITION. Functions: bus master enable, function level reset, power states, VF Enable, MSI-X and its
moderation, the bank of the window translation table, and link idleness (R284, R306, R328, R335 to R342,
R418). -/

namespace Sys2Proof.Machine

/-! ## MSI-X (R339, R418) -/

/-- The four conditions for sending a vector. -/
def mayInterrupt (s : State) (c v : Nat) : Bool :=
  let f := s.func c
  f.msixEn && !f.fmask && !(tblGet {} f.msix v).masked && s.busMaster c

/-- The message of a vector goes, or its PBA bit sets. -/
def sendVector (s : State) (c v : Nat) : State :=
  if mayInterrupt s c v then
    let m := tblGet {} (s.func c).msix v
    let gap := 120 * tblGet 0 s.ev.interval c
    let s := linkActive s
    let t := s.hv.tick
    let s := s.modFunc c fun f =>
      { f with
        pba := f.pba &&& ~~~(1#2048 <<< v)
        imod := tblSet {} f.imod v (if gap = 0 then {} else { next := t + gap }) }
    s.emit [.msi c m.addr m.data]
  else s.modFunc c fun f => { f with pba := f.pba ||| (1#2048 <<< v) }

/-- A signalled vector is sent, pends, or merges into the message of its moderation interval. -/
def opMsixMessageSend (c v : Nat) (s : State) : State :=
  let f := s.func c
  if !f.due.contains v then s
  else
    let s := s.modFunc c fun f => { f with due := f.due.filter (· != v) }
    let m := tblGet {} f.imod v
    if s.hv.tick < m.next then
      s.modFunc c fun f => { f with imod := tblSet {} f.imod v { m with merged := true } }
    else sendVector s c v

def execMsixMessageSend (client vec : Nat) (s : State) : Host.Outcome State Fault Refusal :=
  .next (onClock s.hv.fclk s (opMsixMessageSend client vec))

/-- A moderation interval ends: a merged message goes. -/
def opModerationIntervalEnd (c v : Nat) (s : State) : State :=
  let m := tblGet {} (s.func c).imod v
  if s.hv.tick < m.next then s
  else
    let s := s.modFunc c fun f => { f with imod := tblSet {} f.imod v {} }
    if m.merged then sendVector s c v else s

def execModerationIntervalEnd (client vec : Nat) (s : State) : Host.Outcome State Fault Refusal :=
  .next (onClock s.hv.fclk s (opModerationIntervalEnd client vec))

/-- The vectors whose PBA bit is set. -/
def pendingVectors (f : Func) (n : Nat) : List Nat := (List.range n).filter f.pba.getLsbD

/-- A pending message whose conditions hold now is sent, or merges into the message of its moderation interval. -/
def sendIfDue (s : State) (c v : Nat) : State :=
  if !mayInterrupt s c v then s
  else if s.hv.tick < (tblGet {} (s.func c).imod v).next then
    s.modFunc c fun f => { f with imod := tblSet {} f.imod v { (tblGet {} f.imod v) with merged := true } }
  else sendVector s c v

/-- Pending messages whose conditions hold now are sent. -/
def sendPending (s : State) (c : Nat) : State :=
  s.each (pendingVectors (s.func c) (s.tenant c).vectors) fun s v => sendIfDue s c v

/-- A word of a table entry is written; bits other than the Mask of the last word do not exist. -/
def Msix.put (m : Msix) (word : Nat) (v : W32) : Msix :=
  match word with
  | 0 => { m with addr := BitVec.ofNat 64 (m.addr.toNat / 2 ^ 32 * 2 ^ 32 + v.toNat / 4 * 4) }
  | 1 => { m with addr := BitVec.ofNat 64 (v.toNat * 2 ^ 32 + m.addr.toNat % 2 ^ 32) }
  | 2 => { m with data := v }
  | 3 => { m with masked := v.getLsbD 0 }
  | _ => m

/-- The wake cause of such a write: the control bits are written by a configuration request (R446). -/
def maskCause : MaskWrite → Nat
  | .entry .. => 1
  | .control .. => 3

/-- A write to the MSI-X table or to the function's MSI-X control bits (R339, R287). -/
def opMsixMaskWrite (c : Nat) (w : MaskWrite) (s : State) : State :=
  if !isFn c || !s.hv.ready then s
  else match w with
    | .entry v word x =>
      if fnReachable s c && v < (s.tenant c).vectors && !s.fencedVec c v then
        sendPending (s.modFunc c fun f => { f with msix := tblSet {} f.msix v ((tblGet {} f.msix v).put word x) }) c
      else s
    | .control en mask =>
      if (s.func c).flr = 0 then
        sendPending (s.modFunc c fun f => { f with msixEn := en, fmask := mask }) c
      else s

def execMsixMaskWrite (client : Nat) (w : MaskWrite) (s : State) : Host.Outcome State Fault Refusal :=
  .next (whenClocked (.msixMaskWrite client w) s fun s => opMsixMaskWrite client w (wake s (maskCause w)))

/-! ## Bus master enable (R336) -/

/-- No request is issued any more: reads are orphaned, queues stop or leave, interrupts due pend. -/
def stopMastering (s : State) (c : Nat) : State :=
  let s := s.each (s.queuesOf c) fun s q => bmeQueue s c q
  let s := s.each (s.jobsWith fun j => j.client == c && j.live) abandonJob
  let s := orphanReads s true fun r => r.client == c
  s.modFunc c fun f =>
    { f with due := [], pba := f.due.foldl (fun (b : BitVec 2048) v => b ||| (1#2048 <<< v)) f.pba }

/-- The function exists on the link or the fabric; recovery mode presents PF0 (R370). -/
def fnPresent (s : State) (fn : Nat) : Bool :=
  isFn fn && s.presented && (fn == 0 || (s.hv.ready && (if s.rom then decide (fn ≤ s.hi.numVf) else s.cap.hasVf fn)))

def opBmeClear (fn : Nat) (s : State) : State :=
  if !fnPresent s fn || (s.func fn).flr != 0 || !(s.func fn).bme then s
  else
    let s := stopMastering (s.modFunc fn fun f => { f with bme := false }) fn
    -- receipt jobs of the function were abandoned; those behind them are judged again
    refreshPending s

def execBmeClear (fn : Nat) (s : State) : Host.Outcome State Fault Refusal :=
  .next (whenClocked (.bmeClear fn) s fun s => opBmeClear fn (wake s 6))

/-- Writes that bus master enable held back resume. -/
def resumeWrites (s : State) (c : Nat) : State :=
  let s := rlogResume (retryReads (sendPending s c)) c
  if c = 0 then mlogResume s else s

def opBmeSet (fn : Nat) (s : State) : State :=
  if !fnPresent s fn || (s.func fn).flr != 0 then s
  else resumeWrites (s.modFunc fn fun f => { f with bme := true }) fn

def execBmeSet (fn : Nat) (s : State) : Host.Outcome State Fault Refusal :=
  .next (whenClocked (.bmeSet fn) s fun s => opBmeSet fn (wake s 6))

/-! ## Function level reset (R306, R338) -/

/-- Steps 1 and 2, and the part of step 3 that does not wait. -/
def startFlr (s : State) (fn : Nat) : State :=
  let s := s.modFunc fn fun f => { f with flr := 1, due := [], d3hot := false }
  let s := s.each (s.queuesOf fn) fun s q => flrQueue s fn q
  let s := s.each (s.jobsWith fun j => j.client == fn && j.live) abandonJob
  let s := orphanReads s true fun r => r.client == fn
  refreshPending { s with
    halves := s.halves.filter fun e => e.1.1 != .fn fn
    latches := s.latches.filter fun e => e.1.1 != .fn fn
    dma.atc := s.dma.atc.filter fun e => e.fn != fn
    dma.asked := s.dma.asked.filter fun e => e.1 != fn }

def opFlr (fn : Nat) (s : State) : State :=
  if fnPresent s fn && (s.func fn).flr = 0 then startFlr s fn else s

def execFlr (fn : Nat) (s : State) : Host.Outcome State Fault Refusal :=
  .next (whenClocked (.flr fn) s fun s => opFlr fn (wake s 6))

/-- Step 4: keys, contexts, mailboxes, receipts, configuration groups. -/
def flrTenant (s : State) (fn : Nat) : State :=
  let s := if s.exists_ fn then moveSession s fn else s
  let s := dropReceipts (clearMail (closeCtxs s fn) fn) fn
  let s := { s with rings := tblDrop (fun k _ => k / 512 == fn) s.rings }
  s.modTenant fn fun t =>
    { t with
      qcfgSel := 0, qcfgSh := {}, qcfgReason := 0, crSel := 0, crShBase := 0, crShCtrl := 0, crRefused := false }

/-- Every read of the function has completed or timed out; step 4 waits under R237. -/
def opFlrReadsDrained (fn : Nat) (s : State) : State :=
  if (s.func fn).flr != 1 || (s.reqs.any fun e => e.2.client == fn) || s.held237 (spPos fn) then s
  else flrTenant (s.modFunc fn fun f => { f with flr := 2 }) fn

def execFlrReadsDrained (fn : Nat) (s : State) : Host.Outcome State Fault Refusal :=
  .next (onClock (s.hv.fclk && s.hv.kclk) s (opFlrReadsDrained fn))

/-- Step 5: the configuration registers are at their reset values, DOE among them. The SR-IOV fields are kept, since an
FLR of PF0 does not reset the VFs. -/
def flrCap (s : State) : State :=
  { s with
    cap := { vfEnable := s.cap.vfEnable, numVfs := s.cap.numVfs, vbar0 := s.cap.vbar0, vbar2 := s.cap.vbar2 }
    doe := { s.doe with busy := false, error := false, held := none } }

/-- Step 5 of an FLR. -/
def opFlrDone (fn : Nat) (s : State) : State :=
  if (s.func fn).flr != 2 then s
  else
    let s := s.modFunc fn fun _ => {}
    let s := if fn = 0 then flrCap s else s
    raiseHive s 12 0

def execFlrDone (fn : Nat) (s : State) : Host.Outcome State Fault Refusal :=
  .next (onClock s.hv.fclk s (opFlrDone fn))

/-! ## Power states and VF Enable (R284, R337) -/

/-- PF0 enters D3hot; a VF has no power management capability (R321). -/
def opD3hotEntry (fn : Nat) (s : State) : State :=
  if !fnPresent s fn || fn != 0 || (s.func fn).flr != 0 || (s.func fn).d3hot then s
  else refreshPending (stopMastering (s.modFunc fn fun f => { f with d3hot := true }) fn)

def execD3hotEntry (fn : Nat) (s : State) : Host.Outcome State Fault Refusal :=
  .next (whenClocked (.d3hotEntry fn) s fun s => opD3hotEntry fn (wake s 3))

def opD3hotToD0 (fn : Nat) (s : State) : State :=
  if fnPresent s fn && (s.func fn).d3hot then startFlr s fn else s

def execD3hotToD0 (fn : Nat) (s : State) : Host.Outcome State Fault Refusal :=
  .next (whenClocked (.d3hotToD0 fn) s fun s => opD3hotToD0 fn (wake s 3))

/-- The virtual functions. -/
def allVfs : List Nat := (List.range 4095).map (· + 1)

/-- VF Enable is cleared: an FLR of every virtual function, tenants kept. During an FLR of PF0 the request is completed
with Request Retry Status (R338). -/
def opVfEnableClear (s : State) : State :=
  if !fnPresent s 0 || (s.func 0).flr != 0 || !s.cap.vfEnable || s.rom then s
  else
    let s := s.each allVfs fun s c => if (s.func c).flr = 0 then startFlr s c else s
    { s with cap.vfEnable := false }

def execVfEnableClear (s : State) : Host.Outcome State Fault Refusal :=
  .next (whenClocked .vfEnableClear s fun s => opVfEnableClear (wake s 3))

/-! ## The bank of the window translation table (R328) -/

def opHiWttFlip (s : State) : State :=
  if !s.hv.ready then s
  else if s.hi.wttFlip != .none then { s with hi.wttRefused := true }
  else { s with hi.wttFlip := .asked }

def execHiWttFlip (s : State) : Host.Outcome State Fault Refusal :=
  .next (whenClocked .hiWttFlip s fun s => opHiWttFlip (wake s 1))

/-- A register read waits for a wake (R463). -/
def heldReads (s : State) : Bool :=
  s.hv.heldCmds.any fun i => match i with
    | .rcRegisterRead _ _ _ | .splitReadLatch _ _ | .mbK2hMsgRead _ => true
    | _ => false

/-- The flip takes effect; reads that wait for a wake were decoded under the old bank. -/
def opWttFlipEffect (s : State) : State :=
  if s.hi.wttFlip != .asked then s
  else { s with
    hi.wttActive := !s.hi.wttActive, hi.wttFlip := if heldReads s then .draining else .none
    hi.wttOld := if heldReads s then s.hv.heldCmds.length else 0 }

def execWttFlipEffect (s : State) : Host.Outcome State Fault Refusal := .next (onClock s.hv.fclk s opWttFlipEffect)

def opWttFlipDrained (s : State) : State :=
  if s.hi.wttFlip == .draining && !heldReads s then { s with hi.wttFlip := .none } else s

def execWttFlipDrained (s : State) : Host.Outcome State Fault Refusal := .next (onClock s.hv.fclk s opWttFlipDrained)

/-! ## Link idleness (R341) -/

/-- IDLE_US microseconds of idleness have passed. -/
def opLinkIdleSignal (s : State) : State :=
  if !s.hv.ready || s.hi.idle || linkBusy s || s.hv.tick < s.hi.busyAt + 1200 * s.hi.idleUs then s
  else sendLtr { s with hi.idle := true, hi.ltrDue := true }

def execLinkIdleSignal (s : State) : Host.Outcome State Fault Refusal := .next (onClock s.hv.fclk s opLinkIdleSignal)

end Sys2Proof.Machine
end

