-- ==== Sys2Proof/Machine/Spdm.lean ====
section
/-! DEFINITION. PF0's DOE mailbox and the SPDM responder (R343, R344, R409). What the spec fixes of a
response stands in its bytes; the fields that DSP0274 and the PCI Express DOE leave to this spec and
that it does not give are free bytes at the end. The message codes and the places of the fixed fields
are those of DSP0274 1.3 (log entry 10). -/

namespace Sys2Proof.Machine

/-! ## Objects -/

/-- A data object: Vendor ID 0x0001, its type, its length in words of 4 bytes, its content. -/
def doeObject (ty : Nat) (b : Bytes) : Bytes :=
  natLe 2 1 ++ [BitVec.ofNat 8 ty, 0] ++ natLe 4 (2 + ceilDiv b.length 4) ++ fit b (4 * ceilDiv b.length 4)

/-- The next free response bytes. -/
def spdmFree (s : State) : Bytes := Config.spdmBody s.freeN

/-- The response of a request is returned; the mailbox is free again. -/
def doeAnswer (s : State) (ty : Nat) (b : Bytes) : State :=
  { s with doe.busy := false, doe.held := none, freeN := s.freeN + 1 }.emit [.doe (doeObject ty b)]

/-- The keeper works on the request object that it holds, if it can; `k` is the answer. -/
def doeServe (s : State) (k : State → State) : State := if s.keeperOk then k s else s

/-- The DOE registers answer: in ROM mode they lie in the fabric, otherwise in PF0's configuration space, which does not
answer in an FLR (R338, R344). -/
def doeOpen (s : State) : Bool := fnPresent s 0 && (s.rom || (s.func 0).flr == 0)

/-- A request object is written to the mailbox (R343, R344). A mailbox that is busy or in error takes
none. -/
def doeTake (i : Instr) (s : State) (k : State → State) : State :=
  if !doeOpen s || s.doe.busy || s.doe.error then s
  else doeServe { s with doe.busy := true, doe.held := some i } k

/-- A request object arrives. -/
def doeRequest (i : Instr) (s : State) (k : State → State) : State :=
  whenClocked i s fun s => doeTake i (wake s 3) k

/-- A DOE Discovery response: the protocol at an index, and the next index. -/
def answerDiscovery (index : Nat) (s : State) : State :=
  let b : Bytes :=
    if index = 0 then natLe 2 1 ++ [0, 1]
    else if index = 1 then natLe 2 1 ++ [1, 0]
    else Config.doeBody s.freeN
  doeAnswer s 0 b

/-! ## Responses -/

/-- An SPDM response. -/
def spdmReply (s : State) (ver code p1 p2 : Nat) (b : Bytes) : State :=
  doeAnswer s 1 ([ver, code, p1, p2].map (BitVec.ofNat 8) ++ b)

/-- ERROR with its code: 0x01 InvalidRequest, 0x04 UnexpectedRequest, 0x05 Unspecified,
0x07 UnsupportedRequest. -/
def spdmError (s : State) (code data : Nat) : State := spdmReply s 0x13 0x7F code data []

/-- The negotiated hash. -/
def spdmHash (s : State) (b : Bytes) : Bytes := if s.doe.hash = 48 then sha384 b else sha256 b

/-- The request comes after GET_VERSION, GET_CAPABILITIES and NEGOTIATE_ALGORITHMS. -/
def negotiated (s : State) : Bool := s.doe.ver && s.doe.caps && s.doe.hash != 0

/-- The certificate chain of slot 0. -/
def certChain (s : State) : Bytes := if s.ks.testRoot then Config.testCertChain else Config.certChain

/-- A signature of DeviceID; the transcript is one that DSP0274 defines (free). -/
def spdmSign (s : State) : Option Bytes :=
  s.ks.devSeed.map fun dev => edSign 0x11 false dev (Config.spdmTranscript s.freeN)

/-! ## Measurements -/

/-- The waggle alias statement and its DeviceID signature (R268). -/
def aliasMeasure (s : State) : Bytes :=
  match s.wg.aliasKey, s.ks.devSeed with
  | some seed, some dev =>
    let st := aliasStatement s.wg.sigAlg s.wg.root s.wg.devId (edPublic (wgAlg s) seed)
    st ++ edSign 0x11 false dev (ascii "QHV1 WG_ALIAS" ++ [0] ++ st)
  | _, _ => []

/-- The active image in flash. -/
def activeBank (s : State) : Bytes := if s.store.active = 1 then s.store.flashB else s.store.flashA

/-- The bytes of the image in a bank: BODY_LEN + 7,219 of them (R373). -/
def bankImage (b : Bytes) : Bytes := b.take (leAt b 24 4 + 7219)

/-- The value of measurement 1 to 5. -/
def measurement (s : State) (i : Nat) : Bytes :=
  match i with
  | 1 => (bvBe 64 (Config.bootRomHash s.doe.hash)).take s.doe.hash
  | 2 => spdmHash s s.hv.fw
  | 3 => spdmHash s (bankImage (activeBank s))
  | 4 => Config.measureLifeCycle s.lcCode s.lc.debugOpen
  | _ => aliasMeasure s

/-- A measurement block. -/
def measureBlock (s : State) (i : Nat) : Bytes :=
  let v := measurement s i
  [BitVec.ofNat 8 i, 1] ++ natLe 2 (3 + v.length) ++ [Config.measureType i] ++ natLe 2 v.length ++ v

/-! ## Requests -/

def answerVersion (s : State) : State :=
  let s := { s with doe.ver := true, doe.caps := false, doe.hash := 0 }
  spdmReply s 0x10 0x04 0 0 [0, 1, 0x00, 0x13]

/-- CERT_CAP, CHAL_CAP, MEAS_CAP with signature; CTExponent 12. -/
def answerCapabilities (s : State) : State :=
  if !s.doe.ver then spdmError s 0x04 0
  else spdmReply { s with doe.caps := true, doe.hash := 0 } 0x13 0x61 0 0 ([0, 12, 0, 0] ++ natLe 4 0x16 ++ spdmFree s)

/-- The hash a requester chose, in bytes; 0 where it offered none that is supported. -/
def chosenHash (sha256 sha384 ed25519 : Bool) : Nat :=
  if !ed25519 then 0
  else if sha256 && sha384 then (if Config.spdmTakesSha384 then 48 else 32)
  else if sha384 then 48
  else if sha256 then 32
  else 0

/-- EdDSA Ed25519 and the chosen hash, also for measurements. -/
def answerAlgorithms (sha256 sha384 ed25519 : Bool) (s : State) : State :=
  if !s.doe.ver || !s.doe.caps then spdmError s 0x04 0
  else
    let h := chosenHash sha256 sha384 ed25519
    let sel := if h = 48 then 2 else if h = 32 then 1 else 0
    spdmReply { s with doe.hash := h } 0x13 0x63 0 0
      (natLe 2 36 ++ [1, 0] ++ natLe 4 (2 * sel) ++ natLe 4 (if ed25519 then 0x400 else 0) ++ natLe 4 sel ++ spdmFree s)

def answerDigests (s : State) : State :=
  if !negotiated s then spdmError s 0x04 0 else spdmReply s 0x13 0x01 1 1 (spdmHash s (certChain s))

/-- A portion of the chain of slot 0, as large as a response of 4,096 bytes holds. -/
def answerCertificate (slot off len : Nat) (s : State) : State :=
  if !negotiated s then spdmError s 0x04 0
  else
    let b := certChain s
    if slot != 0 || b.length ≤ off then spdmError s 0x01 0
    else
      let p := (b.drop off).take (min len 4080)
      spdmReply s 0x13 0x02 0 0 (natLe 2 p.length ++ natLe 2 (b.length - off - p.length) ++ p)

/-- CHALLENGE is signed with DeviceID. In TAMPERED state, and without a DeviceID, it is answered
Unspecified. -/
def answerChallenge (c : SpdmChallenge) (s : State) : State :=
  if !negotiated s then spdmError s 0x04 0
  else if s.aon.tampered then spdmError s 0x05 0
  else if c.slot != 0 then spdmError s 0x01 0
  else match spdmSign s with
    | none => spdmError s 0x05 0
    | some sig => spdmReply s 0x13 0x03 0 1 (spdmHash s (certChain s) ++ spdmFree s ++ sig)

/-- Measurements: all of them (index 0xFF), one, or their number (index 0). -/
def answerMeasurements (index : Nat) (signed : Bool) (s : State) : State :=
  if !negotiated s then spdmError s 0x04 0
  else if signed && s.aon.tampered then spdmError s 0x05 0
  else if 5 < index && index != 255 then spdmError s 0x01 0
  else
    let l := if index = 0 then [] else if index = 255 then [1, 2, 3, 4, 5] else [index]
    let b := l.flatMap (measureBlock s)
    let body := [BitVec.ofNat 8 l.length] ++ natLe 3 b.length ++ b ++ spdmFree s
    let n := if index = 0 then 5 else 0
    if signed then
      match spdmSign s with
      | none => spdmError s 0x05 0
      | some sig => spdmReply s 0x13 0x60 n 0 (body ++ sig)
    else spdmReply s 0x13 0x60 n 0 body

def answerUnsupported (code : BitVec 8) (s : State) : State := spdmError s 0x07 code.toNat

/-! ## The commands -/

def execDoeDiscovery (index : Nat) (s : State) : Host.Outcome State Fault Refusal :=
  .next (doeRequest (.doeDiscovery index) s (answerDiscovery index))

def execGetVersion (s : State) : Host.Outcome State Fault Refusal := .next (doeRequest .getVersion s answerVersion)

def execGetCapabilities (s : State) : Host.Outcome State Fault Refusal :=
  .next (doeRequest .getCapabilities s answerCapabilities)

def execNegotiateAlgorithms (sha256 sha384 ed25519 : Bool) (s : State) : Host.Outcome State Fault Refusal :=
  .next (doeRequest (.negotiateAlgorithms sha256 sha384 ed25519) s (answerAlgorithms sha256 sha384 ed25519))

def execGetDigests (s : State) : Host.Outcome State Fault Refusal := .next (doeRequest .getDigests s answerDigests)

def execGetCertificate (slot off len : Nat) (s : State) : Host.Outcome State Fault Refusal :=
  .next (doeRequest (.getCertificate slot off len) s (answerCertificate slot off len))

def execChallenge (c : SpdmChallenge) (s : State) : Host.Outcome State Fault Refusal :=
  .next (doeRequest (.challenge c) s (answerChallenge c))

def execGetMeasurements (index : Nat) (signed : Bool) (nonce : Bytes) (s : State) :
    Host.Outcome State Fault Refusal :=
  .next (doeRequest (.getMeasurements index signed nonce) s (answerMeasurements index signed))

def execSpdmUnsupportedRequest (code : BitVec 8) (s : State) : Host.Outcome State Fault Refusal :=
  .next (doeRequest (.spdmUnsupportedRequest code) s (answerUnsupported code))

/-- The keeper's work on a request object. -/
def doeWork (i : Instr) (s : State) : State :=
  match i with
  | .doeDiscovery n => answerDiscovery n s
  | .getVersion => answerVersion s
  | .getCapabilities => answerCapabilities s
  | .negotiateAlgorithms a b c => answerAlgorithms a b c s
  | .getDigests => answerDigests s
  | .getCertificate a b c => answerCertificate a b c s
  | .challenge c => answerChallenge c s
  | .getMeasurements n g _ => answerMeasurements n g s
  | .spdmUnsupportedRequest c => answerUnsupported c s
  | _ => s

/-- The keeper runs again and takes the request object that waits (R344). -/
def doeResume (s : State) : State :=
  match s.doe.held with
  | none => s
  | some i => doeServe s (doeWork i)

/-- DOE Abort (R344). -/
def opDoeAbort (s : State) : State :=
  if doeOpen s then { s with doe.busy := false, doe.error := false, doe.held := none } else s

def execDoeAbort (s : State) : Host.Outcome State Fault Refusal :=
  .next (whenClocked .doeAbort s fun s => opDoeAbort (wake s 3))

/-- A keeper restart loses the responder's state; it drops a request that was under way, with DOE Error
(R344, R371). -/
def restartDoe (s : State) : State :=
  { s with doe := { error := s.doe.error || s.doe.busy } }

end Sys2Proof.Machine
end

