-- ==== Sys2Proof/Machine/Image.lean ====
section
/-! DEFINITION. The kyorr image: its header, its acceptance, its configuration records and their
application (R372 to R378). -/

namespace Sys2Proof.Machine

/-! ## The header (R373) -/

def imgSigner (b : Bytes) : Nat := leAt b 5 1
def imgSeq (b : Bytes) : Nat := leAt b 8 4
def imgSvn (b : Bytes) : Nat := leAt b 12 1
/-- FLAGS.SVN_COMMIT. -/
def imgCommits (b : Bytes) : Bool := bit (leAt b 13 1) 0
def imgFwLen (b : Bytes) : Nat := leAt b 16 4
def imgCfgLen (b : Bytes) : Nat := leAt b 20 4
def imgBody (b : Bytes) : Nat := leAt b 24 4
def imgLen (b : Bytes) : Nat := imgBody b + 7219
def imgFw (b : Bytes) : Bytes := slice b 128 (imgFwLen b)
def imgCfg (b : Bytes) : Bytes := slice b (128 + imgFwLen b) (imgCfgLen b)
def imgKey (b : Bytes) : Bytes := slice b (imgBody b) 2592
def imgSig (b : Bytes) : Bytes := slice b (imgBody b + 2592) 4627

/-- MAGIC, VERSION, the reserved bytes and HDR_CRC are correct (R375). -/
def headerOk (b : Bytes) : Bool :=
  b.take 4 == [0x51, 0x48, 0x4B, 0x49] && leAt b 4 1 == 1 && allZero (slice b 6 2) && allZero (slice b 14 2)
    && allZero (slice b 32 92) && 128 ≤ b.length && leAt b 124 4 == (crc32c (b.take 124)).toNat

/-- The lengths follow R373. -/
def lengthsOk (b : Bytes) : Bool :=
  imgFwLen b % 64 == 0 && 64 ≤ imgFwLen b && imgFwLen b ≤ 3670016
    && imgCfgLen b % 4 == 0 && imgCfgLen b ≤ 65536
    && imgBody b == 128 + imgFwLen b + imgCfgLen b && imgLen b ≤ 8388608 && imgLen b ≤ b.length

def bodyCrcOk (b : Bytes) : Bool := leAt b 28 4 == (crc32c (slice b 128 (imgLen b - 128))).toNat

/-! ## Acceptance (R374) -/

/-- The life-cycle state accepts the signer. -/
def signerOk (code signer : Nat) : Bool :=
  if code < 0x0200 then signer == 0 || signer == 2
  else if code < 0x0300 then false
  else if code = 0x0400 then signer == 0 || signer == 1
  else if code = 0x0300 || code = 0x0500 then signer == 0
  else false

/-- The state accepts some image. -/
def acceptsImages (code : Nat) : Bool := (List.range 3).any (signerOk code)

/-- The signer's key has the hash that the part holds for it. -/
def signerKeyOk (o : Otp) (b : Bytes) : Bool :=
  match imgSigner b with
  | 0 => sha384 (imgKey b) == bvBe 48 Config.vendorKeyHash
  | 1 => o.ownerHash == some (sha384 (imgKey b))
  | _ => true

/-- The signature over header, firmware and configuration: ML-DSA-87, pure, empty context. -/
def signatureOk (b : Bytes) : Bool :=
  imgSigner b == 2
    || dsaOk 0x53 (imgKey b) (imgSig b) (dsaMu (shake256 (imgKey b) 64) (b.take (imgBody b)))

/-! ## Configuration records (R376) -/

/-- The records of a configuration section, none where they do not fill it exactly; `fuel` bounds them. -/
def imgRecordsF : Nat → Bytes → Option (List (Nat × Bytes))
  | _, [] => some []
  | 0, _ => none
  | fuel + 1, b =>
    let n := leAt b 2 2
    let m := 4 + 4 * ceilDiv n 4
    if b.length < m || !allZero (slice b (4 + n) (m - 4 - n)) then none
    else (imgRecordsF fuel (b.drop m)).map fun t => (leAt b 0 2, slice b 4 n) :: t

def imgRecords (b : Bytes) : Option (List (Nat × Bytes)) := imgRecordsF (imgCfg b).length (imgCfg b)

/-- The value of a record, or the default. -/
def recOr (l : List (Nat × Bytes)) (tag : Nat) (d : Bytes) : Bytes :=
  match l.find? fun r => r.1 == tag with
  | some r => r.2
  | none => d

/-- The values of a repeatable record. -/
def recAll (l : List (Nat × Bytes)) (tag : Nat) : List Bytes := (l.filter fun r => r.1 == tag).map (·.2)

/-- LEN of the records below 0x8000. -/
def tagLen (t : Nat) : Option Nat :=
  if t = 0x01 || t = 0x03 || t = 0x31 then some 8
  else if t = 0x02 || t = 0x50 || t = 0x60 || t = 0x61 then some 4
  else if t = 0x10 then some 24
  else if t = 0x11 then some 48
  else if t = 0x20 then some 12
  else if t = 0x21 || t = 0x40 then some 32
  else if t = 0x30 then some 16
  else none

/-- The sync group of a SYNC record. -/
def syncOfRec (v : Bytes) : SyncCfg :=
  { sync := BitVec.ofNat 32 (leAt v 0 4), hold := BitVec.ofNat 32 (leAt v 4 4), pps := BitVec.ofNat 32 (leAt v 8 4)
    loop := BitVec.ofNat 32 (leAt v 12 4) }

def wmOfRec (v : Bytes) : List W32 := (List.range 8).map fun n => BitVec.ofNat 32 (leAt v (4 * n) 4)

/-- A value lies in the ranges its registers state, its reserved fields are zero, and its group would be
committed (R377). -/
def valueOk (t : Nat) (v : Bytes) : Bool :=
  if t = 0x01 then decide (leAt v 0 4 < 16)
  else if t = 0x02 then leAt v 0 2 ≤ 4095 && leAt v 2 2 == 0
  else if t = 0x03 then
    1 ≤ leAt v 0 2 && leAt v 0 2 ≤ 1023 && leAt v 2 2 == 0
      && bits (leAt v 4 4) 15 13 == 0 && bits (leAt v 4 4) 31 29 == 0
  else if t = 0x10 then
    leAt v 0 1 ≤ 63 && leAt v 1 3 == 0 && bits (leAt v 4 8) 7 5 == 0 && bits (leAt v 4 8) 11 8 ≤ 13
      && bits (leAt v 12 8) 15 5 == 0 && bits (leAt v 12 8) 31 29 == 0 && bits (leAt v 20 4) 11 0 == 0
  else if t = 0x20 then
    leAt v 0 2 ≤ 16384 && leAt v 2 2 ≤ 2048 && leAt v 4 2 ≤ 7997 && leAt v 6 2 ≤ 1472 && leAt v 10 2 == 0
  else if t = 0x21 then
    leAt v 0 1 ≤ 15 && leAt v 1 3 == 0 && bits (leAt v 4 8) 11 0 == 0 && bits (leAt v 12 8) 11 0 == 0
      && bits (leAt v 20 8) 11 0 == 0 && !bit (leAt v 28 4) 3 && !bit (leAt v 28 4) 7
      && bits (leAt v 28 4) 31 28 == 0
  else if t = 0x30 then
    (syncOfRec v).ok && bits (leAt v 0 4) 31 28 == 0 && bits (leAt v 12 4) 7 4 == 0
      && bits (leAt v 12 4) 31 12 == 0
  else if t = 0x31 then
    1 ≤ leAt v 0 2 && leAt v 0 2 ≤ 1000 && 8 ≤ leAt v 2 2 && leAt v 2 2 ≤ 3600 && leAt v 4 1 ≤ 1
      && leAt v 5 3 == 0
  else if t = 0x40 then
    wmOk (wmOfRec v) && (List.range 8).all fun n =>
      bits (leAt v (4 * n) 4) 15 14 == 0 && bits (leAt v (4 * n) 4) 31 30 == 0
  else if t = 0x50 then 31 ≤ leAt v 0 1 && leAt v 0 1 ≤ 40 && leAt v 1 1 ≤ 1 && leAt v 2 2 == 0
  else if t = 0x60 then decide (leAt v 0 4 < 8)
  else if t = 0x61 then 10 ≤ leAt v 0 2 && leAt v 0 2 ≤ 1000 && leAt v 2 2 == 0
  else true

/-- One record is valid on its own. -/
def recOk (r : Nat × Bytes) : Bool :=
  0x8000 ≤ r.1 || (tagLen r.1 == some r.2.length && valueOk r.1 r.2)

/-- The configuration is valid (R377). -/
def cfgOk (l : List (Nat × Bytes)) : Bool :=
  let once := (l.filter fun r => r.1 != 0x10 && r.1 != 0x21).map (·.1)
  let nums := fun (t : Nat) => (recAll l t).map fun v => leAt v 0 1
  l.all recOk && decide once.Nodup && decide (nums 0x10).Nodup && decide (nums 0x21).Nodup
    && (!bit (leAt (recOr l 0x01 []) 0 4) 0 || l.any fun r => r.1 == 0x11)

/-! ## The result for a bank (R375, R388) -/

/-- 0 passed, 1 header, 2 lengths or BODY_CRC, 3 signer, 4 key hash, 5 signature, 6 SVN, 7 configuration. -/
def imageCheck (o : Otp) (code : Nat) (b : Bytes) : Nat :=
  if !headerOk b then 1
  else if !lengthsOk b || !bodyCrcOk b then 2
  else if !signerOk code (imgSigner b) then 3
  else if !signerKeyOk o b then 4
  else if !signatureOk b then 5
  else if imgSigner b != 2 && imgSvn b < o.svnMin then 6
  else match imgRecords b with
    | some l => if cfgOk l then 0 else 7
    | none => 7

/-- The boot ROM examines the banks with valid headers, the later one first: results for A and B, and the
active bank. -/
def chooseBank (o : Otp) (code : Nat) (a b : Bytes) : Nat × Nat × Option Nat :=
  if headerOk b && (!headerOk a || laterSeq (imgSeq b) (imgSeq a)) then
    let rb := imageCheck o code b
    if rb = 0 then (if headerOk a then 8 else 1, 0, some 1)
    else
      let ra := imageCheck o code a
      (ra, rb, if ra = 0 then some 0 else none)
  else
    let ra := imageCheck o code a
    if ra = 0 then (0, if headerOk b then 8 else 1, some 0)
    else
      let rb := imageCheck o code b
      (ra, rb, if rb = 0 then some 1 else none)

/-! ## Applying the configuration (R376, R378) -/

/-- The records of the active image, none of them in recovery mode. -/
def activeCfg (s : State) : List (Nat × Bytes) :=
  if s.hv.recovery then [] else (imgRecords (activeBank s)).getD []

/-- An entry of R327: FN_CLASS, BAR, BASE, SIZE_LOG2, KIND. -/
def wttEntry (cls bar base size kind : Nat) : Wtt :=
  { mat := BitVec.ofNat 64 (1 + cls * 4 + bar * 16 + (size - 12) * 256 + base), target := BitVec.ofNat 64 kind }

/-- The default entries of standard mode (R327). -/
def defaultWtt : List (Nat × Wtt) :=
  [(0, wttEntry 0 0 0 25 1), (1, wttEntry 0 1 0 12 3), (2, wttEntry 0 1 0x1000 12 5), (3, wttEntry 0 1 0x8000 15 4),
   (4, wttEntry 1 0 0 23 2), (5, wttEntry 1 1 0 12 3), (6, wttEntry 1 1 0x1000 12 5), (7, wttEntry 1 1 0x8000 15 4)]

def wttOfRec (v : Bytes) : Nat × Wtt :=
  (leAt v 0 1, { mat := BitVec.ofNat 64 (leAt v 4 8), target := BitVec.ofNat 64 (leAt v 12 8),
                 offset := BitVec.ofNat 32 (leAt v 20 4) })

/-- Bank A of the window translation table. -/
def imgWtt (l : List (Nat × Bytes)) (recovery : Bool) : Tbl Wtt :=
  let e := if recovery then defaultWtt.take 4
    else if (recAll l 0x10).isEmpty then defaultWtt else (recAll l 0x10).map wttOfRec
  e.foldl (fun t x => tblSet {} t x.1 x.2) []

/-- The 128 bytes of the discovery table (R322). -/
def discovery (numVf : Nat) (v : Bytes) : Bytes :=
  let b := [0x51, 0x48, 0x44, 0x54, 1, 0] ++ natLe 2 128 ++ bvLe 4 hvBuild ++ natLe 2 numVf ++ zeros 2
    ++ fit v 48 ++ zeros 60
  b ++ bvLe 4 (crc32c b)

/-- The value of a record with its default (R376). -/
def imgVal (l : List (Nat × Bytes)) (tag : Nat) : Bytes :=
  recOr l tag (
    if tag = 0x01 then natLe 4 0 ++ bvLe 2 Config.vendorId ++ natLe 2 0
    else if tag = 0x02 then natLe 2 4095 ++ natLe 2 0
    else if tag = 0x03 then natLe 2 20 ++ natLe 2 0 ++ natLe 4 (1 + 2 * 2 ^ 10 + 100 * 2 ^ 16 + 2 * 2 ^ 26)
    else if tag = 0x20 then natLe 2 64 ++ natLe 2 64 ++ natLe 2 16 ++ natLe 2 16 ++ natLe 2 1 ++ natLe 2 0
    else if tag = 0x30 then
      natLe 4 (20 + 1000 * 2 ^ 12) ++ natLe 4 (100 + 100 * 2 ^ 16) ++ natLe 4 (100 * 4) ++ natLe 4 (4 + 10 * 256)
    else if tag = 0x31 then natLe 2 10 ++ natLe 2 16 ++ natLe 4 0
    else if tag = 0x40 then (List.range 8).flatMap fun _ => natLe 4 (960 + 768 * 2 ^ 16)
    else if tag = 0x50 then [32, 0, 0, 0]
    else if tag = 0x60 then natLe 4 7
    else if tag = 0x61 then natLe 4 100
    else [])

/-- Step 7: every value of the configuration is applied at once, the locks last. -/
def applyImage (s : State) (l : List (Nat × Bytes)) : State :=
  let host := imgVal l 0x01
  let vfs := leAt (imgVal l 0x02) 0 2
  let pm := imgVal l 0x03
  let ep := imgVal l 0x31
  let wm := wmOfRec (imgVal l 0x40)
  let keys := imgVal l 0x50
  let locks := leAt (imgVal l 0x60) 0 4
  let sc := syncOfRec (imgVal l 0x30)
  let s := { s with hi := { s.hi with
    cfg := BitVec.ofNat 4 (leAt host 0 4), rom := bit (leAt host 0 4) 0, subVendor := BitVec.ofNat 16 (leAt host 4 2)
    subId := BitVec.ofNat 16 (leAt host 6 2), numVf := vfs
    idleUs := leAt pm 0 2, ltr := BitVec.ofNat 32 (leAt pm 4 4)
    wttA := imgWtt l s.hv.recovery, wttActive := false
    discTable := if bit (leAt host 0 4) 0 then discovery vfs (imgVal l 0x11) else [] } }
  let s := applySync { s with sync.shadow := sc, sync.waiting := some sc }
  { s with
    wg.periodMs := leAt ep 0 2, wg.ckptS := leAt ep 2 2, wg.sigAlg := leAt ep 4 1
    peer.wmSh := wm, peer.wm := wm
    ks.stepLog2 := leAt keys 0 1, ks.erasePersist := leAt keys 1 1 == 1
    hv.wdMs := leAt (imgVal l 0x61) 0 2
    ks.lock := bit locks 0, hi.lock := bit locks 1, wg.ckptLock := bit locks 2 }

/-- The counts of the manager (R291, R376). -/
def managerCfg (l : List (Nat × Bytes)) : AdmCfg :=
  let v := imgVal l 0x20
  { client := 0, op := 1, queues := leAt v 0 2, vectors := leAt v 2 2, keyGran := leAt v 4 2, ctxGran := leAt v 6 2
    weight := leAt v 8 2 }

def windowOfRec (v : Bytes) : Nat × Dmaw :=
  (leAt v 0 1, { base := BitVec.ofNat 64 (leAt v 4 8), limit := BitVec.ofNat 64 (leAt v 12 8)
                 xlate := BitVec.ofNat 64 (leAt v 20 8), ctrl := BitVec.ofNat 32 (leAt v 28 4) })

/-- A window of every host address with the given permissions. -/
def hostWindow (ctrl : W32) : Dmaw := { limit := 0xFFFFFFFFFFFFF000, ctrl := ctrl }

/-- Bank A of the manager's windows. -/
def managerWindows (l : List (Nat × Bytes)) : Tbl Dmaw :=
  let e := if (recAll l 0x21).isEmpty then [(0, hostWindow 7)] else (recAll l 0x21).map windowOfRec
  e.foldl (fun t x => tblSet {} t x.1 x.2) []

end Sys2Proof.Machine
end

