-- ==== Sys2Proof/Machine/Update.lean ====
section
/-! DEFINITION. Updating the image (R379, R380). -/

namespace Sys2Proof.Machine

/-- Step 4 chose an active bank: in recovery mode only after the errors in keeper RAM (R370, R375). -/
def hasActive (s : State) : Bool := !s.hv.recovery || s.hv.fail == 4

/-- The bank that is not active. Without an active bank ACTIVE reads 0. -/
def setInactive (s : State) (b : Bytes) : State :=
  if s.store.active = 0 then { s with store.flashB := b } else { s with store.flashA := b }

/-- The update ends with a result. -/
def updEnd (s : State) (r : Nat) : State :=
  let s := { s with store := { s.store with
    updBusy := false, updTaken := false, updPhase := 0, updResult := r, updHash := [], updBuf := [] } }
  let s := raiseHive s 2 (BitVec.ofNat 32 r)
  if r = 0 then s else sticky s 103 0

/-- The keeper takes the update that is offered. -/
def updTake (s : State) : State :=
  if !s.store.updBusy || s.store.updTaken || !s.keeperOk then s
  else if s.aon.tampered || !acceptsImages s.lcCode then updEnd s 12
  else { s with store := { s.store with updTaken := true, updPhase := 1, updEpoch := (s.tenant 0).mb.fepoch } }

/-- A commit of the CF_UPD group: discarded while BUSY. -/
def opCfUpdCommit (s : State) : State :=
  if !s.presented || s.store.updBusy then s
  else updTake { s with store := { s.store with
    updBusy := true, updTaken := false, updAt := s.hv.tick, updPhase := 0, updProgress := 0
    updRunAddr := s.store.updAddr, updRunLen := s.store.updLen } }

def execCfUpdCommit (s : State) : Host.Outcome State Fault Refusal :=
  .next (whenClocked .cfUpdCommit s fun s => opCfUpdCommit (wake s 1))

/-- The keeper reads the buffer through the manager's windows and goes on with `k`. A read that waits for bus master
enable, a tag or its translation leaves the update as it is (R302, R331, R335, R336). -/
def updRead (s : State) (read : ReadEnd) (k : State → State) : State :=
  if (s.tenant 0).mb.fepoch != s.store.updEpoch then updEnd s 10
  else match keeperRead s 0 s.store.updRunAddr.toNat s.store.updRunLen read with
    | (.waits, s) => s
    | (.issued, s) => if read = .ok then k s else updEnd s 2
    | (_, s) => updEnd s 2

/-- The RESULT of phase 1 for a buffer of LEN bytes, 0 where it passes. -/
def updCheck (s : State) (b : Bytes) : Nat :=
  let c := imageCheck s.otp s.lcCode b
  if c = 1 then 3
  else if !lengthsOk b || imgLen b != b.length then 1
  else if c = 2 then 3
  else if c = 3 || c = 4 || c = 5 then 4
  else if c = 6 then 5
  else if c = 7 then 7
  else if hasActive s && !laterSeq (imgSeq b) s.store.cfSeq.toNat then 6
  else 0

/-- A phase ends. `buf` is what a read of the buffer returned (phases 1 and 3); `read` is how the
reads of the phase ended; in phases 2 and 4 the flash did not fail where it is `ok`. -/
def opUpdatePhaseDone (read : ReadEnd) (buf : Bytes) (s : State) : State :=
  let b := fit buf s.store.updRunLen
  let ph := s.store.updPhase
  if !s.store.updBusy || !s.store.updTaken || !s.keeperOk then s
  else if ph = 1 then
    updRead s read fun s =>
      let r := updCheck s b
      if r != 0 then updEnd s r
      else { s with store := { s.store with updPhase := 2, updHash := sha384 b } }
  else if ph = 2 then
    let s := setInactive s []
    if read = .ok then { s with store.updPhase := 3 } else updEnd s 9
  else if ph = 3 then
    updRead s read fun s =>
      if sha384 b != s.store.updHash then updEnd s 8
      else
        let s := setInactive s (List.replicate 128 0xFF ++ b.drop 128)
        { s with store := { s.store with
          updPhase := 4, updProgress := s.store.updRunLen / 1024, updBuf := b.take 128 } }
  else
    let bank := if s.store.active = 0 then s.store.flashB else s.store.flashA
    if read = .ok then updEnd (setInactive s (s.store.updBuf ++ bank.drop 128)) 0
    else updEnd (setInactive s []) 9

def execUpdatePhaseDone (read : ReadEnd) (buf : Bytes) (s : State) : Host.Outcome State Fault Refusal :=
  .next (onClock s.hv.xclk s (opUpdatePhaseDone read buf))

/-- The keeper has not taken the update within 10 ms. -/
def opUpdateKeeperTimeout (s : State) : State :=
  if s.store.updBusy && !s.store.updTaken && s.store.updAt + 12000000 ≤ s.hv.tick then updEnd s 11 else s

def execUpdateKeeperTimeout (s : State) : Host.Outcome State Fault Refusal :=
  .next (onClock s.hv.fclk s opUpdateKeeperTimeout)

/-- A keeper restart ends an update that the keeper has taken; the inactive bank has no valid header then, whatever
the phase. -/
def updRestart (s : State) : State :=
  if s.store.updBusy && s.store.updTaken then updEnd (setInactive s []) 10 else s

end Sys2Proof.Machine
end

