-- ==== Sys2Proof/Machine/Startup.lean ====
section
/-! DEFINITION. Starts, the start-up sequence, and keeper restarts (R366 to R371, R374, R384, R385, R391,
R398, R405, R417). -/

namespace Sys2Proof.Machine

/-! ## Starts (R366, R443) -/

/-- The combs after a reset. A sticky bit that a warm reset keeps shows in the state byte from the start
(R425). -/
def resetCombs (sticky : BitVec 256) : Tbl Comb :=
  ((List.range combCount).filter sticky.getLsbD).map fun c => (c, { before := 9 })

/-- Every register and store takes its value after a reset; what persists, what the always-on domain keeps
across a warm reset, what the sources read, a held HIVE_RST_N, and the queue of commands stay. The OTP writes of a
transition are cut short (R399). -/
def restart (s : State) (warm : Bool) : State :=
  let s := cutOtp s
  let a := s.aon
  let aon : Aon := if warm then { a with responding := false, ins := 0, unlock := false }
    else { high := a.high, low := a.low, outside := a.outside, refOut := a.refOut, hot := a.hot }
  { pending := s.pending, otp := s.otp
    store := { flashA := s.store.flashA, flashB := s.store.flashB, mram := s.store.mram, wear := s.store.wear }
    hv := { tick := s.hv.tick, warm := warm, lockLoss := if warm then s.hv.lockLoss else 0, powered := true
            rstHeld := s.hv.rstHeld, step := if s.hv.rstHeld then 0 else 1 }
    aon := aon, combs := resetCombs aon.sticky
    ks := { genBase := if warm then s.ks.genBase else 0 }
    slots := if warm then tblMap {} (fun _ k => { gen := k.gen }) s.slots else []
    out := s.out, resp := s.resp, trngN := s.trngN, freeN := s.freeN }

/-- VDD_AON passes 90 %: the always-on domain is initialised (R366, R442). -/
def opColdPowerOn (s : State) : State :=
  noteRails (restart { s with aon.low := setBit s.aon.low domVddAon false } false)

def execColdPowerOn (s : State) : Host.Outcome State Fault Refusal := .next (opColdPowerOn s)

/-- The Hive is inert in SCRAP (R391). -/
def inert (s : State) : Bool := s.hv.halted && !s.hv.recovery && s.hv.step == 1

/-- The record write that the MRAM controller has begun is finished, and no other is started (R443). Which of the writes
under way it has begun the rules do not say: a free value (log 76). -/
def finishBegun (s : State) : State :=
  let l := resSlots s
  let n := l.length + if s.wg.eresNext.isSome then 1 else 0
  match l[Config.begunWrite s.freeN % n]?, s.wg.eresNext with
  | some p, _ => { putResOf s p with freeN := s.freeN + 1 }
  | none, some e => { putReservation s e with freeN := s.freeN + 1 }
  | none, none => s

/-- HIVE_RST_N is asserted: the Hive is held in reset, and a record write that had begun is finished. Before power-on
and in SCRAP only the level is kept. -/
def opHiveRstNAssert (s : State) : State :=
  if s.hv.rstHeld then s
  else if !s.hv.powered || inert s then { s with hv.rstHeld := true }
  else
    let s := finishBegun s
    restart { s with hv.rstHeld := true } true

/-- HIVE_RST_N is released: a warm reset (R366). -/
def releaseReset (s : State) : State :=
  let s := { s with hv.rstHeld := false }
  if !s.hv.powered || inert s then s else restart s true

/-- A warm reset: a write of HV_RESET, the release of HIVE_RST_N (with its assertion, where none came before), or a
Conventional Reset of the endpoint. -/
def opWarmReset (cause : WarmCause) (s : State) : State :=
  match cause with
  | .hiveRst => releaseReset (opHiveRstNAssert s)
  | .hvReset => if s.presented && !s.hv.rstHeld then restart s true else s
  | .endpoint => if s.rom || s.hv.rstHeld || s.hv.step = 0 || inert s then s else restart s true

def execWarmReset (cause : WarmCause) (s : State) : Host.Outcome State Fault Refusal := .next (opWarmReset cause s)

def execHiveRstNAssert (s : State) : Host.Outcome State Fault Refusal := .next (opHiveRstNAssert s)

/-! ## Step 1 (R367, R391, R398, R405) -/

/-- An interrupted transition is resumed, or abandoned where its owner hash was cut short. -/
def resumeTransition (s : State) : State :=
  let n := s.otp.nextEntry
  let e := s.otp.entry (n - 1)
  if n = 0 || e.done.voted != 0 then s
  else match intentTarget e.intent.voted with
    | none => s
    | some t =>
      if t = 0x0400 && !((s.otp.owners.getLast?).map ownerOk == some true) then
        sticky { s with otp := s.otp.writeDone 2, lc.abandoned := true } 100 0
      else
        let s := if t = 0x0600 then eraseKeyRecs s else s
        let s := if t = 0x0500 || t = 0x0600 then sticky s 89 0 else s
        sticky { s with otp := (s.otp.writeLc t).writeDone 1, lc.resumed := true } 100 0

/-- Debug is open in the state as decoded at a start (R389, R390). -/
def debugAtStart (code : Nat) : Bool := code < 0x0200 || code == 0x0500

/-- The Hive is inert from here on. -/
def scrapped (s : State) (word : W32) : State :=
  { s with lc.word := word, hv.halted := true, lc.debugOpen := false }

/-- The tamper inputs are sampled; TAMPERED state lasts while a latch is set, and every source that reads tripped trips
(R367, R405). -/
def sampleTamper (s : State) (ins : BitVec 4) : State :=
  let keep := s.aon.tampered && s.aon.latch != 0
  let s := { s with aon.tampered := keep, hv.tampered := keep, aon.ins := ins }
  s.each ((List.range 7).filter s.live.getLsbD) trip

/-- Step 1 ends; `ins` are the TAMPER_IN inputs that are high, and `bad` marks an uncorrectable read of a copy of the
life-cycle word (R393). In SCRAP nothing else of the OTP array is read (R391). -/
def step1 (s : State) (ins : BitVec 4) (bad : Bool) : State :=
  let read := s.otp.lc.voted
  if bad || lcOf read = 0x0600 then scrapped (sampleTamper s ins) (if bad then 0x00080000#32 else read)
  else
    let s := resumeTransition s
    let word := s.otp.lc.voted
    let s := sampleTamper s ins
    if lcOf word = 0x0600 then scrapped s word
    else { s with lc.word := word, lc.debugOpen := debugAtStart (lcOf word), hv.step := 2 }

/-! ## Steps 2 to 4 (R367, R370, R375) -/

/-- Step 2 ends: the clocks run, and the combs' DRBGs are instantiated (R158). -/
def step2 (s : State) : State :=
  let s := { s with hv := { s.hv with rootLock := true, cclk := true, fclk := true, kclk := true, xclk := true
                                      step := 3 } }
  let s := zeroRest s
  if s.ks.zeroising.isSome then s else s.each (List.range combCount) drbgInit

/-- Step 3 ends: the scramble key is drawn, the propolis engine seeded, and the keeper has started. The zeroisation
that a warm reset starts has ended: every tag is EMPTY with its GEN one higher (R249). -/
def step3 (s : State) : State :=
  let s := seedPropolis (drawScramble { s with hv.keeperUp := true, hv.step := 4 })
  if s.hv.warm then sticky { s with ks.genBase := s.ks.genBase + 1 } 89 0 else s

/-- Recovery mode begins with a failure code. -/
def enterRecovery (s : State) (fail : BitVec 8) : State :=
  sticky { s with hv.recovery := true, hv.fail := fail } 95 0

/-- Step 4 ends: a bank is chosen and its firmware loaded. An uncorrectable error in keeper RAM repeats the
step once; after a second one the active bank stands, and no firmware runs. -/
def step4 (s : State) (ecc : Ecc) : State :=
  let s := if ecc = .corrected then eccCorrected s none else s
  let s := if ecc = .uncorrectable then sticky s 69 0 else s
  if ecc = .uncorrectable && !s.hv.ramRetry then { s with hv.ramRetry := true }
  else
    let (ra, rb, act) := chooseBank s.otp s.lcCode s.store.flashA s.store.flashB
    let s := { s with store.aCheck := ra, store.bCheck := rb, hv.step := 5 }
    match act with
    | none => enterRecovery s (if acceptsImages s.lcCode then 2 else 3)
    | some k =>
      let b := if k = 1 then s.store.flashB else s.store.flashA
      let s := { s with store := { s.store with
        active := k, cfSigner := imgSigner b, cfSvn := imgSvn b, cfSeq := BitVec.ofNat 32 (imgSeq b) } }
      if ecc = .uncorrectable then enterRecovery s 4
      else { s with hv.fw := imgFw b, hv.fwHash := sha384 (imgFw b), hv.ram := imgFw b }

/-! ## Step 5 (R213, R214) -/

def Otp.rootField (o : Otp) (i : Nat) : RootField := (o.root[i]?).getD {}

/-- The first root field that nothing has been written to. -/
def Otp.freeRoot (o : Otp) : Option Nat := (List.range 3).find? fun i => o.rootField i == {}

/-- A root secret is generated in MANUFACTURED where none is stored, and stored scrambled (R213). -/
def makeRoot (s : State) : State :=
  if s.lcCode != 0x0300 || (productionRoot s.otp).isSome || s.ks.entropyFail then s
  else match s.otp.freeRoot with
    | none => s
    | some i =>
      let (e, t) := s.trng
      let v := BitVec.ofNat 256 (beNat (e.take 32))
      let w := intentWord 0x0300
      let c := Config.otpScramble v
      let f : RootField := { intent := ⟨w, w, w⟩, done := ⟨1, 1, 1⟩, secret := (c, c, c) }
      { t with otp.root := (List.range 3).map fun k => if k = i then f else s.otp.rootField k }

/-- Step 5 ends; in TAMPERED state nothing is derived, and which root is active stands all the same (R215, R385). `bad`
marks an uncorrectable read of the root field (R217). -/
def step5 (s : State) (bad : Bool) : State :=
  let s := { s with hv.step := 6 }
  if s.aon.tampered then { s with ks.testRoot := testRooted s.lcCode s.lc.debugOpen }
  else if bad && !testRooted s.lcCode s.lc.debugOpen then
    sticky { s with ks.rootFail := true, ks.testRoot := false } 88 0
  else deriveLadder (makeRoot s)

/-! ## Step 6 (R384, R385) -/

/-- A damaged record is counted. -/
def countDamaged (s : State) : State :=
  sticky { s with store.damaged := true, store.errDamaged := satAdd 65535 s.store.errDamaged 1 } 90 0

/-- The identifiers of the key records that carry a client's number, of any epoch. -/
def clientKeyRecs (s : State) (c : Nat) : List Nat :=
  (keyRecs s).filter fun id => recClient ((s.recValue id).getD []) == c

/-- TENANT_EPOCH of a client from its record. -/
def scanEpoch (s : State) (c : Nat) : State :=
  let id := 0x10000 + c
  if s.recDamaged id then
    let l := clientKeyRecs s c
    let top := l.foldl (fun a id => max a (recEpoch ((s.recValue id).getD []) + 1)) 1
    let e := BitVec.ofNat 32 top
    let s := writeRec (countDamaged s) id (bvLe 4 e)
    (s.each l eraseRec).modTenant c fun t => { t with epoch := e }
  else match s.recValue id with
    | some b => s.modTenant c fun t => { t with epoch := BitVec.ofNat 32 (leAt b 0 4) }
    | none => s

/-- Step 6 ends: anchor, reservation and tenant epochs are set. The age of the anchor for CKPT_LATE counts from this
tick (DESIGN CHOICE, log 81). -/
def step6 (s : State) : State :=
  let bad := (tblKeys s.store.mram).filter fun id => (id < 0x10000 || 0x80000000 ≤ id) && s.recDamaged id
  let s := s.each bad fun s _ => countDamaged s
  let s := s.each ((tblKeys s.store.mram).filter fun id => 0x10000 ≤ id && id < 0x10000 + 4160)
    fun s id => scanEpoch s (id - 0x10000)
  let anchor := (s.recValue 0x10).map fun b => leAt b 8 8
  let eres := match s.recValue 0x11, anchor with
    | some b, _ => leAt b 8 8
    | none, some a => a + 2 ^ 38
    | none, none => 0
  { s with
    store.scanned := true, hv.step := 7
    wg := { s.wg with anchor := anchor.getD 0, eres := eres, anchorAt := s.hv.tick, ckptAt := s.hv.tick } }

/-! ## Steps 7 to 10 (R254, R268, R276, R291, R378, R417) -/

/-- Step 7 ends. Recovery mode opens every host address to the manager's reads. -/
def step7 (s : State) : State :=
  let s := applyImage s (activeCfg s)
  let s := { s with hv.step := 8 }
  if s.hv.recovery then modWin s 0 fun w => { w with a := [(0, hostWindow 3)] } else s

/-- Step 8 ends: the manager's tenant exists, and the Hive time is set for step 9. -/
def step8 (s : State) : State :=
  let s := if s.hv.recovery then s
    else modWin (createTenant s (managerCfg (activeCfg s))) 0 fun w => { w with a := managerWindows (activeCfg s) }
  let h := match s.recValue 0x10 with
    | some b => leAt b 16 10
    | none => 0
  { s with hv.step := 9, sync.h := h }

/-- The first epoch opens, with its reservation. Without an alias key it opens too, but is never signed. -/
def firstEpoch (s : State) : State :=
  match s.recValue 0x10 with
  | some b => if s.ks.testRoot then openGenesis s else openGap s (leAt b 8 8) (slice b 32 32)
  | none => openGenesis s

/-- Step 9 ends. In recovery mode start-up stops here. -/
def step9 (s : State) : State :=
  let s := firstEpoch (if s.aon.tampered then s else deriveAlias s)
  if s.hv.recovery then { s with hv.halted := true } else { s with hv.step := 10 }

/-- Step 10 ends: what outlived a reset is raised (R417). -/
def step10 (s : State) : State :=
  let s := raiseHive { s with hv.ready := true } 14 0
  let rec_ := s.aon.sticky
  let s := s.each ((List.range 192).filter fun i => rec_.getLsbD (64 + i)) fun s i => raiseHive s (64 + i) 0
  s.each ((List.range combCount).filter rec_.getLsbD) fun s c => raise s (4 * c) 0

/-- At a cold power-on step 1 waits until every domain has come within tolerance (R442). -/
def railsIn (s : State) : Bool := s.aon.goodAt.isSome

/-- A step of R367 ends. `ins` is what the TAMPER_IN inputs read in step 1; `ecc` is what the ECC found in the
memory that the step reads: the OTP array in steps 1 and 5, keeper RAM in step 4. -/
def opStartupStepDone (ins : BitVec 4) (ecc : Ecc) (s : State) : State :=
  if s.hv.rstHeld || s.hv.halted || s.hv.ready then s
  else match s.hv.step with
    | 1 => if railsIn s then step1 s ins (ecc == .uncorrectable) else s
    | 2 => step2 s
    | 3 => step3 s
    | 4 => step4 s ecc
    | 5 => step5 s (ecc == .uncorrectable)
    | 6 => step6 s
    | 7 => step7 s
    | 8 => step8 s
    | 9 => step9 s
    | 10 => step10 s
    | _ => s

/-- The steps after the second need the clocks. -/
def execStartupStepDone (ins : BitVec 4) (ramEcc : Ecc) (s : State) : Host.Outcome State Fault Refusal :=
  .next (if 2 < s.hv.step && !s.hv.rootLock then s else opStartupStepDone ins ramEcc s)

/-- The root PLL is not locked 1 ms after step 2 began (R370). -/
def opPllLockTimeout (s : State) : State :=
  if s.hv.step = 2 && !s.hv.halted then sticky { s with hv.halted := true, hv.fail := 1 } 95 0 else s

def execPllLockTimeout (s : State) : Host.Outcome State Fault Refusal := .next (opPllLockTimeout s)

/-! ## The SVN field (R374) -/

/-- A bit of the thermometer field is programmed in every cell; in some cell only. -/
def Otp.svnFull (o : Otp) (i : Nat) : Bool := (o.svn.1 &&& o.svn.2.1 &&& o.svn.2.2).getLsbD i
def Otp.svnPartly (o : Otp) (i : Nat) : Bool := (o.svn.1 ||| o.svn.2.1 ||| o.svn.2.2).getLsbD i && !o.svnFull i

/-- The bit that is programmed next: one that a cut-short write left partly programmed, else the lowest not
programmed. -/
def Otp.nextSvn (o : Otp) : Option Nat :=
  match (List.range 64).find? o.svnPartly with
  | some i => some i
  | none => (List.range 64).find? fun i => !o.svnFull i

/-- That bit is programmed in its three cells. -/
def Otp.programSvn (o : Otp) : Otp :=
  match o.nextSvn with
  | none => o
  | some i =>
    let m : BitVec 64 := 1#64 <<< i
    { o with svn := (o.svn.1 ||| m, o.svn.2.1 ||| m, o.svn.2.2 ||| m) }

/-- The keeper programs the next bit towards the active image's SVN; a bit found partly programmed is programmed again
whatever the image says. -/
def opSvnCommitProgram (s : State) : State :=
  if s.hv.ready && s.keeperOk
      && ((List.range 64).any s.otp.svnPartly
        || (imgCommits (activeBank s) && decide (s.otp.svnMin < s.store.cfSvn))) then
    { s with otp := s.otp.programSvn }
  else s

def execSvnCommitProgram (s : State) : Host.Outcome State Fault Refusal := .next (opSvnCommitProgram s)

/-! ## Keeper restart (R371) -/

/-- The keeper runs: it takes what waits for it. -/
def keeperBack (s : State) : State := updTake (doeResume (admTake s))

/-- The firmware is read again and checked; recovery mode runs none. -/
def firmwareOk (s : State) (readOk : Bool) : Bool :=
  s.hv.recovery || (readOk && sha384 (imgFw (activeBank s)) == s.hv.fwHash)

/-- The functions that have a tenant. -/
def liveFns (s : State) : List Nat := s.clients.filter isFn

/-- The keeper restarts, or stays halted. -/
def keeperRestart (s : State) (readOk : Bool) : State :=
  let s := updRestart (restartDoe s)
  if firmwareOk s readOk then
    keeperBack
      (({ s with hv.ram := if s.hv.recovery then s.hv.ram else imgFw (activeBank s) }).each (liveFns s) restartMail)
  else sticky { s with hv.keeperUp := false, hv.keeperFail := true, hv.fail := 5 } 94 0

/-- A write of KEEPER to HV_RESET, or an uncorrectable error in keeper RAM. In retention sleep, where the keeper's clock
and the flash's stand still, the restart waits for the wake that the write causes (R33, R445). -/
def opKeeperRestart (ramError readOk : Bool) (s : State) : State :=
  if !s.hv.keeperUp || s.hv.step < 5 || (!ramError && !s.presented) then s
  else if !ramError && !(s.hv.kclk && s.hv.xclk) then
    { s with hv.heldCmds := s.hv.heldCmds ++ [.keeperRestart ramError readOk] }
  else keeperRestart (if ramError then sticky (sticky s 69 0) 93 0 else s) readOk

def execKeeperRestart (ramError readOk : Bool) (s : State) : Host.Outcome State Fault Refusal :=
  .next (if ramError then onClock s.hv.kclk s (opKeeperRestart ramError readOk)
    else whenClocked (.keeperRestart ramError readOk) s fun s => opKeeperRestart ramError readOk (wake s 1))

/-- The watchdog expires; the image sets its period in step 7. -/
def opKeeperWatchdogExpiry (readOk : Bool) (s : State) : State :=
  if !s.hv.keeperUp || s.hv.step < 8 || s.hv.pwr != 0 then s else keeperRestart (sticky s 93 0) readOk

def execKeeperWatchdogExpiry (readOk : Bool) (s : State) : Host.Outcome State Fault Refusal :=
  .next (onClock s.hv.kclk s (opKeeperWatchdogExpiry readOk))

end Sys2Proof.Machine
end

