-- ==== Sys2Proof/Machine/LifeCycle.lean ====
section
/-! DEFINITION. Life-cycle transitions and the reopening of debug (R216, R394 to R403). -/

namespace Sys2Proof.Machine

/-! ## Transitions (R394, R395) -/

/-- The target is the code of TEST_UNLOCKED(k). -/
def isUnlocked (code : Nat) : Bool := 0x0100 ≤ code && code ≤ 0x0107
def isLocked (code : Nat) : Bool := 0x0200 ≤ code && code ≤ 0x0207

/-- The transition is in R394; PROVISIONED requires LC_OWNER_HASH written. -/
def lcPermitted (s : State) (t : Nat) : Bool :=
  let c := s.lcCode
  if t = 0x0600 then c != 0x0600
  else if t = 0x0500 then c == 0x0300 || c == 0x0400
  else if t = 0x0400 then c == 0x0300 && s.lc.ownerWritten
  else if t = 0x0300 then isUnlocked c
  else if isLocked t then c + 0x0100 == t && isUnlocked c
  else if isUnlocked t then (if t = 0x0100 then c == 0 else isLocked c && c % 256 + 1 == t % 256)
  else false

/-- The token presented for TEST_UNLOCKED(k) matches the stored one (R396); one that cannot be read matches nothing. -/
def tokenOk (s : State) (t : Nat) : Bool := s.otp.tokens[t % 256]? == some (s.lc.token, false)

/-- A free journal entry exists, or the target is SCRAP (R397). -/
def journalOk (s : State) (t : Nat) : Bool := t == 0x0600 || decide (s.otp.nextEntry < 19)

/-- The RESULT of checks 2 to 9 in order, 0 where all pass. -/
def lcIssue (s : State) (t confirm : Nat) : Nat :=
  if confirm != 65535 - t then 2
  else if !lcPermitted s t then 1
  else if s.aon.tampered && t != 0x0500 && t != 0x0600 then 8
  else if !journalOk s t then 6
  else if isUnlocked t && 3 ≤ s.lc.tokenFails then 4
  else if isUnlocked t && !tokenOk s t then 3
  else if t = 0x0500 && !s.lc.rmaGrant then 5
  else if t = 0x0400 && 3 ≤ s.otp.owners.length then 7
  else 0

/-- A request ends with its RESULT. -/
def lcEnd (s : State) (r : Nat) : State :=
  raiseHive { s with lc.busy := none, lc.result := r } 3 (BitVec.ofNat 32 r)

/-- LC_TOKEN0 to LC_TOKEN3 clear after check 7, and a mismatch is counted (R396). -/
def tokenCheck (s : State) (t r : Nat) : State :=
  if isUnlocked t && (r = 3 || r = 0) then
    { s with lc.token := 0, lc.tokenFails := if r = 3 then satAdd 3 s.lc.tokenFails 1 else s.lc.tokenFails }
  else s

/-- The transition begins: RMA and SCRAP zeroise before the journal is written. -/
def lcStart (s : State) (t : Nat) : State :=
  let s := { s with lc.busy := some t, lc.run := none }
  if t = 0x0500 || t = 0x0600 then zeroise s .lifecycle (t == 0x0600) else startJournal s

/-- A write of LC_TRANSITION: discarded while a transition runs. -/
def lcRequest (s : State) (t confirm : Nat) : State :=
  if !s.presented || s.lc.busy.isSome then s
  else
    let r := lcIssue s t confirm
    let s := tokenCheck s t r
    if r = 0 then lcStart s t else lcEnd s r

def execLcToTestUnlocked (k : Nat) (confirm : BitVec 16) (s : State) : Host.Outcome State Fault Refusal :=
  .next (whenClocked (.lcToTestUnlocked k confirm) s fun s => lcRequest (wake s 1) (0x0100 + k % 256) confirm.toNat)

def execLcToTestLocked (k : Nat) (confirm : BitVec 16) (s : State) : Host.Outcome State Fault Refusal :=
  .next (whenClocked (.lcToTestLocked k confirm) s fun s => lcRequest (wake s 1) (0x0200 + k % 256) confirm.toNat)

def execLcToManufactured (confirm : BitVec 16) (s : State) : Host.Outcome State Fault Refusal :=
  .next (whenClocked (.lcToManufactured confirm) s fun s => lcRequest (wake s 1) 0x0300 confirm.toNat)

def execLcToProvisioned (confirm : BitVec 16) (s : State) : Host.Outcome State Fault Refusal :=
  .next (whenClocked (.lcToProvisioned confirm) s fun s => lcRequest (wake s 1) 0x0400 confirm.toNat)

def execLcToRma (confirm : BitVec 16) (s : State) : Host.Outcome State Fault Refusal :=
  .next (whenClocked (.lcToRma confirm) s fun s => lcRequest (wake s 1) 0x0500 confirm.toNat)

def execLcToScrap (confirm : BitVec 16) (s : State) : Host.Outcome State Fault Refusal :=
  .next (whenClocked (.lcToScrap confirm) s fun s => lcRequest (wake s 1) 0x0600 confirm.toNat)

/-- A request that fails a check, whatever its target. -/
def opLcTransitionRefused (target confirm : Nat) (s : State) : State :=
  if lcIssue s target confirm != 0 then lcRequest s target confirm else s

def execLcTransitionRefused (target confirm : BitVec 16) (s : State) : Host.Outcome State Fault Refusal :=
  .next (whenClocked (.lcTransitionRefused target confirm) s fun s =>
    opLcTransitionRefused target.toNat confirm.toNat (wake s 1))

/-- The words of R397 that are left are programmed, and the warm reset of its step 5 starts. -/
def opLcTransitionOtpDone (s : State) : State :=
  match s.lc.busy with
  | none => s
  | some _ =>
    if s.lc.run.isNone then s else restart (lcEnd { s with otp := s.otp.putWords (otpLeft s) } 0) true

def execLcTransitionOtpDone (s : State) : Host.Outcome State Fault Refusal := .next (opLcTransitionOtpDone s)

/-! ## Challenges (R400) -/

/-- LC_DBG_STATUS.STATE changes. -/
def setDbg (s : State) (st : Nat) : State :=
  if s.lc.dbgState = st then s else raiseHive { s with lc.dbgState := st } 4 0

/-- SHA-256 of the production DeviceID public key (R231, R244). -/
def productionDeviceId (s : State) : Bytes :=
  match productionRoot s.otp with
  | some b => sha256 (edPublic 0x11 (kdf (kdf b (ascii "QHV1 HRK") [1] 32) (ascii "QHV1 DEVICEID") [] 32))
  | none => fit Config.noDeviceId 32

/-- A challenge over a nonce. -/
def challenge (s : State) (purpose : Byte) (nonce : Bytes) : Bytes :=
  [0x51, 0x48, 0x44, 0x43, 0x01, purpose] ++ natLe 2 s.lcCode ++ fit nonce 32 ++ productionDeviceId s
    ++ [BitVec.ofNat 8 s.otp.svnMin] ++ zeros 55

/-- The state permits the request: DEBUG in PROVISIONED, RMA there and in MANUFACTURED. -/
def dbgPermitted (s : State) (purpose : Byte) : Bool :=
  s.presented && s.keeperOk && !s.aon.tampered && decide (s.lc.fails < 4) && s.lc.subst.isNone
    && (s.lcCode == 0x0400 || (s.lcCode == 0x0300 && purpose == 2))

/-- A write of LC_DBG_REQ. -/
def dbgRequest (s : State) (purpose : Byte) : State :=
  if !dbgPermitted s purpose then s
  else
    let (n, s) := s.trng
    setDbg { s with lc.chal := challenge s purpose n, lc.chalOut := true } 1

def execLcDbgReqDebug (s : State) : Host.Outcome State Fault Refusal :=
  .next (whenClocked .lcDbgReqDebug s fun s => dbgRequest (wake s 1) 1)

def execLcDbgReqRma (s : State) : Host.Outcome State Fault Refusal :=
  .next (whenClocked .lcDbgReqRma s fun s => dbgRequest (wake s 1) 2)

/-! ## Responses (R401, R402) -/

/-- A commit of the LC_RESP group, while a challenge is outstanding. -/
def opLcRespCommit (s : State) : State :=
  if s.presented && s.lc.chalOut && s.lc.dbgState = 1 then
    setDbg { s with lc.runAddr := s.lc.respAddr, lc.runLen := s.lc.respLen } 2
  else s

def execLcRespCommit (s : State) : Host.Outcome State Fault Refusal :=
  .next (whenClocked .lcRespCommit s fun s => opLcRespCommit (wake s 1))

/-- The keeper reads a response of the right length through the manager's windows (R401). -/
def readResponse (s : State) (e : ReadEnd) : Wrote × State :=
  if s.lc.runLen = 7347 then keeperRead s 0 s.lc.runAddr.toNat 7347 e else (.refused, s)

/-- The response that was read grants the request. -/
def responseOk (s : State) (resp : Bytes) : Bool :=
  let pk := slice resp 128 2592
  resp.length == 7347
    && resp.take 128 == s.lc.chal
    && sha384 pk == bvBe 48 Config.authKeyHash
    && dsaOk 0x53 pk (slice resp 2720 4627)
        (dsaMu (shake256 pk 64) (ascii "QHV1 DEBUG_AUTH" ++ [0] ++ resp.take 128))

/-- A grant of purpose DEBUG begins the substitution: step 1 of R216, with the open epoch closed under the
production alias (R277). -/
def grantDebug (s : State) : State :=
  let s := if s.wg.isOpen && s.wg.signer then closeEpoch s [] else s
  { s with lc.subst := some s.hv.tick, lc.substDue := false }

/-- The verification has its answer; the challenge is consumed. -/
def debugVerdict (s : State) (ok : Bool) : State :=
  let purpose := leAt s.lc.chal 5 1
  let s := { s with lc.chal := [], lc.chalOut := false }
  if !ok then sticky (setDbg { s with lc.fails := satAdd 4 s.lc.fails 1 } 4) 102 0
  else if purpose = 2 then setDbg { s with lc.rmaGrant := true } 3
  else grantDebug s

/-- The verification ends, unless its read still waits. -/
def opDebugAuthVerifyDone (read : ReadEnd) (resp : Bytes) (s : State) : State :=
  if s.lc.dbgState != 2 || s.lc.subst.isSome || !s.keeperOk then s
  else match readResponse s read with
    | (.waits, s) => s
    | (.issued, s) => debugVerdict s (read == .ok && responseOk s resp)
    | (_, s) => debugVerdict s false

def execDebugAuthVerifyDone (read : ReadEnd) (resp : Bytes) (s : State) : Host.Outcome State Fault Refusal :=
  .next (opDebugAuthVerifyDone read resp s)

/-! ## The substitution (R216) -/

/-- The job holds a reference to a production slot. -/
def holdsProduction (s : State) (j : Job) : Bool := j.stage != .ended && j.refs.any fun p => !(s.slot p).root

/-- 10 ms after the grant, jobs that hold production keys end. -/
def opSubstitutionRefDeadline (s : State) : State :=
  match s.lc.subst with
  | none => s
  | some t =>
    if s.lc.substDue || s.hv.tick < t + 12000000 then s
    else
      let s := { s with lc.substDue := true }
      s.each (s.jobsWith (holdsProduction s)) fun s id => forceEnd s id stOrphaned 0x03

def execSubstitutionRefDeadline (s : State) : Host.Outcome State Fault Refusal :=
  .next (onClock s.hv.kclk s opSubstitutionRefDeadline)

/-- No reference to a production slot remains: the key store zeroises, and the records in the persistent
store are kept. -/
def opSubstitutionZeroise (s : State) : State :=
  if s.lc.subst.isNone || s.ks.zeroising.isSome || !(s.jobsWith (holdsProduction s)).isEmpty then s
  else zeroise { s with wg.signer := false, wg.aliasKey := none } .substitution false

def execSubstitutionZeroise (s : State) : Host.Outcome State Fault Refusal :=
  .next (onClock s.hv.kclk s opSubstitutionZeroise)

end Sys2Proof.Machine
end

