-- ==== Sys2Proof/Machine/Power.lean ====
section
/-! DEFINITION. Retention sleep: the request, entry, and the wake causes (R445 to R447). -/

namespace Sys2Proof.Machine

/-! ## Entry (R445, R447) -/

/-- A write of ENTER to HV_SLEEP. Without the key, and while the Hive is not AWAKE, it is an access like any
other. -/
def opHvSleepEnter (key : Byte) (s : State) : State :=
  if s.hv.pwr = 0 && !s.presented then s
  else if s.hv.pwr != 0 || key != 0xA5 then wake s 1
  else judgeEnter s

def execHvSleepEnter (key : Byte) (s : State) : Host.Outcome State Fault Refusal := .next (opHvSleepEnter key s)

/-- A comb takes mode SLEEP and remembers the mode it held; its island loses its caches (R426). -/
def combSleep (s : State) (c : Nat) : State :=
  let m := (s.comb c).mode
  combSync ({ s with hv.modes := tblPut s.hv.modes c m }.modComb c fun b => { b with mode := 4, cache := [] }) c

/-- The steps of entry end. A job that was dispatched meanwhile ends first. -/
def opSleepEntryDone (s : State) : State :=
  if s.hv.pwr != 1 || !(s.jobsWith Job.live).isEmpty then s
  else
    let s := retireAll s
    let s := s.each (List.range combCount) combSleep
    { s with hv := { s.hv with
      cclk := false, kclk := false, xclk := false, wakeNext := 0
      pwr := if s.hv.wakeNext = 0 then 2 else 3
      wakeCause := if s.hv.wakeNext = 0 then s.hv.wakeCause else s.hv.wakeNext } }

def execSleepEntryDone (s : State) : Host.Outcome State Fault Refusal := .next (opSleepEntryDone s)

/-! ## Wake causes (R446) -/

/-- A write of WAKE to HV_SLEEP. Without the key it is an access like any other. -/
def opHvSleepWake (key : Byte) (s : State) : State := wake s (if key = 0xA5 then 7 else 1)

def execHvSleepWake (key : Byte) (s : State) : Host.Outcome State Fault Refusal := .next (opHvSleepWake key s)

/-- A wake cause arrives. -/
def opSleepWake (cause : Nat) (s : State) : State := if 1 ≤ cause && cause ≤ 8 then wake s cause else s

def execSleepWake (cause : Nat) (s : State) : Host.Outcome State Fault Refusal := .next (opSleepWake cause s)

/-! ## Waking -/

/-- A comb returns to the mode it held, and its DRBG is instantiated again (R158, R426). -/
def combWake (s : State) (c : Nat) : State :=
  let m := tblGet 1 s.hv.modes c
  let s := combSync (s.modComb c fun b => { b with mode := m }) c
  if s.ks.zeroising.isSome then s else drbgInit s c

/-- The clocks, the combs and the keeper are back; what a tamper response left for the clocks comes first (R407). -/
def awaken (s : State) : State :=
  let s := zeroRest { s with hv := { s.hv with cclk := true, kclk := true, xclk := true, pwr := 0 } }
  let s := s.each (List.range combCount) combWake
  keeperBack { s with hv.modes := [] }

end Sys2Proof.Machine
end

