-- ==== Sys2Proof/Machine/Commits.lean ====
section
/-! DEFINITION. The commit groups of queues, completion rings, logs, classes, the time base and receipts, and
the writes that select their targets (R73, R74, R131, R280, R281, R362, R457, R458). -/

namespace Sys2Proof.Machine

/-- The tenant register block of a client answers (R285, R337, R338, R362). -/
def blockOpen (s : State) (c : Nat) : Bool := s.hv.ready && isClient c && s.exists_ c && fnReachable s c

/-! ## Queue configuration (R73) -/

/-- A write of TN_QCFG_SEL. -/
def opTnQcfgSelWrite (c : Nat) (v : W32) (s : State) : State :=
  if !blockOpen s c then s
  else
    let q := bits v.toNat 14 0
    let g := (s.queue c q).cfg
    s.modTenant c fun t => { t with qcfgSel := q, qcfgSh := g }

def execTnQcfgSelWrite (client : Nat) (v : W32) (s : State) : Host.Outcome State Fault Refusal :=
  .next (whenClocked (.tnQcfgSelWrite client v) s fun s => opTnQcfgSelWrite client v (wake s 1))

/-- The queues of a client, DISABLED ones among them and released ones not, whose configuration binds them to a ring
(R62). -/
def boundTo (s : State) (c r : Nat) : List Nat :=
  (s.queuesOf c).filter fun q => s.hasQueue c q && (s.queue c q).cfg.crEn && (s.queue c q).cfg.crId == r

/-- The first reason for refusing a queue configuration, in the order 2, 1, 3, 4, 5; 0 where none holds. A
peer client has no completion rings. -/
def qcfgIssue (s : State) (c q : Nat) (g : QCfg) : Nat :=
  if (s.tenant c).queues ≤ q then 2
  else if (s.queue c q).state != .disabled then 1
  else if g.sizeLog2 < 6 || 16 < g.sizeLog2 then 3
  else if g.hmirror = 0 then 4
  else if g.crEn && (!isFn c || !(s.ring c g.crId).enable
      || 64 ≤ ((boundTo s c g.crId).filter (· != q)).length) then 5
  else 0

/-- A write of TN_QCFG_COMMIT. What a DISABLED queue still owes its client stays due (R61, R65). -/
def opTnQcfgCommit (c : Nat) (s : State) : State :=
  if !blockOpen s c then s
  else
    let q := (s.tenant c).qcfgSel
    let g := (s.tenant c).qcfgSh
    let r := qcfgIssue s c q g
    let s := s.modTenant c fun t => { t with qcfgReason := r }
    if r = 0 then s.modQueue c q fun u => { u with cfg := g } else s

def execTnQcfgCommit (client : Nat) (s : State) : Host.Outcome State Fault Refusal :=
  .next (whenClocked (.tnQcfgCommit client) s fun s => opTnQcfgCommit client (wake s 1))

/-! ## Completion rings (R74) -/

/-- TN_CR_CTRL of a ring. -/
def CrRing.ctrl (r : CrRing) : W32 := BitVec.ofNat 32 (r.sizeLog2 + flagBit r.enable 8 + r.vec * 512)

/-- A write of TN_CR_SEL. -/
def opTnCrSelWrite (c : Nat) (v : W32) (s : State) : State :=
  if !blockOpen s c || !isFn c then s
  else
    let r := bits v.toNat 8 0
    let g := s.ring c r
    s.modTenant c fun t => { t with crSel := r, crShBase := g.base, crShCtrl := g.ctrl }

def execTnCrSelWrite (client : Nat) (v : W32) (s : State) : Host.Outcome State Fault Refusal :=
  .next (whenClocked (.tnCrSelWrite client v) s fun s => opTnCrSelWrite client v (wake s 1))

/-- A ring that is to be used has 64 to 65,536 records, and no bound queue may be in use. -/
def crRefuses (s : State) (c r : Nat) (ctrl : W32) : Bool :=
  let n := bits ctrl.toNat 4 0
  !(boundQueues s c r).isEmpty || (ctrl.getLsbD 8 && (decide (n < 6) || decide (16 < n)))

/-- A write of TN_CR_COMMIT. The space that TAIL and CONS 0 give goes to the records still pending, and with none the
ring is in direct mode (R65). -/
def opTnCrCommit (c : Nat) (s : State) : State :=
  if !blockOpen s c || !isFn c then s
  else
    let t := s.tenant c
    if crRefuses s c t.crSel t.crShCtrl then s.modTenant c fun t => { t with crRefused := true }
    else
      let w := t.crShCtrl
      let s := s.modTenant c fun t => { t with crRefused := false }
      let s := s.modRing c t.crSel fun g =>
        let g := { g with
          base := t.crShBase, sizeLog2 := bits w.toNat 4 0, enable := w.getLsbD 8, vec := bits w.toNat 19 9 }
        if g.enable then { g with tail := 0, cons := 0 } else g
      if w.getLsbD 8 then replayRing s c t.crSel 65 else s

def execTnCrCommit (client : Nat) (s : State) : Host.Outcome State Fault Refusal :=
  .next (whenClocked (.tnCrCommit client) s fun s => opTnCrCommit client (wake s 1))

/-! ## Receipt logs (R281, R362) -/

/-- A write of TN_RLOG_COMMIT. The log of a peer client is the manager's to configure. -/
def opTnRlogCommit (c : Nat) (s : State) : State :=
  if !blockOpen s c || !isFn c then s
  else s.modTenant c fun t => { t with rlog := t.rlog.commit 2 16 }

def execTnRlogCommit (client : Nat) (s : State) : Host.Outcome State Fault Refusal :=
  .next (whenClocked (.tnRlogCommit client) s fun s => opTnRlogCommit client (wake s 1))

/-! ## Classes (R131) -/

/-- Slices from 2¹² to 2²⁰ bytes and a cap of at most 256. -/
def SchCfg.ok (g : SchCfg) : Bool := (g.slice.all fun n => 12 ≤ n && n ≤ 20) && g.cap ≤ 256

/-- A write of SCH_COMMIT. -/
def opSchCommit (s : State) : State :=
  if !s.hv.ready then s
  else if s.sch.shadow.ok then { s with sch.waiting := some s.sch.shadow, sch.refused := false }
  else { s with sch.refused := true }

def execSchCommit (s : State) : Host.Outcome State Fault Refusal :=
  .next (whenClocked .schCommit s fun s => opSchCommit (wake s 1))

/-! ## The waggle unit (R280) -/

/-- A write of WG_SYNC_COMMIT. -/
def opWgSyncCommit (s : State) : State :=
  if !s.hv.ready then s
  else if s.sync.shadow.ok then { s with sync.waiting := some s.sync.shadow, sync.refused := false }
  else { s with sync.refused := true }

def execWgSyncCommit (s : State) : Host.Outcome State Fault Refusal :=
  .next (whenClocked .wgSyncCommit s fun s => opWgSyncCommit (wake s 1))

/-- A write of WG_MLOG_COMMIT. -/
def opWgMlogCommit (s : State) : State :=
  if s.hv.ready then { s with wg.mlog := s.wg.mlog.commit 4 16 } else s

def execWgMlogCommit (s : State) : Host.Outcome State Fault Refusal :=
  .next (whenClocked .wgMlogCommit s fun s => opWgMlogCommit (wake s 1))

/-- A write of WG_TSEL. -/
def opWgTselWrite (v : W32) (s : State) : State :=
  if !s.hv.ready then s
  else
    let c := bits v.toNat 12 0
    let t := s.tenant c
    { s with wg.tsel := c, wg.tcfgSh := t.wgT, wg.plogSh := if isFn c then {} else t.rlog.cfg }

def execWgTselWrite (v : W32) (s : State) : Host.Outcome State Fault Refusal :=
  .next (whenClocked (.wgTselWrite v) s fun s => opWgTselWrite v (wake s 1))

/-- A write of WG_TCOMMIT. PEND_MAX lies from 1 to 16,384, and a peer client's log follows the log rules. -/
def opWgTcommit (s : State) : State :=
  if !s.hv.ready then s
  else
    let c := s.wg.tsel
    let g := s.wg.tcfgSh
    let r := ({ (s.tenant c).rlog with shadow := s.wg.plogSh }).commit 2 16
    let peer := !isFn c
    if !isClient c || g.pendMax = 0 || 16384 < g.pendMax || (peer && r.refused) then { s with wg.tRefused := true }
    else
      let s := { s with wg.tRefused := false }
      refreshPending (s.modTenant c fun t => { t with wgT := g, rlog := if peer then r else t.rlog })

def execWgTcommit (s : State) : Host.Outcome State Fault Refusal :=
  .next (whenClocked .wgTcommit s fun s => opWgTcommit (wake s 1))

end Sys2Proof.Machine
end

