-- ==== Sys2Proof/Machine/Events.lean ====
section
/-! DEFINITION. The event log, the pending bits, the routes and the sticky record as the manager and the
Hive act on them (R415, R416, R419, R420, R422). -/

namespace Sys2Proof.Machine

/-! ## The event log (R419, R420) -/

/-- An event record; its index is written with it. -/
def evBytes (src : Nat) (r : EvRec) (replay : Bool) : Bytes :=
  zeros 4 ++ natLe 2 src ++ [BitVec.ofNat 8 (flagBit (1 < r.count) 0 + flagBit replay 1), 0] ++ natLe 4 r.count
    ++ bvLe 4 r.info ++ natLe 10 r.time ++ zeros 6

/-- The record of a source is written, and its vector is signalled after it. A refused write loses the
record (R302). -/
def evWrite (s : State) (src : Nat) : Wrote × State :=
  let r := tblGet {} s.ev.recs src
  let w := logTry s 0 s.ev.log (evBytes src r s.ev.mode)
  match w.1 with
  | .waits => (.waits, w.2.1)
  | k =>
    let t := { w.2.1 with ev.log := w.2.2, ev.recs := tblErase w.2.1.ev.recs src }
    (k, if r.signal then signalVec t 0 (t.route src).vec else t)

/-- The source served next in overflow: ascending, after the last one served. -/
def evNext (s : State) : Option Nat :=
  let l := tblKeys s.ev.recs
  match l.find? fun x => s.ev.lastServed ≤ x with
  | some x => some x
  | none => l.head?

/-- Waiting records are written with REPLAY while space lasts; with none waiting the log is normal
again. -/
def evReplay (s : State) : Nat → State
  | 0 => s
  | fuel + 1 =>
    if !s.ev.mode then s
    else match evNext s with
      | none => { s with ev.mode := false }
      | some x =>
        let w := evWrite s x
        match w.1 with
        | .waits => w.2
        | _ => evReplay { w.2 with ev.lastServed := x + 1 } fuel

/-- The record of a source is due. -/
def opEventRecordWrite (src : Nat) (s : State) : State :=
  if !s.ev.log.cfg.en || (tblGet {} s.ev.recs src).count = 0 then s
  else if s.ev.mode then evReplay s 513
  else if s.ev.log.full then sticky { s with ev.mode := true, ev.overflow := true } 104 0
  else (evWrite s src).2

def execEventRecordWrite (source : Nat) (s : State) : Host.Outcome State Fault Refusal :=
  .next (onClock s.hv.fclk s (opEventRecordWrite source))

/-- A write of EV_LOG_CONS (R64, R420). A log out of use takes no record (R280). -/
def opEvLogConsWrite (v : W32) (s : State) : State :=
  if !s.presented then s
  else
    let s := { s with ev.log := s.ev.log.consume v }
    if s.ev.log.cfg.en then evReplay s 513 else s

def execEvLogConsWrite (v : W32) (s : State) : Host.Outcome State Fault Refusal :=
  .next (whenClocked (.evLogConsWrite v) s fun s => opEvLogConsWrite v (wake s 1))

/-- The signals that waiting records owe are sent at once. -/
def signalWaiting (s : State) : State :=
  let l := (s.ev.recs.filter fun e => e.2.signal).map (·.1)
  let s := { s with ev.recs := tblMap {} (fun _ r => { r with signal := false }) s.ev.recs }
  s.each l fun s src => signalVec s 0 (s.route src).vec

/-- A write of EV_LOG_COMMIT (R419). With a log that leaves use no record is written: what waits is signalled, and
keeps its count of raises until the log is in use again (R416, R420). -/
def opEvLogCommit (s : State) : State :=
  if !s.presented then s
  else
    let l := s.ev.log.commit 7 16
    let s' := { s with ev.log := l }
    if s.ev.log.cfg.en && !l.cfg.en then signalWaiting s' else s'

def execEvLogCommit (s : State) : Host.Outcome State Fault Refusal :=
  .next (whenClocked .evLogCommit s fun s => opEvLogCommit (wake s 1))

/-! ## Pending bits and routes (R415, R416) -/

/-- A set pending bit signals as a new change from 0 to 1. -/
def resignal (src : Nat) (s : State) : State :=
  let r := s.route src
  if !r.en then s
  else
    let e := tblGet {} s.ev.recs src
    if r.log && s.ev.log.cfg.en && e.count != 0 then
      { s with ev.recs := tblSet {} s.ev.recs src { e with signal := true } }
    else signalVec s 0 r.vec

/-- A W1C write of EV_PENDi. `raised` names the sources raised in the same FCLK cycle: their bits stay set, and
each raise counts as a new one. -/
def opEvPendClear (i : Nat) (mask raised : W32) (s : State) : State :=
  if !s.presented then s
  else
    let stay := (List.range 32).filter fun b =>
      mask.getLsbD b && raised.getLsbD b && s.ev.pend.getLsbD (32 * i + b)
    let clear : BitVec 512 := (mask &&& ~~~raised).setWidth 512 <<< (32 * i)
    ({ s with ev.pend := s.ev.pend &&& ~~~clear }).each stay fun s b => resignal (32 * i + b) s

def execEvPendClear (i : Nat) (mask raised : W32) (s : State) : Host.Outcome State Fault Refusal :=
  .next (whenClocked (.evPendClear i mask raised) s fun s => opEvPendClear i mask raised (wake s 1))

/-- A write of EV_ROUTE for the selected source. -/
def opEvRouteWrite (v : W32) (s : State) : State :=
  if !s.presented then s
  else
    let src := s.ev.routeSel
    let old := s.route src
    let r : Route := { en := v.getLsbD 0, log := v.getLsbD 1, vec := bits v.toNat 12 2 }
    let s := { s with ev.routes := tblSet {} s.ev.routes src r }
    if r.en && !old.en && s.ev.pend.getLsbD src then signalVec s 0 r.vec else s

def execEvRouteWrite (v : W32) (s : State) : Host.Outcome State Fault Refusal :=
  .next (whenClocked (.evRouteWrite v) s fun s => opEvRouteWrite v (wake s 1))

/-! ## The sticky record (R422) -/

/-- A W1C write of ST_RECi. -/
def opStickyClear (i : Nat) (mask : W32) (s : State) : State :=
  if s.presented then stickyDrop s (mask.setWidth 256 <<< (32 * i)) else s

def execStickyClear (i : Nat) (mask : W32) (s : State) : Host.Outcome State Fault Refusal :=
  .next (whenClocked (.stickyClear i mask) s fun s => opStickyClear i mask (wake s 1))

end Sys2Proof.Machine
end

