-- ==== Sys2Proof/Machine/Mctp.lean ====
section
/-! DEFINITION. The keeper's MCTP endpoint (R427, R428). A control response is its command code, its
completion code and the fields of DSP0236 that R427 fixes; the remaining fields are free bytes. -/

namespace Sys2Proof.Machine

/-- The keeper answers MCTP messages now. -/
def mctpOpen (s : State) : Bool := s.hv.ready && s.ev.mctpEn && !s.rom && s.keeperOk

/-- An MCTP message arrives: it wakes the Hive, and without an endpoint it goes unanswered. -/
def mctpMessage (i : Instr) (s : State) (k : State → State) : State :=
  whenAwakeBy 3 i s fun s => if mctpOpen s then k s else s

/-! ## Control messages (R427) -/

/-- A control response; it fits one transmission unit of 64 bytes. -/
def mctpControl (s : State) (cmd code : Nat) (b : Bytes) : State :=
  { s with freeN := s.freeN + 1 }.emit [.mctp (([0, BitVec.ofNat 8 cmd, BitVec.ofNat 8 code] ++ b).take 64)]

/-- The next free response bytes. -/
def mctpFree (s : State) : Bytes := Config.mctpBody s.freeN

/-- EID 0x00 and 0xFF are not endpoint identifiers. -/
def answerSetEid (eid : BitVec 8) (s : State) : State :=
  if eid = 0 || eid = 0xFF then mctpControl s 1 2 []
  else mctpControl { s with doe.eid := eid } 1 0 ([0, eid] ++ mctpFree s)

def answerGetEid (s : State) : State := mctpControl s 2 0 ([s.doe.eid] ++ mctpFree s)

/-- Version 1.3 for the base specification and the control messages; the version of type 0x7E is free. -/
def answerMctpVersion (msgType : BitVec 8) (s : State) : State :=
  if msgType = 0xFF || msgType = 0 then mctpControl s 4 0 [1, 0xF1, 0xF3, 0xFF, 0x00]
  else if msgType = 0x7E then mctpControl s 4 0 ([1] ++ fit (mctpFree s) 4)
  else mctpControl s 4 0x80 []

def answerMessageTypes (s : State) : State := mctpControl s 5 0 [1, 0x7E]

/-- One vendor: Claelmen's PCI Vendor ID. -/
def answerVendors (selector : Nat) (s : State) : State :=
  if selector = 0 then mctpControl s 6 0 ([0xFF, 0] ++ bvBe 2 Config.vendorId ++ fit (mctpFree s) 2)
  else mctpControl s 6 2 []

def execSetEndpointId (eid : BitVec 8) (s : State) : Host.Outcome State Fault Refusal :=
  .next (mctpMessage (.setEndpointId eid) s (answerSetEid eid))

def execGetEndpointId (s : State) : Host.Outcome State Fault Refusal :=
  .next (mctpMessage .getEndpointId s answerGetEid)

def execGetMctpVersionSupport (msgType : BitVec 8) (s : State) : Host.Outcome State Fault Refusal :=
  .next (mctpMessage (.getMctpVersionSupport msgType) s (answerMctpVersion msgType))

def execGetMessageTypeSupport (s : State) : Host.Outcome State Fault Refusal :=
  .next (mctpMessage .getMessageTypeSupport s answerMessageTypes)

def execGetVendorDefinedMessageSupport (selector : Nat) (s : State) : Host.Outcome State Fault Refusal :=
  .next (mctpMessage (.getVendorDefinedMessageSupport selector) s (answerVendors selector))

/-! ## Data messages (R428) -/

def mctpSend (s : State) (cmd : Nat) (inst : Byte) (code : Byte) (data : Bytes) : State :=
  s.emit [.mctp (mctpData cmd inst code data)]

/-- The state word of a comb, a pool queue or a client, none where it is absent. -/
def stateWord (s : State) (kind index : Nat) : Option W32 :=
  match kind with
  | 1 => if index < combCount then some (s.combWord index) else none
  | 2 => (poolOwner s index).map fun _ => poolStatus s index
  | 3 => if isClient index && s.exists_ index then some (s.tenant index).word else none
  | _ => none

def answerReadState (inst : Byte) (kind index : Nat) (s : State) : State :=
  match stateWord s kind index with
  | some w => mctpSend s 1 inst 0 (bvLe 4 w)
  | none => mctpSend s 1 inst 3 []

def answerCombCmd (inst : Byte) (comb : Nat) (word : W32) (s : State) : State :=
  if !s.ev.mctpWr then mctpSend s 2 inst 4 []
  else if combCount ≤ comb then mctpSend s 2 inst 3 []
  else
    let op := bits word.toNat 3 0
    let r : Nat × State :=
      if op = 0 then (0, s) else combCommand s comb op (BitVec.ofNat 16 (word.toNat / 65536))
    mctpSend r.2 2 inst (BitVec.ofNat 8 r.1) (bvLe 4 (r.2.combWord comb))

/-- A command that is accepted is answered after its acknowledgement. -/
def answerQueueCmd (inst : Byte) (pool : Nat) (word : W64) (s : State) : State :=
  if !s.ev.mctpWr then mctpSend s 3 inst 4 []
  else match poolOwner s pool with
    | none => mctpSend s 3 inst 3 []
    | some (c, q) =>
      if (s.queue c q).cmd.isSome then mctpSend s 3 inst 5 (bvLe 4 (poolStatus s pool))
      else
        let s := opQCmdReserved c q word .mctp s
        if (s.queue c q).cmd.isSome then { s with doe.waits := s.doe.waits ++ [(inst, pool)] }
        else
          let r := if bits word.toNat 3 0 = 0 then 0 else (s.queue c q).cmdResult
          mctpSend s 3 inst (if r = 2 then 1 else if r = 3 then 2 else 0) (bvLe 4 (poolStatus s pool))

def answerReadSticky (inst : Byte) (s : State) : State := mctpSend s 4 inst 0 (stickyBytes s)

def answerClearSticky (inst : Byte) (mask : BitVec 256) (s : State) : State :=
  if !s.ev.mctpWr then mctpSend s 5 inst 4 []
  else
    let s := stickyDrop s mask
    mctpSend s 5 inst 0 (stickyBytes s)

def execReadState (inst : Byte) (kind index : Nat) (s : State) : Host.Outcome State Fault Refusal :=
  .next (mctpMessage (.readState inst kind index) s (answerReadState inst kind index))

def execCombCmd (inst : Byte) (comb : Nat) (word : W32) (s : State) : Host.Outcome State Fault Refusal :=
  .next (mctpMessage (.combCmd inst comb word) s (answerCombCmd inst comb word))

def execQueueCmd (inst : Byte) (pool : Nat) (word : W64) (s : State) : Host.Outcome State Fault Refusal :=
  .next (mctpMessage (.queueCmd inst pool word) s (answerQueueCmd inst pool word))

def execReadSticky (inst : Byte) (s : State) : Host.Outcome State Fault Refusal :=
  .next (mctpMessage (.readSticky inst) s (answerReadSticky inst))

def execClearSticky (inst : Byte) (mask : BitVec 256) (s : State) : Host.Outcome State Fault Refusal :=
  .next (mctpMessage (.clearSticky inst mask) s (answerClearSticky inst mask))

end Sys2Proof.Machine
end

