-- ==== Sys2Proof/Machine/Map.lean ====
section
/-! DEFINITION. Where an inbound access lands: the map of PF0 BAR0, the per-function spaces, the window
translation table, the debug port and configuration space (R319 to R328, R337, R338, R362, R370, R390, R452 to
R454). -/

namespace Sys2Proof.Machine

/-- A space of registers, each with offsets of its own. -/
inductive Space where
  | hv | cf | ps | hi | ev | lc | tp | ks | pp | wg | pi | sch | ctx | adm | dmaw
  | cb (comb : Nat)
  | tn (client : Nat)
  | qs (pool : Nat)
  | page (client q : Nat)
  | block (client : Nat)
  | msix (client : Nat)
  | pba (client : Nat)
  | disc | doe
  | config (fn : Nat)
  /-- nothing answers: reads return 0 and writes are discarded -/
  | void
deriving DecidableEq, Repr

/-- A space and an offset in it. -/
abbrev Place := Space × Nat

/-- Where an access lands, whether writes are let through, whether it was unmapped (R326), and whether it was completed
with Request Retry Status (R338, R369). -/
structure Landing where
  place    : Place := (.void, 0)
  ro       : Bool := false
  unmapped : Bool := false
  retry    : Bool := false
deriving DecidableEq, Repr

/-! ## PF0 BAR0 (R452, R453) -/

/-- The place of an offset of the PF0 BAR0 map. -/
def mapPf0 (o : Nat) : Place :=
  if o < 0x1000 then (.hv, o)
  else if o < 0x2000 then (.cf, o - 0x1000)
  else if o < 0x3000 then (.ps, o - 0x2000)
  else if o < 0x10000 then (.void, o)
  else if o < 0x20000 then (.hi, o - 0x10000)
  else if o < 0x30000 then (.ev, o - 0x20000)
  else if o < 0x38000 then (.lc, o - 0x30000)
  else if o < 0x40000 then (.tp, o - 0x38000)
  else if o < 0x48000 then (.ks, o - 0x40000)
  else if o < 0x50000 then (.pp, o - 0x48000)
  else if o < 0x60000 then (.wg, o - 0x50000)
  else if o < 0x70000 then (.pi, o - 0x60000)
  else if o < 0x78000 then (.sch, o - 0x70000)
  else if o < 0x80000 then (.ctx, o - 0x78000)
  else if o < 0x100000 then (.void, o)
  else if o < 0x200000 then (.cb ((o - 0x100000) / 0x4000), o % 0x4000)
  else if o < 0x300000 then (.tn ((o - 0x200000) / 0x100), o % 0x100)
  else if o < 0x304000 then (.tn (4096 + (o - 0x300000) / 0x100), o % 0x100)
  else if o < 0x308000 then (.void, o)
  else if o < 0x309000 then (.adm, o - 0x308000)
  else if o < 0x30A000 then (.dmaw, o - 0x309000)
  else if o < 0x400000 then (.void, o)
  else if o < 0xC00000 then (.page 0 ((o - 0x400000) / 0x200), o % 0x200)
  else if o < 0x1000000 then (.void, o)
  else if o < 0x2000000 then (.qs ((o - 0x1000000) / 0x40), o % 0x40)
  else (.void, o)

/-- The place of an offset of PF0 BAR2 (R323). -/
def mapBar2 (o : Nat) : Place :=
  if o < 0x1000 then (.block 0, o)
  else if o < 0x2000 then (.pba 0, o - 0x1000)
  else if o < 0x8000 then (.void, o)
  else if o < 0x10000 then (.msix 0, o - 0x8000)
  else (.void, o)

/-- What the debug port reaches: every register of the manager's BARs, BAR2 numbered on from BAR0 (R390; the numbering
is a DESIGN CHOICE, log 77). -/
def mapDebug (o : Nat) : Place := if o < 0x2000000 then mapPf0 o else mapBar2 (o - 0x2000000)

/-! ## The window translation table (R325, R326) -/

def Wtt.base (w : Wtt) : Nat := w.mat.toNat / 4096 * 4096
def Wtt.size (w : Wtt) : Nat := 2 ^ (12 + bits w.mat.toNat 11 8)
def Wtt.client (w : Wtt) : Nat := bits w.target.toNat 28 16

/-- An entry matches an access of a function to a BAR at byte `a`. -/
def Wtt.hitsBar (w : Wtt) (fn bar a : Nat) : Bool :=
  w.mat.getLsbD 0 && !w.mat.getLsbD 1 && bits w.mat.toNat 3 2 == (if fn = 0 then 0 else 1)
    && bits w.mat.toNat 4 4 == bar && w.base ≤ a && a < w.base + w.size

/-- An entry matches a fabric access at byte `a`. -/
def Wtt.hitsFabric (w : Wtt) (a : Nat) : Bool :=
  w.mat.getLsbD 0 && w.mat.getLsbD 1 && w.base ≤ a && a < w.base + w.size

/-- The source check of a fabric entry. -/
def Wtt.admits (w : Wtt) (src : Nat) : Bool :=
  (src &&& bits w.target.toNat 63 48) == bits w.target.toNat 47 32

/-- The size of the region of a KIND, 0 for none. -/
def kindSize (k : Nat) : Nat :=
  match k with
  | 1 => 0x2000000
  | 2 => 0x800000
  | 3 => 0x1000
  | 4 => 0x8000
  | 5 => 0x1000
  | 6 => 0x1000
  | 7 => 0x1000
  | _ => 0

/-- The KIND is allowed where the entry stands. -/
def kindAllowed (s : State) (k : Nat) (fabric : Bool) (c : Nat) : Bool :=
  match k with
  | 1 => if fabric then s.rom && c == 0 else c == 0
  | 2 => true
  | 3 => true
  | 4 => isFn c
  | 5 => isFn c
  | 6 => fabric && s.rom
  | 7 => fabric && s.rom && c == 0
  | _ => false

/-- The place of an offset in a region. -/
def inRegion (k c o : Nat) : Place :=
  match k with
  | 1 => mapPf0 o
  | 2 => (.page c (o / 0x200), o % 0x200)
  | 3 => (.block c, o)
  | 4 => (.msix c, o)
  | 5 => (.pba c, o)
  | 6 => (.disc, o)
  | 7 => (.doe, o)
  | _ => (.void, o)

/-- What an entry makes of an access of `n` bytes at `a` for a client. -/
def Wtt.land (s : State) (w : Wtt) (fabric : Bool) (c a n : Nat) : Landing :=
  let k := bits w.target.toNat 3 0
  let o := w.offset.toNat / 4096 * 4096 + (a - w.base)
  if !kindAllowed s k fabric c || w.base + w.size < a + n || kindSize k < o + n then { unmapped := true }
  else { place := inRegion k c o, ro := w.target.getLsbD 4 || k == 6 }

/-- The entries of a bank, in ascending order. -/
def wttList (s : State) (old : Bool) : List Wtt :=
  (if s.hi.wttActive != old then s.hi.wttB else s.hi.wttA).map (·.2)

/-! ## Accesses -/

/-- A function's memory answers: not in FLR, for a VF, nor in D3hot (R337, R338). An FLR of PF0 closes the
regions of client 0 alone. -/
def memoryOpen (s : State) (fn : Nat) : Bool :=
  fnPresent s fn && !(s.func fn).d3hot && (fn == 0 || (s.func fn).flr == 0)

/-- Where an access of `n` bytes lands; `old` asks for the bank that is not active. -/
def landing (s : State) (old : Bool) (acc : Access) (n : Nat) : Landing :=
  match acc with
  | .debug o => if s.lc.debugOpen then { place := mapDebug o } else {}
  | .config fn o =>
    if !s.presented || (isFn fn && (s.func fn).flr != 0) then { retry := !s.rom }
    else if fnPresent s fn && !s.rom then { place := (.config fn, o) }
    else {}
  | .endpoint fn bar a =>
    if s.rom || !memoryOpen s fn then {}
    else match (wttList s old).find? fun w => w.hitsBar fn bar a with
      | some w => w.land s false fn a n
      | none => { unmapped := true }
  | .fabric src a =>
    if !s.presented then { unmapped := true }
    else if s.hv.recovery then
      if Config.apertureBase ≤ a && a + n ≤ Config.apertureBase + 0x2000000 then
        { place := mapPf0 (a - Config.apertureBase) }
      else { unmapped := true }
    else match (wttList s old).find? fun w => w.hitsFabric a with
      | some w =>
        if !w.admits src then { unmapped := true }
        else if isFn w.client && (s.func w.client).d3hot then {}
        else w.land s true w.client a n
      | none => { unmapped := true }

/-- The space answers: in recovery mode, and before start-up has ended, only the HV, CF, EV, LC and TP blocks
do (R370, R452). -/
def spaceOpen (s : State) (sp : Space) : Bool :=
  match sp with
  | .hv => true
  | .cf => true
  | .ev => true
  | .lc => true
  | .tp => true
  | .config _ => true
  | .doe => true
  | .void => false
  | .cb c => s.hv.ready && c < combCount
  | .page c q => s.hv.ready && pageOpen s c q
  | .block c => blockOpen s c || (s.hv.ready && isClient c && !s.exists_ c && fnReachable s c)
  | .msix c => s.hv.ready && isFn c && fnReachable s c
  | .pba c => s.hv.ready && isFn c && fnReachable s c
  | _ => s.hv.ready

/-- The landing of an access, in a space that answers. -/
def lands (s : State) (old : Bool) (acc : Access) (n : Nat) : Landing :=
  let l := landing s old acc n
  if spaceOpen s l.place.1 then l else { l with place := (.void, l.place.2) }

/-- An unmapped access is counted (R326), once the endpoint has its clock. -/
def countUnmapped (s : State) (l : Landing) : State :=
  let s := { s with retry := l.retry }
  if l.unmapped && s.hv.fclk then { s with hi.unmapped := satAdd 0xFFFFFFFF s.hi.unmapped 1 } else s

/-! ## Properties of a place -/

/-- The accesses that sleep holds: the KS, PP and CB blocks, and mailbox registers (R463). -/
def heldPlace (p : Place) : Bool :=
  match p.1 with
  | .ks => true
  | .pp => true
  | .cb _ => true
  | .block c => isFn c && 0x200 ≤ p.2 && p.2 < 0x238
  | _ => false

/-- The wake cause of an access (R446): none for a read of HV_PWR_STATUS, nor for an access through the debug port, 3
for a configuration request. -/
def causeOf (acc : Access) (p : Place) (read : Bool) : Option Nat :=
  match acc with
  | .config _ _ => some 3
  | .debug _ => none
  | _ => if read && p.1 == .hv && p.2 / 4 == 0x11 then none else some 1

/-- The 64-bit registers (R455), by the offset of their lower half. -/
def is64 (p : Place) : Bool :=
  match p.1 with
  | .cf => p.2 == 0x10
  | .hi => p.2 == 0x88 || p.2 == 0x90
  | .ev => p.2 == 0x60 || p.2 == 0x128
  | .lc => p.2 == 0x100
  | .tp => p.2 == 0x18
  | .ks => p.2 == 0x48 || p.2 == 0x50 || p.2 == 0x88 || p.2 == 0x98
  | .pp => p.2 == 0x8
  | .wg => p.2 == 0x8 || p.2 == 0x58 || p.2 == 0x60 || p.2 == 0x68 || p.2 == 0x70 || p.2 == 0x80 || p.2 == 0xC8
  | .sch => p.2 == 0x20
  | .cb _ => p.2 == 0x408 || p.2 == 0x448
  | .dmaw => p.2 == 0x8 || p.2 == 0x10 || p.2 == 0x18
  | .qs _ => p.2 == 0x8
  | .page _ _ => p.2 == 0x1E0
  | .block c =>
    p.2 == 0x8 || p.2 == 0x10 || p.2 == 0x18 || p.2 == 0x80
      || (isFn c && (p.2 == 0x48 || p.2 == 0x200 || p.2 == 0x210 || p.2 == 0x220))
  | _ => false

/-- A number for each space, so that every register has one. -/
def spaceBase : Space → Nat
  | .hv => 0x0 | .cf => 0x1000 | .ps => 0x2000 | .hi => 0x10000 | .ev => 0x20000 | .lc => 0x30000
  | .tp => 0x38000 | .ks => 0x40000 | .pp => 0x48000 | .wg => 0x50000 | .pi => 0x60000 | .sch => 0x70000
  | .ctx => 0x78000 | .adm => 0x308000 | .dmaw => 0x309000
  | .cb c => 0x100000 + c * 0x4000
  | .tn c => if c < 4096 then 0x200000 + c * 0x100 else 0x300000 + (c - 4096) * 0x100
  | .qs n => 0x1000000 + n * 0x40
  | .page c q => 0x10000000000 + (c * 16384 + q) * 0x200
  | .block c => 0x20000000000 + c * 0x1000
  | .msix c => 0x30000000000 + c * 0x8000
  | .pba c => 0x40000000000 + c * 0x1000
  | .config c => 0x50000000000 + c * 0x1000
  | .disc => 0x60000000000
  | .doe => 0x60000001000
  | .void => 0x60000002000

/-- The number of a register. -/
def regKey (p : Place) : Nat := spaceBase p.1 + p.2

/-- The entry of a table of halves or latches. -/
def halfOf (l : List ((Requester × Nat) × W32)) (w : Requester) (k : Nat) : Option W32 :=
  (l.find? fun e => e.1 == (w, k)).map (·.2)

def dropHalf (l : List ((Requester × Nat) × W32)) (w : Requester) (k : Nat) : List ((Requester × Nat) × W32) :=
  l.filter fun e => e.1 != (w, k)

end Sys2Proof.Machine
end

