-- ==== Sys2Proof/Machine/Words.lean ====
section
/-! DEFINITION. What every register reads: the 32-bit word at each offset of each space (R315, R316, R320,
R321, R338, R339, R345, R365, R388, R411, R412, R430 to R432, R451, R455, R456 and the register tables of
the other chapters). -/

namespace Sys2Proof.Machine

/-- A word from a number. -/
def w32 (n : Nat) : W32 := BitVec.ofNat 32 n
def lo32 (v : W64) : W32 := w32 v.toNat
def hi32 (v : W64) : W32 := w32 (v.toNat / 2 ^ 32)

/-- The image has set its values: step 7 of start-up has ended (R456). -/
def imgUp (s : State) : Bool := 8 ≤ s.hv.step

/-! ## HV, CF, PS -/

/-- RAIL_OK: the domains within tolerance (R440). -/
def railWord (s : State) : Nat := (~~~(s.aon.high ||| s.aon.low ||| s.aon.outside)).toNat

def hvWord (s : State) (o : Nat) : W32 :=
  let h := s.hv
  match o with
  | 0x00 => hvBuild
  | 0x10 => w32 (flagBit h.rootLock 0 + flagBit h.cclk 1 + flagBit h.fclk 2 + flagBit h.kclk 3 + flagBit h.xclk 4
      + h.lockLoss * 256)
  | 0x20 => w32 (h.step + flagBit h.ready 8 + flagBit h.recovery 9 + flagBit h.tampered 10
      + flagBit h.keeperFail 11 + h.fail.toNat * 2 ^ 16 + flagBit h.warm 24)
  | 0x44 => w32 (h.pwr + h.refuse * 4 + railWord s * 256 + h.wakeCause * 2 ^ 16)
  | 0x48 => w32 (flagBit h.syncHold 0)
  | _ => 0

def cfWord (s : State) (o : Nat) : W32 :=
  let t := s.store
  match o with
  | 0x00 =>
    if imgUp s then w32 (t.active + t.cfSigner * 2 + t.aCheck * 16 + t.bCheck * 256 + s.otp.svnMin * 2 ^ 16
      + t.cfSvn % 128 * 2 ^ 24) else 0
  | 0x04 => if imgUp s then t.cfSeq else 0
  | 0x10 => lo32 t.updAddr
  | 0x14 => hi32 t.updAddr
  | 0x18 => w32 t.updLen
  | 0x20 => w32 (flagBit t.updBusy 0 + t.updPhase * 2 + t.updResult * 256 + t.updProgress * 4096)
  | _ => 0

/-- The highest SEQ of any record (R386). -/
def maxSeq (s : State) : Nat :=
  s.store.mram.foldl (fun m e =>
    let m := if e.2.okA e.1 then max m e.2.a.seq else m
    if e.2.okB e.1 then max m e.2.b.seq else m) 0

def psWord (s : State) (o : Nat) : W32 :=
  match o with
  | 0x0 => w32 (flagBit s.store.scanned 0 + flagBit s.store.damaged 1)
  | 0x4 => w32 (s.store.errDamaged + s.store.errKey * 2 ^ 16)
  | 0x8 => if imgUp s then w32 (maxSeq s) else 0
  | _ => 0

/-! ## HI -/

/-- The selected entry of the window translation table. -/
def wttSelected (s : State) : Wtt :=
  tblGet {} (if s.hi.wttSel.getLsbD 0 then s.hi.wttB else s.hi.wttA) (bits s.hi.wttSel.toNat 13 8)

def hiWord (s : State) (o : Nat) : W32 :=
  let h := s.hi
  match o with
  | 0x00 => w32 h.cfg.toNat
  | 0x04 => w32 (flagBit h.lock 0)
  | 0x08 => w32 h.cplTo
  | 0x0C => w32 h.fnMax
  | 0x10 =>
    let n := (hostReqs s).length
    w32 (n + max s.dma.peak n * 2 ^ 16)
  | 0x14 => w32 ((1048576 - s.cplUsed) / 1024)
  | 0x18 => w32 (h.timeouts + h.unexpected * 2 ^ 16)
  | 0x1C => w32 (h.cplErr + h.poisoned * 2 ^ 16)
  | 0x20 => w32 h.subword
  | 0x24 => w32 h.unmapped
  | 0x30 => w32 (h.idleUs + flagBit h.idle 31)
  | 0x34 => h.ltr
  | 0x40 => w32 h.fnSel
  | 0x44 =>
    let f := s.func h.fnSel
    w32 (flagBit f.bme 0 + flagBit (f.flr != 0) 2 + flagBit f.msixEn 3)
  | 0x80 => h.wttSel
  | 0x88 => lo32 (wttSelected s).mat
  | 0x8C => hi32 (wttSelected s).mat
  | 0x90 => lo32 (wttSelected s).target
  | 0x94 => hi32 (wttSelected s).target
  | 0x98 => (wttSelected s).offset
  | 0xA0 => w32 (flagBit h.wttActive 0 + flagBit (h.wttFlip != .none) 1 + flagBit h.wttRefused 2)
  | _ => 0

/-! ## EV, LC, TP -/

/-- CTRL of a log group. -/
def LogCfg.ctrl (g : LogCfg) : W32 := w32 (g.size + flagBit g.en 8 + g.vec * 512)

def evWord (s : State) (o : Nat) : W32 :=
  let e := s.ev
  if o < 0x40 then w32 (e.pend.toNat / 2 ^ (8 * o))
  else if 0x100 ≤ o && o < 0x120 then w32 (s.aon.sticky.toNat / 2 ^ (8 * (o - 0x100)))
  else match o with
  | 0x40 => w32 e.routeSel
  | 0x44 =>
    let r := s.route e.routeSel
    w32 (flagBit r.en 0 + flagBit r.log 1 + r.vec * 4)
  | 0x50 => w32 (flagBit e.isolate 0 + flagBit e.mctpEn 1 + flagBit e.mctpWr 2)
  | 0x54 => w32 e.eccCorr
  | 0x60 => lo32 e.log.shadow.base
  | 0x64 => hi32 e.log.shadow.base
  | 0x68 => e.log.shadow.ctrl
  | 0x70 => e.log.tail
  | 0x74 => e.log.cons
  | 0x78 => w32 (flagBit e.overflow 0 + flagBit e.log.consErr 1 + flagBit e.log.refused 2
      + e.recs.length * 2 ^ 16)
  | 0x80 => w32 e.imodSel
  | 0x84 => w32 (tblGet 0 e.interval e.imodSel)
  | 0x120 => w32 (s.aon.first + flagBit s.aon.firstOk 8)
  | 0x128 => w32 s.aon.firstAt
  | 0x12C => w32 (s.aon.firstAt / 2 ^ 32)
  | 0x130 => w32 s.aon.alert.toNat
  | _ => 0

/-- Word `i` of LC_OWNER_HASH: in PROVISIONED the programmed field. -/
def ownerWord (s : State) (i : Nat) : W32 :=
  if s.lcCode = 0x0400 then w32 (leAt (s.otp.ownerHash.getD []) (4 * i) 4) else tblGet 0 s.lc.ownerHash i

def lcWord (s : State) (o : Nat) : W32 :=
  let l := s.lc
  if 0x20 ≤ o && o < 0x50 then ownerWord s ((o - 0x20) / 4)
  else if 0x80 ≤ o && o < 0x100 then w32 (leAt l.chal (o - 0x80) 4)
  else match o with
  | 0x00 => w32 (s.lcCode + flagBit l.debugOpen 16 + flagBit s.aon.tampered 17 + flagBit l.resumed 18
      + flagBit l.abandoned 19 + s.otp.journalFree * 2 ^ 24)
  | 0x08 => w32 (flagBit l.busy.isSome 0 + l.result * 2 + l.tokenFails * 32)
  | 0x64 => w32 (l.dbgState + l.fails * 16 + flagBit l.rmaGrant 7)
  | 0x100 => lo32 l.respAddr
  | 0x104 => hi32 l.respAddr
  | 0x108 => w32 l.respLen
  | _ => 0

def tpWord (s : State) (o : Nat) : W32 :=
  let a := s.aon
  match o with
  | 0x00 => w32 (s.live.toNat + flagBit a.responding 8)
  | 0x04 => w32 a.latch.toNat
  | 0x08 => w32 (a.arm.toNat + a.debUs.toNat * 256)
  | 0x0C => w32 (flagBit a.lock 0)
  | 0x10 => w32 a.count
  | 0x18 => w32 a.lastAt
  | 0x1C => w32 (a.lastAt / 2 ^ 32)
  | 0x20 => w32 a.lastSrc.toNat
  | _ => 0

/-! ## KS, PP -/

/-- STATE of KS_INSPECT. -/
def slotCode (k : KState) : Nat :=
  match k with
  | .empty => 0
  | .reserved => 1
  | .valid => 2
  | .invalid => 3
  | .orphan => 4
  | .cont => 5

/-- KS_INSPECT of the slot that KS_INSPECT_SEL names; a slot outside the client's count reads 0. -/
def inspectWord (s : State) : Nat :=
  match s.slotPos (bits s.ks.inspect.toNat 12 0) (bits s.ks.inspect.toNat 31 13) with
  | none => 0
  | some p =>
    let k := s.slot p
    slotCode k.state + flagBit k.root 3 + flagBit k.prov 4 + k.origin * 32 + flagBit k.exposed 7 + k.run * 256
      + k.ktype * 2 ^ 16 + (s.gen p).toNat * 2 ^ 32 + k.refs * 2 ^ 48

def inspectPolicy (s : State) : W64 :=
  match s.slotPos (bits s.ks.inspect.toNat 12 0) (bits s.ks.inspect.toNat 31 13) with
  | none => 0
  | some p => (s.slot p).policy

def ksWord (s : State) (o : Nat) : W32 :=
  let k := s.ks
  let p := k.prov
  match o with
  | 0x00 => w32 (flagBit k.testRoot 0 + flagBit k.rootFail 1 + flagBit k.zeroising.isSome 2 + flagBit k.scrubbing 3)
  | 0x04 => w32 (freeKeyGran s * 64)
  | 0x08 => w32 k.periodMs
  | 0x0C => w32 k.reclaimed
  | 0x10 => w32 k.stepLog2
  | 0x14 => w32 (flagBit k.erasePersist 0)
  | 0x1C => w32 (flagBit k.lock 0)
  | 0x20 =>
    if imgUp s then w32 ((4194304 - keyAreaUsed s) / 1024 + (keyRecs s).length * 2 ^ 16) else 0
  | 0x40 => k.inspect
  | 0x48 => w32 (inspectWord s)
  | 0x4C => w32 (inspectWord s / 2 ^ 32)
  | 0x50 => lo32 (inspectPolicy s)
  | 0x54 => hi32 (inspectPolicy s)
  | 0x80 => w32 (p.client + p.op * 2 ^ 13)
  | 0x84 => w32 p.slot
  | 0x88 => lo32 p.policy
  | 0x8C => hi32 p.policy
  | 0x90 => w32 p.ktype
  | 0x94 => w32 p.wrap
  | 0x98 => lo32 p.addr
  | 0x9C => hi32 p.addr
  | 0xA0 => w32 p.len
  | 0xA8 => w32 (flagBit k.provRun.isSome 0 + k.provStatus.toNat * 256 + k.provDetail.toNat * 2 ^ 16)
  | _ => 0

/-- A class queue's entries. -/
def ppDepth (s : State) (i : Nat) : Nat := ((s.ks.ppQueues[i]?).getD []).length

def ppWord (s : State) (o : Nat) : W32 :=
  match o with
  | 0x0 => w32 (ppDepth s 0 + ppDepth s 1 * 2 ^ 8 + ppDepth s 2 * 2 ^ 16 + ppDepth s 3 * 2 ^ 24
      + flagBit (ppNext s).isSome 31)
  | 0x8 => lo32 s.ks.ppOps
  | 0xC => hi32 s.ks.ppOps
  | _ => 0

/-! ## WG -/

/-- A signed ps value, which saturates (R267). -/
def psSigned (v : Int) : W32 := BitVec.ofInt 32 (max (-0x7FFFFFFF) (min 0x7FFFFFFF v))

def wgWord (s : State) (o : Nat) : W32 :=
  let y := s.sync
  let g := s.wg
  match o with
  | 0x00 => w32 (y.state + y.ppsState * 16 + y.src * 64 + flagBit g.signer 8 + flagBit g.bufFull 9
      + flagBit g.ckptLate 10 + flagBit y.refused 11)
  | 0x08 => w32 y.h
  | 0x0C => w32 (y.h / 2 ^ 32)
  | 0x10 => w32 y.nowHi.toNat
  | 0x14 => psSigned y.eLast
  | 0x18 => w32 (errBound s)
  | 0x1C => match y.ppsOff with | some v => psSigned v | none => 0x80000000
  | 0x20 => BitVec.ofInt 32 y.adj
  | 0x24 => w32 (y.steps + y.seqErr * 2 ^ 16)
  | 0x30 => y.shadow.sync
  | 0x34 => y.shadow.hold
  | 0x38 => y.shadow.pps
  | 0x3C => y.shadow.loop
  | 0x50 => w32 g.periodMs
  | 0x54 => w32 (g.ckptS + flagBit g.ckptLock 31)
  | 0x58 => w32 g.epoch
  | 0x5C => w32 (g.epoch / 2 ^ 32)
  | 0x60 => w32 g.anchor
  | 0x64 => w32 (g.anchor / 2 ^ 32)
  | 0x68 => w32 g.eres
  | 0x6C => w32 (g.eres / 2 ^ 32)
  | 0x70 => lo32 g.leaves
  | 0x74 => hi32 g.leaves
  | 0x78 =>
    let n := pendingLeaves s none
    w32 (n + max g.pendPeak n * 2 ^ 16)
  | 0x80 => lo32 g.mlog.shadow.base
  | 0x84 => hi32 g.mlog.shadow.base
  | 0x88 => g.mlog.shadow.ctrl
  | 0x90 => g.mlog.tail
  | 0x94 => g.mlog.cons
  | 0x98 => w32 (g.mlog.held.length + flagBit g.mlog.consErr 7 + g.mlost * 2 ^ 16)
  | 0xC0 => w32 g.tsel
  | 0xC4 => w32 (flagBit g.tcfgSh.enable 0 + g.tcfgSh.pendMax * 2)
  | 0xC8 => lo32 g.plogSh.base
  | 0xCC => hi32 g.plogSh.base
  | 0xD0 => w32 (g.plogSh.size + flagBit g.plogSh.en 8)
  | 0xD8 => w32 (flagBit g.tRefused 0 + pendingLeaves s (some g.tsel) * 2
      + flagBit (!(s.tenant g.tsel).rlog.held.isEmpty) 16)
  | _ => 0

/-! ## PI, SCH, CTX, CB -/

def piWord (s : State) (o : Nat) : W32 :=
  let p := s.peer
  if 0x10 ≤ o && o < 0x30 then (p.wmSh[(o - 0x10) / 4]?).getD 0
  else if 0x40 ≤ o && o < 0x60 then w32 (occ s ((o - 0x40) / 4))
  else match o with
  | 0x00 => w32 (p.xoff.toNat + flagBit p.refused 8 + flagBit p.resetBusy.isSome 9 + flagBit p.stall 10)
  | 0x60 => w32 p.parity
  | 0x64 => w32 p.poison
  | 0x68 => w32 p.framing
  | 0x6C => w32 p.overrun
  | 0x70 => w32 p.reject
  | 0x74 => w32 p.dropped
  | 0x80 => w32 ((2097152 - egressUsed s) / 1024)
  | 0xA0 => p.seqSel
  | 0xA4 => tblGet 0 p.seq (bits p.seqSel.toNat 5 0 * 8 + bits p.seqSel.toNat 10 8)
  | _ => 0

def schWord (s : State) (o : Nat) : W32 :=
  let c := s.sch
  if 0x100 ≤ o && o < 0x200 then w32 (tblGet 1 c.peerWeight ((o - 0x100) / 4))
  else if o < 0x10 then w32 ((c.shadow.slice[o / 4]?).getD 0)
  else match o with
  | 0x10 => w32 c.shadow.cap
  | 0x18 => w32 (flagBit c.waiting.isSome 0 + flagBit c.refused 1)
  | 0x20 => lo32 c.epoch
  | 0x24 => hi32 c.epoch
  | 0x28 => w32 c.demoted
  | 0x2C => w32 c.preempts
  | 0x30 => w32 c.nosave
  | _ => 0

def ctxWord (s : State) (o : Nat) : W32 :=
  match o with
  | 0x0 => 4096
  | 0x4 => w32 (rsvUsed s + max s.sch.rsvPeak (rsvUsed s) * 2 ^ 16)
  | _ => 0

def cbWord (s : State) (c o : Nat) : W32 :=
  let b := s.comb c
  match o with
  | 0x000 => s.combWord c
  | 0x400 => w32 (freePages s c + stagedJobs s c * 256)
  | 0x404 => w32 b.nonces.length
  | 0x408 => lo32 b.abandoned
  | 0x40C => hi32 b.abandoned
  | 0x410 => w32 b.twoPass
  | 0x414 => w32 b.authFail
  | 0x420 => w32 b.digRestart
  | 0x424 => w32 b.digVerify
  | 0x428 => w32 b.digCommits
  | 0x440 => w32 b.pkFault
  | 0x444 => w32 b.pkInvalid
  | 0x448 => w32 (b.signs + b.iters * 2 ^ 24)
  | 0x44C => w32 (b.iters / 2 ^ 8)
  | _ => 0

/-! ## Tenants -/

/-- Excess queues that are not yet released; in DESTROYING, every queue that is still resetting (DESIGN CHOICE,
log 31). -/
def drainingQueues (s : State) (c : Nat) : Nat := ((s.queuesOf c).filter fun q => (s.queue c q).leaving).length

def tnWord (s : State) (c o : Nat) : W32 :=
  let t := s.tenant c
  let here := t.state != 0
  match o with
  | 0x00 => t.word
  | 0x04 => if here then w32 (t.queues + drainingQueues s c * 2 ^ 16) else 0
  | 0x08 => w32 t.keyCount
  | 0x0C => if here then w32 t.ctxCount else 0
  | 0x10 => if here then w32 t.vectors else 0
  | 0x14 => w32 (t.vecDrop + t.winDrop * 2 ^ 16)
  | 0x18 => if isFn c then w32 t.weight else 0
  | 0x1C => t.epoch
  | _ => 0

def admWord (s : State) (o : Nat) : W32 :=
  let a := s.adm.shadow
  match o with
  | 0x00 => w32 (a.client + a.op * 2 ^ 16 + flagBit a.force 18)
  | 0x04 => w32 a.gen.toNat
  | 0x08 => w32 a.queues
  | 0x0C => w32 (a.keyGran + a.ctxGran * 2 ^ 16)
  | 0x10 => w32 (a.vectors + a.weight * 2 ^ 16)
  | 0x18 => w32 (flagBit s.adm.running.isSome 0 + s.adm.result * 2)
  | 0x20 => if imgUp s then w32 (freeQueues s) else 0
  | 0x24 => if imgUp s then w32 (freeCtxGran s + freeVectors s * 2 ^ 16) else 0
  | 0x40 => s.adm.qmapSel
  | 0x44 =>
    match tblGet none (s.tenant (bits s.adm.qmapSel.toNat 12 0)).qmap (bits s.adm.qmapSel.toNat 30 16) with
    | some n => w32 (n + 2 ^ 31)
    | none => 0
  | _ => 0

/-- The selected DMA window entry. -/
def dmawSelected (s : State) : Dmaw :=
  let w := (s.tenant (dmawClient s)).win
  tblGet {} (if dmawBank s then w.b else w.a) (dmawIndex s)

def dmawWord (s : State) (o : Nat) : W32 :=
  let w := (s.tenant (dmawClient s)).win
  let e := dmawSelected s
  match o with
  | 0x00 => s.adm.dmawSel
  | 0x08 => lo32 e.base
  | 0x0C => hi32 e.base
  | 0x10 => lo32 e.limit
  | 0x14 => hi32 e.limit
  | 0x18 => lo32 e.xlate
  | 0x1C => hi32 e.xlate
  | 0x20 => e.ctrl
  | 0x28 => w32 (flagBit w.active 0 + flagBit (w.flip != .none) 1 + flagBit w.refused 2)
  | _ => 0

/-- An entry of the QS window (R432, R453). -/
def qsWord (s : State) (n o : Nat) : W32 :=
  match poolOwner s n with
  | none => 0
  | some (c, q) =>
    let u := s.queue c q
    match o with
    | 0x00 => u.status
    | 0x04 => w32 (c + q * 2 ^ 16 + 2 ^ 31)
    | 0x10 => u.pi
    | 0x14 => u.head
    | 0x30 => w32 (flagBit u.clearExport 0)
    | _ => 0

/-! ## Per-function spaces -/

def pageWord (s : State) (c q o : Nat) : W32 :=
  let u := s.queue c q
  match o with
  | 0x1C0 => u.pi
  | 0x1D0 => u.head
  | 0x1D8 => u.status
  | 0x1E8 => u.errIdx
  | _ => 0

/-- TN_QCFG_CTRL of a configuration. -/
def QCfg.ctrl (g : QCfg) : W32 := w32 (g.sizeLog2 + flagBit g.crEn 8 + g.crId * 512 + g.vec * 2 ^ 18)

def qcfgWord (t : Tenant) (o : Nat) : W32 :=
  let g := t.qcfgSh
  match o with
  | 0x00 => w32 t.qcfgSel
  | 0x08 => lo32 g.ring
  | 0x0C => hi32 g.ring
  | 0x10 => lo32 g.pmirror
  | 0x14 => hi32 g.pmirror
  | 0x18 => lo32 g.hmirror
  | 0x1C => hi32 g.hmirror
  | 0x20 => g.ctrl
  | 0x24 => g.init
  | 0x2C => w32 (flagBit (t.qcfgReason != 0) 0 + t.qcfgReason * 2)
  | _ => 0

def crWord (s : State) (c o : Nat) : W32 :=
  let t := s.tenant c
  let g := s.ring c t.crSel
  match o with
  | 0x40 => w32 t.crSel
  | 0x48 => lo32 t.crShBase
  | 0x4C => hi32 t.crShBase
  | 0x50 => t.crShCtrl
  | 0x58 => g.tail
  | 0x5C => g.cons
  | 0x60 =>
    let b := boundTo s c t.crSel
    w32 (flagBit g.overflow 0 + flagBit g.consErr 1 + b.length * 4
      + min 127 (pendingQueues s c t.crSel).length * 512 + flagBit t.crRefused 16)
  | _ => 0

/-- The TN_RLOG group; BASE and CTRL of a peer client read its WG_PLOG values (R362). -/
def rlogWord (t : Tenant) (fn : Bool) (o : Nat) : W32 :=
  let r := t.rlog
  let g := if fn then r.shadow else r.cfg
  match o with
  | 0x80 => lo32 g.base
  | 0x84 => hi32 g.base
  | 0x88 => g.ctrl
  | 0x90 => r.tail
  | 0x94 => r.cons
  | 0x98 => w32 (flagBit (!r.held.isEmpty) 0 + flagBit r.consErr 1 + flagBit r.refused 2)
  | _ => 0

def mailWord (m : Mbox) (o : Nat) : W32 :=
  match o with
  | 0x200 => lo32 m.h2kAddr
  | 0x204 => hi32 m.h2kAddr
  | 0x208 => w32 m.h2kLen
  | 0x20C => m.h2kMsg
  | 0x210 => lo32 m.k2hAddr
  | 0x214 => hi32 m.k2hAddr
  | 0x218 => w32 m.k2hLen
  | 0x21C => m.k2hMsg
  | 0x220 => lo32 m.pool
  | 0x224 => hi32 m.pool
  | 0x228 => w32 (m.poolN + m.vec * 32 + flagBit m.k2hIe 16 + flagBit m.h2kIe 17)
  | 0x230 => w32 (flagBit m.h2kFull 0 + flagBit m.k2hFull 1 + flagBit m.h2kErr 2 + flagBit m.drop 3
      + m.replies * 16 + m.fepoch.toNat * 2 ^ 16)
  | 0x234 => w32 m.dropSeq.toNat
  | _ => 0

/-- The tenant register block of a client; without a tenant only TN_INFO holds anything (R285). -/
def blockWord (s : State) (c o : Nat) : W32 :=
  let t := s.tenant c
  if 0x100 ≤ o && o < 0x118 then tnWord s c (o - 0x100)
  else if t.state = 0 then 0
  else if o < 0x30 then qcfgWord t o
  else if o < 0x80 then (if isFn c then crWord s c o else 0)
  else if o < 0x100 then rlogWord t (isFn c) o
  else if isFn c && 0x200 ≤ o && o < 0x238 then mailWord t.mb o
  else 0

/-- A word of the MSI-X table; entries at or above VECTORS read as masked (R287). -/
def msixWord (s : State) (c o : Nat) : W32 :=
  let v := o / 16
  let m := if v < (s.tenant c).vectors then tblGet {} (s.func c).msix v else {}
  match o % 16 with
  | 0 => lo32 m.addr
  | 4 => hi32 m.addr
  | 8 => m.data
  | 12 => w32 (flagBit m.masked 0)
  | _ => 0

def pbaWord (s : State) (c o : Nat) : W32 :=
  if o < 0x100 then w32 ((s.func c).pba.toNat / 2 ^ (8 * o)) else 0

/-- The DOE registers from the Control register on: Busy and Error stand in Status; the mailbox words are
part of no register that the spec describes. -/
def doeWord (s : State) (o : Nat) : W32 :=
  match o with
  | 0x4 => w32 (flagBit s.doe.busy 0 + flagBit s.doe.error 2)
  | 0x8 => Config.cfgWord 0 0x1C8
  | 0xC => Config.cfgWord 0 0x1CC
  | _ => 0

/-! ## Configuration space (R320, R321) -/

/-- Bits `hi:lo` of a word replaced. -/
def putBits (w : W32) (hi lo v : Nat) : W32 :=
  w32 (w.toNat - bits w.toNat hi lo * 2 ^ lo + v % 2 ^ (hi + 1 - lo) * 2 ^ lo)

/-- The header of a capability: its ID and the offset of the next one. -/
def capHead (free : W32) (id next : Nat) : W32 := putBits (putBits free 7 0 id) 15 8 next

/-- The header of an extended capability: its ID and the offset of the next one. -/
def extHead (free : W32) (id next : Nat) : W32 := putBits (putBits free 15 0 id) 31 20 next

/-- The lower word of a 64-bit memory BAR of `size` bytes, and its upper word (R323). -/
def barLow (a : W64) (size : Nat) (prefetch : Bool) : W32 :=
  w32 (a.toNat % 2 ^ 32 / size * size + 4 + flagBit prefetch 3)

/-- The words of PF0's header (R320). -/
def cfgPf0Head (s : State) (o : Nat) : W32 :=
  let free := Config.cfgWord 0 o
  match o with
  | 0x00 => w32 (Config.vendorId.toNat + 0x51E0 * 2 ^ 16)
  | 0x0C => putBits free 23 16 0x80
  | 0x10 => barLow s.cap.bar0 0x2000000 false
  | 0x14 => hi32 s.cap.bar0
  | 0x18 => barLow s.cap.bar2 0x10000 false
  | 0x1C => hi32 s.cap.bar2
  | 0x20 => 0
  | 0x24 => 0
  | 0x2C => w32 (s.hi.subVendor.toNat + s.hi.subId.toNat * 2 ^ 16)
  | 0x34 => putBits free 7 0 0x40
  | _ => free

/-- The words of PF0's SR-IOV capability: InitialVFs and TotalVFs 4,095, First VF Offset and VF Stride 1, pages of 4
KiB, the VF BARs (R318, R320, R321, R323). -/
def cfgVfWord (c : Cap) (o : Nat) : W32 :=
  let free := Config.cfgWord 0 o
  match o with
  | 0x150 => extHead free 0x10 0x190
  | 0x158 => putBits free 0 0 c.vfEnable.toNat
  | 0x15C => w32 (4095 + 4095 * 2 ^ 16)
  | 0x160 => putBits free 15 0 c.numVfs
  | 0x164 => w32 (1 + 2 ^ 16)
  | 0x168 => putBits free 31 16 0x51E1
  | 0x16C => 1
  | 0x170 => 1
  | 0x174 => barLow c.vbar0 0x800000 true
  | 0x178 => hi32 c.vbar0
  | 0x17C => barLow c.vbar2 0x10000 false
  | 0x180 => hi32 c.vbar2
  | 0x184 => 0
  | 0x188 => 0
  | _ => free

/-- The words of PF0's own capabilities, the features that the Hive lacks absent or 0; the rest is a free value (R318,
R321, R334, R340). -/
def cfgPf0Word (s : State) (o : Nat) : W32 :=
  let c := s.cap
  let free := Config.cfgWord 0 o
  match o with
  | 0x40 => putBits (capHead free 1 0x50) 31 25 0
  | 0x44 => putBits (putBits (putBits (putBits free 1 0 (if (s.func 0).d3hot then 3 else 0)) 3 3 0) 8 8 0) 15 15 0
  | 0x190 => extHead free 0xD 0x1A0
  | 0x194 => w32 (0xC + c.acs.toNat * 2 ^ 18)
  | 0x1A8 => extHead free 0x1B 0x1B0
  | 0x1AC => w32 (20 * 2 ^ 8 + flagBit c.pasidEn 16)
  | 0x1B0 => extHead free 0x18 0x1B8
  | 0x1B8 => putBits free 15 0 0x2E
  | 0x1C0 => doeWord s 0
  | 0x1C4 => doeWord s 4
  | 0x204 => putBits free 2 1 3
  | 0x208 => putBits free 2 2 c.tag14.toNat
  | _ => if 0x150 ≤ o && o < 0x190 then cfgVfWord c o else cfgPf0Head s o

/-- The words of a virtual function that differ from those of PF0: a type 0 header without identifiers and BARs of its
own, no power management (R319, R321). -/
def cfgVfHead (fn o : Nat) : W32 :=
  let free := Config.cfgWord fn o
  if o = 0x00 then 0xFFFFFFFF
  else if o = 0x0C then putBits free 23 16 0
  else if 0x10 ≤ o && o < 0x28 then 0
  else if o = 0x34 then putBits free 7 0 0x50
  else free

/-- The words that every function has, over those of PF0 (R320, R321, R334). -/
def cfgFnWord (s : State) (fn o : Nat) : W32 :=
  let f := s.func fn
  let free := if fn = 0 then cfgPf0Word s o else cfgVfHead fn o
  match o with
  | 0x04 => putBits (putBits free 2 2 f.bme.toNat) 20 20 1
  | 0x08 => w32 (1 + 0x108000 * 256)
  | 0x30 => 0
  | 0x3C => putBits free 15 8 0
  | 0x50 => putBits (putBits (putBits (capHead free 0x11 0x70) 26 16 2047) 30 30 f.fmask.toNat) 31 31 f.msixEn.toNat
  | 0x54 => 0x8002
  | 0x58 => 0x1002
  | 0x70 => putBits (capHead free 0x10 0) 23 20 0
  | 0x74 => putBits (putBits (putBits free 2 0 2) 5 5 1) 28 28 1
  | 0x7C => putBits free 11 10 (if s.hi.cfg.getLsbD 1 then 2 else 0)
  | 0x94 =>
    let w := putBits (putBits (putBits free 4 0 0) 9 6 0) 13 12 0
    putBits (putBits w 11 11 (if fn = 0 then 1 else 0)) 17 16 3
  | 0x98 =>
    let w := putBits (putBits (putBits free 4 0 0) 6 6 0) 9 8 0
    if fn = 0 then putBits (putBits w 10 10 s.cap.ltrEn.toNat) 12 12 s.cap.tag10.toNat else w
  | 0x100 => extHead free 1 0x148
  | 0x148 => extHead free 0xE (if fn = 0 then 0x150 else 0x1A0)
  | 0x78 =>
    let w := putBits (putBits (putBits free 4 4 f.roEn.toNat) 11 11 f.nsEn.toNat) 15 15 0
    if fn = 0 then putBits (putBits w 7 5 s.cap.mps) 14 12 s.cap.mrrs else w
  | 0x104 => putBits (putBits free 14 14 f.aerCto.toNat) 16 16 f.aerUc.toNat
  | 0x1A0 => extHead free 0xF (if fn = 0 then 0x1A8 else 0)
  | 0x1A4 => putBits free 31 31 f.atsEn.toNat
  | _ => free

/-! ## Every space -/

/-- The word at a place; `o` is a multiple of 4. -/
def regWord (s : State) (p : Place) : W32 :=
  let o := p.2
  match p.1 with
  | .hv => hvWord s o
  | .cf => cfWord s o
  | .ps => psWord s o
  | .hi => hiWord s o
  | .ev => evWord s o
  | .lc => lcWord s o
  | .tp => tpWord s o
  | .ks => ksWord s o
  | .pp => ppWord s o
  | .wg => wgWord s o
  | .pi => piWord s o
  | .sch => schWord s o
  | .ctx => ctxWord s o
  | .adm => admWord s o
  | .dmaw => dmawWord s o
  | .cb c => cbWord s c o
  | .tn c => tnWord s c o
  | .qs n => qsWord s n o
  | .page c q => pageWord s c q o
  | .block c => blockWord s c o
  | .msix c => msixWord s c o
  | .pba c => pbaWord s c o
  | .disc => w32 (leAt s.hi.discTable o 4)
  | .doe => doeWord s o
  | .config fn => cfgFnWord s fn o
  | .void => 0

end Sys2Proof.Machine
end

