-- ==== Sys2Proof/Machine/Reads.lean ====
section
/-! DEFINITION. Reading a register: what a read clears, the two halves of a 64-bit register, sub-word reads,
and the accesses that sleep holds (R13, R16, R462, R463). -/

namespace Sys2Proof.Machine

/-! ## Read side effects (R13, R280, R309) -/

def clearHi (s : State) (o : Nat) : State :=
  match o with
  | 0x10 => { s with dma.peak := 0 }
  | 0x18 => { s with hi.timeouts := 0, hi.unexpected := 0 }
  | 0x1C => { s with hi.cplErr := 0, hi.poisoned := 0 }
  | 0x20 => { s with hi.subword := 0 }
  | 0x24 => { s with hi.unmapped := 0 }
  | _ => s

/-- A read of WG_NOW, or of its lower half, latches NOW_HI. -/
def clearWg (s : State) (o : Nat) : State :=
  match o with
  | 0x08 => { s with sync.nowHi := BitVec.ofNat 16 (s.sync.h / 2 ^ 64) }
  | 0x24 => { s with sync.steps := 0, sync.seqErr := 0 }
  | 0x70 => { s with wg.leaves := 0 }
  | 0x78 => { s with wg.pendPeak := 0 }
  | 0x98 => { s with wg.mlost := 0 }
  | _ => s

def clearPi (s : State) (o : Nat) : State :=
  match o with
  | 0x60 => { s with peer.parity := 0 }
  | 0x64 => { s with peer.poison := 0 }
  | 0x68 => { s with peer.framing := 0 }
  | 0x6C => { s with peer.overrun := 0 }
  | 0x70 => { s with peer.reject := 0 }
  | 0x74 => { s with peer.dropped := 0 }
  | _ => s

def clearSch (s : State) (o : Nat) : State :=
  match o with
  | 0x28 => { s with sch.demoted := 0 }
  | 0x2C => { s with sch.preempts := 0 }
  | 0x30 => { s with sch.nosave := 0 }
  | _ => s

def clearCb (s : State) (c o : Nat) : State :=
  match o with
  | 0x408 => s.modComb c fun b => { b with abandoned := 0 }
  | 0x410 => s.modComb c fun b => { b with twoPass := 0 }
  | 0x414 => s.modComb c fun b => { b with authFail := 0 }
  | 0x420 => s.modComb c fun b => { b with digRestart := 0 }
  | 0x424 => s.modComb c fun b => { b with digVerify := 0 }
  | 0x428 => s.modComb c fun b => { b with digCommits := 0 }
  | 0x440 => s.modComb c fun b => { b with pkFault := 0 }
  | 0x444 => s.modComb c fun b => { b with pkInvalid := 0 }
  | 0x448 => s.modComb c fun b => { b with signs := 0, iters := 0 }
  | _ => s

/-- TN_DROPS, in the table and in TN_INFO. -/
def clearDrops (s : State) (c : Nat) : State := s.modTenant c fun t => { t with vecDrop := 0, winDrop := 0 }

/-- What a read of the word at a place changes; for a 64-bit register, the word is its lower half. -/
def readClear (s : State) (p : Place) : State :=
  let o := p.2
  match p.1 with
  | .ps => if o = 0x4 then { s with store.errDamaged := 0, store.errKey := 0 } else s
  | .hi => clearHi s o
  | .ev => if o = 0x54 then { s with ev.eccCorr := 0 } else s
  | .ks => if o = 0xC then { s with ks.reclaimed := 0 } else s
  | .pp => if o = 0x8 then { s with ks.ppOps := 0 } else s
  | .wg => clearWg s o
  | .pi => clearPi s o
  | .sch => clearSch s o
  | .ctx => if o = 0x4 then { s with sch.rsvPeak := 0 } else s
  | .cb c => clearCb s c o
  | .tn c => if o = 0x14 then clearDrops s c else s
  | .block c =>
    if o = 0x114 then clearDrops s c
    else if o = 0x21C && mailOpen s c then modMail s c fun m => { m with k2hMsg := 0, k2hFull := false }
    else s
  | _ => s

/-! ## Words and bytes (R16) -/

/-- The place of the lower half of the 64-bit register whose upper half this is. -/
def upperOf (p : Place) : Option Place := if 4 ≤ p.2 && is64 (p.1, p.2 - 4) then some (p.1, p.2 - 4) else none

/-- A read of one word. The lower half of a 64-bit register latches the upper half; a read of the upper half
takes and consumes a latch where one is held. A read of the upper half of an RC register clears nothing, with a latch or
without one; DESIGN CHOICE, log entry 61. -/
def readWord (s : State) (who : Requester) (p : Place) : W32 × State :=
  let v := regWord s p
  if is64 p then
    let up := regWord s (p.1, p.2 + 4)
    (v, readClear { s with latches := dropHalf s.latches who (regKey p) ++ [((who, regKey p), up)] } p)
  else match upperOf p with
    | some l =>
      match halfOf s.latches who (regKey l) with
      | some u => (u, { s with latches := dropHalf s.latches who (regKey l) })
      | none => (v, s)
    | none => (v, readClear s p)

/-- The words at the offsets, read in order, as bytes. -/
def readWords (who : Requester) (sp : Space) : List Nat → State → Bytes × State
  | [], s => ([], s)
  | o :: t, s =>
    let r := readWord s who (sp, o)
    let rest := readWords who sp t r.2
    (bvLe 4 r.1 ++ rest.1, rest.2)

/-- A read of `n` bytes at a place. A 64-bit access to a 64-bit register reads it as a whole. -/
def readAt (s : State) (who : Requester) (p : Place) (n : Nat) : W64 × State :=
  if n = 8 && is64 p then
    (BitVec.ofNat 64 ((regWord s p).toNat + (regWord s (p.1, p.2 + 4)).toNat * 2 ^ 32), readClear s p)
  else
    let first := p.2 / 4
    let count := (p.2 + n - 1) / 4 + 1 - first
    let r := readWords who p.1 ((List.range count).map fun i => 4 * (first + i)) s
    (BitVec.ofNat 64 (leAt r.1 (p.2 % 4) n), r.2)

/-- A register read: its value is what the requester sees. -/
def opRegisterRead (old : Bool) (who : Requester) (a : Access) (n : Nat) (s : State) : State :=
  let l := lands s old a n
  let r := readAt (countUnmapped s l) who l.place n
  { r.2 with resp := r.1 }

/-- An access wakes the Hive, and is held where it must wait for that or for the clocks (R35, R446, R463). -/
def access (i : Instr) (a : Access) (n : Nat) (read : Bool) (s : State) (k : State → State) : State :=
  let p := (lands s false a n).place
  match causeOf a p read, a with
  | some c, _ => if heldPlace p then whenAwakeBy c i s k else whenClocked i s fun s => k (wake s c)
  | none, .debug _ => whenClocked i s k
  | none, _ => k s

/-- The sizes that an access may have. -/
def okSize (n : Nat) : Bool := n == 1 || n == 2 || n == 4 || n == 8

def opRcRegisterRead (who : Requester) (a : Access) (n : Nat) (s : State) : State :=
  if okSize n then access (.rcRegisterRead who a n) a n true s (opRegisterRead false who a n) else s

/-- A read of 1, 2, 4 or 8 bytes, which clears the RC fields it covers. -/
def execRcRegisterRead (who : Requester) (a : Access) (n : Nat) (s : State) : Host.Outcome State Fault Refusal :=
  .next (opRcRegisterRead who a n s)

/-- A 32-bit read of the lower half of a 64-bit register; other places change nothing. -/
def splitRead (old : Bool) (who : Requester) (a : Access) (s : State) : State :=
  if is64 (lands s old a 4).place then opRegisterRead old who a 4 s else s

def opSplitReadLatch (who : Requester) (a : Access) (s : State) : State :=
  access (.splitReadLatch who a) a 4 true s (splitRead false who a)

def execSplitReadLatch (who : Requester) (a : Access) (s : State) : Host.Outcome State Fault Refusal :=
  .next (opSplitReadLatch who a s)

end Sys2Proof.Machine
end

