-- ==== Sys2Proof/Machine/Writes.lean ====
section
/-! DEFINITION. Writing a register: each field by its access type, commits and commands by what they do
(R13 to R16, R339, R345, R458, R461, R462 and the register tables of the other chapters). -/

namespace Sys2Proof.Machine

/-- The low 12 bits of an address are reserved. -/
def pageMask (v : W64) : W64 := v &&& ~~~0xFFF#64

/-- CTRL of a log group is written; `vec` says whether it has the field. -/
def LogCfg.putCtrl (g : LogCfg) (v : W32) (vec : Bool) : LogCfg :=
  { g with size := bits v.toNat 4 0, en := v.getLsbD 8, vec := if vec then bits v.toNat 19 9 else g.vec }

/-! ## Hive-wide blocks -/

/-- HV_RESET and HV_SLEEP act only with KEY = 0xA5. WAKE and ENTER in one write are in one FCLK cycle (R447). -/
def writeHv (s : State) (o : Nat) (v : W32) : State :=
  let key : Byte := BitVec.ofNat 8 (bits v.toNat 15 8)
  match o with
  | 0x24 =>
    if key != 0xA5 then s
    else if v.getLsbD 0 then opWarmReset .hvReset s
    else if v.getLsbD 1 then opKeeperRestart false true s
    else s
  | 0x40 =>
    let s := if v.getLsbD 1 then opHvSleepWake key s else if v.getLsbD 0 then s else wake s 1
    if v.getLsbD 0 then opHvSleepEnter key s else s
  | 0x48 => { s with hv.syncHold := v.getLsbD 0 }
  | _ => s

def writeCf (s : State) (o : Nat) (v : W32) : State :=
  match o with
  | 0x18 => { s with store.updLen := bits v.toNat 23 0 }
  | 0x1C => if v.getLsbD 0 then opCfUpdCommit s else s
  | _ => s

/-- Writes of HI_FN_CTRL act in ROM mode. -/
def writeFnCtrl (s : State) (v : W32) : State :=
  let fn := s.hi.fnSel
  if !s.rom then s
  else
    let s := opMsixMaskWrite fn (.control (v.getLsbD 3) (s.func fn).fmask) s
    let s := if v.getLsbD 0 == (s.func fn).bme then s
      else if v.getLsbD 0 then opBmeSet fn s else opBmeClear fn s
    if v.getLsbD 1 then opFlr fn s else s

/-- A write to the selected entry of the window translation table (R328). -/
def writeWtt (s : State) (f : Wtt → Wtt) : State :=
  let b := s.hi.wttSel.getLsbD 0
  let i := bits s.hi.wttSel.toNat 13 8
  if s.hi.wttFlip != .none || b == s.hi.wttActive then { s with hi.wttRefused := true }
  else if b then { s with hi.wttB := tblSet {} s.hi.wttB i (f (tblGet {} s.hi.wttB i)) }
  else { s with hi.wttA := tblSet {} s.hi.wttA i (f (tblGet {} s.hi.wttA i)) }

def writeHi (s : State) (o : Nat) (v : W32) : State :=
  let n := v.toNat
  match o with
  | 0x00 =>
    let c : BitVec 4 := BitVec.ofNat 4 n
    { s with hi.cfg := if s.hi.lock then (s.hi.cfg &&& 7) ||| (c &&& 8) else c }
  | 0x04 => { s with hi.lock := s.hi.lock || v.getLsbD 0 }
  | 0x08 =>
    let t := bits n 15 0
    if 50 ≤ t && t ≤ 64000 then { s with hi.cplTo := t } else s
  | 0x0C =>
    let t := bits n 12 0
    if 1 ≤ t && t ≤ 4096 then { s with hi.fnMax := t } else s
  | 0x30 => { s with hi.idleUs := bits n 9 0 }
  | 0x34 => { s with hi.ltr := v &&& 0x1FFF1FFF#32 }
  | 0x40 => { s with hi.fnSel := bits n 11 0 }
  | 0x44 => writeFnCtrl s v
  | 0x80 => { s with hi.wttSel := v &&& 0x3F01#32 }
  | 0x98 => writeWtt s fun w => { w with offset := v &&& 0xFFFFF000#32 }
  | 0x9C => if v.getLsbD 0 then opHiWttFlip s else s
  | 0xA0 => { s with hi.wttRefused := s.hi.wttRefused && !v.getLsbD 2 }
  | _ => s

def writeEv (s : State) (o : Nat) (v : W32) : State :=
  let n := v.toNat
  if o < 0x40 then opEvPendClear (o / 4) v 0 s
  else if 0x100 ≤ o && o < 0x120 then opStickyClear ((o - 0x100) / 4) v s
  else match o with
  | 0x40 => { s with ev.routeSel := bits n 8 0 }
  | 0x44 => opEvRouteWrite v s
  | 0x50 => { s with ev.isolate := v.getLsbD 0, ev.mctpEn := v.getLsbD 1, ev.mctpWr := v.getLsbD 2 }
  | 0x68 => { s with ev.log.shadow := s.ev.log.shadow.putCtrl v false }
  | 0x6C => if v.getLsbD 0 then opEvLogCommit s else s
  | 0x74 => opEvLogConsWrite v s
  | 0x78 => { s with ev.overflow := s.ev.overflow && !v.getLsbD 0, ev.log.consErr := s.ev.log.consErr && !v.getLsbD 1 }
  | 0x80 => { s with ev.imodSel := bits n 12 0 }
  | 0x84 => if isFn s.ev.imodSel then { s with ev.interval := tblSet 0 s.ev.interval s.ev.imodSel (bits n 11 0) } else s
  | 0x130 => { s with aon.alert := BitVec.ofNat 3 n }
  | _ => s

def writeLc (s : State) (o : Nat) (v : W32) : State :=
  let n := v.toNat
  if 0x10 ≤ o && o < 0x20 then
    let i := (o - 0x10) / 4
    { s with lc.token := (s.lc.token &&& ~~~(0xFFFFFFFF#128 <<< (32 * i))) ||| (v.setWidth 128 <<< (32 * i)) }
  else if 0x20 ≤ o && o < 0x50 then
    if s.lcCode = 0x0400 then s
    else { s with lc.ownerHash := tblSet 0 s.lc.ownerHash ((o - 0x20) / 4) v, lc.ownerWritten := true }
  else match o with
  | 0x04 => lcRequest s (bits n 15 0) (bits n 31 16)
  | 0x60 => if bits n 1 0 = 1 then dbgRequest s 1 else if bits n 1 0 = 2 then dbgRequest s 2 else s
  | 0x108 => { s with lc.respLen := bits n 12 0 }
  | 0x10C => if v.getLsbD 0 then opLcRespCommit s else s
  | _ => s

def writeTp (s : State) (o : Nat) (v : W32) : State :=
  match o with
  | 0x04 => opTpLatchClear (BitVec.ofNat 7 v.toNat) s
  | 0x08 =>
    if s.aon.lock then s
    else { s with aon.arm := BitVec.ofNat 4 v.toNat, aon.debUs := BitVec.ofNat 8 (bits v.toNat 15 8) }
  | 0x0C => { s with aon.lock := s.aon.lock || v.getLsbD 0 }
  | _ => s

/-- A commit of the KS_PROV group, whatever its OP. -/
def provCommitAny (s : State) : State := if s.ks.prov.op = 3 then opKsProvOp3 s else provCommit s s.ks.prov.op

def writeKs (s : State) (o : Nat) (v : W32) : State :=
  let n := v.toNat
  match o with
  | 0x08 =>
    let t := bits n 6 0
    if 8 ≤ t && t ≤ 100 then { s with ks.periodMs := t } else s
  | 0x10 =>
    let t := bits n 5 0
    if !s.ks.lock && 31 ≤ t && t ≤ 40 then { s with ks.stepLog2 := t } else s
  | 0x14 => if s.ks.lock then s else { s with ks.erasePersist := v.getLsbD 0 }
  | 0x18 => if v.getLsbD 0 then opKsZeroiseStart s else s
  | 0x1C => { s with ks.lock := s.ks.lock || v.getLsbD 0 }
  | 0x40 => { s with ks.inspect := v }
  | 0x80 => { s with ks.prov := { s.ks.prov with client := bits n 12 0, op := bits n 14 13 } }
  | 0x84 => { s with ks.prov := { s.ks.prov with slot := bits n 19 0 } }
  | 0x90 => { s with ks.prov := { s.ks.prov with ktype := bits n 15 0 } }
  | 0x94 => { s with ks.prov := { s.ks.prov with wrap := bits n 19 0 } }
  | 0xA0 => { s with ks.prov := { s.ks.prov with len := bits n 11 0 } }
  | 0xA4 => if v.getLsbD 0 then provCommitAny s else s
  | _ => s

def writeWg (s : State) (o : Nat) (v : W32) : State :=
  let n := v.toNat
  match o with
  | 0x30 => { s with sync.shadow := { s.sync.shadow with sync := v &&& 0x0FFFFFFF#32 } }
  | 0x34 => { s with sync.shadow := { s.sync.shadow with hold := v } }
  | 0x38 => { s with sync.shadow := { s.sync.shadow with pps := v } }
  | 0x3C => { s with sync.shadow := { s.sync.shadow with loop := v &&& 0xF0F#32 } }
  | 0x40 => if v.getLsbD 0 then opWgSyncCommit s else s
  | 0x50 =>
    let t := bits n 9 0
    if 1 ≤ t && t ≤ 1000 then { s with wg.periodMs := t } else s
  | 0x54 =>
    let t := bits n 11 0
    { s with
      wg.ckptS := if !s.wg.ckptLock && 8 ≤ t && t ≤ 3600 then t else s.wg.ckptS
      wg.ckptLock := s.wg.ckptLock || v.getLsbD 31 }
  | 0x88 => { s with wg.mlog.shadow := s.wg.mlog.shadow.putCtrl v true }
  | 0x8C => if v.getLsbD 0 then opWgMlogCommit s else s
  | 0x94 => opWgMlogConsWrite v s
  | 0x98 => { s with wg.mlog.consErr := s.wg.mlog.consErr && !v.getLsbD 7 }
  | 0xC0 => opWgTselWrite v s
  | 0xC4 => { s with wg.tcfgSh := { enable := v.getLsbD 0, pendMax := bits n 15 1 } }
  | 0xD0 => { s with wg.plogSh := s.wg.plogSh.putCtrl v false }
  | 0xD4 => if v.getLsbD 0 then opWgTcommit s else s
  | _ => s

def writePi (s : State) (o : Nat) (v : W32) : State :=
  if 0x10 ≤ o && o < 0x30 then { s with peer.wmSh := s.peer.wmSh.set ((o - 0x10) / 4) (v &&& 0x3FFF3FFF#32) }
  else match o with
  | 0x30 => if v.getLsbD 0 then opPiCommit s else s
  | 0x90 => opPiPeerReset (bits v.toNat 5 0) s
  | 0xA0 => { s with peer.seqSel := v &&& 0x73F#32 }
  | _ => s

def writeSch (s : State) (o : Nat) (v : W32) : State :=
  let n := v.toNat
  if 0x100 ≤ o && o < 0x200 then
    { s with sch.peerWeight := tblSet 1 s.sch.peerWeight ((o - 0x100) / 4) (bits n 15 0) }
  else if o < 0x10 then
    { s with sch.shadow := { s.sch.shadow with slice := s.sch.shadow.slice.set (o / 4) (bits n 4 0) } }
  else match o with
  | 0x10 => { s with sch.shadow := { s.sch.shadow with cap := bits n 8 0 } }
  | 0x14 => if v.getLsbD 0 then opSchCommit s else s
  | _ => s

/-! ## Tenants (R314, R316, R432) -/

def writeAdm (s : State) (o : Nat) (v : W32) : State :=
  let n := v.toNat
  let a := s.adm.shadow
  match o with
  | 0x00 => { s with adm.shadow := { a with client := bits n 12 0, op := bits n 17 16, force := v.getLsbD 18 } }
  | 0x04 => { s with adm.shadow := { a with gen := BitVec.ofNat 16 n } }
  | 0x08 => { s with adm.shadow := { a with queues := bits n 14 0 } }
  | 0x0C => { s with adm.shadow := { a with keyGran := bits n 12 0, ctxGran := bits n 26 16 } }
  | 0x10 => { s with adm.shadow := { a with vectors := bits n 11 0, weight := bits n 31 16 } }
  | 0x14 => if v.getLsbD 0 then admCommit s else s
  | 0x40 => { s with adm.qmapSel := v &&& 0x7FFF1FFF#32 }
  | _ => s

def writeDmaw (s : State) (o : Nat) (v : W32) : State :=
  match o with
  | 0x00 => { s with adm.dmawSel := v &&& 0xF3FFF#32 }
  | 0x20 => opTnDmawEntryWrite .ctrl (v.setWidth 64) s
  | 0x24 => opTnDmawFlip (bits v.toNat 12 0) s
  | 0x28 =>
    if v.getLsbD 2 && isClient (dmawClient s) then modWin s (dmawClient s) fun w => { w with refused := false } else s
  | _ => s

/-- TN_SHARE of a function; a peer client's ignores writes (R298). -/
def writeTn (s : State) (c o : Nat) (v : W32) : State :=
  if o = 0x18 && isFn c then s.modTenant c fun t => { t with weight := bits v.toNat 15 0 } else s

/-- QS_POLICY of a pool queue that belongs to a client (R131, R453). -/
def writeQs (s : State) (n o : Nat) (v : W32) : State :=
  match poolOwner s n with
  | some (c, q) => if o = 0x30 then s.modQueue c q fun u => { u with clearExport := v.getLsbD 0 } else s
  | none => s

/-! ## Per-function spaces -/

def writePage (s : State) (c q o : Nat) (v : W32) : State :=
  match o with
  | 0x1C0 => opQDbWrite c q v (fnActive s c)
  | 0x1C8 => opQDbNodataWrite c q (fnActive s c)
  | 0x1D8 =>
    s.modQueue c q fun u =>
      { u with pushDrop := u.pushDrop && !v.getLsbD 17, dbIgnored := u.dbIgnored && !v.getLsbD 18 }
  | _ => s

def writeQcfg (s : State) (c o : Nat) (v : W32) : State :=
  let n := v.toNat
  match o with
  | 0x00 => opTnQcfgSelWrite c v s
  | 0x20 =>
    s.modTenant c fun t =>
      let g := t.qcfgSh
      { t with qcfgSh := { g with
        sizeLog2 := bits n 4 0, crEn := v.getLsbD 8, crId := bits n 17 9, vec := bits n 28 18 } }
  | 0x24 =>
    s.modTenant c fun t =>
      let g := t.qcfgSh
      { t with qcfgSh := { g with init := v } }
  | 0x28 => if v.getLsbD 0 then opTnQcfgCommit c s else s
  | _ => s

def writeCrGroup (s : State) (c o : Nat) (v : W32) : State :=
  match o with
  | 0x40 => opTnCrSelWrite c v s
  | 0x50 => s.modTenant c fun t => { t with crShCtrl := v &&& 0xFFF1F#32 }
  | 0x54 => if v.getLsbD 0 then opTnCrCommit c s else s
  | 0x5C => opTnCrConsWrite c v s
  | 0x60 =>
    s.modRing c (s.tenant c).crSel fun g =>
      { g with overflow := g.overflow && !v.getLsbD 0, consErr := g.consErr && !v.getLsbD 1 }
  | _ => s

/-- The TN_RLOG group: a peer client's BASE, CTRL and commit are ignored (R362). -/
def writeRlog (s : State) (c o : Nat) (v : W32) : State :=
  match o with
  | 0x88 =>
    if isFn c then s.modTenant c fun t => { t with rlog := { t.rlog with shadow := t.rlog.shadow.putCtrl v true } }
    else s
  | 0x8C => if v.getLsbD 0 then opTnRlogCommit c s else s
  | 0x94 => opTnRlogConsWrite c v s
  | 0x98 => s.modTenant c fun t => { t with rlog := { t.rlog with consErr := t.rlog.consErr && !v.getLsbD 1 } }
  | _ => s

def writeMail (s : State) (c o : Nat) (v : W32) : State :=
  match o with
  | 0x208 => writeH2k s c fun m => { m with h2kLen := bits v.toNat 12 0 }
  | 0x20C => opMbH2kMsgWrite c v s
  | 0x228 => opMbPoolRegister c (.ctrl v) s
  | 0x230 => modMail s c fun m => { m with h2kErr := m.h2kErr && !v.getLsbD 2, drop := m.drop && !v.getLsbD 3 }
  | _ => s

/-- The tenant register block of a client that has a tenant. -/
def writeBlock (s : State) (c o : Nat) (v : W32) : State :=
  if !blockOpen s c then s
  else if o < 0x40 then writeQcfg s c o v
  else if o < 0x80 then (if isFn c then writeCrGroup s c o v else s)
  else if o < 0x100 then writeRlog s c o v
  else if isFn c && 0x200 ≤ o && o < 0x300 then writeMail s c o v
  else s

/-! ## 64-bit registers -/

def writeHi64 (s : State) (o : Nat) (v : W64) : State :=
  match o with
  | 0x88 => writeWtt s fun w => { w with mat := v &&& ~~~0xE0#64 }
  | 0x90 => writeWtt s fun w => { w with target := v &&& 0xFFFFFFFF1FFF001F#64 }
  | _ => s

def writeKs64 (s : State) (o : Nat) (v : W64) : State :=
  match o with
  | 0x88 => { s with ks.prov := { s.ks.prov with policy := v } }
  | 0x98 => { s with ks.prov := { s.ks.prov with addr := v } }
  | _ => s

def writeWg64 (s : State) (o : Nat) (v : W64) : State :=
  match o with
  | 0x80 =>
    let g := s.wg.mlog.shadow
    { s with wg.mlog.shadow := { g with base := pageMask v } }
  | 0xC8 =>
    let g := s.wg.plogSh
    { s with wg.plogSh := { g with base := pageMask v } }
  | _ => s

def writeDmaw64 (s : State) (o : Nat) (v : W64) : State :=
  match o with
  | 0x08 => opTnDmawEntryWrite .base v s
  | 0x10 => opTnDmawEntryWrite .limit v s
  | 0x18 => opTnDmawEntryWrite .xlate v s
  | _ => s

def writeBlock64 (s : State) (c o : Nat) (v : W64) : State :=
  if !blockOpen s c then s
  else match o with
  | 0x08 =>
    s.modTenant c fun t =>
      let g := t.qcfgSh
      { t with qcfgSh := { g with ring := pageMask v } }
  | 0x10 =>
    s.modTenant c fun t =>
      let g := t.qcfgSh
      { t with qcfgSh := { g with pmirror := v &&& ~~~7#64 } }
  | 0x18 =>
    s.modTenant c fun t =>
      let g := t.qcfgSh
      { t with qcfgSh := { g with hmirror := v &&& ~~~7#64 } }
  | 0x48 => if isFn c then s.modTenant c fun t => { t with crShBase := pageMask v } else s
  | 0x80 =>
    if isFn c then
      s.modTenant c fun t =>
        let g := t.rlog.shadow
        { t with rlog := { t.rlog with shadow := { g with base := pageMask v } } }
    else s
  | 0x200 => if isFn c then writeH2k s c fun m => { m with h2kAddr := v &&& ~~~7#64 } else s
  | 0x220 => opMbPoolRegister c (.base v) s
  | _ => s

/-- A whole 64-bit register is written. -/
def writeReg64 (s : State) (p : Place) (v : W64) : State :=
  let o := p.2
  match p.1 with
  | .cf => { s with store.updAddr := v }
  | .hi => writeHi64 s o v
  | .ev =>
    let g := s.ev.log.shadow
    if o = 0x60 then { s with ev.log.shadow := { g with base := pageMask v } } else s
  | .lc => { s with lc.respAddr := v }
  | .ks => writeKs64 s o v
  | .wg => writeWg64 s o v
  | .dmaw => writeDmaw64 s o v
  | .qs n =>
    match poolOwner s n with
    | some (c, q) => opQCmdReserved c q v .qs s
    | none => s
  | .page c q => opQCmdReserved c q v .page s
  | .block c => writeBlock64 s c o v
  | _ => s

/-- A 32-bit register is written. -/
def writeReg32 (s : State) (p : Place) (v : W32) : State :=
  let o := p.2
  match p.1 with
  | .hv => writeHv s o v
  | .cf => writeCf s o v
  | .hi => writeHi s o v
  | .ev => writeEv s o v
  | .lc => writeLc s o v
  | .tp => writeTp s o v
  | .ks => writeKs s o v
  | .wg => writeWg s o v
  | .pi => writePi s o v
  | .sch => writeSch s o v
  | .adm => writeAdm s o v
  | .dmaw => writeDmaw s o v
  | .cb c => if o = 0x8 then opCbCmdInvalid c v s else s
  | .tn c => writeTn s c o v
  | .qs n => writeQs s n o v
  | .page c q => writePage s c q o v
  | .block c => writeBlock s c o v
  | .msix c => opMsixMaskWrite c (.entry (o / 16) (o % 16 / 4) v) s
  | .doe => if o = 0 && v.getLsbD 0 then opDoeAbort s else s
  | _ => s

/-! ## Halves (R16, R462) -/

/-- One word is written. A lower half is held for its requester; an upper half acts on the whole register. -/
def writeWord (s : State) (who : Requester) (p : Place) (v : W32) : State :=
  if is64 p then { s with halves := dropHalf s.halves who (regKey p) ++ [((who, regKey p), v)] }
  else match upperOf p with
    | some l =>
      let low := (halfOf s.halves who (regKey l)).getD (regWord s l)
      writeReg64 { s with halves := dropHalf s.halves who (regKey l) } l
        (BitVec.ofNat 64 (low.toNat + v.toNat * 2 ^ 32))
    | none => writeReg32 s p v

/-- An aligned write of 4 or 8 bytes. -/
def writeWords (s : State) (who : Requester) (p : Place) (n : Nat) (data : W64) : State :=
  if n = 8 && is64 p then
    writeReg64 { s with halves := dropHalf s.halves who (regKey p) } p data
  else
    let s := writeWord s who p (lo32 data)
    if n = 8 then writeWord s who (p.1, p.2 + 4) (hi32 data) else s

/-! ## Configuration space (R318, R320, R321, R335 to R338) -/

/-- Bus master enable, as the Command register of a function has it. -/
def putBme (s : State) (fn : Nat) (on : Bool) : State :=
  if on == (s.func fn).bme then s else if on then opBmeSet fn s else opBmeClear fn s

/-- PowerState of PF0. -/
def putPower (s : State) (v : W32) : State :=
  if bits v.toNat 1 0 = 3 then opD3hotEntry 0 s else if bits v.toNat 1 0 = 0 then opD3hotToD0 0 s else s

/-- Device Control: Initiate FLR is the last thing it does. -/
def putDevCtl (s : State) (fn : Nat) (v : W32) : State :=
  let s := s.modFunc fn fun f => { f with roEn := v.getLsbD 4, nsEn := v.getLsbD 11 }
  let s := if fn = 0 then { s with cap := { s.cap with mps := bits v.toNat 7 5, mrrs := bits v.toNat 14 12 } } else s
  if v.getLsbD 15 then opFlr fn s else s

/-- ATS Enable; clearing it drops the function's translations. -/
def putAts (s : State) (fn : Nat) (on : Bool) : State :=
  let s := s.modFunc fn fun f => { f with atsEn := on }
  if on then s
  else { s with
    dma.atc := s.dma.atc.filter fun e => e.fn != fn
    dma.asked := s.dma.asked.filter fun e => e.1 != fn }

/-- VF Enable of PF0. -/
def putVf (s : State) (on : Bool) : State :=
  if on then (if s.hv.ready then { s with cap.vfEnable := true } else s) else opVfEnableClear s

/-- A 64-bit base with its lower or its upper word replaced. -/
def putLow (a : W64) (v : W32) : W64 := hi32 a ++ v
def putHigh (a : W64) (v : W32) : W64 := v ++ lo32 a

/-- NumVFs and the VF BARs; NumVFs is written only while VF Enable is clear (R318, R323). -/
def writeCfgVf (g : Cap) (o : Nat) (v : W32) : Cap :=
  match o with
  | 0x160 => if g.vfEnable || 4095 < bits v.toNat 15 0 then g else { g with numVfs := bits v.toNat 15 0 }
  | 0x174 => { g with vbar0 := putLow g.vbar0 (v &&& 0xFF800000#32) }
  | 0x178 => { g with vbar0 := putHigh g.vbar0 v }
  | 0x17C => { g with vbar2 := putLow g.vbar2 (v &&& 0xFFFF0000#32) }
  | 0x180 => { g with vbar2 := putHigh g.vbar2 v }
  | _ => g

/-- The fields of PF0's configuration space that only hold what was written. -/
def writeCfgPf0 (g : Cap) (o : Nat) (v : W32) : Cap :=
  match o with
  | 0x10 => { g with bar0 := putLow g.bar0 (v &&& 0xFE000000#32) }
  | 0x14 => { g with bar0 := putHigh g.bar0 v }
  | 0x18 => { g with bar2 := putLow g.bar2 (v &&& 0xFFFF0000#32) }
  | 0x1C => { g with bar2 := putHigh g.bar2 v }
  | 0x98 => { g with ltrEn := v.getLsbD 10, tag10 := v.getLsbD 12 }
  | 0x194 => { g with acs := BitVec.ofNat 2 (bits v.toNat 19 18) }
  | 0x1AC => { g with pasidEn := v.getLsbD 16 }
  | 0x208 => { g with tag14 := v.getLsbD 2 }
  | _ => writeCfgVf g o v

/-- A word of a function's configuration space is written; `v` holds the present value in the bytes that the
write leaves out, and `set` zeros there. -/
def writeCfg (s : State) (fn o : Nat) (v set : W32) : State :=
  match o with
  | 0x04 => putBme s fn (v.getLsbD 2)
  | 0x44 => if fn = 0 then putPower s v else s
  | 0x50 => opMsixMaskWrite fn (.control (v.getLsbD 31) (v.getLsbD 30)) s
  | 0x78 => putDevCtl s fn v
  | 0x104 =>
    s.modFunc fn fun f => { f with aerCto := f.aerCto && !set.getLsbD 14, aerUc := f.aerUc && !set.getLsbD 16 }
  | 0x158 => if fn = 0 then putVf s (v.getLsbD 0) else s
  | 0x1A4 => putAts s fn (v.getLsbD 31)
  | 0x1C0 => if fn = 0 && set.getLsbD 0 then opDoeAbort s else s
  | _ => if fn = 0 then { s with cap := writeCfgPf0 s.cap o v } else s

/-- The bytes that a configuration write of `n` bytes at `o` writes. -/
def byteMask (o n : Nat) : W32 := w32 ((2 ^ (8 * n) - 1) * 2 ^ (8 * (o % 4)))

/-- A configuration write of 1, 2 or 4 bytes within a word. -/
def cfgWrite (s : State) (fn o n : Nat) (data : W64) : State :=
  if 4 < o % 4 + n then s
  else
    let m := byteMask o n
    let w := o / 4 * 4
    let set := w32 (data.toNat * 2 ^ (8 * (o % 4))) &&& m
    writeCfg s fn w ((cfgFnWord s fn w &&& ~~~m) ||| set) set

/-! ## The command -/

/-- The place is in the push window of a queue page. -/
def pushPlace (p : Place) : Option (Nat × Nat) :=
  match p.1 with
  | .page c q => if p.2 < 0x1C0 then some (c, q) else none
  | _ => none

/-- A write to a mailbox register withdraws idle (R341). -/
def mailActive (s : State) (p : Place) : State :=
  match p.1 with
  | .block c => if 0x200 ≤ p.2 && p.2 < 0x300 && mailOpen s c then fnActive s c else s
  | _ => s

/-- A write to a place that is in no configuration space. A sub-word write is discarded and counted (R16), one to a
reserved offset inside a block of registers too and one to a reserved range between blocks not (DESIGN CHOICE, log 61);
the push window takes what R44 says. -/
def writeAt (s : State) (who : Requester) (p : Place) (n : Nat) (data : W64) : State :=
  match pushPlace p with
  | some (c, q) => opPushWindowWrite c q p.2 false (bvLe n data) (fnActive s c)
  | none =>
    if n < 4 || p.2 % 4 != 0 then { s with hi.subword := satAdd 0xFFFFFFFF s.hi.subword 1 }
    else writeWords (mailActive s p) who p n data

/-- A register write. A write through an entry with RO set is discarded before its size is looked at, so that a sub-word
one is not counted in HI_SUBWORD (R16, R325); DESIGN CHOICE, log entry 61. -/
def opRegisterWrite (old : Bool) (who : Requester) (a : Access) (n : Nat) (data : W64) (s : State) : State :=
  let l := lands s old a n
  let s := countUnmapped s l
  if l.ro then s
  else match l.place.1 with
    | .void => s
    | .config fn => cfgWrite s fn l.place.2 n data
    | _ => writeAt s who l.place n data

/-- HV_SLEEP judges for itself whether a write that reaches it is a wake cause. One that is discarded, as a sub-word
write or by its window, is an access like any other (R446). -/
def toSleep (s : State) (a : Access) (n : Nat) : Bool :=
  let l := lands s false a n
  l.place == (.hv, 0x40) && !l.ro && decide (4 ≤ n)

def opRegWrite (who : Requester) (a : Access) (n : Nat) (data : W64) (s : State) : State :=
  if !okSize n then s
  else if toSleep s a n then opRegisterWrite false who a n data s
  else access (.registerWrite who a n data) a n false s (opRegisterWrite false who a n data)

def execRegisterWrite (who : Requester) (a : Access) (n : Nat) (data : W64) (s : State) :
    Host.Outcome State Fault Refusal :=
  .next (opRegWrite who a n data s)

end Sys2Proof.Machine
end

