-- ==== Sys2Proof/Machine/Wake.lean ====
section
/-! DEFINITION. The end of a wake, with the accesses it held; the return of the root PLL's lock; and the
debug port's hold on the keeper (R27, R35, R390, R407, R446, R463). -/

namespace Sys2Proof.Machine

/-- A request object of the DOE mailbox. -/
def isDoe (i : Instr) : Bool :=
  match i with
  | .doeDiscovery _ => true
  | .getVersion => true
  | .getCapabilities => true
  | .negotiateAlgorithms _ _ _ => true
  | .getDigests => true
  | .getCertificate _ _ _ => true
  | .challenge _ => true
  | .getMeasurements _ _ _ => true
  | .spdmUnsupportedRequest _ => true
  | _ => false

/-- A message of MCTP. -/
def isMctp (i : Instr) : Bool :=
  match i with
  | .setEndpointId _ => true
  | .getEndpointId => true
  | .getMctpVersionSupport _ => true
  | .getMessageTypeSupport => true
  | .getVendorDefinedMessageSupport _ => true
  | .readState _ _ _ => true
  | .combCmd _ _ _ => true
  | .queueCmd _ _ _ => true
  | .readSticky _ => true
  | .clearSticky _ _ => true
  | _ => false

/-- An MCTP message that waited is answered. -/
def runMctp (i : Instr) (s : State) : State :=
  if !mctpOpen s then s
  else match i with
  | .setEndpointId eid => answerSetEid eid s
  | .getEndpointId => answerGetEid s
  | .getMctpVersionSupport ty => answerMctpVersion ty s
  | .getMessageTypeSupport => answerMessageTypes s
  | .getVendorDefinedMessageSupport sel => answerVendors sel s
  | .readState inst kind index => answerReadState inst kind index s
  | .combCmd inst comb word => answerCombCmd inst comb word s
  | .queueCmd inst pool word => answerQueueCmd inst pool word s
  | .readSticky inst => answerReadSticky inst s
  | .clearSticky inst mask => answerClearSticky inst mask s
  | _ => s

/-- A held write or completion of the queues, the scheduler and the waggle unit. -/
def heldQueue (i : Instr) (s : State) : State :=
  match i with
  | .tnQcfgSelWrite client v => opTnQcfgSelWrite client v s
  | .tnQcfgCommit client => opTnQcfgCommit client s
  | .tnCrSelWrite client v => opTnCrSelWrite client v s
  | .tnCrCommit client => opTnCrCommit client s
  | .tnRlogCommit client => opTnRlogCommit client s
  | .schCommit => opSchCommit s
  | .wgSyncCommit => opWgSyncCommit s
  | .wgMlogCommit => opWgMlogCommit s
  | .wgTselWrite v => opWgTselWrite v s
  | .wgTcommit => opWgTcommit s
  | .qDbWrite client q v => opQDbWrite client q v (fnActive s client)
  | .qDbNodataWrite client q => opQDbNodataWrite client q (fnActive s client)
  | .pushWindowWrite client q off relaxed data => opPushWindowWrite client q off relaxed data (fnActive s client)
  | .qCmdEnable client q gen via => qCmd s client q 1 gen 0 0 via
  | .qCmdPause client q gen via => qCmd s client q 2 gen 0 0 via
  | .qCmdResume client q gen via => qCmd s client q 3 gen 0 0 via
  | .qCmdInvalidate client q gen start count via => qCmd s client q 5 gen count.toNat start via
  | .qCmdReset client q gen via => qCmd s client q 4 gen 0 0 via
  | .qCmdRestart client q gen via => qCmd s client q 6 gen 0 0 via
  | .qCmdReserved client q word via => opQCmdReserved client q word via s
  | .tnCrConsWrite client v => opTnCrConsWrite client v s
  | .readCompletion tag status data => opReadCompletion tag status data s
  | .atsInvalidationRequest fn pasid page npages itag => opAtsInvalidationRequest fn pasid page npages itag s
  | .wgMlogConsWrite v => opWgMlogConsWrite v s
  | .tnRlogConsWrite client v => opTnRlogConsWrite client v s
  | .atsTranslationCompletion fn pasid page rd wr xlate => opAtsTranslationCompletion fn pasid page rd wr xlate s
  | _ => s

/-- A held access of the endpoint, the functions, the events and the peers. -/
def heldHost (i : Instr) (s : State) : State :=
  match i with
  | .evLogConsWrite v => opEvLogConsWrite v s
  | .evLogCommit => opEvLogCommit s
  | .evPendClear i mask raised => opEvPendClear i mask raised s
  | .evRouteWrite v => opEvRouteWrite v s
  | .stickyClear i mask => opStickyClear i mask s
  | .msixMaskWrite client w => opMsixMaskWrite client w s
  | .bmeClear fn => opBmeClear fn s
  | .bmeSet fn => opBmeSet fn s
  | .flr fn => opFlr fn s
  | .d3hotEntry fn => opD3hotEntry fn s
  | .d3hotToD0 fn => opD3hotToD0 fn s
  | .vfEnableClear => opVfEnableClear s
  | .hiWttFlip => opHiWttFlip s
  | .peerWordWrite w => opPeerWordWrite w s
  | .piPeerReset p => opPiPeerReset p s
  | .piCommit => opPiCommit s
  | .doeAbort => opDoeAbort s
  | .keeperRestart e k => opKeeperRestart e k s
  | .tpLatchClear mask => opTpLatchClear mask s
  | .cfUpdCommit => opCfUpdCommit s
  | i => heldQueue i s

/-- A held request of the tenants and of the life cycle. -/
def heldAdmin (i : Instr) (s : State) : State :=
  match i with
  | .lcToTestUnlocked k confirm => lcRequest s (0x0100 + k % 256) confirm.toNat
  | .lcToTestLocked k confirm => lcRequest s (0x0200 + k % 256) confirm.toNat
  | .lcToManufactured confirm => lcRequest s 0x0300 confirm.toNat
  | .lcToProvisioned confirm => lcRequest s 0x0400 confirm.toNat
  | .lcToRma confirm => lcRequest s 0x0500 confirm.toNat
  | .lcToScrap confirm => lcRequest s 0x0600 confirm.toNat
  | .lcTransitionRefused target confirm => opLcTransitionRefused target.toNat confirm.toNat s
  | .lcDbgReqDebug => dbgRequest s 1
  | .lcDbgReqRma => dbgRequest s 2
  | .lcRespCommit => opLcRespCommit s
  | .tnAdmCreate => opTnAdmCreate s
  | .tnAdmResize => opTnAdmResize s
  | .tnAdmDestroy => opTnAdmDestroy s
  | .tnAdmOp0 => opTnAdmOp0 s
  | .tnDmawEntryWrite reg v => opTnDmawEntryWrite reg v s
  | .tnDmawFlip client => opTnDmawFlip client s
  | i => heldHost i s

/-- An access that was held completes; `old` says that it came before the last flip of the window translation
table (R328). Only these commands, the request objects of the mailbox and the messages of MCTP are ever held. -/
def runHeld (old : Bool) (i : Instr) (s : State) : State :=
  match i with
  | .mbH2kMsgWrite c v => opMbH2kMsgWrite c v (fnActive s c)
  | .mbK2hMsgRead c => opMbK2hMsgRead c s
  | .mbPoolRegister c r => opMbPoolRegister c r (fnActive s c)
  | .cbCmdOnline c g => cbWrite s c 1 g
  | .cbCmdOffline c g => cbWrite s c 2 g
  | .cbCmdInvalid c w => opCbCmdInvalid c w s
  | .ksZeroiseStart => opKsZeroiseStart s
  | .ksProvGenerate => provCommit s 0
  | .ksProvUnwrap => provCommit s 1
  | .ksProvInvalidate => provCommit s 2
  | .ksProvOp3 => opKsProvOp3 s
  | .registerWrite who a n d => opRegisterWrite old who a n d s
  | .rcRegisterRead who a n => opRegisterRead old who a n s
  | .splitReadLatch who a => splitRead old who a s
  | i => if isDoe i then doeTake i s (doeWork i) else if isMctp i then runMctp i s else heldAdmin i s

/-- The held accesses complete in order of arrival. -/
def runAll (s : State) : State :=
  let l := s.hv.heldCmds
  let n := s.hi.wttOld
  ({ s with hv.heldCmds := [], hi.wttOld := 0 }).each l.zipIdx fun s e => runHeld (decide (e.2 < n)) e.1 s

/-- WAKING ends: the Hive is AWAKE. -/
def opWakeDone (s : State) : State := if s.hv.pwr = 3 && s.hv.rootLock then runAll (awaken s) else s

def execWakeDone (s : State) : Host.Outcome State Fault Refusal := .next (opWakeDone s)

/-- A tamper response that abandons the entry of sleep makes the Hive AWAKE, and what it held completes (R447, R463). -/
def settle (s t : State) : State := if s.hv.pwr != 0 && t.hv.pwr = 0 && !t.unclocked then runAll t else t

def execTamperInTrip (n : Nat) (high : Bool) (s : State) : Host.Outcome State Fault Refusal :=
  .next (settle s (opTamperInTrip n high s))

def execVoltageTrip (domain : Fin 5) (reads : Supply) (s : State) : Host.Outcome State Fault Refusal :=
  .next (settle s (opVoltageTrip domain.val reads s))

def execPllLockLoss (s : State) : Host.Outcome State Fault Refusal := .next (settle s (opPllLockLoss s))

def execRefclkFrequencyTrip (outside : Bool) (s : State) : Host.Outcome State Fault Refusal :=
  .next (settle s (opRefclkFrequencyTrip outside s))

def execTemperatureTrip (outside : Bool) (s : State) : Host.Outcome State Fault Refusal :=
  .next (settle s (opTemperatureTrip outside s))

/-- The root PLL retries its lock. With it the clocks restart, a sleeping Hive is AWAKE (R447), and
what waited for the clocks runs: a tamper response's remainder, the keeper, the held accesses (R407). -/
def opPllRelockRetry (locked : Bool) (s : State) : State :=
  if s.hv.rootLock || s.hv.step < 3 || !locked then s
  else
    let s := { s with hv := { s.hv with rootLock := true, cclk := true, fclk := true, kclk := true, xclk := true }
                      aon.unlock := false }
    runAll (if s.hv.pwr = 0 then keeperBack (zeroRest s) else awaken s)

def execPllRelockRetry (locked : Bool) (s : State) : Host.Outcome State Fault Refusal :=
  .next (opPllRelockRetry locked s)

/-- The test modes are open to the debug port (R390). -/
def testable (s : State) : Bool := decide (s.lcCode < 0x0200)

/-- The bytes of keeper RAM (R36). -/
def ramSize : Nat := 0x400000

/-- A test token is programmed: OTP bits only change from 0 to 1 (R392, R396). -/
def Otp.programToken (o : Otp) (k : Nat) (v : BitVec 128) : Otp :=
  { o with tokens := (List.range 8).map fun i =>
      let t := (o.tokens[i]?).getD (0, false)
      if i = k then (t.1 ||| v, t.2) else t }

/-- What the debug port does while debug is open (R390); keeper RAM needs the keeper's clock (R33). A single step of the
halted keeper runs one instruction of its firmware, of which the spec says nothing more. -/
def opDebugKeeperHalt (cmd : DbgCmd) (s : State) : State :=
  if !s.lc.debugOpen then s
  else match cmd with
    | .halt => { s with hv.dbgHalt := true }
    | .run => keeperBack { s with hv.dbgHalt := false }
    | .step => s
    | .ramRead a => if !s.hv.kclk then s else { s with resp := ((s.hv.ram[a]?).getD 0).setWidth 64 }
    | .ramWrite a b =>
      if a < ramSize && s.hv.kclk then
        { s with hv.ram := patch (fit s.hv.ram (max s.hv.ram.length (a + 1))) a [b] }
      else s
    | .scan => if testable s then { s with hv.testMode := 1 } else s
    | .memTest => if testable s then { s with hv.testMode := 2 } else s
    | .token k v =>
      if s.lcCode = 0 && s.hv.testMode != 0 && k < 8 then { s with otp := s.otp.programToken k v } else s

def execDebugKeeperHalt (cmd : DbgCmd) (s : State) : Host.Outcome State Fault Refusal :=
  .next (opDebugKeeperHalt cmd s)

end Sys2Proof.Machine
end

