-- ==== Sys2Proof/Machine/Dispatch.lean ====
section
/-! DEFINITION. What each command does to everything but the queue of waiting commands: one arm per
row of the opcode table. -/

namespace Sys2Proof.Machine

def exec (i : Instr) (s : State) : Host.Outcome State Fault Refusal :=
  match i with
  | .coldPowerOn => Sys2Proof.Machine.execColdPowerOn s
  | .warmReset cause => Sys2Proof.Machine.execWarmReset cause s
  | .hiveRstNAssert => Sys2Proof.Machine.execHiveRstNAssert s
  | .startupStepDone ins ramEcc => Sys2Proof.Machine.execStartupStepDone ins ramEcc s
  | .pllLockTimeout => Sys2Proof.Machine.execPllLockTimeout s
  | .svnCommitProgram => Sys2Proof.Machine.execSvnCommitProgram s
  | .keeperRestart ramError readOk => Sys2Proof.Machine.execKeeperRestart ramError readOk s
  | .keeperWatchdogExpiry readOk => Sys2Proof.Machine.execKeeperWatchdogExpiry readOk s
  | .qDbWrite client q v => Sys2Proof.Machine.execQDbWrite client q v s
  | .qDbNodataWrite client q => Sys2Proof.Machine.execQDbNodataWrite client q s
  | .producerMirrorReadDone client q => Sys2Proof.Machine.execProducerMirrorReadDone client q s
  | .pushWindowWrite client q off relaxed data => Sys2Proof.Machine.execPushWindowWrite client q off relaxed data s
  | .pushStagingTimeout client q => Sys2Proof.Machine.execPushStagingTimeout client q s
  | .descriptorPrefetch client q evict => Sys2Proof.Machine.execDescriptorPrefetch client q evict s
  | .descriptorFetchDone client q ecc => Sys2Proof.Machine.execDescriptorFetchDone client q ecc s
  | .qCmdEnable client q gen via => Sys2Proof.Machine.execQCmdEnable client q gen via s
  | .qCmdPause client q gen via => Sys2Proof.Machine.execQCmdPause client q gen via s
  | .pauseAck client q => Sys2Proof.Machine.execPauseAck client q s
  | .qCmdResume client q gen via => Sys2Proof.Machine.execQCmdResume client q gen via s
  | .qCmdReset client q gen via => Sys2Proof.Machine.execQCmdReset client q gen via s
  | .resetAck client q => Sys2Proof.Machine.execResetAck client q s
  | .qCmdInvalidate client q gen start count via => Sys2Proof.Machine.execQCmdInvalidate client q gen start count via s
  | .invalidateAck client q => Sys2Proof.Machine.execInvalidateAck client q s
  | .qCmdRestart client q gen via => Sys2Proof.Machine.execQCmdRestart client q gen via s
  | .restartAck client q => Sys2Proof.Machine.execRestartAck client q s
  | .qCmdReserved client q word via => Sys2Proof.Machine.execQCmdReserved client q word via s
  | .queueDrainEnd client q => Sys2Proof.Machine.execQueueDrainEnd client q s
  | .jobDispatch acct => Sys2Proof.Machine.execJobDispatch acct s
  | .schedulingEpochStart busy => Sys2Proof.Machine.execSchedulingEpochStart busy s
  | .keyPull job ecc => Sys2Proof.Machine.execKeyPull job ecc s
  | .nonceReservationWriteDone client slot => Sys2Proof.Machine.execNonceReservationWriteDone client slot s
  | .readCompletion tag status data => Sys2Proof.Machine.execReadCompletion tag status data s
  | .completionTimeout tag => Sys2Proof.Machine.execCompletionTimeout tag s
  | .atsTranslationCompletion fn pasid page rd wr xlate => Sys2Proof.Machine.execAtsTranslationCompletion fn pasid page rd wr xlate s
  | .atsInvalidationRequest fn pasid page npages itag => Sys2Proof.Machine.execAtsInvalidationRequest fn pasid page npages itag s
  | .atsInvalidationDone fn itag => Sys2Proof.Machine.execAtsInvalidationDone fn itag s
  | .sliceBoundary job busy => Sys2Proof.Machine.execSliceBoundary job busy s
  | .jobEnd job overlapFree ecc => Sys2Proof.Machine.execJobEnd job overlapFree ecc s
  | .leafAssign job => Sys2Proof.Machine.execLeafAssign job s
  | .headAdvance client q => Sys2Proof.Machine.execHeadAdvance client q s
  | .headMirrorWrite client q => Sys2Proof.Machine.execHeadMirrorWrite client q s
  | .completionRecordWrite client q => Sys2Proof.Machine.execCompletionRecordWrite client q s
  | .tnCrConsWrite client v => Sys2Proof.Machine.execTnCrConsWrite client v s
  | .fenceEnd job => Sys2Proof.Machine.execFenceEnd job s
  | .nop job => Sys2Proof.Machine.execNop job s
  | .fence job => Sys2Proof.Machine.execFence job s
  | .stamp job => Sys2Proof.Machine.execStamp job s
  | .aesGcmEnc job => Sys2Proof.Machine.execAesGcmEnc job s
  | .aesGcmDec job => Sys2Proof.Machine.execAesGcmDec job s
  | .aesCcmEnc job => Sys2Proof.Machine.execAesCcmEnc job s
  | .aesCcmDec job => Sys2Proof.Machine.execAesCcmDec job s
  | .aesCbcEnc job => Sys2Proof.Machine.execAesCbcEnc job s
  | .aesCbcDec job => Sys2Proof.Machine.execAesCbcDec job s
  | .aesCtr job => Sys2Proof.Machine.execAesCtr job s
  | .aesXtsEnc job => Sys2Proof.Machine.execAesXtsEnc job s
  | .aesXtsDec job => Sys2Proof.Machine.execAesXtsDec job s
  | .chachaPolyEnc job => Sys2Proof.Machine.execChachaPolyEnc job s
  | .chachaPolyDec job => Sys2Proof.Machine.execChachaPolyDec job s
  | .aesGmac job => Sys2Proof.Machine.execAesGmac job s
  | .tls13RecSeal job => Sys2Proof.Machine.execTls13RecSeal job s
  | .tls13RecOpen job => Sys2Proof.Machine.execTls13RecOpen job s
  | .espSeal job => Sys2Proof.Machine.execEspSeal job s
  | .espOpen job => Sys2Proof.Machine.execEspOpen job s
  | .hash job => Sys2Proof.Machine.execHash job s
  | .shakeXof job => Sys2Proof.Machine.execShakeXof job s
  | .hmacGen job => Sys2Proof.Machine.execHmacGen job s
  | .hmacVerify job => Sys2Proof.Machine.execHmacVerify job s
  | .kmac job => Sys2Proof.Machine.execKmac job s
  | .cmacGen job => Sys2Proof.Machine.execCmacGen job s
  | .cmacVerify job => Sys2Proof.Machine.execCmacVerify job s
  | .rsaPriv job fault => Sys2Proof.Machine.execRsaPriv job fault s
  | .rsaPub job => Sys2Proof.Machine.execRsaPub job s
  | .ecdsaSign job fault => Sys2Proof.Machine.execEcdsaSign job fault s
  | .ecdsaVerify job => Sys2Proof.Machine.execEcdsaVerify job s
  | .eddsaSign job fault => Sys2Proof.Machine.execEddsaSign job fault s
  | .eddsaVerify job => Sys2Proof.Machine.execEddsaVerify job s
  | .ecdh job fault => Sys2Proof.Machine.execEcdh job fault s
  | .xdh job fault => Sys2Proof.Machine.execXdh job fault s
  | .modexpRaw job => Sys2Proof.Machine.execModexpRaw job s
  | .ecPointMulRaw job fault => Sys2Proof.Machine.execEcPointMulRaw job fault s
  | .mlkemKeygen job => Sys2Proof.Machine.execMlkemKeygen job s
  | .mlkemEncap job => Sys2Proof.Machine.execMlkemEncap job s
  | .mlkemDecap job => Sys2Proof.Machine.execMlkemDecap job s
  | .mldsaKeygen job => Sys2Proof.Machine.execMldsaKeygen job s
  | .mldsaSign job => Sys2Proof.Machine.execMldsaSign job s
  | .mldsaVerify job => Sys2Proof.Machine.execMldsaVerify job s
  | .keyGenerate job => Sys2Proof.Machine.execKeyGenerate job s
  | .keyDerive job => Sys2Proof.Machine.execKeyDerive job s
  | .keyWrap job => Sys2Proof.Machine.execKeyWrap job s
  | .keyUnwrap job => Sys2Proof.Machine.execKeyUnwrap job s
  | .keyCheckValue job => Sys2Proof.Machine.execKeyCheckValue job s
  | .keyInvalidate job => Sys2Proof.Machine.execKeyInvalidate job s
  | .keyAttest job => Sys2Proof.Machine.execKeyAttest job s
  | .keyAgreeToSlot job fault => Sys2Proof.Machine.execKeyAgreeToSlot job fault s
  | .random job => Sys2Proof.Machine.execRandom job s
  | .ctxExport job => Sys2Proof.Machine.execCtxExport job s
  | .ctxImport job => Sys2Proof.Machine.execCtxImport job s
  | .scrubPassStart => Sys2Proof.Machine.execScrubPassStart s
  | .scrubSlotVisit => Sys2Proof.Machine.execScrubSlotVisit s
  | .ksZeroiseStart => Sys2Proof.Machine.execKsZeroiseStart s
  | .zeroisationStep5Done => Sys2Proof.Machine.execZeroisationStep5Done s
  | .ksProvGenerate => Sys2Proof.Machine.execKsProvGenerate s
  | .ksProvUnwrap => Sys2Proof.Machine.execKsProvUnwrap s
  | .ksProvInvalidate => Sys2Proof.Machine.execKsProvInvalidate s
  | .ksProvOp3 => Sys2Proof.Machine.execKsProvOp3 s
  | .provDone read blob => Sys2Proof.Machine.execProvDone read blob s
  | .todWord w => Sys2Proof.Machine.execTodWord w s
  | .freezeEnd => Sys2Proof.Machine.execFreezeEnd s
  | .todLost => Sys2Proof.Machine.execTodLost s
  | .errorBoundExceeded => Sys2Proof.Machine.execErrorBoundExceeded s
  | .ppsEdge sub => Sys2Proof.Machine.execPpsEdge sub s
  | .ppsTimeout => Sys2Proof.Machine.execPpsTimeout s
  | .epochClose lost corrected => Sys2Proof.Machine.execEpochClose lost corrected s
  | .epochReservationWriteDone => Sys2Proof.Machine.execEpochReservationWriteDone s
  | .receiptCheckpoint => Sys2Proof.Machine.execReceiptCheckpoint s
  | .ckptLate => Sys2Proof.Machine.execCkptLate s
  | .wgMlogConsWrite v => Sys2Proof.Machine.execWgMlogConsWrite v s
  | .tnRlogConsWrite client v => Sys2Proof.Machine.execTnRlogConsWrite client v s
  | .peerWordWrite w => Sys2Proof.Machine.execPeerWordWrite w s
  | .packetRead ecc corrected => Sys2Proof.Machine.execPacketRead ecc corrected s
  | .peerEgressHandoff ready => Sys2Proof.Machine.execPeerEgressHandoff ready s
  | .piPeerReset p => Sys2Proof.Machine.execPiPeerReset p s
  | .peerResetDone => Sys2Proof.Machine.execPeerResetDone s
  | .piCommit => Sys2Proof.Machine.execPiCommit s
  | .tnAdmCreate => Sys2Proof.Machine.execTnAdmCreate s
  | .tnAdmResize => Sys2Proof.Machine.execTnAdmResize s
  | .tnAdmDestroy => Sys2Proof.Machine.execTnAdmDestroy s
  | .tnAdmOp0 => Sys2Proof.Machine.execTnAdmOp0 s
  | .admKeeperTimeout => Sys2Proof.Machine.execAdmKeeperTimeout s
  | .destroyComplete client => Sys2Proof.Machine.execDestroyComplete client s
  | .tnDmawEntryWrite reg v => Sys2Proof.Machine.execTnDmawEntryWrite reg v s
  | .tnDmawFlip client => Sys2Proof.Machine.execTnDmawFlip client s
  | .dmawFlipEffect client => Sys2Proof.Machine.execDmawFlipEffect client s
  | .dmawFlipDrained client => Sys2Proof.Machine.execDmawFlipDrained client s
  | .hiWttFlip => Sys2Proof.Machine.execHiWttFlip s
  | .wttFlipEffect => Sys2Proof.Machine.execWttFlipEffect s
  | .wttFlipDrained => Sys2Proof.Machine.execWttFlipDrained s
  | .mbH2kMsgWrite client v => Sys2Proof.Machine.execMbH2kMsgWrite client v s
  | .h2kKeeperRead client read body => Sys2Proof.Machine.execH2kKeeperRead client read body s
  | .echo client => Sys2Proof.Machine.execEcho client s
  | .unknownType client => Sys2Proof.Machine.execUnknownType client s
  | .k2hPost client => Sys2Proof.Machine.execK2hPost client s
  | .mbK2hMsgRead client => Sys2Proof.Machine.execMbK2hMsgRead client s
  | .mbPoolRegister client reg => Sys2Proof.Machine.execMbPoolRegister client reg s
  | .bmeClear fn => Sys2Proof.Machine.execBmeClear fn s
  | .bmeSet fn => Sys2Proof.Machine.execBmeSet fn s
  | .flr fn => Sys2Proof.Machine.execFlr fn s
  | .flrReadsDrained fn => Sys2Proof.Machine.execFlrReadsDrained fn s
  | .flrDone fn => Sys2Proof.Machine.execFlrDone fn s
  | .d3hotEntry fn => Sys2Proof.Machine.execD3hotEntry fn s
  | .d3hotToD0 fn => Sys2Proof.Machine.execD3hotToD0 fn s
  | .vfEnableClear => Sys2Proof.Machine.execVfEnableClear s
  | .msixMessageSend client vec => Sys2Proof.Machine.execMsixMessageSend client vec s
  | .moderationIntervalEnd client vec => Sys2Proof.Machine.execModerationIntervalEnd client vec s
  | .msixMaskWrite client w => Sys2Proof.Machine.execMsixMaskWrite client w s
  | .linkIdleSignal => Sys2Proof.Machine.execLinkIdleSignal s
  | .doeDiscovery index => Sys2Proof.Machine.execDoeDiscovery index s
  | .getVersion => Sys2Proof.Machine.execGetVersion s
  | .getCapabilities => Sys2Proof.Machine.execGetCapabilities s
  | .negotiateAlgorithms sha256 sha384 ed25519 => Sys2Proof.Machine.execNegotiateAlgorithms sha256 sha384 ed25519 s
  | .getDigests => Sys2Proof.Machine.execGetDigests s
  | .getCertificate slot off len => Sys2Proof.Machine.execGetCertificate slot off len s
  | .challenge c => Sys2Proof.Machine.execChallenge c s
  | .getMeasurements index signed nonce => Sys2Proof.Machine.execGetMeasurements index signed nonce s
  | .spdmUnsupportedRequest code => Sys2Proof.Machine.execSpdmUnsupportedRequest code s
  | .doeAbort => Sys2Proof.Machine.execDoeAbort s
  | .setEndpointId eid => Sys2Proof.Machine.execSetEndpointId eid s
  | .getEndpointId => Sys2Proof.Machine.execGetEndpointId s
  | .getMctpVersionSupport msgType => Sys2Proof.Machine.execGetMctpVersionSupport msgType s
  | .getMessageTypeSupport => Sys2Proof.Machine.execGetMessageTypeSupport s
  | .getVendorDefinedMessageSupport selector => Sys2Proof.Machine.execGetVendorDefinedMessageSupport selector s
  | .readState inst kind index => Sys2Proof.Machine.execReadState inst kind index s
  | .combCmd inst comb word => Sys2Proof.Machine.execCombCmd inst comb word s
  | .queueCmd inst pool word => Sys2Proof.Machine.execQueueCmd inst pool word s
  | .readSticky inst => Sys2Proof.Machine.execReadSticky inst s
  | .clearSticky inst mask => Sys2Proof.Machine.execClearSticky inst mask s
  | .eventRecordWrite source => Sys2Proof.Machine.execEventRecordWrite source s
  | .evLogConsWrite v => Sys2Proof.Machine.execEvLogConsWrite v s
  | .evPendClear idx mask raised => Sys2Proof.Machine.execEvPendClear idx mask raised s
  | .evRouteWrite v => Sys2Proof.Machine.execEvRouteWrite v s
  | .stickyClear idx mask => Sys2Proof.Machine.execStickyClear idx mask s
  | .cbCmdOnline comb gen => Sys2Proof.Machine.execCbCmdOnline comb gen s
  | .cbCmdOffline comb gen => Sys2Proof.Machine.execCbCmdOffline comb gen s
  | .cbCmdInvalid comb word => Sys2Proof.Machine.execCbCmdInvalid comb word s
  | .combDrainEnd comb => Sys2Proof.Machine.execCombDrainEnd comb s
  | .tamperInTrip n high => Sys2Proof.Machine.execTamperInTrip n high s
  | .voltageTrip domain reads => Sys2Proof.Machine.execVoltageTrip domain reads s
  | .pllLockLoss => Sys2Proof.Machine.execPllLockLoss s
  | .refclkFrequencyTrip outside => Sys2Proof.Machine.execRefclkFrequencyTrip outside s
  | .temperatureTrip outside => Sys2Proof.Machine.execTemperatureTrip outside s
  | .pllRelockRetry locked => Sys2Proof.Machine.execPllRelockRetry locked s
  | .tpLatchClear mask => Sys2Proof.Machine.execTpLatchClear mask s
  | .lcToTestUnlocked k confirm => Sys2Proof.Machine.execLcToTestUnlocked k confirm s
  | .lcToTestLocked k confirm => Sys2Proof.Machine.execLcToTestLocked k confirm s
  | .lcToManufactured confirm => Sys2Proof.Machine.execLcToManufactured confirm s
  | .lcToProvisioned confirm => Sys2Proof.Machine.execLcToProvisioned confirm s
  | .lcToRma confirm => Sys2Proof.Machine.execLcToRma confirm s
  | .lcToScrap confirm => Sys2Proof.Machine.execLcToScrap confirm s
  | .lcTransitionRefused target confirm => Sys2Proof.Machine.execLcTransitionRefused target confirm s
  | .lcTransitionOtpDone => Sys2Proof.Machine.execLcTransitionOtpDone s
  | .lcDbgReqDebug => Sys2Proof.Machine.execLcDbgReqDebug s
  | .lcDbgReqRma => Sys2Proof.Machine.execLcDbgReqRma s
  | .lcRespCommit => Sys2Proof.Machine.execLcRespCommit s
  | .debugAuthVerifyDone read resp => Sys2Proof.Machine.execDebugAuthVerifyDone read resp s
  | .substitutionRefDeadline => Sys2Proof.Machine.execSubstitutionRefDeadline s
  | .substitutionZeroise => Sys2Proof.Machine.execSubstitutionZeroise s
  | .cfUpdCommit => Sys2Proof.Machine.execCfUpdCommit s
  | .updatePhaseDone read buf => Sys2Proof.Machine.execUpdatePhaseDone read buf s
  | .updateKeeperTimeout => Sys2Proof.Machine.execUpdateKeeperTimeout s
  | .hvSleepEnter key => Sys2Proof.Machine.execHvSleepEnter key s
  | .sleepEntryDone => Sys2Proof.Machine.execSleepEntryDone s
  | .hvSleepWake key => Sys2Proof.Machine.execHvSleepWake key s
  | .sleepWake cause => Sys2Proof.Machine.execSleepWake cause s
  | .wakeDone => Sys2Proof.Machine.execWakeDone s
  | .tnQcfgSelWrite client v => Sys2Proof.Machine.execTnQcfgSelWrite client v s
  | .tnQcfgCommit client => Sys2Proof.Machine.execTnQcfgCommit client s
  | .tnCrSelWrite client v => Sys2Proof.Machine.execTnCrSelWrite client v s
  | .tnCrCommit client => Sys2Proof.Machine.execTnCrCommit client s
  | .tnRlogCommit client => Sys2Proof.Machine.execTnRlogCommit client s
  | .schCommit => Sys2Proof.Machine.execSchCommit s
  | .wgSyncCommit => Sys2Proof.Machine.execWgSyncCommit s
  | .wgMlogCommit => Sys2Proof.Machine.execWgMlogCommit s
  | .wgTselWrite v => Sys2Proof.Machine.execWgTselWrite v s
  | .wgTcommit => Sys2Proof.Machine.execWgTcommit s
  | .evLogCommit => Sys2Proof.Machine.execEvLogCommit s
  | .registerWrite who a n data => Sys2Proof.Machine.execRegisterWrite who a n data s
  | .rcRegisterRead who a n => Sys2Proof.Machine.execRcRegisterRead who a n s
  | .splitReadLatch who a => Sys2Proof.Machine.execSplitReadLatch who a s
  | .entropySourceHealthFail => Sys2Proof.Machine.execEntropySourceHealthFail s
  | .debugKeeperHalt cmd => Sys2Proof.Machine.execDebugKeeperHalt cmd s

end Sys2Proof.Machine
end

