-- ==== Sys2Proof/Machine/Balls.lean ====
section
/-! DEFINITION. What the Hive drives on its balls and boundary signals, as functions of the state (R405, R423,
R434, R436, R438). -/

namespace Sys2Proof.Machine

/-- What a ball of the Hive does: an output is driven low or high, follows the flash protocol of R449, or is not driven;
the rest are inputs. -/
inductive Drive where
  | low | high | protocol | highZ | input
deriving DecidableEq, Repr

def driveOf (b : Bool) : Drive := if b then .high else .low

/-- A pad of a supply is unpowered: that supply or VDD_AON lies below 90 % of nominal (R434). -/
def unpowered (s : State) (domain : Nat) : Bool := s.aon.low.getLsbD domain || s.aon.low.getLsbD domVddAon

/-- No output is driven: before power-on, while HIVE_RST_N is held, and on an unpowered pad (R434). The 3 µs for which
HIVE_READY is still driven low at the assertion are left out. -/
def undriven (s : State) (domain : Nat) : Bool := s.hv.step == 0 || s.hv.rstHeld || unpowered s domain

/-- An output of a domain's pad. -/
def ball (s : State) (domain : Nat) (d : Drive) : Drive := if undriven s domain then .highZ else d

/-- The Hive is in operation: step 10 of start-up has ended. -/
def ballReady (s : State) : Drive := ball s domVddioHv (driveOf s.hv.ready)

/-- The flash controller works: in step 4 of start-up, and in the phases of an update that erase, program and verify
(R367, R379). -/
def xspiBusy (s : State) : Bool := s.hv.step == 4 || (s.store.updBusy && decide (2 ≤ s.store.updPhase))

/-- The xSPI balls (R433, R434): between commands the clock rests low, the chip is deselected and the data balls
float. -/
def ballXspiClk (s : State) : Drive := ball s domVddioHv (if xspiBusy s then .protocol else .low)
def ballXspiCsN (s : State) : Drive := ball s domVddioHv (if xspiBusy s then .protocol else .high)
def ballXspiDq (s : State) : Drive := ball s domVddioHv (if xspiBusy s then .protocol else .highZ)
def ballXspiDqs (_ : State) : Drive := .input

/-- HIVE_SYNC_OK (R436): SYNCED is state 2 and HOLDOVER state 3 of WG_STATUS. -/
def syncOk (s : State) : Bool := s.hv.ready && (s.sync.state == 2 || (s.sync.state == 3 && s.hv.syncHold))

def ballSyncOk (s : State) : Drive := ball s domVddioHv (driveOf (syncOk s))

/-- The sticky bits that drive HIVE_ALERT_N under ST_ALERT (R421, R423): 80 to 87, 94 and 95 always, then
the groups COMBS, MEMORY and OTHER. -/
def alertMask (alert : BitVec 3) : List Nat :=
  (List.range 8).map (80 + ·) ++ [94, 95]
    ++ (if alert.getLsbD 0 then List.range 64 else [])
    ++ (if alert.getLsbD 1 then (List.range 12).map (64 + ·) else [])
    ++ (if alert.getLsbD 2 then (List.range 6).map (88 + ·) ++ (List.range 10).map (96 + ·) else [])

/-- A condition of R423 holds; in SCRAP the alert is driven too (R391). -/
def alerted (s : State) : Bool :=
  (alertMask s.aon.alert).any s.aon.sticky.getLsbD || s.aon.latch != 0 || s.hv.fail != 0 || s.lcCode == 0x0600

def ballAlertN (s : State) : Drive := ball s domVddioAon (driveOf (!alerted s))

/-- TAMPER_OUT (R405). -/
def tamperOut (s : State) : Bool := s.aon.tampered || s.aon.latch != 0

def ballTamperOut (s : State) : Drive := ball s domVddioAon (driveOf (tamperOut s))

/-- The core domains are off, or start-up has not reached step 10: the isolation cells hold the Hive's outputs
(R438). -/
def isolated (s : State) : Bool := !s.hv.ready || s.coreOff

/-- The copies of the status outputs at the adapter's management logic: isolated, each reads as its pulled level
(R434, R438). -/
def copyReady (s : State) : Bool := !isolated s && s.hv.ready
def copySyncOk (s : State) : Bool := !isolated s && syncOk s
def copyAlertN (s : State) : Bool := !isolated s && !alerted s
def copyTamperOut (s : State) : Bool := isolated s || tamperOut s

/-- PF_XOFF as the packet pipeline sees it: isolated to 0xFF before step 10 (R356, R438). -/
def pinXoff (s : State) : BitVec 8 := if isolated s then 0xFF else s.peer.xoff

/-- Function ready and the idle indication, as the endpoint sees them (R341, R370, R438). -/
def pinFnReady (s : State) : Bool := s.presented
def pinIdle (s : State) : Bool := isolated s || s.hi.idle

/-- What the endpoint may do with the link: L1 with its substates, and L0p (R340). -/
def pinAspm (s : State) : Bool := s.hi.cfg.getLsbD 1
def pinL0p (s : State) : Bool := s.hi.cfg.getLsbD 2

end Sys2Proof.Machine
end

