-- ==== Sys2Proof/Safety.lean ====
section
/-! DEFINITION. What a safe state is: eleven tables of the state have their canonical form, and the modes that
the spec enumerates are legal. What it means that an operation changes no more than its footprint. -/

namespace Sys2Proof.Machine

/-- The tables of functions, tenants, queues, completion rings, contexts, key slots, combs, jobs, MRAM records, reads
under way and peer packets are in canonical form: equal contents are equal data. -/
def State.wf (s : State) : Bool :=
  tblWf {} s.fns && tblWf {} s.tenants && tblWf {} s.queues && tblWf {} s.rings && tblWf {} s.ctxs
    && tblWf {} s.slots && tblWf {} s.combs && tblWf {} s.jobs && tblWf {} s.store.mram
    && tblWf none s.dma.reads && tblWf {} s.peer.packets

/-- What every step keeps: canonical tables, a power state of R447 and a start-up step of R367. -/
def State.Inv (s : State) : Prop := s.wf = true ∧ s.hv.pwr ≤ 3 ∧ s.hv.step ≤ 10

/-- A footprint: the fields of the state that may change (`pending` never may). -/
structure Foot where
  hv : Bool := false
  store : Bool := false
  otp : Bool := false
  aon : Bool := false
  ev : Bool := false
  hi : Bool := false
  cap : Bool := false
  dma : Bool := false
  doe : Bool := false
  lc : Bool := false
  peer : Bool := false
  sync : Bool := false
  wg : Bool := false
  adm : Bool := false
  ks : Bool := false
  sch : Bool := false
  fns : Bool := false
  tenants : Bool := false
  queues : Bool := false
  rings : Bool := false
  ctxs : Bool := false
  slots : Bool := false
  combs : Bool := false
  jobs : Bool := false
  nextJob : Bool := false
  out : Bool := false
  halves : Bool := false
  latches : Bool := false
  resp : Bool := false
  retry : Bool := false
  trngN : Bool := false
  freeN : Bool := false
deriving DecidableEq, Repr

/-- Fields outside the footprint are as they were. -/
structure Unch (F : Foot) (s t : State) : Prop where
  hv : t.hv = s.hv ∨ F.hv = true
  store : t.store = s.store ∨ F.store = true
  otp : t.otp = s.otp ∨ F.otp = true
  aon : t.aon = s.aon ∨ F.aon = true
  ev : t.ev = s.ev ∨ F.ev = true
  hi : t.hi = s.hi ∨ F.hi = true
  cap : t.cap = s.cap ∨ F.cap = true
  dma : t.dma = s.dma ∨ F.dma = true
  doe : t.doe = s.doe ∨ F.doe = true
  lc : t.lc = s.lc ∨ F.lc = true
  peer : t.peer = s.peer ∨ F.peer = true
  sync : t.sync = s.sync ∨ F.sync = true
  wg : t.wg = s.wg ∨ F.wg = true
  adm : t.adm = s.adm ∨ F.adm = true
  ks : t.ks = s.ks ∨ F.ks = true
  sch : t.sch = s.sch ∨ F.sch = true
  fns : t.fns = s.fns ∨ F.fns = true
  tenants : t.tenants = s.tenants ∨ F.tenants = true
  queues : t.queues = s.queues ∨ F.queues = true
  rings : t.rings = s.rings ∨ F.rings = true
  ctxs : t.ctxs = s.ctxs ∨ F.ctxs = true
  slots : t.slots = s.slots ∨ F.slots = true
  combs : t.combs = s.combs ∨ F.combs = true
  jobs : t.jobs = s.jobs ∨ F.jobs = true
  nextJob : t.nextJob = s.nextJob ∨ F.nextJob = true
  out : t.out = s.out ∨ F.out = true
  halves : t.halves = s.halves ∨ F.halves = true
  latches : t.latches = s.latches ∨ F.latches = true
  resp : t.resp = s.resp ∨ F.resp = true
  retry : t.retry = s.retry ∨ F.retry = true
  trngN : t.trngN = s.trngN ∨ F.trngN = true
  freeN : t.freeN = s.freeN ∨ F.freeN = true

end Sys2Proof.Machine
end

