-- ==== Sys2Proof/Certificates/Slice0/Obligations.lean ====
section
/-! DEFINITION. The statements about the Hive that the provers are asked for. Hypotheses are on the state
and the operands alone; every conclusion about a command says that it answers a next state. Guards and
functions are those of the model: pageOpen (R43, R337), takesDoorbells (R67), dbGood (R47), and so on. -/

open Sys2Proof Sys2Proof.Machine

/-- The command answers a next state, and that state meets `P`. -/
def Sys2Proof.Completes (c : Instr) (s : State) (P : State → Prop) : Prop :=
  ∃ t, exec c s = .next t ∧ P t

/-- Whatever it does, the command leaves the queue of commands and every field outside `F` as they were. -/
def Sys2Proof.Touches (F : Foot) (c : Instr) : Prop :=
  ∀ s t, exec c s = .next t → t.pending = s.pending ∧ Unch F s t

/-- Every queue of every client but queue `q` of client `c` is as it was. -/
def Sys2Proof.OtherQueues (c q : Nat) (s t : State) : Prop :=
  ∀ d r, qKey d r ≠ qKey c q → t.queue d r = s.queue d r

/-- Every job but `id` is as it was. -/
def Sys2Proof.OtherJobs (id : Nat) (s t : State) : Prop := ∀ k, k ≠ id → t.job k = s.job k

/-- Every tenant but that of client `c` is as it was. -/
def Sys2Proof.OtherTenants (c : Nat) (s t : State) : Prop := ∀ d, d ≠ c → t.tenant d = s.tenant d

/-- Every comb but `k` is as it was. -/
def Sys2Proof.OtherCombs (k : Nat) (s t : State) : Prop := ∀ d, d ≠ k → t.comb d = s.comb d

/-- The state meets the invariant, every clock domain runs, and no access waits for the root PLL (R33, R35). -/
def Sys2Proof.Running (s : State) : Prop :=
  s.Inv ∧ (s.hv.cclk = true ∧ s.hv.fclk = true ∧ s.hv.kclk = true ∧ s.hv.xclk = true) ∧ s.unclocked = false

/-- The message is an LTR message, which the Hive sends when it withdraws idle (R341). -/
def Sys2Proof.isLtr : Out → Bool
  | .ltr _ => true
  | _ => false

/-- `l` leaves the Hive, and nothing else; with the core domains off nothing leaves (R438). -/
def Sys2Proof.SendsOnly (s t : State) (l : List Out) : Prop :=
  t.out = if s.coreOff = true then s.out else s.out ++ l

/-- `l` leaves the Hive, and beside it at most LTR messages; with the core domains off nothing leaves (R438). -/
def Sys2Proof.Sends (s t : State) (l : List Out) : Prop :=
  ∃ k, t.out = s.out ++ k ∧ k.filter (fun o => !isLtr o) = (if s.coreOff = true then [] else l) ∧
    (s.coreOff = true → k = [])

/-- `n` bytes at `a` lie in one page of 4 KiB. -/
def Sys2Proof.InPage (a n : Nat) : Prop := a % 4096 + n ≤ 4096

/-- The write requests for bytes that lie in one page at `a`, which its window puts at `x`: for the host they are cut at
multiples of Max_Payload_Size (R330). -/
def Sys2Proof.PageWrites (s : State) (c tgt a x : Nat) (pasid : Option Nat) (noSnoop relaxed : Bool) (b : Bytes) :
    List Out :=
  (if tgt = 0 then cuts s.mps a b.length else [(a, b.length)]).map fun p =>
    .write c tgt (x + (p.1 - a)) (slice b (p.1 - a) p.2) noSnoop relaxed pasid (atMark s c tgt)

/-- An FCLK edge on which no leaf is due, no PPS edge waits for its judgement and the voltage monitor does not arm. -/
def Sys2Proof.BareEdge (s : State) : Prop :=
  (∀ id, mayAssign s id = true → leafTurn s id = false) ∧ s.sync.ppsEdge = none ∧
  (s.aon.monitor = true ∨ ∀ t0, s.aon.goodAt = some t0 → s.aon.cycles + 1 < t0 + 10000)

/-- One on which no life-cycle word is programmed either. -/
def Sys2Proof.QuietEdge (s : State) : Prop := BareEdge s ∧ s.lc.run = none

/-- The queue stops: its state, code, error index and generation, and a head mirror that will show it (R60, R68). -/
def Sys2Proof.StopsAt (c q : Nat) (code : BitVec 8) (i : W32) (s t : State) : Prop :=
  (t.queue c q).state = .stopped ∧ (t.queue c q).stop = code ∧ (t.queue c q).errIdx = i ∧
  (t.queue c q).gen = (s.queue c q).gen + 1 ∧ (t.queue c q).hmDue = true ∧
  (t.queue c q).pi = (s.queue c q).pi ∧ (t.queue c q).head = (s.queue c q).head ∧ (t.queue c q).staged = [] ∧
  OtherQueues c q s t

/-- The cell has decided job `id`: status, DETAIL, and the bytes for the destination. -/
def Sys2Proof.Decided (t : State) (id : Nat) (st : Status) (detail : BitVec 8) (out : Bytes) : Prop :=
  (t.job id).stage = .cellDone ∧ (t.job id).status = st ∧ (t.job id).detail = detail ∧ (t.job id).output = out

/-! ## The machine -/

/-- A step with a command in front runs exactly that command on the rest of the queue. -/
def Obligations.StepRunsFront : Prop :=
  ∀ (c : Instr) (rest : List Instr) (s : State),
    step { s with pending := c :: rest } = exec c { s with pending := rest }

/-- Every command answers a next state, whatever the state and the operands: none is refused and none faults. It
takes nothing from the queue of the commands that wait and adds nothing to it, so a step consumes exactly the
front. -/
def Obligations.StepConsumesFront : Prop :=
  (∀ (c : Instr) (s : State), ∃ t, exec c s = .next t ∧ t.pending = s.pending) ∧
  (∀ (c : Instr) (rest : List Instr) (s : State), ∃ t, step { s with pending := c :: rest } = .next t ∧
    t.pending = rest)

/-- With no command waiting, a step is one FCLK period: the tick counter moves by one, and nothing changes but what
this edge ends (an epoch at its boundary, leaves that are due, the check of fenced ranges, the judgement of a PPS edge
and of an ENTER of this period), the programming of a life-cycle word, the arming of the voltage monitor, and what every
edge moves: the Hive's clocks and counters, the loop of the Hive time, the link's and the peers' flow control, and the
answers of management commands. Where none of these is due, no queue, job, key slot, context, tenant, comb or OTP word
changes. Where FCLK stands still the Hive time stands still (the model's choice: log entry 3). -/
def Obligations.IdleStep : Prop :=
  ∀ s : State, s.pending = [] →
    ∃ t, step s = .next t ∧ t.pending = [] ∧ t.hv.tick = s.hv.tick + 1 ∧
      Unch { hv := true, aon := true, ev := true, hi := true, dma := true, doe := true, lc := true, peer := true
             sync := true, wg := true, adm := true, ks := true, fns := true, tenants := true, queues := true
             otp := true, ctxs := true, slots := true, combs := true, jobs := true, out := true, freeN := true } s t ∧
      (closeDue s = false → s.adm.fenced = none → ckptDue s = false → QuietEdge s →
        Unch { hv := true, aon := true, hi := true, doe := true, peer := true, sync := true, wg := true
               out := true } s t) ∧
      (s.hv.fclk = false → t.sync = s.sync)

/-- Every step keeps the invariant of the state: each of eleven tables (functions, tenants, queues, completion rings,
contexts, key slots, combs, jobs, MRAM, reads under way, peer packets) in its canonical form (keys strictly ascending,
no entry equal to what an unlisted key reads as), the power state one of its four codes, and the start-up
step at most 10. -/
def Obligations.StepKeepsInv : Prop :=
  ∀ s t : State, s.Inv → step s = .next t → t.Inv

/-- The state after reset meets the invariant. -/
def Obligations.ResetMeetsInv : Prop := State.reset.Inv

/-! ## Queues (chapter 02) -/

/-- A doorbell: an accepted value becomes PI with its acceptance stamp, and a producer mirror read under way is no
longer wanted; a value that R47 rejects stops the queue; a queue that takes none only marks DB_IGNORED. An accepted
value claims the push that is staged, where it covers whole slots from PI on; staging that it does not claim is
discarded, and PUSH_DROP shows it. -/
def Obligations.Doorbells : Prop :=
  (∀ (c q : Nat) (v : W32) (s : State), Running s → pageOpen s c q = true → takesDoorbells s c q = true →
    dbGood (s.queue c q) v = true →
    Completes (.qDbWrite c q v) s fun t =>
      (t.queue c q).pi = v ∧ (t.queue c q).head = (s.queue c q).head ∧
      (t.queue c q).state = (s.queue c q).state ∧ (t.queue c q).gen = (s.queue c q).gen ∧
      (t.queue c q).accepts =
        (if v = (s.queue c q).pi then (s.queue c q).accepts else (s.queue c q).accepts ++ [(v, s.sync.h)]) ∧
      (t.queue c q).mirror =
        (if (s.queue c q).mirror.busy = true then { (s.queue c q).mirror with discard := true }
          else (s.queue c q).mirror) ∧
      (t.queue c q).staged = [] ∧
      ((s.queue c q).staged = [] → (s.queue c q).stagedBad = false →
        (t.queue c q).pushDrop = (s.queue c q).pushDrop ∧ OtherQueues c q s t)) ∧
  (∀ (c q : Nat) (v : W32) (s : State), Running s → pageOpen s c q = true → takesDoorbells s c q = true →
    dbGood (s.queue c q) v = true → (s.queue c q).staged ≠ [] → (s.queue c q).pushGood v = true →
    cacheUsed s + (s.queue c q).staged.length ≤ 8192 →
    Completes (.qDbWrite c q v) s fun t =>
      (t.queue c q).pi = v ∧ (t.queue c q).staged = [] ∧ (t.queue c q).pushDrop = (s.queue c q).pushDrop ∧
      (∀ k w, (k, w) ∈ (s.queue c q).staged →
        tblGet {} (t.queue c q).cache ((s.queue c q).pi + BitVec.ofNat 32 k).toNat =
          { data := w.data, pushed := true, push := (s.queue c q).pi }) ∧
      OtherQueues c q s t) ∧
  (∀ (c q : Nat) (v : W32) (s : State), Running s → pageOpen s c q = true → takesDoorbells s c q = true →
    dbGood (s.queue c q) v = true → (s.queue c q).staged ≠ [] → (s.queue c q).pushGood v = false →
    Completes (.qDbWrite c q v) s fun t =>
      (t.queue c q).pi = v ∧ (t.queue c q).staged = [] ∧ (t.queue c q).pushDrop = true ∧
      (t.queue c q).cache = (s.queue c q).cache ∧ OtherQueues c q s t) ∧
  (∀ (c q : Nat) (v : W32) (s : State), Running s → pageOpen s c q = true → takesDoorbells s c q = true →
    dbGood (s.queue c q) v = false →
    Completes (.qDbWrite c q v) s (StopsAt c q qerrDoorbell v s)) ∧
  (∀ (c q : Nat) (v : W32) (s : State), Running s → pageOpen s c q = true → takesDoorbells s c q = false →
    Completes (.qDbWrite c q v) s fun t =>
      t.queue c q = { s.queue c q with dbIgnored := true } ∧ OtherQueues c q s t)

/-- The state from which queue `q` of client `c` reads its producer mirror: the mirror is configured, its window
allows the read and no translation denies it (R49). -/
def Sys2Proof.MirrorReads (s : State) (c q : Nat) : Prop :=
  (s.queue c q).cfg.pmirror ≠ 0 ∧
  ∃ l, readPieces s c (s.queue c q).cfg.pmirror.toNat 4 (fun _ => .mirror q) false = some l ∧ readable s l = true

/-- A doorbell without a value starts a read of the producer mirror, and while one is under way asks for one more;
without a mirror that can be read the queue stops. The value that the read brings is judged as
a doorbell; one that a later doorbell overtook is not used, and the mirror is read again; a failed read stops the
queue, overtaken or not. -/
def Obligations.ProducerMirror : Prop :=
  (∀ (c q : Nat) (s : State), Running s → pageOpen s c q = true → takesDoorbells s c q = true →
    (s.queue c q).mirror.busy = false → MirrorReads s c q →
    Completes (.qDbNodataWrite c q) s fun t =>
      (t.queue c q).mirror = { busy := true } ∧ (t.queue c q).staged = [] ∧
      ((s.queue c q).staged ≠ [] → (t.queue c q).pushDrop = true) ∧
      (t.queue c q).pi = (s.queue c q).pi ∧ (t.queue c q).state = (s.queue c q).state ∧ OtherQueues c q s t) ∧
  (∀ (c q : Nat) (s : State), Running s → pageOpen s c q = true → takesDoorbells s c q = true →
    (s.queue c q).mirror.busy = true →
    Completes (.qDbNodataWrite c q) s fun t =>
      (t.queue c q).mirror = { (s.queue c q).mirror with again := true } ∧ (t.queue c q).staged = [] ∧
      (t.queue c q).pi = (s.queue c q).pi ∧ OtherQueues c q s t) ∧
  (∀ (c q : Nat) (s : State), Running s → pageOpen s c q = true → takesDoorbells s c q = true →
    (s.queue c q).mirror.busy = false →
    ¬ MirrorReads s c q →
    Completes (.qDbNodataWrite c q) s (StopsAt c q qerrFetch (s.queue c q).pi s)) ∧
  (∀ (c q : Nat) (s : State), Running s → pageOpen s c q = true → takesDoorbells s c q = false →
    Completes (.qDbNodataWrite c q) s fun t =>
      t.queue c q = { s.queue c q with dbIgnored := true } ∧ OtherQueues c q s t) ∧
  (∀ (c q : Nat) (v : W32) (s : State), Running s → (s.queue c q).mirror.result = some (some v) →
    (s.queue c q).mirror.discard = false → (s.queue c q).mirror.again = false → dbGood (s.queue c q) v = true →
    Completes (.producerMirrorReadDone c q) s fun t =>
      (t.queue c q).pi = v ∧ (t.queue c q).mirror = {} ∧ (t.queue c q).head = (s.queue c q).head ∧
      (t.queue c q).accepts =
        (if v = (s.queue c q).pi then (s.queue c q).accepts else (s.queue c q).accepts ++ [(v, s.sync.h)]) ∧
      OtherQueues c q s t) ∧
  (∀ (c q : Nat) (v : W32) (s : State), Running s → (s.queue c q).mirror.result = some (some v) →
    (s.queue c q).mirror.discard = false → (s.queue c q).mirror.again = true → dbGood (s.queue c q) v = true →
    MirrorReads s c q →
    Completes (.producerMirrorReadDone c q) s fun t =>
      (t.queue c q).pi = v ∧ (t.queue c q).mirror = { busy := true } ∧ OtherQueues c q s t) ∧
  (∀ (c q : Nat) (v : W32) (s : State), Running s → (s.queue c q).mirror.result = some (some v) →
    (s.queue c q).mirror.discard = true → MirrorReads s c q →
    Completes (.producerMirrorReadDone c q) s fun t =>
      (t.queue c q).pi = (s.queue c q).pi ∧ (t.queue c q).mirror = { busy := true } ∧
      (t.queue c q).accepts = (s.queue c q).accepts ∧ OtherQueues c q s t) ∧
  (∀ (c q : Nat) (v : W32) (s : State), Running s → (s.queue c q).mirror.result = some (some v) →
    (s.queue c q).mirror.discard = false → dbGood (s.queue c q) v = false →
    ((s.queue c q).state = .active ∨ (s.queue c q).state = .paused) →
    Completes (.producerMirrorReadDone c q) s (StopsAt c q qerrDoorbell v s)) ∧
  (∀ (c q : Nat) (s : State), Running s → (s.queue c q).mirror.result = some none →
    ((s.queue c q).state = .active ∨ (s.queue c q).state = .paused) →
    Completes (.producerMirrorReadDone c q) s (StopsAt c q qerrFetch (s.queue c q).pi s))

/-- A push: every byte that the window takes is staged, with the time of the first; a write with Relaxed Ordering
spoils the push; a write that reaches past 0x1BF, one below 8 bytes, and one that is not aligned to 8 are discarded
with the slots they touch, and PUSH_DROP shows it; a queue that takes none marks it dropped and ignored. After
128 µs what was staged is discarded and PUSH_DROP shows it. The forager fetches ahead: while the cache has room, the
first slot that may be fetched is then awaited or held. -/
def Obligations.PushAndPrefetch : Prop :=
  (∀ (c q off : Nat) (relaxed : Bool) (data : Bytes) (s : State), Running s → pageOpen s c q = true →
    takesDoorbells s c q = true → 8 ≤ data.length → off % 8 = 0 → off + data.length ≤ 448 →
    pushUsed s + 7 ≤ 2048 → (∀ e ∈ (s.queue c q).staged, e.2.data.length = 64) →
    Completes (.pushWindowWrite c q off relaxed data) s fun t =>
      (t.queue c q).stagedAt = some ((s.queue c q).stagedAt.getD s.hv.tick) ∧
      (t.queue c q).stagedBad = ((s.queue c q).stagedBad || relaxed) ∧
      (∀ i, i < data.length →
        (tblGet {} (t.queue c q).staged ((off + i) / 64)).mask.getLsbD ((off + i) % 64) = true ∧
        (tblGet {} (t.queue c q).staged ((off + i) / 64)).data.getD ((off + i) % 64) 0 = data.getD i 0) ∧
      (t.queue c q).pi = (s.queue c q).pi ∧ (t.queue c q).pushDrop = (s.queue c q).pushDrop ∧
      OtherQueues c q s t) ∧
  (∀ (c q off : Nat) (relaxed : Bool) (data : Bytes) (s : State), Running s → pageOpen s c q = true →
    off < 448 → 448 < off + data.length ∨
      (takesDoorbells s c q = true ∧ 0 < data.length ∧ (data.length < 8 ∨ off % 8 ≠ 0)) →
    Completes (.pushWindowWrite c q off relaxed data) s fun t =>
      (t.queue c q).pushDrop = true ∧
      (∀ e ∈ (t.queue c q).staged, off / 64 ≤ e.1 → e.1 ≤ (off + data.length - 1) / 64 → e.2.mask = 0) ∧
      (t.queue c q).pi = (s.queue c q).pi ∧ OtherQueues c q s t) ∧
  (∀ (c q off : Nat) (relaxed : Bool) (data : Bytes) (s : State), Running s → pageOpen s c q = true →
    takesDoorbells s c q = false → 0 < data.length → off + data.length ≤ 448 →
    Completes (.pushWindowWrite c q off relaxed data) s fun t =>
      t.queue c q = { s.queue c q with pushDrop := true, dbIgnored := true } ∧ OtherQueues c q s t) ∧
  (∀ (c q t0 : Nat) (s : State), Running s → (s.queue c q).stagedAt = some t0 → t0 + 153600 ≤ s.hv.tick →
    Completes (.pushStagingTimeout c q) s fun t =>
      (t.queue c q).staged = [] ∧ (t.queue c q).stagedAt = none ∧ (t.queue c q).stagedBad = false ∧
      ((s.queue c q).staged ≠ [] → (t.queue c q).pushDrop = true) ∧ OtherQueues c q s t) ∧
  (∀ (c q : Nat) (evict : List W32) (i : W32) (rest : List W32) (s : State), Running s →
    s.hasQueue c q = true → takesSlots (s.queue c q) = true → fetchable s (s.queue c q) = i :: rest →
    cacheUsed s < 8192 →
    Completes (.descriptorPrefetch c q evict) s fun t =>
      ((t.queue c q).cache.any (fun e => e.1 == i.toNat) || (t.queue c q).fetching.contains i.toNat) = true ∧
      (t.queue c q).pi = (s.queue c q).pi ∧ (t.queue c q).state = (s.queue c q).state ∧ OtherQueues c q s t)

/-- Stage 3: a descriptor whose slots are all held and whose checks pass becomes the next job and joins its
queue's undispatched ones; what the checks reject stops the queue at its index, and ends the drain of a draining
queue there. -/
def Obligations.DescriptorChecks : Prop :=
  (∀ (c q : Nat) (d : Bytes) (o : Op) (s : State), Running s → s.hasQueue c q = true →
    takesSlots (s.queue c q) = true → judge (s.queue c q) = .whole d → structural s c d = .inr o →
    s.aon.tampered = false →
    Completes (.descriptorFetchDone c q .clean) s fun t =>
      t.nextJob = s.nextJob + 1 ∧ (t.job s.nextJob).desc = d ∧ (t.job s.nextJob).client = c ∧
      (t.job s.nextJob).stage = .ready ∧ (t.job s.nextJob).src = .ring q (s.queue c q).chk ∧
      (t.job s.nextJob).tArrive = arrival s (s.queue c q) (dSlots d) ∧
      (t.queue c q).ready = (s.queue c q).ready ++ [s.nextJob] ∧
      (t.queue c q).chk = (s.queue c q).chk + BitVec.ofNat 32 (dSlots d) ∧
      (t.queue c q).state = (s.queue c q).state ∧ OtherQueues c q s t ∧ OtherJobs s.nextJob s t) ∧
  (∀ (c q : Nat) (code : BitVec 8) (s : State), Running s → s.hasQueue c q = true →
    takesSlots (s.queue c q) = true → (s.queue c q).state ≠ .draining →
    (judge (s.queue c q) = .stops code ∨
      ∃ d, judge (s.queue c q) = .whole d ∧ structural s c d = .inl code) →
    Completes (.descriptorFetchDone c q .clean) s fun t =>
      StopsAt c q code (s.queue c q).chk s t ∧ t.nextJob = s.nextJob ∧ t.jobs = s.jobs) ∧
  (∀ (c q : Nat) (code : BitVec 8) (s : State), Running s → s.hasQueue c q = true →
    (s.queue c q).resetting = false → (s.queue c q).state = .draining → judge (s.queue c q) = .stops code →
    Completes (.descriptorFetchDone c q .clean) s fun t =>
      (t.queue c q).state = .draining ∧ (t.queue c q).stop = code ∧
      (t.queue c q).errIdx = (s.queue c q).chk ∧ (t.queue c q).drainEnd = some (s.queue c q).chk ∧
      t.jobs = s.jobs ∧ OtherQueues c q s t)

/-- A queue command that the queue's page takes finds the queue as R71 asks. -/
def Sys2Proof.CommandTaken (s : State) (c q code : Nat) (gen : BitVec 11) (via : CmdVia) : Prop :=
  Running s ∧ isClient c = true ∧ s.hasQueue c q = true ∧ (via = .page → pageOpen s c q = true) ∧
  (s.queue c q).cmd = none ∧ gen = (s.queue c q).gen ∧ cmdAllowed (s.queue c q) code s.aon.tampered = true

/-- The six queue commands, each with what it does to the state word. -/
def Obligations.QueueCommands : Prop :=
  (∀ (c q : Nat) (gen : BitVec 11) (via : CmdVia) (s : State), CommandTaken s c q 1 gen via → via ≠ .mctp →
    cfgValid s c (s.queue c q).cfg = true → (s.tenant c).state ≠ 3 →
    Completes (.qCmdEnable c q gen via) s fun t =>
      (t.queue c q).state = .active ∧ (t.queue c q).gen = gen + 1 ∧ (t.queue c q).stop = 0 ∧
      (t.queue c q).pi = (s.queue c q).cfg.init ∧ (t.queue c q).head = (s.queue c q).cfg.init ∧
      (t.queue c q).chk = (s.queue c q).cfg.init ∧ (t.queue c q).hmDue = true ∧
      (t.queue c q).cmdResult = 0 ∧ OtherQueues c q s t) ∧
  (∀ (c q : Nat) (gen : BitVec 11) (via : CmdVia) (s : State), CommandTaken s c q 2 gen via →
    Completes (.qCmdPause c q gen via) s fun t =>
      (t.queue c q).state = .paused ∧ (t.queue c q).gen = gen + 1 ∧ (t.queue c q).cmd = some .pause ∧
      (t.queue c q).pi = (s.queue c q).pi ∧ (t.queue c q).head = (s.queue c q).head ∧ OtherQueues c q s t) ∧
  (∀ (c q : Nat) (gen : BitVec 11) (via : CmdVia) (s : State), CommandTaken s c q 3 gen via →
    Completes (.qCmdResume c q gen via) s fun t =>
      (t.queue c q).state = .active ∧ (t.queue c q).gen = gen + 1 ∧ (t.queue c q).cmdResult = 0 ∧
      (t.queue c q).pi = (s.queue c q).pi ∧ (t.queue c q).head = (s.queue c q).head ∧ OtherQueues c q s t) ∧
  (∀ (c q : Nat) (gen : BitVec 11) (via : CmdVia) (s : State), CommandTaken s c q 4 gen via →
    Completes (.qCmdReset c q gen via) s fun t =>
      (t.queue c q).resetting = true ∧ (t.queue c q).cmd = some .reset ∧ (t.queue c q).ready = [] ∧
      (t.queue c q).cache = [] ∧ (t.queue c q).staged = [] ∧ (t.queue c q).window = (s.queue c q).window ∧
      OtherQueues c q s t) ∧
  (∀ (c q : Nat) (gen : BitVec 11) (start : W32) (count : BitVec 17) (s : State),
    CommandTaken s c q 5 gen .page → 0 < count.toNat → count.toNat ≤ 65536 →
    Completes (.qCmdInvalidate c q gen start count .page) s fun t =>
      (t.queue c q).cmd = some (.invalidate ((s.queue c q).window.any (jobHit s start count.toNat))) ∧
      (∀ k d, (k, d) ∈ (t.queue c q).cache → ¬ ringDist (BitVec.ofNat 32 k) start < count.toNat) ∧
      (t.queue c q).pi = (s.queue c q).pi ∧ (t.queue c q).head = (s.queue c q).head ∧
      (t.queue c q).state = (s.queue c q).state ∧ OtherQueues c q s t) ∧
  (∀ (c q : Nat) (gen : BitVec 11) (via : CmdVia) (s : State), CommandTaken s c q 6 gen via → via ≠ .mctp →
    Completes (.qCmdRestart c q gen via) s fun t =>
      t.queue c q = { s.queue c q with cmd := some .restart } ∧ OtherQueues c q s t)

/-- A word of code `code` reaches queue `q` through its page or its pool entry while no command waits there. -/
def Sys2Proof.CommandArrives (s : State) (c q : Nat) (via : CmdVia) : Prop :=
  Running s ∧ isClient c = true ∧ s.hasQueue c q = true ∧ (via = .page → pageOpen s c q = true) ∧
  (s.queue c q).cmd = none

/-- The command ends at once with CMD_RESULT `r` and does nothing else. -/
def Sys2Proof.EndsWith (i : Instr) (c q : Nat) (r : Nat) (s : State) : Prop :=
  Completes i s fun t => t.queue c q = { s.queue c q with cmdResult := r } ∧ OtherQueues c q s t

/-- The queue command `i` of code `code` where it does not act: with another GEN it ends STALE_GEN, in a state that does
not allow it REFUSED, and while a command waits it has no effect. -/
def Sys2Proof.TurnedAway (i : Nat → Nat → BitVec 11 → CmdVia → Instr) (code : Nat) : Prop :=
  (∀ (c q : Nat) (gen : BitVec 11) (via : CmdVia) (s : State), CommandArrives s c q via →
    (code = 5 → via = .page) → (via = .mctp → code = 2 ∨ code = 3 ∨ code = 4) →
    gen ≠ (s.queue c q).gen → EndsWith (i c q gen via) c q 2 s) ∧
  (∀ (c q : Nat) (gen : BitVec 11) (via : CmdVia) (s : State), CommandArrives s c q via →
    gen = (s.queue c q).gen → cmdAllowed (s.queue c q) code s.aon.tampered = false →
    EndsWith (i c q gen via) c q 3 s) ∧
  (∀ (c q : Nat) (gen : BitVec 11) (via : CmdVia) (s : State), Running s → (s.queue c q).cmd ≠ none →
    Completes (i c q gen via) s fun t => t.queues = s.queues ∧ t.jobs = s.jobs)

/-- What a queue command meets that does not act: a reserved code, a state that does not allow it, an ENABLE without a
valid configuration and an INVALIDATE of too many slots end REFUSED, another GEN ends STALE_GEN, an INVALIDATE of no
slot ends DONE, and while a command waits a further one has no effect; each for every one of the six commands. The ends
of queue commands. That GEN is judged first and COUNT last is the model's choice (log entry 57). -/
def Obligations.QueueCommandEnds : Prop :=
  (∀ (c q : Nat) (word : W64) (via : CmdVia) (s : State), CommandArrives s c q via → 6 < word.toNat % 16 →
    EndsWith (.qCmdReserved c q word via) c q 3 s) ∧
  TurnedAway .qCmdEnable 1 ∧ TurnedAway .qCmdPause 2 ∧ TurnedAway .qCmdResume 3 ∧ TurnedAway .qCmdReset 4 ∧
  (∀ (start : W32) (count : BitVec 17), TurnedAway (fun c q gen via => .qCmdInvalidate c q gen start count via) 5) ∧
  TurnedAway .qCmdRestart 6 ∧
  (∀ (c q : Nat) (gen : BitVec 11) (via : CmdVia) (s : State), CommandTaken s c q 1 gen via → via ≠ .mctp →
    cfgValid s c (s.queue c q).cfg = false ∨ (s.tenant c).state = 3 → EndsWith (.qCmdEnable c q gen via) c q 3 s) ∧
  (∀ (c q : Nat) (gen : BitVec 11) (start : W32) (count : BitVec 17) (s : State), CommandTaken s c q 5 gen .page →
    count.toNat = 0 ∨ 65536 < count.toNat →
    EndsWith (.qCmdInvalidate c q gen start count .page) c q (if count.toNat = 0 then 0 else 3) s) ∧
  (∀ (c q : Nat) (s : State), Running s → (s.queue c q).cmd = some .pause →
    Completes (.pauseAck c q) s fun t =>
      t.queue c q = { s.queue c q with cmd := none, cmdResult := 0 } ∧ OtherQueues c q s t) ∧
  (∀ (c q : Nat) (late : Bool) (s : State), Running s → (s.queue c q).cmd = some (.invalidate late) →
    Completes (.invalidateAck c q) s fun t =>
      t.queue c q = { s.queue c q with cmd := none, cmdResult := if late then 1 else 0 } ∧
      OtherQueues c q s t) ∧
  (∀ (c q : Nat) (s : State), Running s → (s.queue c q).cmd = some .restart →
    (s.queue c q).state = .stopped → (s.queue c q).stopPt = some (s.queue c q).head →
    Completes (.restartAck c q) s fun t =>
      (t.queue c q).state = .active ∧ (t.queue c q).gen = (s.queue c q).gen + 1 ∧
      (t.queue c q).cmd = none ∧ (t.queue c q).cmdResult = 0 ∧ (t.queue c q).chk = (s.queue c q).head ∧
      (t.queue c q).head = (s.queue c q).head ∧ (t.queue c q).pi = (s.queue c q).pi ∧ OtherQueues c q s t) ∧
  (∀ (c q : Nat) (s : State), Running s → (s.queue c q).resetting = true → (s.queue c q).window = [] →
    (s.queue c q).leaving = false →
    Completes (.resetAck c q) s fun t =>
      (t.queue c q).state = .disabled ∧ (t.queue c q).gen = (s.queue c q).gen + 1 ∧
      (t.queue c q).cmd = none ∧ (t.queue c q).cmdResult = 0 ∧ (t.queue c q).resetting = false ∧
      (t.queue c q).head = (s.queue c q).head ∧ (t.queue c q).hmDue = s.busMaster c ∧
      (t.queue c q).staged = [] ∧ ((s.queue c q).staged ≠ [] → (t.queue c q).pushDrop = true) ∧
      OtherQueues c q s t) ∧
  (∀ (c q : Nat) (s : State), Running s → (s.queue c q).state = .draining →
    (s.queue c q).resetting = false → (s.queue c q).window = [] → (s.queue c q).ready = [] →
    (s.queue c q).drainEnd = some (s.queue c q).head →
    Completes (.queueDrainEnd c q) s fun t =>
      (t.queue c q).state = .disabled ∧ (t.tenant c).qmap = tblErase (s.tenant c).qmap q ∧
      OtherQueues c q s t)

/-- HEAD passes the ended jobs at the front of the window, whatever stands behind them, and stops before the first that
has not ended; the head mirror shows it; then a bound queue owes a completion record to its ring, and a queue that is
not bound signals the interrupt that is due. A completion record follows its head mirror; it is written at TAIL, which
then moves; a full ring goes to overflow mode and the record stays owed, until it is written with REPLAY; TN_CR_CONS
moves forward only. A released queue writes its last mirror and its record all the same. That a record still pending on
another ring is merged into the new one, and what a record then tells, is the model's choice (log entry 57), and so is
the order of a released queue's writes and of those of the queue that has its number now (log entry 85). -/
def Obligations.HeadsAndRings : Prop :=
  (∀ (c q : Nat) (l rest : List Nat) (s : State), Running s → (s.queue c q).window = l ++ rest → l ≠ [] → l.Nodup →
    (∀ j ∈ l, (s.job j).stage = .ended) → (∀ k, rest.head? = some k → (s.job k).stage ≠ .ended) →
    Completes (.headAdvance c q) s fun t =>
      (t.queue c q).head = (s.queue c q).head + BitVec.ofNat 32 ((l.map fun j => dSlots (s.job j).desc).sum) ∧
      (t.queue c q).window = rest ∧ (t.queue c q).hmDue = true ∧ (∀ j ∈ l, t.job j = {}) ∧
      (t.queue c q).pi = (s.queue c q).pi ∧ (t.queue c q).state = (s.queue c q).state ∧
      OtherQueues c q s t ∧ ∀ k, k ∉ l → t.job k = s.job k) ∧
  (∀ (c q j : Nat) (rest : List Nat) (s : State), Running s → (s.queue c q).window = j :: rest →
    (s.job j).stage ≠ .ended →
    Completes (.headAdvance c q) s fun t =>
      (t.queue c q).head = (s.queue c q).head ∧ (t.queue c q).window = (s.queue c q).window ∧
      t.jobs = s.jobs ∧ OtherQueues c q s t) ∧
  (∀ (c q0 q tgt a x : Nat) (pasid : Option Nat) (s : State), Running s → mirrorTurn s c q0 = q →
    (s.queue c q).hmDue = true → (s.queue c q).cfg.crEn = true → s.busMaster c = true →
    windowed s c (s.queue c q).cfg.hmirror.toNat 8 true = some (tgt, a, pasid) →
    xlated s c tgt a pasid true = .to x →
    Completes (.headMirrorWrite c q0) s fun t =>
      t.queue c q = { s.queue c q with
        hmDue := false, irqDue := false, chgDue := false, crDue := true, crAt := (s.queue c q).cfg.crId
        crPending := (s.queue c q).crPending && (s.queue c q).crAt == (s.queue c q).cfg.crId
        crIrq := (s.queue c q).crIrq || (s.queue c q).irqDue
        crChg := (s.queue c q).crChg || (s.queue c q).chgDue } ∧
      Sends s t [.write c tgt x (mirrorBytes (s.queue c q)) false false pasid (atMark s c tgt)] ∧
      OtherQueues c q s t) ∧
  (∀ (c q0 q tgt a x : Nat) (pasid : Option Nat) (owes : Bool) (s : State), Running s → mirrorTurn s c q0 = q →
    (s.queue c q).hmDue = true → (s.queue c q).cfg.crEn = false → s.hasQueue c q = true → s.busMaster c = true →
    owes = ((s.queue c q).crDue || (s.queue c q).crPending) →
    windowed s c (s.queue c q).cfg.hmirror.toNat 8 true = some (tgt, a, pasid) →
    xlated s c tgt a pasid true = .to x →
    Completes (.headMirrorWrite c q0) s fun t =>
      t.queue c q = { s.queue c q with
        hmDue := false, irqDue := false, chgDue := false
        crIrq := (s.queue c q).crIrq || (owes && (s.queue c q).irqDue)
        crChg := (s.queue c q).crChg || (owes && (s.queue c q).chgDue) } ∧
      Sends s t [.write c tgt x (mirrorBytes (s.queue c q)) false false pasid (atMark s c tgt)] ∧
      (isFn c = true → (s.queue c q).irqDue = true → (s.queue c q).cfg.vec < (s.tenant c).vectors →
        (s.queue c q).cfg.vec ∈ (t.func c).due) ∧ OtherQueues c q s t) ∧
  (∀ (c q0 q tgt a x : Nat) (pasid : Option Nat) (s : State), Running s → mirrorTurn s c q0 = q →
    (s.queue c q).hmDue = true → (s.queue c q).cfg.crEn = false → s.hasQueue c q = false → s.busMaster c = true →
    (s.queue c q).crDue = false → (s.queue c q).crPending = false →
    windowed s c (s.queue c q).cfg.hmirror.toNat 8 true = some (tgt, a, pasid) →
    xlated s c tgt a pasid true = .to x →
    Completes (.headMirrorWrite c q0) s fun t =>
      t.queue c q = {} ∧
      Sends s t [.write c tgt x (mirrorBytes (s.queue c q)) false false pasid (atMark s c tgt)] ∧
      OtherQueues c q s t) ∧
  (∀ (c q0 q r tgt a x : Nat) (pasid : Option Nat) (s : State), Running s → recordTurn s c q0 = q →
    (s.queue c q).crDue = true →
    (s.queue c q).hmDue = false → (s.queue c q).crAt = r → pendingQueues s c r = [] →
    (s.ring c r).full = false → s.busMaster c = true →
    windowed s c ((s.ring c r).base.toNat + (s.ring c r).tail.toNat % 2 ^ (s.ring c r).sizeLog2 * 16) 16 true =
      some (tgt, a, pasid) →
    xlated s c tgt a pasid true = .to x →
    Completes (.completionRecordWrite c q0) s fun t =>
      (t.ring c r).tail = (s.ring c r).tail + 1 ∧ (t.queue c q).crDue = false ∧ (t.queue c q).crIrq = false ∧
      (isFn c = true → (s.queue c q).crIrq = true → (s.ring c r).vec < (s.tenant c).vectors →
        (s.ring c r).vec ∈ (t.func c).due) ∧
      Sends s t [.write c tgt x (crRecord q (s.queue c q) false (s.ring c r).tail) false false pasid
        (atMark s c tgt)] ∧ OtherQueues c q s t) ∧
  (∀ (c q0 q r : Nat) (s : State), Running s → recordTurn s c q0 = q → (s.queue c q).crDue = true →
    (s.queue c q).hmDue = false → (s.queue c q).crAt = r → pendingQueues s c r = [] → (s.ring c r).full = true →
    Completes (.completionRecordWrite c q0) s fun t =>
      (t.ring c r).mode = true ∧ (t.ring c r).overflow = true ∧ (t.ring c r).tail = (s.ring c r).tail ∧
      (t.queue c q).crPending = true ∧ (t.queue c q).crDue = false ∧ OtherQueues c q s t) ∧
  (∀ (c q0 q r tgt a x : Nat) (pasid : Option Nat) (s : State), Running s → recordTurn s c q0 = q →
    (s.queue c q).crDue = false → (s.queue c q).hmDue = false → (s.queue c q).crAt = r →
    pendingQueues s c r = [q] → (s.ring c r).mode = true → (s.ring c r).full = false → s.busMaster c = true →
    windowed s c ((s.ring c r).base.toNat + (s.ring c r).tail.toNat % 2 ^ (s.ring c r).sizeLog2 * 16) 16 true =
      some (tgt, a, pasid) →
    xlated s c tgt a pasid true = .to x →
    Completes (.completionRecordWrite c q0) s fun t =>
      (t.ring c r).tail = (s.ring c r).tail + 1 ∧ (t.ring c r).mode = false ∧ (t.queue c q).crPending = false ∧
      Sends s t [.write c tgt x (crRecord q (s.queue c q) true (s.ring c r).tail) false false pasid
        (atMark s c tgt)] ∧ OtherQueues c q s t) ∧
  (∀ (c : Nat) (v : W32) (s : State), Running s → isFn c = true → s.exists_ c = true →
    fnReachable s c = true → (s.ring c (s.tenant c).crSel).mode = false →
    ringDist v (s.ring c (s.tenant c).crSel).cons ≤
      ringDist (s.ring c (s.tenant c).crSel).tail (s.ring c (s.tenant c).crSel).cons →
    Completes (.tnCrConsWrite c v) s fun t =>
      t.ring c (s.tenant c).crSel = { s.ring c (s.tenant c).crSel with cons := v }) ∧
  (∀ (c : Nat) (v : W32) (s : State), Running s → isFn c = true → s.exists_ c = true →
    fnReachable s c = true →
    ringDist (s.ring c (s.tenant c).crSel).tail (s.ring c (s.tenant c).crSel).cons <
      ringDist v (s.ring c (s.tenant c).crSel).cons →
    Completes (.tnCrConsWrite c v) s fun t =>
      t.ring c (s.tenant c).crSel = { s.ring c (s.tenant c).crSel with consErr := true })

/-! ## Dispatch, key pull, reads, ends of jobs (chapters 01, 03, 04, 09, 11) -/

/-- The dispatcher takes the job that R107 chooses where R113 has a place for it: the descriptor passes from its queue's
undispatched ones into the reorder window, and the job holds the place. A scheduling epoch starts 1,200 FCLK after the
one before; what was committed meanwhile applies from then on. A job at a slice boundary, with its source bytes there,
its output passed on and no ready job in the lane of its cell, runs on, or is saved and the job that the choice gives
takes its place; the key is no part of what is saved. A saved job that is dispatched again goes on from its boundary,
and a keyed one pulls its key again first; it passes through no queue. -/
def Obligations.DispatchAndSlices : Prop :=
  (∀ (a : Account) (ch : Choice) (comb : Option Nat) (lane : Bool) (q : Nat) (i : W32) (s : State), Running s →
    choose s a (fun id st => (placeOf s id st).isSome) = some ch →
    placeOf s ch.job ch.step = some (comb, lane) → (s.job ch.job).stage = .ready →
    (s.job ch.job).src = .ring q i →
    Completes (.jobDispatch a) s fun t =>
      (t.queue (s.job ch.job).client q).window = (s.queue (s.job ch.job).client q).window ++ [ch.job] ∧
      (t.queue (s.job ch.job).client q).ready = (s.queue (s.job ch.job).client q).ready.filter (· != ch.job) ∧
      (t.queue (s.job ch.job).client q).head = (s.queue (s.job ch.job).client q).head ∧
      (t.job ch.job).comb = comb ∧ (t.job ch.job).lane = lane ∧ (t.job ch.job).step = ch.step ∧
      tblGet 0 t.sch.rrTenant (rrKey a ch.step) = ch.tenant + 1 ∧
      OtherQueues (s.job ch.job).client q s t) ∧
  (∀ (a : Account) (ch : Choice) (comb : Option Nat) (lane : Bool) (s : State), Running s →
    choose s a (fun id st => (placeOf s id st).isSome) = some ch →
    placeOf s ch.job ch.step = some (comb, lane) → (s.job ch.job).stage = .saved →
    Completes (.jobDispatch a) s fun t =>
      (t.job ch.job).comb = comb ∧ (t.job ch.job).step = ch.step ∧
      (t.job ch.job).stage = (if (s.job ch.job).refs = [] then .run else .key) ∧
      (t.job ch.job).since = 0 ∧ (t.job ch.job).base = (s.job ch.job).sliced ∧
      (t.job ch.job).inReserve = false ∧ t.queues = s.queues ∧ OtherJobs ch.job s t) ∧
  (∀ (busy : List (Nat × Nat)) (s : State), Running s → s.sch.epochAt + 1200 ≤ s.hv.tick →
    Completes (.schedulingEpochStart busy) s fun t =>
      t.sch.epoch = s.sch.epoch + 1 ∧ t.sch.epochAt = s.hv.tick ∧ t.sch.denied = [] ∧
      t.sch.latUsed = [] ∧ t.sch.waiting = none ∧ t.sch.cfg = s.sch.waiting.getD s.sch.cfg) ∧
  (∀ (id busy comb b : Nat) (o : Op) (k : Cell) (s : State), Running s → dOp (s.job id).desc = some o →
    (s.job id).comb = some comb → acctCell (s.job id).acct = some k → k = .bulk ∨ k = .digest →
    (s.job id).stage = .run → (s.job id).lane = false → (s.job id).fromPeer = false → inBlock s id = true →
    laneHolds s id = false → nextBoundary (s.job id) o = some b → b ≤ (s.job id).received →
    outputPassed s (s.job id) o b = true →
    Completes (.sliceBoundary id busy) s fun t =>
      (t.job id).sliced = b ∧ (t.job id).since = (s.job id).since + 1 ∧
      (t.job id).busy = (s.job id).busy + busy ∧
      ((t.job id).stage = .run ∨
        (t.job id).stage = .saved ∧ (t.job id).preempted = true ∧ (t.job id).keyMat = [] ∧
        ∃ n, n ≠ id ∧ (t.job n).comb = some comb ∧ (t.job n).stage ≠ .saved))

/-- Job `id` is at stage 5 with opcode `o`, was not preempted, and its context and its total pass. -/
def Sys2Proof.KeyStage (s : State) (id : Nat) (o : Op) : Prop :=
  Running s ∧ s.hasJob id = true ∧ (s.job id).stage = .key ∧ dOp (s.job id).desc = some o ∧
  (s.job id).preempted = false ∧ ctxFail s (s.job id) o = none ∧ totalFail s (s.job id) o = none

/-- The first transaction of its pull may go (R226, R464). -/
def Sys2Proof.PullOpen (s : State) (id : Nat) (o : Op) : Prop :=
  KeyStage s id o ∧ o.usesKey = true ∧ laneShut s = false ∧ (s.job id).refs = []

/-- Its KEY_SLOT, at pool position `pos`, passes the checks 1 to 8 of R226, and REFS has room (R227). -/
def Sys2Proof.PullPasses (s : State) (id : Nat) (o : Op) (pos : Nat) : Prop :=
  PullOpen s id o ∧ pullIssue s (s.job id).client o (s.job id).desc (wantGen s (s.job id) o) = none ∧
  s.slotPos (s.job id).client (dKeySlot (s.job id).desc) = some pos ∧ (s.slot pos).refs ≠ 65535 ∧
  ruleIssue o (s.job id).desc (s.slot pos) (s.ctx (s.job id).client (dCtx (s.job id).desc)).hwNonce = none

/-- The pull builds no hardware nonce (R143). -/
def Sys2Proof.PlainPull (s : State) (id : Nat) (o : Op) (pos : Nat) : Prop :=
  (s.slot pos).pol 13 = false ∨ buildsNonce o (s.job id).desc = false ∨ dIvLen (s.job id).desc ≠ 0

/-- Stage 5 ends the job with this outcome, without a comb and without a key. -/
def Sys2Proof.PullFails (s : State) (id : Nat) (st : Status) (det : BitVec 8) (t : State) : Prop :=
  Decided t id st det [] ∧ (t.job id).noComb = true ∧ (t.job id).keyMat = [] ∧ t.slots = s.slots

/-- The job has material `m`, and runs; or a later check has decided it already. -/
def Sys2Proof.RunsWith (t : State) (id : Nat) (m : Bytes) : Prop :=
  (t.job id).stage = .run ∧ (t.job id).keyMat = m ∨ (t.job id).stage = .cellDone

/-- Slot `pos` has one reference more, with its material, and no other slot changes. -/
def Sys2Proof.OneRef (s t : State) (pos : Nat) : Prop :=
  (t.slot pos).refs = (s.slot pos).refs + 1 ∧ (t.slot pos).mat = (s.slot pos).mat ∧
  ∀ p, p ≠ pos → t.slot p = s.slot p

/-- Stage 5: the first check that fails, of the context, the total of the stream, KEY_SLOT, its rules, the material, the
run to create and KEY_WRAP's target, ends the job without a comb; the total is judged between the context and the key
(the model's choice: log entry 73). Where all pass, the pull takes a reference on the slot and its material; a hardware
nonce takes the next value of the slot's counter; a creating opcode reserves its run; KEY_WRAP takes its target too;
without a key the job only takes its context. A pull waits while REFS is at its top, while the store is shut, and for a
reservation of nonces. A resumed job takes the material again, and no further reference. -/
def Obligations.KeyPulls : Prop :=
  (∀ (id : Nat) (ecc : KeyEcc) (o : Op) (st : Status) (det : BitVec 8) (s : State), Running s →
    s.hasJob id = true → (s.job id).stage = .key → dOp (s.job id).desc = some o → (s.job id).preempted = false →
    (ctxFail s (s.job id) o = some (st, det) ∨
      ctxFail s (s.job id) o = none ∧ totalFail s (s.job id) o = some (st, det)) →
    Completes (.keyPull id ecc) s fun t => PullFails s id st det t ∧ OtherJobs id s t) ∧
  (∀ (id : Nat) (ecc : KeyEcc) (o : Op) (s : State), KeyStage s id o → o.usesKey = false →
    Completes (.keyPull id ecc) s fun t =>
      ((t.job id).stage = .run ∨ (t.job id).stage = .cellDone) ∧ t.slots = s.slots ∧
      (dUsesCtx o (s.job id).desc = true →
        (t.job id).holdsCtx = true ∧
        (t.ctx (s.job id).client (dCtx (s.job id).desc)).state = .held ∧
        (t.ctx (s.job id).client (dCtx (s.job id).desc)).holder = id)) ∧
  (∀ (id : Nat) (ecc : KeyEcc) (o : Op) (s : State), KeyStage s id o → o.usesKey = true →
    s.ks.zeroising = some .substitution →
    Completes (.keyPull id ecc) s fun t => PullFails s id stOrphaned 0x03 t ∧ OtherJobs id s t) ∧
  (∀ (id : Nat) (ecc : KeyEcc) (o : Op) (s : State), KeyStage s id o → o.usesKey = true →
    s.ks.zeroising ≠ some .substitution → laneShut s = true →
    Completes (.keyPull id ecc) s fun t => t = s) ∧
  (∀ (id : Nat) (o : Op) (st : Status) (det : BitVec 8) (s : State), PullOpen s id o →
    pullIssue s (s.job id).client o (s.job id).desc (wantGen s (s.job id) o) = some (st, det) →
    Completes (.keyPull id .clean) s fun t => PullFails s id st det t ∧ OtherJobs id s t) ∧
  (∀ (id pos : Nat) (o : Op) (s : State), PullOpen s id o →
    pullIssue s (s.job id).client o (s.job id).desc (wantGen s (s.job id) o) = none →
    s.slotPos (s.job id).client (dKeySlot (s.job id).desc) = some pos → (s.slot pos).refs = 65535 →
    Completes (.keyPull id .clean) s fun t => t = s) ∧
  (∀ (id pos : Nat) (o : Op) (st : Status) (det : BitVec 8) (s : State), PullOpen s id o →
    pullIssue s (s.job id).client o (s.job id).desc (wantGen s (s.job id) o) = none →
    s.slotPos (s.job id).client (dKeySlot (s.job id).desc) = some pos → (s.slot pos).refs ≠ 65535 →
    ruleIssue o (s.job id).desc (s.slot pos)
      (s.ctx (s.job id).client (dCtx (s.job id).desc)).hwNonce = some (st, det) →
    Completes (.keyPull id .clean) s fun t => PullFails s id st det t ∧ OtherJobs id s t) ∧
  (∀ (id pos : Nat) (o : Op) (s : State), PullPasses s id o pos → ¬ PlainPull s id o pos →
    (takeNonce s ((s.job id).comb.getD 0) pos).1 = .exhausted →
    Completes (.keyPull id .clean) s (PullFails s id stExhausted 0x80)) ∧
  (∀ (id pos : Nat) (o : Op) (s : State), PullPasses s id o pos → ¬ PlainPull s id o pos →
    (takeNonce s ((s.job id).comb.getD 0) pos).1 = .waits →
    Completes (.keyPull id .clean) s fun t =>
      t.jobs = s.jobs ∧ t.slot pos = { s.slot pos with resBusy := true } ∧ ∀ p, p ≠ pos → t.slot p = s.slot p) ∧
  (∀ (id pos v : Nat) (o : Op) (s : State), PullPasses s id o pos → ¬ PlainPull s id o pos →
    (takeNonce s ((s.job id).comb.getD 0) pos).1 = .value v → (s.slot pos).bad = 0 →
    Completes (.keyPull id .clean) s fun t =>
      (t.job id).nonce = some (hwNonce (s.slot pos) v) ∧ (t.job id).refs = [pos] ∧
      RunsWith t id (s.slot pos).mat ∧ OneRef s t pos) ∧
  (∀ (id pos : Nat) (o : Op) (s : State), PullPasses s id o pos → PlainPull s id o pos →
    (s.slot pos).bad = 0 → o ≠ .keyWrap → o.creates = false →
    Completes (.keyPull id .clean) s fun t =>
      (t.job id).nonce = none ∧ (t.job id).refs = [pos] ∧ RunsWith t id (s.slot pos).mat ∧ OneRef s t pos) ∧
  (∀ (id pos : Nat) (o : Op) (s : State), PullPasses s id o pos → PlainPull s id o pos → (s.slot pos).bad = 1 →
    Completes (.keyPull id .clean) s (PullFails s id stPoison 0)) ∧
  (∀ (id pos p : Nat) (s : State), PullPasses s id .keyWrap pos → (s.slot pos).bad = 0 →
    wrapIssue s (s.job id).client (s.job id).desc = none →
    s.slotPos (s.job id).client (kbTarget (s.job id).desc) = some p → (s.slot p).bad = 0 →
    (s.slot p).refs + (if p = pos then 1 else 0) ≠ 65535 →
    Completes (.keyPull id .clean) s fun t =>
      (t.job id).refs = [pos, p] ∧ RunsWith t id (s.slot pos).mat ∧
      ((t.job id).stage = .run → (t.job id).wrapMat = (s.slot p).mat) ∧
      ∀ k, (t.slot k).refs = (s.slot k).refs + (if k = pos then 1 else 0) + (if k = p then 1 else 0) ∧
        (t.slot k).mat = (s.slot k).mat) ∧
  (∀ (id pos : Nat) (st : Status) (det : BitVec 8) (s : State), PullPasses s id .keyWrap pos → (s.slot pos).bad = 0 →
    wrapIssue s (s.job id).client (s.job id).desc = some (st, det) →
    Completes (.keyPull id .clean) s fun t =>
      Decided t id st det [] ∧ (t.job id).noComb = true ∧ ∀ k, k ≠ pos → t.slot k = s.slot k) ∧
  (∀ (id pos : Nat) (o : Op) (st : Status) (det : BitVec 8) (s : State), PullPasses s id o pos →
    PlainPull s id o pos → (s.slot pos).bad = 0 → o ≠ .keyWrap → o.creates = true →
    reserveIssue s (s.job id).client (kbTarget (s.job id).desc) (kbType (s.job id).desc) (kbPolicy (s.job id).desc) pos
      false (makeIssue o (s.job id).desc) = some (st, det) →
    Completes (.keyPull id .clean) s (PullFails s id st det)) ∧
  (∀ (id pos h : Nat) (l : List Nat) (o : Op) (s : State), PullPasses s id o pos →
    PlainPull s id o pos → (s.slot pos).bad = 0 → o ≠ .keyWrap → o.creates = true →
    reserveIssue s (s.job id).client (kbTarget (s.job id).desc) (kbType (s.job id).desc) (kbPolicy (s.job id).desc) pos
      false (makeIssue o (s.job id).desc) = none →
    runSlots s (s.job id).client (kbTarget (s.job id).desc) (runOf (kbType (s.job id).desc)) = some (h :: l) →
    Completes (.keyPull id .clean) s fun t =>
      (t.job id).reserved = h :: l ∧ (t.job id).refs = [pos] ∧ RunsWith t id (s.slot pos).mat ∧
      (t.slot h).state = .reserved ∧ (t.slot h).ktype = kbType (s.job id).desc ∧
      (t.slot h).policy = BitVec.ofNat 64 (kbPolicy (s.job id).desc) ∧ (t.slot h).parent = pos ∧
      (∀ p ∈ l, (t.slot p).state = .reserved) ∧ (t.slot pos).refs = (s.slot pos).refs + 1 ∧
      ∀ p, p ≠ pos → p ∉ h :: l → t.slot p = s.slot p) ∧
  (∀ (id : Nat) (o : Op) (s : State), Running s → s.hasJob id = true → (s.job id).stage = .key →
    dOp (s.job id).desc = some o → (s.job id).preempted = true → o.usesKey = true → laneShut s = false →
    (s.slot (s.job id).keyPos).bad = 0 →
    Completes (.keyPull id .clean) s fun t =>
      (t.job id).keyMat = (s.slot (s.job id).keyPos).mat ∧ (t.job id).stage = .run ∧
      (t.job id).refs = (s.job id).refs ∧ t.slots = s.slots ∧ OtherJobs id s t) ∧
  (∀ (id : Nat) (o : Op) (s : State), Running s → s.hasJob id = true → (s.job id).stage = .key →
    dOp (s.job id).desc = some o → (s.job id).preempted = true → o.usesKey = true → laneShut s = false →
    (s.slot (s.job id).keyPos).bad ≠ 0 →
    Completes (.keyPull id .clean) s fun t =>
      Decided t id stPoison 0 [] ∧ t.slots = s.slots ∧ OtherJobs id s t) ∧
  (∀ (c i p : Nat) (s : State), Running s → mramOn s = true → s.slotPos c i = some p → (s.slot p).resBusy = true →
    Completes (.nonceReservationWriteDone c i) s fun t =>
      t.slot p = { s.slot p with res := (s.slot p).res + resStep s, resBusy := false } ∧
      ∀ k, k ≠ p → t.slot k = s.slot k)

/-- Completions: one for no outstanding tag is counted and reported; a part of a read is kept until the rest
comes; the last part of a job's source makes the source whole; a read that timed out fails its job. Address
translation: a Translation Completion that allows reads is cached; an Invalidation Request removes what it
names, and is completed when no read issued under it is outstanding. -/
def Obligations.ReadsAndTranslations : Prop :=
  (∀ (tag : Nat) (status : CplStatus) (data : Bytes) (s : State), Running s → tblGet none s.dma.reads tag = none →
    Completes (.readCompletion tag status data) s fun t =>
      t.hi.unexpected = satAdd 65535 s.hi.unexpected 1 ∧ t.aon.sticky.getLsbD 105 = true ∧
      t.jobs = s.jobs ∧ t.queues = s.queues) ∧
  (∀ (tag : Nat) (data : Bytes) (r : Req) (s : State), Running s → tblGet none s.dma.reads tag = some r →
    data ≠ [] → r.got.length + data.length < r.len → r.isXlate = false →
    Completes (.readCompletion tag .ok data) s fun t =>
      tblGet none t.dma.reads tag = some { r with got := r.got ++ data } ∧ t.jobs = s.jobs) ∧
  (∀ (tag id off : Nat) (data : Bytes) (r : Req) (s : State), Running s → tblGet none s.dma.reads tag = some r →
    data ≠ [] → r.got.length + data.length = r.len → r.purpose = .source id off →
    (s.job id).open_ = [off] → (s.job id).parts = [] → s.dma.waiting = [] →
    Completes (.readCompletion tag .ok data) s fun t =>
      (t.job id).got = r.got ++ data ∧ (t.job id).gather = .done ∧ (t.job id).open_ = [] ∧
      (t.job id).stage = (s.job id).stage ∧ OtherJobs id s t) ∧
  (∀ (tag id off : Nat) (r : Req) (s : State), Running s → tblGet none s.dma.reads tag = some r →
    r.issued + 1200 * s.hi.cplTo ≤ s.hv.tick → r.purpose = .source id off → s.hasJob id = true →
    (s.job id).pass2 = false → s.dma.waiting = [] →
    Completes (.completionTimeout tag) s fun t =>
      t.hi.timeouts = satAdd 65535 s.hi.timeouts 1 ∧ Decided t id stDma 0x07 [] ∧ OtherJobs id s t) ∧
  (∀ (fn page xlate tag : Nat) (pasid : Option Nat) (wr : Bool) (s : State), Running s →
    xlateTag s fn pasid page = some tag → s.dma.asked.contains (fn, pasid, page) = true → (s.func fn).atsEn = true →
    Completes (.atsTranslationCompletion fn pasid page true wr xlate) s fun t =>
      ({ fn := fn, pasid := pasid, page := page, rd := true, wr := wr, xlate := xlate } : Atc) ∈ t.dma.atc) ∧
  (∀ (fn page npages itag : Nat) (pasid : Option Nat) (s : State), Running s →
    Completes (.atsInvalidationRequest fn pasid page npages itag) s fun t =>
      (∀ e ∈ t.dma.atc, ¬ (e.fn = fn ∧ e.pasid = pasid ∧ page ≤ e.page ∧ e.page < page + npages)) ∧
      (∃ i ∈ t.dma.invs, i.fn = fn ∧ i.itag = itag) ∧ t.dma.reads = s.dma.reads) ∧
  (∀ (fn itag : Nat) (i : AtsInv) (s : State), Running s →
    s.dma.invs.find? (fun i => i.fn == fn && i.itag == itag) = some i → i.tags = [] →
    Completes (.atsInvalidationDone fn itag) s fun t =>
      Sends s t [.atsDone fn itag] ∧ (∀ x ∈ t.dma.invs, ¬ (x.fn = fn ∧ x.itag = itag)) ∧
      t.dma.atc = s.dma.atc)

/-- NOP, STAMP and FENCE: no operands, no comb, OK. -/
def Obligations.Marks : Prop :=
  (∀ (id : Nat) (s : State), s.Inv → s.runs id .nop = true →
    Completes (.nop id) s fun t =>
      (t.job id).stage = .cellDone ∧ (t.job id).status = stOk ∧ (t.job id).noComb = true ∧
      (t.job id).tDone = (s.job id).tDone ∧ OtherJobs id s t) ∧
  (∀ (id : Nat) (s : State), s.Inv → s.runs id .stamp = true →
    Completes (.stamp id) s fun t =>
      (t.job id).stage = .cellDone ∧ (t.job id).status = stOk ∧ (t.job id).noComb = true ∧
      (t.job id).tDone = (s.job id).tDone ∧ OtherJobs id s t) ∧
  (∀ (id : Nat) (s : State), s.Inv → s.runs id .fence = true → (s.job id).waits.all s.ended = true →
    Completes (.fence id) s fun t =>
      (t.job id).stage = .cellDone ∧ (t.job id).status = stOk ∧ (t.job id).noComb = true ∧ OtherJobs id s t) ∧
  (∀ (id : Nat) (s : State), s.Inv → s.runs id .fence = true → (s.job id).waits.all s.ended = false →
    Completes (.fence id) s fun t =>
      (t.job id).stage = .run ∧ (t.job id).waits = (s.job id).waits.filter (fun j => !s.ended j) ∧
      OtherJobs id s t) ∧
  (∀ (id : Nat) (s : State), Running s → s.runs id .fence = true → (s.job id).waits.all s.ended = true →
    Completes (.fenceEnd id) s fun t =>
      (t.job id).stage = .cellDone ∧ (t.job id).status = stOk ∧ (t.job id).noComb = true ∧ OtherJobs id s t)

/-- The job with the values that its record is formed from at its end (R96 to R98). -/
def Sys2Proof.closedJob (j : Job) : Job :=
  { j with
    status := if j.status = stOk ∧ j.trunc = true then stTrunc else j.status
    nbytes := if j.status = stShort then j.nbytes
      else bytesOf (if j.status = stOk ∧ j.trunc = true then stTrunc else j.status) j.srcLen 0 j.written j.noComb
    digest := if (if j.status = stOk ∧ j.trunc = true then stTrunc else j.status).toNat ≤ 1 then j.digest else [] }

/-- The end of a job: a formed result record leaves for the result address and the job has ended; a job that ran on no
comb and writes nothing forms its record and ends at once; the output of a job whose destination is one segment within a
page leaves first, in requests of at most Max_Payload_Size, then the record with the time and the comb's state of that
moment; a leaf takes the next index of its tenant in the open epoch. -/
def Obligations.JobEnds : Prop :=
  (∀ (id n tgt a x : Nat) (ecc : JobEcc) (pasid : Option Nat) (s : State), Running s → s.hasJob id = true →
    (s.job id).stage = .cellDone → (s.job id).record ≠ [] → (s.job id).fromPeer = false →
    s.busMaster (s.job id).client = true →
    windowed s (s.job id).client (resultAddr s (s.job id)) 64 true = some (tgt, a, pasid) →
    xlated s (s.job id).client tgt a pasid true = .to x →
    Completes (.jobEnd id n ecc) s fun t =>
      (t.job id).stage = .ended ∧
      Sends s t [.write (s.job id).client tgt x (recordOf (s.job id)) false false pasid
        (atMark s (s.job id).client tgt)] ∧
      OtherJobs id s t) ∧
  (∀ (id n tgt a x : Nat) (pasid : Option Nat) (s : State), Running s → s.hasJob id = true →
    (s.job id).stage = .cellDone → (s.job id).record = [] → (s.job id).fromPeer = false →
    (s.job id).noComb = true → (s.job id).output = [] →
    ((s.job id).wantsLeaf && receiptsOn s (s.job id).client) = false →
    s.busMaster (s.job id).client = true →
    windowed s (s.job id).client (resultAddr s (s.job id)) 64 true = some (tgt, a, pasid) →
    xlated s (s.job id).client tgt a pasid true = .to x →
    Completes (.jobEnd id n .clean) s fun t =>
      (t.job id).stage = .ended ∧ (t.job id).refs = [] ∧ (t.job id).keyMat = [] ∧
      Sends s t [.write (s.job id).client tgt x (recordOf (closedJob (s.job id))) false false pasid
        (atMark s (s.job id).client tgt)] ∧ OtherJobs id s t) ∧
  (∀ (id n comb tgt a x tgt2 a2 x2 : Nat) (o : Op) (g : Seg) (pasid pasid2 : Option Nat) (s : State), Running s →
    s.hasJob id = true → (s.job id).stage = .cellDone → (s.job id).record = [] → (s.job id).fromPeer = false →
    (s.job id).noComb = false → (s.job id).comb = some comb →
    ((s.job id).wantsLeaf && receiptsOn s (s.job id).client) = false → dOp (s.job id).desc = some o →
    (s.job id).good = true → (s.job id).dstSegs = [g] → (s.job id).written = 0 → (s.job id).output ≠ [] →
    (s.job id).output.length ≤ g.len → overlapFix s o id = (s.job id).output →
    InPage g.addr.toNat (s.job id).output.length → s.busMaster (s.job id).client = true →
    windowed s (s.job id).client g.addr.toNat (s.job id).output.length true = some (tgt, a, pasid) →
    xlated s (s.job id).client tgt a pasid true = .to x →
    windowed s (s.job id).client (resultAddr s (s.job id)) 64 true = some (tgt2, a2, pasid2) →
    xlated s (s.job id).client tgt2 a2 pasid2 true = .to x2 →
    Completes (.jobEnd id n .clean) s fun t =>
      (t.job id).stage = .ended ∧ (t.job id).refs = [] ∧ (t.job id).keyMat = [] ∧
      Sends s t (PageWrites s (s.job id).client tgt g.addr.toNat x pasid
          (g.noSnoop && (s.func (s.job id).client).nsEn && tgt == 0)
          ((s.func (s.job id).client).roEn && isFn (s.job id).client && s.hi.cfg.getLsbD 3) (s.job id).output ++
        [.write (s.job id).client tgt2 x2
          (recordOf (closedJob { s.job id with
            written := (s.job id).output.length, tDone := s.sync.h, unsync := s.sync.state != 2
            combState := s.combByte comb })) false false pasid2 (atMark s (s.job id).client tgt2)]) ∧
      OtherJobs id s t) ∧
  (∀ (id : Nat) (s : State), Running s → closeDue s = false → mayAssign s id = true →
    leafTurn s id = true → id ∈ queueMates s id →
    Completes (.leafAssign id) s fun t =>
      (t.job id).isLeaf = true ∧ (t.job id).epoch = s.wg.epoch ∧
      (t.job id).leafIdx = (s.tenant (s.job id).client).leaves.length)

/-! ## The bulk cell (chapter 05) -/

/-- The state of the stream the job belongs to, or the fresh one of a single-shot job. -/
def Sys2Proof.StreamBefore (s : State) (id : Nat) (o : Op) : Ctx := streamOf s (s.job id) o

/-- AES_CTR: byte i of a descriptor's output is byte i of its input masked with the encryption of the counter
block that stands (bytes before it in the stream) ÷ 16 after the IV, as a 128-bit big-endian integer modulo
2¹²⁸; the stream goes on behind the descriptor's bytes, with the same IV (R139). -/
def Obligations.CtrCounts : Prop :=
  ∀ (id i : Nat) (s : State), s.Inv → s.ready id .aesCtr = true →
    ((s.job id).keyMat.length = 16 ∨ (s.job id).keyMat.length = 24 ∨ (s.job id).keyMat.length = 32) →
    (StreamBefore s id .aesCtr).nonce.length = 16 → (StreamBefore s id .aesCtr).done % 16 = 0 →
    i < (s.job id).got.length →
    Completes (.aesCtr id) s fun t =>
      (t.job id).status = stOk ∧ (t.job id).output.length = (s.job id).got.length ∧
      (t.job id).output.getD i 0 = (s.job id).got.getD i 0 ^^^
        (aesEnc (s.job id).keyMat (natBe 16 ((beNat (StreamBefore s id .aesCtr).nonce +
          ((StreamBefore s id .aesCtr).done + i) / 16) % 2 ^ 128))).getD (i % 16) 0 ∧
      (dStream .aesCtr (s.job id).desc = true → (s.job id).holdsCtx = true →
        (t.ctx (s.job id).client (dCtx (s.job id).desc)).done =
          (StreamBefore s id .aesCtr).done + dMsg (s.job id).desc ∧
        (t.ctx (s.job id).client (dCtx (s.job id).desc)).nonce = (StreamBefore s id .aesCtr).nonce)

/-- AES_CBC_ENC pads by PKCS#7 with PAD and chains from the IV or the last block before; AES_CBC_DEC with PAD
holds the last block back and judges it; AES_XTS runs over data units; AES_CTR masks. A job that leaves its cell with
that leaves no key there. -/
def Obligations.Ciphers : Prop :=
  (∀ (id : Nat) (s : State), s.Inv → s.ready id .aesCbcEnc = true →
    Completes (.aesCbcEnc id) s fun t =>
      Decided t id stOk 0 (cbcEnc (aesKeys (s.job id).keyMat) (cbcIv (StreamBefore s id .aesCbcEnc))
        (chunks 16 ((s.job id).got ++
          if dPad (s.job id).desc then pkcs7 (dMsg (s.job id).desc) else []))) ∧ OtherJobs id s t) ∧
  (∀ (id : Nat) (s : State), s.Inv → s.ready id .aesCbcDec = true → dPad (s.job id).desc = false →
    Completes (.aesCbcDec id) s fun t =>
      Decided t id stOk 0 (cbcDec (aesKeys (s.job id).keyMat) (cbcIv (StreamBefore s id .aesCbcDec))
        (chunks 16 (s.job id).got)) ∧ (t.job id).opInfo = 0 ∧ OtherJobs id s t) ∧
  (∀ (id : Nat) (p : Bytes) (s : State), s.Inv → s.ready id .aesCbcDec = true → dPad (s.job id).desc = true →
    cbcDec (aesKeys (s.job id).keyMat) (cbcIv (StreamBefore s id .aesCbcDec)) (chunks 16 (s.job id).got) = p →
    Completes (.aesCbcDec id) s fun t =>
      (match pkcs7Len (p.drop (p.length - 16)) with
        | some n => Decided t id stOk 0 (p.take (p.length - n)) ∧ (t.job id).opInfo = n
        | none => Decided t id stRange 0x80 (p.take (p.length - 16)) ∧ (t.job id).opInfo = 0) ∧
      OtherJobs id s t) ∧
  (∀ (id : Nat) (s : State), s.Inv → s.ready id .aesXtsEnc = true →
    Completes (.aesXtsEnc id) s fun t =>
      Decided t id stOk 0 (xts true (s.job id).keyMat (ivBytes (s.job id).desc)
        (2 ^ (dDu (s.job id).desc + 9)) (s.job id).got) ∧ OtherJobs id s t) ∧
  (∀ (id : Nat) (s : State), s.Inv → s.ready id .aesXtsDec = true →
    Completes (.aesXtsDec id) s fun t =>
      Decided t id stOk 0 (xts false (s.job id).keyMat (ivBytes (s.job id).desc)
        (2 ^ (dDu (s.job id).desc + 9)) (s.job id).got) ∧ OtherJobs id s t) ∧
  (∀ (id : Nat) (s : State), s.Inv → s.ready id .aesCtr = true → (s.job id).left = false →
    Completes (.aesCtr id) s fun t =>
      (t.job id).stage = .cellDone ∧ (t.job id).status = stOk ∧ (t.job id).refs = (s.job id).refs ∧
      ((t.job id).left = true → (t.job id).keyMat = []) ∧
      ((t.job id).left = false → (t.job id).keyMat = (s.job id).keyMat) ∧ OtherJobs id s t)

/-- The Poly1305 state over additional data `a` and the ciphertext of `m`. -/
def Sys2Proof.chachaSum (key nonce a m : Bytes) : Bytes :=
  polyBlocks (polyOtk key nonce) (polyBlocks (polyOtk key nonce) (zeros 17) a) (chachaMask key nonce 1 m)

/-- An AES-GCM stream has taken the additional data `a` and the message `m`, whole blocks of it. -/
def Sys2Proof.GcmTook (key nonce a m : Bytes) (k : Ctx) : Prop :=
  k.aad = a.length ∧ k.done = m.length ∧ m.length % 16 = 0 ∧
  (k.chain = [] ∧ a = [] ∧ m = [] ∨ k.chain = gcmHash key (gcmAad key a) (gcmEnc key nonce a m).1)

/-- A ChaCha20-Poly1305 stream has taken the additional data `a` and the message `m`, whole blocks of it. -/
def Sys2Proof.ChachaTook (key nonce a m : Bytes) (k : Ctx) : Prop :=
  k.aad = a.length ∧ k.done = m.length ∧ m.length % 64 = 0 ∧
  (k.chain = [] ∧ a = [] ∧ m = [] ∨ k.chain = chachaSum key nonce a m)

/-- An AES_GMAC stream has taken `m`, whole blocks of it. -/
def Sys2Proof.GmacTook (key m : Bytes) (k : Ctx) : Prop :=
  k.done = m.length ∧ m.length % 16 = 0 ∧ (k.chain = [] ∧ m = [] ∨ k.chain = gcmAad key m)

/-- The job brings the additional data `x` and the message `b`; additional data comes first in its stream. -/
def Sys2Proof.Brings (j : Job) (k : Ctx) (x b : Bytes) : Prop :=
  j.got = x ++ b ∧ x.length = dAad j.desc ∧ b.length = dMsg j.desc ∧ (x = [] ∨ k.chain = [])

/-- The key is an AES key. -/
def Sys2Proof.AesKey (key : Bytes) : Prop := key.length = 16 ∨ key.length = 24 ∨ key.length = 32

/-- The context of the job's stream. -/
def Sys2Proof.CtxOf (t : State) (j : Job) : Ctx := t.ctx j.client (dCtx j.desc)

/-- Authenticated encryption: additional data, then plaintext, in; ciphertext, then on a FINAL or single-shot descriptor
T bytes of tag, out. A stream gives what a single-shot descriptor gives over the concatenation: where it has taken `a`
and `m`, a FIRST or MIDDLE that brings `x` and `b` writes the ciphertext of `b` and leaves it having taken `a ++ x` and
`m ++ b`, with the same IV; a FINAL writes the rest of the ciphertext and the tag of all. A single-shot descriptor is
the FINAL of a stream that has taken nothing. AES_GMAC writes nothing before its FINAL, and then the tag alone, or
compares it with the T bytes behind the data. -/
def Obligations.Encryptions : Prop :=
  (∀ (id : Nat) (n a m x b : Bytes) (s : State), s.Inv → s.ready id .aesGcmEnc = true →
    dFinal .aesGcmEnc (s.job id).desc = false → (StreamBefore s id .aesGcmEnc).nonce = n →
    GcmTook (s.job id).keyMat n a m (StreamBefore s id .aesGcmEnc) →
    Brings (s.job id) (StreamBefore s id .aesGcmEnc) x b → b.length % 16 = 0 → (s.job id).holdsCtx = true →
    AesKey (s.job id).keyMat →
    Completes (.aesGcmEnc id) s fun t =>
      Decided t id stOk 0 ((gcmEnc (s.job id).keyMat n (a ++ x) (m ++ b)).1.drop m.length) ∧
      GcmTook (s.job id).keyMat n (a ++ x) (m ++ b) (CtxOf t (s.job id)) ∧
      (CtxOf t (s.job id)).nonce = n ∧ OtherJobs id s t) ∧
  (∀ (id : Nat) (n a m x b : Bytes) (s : State), s.Inv → s.ready id .aesGcmEnc = true →
    dFinal .aesGcmEnc (s.job id).desc = true → (StreamBefore s id .aesGcmEnc).nonce = n →
    GcmTook (s.job id).keyMat n a m (StreamBefore s id .aesGcmEnc) →
    Brings (s.job id) (StreamBefore s id .aesGcmEnc) x b → AesKey (s.job id).keyMat →
    Completes (.aesGcmEnc id) s fun t =>
      Decided t id stOk 0 ((gcmEnc (s.job id).keyMat n (a ++ x) (m ++ b)).1.drop m.length ++
        (gcmEnc (s.job id).keyMat n (a ++ x) (m ++ b)).2.take (dT (s.job id).desc)) ∧ OtherJobs id s t) ∧
  (∀ (id : Nat) (n a m x b : Bytes) (s : State), s.Inv → s.ready id .chachaPolyEnc = true →
    dFinal .chachaPolyEnc (s.job id).desc = false → (StreamBefore s id .chachaPolyEnc).nonce = n →
    ChachaTook (s.job id).keyMat n a m (StreamBefore s id .chachaPolyEnc) →
    Brings (s.job id) (StreamBefore s id .chachaPolyEnc) x b → b.length % 64 = 0 → (s.job id).holdsCtx = true →
    (m = [] ∨ (s.job id).keyMat.length = 32 ∧ n.length = 12) →
    Completes (.chachaPolyEnc id) s fun t =>
      Decided t id stOk 0 ((chachaMask (s.job id).keyMat n 1 (m ++ b)).drop m.length) ∧
      ChachaTook (s.job id).keyMat n (a ++ x) (m ++ b) (CtxOf t (s.job id)) ∧
      (CtxOf t (s.job id)).nonce = n ∧ OtherJobs id s t) ∧
  (∀ (id : Nat) (n a m x b : Bytes) (s : State), s.Inv → s.ready id .chachaPolyEnc = true →
    dFinal .chachaPolyEnc (s.job id).desc = true → (StreamBefore s id .chachaPolyEnc).nonce = n →
    ChachaTook (s.job id).keyMat n a m (StreamBefore s id .chachaPolyEnc) →
    Brings (s.job id) (StreamBefore s id .chachaPolyEnc) x b →
    (m = [] ∨ (s.job id).keyMat.length = 32 ∧ n.length = 12) →
    Completes (.chachaPolyEnc id) s fun t =>
      Decided t id stOk 0 ((chachaMask (s.job id).keyMat n 1 (m ++ b)).drop m.length ++
        (polyTag (polyOtk (s.job id).keyMat n) (chachaSum (s.job id).keyMat n (a ++ x) (m ++ b))
          (a ++ x).length (m ++ b).length).take (dT (s.job id).desc)) ∧ OtherJobs id s t) ∧
  (∀ (id : Nat) (a m : Bytes) (s : State), s.Inv → s.ready id .aesCcmEnc = true → (s.job id).got = a ++ m →
    a.length = dAad (s.job id).desc → m.length = dMsg (s.job id).desc →
    Completes (.aesCcmEnc id) s fun t =>
      Decided t id stOk 0
        ((ccmEnc (s.job id).keyMat (StreamBefore s id .aesCcmEnc).nonce a m (dT (s.job id).desc)).1 ++
        (ccmEnc (s.job id).keyMat (StreamBefore s id .aesCcmEnc).nonce a m (dT (s.job id).desc)).2) ∧
      OtherJobs id s t) ∧
  (∀ (id : Nat) (m b : Bytes) (s : State), s.Inv → s.ready id .aesGmac = true →
    dFinal .aesGmac (s.job id).desc = false → GmacTook (s.job id).keyMat m (StreamBefore s id .aesGmac) →
    (s.job id).got = b → b.length = dMsg (s.job id).desc → b.length % 16 = 0 → (s.job id).holdsCtx = true →
    Completes (.aesGmac id) s fun t =>
      Decided t id stOk 0 [] ∧ GmacTook (s.job id).keyMat (m ++ b) (CtxOf t (s.job id)) ∧
      (CtxOf t (s.job id)).nonce = (StreamBefore s id .aesGmac).nonce ∧ OtherJobs id s t) ∧
  (∀ (id : Nat) (m b : Bytes) (s : State), s.Inv → s.ready id .aesGmac = true →
    dFinal .aesGmac (s.job id).desc = true → dVerify (s.job id).desc = false →
    GmacTook (s.job id).keyMat m (StreamBefore s id .aesGmac) →
    (s.job id).got = b → b.length = dMsg (s.job id).desc →
    Completes (.aesGmac id) s fun t =>
      Decided t id stOk 0 ((gcmEnc (s.job id).keyMat (StreamBefore s id .aesGmac).nonce (m ++ b) []).2.take
        (dT (s.job id).desc)) ∧ OtherJobs id s t) ∧
  (∀ (id : Nat) (m b tag : Bytes) (s : State), s.Inv → s.ready id .aesGmac = true →
    dFinal .aesGmac (s.job id).desc = true → dVerify (s.job id).desc = true →
    GmacTook (s.job id).keyMat m (StreamBefore s id .aesGmac) →
    (s.job id).got = b ++ tag → b.length = dMsg (s.job id).desc → tag.length = dT (s.job id).desc →
    Completes (.aesGmac id) s fun t =>
      Decided t id
        (if (gcmEnc (s.job id).keyMat (StreamBefore s id .aesGmac).nonce (m ++ b) []).2.take tag.length = tag
          then stOk else stAuthFail) 0 [] ∧ OtherJobs id s t)

/-- What an authenticated decryption leaves: staged, the plaintext only where the tag matched, with OP_INFO 1
otherwise; in two passes, nothing after a first pass whose tag differs, and OP_INFO 2 where the second
pass gives another tag than the first. -/
def Sys2Proof.OpensAs (c : Nat → Instr) (o : Op) (f : State → Job → Opened) : Prop :=
  (∀ (id : Nat) (s : State), s.Inv → s.ready id o = true → dOut o (s.job id).desc ≤ 262144 →
    (s.job id).pass2 = false →
    Completes (c id) s fun t =>
      (if (f s (s.job id)).tag = (f s (s.job id)).want
        then Decided t id stOk 0 (f s (s.job id)).plain ∧ (t.job id).opInfo = 0
        else Decided t id stAuthFail 0 [] ∧ (t.job id).opInfo = 1) ∧ OtherJobs id s t) ∧
  (∀ (id : Nat) (s : State), s.Inv → s.ready id o = true → 262144 < dOut o (s.job id).desc →
    (s.job id).pass2 = false → (f s (s.job id)).tag ≠ (f s (s.job id)).want →
    Completes (c id) s fun t =>
      Decided t id stAuthFail 0 [] ∧ (t.job id).opInfo = 1 ∧ (t.job id).twoPass = true ∧ OtherJobs id s t) ∧
  (∀ (id : Nat) (s : State), s.Inv → s.ready id o = true → 262144 < dOut o (s.job id).desc →
    (s.job id).pass2 = false → (f s (s.job id)).tag = (f s (s.job id)).want →
    Completes (c id) s fun t =>
      (t.job id).pass2 = true ∧ (t.job id).twoPass = true ∧
      ((t.job id).stage = .cellDone ∧ (t.job id).status ≠ stOk ∨
        (t.job id).stage = .run ∧ (t.job id).pass1Tag = (f s (s.job id)).tag) ∧ OtherJobs id s t) ∧
  (∀ (id : Nat) (s : State), s.Inv → s.ready id o = true → (s.job id).pass2 = true →
    Completes (c id) s fun t =>
      (if (f s (s.job id)).tag = (s.job id).pass1Tag
        then Decided t id stOk 0 (f s (s.job id)).plain ∧ (t.job id).opInfo = 0
        else (t.job id).stage = .cellDone ∧ (t.job id).status = stAuthFail ∧ (t.job id).opInfo = 2) ∧
      OtherJobs id s t)

/-- The decryptions of the three authenticated ciphers. -/
def Obligations.Decryptions : Prop :=
  OpensAs .aesGcmDec .aesGcmDec gcmOpen ∧ OpensAs .aesCcmDec .aesCcmDec ccmOpen ∧
  OpensAs .chachaPolyDec .chachaPolyDec chachaOpen

/-- TLS 1.3 records: SEAL writes the header, the encrypted inner plaintext and the tag; OPEN judges the header,
then the tag, then finds the last non-zero byte. ESP packets: SEAL writes SPI, the low sequence word, the
explicit IV, and the encrypted payload with its trailer and the ICV; OPEN judges SPI and sequence word, then the
ICV, then the padding: the Pad Length byte, next to last, says how many bytes before it count from 1 up, and what stands
before them is the payload, whose length OP_INFO gives. -/
def Obligations.ProtocolPackets : Prop :=
  (∀ (id : Nat) (s : State), s.Inv → s.ready id .tls13RecSeal = true →
    (s.job id).got.length = dMsg (s.job id).desc →
    Completes (.tls13RecSeal id) s fun t =>
      (∃ body, Decided t id stOk 0
        ([0x17, 0x03, 0x03] ++ natBe 2 (dMsg (s.job id).desc + 1 + tlsPad (s.job id).desc + 16) ++ body) ∧
        body = (aeadEnc (dAlg (s.job id).desc) (s.job id).keyMat
            (xorB (slice (dBlock (s.job id).desc) 0 12) (zeros 4 ++ natBe 8 (tlsSeq (s.job id).desc)))
            ([0x17, 0x03, 0x03] ++ natBe 2 (dMsg (s.job id).desc + 1 + tlsPad (s.job id).desc + 16))
            ((s.job id).got ++ [BitVec.ofNat 8 (tlsInner (s.job id).desc)] ++ zeros (tlsPad (s.job id).desc))).1 ++
          (aeadEnc (dAlg (s.job id).desc) (s.job id).keyMat
            (xorB (slice (dBlock (s.job id).desc) 0 12) (zeros 4 ++ natBe 8 (tlsSeq (s.job id).desc)))
            ([0x17, 0x03, 0x03] ++ natBe 2 (dMsg (s.job id).desc + 1 + tlsPad (s.job id).desc + 16))
            ((s.job id).got ++ [BitVec.ofNat 8 (tlsInner (s.job id).desc)] ++
              zeros (tlsPad (s.job id).desc))).2) ∧
      OtherJobs id s t) ∧
  (∀ (id : Nat) (s : State), s.Inv → s.ready id .tls13RecOpen = true →
    (s.job id).got.take 5 ≠ [0x17, 0x03, 0x03] ++ natBe 2 (dMsg (s.job id).desc) →
    Completes (.tls13RecOpen id) s fun t => Decided t id stRange 0x82 [] ∧ OtherJobs id s t) ∧
  (∀ (id : Nat) (s : State), s.Inv → s.ready id .tls13RecOpen = true →
    (s.job id).got.take 5 = [0x17, 0x03, 0x03] ++ natBe 2 (dMsg (s.job id).desc) →
    dOut .tls13RecOpen (s.job id).desc ≤ 262144 → (s.job id).pass2 = false →
    Completes (.tls13RecOpen id) s fun t =>
      (if (tlsOpen s (s.job id)).tag = (tlsOpen s (s.job id)).want then
        (if allZero (tlsOpen s (s.job id)).plain = true
          then Decided t id stRange 0x81 (tlsOpen s (s.job id)).plain
          else Decided t id stOk 0 (tlsOpen s (s.job id)).plain ∧
            (tlsOpen s (s.job id)).plain.getD (t.job id).opInfo 0 ≠ 0 ∧
            allZero ((tlsOpen s (s.job id)).plain.drop ((t.job id).opInfo + 1)) = true)
        else Decided t id stAuthFail 0 [] ∧ (t.job id).opInfo = 1) ∧ OtherJobs id s t) ∧
  (∀ (id p : Nat) (pt : Bytes) (s : State), s.Inv → s.ready id .espSeal = true →
    espPadOf (dMsg (s.job id).desc) (espAlign (s.job id).desc) = p →
    (s.job id).got ++ ((List.range p).map fun i => BitVec.ofNat 8 (i + 1)) ++
      [BitVec.ofNat 8 p, BitVec.ofNat 8 (espNext (s.job id).desc)] = pt →
    Completes (.espSeal id) s fun t =>
      Decided t id stOk 0 (natBe 4 (espSpi (s.job id).desc) ++ natBe 4 (espSeq (s.job id).desc) ++
        (StreamBefore s id .espSeal).nonce.drop 4 ++
        (aeadEnc (dAlg (s.job id).desc) (s.job id).keyMat (StreamBefore s id .espSeal).nonce
          (natBe 4 (espSpi (s.job id).desc) ++ natBe 8 (espSeq (s.job id).desc)) pt).1 ++
        (aeadEnc (dAlg (s.job id).desc) (s.job id).keyMat (StreamBefore s id .espSeal).nonce
          (natBe 4 (espSpi (s.job id).desc) ++ natBe 8 (espSeq (s.job id).desc)) pt).2.take
          (dT (s.job id).desc)) ∧ OtherJobs id s t) ∧
  (∀ (id : Nat) (s : State), s.Inv → s.ready id .espOpen = true →
    (beNat ((s.job id).got.take 4) ≠ espSpi (s.job id).desc ∨
      beNat (slice (s.job id).got 4 4) ≠ espSeq (s.job id).desc % 2 ^ 32) →
    Completes (.espOpen id) s fun t => Decided t id stRange 0x82 [] ∧ OtherJobs id s t) ∧
  (∀ (id n p : Nat) (plain : Bytes) (s : State), s.Inv → s.ready id .espOpen = true →
    beNat ((s.job id).got.take 4) = espSpi (s.job id).desc →
    beNat (slice (s.job id).got 4 4) = espSeq (s.job id).desc % 2 ^ 32 →
    dOut .espOpen (s.job id).desc ≤ 262144 → (s.job id).pass2 = false →
    (espOpenOf s (s.job id)).plain = plain → plain.length = n → (plain.getD (n - 2) 0).toNat = p →
    Completes (.espOpen id) s fun t =>
      (if (espOpenOf s (s.job id)).tag = (espOpenOf s (s.job id)).want then
        (if n - 2 < p ∨ slice plain (n - 2 - p) p ≠ (List.range p).map (fun i => BitVec.ofNat 8 (i + 1))
          then Decided t id stRange 0x84 plain ∧ (t.job id).opInfo = 0
          else Decided t id stOk 0 plain ∧ (t.job id).opInfo = n - 2 - p)
        else Decided t id stAuthFail 0 [] ∧ (t.job id).opInfo = 1) ∧ OtherJobs id s t)

/-- RANDOM writes MSG_LEN bytes of the comb's DRBG, which moves on; a DRBG that cannot be seeded fails the
job and writes nothing. -/
def Obligations.RandomNumbers : Prop :=
  (∀ (id : Nat) (u : State) (s : State), s.Inv → s.ready id .random = true →
    drbgReady s (s.job id).on (dPr (s.job id).desc) = some u →
    Completes (.random id) s fun t =>
      Decided t id stOk 0 (drbgOut (bvBe 32 (u.comb (s.job id).on).drbg.key)
        (bvBe 16 (u.comb (s.job id).on).drbg.v) (dMsg (s.job id).desc)).1 ∧
      (t.job id).opInfo = 0 ∧
      (t.comb (s.job id).on).drbg.count = (u.comb (s.job id).on).drbg.count + 1 ∧
      OtherJobs id s t ∧ OtherCombs (s.job id).on s t) ∧
  (∀ (id : Nat) (s : State), s.Inv → s.ready id .random = true →
    drbgReady s (s.job id).on (dPr (s.job id).desc) = none →
    Completes (.random id) s fun t => Decided t id stPoison 0x81 [] ∧ OtherJobs id s t ∧ t.combs = s.combs)

/-! ## The digest cell (chapter 06) -/

/-- The stream of a hash has taken the message `a`, whole blocks of it. -/
def Sys2Proof.HashTook (alg : Nat) (start a : Bytes) (k : Ctx) : Prop :=
  k.done = a.length ∧ a.length % hashBlock alg = 0 ∧
  (a = [] ∧ k.chain = [] ∨ k.chain = hashAbsorb alg start a)

/-- The stream of a CMAC has taken `a`, whole blocks of it, and holds the last one back. -/
def Sys2Proof.CmacTook (key a : Bytes) (k : Ctx) : Prop :=
  k.done = a.length ∧ a.length % 16 = 0 ∧
  (a = [] ∧ k.chain = [] ∨
    k.chain = cbcMac (aesKeys key) (zeros 16) (a.take ((a.length - 1) / 16 * 16)) ++
      a.drop ((a.length - 1) / 16 * 16))

/-- A FIRST or MIDDLE descriptor of opcode `o`, with an algorithm in `algs`: the stream that has taken `a` from the
chaining value `start` takes the descriptor's bytes behind it, and nothing is written. -/
def Sys2Proof.HashGoesOn (c : Nat → Instr) (o : Op) (algs : Nat → Prop) (start : State → Nat → Bytes) : Prop :=
  ∀ (id : Nat) (a : Bytes) (s : State), s.Inv → s.ready id o = true →
    dFinal o (s.job id).desc = false → (s.job id).got.length = dMsg (s.job id).desc →
    (s.job id).got.length % hashBlock (dAlg (s.job id).desc) = 0 → (s.job id).holdsCtx = true →
    algs (dAlg (s.job id).desc) → HashTook (dAlg (s.job id).desc) (start s id) a (StreamBefore s id o) →
    Completes (c id) s fun t =>
      Decided t id stOk 0 [] ∧
      HashTook (dAlg (s.job id).desc) (start s id) (a ++ (s.job id).got) (CtxOf t (s.job id)) ∧ OtherJobs id s t

/-- The same of the two CMAC opcodes. -/
def Sys2Proof.CmacGoesOn (c : Nat → Instr) (o : Op) : Prop :=
  ∀ (id : Nat) (a : Bytes) (s : State), s.Inv → s.ready id o = true →
    dFinal o (s.job id).desc = false → (s.job id).got.length = dMsg (s.job id).desc →
    (s.job id).got.length % 16 = 0 → (s.job id).holdsCtx = true →
    ((s.job id).keyMat.length = 16 ∨ (s.job id).keyMat.length = 24 ∨ (s.job id).keyMat.length = 32) →
    CmacTook (s.job id).keyMat a (StreamBefore s id o) →
    Completes (c id) s fun t =>
      Decided t id stOk 0 [] ∧ CmacTook (s.job id).keyMat (a ++ (s.job id).got) (CtxOf t (s.job id)) ∧
      OtherJobs id s t

/-- HMAC's chaining value after its inner pad. -/
def Sys2Proof.hmacStart (s : State) (id : Nat) : Bytes :=
  hashAbsorb (dAlg (s.job id).desc) (hashInit (dAlg (s.job id).desc))
    (hmacPad (dAlg (s.job id).desc) 0x36 (s.job id).keyMat)

/-- A stream computes the same value as a single-shot descriptor over the concatenation of its descriptors'
bytes: where the stream has taken `a`, a FIRST or MIDDLE that brings `b` leaves it having taken `a ++ b`, and
a FINAL that brings `b` writes the digest or MAC of `a ++ b`, its leftmost bytes where OUT_LEN asks for
fewer. A single-shot descriptor is the FINAL of a stream that has taken nothing. -/
def Obligations.DigestStreams : Prop :=
  (∀ (id : Nat) (a : Bytes) (s : State), s.Inv → s.ready id .hash = true →
    dFinal .hash (s.job id).desc = true → (s.job id).got.length = dMsg (s.job id).desc →
    HashTook (dAlg (s.job id).desc) (hashInit (dAlg (s.job id).desc)) a (StreamBefore s id .hash) →
    Completes (.hash id) s fun t =>
      Decided t id stOk 0 (hashN (dAlg (s.job id).desc) (a ++ (s.job id).got) (outN .hash (s.job id))) ∧
      (t.job id).digest = (if dCommit (s.job id).desc then (t.job id).output else []) ∧ OtherJobs id s t) ∧
  HashGoesOn .hash .hash (fun _ => True) (fun s id => hashInit (dAlg (s.job id).desc)) ∧
  HashGoesOn .shakeXof .shakeXof (fun n => n = 0x21 ∨ n = 0x22) (fun _ _ => zeros 200) ∧
  HashGoesOn .hmacGen .hmacGen (fun _ => True) hmacStart ∧
  HashGoesOn .hmacVerify .hmacVerify (fun _ => True) hmacStart ∧
  HashGoesOn .kmac .kmac (fun n => n = 0x31 ∨ n = 0x32)
    (fun s id => kmacInit (dAlg (s.job id).desc) (s.job id).keyMat (StreamBefore s id .kmac).s) ∧
  (∀ (id : Nat) (a : Bytes) (s : State), s.Inv → s.ready id .shakeXof = true →
    dFinal .shakeXof (s.job id).desc = true → (s.job id).got.length = dMsg (s.job id).desc →
    dAlg (s.job id).desc = 0x21 ∨ dAlg (s.job id).desc = 0x22 →
    HashTook (dAlg (s.job id).desc) (zeros 200) a (StreamBefore s id .shakeXof) →
    Completes (.shakeXof id) s fun t =>
      Decided t id stOk 0 (if dAlg (s.job id).desc = 0x21
        then shake128 (a ++ (s.job id).got) (dOutLen (s.job id).desc)
        else shake256 (a ++ (s.job id).got) (dOutLen (s.job id).desc)) ∧ OtherJobs id s t) ∧
  (∀ (id : Nat) (a : Bytes) (s : State), s.Inv → s.ready id .hmacGen = true →
    dFinal .hmacGen (s.job id).desc = true → (s.job id).got.length = dMsg (s.job id).desc →
    HashTook (dAlg (s.job id).desc) (hmacStart s id) a (StreamBefore s id .hmacGen) →
    Completes (.hmacGen id) s fun t =>
      Decided t id stOk 0 ((hmac (dAlg (s.job id).desc) (s.job id).keyMat (a ++ (s.job id).got)).take
        (outN .hmacGen (s.job id))) ∧ OtherJobs id s t) ∧
  (∀ (id : Nat) (a : Bytes) (s : State), s.Inv → s.ready id .kmac = true →
    dFinal .kmac (s.job id).desc = true → (s.job id).got.length = dMsg (s.job id).desc →
    dAlg (s.job id).desc = 0x31 ∨ dAlg (s.job id).desc = 0x32 →
    HashTook (dAlg (s.job id).desc) (kmacInit (dAlg (s.job id).desc) (s.job id).keyMat
      (StreamBefore s id .kmac).s) a (StreamBefore s id .kmac) →
    Completes (.kmac id) s fun t =>
      Decided t id stOk 0 (kmacOf (dAlg (s.job id).desc) (s.job id).keyMat (StreamBefore s id .kmac).s
        (a ++ (s.job id).got) (outN .kmac (s.job id))) ∧ OtherJobs id s t) ∧
  (∀ (id : Nat) (a : Bytes) (s : State), s.Inv → s.ready id .cmacGen = true →
    dFinal .cmacGen (s.job id).desc = true → (s.job id).got.length = dMsg (s.job id).desc →
    ((s.job id).keyMat.length = 16 ∨ (s.job id).keyMat.length = 24 ∨ (s.job id).keyMat.length = 32) →
    CmacTook (s.job id).keyMat a (StreamBefore s id .cmacGen) →
    Completes (.cmacGen id) s fun t =>
      Decided t id stOk 0 ((cmac (s.job id).keyMat (a ++ (s.job id).got)).take (outN .cmacGen (s.job id))) ∧
      OtherJobs id s t) ∧
  CmacGoesOn .cmacGen .cmacGen ∧ CmacGoesOn .cmacVerify .cmacVerify

/-- HMAC_VERIFY and CMAC_VERIFY compare the leftmost c bytes of the MAC with the first c bytes of the MAC
block; neither outcome writes the MAC anywhere. -/
def Obligations.MacVerdicts : Prop :=
  (∀ (id : Nat) (a : Bytes) (s : State), s.Inv → s.ready id .hmacVerify = true →
    dFinal .hmacVerify (s.job id).desc = true → (s.job id).got.length = dMsg (s.job id).desc →
    HashTook (dAlg (s.job id).desc) (hmacStart s id) a (StreamBefore s id .hmacVerify) →
    Completes (.hmacVerify id) s fun t =>
      Decided t id (if (hmac (dAlg (s.job id).desc) (s.job id).keyMat (a ++ (s.job id).got)).take
        (outN .hmacVerify (s.job id)) = (dBlock (s.job id).desc).take (outN .hmacVerify (s.job id))
        then stOk else stAuthFail) 0 [] ∧ (t.job id).digest = [] ∧ OtherJobs id s t) ∧
  (∀ (id : Nat) (a : Bytes) (s : State), s.Inv → s.ready id .cmacVerify = true →
    dFinal .cmacVerify (s.job id).desc = true → (s.job id).got.length = dMsg (s.job id).desc →
    ((s.job id).keyMat.length = 16 ∨ (s.job id).keyMat.length = 24 ∨ (s.job id).keyMat.length = 32) →
    CmacTook (s.job id).keyMat a (StreamBefore s id .cmacVerify) →
    Completes (.cmacVerify id) s fun t =>
      Decided t id (if (cmac (s.job id).keyMat (a ++ (s.job id).got)).take
        (outN .cmacVerify (s.job id)) = (dBlock (s.job id).desc).take (outN .cmacVerify (s.job id))
        then stOk else stAuthFail) 0 [] ∧ (t.job id).digest = [] ∧ OtherJobs id s t)

/-! ## The number cell and the lattice cell (chapter 07) -/

/-- The comb's DRBG serves the job, in the state `u` (R160, R203). -/
def Sys2Proof.Served (s : State) (id : Nat) (u : State) : Prop := drbgReady s (s.job id).on false = some u

/-- The bytes the job draws are a free value of the model (log entry 11). -/
def Sys2Proof.Drawn (s u : State) (id n : Nat) : Bytes := (drawFree (seedWaited s u id) (s.job id).on n).1

/-- The bytes of one generate request per named value, in the state `u` (log entry 60). -/
def Sys2Proof.Generated (s u : State) (id : Nat) (ns : List Nat) : Bytes :=
  (drbgGenerates (seedWaited s u id) (s.job id).on ns).1

/-- The modulus of the job's RSA key. -/
def Sys2Proof.rsaN (j : Job) : Nat := (rsaKey j.k j.keyMat).p * (rsaKey j.k j.keyMat).q

/-- The value a private operation that returns its power works on: the source itself, below the modulus, or the
encoded digest (R196). -/
def Sys2Proof.RsaInput (s u : State) (id m : Nat) : Prop :=
  (dVariant (s.job id).desc = 0 ∧ m = beNat (s.job id).got ∧ m < rsaN (s.job id)) ∨
  (dVariant (s.job id).desc = 1 ∧ m = beNat (emsaPkcs1 (dHash (s.job id).desc) (s.job id).k (s.job id).got)) ∨
  (dVariant (s.job id).desc = 2 ∧ m = beNat (emsaPss (dHash (s.job id).desc) (s.job id).k (s.job id).got
    (Drawn s u id (hashLen (dHash (s.job id).desc)))))

/-- The modulus and the exponent of a public operation pass R194. -/
def Sys2Proof.RsaPublic (j : Job) (n e : Nat) : Prop :=
  n = beNat (j.got.take j.k) ∧ e = beNat (slice j.got j.k 4) ∧
  n % 2 = 1 ∧ 2 ^ (8 * j.k - 1) ≤ n ∧ e % 2 = 1 ∧ 3 ≤ e

/-- The fault check of R204 failed: nothing is written, and the comb of the job counts and shows it. -/
def Sys2Proof.FaultFound (s t : State) (id : Nat) : Prop :=
  Decided t id stPoison 0x80 [] ∧
  (t.comb (s.job id).on).pkFault = satAdd 0xFFFFFFFF (s.comb (s.job id).on).pkFault 1 ∧
  ((s.job id).on < 64 → t.aon.sticky.getLsbD (s.job id).on = true)

/-- RSA_PRIV: raw, PKCS #1 v1.5 and PSS results are powers that the public exponent takes back to the value operated
on; a value not below n is refused; OAEP yields its message or fails, and fails before the fault check; a failed
fault check and a DRBG that cannot be seeded write nothing. RSA_PUB and MODEXP_RAW: the power of the base modulo n,
the encryption of a message, the verdict on a signature, and the operands that are refused. One generate request for
the seed of OAEP (log entry 60), the moment at which a draw that fails ends the job (log entry 12), and that the message
of an OAEP encryption starts at byte k + 4 (log entry 86), are the model's choices. -/
def Obligations.RsaAndPowers : Prop :=
  (∀ (id m r : Nat) (u s : State), s.Inv → s.ready id .rsaPriv = true → Served s id u → RsaInput s u id m →
    rsaCrt (rsaKey (s.job id).k (s.job id).keyMat) m = (r, true) →
    Completes (.rsaPriv id false) s fun t =>
      Decided t id stOk 0 (natBe (s.job id).k r) ∧
      beNat (t.job id).output ^ (rsaKey (s.job id).k (s.job id).keyMat).e % rsaN (s.job id) = m ∧
      OtherJobs id s t) ∧
  (∀ (id m : Nat) (fault : Bool) (u s : State), s.Inv → s.ready id .rsaPriv = true → Served s id u →
    RsaInput s u id m → fault = true ∨ (rsaCrt (rsaKey (s.job id).k (s.job id).keyMat) m).2 = false →
    Completes (.rsaPriv id fault) s fun t => FaultFound s t id ∧ OtherJobs id s t) ∧
  (∀ (id : Nat) (fault : Bool) (s : State), s.Inv → s.ready id .rsaPriv = true →
    dVariant (s.job id).desc = 0 ∨ dVariant (s.job id).desc = 3 → rsaN (s.job id) ≤ beNat (s.job id).got →
    Completes (.rsaPriv id fault) s fun t => Decided t id stRange 0x80 [] ∧ OtherJobs id s t) ∧
  (∀ (id r : Nat) (fault ok : Bool) (u s : State), s.Inv → s.ready id .rsaPriv = true → Served s id u →
    dVariant (s.job id).desc = 3 → beNat (s.job id).got < rsaN (s.job id) →
    rsaCrt (rsaKey (s.job id).k (s.job id).keyMat) (beNat (s.job id).got) = (r, ok) →
    Completes (.rsaPriv id fault) s fun t =>
      (match oaepDecode (dHash (s.job id).desc) (s.job id).k (natBe (s.job id).k r) with
        | none => Decided t id stRange 0x84 []
        | some m => if fault = false ∧ ok = true then Decided t id stOk 0 m ∧ (t.job id).opInfo = m.length
          else FaultFound s t id) ∧ OtherJobs id s t) ∧
  (∀ (id : Nat) (fault : Bool) (s : State), s.Inv → s.ready id .rsaPriv = true →
    drbgReady s (s.job id).on false = none →
    (dVariant (s.job id).desc = 1 ∨ dVariant (s.job id).desc = 2 ∨ beNat (s.job id).got < rsaN (s.job id)) →
    Completes (.rsaPriv id fault) s fun t => Decided t id stPoison 0x81 [] ∧ OtherJobs id s t) ∧
  (∀ (id n e : Nat) (s : State), s.Inv → s.ready id .rsaPub = true →
    n = beNat ((s.job id).got.take (s.job id).k) → e = beNat (slice (s.job id).got (s.job id).k 4) →
    n % 2 = 0 ∨ n < 2 ^ (8 * (s.job id).k - 1) ∨ e % 2 = 0 ∨ e < 3 →
    Completes (.rsaPub id) s fun t => Decided t id stRange 0x81 [] ∧ OtherJobs id s t) ∧
  (∀ (id n e m : Nat) (s : State), s.Inv → s.ready id .rsaPub = true → RsaPublic (s.job id) n e →
    m = beNat ((s.job id).got.drop ((s.job id).k + 4)) → dVariant (s.job id).desc = 0 →
    Completes (.rsaPub id) s fun t =>
      (if m < n then Decided t id stOk 0 (natBe (s.job id).k (m ^ e % n)) else Decided t id stRange 0x80 []) ∧
      OtherJobs id s t) ∧
  (∀ (id n e : Nat) (sig dig : Bytes) (s : State), s.Inv → s.ready id .rsaPub = true →
    RsaPublic (s.job id) n e → (s.job id).got.drop ((s.job id).k + 4) = sig ++ dig →
    sig.length = (s.job id).k → dVariant (s.job id).desc = 1 ∨ dVariant (s.job id).desc = 2 →
    Completes (.rsaPub id) s fun t =>
      Decided t id (if beNat sig < n ∧
          (if dVariant (s.job id).desc = 1
            then natBe (s.job id).k (beNat sig ^ e % n) = emsaPkcs1 (dHash (s.job id).desc) (s.job id).k dig
            else emsaPssOk (dHash (s.job id).desc) (s.job id).k dig
              (natBe (s.job id).k (beNat sig ^ e % n)) = true)
        then stOk else stSigInvalid) 0 [] ∧ OtherJobs id s t) ∧
  (∀ (id n e : Nat) (u s : State), s.Inv → s.ready id .rsaPub = true → RsaPublic (s.job id) n e →
    dVariant (s.job id).desc = 3 → Served s id u →
    Completes (.rsaPub id) s fun t =>
      Decided t id stOk 0 (natBe (s.job id).k (beNat (oaepEncode (dHash (s.job id).desc) (s.job id).k
        ((s.job id).got.drop ((s.job id).k + 4))
        (Generated s u id [hashLen (dHash (s.job id).desc)])) ^ e % n)) ∧ OtherJobs id s t) ∧
  (∀ (id n e b : Nat) (s : State), s.Inv → s.ready id .modexpRaw = true →
    n = beNat ((s.job id).got.take (s.job id).k) → e = beNat (slice (s.job id).got (s.job id).k (s.job id).k) →
    b = beNat (slice (s.job id).got (2 * (s.job id).k) (s.job id).k) →
    Completes (.modexpRaw id) s fun t =>
      (if n % 2 = 0 ∨ n ≤ 1 then Decided t id stRange 0x83 []
        else if n ≤ b then Decided t id stRange 0x80 []
        else Decided t id stOk 0 (natBe (s.job id).k (b ^ e % n))) ∧ OtherJobs id s t)

/-- Signatures over curves: deterministic ECDSA under RFC 6979, ECDSA with drawn secrets, EdDSA; what a failed fault
check leaves; and the verdicts of verification, with the public keys that are refused. -/
def Obligations.CurveSignatures : Prop :=
  (∀ (id : Nat) (u s : State), s.Inv → s.ready id .ecdsaSign = true → Served s id u →
    Completes (.ecdsaSign id false) s fun t =>
      Decided t id stOk 0 (if dVariant (s.job id).desc = 0
        then ecdsaSign (wCurve (dAlg (s.job id).desc)) (beNat (s.job id).keyMat) (s.job id).got
          (randomSecret (wCurve (dAlg (s.job id).desc)).n) (Drawn s u id 9216, [])
        else ecdsaSign (wCurve (dAlg (s.job id).desc)) (beNat (s.job id).keyMat) (s.job id).got
          (rfc6979Next (dHash (s.job id).desc) (wCurve (dAlg (s.job id).desc)))
          (rfc6979Init (dHash (s.job id).desc) (wCurve (dAlg (s.job id).desc)) (beNat (s.job id).keyMat)
            (s.job id).got)) ∧ OtherJobs id s t) ∧
  (∀ (id : Nat) (u s : State), s.Inv → s.ready id .ecdsaSign = true → Served s id u →
    Completes (.ecdsaSign id true) s fun t => FaultFound s t id ∧ OtherJobs id s t) ∧
  (∀ (id : Nat) (u s : State), s.Inv → s.ready id .eddsaSign = true → Served s id u →
    Completes (.eddsaSign id false) s fun t =>
      Decided t id stOk 0 (edSign (dAlg (s.job id).desc) (decide (dVariant (s.job id).desc = 1))
        (s.job id).keyMat (s.job id).got) ∧ OtherJobs id s t) ∧
  (∀ (id : Nat) (u s : State), s.Inv → s.ready id .eddsaSign = true → Served s id u →
    Completes (.eddsaSign id true) s fun t => FaultFound s t id ∧ OtherJobs id s t) ∧
  (∀ (id : Nat) (s : State), s.Inv → s.ready id .ecdsaVerify = true →
    Completes (.ecdsaVerify id) s fun t =>
      (match wDecode (wCurve (dAlg (s.job id).desc))
          ((s.job id).got.take (1 + 2 * (wCurve (dAlg (s.job id).desc)).f)) with
        | none => Decided t id stRange 0x81 []
        | some q => Decided t id
          (if ecdsaOk (wCurve (dAlg (s.job id).desc)) q
              (beNat (slice (s.job id).got (1 + 2 * (wCurve (dAlg (s.job id).desc)).f)
                (wCurve (dAlg (s.job id).desc)).f))
              (beNat (slice (s.job id).got (1 + 3 * (wCurve (dAlg (s.job id).desc)).f)
                (wCurve (dAlg (s.job id).desc)).f))
              ((s.job id).got.drop (1 + 4 * (wCurve (dAlg (s.job id).desc)).f)) = true
            then stOk else stSigInvalid) 0 []) ∧ OtherJobs id s t) ∧
  (∀ (id : Nat) (pk sig m : Bytes) (s : State), s.Inv → s.ready id .eddsaVerify = true →
    (s.job id).got = pk ++ sig ++ m → pk.length = pubLen (dAlg (s.job id).desc) →
    sig.length = sigLen (dAlg (s.job id).desc) →
    Completes (.eddsaVerify id) s fun t =>
      (match eDecode (eCurve (dAlg (s.job id).desc)) pk with
        | none => Decided t id stRange 0x81 []
        | some q => Decided t id
          (if edOk (dAlg (s.job id).desc) (decide (dVariant (s.job id).desc = 1)) pk q sig m = true
            then stOk else stSigInvalid) 0 []) ∧ OtherJobs id s t)

/-- What an agreement that releases its secret or point to memory leaves. Where the DRBG cannot be seeded stands between
the checks of order 1, which refuse the operand before any draw, and the check of the result: the model's choice (log
entry 12). -/
def Sys2Proof.Agrees (c : Nat → Bool → Instr) (o : Op) (f : Job → BitVec 8 ⊕ Bytes) : Prop :=
  (∀ (id : Nat) (z : Bytes) (u s : State), s.Inv → s.ready id o = true → Served s id u → f (s.job id) = .inr z →
    Completes (c id false) s fun t => Decided t id stOk 0 z ∧ OtherJobs id s t) ∧
  (∀ (id : Nat) (z : Bytes) (u s : State), s.Inv → s.ready id o = true → Served s id u →
    f (s.job id) = .inr z →
    Completes (c id true) s fun t => FaultFound s t id ∧ OtherJobs id s t) ∧
  (∀ (id : Nat) (det : BitVec 8) (fault : Bool) (s : State), s.Inv → s.ready id o = true →
    f (s.job id) = .inl det → det = 0x81 ∨ (∃ u, Served s id u) →
    Completes (c id fault) s fun t => Decided t id stRange det [] ∧ OtherJobs id s t) ∧
  (∀ (id : Nat) (fault : Bool) (s : State), s.Inv → s.ready id o = true → f (s.job id) ≠ .inl 0x81 →
    drbgReady s (s.job id).on false = none →
    Completes (c id fault) s fun t => Decided t id stPoison 0x81 [] ∧ OtherJobs id s t)

/-- ECDH, XDH and EC_POINT_MUL_RAW: the secret or point, the operand that is refused, the fault check, and the
DRBG that cannot be seeded. That such a job ends POISON 0x81 even where the check of its result would give 0x82, and
that an operand refused with 0x81 is refused before any draw, is the model's choice (log entry 12): no rule places the
draw among these checks. -/
def Obligations.Agreements : Prop :=
  Agrees .ecdh .ecdh (fun j => ecdhOf (dAlg j.desc) j.keyMat j.got) ∧
  Agrees .xdh .xdh (fun j => xdhOf (dAlg j.desc) j.keyMat j.got) ∧
  Agrees .ecPointMulRaw .ecPointMulRaw (fun j => pointMul (dAlg j.desc) (dVariant j.desc == 1) j.got)

/-- The run that the job reserved can still become its new key (R233). -/
def Sys2Proof.RunHeld (s : State) (id h : Nat) : Prop :=
  (s.job id).reserved.head? = some h ∧ s.ks.zeroising = none ∧ (s.slot h).state = .reserved ∧
  parentOk s (s.slot h).parent = true

/-- The reserved run is the new key, and the job wrote `out`. -/
def Sys2Proof.NewKey (s t : State) (id h : Nat) (mat out : Bytes) : Prop :=
  Decided t id stOk 0 out ∧ (t.job id).reserved = [] ∧
  (t.slot h).state = .valid ∧ (t.slot h).mat = mat ∧ (t.slot h).gen = (s.slot h).gen ∧
  (∀ p, p ∉ (s.job id).reserved → t.slot p = s.slot p)

/-- ML-KEM and ML-DSA: a new key's slot holds the drawn seed and its public key is written, or the job fails
where its run is gone; encapsulation, decapsulation, signing and verification. One generate request for each named
value (log entry 60), and OP_INFO 0 of a signature that reaches the limit of iterations (log entry 86), are the model's
choices. -/
def Obligations.LatticeJobs : Prop :=
  (∀ (id h : Nat) (u s : State), s.Inv → s.ready id .mlkemKeygen = true → Served s id u → RunHeld s id h →
    Completes (.mlkemKeygen id) s fun t =>
      NewKey s t id h (Generated s u id [32, 32])
        (kemKeys (dAlg (s.job id).desc) ((Generated s u id [32, 32]).take 32)).1 ∧
      OtherJobs id s t) ∧
  (∀ (id h : Nat) (u s : State), s.Inv → s.ready id .mldsaKeygen = true → Served s id u → RunHeld s id h →
    Completes (.mldsaKeygen id) s fun t =>
      NewKey s t id h (Generated s u id [32]) (dsaKeys (dAlg (s.job id).desc) (Generated s u id [32])).pk ∧
      OtherJobs id s t) ∧
  (∀ (id h : Nat) (u s : State), s.Inv → s.ready id .mlkemKeygen = true → Served s id u →
    (s.job id).reserved.head? = some h → s.ks.zeroising ≠ none ∨ (s.slot h).state ≠ .reserved →
    Completes (.mlkemKeygen id) s fun t => Decided t id stOrphaned 0x02 [] ∧ OtherJobs id s t) ∧
  (∀ (id h : Nat) (u s : State), s.Inv → s.ready id .mldsaKeygen = true → Served s id u →
    (s.job id).reserved.head? = some h → s.ks.zeroising ≠ none ∨ (s.slot h).state ≠ .reserved →
    Completes (.mldsaKeygen id) s fun t => Decided t id stOrphaned 0x02 [] ∧ OtherJobs id s t) ∧
  (∀ (id : Nat) (u s : State), s.Inv → s.ready id .mlkemEncap = true → Served s id u →
    kemEkOk (dAlg (s.job id).desc) (s.job id).got = true →
    Completes (.mlkemEncap id) s fun t =>
      Decided t id stOk 0 ((kemEncaps (dAlg (s.job id).desc) (s.job id).got (Generated s u id [32])).1 ++
        (kemEncaps (dAlg (s.job id).desc) (s.job id).got (Generated s u id [32])).2) ∧ OtherJobs id s t) ∧
  (∀ (id : Nat) (s : State), s.Inv → s.ready id .mlkemEncap = true →
    kemEkOk (dAlg (s.job id).desc) (s.job id).got = false →
    Completes (.mlkemEncap id) s fun t => Decided t id stRange 0x81 [] ∧ OtherJobs id s t) ∧
  (∀ (id : Nat) (u s : State), s.Inv → s.ready id .mlkemDecap = true → Served s id u →
    Completes (.mlkemDecap id) s fun t =>
      Decided t id stOk 0 (kemDecaps (dAlg (s.job id).desc) (s.job id).keyMat (s.job id).got) ∧
      OtherJobs id s t) ∧
  (∀ (id : Nat) (mu rnd : Bytes) (u s : State), s.Inv → s.ready id .mldsaSign = true → Served s id u →
    mu = (if 2 ≤ dVariant (s.job id).desc then (s.job id).got
      else dsaMu (dsaKeys (dAlg (s.job id).desc) (s.job id).keyMat).tr (s.job id).got) →
    rnd = (if dVariant (s.job id).desc % 2 = 0 then Drawn s u id 32 else zeros 32) →
    Completes (.mldsaSign id) s fun t =>
      (match dsaSign (dAlg (s.job id).desc) (dsaKeys (dAlg (s.job id).desc) (s.job id).keyMat) mu rnd with
        | some (sig, i) => Decided t id stOk 0 sig ∧ (t.job id).opInfo = i
        | none => Decided t id stRange 0x85 [] ∧ (t.job id).opInfo = 0) ∧ OtherJobs id s t) ∧
  (∀ (id : Nat) (pk sig m mu : Bytes) (s : State), s.Inv → s.ready id .mldsaVerify = true →
    (s.job id).got = pk ++ sig ++ m → pk.length = pubLen (dAlg (s.job id).desc) →
    sig.length = sigLen (dAlg (s.job id).desc) →
    mu = (if dVariant (s.job id).desc = 2 then m else dsaMu (shake256 pk 64) m) →
    Completes (.mldsaVerify id) s fun t =>
      Decided t id (if dsaOk (dAlg (s.job id).desc) pk sig mu = true then stOk else stSigInvalid) 0 [] ∧
      OtherJobs id s t)

/-! ## Key management (chapters 07 and 08) -/

/-- The length that the key block's type has (R222). -/
def Sys2Proof.NewLen (j : Job) : Nat := (keyLen (kbType j.desc)).getD 0

/-- KEY_WRAP writes a Hive blob, an AES-KW or an AES-KWP wrapping; KEY_UNWRAP judges the wrapping, then its
content, then makes the key; KEY_CHECK_VALUE writes the CMAC of a zero block, of both halves of an XTS key. -/
def Obligations.KeyTransport : Prop :=
  (∀ (id : Nat) (s : State), s.Inv → served s id .keyWrap = true →
    Completes (.keyWrap id) s fun t =>
      Decided t id stOk 0
        (if dSub (s.job id).desc = 0 then
          kwpWrap (s.job id).keyMat ([0x01, 0x00] ++
            natLe 2 (s.slot (((s.job id).refs[1]?).getD 0)).ktype ++ natLe 2 (s.job id).wrapMat.length ++
            zeros 2 ++ bvLe 8 (s.slot (((s.job id).refs[1]?).getD 0)).policy ++ (s.job id).wrapMat)
        else if dSub (s.job id).desc = 1 then kwWrap (s.job id).keyMat (s.job id).wrapMat
        else kwpWrap (s.job id).keyMat (s.job id).wrapMat) ∧
      t.slots = s.slots ∧ OtherJobs id s t) ∧
  (∀ (id h : Nat) (s : State), s.Inv → served s id .keyUnwrap = true → RunHeld s id h →
    Completes (.keyUnwrap id) s fun t =>
      (match unwrapPlain (dSub (s.job id).desc) (s.job id).keyMat (s.job id).got with
        | none => Decided t id stAuthFail 0 [] ∧ t.slots = s.slots
        | some p =>
          match unwrapped (dSub (s.job id).desc) (kbType (s.job id).desc) (kbPolicy (s.job id).desc) p with
          | none => Decided t id stPolicy 0x0B [] ∧ t.slots = s.slots
          | some m => NewKey s t id h m []) ∧ OtherJobs id s t) ∧
  (∀ (id : Nat) (s : State), s.Inv → served s id .keyCheckValue = true →
    Completes (.keyCheckValue id) s fun t =>
      Decided t id stOk 0
        (if (s.slot (s.job id).keyPos).ktype = 4 ∨ (s.slot (s.job id).keyPos).ktype = 5 then
          cmac ((s.job id).keyMat.take ((s.job id).keyMat.length / 2)) (zeros 16) ++
            cmac ((s.job id).keyMat.drop ((s.job id).keyMat.length / 2)) (zeros 16)
        else cmac (s.job id).keyMat (zeros 16)) ∧ OtherJobs id s t)

/-- KEY_INVALIDATE: the slot is INVALID and its generation moves, or the first check that fails ends the job; at index
0 the session parent moves, and the session and context keys are derived afresh from the tenant root; while R237
holds the advance back, nothing happens. KEY_ATTEST writes the statement of the slot and the device's signature over
"QHV1 KEY_ATTEST", a zero byte and the statement; before it reads NEXT of a NONCE_HW slot, every comb retires its block
of that slot. -/
def Obligations.KeyInvalidation : Prop :=
  (∀ (id : Nat) (st : Status) (det : BitVec 8) (s : State), s.Inv → s.hv.kclk = true →
    s.ready id .keyInvalidate = true →
    invalidateIssue s (s.job id).client (dKeySlot (s.job id).desc) = some (st, det) →
    Completes (.keyInvalidate id) s fun t =>
      Decided t id st det [] ∧ (t.job id).noComb = true ∧ t.slots = s.slots ∧ OtherJobs id s t) ∧
  (∀ (id p : Nat) (s : State), s.Inv → s.hv.kclk = true → s.ready id .keyInvalidate = true →
    invalidateIssue s (s.job id).client (dKeySlot (s.job id).desc) = none →
    dKeySlot (s.job id).desc ≠ 0 → s.slotPos (s.job id).client (dKeySlot (s.job id).desc) = some p →
    s.held237 p = false →
    Completes (.keyInvalidate id) s fun t =>
      Decided t id stOk 0 [] ∧ (t.job id).noComb = true ∧
      (t.slot p).state = .invalid ∧ (t.slot p).gen = (s.slot p).gen + 1 ∧ (t.slot p).bad = 0 ∧
      (t.slot p).refs = (s.slot p).refs ∧ (∀ k, k ≠ p → t.slot k = s.slot k) ∧ OtherJobs id s t) ∧
  (∀ (id c : Nat) (hrk : Bytes) (s : State), s.Inv → s.hv.kclk = true → s.ready id .keyInvalidate = true →
    (s.job id).client = c → dKeySlot (s.job id).desc = 0 → invalidateIssue s c 0 = none →
    s.slotPos c 0 = some (spPos c) → s.held237 (spPos c) = false → s.ks.hrk = some hrk →
    Completes (.keyInvalidate id) s fun t =>
      Decided t id stOk 0 [] ∧ (t.job id).noComb = true ∧ t.gen (spPos c) = s.gen (spPos c) + 1 ∧
      (t.slot (spPos c)).state = .valid ∧ (t.slot (ckPos c)).state = .valid ∧
      (t.slot (spPos c)).mat =
        kdf (s.slot (trPos c)).mat (ascii "QHV1 SESSION") (bvBe 2 (s.gen (spPos c) + 1)) 32 ∧
      (t.slot (ckPos c)).mat =
        kdf (s.slot (trPos c)).mat (ascii "QHV1 CTXKEY") (bvBe 2 (s.gen (spPos c) + 1)) 32 ∧
      (t.slot (spPos c)).refs = (s.slot (spPos c)).refs ∧ (t.slot (ckPos c)).refs = (s.slot (ckPos c)).refs ∧
      (∀ k, k ≠ spPos c → k ≠ ckPos c → t.slot k = s.slot k) ∧ OtherJobs id s t) ∧
  (∀ (id p : Nat) (s : State), s.Inv → s.ready id .keyInvalidate = true →
    invalidateIssue s (s.job id).client (dKeySlot (s.job id).desc) = none →
    s.slotPos (s.job id).client (dKeySlot (s.job id).desc) = some p → s.held237 p = true →
    Completes (.keyInvalidate id) s fun t => t.slots = s.slots ∧ t.jobs = s.jobs) ∧
  (∀ (id : Nat) (st : Bytes) (s : State), s.Inv → served s id .keyAttest = true →
    st = statement (if (s.slot (s.job id).keyPos).pol 13 = true then retireSlot s (s.job id).keyPos else s) (s.job id)
      (s.job id).keyPos →
    Completes (.keyAttest id) s fun t =>
      Decided t id stOk 0 (st ++ edSign 0x11 false (s.ks.devSeed.getD [])
        (ascii "QHV1 KEY_ATTEST" ++ [0] ++ st)) ∧
      ((s.slot (s.job id).keyPos).pol 13 = true →
        ∀ c b, b ∈ (t.comb c).nonces → b.pos ≠ (s.job id).keyPos) ∧
      t.slots = s.slots ∧ OtherJobs id s t)

/-- KEY_GENERATE: material drawn from the comb's DRBG; for a curve the public key is the output. KEY_DERIVE: the
KDF over label, type, policy, client and the job's context. KEY_AGREE_TO_SLOT: the secret becomes the new key
and nothing is written; on curves a peer that fails its check is refused, and a failed fault check leaves
POISON. The material of KEY_GENERATE as one generate request is the model's choice (log entry 60). -/
def Obligations.KeyCreation : Prop :=
  (∀ (id h : Nat) (u s : State), s.Inv → s.ready id .keyGenerate = true → Served s id u → RunHeld s id h →
    ktCurve (kbType (s.job id).desc) = false →
    Completes (.keyGenerate id) s fun t =>
      NewKey s t id h (Generated s u id [NewLen (s.job id)]) [] ∧ OtherJobs id s t) ∧
  (∀ (id h : Nat) (r : Bytes) (u s : State), s.Inv → s.ready id .keyGenerate = true → Served s id u →
    RunHeld s id h → ktCurve (kbType (s.job id).desc) = true →
    r = Generated s u id [if kbType (s.job id).desc % 256 < 0x10 then NewLen (s.job id) + 8
      else NewLen (s.job id)] →
    Completes (.keyGenerate id) s fun t =>
      NewKey s t id h (curveKey (kbType (s.job id).desc) r).1 (curveKey (kbType (s.job id).desc) r).2 ∧
      OtherJobs id s t) ∧
  (∀ (id h : Nat) (s : State), s.Inv → served s id .keyDerive = true → RunHeld s id h →
    Completes (.keyDerive id) s fun t =>
      NewKey s t id h
        ((if dSub (s.job id).desc = 1 then kdfHash else kdf) (s.job id).keyMat (kbLabel (s.job id).desc)
          (natBe 2 (kbType (s.job id).desc) ++ natBe 8 (kbPolicy (s.job id).desc) ++
            natBe 2 (s.job id).client ++ (s.job id).got) (NewLen (s.job id))) [] ∧
      (t.ks.ppOps = s.ks.ppOps + if (s.job id).acct = .propolis then 1 else 0) ∧ OtherJobs id s t) ∧
  (∀ (id h : Nat) (fault : Bool) (u s : State), s.Inv → s.ready id .keyAgreeToSlot = true → Served s id u →
    RunHeld s id h → 0x41 ≤ dAlg (s.job id).desc →
    Completes (.keyAgreeToSlot id fault) s fun t =>
      NewKey s t id h (kemDecaps (dAlg (s.job id).desc) (s.job id).keyMat (s.job id).got) [] ∧
      OtherJobs id s t) ∧
  (∀ (id h : Nat) (r : BitVec 8 ⊕ Bytes) (u s : State), s.Inv → s.ready id .keyAgreeToSlot = true →
    Served s id u → RunHeld s id h → dAlg (s.job id).desc < 0x41 →
    r = (if dAlg (s.job id).desc < 0x10
      then ecdhOf (dAlg (s.job id).desc) (s.job id).keyMat (s.job id).got
      else xdhOf (dAlg (s.job id).desc) (s.job id).keyMat (s.job id).got) →
    Completes (.keyAgreeToSlot id false) s fun t =>
      (match r with
        | .inl det => Decided t id stRange det [] ∧ t.slots = s.slots
        | .inr z => NewKey s t id h z []) ∧ OtherJobs id s t) ∧
  (∀ (id : Nat) (z : Bytes) (u s : State), s.Inv → s.ready id .keyAgreeToSlot = true → Served s id u →
    dAlg (s.job id).desc < 0x41 →
    (if dAlg (s.job id).desc < 0x10
      then ecdhOf (dAlg (s.job id).desc) (s.job id).keyMat (s.job id).got
      else xdhOf (dAlg (s.job id).desc) (s.job id).keyMat (s.job id).got) = .inr z →
    Completes (.keyAgreeToSlot id true) s fun t =>
      FaultFound s t id ∧ t.slots = s.slots ∧ OtherJobs id s t)

/-- CTX_EXPORT writes the clear or the wrapped blob of the context; CTX_IMPORT judges its blob and keeps it for
the context; without a valid context key a wrapped one fails, KEY_ORPHANED 0x03 by the model's choice (log entry 26).
While the zeroisation of a substitution runs a wrapped one fails KEY_ORPHANED 0x03, and while another zeroisation keeps
the lane closed it waits. -/
def Obligations.ContextBlobs : Prop :=
  (∀ (id : Nat) (k : Ctx) (s : State), s.Inv → served s id .ctxExport = true → k = CtxOf s (s.job id) →
    ctxKind k.opcode = 0 → (s.job id).clear = true →
    Completes (.ctxExport id) s fun t =>
      Decided t id stOk 0 ([0x01, 0x00] ++ natLe 2 k.opcode ++ [BitVec.ofNat 8 k.alg, 0] ++
        natLe 2 (s.job id).client ++ zeros 8 ++ fit k.chain 216 ++ natLe 8 k.done ++ zeros 32) ∧
      t.ctxs = s.ctxs ∧ OtherJobs id s t) ∧
  (∀ (id : Nat) (ck : Bytes) (s : State), s.Inv → served s id .ctxExport = true →
    ctxKind (CtxOf s (s.job id)).opcode ≠ 0 ∨ (s.job id).clear = false → laneShut s = false →
    ctxKeyOf s (s.job id).client = some ck →
    Completes (.ctxExport id) s fun t =>
      Decided t id stOk 0 (kwpWrap ck (exportBlob (s.job id).client (CtxOf s (s.job id)))) ∧
      t.ctxs = s.ctxs ∧ OtherJobs id s t) ∧
  (∀ (id : Nat) (s : State), s.Inv → served s id .ctxExport = true →
    ctxKind (CtxOf s (s.job id)).opcode ≠ 0 ∨ (s.job id).clear = false → laneShut s = false →
    ctxKeyOf s (s.job id).client = none →
    Completes (.ctxExport id) s fun t => Decided t id stOrphaned 0x03 [] ∧ OtherJobs id s t) ∧
  (∀ (id : Nat) (s : State), s.Inv → served s id .ctxExport = true →
    ctxKind (CtxOf s (s.job id)).opcode ≠ 0 ∨ (s.job id).clear = false → laneShut s = true →
    Completes (.ctxExport id) s fun t =>
      if s.ks.zeroising = some .substitution
        then Decided t id stOrphaned 0x03 [] ∧ t.ctxs = s.ctxs ∧ OtherJobs id s t else t = s) ∧
  (∀ (id : Nat) (s : State), s.Inv → served s id .ctxImport = true → dMsg (s.job id).desc = 272 →
    Completes (.ctxImport id) s fun t =>
      (match importIssue s (s.job id) (s.job id).got true with
        | some (st, det) => Decided t id st det []
        | none => Decided t id stOk 0 [] ∧ (t.job id).wrapMat = (s.job id).got) ∧
      t.ctxs = s.ctxs ∧ OtherJobs id s t) ∧
  (∀ (id : Nat) (ck : Bytes) (s : State), s.Inv → served s id .ctxImport = true →
    dMsg (s.job id).desc ≠ 272 → laneShut s = false → ctxKeyOf s (s.job id).client = some ck →
    Completes (.ctxImport id) s fun t =>
      (match kwpUnwrap ck (s.job id).got with
        | none => Decided t id stAuthFail 0 []
        | some b =>
          match importIssue s (s.job id) b false with
          | some (st, det) => Decided t id st det []
          | none => Decided t id stOk 0 [] ∧ (t.job id).wrapMat = b) ∧
      t.ctxs = s.ctxs ∧ OtherJobs id s t) ∧
  (∀ (id : Nat) (s : State), s.Inv → served s id .ctxImport = true → dMsg (s.job id).desc ≠ 272 →
    laneShut s = false → ctxKeyOf s (s.job id).client = none →
    Completes (.ctxImport id) s fun t =>
      Decided t id stOrphaned 0x03 [] ∧ t.ctxs = s.ctxs ∧ OtherJobs id s t) ∧
  (∀ (id : Nat) (s : State), s.Inv → served s id .ctxImport = true → dMsg (s.job id).desc ≠ 272 →
    laneShut s = true →
    Completes (.ctxImport id) s fun t =>
      if s.ks.zeroising = some .substitution
        then Decided t id stOrphaned 0x03 [] ∧ t.ctxs = s.ctxs ∧ OtherJobs id s t else t = s)

/-! ## The key store's own work (chapter 08) -/

/-- The Hive is awake and past step 10 of start-up. -/
def Sys2Proof.Up (s : State) : Prop := s.hv.pwr = 0 ∧ s.hv.ready = true

/-- The scrubber: a pass starts when its period is over and lets go of the advances that R237 held; a visit
orphans a VALID slot whose chain is broken, gives an INVALID or ORPHAN slot without references back with its
GEN one higher, and leaves an intact key alone; the last visit ends the pass and raises source 265. -/
def Obligations.KeyScrubbing : Prop :=
  (∀ s : State, s.Inv → s.hv.kclk = true → s.ks.scrubbing = false →
    s.ks.scrubAt + s.ks.periodMs * 1200000 ≤ s.hv.tick →
    Completes .scrubPassStart s fun t =>
      t.ks.scrubbing = true ∧ t.ks.scrubPos = 0 ∧ t.ks.scrubAt = s.hv.tick ∧ t.ks.genAdv = 0 ∧
      ∀ p, t.slot p = { s.slot p with adv := 0 }) ∧
  (∀ s : State, s.Inv → s.hv.kclk = true → s.ks.scrubbing = true →
    (s.slot s.ks.scrubPos).state = .valid → chainOk s s.ks.scrubPos = true → s.ks.scrubPos + 1 < 524288 →
    Completes .scrubSlotVisit s fun t => t.ks.scrubPos = s.ks.scrubPos + 1 ∧ t.slots = s.slots) ∧
  (∀ s : State, s.Inv → s.hv.kclk = true → s.ks.scrubbing = true →
    (s.slot s.ks.scrubPos).state = .valid → chainOk s s.ks.scrubPos = false →
    (s.slot s.ks.scrubPos).refs ≠ 0 → s.ks.scrubPos + 1 < 524288 →
    Completes .scrubSlotVisit s fun t =>
      t.slot s.ks.scrubPos = { s.slot s.ks.scrubPos with state := .orphan } ∧
      t.ks.scrubPos = s.ks.scrubPos + 1 ∧ t.ks.reclaimed = s.ks.reclaimed ∧
      ∀ p, p ≠ s.ks.scrubPos → t.slot p = s.slot p) ∧
  (∀ s : State, s.Inv → s.hv.kclk = true → s.ks.scrubbing = true →
    (s.slot s.ks.scrubPos).state = .invalid ∨ (s.slot s.ks.scrubPos).state = .orphan →
    (s.slot s.ks.scrubPos).refs = 0 → runFrom s s.ks.scrubPos = [s.ks.scrubPos] →
    s.ks.scrubPos + 1 < 524288 →
    Completes .scrubSlotVisit s fun t =>
      (t.slot s.ks.scrubPos).state = .empty ∧ (t.slot s.ks.scrubPos).mat = [] ∧
      t.gen s.ks.scrubPos = s.gen s.ks.scrubPos + 1 ∧ t.ks.scrubPos = s.ks.scrubPos + 1 ∧
      t.ks.reclaimed = satAdd 0xFFFFFFFF s.ks.reclaimed 1 ∧
      ∀ p, p ≠ s.ks.scrubPos → t.slot p = s.slot p) ∧
  (∀ s : State, s.Inv → s.hv.kclk = true → s.ks.scrubbing = true → s.ks.scrubPos = 524287 →
    Completes .scrubSlotVisit s fun t =>
      t.ks.scrubbing = false ∧ t.ks.scrubPos = 0 ∧ t.ks.genAdv = 0 ∧ t.ev.pend.getLsbD 265 = true)

/-- A zeroisation: steps 1 to 4 clear the scramble key, the ladder, the propolis engine's generator and the combs' nonce
tables; step 5 clears every payload and makes every tag EMPTY with its GEN one higher, and sticky bit 89 sets; after a
zeroisation by command the ladder is derived anew from the active root, unless start-up found the production root
uncorrectable, and no tenant waits for its records any longer. That steps 1 to 4 act with the command, that triggers
merge, and that the later steps come with step 5's row is the model's choice (log entry 29). -/
def Obligations.Zeroisation : Prop :=
  (∀ s : State, Running s → Up s →
    Completes .ksZeroiseStart s fun t =>
      (∃ tr, t.ks.zeroising = some tr ∧ (s.ks.zeroising = none → tr = .command)) ∧
      t.ks.hrk = none ∧ t.ks.psk = none ∧ t.ks.devSeed = none ∧ t.ks.scramble = none ∧
      t.ks.ppDrbg = none ∧ (∀ c, (t.comb c).nonces = []) ∧
      t.queues = s.queues ∧ t.otp = s.otp) ∧
  (∀ (tr : ZTrigger) (s : State), s.Inv → s.ks.zeroising = some tr → s.hv.kclk = true →
    s.ks.zPend = false → tr = .tamper ∨ tr = .lifecycle →
    Completes .zeroisationStep5Done s fun t =>
      t.ks.zeroising = none ∧ t.ks.zErase = false ∧ t.ks.restoreDue = [] ∧ t.aon.sticky.getLsbD 89 = true ∧
      (∀ p, (t.slot p).state = .empty ∧ (t.slot p).mat = [] ∧ t.gen p = s.gen p + 1) ∧
      t.jobs = s.jobs ∧ t.queues = s.queues) ∧
  (∀ (b : Bytes) (test : Bool) (s : State), s.Inv → s.ks.zeroising = some .command → s.hv.kclk = true →
    s.ks.zPend = false → s.aon.tampered = false → (∀ c ∈ s.clients, isClient c = true) → activeRoot s = .secret b test →
    s.ks.rootFail = false ∨ test = true →
    Completes .zeroisationStep5Done s fun t =>
      t.ks.zeroising = none ∧ t.ks.restoreDue = [] ∧ t.aon.sticky.getLsbD 89 = true ∧ t.ks.testRoot = test ∧
      t.ks.hrk = some (kdf b (ascii "QHV1 HRK") [if test then 2 else 1] 32) ∧
      (s.ks.restoreDue = [] → ∀ p, 12480 ≤ p →
        (t.slot p).state = .empty ∧ (t.slot p).mat = [] ∧ t.gen p = s.gen p + 1)) ∧
  (∀ (b : Bytes) (s : State), s.Inv → s.ks.zeroising = some .command → s.hv.kclk = true →
    s.ks.zPend = false → s.aon.tampered = false → activeRoot s = .secret b false → s.ks.rootFail = true →
    Completes .zeroisationStep5Done s fun t =>
      t.ks.zeroising = none ∧ t.ks.rootFail = true ∧ t.ks.hrk = s.ks.hrk)

/-- The operation waits to write its public key, `b` at `p.addr`, and has written none of it. -/
def Sys2Proof.PublicWaits (p : ProvCfg) (b : Bytes) (s : State) : Prop :=
  Running s ∧ s.ks.provRun = some p ∧ p.op ≠ 2 ∧ s.ks.provOut = b ∧ b ≠ [] ∧ s.ks.provAt = 0

/-- The GENERATE of KS_PROV passes its checks, and comb `c` serves it, in the state `u`. -/
def Sys2Proof.GenerateServed (p : ProvCfg) (c : Nat) (u s : State) : Prop :=
  Running s ∧ s.ks.provRun = some p ∧ p.op = 0 ∧ s.ks.provOut = [] ∧ laneShut s = false ∧
  isClient p.client = true ∧ provIssue s p = none ∧ parentOk s (trPos p.client) = true ∧
  bestComb s 0 ((List.range combCount).filter fun c => (s.comb c).mode == 1) = some c ∧
  drbgReady s c false = some u

/-- The UNWRAP of KS_PROV passes its checks, and its read is issued. -/
def Sys2Proof.UnwrapReads (p : ProvCfg) (s : State) : Prop :=
  Running s ∧ s.ks.provRun = some p ∧ p.op = 1 ∧ s.ks.provOut = [] ∧ laneShut s = false ∧ 40 ≤ p.len ∧ p.len ≤ 2592 ∧
  allowed s 0 p.addr.toNat p.len false = true ∧ (keeperRead s 0 p.addr.toNat p.len .ok).1 = .issued ∧
  provWrapIssue s p.wrap = none ∧ provIssue s p = none

/-- The operation has ended with this status. -/
def Sys2Proof.ProvEnds (st : Status) (det : BitVec 8) (t : State) : Prop :=
  t.ks.provRun = none ∧ t.ks.provStatus = st ∧ t.ks.provDetail = det ∧ t.ks.provOut = [] ∧
  t.ev.pend.getLsbD 257 = true

/-- KS_PROV operations: a commit makes the operation run; in TAMPERED state it ends at once; OP 3 is refused, with a
status that the rules leave open (log entry 75). INVALIDATE, GENERATE and UNWRAP then act on the slot and end with their
status; while the zeroisation of a substitution runs GENERATE and UNWRAP fail KEY_ORPHANED 0x03, and while another keeps
the lane closed they wait; the public key of a curve's key is written to ADDR, and waits where a write would; a PERSIST
key leaves its record in MRAM. The material of GENERATE is one generate request (the model's choice: log entry 60), and
PP_OPS counts the unwrapping (log entry 56). The entropy source fails its health tests: sticky bit 75 sets and its
source is raised; every DRBG keeps its state, and is judged when it next has to be seeded. -/
def Obligations.KeyProvisioning : Prop :=
  (∀ s : State, Running s → Up s → s.ks.provRun = none → s.ks.prov.op = 0 → s.aon.tampered = false →
    Completes .ksProvGenerate s fun t => t.ks.provRun = some s.ks.prov ∧ t.slots = s.slots) ∧
  (∀ s : State, Running s → Up s → s.ks.provRun = none → s.ks.prov.op = 1 → s.aon.tampered = false →
    Completes .ksProvUnwrap s fun t => t.ks.provRun = some s.ks.prov ∧ t.slots = s.slots) ∧
  (∀ s : State, Running s → Up s → s.ks.provRun = none → s.ks.prov.op = 2 → s.aon.tampered = false →
    Completes .ksProvInvalidate s fun t => t.ks.provRun = some s.ks.prov ∧ t.slots = s.slots) ∧
  (∀ s : State, Running s → Up s → s.ks.provRun = none → s.ks.prov.op = 2 → s.aon.tampered = true →
    Completes .ksProvInvalidate s fun t =>
      t.ks.provRun = none ∧ t.ks.provStatus = stTamper ∧ t.ks.provDetail = 0 ∧
      t.ev.pend.getLsbD 257 = true ∧ t.slots = s.slots) ∧
  (∀ s : State, Running s → Up s → s.ks.provRun = none → s.ks.prov.op = 3 → s.aon.tampered = false →
    Completes .ksProvOp3 s fun t =>
      t = { wake s 1 with
        ks := { s.ks with provStatus := Config.provRefusal.1, provDetail := Config.provRefusal.2 } }) ∧
  (∀ s : State, Running s → Up s → s.ks.provRun = none → s.ks.prov.op = 3 → s.aon.tampered = true →
    Completes .ksProvOp3 s fun t => ProvEnds stTamper 0 t ∧ t.slots = s.slots) ∧
  (∀ s : State, Running s → Up s → s.ks.provRun ≠ none ∨ s.ks.prov.op ≠ 3 →
    Completes .ksProvOp3 s fun t => t = wake s 1) ∧
  (∀ (p : ProvCfg) (read : ReadEnd) (blob : Bytes) (s : State), Running s → s.ks.provRun = some p → p.op ≠ 2 →
    s.ks.provOut = [] → laneShut s = true →
    Completes (.provDone read blob) s fun t =>
      if s.ks.zeroising = some .substitution then ProvEnds stOrphaned 0x03 t ∧ t.slots = s.slots else t = s) ∧
  (∀ (p : ProvCfg) (st : Status) (d : BitVec 8) (read : ReadEnd) (blob : Bytes) (s : State), Running s →
    s.ks.provRun = some p → p.op = 2 → invalidateIssue s p.client p.slot = some (st, d) →
    Completes (.provDone read blob) s fun t => ProvEnds st d t ∧ t.slots = s.slots) ∧
  (∀ (p : ProvCfg) (pos : Nat) (read : ReadEnd) (blob : Bytes) (s : State), Running s →
    s.ks.provRun = some p → p.op = 2 → p.slot ≠ 0 → invalidateIssue s p.client p.slot = none →
    s.slotPos p.client p.slot = some pos → s.held237 pos = false →
    Completes (.provDone read blob) s fun t =>
      ProvEnds stOk 0 t ∧ (t.slot pos).state = .invalid ∧
      t.gen pos = s.gen pos + 1 ∧ ∀ k, k ≠ pos → t.slot k = s.slot k) ∧
  (∀ (p : ProvCfg) (c h : Nat) (rest : List Nat) (u s : State) (read : ReadEnd) (blob : Bytes),
    GenerateServed p c u s → ktCurve p.ktype = false → bit p.policy.toNat 14 = false →
    runSlots s p.client p.slot (runOf p.ktype) = some (h :: rest) →
    Completes (.provDone read blob) s fun t =>
      ProvEnds stOk 0 t ∧ (t.slot h).state = .valid ∧
      (t.slot h).mat = (drbgGenerate u c ((keyLen p.ktype).getD 0)).1 ∧ (t.slot h).ktype = p.ktype ∧
      (t.slot h).policy = p.policy ∧ (t.slot h).owner = p.client ∧
      ∀ k, k ∉ h :: rest → t.slot k = s.slot k) ∧
  (∀ (p : ProvCfg) (c h : Nat) (psk : Bytes) (rest : List Nat) (u s : State) (read : ReadEnd) (blob : Bytes),
    GenerateServed p c u s → ktCurve p.ktype = false → bit p.policy.toNat 14 = true → s.ks.psk = some psk →
    mramOn s = true → s.store.mram.length < 65536 →
    runSlots s p.client p.slot (runOf p.ktype) = some (h :: rest) →
    Completes (.provDone read blob) s fun t =>
      ProvEnds stOk 0 t ∧ (t.slot h).state = .valid ∧
      (t.slot h).mat = (drbgGenerate u c ((keyLen p.ktype).getD 0)).1 ∧
      ∃ id, 0x80000000 ≤ id ∧ s.recValue id = none ∧
        t.recValue id = some (keyRecBody psk (t.slot h) p.client (s.tenant p.client).epoch p.slot 0) ∧
        ∀ k, k ≠ id → t.recValue k = s.recValue k) ∧
  (∀ (p : ProvCfg) (c h tgt a x : Nat) (pasid : Option Nat) (key : Bytes × Bytes) (rest : List Nat) (u s : State)
    (read : ReadEnd) (blob : Bytes), GenerateServed p c u s → ktCurve p.ktype = true → bit p.policy.toNat 14 = false →
    runSlots s p.client p.slot (runOf p.ktype) = some (h :: rest) → s.busMaster 0 = true →
    allowed s 0 p.addr.toNat (provPublicLen p.ktype) true = true →
    key = curveKey p.ktype (drbgGenerate u c (if p.ktype % 256 < 0x10 then (keyLen p.ktype).getD 0 + 8
      else (keyLen p.ktype).getD 0)).1 → key.2 ≠ [] → InPage p.addr.toNat key.2.length →
    windowed s 0 p.addr.toNat key.2.length true = some (tgt, a, pasid) → xlated s 0 tgt a pasid true = .to x →
    Completes (.provDone read blob) s fun t =>
      ProvEnds stOk 0 t ∧ (t.slot h).state = .valid ∧ (t.slot h).mat = key.1 ∧ (t.slot h).ktype = p.ktype ∧
      Sends s t (PageWrites s 0 tgt p.addr.toNat x pasid false
        ((s.func 0).roEn && isFn 0 && s.hi.cfg.getLsbD 3) key.2) ∧
      ∀ k, k ∉ h :: rest → t.slot k = s.slot k) ∧
  (∀ (p : ProvCfg) (read : ReadEnd) (blob : Bytes) (s : State), Running s → s.ks.provRun = some p → p.op = 0 →
    s.ks.provOut = [] → laneShut s = false → ktCurve p.ktype = true →
    allowed s 0 p.addr.toNat (provPublicLen p.ktype) true = false →
    Completes (.provDone read blob) s fun t => ProvEnds stDma 0x02 t ∧ t.slots = s.slots) ∧
  (∀ (p : ProvCfg) (b blob : Bytes) (read : ReadEnd) (s : State), PublicWaits p b s → s.busMaster 0 = false →
    Completes (.provDone read blob) s fun t => t = s) ∧
  (∀ (p : ProvCfg) (b blob : Bytes) (read : ReadEnd) (s : State), PublicWaits p b s → s.busMaster 0 = true →
    allowed s 0 p.addr.toNat b.length true = false →
    Completes (.provDone read blob) s fun t => ProvEnds stDma 0x02 t ∧ t.slots = s.slots) ∧
  (∀ (p : ProvCfg) (tgt a : Nat) (pasid : Option Nat) (b blob : Bytes) (read : ReadEnd) (s : State),
    PublicWaits p b s → s.busMaster 0 = true → InPage p.addr.toNat b.length →
    windowed s 0 p.addr.toNat b.length true = some (tgt, a, pasid) → xlated s 0 tgt a pasid true = .denied →
    Completes (.provDone read blob) s fun t => ProvEnds stDma 0x08 t ∧ t.slots = s.slots) ∧
  (∀ (p : ProvCfg) (h : Nat) (m key : Bytes) (rest : List Nat) (blob : Bytes) (s : State), UnwrapReads p s →
    isClient p.client = true → parentOk s (trPos p.client) = true → bit p.policy.toNat 14 = false →
    kwpUnwrap (s.slot ((s.slotPos 0 p.wrap).getD 0)).mat (fit blob p.len) = some m →
    unwrapped 0 p.ktype p.policy.toNat m = some key →
    runSlots s p.client p.slot (runOf p.ktype) = some (h :: rest) →
    Completes (.provDone .ok blob) s fun t =>
      ProvEnds stOk 0 t ∧ t.ks.ppOps = s.ks.ppOps + 1 ∧
      (t.slot h).state = .valid ∧ (t.slot h).mat = key ∧ (t.slot h).exposed = true ∧
      ∀ k, k ∉ h :: rest → t.slot k = s.slot k) ∧
  (∀ (p : ProvCfg) (blob : Bytes) (s : State), UnwrapReads p s →
    Completes (.provDone .error blob) s (fun t => ProvEnds stDma 0x06 t ∧ t.slots = s.slots) ∧
    Completes (.provDone .timeout blob) s (fun t => ProvEnds stDma 0x07 t ∧ t.slots = s.slots) ∧
    Completes (.provDone .poisoned blob) s (fun t => ProvEnds stPoison 0 t ∧ t.slots = s.slots)) ∧
  (∀ s : State, s.Inv →
    Completes .entropySourceHealthFail s fun t =>
      t.ks.entropyFail = true ∧ t.aon.sticky.getLsbD 75 = true ∧ t.ev.pend.getLsbD 331 = true ∧
      t.jobs = s.jobs ∧ ∀ c, (t.comb c).drbg = (s.comb c).drbg)

/-! ## Time and the waggle unit (chapter 09) -/

/-- Fields of an update word: the time in 2⁻¹⁶ ns, SRC, EST_ERR. -/
def Sys2Proof.todTime (w : BitVec 128) : Nat := bits w.toNat 79 0
def Sys2Proof.todSrc (w : BitVec 128) : Nat := bits w.toNat 81 80
def Sys2Proof.todEst (w : BitVec 128) : Nat := bits w.toNat 103 88

/-- The word has reserved bits clear and a source that is valid, and no sync commit waits. -/
def Sys2Proof.WordUsed (s : State) (w : BitVec 128) : Prop :=
  Running s ∧ 9 ≤ s.hv.step ∧ bits w.toNat 87 82 = 0 ∧ bits w.toNat 127 112 = 0 ∧
  1 < todSrc w ∧ s.sync.waiting = none

/-- The offset of a word in ps, toward zero. -/
def Sys2Proof.todPs (s : State) (w : BitVec 128) : Int := Int.tdiv (((todTime w : Int) - (s.sync.h : Int)) * 1000) 65536

/-- An edge on PPS_IN was used on this tick, which ends; `off` is the offset of its stamp (R257). -/
def Sys2Proof.EdgeWaits (s : State) (off : Int) : Prop :=
  Running s ∧ s.pending = [] ∧ ∃ stamp, s.sync.ppsEdge = some stamp ∧ off = ppsOffset (stamp - s.sync.cfg.delayPs)

/-- The Hive time advances with every FCLK tick by its rate and by a forward step that is due. An update word: a
reserved one is counted and changes nothing else; one far ahead steps the Hive time with the next tick; one far
behind freezes it; any other feeds the loop, and the sixteenth good one in a row synchronises. What ends a
synchronised state or a freeze: the loss of the words, an error bound that passes MAX_ERR_NS, the offset worked off;
and what an edge on PPS_IN, or its absence, says: an edge less than half a second after the last used one is not
used; a used one is stamped, and when its tick ends, behind a word of that tick, leaves its offset; while the check is
on, one within its limit is good, and the second in a row outside it is bad. Rounding toward zero, a forward step on top
of the tick's advance, SEQERR for every word that is not used, the count of locked words that a loss resets, an edge
that is used while EN is 0 or before the Hive time starts, and the end of its tick as the moment at which an edge is
judged are the model's choices (log entry 38). -/
def Obligations.HiveTime : Prop :=
  (∀ s : State, Running s → s.pending = [] → 9 ≤ s.hv.step →
    ∃ t, step s = .next t ∧ t.sync.stepDue = 0 ∧
      t.sync.h = s.sync.h + s.sync.stepDue + (s.sync.acc + tickAdvance s.sync) / (3 * 10 ^ 12) ∧
      t.sync.acc = (s.sync.acc + tickAdvance s.sync) % (3 * 10 ^ 12)) ∧
  (∀ (w : BitVec 128) (s : State), Running s → 9 ≤ s.hv.step →
    bits w.toNat 87 82 ≠ 0 ∨ bits w.toNat 127 112 ≠ 0 ∨ todSrc w ≤ 1 →
    Completes (.todWord w) s fun t =>
      t.sync = { s.sync with
        seq := some (BitVec.ofNat 8 (bits w.toNat 111 104)), seqErr := satAdd 65535 s.sync.seqErr 1 } ∧
      t.wg = s.wg) ∧
  (∀ (w : BitVec 128) (s : State), WordUsed s w → s.sync.h + s.sync.cfg.stepNs * 65536 < todTime w →
    Completes (.todWord w) s fun t =>
      t.sync.h = s.sync.h ∧ t.sync.h + t.sync.stepDue = todTime w ∧ t.sync.steps = satAdd 65535 s.sync.steps 1 ∧
      t.sync.frozen = false ∧ t.sync.state = 1 ∧ t.sync.eLast = todPs s w ∧ t.sync.adj = s.sync.adj ∧ t.jobs = s.jobs) ∧
  (∀ (w : BitVec 128) (s : State), WordUsed s w → todTime w + s.sync.cfg.stepNs * 65536 < s.sync.h →
    Completes (.todWord w) s fun t =>
      t.sync.h = s.sync.h ∧ t.sync.frozen = true ∧ t.sync.state = 1 ∧
      t.sync.freezeLeft = ((s.sync.h - todTime w : Nat) : Int) * (3 * 10 ^ 12) ∧
      (s.sync.frozen = false → t.sync.steps = satAdd 65535 s.sync.steps 1)) ∧
  (∀ (w : BitVec 128) (s : State), WordUsed s w → s.sync.frozen = false →
    todTime w ≤ s.sync.h + s.sync.cfg.stepNs * 65536 → s.sync.h ≤ todTime w + s.sync.cfg.stepNs * 65536 →
    s.sync.state = 1 →
    Completes (.todWord w) s fun t =>
      t.sync.h = s.sync.h ∧ t.sync.frozen = false ∧
      t.sync.integ = s.sync.integ + Int.tdiv (todPs s w * 10 ^ 6) (2 ^ s.sync.cfg.ki) ∧
      t.sync.adj = clampAdj (Int.tdiv (todPs s w * 10 ^ 6) (2 ^ s.sync.cfg.kp) + t.sync.integ) ∧
      t.sync.locked =
        (if todSrc w = 3 ∧ (todPs s w).natAbs ≤ s.sync.cfg.lockNs * 1000 then min 16 (s.sync.locked + 1) else 0)) ∧
  (∀ (w : BitVec 128) (s : State), WordUsed s w → s.sync.frozen = false →
    todTime w ≤ s.sync.h + s.sync.cfg.stepNs * 65536 → s.sync.h ≤ todTime w + s.sync.cfg.stepNs * 65536 →
    s.sync.state = 1 → s.sync.locked = 15 → todSrc w = 3 →
    (todPs s w).natAbs ≤ s.sync.cfg.lockNs * 1000 →
    (todPs s w).natAbs + todEst w * 1000 + 2000 ≤ s.sync.cfg.maxErrNs * 1000 → ppsFails s = false →
    Completes (.todWord w) s fun t => t.sync.state = 2 ∧ t.sync.h = s.sync.h ∧ t.ev.pend.getLsbD 261 = true) ∧
  (∀ s : State, Running s → s.sync.frozen = true → s.sync.freezeLeft ≤ 0 →
    Completes .freezeEnd s fun t => t.sync = { s.sync with frozen := false, freezeLeft := 0 }) ∧
  (∀ (t0 : Nat) (s : State), Running s → s.sync.lastAt = some t0 → s.sync.lost = false →
    t0 + 4800 ≤ s.hv.tick → s.sync.state = 2 → boundOk s = true → ppsFails s = false →
    Completes .todLost s fun t =>
      t.sync.lost = true ∧ t.sync.locked = 0 ∧ t.sync.state = 3 ∧ t.sync.adj = clampAdj s.sync.integ ∧
      t.sync.h = s.sync.h ∧ t.aon.sticky.getLsbD 96 = true) ∧
  (∀ (t0 : Nat) (s : State), Running s → s.sync.lastAt = some t0 → s.sync.lost = false →
    t0 + 4800 ≤ s.hv.tick → s.sync.state = 1 →
    Completes .todLost s fun t =>
      t.sync.lost = true ∧ t.sync.locked = 0 ∧ t.sync.state = 4 ∧ t.sync.h = s.sync.h ∧
      t.aon.sticky.getLsbD 96 = true ∧ t.aon.sticky.getLsbD 97 = true) ∧
  (∀ s : State, Running s → s.sync.state = 2 ∨ s.sync.state = 3 → boundOk s = false →
    Completes .errorBoundExceeded s fun t =>
      t.sync = { s.sync with state := 4 } ∧ t.aon.sticky.getLsbD 97 = true ∧ t.ev.pend.getLsbD 261 = true ∧
      t.wg.syncAll = false) ∧
  (∀ (sub t0 : Nat) (s : State), Running s → s.sync.ppsUsed = some t0 → s.hv.tick < t0 + 600000000 →
    Completes (.ppsEdge sub) s fun t => t = s) ∧
  (∀ (sub : Nat) (s : State), Running s →
    (∀ t0, s.sync.ppsUsed = some t0 → t0 + 600000000 ≤ s.hv.tick) →
    Completes (.ppsEdge sub) s fun t =>
      t = { s with sync := { s.sync with
        ppsUsed := some s.hv.tick, ppsEdge := some (s.sync.h * 1000 / 65536 + sub % 4 * 625 / 3) } }) ∧
  (∀ (off : Int) (s : State), EdgeWaits s off → s.sync.cfg.ppsEn = false →
    ∃ t, step s = .next t ∧ t.sync.ppsOff = some off ∧ t.sync.ppsEdge = none ∧
      t.sync.ppsState = s.sync.ppsState ∧ t.sync.state = s.sync.state) ∧
  (∀ (off : Int) (s : State), EdgeWaits s off → s.sync.cfg.ppsEn = true →
    off.natAbs ≤ s.sync.cfg.limitNs * 1000 →
    ∃ t, step s = .next t ∧ t.sync.ppsOff = some off ∧ t.sync.ppsEdge = none ∧ t.sync.ppsAt = some s.hv.tick ∧
      t.sync.ppsBad = false ∧ t.sync.ppsState = 1) ∧
  (∀ (off : Int) (s : State), EdgeWaits s off → s.sync.cfg.ppsEn = true →
    s.sync.cfg.limitNs * 1000 < off.natAbs → s.sync.ppsAt = none ∨ s.sync.ppsBad = false →
    ∃ t, step s = .next t ∧ t.sync.ppsOff = some off ∧ t.sync.ppsEdge = none ∧ t.sync.ppsAt = some s.hv.tick ∧
      t.sync.ppsBad = true ∧ t.sync.ppsState = s.sync.ppsState) ∧
  (∀ (t0 : Nat) (off : Int) (s : State), EdgeWaits s off → s.sync.cfg.ppsEn = true →
    s.sync.cfg.limitNs * 1000 < off.natAbs → s.sync.ppsAt = some t0 → s.sync.ppsBad = true →
    ∃ t, step s = .next t ∧ t.sync.ppsOff = some off ∧ t.sync.ppsEdge = none ∧ t.sync.ppsState = 2 ∧
      ((s.sync.state = 2 ∨ s.sync.state = 3) → t.sync.state = 4)) ∧
  (∀ (t0 : Nat) (s : State), Running s → s.sync.ppsAt = some t0 → s.sync.ppsEdge = none →
    s.sync.cfg.ppsEn = true → t0 + 1800000000 ≤ s.hv.tick →
    Completes .ppsTimeout s fun t =>
      t.sync.ppsAt = none ∧ t.sync.ppsState = 3 ∧ t.sync.h = s.sync.h ∧
      ((s.sync.state = 2 ∨ s.sync.state = 3) → s.sync.cfg.require = true → t.sync.state = 4))

/-- The record that closes the open epoch where nothing of the receipt buffer is lost. -/
def Sys2Proof.ClosingRecord (s : State) : Bytes :=
  epochRecord s
    ((leafClients s).map fun c =>
      tenantEntry c (s.tenant c).epoch (s.tenant c).leaves.length (subtreeRoot (s.tenant c).leaves))
    (((leafClients s).map fun c => (s.tenant c).leaves.length).sum) 0

/-- An epoch closes at its boundary, while a record can be signed, and the next opens chained to its record; at E_RES
it waits. A reservation write and a checkpoint leave their values in the persistent store, and without the MRAM's
supply a checkpoint leaves nothing and the anchor as it was; an anchor older than twice
its period is late; the consumer indices of the logs move forward only. -/
def Obligations.EpochsAndLogs : Prop :=
  (∀ (corrected : Nat) (s : State), s.Inv → closeDue s = true →
    Completes (.epochClose [] corrected) s fun t =>
      t.wg.isOpen = true ∧ t.wg.epoch = s.wg.epoch + 1 ∧ t.wg.kind = 0 ∧ t.wg.tOpen = s.sync.h ∧
      t.wg.prev = sha256 ([3] ++ ClosingRecord s) ∧
      t.wg.lastRec = (if s.wg.root then s.wg.lastRec else ClosingRecord s) ∧
      (∀ c, (t.tenant c).leaves = []) ∧ t.jobs = s.jobs ∧ t.sync = s.sync) ∧
  (∀ (lost : List Nat) (corrected : Nat) (s : State), s.wg.eres ≤ s.wg.epoch + 1 →
    Completes (.epochClose lost corrected) s fun t => t = s) ∧
  (∀ (e : Nat) (s : State), Running s → mramOn s = true → s.wg.eresNext = some e → s.ks.testRoot = false →
    Completes .epochReservationWriteDone s fun t =>
      t.wg.eres = e ∧ t.wg.eresNext = none ∧ t.recValue 0x11 = some (resPayload e) ∧
      ∀ r, r ≠ 0x11 → t.recValue r = s.recValue r) ∧
  (∀ s : State, Running s → Up s → s.keeperOk = true → ckptDue s = true →
    mramOn s = true → s.ks.testRoot = false → s.wg.lastRec ≠ [] →
    Completes .receiptCheckpoint s fun t =>
      t.recValue 0x10 = some (anchorPayload s.wg.lastRec) ∧
      t.wg.anchor = beNat (slice s.wg.lastRec 24 8) ∧ t.wg.anchorAt = s.hv.tick ∧ t.wg.ckptLate = false ∧
      ∀ r, r ≠ 0x10 → t.recValue r = s.recValue r) ∧
  (∀ s : State, Running s → Up s → s.keeperOk = true → ckptDue s = true → mramOn s = false →
    Completes .receiptCheckpoint s fun t =>
      t.wg.anchor = s.wg.anchor ∧ t.wg.anchorAt = s.wg.anchorAt ∧ t.wg.ckptLate = s.wg.ckptLate ∧
      t.store.mram = s.store.mram) ∧
  (∀ s : State, Running s → s.hv.ready = true → s.wg.ckptLate = false →
    s.wg.anchorAt + 2 * s.wg.ckptS * 1200000000 < s.hv.tick →
    Completes .ckptLate s fun t => t.wg = { s.wg with ckptLate := true } ∧ t.ev.pend.getLsbD 264 = true) ∧
  (∀ (v : W32) (s : State), Running s → s.hv.ready = true → s.wg.mlog.held = [] →
    Completes (.wgMlogConsWrite v) s fun t =>
      t.wg.mlog = (if ringDist v s.wg.mlog.cons ≤ ringDist s.wg.mlog.tail s.wg.mlog.cons
        then { s.wg.mlog with cons := v } else { s.wg.mlog with consErr := true }) ∧ t.out = s.out) ∧
  (∀ (c : Nat) (v : W32) (s : State), Running s → isClient c = true → s.exists_ c = true →
    fnReachable s c = true → (s.tenant c).rlog.held = [] →
    Completes (.tnRlogConsWrite c v) s fun t =>
      (t.tenant c).rlog =
        (if ringDist v (s.tenant c).rlog.cons ≤ ringDist (s.tenant c).rlog.tail (s.tenant c).rlog.cons
          then { (s.tenant c).rlog with cons := v } else { (s.tenant c).rlog with consErr := true }) ∧
      t.out = s.out ∧ OtherTenants c s t)

/-- The receipts of client c are enabled when its committed ENABLE is 1 and SIGNER_READY is 1; stage 8 tests it:
where they are disabled the job forms no leaf and its LEAF flag stays clear; where they are enabled a job
that asks for a receipt waits at stage 8 for its leaf (R260). -/
def Obligations.ReceiptsEnabled : Prop :=
  (∀ (id n : Nat) (ecc : JobEcc) (s : State), Running s → s.hasJob id = true → (s.job id).stage = .cellDone →
    ¬ ((s.tenant (s.job id).client).wgT.enable = true ∧ s.wg.signer = true) →
    (s.job id).isLeaf = false →
    Completes (.jobEnd id n ecc) s fun t =>
      (t.job id).isLeaf = false ∧ (t.job id).stage ≠ .leaf ∧ t.wg.leaves = s.wg.leaves ∧
      ∀ c, (t.tenant c).leaves = (s.tenant c).leaves) ∧
  (∀ (id n : Nat) (ecc : JobEcc) (s : State), Running s → s.hasJob id = true → (s.job id).stage = .cellDone →
    (s.tenant (s.job id).client).wgT.enable = true → s.wg.signer = true →
    (s.job id).wantsLeaf = true → (s.job id).record = [] → (s.job id).output.length ≤ (s.job id).written →
    Completes (.jobEnd id n ecc) s fun t => (t.job id).stage = .leaf ∧ (t.job id).isLeaf = (s.job id).isLeaf)

/-! ## Tenants and windows (chapter 10) -/

/-- The manager may commit an administration command: the Hive is ready, the keeper runs, none is running. -/
def Sys2Proof.AdmFree (s : State) : Prop :=
  Running s ∧ s.hv.ready = true ∧ s.keeperOk = true ∧ s.adm.running = none ∧ s.adm.fenced = none

/-- What a RESIZE has done when it has ended well. -/
def Sys2Proof.Resized (a : AdmCfg) (t : State) : Prop :=
  (t.tenant a.client).queues = a.queues ∧ (t.tenant a.client).granules.length = a.keyGran ∧
  (t.tenant a.client).ctxGran = a.ctxGran ∧ (t.tenant a.client).vectors = a.vectors ∧
  ((t.tenant a.client).state = 1 ∨ (t.tenant a.client).state = 2 ∧ leavingCount t a.client ≠ 0) ∧
  t.adm.running = none ∧ t.adm.fenced = none ∧ t.adm.result = 0 ∧ t.ev.pend.getLsbD 256 = true

/-- The keeper is about to judge the fenced ranges of a RESIZE on an edge that ends no epoch and assigns no leaf. -/
def Sys2Proof.FenceJudged (a : AdmCfg) (s : State) : Prop :=
  Running s ∧ s.pending = [] ∧ s.keeperOk = true ∧ closeDue s = false ∧ QuietEdge s ∧ s.adm.running = some a ∧
  s.adm.fenced = some a

/-- CREATE, RESIZE and DESTROY act when R290 passes, end with its RESULT when it does not, and with 6 when the keeper
did not take the command. A RESIZE that lowers a count fences the removed ranges first; on the next edge the keeper
judges them (the model's choice of the moment: log entry 31), and a range in use ends it with 2 and changes no count.
The records of a client created while the key store's lane is closed wait for its opening. A destroyed client's state
word returns to ABSENT when its slots are gone. -/
def Obligations.TenantAdministration : Prop :=
  (∀ (a : AdmCfg) (s : State), AdmFree s → s.adm.shadow = a → a.op = 1 → admIssue s a = 0 →
    Completes .tnAdmCreate s fun t =>
      (t.tenant a.client).state = 1 ∧ (t.tenant a.client).gen = (s.tenant a.client).gen + 1 ∧
      (t.tenant a.client).queues = a.queues ∧ (t.tenant a.client).vectors = a.vectors ∧
      (t.tenant a.client).ctxGran = a.ctxGran ∧ (t.tenant a.client).weight = a.weight ∧
      (∀ q, q < a.queues → t.queue a.client q = {} ∧ ∃ n, tblGet none (t.tenant a.client).qmap q = some n) ∧
      (∀ hrk, s.ks.hrk = some hrk → s.aon.tampered = false → laneShut s = false →
        (t.slot (trPos a.client)).state = .valid ∧
        (t.slot (trPos a.client)).mat =
          kdf hrk (ascii "QHV1 TROOT") (natBe 2 a.client ++ bvBe 4 (s.tenant a.client).epoch) 32) ∧
      (s.aon.tampered = false → laneShut s = true → a.client ∈ t.ks.restoreDue) ∧
      t.adm.running = none ∧ t.adm.result = 0 ∧ t.ev.pend.getLsbD 256 = true) ∧
  (∀ (a : AdmCfg) (s : State), AdmFree s → s.adm.shadow = a → a.op = 2 → admIssue s a = 0 → fences s a = false →
    Completes .tnAdmResize s (Resized a)) ∧
  (∀ (a : AdmCfg) (s : State), AdmFree s → s.adm.shadow = a → a.op = 2 → admIssue s a = 0 → fences s a = true →
    Completes .tnAdmResize s fun t =>
      t.adm.fenced = some a ∧ t.adm.running = some a ∧ t.tenants = s.tenants ∧ t.fns = s.fns ∧
      t.slots = s.slots ∧ t.ctxs = s.ctxs ∧
      (∀ i, 2 + 64 * a.keyGran ≤ i → t.fencedKey a.client i = true) ∧
      (∀ i, 64 * a.ctxGran ≤ i → t.fencedCtx a.client i = true) ∧
      (∀ v, a.vectors ≤ v → t.fencedVec a.client v = true)) ∧
  (∀ (a : AdmCfg) (s : State), FenceJudged a s → inUse s a = false →
    ∃ t, step s = .next t ∧ Resized a t) ∧
  (∀ (a : AdmCfg) (s : State), FenceJudged a s → inUse s a = true →
    ∃ t, step s = .next t ∧ t.adm.fenced = none ∧ t.adm.running = none ∧ t.adm.result = 2 ∧
      t.ev.pend.getLsbD 256 = true ∧ t.slots = s.slots ∧ t.ctxs = s.ctxs ∧
      ∀ c, (t.tenant c).gen = (s.tenant c).gen ∧ (t.tenant c).queues = (s.tenant c).queues ∧
        (t.tenant c).granules = (s.tenant c).granules ∧ (t.tenant c).ctxGran = (s.tenant c).ctxGran ∧
        (t.tenant c).vectors = (s.tenant c).vectors) ∧
  (∀ (a : AdmCfg) (s : State), AdmFree s → s.adm.shadow = a → a.op = 3 → admIssue s a = 0 →
    Completes .tnAdmDestroy s fun t =>
      (t.tenant a.client).state = 3 ∧ (t.tenant a.client).gen = (s.tenant a.client).gen + 1 ∧
      t.adm.running = none ∧ t.adm.result = 0 ∧ t.ev.pend.getLsbD 256 = true) ∧
  (∀ s : State, AdmFree s → admIssue s s.adm.shadow ≠ 0 →
    Completes .tnAdmOp0 s fun t =>
      t.adm.result = admIssue s s.adm.shadow ∧ t.adm.running = none ∧ t.queues = s.queues ∧
      t.slots = s.slots ∧ (∀ c, (t.tenant c).state = (s.tenant c).state ∧ (t.tenant c).gen = (s.tenant c).gen) ∧
      t.ev.pend.getLsbD 256 = true) ∧
  (∀ (a : AdmCfg) (s : State), Running s → s.adm.running = some a → s.adm.fenced = none →
    s.adm.offeredAt + 12000000 ≤ s.hv.tick →
    Completes .admKeeperTimeout s fun t =>
      t.adm.running = none ∧ t.adm.result = 6 ∧ t.queues = s.queues ∧ t.ev.pend.getLsbD 256 = true) ∧
  (∀ (c : Nat) (s : State), Running s → (s.tenant c).state = 3 → (s.tenant c).orphaned = true →
    (∀ p ∈ granuleSlots (s.tenant c).granules, (s.slot p).state = .empty) →
    Completes (.destroyComplete c) s fun t =>
      (t.tenant c).state = 0 ∧ (t.tenant c).gen = (s.tenant c).gen + 1 ∧ (t.tenant c).queues = 0 ∧
      (t.tenant c).granules = [] ∧ (t.tenant c).epoch = (s.tenant c).epoch ∧
      (∀ q, q < qSpan → t.queue c q = {}) ∧ OtherTenants c s t)

/-- The two banks of a client's DMA windows: writes go to the inactive bank, a write to the active one or during a
flip is refused, and a flip changes banks when it takes effect, and ends when no request translated under the old
bank is left. The same of the window translation table, whose flip waits for the register reads that a wake holds. -/
def Obligations.WindowBanks : Prop :=
  (∀ (reg : DmawReg) (v : W64) (s : State), Running s → s.hv.ready = true → isClient (dmawClient s) = true →
    s.exists_ (dmawClient s) = true → (s.tenant (dmawClient s)).win.flip = .none →
    dmawBank s ≠ (s.tenant (dmawClient s)).win.active →
    Completes (.tnDmawEntryWrite reg v) s fun t =>
      (t.tenant (dmawClient s)).win =
        (if dmawBank s then { (s.tenant (dmawClient s)).win with
            b := tblSet {} (s.tenant (dmawClient s)).win.b (dmawIndex s)
              ((tblGet {} (s.tenant (dmawClient s)).win.b (dmawIndex s)).put reg v) }
          else { (s.tenant (dmawClient s)).win with
            a := tblSet {} (s.tenant (dmawClient s)).win.a (dmawIndex s)
              ((tblGet {} (s.tenant (dmawClient s)).win.a (dmawIndex s)).put reg v) }) ∧
      (t.tenant (dmawClient s)).win.bank = (s.tenant (dmawClient s)).win.bank ∧
      OtherTenants (dmawClient s) s t) ∧
  (∀ (reg : DmawReg) (v : W64) (s : State), Running s → s.hv.ready = true → isClient (dmawClient s) = true →
    s.exists_ (dmawClient s) = true →
    (s.tenant (dmawClient s)).win.flip ≠ .none ∨ dmawBank s = (s.tenant (dmawClient s)).win.active →
    Completes (.tnDmawEntryWrite reg v) s fun t =>
      (t.tenant (dmawClient s)).win = { (s.tenant (dmawClient s)).win with refused := true } ∧
      OtherTenants (dmawClient s) s t) ∧
  (∀ (c : Nat) (s : State), Running s → s.hv.ready = true → isClient c = true → s.exists_ c = true →
    Completes (.tnDmawFlip c) s fun t =>
      (t.tenant c).win = (if (s.tenant c).win.flip = .none then { (s.tenant c).win with flip := .asked }
        else { (s.tenant c).win with refused := true }) ∧ OtherTenants c s t) ∧
  (∀ (c : Nat) (s : State), Running s → (s.tenant c).win.flip = .asked →
    Completes (.dmawFlipEffect c) s fun t =>
      (t.tenant c).win.active = !(s.tenant c).win.active ∧ (t.tenant c).win.a = (s.tenant c).win.a ∧
      (t.tenant c).win.b = (s.tenant c).win.b ∧
      (t.tenant c).win.flip =
        (if bankBusy s c (s.tenant c).win.active = true then .draining else .none) ∧ OtherTenants c s t) ∧
  (∀ (c : Nat) (s : State), Running s → (s.tenant c).win.flip = .draining →
    bankBusy s c (!(s.tenant c).win.active) = false →
    Completes (.dmawFlipDrained c) s fun t =>
      (t.tenant c).win = { (s.tenant c).win with flip := .none } ∧ OtherTenants c s t) ∧
  (∀ s : State, Running s → s.hv.ready = true →
    Completes .hiWttFlip s fun t =>
      t.hi = (if s.hi.wttFlip = .none then { s.hi with wttFlip := .asked } else { s.hi with wttRefused := true })) ∧
  (∀ s : State, Running s → s.hi.wttFlip = .asked → heldReads s = false →
    Completes .wttFlipEffect s fun t =>
      t.hi = { s.hi with wttActive := !s.hi.wttActive, wttFlip := .none, wttOld := 0 }) ∧
  (∀ s : State, Running s → s.hi.wttFlip = .asked → heldReads s = true →
    Completes .wttFlipEffect s fun t =>
      t.hi = { s.hi with
        wttActive := !s.hi.wttActive, wttFlip := .draining, wttOld := s.hv.heldCmds.length }) ∧
  (∀ s : State, Running s → s.hi.wttFlip = .draining → heldReads s = false →
    Completes .wttFlipDrained s fun t => t.hi = { s.hi with wttFlip := .none })

/-! ## Mailboxes (chapter 10) -/

/-- A request of function c waits for the keeper, which runs. -/
def Sys2Proof.MessageWaits (s : State) (c : Nat) : Prop :=
  Running s ∧ isFn c = true ∧ s.keeperOk = true ∧ (s.tenant c).mb.h2kFull = true

/-- What becomes of the keeper's read of the request's body (R302, R335, R336). -/
def Sys2Proof.bodyRead (s : State) (c : Nat) : Wrote :=
  (keeperRead s c (s.tenant c).mb.h2kAddr.toNat (s.tenant c).mb.h2kLen .ok).1

/-- The keeper takes a request whose form it accepts: it is neither malformed nor too long. -/
def Sys2Proof.MessageTaken (s : State) (c : Nat) : Prop :=
  MessageWaits s c ∧ (s.tenant c).mb.read = none ∧ (s.tenant c).mb.replies < 16 ∧
  mailMalformed (s.tenant c).mb.h2kMsg = false ∧ (s.tenant c).mb.h2kLen ≤ 4096

/-- The buffer of the pool that the next message of the keeper uses (R309). -/
def Sys2Proof.bufferAt (s : State) (c : Nat) : W64 :=
  (s.tenant c).mb.pool + BitVec.ofNat 64 ((s.tenant c).mb.count % (s.tenant c).mb.poolN * 4096)

/-- The keeper may post the message at the front of those it holds. -/
def Sys2Proof.PostDue (s : State) (c : Nat) (h : Mail) (rest : List Mail) : Prop :=
  Running s ∧ isFn c = true ∧ s.keeperOk = true ∧ s.busMaster c = true ∧ (s.tenant c).mb.held = h :: rest ∧
  (s.tenant c).mb.k2hFull = false ∧ (s.tenant c).mb.poolN ≠ 0

/-- Host to keeper and keeper to host: a message is taken once, answered with its TYPE and SEQ, and posted one at
a time. The keeper takes the request's word at once; its body read waits where bus master enable or a translation
holds it back; the seventeenth request is discarded. A body leaves in requests of at most Max_Payload_Size. That a
malformed request is judged before its buffer, that a failed read is BAD_BUFFER, that the word is taken without bus
mastering, and that a pool of none drops the messages held are the model's choices (log entry 32). -/
def Obligations.Mailboxes : Prop :=
  (∀ (c : Nat) (v : W32) (s : State), Running s → s.hv.pwr = 0 → mailOpen s c = true →
    Completes (.mbH2kMsgWrite c v) s fun t =>
      (t.tenant c).mb =
        (if (s.tenant c).mb.h2kFull = true ∨ mailType v = 0 then { (s.tenant c).mb with h2kErr := true }
          else { (s.tenant c).mb with h2kMsg := v, h2kFull := true }) ∧ OtherTenants c s t) ∧
  (∀ (c : Nat) (read : ReadEnd) (body : Bytes) (s : State), MessageWaits s c →
    16 ≤ (s.tenant c).mb.replies →
    Completes (.h2kKeeperRead c read body) s fun t =>
      (t.tenant c).mb = { (s.tenant c).mb with
        h2kFull := false, drop := true,
        dropSeq := BitVec.ofNat 16 ((s.tenant c).mb.h2kMsg.toNat / 65536) } ∧ OtherTenants c s t) ∧
  (∀ (c : Nat) (read : ReadEnd) (body : Bytes) (s : State), MessageWaits s c → (s.tenant c).mb.read = none →
    (s.tenant c).mb.replies < 16 → mailMalformed (s.tenant c).mb.h2kMsg = true → (s.tenant c).mb.poolN ≠ 0 →
    Completes (.h2kKeeperRead c read body) s fun t =>
      (t.tenant c).mb = { (s.tenant c).mb with
        h2kFull := false,
        held := (s.tenant c).mb.held ++ [{ word := replyWord (s.tenant c).mb.h2kMsg 1, body := [] }] } ∧
      OtherTenants c s t) ∧
  (∀ (c : Nat) (read : ReadEnd) (body : Bytes) (s : State), MessageWaits s c → (s.tenant c).mb.read = none →
    (s.tenant c).mb.replies < 16 → mailMalformed (s.tenant c).mb.h2kMsg = false →
    4096 < (s.tenant c).mb.h2kLen → (s.tenant c).mb.poolN ≠ 0 →
    Completes (.h2kKeeperRead c read body) s fun t =>
      (t.tenant c).mb = { (s.tenant c).mb with
        h2kFull := false,
        held := (s.tenant c).mb.held ++ [{ word := replyWord (s.tenant c).mb.h2kMsg 3, body := [] }] } ∧
      OtherTenants c s t) ∧
  (∀ (c : Nat) (body : Bytes) (s : State), MessageTaken s c →
    (s.tenant c).mb.h2kLen = 0 ∨ bodyRead s c = .issued →
    Completes (.h2kKeeperRead c .ok body) s fun t =>
      (t.tenant c).mb = { (s.tenant c).mb with
        h2kFull := false,
        read := some { word := (s.tenant c).mb.h2kMsg, addr := (s.tenant c).mb.h2kAddr,
                       len := (s.tenant c).mb.h2kLen, epoch := (s.tenant c).mb.fepoch,
                       body := some (fit body (s.tenant c).mb.h2kLen) } } ∧
      OtherTenants c s t) ∧
  (∀ (c : Nat) (read : ReadEnd) (body : Bytes) (s : State), MessageTaken s c → (s.tenant c).mb.h2kLen ≠ 0 →
    bodyRead s c = .waits →
    Completes (.h2kKeeperRead c read body) s fun t =>
      (t.tenant c).mb = { (s.tenant c).mb with
        h2kFull := false,
        read := some { word := (s.tenant c).mb.h2kMsg, addr := (s.tenant c).mb.h2kAddr,
                       len := (s.tenant c).mb.h2kLen, epoch := (s.tenant c).mb.fepoch } } ∧
      OtherTenants c s t) ∧
  (∀ (c : Nat) (read : ReadEnd) (body : Bytes) (s : State), MessageTaken s c → (s.tenant c).mb.h2kLen ≠ 0 →
    bodyRead s c = .refused ∨ bodyRead s c = .denied ∨ bodyRead s c = .issued ∧ read ≠ .ok →
    (s.tenant c).mb.poolN ≠ 0 →
    Completes (.h2kKeeperRead c read body) s fun t =>
      (t.tenant c).mb = { (s.tenant c).mb with
        h2kFull := false,
        held := (s.tenant c).mb.held ++ [{ word := replyWord (s.tenant c).mb.h2kMsg 3, body := [] }] } ∧
      (read ≠ .timeout → OtherTenants c s t)) ∧
  (∀ (c : Nat) (r : MailRead) (b : Bytes) (s : State), Running s → s.keeperOk = true →
    (s.tenant c).mb.read = some r → r.body = some b → r.epoch = (s.tenant c).mb.fepoch → mailType r.word = 1 →
    (s.tenant c).mb.poolN ≠ 0 →
    Completes (.echo c) s fun t =>
      (t.tenant c).mb = { (s.tenant c).mb with
        read := none, held := (s.tenant c).mb.held ++ [{ word := replyWord r.word 0, body := b }] } ∧
      OtherTenants c s t) ∧
  (∀ (c : Nat) (r : MailRead) (b : Bytes) (s : State), Running s → s.keeperOk = true →
    (s.tenant c).mb.read = some r → r.body = some b → r.epoch = (s.tenant c).mb.fepoch → mailType r.word ≠ 1 →
    (s.tenant c).mb.poolN ≠ 0 →
    Completes (.unknownType c) s fun t =>
      (t.tenant c).mb = { (s.tenant c).mb with
        read := none, held := (s.tenant c).mb.held ++ [{ word := replyWord r.word 2, body := [] }] } ∧
      OtherTenants c s t) ∧
  (∀ (c : Nat) (h : Mail) (rest : List Mail) (s : State), PostDue s c h rest → h.body = [] →
    Completes (.k2hPost c) s fun t =>
      (t.tenant c).mb = { (s.tenant c).mb with
        held := rest, k2hLen := 0, k2hMsg := h.word, k2hFull := true, k2hAddr := bufferAt s c,
        count := (s.tenant c).mb.count + 1 } ∧ t.out = s.out ∧ OtherTenants c s t) ∧
  (∀ (c tgt a x : Nat) (pasid : Option Nat) (h : Mail) (rest : List Mail) (s : State), PostDue s c h rest →
    h.body ≠ [] → InPage (bufferAt s c).toNat h.body.length →
    windowed s c (bufferAt s c).toNat h.body.length true = some (tgt, a, pasid) →
    xlated s c tgt a pasid true = .to x →
    Completes (.k2hPost c) s fun t =>
      (t.tenant c).mb = { (s.tenant c).mb with
        held := rest, k2hLen := h.body.length, k2hMsg := h.word, k2hFull := true, k2hAddr := bufferAt s c,
        count := (s.tenant c).mb.count + 1 } ∧ OtherTenants c s t ∧
      Sends s t (PageWrites s c tgt (bufferAt s c).toNat x pasid false false h.body)) ∧
  (∀ (c : Nat) (s : State), Running s → s.hv.pwr = 0 → mailOpen s c = true →
    Completes (.mbK2hMsgRead c) s fun t =>
      t.resp = (s.tenant c).mb.k2hMsg.setWidth 64 ∧
      (t.tenant c).mb = { (s.tenant c).mb with k2hMsg := 0, k2hFull := false } ∧ OtherTenants c s t) ∧
  (∀ (c : Nat) (v : W64) (s : State), Running s → s.hv.pwr = 0 → mailOpen s c = true →
    Completes (.mbPoolRegister c (.base v)) s fun t =>
      (t.tenant c).mb = { (s.tenant c).mb with pool := v &&& ~~~0xFFF#64, count := 0 } ∧ OtherTenants c s t) ∧
  (∀ (c : Nat) (v : W32) (s : State), Running s → s.hv.pwr = 0 → mailOpen s c = true →
    Completes (.mbPoolRegister c (.ctrl v)) s fun t =>
      (t.tenant c).mb.poolN = min 16 (bits v.toNat 4 0) ∧ (t.tenant c).mb.count = 0 ∧
      (t.tenant c).mb.vec = bits v.toNat 15 5 ∧ (t.tenant c).mb.pool = (s.tenant c).mb.pool ∧
      (bits v.toNat 4 0 = 0 → (t.tenant c).mb.held = []) ∧ OtherTenants c s t)

/-! ## Functions (chapter 11) -/

/-- Every queue of the function that ran has stopped at bus master enable, and none of its jobs is alive. -/
def Sys2Proof.MasterGone (fn : Nat) (s t : State) : Prop :=
  (∀ q, q < 32768 → (s.queue fn q).state = .active →
    (t.queue fn q).state = .stopped ∧ (t.queue fn q).stop = qerrBme ∧ (t.queue fn q).window = [] ∧
    (t.queue fn q).ready = [] ∧ (t.queue fn q).gen = (s.queue fn q).gen + 1) ∧
  (∀ k, t.hasJob k = true → (t.job k).client = fn → (t.job k).live = false)

/-- A function level reset has begun: every queue of the function is DISABLED at its Cold values, no job of it is
alive, no translation and no due vector of it is kept. -/
def Sys2Proof.ResetBegun (fn : Nat) (s t : State) : Prop :=
  (t.func fn).flr = 1 ∧ (t.func fn).due = [] ∧
  (∀ q, q < 32768 → (s.queue fn q).leaving = false →
    t.queue fn q = { clearExport := (s.queue fn q).clearExport }) ∧
  (∀ k, t.hasJob k = true → (t.job k).client = fn → (t.job k).live = false) ∧
  (∀ e ∈ t.dma.atc, e.fn ≠ fn)

/-- Bus master enable, function level reset, power states and VF Enable: clearing the bit or entering D3hot stops the
function's queues and abandons its jobs; setting the bit sends the pending messages that R339 and R418 allow; an FLR
begins at once, goes on when the function's reads have drained, and ends at reset values; clearing VF Enable begins an
FLR of every virtual function and keeps the tenants. That an FLR of PF0 keeps VF Enable and the VF BARs, that PF0
alone has D3hot, and that every virtual function from 1 to 4,095 takes the FLR are the model's choices (log entry 33).
-/
def Obligations.FunctionStates : Prop :=
  (∀ (fn : Nat) (s : State), Running s → fnPresent s fn = true → (s.func fn).flr = 0 → (s.func fn).bme = true →
    Completes (.bmeClear fn) s fun t => (t.func fn).bme = false ∧ MasterGone fn s t) ∧
  (∀ (fn : Nat) (s : State), Running s → fnPresent s fn = true → (s.func fn).flr = 0 →
    Completes (.bmeSet fn) s fun t =>
      (t.func fn).bme = true ∧ (s.dma.waiting = [] → t.queues = s.queues) ∧
      ∀ v, (s.func fn).pba.getLsbD v = true → v < (s.tenant fn).vectors → (s.func fn).msixEn = true →
        (s.func fn).fmask = false → (tblGet {} (s.func fn).msix v).masked = false →
        (s.func fn).d3hot = false → (tblGet {} (s.func fn).imod v).next ≤ s.hv.tick →
        s.coreOff = false →
        Out.msi fn (tblGet {} (s.func fn).msix v).addr (tblGet {} (s.func fn).msix v).data ∈ t.out) ∧
  (∀ (fn : Nat) (s : State), Running s → fnPresent s fn = true → (s.func fn).flr = 0 →
    Completes (.flr fn) s fun t => ResetBegun fn s t) ∧
  (∀ (fn : Nat) (s : State), Running s → isFn fn = true → (s.func fn).flr = 1 →
    (∀ e ∈ s.reqs, e.2.client ≠ fn) → s.held237 (spPos fn) = false →
    Completes (.flrReadsDrained fn) s fun t =>
      (t.func fn).flr = 2 ∧ (t.tenant fn).mb = { fepoch := (s.tenant fn).mb.fepoch + 1 } ∧
      (t.tenant fn).rlog = {} ∧ (∀ x, x < 131072 → t.ctx fn x = {}) ∧ (∀ r, r < 512 → t.ring fn r = {}) ∧
      (s.exists_ fn = true → t.gen (spPos fn) = s.gen (spPos fn) + 1) ∧ OtherTenants fn s t) ∧
  (∀ (fn : Nat) (s : State), Running s → (s.func fn).flr = 2 →
    Completes (.flrDone fn) s fun t =>
      (t.func fn).flr = 0 ∧ (t.func fn).bme = false ∧ (t.func fn).msixEn = false ∧ (fn ≠ 0 → t.func fn = {}) ∧
      (fn ≠ 0 → t.cap = s.cap ∧ t.doe = s.doe) ∧
      (fn = 0 → t.cap = { vfEnable := s.cap.vfEnable, numVfs := s.cap.numVfs, vbar0 := s.cap.vbar0,
                          vbar2 := s.cap.vbar2 } ∧ t.doe.busy = false ∧ t.doe.error = false) ∧
      t.ev.pend.getLsbD 268 = true ∧ t.queues = s.queues) ∧
  (∀ s : State, Running s → fnPresent s 0 = true → (s.func 0).flr = 0 → (s.func 0).d3hot = false →
    Completes (.d3hotEntry 0) s fun t => (t.func 0).d3hot = true ∧ MasterGone 0 s t) ∧
  (∀ s : State, Running s → fnPresent s 0 = true → (s.func 0).d3hot = true →
    Completes (.d3hotToD0 0) s fun t => (t.func 0).d3hot = false ∧ (t.func 0).flr = 1) ∧
  (∀ s : State, Running s → fnPresent s 0 = true → (s.func 0).flr = 0 → s.cap.vfEnable = true → s.rom = false →
    Completes .vfEnableClear s fun t =>
      t.cap.vfEnable = false ∧ (∀ fn, 1 ≤ fn → fn ≤ 4095 → (t.func fn).flr ≠ 0) ∧
      (∀ c, (t.tenant c).queues = (s.tenant c).queues ∧ (t.tenant c).granules = (s.tenant c).granules))

/-- A signalled vector is sent where R339 allows it, and pends otherwise; within a moderation interval it merges
into the message that the interval's end sends; a mask write changes the entry or the function's bits. When the link
has been idle for IDLE_US, the idle value of LTR is sent. -/
def Obligations.Vectors : Prop :=
  (∀ (c v : Nat) (s : State), Running s → v ∈ (s.func c).due → (tblGet {} (s.func c).imod v).next ≤ s.hv.tick →
    v < 2048 → mayInterrupt s c v = true →
    Completes (.msixMessageSend c v) s fun t =>
      v ∉ (t.func c).due ∧ (t.func c).pba.getLsbD v = false ∧
      Sends s t [.msi c (tblGet {} (s.func c).msix v).addr (tblGet {} (s.func c).msix v).data]) ∧
  (∀ (c v : Nat) (s : State), Running s → v ∈ (s.func c).due → (tblGet {} (s.func c).imod v).next ≤ s.hv.tick →
    v < 2048 → mayInterrupt s c v = false →
    Completes (.msixMessageSend c v) s fun t =>
      v ∉ (t.func c).due ∧ (t.func c).pba.getLsbD v = true ∧ t.out = s.out) ∧
  (∀ (c v : Nat) (s : State), Running s → v ∈ (s.func c).due → s.hv.tick < (tblGet {} (s.func c).imod v).next →
    Completes (.msixMessageSend c v) s fun t =>
      v ∉ (t.func c).due ∧ tblGet {} (t.func c).imod v = { tblGet {} (s.func c).imod v with merged := true } ∧
      t.out = s.out) ∧
  (∀ (c v : Nat) (s : State), Running s → (tblGet {} (s.func c).imod v).merged = true →
    (tblGet {} (s.func c).imod v).next ≤ s.hv.tick → mayInterrupt s c v = true →
    Completes (.moderationIntervalEnd c v) s fun t =>
      (t.func c).pba.getLsbD v = false ∧
      Sends s t [.msi c (tblGet {} (s.func c).msix v).addr (tblGet {} (s.func c).msix v).data]) ∧
  (∀ (c v word : Nat) (x : W32) (s : State), Running s → isFn c = true → s.hv.ready = true →
    fnReachable s c = true → v < (s.tenant c).vectors → s.fencedVec c v = false →
    Completes (.msixMaskWrite c (.entry v word x)) s fun t =>
      (t.func c).msix = tblSet {} (s.func c).msix v ((tblGet {} (s.func c).msix v).put word x) ∧
      (t.func c).msixEn = (s.func c).msixEn) ∧
  (∀ (c : Nat) (en mask : Bool) (s : State), Running s → isFn c = true → s.hv.ready = true →
    (s.func c).flr = 0 →
    Completes (.msixMaskWrite c (.control en mask)) s fun t =>
      (t.func c).msixEn = en ∧ (t.func c).fmask = mask ∧ (t.func c).msix = (s.func c).msix) ∧
  (∀ s : State, Running s → s.hv.ready = true → s.hi.idle = false → linkBusy s = false →
    s.hi.busyAt + 1200 * s.hi.idleUs ≤ s.hv.tick → s.cap.ltrEn = true → s.hi.ltrSent = none →
    Completes .linkIdleSignal s fun t =>
      t.hi.idle = true ∧ (∃ v, t.hi.ltrSent = some v ∧ SendsOnly s t [.ltr v]) ∧ t.hi.ltrAt = s.hv.tick)

/-! ## Peer ingress and egress (chapter 12) -/

/-- A word that the peer interface takes, with good parity and no poison. -/
def Sys2Proof.GoodWord (s : State) (w : PeerWord) : Prop :=
  Running s ∧ s.hv.ready = true ∧ s.coreOff = false ∧ w.data.length = 64 ∧ w.prio < 8 ∧ w.client < 64 ∧
  w.nbytes < 64 ∧ parityOk w.data w.par = true ∧ w.poison = false

/-- Ingress: a packet of one word becomes readable with its SEQ; a packet of an absent client is marked; a word that
finds the store full is counted; a word outside a packet counts as framing. The reader rejects or accepts the packet it
takes, and counts what ECC corrects. The watermarks apply where R357 allows them. Egress and peer reset: the packet
whose hand-off has begun goes on word by word; a notice goes before packets that have not begun; without PE_READY the
interface stalls. A peer reset takes away what the peer has in the Hive, an egress packet that has begun among it, and
leaves its queues DISABLED with their configuration; it ends by closing its contexts and moving its session. With the
core domains off no word is taken and none leaves. The precedence of the marks, what a first word finds in a full store,
what a peer reset takes and keeps, and PE_BYTES 0 for a full word are the model's choices (log entry 37). -/
def Obligations.PeerPackets : Prop :=
  (∀ (w : PeerWord) (s : State), GoodWord s w → w.sop = true → w.eop = true →
    tblGet none s.peer.open_ w.prio = none → s.peer.resetBusy ≠ some w.client → storeUsed s < 131072 →
    Completes (.peerWordWrite w) s fun t =>
      tblGet {} t.peer.packets s.peer.nextPkt =
        { client := w.client, prio := w.prio, seq := tblGet 0 s.peer.seq (w.client * 8 + w.prio),
          words := [(w.data, false)], nbytes := if w.nbytes = 0 then 64 else w.nbytes,
          mark := if (s.tenant (w.client + 4096)).state = 0 then .noTenant else .none, tArrive := s.sync.h,
          ready := some s.peer.nextReady } ∧
      t.peer.nextPkt = s.peer.nextPkt + 1 ∧
      t.peer.seq = tblSet 0 s.peer.seq (w.client * 8 + w.prio)
        (tblGet 0 s.peer.seq (w.client * 8 + w.prio) + 1) ∧
      (∀ k, k ≠ s.peer.nextPkt → tblGet {} t.peer.packets k = tblGet {} s.peer.packets k) ∧ t.jobs = s.jobs) ∧
  (∀ (w : PeerWord) (s : State), GoodWord s w → w.sop = true →
    tblGet none s.peer.open_ w.prio = none → s.peer.resetBusy ≠ some w.client → 131072 ≤ storeUsed s →
    Completes (.peerWordWrite w) s fun t =>
      t.peer.packets = s.peer.packets ∧ t.peer.overrun = satAdd 0xFFFFFFFF s.peer.overrun 1 ∧
      t.aon.sticky.getLsbD 91 = true) ∧
  (∀ (w : PeerWord) (s : State), GoodWord s w → w.sop = false → w.prio ∉ s.peer.discard →
    tblGet none s.peer.open_ w.prio = none →
    Completes (.peerWordWrite w) s fun t =>
      t.peer.packets = s.peer.packets ∧ t.peer.framing = satAdd 0xFFFFFFFF s.peer.framing 1) ∧
  (∀ (w : PeerWord) (s : State), Running s → s.coreOff = true →
    Completes (.peerWordWrite w) s fun t => t = s) ∧
  (∀ (k n : Nat) (cause : BitVec 8) (s : State), Running s → readerChoice s = some k →
    checkPacket s (tblGet {} s.peer.packets k) = .inl cause → egressUsed s + 64 ≤ 2097152 →
    (queueWindow s ((tblGet {} s.peer.packets k).client + 4096)
      (peerQueueBase + (tblGet {} s.peer.packets k).prio)).length < 256 →
    Completes (.packetRead [] n) s fun t =>
      tblGet {} t.peer.packets k = {} ∧ t.peer.reject = satAdd 0xFFFFFFFF s.peer.reject 1 ∧
      t.peer.order = s.peer.order ++
        [{ client := (tblGet {} s.peer.packets k).client, prio := (tblGet {} s.peer.packets k).prio,
           seq := (tblGet {} s.peer.packets k).seq, pkt := k, kind := 1,
           bytes := rejectBytes (tblGet {} s.peer.packets k) cause, room := 64, ready := true }] ∧
      t.jobs = s.jobs) ∧
  (∀ (k n : Nat) (o : Op) (d : Bytes) (s : State), Running s → readerChoice s = some k →
    checkPacket s (tblGet {} s.peer.packets k) = .inr (o, d) → s.aon.tampered = false →
    Completes (.packetRead [] n) s fun t =>
      t.nextJob = s.nextJob + 1 ∧ (t.job s.nextJob).desc = d ∧
      (t.job s.nextJob).client = (tblGet {} s.peer.packets k).client + 4096 ∧
      (t.job s.nextJob).tArrive = (tblGet {} s.peer.packets k).tArrive ∧
      (tblGet {} t.peer.packets k).read = true ∧
      t.peer.order = s.peer.order ++
        [{ client := (tblGet {} s.peer.packets k).client, prio := (tblGet {} s.peer.packets k).prio,
           seq := (tblGet {} s.peer.packets k).seq, pkt := k, job := s.nextJob }] ∧
      OtherJobs s.nextJob s t) ∧
  (∀ (k n : Nat) (ecc : List Nat) (s : State), Running s → readerChoice s = some k →
    (∃ i ∈ ecc, i < (tblGet {} s.peer.packets k).words.length) →
    Completes (.packetRead ecc n) s fun t =>
      t.aon.sticky.getLsbD 72 = true ∧ t.ev.eccCorr = satAdd 0xFFFFFFFF s.ev.eccCorr n) ∧
  (∀ s : State, Running s → s.hv.ready = true →
    Completes .piCommit s fun t =>
      (if wmOk s.peer.wmSh then t.peer.wm = s.peer.wmSh ∧ t.peer.refused = false
        else t.peer = { s.peer with refused := true }) ∧ t.jobs = s.jobs) ∧
  (∀ (e : Egress) (s : State), Running s → s.peer.order.find? (·.started) = some e →
    Completes (.peerEgressHandoff true) s fun t =>
      SendsOnly s t [.egress e.kind e.client e.prio e.seq.toNat false (decide (e.bytes.length ≤ 64)) 0
        (fit e.bytes 64) (parityOf (fit e.bytes 64))] ∧ t.peer.stall = false ∧ t.peer.notices = s.peer.notices) ∧
  (∀ (n : Notice) (rest : List Notice) (s : State), Running s →
    s.peer.order.find? (·.started) = none → s.peer.notices = n :: rest →
    Completes (.peerEgressHandoff true) s fun t =>
      SendsOnly s t [.egress 2 n.client 7 0 true true 0 (noticeBytes s n) (parityOf (noticeBytes s n))] ∧
      t.peer.notices = rest ∧
      t.peer.order = s.peer.order ∧ t.jobs = s.jobs) ∧
  (∀ (e : Egress) (s : State), Running s → s.peer.order.find? (·.started) = none →
    s.peer.notices = [] → egressChoice s = some e →
    Completes (.peerEgressHandoff true) s fun t =>
      SendsOnly s t [.egress e.kind e.client e.prio e.seq.toNat (!e.started) (decide (e.bytes.length ≤ 64)) 0
        (fit e.bytes 64) (parityOf (fit e.bytes 64))]) ∧
  (∀ (e : Egress) (s : State), Running s → s.peer.order.find? (·.started) = some e →
    s.peer.stall = false →
    Completes (.peerEgressHandoff false) s fun t =>
      t.peer.stall = true ∧ t.out = s.out ∧ t.peer.order = s.peer.order ∧ t.ev.pend.getLsbD 267 = true) ∧
  (∀ (p : Nat) (s : State), Running s → s.hv.ready = true → s.peer.resetBusy = none → p < 64 →
    Completes (.piPeerReset p) s fun t =>
      t.peer.resetBusy = some p ∧ (∀ e ∈ t.peer.packets, e.2.client ≠ p) ∧
      (∀ e ∈ t.peer.order, e.client ≠ p) ∧ (∀ n ∈ t.peer.notices, n.client ≠ p) ∧
      (∀ k, (t.job k).client ≠ p + 4096) ∧
      (∀ q, q < 32768 → (s.queue (p + 4096) q).leaving = false →
        (t.queue (p + 4096) q).state = .disabled ∧ (t.queue (p + 4096) q).cfg = (s.queue (p + 4096) q).cfg ∧
        (t.queue (p + 4096) q).hmDue = false ∧ (t.queue (p + 4096) q).crDue = false)) ∧
  (∀ (p : Nat) (s : State), Running s → s.peer.resetBusy = some p → s.held237 (spPos (p + 4096)) = false →
    Completes .peerResetDone s fun t =>
      t.peer.resetBusy = none ∧ (∀ x, x < 131072 → t.ctx (p + 4096) x = {}) ∧
      (s.exists_ (p + 4096) = true → t.gen (spPos (p + 4096)) = s.gen (spPos (p + 4096)) + 1) ∧
      t.ev.pend.getLsbD 266 = true)

/-! ## SPDM and MCTP (chapters 11 and 15) -/

/-- PF0's DOE mailbox takes a request object and the keeper answers it at once. -/
def Sys2Proof.DoeFree (s : State) : Prop :=
  Running s ∧ doeOpen s = true ∧ s.doe.busy = false ∧ s.doe.error = false ∧ s.keeperOk = true

/-- The request is answered with one data object, and the mailbox is free again. -/
def Sys2Proof.Answers (s t : State) (b : Bytes) : Prop :=
  t.out = s.out ++ [.doe (doeObject 1 b)] ∧ t.doe.busy = false ∧ t.doe.held = none ∧ t.jobs = s.jobs ∧
  t.queues = s.queues

/-- The SPDM responder. The places of fields and the codes are those of DSP0274, and the bytes that no rule gives
are free (the model's choice: log entries 10 and 21). -/
def Obligations.SpdmResponses : Prop :=
  (∀ (n : Nat) (s : State), DoeFree s → n < 2 →
    Completes (.doeDiscovery n) s fun t =>
      t.out = s.out ++ [.doe (doeObject 0 (if n = 0 then natLe 2 1 ++ [0, 1] else natLe 2 1 ++ [1, 0]))] ∧
      t.doe = { s.doe with busy := false, held := none }) ∧
  (∀ s : State, DoeFree s →
    Completes .getVersion s fun t =>
      Answers s t [0x10, 0x04, 0, 0, 0, 1, 0x00, 0x13] ∧ t.doe.ver = true ∧ t.doe.caps = false ∧
      t.doe.hash = 0) ∧
  (∀ s : State, DoeFree s → s.doe.ver = true →
    Completes .getCapabilities s fun t =>
      (∃ b, Answers s t ([0x13, 0x61, 0, 0, 0, 12, 0, 0] ++ natLe 4 0x16 ++ b)) ∧ t.doe.caps = true) ∧
  (∀ (a b : Bool) (s : State), DoeFree s → s.doe.ver = true → s.doe.caps = true → a ≠ b →
    Completes (.negotiateAlgorithms a b true) s fun t =>
      (∃ l, Answers s t ([0x13, 0x63, 0, 0] ++ l)) ∧ t.doe.hash = if a then 32 else 48) ∧
  (∀ (a b c : Bool) (s : State), DoeFree s → s.doe.ver = true → s.doe.caps = true →
    Completes (.negotiateAlgorithms a b c) s fun t =>
      (∃ l, Answers s t ([0x13, 0x63, 0, 0] ++ l)) ∧ t.doe.hash = chosenHash a b c) ∧
  (∀ s : State, DoeFree s → negotiated s = true →
    Completes .getDigests s fun t =>
      Answers s t ([0x13, 0x01, 1, 1] ++ spdmHash s (certChain s)) ∧ t.doe = { s.doe with held := none }) ∧
  (∀ (off len : Nat) (s : State), DoeFree s → negotiated s = true →
    Completes (.getCertificate 0 off len) s fun t =>
      Answers s t (if (certChain s).length ≤ off then [0x13, 0x7F, 0x01, 0] else
        [0x13, 0x02, 0, 0] ++
        natLe 2 (((certChain s).drop off).take (min len 4080)).length ++
        natLe 2 ((certChain s).length - off - (((certChain s).drop off).take (min len 4080)).length) ++
        ((certChain s).drop off).take (min len 4080))) ∧
  (∀ (c : SpdmChallenge) (sig : Bytes) (s : State), DoeFree s → negotiated s = true → s.aon.tampered = false →
    c.slot = 0 → spdmSign s = some sig →
    Completes (.challenge c) s fun t =>
      ∃ b, Answers s t ([0x13, 0x03, 0, 1] ++ spdmHash s (certChain s) ++ b ++ sig)) ∧
  (∀ (c : SpdmChallenge) (s : State), DoeFree s → negotiated s = true → s.aon.tampered = true →
    Completes (.challenge c) s fun t => Answers s t [0x13, 0x7F, 0x05, 0]) ∧
  (∀ (i : Nat) (nonce : Bytes) (s : State), DoeFree s → negotiated s = true → 1 ≤ i → i ≤ 5 →
    Completes (.getMeasurements i false nonce) s fun t =>
      ∃ b, Answers s t ([0x13, 0x60, 0, 0, 1] ++ natLe 3 (measureBlock s i).length ++ measureBlock s i ++ b)) ∧
  (∀ (i : Nat) (nonce sig : Bytes) (s : State), DoeFree s → negotiated s = true → s.aon.tampered = false →
    1 ≤ i → i ≤ 5 → spdmSign s = some sig →
    Completes (.getMeasurements i true nonce) s fun t =>
      ∃ b, Answers s t ([0x13, 0x60, 0, 0, 1] ++ natLe 3 (measureBlock s i).length ++ measureBlock s i ++ b ++ sig)) ∧
  (∀ (i : Nat) (nonce : Bytes) (s : State), DoeFree s → negotiated s = true → s.aon.tampered = true →
    Completes (.getMeasurements i true nonce) s fun t => Answers s t [0x13, 0x7F, 0x05, 0]) ∧
  (∀ (code : BitVec 8) (s : State), DoeFree s →
    Completes (.spdmUnsupportedRequest code) s fun t => Answers s t [0x13, 0x7F, 0x07, code]) ∧
  (∀ s : State, DoeFree s → negotiated s = false →
    Completes .getDigests s fun t => Answers s t [0x13, 0x7F, 0x04, 0]) ∧
  (∀ s : State, Running s → doeOpen s = true →
    Completes .doeAbort s fun t =>
      t.doe = { s.doe with busy := false, error := false, held := none } ∧ t.out = s.out)

/-- The Hive is awake and the keeper answers MCTP messages. -/
def Sys2Proof.MctpUp (s : State) : Prop := Running s ∧ s.hv.pwr = 0 ∧ mctpOpen s = true

/-- The MCTP endpoint: control messages, and the data messages of type 0x7E with their completion codes. The bytes
that no rule gives are free (the model's choice: log entries 10 and 21). -/
def Obligations.MctpEndpoint : Prop :=
  (∀ (eid : BitVec 8) (s : State), MctpUp s → eid ≠ 0 → eid ≠ 0xFF →
    Completes (.setEndpointId eid) s fun t =>
      (∃ b, b.length ≤ 59 ∧ SendsOnly s t [.mctp ([0, 1, 0, 0, eid] ++ b)]) ∧ t.doe = { s.doe with eid := eid }) ∧
  (∀ s : State, MctpUp s →
    Completes .getEndpointId s fun t =>
      (∃ b, b.length ≤ 60 ∧ SendsOnly s t [.mctp ([0, 2, 0, s.doe.eid] ++ b)]) ∧ t.doe = s.doe) ∧
  (∀ s : State, MctpUp s →
    Completes (.getMctpVersionSupport 0) s fun t =>
      SendsOnly s t [.mctp [0, 4, 0, 1, 0xF1, 0xF3, 0xFF, 0x00]] ∧ t.doe = s.doe) ∧
  (∀ s : State, MctpUp s →
    Completes .getMessageTypeSupport s fun t => SendsOnly s t [.mctp [0, 5, 0, 1, 0x7E]] ∧ t.doe = s.doe) ∧
  (∀ s : State, MctpUp s →
    Completes (.getVendorDefinedMessageSupport 0) s fun t =>
      (∃ b, SendsOnly s t [.mctp ([0, 6, 0, 0xFF, 0] ++ bvBe 2 Config.vendorId ++ b)]) ∧ t.doe = s.doe) ∧
  (∀ (inst : Byte) (kind index : Nat) (w : W32) (s : State), MctpUp s → stateWord s kind index = some w →
    Completes (.readState inst kind index) s fun t =>
      SendsOnly s t [.mctp (mctpData 1 inst 0 (bvLe 4 w))]) ∧
  (∀ (inst : Byte) (kind index : Nat) (s : State), MctpUp s → stateWord s kind index = none →
    Completes (.readState inst kind index) s fun t => SendsOnly s t [.mctp (mctpData 1 inst 3 [])]) ∧
  (∀ (inst : Byte) (comb : Nat) (word : W32) (s : State), MctpUp s → s.ev.mctpWr = false →
    Completes (.combCmd inst comb word) s fun t =>
      SendsOnly s t [.mctp (mctpData 2 inst 4 [])] ∧ t.combs = s.combs) ∧
  (∀ (inst : Byte) (comb : Nat) (word : W32) (s : State), MctpUp s → s.ev.mctpWr = true → comb < combCount →
    bits word.toNat 3 0 = 1 → BitVec.ofNat 16 (word.toNat / 65536) = (s.comb comb).gen →
    (s.comb comb).mode = 3 ∨ (s.comb comb).mode = 5 →
    Completes (.combCmd inst comb word) s fun t =>
      SendsOnly s t [.mctp (mctpData 2 inst 0 (bvLe 4 (t.combWord comb)))] ∧ (t.comb comb).mode = 1) ∧
  (∀ (inst : Byte) (pool c q : Nat) (word : W64) (s : State), MctpUp s → s.ev.mctpWr = true →
    poolOwner s pool = some (c, q) → bits word.toNat 3 0 = 2 →
    CommandTaken s c q 2 (BitVec.ofNat 11 (bits word.toNat 31 21)) .mctp →
    Completes (.queueCmd inst pool word) s fun t =>
      (t.queue c q).state = .paused ∧ t.doe.waits = s.doe.waits ++ [(inst, pool)] ∧ t.out = s.out) ∧
  (∀ (inst : Byte) (pool : Nat) (word : W64) (s : State), MctpUp s → s.ev.mctpWr = true →
    poolOwner s pool = none →
    Completes (.queueCmd inst pool word) s fun t =>
      SendsOnly s t [.mctp (mctpData 3 inst 3 [])] ∧ t.queues = s.queues) ∧
  (∀ (inst : Byte) (s : State), MctpUp s →
    Completes (.readSticky inst) s fun t =>
      SendsOnly s t [.mctp (mctpData 4 inst 0 (bvLe 32 s.aon.sticky))] ∧ t.aon = s.aon) ∧
  (∀ (inst : Byte) (mask : BitVec 256) (s : State), MctpUp s → s.ev.mctpWr = true →
    Completes (.clearSticky inst mask) s fun t =>
      t.aon.sticky = s.aon.sticky &&& ~~~mask ∧
      SendsOnly s t [.mctp (mctpData 5 inst 0 (bvLe 32 (s.aon.sticky &&& ~~~mask)))])

/-! ## Events, the sticky record and the combs (chapter 15) -/

/-- A due event record is written at the tail of the log, or takes the log into overflow; the consumer index moves;
a pending bit clears where a write of one asks for it and the source was not raised on that cycle, a sticky bit where a
write of one asks for it; a route that is enabled signals a pending source. The operand that says what was raised on the
cycle, and ST_FIRST.VALID that clears with an empty record, are the model's choices (log entry 35). -/
def Obligations.EventLog : Prop :=
  (∀ (src tgt a a0 x : Nat) (pasid : Option Nat) (b : Bytes) (s : State), Running s → s.ev.log.cfg.en = true →
    (tblGet {} s.ev.recs src).count ≠ 0 → s.ev.mode = false → s.ev.log.full = false → s.busMaster 0 = true →
    b = patch (evBytes src (tblGet {} s.ev.recs src) false) 0 (bvLe 4 s.ev.log.tail) →
    a0 = s.ev.log.cfg.base.toNat + s.ev.log.tail.toNat % 2 ^ s.ev.log.cfg.size *
      (evBytes src (tblGet {} s.ev.recs src) false).length → InPage a0 b.length →
    windowed s 0 a0 b.length true = some (tgt, a, pasid) → xlated s 0 tgt a pasid true = .to x →
    Completes (.eventRecordWrite src) s fun t =>
      t.ev.log.tail = s.ev.log.tail + 1 ∧ t.ev.recs = tblErase s.ev.recs src ∧ t.ev.mode = false ∧
      Sends s t (PageWrites s 0 tgt a0 x pasid false false b)) ∧
  (∀ (src : Nat) (s : State), Running s → s.ev.log.cfg.en = true → (tblGet {} s.ev.recs src).count ≠ 0 →
    s.ev.mode = false → s.ev.log.full = true →
    Completes (.eventRecordWrite src) s fun t =>
      t.ev.mode = true ∧ t.ev.overflow = true ∧ t.ev.log.tail = s.ev.log.tail ∧ t.out = s.out ∧
      t.aon.sticky.getLsbD 104 = true) ∧
  (∀ (v : W32) (s : State), Running s → s.presented = true → s.ev.mode = false →
    Completes (.evLogConsWrite v) s fun t =>
      t.ev = { s.ev with log :=
        (if ringDist v s.ev.log.cons ≤ ringDist s.ev.log.tail s.ev.log.cons then { s.ev.log with cons := v }
          else { s.ev.log with consErr := true }) }) ∧
  (∀ (i : Nat) (mask raised : W32) (s : State), Running s → s.presented = true → i < 16 →
    Completes (.evPendClear i mask raised) s fun t =>
      (∀ b, b < 32 → t.ev.pend.getLsbD (32 * i + b) =
        (s.ev.pend.getLsbD (32 * i + b) && !(mask.getLsbD b && !raised.getLsbD b))) ∧
      (∀ n, n < 32 * i ∨ 32 * i + 32 ≤ n → t.ev.pend.getLsbD n = s.ev.pend.getLsbD n)) ∧
  (∀ (v : W32) (r : Route) (s : State), Running s → s.presented = true →
    r = { en := v.getLsbD 0, log := v.getLsbD 1, vec := bits v.toNat 12 2 } →
    Completes (.evRouteWrite v) s fun t =>
      t.ev.routes = tblSet {} s.ev.routes s.ev.routeSel r ∧ t.ev.pend = s.ev.pend ∧
      (r.en = true → (s.route s.ev.routeSel).en = false → s.ev.pend.getLsbD s.ev.routeSel = true →
        r.vec < (s.tenant 0).vectors → r.vec ∈ (t.func 0).due)) ∧
  (∀ (i : Nat) (mask : W32) (s : State), Running s → s.presented = true → i < 8 →
    Completes (.stickyClear i mask) s fun t =>
      (∀ b, b < 32 → t.aon.sticky.getLsbD (32 * i + b) =
        (s.aon.sticky.getLsbD (32 * i + b) && !mask.getLsbD b)) ∧
      (∀ n, n < 32 * i ∨ 32 * i + 32 ≤ n → t.aon.sticky.getLsbD n = s.aon.sticky.getLsbD n) ∧
      (t.aon.sticky = 0 → t.aon.firstOk = false))

/-- A comb's commands: ONLINE from OFFLINE or FAULT, OFFLINE while another comb is online; a stale GEN, and what
neither allows, change only the result; a draining comb with no work left is OFFLINE. That a stale GEN is judged before
a refusal, and before a reserved OP, is the model's choice (log entry 36). -/
def Obligations.CombCommands : Prop :=
  (∀ (comb : Nat) (gen : BitVec 16) (s : State), Running s → Up s → comb < combCount → gen = (s.comb comb).gen →
    (s.comb comb).mode = 3 ∨ (s.comb comb).mode = 5 →
    Completes (.cbCmdOnline comb gen) s fun t =>
      (t.comb comb).mode = 1 ∧ (t.comb comb).faultCell = 0 ∧ (t.comb comb).cmdResult = 0 ∧
      ((s.comb comb).before = s.combByte comb → (t.comb comb).gen = gen + 1) ∧ OtherCombs comb s t) ∧
  (∀ (comb d : Nat) (gen : BitVec 16) (s : State), Running s → Up s → comb < combCount →
    gen = (s.comb comb).gen → (s.comb comb).mode = 1 → d < combCount → d ≠ comb → (s.comb d).mode = 1 →
    Completes (.cbCmdOffline comb gen) s fun t =>
      (t.comb comb).mode = 2 ∧ (t.comb comb).cmdResult = 0 ∧
      ((s.comb comb).before = s.combByte comb → (t.comb comb).gen = gen + 1) ∧ OtherCombs comb s t) ∧
  (∀ (comb : Nat) (gen : BitVec 16) (s : State), Running s → Up s → comb < combCount →
    gen = (s.comb comb).gen → (∀ d, d < combCount → d ≠ comb → (s.comb d).mode ≠ 1) →
    Completes (.cbCmdOffline comb gen) s fun t =>
      t.comb comb = { s.comb comb with cmdResult := 2 } ∧ OtherCombs comb s t) ∧
  (∀ (comb : Nat) (gen : BitVec 16) (s : State), Running s → Up s → comb < combCount →
    gen = (s.comb comb).gen → (s.comb comb).mode ≠ 3 → (s.comb comb).mode ≠ 5 →
    Completes (.cbCmdOnline comb gen) s fun t =>
      t.comb comb = { s.comb comb with cmdResult := 2 } ∧ OtherCombs comb s t) ∧
  (∀ (comb : Nat) (gen : BitVec 16) (s : State), Running s → Up s → comb < combCount → gen ≠ (s.comb comb).gen →
    Completes (.cbCmdOnline comb gen) s (fun t =>
      t.comb comb = { s.comb comb with cmdResult := 1 } ∧ OtherCombs comb s t) ∧
    Completes (.cbCmdOffline comb gen) s (fun t =>
      t.comb comb = { s.comb comb with cmdResult := 1 } ∧ OtherCombs comb s t)) ∧
  (∀ (comb : Nat) (word : W32) (s : State), Running s → Up s → comb < combCount → 2 < bits word.toNat 3 0 →
    Completes (.cbCmdInvalid comb word) s fun t =>
      t.comb comb = { s.comb comb with cmdResult :=
        (if BitVec.ofNat 16 (word.toNat / 65536) = (s.comb comb).gen then 2 else 1) } ∧ OtherCombs comb s t) ∧
  (∀ (comb : Nat) (s : State), Running s → comb < combCount → (s.comb comb).mode = 2 → combInUse s comb = false →
    Completes (.combDrainEnd comb) s fun t => (t.comb comb).mode = 3 ∧ OtherCombs comb s t)

/-! ## Tamper (chapter 14) -/

/-- What the always-on domain does in a tamper response of source `src`: the latch, the sticky bits, TAMPERED, the
lane closed and the scramble key cleared. -/
def Sys2Proof.Marked (src : Nat) (s t : State) : Prop :=
  t.aon.latch.getLsbD src = true ∧ t.aon.sticky.getLsbD (80 + src) = true ∧ t.aon.sticky.getLsbD 87 = true ∧
  t.aon.tampered = true ∧ t.aon.responding = true ∧ t.aon.count = satAdd 65535 s.aon.count 1 ∧
  t.ks.zeroising = some .tamper ∧ t.ks.scramble = none

/-- What it does where the clocks run, at once or when they return: the ladder and the propolis engine are cleared,
every queue that uses keys is frozen, every keyed job that ran ends TAMPER_ABORT with no output, no signer is left. -/
def Sys2Proof.Cleared (s t : State) : Prop :=
  t.ks.hrk = none ∧ t.ks.psk = none ∧ t.ks.devSeed = none ∧ t.ks.ppDrbg = none ∧ t.ks.zPend = false ∧
  t.wg.signer = false ∧ (∀ c, (t.comb c).nonces = [] ∧ (t.comb c).drbg = {}) ∧
  (∀ c q, (c, q) ∈ keyedQueues s → (t.queue c q).state = .frozen ∧ (t.queue c q).stop = qerrFrozen) ∧
  (∀ id, s.hasJob id = true → keyedJob s (s.job id) = true → (s.job id).stage = .run → t.hasJob id = true →
    (t.job id).status = stTamper ∧ (t.job id).output = [])

/-- A whole tamper response of source `src`. -/
def Sys2Proof.Responds (src : Nat) (s t : State) : Prop := Marked src s t ∧ Cleared s t

/-- The keys, queues, jobs, and the response state are as they were. -/
def Sys2Proof.NoResponse (s t : State) : Prop :=
  t.aon.tampered = s.aon.tampered ∧ t.aon.count = s.aon.count ∧ t.ks = s.ks ∧ t.queues = s.queues ∧ t.jobs = s.jobs

/-- The keeper has nothing to take up, and no access is held. -/
def Sys2Proof.NothingWaits (s : State) : Prop :=
  s.hv.heldCmds = [] ∧ s.adm.running = none ∧ s.doe.held = none ∧ s.store.updBusy = false

/-- A response that abandons the entry into sleep serves no access that was held (R447, R463). -/
def Sys2Proof.NothingHeld (s : State) : Prop := s.hv.pwr = 0 ∨ s.hv.heldCmds = []

/-- The tamper sources. TAMPER_IN responds where it is armed and is only latched where it is not; the voltage monitor
responds once it has armed, to undervoltage only while HIVE_RST_N is high, and the loss of VDDIO_AON trips the
inputs; the clock and temperature sources always respond. A source back at its intact level changes only what it
reads, and the first moment at which every supply is within tolerance is kept for the arming of the monitor. While the
root PLL is unlocked only the always-on part of the response is done, and the rest follows when the clocks return.
TP_LATCH clears bits whose source reads intact. That each armed trip counts a response, and what acts while the PLL is
unlocked (log entry 40), and the edges, the arming and the reading of a lost VDDIO_AON (log entry 68) are the model's
choices. -/
def Obligations.TamperSources : Prop :=
  (∀ (n : Nat) (s : State), Running s → NothingHeld s → n < 4 → s.aon.arm.getLsbD n = true →
    Completes (.tamperInTrip n true) s fun t => Responds n s t) ∧
  (∀ (n : Nat) (s : State), Running s → n < 4 → s.aon.arm.getLsbD n = false →
    Completes (.tamperInTrip n true) s fun t =>
      t.aon.latch.getLsbD n = true ∧ t.aon.sticky.getLsbD (80 + n) = true ∧ NoResponse s t) ∧
  (∀ (n : Nat) (s : State), Running s → n < 4 →
    Completes (.tamperInTrip n false) s fun t => t = { s with aon := { s.aon with ins := setBit s.aon.ins n false } }) ∧
  (∀ (d : Fin 5) (s : State), Running s → NothingHeld s → s.aon.monitor = true →
    Completes (.voltageTrip d .surge) s fun t => Responds 4 s t ∧ t.aon.high = setBit s.aon.high d.val true) ∧
  (∀ (d : Fin 5) (s : State), Running s → NothingHeld s → s.aon.monitor = true → s.hv.rstHeld = false →
    d.val ≠ domVddioAon →
    Completes (.voltageTrip d .sag) s fun t => Responds 4 s t ∧ t.aon.low = setBit s.aon.low d.val true) ∧
  (∀ (d : Fin 5) (s : State), Running s → s.aon.monitor = false ∨ s.hv.rstHeld = true → d.val ≠ domVddioAon →
    Completes (.voltageTrip d .sag) s fun t =>
      t.aon.latch = s.aon.latch ∧ t.aon.low = setBit s.aon.low d.val true ∧ NoResponse s t) ∧
  (∀ (n : Nat) (s : State), Running s → NothingHeld s → n < 4 → s.live.getLsbD n = false →
    Completes (.voltageTrip 3 .sag) s fun t =>
      t.aon.latch.getLsbD n = true ∧ t.aon.sticky.getLsbD (80 + n) = true) ∧
  (∀ (d : Fin 5) (r : Supply) (s : State), Running s → r = .outside ∨ r = .within →
    Completes (.voltageTrip d r) s fun t =>
      t = { s with aon := { s.aon with
        high := setBit s.aon.high d.val false, low := setBit s.aon.low d.val false,
        outside := setBit s.aon.outside d.val (r == .outside)
        goodAt := if s.hv.powered = true ∧ s.aon.goodAt = none ∧ (setBit s.aon.high d.val false |||
            setBit s.aon.low d.val false ||| setBit s.aon.outside d.val (r == .outside)) = 0
          then some s.aon.cycles else s.aon.goodAt } }) ∧
  (∀ s : State, Running s → NothingHeld s → s.hv.rootLock = true →
    Completes .pllLockLoss s fun t =>
      Marked 5 s t ∧ t.ks.zPend = true ∧ t.ks.hrk = s.ks.hrk ∧ t.queues = s.queues ∧ t.hv.rootLock = false ∧
      t.hv.fclk = false ∧ t.hv.cclk = false ∧ t.hv.kclk = false ∧ t.hv.xclk = false ∧
      t.hv.lockLoss = satAdd 255 s.hv.lockLoss 1 ∧ t.aon.sticky.getLsbD 92 = true) ∧
  (∀ s : State, s.Inv → s.hv.rootLock = false → 3 ≤ s.hv.step → s.hv.pwr = 0 → s.ks.zeroising = some .tamper →
    s.ks.zPend = true → NothingWaits s →
    Completes (.pllRelockRetry true) s fun t =>
      Cleared s t ∧ t.aon.unlock = false ∧ t.hv.rootLock = true ∧ t.hv.fclk = true ∧ t.hv.cclk = true ∧
      t.hv.kclk = true ∧ t.hv.xclk = true) ∧
  (∀ s : State, Running s → NothingHeld s → Completes (.refclkFrequencyTrip true) s fun t => Responds 5 s t) ∧
  (∀ s : State, Running s →
    Completes (.refclkFrequencyTrip false) s fun t => t = { s with aon := { s.aon with refOut := false } }) ∧
  (∀ s : State, Running s → NothingHeld s → Completes (.temperatureTrip true) s fun t => Responds 6 s t) ∧
  (∀ s : State, Running s →
    Completes (.temperatureTrip false) s fun t => t = { s with aon := { s.aon with hot := false } }) ∧
  (∀ (mask : BitVec 7) (s : State), Running s → s.presented = true →
    Completes (.tpLatchClear mask) s fun t =>
      t.aon = { s.aon with latch := s.aon.latch &&& ~~~(mask &&& ~~~s.live) })

/-! ## Life cycle and debug (chapter 14) -/

/-- The life-cycle group answers, and no transition runs. -/
def Sys2Proof.LcFree (s : State) : Prop := Running s ∧ s.presented = true ∧ s.lc.busy = none

/-- The programming of a transition has begun, into the next free journal entry: no word is programmed yet. -/
def Sys2Proof.LcBegun (s t : State) : Prop :=
  ∃ r, t.lc.run = some r ∧ r.entry = s.otp.nextEntry ∧ r.words = 0 ∧ r.since = s.aon.cycles ∧ t.otp = s.otp

/-- A request that passes every check of R395 and needs no zeroisation first: the programming of its words begins. -/
def Sys2Proof.LcStarts (c : BitVec 16 → Instr) (target : Nat) : Prop :=
  ∀ (confirm : BitVec 16) (s : State), LcFree s → lcIssue s target confirm.toNat = 0 →
    Completes (c confirm) s fun t =>
      t.lc.busy = some target ∧ LcBegun s t ∧
      t.lc.word = s.lc.word ∧ (isUnlocked target = true → t.lc.token = 0) ∧
      t.lc.tokenFails = s.lc.tokenFails ∧ t.ks = s.ks ∧ t.queues = s.queues ∧ t.jobs = s.jobs

/-- RMA and SCRAP zeroise before the journal is written. -/
def Sys2Proof.LcZeroises (c : BitVec 16 → Instr) (target : Nat) : Prop :=
  ∀ (confirm : BitVec 16) (s : State), LcFree s → lcIssue s target confirm.toNat = 0 →
    Completes (c confirm) s fun t =>
      t.lc.busy = some target ∧ t.lc.run = none ∧ t.otp = s.otp ∧ t.lc.word = s.lc.word ∧
      t.ks.zeroising ≠ none ∧ t.ks.hrk = none ∧ t.ks.psk = none ∧ t.ks.devSeed = none ∧
      t.ks.zErase = (s.ks.zErase || target == 0x0600) ∧ t.queues = s.queues

/-- On an empty queue, an FCLK edge on which nothing else of R34 is due but the programming of a life-cycle word. -/
def Sys2Proof.OtpEdge (s : State) (r : OtpRun) : Prop :=
  s.pending = [] ∧ closeDue s = false ∧ s.adm.fenced = none ∧ ckptDue s = false ∧ BareEdge s ∧ s.lc.run = some r

/-- Life-cycle transitions: a request that passes begins to program its words, or zeroises first and begins when the
zeroisation ends; one that fails ends with the RESULT of the first failed check and programs nothing. The words, in each
of their three copies, are the intent word of the next free journal entry, for PROVISIONED the owner field with its
CRC, the target's bit of the life-cycle word, and the done word; each is programmed when its 5,000 AON cycles have
passed, none before, and the end programs what is left and restarts. The zeroisation before the journal of RMA and
SCRAP and the corners of the checks (log entry 41), and the time of a word and the order of the owner field's copies
(log entry 88) are the model's choices. -/
def Obligations.LifeCycleTransitions : Prop :=
  (∀ k, k < 8 → LcStarts (.lcToTestUnlocked k) (0x0100 + k)) ∧
  (∀ k, k < 8 → LcStarts (.lcToTestLocked k) (0x0200 + k)) ∧
  LcStarts .lcToManufactured 0x0300 ∧
  (∀ (confirm : BitVec 16) (s : State), LcFree s → lcIssue s 0x0400 confirm.toNat = 0 →
    Completes (.lcToProvisioned confirm) s fun t =>
      t.lc.busy = some 0x0400 ∧ LcBegun s t ∧ t.lc.word = s.lc.word ∧
      (∃ (r : OtpRun) (hash : Bytes), t.lc.run = some r ∧
        hash = fit ((List.range 12).flatMap fun i => bvLe 4 (tblGet 0 s.lc.ownerHash i)) 48 ∧ r.field < 3 ∧
        ownerUsed ((s.otp.owner[r.field]?).getD ([], [], [])) = false ∧ r.owner = hash ++ bvLe 4 (crc32c hash)) ∧
      t.queues = s.queues ∧ t.jobs = s.jobs) ∧
  LcZeroises .lcToRma 0x0500 ∧ LcZeroises .lcToScrap 0x0600 ∧
  (∀ (target confirm : BitVec 16) (s : State), LcFree s → lcIssue s target.toNat confirm.toNat ≠ 0 →
    Completes (.lcTransitionRefused target confirm) s fun t =>
      t.lc.result = lcIssue s target.toNat confirm.toNat ∧ t.lc.busy = none ∧ t.otp = s.otp ∧
      t.lc.word = s.lc.word ∧ t.ev.pend.getLsbD 259 = true ∧
      (lcIssue s target.toNat confirm.toNat = 3 →
        t.lc.token = 0 ∧ t.lc.tokenFails = satAdd 3 s.lc.tokenFails 1)) ∧
  (∀ (target : Nat) (s : State), s.Inv → s.ks.zeroising = some .lifecycle → s.hv.kclk = true →
    s.ks.zPend = false → s.lc.busy = some target → s.lc.run = none →
    Completes .zeroisationStep5Done s fun t => t.ks.zeroising = none ∧ t.lc.busy = some target ∧ LcBegun s t) ∧
  (∀ (w : OtpWord) (v : W32) (l : List (OtpWord × W32)) (r : OtpRun) (s : State), OtpEdge s r →
    otpLeft s = (w, v) :: l → r.since + 5000 * (r.words + 1) ≤ s.aon.cycles →
    ∃ t, step s = .next t ∧ t.otp = s.otp.put w v ∧ t.lc = { s.lc with run := some { r with words := r.words + 1 } }) ∧
  (∀ (r : OtpRun) (s : State), OtpEdge s r → s.aon.cycles + 1 < r.since + 5000 * (r.words + 1) →
    ∃ t, step s = .next t ∧ t.otp = s.otp ∧ t.lc = s.lc) ∧
  (∀ (target : Nat) (r : OtpRun) (s : State), Running s → s.lc.busy = some target → s.lc.run = some r →
    targetBit target < 32 →
    Completes .lcTransitionOtpDone s fun t =>
      t.otp = s.otp.putWords (otpLeft s) ∧
      (r.words = 0 → t.otp.lc = s.otp.lc.program (1#32 <<< targetBit target) ∧
        t.otp.lc.voted.getLsbD (targetBit target) = true ∧
        (r.entry < 20 →
          (t.otp.entry r.entry).intent = (s.otp.entry r.entry).intent.program (intentWord target) ∧
          (t.otp.entry r.entry).done = (s.otp.entry r.entry).done.program 1)) ∧
      t.hv.step = (if s.hv.rstHeld = true then 0 else 1) ∧ t.hv.warm = true ∧
      t.queues = [] ∧ t.jobs = [] ∧ t.store.mram = s.store.mram ∧ t.aon.sticky = s.aon.sticky)

/-- A response is under verification by a keeper that runs. -/
def Sys2Proof.Verifies (s : State) : Prop :=
  Running s ∧ s.lc.dbgState = 2 ∧ s.lc.subst = none ∧ s.keeperOk = true

/-- Debug: a challenge is issued where R400 permits it, its response verified once, and a grant of DEBUG waits for
the references to production keys before the key store zeroises. While debug is open the port halts and releases
the keeper, reads and writes its 4 MiB of RAM, and in the test states enters the test modes and programs tokens; a
single step shows nothing that the rules name; closed, it does nothing. That a new request replaces a challenge, and
what is ignored (log entry 42), and the keeper RAM, the test modes and the token bits (log entry 69) are the model's
choices. -/
def Obligations.DebugAuthorisation : Prop :=
  (∀ s : State, Running s → dbgPermitted s 1 = true →
    Completes .lcDbgReqDebug s fun t =>
      t.lc.dbgState = 1 ∧ t.lc.chalOut = true ∧ t.lc.chal = challenge s 1 s.trng.1 ∧
      t.trngN = s.trngN + 1 ∧ t.lc.fails = s.lc.fails) ∧
  (∀ s : State, Running s → dbgPermitted s 2 = true →
    Completes .lcDbgReqRma s fun t =>
      t.lc.dbgState = 1 ∧ t.lc.chalOut = true ∧ t.lc.chal = challenge s 2 s.trng.1 ∧
      t.trngN = s.trngN + 1 ∧ t.lc.fails = s.lc.fails) ∧
  (∀ s : State, Running s → dbgPermitted s 1 = false → Completes .lcDbgReqDebug s fun t => t.lc = s.lc) ∧
  (∀ s : State, Running s → s.presented = true → s.lc.chalOut = true → s.lc.dbgState = 1 →
    Completes .lcRespCommit s fun t =>
      t.lc = { s.lc with runAddr := s.lc.respAddr, runLen := s.lc.respLen, dbgState := 2 } ∧
      t.ev.pend.getLsbD 260 = true) ∧
  (∀ (read : ReadEnd) (resp : Bytes) (s : State), Verifies s → (readResponse s read).1 = .issued →
    Completes (.debugAuthVerifyDone read resp) s fun t =>
      (if read = .ok ∧ responseOk s resp = true
        then t.lc = (if leAt s.lc.chal 5 1 = 2
          then { s.lc with chal := [], chalOut := false, rmaGrant := true, dbgState := 3 }
          else { s.lc with chal := [], chalOut := false, subst := some s.hv.tick, substDue := false })
        else t.lc = { s.lc with chal := [], chalOut := false, fails := satAdd 4 s.lc.fails 1, dbgState := 4 } ∧
          t.aon.sticky.getLsbD 102 = true)) ∧
  (∀ (read : ReadEnd) (resp : Bytes) (s : State), Verifies s →
    (readResponse s read).1 = .refused ∨ (readResponse s read).1 = .denied →
    Completes (.debugAuthVerifyDone read resp) s fun t =>
      t.lc = { s.lc with chal := [], chalOut := false, fails := satAdd 4 s.lc.fails 1, dbgState := 4 } ∧
      t.aon.sticky.getLsbD 102 = true) ∧
  (∀ (read : ReadEnd) (resp : Bytes) (s : State), Verifies s → (readResponse s read).1 = .waits →
    Completes (.debugAuthVerifyDone read resp) s fun t => t.lc = s.lc) ∧
  (∀ (t0 : Nat) (s : State), Running s → s.lc.subst = some t0 → s.lc.substDue = false →
    t0 + 12000000 ≤ s.hv.tick →
    Completes .substitutionRefDeadline s fun t =>
      t.lc = { s.lc with substDue := true } ∧
      ∀ id, s.hasJob id = true → holdsProduction s (s.job id) = true →
        (t.job id).status = stOrphaned ∧ (t.job id).detail = 0x03 ∧ (t.job id).output = [] ∧
        (t.job id).refs = []) ∧
  (∀ s : State, Running s → s.lc.subst ≠ none → s.ks.zeroising = none →
    s.jobsWith (holdsProduction s) = [] →
    Completes .substitutionZeroise s fun t =>
      t.ks.zeroising = some .substitution ∧ t.ks.zErase = s.ks.zErase ∧ t.ks.hrk = none ∧
      t.ks.devSeed = none ∧ t.wg.signer = false ∧ t.store = s.store ∧
      ∀ id, t.job id = { s.job id with keyShare := [], lane2 := [] }) ∧
  (∀ s : State, Running s → s.lc.debugOpen = true →
    Completes (.debugKeeperHalt .halt) s fun t => t.hv = { s.hv with dbgHalt := true } ∧ t.jobs = s.jobs) ∧
  (∀ s : State, Running s → s.lc.debugOpen = true →
    Completes (.debugKeeperHalt .run) s fun t => t.hv.dbgHalt = false) ∧
  (∀ s : State, Running s → s.lc.debugOpen = true →
    Completes (.debugKeeperHalt .step) s fun t => t = s) ∧
  (∀ (a : Nat) (s : State), Running s → s.lc.debugOpen = true →
    Completes (.debugKeeperHalt (.ramRead a)) s fun t =>
      t = { s with resp := ((s.hv.ram[a]?).getD 0).setWidth 64 }) ∧
  (∀ (a : Nat) (x : Byte) (s : State), Running s → s.lc.debugOpen = true → ramSize ≤ a →
    Completes (.debugKeeperHalt (.ramWrite a x)) s fun t => t = s) ∧
  (∀ (a : Nat) (x : Byte) (s : State), Running s → s.lc.debugOpen = true → a < ramSize →
    Completes (.debugKeeperHalt (.ramWrite a x)) s fun t =>
      t.hv.ram[a]? = some x ∧ (∀ k, k ≠ a → k < s.hv.ram.length → t.hv.ram[k]? = s.hv.ram[k]?) ∧ t.jobs = s.jobs) ∧
  (∀ s : State, Running s → s.lc.debugOpen = true → testable s = true →
    Completes (.debugKeeperHalt .scan) s (fun t => t.hv = { s.hv with testMode := 1 }) ∧
    Completes (.debugKeeperHalt .memTest) s (fun t => t.hv = { s.hv with testMode := 2 })) ∧
  (∀ (k : Nat) (v : BitVec 128) (s : State), Running s → s.lc.debugOpen = true → s.lcCode = 0 →
    s.hv.testMode ≠ 0 → k < 8 →
    Completes (.debugKeeperHalt (.token k v)) s fun t =>
      ((t.otp.tokens[k]?).getD (0, false)).1 = ((s.otp.tokens[k]?).getD (0, false)).1 ||| v ∧ t.otp.lc = s.otp.lc) ∧
  (∀ (c : DbgCmd) (s : State), s.lc.debugOpen = false →
    Completes (.debugKeeperHalt c) s fun t => t = s)

/-! ## Start-up, update, sleep (chapters 13 and 16) -/

/-- The sticky record and the latches of the always-on domain, the OTP array, the persistent store and the GEN of
every key slot outlive a warm reset; queues, jobs, contexts, keys and tenants do not. Of the word that a transition was
programming any bits may be programmed (R399; log entry 88). -/
def Sys2Proof.Restarted (warm : Bool) (s t : State) : Prop :=
  t.hv.warm = warm ∧ t.hv.ready = false ∧ t.otp = (cutOtp s).otp ∧ t.store.mram = s.store.mram ∧
  t.store.flashA = s.store.flashA ∧ t.store.flashB = s.store.flashB ∧ t.queues = [] ∧ t.jobs = [] ∧
  (∀ p, t.slot p = if warm then { gen := (s.slot p).gen } else {}) ∧ t.tenants = [] ∧ t.ctxs = [] ∧
  t.aon.sticky = (if warm then s.aon.sticky else 0) ∧
  t.aon.latch = (if warm then s.aon.latch else 0)

/-- The next step of start-up may end. -/
def Sys2Proof.StartsUp (s : State) (n : Nat) : Prop :=
  s.Inv ∧ s.hv.rstHeld = false ∧ s.hv.halted = false ∧ s.hv.ready = false ∧ s.hv.step = n ∧
  (2 < n → s.hv.rootLock = true) ∧ (n = 1 → railsIn s = true)

/-- The active root is the production root (R213, R215). -/
def Sys2Proof.NeedsProduction (s : State) : Prop :=
  s.aon.tampered = false ∧ s.lcCode ≠ 0x0600 ∧ testRooted s.lcCode s.lc.debugOpen = false

/-- Resets by each cause, the steps of start-up, the PLL that does not lock, SVN programming and keeper restarts.
HIVE_RST_N that is asserted finishes the write of a record that had begun, resets the Hive and holds it at step 0; on a
part without power or inert in SCRAP it is only held. An uncorrectable error in keeper RAM repeats step 4 once; after a
second one the bank that was chosen stands as the active one, and recovery mode begins. Step 5 derives the ladder from
the test root, or from the production root, which it generates on the first start in MANUFACTURED; where the production
root is required and cannot be read, ROOT_FAIL sets. Step 7 applies the configuration records, or their defaults, and in
recovery mode opens the host's addresses to the manager's reads; step 8 creates the manager's tenant with the counts and
the windows of the image, in recovery mode none. Slot GEN kept over a warm reset (log entry 5), sticky bit 89 at the end
of step 3 (log entry 30), and the order of a reset and a power-on (log entry 44) are the model's choices. -/
def Obligations.StartUp : Prop :=
  (∀ s : State, s.Inv → Completes .coldPowerOn s fun t =>
    Restarted false s t ∧ t.hv.step = (if s.hv.rstHeld = true then 0 else 1) ∧ t.hv.rstHeld = s.hv.rstHeld) ∧
  (∀ s : State, s.Inv → inert s = false → s.presented = true → s.hv.rstHeld = false →
    Completes (.warmReset .hvReset) s fun t => Restarted true s t ∧ t.hv.step = 1) ∧
  (∀ s : State, s.Inv → s.hv.powered = true → inert s = false → s.hv.rstHeld = true →
    Completes (.warmReset .hiveRst) s fun t => Restarted true s t ∧ t.hv.step = 1 ∧ t.hv.rstHeld = false) ∧
  (∀ s : State, s.Inv → s.hv.powered = true → inert s = false → s.hv.rstHeld = false →
    Completes (.warmReset .hiveRst) s fun t =>
      Restarted true (finishBegun s) t ∧ t.hv.step = 1 ∧ t.hv.rstHeld = false) ∧
  (∀ s : State, s.Inv → inert s = false → s.rom = false → s.hv.rstHeld = false → s.hv.step ≠ 0 →
    Completes (.warmReset .endpoint) s fun t => Restarted true s t ∧ t.hv.step = 1) ∧
  (∀ s : State, s.Inv → s.hv.powered = true → inert s = false → s.hv.rstHeld = false →
    Completes .hiveRstNAssert s fun t =>
      Restarted true (finishBegun s) t ∧ t.hv.step = 0 ∧ t.hv.rstHeld = true) ∧
  (∀ (e : Nat) (s : State), s.Inv → s.hv.powered = true → inert s = false → s.hv.rstHeld = false →
    resSlots s = [] → s.wg.eresNext = some e → mramOn s = true → s.ks.testRoot = false →
    Completes .hiveRstNAssert s fun t => t.recValue 0x11 = some (resPayload e)) ∧
  (∀ s : State, s.hv.powered = false ∨ inert s = true →
    Completes .hiveRstNAssert s fun t => t = { s with hv := { s.hv with rstHeld := true } }) ∧
  (∀ (ins : BitVec 4) (ecc : Ecc) (s : State), StartsUp s 1 → ecc ≠ .uncorrectable → s.otp.nextEntry = 0 →
    lcOf s.otp.lc.voted ≠ 0x0600 →
    Completes (.startupStepDone ins ecc) s fun t =>
      t.lc.word = s.otp.lc.voted ∧ t.hv.step = 2 ∧ t.otp = s.otp ∧ t.aon.ins = ins ∧
      t.lc.debugOpen = debugAtStart (lcOf s.otp.lc.voted)) ∧
  (∀ (ins : BitVec 4) (ecc : Ecc) (s : State), StartsUp s 1 →
    lcOf s.otp.lc.voted = 0x0600 ∨ ecc = .uncorrectable →
    Completes (.startupStepDone ins ecc) s fun t =>
      t.lcCode = 0x0600 ∧ t.hv.halted = true ∧ t.hv.step = 1 ∧ t.lc.debugOpen = false ∧ t.otp = s.otp ∧
      t.aon.ins = ins ∧
      (s.aon.latch = 0 → ({ s with aon := { s.aon with ins := ins } } : State).live = 0 → t.aon.tampered = false)) ∧
  (∀ (ins : BitVec 4) (ecc : Ecc) (s : State), StartsUp s 2 →
    Completes (.startupStepDone ins ecc) s fun t =>
      t.hv.fclk = true ∧ t.hv.cclk = true ∧ t.hv.kclk = true ∧ t.hv.xclk = true ∧ t.hv.rootLock = true ∧
      t.aon.monitor = s.aon.monitor ∧ t.hv.step = 3) ∧
  (∀ (ins : BitVec 4) (ecc : Ecc) (s : State), StartsUp s 3 →
    Completes (.startupStepDone ins ecc) s fun t =>
      t.hv.keeperUp = true ∧ t.hv.step = 4 ∧ t.ks.scramble ≠ none ∧ t.ks.ppDrbg ≠ none ∧
      (s.hv.warm = true → t.aon.sticky.getLsbD 89 = true)) ∧
  (∀ (ins : BitVec 4) (ecc : Ecc) (s : State), StartsUp s 4 → ecc ≠ .uncorrectable →
    Completes (.startupStepDone ins ecc) s fun t =>
      t.hv.step = 5 ∧
      (match (chooseBank s.otp s.lcCode s.store.flashA s.store.flashB).2.2 with
        | none => t.hv.recovery = true ∧ t.hv.fail = (if acceptsImages s.lcCode then 2 else 3) ∧
            t.aon.sticky.getLsbD 95 = true
        | some k => t.store.active = k ∧ t.hv.recovery = s.hv.recovery ∧
            t.hv.fw = imgFw (if k = 1 then s.store.flashB else s.store.flashA) ∧
            t.hv.fwHash = sha384 t.hv.fw ∧ t.hv.ram = t.hv.fw)) ∧
  (∀ (ins : BitVec 4) (s : State), StartsUp s 4 → s.hv.ramRetry = false →
    Completes (.startupStepDone ins .uncorrectable) s fun t =>
      t.hv.step = 4 ∧ t.hv.ramRetry = true ∧ t.hv.recovery = s.hv.recovery ∧ t.hv.ram = s.hv.ram ∧ t.store = s.store ∧
      t.aon.sticky.getLsbD 69 = true) ∧
  (∀ (ins : BitVec 4) (s : State), StartsUp s 4 → s.hv.ramRetry = true →
    Completes (.startupStepDone ins .uncorrectable) s fun t =>
      t.hv.step = 5 ∧ t.hv.recovery = true ∧ t.hv.ram = s.hv.ram ∧ t.aon.sticky.getLsbD 69 = true ∧
      t.aon.sticky.getLsbD 95 = true ∧
      (match (chooseBank s.otp s.lcCode s.store.flashA s.store.flashB).2.2 with
        | none => t.hv.fail = (if acceptsImages s.lcCode then 2 else 3) ∧ t.store.active = s.store.active
        | some k => t.hv.fail = 4 ∧ t.store.active = k ∧
            t.store.cfSvn = imgSvn (if k = 1 then s.store.flashB else s.store.flashA))) ∧
  (∀ (ins : BitVec 4) (ecc : Ecc) (s : State), StartsUp s 5 → s.aon.tampered = false →
    testRooted s.lcCode s.lc.debugOpen = true →
    Completes (.startupStepDone ins ecc) s fun t =>
      t.hv.step = 6 ∧ t.ks.testRoot = true ∧
      t.ks.hrk = some (kdf (bvBe 32 Config.testRoot) (ascii "QHV1 HRK") [2] 32) ∧ t.otp = s.otp) ∧
  (∀ (ins : BitVec 4) (ecc : Ecc) (b : Bytes) (s : State), StartsUp s 5 → NeedsProduction s → ecc ≠ .uncorrectable →
    s.ks.rootFail = false → productionRoot s.otp = some b →
    Completes (.startupStepDone ins ecc) s fun t =>
      t.hv.step = 6 ∧ t.ks.testRoot = false ∧ t.ks.rootFail = false ∧
      t.ks.hrk = some (kdf b (ascii "QHV1 HRK") [1] 32) ∧ t.otp = s.otp) ∧
  (∀ (ins : BitVec 4) (ecc : Ecc) (b : Bytes) (s : State), StartsUp s 5 → NeedsProduction s → ecc ≠ .uncorrectable →
    s.ks.rootFail = false → s.lcCode = 0x0300 → productionRoot s.otp = none → s.otp.freeRoot ≠ none →
    s.ks.entropyFail = false → b = bvBe 32 (BitVec.ofNat 256 (beNat (s.trng.1.take 32))) →
    Completes (.startupStepDone ins ecc) s fun t =>
      t.hv.step = 6 ∧ t.ks.testRoot = false ∧ t.ks.rootFail = false ∧ productionRoot t.otp = some b ∧
      t.ks.hrk = some (kdf b (ascii "QHV1 HRK") [1] 32)) ∧
  (∀ (ins : BitVec 4) (ecc : Ecc) (s : State), StartsUp s 5 → NeedsProduction s →
    ecc = .uncorrectable ∨ productionRoot s.otp = none ∧
      (s.lcCode ≠ 0x0300 ∨ s.ks.entropyFail = true ∨ s.otp.freeRoot = none) →
    Completes (.startupStepDone ins ecc) s fun t =>
      t.hv.step = 6 ∧ t.ks.testRoot = false ∧ t.ks.rootFail = true ∧ t.aon.sticky.getLsbD 88 = true ∧
      t.ks.hrk = s.ks.hrk ∧ t.otp = s.otp) ∧
  (∀ (ins : BitVec 4) (ecc : Ecc) (s : State), StartsUp s 5 → s.aon.tampered = true →
    Completes (.startupStepDone ins ecc) s fun t =>
      t.hv.step = 6 ∧ t.ks.testRoot = testRooted s.lcCode s.lc.debugOpen ∧ t.ks.hrk = s.ks.hrk ∧ t.otp = s.otp) ∧
  (∀ (ins : BitVec 4) (ecc : Ecc) (s : State), StartsUp s 6 →
    Completes (.startupStepDone ins ecc) s fun t => t.store.scanned = true ∧ t.hv.step = 7) ∧
  (∀ (ins : BitVec 4) (ecc : Ecc) (l : List (Nat × Bytes)) (s : State), StartsUp s 7 → l = activeCfg s →
    Completes (.startupStepDone ins ecc) s fun t =>
      t.hv.step = 8 ∧ t.hi.cfg = BitVec.ofNat 4 (leAt (imgVal l 0x01) 0 4) ∧
      t.hi.rom = bit (leAt (imgVal l 0x01) 0 4) 0 ∧
      t.hi.numVf = leAt (imgVal l 0x02) 0 2 ∧ t.hi.idleUs = leAt (imgVal l 0x03) 0 2 ∧
      t.hi.wttA = imgWtt l s.hv.recovery ∧ t.hi.wttActive = false ∧ t.sync.cfg = syncOfRec (imgVal l 0x30) ∧
      t.wg.periodMs = leAt (imgVal l 0x31) 0 2 ∧ t.wg.ckptS = leAt (imgVal l 0x31) 2 2 ∧
      t.wg.sigAlg = leAt (imgVal l 0x31) 4 1 ∧ t.peer.wm = wmOfRec (imgVal l 0x40) ∧
      t.ks.stepLog2 = leAt (imgVal l 0x50) 0 1 ∧ t.ks.erasePersist = (leAt (imgVal l 0x50) 1 1 == 1) ∧
      t.ks.lock = bit (leAt (imgVal l 0x60) 0 4) 0 ∧ t.hi.lock = bit (leAt (imgVal l 0x60) 0 4) 1 ∧
      t.wg.ckptLock = bit (leAt (imgVal l 0x60) 0 4) 2 ∧ t.hv.wdMs = leAt (imgVal l 0x61) 0 2 ∧
      (t.tenant 0).win.a = (if s.hv.recovery = true then [(0, hostWindow 3)] else (s.tenant 0).win.a) ∧
      OtherTenants 0 s t) ∧
  (∀ (ins : BitVec 4) (ecc : Ecc) (a : AdmCfg) (s : State), StartsUp s 8 → s.hv.recovery = false →
    a = managerCfg (activeCfg s) →
    Completes (.startupStepDone ins ecc) s fun t =>
      t.hv.step = 9 ∧ (t.tenant 0).state = 1 ∧ (t.tenant 0).gen = (s.tenant 0).gen + 1 ∧
      (t.tenant 0).queues = a.queues ∧ (t.tenant 0).vectors = a.vectors ∧ (t.tenant 0).ctxGran = a.ctxGran ∧
      (t.tenant 0).weight = a.weight ∧ (t.tenant 0).win.a = managerWindows (activeCfg s) ∧ OtherTenants 0 s t) ∧
  (∀ (ins : BitVec 4) (ecc : Ecc) (s : State), StartsUp s 8 → s.hv.recovery = true →
    Completes (.startupStepDone ins ecc) s fun t => t.hv.step = 9 ∧ t.tenants = s.tenants ∧ t.queues = s.queues) ∧
  (∀ (ins : BitVec 4) (ecc : Ecc) (s : State), StartsUp s 8 →
    Completes (.startupStepDone ins ecc) s fun t =>
      t.sync.h = (match s.recValue 0x10 with
        | some b => leAt b 16 10
        | none => 0)) ∧
  (∀ (ins : BitVec 4) (ecc : Ecc) (s : State), StartsUp s 9 → s.hv.recovery = false →
    Completes (.startupStepDone ins ecc) s fun t =>
      t.hv.step = 10 ∧ t.wg.isOpen = true ∧ (t.wg.signer = true → s.wg.signer = true ∨ s.aon.tampered = false)) ∧
  (∀ (ins : BitVec 4) (ecc : Ecc) (s : State), StartsUp s 9 → s.hv.recovery = true →
    Completes (.startupStepDone ins ecc) s fun t => t.hv.halted = true ∧ t.presented = true) ∧
  (∀ (ins : BitVec 4) (ecc : Ecc) (s : State), StartsUp s 10 →
    Completes (.startupStepDone ins ecc) s fun t =>
      t.hv.ready = true ∧ t.ev.pend.getLsbD 270 = true ∧ t.aon.sticky = s.aon.sticky) ∧
  (∀ s : State, s.Inv → s.hv.step = 2 → s.hv.halted = false →
    Completes .pllLockTimeout s fun t =>
      t.hv = { s.hv with halted := true, fail := 1 } ∧ t.aon.sticky.getLsbD 95 = true) ∧
  (∀ s : State, s.Inv → s.hv.ready = true → s.keeperOk = true → imgCommits (activeBank s) = true →
    (∀ i, i < 64 → s.otp.svnPartly i = false) → s.otp.svnMin < s.store.cfSvn → s.otp.svnMin < 64 →
    Completes .svnCommitProgram s fun t =>
      t.otp.svnMin = s.otp.svnMin + 1 ∧ t.otp.lc = s.otp.lc ∧ t.otp.journal = s.otp.journal) ∧
  (∀ (i : Nat) (s : State), s.Inv → s.hv.ready = true → s.keeperOk = true → i < 64 → s.otp.svnPartly i = true →
    (∀ k, k < i → s.otp.svnPartly k = false) →
    Completes .svnCommitProgram s fun t => t.otp.svnFull i = true ∧ t.otp.lc = s.otp.lc) ∧
  (∀ s : State, Running s → s.hv.keeperUp = true → 5 ≤ s.hv.step → s.presented = true →
    s.store.updBusy = false → firmwareOk s true = true →
    Completes (.keeperRestart false true) s fun t =>
      t.hv.keeperUp = true ∧ t.hv.keeperFail = s.hv.keeperFail ∧
      t.doe = { error := s.doe.error || s.doe.busy }) ∧
  (∀ (ok : Bool) (s : State), Running s → s.hv.keeperUp = true → 5 ≤ s.hv.step → s.store.updBusy = false →
    firmwareOk s ok = false →
    Completes (.keeperRestart true ok) s fun t =>
      t.hv.keeperUp = false ∧ t.hv.keeperFail = true ∧ t.hv.fail = 5 ∧ t.aon.sticky.getLsbD 69 = true ∧
      t.aon.sticky.getLsbD 93 = true ∧ t.aon.sticky.getLsbD 94 = true) ∧
  (∀ (ok : Bool) (s : State), Running s → s.hv.keeperUp = true → 8 ≤ s.hv.step → s.hv.pwr = 0 →
    s.store.updBusy = false → firmwareOk s ok = true →
    Completes (.keeperWatchdogExpiry ok) s fun t =>
      t.hv.keeperUp = true ∧ t.aon.sticky.getLsbD 93 = true ∧
      t.doe = { error := s.doe.error || s.doe.busy })

/-- An update that the keeper has taken is in phase `n` and may end it. -/
def Sys2Proof.UpdPhase (s : State) (n : Nat) : Prop :=
  Running s ∧ s.store.updBusy = true ∧ s.store.updTaken = true ∧ s.keeperOk = true ∧ s.store.updPhase = n

/-- No FLR of PF0 has come since the update was taken, and what becomes of the keeper's read of the buffer (R302,
R335, R336). -/
def Sys2Proof.BufferRead (s : State) (w : Wrote) : Prop :=
  (s.tenant 0).mb.fepoch = s.store.updEpoch ∧
  (keeperRead s 0 s.store.updRunAddr.toNat s.store.updRunLen .ok).1 = w

/-- The inactive bank of the configuration flash. -/
def Sys2Proof.InactiveBank (s : State) : Bytes := if s.store.active = 0 then s.store.flashB else s.store.flashA

/-- The four phases of an update: checks on the buffer, erasure, the body, the header; and the results that end it, an
FLR of PF0 before a read of the buffer and a keeper restart among them. A read of the buffer that has to wait leaves the
phase as it is, and an error of the flash leaves the bank erased (the model's choices: log entry 46). -/
def Obligations.ImageUpdate : Prop :=
  (∀ s : State, Running s → s.presented = true → s.store.updBusy = false → s.keeperOk = true →
    s.aon.tampered = false → acceptsImages s.lcCode = true →
    Completes .cfUpdCommit s fun t =>
      t.store.updBusy = true ∧ t.store.updTaken = true ∧ t.store.updPhase = 1 ∧
      t.store.updRunAddr = s.store.updAddr ∧ t.store.updRunLen = s.store.updLen ∧
      t.store.flashA = s.store.flashA ∧ t.store.flashB = s.store.flashB) ∧
  (∀ s : State, Running s → s.presented = true → s.store.updBusy = false → s.keeperOk = true →
    s.aon.tampered = true ∨ acceptsImages s.lcCode = false →
    Completes .cfUpdCommit s fun t =>
      t.store.updBusy = false ∧ t.store.updResult = 12 ∧ t.aon.sticky.getLsbD 103 = true ∧
      t.ev.pend.getLsbD 258 = true) ∧
  (∀ (buf : Bytes) (s : State), UpdPhase s 1 → BufferRead s .issued →
    Completes (.updatePhaseDone .ok buf) s fun t =>
      (if updCheck s (fit buf s.store.updRunLen) = 0
        then t.store = { s.store with updPhase := 2, updHash := sha384 (fit buf s.store.updRunLen) }
        else t.store.updBusy = false ∧ t.store.updResult = updCheck s (fit buf s.store.updRunLen) ∧
          t.store.flashA = s.store.flashA ∧ t.store.flashB = s.store.flashB ∧
          t.aon.sticky.getLsbD 103 = true)) ∧
  (∀ (buf : Bytes) (s : State), UpdPhase s 2 → s.store.active ≤ 1 →
    Completes (.updatePhaseDone .ok buf) s fun t =>
      t.store.updPhase = 3 ∧ InactiveBank t = [] ∧ activeBank t = activeBank s) ∧
  (∀ (buf : Bytes) (s : State), UpdPhase s 3 → BufferRead s .issued →
    sha384 (fit buf s.store.updRunLen) = s.store.updHash →
    Completes (.updatePhaseDone .ok buf) s fun t =>
      t.store.updPhase = 4 ∧
      InactiveBank t = List.replicate 128 0xFF ++ (fit buf s.store.updRunLen).drop 128 ∧
      t.store.updBuf = (fit buf s.store.updRunLen).take 128) ∧
  (∀ (buf : Bytes) (s : State), UpdPhase s 3 → BufferRead s .issued →
    sha384 (fit buf s.store.updRunLen) ≠ s.store.updHash →
    Completes (.updatePhaseDone .ok buf) s fun t =>
      t.store.updBusy = false ∧ t.store.updResult = 8 ∧ t.aon.sticky.getLsbD 103 = true) ∧
  (∀ (n : Nat) (read : ReadEnd) (buf : Bytes) (s : State), UpdPhase s n → n = 1 ∨ n = 3 →
    BufferRead s .refused ∨ BufferRead s .denied ∨ BufferRead s .issued ∧ read ≠ .ok →
    Completes (.updatePhaseDone read buf) s fun t =>
      t.store.updBusy = false ∧ t.store.updResult = 2 ∧ t.aon.sticky.getLsbD 103 = true) ∧
  (∀ (n : Nat) (read : ReadEnd) (buf : Bytes) (s : State), UpdPhase s n → n = 1 ∨ n = 3 → BufferRead s .waits →
    Completes (.updatePhaseDone read buf) s fun t => t.store = s.store) ∧
  (∀ (n : Nat) (read : ReadEnd) (buf : Bytes) (s : State), UpdPhase s n → n = 1 ∨ n = 3 →
    (s.tenant 0).mb.fepoch ≠ s.store.updEpoch →
    Completes (.updatePhaseDone read buf) s fun t =>
      t.store.updBusy = false ∧ t.store.updResult = 10 ∧ t.aon.sticky.getLsbD 103 = true) ∧
  (∀ (ok : Bool) (s : State), Running s → s.hv.keeperUp = true → 5 ≤ s.hv.step → s.presented = true →
    s.store.updBusy = true → s.store.updTaken = true →
    Completes (.keeperRestart false ok) s fun t =>
      t.store.updBusy = false ∧ t.store.updResult = 10 ∧ InactiveBank t = [] ∧ t.aon.sticky.getLsbD 103 = true) ∧
  (∀ (n : Nat) (read : ReadEnd) (buf : Bytes) (s : State), UpdPhase s n → n = 2 ∨ n = 4 → read ≠ .ok →
    Completes (.updatePhaseDone read buf) s fun t =>
      t.store.updBusy = false ∧ t.store.updResult = 9 ∧ InactiveBank t = [] ∧ t.aon.sticky.getLsbD 103 = true) ∧
  (∀ (buf : Bytes) (s : State), UpdPhase s 4 →
    Completes (.updatePhaseDone .ok buf) s fun t =>
      t.store.updBusy = false ∧ t.store.updResult = 0 ∧
      InactiveBank t = s.store.updBuf ++ (InactiveBank s).drop 128) ∧
  (∀ s : State, Running s → s.store.updBusy = true → s.store.updTaken = false →
    s.store.updAt + 12000000 ≤ s.hv.tick →
    Completes .updateKeeperTimeout s fun t =>
      t.store.updBusy = false ∧ t.store.updResult = 11 ∧ t.aon.sticky.getLsbD 103 = true)

/-- Retention sleep: entry, its refusal, the wake causes, the end of a wake with the combs back in their modes, and the
return of the root PLL's lock. A wake cause of the FCLK cycle of an ENTER comes before it, whichever was commanded
first: the Hive that enters all the same wakes as soon as entry completes. The order of the refusals, cause 7, what
entry clears and how the commands of one cycle are taken together (log entry 47), the accesses held over a lost lock
(log entry 63), and the reads that an old window table serves (log entry 49) are the model's choices. -/
def Obligations.RetentionSleep : Prop :=
  (∀ s : State, s.Inv → s.hv.pwr = 0 → s.presented = true →
    Completes (.hvSleepEnter 0xA5) s fun t =>
      t.hv = (if sleepReason s = 0 then { s.hv with pwr := 1, wakeNext := causeNow s, enterAt := some s.hv.tick }
        else { s.hv with refuse := sleepReason s }) ∧ t.jobs = s.jobs ∧ t.queues = s.queues) ∧
  (∀ (cause : Nat) (s : State), s.Inv → s.hv.pwr = 0 → s.presented = true → sleepReason s = 0 →
    s.hv.causeAt = some (s.hv.tick, cause) →
    Completes (.hvSleepEnter 0xA5) s fun t => t.hv.pwr = 1 ∧ t.hv.wakeNext = cause) ∧
  (∀ (key : Byte) (s : State), s.hv.pwr = 0 → key ≠ 0xA5 →
    Completes (.hvSleepEnter key) s fun t => t = (if s.presented = true then wake s 1 else s)) ∧
  (∀ (key : Byte) (s : State), s.hv.pwr ≠ 0 → Completes (.hvSleepEnter key) s fun t => t = wake s 1) ∧
  (∀ s : State, s.Inv → s.hv.pwr = 1 → s.jobsWith Job.live = [] → s.hv.wakeNext = 0 →
    Completes .sleepEntryDone s fun t =>
      t.hv.pwr = 2 ∧ t.hv.cclk = false ∧ t.hv.kclk = false ∧ t.hv.xclk = false ∧ t.hv.fclk = s.hv.fclk ∧
      (∀ c, (t.comb c).nonces = []) ∧
      (∀ c, c < combCount → (t.comb c).mode = 4 ∧ tblGet 1 t.hv.modes c = (s.comb c).mode) ∧
      t.jobs = s.jobs ∧ t.queues = s.queues) ∧
  (∀ s : State, s.Inv → s.hv.pwr = 1 → s.jobsWith Job.live = [] → s.hv.wakeNext ≠ 0 →
    Completes .sleepEntryDone s fun t =>
      t.hv.pwr = 3 ∧ t.hv.wakeCause = s.hv.wakeNext ∧ t.hv.cclk = false ∧ t.hv.kclk = false ∧ t.hv.xclk = false ∧
      (∀ c, c < combCount → (t.comb c).mode = 4) ∧ t.jobs = s.jobs ∧ t.queues = s.queues) ∧
  (∀ s : State, s.hv.pwr = 2 →
    Completes (.hvSleepWake 0xA5) s fun t => t = { s with hv := { s.hv with pwr := 3, wakeCause := 7 } }) ∧
  (∀ (cause : Nat) (s : State), s.hv.pwr = 0 → 1 ≤ cause → cause ≤ 8 →
    Completes (.sleepWake cause) s fun t =>
      t = { s with hv := { s.hv with
        causeAt := if causeNow s = 0 then some (s.hv.tick, cause) else s.hv.causeAt } }) ∧
  (∀ (cause : Nat) (s : State), s.hv.pwr = 1 → s.hv.enterAt = some s.hv.tick → 1 ≤ cause → cause ≤ 8 →
    Completes (.sleepWake cause) s fun t =>
      t = { s with hv := { s.hv with
        pwr := 0, causeAt := if causeNow s = 0 then some (s.hv.tick, cause) else s.hv.causeAt } }) ∧
  (∀ s : State, s.pending = [] → closeDue s = false → s.adm.fenced = none → ckptDue s = false → QuietEdge s →
    s.hv.pwr = 0 → s.hv.enterAt = some s.hv.tick →
    ∃ t, step s = .next t ∧
      (if sleepReason s = 0 then t.hv.pwr = 1 ∧ t.hv.wakeNext = causeNow s
        else t.hv.pwr = 0 ∧ t.hv.refuse = sleepReason s)) ∧
  (∀ (cause : Nat) (s : State), s.hv.pwr = 2 → 1 ≤ cause → cause ≤ 8 →
    Completes (.sleepWake cause) s fun t =>
      t = { s with hv := { s.hv with pwr := 3, wakeCause := cause } }) ∧
  (∀ (cause : Nat) (s : State), s.hv.pwr = 1 → s.hv.enterAt ≠ some s.hv.tick → s.hv.wakeNext = 0 → 1 ≤ cause →
    cause ≤ 8 →
    Completes (.sleepWake cause) s fun t => t = { s with hv := { s.hv with wakeNext := cause } }) ∧
  (∀ s : State, s.Inv → s.hv.pwr = 3 → s.hv.rootLock = true → s.hv.heldCmds = [] →
    Completes .wakeDone s fun t =>
      t.hv.pwr = 0 ∧ t.hv.cclk = true ∧ t.hv.kclk = true ∧ t.hv.xclk = true ∧ t.hv.heldCmds = [] ∧
      ∀ c, c < combCount → (t.comb c).mode = tblGet 1 s.hv.modes c) ∧
  (∀ s : State, s.Inv → s.hv.rootLock = false → 3 ≤ s.hv.step → s.hv.pwr = 0 → s.ks.zPend = false →
    NothingWaits s →
    Completes (.pllRelockRetry true) s fun t =>
      t = { s with
        hv := { s.hv with rootLock := true, cclk := true, fclk := true, kclk := true, xclk := true }
        aon := { s.aon with unlock := false }
        hi := { s.hi with wttOld := 0 } })

/-! ## Configuration groups and register access (chapters 00 and 17) -/

/-- Commits take the selected shadow group over as a whole, or are refused and change nothing that is in use. The count
of bindings (log entry 24), the refusals of a ring, the scheduler and WG_TCOMMIT and the loading of the peer's log (log
entry 25), the signals at a commit of the event log (log entry 35), and the completion records owed over a commit (log
entry 57) are the model's choices. -/
def Obligations.ConfigurationGroups : Prop :=
  (∀ (c : Nat) (v : W32) (s : State), Running s → blockOpen s c = true →
    Completes (.tnQcfgSelWrite c v) s fun t =>
      t.tenant c = { s.tenant c with
        qcfgSel := bits v.toNat 14 0, qcfgSh := (s.queue c (bits v.toNat 14 0)).cfg } ∧ OtherTenants c s t) ∧
  (∀ (c q : Nat) (g : QCfg) (s : State), Running s → blockOpen s c = true → (s.tenant c).qcfgSel = q →
    (s.tenant c).qcfgSh = g →
    Completes (.tnQcfgCommit c) s fun t =>
      t.tenant c = { s.tenant c with qcfgReason := qcfgIssue s c q g } ∧
      t.queue c q = (if qcfgIssue s c q g = 0 then { s.queue c q with cfg := g } else s.queue c q) ∧
      OtherQueues c q s t ∧ OtherTenants c s t) ∧
  (∀ (c : Nat) (v : W32) (s : State), Running s → blockOpen s c = true → isFn c = true →
    Completes (.tnCrSelWrite c v) s fun t =>
      t.tenant c = { s.tenant c with
        crSel := bits v.toNat 8 0, crShBase := (s.ring c (bits v.toNat 8 0)).base,
        crShCtrl := (s.ring c (bits v.toNat 8 0)).ctrl } ∧ OtherTenants c s t) ∧
  (∀ (c : Nat) (s : State), Running s → blockOpen s c = true → isFn c = true →
    crRefuses s c (s.tenant c).crSel (s.tenant c).crShCtrl = true →
    Completes (.tnCrCommit c) s fun t =>
      t.tenant c = { s.tenant c with crRefused := true } ∧ t.rings = s.rings) ∧
  (∀ (c : Nat) (s : State), Running s → blockOpen s c = true → isFn c = true →
    crRefuses s c (s.tenant c).crSel (s.tenant c).crShCtrl = false →
    Completes (.tnCrCommit c) s fun t =>
      (t.ring c (s.tenant c).crSel).base = (s.tenant c).crShBase ∧
      (t.ring c (s.tenant c).crSel).ctrl =
        BitVec.ofNat 32 (bits (s.tenant c).crShCtrl.toNat 4 0 + flagBit ((s.tenant c).crShCtrl.getLsbD 8) 8 +
          bits (s.tenant c).crShCtrl.toNat 19 9 * 512) ∧
      ((s.tenant c).crShCtrl.getLsbD 8 = true → pendingQueues s c (s.tenant c).crSel = [] →
        (t.ring c (s.tenant c).crSel).tail = 0 ∧ (t.ring c (s.tenant c).crSel).cons = 0 ∧
        (t.ring c (s.tenant c).crSel).mode = false) ∧
      (t.tenant c).crRefused = false) ∧
  (∀ (c : Nat) (s : State), Running s → blockOpen s c = true → isFn c = true →
    Completes (.tnRlogCommit c) s fun t =>
      t.tenant c = { s.tenant c with rlog := (s.tenant c).rlog.commit 2 16 } ∧ OtherTenants c s t) ∧
  (∀ s : State, Running s → s.hv.ready = true →
    Completes .schCommit s fun t =>
      t.sch = (if s.sch.shadow.ok then { s.sch with waiting := some s.sch.shadow, refused := false }
        else { s.sch with refused := true })) ∧
  (∀ s : State, Running s → s.hv.ready = true →
    Completes .wgSyncCommit s fun t =>
      t.sync = (if s.sync.shadow.ok then { s.sync with waiting := some s.sync.shadow, refused := false }
        else { s.sync with refused := true })) ∧
  (∀ s : State, Running s → s.hv.ready = true →
    Completes .wgMlogCommit s fun t => t.wg = { s.wg with mlog := s.wg.mlog.commit 4 16 }) ∧
  (∀ (v : W32) (s : State), Running s → s.hv.ready = true →
    Completes (.wgTselWrite v) s fun t =>
      t.wg = { s.wg with
        tsel := bits v.toNat 12 0, tcfgSh := (s.tenant (bits v.toNat 12 0)).wgT,
        plogSh := (if isFn (bits v.toNat 12 0) then {} else (s.tenant (bits v.toNat 12 0)).rlog.cfg) }) ∧
  (∀ s : State, Running s → s.hv.ready = true → isFn s.wg.tsel = true → 1 ≤ s.wg.tcfgSh.pendMax →
    s.wg.tcfgSh.pendMax ≤ 16384 →
    Completes .wgTcommit s fun t =>
      (t.tenant s.wg.tsel).wgT = s.wg.tcfgSh ∧ t.wg.tRefused = false ∧
      (t.tenant s.wg.tsel).rlog = (s.tenant s.wg.tsel).rlog) ∧
  (∀ s : State, Running s → s.hv.ready = true → s.wg.tcfgSh.pendMax = 0 ∨ 16384 < s.wg.tcfgSh.pendMax →
    Completes .wgTcommit s fun t => t.wg = { s.wg with tRefused := true } ∧ t.tenants = s.tenants) ∧
  (∀ s : State, Running s → s.presented = true →
    Completes .evLogCommit s fun t =>
      t.ev.log = s.ev.log.commit 7 16 ∧ t.ev.pend = s.ev.pend ∧
      (∀ src, (tblGet {} t.ev.recs src).count = (tblGet {} s.ev.recs src).count) ∧
      (s.ev.log.cfg.en = true → (s.ev.log.commit 7 16).cfg.en = false →
        ∀ src, (tblGet {} s.ev.recs src).signal = true → (s.route src).vec < (s.tenant 0).vectors →
          (s.route src).vec ∈ (t.func 0).due))

/-- An access of `n` bytes of an awake Hive lands at a place of a register block. -/
def Sys2Proof.At (s : State) (a : Access) (n : Nat) (p : Place) : Prop :=
  s.hv.pwr = 0 ∧ s.unclocked = false ∧ lands s false a n = { place := p } ∧ p.1 ≠ .void ∧
  (∀ f, p.1 ≠ .config f) ∧ pushPlace p = none

/-- The state in which a read acts: no Request Retry Status is owed, and the Hive keeps the access as a wake cause for
an ENTER of the same FCLK cycle (R446, R447). -/
def Sys2Proof.atRead (s : State) (a : Access) (p : Place) : State :=
  match causeOf a p true with
  | some c => { wake s c with retry := false }
  | none => { s with retry := false }

/-- The same for a write of `n` bytes. HV_SLEEP judges its own writes. -/
def Sys2Proof.atAccess (s : State) (a : Access) (p : Place) (n : Nat) : State :=
  match causeOf a p false with
  | some c => { if p = (.hv, 0x40) ∧ 4 ≤ n then s else wake s c with retry := false }
  | none => { s with retry := false }

/-- The state in which a write of a word acts: a mailbox register withdraws idle too (R341). -/
def Sys2Proof.atWrite (s : State) (a : Access) (p : Place) : State := mailActive (atAccess s a p 4) p

/-- Register access: a 32-bit write of a 32-bit register acts on it; a sub-word write is discarded and counted; the
halves of a 64-bit register, written low then high by one requester, act as one write; a read returns the
word and clears what it clears; the low half of a 64-bit register latches the high half. That a sub-word write to a
reserved offset inside a block counts too is the model's choice (log entry 61). -/
def Obligations.RegisterAccess : Prop :=
  (∀ (who : Requester) (a : Access) (p : Place) (data : W64) (s : State), At s a 4 p → p.2 % 4 = 0 →
    is64 p = false → upperOf p = none →
    Completes (.registerWrite who a 4 data) s fun t => t = writeReg32 (atWrite s a p) p (data.setWidth 32)) ∧
  (∀ (who : Requester) (a : Access) (data : W64) (s : State), At s a 4 (.sch, 0x10) →
    Completes (.registerWrite who a 4 data) s fun t =>
      t.sch.shadow = { s.sch.shadow with cap := data.toNat % 512 } ∧ t.sch.cfg = s.sch.cfg) ∧
  (∀ (who : Requester) (a : Access) (p : Place) (n : Nat) (data : W64) (s u : State), At s a n p →
    n = 1 ∨ n = 2 → u = atAccess s a p n →
    Completes (.registerWrite who a n data) s fun t =>
      t = { u with hi := { u.hi with subword := satAdd 0xFFFFFFFF s.hi.subword 1 } }) ∧
  (∀ (who : Requester) (a : Access) (p : Place) (data : W64) (s u : State), At s a 4 p → p.2 % 4 = 0 →
    is64 p = true → u = atWrite s a p →
    Completes (.registerWrite who a 4 data) s fun t =>
      t = { u with halves := dropHalf u.halves who (regKey p) ++ [((who, regKey p), data.setWidth 32)] }) ∧
  (∀ (who : Requester) (a : Access) (sp : Space) (o : Nat) (low : W32) (data : W64) (s u : State),
    At s a 4 (sp, o + 4) → o % 4 = 0 → is64 (sp, o) = true → is64 (sp, o + 4) = false →
    u = atWrite s a (sp, o + 4) → halfOf s.halves who (regKey (sp, o)) = some low →
    Completes (.registerWrite who a 4 data) s fun t =>
      t = writeReg64 { u with halves := dropHalf u.halves who (regKey (sp, o)) } (sp, o)
        (BitVec.ofNat 64 (low.toNat + data.toNat % 2 ^ 32 * 2 ^ 32))) ∧
  (∀ (who : Requester) (a : Access) (p : Place) (s u : State), At s a 4 p → p.2 % 4 = 0 →
    is64 p = false → upperOf p = none → u = atRead s a p →
    Completes (.rcRegisterRead who a 4) s fun t =>
      t = { readClear u p with resp := (regWord u p).setWidth 64 }) ∧
  (∀ (who : Requester) (a : Access) (p : Place) (s u : State), At s a 4 p → p.2 % 4 = 0 → is64 p = true →
    u = atRead s a p →
    Completes (.splitReadLatch who a) s fun t =>
      t.resp = (regWord u p).setWidth 64 ∧
      t.latches = dropHalf s.latches who (regKey p) ++ [((who, regKey p), regWord u (p.1, p.2 + 4))])

/-! ## Whole-machine rules -/

/-- HIVE_ALERT_N is low exactly while a condition of R423 holds, or in SCRAP (R391); HIVE_SYNC_OK is high exactly
while R436 says so; HIVE_READY is high exactly when step 10 has ended. None of them is driven before power-on, while
HIVE_RST_N is held, or on an unpowered pad (R434), and TAMPER_OUT then too. The groups of bits that ST_ALERT enables
are those of the register's table in chapter 15. That the balls follow the state at once, within the 10 FCLK of R436,
that step 0 is the time before power-on, and that the 3 us of R434 are left out is the model's choice (log entry 52).
-/
def Obligations.AlertAndSyncBalls : Prop :=
  (∀ s : State, undriven s domVddioAon = false →
    ((∃ b, s.aon.sticky.getLsbD b = true ∧
        (80 ≤ b ∧ b ≤ 87 ∨ b = 94 ∨ b = 95 ∨ s.aon.alert.getLsbD 0 = true ∧ b < 64 ∨
          s.aon.alert.getLsbD 1 = true ∧ 64 ≤ b ∧ b ≤ 75 ∨
          s.aon.alert.getLsbD 2 = true ∧ (88 ≤ b ∧ b ≤ 93 ∨ 96 ≤ b ∧ b ≤ 105))) ∨
      s.aon.latch ≠ 0 ∨ s.hv.fail ≠ 0 ∨ s.lcCode = 0x0600 ↔ ballAlertN s = .low)) ∧
  (∀ s : State, undriven s domVddioHv = false →
    ((s.hv.ready = true ∧ (s.sync.state = 2 ∨ s.sync.state = 3 ∧ s.hv.syncHold = true)) ↔
      ballSyncOk s = .high)) ∧
  (∀ s : State, undriven s domVddioHv = false → s.hv.ready = false → ballSyncOk s = .low) ∧
  (∀ s : State, undriven s domVddioHv = false → (ballReady s = .high ↔ s.hv.ready = true)) ∧
  (∀ s : State, s.hv.step = 0 ∨ s.hv.rstHeld = true ∨ s.aon.low.getLsbD domVddAon = true →
    ballReady s = .highZ ∧ ballSyncOk s = .highZ ∧ ballAlertN s = .highZ ∧ ballTamperOut s = .highZ) ∧
  (∀ s : State, isolated s = true → pinXoff s = 0xFF ∧ copyReady s = false ∧ copyTamperOut s = true)

/-- What a tamper source reports. -/
def Sys2Proof.TamperSource (c : Instr) : Prop :=
  (∃ n high, c = .tamperInTrip n high) ∨ (∃ d r, c = .voltageTrip d r) ∨ c = .pllLockLoss ∨
  (∃ b, c = .refclkFrequencyTrip b) ∨ ∃ b, c = .temperatureTrip b

/-- The commands that may clear a bit of the sticky record: a W1C write of the manager, MCTP CLEAR_STICKY (at once, or
when a wake or an abandoned entry into sleep serves it), and cold power-on. -/
def Sys2Proof.ClearsSticky (s : State) (c : Instr) : Prop :=
  (TamperSource c ∧ s.hv.pwr ≠ 0) ∨
  c = .coldPowerOn ∨ c = .wakeDone ∨ (∃ l, c = .pllRelockRetry l) ∨ (∃ i m, c = .stickyClear i m) ∨
  (∃ i m, c = .clearSticky i m) ∨ ∃ w a n d, c = .registerWrite w a n d

/-- Records that commands keep. No command but those that may clear the sticky record clears a bit of it: not a warm
reset, an FLR, a keeper restart or a tamper response. And programming only sets bits (R392): no command, in any
state, takes a bit away from the life-cycle word that the OTP array votes. -/
def Obligations.KeptRecords : Prop :=
  (∀ (c : Instr) (s t : State) (b : Nat), s.Inv → exec c s = .next t → ¬ ClearsSticky s c →
    s.aon.sticky.getLsbD b = true → t.aon.sticky.getLsbD b = true) ∧
  (∀ (c : Instr) (s t : State) (b : Nat), exec c s = .next t →
    s.otp.lc.voted.getLsbD b = true → t.otp.lc.voted.getLsbD b = true)

/-! ## Frames -/

/-- The fields of the state that a command may change. A command that a sleeping Hive holds, and what it holds when
it wakes, count with their effects. -/
def Sys2Proof.footOf : Instr → Foot
  | .coldPowerOn | .warmReset .. | .hiveRstNAssert | .lcTransitionOtpDone =>
    { hv := true, store := true, otp := true, aon := true, ev := true, hi := true, cap := true, dma := true,
      doe := true, lc := true, peer := true, sync := true, wg := true, adm := true, ks := true, sch := true,
      fns := true, tenants := true, queues := true, rings := true, ctxs := true, slots := true, combs := true,
      jobs := true, nextJob := true, halves := true, latches := true, retry := true, freeN := true }
  | .startupStepDone .. =>
    { hv := true, store := true, otp := true, aon := true, ev := true, hi := true, dma := true, lc := true,
      peer := true, sync := true, wg := true, ks := true, sch := true, fns := true, tenants := true,
      queues := true, ctxs := true, slots := true, combs := true, jobs := true, out := true, trngN := true,
      freeN := true }
  | .pllLockTimeout | .stickyClear .. =>
    { hv := true, aon := true, ev := true, fns := true, tenants := true, combs := true }
  | .svnCommitProgram =>
    { otp := true }
  | .keeperRestart .. | .keeperWatchdogExpiry .. =>
    { hv := true, store := true, aon := true, ev := true, dma := true, doe := true, peer := true, wg := true,
      adm := true, ks := true, sch := true, fns := true, tenants := true, queues := true, rings := true,
      ctxs := true, slots := true, combs := true, jobs := true, out := true, freeN := true }
  | .qDbWrite .. =>
    { hv := true, hi := true, dma := true, queues := true, jobs := true, out := true }
  | .qDbNodataWrite .. =>
    { hv := true, hi := true, dma := true, queues := true, out := true }
  | .producerMirrorReadDone .. =>
    { hi := true, dma := true, queues := true, out := true }
  | .pushWindowWrite .. =>
    { hv := true, hi := true, queues := true, out := true }
  | .pushStagingTimeout .. | .pauseAck .. | .invalidateAck .. | .restartAck .. =>
    { queues := true }
  | .descriptorPrefetch .. =>
    { hi := true, dma := true, queues := true, jobs := true, out := true }
  | .descriptorFetchDone .. =>
    { aon := true, ev := true, dma := true, fns := true, tenants := true, queues := true, combs := true,
      jobs := true, nextJob := true }
  | .qCmdEnable .. | .qCmdPause .. | .qCmdResume .. | .qCmdReset .. | .qCmdInvalidate .. | .qCmdRestart .. |
    .qCmdReserved .. =>
    { hv := true, dma := true, queues := true, jobs := true }
  | .resetAck .. | .queueDrainEnd .. =>
    { dma := true, peer := true, tenants := true, queues := true, jobs := true }
  | .jobDispatch .. | .sliceBoundary .. =>
    { hi := true, dma := true, peer := true, ks := true, sch := true, queues := true, combs := true,
      jobs := true, out := true }
  | .schedulingEpochStart .. =>
    { sch := true, jobs := true }
  | .keyPull .. =>
    { aon := true, ev := true, hi := true, dma := true, peer := true, ks := true, sch := true, fns := true,
      tenants := true, ctxs := true, slots := true, combs := true, jobs := true, out := true, freeN := true }
  | .nonceReservationWriteDone .. =>
    { store := true, slots := true }
  | .readCompletion .. =>
    { hv := true, aon := true, ev := true, hi := true, dma := true, ks := true, fns := true, tenants := true,
      queues := true, combs := true, jobs := true, out := true, freeN := true }
  | .completionTimeout .. =>
    { aon := true, ev := true, hi := true, dma := true, ks := true, fns := true, tenants := true,
      queues := true, combs := true, jobs := true, out := true, freeN := true }
  | .atsTranslationCompletion .. | .bmeSet .. =>
    { hv := true, hi := true, dma := true, peer := true, wg := true, ks := true, fns := true, tenants := true,
      queues := true, jobs := true, out := true, freeN := true }
  | .atsInvalidationRequest .. =>
    { hv := true, dma := true }
  | .atsInvalidationDone .. =>
    { hi := true, dma := true, out := true }
  | .jobEnd .. =>
    { aon := true, ev := true, hi := true, dma := true, peer := true, wg := true, ks := true, sch := true,
      fns := true, tenants := true, ctxs := true, slots := true, combs := true, jobs := true, out := true,
      freeN := true }
  | .leafAssign .. =>
    { aon := true, ev := true, hi := true, dma := true, peer := true, wg := true, fns := true, tenants := true,
      combs := true, jobs := true, out := true }
  | .headAdvance .. =>
    { queues := true, jobs := true }
  | .headMirrorWrite .. =>
    { hi := true, dma := true, peer := true, fns := true, tenants := true, queues := true, out := true }
  | .completionRecordWrite .. =>
    { hi := true, dma := true, fns := true, tenants := true, queues := true, rings := true, out := true }
  | .tnCrConsWrite .. | .tnCrCommit .. =>
    { hv := true, hi := true, dma := true, fns := true, tenants := true, queues := true, rings := true,
      out := true }
  | .fenceEnd .. | .nop .. | .fence .. | .stamp .. =>
    { dma := true, ks := true, jobs := true }
  | .aesGcmEnc .. | .aesCcmEnc .. | .aesCbcEnc .. | .aesCbcDec .. | .aesCtr .. | .aesXtsEnc .. | .aesXtsDec .. |
    .chachaPolyEnc .. | .aesGmac .. | .tls13RecSeal .. | .espSeal .. | .hash .. | .shakeXof .. | .hmacGen .. |
    .hmacVerify .. | .kmac .. | .cmacGen .. | .cmacVerify .. | .ecdsaVerify .. | .eddsaVerify .. | .modexpRaw .. |
    .mldsaVerify .. =>
    { dma := true, ks := true, ctxs := true, jobs := true }
  | .aesGcmDec .. | .aesCcmDec .. | .chachaPolyDec .. | .tls13RecOpen .. | .espOpen .. =>
    { hi := true, dma := true, ks := true, ctxs := true, jobs := true, out := true }
  | .rsaPriv .. | .ecdsaSign .. | .eddsaSign .. | .ecdh .. | .xdh .. | .ecPointMulRaw .. =>
    { aon := true, ev := true, dma := true, ks := true, fns := true, tenants := true, ctxs := true,
      combs := true, jobs := true, trngN := true, freeN := true }
  | .rsaPub .. | .mlkemEncap .. | .mlkemDecap .. | .mldsaSign .. | .random .. =>
    { dma := true, ks := true, ctxs := true, combs := true, jobs := true, trngN := true, freeN := true }
  | .mlkemKeygen .. | .mldsaKeygen .. | .keyGenerate .. =>
    { dma := true, ks := true, ctxs := true, slots := true, combs := true, jobs := true, trngN := true,
      freeN := true }
  | .keyDerive .. | .keyUnwrap .. =>
    { dma := true, ks := true, ctxs := true, slots := true, jobs := true, freeN := true }
  | .keyWrap .. | .keyCheckValue .. | .ctxExport .. | .ctxImport .. =>
    { dma := true, ks := true, ctxs := true, jobs := true, freeN := true }
  | .keyInvalidate .. =>
    { store := true, dma := true, ks := true, ctxs := true, slots := true, jobs := true }
  | .keyAttest .. =>
    { dma := true, ks := true, ctxs := true, combs := true, jobs := true, freeN := true }
  | .keyAgreeToSlot .. =>
    { aon := true, ev := true, dma := true, ks := true, fns := true, tenants := true, ctxs := true,
      slots := true, combs := true, jobs := true, trngN := true, freeN := true }
  | .scrubPassStart =>
    { ks := true, slots := true }
  | .scrubSlotVisit =>
    { ev := true, ks := true, fns := true, tenants := true, slots := true }
  | .ksZeroiseStart =>
    { hv := true, ev := true, dma := true, ks := true, fns := true, tenants := true, ctxs := true,
      slots := true, combs := true, jobs := true, freeN := true }
  | .zeroisationStep5Done =>
    { store := true, aon := true, ev := true, hi := true, dma := true, lc := true, wg := true, ks := true,
      fns := true, tenants := true, slots := true, combs := true, out := true, trngN := true, freeN := true }
  | .ksProvGenerate | .ksProvUnwrap | .ksProvInvalidate | .ksProvOp3 =>
    { hv := true, ev := true, ks := true, fns := true, tenants := true }
  | .provDone .. =>
    { store := true, aon := true, ev := true, hi := true, dma := true, ks := true, sch := true, fns := true,
      tenants := true, slots := true, combs := true, out := true, trngN := true, freeN := true }
  | .todWord .. | .todLost | .errorBoundExceeded | .ppsTimeout =>
    { aon := true, ev := true, sync := true, wg := true, fns := true, tenants := true, combs := true }
  | .freezeEnd | .ppsEdge .. =>
    { sync := true }
  | .epochClose .. =>
    { aon := true, ev := true, hi := true, dma := true, peer := true, wg := true, fns := true, tenants := true,
      combs := true, out := true }
  | .epochReservationWriteDone =>
    { store := true, wg := true }
  | .receiptCheckpoint =>
    { hv := true, store := true, wg := true }
  | .ckptLate =>
    { ev := true, wg := true, fns := true, tenants := true }
  | .wgMlogConsWrite .. =>
    { hv := true, hi := true, dma := true, wg := true, fns := true, tenants := true, out := true }
  | .tnRlogConsWrite .. =>
    { hv := true, hi := true, dma := true, peer := true, fns := true, tenants := true, out := true }
  | .peerWordWrite .. =>
    { hv := true, aon := true, ev := true, peer := true, fns := true, tenants := true, combs := true }
  | .packetRead .. =>
    { aon := true, ev := true, peer := true, fns := true, tenants := true, combs := true, jobs := true,
      nextJob := true }
  | .peerEgressHandoff .. =>
    { ev := true, peer := true, fns := true, tenants := true, jobs := true, out := true }
  | .piPeerReset .. | .bmeClear .. | .d3hotEntry .. =>
    { hv := true, ev := true, dma := true, peer := true, wg := true, ks := true, fns := true, tenants := true,
      queues := true, ctxs := true, slots := true, combs := true, jobs := true, freeN := true }
  | .peerResetDone =>
    { ev := true, peer := true, fns := true, tenants := true, ctxs := true, slots := true, combs := true }
  | .piCommit =>
    { hv := true, peer := true }
  | .tnAdmCreate | .tnAdmResize | .tnAdmDestroy | .tnAdmOp0 =>
    { hv := true, store := true, aon := true, ev := true, dma := true, peer := true, wg := true, adm := true,
      ks := true, sch := true, fns := true, tenants := true, queues := true, rings := true, ctxs := true,
      slots := true, combs := true, jobs := true, freeN := true }
  | .admKeeperTimeout =>
    { ev := true, adm := true, fns := true, tenants := true }
  | .destroyComplete .. =>
    { store := true, ev := true, dma := true, peer := true, wg := true, ks := true, sch := true, fns := true,
      tenants := true, queues := true, rings := true, ctxs := true, slots := true, combs := true, jobs := true,
      freeN := true }
  | .tnDmawEntryWrite .. | .tnDmawFlip .. | .tnQcfgSelWrite .. | .tnCrSelWrite .. | .tnRlogCommit .. =>
    { hv := true, tenants := true }
  | .dmawFlipEffect .. | .dmawFlipDrained .. | .echo .. | .unknownType .. =>
    { tenants := true }
  | .hiWttFlip =>
    { hv := true, hi := true }
  | .wttFlipEffect | .wttFlipDrained =>
    { hi := true }
  | .mbH2kMsgWrite .. | .mbPoolRegister .. =>
    { hv := true, hi := true, tenants := true, out := true }
  | .h2kKeeperRead .. | .eventRecordWrite .. =>
    { aon := true, ev := true, hi := true, dma := true, fns := true, tenants := true, combs := true, out := true }
  | .k2hPost .. =>
    { hi := true, dma := true, fns := true, tenants := true, out := true }
  | .mbK2hMsgRead .. =>
    { hv := true, tenants := true, resp := true }
  | .flr .. | .d3hotToD0 .. =>
    { hv := true, ev := true, dma := true, peer := true, wg := true, ks := true, fns := true, tenants := true,
      queues := true, ctxs := true, slots := true, combs := true, jobs := true, halves := true, latches := true,
      freeN := true }
  | .flrReadsDrained .. =>
    { fns := true, tenants := true, rings := true, ctxs := true, slots := true, combs := true }
  | .flrDone .. =>
    { ev := true, cap := true, doe := true, fns := true, tenants := true }
  | .vfEnableClear =>
    { hv := true, ev := true, cap := true, dma := true, peer := true, wg := true, ks := true, fns := true,
      tenants := true, queues := true, ctxs := true, slots := true, combs := true, jobs := true, halves := true,
      latches := true, freeN := true }
  | .msixMessageSend .. | .moderationIntervalEnd .. =>
    { hi := true, fns := true, out := true }
  | .msixMaskWrite .. =>
    { hv := true, hi := true, fns := true, out := true }
  | .linkIdleSignal =>
    { hi := true, out := true }
  | .doeDiscovery .. | .getVersion | .getCapabilities | .negotiateAlgorithms .. | .getDigests | .getCertificate .. |
    .challenge .. | .getMeasurements .. | .spdmUnsupportedRequest .. | .setEndpointId .. =>
    { hv := true, doe := true, out := true, freeN := true }
  | .doeAbort =>
    { hv := true, doe := true }
  | .getEndpointId | .getMctpVersionSupport .. | .getMessageTypeSupport | .getVendorDefinedMessageSupport .. =>
    { hv := true, out := true, freeN := true }
  | .readState .. | .readSticky .. =>
    { hv := true, out := true }
  | .combCmd .. =>
    { hv := true, ev := true, fns := true, tenants := true, combs := true, out := true }
  | .queueCmd .. =>
    { hv := true, dma := true, doe := true, queues := true, jobs := true, out := true }
  | .clearSticky .. =>
    { hv := true, aon := true, ev := true, fns := true, tenants := true, combs := true, out := true }
  | .evLogConsWrite .. =>
    { hv := true, ev := true, hi := true, dma := true, fns := true, tenants := true, out := true }
  | .evPendClear .. | .evRouteWrite .. | .evLogCommit =>
    { hv := true, ev := true, fns := true, tenants := true }
  | .cbCmdOnline .. | .cbCmdOffline .. | .cbCmdInvalid .. | .sleepEntryDone =>
    { hv := true, ev := true, fns := true, tenants := true, combs := true }
  | .combDrainEnd .. =>
    { ev := true, fns := true, tenants := true, combs := true }
  | .tamperInTrip .. | .voltageTrip .. | .pllLockLoss | .refclkFrequencyTrip .. | .temperatureTrip .. |
    .pllRelockRetry .. | .wakeDone =>
    { hv := true, store := true, otp := true, aon := true, ev := true, hi := true, cap := true, dma := true,
      doe := true, lc := true, peer := true, sync := true, wg := true, adm := true, ks := true, sch := true,
      fns := true, tenants := true, queues := true, rings := true, ctxs := true, slots := true, combs := true,
      jobs := true, nextJob := true, out := true, halves := true, latches := true, resp := true, retry := true,
      trngN := true, freeN := true }
  | .tpLatchClear .. =>
    { hv := true, aon := true }
  | .lcToTestUnlocked .. | .lcToTestLocked .. | .lcToManufactured .. | .lcToProvisioned .. | .lcToRma .. |
    .lcToScrap .. | .lcTransitionRefused .. =>
    { hv := true, ev := true, dma := true, lc := true, ks := true, fns := true, tenants := true, ctxs := true,
      slots := true, combs := true, jobs := true, freeN := true }
  | .lcDbgReqDebug | .lcDbgReqRma =>
    { hv := true, ev := true, lc := true, fns := true, tenants := true, trngN := true }
  | .lcRespCommit =>
    { hv := true, ev := true, lc := true, fns := true, tenants := true }
  | .debugAuthVerifyDone .. =>
    { aon := true, ev := true, hi := true, dma := true, lc := true, peer := true, wg := true, fns := true,
      tenants := true, combs := true, out := true }
  | .substitutionRefDeadline =>
    { dma := true, lc := true, ks := true, ctxs := true, slots := true, combs := true, jobs := true,
      freeN := true }
  | .substitutionZeroise =>
    { ev := true, dma := true, wg := true, ks := true, fns := true, tenants := true, ctxs := true,
      slots := true, combs := true, jobs := true, freeN := true }
  | .cfUpdCommit =>
    { hv := true, store := true, aon := true, ev := true, fns := true, tenants := true, combs := true }
  | .updatePhaseDone .. =>
    { store := true, aon := true, ev := true, hi := true, dma := true, fns := true, tenants := true,
      combs := true, out := true }
  | .updateKeeperTimeout =>
    { store := true, aon := true, ev := true, fns := true, tenants := true, combs := true }
  | .hvSleepEnter .. | .hvSleepWake .. | .sleepWake .. =>
    { hv := true }
  | .tnQcfgCommit .. =>
    { hv := true, tenants := true, queues := true }
  | .schCommit =>
    { hv := true, sch := true }
  | .wgSyncCommit =>
    { hv := true, sync := true }
  | .wgMlogCommit | .wgTselWrite .. =>
    { hv := true, wg := true }
  | .wgTcommit =>
    { hv := true, ev := true, wg := true, fns := true, tenants := true, jobs := true }
  | .registerWrite .. =>
    { hv := true, store := true, otp := true, aon := true, ev := true, hi := true, cap := true, dma := true,
      doe := true, lc := true, peer := true, sync := true, wg := true, adm := true, ks := true, sch := true,
      fns := true, tenants := true, queues := true, rings := true, ctxs := true, slots := true, combs := true,
      jobs := true, nextJob := true, out := true, halves := true, latches := true, retry := true, trngN := true,
      freeN := true }
  | .rcRegisterRead .. | .splitReadLatch .. =>
    { hv := true, store := true, ev := true, hi := true, dma := true, peer := true, sync := true, wg := true,
      ks := true, sch := true, tenants := true, combs := true, latches := true, resp := true, retry := true }
  | .entropySourceHealthFail =>
    { aon := true, ev := true, ks := true, fns := true, tenants := true, combs := true }
  | .debugKeeperHalt .. =>
    { hv := true, store := true, otp := true, aon := true, ev := true, dma := true, doe := true, peer := true,
      wg := true, adm := true, ks := true, sch := true, fns := true, tenants := true, queues := true,
      rings := true, ctxs := true, slots := true, combs := true, jobs := true, out := true, resp := true,
      freeN := true }

/-- The frame of every command, whether it acts or is turned away: the queue of commands and every field of the
state outside its footprint are as they were. A tamper source that reports to an awake Hive serves no held access, and
changes less. -/
def Obligations.Frames : Prop :=
  (∀ c : Instr, Touches (footOf c) c) ∧
  (∀ (c : Instr) (s t : State), TamperSource c → s.hv.pwr = 0 → exec c s = .next t →
    Unch { hv := true, aon := true, ev := true, hi := true, dma := true, lc := true, peer := true, wg := true
           ks := true, fns := true, tenants := true, queues := true, ctxs := true, slots := true, combs := true
           jobs := true, out := true, freeN := true } s t)
end

