-- ==== Sys2Proof/Laws/Tbl.lean ====
section
/-! SUPPORT. What the operations on sparse tables do: read after write, and that each keeps the
canonical form. -/

namespace Sys2Proof.Machine

/-- Every listed number lies above `k`. -/
def tblAbove {V : Type} (k : Nat) (t : Tbl V) : Prop := ∀ e ∈ t, k < e.1

/-- The canonical form, entry by entry. -/
theorem tblWf_cons {V : Type} [DecidableEq V] (d : V) (j : Nat) (v : V) (t : Tbl V) :
    tblWf d ((j, v) :: t) = true ↔ v ≠ d ∧ tblAbove j t ∧ tblWf d t = true := by
  induction t generalizing j v with
  | nil => simp [tblWf, tblAbove]
  | cons e t ih =>
    obtain ⟨k, w⟩ := e
    rw [show tblWf d ((j, v) :: (k, w) :: t) =
      (decide (j < k) && decide (v ≠ d) && tblWf d ((k, w) :: t)) from rfl]
    simp only [Bool.and_eq_true, decide_eq_true_eq]
    constructor
    · rintro ⟨⟨h1, h2⟩, h3⟩
      refine ⟨h2, ?_, h3⟩
      intro x hx
      rcases List.mem_cons.1 hx with rfl | hx
      · exact h1
      · exact Nat.lt_trans h1 (((ih k w).1 h3).2.1 x hx)
    · rintro ⟨h1, h2, h3⟩
      exact ⟨⟨h2 (k, w) (List.mem_cons_self ..), h1⟩, h3⟩

theorem tblGet_above {V : Type} (d : V) (t : Tbl V) (k : Nat) (h : tblAbove k t) : tblGet d t k = d := by
  induction t with
  | nil => rfl
  | cons e t ih =>
    obtain ⟨j, v⟩ := e
    have hj : k < j := h (j, v) (List.mem_cons_self ..)
    rw [tblGet, if_neg (by omega)]
    exact ih fun x hx => h x (List.mem_cons_of_mem _ hx)

/-- Reading what was put. -/
@[simp] theorem tblGet_put_same {V : Type} (d : V) (t : Tbl V) (k : Nat) (v : V) :
    tblGet d (tblPut t k v) k = v := by
  induction t with
  | nil => simp [tblPut, tblGet]
  | cons e t ih =>
    obtain ⟨j, w⟩ := e
    simp only [tblPut]
    split
    · simp [tblGet]
    · split
      · simp [tblGet]
      · rename_i _ h
        simp [tblGet, h, ih]

/-- Putting leaves every other number alone. -/
theorem tblGet_put_other {V : Type} (d : V) (t : Tbl V) (k l : Nat) (v : V) (h : l ≠ k) :
    tblGet d (tblPut t k v) l = tblGet d t l := by
  induction t with
  | nil => simp [tblPut, tblGet, Ne.symm h]
  | cons e t ih =>
    obtain ⟨j, w⟩ := e
    simp only [tblPut]
    split
    · simp [tblGet, Ne.symm h]
    · split
      · rename_i _ hj
        subst hj
        simp [tblGet, Ne.symm h]
      · simp [tblGet, ih]

/-- An erased number reads as an unlisted one. -/
theorem tblGet_erase_same {V : Type} [DecidableEq V] (d : V) (t : Tbl V) (k : Nat) (h : tblWf d t = true) :
    tblGet d (tblErase t k) k = d := by
  induction t with
  | nil => rfl
  | cons e t ih =>
    obtain ⟨j, w⟩ := e
    have hw := (tblWf_cons d j w t).1 h
    simp only [tblErase]
    split
    · rename_i hj
      exact tblGet_above d t k (hj ▸ hw.2.1)
    · rename_i hj
      simp [tblGet, hj, ih hw.2.2]

/-- Erasing leaves every other number alone. -/
theorem tblGet_erase_other {V : Type} (d : V) (t : Tbl V) (k l : Nat) (h : l ≠ k) :
    tblGet d (tblErase t k) l = tblGet d t l := by
  induction t with
  | nil => rfl
  | cons e t ih =>
    obtain ⟨j, w⟩ := e
    simp only [tblErase]
    split
    · rename_i hj
      subst hj
      simp [tblGet, Ne.symm h]
    · simp [tblGet, ih]

/-- Reading what was written. -/
theorem tblGet_set_same {V : Type} [DecidableEq V] (d : V) (t : Tbl V) (k : Nat) (v : V)
    (h : tblWf d t = true) : tblGet d (tblSet d t k v) k = v := by
  unfold tblSet
  split
  · rename_i hv
    rw [tblGet_erase_same d t k h, hv]
  · exact tblGet_put_same d t k v

/-- A write leaves every other number alone. -/
theorem tblGet_set_other {V : Type} [DecidableEq V] (d : V) (t : Tbl V) (k l : Nat) (v : V) (h : l ≠ k) :
    tblGet d (tblSet d t k v) l = tblGet d t l := by
  unfold tblSet
  split
  · exact tblGet_erase_other d t k l h
  · exact tblGet_put_other d t k l v h

theorem tblAbove_erase {V : Type} (t : Tbl V) (j k : Nat) (h : tblAbove j t) : tblAbove j (tblErase t k) := by
  induction t with
  | nil => exact h
  | cons e t ih =>
    obtain ⟨i, w⟩ := e
    have ht : tblAbove j t := fun x hx => h x (List.mem_cons_of_mem _ hx)
    simp only [tblErase]
    split
    · exact ht
    · intro x hx
      rcases List.mem_cons.1 hx with rfl | hx
      · exact h _ (List.mem_cons_self ..)
      · exact ih ht x hx

theorem tblAbove_put {V : Type} (t : Tbl V) (j k : Nat) (v : V) (h : tblAbove j t) (hk : j < k) :
    tblAbove j (tblPut t k v) := by
  induction t with
  | nil => intro x hx; simp [tblPut] at hx; subst hx; exact hk
  | cons e t ih =>
    obtain ⟨i, w⟩ := e
    have ht : tblAbove j t := fun x hx => h x (List.mem_cons_of_mem _ hx)
    simp only [tblPut]
    split
    · intro x hx
      rcases List.mem_cons.1 hx with rfl | hx
      · exact hk
      · exact h x hx
    · split
      · intro x hx
        rcases List.mem_cons.1 hx with rfl | hx
        · exact hk
        · exact ht x hx
      · intro x hx
        rcases List.mem_cons.1 hx with rfl | hx
        · exact h _ (List.mem_cons_self ..)
        · exact ih ht x hx

theorem tblWf_erase {V : Type} [DecidableEq V] (d : V) (t : Tbl V) (k : Nat) (h : tblWf d t = true) :
    tblWf d (tblErase t k) = true := by
  induction t with
  | nil => rfl
  | cons e t ih =>
    obtain ⟨j, w⟩ := e
    have hw := (tblWf_cons d j w t).1 h
    simp only [tblErase]
    split
    · exact hw.2.2
    · exact (tblWf_cons ..).2 ⟨hw.1, tblAbove_erase t j k hw.2.1, ih hw.2.2⟩

theorem tblWf_put {V : Type} [DecidableEq V] (d : V) (t : Tbl V) (k : Nat) (v : V) (h : tblWf d t = true)
    (hv : v ≠ d) : tblWf d (tblPut t k v) = true := by
  induction t with
  | nil => simp [tblPut, tblWf, hv]
  | cons e t ih =>
    obtain ⟨j, w⟩ := e
    have hw := (tblWf_cons d j w t).1 h
    simp only [tblPut]
    split
    · rename_i hk
      refine (tblWf_cons ..).2 ⟨hv, ?_, h⟩
      intro x hx
      rcases List.mem_cons.1 hx with rfl | hx
      · exact hk
      · exact Nat.lt_trans hk (hw.2.1 x hx)
    · split
      · rename_i hj
        exact (tblWf_cons ..).2 ⟨hv, hj ▸ hw.2.1, hw.2.2⟩
      · exact (tblWf_cons ..).2 ⟨hw.1, tblAbove_put t j k v hw.2.1 (by omega), ih hw.2.2⟩

/-- A write keeps the canonical form. -/
theorem tblWf_set {V : Type} [DecidableEq V] (d : V) (t : Tbl V) (k : Nat) (v : V) (h : tblWf d t = true) :
    tblWf d (tblSet d t k v) = true := by
  unfold tblSet
  split
  · exact tblWf_erase d t k h
  · rename_i hv
    exact tblWf_put d t k v h hv

theorem tblWf_filter {V : Type} [DecidableEq V] (d : V) (p : Nat × V → Bool) (t : Tbl V) (h : tblWf d t = true) :
    tblWf d (t.filter p) = true := by
  induction t with
  | nil => rfl
  | cons e t ih =>
    obtain ⟨j, w⟩ := e
    have hw := (tblWf_cons d j w t).1 h
    simp only [List.filter]
    split
    · refine (tblWf_cons ..).2 ⟨hw.1, ?_, ih hw.2.2⟩
      exact fun x hx => hw.2.1 x (List.mem_filter.1 hx).1
    · exact ih hw.2.2

/-- Dropping entries keeps the canonical form. -/
theorem tblWf_drop {V : Type} [DecidableEq V] (d : V) (p : Nat → V → Bool) (t : Tbl V) (h : tblWf d t = true) :
    tblWf d (tblDrop p t) = true := tblWf_filter d _ t h

theorem tblAbove_map {V : Type} [DecidableEq V] (d : V) (f : Nat → V → V) (t : Tbl V) (j : Nat)
    (h : tblAbove j t) : tblAbove j (tblMap d f t) := by
  induction t with
  | nil => exact h
  | cons e t ih =>
    obtain ⟨i, w⟩ := e
    have ht : tblAbove j t := fun x hx => h x (List.mem_cons_of_mem _ hx)
    simp only [tblMap]
    split
    · exact ih ht
    · intro x hx
      rcases List.mem_cons.1 hx with rfl | hx
      · exact h (i, w) (List.mem_cons_self ..)
      · exact ih ht x hx

/-- Changing every entry keeps the canonical form. -/
theorem tblWf_map {V : Type} [DecidableEq V] (d : V) (f : Nat → V → V) (t : Tbl V) (h : tblWf d t = true) :
    tblWf d (tblMap d f t) = true := by
  induction t with
  | nil => rfl
  | cons e t ih =>
    obtain ⟨j, w⟩ := e
    have hw := (tblWf_cons d j w t).1 h
    simp only [tblMap]
    split
    · exact ih hw.2.2
    · rename_i hv
      exact (tblWf_cons ..).2 ⟨hv, tblAbove_map d f t j hw.2.1, ih hw.2.2⟩

/-- Two tables in canonical form that read alike are the same table. -/
theorem tbl_ext {V : Type} [DecidableEq V] (d : V) (t u : Tbl V) (ht : tblWf d t = true) (hu : tblWf d u = true)
    (h : ∀ k, tblGet d t k = tblGet d u k) : t = u := by
  induction t generalizing u with
  | nil =>
    cases u with
    | nil => rfl
    | cons e u =>
      obtain ⟨j, w⟩ := e
      have hw := (tblWf_cons d j w u).1 hu
      have := h j
      simp [tblGet] at this
      exact absurd this.symm hw.1
  | cons e t ih =>
    obtain ⟨j, w⟩ := e
    have hw := (tblWf_cons d j w t).1 ht
    cases u with
    | nil =>
      have := h j
      simp [tblGet] at this
      exact absurd this hw.1
    | cons e' u =>
      obtain ⟨i, x⟩ := e'
      have hx := (tblWf_cons d i x u).1 hu
      have hij : j = i := by
        rcases Nat.lt_trichotomy j i with hlt | heq | hgt
        · have := h j
          rw [tblGet, if_pos rfl, tblGet, if_neg (by omega),
            tblGet_above d u j fun y hy => Nat.lt_trans hlt (hx.2.1 y hy)] at this
          exact absurd this hw.1
        · exact heq
        · have := h i
          rw [tblGet, if_neg (by omega), tblGet_above d t i fun y hy => Nat.lt_trans hgt (hw.2.1 y hy),
            tblGet, if_pos rfl] at this
          exact absurd this.symm hx.1
      subst hij
      have hwx : w = x := by
        have := h j
        simpa [tblGet] using this
      subst hwx
      have : t = u := ih u hw.2.2 hx.2.2 fun k => by
        by_cases hk : j = k
        · subst hk
          rw [tblGet_above d t j hw.2.1, tblGet_above d u j hx.2.1]
        · have := h k
          simpa [tblGet, hk] using this
      rw [this]

end Sys2Proof.Machine
end

