-- ==== Sys2Proof/Laws/State.lean ====
section
/-! SUPPORT. One lemma per field per update of a table entry; reading an entry after an update; and that
every update keeps the canonical form of the tables. -/

namespace Sys2Proof.Machine

variable (s : State)

/-! ## `State.emit` -/

@[simp] theorem State.emit_pending (l : List Out) : (s.emit l).pending = s.pending := by unfold emit; split <;> rfl
@[simp] theorem State.emit_hv (l : List Out) : (s.emit l).hv = s.hv := by unfold emit; split <;> rfl
@[simp] theorem State.emit_store (l : List Out) : (s.emit l).store = s.store := by unfold emit; split <;> rfl
@[simp] theorem State.emit_otp (l : List Out) : (s.emit l).otp = s.otp := by unfold emit; split <;> rfl
@[simp] theorem State.emit_aon (l : List Out) : (s.emit l).aon = s.aon := by unfold emit; split <;> rfl
@[simp] theorem State.emit_ev (l : List Out) : (s.emit l).ev = s.ev := by unfold emit; split <;> rfl
@[simp] theorem State.emit_hi (l : List Out) : (s.emit l).hi = s.hi := by unfold emit; split <;> rfl
@[simp] theorem State.emit_cap (l : List Out) : (s.emit l).cap = s.cap := by unfold emit; split <;> rfl
@[simp] theorem State.emit_dma (l : List Out) : (s.emit l).dma = s.dma := by unfold emit; split <;> rfl
@[simp] theorem State.emit_doe (l : List Out) : (s.emit l).doe = s.doe := by unfold emit; split <;> rfl
@[simp] theorem State.emit_lc (l : List Out) : (s.emit l).lc = s.lc := by unfold emit; split <;> rfl
@[simp] theorem State.emit_peer (l : List Out) : (s.emit l).peer = s.peer := by unfold emit; split <;> rfl
@[simp] theorem State.emit_sync (l : List Out) : (s.emit l).sync = s.sync := by unfold emit; split <;> rfl
@[simp] theorem State.emit_wg (l : List Out) : (s.emit l).wg = s.wg := by unfold emit; split <;> rfl
@[simp] theorem State.emit_adm (l : List Out) : (s.emit l).adm = s.adm := by unfold emit; split <;> rfl
@[simp] theorem State.emit_ks (l : List Out) : (s.emit l).ks = s.ks := by unfold emit; split <;> rfl
@[simp] theorem State.emit_sch (l : List Out) : (s.emit l).sch = s.sch := by unfold emit; split <;> rfl
@[simp] theorem State.emit_fns (l : List Out) : (s.emit l).fns = s.fns := by unfold emit; split <;> rfl
@[simp] theorem State.emit_tenants (l : List Out) : (s.emit l).tenants = s.tenants := by unfold emit; split <;> rfl
@[simp] theorem State.emit_queues (l : List Out) : (s.emit l).queues = s.queues := by unfold emit; split <;> rfl
@[simp] theorem State.emit_rings (l : List Out) : (s.emit l).rings = s.rings := by unfold emit; split <;> rfl
@[simp] theorem State.emit_ctxs (l : List Out) : (s.emit l).ctxs = s.ctxs := by unfold emit; split <;> rfl
@[simp] theorem State.emit_slots (l : List Out) : (s.emit l).slots = s.slots := by unfold emit; split <;> rfl
@[simp] theorem State.emit_combs (l : List Out) : (s.emit l).combs = s.combs := by unfold emit; split <;> rfl
@[simp] theorem State.emit_jobs (l : List Out) : (s.emit l).jobs = s.jobs := by unfold emit; split <;> rfl
@[simp] theorem State.emit_nextJob (l : List Out) : (s.emit l).nextJob = s.nextJob := by unfold emit; split <;> rfl
@[simp] theorem State.emit_halves (l : List Out) : (s.emit l).halves = s.halves := by unfold emit; split <;> rfl
@[simp] theorem State.emit_latches (l : List Out) : (s.emit l).latches = s.latches := by unfold emit; split <;> rfl
@[simp] theorem State.emit_resp (l : List Out) : (s.emit l).resp = s.resp := by unfold emit; split <;> rfl
@[simp] theorem State.emit_retry (l : List Out) : (s.emit l).retry = s.retry := by unfold emit; split <;> rfl
@[simp] theorem State.emit_trngN (l : List Out) : (s.emit l).trngN = s.trngN := by unfold emit; split <;> rfl
@[simp] theorem State.emit_freeN (l : List Out) : (s.emit l).freeN = s.freeN := by unfold emit; split <;> rfl

/-- With the core domains on, what the Hive puts on its boundary leaves (R438). -/
theorem State.emit_out (l : List Out) (h : s.coreOff = false) : (s.emit l).out = s.out ++ l := by simp [emit, h]

/-! ## `State.setQueue` -/

@[simp] theorem State.setQueue_pending (c q : Nat) (v : Queue) : (s.setQueue c q v).pending = s.pending := rfl
@[simp] theorem State.setQueue_hv (c q : Nat) (v : Queue) : (s.setQueue c q v).hv = s.hv := rfl
@[simp] theorem State.setQueue_store (c q : Nat) (v : Queue) : (s.setQueue c q v).store = s.store := rfl
@[simp] theorem State.setQueue_otp (c q : Nat) (v : Queue) : (s.setQueue c q v).otp = s.otp := rfl
@[simp] theorem State.setQueue_aon (c q : Nat) (v : Queue) : (s.setQueue c q v).aon = s.aon := rfl
@[simp] theorem State.setQueue_ev (c q : Nat) (v : Queue) : (s.setQueue c q v).ev = s.ev := rfl
@[simp] theorem State.setQueue_hi (c q : Nat) (v : Queue) : (s.setQueue c q v).hi = s.hi := rfl
@[simp] theorem State.setQueue_cap (c q : Nat) (v : Queue) : (s.setQueue c q v).cap = s.cap := rfl
@[simp] theorem State.setQueue_dma (c q : Nat) (v : Queue) : (s.setQueue c q v).dma = s.dma := rfl
@[simp] theorem State.setQueue_doe (c q : Nat) (v : Queue) : (s.setQueue c q v).doe = s.doe := rfl
@[simp] theorem State.setQueue_lc (c q : Nat) (v : Queue) : (s.setQueue c q v).lc = s.lc := rfl
@[simp] theorem State.setQueue_peer (c q : Nat) (v : Queue) : (s.setQueue c q v).peer = s.peer := rfl
@[simp] theorem State.setQueue_sync (c q : Nat) (v : Queue) : (s.setQueue c q v).sync = s.sync := rfl
@[simp] theorem State.setQueue_wg (c q : Nat) (v : Queue) : (s.setQueue c q v).wg = s.wg := rfl
@[simp] theorem State.setQueue_adm (c q : Nat) (v : Queue) : (s.setQueue c q v).adm = s.adm := rfl
@[simp] theorem State.setQueue_ks (c q : Nat) (v : Queue) : (s.setQueue c q v).ks = s.ks := rfl
@[simp] theorem State.setQueue_sch (c q : Nat) (v : Queue) : (s.setQueue c q v).sch = s.sch := rfl
@[simp] theorem State.setQueue_fns (c q : Nat) (v : Queue) : (s.setQueue c q v).fns = s.fns := rfl
@[simp] theorem State.setQueue_tenants (c q : Nat) (v : Queue) : (s.setQueue c q v).tenants = s.tenants := rfl
@[simp] theorem State.setQueue_rings (c q : Nat) (v : Queue) : (s.setQueue c q v).rings = s.rings := rfl
@[simp] theorem State.setQueue_ctxs (c q : Nat) (v : Queue) : (s.setQueue c q v).ctxs = s.ctxs := rfl
@[simp] theorem State.setQueue_slots (c q : Nat) (v : Queue) : (s.setQueue c q v).slots = s.slots := rfl
@[simp] theorem State.setQueue_combs (c q : Nat) (v : Queue) : (s.setQueue c q v).combs = s.combs := rfl
@[simp] theorem State.setQueue_jobs (c q : Nat) (v : Queue) : (s.setQueue c q v).jobs = s.jobs := rfl
@[simp] theorem State.setQueue_nextJob (c q : Nat) (v : Queue) : (s.setQueue c q v).nextJob = s.nextJob := rfl
@[simp] theorem State.setQueue_out (c q : Nat) (v : Queue) : (s.setQueue c q v).out = s.out := rfl
@[simp] theorem State.setQueue_halves (c q : Nat) (v : Queue) : (s.setQueue c q v).halves = s.halves := rfl
@[simp] theorem State.setQueue_latches (c q : Nat) (v : Queue) : (s.setQueue c q v).latches = s.latches := rfl
@[simp] theorem State.setQueue_resp (c q : Nat) (v : Queue) : (s.setQueue c q v).resp = s.resp := rfl
@[simp] theorem State.setQueue_retry (c q : Nat) (v : Queue) : (s.setQueue c q v).retry = s.retry := rfl
@[simp] theorem State.setQueue_trngN (c q : Nat) (v : Queue) : (s.setQueue c q v).trngN = s.trngN := rfl
@[simp] theorem State.setQueue_freeN (c q : Nat) (v : Queue) : (s.setQueue c q v).freeN = s.freeN := rfl
@[simp] theorem State.setQueue_get_tenant (c q : Nat) (v : Queue) (a : Nat) : (s.setQueue c q v).tenant a = s.tenant a := rfl
@[simp] theorem State.setQueue_get_func (c q : Nat) (v : Queue) (a : Nat) : (s.setQueue c q v).func a = s.func a := rfl
@[simp] theorem State.setQueue_get_ring (c q : Nat) (v : Queue) (a b : Nat) : (s.setQueue c q v).ring a b = s.ring a b := rfl
@[simp] theorem State.setQueue_get_ctx (c q : Nat) (v : Queue) (a b : Nat) : (s.setQueue c q v).ctx a b = s.ctx a b := rfl
@[simp] theorem State.setQueue_get_slot (c q : Nat) (v : Queue) (a : Nat) : (s.setQueue c q v).slot a = s.slot a := rfl
@[simp] theorem State.setQueue_get_comb (c q : Nat) (v : Queue) (a : Nat) : (s.setQueue c q v).comb a = s.comb a := rfl
@[simp] theorem State.setQueue_get_job (c q : Nat) (v : Queue) (a : Nat) : (s.setQueue c q v).job a = s.job a := rfl

/-! ## `State.modQueue` -/

@[simp] theorem State.modQueue_pending (c q : Nat) (f : Queue → Queue) : (s.modQueue c q f).pending = s.pending := rfl
@[simp] theorem State.modQueue_hv (c q : Nat) (f : Queue → Queue) : (s.modQueue c q f).hv = s.hv := rfl
@[simp] theorem State.modQueue_store (c q : Nat) (f : Queue → Queue) : (s.modQueue c q f).store = s.store := rfl
@[simp] theorem State.modQueue_otp (c q : Nat) (f : Queue → Queue) : (s.modQueue c q f).otp = s.otp := rfl
@[simp] theorem State.modQueue_aon (c q : Nat) (f : Queue → Queue) : (s.modQueue c q f).aon = s.aon := rfl
@[simp] theorem State.modQueue_ev (c q : Nat) (f : Queue → Queue) : (s.modQueue c q f).ev = s.ev := rfl
@[simp] theorem State.modQueue_hi (c q : Nat) (f : Queue → Queue) : (s.modQueue c q f).hi = s.hi := rfl
@[simp] theorem State.modQueue_cap (c q : Nat) (f : Queue → Queue) : (s.modQueue c q f).cap = s.cap := rfl
@[simp] theorem State.modQueue_dma (c q : Nat) (f : Queue → Queue) : (s.modQueue c q f).dma = s.dma := rfl
@[simp] theorem State.modQueue_doe (c q : Nat) (f : Queue → Queue) : (s.modQueue c q f).doe = s.doe := rfl
@[simp] theorem State.modQueue_lc (c q : Nat) (f : Queue → Queue) : (s.modQueue c q f).lc = s.lc := rfl
@[simp] theorem State.modQueue_peer (c q : Nat) (f : Queue → Queue) : (s.modQueue c q f).peer = s.peer := rfl
@[simp] theorem State.modQueue_sync (c q : Nat) (f : Queue → Queue) : (s.modQueue c q f).sync = s.sync := rfl
@[simp] theorem State.modQueue_wg (c q : Nat) (f : Queue → Queue) : (s.modQueue c q f).wg = s.wg := rfl
@[simp] theorem State.modQueue_adm (c q : Nat) (f : Queue → Queue) : (s.modQueue c q f).adm = s.adm := rfl
@[simp] theorem State.modQueue_ks (c q : Nat) (f : Queue → Queue) : (s.modQueue c q f).ks = s.ks := rfl
@[simp] theorem State.modQueue_sch (c q : Nat) (f : Queue → Queue) : (s.modQueue c q f).sch = s.sch := rfl
@[simp] theorem State.modQueue_fns (c q : Nat) (f : Queue → Queue) : (s.modQueue c q f).fns = s.fns := rfl
@[simp] theorem State.modQueue_tenants (c q : Nat) (f : Queue → Queue) : (s.modQueue c q f).tenants = s.tenants := rfl
@[simp] theorem State.modQueue_rings (c q : Nat) (f : Queue → Queue) : (s.modQueue c q f).rings = s.rings := rfl
@[simp] theorem State.modQueue_ctxs (c q : Nat) (f : Queue → Queue) : (s.modQueue c q f).ctxs = s.ctxs := rfl
@[simp] theorem State.modQueue_slots (c q : Nat) (f : Queue → Queue) : (s.modQueue c q f).slots = s.slots := rfl
@[simp] theorem State.modQueue_combs (c q : Nat) (f : Queue → Queue) : (s.modQueue c q f).combs = s.combs := rfl
@[simp] theorem State.modQueue_jobs (c q : Nat) (f : Queue → Queue) : (s.modQueue c q f).jobs = s.jobs := rfl
@[simp] theorem State.modQueue_nextJob (c q : Nat) (f : Queue → Queue) : (s.modQueue c q f).nextJob = s.nextJob := rfl
@[simp] theorem State.modQueue_out (c q : Nat) (f : Queue → Queue) : (s.modQueue c q f).out = s.out := rfl
@[simp] theorem State.modQueue_halves (c q : Nat) (f : Queue → Queue) : (s.modQueue c q f).halves = s.halves := rfl
@[simp] theorem State.modQueue_latches (c q : Nat) (f : Queue → Queue) : (s.modQueue c q f).latches = s.latches := rfl
@[simp] theorem State.modQueue_resp (c q : Nat) (f : Queue → Queue) : (s.modQueue c q f).resp = s.resp := rfl
@[simp] theorem State.modQueue_retry (c q : Nat) (f : Queue → Queue) : (s.modQueue c q f).retry = s.retry := rfl
@[simp] theorem State.modQueue_trngN (c q : Nat) (f : Queue → Queue) : (s.modQueue c q f).trngN = s.trngN := rfl
@[simp] theorem State.modQueue_freeN (c q : Nat) (f : Queue → Queue) : (s.modQueue c q f).freeN = s.freeN := rfl
@[simp] theorem State.modQueue_get_tenant (c q : Nat) (f : Queue → Queue) (a : Nat) : (s.modQueue c q f).tenant a = s.tenant a := rfl
@[simp] theorem State.modQueue_get_func (c q : Nat) (f : Queue → Queue) (a : Nat) : (s.modQueue c q f).func a = s.func a := rfl
@[simp] theorem State.modQueue_get_ring (c q : Nat) (f : Queue → Queue) (a b : Nat) : (s.modQueue c q f).ring a b = s.ring a b := rfl
@[simp] theorem State.modQueue_get_ctx (c q : Nat) (f : Queue → Queue) (a b : Nat) : (s.modQueue c q f).ctx a b = s.ctx a b := rfl
@[simp] theorem State.modQueue_get_slot (c q : Nat) (f : Queue → Queue) (a : Nat) : (s.modQueue c q f).slot a = s.slot a := rfl
@[simp] theorem State.modQueue_get_comb (c q : Nat) (f : Queue → Queue) (a : Nat) : (s.modQueue c q f).comb a = s.comb a := rfl
@[simp] theorem State.modQueue_get_job (c q : Nat) (f : Queue → Queue) (a : Nat) : (s.modQueue c q f).job a = s.job a := rfl

/-! ## `State.modTenant` -/

@[simp] theorem State.modTenant_pending (c : Nat) (f : Tenant → Tenant) : (s.modTenant c f).pending = s.pending := rfl
@[simp] theorem State.modTenant_hv (c : Nat) (f : Tenant → Tenant) : (s.modTenant c f).hv = s.hv := rfl
@[simp] theorem State.modTenant_store (c : Nat) (f : Tenant → Tenant) : (s.modTenant c f).store = s.store := rfl
@[simp] theorem State.modTenant_otp (c : Nat) (f : Tenant → Tenant) : (s.modTenant c f).otp = s.otp := rfl
@[simp] theorem State.modTenant_aon (c : Nat) (f : Tenant → Tenant) : (s.modTenant c f).aon = s.aon := rfl
@[simp] theorem State.modTenant_ev (c : Nat) (f : Tenant → Tenant) : (s.modTenant c f).ev = s.ev := rfl
@[simp] theorem State.modTenant_hi (c : Nat) (f : Tenant → Tenant) : (s.modTenant c f).hi = s.hi := rfl
@[simp] theorem State.modTenant_cap (c : Nat) (f : Tenant → Tenant) : (s.modTenant c f).cap = s.cap := rfl
@[simp] theorem State.modTenant_dma (c : Nat) (f : Tenant → Tenant) : (s.modTenant c f).dma = s.dma := rfl
@[simp] theorem State.modTenant_doe (c : Nat) (f : Tenant → Tenant) : (s.modTenant c f).doe = s.doe := rfl
@[simp] theorem State.modTenant_lc (c : Nat) (f : Tenant → Tenant) : (s.modTenant c f).lc = s.lc := rfl
@[simp] theorem State.modTenant_peer (c : Nat) (f : Tenant → Tenant) : (s.modTenant c f).peer = s.peer := rfl
@[simp] theorem State.modTenant_sync (c : Nat) (f : Tenant → Tenant) : (s.modTenant c f).sync = s.sync := rfl
@[simp] theorem State.modTenant_wg (c : Nat) (f : Tenant → Tenant) : (s.modTenant c f).wg = s.wg := rfl
@[simp] theorem State.modTenant_adm (c : Nat) (f : Tenant → Tenant) : (s.modTenant c f).adm = s.adm := rfl
@[simp] theorem State.modTenant_ks (c : Nat) (f : Tenant → Tenant) : (s.modTenant c f).ks = s.ks := rfl
@[simp] theorem State.modTenant_sch (c : Nat) (f : Tenant → Tenant) : (s.modTenant c f).sch = s.sch := rfl
@[simp] theorem State.modTenant_fns (c : Nat) (f : Tenant → Tenant) : (s.modTenant c f).fns = s.fns := rfl
@[simp] theorem State.modTenant_queues (c : Nat) (f : Tenant → Tenant) : (s.modTenant c f).queues = s.queues := rfl
@[simp] theorem State.modTenant_rings (c : Nat) (f : Tenant → Tenant) : (s.modTenant c f).rings = s.rings := rfl
@[simp] theorem State.modTenant_ctxs (c : Nat) (f : Tenant → Tenant) : (s.modTenant c f).ctxs = s.ctxs := rfl
@[simp] theorem State.modTenant_slots (c : Nat) (f : Tenant → Tenant) : (s.modTenant c f).slots = s.slots := rfl
@[simp] theorem State.modTenant_combs (c : Nat) (f : Tenant → Tenant) : (s.modTenant c f).combs = s.combs := rfl
@[simp] theorem State.modTenant_jobs (c : Nat) (f : Tenant → Tenant) : (s.modTenant c f).jobs = s.jobs := rfl
@[simp] theorem State.modTenant_nextJob (c : Nat) (f : Tenant → Tenant) : (s.modTenant c f).nextJob = s.nextJob := rfl
@[simp] theorem State.modTenant_out (c : Nat) (f : Tenant → Tenant) : (s.modTenant c f).out = s.out := rfl
@[simp] theorem State.modTenant_halves (c : Nat) (f : Tenant → Tenant) : (s.modTenant c f).halves = s.halves := rfl
@[simp] theorem State.modTenant_latches (c : Nat) (f : Tenant → Tenant) : (s.modTenant c f).latches = s.latches := rfl
@[simp] theorem State.modTenant_resp (c : Nat) (f : Tenant → Tenant) : (s.modTenant c f).resp = s.resp := rfl
@[simp] theorem State.modTenant_retry (c : Nat) (f : Tenant → Tenant) : (s.modTenant c f).retry = s.retry := rfl
@[simp] theorem State.modTenant_trngN (c : Nat) (f : Tenant → Tenant) : (s.modTenant c f).trngN = s.trngN := rfl
@[simp] theorem State.modTenant_freeN (c : Nat) (f : Tenant → Tenant) : (s.modTenant c f).freeN = s.freeN := rfl
@[simp] theorem State.modTenant_get_queue (c : Nat) (f : Tenant → Tenant) (a b : Nat) : (s.modTenant c f).queue a b = s.queue a b := rfl
@[simp] theorem State.modTenant_get_func (c : Nat) (f : Tenant → Tenant) (a : Nat) : (s.modTenant c f).func a = s.func a := rfl
@[simp] theorem State.modTenant_get_ring (c : Nat) (f : Tenant → Tenant) (a b : Nat) : (s.modTenant c f).ring a b = s.ring a b := rfl
@[simp] theorem State.modTenant_get_ctx (c : Nat) (f : Tenant → Tenant) (a b : Nat) : (s.modTenant c f).ctx a b = s.ctx a b := rfl
@[simp] theorem State.modTenant_get_slot (c : Nat) (f : Tenant → Tenant) (a : Nat) : (s.modTenant c f).slot a = s.slot a := rfl
@[simp] theorem State.modTenant_get_comb (c : Nat) (f : Tenant → Tenant) (a : Nat) : (s.modTenant c f).comb a = s.comb a := rfl
@[simp] theorem State.modTenant_get_job (c : Nat) (f : Tenant → Tenant) (a : Nat) : (s.modTenant c f).job a = s.job a := rfl

/-! ## `State.modFunc` -/

@[simp] theorem State.modFunc_pending (c : Nat) (f : Func → Func) : (s.modFunc c f).pending = s.pending := rfl
@[simp] theorem State.modFunc_hv (c : Nat) (f : Func → Func) : (s.modFunc c f).hv = s.hv := rfl
@[simp] theorem State.modFunc_store (c : Nat) (f : Func → Func) : (s.modFunc c f).store = s.store := rfl
@[simp] theorem State.modFunc_otp (c : Nat) (f : Func → Func) : (s.modFunc c f).otp = s.otp := rfl
@[simp] theorem State.modFunc_aon (c : Nat) (f : Func → Func) : (s.modFunc c f).aon = s.aon := rfl
@[simp] theorem State.modFunc_ev (c : Nat) (f : Func → Func) : (s.modFunc c f).ev = s.ev := rfl
@[simp] theorem State.modFunc_hi (c : Nat) (f : Func → Func) : (s.modFunc c f).hi = s.hi := rfl
@[simp] theorem State.modFunc_cap (c : Nat) (f : Func → Func) : (s.modFunc c f).cap = s.cap := rfl
@[simp] theorem State.modFunc_dma (c : Nat) (f : Func → Func) : (s.modFunc c f).dma = s.dma := rfl
@[simp] theorem State.modFunc_doe (c : Nat) (f : Func → Func) : (s.modFunc c f).doe = s.doe := rfl
@[simp] theorem State.modFunc_lc (c : Nat) (f : Func → Func) : (s.modFunc c f).lc = s.lc := rfl
@[simp] theorem State.modFunc_peer (c : Nat) (f : Func → Func) : (s.modFunc c f).peer = s.peer := rfl
@[simp] theorem State.modFunc_sync (c : Nat) (f : Func → Func) : (s.modFunc c f).sync = s.sync := rfl
@[simp] theorem State.modFunc_wg (c : Nat) (f : Func → Func) : (s.modFunc c f).wg = s.wg := rfl
@[simp] theorem State.modFunc_adm (c : Nat) (f : Func → Func) : (s.modFunc c f).adm = s.adm := rfl
@[simp] theorem State.modFunc_ks (c : Nat) (f : Func → Func) : (s.modFunc c f).ks = s.ks := rfl
@[simp] theorem State.modFunc_sch (c : Nat) (f : Func → Func) : (s.modFunc c f).sch = s.sch := rfl
@[simp] theorem State.modFunc_tenants (c : Nat) (f : Func → Func) : (s.modFunc c f).tenants = s.tenants := rfl
@[simp] theorem State.modFunc_queues (c : Nat) (f : Func → Func) : (s.modFunc c f).queues = s.queues := rfl
@[simp] theorem State.modFunc_rings (c : Nat) (f : Func → Func) : (s.modFunc c f).rings = s.rings := rfl
@[simp] theorem State.modFunc_ctxs (c : Nat) (f : Func → Func) : (s.modFunc c f).ctxs = s.ctxs := rfl
@[simp] theorem State.modFunc_slots (c : Nat) (f : Func → Func) : (s.modFunc c f).slots = s.slots := rfl
@[simp] theorem State.modFunc_combs (c : Nat) (f : Func → Func) : (s.modFunc c f).combs = s.combs := rfl
@[simp] theorem State.modFunc_jobs (c : Nat) (f : Func → Func) : (s.modFunc c f).jobs = s.jobs := rfl
@[simp] theorem State.modFunc_nextJob (c : Nat) (f : Func → Func) : (s.modFunc c f).nextJob = s.nextJob := rfl
@[simp] theorem State.modFunc_out (c : Nat) (f : Func → Func) : (s.modFunc c f).out = s.out := rfl
@[simp] theorem State.modFunc_halves (c : Nat) (f : Func → Func) : (s.modFunc c f).halves = s.halves := rfl
@[simp] theorem State.modFunc_latches (c : Nat) (f : Func → Func) : (s.modFunc c f).latches = s.latches := rfl
@[simp] theorem State.modFunc_resp (c : Nat) (f : Func → Func) : (s.modFunc c f).resp = s.resp := rfl
@[simp] theorem State.modFunc_retry (c : Nat) (f : Func → Func) : (s.modFunc c f).retry = s.retry := rfl
@[simp] theorem State.modFunc_trngN (c : Nat) (f : Func → Func) : (s.modFunc c f).trngN = s.trngN := rfl
@[simp] theorem State.modFunc_freeN (c : Nat) (f : Func → Func) : (s.modFunc c f).freeN = s.freeN := rfl
@[simp] theorem State.modFunc_get_queue (c : Nat) (f : Func → Func) (a b : Nat) : (s.modFunc c f).queue a b = s.queue a b := rfl
@[simp] theorem State.modFunc_get_tenant (c : Nat) (f : Func → Func) (a : Nat) : (s.modFunc c f).tenant a = s.tenant a := rfl
@[simp] theorem State.modFunc_get_ring (c : Nat) (f : Func → Func) (a b : Nat) : (s.modFunc c f).ring a b = s.ring a b := rfl
@[simp] theorem State.modFunc_get_ctx (c : Nat) (f : Func → Func) (a b : Nat) : (s.modFunc c f).ctx a b = s.ctx a b := rfl
@[simp] theorem State.modFunc_get_slot (c : Nat) (f : Func → Func) (a : Nat) : (s.modFunc c f).slot a = s.slot a := rfl
@[simp] theorem State.modFunc_get_comb (c : Nat) (f : Func → Func) (a : Nat) : (s.modFunc c f).comb a = s.comb a := rfl
@[simp] theorem State.modFunc_get_job (c : Nat) (f : Func → Func) (a : Nat) : (s.modFunc c f).job a = s.job a := rfl

/-! ## `State.modRing` -/

@[simp] theorem State.modRing_pending (c r : Nat) (f : CrRing → CrRing) : (s.modRing c r f).pending = s.pending := rfl
@[simp] theorem State.modRing_hv (c r : Nat) (f : CrRing → CrRing) : (s.modRing c r f).hv = s.hv := rfl
@[simp] theorem State.modRing_store (c r : Nat) (f : CrRing → CrRing) : (s.modRing c r f).store = s.store := rfl
@[simp] theorem State.modRing_otp (c r : Nat) (f : CrRing → CrRing) : (s.modRing c r f).otp = s.otp := rfl
@[simp] theorem State.modRing_aon (c r : Nat) (f : CrRing → CrRing) : (s.modRing c r f).aon = s.aon := rfl
@[simp] theorem State.modRing_ev (c r : Nat) (f : CrRing → CrRing) : (s.modRing c r f).ev = s.ev := rfl
@[simp] theorem State.modRing_hi (c r : Nat) (f : CrRing → CrRing) : (s.modRing c r f).hi = s.hi := rfl
@[simp] theorem State.modRing_cap (c r : Nat) (f : CrRing → CrRing) : (s.modRing c r f).cap = s.cap := rfl
@[simp] theorem State.modRing_dma (c r : Nat) (f : CrRing → CrRing) : (s.modRing c r f).dma = s.dma := rfl
@[simp] theorem State.modRing_doe (c r : Nat) (f : CrRing → CrRing) : (s.modRing c r f).doe = s.doe := rfl
@[simp] theorem State.modRing_lc (c r : Nat) (f : CrRing → CrRing) : (s.modRing c r f).lc = s.lc := rfl
@[simp] theorem State.modRing_peer (c r : Nat) (f : CrRing → CrRing) : (s.modRing c r f).peer = s.peer := rfl
@[simp] theorem State.modRing_sync (c r : Nat) (f : CrRing → CrRing) : (s.modRing c r f).sync = s.sync := rfl
@[simp] theorem State.modRing_wg (c r : Nat) (f : CrRing → CrRing) : (s.modRing c r f).wg = s.wg := rfl
@[simp] theorem State.modRing_adm (c r : Nat) (f : CrRing → CrRing) : (s.modRing c r f).adm = s.adm := rfl
@[simp] theorem State.modRing_ks (c r : Nat) (f : CrRing → CrRing) : (s.modRing c r f).ks = s.ks := rfl
@[simp] theorem State.modRing_sch (c r : Nat) (f : CrRing → CrRing) : (s.modRing c r f).sch = s.sch := rfl
@[simp] theorem State.modRing_fns (c r : Nat) (f : CrRing → CrRing) : (s.modRing c r f).fns = s.fns := rfl
@[simp] theorem State.modRing_tenants (c r : Nat) (f : CrRing → CrRing) : (s.modRing c r f).tenants = s.tenants := rfl
@[simp] theorem State.modRing_queues (c r : Nat) (f : CrRing → CrRing) : (s.modRing c r f).queues = s.queues := rfl
@[simp] theorem State.modRing_ctxs (c r : Nat) (f : CrRing → CrRing) : (s.modRing c r f).ctxs = s.ctxs := rfl
@[simp] theorem State.modRing_slots (c r : Nat) (f : CrRing → CrRing) : (s.modRing c r f).slots = s.slots := rfl
@[simp] theorem State.modRing_combs (c r : Nat) (f : CrRing → CrRing) : (s.modRing c r f).combs = s.combs := rfl
@[simp] theorem State.modRing_jobs (c r : Nat) (f : CrRing → CrRing) : (s.modRing c r f).jobs = s.jobs := rfl
@[simp] theorem State.modRing_nextJob (c r : Nat) (f : CrRing → CrRing) : (s.modRing c r f).nextJob = s.nextJob := rfl
@[simp] theorem State.modRing_out (c r : Nat) (f : CrRing → CrRing) : (s.modRing c r f).out = s.out := rfl
@[simp] theorem State.modRing_halves (c r : Nat) (f : CrRing → CrRing) : (s.modRing c r f).halves = s.halves := rfl
@[simp] theorem State.modRing_latches (c r : Nat) (f : CrRing → CrRing) : (s.modRing c r f).latches = s.latches := rfl
@[simp] theorem State.modRing_resp (c r : Nat) (f : CrRing → CrRing) : (s.modRing c r f).resp = s.resp := rfl
@[simp] theorem State.modRing_retry (c r : Nat) (f : CrRing → CrRing) : (s.modRing c r f).retry = s.retry := rfl
@[simp] theorem State.modRing_trngN (c r : Nat) (f : CrRing → CrRing) : (s.modRing c r f).trngN = s.trngN := rfl
@[simp] theorem State.modRing_freeN (c r : Nat) (f : CrRing → CrRing) : (s.modRing c r f).freeN = s.freeN := rfl
@[simp] theorem State.modRing_get_queue (c r : Nat) (f : CrRing → CrRing) (a b : Nat) : (s.modRing c r f).queue a b = s.queue a b := rfl
@[simp] theorem State.modRing_get_tenant (c r : Nat) (f : CrRing → CrRing) (a : Nat) : (s.modRing c r f).tenant a = s.tenant a := rfl
@[simp] theorem State.modRing_get_func (c r : Nat) (f : CrRing → CrRing) (a : Nat) : (s.modRing c r f).func a = s.func a := rfl
@[simp] theorem State.modRing_get_ctx (c r : Nat) (f : CrRing → CrRing) (a b : Nat) : (s.modRing c r f).ctx a b = s.ctx a b := rfl
@[simp] theorem State.modRing_get_slot (c r : Nat) (f : CrRing → CrRing) (a : Nat) : (s.modRing c r f).slot a = s.slot a := rfl
@[simp] theorem State.modRing_get_comb (c r : Nat) (f : CrRing → CrRing) (a : Nat) : (s.modRing c r f).comb a = s.comb a := rfl
@[simp] theorem State.modRing_get_job (c r : Nat) (f : CrRing → CrRing) (a : Nat) : (s.modRing c r f).job a = s.job a := rfl

/-! ## `State.modCtx` -/

@[simp] theorem State.modCtx_pending (c x : Nat) (f : Ctx → Ctx) : (s.modCtx c x f).pending = s.pending := rfl
@[simp] theorem State.modCtx_hv (c x : Nat) (f : Ctx → Ctx) : (s.modCtx c x f).hv = s.hv := rfl
@[simp] theorem State.modCtx_store (c x : Nat) (f : Ctx → Ctx) : (s.modCtx c x f).store = s.store := rfl
@[simp] theorem State.modCtx_otp (c x : Nat) (f : Ctx → Ctx) : (s.modCtx c x f).otp = s.otp := rfl
@[simp] theorem State.modCtx_aon (c x : Nat) (f : Ctx → Ctx) : (s.modCtx c x f).aon = s.aon := rfl
@[simp] theorem State.modCtx_ev (c x : Nat) (f : Ctx → Ctx) : (s.modCtx c x f).ev = s.ev := rfl
@[simp] theorem State.modCtx_hi (c x : Nat) (f : Ctx → Ctx) : (s.modCtx c x f).hi = s.hi := rfl
@[simp] theorem State.modCtx_cap (c x : Nat) (f : Ctx → Ctx) : (s.modCtx c x f).cap = s.cap := rfl
@[simp] theorem State.modCtx_dma (c x : Nat) (f : Ctx → Ctx) : (s.modCtx c x f).dma = s.dma := rfl
@[simp] theorem State.modCtx_doe (c x : Nat) (f : Ctx → Ctx) : (s.modCtx c x f).doe = s.doe := rfl
@[simp] theorem State.modCtx_lc (c x : Nat) (f : Ctx → Ctx) : (s.modCtx c x f).lc = s.lc := rfl
@[simp] theorem State.modCtx_peer (c x : Nat) (f : Ctx → Ctx) : (s.modCtx c x f).peer = s.peer := rfl
@[simp] theorem State.modCtx_sync (c x : Nat) (f : Ctx → Ctx) : (s.modCtx c x f).sync = s.sync := rfl
@[simp] theorem State.modCtx_wg (c x : Nat) (f : Ctx → Ctx) : (s.modCtx c x f).wg = s.wg := rfl
@[simp] theorem State.modCtx_adm (c x : Nat) (f : Ctx → Ctx) : (s.modCtx c x f).adm = s.adm := rfl
@[simp] theorem State.modCtx_ks (c x : Nat) (f : Ctx → Ctx) : (s.modCtx c x f).ks = s.ks := rfl
@[simp] theorem State.modCtx_sch (c x : Nat) (f : Ctx → Ctx) : (s.modCtx c x f).sch = s.sch := rfl
@[simp] theorem State.modCtx_fns (c x : Nat) (f : Ctx → Ctx) : (s.modCtx c x f).fns = s.fns := rfl
@[simp] theorem State.modCtx_tenants (c x : Nat) (f : Ctx → Ctx) : (s.modCtx c x f).tenants = s.tenants := rfl
@[simp] theorem State.modCtx_queues (c x : Nat) (f : Ctx → Ctx) : (s.modCtx c x f).queues = s.queues := rfl
@[simp] theorem State.modCtx_rings (c x : Nat) (f : Ctx → Ctx) : (s.modCtx c x f).rings = s.rings := rfl
@[simp] theorem State.modCtx_slots (c x : Nat) (f : Ctx → Ctx) : (s.modCtx c x f).slots = s.slots := rfl
@[simp] theorem State.modCtx_combs (c x : Nat) (f : Ctx → Ctx) : (s.modCtx c x f).combs = s.combs := rfl
@[simp] theorem State.modCtx_jobs (c x : Nat) (f : Ctx → Ctx) : (s.modCtx c x f).jobs = s.jobs := rfl
@[simp] theorem State.modCtx_nextJob (c x : Nat) (f : Ctx → Ctx) : (s.modCtx c x f).nextJob = s.nextJob := rfl
@[simp] theorem State.modCtx_out (c x : Nat) (f : Ctx → Ctx) : (s.modCtx c x f).out = s.out := rfl
@[simp] theorem State.modCtx_halves (c x : Nat) (f : Ctx → Ctx) : (s.modCtx c x f).halves = s.halves := rfl
@[simp] theorem State.modCtx_latches (c x : Nat) (f : Ctx → Ctx) : (s.modCtx c x f).latches = s.latches := rfl
@[simp] theorem State.modCtx_resp (c x : Nat) (f : Ctx → Ctx) : (s.modCtx c x f).resp = s.resp := rfl
@[simp] theorem State.modCtx_retry (c x : Nat) (f : Ctx → Ctx) : (s.modCtx c x f).retry = s.retry := rfl
@[simp] theorem State.modCtx_trngN (c x : Nat) (f : Ctx → Ctx) : (s.modCtx c x f).trngN = s.trngN := rfl
@[simp] theorem State.modCtx_freeN (c x : Nat) (f : Ctx → Ctx) : (s.modCtx c x f).freeN = s.freeN := rfl
@[simp] theorem State.modCtx_get_queue (c x : Nat) (f : Ctx → Ctx) (a b : Nat) : (s.modCtx c x f).queue a b = s.queue a b := rfl
@[simp] theorem State.modCtx_get_tenant (c x : Nat) (f : Ctx → Ctx) (a : Nat) : (s.modCtx c x f).tenant a = s.tenant a := rfl
@[simp] theorem State.modCtx_get_func (c x : Nat) (f : Ctx → Ctx) (a : Nat) : (s.modCtx c x f).func a = s.func a := rfl
@[simp] theorem State.modCtx_get_ring (c x : Nat) (f : Ctx → Ctx) (a b : Nat) : (s.modCtx c x f).ring a b = s.ring a b := rfl
@[simp] theorem State.modCtx_get_slot (c x : Nat) (f : Ctx → Ctx) (a : Nat) : (s.modCtx c x f).slot a = s.slot a := rfl
@[simp] theorem State.modCtx_get_comb (c x : Nat) (f : Ctx → Ctx) (a : Nat) : (s.modCtx c x f).comb a = s.comb a := rfl
@[simp] theorem State.modCtx_get_job (c x : Nat) (f : Ctx → Ctx) (a : Nat) : (s.modCtx c x f).job a = s.job a := rfl

/-! ## `State.modSlot` -/

@[simp] theorem State.modSlot_pending (p : Nat) (f : KSlot → KSlot) : (s.modSlot p f).pending = s.pending := rfl
@[simp] theorem State.modSlot_hv (p : Nat) (f : KSlot → KSlot) : (s.modSlot p f).hv = s.hv := rfl
@[simp] theorem State.modSlot_store (p : Nat) (f : KSlot → KSlot) : (s.modSlot p f).store = s.store := rfl
@[simp] theorem State.modSlot_otp (p : Nat) (f : KSlot → KSlot) : (s.modSlot p f).otp = s.otp := rfl
@[simp] theorem State.modSlot_aon (p : Nat) (f : KSlot → KSlot) : (s.modSlot p f).aon = s.aon := rfl
@[simp] theorem State.modSlot_ev (p : Nat) (f : KSlot → KSlot) : (s.modSlot p f).ev = s.ev := rfl
@[simp] theorem State.modSlot_hi (p : Nat) (f : KSlot → KSlot) : (s.modSlot p f).hi = s.hi := rfl
@[simp] theorem State.modSlot_cap (p : Nat) (f : KSlot → KSlot) : (s.modSlot p f).cap = s.cap := rfl
@[simp] theorem State.modSlot_dma (p : Nat) (f : KSlot → KSlot) : (s.modSlot p f).dma = s.dma := rfl
@[simp] theorem State.modSlot_doe (p : Nat) (f : KSlot → KSlot) : (s.modSlot p f).doe = s.doe := rfl
@[simp] theorem State.modSlot_lc (p : Nat) (f : KSlot → KSlot) : (s.modSlot p f).lc = s.lc := rfl
@[simp] theorem State.modSlot_peer (p : Nat) (f : KSlot → KSlot) : (s.modSlot p f).peer = s.peer := rfl
@[simp] theorem State.modSlot_sync (p : Nat) (f : KSlot → KSlot) : (s.modSlot p f).sync = s.sync := rfl
@[simp] theorem State.modSlot_wg (p : Nat) (f : KSlot → KSlot) : (s.modSlot p f).wg = s.wg := rfl
@[simp] theorem State.modSlot_adm (p : Nat) (f : KSlot → KSlot) : (s.modSlot p f).adm = s.adm := rfl
@[simp] theorem State.modSlot_ks (p : Nat) (f : KSlot → KSlot) : (s.modSlot p f).ks = s.ks := rfl
@[simp] theorem State.modSlot_sch (p : Nat) (f : KSlot → KSlot) : (s.modSlot p f).sch = s.sch := rfl
@[simp] theorem State.modSlot_fns (p : Nat) (f : KSlot → KSlot) : (s.modSlot p f).fns = s.fns := rfl
@[simp] theorem State.modSlot_tenants (p : Nat) (f : KSlot → KSlot) : (s.modSlot p f).tenants = s.tenants := rfl
@[simp] theorem State.modSlot_queues (p : Nat) (f : KSlot → KSlot) : (s.modSlot p f).queues = s.queues := rfl
@[simp] theorem State.modSlot_rings (p : Nat) (f : KSlot → KSlot) : (s.modSlot p f).rings = s.rings := rfl
@[simp] theorem State.modSlot_ctxs (p : Nat) (f : KSlot → KSlot) : (s.modSlot p f).ctxs = s.ctxs := rfl
@[simp] theorem State.modSlot_combs (p : Nat) (f : KSlot → KSlot) : (s.modSlot p f).combs = s.combs := rfl
@[simp] theorem State.modSlot_jobs (p : Nat) (f : KSlot → KSlot) : (s.modSlot p f).jobs = s.jobs := rfl
@[simp] theorem State.modSlot_nextJob (p : Nat) (f : KSlot → KSlot) : (s.modSlot p f).nextJob = s.nextJob := rfl
@[simp] theorem State.modSlot_out (p : Nat) (f : KSlot → KSlot) : (s.modSlot p f).out = s.out := rfl
@[simp] theorem State.modSlot_halves (p : Nat) (f : KSlot → KSlot) : (s.modSlot p f).halves = s.halves := rfl
@[simp] theorem State.modSlot_latches (p : Nat) (f : KSlot → KSlot) : (s.modSlot p f).latches = s.latches := rfl
@[simp] theorem State.modSlot_resp (p : Nat) (f : KSlot → KSlot) : (s.modSlot p f).resp = s.resp := rfl
@[simp] theorem State.modSlot_retry (p : Nat) (f : KSlot → KSlot) : (s.modSlot p f).retry = s.retry := rfl
@[simp] theorem State.modSlot_trngN (p : Nat) (f : KSlot → KSlot) : (s.modSlot p f).trngN = s.trngN := rfl
@[simp] theorem State.modSlot_freeN (p : Nat) (f : KSlot → KSlot) : (s.modSlot p f).freeN = s.freeN := rfl
@[simp] theorem State.modSlot_get_queue (p : Nat) (f : KSlot → KSlot) (a b : Nat) : (s.modSlot p f).queue a b = s.queue a b := rfl
@[simp] theorem State.modSlot_get_tenant (p : Nat) (f : KSlot → KSlot) (a : Nat) : (s.modSlot p f).tenant a = s.tenant a := rfl
@[simp] theorem State.modSlot_get_func (p : Nat) (f : KSlot → KSlot) (a : Nat) : (s.modSlot p f).func a = s.func a := rfl
@[simp] theorem State.modSlot_get_ring (p : Nat) (f : KSlot → KSlot) (a b : Nat) : (s.modSlot p f).ring a b = s.ring a b := rfl
@[simp] theorem State.modSlot_get_ctx (p : Nat) (f : KSlot → KSlot) (a b : Nat) : (s.modSlot p f).ctx a b = s.ctx a b := rfl
@[simp] theorem State.modSlot_get_comb (p : Nat) (f : KSlot → KSlot) (a : Nat) : (s.modSlot p f).comb a = s.comb a := rfl
@[simp] theorem State.modSlot_get_job (p : Nat) (f : KSlot → KSlot) (a : Nat) : (s.modSlot p f).job a = s.job a := rfl

/-! ## `State.modComb` -/

@[simp] theorem State.modComb_pending (c : Nat) (f : Comb → Comb) : (s.modComb c f).pending = s.pending := rfl
@[simp] theorem State.modComb_hv (c : Nat) (f : Comb → Comb) : (s.modComb c f).hv = s.hv := rfl
@[simp] theorem State.modComb_store (c : Nat) (f : Comb → Comb) : (s.modComb c f).store = s.store := rfl
@[simp] theorem State.modComb_otp (c : Nat) (f : Comb → Comb) : (s.modComb c f).otp = s.otp := rfl
@[simp] theorem State.modComb_aon (c : Nat) (f : Comb → Comb) : (s.modComb c f).aon = s.aon := rfl
@[simp] theorem State.modComb_ev (c : Nat) (f : Comb → Comb) : (s.modComb c f).ev = s.ev := rfl
@[simp] theorem State.modComb_hi (c : Nat) (f : Comb → Comb) : (s.modComb c f).hi = s.hi := rfl
@[simp] theorem State.modComb_cap (c : Nat) (f : Comb → Comb) : (s.modComb c f).cap = s.cap := rfl
@[simp] theorem State.modComb_dma (c : Nat) (f : Comb → Comb) : (s.modComb c f).dma = s.dma := rfl
@[simp] theorem State.modComb_doe (c : Nat) (f : Comb → Comb) : (s.modComb c f).doe = s.doe := rfl
@[simp] theorem State.modComb_lc (c : Nat) (f : Comb → Comb) : (s.modComb c f).lc = s.lc := rfl
@[simp] theorem State.modComb_peer (c : Nat) (f : Comb → Comb) : (s.modComb c f).peer = s.peer := rfl
@[simp] theorem State.modComb_sync (c : Nat) (f : Comb → Comb) : (s.modComb c f).sync = s.sync := rfl
@[simp] theorem State.modComb_wg (c : Nat) (f : Comb → Comb) : (s.modComb c f).wg = s.wg := rfl
@[simp] theorem State.modComb_adm (c : Nat) (f : Comb → Comb) : (s.modComb c f).adm = s.adm := rfl
@[simp] theorem State.modComb_ks (c : Nat) (f : Comb → Comb) : (s.modComb c f).ks = s.ks := rfl
@[simp] theorem State.modComb_sch (c : Nat) (f : Comb → Comb) : (s.modComb c f).sch = s.sch := rfl
@[simp] theorem State.modComb_fns (c : Nat) (f : Comb → Comb) : (s.modComb c f).fns = s.fns := rfl
@[simp] theorem State.modComb_tenants (c : Nat) (f : Comb → Comb) : (s.modComb c f).tenants = s.tenants := rfl
@[simp] theorem State.modComb_queues (c : Nat) (f : Comb → Comb) : (s.modComb c f).queues = s.queues := rfl
@[simp] theorem State.modComb_rings (c : Nat) (f : Comb → Comb) : (s.modComb c f).rings = s.rings := rfl
@[simp] theorem State.modComb_ctxs (c : Nat) (f : Comb → Comb) : (s.modComb c f).ctxs = s.ctxs := rfl
@[simp] theorem State.modComb_slots (c : Nat) (f : Comb → Comb) : (s.modComb c f).slots = s.slots := rfl
@[simp] theorem State.modComb_jobs (c : Nat) (f : Comb → Comb) : (s.modComb c f).jobs = s.jobs := rfl
@[simp] theorem State.modComb_nextJob (c : Nat) (f : Comb → Comb) : (s.modComb c f).nextJob = s.nextJob := rfl
@[simp] theorem State.modComb_out (c : Nat) (f : Comb → Comb) : (s.modComb c f).out = s.out := rfl
@[simp] theorem State.modComb_halves (c : Nat) (f : Comb → Comb) : (s.modComb c f).halves = s.halves := rfl
@[simp] theorem State.modComb_latches (c : Nat) (f : Comb → Comb) : (s.modComb c f).latches = s.latches := rfl
@[simp] theorem State.modComb_resp (c : Nat) (f : Comb → Comb) : (s.modComb c f).resp = s.resp := rfl
@[simp] theorem State.modComb_retry (c : Nat) (f : Comb → Comb) : (s.modComb c f).retry = s.retry := rfl
@[simp] theorem State.modComb_trngN (c : Nat) (f : Comb → Comb) : (s.modComb c f).trngN = s.trngN := rfl
@[simp] theorem State.modComb_freeN (c : Nat) (f : Comb → Comb) : (s.modComb c f).freeN = s.freeN := rfl
@[simp] theorem State.modComb_get_queue (c : Nat) (f : Comb → Comb) (a b : Nat) : (s.modComb c f).queue a b = s.queue a b := rfl
@[simp] theorem State.modComb_get_tenant (c : Nat) (f : Comb → Comb) (a : Nat) : (s.modComb c f).tenant a = s.tenant a := rfl
@[simp] theorem State.modComb_get_func (c : Nat) (f : Comb → Comb) (a : Nat) : (s.modComb c f).func a = s.func a := rfl
@[simp] theorem State.modComb_get_ring (c : Nat) (f : Comb → Comb) (a b : Nat) : (s.modComb c f).ring a b = s.ring a b := rfl
@[simp] theorem State.modComb_get_ctx (c : Nat) (f : Comb → Comb) (a b : Nat) : (s.modComb c f).ctx a b = s.ctx a b := rfl
@[simp] theorem State.modComb_get_slot (c : Nat) (f : Comb → Comb) (a : Nat) : (s.modComb c f).slot a = s.slot a := rfl
@[simp] theorem State.modComb_get_job (c : Nat) (f : Comb → Comb) (a : Nat) : (s.modComb c f).job a = s.job a := rfl

/-! ## `State.modJob` -/

@[simp] theorem State.modJob_pending (j : Nat) (f : Job → Job) : (s.modJob j f).pending = s.pending := rfl
@[simp] theorem State.modJob_hv (j : Nat) (f : Job → Job) : (s.modJob j f).hv = s.hv := rfl
@[simp] theorem State.modJob_store (j : Nat) (f : Job → Job) : (s.modJob j f).store = s.store := rfl
@[simp] theorem State.modJob_otp (j : Nat) (f : Job → Job) : (s.modJob j f).otp = s.otp := rfl
@[simp] theorem State.modJob_aon (j : Nat) (f : Job → Job) : (s.modJob j f).aon = s.aon := rfl
@[simp] theorem State.modJob_ev (j : Nat) (f : Job → Job) : (s.modJob j f).ev = s.ev := rfl
@[simp] theorem State.modJob_hi (j : Nat) (f : Job → Job) : (s.modJob j f).hi = s.hi := rfl
@[simp] theorem State.modJob_cap (j : Nat) (f : Job → Job) : (s.modJob j f).cap = s.cap := rfl
@[simp] theorem State.modJob_dma (j : Nat) (f : Job → Job) : (s.modJob j f).dma = s.dma := rfl
@[simp] theorem State.modJob_doe (j : Nat) (f : Job → Job) : (s.modJob j f).doe = s.doe := rfl
@[simp] theorem State.modJob_lc (j : Nat) (f : Job → Job) : (s.modJob j f).lc = s.lc := rfl
@[simp] theorem State.modJob_peer (j : Nat) (f : Job → Job) : (s.modJob j f).peer = s.peer := rfl
@[simp] theorem State.modJob_sync (j : Nat) (f : Job → Job) : (s.modJob j f).sync = s.sync := rfl
@[simp] theorem State.modJob_wg (j : Nat) (f : Job → Job) : (s.modJob j f).wg = s.wg := rfl
@[simp] theorem State.modJob_adm (j : Nat) (f : Job → Job) : (s.modJob j f).adm = s.adm := rfl
@[simp] theorem State.modJob_ks (j : Nat) (f : Job → Job) : (s.modJob j f).ks = s.ks := rfl
@[simp] theorem State.modJob_sch (j : Nat) (f : Job → Job) : (s.modJob j f).sch = s.sch := rfl
@[simp] theorem State.modJob_fns (j : Nat) (f : Job → Job) : (s.modJob j f).fns = s.fns := rfl
@[simp] theorem State.modJob_tenants (j : Nat) (f : Job → Job) : (s.modJob j f).tenants = s.tenants := rfl
@[simp] theorem State.modJob_queues (j : Nat) (f : Job → Job) : (s.modJob j f).queues = s.queues := rfl
@[simp] theorem State.modJob_rings (j : Nat) (f : Job → Job) : (s.modJob j f).rings = s.rings := rfl
@[simp] theorem State.modJob_ctxs (j : Nat) (f : Job → Job) : (s.modJob j f).ctxs = s.ctxs := rfl
@[simp] theorem State.modJob_slots (j : Nat) (f : Job → Job) : (s.modJob j f).slots = s.slots := rfl
@[simp] theorem State.modJob_combs (j : Nat) (f : Job → Job) : (s.modJob j f).combs = s.combs := rfl
@[simp] theorem State.modJob_nextJob (j : Nat) (f : Job → Job) : (s.modJob j f).nextJob = s.nextJob := rfl
@[simp] theorem State.modJob_out (j : Nat) (f : Job → Job) : (s.modJob j f).out = s.out := rfl
@[simp] theorem State.modJob_halves (j : Nat) (f : Job → Job) : (s.modJob j f).halves = s.halves := rfl
@[simp] theorem State.modJob_latches (j : Nat) (f : Job → Job) : (s.modJob j f).latches = s.latches := rfl
@[simp] theorem State.modJob_resp (j : Nat) (f : Job → Job) : (s.modJob j f).resp = s.resp := rfl
@[simp] theorem State.modJob_retry (j : Nat) (f : Job → Job) : (s.modJob j f).retry = s.retry := rfl
@[simp] theorem State.modJob_trngN (j : Nat) (f : Job → Job) : (s.modJob j f).trngN = s.trngN := rfl
@[simp] theorem State.modJob_freeN (j : Nat) (f : Job → Job) : (s.modJob j f).freeN = s.freeN := rfl
@[simp] theorem State.modJob_get_queue (j : Nat) (f : Job → Job) (a b : Nat) : (s.modJob j f).queue a b = s.queue a b := rfl
@[simp] theorem State.modJob_get_tenant (j : Nat) (f : Job → Job) (a : Nat) : (s.modJob j f).tenant a = s.tenant a := rfl
@[simp] theorem State.modJob_get_func (j : Nat) (f : Job → Job) (a : Nat) : (s.modJob j f).func a = s.func a := rfl
@[simp] theorem State.modJob_get_ring (j : Nat) (f : Job → Job) (a b : Nat) : (s.modJob j f).ring a b = s.ring a b := rfl
@[simp] theorem State.modJob_get_ctx (j : Nat) (f : Job → Job) (a b : Nat) : (s.modJob j f).ctx a b = s.ctx a b := rfl
@[simp] theorem State.modJob_get_slot (j : Nat) (f : Job → Job) (a : Nat) : (s.modJob j f).slot a = s.slot a := rfl
@[simp] theorem State.modJob_get_comb (j : Nat) (f : Job → Job) (a : Nat) : (s.modJob j f).comb a = s.comb a := rfl

/-! ## `State.dropJob` -/

@[simp] theorem State.dropJob_pending (j : Nat) : (s.dropJob j).pending = s.pending := rfl
@[simp] theorem State.dropJob_hv (j : Nat) : (s.dropJob j).hv = s.hv := rfl
@[simp] theorem State.dropJob_store (j : Nat) : (s.dropJob j).store = s.store := rfl
@[simp] theorem State.dropJob_otp (j : Nat) : (s.dropJob j).otp = s.otp := rfl
@[simp] theorem State.dropJob_aon (j : Nat) : (s.dropJob j).aon = s.aon := rfl
@[simp] theorem State.dropJob_ev (j : Nat) : (s.dropJob j).ev = s.ev := rfl
@[simp] theorem State.dropJob_hi (j : Nat) : (s.dropJob j).hi = s.hi := rfl
@[simp] theorem State.dropJob_cap (j : Nat) : (s.dropJob j).cap = s.cap := rfl
@[simp] theorem State.dropJob_dma (j : Nat) : (s.dropJob j).dma = s.dma := rfl
@[simp] theorem State.dropJob_doe (j : Nat) : (s.dropJob j).doe = s.doe := rfl
@[simp] theorem State.dropJob_lc (j : Nat) : (s.dropJob j).lc = s.lc := rfl
@[simp] theorem State.dropJob_peer (j : Nat) : (s.dropJob j).peer = s.peer := rfl
@[simp] theorem State.dropJob_sync (j : Nat) : (s.dropJob j).sync = s.sync := rfl
@[simp] theorem State.dropJob_wg (j : Nat) : (s.dropJob j).wg = s.wg := rfl
@[simp] theorem State.dropJob_adm (j : Nat) : (s.dropJob j).adm = s.adm := rfl
@[simp] theorem State.dropJob_ks (j : Nat) : (s.dropJob j).ks = s.ks := rfl
@[simp] theorem State.dropJob_sch (j : Nat) : (s.dropJob j).sch = s.sch := rfl
@[simp] theorem State.dropJob_fns (j : Nat) : (s.dropJob j).fns = s.fns := rfl
@[simp] theorem State.dropJob_tenants (j : Nat) : (s.dropJob j).tenants = s.tenants := rfl
@[simp] theorem State.dropJob_queues (j : Nat) : (s.dropJob j).queues = s.queues := rfl
@[simp] theorem State.dropJob_rings (j : Nat) : (s.dropJob j).rings = s.rings := rfl
@[simp] theorem State.dropJob_ctxs (j : Nat) : (s.dropJob j).ctxs = s.ctxs := rfl
@[simp] theorem State.dropJob_slots (j : Nat) : (s.dropJob j).slots = s.slots := rfl
@[simp] theorem State.dropJob_combs (j : Nat) : (s.dropJob j).combs = s.combs := rfl
@[simp] theorem State.dropJob_nextJob (j : Nat) : (s.dropJob j).nextJob = s.nextJob := rfl
@[simp] theorem State.dropJob_out (j : Nat) : (s.dropJob j).out = s.out := rfl
@[simp] theorem State.dropJob_halves (j : Nat) : (s.dropJob j).halves = s.halves := rfl
@[simp] theorem State.dropJob_latches (j : Nat) : (s.dropJob j).latches = s.latches := rfl
@[simp] theorem State.dropJob_resp (j : Nat) : (s.dropJob j).resp = s.resp := rfl
@[simp] theorem State.dropJob_retry (j : Nat) : (s.dropJob j).retry = s.retry := rfl
@[simp] theorem State.dropJob_trngN (j : Nat) : (s.dropJob j).trngN = s.trngN := rfl
@[simp] theorem State.dropJob_freeN (j : Nat) : (s.dropJob j).freeN = s.freeN := rfl
@[simp] theorem State.dropJob_get_queue (j : Nat) (a b : Nat) : (s.dropJob j).queue a b = s.queue a b := rfl
@[simp] theorem State.dropJob_get_tenant (j : Nat) (a : Nat) : (s.dropJob j).tenant a = s.tenant a := rfl
@[simp] theorem State.dropJob_get_func (j : Nat) (a : Nat) : (s.dropJob j).func a = s.func a := rfl
@[simp] theorem State.dropJob_get_ring (j : Nat) (a b : Nat) : (s.dropJob j).ring a b = s.ring a b := rfl
@[simp] theorem State.dropJob_get_ctx (j : Nat) (a b : Nat) : (s.dropJob j).ctx a b = s.ctx a b := rfl
@[simp] theorem State.dropJob_get_slot (j : Nat) (a : Nat) : (s.dropJob j).slot a = s.slot a := rfl
@[simp] theorem State.dropJob_get_comb (j : Nat) (a : Nat) : (s.dropJob j).comb a = s.comb a := rfl

/-! ## The canonical form -/

/-- The canonical form, table by table. -/
structure State.Tables : Prop where
  fns : tblWf {} s.fns = true
  tenants : tblWf {} s.tenants = true
  queues : tblWf {} s.queues = true
  rings : tblWf {} s.rings = true
  ctxs : tblWf {} s.ctxs = true
  slots : tblWf {} s.slots = true
  combs : tblWf {} s.combs = true
  jobs : tblWf {} s.jobs = true
  mram : tblWf {} s.store.mram = true
  reads : tblWf none s.dma.reads = true
  packets : tblWf {} s.peer.packets = true

theorem State.wf_iff : s.wf = true ↔ s.Tables := by
  refine ⟨fun h => ?_, fun h => ?_⟩
  · simp only [State.wf, Bool.and_eq_true] at h
    constructor <;> simp only [h]
  · simp only [State.wf, h.fns, h.tenants, h.queues, h.rings, h.ctxs, h.slots, h.combs, h.jobs, h.mram, h.reads,
      h.packets, Bool.and_self]

/-- The form depends on the tables alone. -/
theorem State.wf_congr {s t : State} (h : s.wf = true) (h1 : t.fns = s.fns) (h2 : t.tenants = s.tenants)
    (h3 : t.queues = s.queues) (h4 : t.rings = s.rings) (h5 : t.ctxs = s.ctxs) (h6 : t.slots = s.slots)
    (h7 : t.combs = s.combs) (h8 : t.jobs = s.jobs) (h9 : t.store.mram = s.store.mram)
    (h10 : t.dma.reads = s.dma.reads) (h11 : t.peer.packets = s.peer.packets) : t.wf = true := by
  simpa only [State.wf, h1, h2, h3, h4, h5, h6, h7, h8, h9, h10, h11] using h

theorem State.setQueue_wf {s : State} (h : s.wf = true) (c q : Nat) (v : Queue) : (s.setQueue c q v).wf = true :=
  have g := (State.wf_iff s).1 h
  (State.wf_iff _).2 { g with queues := tblWf_set _ _ _ _ g.queues }

theorem State.modQueue_wf {s : State} (h : s.wf = true) (c q : Nat) (f : Queue → Queue) : (s.modQueue c q f).wf = true :=
  have g := (State.wf_iff s).1 h
  (State.wf_iff _).2 { g with queues := tblWf_set _ _ _ _ g.queues }

theorem State.modTenant_wf {s : State} (h : s.wf = true) (c : Nat) (f : Tenant → Tenant) : (s.modTenant c f).wf = true :=
  have g := (State.wf_iff s).1 h
  (State.wf_iff _).2 { g with tenants := tblWf_set _ _ _ _ g.tenants }

theorem State.modFunc_wf {s : State} (h : s.wf = true) (c : Nat) (f : Func → Func) : (s.modFunc c f).wf = true :=
  have g := (State.wf_iff s).1 h
  (State.wf_iff _).2 { g with fns := tblWf_set _ _ _ _ g.fns }

theorem State.modRing_wf {s : State} (h : s.wf = true) (c r : Nat) (f : CrRing → CrRing) : (s.modRing c r f).wf = true :=
  have g := (State.wf_iff s).1 h
  (State.wf_iff _).2 { g with rings := tblWf_set _ _ _ _ g.rings }

theorem State.modCtx_wf {s : State} (h : s.wf = true) (c x : Nat) (f : Ctx → Ctx) : (s.modCtx c x f).wf = true :=
  have g := (State.wf_iff s).1 h
  (State.wf_iff _).2 { g with ctxs := tblWf_set _ _ _ _ g.ctxs }

theorem State.modSlot_wf {s : State} (h : s.wf = true) (p : Nat) (f : KSlot → KSlot) : (s.modSlot p f).wf = true :=
  have g := (State.wf_iff s).1 h
  (State.wf_iff _).2 { g with slots := tblWf_set _ _ _ _ g.slots }

theorem State.modComb_wf {s : State} (h : s.wf = true) (c : Nat) (f : Comb → Comb) : (s.modComb c f).wf = true :=
  have g := (State.wf_iff s).1 h
  (State.wf_iff _).2 { g with combs := tblWf_set _ _ _ _ g.combs }

theorem State.modJob_wf {s : State} (h : s.wf = true) (j : Nat) (f : Job → Job) : (s.modJob j f).wf = true :=
  have g := (State.wf_iff s).1 h
  (State.wf_iff _).2 { g with jobs := tblWf_set _ _ _ _ g.jobs }

theorem State.dropJob_wf {s : State} (h : s.wf = true) (j : Nat) : (s.dropJob j).wf = true :=
  have g := (State.wf_iff s).1 h
  (State.wf_iff _).2 { g with jobs := tblWf_erase _ _ _ g.jobs }

/-! ## Reading an entry after an update -/

theorem State.setQueue_same {s : State} (h : s.wf = true) (c q : Nat) (v : Queue) : (s.setQueue c q v).queue c q = v :=
  tblGet_set_same _ _ _ _ ((State.wf_iff s).1 h).queues

theorem State.setQueue_other (c q : Nat) (v : Queue) (d l : Nat) (hl : qKey d l ≠ qKey c q) :
    (s.setQueue c q v).queue d l = s.queue d l := tblGet_set_other _ _ _ _ _ hl

theorem State.modQueue_same {s : State} (h : s.wf = true) (c q : Nat) (f : Queue → Queue) : (s.modQueue c q f).queue c q = f (s.queue c q) :=
  tblGet_set_same _ _ _ _ ((State.wf_iff s).1 h).queues

theorem State.modQueue_other (c q : Nat) (f : Queue → Queue) (d l : Nat) (hl : qKey d l ≠ qKey c q) :
    (s.modQueue c q f).queue d l = s.queue d l := tblGet_set_other _ _ _ _ _ hl

theorem State.modTenant_same {s : State} (h : s.wf = true) (c : Nat) (f : Tenant → Tenant) : (s.modTenant c f).tenant c = f (s.tenant c) :=
  tblGet_set_same _ _ _ _ ((State.wf_iff s).1 h).tenants

theorem State.modTenant_other (c : Nat) (f : Tenant → Tenant) (l : Nat) (hl : l ≠ c) : (s.modTenant c f).tenant l = s.tenant l :=
  tblGet_set_other _ _ _ _ _ hl

theorem State.modFunc_same {s : State} (h : s.wf = true) (c : Nat) (f : Func → Func) : (s.modFunc c f).func c = f (s.func c) :=
  tblGet_set_same _ _ _ _ ((State.wf_iff s).1 h).fns

theorem State.modFunc_other (c : Nat) (f : Func → Func) (l : Nat) (hl : l ≠ c) : (s.modFunc c f).func l = s.func l :=
  tblGet_set_other _ _ _ _ _ hl

theorem State.modRing_same {s : State} (h : s.wf = true) (c r : Nat) (f : CrRing → CrRing) : (s.modRing c r f).ring c r = f (s.ring c r) :=
  tblGet_set_same _ _ _ _ ((State.wf_iff s).1 h).rings

theorem State.modRing_other (c r : Nat) (f : CrRing → CrRing) (d l : Nat) (hl : ringKey d l ≠ ringKey c r) :
    (s.modRing c r f).ring d l = s.ring d l := tblGet_set_other _ _ _ _ _ hl

theorem State.modCtx_same {s : State} (h : s.wf = true) (c x : Nat) (f : Ctx → Ctx) : (s.modCtx c x f).ctx c x = f (s.ctx c x) :=
  tblGet_set_same _ _ _ _ ((State.wf_iff s).1 h).ctxs

theorem State.modCtx_other (c x : Nat) (f : Ctx → Ctx) (d l : Nat) (hl : ctxKey d l ≠ ctxKey c x) :
    (s.modCtx c x f).ctx d l = s.ctx d l := tblGet_set_other _ _ _ _ _ hl

theorem State.modSlot_same {s : State} (h : s.wf = true) (p : Nat) (f : KSlot → KSlot) : (s.modSlot p f).slot p = f (s.slot p) :=
  tblGet_set_same _ _ _ _ ((State.wf_iff s).1 h).slots

theorem State.modSlot_other (p : Nat) (f : KSlot → KSlot) (l : Nat) (hl : l ≠ p) : (s.modSlot p f).slot l = s.slot l :=
  tblGet_set_other _ _ _ _ _ hl

theorem State.modComb_same {s : State} (h : s.wf = true) (c : Nat) (f : Comb → Comb) : (s.modComb c f).comb c = f (s.comb c) :=
  tblGet_set_same _ _ _ _ ((State.wf_iff s).1 h).combs

theorem State.modComb_other (c : Nat) (f : Comb → Comb) (l : Nat) (hl : l ≠ c) : (s.modComb c f).comb l = s.comb l :=
  tblGet_set_other _ _ _ _ _ hl

theorem State.modJob_same {s : State} (h : s.wf = true) (j : Nat) (f : Job → Job) : (s.modJob j f).job j = f (s.job j) :=
  tblGet_set_same _ _ _ _ ((State.wf_iff s).1 h).jobs

theorem State.modJob_other (j : Nat) (f : Job → Job) (l : Nat) (hl : l ≠ j) : (s.modJob j f).job l = s.job l :=
  tblGet_set_other _ _ _ _ _ hl

/-- Queue numbers below the span name different entries for different queues. -/
theorem qKey_inj {c q d r : Nat} (hq : q < qSpan) (hr : r < qSpan) (h : qKey c q = qKey d r) : c = d ∧ q = r := by
  simp only [qKey, qSpan] at *
  omega

/-- A fold keeps the canonical form when each step does. -/
theorem State.each_wf {α : Type} (l : List α) (f : State → α → State)
    (hf : ∀ (s : State) (a : α), s.wf = true → (f s a).wf = true) {s : State} (h : s.wf = true) :
    (s.each l f).wf = true := by
  induction l generalizing s with
  | nil => exact h
  | cons a l ih => exact ih (hf s a h)

/-- A fold keeps what each step keeps. -/
theorem State.each_keeps {α β : Type} (l : List α) (f : State → α → State) (g : State → β)
    (hf : ∀ (s : State) (a : α), g (f s a) = g s) (s : State) : g (s.each l f) = g s := by
  induction l generalizing s with
  | nil => rfl
  | cons a l ih => exact (ih (f s a)).trans (hf s a)

end Sys2Proof.Machine
end

