-- ==== Sys2Proof/Laws/Keeps.lean ====
section
/-! SUPPORT. What the shared operations can do: the footprint of every operation. Each leaves the queue of
commands alone, keeps the invariant `State.Inv`, and changes no field outside its footprint. -/

set_option linter.unreachableTactic false
set_option linter.unusedTactic false
set_option linter.unusedVariables false
set_option Elab.async false

namespace Sys2Proof.Machine

/-- The queue of commands is as it was, the invariant holds after if it held before, and no field outside
the footprint has changed. -/
def Keeps (F : Foot) (s t : State) : Prop := t.pending = s.pending ∧ (s.Inv → t.Inv) ∧ Unch F s t

variable {F : Foot} {s0 : State}

/-- A field that no step of a path changes outside the footprint is as it was at the start. -/
theorem same_or_trans {α : Type} {a b c : α} {p : Prop} (h : b = a ∨ p) (g : c = b ∨ p) : c = a ∨ p :=
  h.elim (fun e => e ▸ g) Or.inr

theorem Unch.refl (F : Foot) (s : State) : Unch F s s := by
  constructor <;> exact Or.inl rfl

theorem Unch.trans {F : Foot} {s u t : State} (h : Unch F s u) (g : Unch F u t) : Unch F s t where
  hv := same_or_trans h.hv g.hv
  store := same_or_trans h.store g.store
  otp := same_or_trans h.otp g.otp
  aon := same_or_trans h.aon g.aon
  ev := same_or_trans h.ev g.ev
  hi := same_or_trans h.hi g.hi
  cap := same_or_trans h.cap g.cap
  dma := same_or_trans h.dma g.dma
  doe := same_or_trans h.doe g.doe
  lc := same_or_trans h.lc g.lc
  peer := same_or_trans h.peer g.peer
  sync := same_or_trans h.sync g.sync
  wg := same_or_trans h.wg g.wg
  adm := same_or_trans h.adm g.adm
  ks := same_or_trans h.ks g.ks
  sch := same_or_trans h.sch g.sch
  fns := same_or_trans h.fns g.fns
  tenants := same_or_trans h.tenants g.tenants
  queues := same_or_trans h.queues g.queues
  rings := same_or_trans h.rings g.rings
  ctxs := same_or_trans h.ctxs g.ctxs
  slots := same_or_trans h.slots g.slots
  combs := same_or_trans h.combs g.combs
  jobs := same_or_trans h.jobs g.jobs
  nextJob := same_or_trans h.nextJob g.nextJob
  out := same_or_trans h.out g.out
  halves := same_or_trans h.halves g.halves
  latches := same_or_trans h.latches g.latches
  resp := same_or_trans h.resp g.resp
  retry := same_or_trans h.retry g.retry
  trngN := same_or_trans h.trngN g.trngN
  freeN := same_or_trans h.freeN g.freeN

theorem Keeps.refl (F : Foot) (s : State) : Keeps F s s := ⟨rfl, id, Unch.refl F s⟩

theorem Keeps.trans {s u t : State} (h : Keeps F s u) (g : Keeps F u t) : Keeps F s t :=
  ⟨g.1.trans h.1, fun x => g.2.1 (h.2.1 x), h.2.2.trans g.2.2⟩

theorem Keeps.ite {s : State} {a b : State} {c : Prop} [Decidable c] (ha : Keeps F s a)
    (hb : Keeps F s b) : Keeps F s (if c then a else b) := by
  split <;> assumption
theorem Keeps.ite2 {α : Type} {s : State} {a b : α × State} {c : Prop} [Decidable c] (ha : Keeps F s a.2)
    (hb : Keeps F s b.2) : Keeps F s (if c then a else b).2 := by
  split <;> assumption
theorem Keeps.ite1 {α : Type} {s : State} {a b : State × α} {c : Prop} [Decidable c] (ha : Keeps F s a.1)
    (hb : Keeps F s b.1) : Keeps F s (if c then a else b).1 := by
  split <;> assumption
theorem Keeps.ite22 {α β : Type} {s : State} {a b : α × β × State} {c : Prop} [Decidable c] (ha : Keeps F s a.2.2)
    (hb : Keeps F s b.2.2) : Keeps F s (if c then a else b).2.2 := by
  split <;> assumption
theorem Keeps.ite21 {α β : Type} {s : State} {a b : α × State × β} {c : Prop} [Decidable c] (ha : Keeps F s a.2.1)
    (hb : Keeps F s b.2.1) : Keeps F s (if c then a else b).2.1 := by
  split <;> assumption
theorem Keeps.ofEq2 {α : Type} {s t : State} {p : α × State} {a : α} (e : p = (a, t)) (h : Keeps F s p.2) :
    Keeps F s t := by
  rw [e] at h; exact h

theorem Keeps.each {α : Type} {s u : State} (l : List α) (f : State → α → State)
    (hf : ∀ (x : State) (a : α), Keeps F s x → Keeps F s (f x a)) (h : Keeps F s u) : Keeps F s (u.each l f) := by
  induction l generalizing u with
  | nil => exact h
  | cons a l ih => exact ih (hf u a h)

theorem Keeps.foldl2 {α β : Type} {s : State} (l : List α) (f : β × State → α → β × State) (w : β × State)
    (hf : ∀ (w : β × State) (a : α), Keeps F s w.2 → Keeps F s (f w a).2) (h : Keeps F s w.2) :
    Keeps F s (l.foldl f w).2 := by
  induction l generalizing w with
  | nil => exact h
  | cons a l ih => exact ih _ (hf w a h)

/-- Any update: what changes lies in the footprint, tables keep their form and modes stay legal. -/
theorem Keeps.upd {s u t : State} (h : Keeps F s u) (e : Unch F u t)
    (hp : t.pending = u.pending := by rfl)
    (fns : tblWf {} u.fns = true → tblWf {} t.fns = true := by exact id)
    (tenants : tblWf {} u.tenants = true → tblWf {} t.tenants = true := by exact id)
    (queues : tblWf {} u.queues = true → tblWf {} t.queues = true := by exact id)
    (rings : tblWf {} u.rings = true → tblWf {} t.rings = true := by exact id)
    (ctxs : tblWf {} u.ctxs = true → tblWf {} t.ctxs = true := by exact id)
    (slots : tblWf {} u.slots = true → tblWf {} t.slots = true := by exact id)
    (combs : tblWf {} u.combs = true → tblWf {} t.combs = true := by exact id)
    (jobs : tblWf {} u.jobs = true → tblWf {} t.jobs = true := by exact id)
    (mram : tblWf {} u.store.mram = true → tblWf {} t.store.mram = true := by exact id)
    (reads : tblWf none u.dma.reads = true → tblWf none t.dma.reads = true := by exact id)
    (packets : tblWf {} u.peer.packets = true → tblWf {} t.peer.packets = true := by exact id)
    (pwr : u.hv.pwr ≤ 3 → t.hv.pwr ≤ 3 := by exact id)
    (step : u.hv.step ≤ 10 → t.hv.step ≤ 10 := by exact id) : Keeps F s t := by
  refine ⟨hp.trans h.1, fun hs => ?_, h.2.2.trans e⟩
  have i := h.2.1 hs
  have w := (State.wf_iff u).1 i.1
  refine ⟨(State.wf_iff t).2 ?_, pwr i.2.1, step i.2.2⟩
  exact { fns := fns w.fns, tenants := tenants w.tenants, queues := queues w.queues, rings := rings w.rings,
          ctxs := ctxs w.ctxs, slots := slots w.slots, combs := combs w.combs, jobs := jobs w.jobs,
          mram := mram w.mram, reads := reads w.reads, packets := packets w.packets }

/-! ## Updates of the fields of the state -/

theorem Keeps.set_adm {s u : State} {xadm} (_ : F.adm = true) (h : Keeps F s u) :
    Keeps F s { u with adm := xadm } := Keeps.upd h (by constructor <;> first | exact Or.inl rfl | exact Or.inr ‹_›)

theorem Keeps.set_aon {s u : State} {xaon} (_ : F.aon = true) (h : Keeps F s u) :
    Keeps F s { u with aon := xaon } := Keeps.upd h (by constructor <;> first | exact Or.inl rfl | exact Or.inr ‹_›)

theorem Keeps.set_cap {s u : State} {xcap} (_ : F.cap = true) (h : Keeps F s u) :
    Keeps F s { u with cap := xcap } := Keeps.upd h (by constructor <;> first | exact Or.inl rfl | exact Or.inr ‹_›)

theorem Keeps.set_combs {s u : State} {xcombs} (_ : F.combs = true) (h : Keeps F s u) (combs : tblWf {} u.combs = true → tblWf {} xcombs = true) :
    Keeps F s { u with combs := xcombs } := Keeps.upd h (by constructor <;> first | exact Or.inl rfl | exact Or.inr ‹_›) (combs := combs)

theorem Keeps.set_ctxs {s u : State} {xctxs} (_ : F.ctxs = true) (h : Keeps F s u) (ctxs : tblWf {} u.ctxs = true → tblWf {} xctxs = true) :
    Keeps F s { u with ctxs := xctxs } := Keeps.upd h (by constructor <;> first | exact Or.inl rfl | exact Or.inr ‹_›) (ctxs := ctxs)

theorem Keeps.set_dma {s u : State} {xdma} (_ : F.dma = true) (h : Keeps F s u) (reads : tblWf none u.dma.reads = true → tblWf none xdma.reads = true) :
    Keeps F s { u with dma := xdma } := Keeps.upd h (by constructor <;> first | exact Or.inl rfl | exact Or.inr ‹_›) (reads := reads)

theorem Keeps.set_doe {s u : State} {xdoe} (_ : F.doe = true) (h : Keeps F s u) :
    Keeps F s { u with doe := xdoe } := Keeps.upd h (by constructor <;> first | exact Or.inl rfl | exact Or.inr ‹_›)

theorem Keeps.set_ev {s u : State} {xev} (_ : F.ev = true) (h : Keeps F s u) :
    Keeps F s { u with ev := xev } := Keeps.upd h (by constructor <;> first | exact Or.inl rfl | exact Or.inr ‹_›)

theorem Keeps.set_fns {s u : State} {xfns} (_ : F.fns = true) (h : Keeps F s u) (fns : tblWf {} u.fns = true → tblWf {} xfns = true) :
    Keeps F s { u with fns := xfns } := Keeps.upd h (by constructor <;> first | exact Or.inl rfl | exact Or.inr ‹_›) (fns := fns)

theorem Keeps.set_freeN {s u : State} {xfreeN} (_ : F.freeN = true) (h : Keeps F s u) :
    Keeps F s { u with freeN := xfreeN } := Keeps.upd h (by constructor <;> first | exact Or.inl rfl | exact Or.inr ‹_›)

theorem Keeps.set_halves {s u : State} {xhalves} (_ : F.halves = true) (h : Keeps F s u) :
    Keeps F s { u with halves := xhalves } := Keeps.upd h (by constructor <;> first | exact Or.inl rfl | exact Or.inr ‹_›)

theorem Keeps.set_hi {s u : State} {xhi} (_ : F.hi = true) (h : Keeps F s u) :
    Keeps F s { u with hi := xhi } := Keeps.upd h (by constructor <;> first | exact Or.inl rfl | exact Or.inr ‹_›)

theorem Keeps.set_hv {s u : State} {xhv} (_ : F.hv = true) (h : Keeps F s u) (pwr : u.hv.pwr ≤ 3 → xhv.pwr ≤ 3) (step : u.hv.step ≤ 10 → xhv.step ≤ 10) :
    Keeps F s { u with hv := xhv } := Keeps.upd h (by constructor <;> first | exact Or.inl rfl | exact Or.inr ‹_›) (pwr := pwr) (step := step)

theorem Keeps.set_jobs {s u : State} {xjobs} (_ : F.jobs = true) (h : Keeps F s u) (jobs : tblWf {} u.jobs = true → tblWf {} xjobs = true) :
    Keeps F s { u with jobs := xjobs } := Keeps.upd h (by constructor <;> first | exact Or.inl rfl | exact Or.inr ‹_›) (jobs := jobs)

theorem Keeps.set_ks {s u : State} {xks} (_ : F.ks = true) (h : Keeps F s u) :
    Keeps F s { u with ks := xks } := Keeps.upd h (by constructor <;> first | exact Or.inl rfl | exact Or.inr ‹_›)

theorem Keeps.set_latches {s u : State} {xlatches} (_ : F.latches = true) (h : Keeps F s u) :
    Keeps F s { u with latches := xlatches } := Keeps.upd h (by constructor <;> first | exact Or.inl rfl | exact Or.inr ‹_›)

theorem Keeps.set_lc {s u : State} {xlc} (_ : F.lc = true) (h : Keeps F s u) :
    Keeps F s { u with lc := xlc } := Keeps.upd h (by constructor <;> first | exact Or.inl rfl | exact Or.inr ‹_›)

theorem Keeps.set_otp {s u : State} {xotp} (_ : F.otp = true) (h : Keeps F s u) :
    Keeps F s { u with otp := xotp } := Keeps.upd h (by constructor <;> first | exact Or.inl rfl | exact Or.inr ‹_›)

theorem Keeps.set_out {s u : State} {xout} (_ : F.out = true) (h : Keeps F s u) :
    Keeps F s { u with out := xout } := Keeps.upd h (by constructor <;> first | exact Or.inl rfl | exact Or.inr ‹_›)

theorem Keeps.set_peer {s u : State} {xpeer} (_ : F.peer = true) (h : Keeps F s u) (packets : tblWf {} u.peer.packets = true → tblWf {} xpeer.packets = true) :
    Keeps F s { u with peer := xpeer } := Keeps.upd h (by constructor <;> first | exact Or.inl rfl | exact Or.inr ‹_›) (packets := packets)

theorem Keeps.set_queues {s u : State} {xqueues} (_ : F.queues = true) (h : Keeps F s u) (queues : tblWf {} u.queues = true → tblWf {} xqueues = true) :
    Keeps F s { u with queues := xqueues } := Keeps.upd h (by constructor <;> first | exact Or.inl rfl | exact Or.inr ‹_›) (queues := queues)

theorem Keeps.set_resp {s u : State} {xresp} (_ : F.resp = true) (h : Keeps F s u) :
    Keeps F s { u with resp := xresp } := Keeps.upd h (by constructor <;> first | exact Or.inl rfl | exact Or.inr ‹_›)

theorem Keeps.set_retry {s u : State} {xretry} (_ : F.retry = true) (h : Keeps F s u) :
    Keeps F s { u with retry := xretry } := Keeps.upd h (by constructor <;> first | exact Or.inl rfl | exact Or.inr ‹_›)

theorem Keeps.set_rings {s u : State} {xrings} (_ : F.rings = true) (h : Keeps F s u) (rings : tblWf {} u.rings = true → tblWf {} xrings = true) :
    Keeps F s { u with rings := xrings } := Keeps.upd h (by constructor <;> first | exact Or.inl rfl | exact Or.inr ‹_›) (rings := rings)

theorem Keeps.set_sch {s u : State} {xsch} (_ : F.sch = true) (h : Keeps F s u) :
    Keeps F s { u with sch := xsch } := Keeps.upd h (by constructor <;> first | exact Or.inl rfl | exact Or.inr ‹_›)

theorem Keeps.set_slots {s u : State} {xslots} (_ : F.slots = true) (h : Keeps F s u) (slots : tblWf {} u.slots = true → tblWf {} xslots = true) :
    Keeps F s { u with slots := xslots } := Keeps.upd h (by constructor <;> first | exact Or.inl rfl | exact Or.inr ‹_›) (slots := slots)

theorem Keeps.set_store {s u : State} {xstore} (_ : F.store = true) (h : Keeps F s u) (mram : tblWf {} u.store.mram = true → tblWf {} xstore.mram = true) :
    Keeps F s { u with store := xstore } := Keeps.upd h (by constructor <;> first | exact Or.inl rfl | exact Or.inr ‹_›) (mram := mram)

theorem Keeps.set_sync {s u : State} {xsync} (_ : F.sync = true) (h : Keeps F s u) :
    Keeps F s { u with sync := xsync } := Keeps.upd h (by constructor <;> first | exact Or.inl rfl | exact Or.inr ‹_›)

theorem Keeps.set_tenants {s u : State} {xtenants} (_ : F.tenants = true) (h : Keeps F s u) (tenants : tblWf {} u.tenants = true → tblWf {} xtenants = true) :
    Keeps F s { u with tenants := xtenants } := Keeps.upd h (by constructor <;> first | exact Or.inl rfl | exact Or.inr ‹_›) (tenants := tenants)

theorem Keeps.set_trngN {s u : State} {xtrngN} (_ : F.trngN = true) (h : Keeps F s u) :
    Keeps F s { u with trngN := xtrngN } := Keeps.upd h (by constructor <;> first | exact Or.inl rfl | exact Or.inr ‹_›)

theorem Keeps.set_wg {s u : State} {xwg} (_ : F.wg = true) (h : Keeps F s u) :
    Keeps F s { u with wg := xwg } := Keeps.upd h (by constructor <;> first | exact Or.inl rfl | exact Or.inr ‹_›)

theorem Keeps.set_aon_ev {s u : State} {xaon xev} (_ : F.aon = true) (_ : F.ev = true) (h : Keeps F s u) :
    Keeps F s { u with aon := xaon, ev := xev } := Keeps.upd h (by constructor <;> first | exact Or.inl rfl | exact Or.inr ‹_›)

theorem Keeps.set_aon_ks {s u : State} {xaon xks} (_ : F.aon = true) (_ : F.ks = true) (h : Keeps F s u) :
    Keeps F s { u with aon := xaon, ks := xks } := Keeps.upd h (by constructor <;> first | exact Or.inl rfl | exact Or.inr ‹_›)

theorem Keeps.set_cap_doe {s u : State} {xcap xdoe} (_ : F.cap = true) (_ : F.doe = true) (h : Keeps F s u) :
    Keeps F s { u with cap := xcap, doe := xdoe } := Keeps.upd h (by constructor <;> first | exact Or.inl rfl | exact Or.inr ‹_›)

theorem Keeps.set_doe_freeN {s u : State} {xdoe xfreeN} (_ : F.doe = true) (_ : F.freeN = true) (h : Keeps F s u) :
    Keeps F s { u with doe := xdoe, freeN := xfreeN } := Keeps.upd h (by constructor <;> first | exact Or.inl rfl | exact Or.inr ‹_›)

theorem Keeps.set_ev_ks {s u : State} {xev xks} (_ : F.ev = true) (_ : F.ks = true) (h : Keeps F s u) :
    Keeps F s { u with ev := xev, ks := xks } := Keeps.upd h (by constructor <;> first | exact Or.inl rfl | exact Or.inr ‹_›)

theorem Keeps.set_ev_lc {s u : State} {xev xlc} (_ : F.ev = true) (_ : F.lc = true) (h : Keeps F s u) :
    Keeps F s { u with ev := xev, lc := xlc } := Keeps.upd h (by constructor <;> first | exact Or.inl rfl | exact Or.inr ‹_›)

theorem Keeps.set_ev_sch {s u : State} {xev xsch} (_ : F.ev = true) (_ : F.sch = true) (h : Keeps F s u) :
    Keeps F s { u with ev := xev, sch := xsch } := Keeps.upd h (by constructor <;> first | exact Or.inl rfl | exact Or.inr ‹_›)

theorem Keeps.set_hi_dma {s u : State} {xhi xdma} (_ : F.hi = true) (_ : F.dma = true) (h : Keeps F s u) (reads : tblWf none u.dma.reads = true → tblWf none xdma.reads = true) :
    Keeps F s { u with hi := xhi, dma := xdma } := Keeps.upd h (by constructor <;> first | exact Or.inl rfl | exact Or.inr ‹_›) (reads := reads)

theorem Keeps.set_hi_retry {s u : State} {xhi xretry} (_ : F.hi = true) (_ : F.retry = true) (h : Keeps F s u) :
    Keeps F s { u with hi := xhi, retry := xretry } := Keeps.upd h (by constructor <;> first | exact Or.inl rfl | exact Or.inr ‹_›)

theorem Keeps.set_hi_sync {s u : State} {xhi xsync} (_ : F.hi = true) (_ : F.sync = true) (h : Keeps F s u) :
    Keeps F s { u with hi := xhi, sync := xsync } := Keeps.upd h (by constructor <;> first | exact Or.inl rfl | exact Or.inr ‹_›)

theorem Keeps.set_hv_aon {s u : State} {xhv xaon} (_ : F.hv = true) (_ : F.aon = true) (h : Keeps F s u) (pwr : u.hv.pwr ≤ 3 → xhv.pwr ≤ 3) (step : u.hv.step ≤ 10 → xhv.step ≤ 10) :
    Keeps F s { u with hv := xhv, aon := xaon } := Keeps.upd h (by constructor <;> first | exact Or.inl rfl | exact Or.inr ‹_›) (pwr := pwr) (step := step)

theorem Keeps.set_hv_hi {s u : State} {xhv xhi} (_ : F.hv = true) (_ : F.hi = true) (h : Keeps F s u) (pwr : u.hv.pwr ≤ 3 → xhv.pwr ≤ 3) (step : u.hv.step ≤ 10 → xhv.step ≤ 10) :
    Keeps F s { u with hv := xhv, hi := xhi } := Keeps.upd h (by constructor <;> first | exact Or.inl rfl | exact Or.inr ‹_›) (pwr := pwr) (step := step)

theorem Keeps.set_hv_ks {s u : State} {xhv xks} (_ : F.hv = true) (_ : F.ks = true) (h : Keeps F s u) (pwr : u.hv.pwr ≤ 3 → xhv.pwr ≤ 3) (step : u.hv.step ≤ 10 → xhv.step ≤ 10) :
    Keeps F s { u with hv := xhv, ks := xks } := Keeps.upd h (by constructor <;> first | exact Or.inl rfl | exact Or.inr ‹_›) (pwr := pwr) (step := step)

theorem Keeps.set_hv_lc {s u : State} {xhv xlc} (_ : F.hv = true) (_ : F.lc = true) (h : Keeps F s u) (pwr : u.hv.pwr ≤ 3 → xhv.pwr ≤ 3) (step : u.hv.step ≤ 10 → xhv.step ≤ 10) :
    Keeps F s { u with hv := xhv, lc := xlc } := Keeps.upd h (by constructor <;> first | exact Or.inl rfl | exact Or.inr ‹_›) (pwr := pwr) (step := step)

theorem Keeps.set_hv_otp {s u : State} {xhv xotp} (_ : F.hv = true) (_ : F.otp = true) (h : Keeps F s u) (pwr : u.hv.pwr ≤ 3 → xhv.pwr ≤ 3) (step : u.hv.step ≤ 10 → xhv.step ≤ 10) :
    Keeps F s { u with hv := xhv, otp := xotp } := Keeps.upd h (by constructor <;> first | exact Or.inl rfl | exact Or.inr ‹_›) (pwr := pwr) (step := step)

theorem Keeps.set_hv_resp {s u : State} {xhv xresp} (_ : F.hv = true) (_ : F.resp = true) (h : Keeps F s u) (pwr : u.hv.pwr ≤ 3 → xhv.pwr ≤ 3) (step : u.hv.step ≤ 10 → xhv.step ≤ 10) :
    Keeps F s { u with hv := xhv, resp := xresp } := Keeps.upd h (by constructor <;> first | exact Or.inl rfl | exact Or.inr ‹_›) (pwr := pwr) (step := step)

theorem Keeps.set_hv_store {s u : State} {xhv xstore} (_ : F.hv = true) (_ : F.store = true) (h : Keeps F s u) (pwr : u.hv.pwr ≤ 3 → xhv.pwr ≤ 3) (step : u.hv.step ≤ 10 → xhv.step ≤ 10) (mram : tblWf {} u.store.mram = true → tblWf {} xstore.mram = true) :
    Keeps F s { u with hv := xhv, store := xstore } := Keeps.upd h (by constructor <;> first | exact Or.inl rfl | exact Or.inr ‹_›) (pwr := pwr) (step := step) (mram := mram)

theorem Keeps.set_hv_sync {s u : State} {xhv xsync} (_ : F.hv = true) (_ : F.sync = true) (h : Keeps F s u) (pwr : u.hv.pwr ≤ 3 → xhv.pwr ≤ 3) (step : u.hv.step ≤ 10 → xhv.step ≤ 10) :
    Keeps F s { u with hv := xhv, sync := xsync } := Keeps.upd h (by constructor <;> first | exact Or.inl rfl | exact Or.inr ‹_›) (pwr := pwr) (step := step)

theorem Keeps.set_jobs_nextJob {s u : State} {xjobs xnextJob} (_ : F.jobs = true) (_ : F.nextJob = true) (h : Keeps F s u) (jobs : tblWf {} u.jobs = true → tblWf {} xjobs = true) :
    Keeps F s { u with jobs := xjobs, nextJob := xnextJob } := Keeps.upd h (by constructor <;> first | exact Or.inl rfl | exact Or.inr ‹_›) (jobs := jobs)

theorem Keeps.set_ks_combs {s u : State} {xks xcombs} (_ : F.ks = true) (_ : F.combs = true) (h : Keeps F s u) (combs : tblWf {} u.combs = true → tblWf {} xcombs = true) :
    Keeps F s { u with ks := xks, combs := xcombs } := Keeps.upd h (by constructor <;> first | exact Or.inl rfl | exact Or.inr ‹_›) (combs := combs)

theorem Keeps.set_ks_freeN {s u : State} {xks xfreeN} (_ : F.ks = true) (_ : F.freeN = true) (h : Keeps F s u) :
    Keeps F s { u with ks := xks, freeN := xfreeN } := Keeps.upd h (by constructor <;> first | exact Or.inl rfl | exact Or.inr ‹_›)

theorem Keeps.set_ks_jobs {s u : State} {xks xjobs} (_ : F.ks = true) (_ : F.jobs = true) (h : Keeps F s u) (jobs : tblWf {} u.jobs = true → tblWf {} xjobs = true) :
    Keeps F s { u with ks := xks, jobs := xjobs } := Keeps.upd h (by constructor <;> first | exact Or.inl rfl | exact Or.inr ‹_›) (jobs := jobs)

theorem Keeps.set_ks_sch {s u : State} {xks xsch} (_ : F.ks = true) (_ : F.sch = true) (h : Keeps F s u) :
    Keeps F s { u with ks := xks, sch := xsch } := Keeps.upd h (by constructor <;> first | exact Or.inl rfl | exact Or.inr ‹_›)

theorem Keeps.set_ks_slots {s u : State} {xks xslots} (_ : F.ks = true) (_ : F.slots = true) (h : Keeps F s u) (slots : tblWf {} u.slots = true → tblWf {} xslots = true) :
    Keeps F s { u with ks := xks, slots := xslots } := Keeps.upd h (by constructor <;> first | exact Or.inl rfl | exact Or.inr ‹_›) (slots := slots)

theorem Keeps.set_lc_ks {s u : State} {xlc xks} (_ : F.lc = true) (_ : F.ks = true) (h : Keeps F s u) :
    Keeps F s { u with lc := xlc, ks := xks } := Keeps.upd h (by constructor <;> first | exact Or.inl rfl | exact Or.inr ‹_›)

theorem Keeps.set_otp_freeN {s u : State} {xotp xfreeN} (_ : F.otp = true) (_ : F.freeN = true) (h : Keeps F s u) :
    Keeps F s { u with otp := xotp, freeN := xfreeN } := Keeps.upd h (by constructor <;> first | exact Or.inl rfl | exact Or.inr ‹_›)

theorem Keeps.set_otp_lc {s u : State} {xotp xlc} (_ : F.otp = true) (_ : F.lc = true) (h : Keeps F s u) :
    Keeps F s { u with otp := xotp, lc := xlc } := Keeps.upd h (by constructor <;> first | exact Or.inl rfl | exact Or.inr ‹_›)

theorem Keeps.set_otp_resp {s u : State} {xotp xresp} (_ : F.otp = true) (_ : F.resp = true) (h : Keeps F s u) :
    Keeps F s { u with otp := xotp, resp := xresp } := Keeps.upd h (by constructor <;> first | exact Or.inl rfl | exact Or.inr ‹_›)

theorem Keeps.set_peer_ks {s u : State} {xpeer xks} (_ : F.peer = true) (_ : F.ks = true) (h : Keeps F s u) (packets : tblWf {} u.peer.packets = true → tblWf {} xpeer.packets = true) :
    Keeps F s { u with peer := xpeer, ks := xks } := Keeps.upd h (by constructor <;> first | exact Or.inl rfl | exact Or.inr ‹_›) (packets := packets)

theorem Keeps.set_peer_sch {s u : State} {xpeer xsch} (_ : F.peer = true) (_ : F.sch = true) (h : Keeps F s u) (packets : tblWf {} u.peer.packets = true → tblWf {} xpeer.packets = true) :
    Keeps F s { u with peer := xpeer, sch := xsch } := Keeps.upd h (by constructor <;> first | exact Or.inl rfl | exact Or.inr ‹_›) (packets := packets)

theorem Keeps.set_sch_queues {s u : State} {xsch xqueues} (_ : F.sch = true) (_ : F.queues = true) (h : Keeps F s u) (queues : tblWf {} u.queues = true → tblWf {} xqueues = true) :
    Keeps F s { u with sch := xsch, queues := xqueues } := Keeps.upd h (by constructor <;> first | exact Or.inl rfl | exact Or.inr ‹_›) (queues := queues)

theorem Keeps.set_store_ev {s u : State} {xstore xev} (_ : F.store = true) (_ : F.ev = true) (h : Keeps F s u) (mram : tblWf {} u.store.mram = true → tblWf {} xstore.mram = true) :
    Keeps F s { u with store := xstore, ev := xev } := Keeps.upd h (by constructor <;> first | exact Or.inl rfl | exact Or.inr ‹_›) (mram := mram)

theorem Keeps.set_store_ks {s u : State} {xstore xks} (_ : F.store = true) (_ : F.ks = true) (h : Keeps F s u) (mram : tblWf {} u.store.mram = true → tblWf {} xstore.mram = true) :
    Keeps F s { u with store := xstore, ks := xks } := Keeps.upd h (by constructor <;> first | exact Or.inl rfl | exact Or.inr ‹_›) (mram := mram)

theorem Keeps.set_store_lc {s u : State} {xstore xlc} (_ : F.store = true) (_ : F.lc = true) (h : Keeps F s u) (mram : tblWf {} u.store.mram = true → tblWf {} xstore.mram = true) :
    Keeps F s { u with store := xstore, lc := xlc } := Keeps.upd h (by constructor <;> first | exact Or.inl rfl | exact Or.inr ‹_›) (mram := mram)

theorem Keeps.set_store_sch {s u : State} {xstore xsch} (_ : F.store = true) (_ : F.sch = true) (h : Keeps F s u) (mram : tblWf {} u.store.mram = true → tblWf {} xstore.mram = true) :
    Keeps F s { u with store := xstore, sch := xsch } := Keeps.upd h (by constructor <;> first | exact Or.inl rfl | exact Or.inr ‹_›) (mram := mram)

theorem Keeps.set_sync_wg {s u : State} {xsync xwg} (_ : F.sync = true) (_ : F.wg = true) (h : Keeps F s u) :
    Keeps F s { u with sync := xsync, wg := xwg } := Keeps.upd h (by constructor <;> first | exact Or.inl rfl | exact Or.inr ‹_›)

theorem Keeps.set_dma_halves_latches {s u : State} {xdma xhalves xlatches} (_ : F.dma = true) (_ : F.halves = true) (_ : F.latches = true) (h : Keeps F s u) (reads : tblWf none u.dma.reads = true → tblWf none xdma.reads = true) :
    Keeps F s { u with dma := xdma, halves := xhalves, latches := xlatches } := Keeps.upd h (by constructor <;> first | exact Or.inl rfl | exact Or.inr ‹_›) (reads := reads)

theorem Keeps.set_ev_ks_sch {s u : State} {xev xks xsch} (_ : F.ev = true) (_ : F.ks = true) (_ : F.sch = true) (h : Keeps F s u) :
    Keeps F s { u with ev := xev, ks := xks, sch := xsch } := Keeps.upd h (by constructor <;> first | exact Or.inl rfl | exact Or.inr ‹_›)

theorem Keeps.set_hv_otp_resp {s u : State} {xhv xotp xresp} (_ : F.hv = true) (_ : F.otp = true) (_ : F.resp = true) (h : Keeps F s u) (pwr : u.hv.pwr ≤ 3 → xhv.pwr ≤ 3) (step : u.hv.step ≤ 10 → xhv.step ≤ 10) :
    Keeps F s { u with hv := xhv, otp := xotp, resp := xresp } := Keeps.upd h (by constructor <;> first | exact Or.inl rfl | exact Or.inr ‹_›) (pwr := pwr) (step := step)

theorem Keeps.set_hv_store_wg {s u : State} {xhv xstore xwg} (_ : F.hv = true) (_ : F.store = true) (_ : F.wg = true) (h : Keeps F s u) (pwr : u.hv.pwr ≤ 3 → xhv.pwr ≤ 3) (step : u.hv.step ≤ 10 → xhv.step ≤ 10) (mram : tblWf {} u.store.mram = true → tblWf {} xstore.mram = true) :
    Keeps F s { u with hv := xhv, store := xstore, wg := xwg } := Keeps.upd h (by constructor <;> first | exact Or.inl rfl | exact Or.inr ‹_›) (pwr := pwr) (step := step) (mram := mram)

theorem Keeps.set_peer_ks_sch {s u : State} {xpeer xks xsch} (_ : F.peer = true) (_ : F.ks = true) (_ : F.sch = true) (h : Keeps F s u) (packets : tblWf {} u.peer.packets = true → tblWf {} xpeer.packets = true) :
    Keeps F s { u with peer := xpeer, ks := xks, sch := xsch } := Keeps.upd h (by constructor <;> first | exact Or.inl rfl | exact Or.inr ‹_›) (packets := packets)

theorem Keeps.set_store_ev_ks {s u : State} {xstore xev xks} (_ : F.store = true) (_ : F.ev = true) (_ : F.ks = true) (h : Keeps F s u) (mram : tblWf {} u.store.mram = true → tblWf {} xstore.mram = true) :
    Keeps F s { u with store := xstore, ev := xev, ks := xks } := Keeps.upd h (by constructor <;> first | exact Or.inl rfl | exact Or.inr ‹_›) (mram := mram)

theorem Keeps.set_store_ev_lc {s u : State} {xstore xev xlc} (_ : F.store = true) (_ : F.ev = true) (_ : F.lc = true) (h : Keeps F s u) (mram : tblWf {} u.store.mram = true → tblWf {} xstore.mram = true) :
    Keeps F s { u with store := xstore, ev := xev, lc := xlc } := Keeps.upd h (by constructor <;> first | exact Or.inl rfl | exact Or.inr ‹_›) (mram := mram)

theorem Keeps.set_store_ev_sch {s u : State} {xstore xev xsch} (_ : F.store = true) (_ : F.ev = true) (_ : F.sch = true) (h : Keeps F s u) (mram : tblWf {} u.store.mram = true → tblWf {} xstore.mram = true) :
    Keeps F s { u with store := xstore, ev := xev, sch := xsch } := Keeps.upd h (by constructor <;> first | exact Or.inl rfl | exact Or.inr ‹_›) (mram := mram)

theorem Keeps.set_store_ks_sch {s u : State} {xstore xks xsch} (_ : F.store = true) (_ : F.ks = true) (_ : F.sch = true) (h : Keeps F s u) (mram : tblWf {} u.store.mram = true → tblWf {} xstore.mram = true) :
    Keeps F s { u with store := xstore, ks := xks, sch := xsch } := Keeps.upd h (by constructor <;> first | exact Or.inl rfl | exact Or.inr ‹_›) (mram := mram)

theorem Keeps.set_store_ev_ks_sch {s u : State} {xstore xev xks xsch} (_ : F.store = true) (_ : F.ev = true) (_ : F.ks = true) (_ : F.sch = true) (h : Keeps F s u) (mram : tblWf {} u.store.mram = true → tblWf {} xstore.mram = true) :
    Keeps F s { u with store := xstore, ev := xev, ks := xks, sch := xsch } := Keeps.upd h (by constructor <;> first | exact Or.inl rfl | exact Or.inr ‹_›) (mram := mram)

theorem Keeps.set_hv_hi_peer_wg_ks {s u : State} {xhv xhi xpeer xwg xks} (_ : F.hv = true) (_ : F.hi = true) (_ : F.peer = true) (_ : F.wg = true) (_ : F.ks = true) (h : Keeps F s u) (pwr : u.hv.pwr ≤ 3 → xhv.pwr ≤ 3) (step : u.hv.step ≤ 10 → xhv.step ≤ 10) (packets : tblWf {} u.peer.packets = true → tblWf {} xpeer.packets = true) :
    Keeps F s { u with hv := xhv, hi := xhi, peer := xpeer, wg := xwg, ks := xks } := Keeps.upd h (by constructor <;> first | exact Or.inl rfl | exact Or.inr ‹_›) (pwr := pwr) (step := step) (packets := packets)

theorem Keeps.set_hv_hi_peer_sync_wg_ks {s u : State} {xhv xhi xpeer xsync xwg xks} (_ : F.hv = true) (_ : F.hi = true) (_ : F.peer = true) (_ : F.sync = true) (_ : F.wg = true) (_ : F.ks = true) (h : Keeps F s u) (pwr : u.hv.pwr ≤ 3 → xhv.pwr ≤ 3) (step : u.hv.step ≤ 10 → xhv.step ≤ 10) (packets : tblWf {} u.peer.packets = true → tblWf {} xpeer.packets = true) :
    Keeps F s { u with hv := xhv, hi := xhi, peer := xpeer, sync := xsync, wg := xwg, ks := xks } := Keeps.upd h (by constructor <;> first | exact Or.inl rfl | exact Or.inr ‹_›) (pwr := pwr) (step := step) (packets := packets)

/-! ## Ops -/

theorem setQueue_keeps (s : State) (c : Nat) (q : Nat) (v : Queue) (_ : F.queues = true) (hK : Keeps F s0 s) : Keeps F s0 (State.setQueue s c q v) := by
  unfold State.setQueue
  try dsimp only
  repeat' (with_reducible first | assumption | apply Keeps.ite | apply Keeps.ite2 | apply Keeps.ite1 | apply Keeps.ite22 | apply Keeps.ite21 | (fail_if_no_progress refine Keeps.set_queues ‹_› ?_ (by first | exact fun h => h | exact tblWf_set _ _ _ _ | exact tblWf_erase _ _ _ | exact tblWf_map _ _ _ | exact tblWf_drop _ _ _ | with_unfolding_all exact tblWf_drop _ _ _ | exact (tblWf_put _ _ _ _ · (by simp)))) | split)

theorem modQueue_keeps (s : State) (c : Nat) (q : Nat) (f : Queue → Queue) (_ : F.queues = true) (hK : Keeps F s0 s) : Keeps F s0 (State.modQueue s c q f) := by
  unfold State.modQueue
  try dsimp only
  repeat' (with_reducible first | assumption | apply Keeps.ite | apply Keeps.ite2 | apply Keeps.ite1 | apply Keeps.ite22 | apply Keeps.ite21 | apply setQueue_keeps | split)

theorem modTenant_keeps (s : State) (c : Nat) (f : Tenant → Tenant) (_ : F.tenants = true) (hK : Keeps F s0 s) : Keeps F s0 (State.modTenant s c f) := by
  unfold State.modTenant
  try dsimp only
  repeat' (with_reducible first | assumption | apply Keeps.ite | apply Keeps.ite2 | apply Keeps.ite1 | apply Keeps.ite22 | apply Keeps.ite21 | (fail_if_no_progress refine Keeps.set_tenants ‹_› ?_ (by first | exact fun h => h | exact tblWf_set _ _ _ _ | exact tblWf_erase _ _ _ | exact tblWf_map _ _ _ | exact tblWf_drop _ _ _ | with_unfolding_all exact tblWf_drop _ _ _ | exact (tblWf_put _ _ _ _ · (by simp)))) | split)

theorem modFunc_keeps (s : State) (c : Nat) (f : Func → Func) (_ : F.fns = true) (hK : Keeps F s0 s) : Keeps F s0 (State.modFunc s c f) := by
  unfold State.modFunc
  try dsimp only
  repeat' (with_reducible first | assumption | apply Keeps.ite | apply Keeps.ite2 | apply Keeps.ite1 | apply Keeps.ite22 | apply Keeps.ite21 | (fail_if_no_progress refine Keeps.set_fns ‹_› ?_ (by first | exact fun h => h | exact tblWf_set _ _ _ _ | exact tblWf_erase _ _ _ | exact tblWf_map _ _ _ | exact tblWf_drop _ _ _ | with_unfolding_all exact tblWf_drop _ _ _ | exact (tblWf_put _ _ _ _ · (by simp)))) | split | intro _)

theorem modRing_keeps (s : State) (c : Nat) (r : Nat) (f : CrRing → CrRing) (_ : F.rings = true) (hK : Keeps F s0 s) : Keeps F s0 (State.modRing s c r f) := by
  unfold State.modRing
  try dsimp only
  repeat' (with_reducible first | assumption | apply Keeps.ite | apply Keeps.ite2 | apply Keeps.ite1 | apply Keeps.ite22 | apply Keeps.ite21 | (fail_if_no_progress refine Keeps.set_rings ‹_› ?_ (by first | exact fun h => h | exact tblWf_set _ _ _ _ | exact tblWf_erase _ _ _ | exact tblWf_map _ _ _ | exact tblWf_drop _ _ _ | with_unfolding_all exact tblWf_drop _ _ _ | exact (tblWf_put _ _ _ _ · (by simp)))) | split)

theorem modCtx_keeps (s : State) (c : Nat) (x : Nat) (f : Ctx → Ctx) (_ : F.ctxs = true) (hK : Keeps F s0 s) : Keeps F s0 (State.modCtx s c x f) := by
  unfold State.modCtx
  try dsimp only
  repeat' (with_reducible first | assumption | apply Keeps.ite | apply Keeps.ite2 | apply Keeps.ite1 | apply Keeps.ite22 | apply Keeps.ite21 | (fail_if_no_progress refine Keeps.set_ctxs ‹_› ?_ (by first | exact fun h => h | exact tblWf_set _ _ _ _ | exact tblWf_erase _ _ _ | exact tblWf_map _ _ _ | exact tblWf_drop _ _ _ | with_unfolding_all exact tblWf_drop _ _ _ | exact (tblWf_put _ _ _ _ · (by simp)))) | split)

theorem modSlot_keeps (s : State) (pos : Nat) (f : KSlot → KSlot) (_ : F.slots = true) (hK : Keeps F s0 s) : Keeps F s0 (State.modSlot s pos f) := by
  unfold State.modSlot
  try dsimp only
  repeat' (with_reducible first | assumption | apply Keeps.ite | apply Keeps.ite2 | apply Keeps.ite1 | apply Keeps.ite22 | apply Keeps.ite21 | (fail_if_no_progress refine Keeps.set_slots ‹_› ?_ (by first | exact fun h => h | exact tblWf_set _ _ _ _ | exact tblWf_erase _ _ _ | exact tblWf_map _ _ _ | exact tblWf_drop _ _ _ | with_unfolding_all exact tblWf_drop _ _ _ | exact (tblWf_put _ _ _ _ · (by simp)))) | split)

theorem modComb_keeps (s : State) (c : Nat) (f : Comb → Comb) (_ : F.combs = true) (hK : Keeps F s0 s) : Keeps F s0 (State.modComb s c f) := by
  unfold State.modComb
  try dsimp only
  repeat' (with_reducible first | assumption | apply Keeps.ite | apply Keeps.ite2 | apply Keeps.ite1 | apply Keeps.ite22 | apply Keeps.ite21 | (fail_if_no_progress refine Keeps.set_combs ‹_› ?_ (by first | exact fun h => h | exact tblWf_set _ _ _ _ | exact tblWf_erase _ _ _ | exact tblWf_map _ _ _ | exact tblWf_drop _ _ _ | with_unfolding_all exact tblWf_drop _ _ _ | exact (tblWf_put _ _ _ _ · (by simp)))) | split)

theorem modJob_keeps (s : State) (j : Nat) (f : Job → Job) (_ : F.jobs = true) (hK : Keeps F s0 s) : Keeps F s0 (State.modJob s j f) := by
  unfold State.modJob
  try dsimp only
  repeat' (with_reducible first | assumption | apply Keeps.ite | apply Keeps.ite2 | apply Keeps.ite1 | apply Keeps.ite22 | apply Keeps.ite21 | (fail_if_no_progress refine Keeps.set_jobs ‹_› ?_ (by first | exact fun h => h | exact tblWf_set _ _ _ _ | exact tblWf_erase _ _ _ | exact tblWf_map _ _ _ | exact tblWf_drop _ _ _ | with_unfolding_all exact tblWf_drop _ _ _ | exact (tblWf_put _ _ _ _ · (by simp)))) | split)

theorem dropJob_keeps (s : State) (j : Nat) (_ : F.jobs = true) (hK : Keeps F s0 s) : Keeps F s0 (State.dropJob s j) := by
  unfold State.dropJob
  try dsimp only
  repeat' (with_reducible first | assumption | apply Keeps.ite | apply Keeps.ite2 | apply Keeps.ite1 | apply Keeps.ite22 | apply Keeps.ite21 | (fail_if_no_progress refine Keeps.set_jobs ‹_› ?_ (by first | exact fun h => h | exact tblWf_set _ _ _ _ | exact tblWf_erase _ _ _ | exact tblWf_map _ _ _ | exact tblWf_drop _ _ _ | with_unfolding_all exact tblWf_drop _ _ _ | exact (tblWf_put _ _ _ _ · (by simp)))) | split)

theorem onClock_keeps (on : Bool) (s : State) (k : State → State) (hk : ∀ y0, Keeps F s0 y0 → Keeps F s0 (k y0)) (hK : Keeps F s0 s) : Keeps F s0 (onClock on s k) := by
  unfold onClock
  try dsimp only
  repeat' (with_reducible first | assumption | apply Keeps.ite | apply Keeps.ite2 | apply Keeps.ite1 | apply Keeps.ite22 | apply Keeps.ite21 | apply hk | split)

theorem whenClocked_keeps (i : Instr) (s : State) (k : State → State) (hk : ∀ y0, Keeps F s0 y0 → Keeps F s0 (k y0)) (_ : F.hv = true) (hK : Keeps F s0 s) : Keeps F s0 (whenClocked i s k) := by
  unfold whenClocked
  try dsimp only
  repeat' (with_reducible first | assumption | apply Keeps.ite | apply Keeps.ite2 | apply Keeps.ite1 | apply Keeps.ite22 | apply Keeps.ite21 | apply hk | (fail_if_no_progress refine Keeps.set_hv ‹_› ?_ (by first | exact fun h => h | (intro _; dsimp only; split <;> decide) | (intro _; simp; done)) (by first | exact fun h => h | (intro _; dsimp only; split <;> decide) | (intro _; simp; done))) | split)

theorem emit_keeps (s : State) (l : List Out) (_ : F.out = true) (hK : Keeps F s0 s) : Keeps F s0 (State.emit s l) := by
  unfold State.emit
  try dsimp only
  repeat' (with_reducible first | assumption | apply Keeps.ite | apply Keeps.ite2 | apply Keeps.ite1 | apply Keeps.ite22 | apply Keeps.ite21 | (fail_if_no_progress refine Keeps.set_out ‹_› ?_) | split)

theorem wake_keeps (s : State) (cause : Nat) (_ : F.hv = true) (hK : Keeps F s0 s) : Keeps F s0 (wake s cause) := by
  unfold wake
  try dsimp only
  repeat' (with_reducible first | assumption | apply Keeps.ite | apply Keeps.ite2 | apply Keeps.ite1 | apply Keeps.ite22 | apply Keeps.ite21 | (fail_if_no_progress refine Keeps.set_hv ‹_› ?_ (by first | exact fun h => h | (intro _; dsimp only; split <;> decide) | (intro _; simp; done)) (by first | exact fun h => h | (intro _; dsimp only; split <;> decide) | (intro _; simp; done))) | split)

theorem whenAwakeBy_keeps (w : Nat) (i : Instr) (s : State) (k : State → State) (hk : ∀ y0, Keeps F s0 y0 → Keeps F s0 (k y0)) (_ : F.hv = true) (hK : Keeps F s0 s) : Keeps F s0 (whenAwakeBy w i s k) := by
  unfold whenAwakeBy
  try dsimp only
  repeat' (with_reducible first | assumption | apply Keeps.ite | apply Keeps.ite2 | apply Keeps.ite1 | apply Keeps.ite22 | apply Keeps.ite21 | apply hk | apply wake_keeps | (fail_if_no_progress refine Keeps.set_hv ‹_› ?_ (by first | exact fun h => h | (intro _; dsimp only; split <;> decide) | (intro _; simp; done)) (by first | exact fun h => h | (intro _; dsimp only; split <;> decide) | (intro _; simp; done))) | split)

theorem whenAwake_keeps (i : Instr) (s : State) (k : State → State) (hk : ∀ y0, Keeps F s0 y0 → Keeps F s0 (k y0)) (_ : F.hv = true) (hK : Keeps F s0 s) : Keeps F s0 (whenAwake i s k) := by
  unfold whenAwake
  try dsimp only
  repeat' (with_reducible first | assumption | (intro _ _) | apply Keeps.ite | apply Keeps.ite2 | apply Keeps.ite1 | apply Keeps.ite22 | apply Keeps.ite21 | apply hk | apply whenAwakeBy_keeps | split | intro _)

theorem trng_keeps (s : State) (_ : F.trngN = true) (hK : Keeps F s0 s) : Keeps F s0 (State.trng s).2 := by
  unfold State.trng
  try dsimp only
  repeat' (with_reducible first | assumption | apply Keeps.ite | apply Keeps.ite2 | apply Keeps.ite1 | apply Keeps.ite22 | apply Keeps.ite21 | (fail_if_no_progress refine Keeps.set_trngN ‹_› ?_) | split)

theorem signalVec_keeps (s : State) (c : Nat) (v : Nat) (_ : F.fns = true) (_ : F.tenants = true) (hK : Keeps F s0 s) : Keeps F s0 (signalVec s c v) := by
  unfold signalVec
  try dsimp only
  repeat' (with_reducible first | assumption | apply Keeps.ite | apply Keeps.ite2 | apply Keeps.ite1 | apply Keeps.ite22 | apply Keeps.ite21 | apply modTenant_keeps | apply modFunc_keeps | split | intro _)

theorem noticeFor_keeps (s : State) (c : Nat) (ty : Nat) (q : Nat) (_ : F.peer = true) (hK : Keeps F s0 s) : Keeps F s0 (noticeFor s c ty q) := by
  unfold noticeFor
  try dsimp only
  repeat' (with_reducible first | assumption | apply Keeps.ite | apply Keeps.ite2 | apply Keeps.ite1 | apply Keeps.ite22 | apply Keeps.ite21 | (fail_if_no_progress refine Keeps.set_peer ‹_› ?_ (by first | exact fun h => h | exact tblWf_set _ _ _ _ | exact tblWf_erase _ _ _ | exact tblWf_map _ _ _ | exact tblWf_drop _ _ _ | with_unfolding_all exact tblWf_drop _ _ _ | exact (tblWf_put _ _ _ _ · (by simp)))) | split)

theorem recMerge_keeps (s : State) (src : Nat) (info : W32) (signal : Bool) (_ : F.ev = true) (hK : Keeps F s0 s) : Keeps F s0 (recMerge s src info signal) := by
  unfold recMerge
  try dsimp only
  repeat' (with_reducible first | assumption | apply Keeps.ite | apply Keeps.ite2 | apply Keeps.ite1 | apply Keeps.ite22 | apply Keeps.ite21 | (fail_if_no_progress refine Keeps.set_ev ‹_› ?_) | split)

theorem raise_keeps (s : State) (src : Nat) (info : W32) (_ : F.ev = true) (_ : F.fns = true) (_ : F.tenants = true) (hK : Keeps F s0 s) : Keeps F s0 (raise s src info) := by
  unfold raise
  try dsimp only
  repeat' (with_reducible first | assumption | apply Keeps.ite | apply Keeps.ite2 | apply Keeps.ite1 | apply Keeps.ite22 | apply Keeps.ite21 | apply signalVec_keeps | apply recMerge_keeps | (fail_if_no_progress refine Keeps.set_ev ‹_› ?_) | split)

theorem raiseHive_keeps (s : State) (h : Nat) (info : W32) (_ : F.ev = true) (_ : F.fns = true) (_ : F.tenants = true) (hK : Keeps F s0 s) : Keeps F s0 (raiseHive s h info) := by
  unfold raiseHive
  try dsimp only
  repeat' (with_reducible first | assumption | apply Keeps.ite | apply Keeps.ite2 | apply Keeps.ite1 | apply Keeps.ite22 | apply Keeps.ite21 | apply raise_keeps | split)

theorem combSync_keeps (s : State) (c : Nat) (_ : F.ev = true) (_ : F.fns = true) (_ : F.tenants = true) (_ : F.combs = true) (hK : Keeps F s0 s) : Keeps F s0 (combSync s c) := by
  unfold combSync
  try dsimp only
  repeat' (with_reducible first | assumption | apply Keeps.ite | apply Keeps.ite2 | apply Keeps.ite1 | apply Keeps.ite22 | apply Keeps.ite21 | apply modComb_keeps | apply raise_keeps | split | intro _)

theorem stick_keeps (s : State) (b : Nat) (_ : F.aon = true) (hK : Keeps F s0 s) : Keeps F s0 (stick s b) := by
  unfold stick
  try dsimp only
  repeat' (with_reducible first | assumption | apply Keeps.ite | apply Keeps.ite2 | apply Keeps.ite1 | apply Keeps.ite22 | apply Keeps.ite21 | (fail_if_no_progress refine Keeps.set_aon ‹_› ?_) | split)

theorem sticky_keeps (s : State) (b : Nat) (info : W32) (_ : F.aon = true) (_ : F.ev = true) (_ : F.fns = true) (_ : F.tenants = true) (_ : F.combs = true) (hK : Keeps F s0 s) : Keeps F s0 (sticky s b info) := by
  unfold sticky
  try dsimp only
  repeat' (with_reducible first | assumption | apply Keeps.ite | apply Keeps.ite2 | apply Keeps.ite1 | apply Keeps.ite22 | apply Keeps.ite21 | apply raise_keeps | apply raiseHive_keeps | apply combSync_keeps | apply stick_keeps | split)

theorem stickyDrop_keeps (s : State) (mask : BitVec 256) (_ : F.aon = true) (_ : F.ev = true) (_ : F.fns = true) (_ : F.tenants = true) (_ : F.combs = true) (hK : Keeps F s0 s) : Keeps F s0 (stickyDrop s mask) := by
  unfold stickyDrop
  try dsimp only
  repeat' (with_reducible first | assumption | apply Keeps.ite | apply Keeps.ite2 | apply Keeps.ite1 | apply Keeps.ite22 | apply Keeps.ite21 | apply combSync_keeps | (apply Keeps.each; intro _ _ _) | (fail_if_no_progress refine Keeps.set_aon ‹_› ?_) | split | intro _)

theorem eccCount_keeps (s : State) (n : Nat) (_ : F.ev = true) (hK : Keeps F s0 s) : Keeps F s0 (eccCount s n) := by
  unfold eccCount
  try dsimp only
  repeat' (with_reducible first | assumption | apply Keeps.ite | apply Keeps.ite2 | apply Keeps.ite1 | apply Keeps.ite22 | apply Keeps.ite21 | (fail_if_no_progress refine Keeps.set_ev ‹_› ?_) | split)

theorem eccCorrected_keeps (s : State) (comb : Option Nat) (_ : F.ev = true) (_ : F.fns = true) (_ : F.tenants = true) (hK : Keeps F s0 s) : Keeps F s0 (eccCorrected s comb) := by
  unfold eccCorrected
  try dsimp only
  repeat' (with_reducible first | assumption | apply Keeps.ite | apply Keeps.ite2 | apply Keeps.ite1 | apply Keeps.ite22 | apply Keeps.ite21 | apply raise_keeps | apply eccCount_keeps | split)

theorem combCount1_keeps (s : State) (c : Nat) (top : Nat) (get : Comb → Nat) (put : Comb → Nat → Comb) (_ : F.ev = true) (_ : F.fns = true) (_ : F.tenants = true) (_ : F.combs = true) (hK : Keeps F s0 s) : Keeps F s0 (combCount1 s c top get put) := by
  unfold combCount1
  try dsimp only
  repeat' (with_reducible first | assumption | apply Keeps.ite | apply Keeps.ite2 | apply Keeps.ite1 | apply Keeps.ite22 | apply Keeps.ite21 | apply modComb_keeps | apply raise_keeps | split | intro _)

theorem combFault_keeps (s : State) (c : Nat) (cell : Option Cell) (info : W32) (_ : F.aon = true) (_ : F.ev = true) (_ : F.fns = true) (_ : F.tenants = true) (_ : F.combs = true) (hK : Keeps F s0 s) : Keeps F s0 (combFault s c cell info) := by
  unfold combFault
  try dsimp only
  repeat' (with_reducible first | assumption | apply Keeps.ite | apply Keeps.ite2 | apply Keeps.ite1 | apply Keeps.ite22 | apply Keeps.ite21 | apply modComb_keeps | apply raise_keeps | apply combSync_keeps | apply stick_keeps | split | intro _)

theorem sendLtr_keeps (s : State) (_ : F.hi = true) (_ : F.out = true) (hK : Keeps F s0 s) : Keeps F s0 (sendLtr s) := by
  unfold sendLtr
  try dsimp only
  repeat' (with_reducible first | assumption | apply Keeps.ite | apply Keeps.ite2 | apply Keeps.ite1 | apply Keeps.ite22 | apply Keeps.ite21 | apply emit_keeps | (fail_if_no_progress refine Keeps.set_hi ‹_› ?_) | split)

theorem linkActive_keeps (s : State) (_ : F.hi = true) (_ : F.out = true) (hK : Keeps F s0 s) : Keeps F s0 (linkActive s) := by
  unfold linkActive
  try dsimp only
  repeat' (with_reducible first | assumption | apply Keeps.ite | apply Keeps.ite2 | apply Keeps.ite1 | apply Keeps.ite22 | apply Keeps.ite21 | apply sendLtr_keeps | (fail_if_no_progress refine Keeps.set_hi ‹_› ?_) | split)

theorem fnActive_keeps (s : State) (c : Nat) (_ : F.hi = true) (_ : F.out = true) (hK : Keeps F s0 s) : Keeps F s0 (fnActive s c) := by
  unfold fnActive
  try dsimp only
  repeat' (with_reducible first | assumption | apply Keeps.ite | apply Keeps.ite2 | apply Keeps.ite1 | apply Keeps.ite22 | apply Keeps.ite21 | apply linkActive_keeps | split)

theorem winDrop_keeps (s : State) (c : Nat) (_ : F.tenants = true) (hK : Keeps F s0 s) : Keeps F s0 (winDrop s c) := by
  unfold winDrop
  try dsimp only
  repeat' (with_reducible first | assumption | apply Keeps.ite | apply Keeps.ite2 | apply Keeps.ite1 | apply Keeps.ite22 | apply Keeps.ite21 | apply modTenant_keeps | split | intro _)

theorem askXlate_keeps (s : State) (c : Nat) (pasid : Option Nat) (page : Nat) (_ : F.hi = true) (_ : F.dma = true) (_ : F.out = true) (hK : Keeps F s0 s) : Keeps F s0 (askXlate s c pasid page) := by
  unfold askXlate
  try dsimp only
  repeat' (with_reducible first | assumption | apply Keeps.ite | apply Keeps.ite2 | apply Keeps.ite1 | apply Keeps.ite22 | apply Keeps.ite21 | apply emit_keeps | apply linkActive_keeps | (fail_if_no_progress refine Keeps.set_dma ‹_› ?_ (by first | exact fun h => h | exact tblWf_set _ _ _ _ | exact tblWf_erase _ _ _ | exact tblWf_map _ _ _ | exact tblWf_drop _ _ _ | with_unfolding_all exact tblWf_drop _ _ _ | exact (tblWf_put _ _ _ _ · (by simp)))) | split)

theorem recordWrite_keeps (s : State) (c : Nat) (a : Nat) (b : Bytes) (_ : F.hi = true) (_ : F.dma = true) (_ : F.tenants = true) (_ : F.out = true) (hK : Keeps F s0 s) : Keeps F s0 (recordWrite s c a b).2 := by
  unfold recordWrite
  try dsimp only
  repeat' (with_reducible first | assumption | apply Keeps.ite | apply Keeps.ite2 | apply Keeps.ite1 | apply Keeps.ite22 | apply Keeps.ite21 | apply emit_keeps | apply linkActive_keeps | apply winDrop_keeps | apply askXlate_keeps | split)

theorem waitRead_keeps (s : State) (r : Req) (_ : F.dma = true) (hK : Keeps F s0 s) : Keeps F s0 (waitRead s r) := by
  unfold waitRead
  try dsimp only
  repeat' (with_reducible first | assumption | apply Keeps.ite | apply Keeps.ite2 | apply Keeps.ite1 | apply Keeps.ite22 | apply Keeps.ite21 | (fail_if_no_progress refine Keeps.set_dma ‹_› ?_ (by first | exact fun h => h | exact tblWf_set _ _ _ _ | exact tblWf_erase _ _ _ | exact tblWf_map _ _ _ | exact tblWf_drop _ _ _ | with_unfolding_all exact tblWf_drop _ _ _ | exact (tblWf_put _ _ _ _ · (by simp)))) | split)

theorem issueRead_keeps (s : State) (r : Req) (_ : F.hi = true) (_ : F.dma = true) (_ : F.out = true) (hK : Keeps F s0 s) : Keeps F s0 (issueRead s r) := by
  unfold issueRead
  try dsimp only
  repeat' (with_reducible first | assumption | apply Keeps.ite | apply Keeps.ite2 | apply Keeps.ite1 | apply Keeps.ite22 | apply Keeps.ite21 | apply emit_keeps | apply linkActive_keeps | apply askXlate_keeps | apply waitRead_keeps | (fail_if_no_progress refine Keeps.set_dma ‹_› ?_ (by first | exact fun h => h | exact tblWf_set _ _ _ _ | exact tblWf_erase _ _ _ | exact tblWf_map _ _ _ | exact tblWf_drop _ _ _ | with_unfolding_all exact tblWf_drop _ _ _ | exact (tblWf_put _ _ _ _ · (by simp)))) | split)

theorem dropRead_keeps (s : State) (tag : Nat) (_ : F.dma = true) (hK : Keeps F s0 s) : Keeps F s0 (dropRead s tag) := by
  unfold dropRead
  try dsimp only
  repeat' (with_reducible first | assumption | apply Keeps.ite | apply Keeps.ite2 | apply Keeps.ite1 | apply Keeps.ite22 | apply Keeps.ite21 | (fail_if_no_progress refine Keeps.set_dma ‹_› ?_ (by first | exact fun h => h | exact tblWf_set _ _ _ _ | exact tblWf_erase _ _ _ | exact tblWf_map _ _ _ | exact tblWf_drop _ _ _ | with_unfolding_all exact tblWf_drop _ _ _ | exact (tblWf_put _ _ _ _ · (by simp)))) | split | intro _)

theorem orphanReads_keeps (s : State) (counted : Bool) (p : Req → Bool) (_ : F.dma = true) (hK : Keeps F s0 s) : Keeps F s0 (orphanReads s counted p) := by
  unfold orphanReads
  try dsimp only
  repeat' (with_reducible first | assumption | apply Keeps.ite | apply Keeps.ite2 | apply Keeps.ite1 | apply Keeps.ite22 | apply Keeps.ite21 | (fail_if_no_progress refine Keeps.set_dma ‹_› ?_ (by first | exact fun h => h | exact tblWf_set _ _ _ _ | exact tblWf_erase _ _ _ | exact tblWf_map _ _ _ | exact tblWf_drop _ _ _ | with_unfolding_all exact tblWf_drop _ _ _ | exact (tblWf_put _ _ _ _ · (by simp)))) | split | intro _)

theorem keeperIssue_keeps (s : State) (r : Req) (_ : F.hi = true) (_ : F.dma = true) (_ : F.out = true) (hK : Keeps F s0 s) : Keeps F s0 (keeperIssue s r) := by
  unfold keeperIssue
  try dsimp only
  repeat' (with_reducible first | assumption | apply Keeps.ite | apply Keeps.ite2 | apply Keeps.ite1 | apply Keeps.ite22 | apply Keeps.ite21 | apply emit_keeps | apply linkActive_keeps | (fail_if_no_progress refine Keeps.set_dma ‹_› ?_ (by first | exact fun h => h | exact tblWf_set _ _ _ _ | exact tblWf_erase _ _ _ | exact tblWf_map _ _ _ | exact tblWf_drop _ _ _ | with_unfolding_all exact tblWf_drop _ _ _ | exact (tblWf_put _ _ _ _ · (by simp)))) | split)

theorem timedOut_keeps (s : State) (fn : Nat) (_ : F.aon = true) (_ : F.ev = true) (_ : F.hi = true) (_ : F.fns = true) (_ : F.tenants = true) (_ : F.combs = true) (hK : Keeps F s0 s) : Keeps F s0 (timedOut s fn) := by
  unfold timedOut
  try dsimp only
  repeat' (with_reducible first | assumption | apply Keeps.ite | apply Keeps.ite2 | apply Keeps.ite1 | apply Keeps.ite22 | apply Keeps.ite21 | apply modFunc_keeps | apply sticky_keeps | (fail_if_no_progress refine Keeps.set_hi ‹_› ?_) | split | intro _)

theorem cplBad_keeps (s : State) (_ : F.hi = true) (hK : Keeps F s0 s) : Keeps F s0 (cplBad s) := by
  unfold cplBad
  try dsimp only
  repeat' (with_reducible first | assumption | apply Keeps.ite | apply Keeps.ite2 | apply Keeps.ite1 | apply Keeps.ite22 | apply Keeps.ite21 | (fail_if_no_progress refine Keeps.set_hi ‹_› ?_) | split)

theorem cplPoisoned_keeps (s : State) (_ : F.hi = true) (hK : Keeps F s0 s) : Keeps F s0 (cplPoisoned s) := by
  unfold cplPoisoned
  try dsimp only
  repeat' (with_reducible first | assumption | apply Keeps.ite | apply Keeps.ite2 | apply Keeps.ite1 | apply Keeps.ite22 | apply Keeps.ite21 | (fail_if_no_progress refine Keeps.set_hi ‹_› ?_) | split)

theorem keeperEnd_keeps (s : State) (c : Nat) (e : ReadEnd) (_ : F.aon = true) (_ : F.ev = true) (_ : F.hi = true) (_ : F.fns = true) (_ : F.tenants = true) (_ : F.combs = true) (hK : Keeps F s0 s) : Keeps F s0 (keeperEnd s c e) := by
  unfold keeperEnd
  try dsimp only
  repeat' (with_reducible first | assumption | apply Keeps.ite | apply Keeps.ite2 | apply Keeps.ite1 | apply Keeps.ite22 | apply Keeps.ite21 | apply timedOut_keeps | apply cplBad_keeps | apply cplPoisoned_keeps | split)

theorem keeperRead_keeps (s : State) (c : Nat) (a : Nat) (n : Nat) (e : ReadEnd) (_ : F.aon = true) (_ : F.ev = true) (_ : F.hi = true) (_ : F.dma = true) (_ : F.fns = true) (_ : F.tenants = true) (_ : F.combs = true) (_ : F.out = true) (hK : Keeps F s0 s) : Keeps F s0 (keeperRead s c a n e).2 := by
  unfold keeperRead
  try dsimp only
  repeat' (with_reducible first | assumption | apply Keeps.ite | apply Keeps.ite2 | apply Keeps.ite1 | apply Keeps.ite22 | apply Keeps.ite21 | apply askXlate_keeps | apply keeperIssue_keeps | apply keeperEnd_keeps | (apply Keeps.each; intro _ _ _) | split | intro _)

theorem bodyWrite_keeps (s : State) (c a : Nat) (b : Bytes) (_ : F.hi = true) (_ : F.dma = true) (_ : F.tenants = true) (_ : F.out = true) (hK : Keeps F s0 s) : Keeps F s0 (bodyWrite s c a b).2 := by
  unfold bodyWrite
  refine Keeps.foldl2 _ _ _ (fun w p h => ?_) hK
  split
  · apply recordWrite_keeps <;> assumption
  · exact h


/-! ## KeyOps -/

theorem bumpGen_keeps (s : State) (pos : Nat) (_ : F.slots = true) (hK : Keeps F s0 s) : Keeps F s0 (bumpGen s pos) := by
  unfold bumpGen
  try dsimp only
  repeat' (with_reducible first | assumption | apply Keeps.ite | apply Keeps.ite2 | apply Keeps.ite1 | apply Keeps.ite22 | apply Keeps.ite21 | apply modSlot_keeps | split | intro _)

theorem deriveSession_keeps (s : State) (c : Nat) (_ : F.slots = true) (hK : Keeps F s0 s) : Keeps F s0 (deriveSession s c) := by
  unfold deriveSession
  try dsimp only
  repeat' (with_reducible first | assumption | apply Keeps.ite | apply Keeps.ite2 | apply Keeps.ite1 | apply Keeps.ite22 | apply Keeps.ite21 | apply modSlot_keeps | split | intro _)

theorem deriveNodes_keeps (s : State) (c : Nat) (_ : F.slots = true) (hK : Keeps F s0 s) : Keeps F s0 (deriveNodes s c) := by
  unfold deriveNodes
  try dsimp only
  repeat' (with_reducible first | assumption | apply Keeps.ite | apply Keeps.ite2 | apply Keeps.ite1 | apply Keeps.ite22 | apply Keeps.ite21 | apply modSlot_keeps | apply deriveSession_keeps | split | intro _)

theorem deriveRoot_keeps (s : State) (secret : Bytes) (test : Bool) (_ : F.ks = true) (hK : Keeps F s0 s) : Keeps F s0 (deriveRoot s secret test) := by
  unfold deriveRoot
  try dsimp only
  repeat' (with_reducible first | assumption | apply Keeps.ite | apply Keeps.ite2 | apply Keeps.ite1 | apply Keeps.ite22 | apply Keeps.ite21 | (fail_if_no_progress refine Keeps.set_ks ‹_› ?_) | split)

theorem takeRef_keeps (s : State) (pos : Nat) (_ : F.slots = true) (hK : Keeps F s0 s) : Keeps F s0 (takeRef s pos) := by
  unfold takeRef
  try dsimp only
  repeat' (with_reducible first | assumption | apply Keeps.ite | apply Keeps.ite2 | apply Keeps.ite1 | apply Keeps.ite22 | apply Keeps.ite21 | apply modSlot_keeps | split | intro _)

theorem dropRef_keeps (s : State) (pos : Nat) (_ : F.slots = true) (hK : Keeps F s0 s) : Keeps F s0 (dropRef s pos) := by
  unfold dropRef
  try dsimp only
  repeat' (with_reducible first | assumption | apply Keeps.ite | apply Keeps.ite2 | apply Keeps.ite1 | apply Keeps.ite22 | apply Keeps.ite21 | apply modSlot_keeps | split | intro _)

theorem reserveRun_keeps (s : State) (c : Nat) (l : List Nat) (kt : Nat) (pol : Nat) (parent : Nat) (prov : Bool) (origin : Nat) (exposed : Bool) (_ : F.slots = true) (hK : Keeps F s0 s) : Keeps F s0 (reserveRun s c l kt pol parent prov origin exposed) := by
  unfold reserveRun
  try dsimp only
  repeat' (with_reducible first | assumption | apply Keeps.ite | apply Keeps.ite2 | apply Keeps.ite1 | apply Keeps.ite22 | apply Keeps.ite21 | apply modSlot_keeps | (apply Keeps.each; intro _ _ _) | split | intro _)

theorem freeRun_keeps (s : State) (l : List Nat) (_ : F.slots = true) (hK : Keeps F s0 s) : Keeps F s0 (freeRun s l) := by
  unfold freeRun
  try dsimp only
  repeat' (with_reducible first | assumption | apply Keeps.ite | apply Keeps.ite2 | apply Keeps.ite1 | apply Keeps.ite22 | apply Keeps.ite21 | apply modSlot_keeps | (apply Keeps.each; intro _ _ _) | split | intro _)

theorem clearRun_keeps (s : State) (l : List Nat) (_ : F.slots = true) (hK : Keeps F s0 s) : Keeps F s0 (clearRun s l) := by
  unfold clearRun
  try dsimp only
  repeat' (with_reducible first | assumption | apply Keeps.ite | apply Keeps.ite2 | apply Keeps.ite1 | apply Keeps.ite22 | apply Keeps.ite21 | apply modSlot_keeps | (apply Keeps.each; intro _ _ _) | split | intro _)

theorem commitRun_keeps (s : State) (l : List Nat) (mat : Bytes) (_ : F.slots = true) (hK : Keeps F s0 s) : Keeps F s0 (commitRun s l mat).2 := by
  unfold commitRun
  try dsimp only
  repeat' (with_reducible first | assumption | apply Keeps.ite | apply Keeps.ite2 | apply Keeps.ite1 | apply Keeps.ite22 | apply Keeps.ite21 | apply modSlot_keeps | apply freeRun_keeps | (apply Keeps.each; intro _ _ _) | split | intro _)

theorem moveSession_keeps (s : State) (c : Nat) (_ : F.slots = true) (hK : Keeps F s0 s) : Keeps F s0 (moveSession s c) := by
  unfold moveSession
  try dsimp only
  repeat' (with_reducible first | assumption | apply Keeps.ite | apply Keeps.ite2 | apply Keeps.ite1 | apply Keeps.ite22 | apply Keeps.ite21 | apply bumpGen_keeps | apply deriveSession_keeps | split)

theorem invalidate_keeps (s : State) (c : Nat) (i : Nat) (_ : F.slots = true) (hK : Keeps F s0 s) : Keeps F s0 (invalidate s c i) := by
  unfold invalidate
  try dsimp only
  repeat' (with_reducible first | assumption | apply Keeps.ite | apply Keeps.ite2 | apply Keeps.ite1 | apply Keeps.ite22 | apply Keeps.ite21 | apply modSlot_keeps | apply bumpGen_keeps | apply moveSession_keeps | split | intro _)

theorem abandonNonces_keeps (s : State) (comb : Nat) (n : Nat) (_ : F.combs = true) (hK : Keeps F s0 s) : Keeps F s0 (abandonNonces s comb n) := by
  unfold abandonNonces
  try dsimp only
  repeat' (with_reducible first | assumption | apply Keeps.ite | apply Keeps.ite2 | apply Keeps.ite1 | apply Keeps.ite22 | apply Keeps.ite21 | apply modComb_keeps | split | intro _)

theorem retire_keeps (s : State) (comb : Nat) (p : NonceBlock → Bool) (_ : F.combs = true) (hK : Keeps F s0 s) : Keeps F s0 (retire s comb p) := by
  unfold retire
  try dsimp only
  repeat' (with_reducible first | assumption | apply Keeps.ite | apply Keeps.ite2 | apply Keeps.ite1 | apply Keeps.ite22 | apply Keeps.ite21 | apply modComb_keeps | apply abandonNonces_keeps | split | intro _)

theorem retireSlot_keeps (s : State) (pos : Nat) (_ : F.combs = true) (hK : Keeps F s0 s) : Keeps F s0 (retireSlot s pos) := by
  unfold retireSlot
  try dsimp only
  repeat' (with_reducible first | assumption | apply Keeps.ite | apply Keeps.ite2 | apply Keeps.ite1 | apply Keeps.ite22 | apply Keeps.ite21 | apply retire_keeps | (apply Keeps.each; intro _ _ _) | split | intro _)

theorem retireAll_keeps (s : State) (_ : F.combs = true) (hK : Keeps F s0 s) : Keeps F s0 (retireAll s) := by
  unfold retireAll
  try dsimp only
  repeat' (with_reducible first | assumption | apply Keeps.ite | apply Keeps.ite2 | apply Keeps.ite1 | apply Keeps.ite22 | apply Keeps.ite21 | apply retire_keeps | (apply Keeps.each; intro _ _ _) | split | intro _)

theorem putBlock_keeps (s : State) (comb : Nat) (e : NonceBlock) (_ : F.combs = true) (hK : Keeps F s0 s) : Keeps F s0 (putBlock s comb e) := by
  unfold putBlock
  try dsimp only
  repeat' (with_reducible first | assumption | apply Keeps.ite | apply Keeps.ite2 | apply Keeps.ite1 | apply Keeps.ite22 | apply Keeps.ite21 | apply modComb_keeps | split | intro _)

theorem takeNonce_keeps (s : State) (comb : Nat) (pos : Nat) (_ : F.slots = true) (_ : F.combs = true) (hK : Keeps F s0 s) : Keeps F s0 (takeNonce s comb pos).2 := by
  unfold takeNonce
  try dsimp only
  repeat' (with_reducible first | assumption | apply Keeps.ite | apply Keeps.ite2 | apply Keeps.ite1 | apply Keeps.ite22 | apply Keeps.ite21 | apply modSlot_keeps | apply retire_keeps | apply putBlock_keeps | split | intro _)

theorem drbgInit_keeps (s : State) (comb : Nat) (_ : F.combs = true) (_ : F.trngN = true) (hK : Keeps F s0 s) : Keeps F s0 (drbgInit s comb) := by
  unfold drbgInit
  try dsimp only
  repeat' (with_reducible first | assumption | apply Keeps.ite | apply Keeps.ite2 | apply Keeps.ite1 | apply Keeps.ite22 | apply Keeps.ite21 | apply modComb_keeps | apply trng_keeps | split | intro _)

theorem drbgReseed_keeps (s : State) (comb : Nat) (_ : F.combs = true) (_ : F.trngN = true) (hK : Keeps F s0 s) : Keeps F s0 (drbgReseed s comb) := by
  unfold drbgReseed
  try dsimp only
  repeat' (with_reducible first | assumption | apply Keeps.ite | apply Keeps.ite2 | apply Keeps.ite1 | apply Keeps.ite22 | apply Keeps.ite21 | apply modComb_keeps | apply trng_keeps | split | intro _)

theorem drbgReady_keeps {s t : State} {comb : Nat} {pr : Bool} (e : drbgReady s comb pr = some t) (_ : F.combs = true) (_ : F.trngN = true) (hK : Keeps F s0 s) : Keeps F s0 t := by
  unfold drbgReady at e
  dsimp only at e
  have h1 := drbgInit_keeps s comb ‹_› ‹_› hK
  have h2 := drbgReseed_keeps s comb ‹_› ‹_› hK
  repeat' (split at e)
  all_goals first | (cases e; done) | (obtain rfl := Option.some.inj e; assumption)


theorem drbgGenerate_keeps (s : State) (comb : Nat) (n : Nat) (_ : F.combs = true) (hK : Keeps F s0 s) : Keeps F s0 (drbgGenerate s comb n).2 := by
  unfold drbgGenerate
  try dsimp only
  repeat' (with_reducible first | assumption | apply Keeps.ite | apply Keeps.ite2 | apply Keeps.ite1 | apply Keeps.ite22 | apply Keeps.ite21 | apply modComb_keeps | split | intro _)

theorem drbgGenerates_keeps (s : State) (comb : Nat) (l : List Nat) (_ : F.combs = true) (hK : Keeps F s0 s) : Keeps F s0 (drbgGenerates s comb l).2 := by
  induction l generalizing s with
  | nil => exact hK
  | cons n l ih => exact ih _ (by apply drbgGenerate_keeps <;> assumption)


theorem drawFree_keeps (s : State) (comb : Nat) (n : Nat) (_ : F.combs = true) (_ : F.freeN = true) (hK : Keeps F s0 s) : Keeps F s0 (drawFree s comb n).2 := by
  unfold drawFree
  try dsimp only
  repeat' (with_reducible first | assumption | apply Keeps.ite | apply Keeps.ite2 | apply Keeps.ite1 | apply Keeps.ite22 | apply Keeps.ite21 | apply modComb_keeps | (fail_if_no_progress refine Keeps.set_freeN ‹_› ?_) | split | intro _)

/-! ## JobOps -/

theorem cacheDrop_keeps (s : State) (e : CacheEntry) (_ : F.combs = true) (hK : Keeps F s0 s) : Keeps F s0 (cacheDrop s e) := by
  unfold cacheDrop
  try dsimp only
  repeat' (with_reducible first | assumption | apply Keeps.ite | apply Keeps.ite2 | apply Keeps.ite1 | apply Keeps.ite22 | apply Keeps.ite21 | apply modComb_keeps | (apply Keeps.each; intro _ _ _) | split | intro _)

theorem toReserve_keeps (s : State) (j : Nat) (_ : F.sch = true) (_ : F.jobs = true) (hK : Keeps F s0 s) : Keeps F s0 (toReserve s j) := by
  unfold toReserve
  try dsimp only
  repeat' (with_reducible first | assumption | apply Keeps.ite | apply Keeps.ite2 | apply Keeps.ite1 | apply Keeps.ite22 | apply Keeps.ite21 | apply modJob_keeps | (fail_if_no_progress refine Keeps.set_sch ‹_› ?_) | split | intro _)

theorem cacheRoom_keeps {s t : State} {comb : Nat} (e : cacheRoom s comb = some t) (_ : F.sch = true) (_ : F.combs = true) (_ : F.jobs = true) (hK : Keeps F s0 s) : Keeps F s0 t := by
  unfold cacheRoom at e
  dsimp only at e
  repeat' (split at e)
  all_goals first | (cases e; done) | obtain rfl := Option.some.inj e
  all_goals repeat' (with_reducible first | assumption | apply modComb_keeps | apply toReserve_keeps)


theorem cachePut_keeps (s : State) (comb : Nat) (e : CacheEntry) (_ : F.sch = true) (_ : F.combs = true) (_ : F.jobs = true) (hK : Keeps F s0 s) : Keeps F s0 (cachePut s comb e) := by
  unfold cachePut
  try dsimp only
  repeat' (with_reducible first | assumption | apply Keeps.ite | apply Keeps.ite2 | apply Keeps.ite1 | apply Keeps.ite22 | apply Keeps.ite21 | apply modComb_keeps | apply cacheDrop_keeps | (apply cacheRoom_keeps ‹_›) | split | intro _)

theorem placeSaved_keeps (s : State) (id : Nat) (comb : Nat) (_ : F.sch = true) (_ : F.combs = true) (_ : F.jobs = true) (hK : Keeps F s0 s) : Keeps F s0 (placeSaved s id comb) := by
  unfold placeSaved
  try dsimp only
  repeat' (with_reducible first | assumption | apply Keeps.ite | apply Keeps.ite2 | apply Keeps.ite1 | apply Keeps.ite22 | apply Keeps.ite21 | apply toReserve_keeps | (apply cacheRoom_keeps ‹_›) | apply cachePut_keeps | split)

theorem chargeCycles_keeps (s : State) (id : Nat) (n : Nat) (_ : F.sch = true) (hK : Keeps F s0 s) : Keeps F s0 (chargeCycles s id n) := by
  unfold chargeCycles
  try dsimp only
  repeat' (with_reducible first | assumption | apply Keeps.ite | apply Keeps.ite2 | apply Keeps.ite1 | apply Keeps.ite22 | apply Keeps.ite21 | (fail_if_no_progress refine Keeps.set_sch ‹_› ?_) | split)

theorem chargeBusy_keeps (s : State) (id : Nat) (n : Nat) (_ : F.sch = true) (_ : F.jobs = true) (hK : Keeps F s0 s) : Keeps F s0 (chargeBusy s id n) := by
  unfold chargeBusy
  try dsimp only
  repeat' (with_reducible first | assumption | apply Keeps.ite | apply Keeps.ite2 | apply Keeps.ite1 | apply Keeps.ite22 | apply Keeps.ite21 | apply modJob_keeps | apply chargeCycles_keeps | split | intro _)

theorem closeCtx_keeps (s : State) (c : Nat) (x : Nat) (_ : F.ctxs = true) (_ : F.combs = true) (hK : Keeps F s0 s) : Keeps F s0 (closeCtx s c x) := by
  unfold closeCtx
  try dsimp only
  repeat' (with_reducible first | assumption | apply Keeps.ite | apply Keeps.ite2 | apply Keeps.ite1 | apply Keeps.ite22 | apply Keeps.ite21 | apply cacheDrop_keeps | (fail_if_no_progress refine Keeps.set_ctxs ‹_› ?_ (by first | exact fun h => h | exact tblWf_set _ _ _ _ | exact tblWf_erase _ _ _ | exact tblWf_map _ _ _ | exact tblWf_drop _ _ _ | with_unfolding_all exact tblWf_drop _ _ _ | exact (tblWf_put _ _ _ _ · (by simp)))) | split)

theorem endCtx_keeps (s : State) (id : Nat) (abandoned : Bool) (_ : F.ctxs = true) (_ : F.combs = true) (_ : F.jobs = true) (_ : F.freeN = true) (hK : Keeps F s0 s) : Keeps F s0 (endCtx s id abandoned) := by
  unfold endCtx
  try dsimp only
  repeat' (with_reducible first | assumption | apply Keeps.ite | apply Keeps.ite2 | apply Keeps.ite1 | apply Keeps.ite22 | apply Keeps.ite21 | apply modCtx_keeps | apply modJob_keeps | apply closeCtx_keeps | (fail_if_no_progress refine Keeps.set_freeN ‹_› ?_) | split | intro _)

theorem ppFree_keeps (s : State) (id : Nat) (_ : F.ks = true) (hK : Keeps F s0 s) : Keeps F s0 (ppFree s id) := by
  unfold ppFree
  try dsimp only
  repeat' (with_reducible first | assumption | apply Keeps.ite | apply Keeps.ite2 | apply Keeps.ite1 | apply Keeps.ite22 | apply Keeps.ite21 | (fail_if_no_progress refine Keeps.set_ks ‹_› ?_) | split | intro _)

theorem releaseJob_keeps (s : State) (id : Nat) (abandoned : Bool) (_ : F.ks = true) (_ : F.ctxs = true) (_ : F.slots = true) (_ : F.combs = true) (_ : F.jobs = true) (_ : F.freeN = true) (hK : Keeps F s0 s) : Keeps F s0 (releaseJob s id abandoned) := by
  unfold releaseJob
  try dsimp only
  repeat' (with_reducible first | assumption | apply Keeps.ite | apply Keeps.ite2 | apply Keeps.ite1 | apply Keeps.ite22 | apply Keeps.ite21 | apply modJob_keeps | apply dropRef_keeps | apply freeRun_keeps | apply cacheDrop_keeps | apply endCtx_keeps | apply ppFree_keeps | (apply Keeps.each; intro _ _ _) | split | intro _)

theorem orphanJobReads_keeps (s : State) (id : Nat) (_ : F.dma = true) (_ : F.jobs = true) (hK : Keeps F s0 s) : Keeps F s0 (orphanJobReads s id) := by
  unfold orphanJobReads
  try dsimp only
  repeat' (with_reducible first | assumption | apply Keeps.ite | apply Keeps.ite2 | apply Keeps.ite1 | apply Keeps.ite22 | apply Keeps.ite21 | apply modJob_keeps | apply orphanReads_keeps | split | intro _)

theorem abandonJob_keeps (s : State) (id : Nat) (_ : F.dma = true) (_ : F.ks = true) (_ : F.ctxs = true) (_ : F.slots = true) (_ : F.combs = true) (_ : F.jobs = true) (_ : F.freeN = true) (hK : Keeps F s0 s) : Keeps F s0 (abandonJob s id) := by
  unfold abandonJob
  try dsimp only
  repeat' (with_reducible first | assumption | apply Keeps.ite | apply Keeps.ite2 | apply Keeps.ite1 | apply Keeps.ite22 | apply Keeps.ite21 | apply dropJob_keeps | apply releaseJob_keeps | apply orphanJobReads_keeps | split)

theorem decide7_keeps (s : State) (id : Nat) (st : Status) (detail : BitVec 8) (_ : F.dma = true) (_ : F.ks = true) (_ : F.jobs = true) (hK : Keeps F s0 s) : Keeps F s0 (decide7 s id st detail) := by
  unfold decide7
  try dsimp only
  repeat' (with_reducible first | assumption | apply Keeps.ite | apply Keeps.ite2 | apply Keeps.ite1 | apply Keeps.ite22 | apply Keeps.ite21 | apply modJob_keeps | apply ppFree_keeps | apply orphanJobReads_keeps | split | intro _)

theorem leaveCell_keeps (s : State) (id : Nat) (_ : F.jobs = true) (hK : Keeps F s0 s) : Keeps F s0 (leaveCell s id) := by
  unfold leaveCell
  try dsimp only
  repeat' (with_reducible first | assumption | apply Keeps.ite | apply Keeps.ite2 | apply Keeps.ite1 | apply Keeps.ite22 | apply Keeps.ite21 | apply modJob_keeps | split | intro _)

theorem fail6_keeps (s : State) (id : Nat) (st : Status) (detail : BitVec 8) (_ : F.dma = true) (_ : F.ks = true) (_ : F.jobs = true) (hK : Keeps F s0 s) : Keeps F s0 (fail6 s id st detail) := by
  unfold fail6
  try dsimp only
  repeat' (with_reducible first | assumption | apply Keeps.ite | apply Keeps.ite2 | apply Keeps.ite1 | apply Keeps.ite22 | apply Keeps.ite21 | apply modJob_keeps | apply decide7_keeps | apply leaveCell_keeps | split | intro _)

theorem fail5_keeps (s : State) (id : Nat) (st : Status) (detail : BitVec 8) (_ : F.dma = true) (_ : F.ks = true) (_ : F.jobs = true) (hK : Keeps F s0 s) : Keeps F s0 (fail5 s id st detail) := by
  unfold fail5
  try dsimp only
  repeat' (with_reducible first | assumption | apply Keeps.ite | apply Keeps.ite2 | apply Keeps.ite1 | apply Keeps.ite22 | apply Keeps.ite21 | apply modJob_keeps | apply fail6_keeps | split | intro _)

theorem forceEnd_keeps (s : State) (id : Nat) (st : Status) (detail : BitVec 8) (_ : F.dma = true) (_ : F.ks = true) (_ : F.ctxs = true) (_ : F.slots = true) (_ : F.combs = true) (_ : F.jobs = true) (_ : F.freeN = true) (hK : Keeps F s0 s) : Keeps F s0 (forceEnd s id st detail) := by
  unfold forceEnd
  try dsimp only
  repeat' (with_reducible first | assumption | apply Keeps.ite | apply Keeps.ite2 | apply Keeps.ite1 | apply Keeps.ite22 | apply Keeps.ite21 | apply modJob_keeps | apply releaseJob_keeps | apply decide7_keeps | split | intro _)

theorem dataPieces_keeps (s : State) (c : Nat) (ns : Bool) (l : List (Nat × Nat)) (b : Bytes) (n : Nat) (_ : F.hi = true) (_ : F.dma = true) (_ : F.out = true) (hK : Keeps F s0 s) : Keeps F s0 (dataPieces s c ns l b n).2.2 := by
  induction l generalizing s b n with
  | nil => exact hK
  | cons e l ih =>
    obtain ⟨a, m⟩ := e
    rw [dataPieces]
    try dsimp only
    repeat' (with_reducible first | assumption | apply Keeps.ite | apply ih | apply askXlate_keeps | apply linkActive_keeps | apply emit_keeps | split)


theorem writeSeg_keeps (s : State) (c : Nat) (g : Seg) (first : Bool) (b : Bytes) (_ : F.hi = true) (_ : F.dma = true) (_ : F.out = true) (hK : Keeps F s0 s) : Keeps F s0 (writeSeg s c g first b).2.2 := by
  unfold writeSeg
  try dsimp only
  repeat' (with_reducible first | assumption | apply Keeps.ite | apply Keeps.ite2 | apply Keeps.ite1 | apply Keeps.ite22 | apply Keeps.ite21 | apply dataPieces_keeps | split)

theorem writeOut_keeps (s : State) (c d : Nat) (l : List Seg) (b : Bytes) (n : Nat) (_ : F.hi = true) (_ : F.dma = true) (_ : F.out = true) (hK : Keeps F s0 s) : Keeps F s0 (writeOut s c d l b n).2.2 := by
  induction l generalizing s d b n with
  | nil => exact hK
  | cons g l ih =>
    rw [writeOut]
    have hw : ∀ g f b, Keeps F s0 (writeSeg s c g f b).2.2 := fun g f b => by apply writeSeg_keeps <;> assumption
    split
    · exact hK
    split
    · exact ih _ _ _ _ hK
    try dsimp only
    split
    · exact ih _ _ _ _ (hw _ _ _)
    · exact hw _ _ _


theorem jobRead_keeps (s : State) (id : Nat) (a : Nat) (n : Nat) (mk : Nat → Purpose) (noSnoop : Bool) (code : BitVec 8) (_ : F.hi = true) (_ : F.dma = true) (_ : F.jobs = true) (_ : F.out = true) (hK : Keeps F s0 s) : Keeps F s0 (jobRead s id a n mk noSnoop code).2 := by
  unfold jobRead
  try dsimp only
  repeat' (with_reducible first | assumption | apply Keeps.ite | apply Keeps.ite2 | apply Keeps.ite1 | apply Keeps.ite22 | apply Keeps.ite21 | apply modJob_keeps | apply issueRead_keeps | (apply Keeps.each; intro _ _ _) | split | intro _)

/-! ## QueueOps -/

theorem orphanQueueReads_keeps (s : State) (c : Nat) (q : Nat) (_ : F.dma = true) (hK : Keeps F s0 s) : Keeps F s0 (orphanQueueReads s c q) := by
  unfold orphanQueueReads
  try dsimp only
  repeat' (with_reducible first | assumption | apply Keeps.ite | apply Keeps.ite2 | apply Keeps.ite1 | apply Keeps.ite22 | apply Keeps.ite21 | apply orphanReads_keeps | split | intro _)

theorem dropCopies_keeps (s : State) (c : Nat) (q : Nat) (_ : F.dma = true) (_ : F.queues = true) (hK : Keeps F s0 s) : Keeps F s0 (dropCopies s c q) := by
  unfold dropCopies
  try dsimp only
  repeat' (with_reducible first | assumption | apply Keeps.ite | apply Keeps.ite2 | apply Keeps.ite1 | apply Keeps.ite22 | apply Keeps.ite21 | apply modQueue_keeps | apply orphanQueueReads_keeps | split | intro _)

theorem dropReady_keeps (s : State) (c : Nat) (q : Nat) (_ : F.queues = true) (_ : F.jobs = true) (hK : Keeps F s0 s) : Keeps F s0 (dropReady s c q) := by
  unfold dropReady
  try dsimp only
  repeat' (with_reducible first | assumption | apply Keeps.ite | apply Keeps.ite2 | apply Keeps.ite1 | apply Keeps.ite22 | apply Keeps.ite21 | apply modQueue_keeps | apply dropJob_keeps | (apply Keeps.each; intro _ _ _) | split | intro _)

theorem stopQueue_keeps (s : State) (c : Nat) (q : Nat) (code : BitVec 8) (erridx : W32) (_ : F.dma = true) (_ : F.queues = true) (hK : Keeps F s0 s) : Keeps F s0 (stopQueue s c q code erridx) := by
  unfold stopQueue
  try dsimp only
  repeat' (with_reducible first | assumption | apply Keeps.ite | apply Keeps.ite2 | apply Keeps.ite1 | apply Keeps.ite22 | apply Keeps.ite21 | apply modQueue_keeps | apply dropCopies_keeps | split | intro _)

theorem mailFor_keeps (s : State) (c : Nat) (m : Mail) (_ : F.tenants = true) (hK : Keeps F s0 s) : Keeps F s0 (mailFor s c m) := by
  unfold mailFor
  try dsimp only
  repeat' (with_reducible first | assumption | apply Keeps.ite | apply Keeps.ite2 | apply Keeps.ite1 | apply Keeps.ite22 | apply Keeps.ite21 | apply modTenant_keeps | split | intro _)

theorem tenantChanged_keeps (s : State) (c : Nat) (_ : F.peer = true) (_ : F.tenants = true) (hK : Keeps F s0 s) : Keeps F s0 (tenantChanged s c) := by
  unfold tenantChanged
  try dsimp only
  repeat' (with_reducible first | assumption | apply Keeps.ite | apply Keeps.ite2 | apply Keeps.ite1 | apply Keeps.ite22 | apply Keeps.ite21 | apply noticeFor_keeps | apply mailFor_keeps | split)

theorem stepTenant_keeps (s : State) (c : Nat) (st : Nat) (_ : F.peer = true) (_ : F.tenants = true) (hK : Keeps F s0 s) : Keeps F s0 (stepTenant s c st) := by
  unfold stepTenant
  try dsimp only
  repeat' (with_reducible first | assumption | apply Keeps.ite | apply Keeps.ite2 | apply Keeps.ite1 | apply Keeps.ite22 | apply Keeps.ite21 | apply modTenant_keeps | apply tenantChanged_keeps | split | intro _)

theorem resized_keeps (s : State) (c : Nat) (_ : F.peer = true) (_ : F.tenants = true) (hK : Keeps F s0 s) : Keeps F s0 (resized s c) := by
  unfold resized
  try dsimp only
  repeat' (with_reducible first | assumption | apply Keeps.ite | apply Keeps.ite2 | apply Keeps.ite1 | apply Keeps.ite22 | apply Keeps.ite21 | apply stepTenant_keeps | split)

theorem releaseQueue_keeps (s : State) (c : Nat) (q : Nat) (mirror : Bool) (_ : F.dma = true) (_ : F.peer = true) (_ : F.tenants = true) (_ : F.queues = true) (_ : F.jobs = true) (hK : Keeps F s0 s) : Keeps F s0 (releaseQueue s c q mirror) := by
  unfold releaseQueue
  try dsimp only
  repeat' (with_reducible first | assumption | apply Keeps.ite | apply Keeps.ite2 | apply Keeps.ite1 | apply Keeps.ite22 | apply Keeps.ite21 | apply setQueue_keeps | apply modTenant_keeps | apply dropCopies_keeps | apply dropReady_keeps | apply resized_keeps | split | intro _)

theorem hiveReset_keeps (s : State) (c : Nat) (q : Nat) (_ : F.dma = true) (_ : F.queues = true) (_ : F.jobs = true) (hK : Keeps F s0 s) : Keeps F s0 (hiveReset s c q) := by
  unfold hiveReset
  try dsimp only
  repeat' (with_reducible first | assumption | apply Keeps.ite | apply Keeps.ite2 | apply Keeps.ite1 | apply Keeps.ite22 | apply Keeps.ite21 | apply modQueue_keeps | apply dropCopies_keeps | apply dropReady_keeps | split | intro _)

theorem dropMirror_keeps (s : State) (c : Nat) (q : Nat) (_ : F.dma = true) (_ : F.queues = true) (hK : Keeps F s0 s) : Keeps F s0 (dropMirror s c q) := by
  unfold dropMirror
  try dsimp only
  repeat' (with_reducible first | assumption | apply Keeps.ite | apply Keeps.ite2 | apply Keeps.ite1 | apply Keeps.ite22 | apply Keeps.ite21 | apply modQueue_keeps | apply orphanReads_keeps | split | intro _)

theorem freezeQueue_keeps (s : State) (c : Nat) (q : Nat) (_ : F.dma = true) (_ : F.queues = true) (_ : F.jobs = true) (hK : Keeps F s0 s) : Keeps F s0 (freezeQueue s c q) := by
  unfold freezeQueue
  try dsimp only
  repeat' (with_reducible first | assumption | apply Keeps.ite | apply Keeps.ite2 | apply Keeps.ite1 | apply Keeps.ite22 | apply Keeps.ite21 | apply modQueue_keeps | apply dropReady_keeps | apply dropMirror_keeps | split | intro _)

theorem bmeQueue_keeps (s : State) (c : Nat) (q : Nat) (_ : F.dma = true) (_ : F.peer = true) (_ : F.ks = true) (_ : F.fns = true) (_ : F.tenants = true) (_ : F.queues = true) (_ : F.ctxs = true) (_ : F.slots = true) (_ : F.combs = true) (_ : F.jobs = true) (_ : F.freeN = true) (hK : Keeps F s0 s) : Keeps F s0 (bmeQueue s c q) := by
  unfold bmeQueue
  try dsimp only
  repeat' (with_reducible first | assumption | apply Keeps.ite | apply Keeps.ite2 | apply Keeps.ite1 | apply Keeps.ite22 | apply Keeps.ite21 | apply setQueue_keeps | apply modQueue_keeps | apply signalVec_keeps | apply abandonJob_keeps | apply dropCopies_keeps | apply dropReady_keeps | apply releaseQueue_keeps | (apply Keeps.each; intro _ _ _) | split | intro _)

theorem flrQueue_keeps (s : State) (c : Nat) (q : Nat) (_ : F.dma = true) (_ : F.peer = true) (_ : F.ks = true) (_ : F.tenants = true) (_ : F.queues = true) (_ : F.ctxs = true) (_ : F.slots = true) (_ : F.combs = true) (_ : F.jobs = true) (_ : F.freeN = true) (hK : Keeps F s0 s) : Keeps F s0 (flrQueue s c q) := by
  unfold flrQueue
  try dsimp only
  repeat' (with_reducible first | assumption | apply Keeps.ite | apply Keeps.ite2 | apply Keeps.ite1 | apply Keeps.ite22 | apply Keeps.ite21 | apply setQueue_keeps | apply abandonJob_keeps | apply dropCopies_keeps | apply dropReady_keeps | apply releaseQueue_keeps | (apply Keeps.each; intro _ _ _) | split | intro _)

theorem writeCr_keeps (s : State) (c : Nat) (r : Nat) (q : Nat) (replay : Bool) (_ : F.hi = true) (_ : F.dma = true) (_ : F.fns = true) (_ : F.tenants = true) (_ : F.queues = true) (_ : F.rings = true) (_ : F.out = true) (hK : Keeps F s0 s) : Keeps F s0 (writeCr s c r q replay).2 := by
  unfold writeCr
  try dsimp only
  repeat' (with_reducible first | assumption | apply Keeps.ite | apply Keeps.ite2 | apply Keeps.ite1 | apply Keeps.ite22 | apply Keeps.ite21 | apply setQueue_keeps | apply modQueue_keeps | apply modRing_keeps | apply signalVec_keeps | apply recordWrite_keeps | (apply Keeps.ofEq2 ‹_›) | split | intro _)

theorem replayRing_keeps (s : State) (c r n : Nat) (_ : F.hi = true) (_ : F.dma = true) (_ : F.fns = true) (_ : F.tenants = true) (_ : F.queues = true) (_ : F.rings = true) (_ : F.out = true) (hK : Keeps F s0 s) : Keeps F s0 (replayRing s c r n) := by
  induction n generalizing s with
  | zero => exact hK
  | succ n ih =>
    rw [replayRing]
    have hw : ∀ q b, Keeps F s0 (writeCr s c r q b).2 := fun q b => by apply writeCr_keeps <;> assumption
    try dsimp only
    repeat' (with_reducible first | assumption | apply hw | apply ih | apply modRing_keeps | split)


/-! ## Gathering -/

theorem readSegs_keeps (id : Nat) (l : List Seg) (o : Nat) (s : State) (_ : F.hi = true) (_ : F.dma = true) (_ : F.jobs = true) (_ : F.out = true) (hK : Keeps F s0 s) : Keeps F s0 (readSegs id l o s).2 := by
  induction l generalizing s o with
  | nil => exact hK
  | cons g l ih =>
    rw [readSegs]
    have hw : ∀ a n mk ns cd, Keeps F s0 (jobRead s id a n mk ns cd).2 := fun a n mk ns cd => by
      apply jobRead_keeps <;> assumption
    split
    · rename_i e
      exact ih _ _ (Keeps.ofEq2 e (hw ..))
    · exact hw ..


theorem readSource_keeps (s : State) (id : Nat) (_ : F.hi = true) (_ : F.dma = true) (_ : F.ks = true) (_ : F.jobs = true) (_ : F.out = true) (hK : Keeps F s0 s) : Keeps F s0 (readSource s id) := by
  unfold readSource
  try dsimp only
  repeat' (with_reducible first | assumption | apply Keeps.ite | apply Keeps.ite2 | apply Keeps.ite1 | apply Keeps.ite22 | apply Keeps.ite21 | apply modJob_keeps | apply fail6_keeps | apply readSegs_keeps | (apply Keeps.ofEq2 ‹_›) | split | intro _)

theorem judgeLists_keeps (s : State) (id : Nat) (_ : F.hi = true) (_ : F.dma = true) (_ : F.ks = true) (_ : F.jobs = true) (_ : F.out = true) (hK : Keeps F s0 s) : Keeps F s0 (judgeLists s id) := by
  unfold judgeLists
  try dsimp only
  repeat' (with_reducible first | assumption | apply Keeps.ite | apply Keeps.ite2 | apply Keeps.ite1 | apply Keeps.ite22 | apply Keeps.ite21 | apply modJob_keeps | apply fail6_keeps | apply readSource_keeps | split | intro _)

theorem stepDst_keeps (s : State) (id : Nat) (i : Nat) (_ : F.hi = true) (_ : F.dma = true) (_ : F.ks = true) (_ : F.jobs = true) (_ : F.out = true) (hK : Keeps F s0 s) : Keeps F s0 (stepDst s id i) := by
  unfold stepDst
  try dsimp only
  repeat' (with_reducible first | assumption | apply Keeps.ite | apply Keeps.ite2 | apply Keeps.ite1 | apply Keeps.ite22 | apply Keeps.ite21 | apply modJob_keeps | apply fail6_keeps | apply jobRead_keeps | apply judgeLists_keeps | (apply Keeps.ofEq2 ‹_›) | split | intro _)

theorem startDst_keeps (s : State) (id : Nat) (_ : F.hi = true) (_ : F.dma = true) (_ : F.ks = true) (_ : F.jobs = true) (_ : F.out = true) (hK : Keeps F s0 s) : Keeps F s0 (startDst s id) := by
  unfold startDst
  try dsimp only
  repeat' (with_reducible first | assumption | apply Keeps.ite | apply Keeps.ite2 | apply Keeps.ite1 | apply Keeps.ite22 | apply Keeps.ite21 | apply modJob_keeps | apply judgeLists_keeps | apply stepDst_keeps | split | intro _)

theorem stepSrc_keeps (s : State) (id : Nat) (i : Nat) (_ : F.hi = true) (_ : F.dma = true) (_ : F.ks = true) (_ : F.jobs = true) (_ : F.out = true) (hK : Keeps F s0 s) : Keeps F s0 (stepSrc s id i) := by
  unfold stepSrc
  try dsimp only
  repeat' (with_reducible first | assumption | apply Keeps.ite | apply Keeps.ite2 | apply Keeps.ite1 | apply Keeps.ite22 | apply Keeps.ite21 | apply modJob_keeps | apply fail6_keeps | apply jobRead_keeps | apply startDst_keeps | (apply Keeps.ofEq2 ‹_›) | split | intro _)

theorem peerSource_keeps (s : State) (id : Nat) (_ : F.dma = true) (_ : F.peer = true) (_ : F.ks = true) (_ : F.jobs = true) (hK : Keeps F s0 s) : Keeps F s0 (peerSource s id) := by
  unfold peerSource
  try dsimp only
  repeat' (with_reducible first | assumption | apply Keeps.ite | apply Keeps.ite2 | apply Keeps.ite1 | apply Keeps.ite22 | apply Keeps.ite21 | apply modJob_keeps | apply fail6_keeps | (fail_if_no_progress refine Keeps.set_peer ‹_› ?_ (by first | exact fun h => h | exact tblWf_set _ _ _ _ | exact tblWf_erase _ _ _ | exact tblWf_map _ _ _ | exact tblWf_drop _ _ _ | with_unfolding_all exact tblWf_drop _ _ _ | exact (tblWf_put _ _ _ _ · (by simp)))) | split | intro _)

theorem startRun_keeps (s : State) (id : Nat) (_ : F.hi = true) (_ : F.dma = true) (_ : F.peer = true) (_ : F.ks = true) (_ : F.jobs = true) (_ : F.out = true) (hK : Keeps F s0 s) : Keeps F s0 (startRun s id) := by
  unfold startRun
  try dsimp only
  repeat' (with_reducible first | assumption | apply Keeps.ite | apply Keeps.ite2 | apply Keeps.ite1 | apply Keeps.ite22 | apply Keeps.ite21 | apply modJob_keeps | apply startDst_keeps | apply stepSrc_keeps | apply peerSource_keeps | split | intro _)

theorem startIfRun_keeps (s : State) (id : Nat) (_ : F.hi = true) (_ : F.dma = true) (_ : F.peer = true) (_ : F.ks = true) (_ : F.jobs = true) (_ : F.out = true) (hK : Keeps F s0 s) : Keeps F s0 (startIfRun s id) := by
  unfold startIfRun
  try dsimp only
  repeat' (with_reducible first | assumption | apply Keeps.ite | apply Keeps.ite2 | apply Keeps.ite1 | apply Keeps.ite22 | apply Keeps.ite21 | apply startRun_keeps | split)

theorem entryArrives_keeps (s : State) (id : Nat) (i : Nat) (src : Bool) (b : Bytes) (_ : F.hi = true) (_ : F.dma = true) (_ : F.ks = true) (_ : F.jobs = true) (_ : F.out = true) (hK : Keeps F s0 s) : Keeps F s0 (entryArrives s id i src b) := by
  unfold entryArrives
  try dsimp only
  repeat' (with_reducible first | assumption | apply Keeps.ite | apply Keeps.ite2 | apply Keeps.ite1 | apply Keeps.ite22 | apply Keeps.ite21 | apply modJob_keeps | apply fail6_keeps | apply stepDst_keeps | apply stepSrc_keeps | split | intro _)

theorem sourceArrives_keeps (s : State) (id : Nat) (off : Nat) (host : Bool) (b : Bytes) (_ : F.jobs = true) (hK : Keeps F s0 s) : Keeps F s0 (sourceArrives s id off host b) := by
  unfold sourceArrives
  try dsimp only
  repeat' (with_reducible first | assumption | apply Keeps.ite | apply Keeps.ite2 | apply Keeps.ite1 | apply Keeps.ite22 | apply Keeps.ite21 | apply modJob_keeps | split | intro _)

/-! ## Placing -/

theorem dropSlots_keeps (s : State) (c : Nat) (q : Nat) (i : W32) (n : Nat) (_ : F.queues = true) (hK : Keeps F s0 s) : Keeps F s0 (dropSlots s c q i n) := by
  unfold dropSlots
  try dsimp only
  repeat' (with_reducible first | assumption | apply Keeps.ite | apply Keeps.ite2 | apply Keeps.ite1 | apply Keeps.ite22 | apply Keeps.ite21 | apply modQueue_keeps | split | intro _)

theorem enterWindow_keeps (s : State) (id : Nat) (_ : F.peer = true) (_ : F.queues = true) (hK : Keeps F s0 s) : Keeps F s0 (enterWindow s id) := by
  unfold enterWindow
  try dsimp only
  repeat' (with_reducible first | assumption | apply Keeps.ite | apply Keeps.ite2 | apply Keeps.ite1 | apply Keeps.ite22 | apply Keeps.ite21 | apply modQueue_keeps | apply dropSlots_keeps | (fail_if_no_progress refine Keeps.set_peer ‹_› ?_ (by first | exact fun h => h | exact tblWf_set _ _ _ _ | exact tblWf_erase _ _ _ | exact tblWf_map _ _ _ | exact tblWf_drop _ _ _ | with_unfolding_all exact tblWf_drop _ _ _ | exact (tblWf_put _ _ _ _ · (by simp)))) | split | intro _)

theorem noteChoice_keeps (s : State) (a : Account) (ch : Choice) (comb : Option Nat) (_ : F.ks = true) (_ : F.sch = true) (_ : F.jobs = true) (hK : Keeps F s0 s) : Keeps F s0 (noteChoice s a ch comb) := by
  unfold noteChoice
  try dsimp only
  repeat' (with_reducible first | assumption | apply Keeps.ite | apply Keeps.ite2 | apply Keeps.ite1 | apply Keeps.ite22 | apply Keeps.ite21 | apply modJob_keeps | (fail_if_no_progress refine Keeps.set_sch ‹_› ?_) | (fail_if_no_progress refine Keeps.set_ks ‹_› ?_) | (fail_if_no_progress refine Keeps.set_ks_sch ‹_› ‹_› ?_) | split | intro _)

theorem dispatchNew_keeps (s : State) (ch : Choice) (comb : Option Nat) (lane : Bool) (_ : F.hi = true) (_ : F.dma = true) (_ : F.peer = true) (_ : F.ks = true) (_ : F.sch = true) (_ : F.queues = true) (_ : F.jobs = true) (_ : F.out = true) (hK : Keeps F s0 s) : Keeps F s0 (dispatchNew s ch comb lane) := by
  unfold dispatchNew
  try dsimp only
  repeat' (with_reducible first | assumption | apply Keeps.ite | apply Keeps.ite2 | apply Keeps.ite1 | apply Keeps.ite22 | apply Keeps.ite21 | apply modJob_keeps | apply chargeCycles_keeps | apply startIfRun_keeps | apply enterWindow_keeps | (fail_if_no_progress refine Keeps.set_sch ‹_› ?_) | split | intro _)

theorem dispatchSaved_keeps (s : State) (ch : Choice) (comb : Option Nat) (_ : F.combs = true) (_ : F.jobs = true) (hK : Keeps F s0 s) : Keeps F s0 (dispatchSaved s ch comb) := by
  unfold dispatchSaved
  try dsimp only
  repeat' (with_reducible first | assumption | apply Keeps.ite | apply Keeps.ite2 | apply Keeps.ite1 | apply Keeps.ite22 | apply Keeps.ite21 | apply modJob_keeps | apply cacheDrop_keeps | split | intro _)

theorem opJobDispatch_keeps (a : Account) (s : State) (_ : F.hi = true) (_ : F.dma = true) (_ : F.peer = true) (_ : F.ks = true) (_ : F.sch = true) (_ : F.queues = true) (_ : F.combs = true) (_ : F.jobs = true) (_ : F.out = true) (hK : Keeps F s0 s) : Keeps F s0 (opJobDispatch a s) := by
  unfold opJobDispatch
  try dsimp only
  repeat' (with_reducible first | assumption | apply Keeps.ite | apply Keeps.ite2 | apply Keeps.ite1 | apply Keeps.ite22 | apply Keeps.ite21 | apply noteChoice_keeps | apply dispatchNew_keeps | apply dispatchSaved_keeps | (fail_if_no_progress refine Keeps.set_sch ‹_› ?_) | split | intro _)

theorem creditClass_keeps (a : Account) (cls : Nat) (s : State) (_ : F.sch = true) (hK : Keeps F s0 s) : Keeps F s0 (creditClass a cls s) := by
  unfold creditClass
  try dsimp only
  repeat' (with_reducible first | assumption | apply Keeps.ite | apply Keeps.ite2 | apply Keeps.ite1 | apply Keeps.ite22 | apply Keeps.ite21 | (apply Keeps.each; intro _ _ _) | (fail_if_no_progress refine Keeps.set_sch ‹_› ?_) | split | intro _)

theorem epochCharge_keeps (s : State) (e : Nat × Nat) (_ : F.sch = true) (_ : F.jobs = true) (hK : Keeps F s0 s) : Keeps F s0 (epochCharge s e) := by
  unfold epochCharge
  try dsimp only
  repeat' (with_reducible first | assumption | apply Keeps.ite | apply Keeps.ite2 | apply Keeps.ite1 | apply Keeps.ite22 | apply Keeps.ite21 | apply modJob_keeps | apply chargeBusy_keeps | split | intro _)

theorem opSchedulingEpochStart_keeps (busy : List (Nat × Nat)) (s : State) (_ : F.sch = true) (_ : F.jobs = true) (hK : Keeps F s0 s) : Keeps F s0 (opSchedulingEpochStart busy s) := by
  unfold opSchedulingEpochStart
  try dsimp only
  repeat' (with_reducible first | assumption | apply Keeps.ite | apply Keeps.ite2 | apply Keeps.ite1 | apply Keeps.ite22 | apply Keeps.ite21 | apply creditClass_keeps | apply epochCharge_keeps | (apply Keeps.each; intro _ _ _) | (fail_if_no_progress refine Keeps.set_sch ‹_› ?_) | split | intro _)

theorem saveJob_keeps (s : State) (id : Nat) (comb : Nat) (_ : F.sch = true) (_ : F.combs = true) (_ : F.jobs = true) (hK : Keeps F s0 s) : Keeps F s0 (saveJob s id comb) := by
  unfold saveJob
  try dsimp only
  repeat' (with_reducible first | assumption | apply Keeps.ite | apply Keeps.ite2 | apply Keeps.ite1 | apply Keeps.ite22 | apply Keeps.ite21 | apply modJob_keeps | apply placeSaved_keeps | (fail_if_no_progress refine Keeps.set_sch ‹_› ?_) | split | intro _)

theorem takeOver_keeps (s : State) (a : Account) (ch : Choice) (comb : Nat) (_ : F.hi = true) (_ : F.dma = true) (_ : F.peer = true) (_ : F.ks = true) (_ : F.sch = true) (_ : F.queues = true) (_ : F.combs = true) (_ : F.jobs = true) (_ : F.out = true) (hK : Keeps F s0 s) : Keeps F s0 (takeOver s a ch comb) := by
  unfold takeOver
  try dsimp only
  repeat' (with_reducible first | assumption | apply Keeps.ite | apply Keeps.ite2 | apply Keeps.ite1 | apply Keeps.ite22 | apply Keeps.ite21 | apply noteChoice_keeps | apply dispatchNew_keeps | apply dispatchSaved_keeps | (fail_if_no_progress refine Keeps.set_sch ‹_› ?_) | split)

theorem opSliceBoundary_keeps (id : Nat) (busy : Nat) (s : State) (_ : F.hi = true) (_ : F.dma = true) (_ : F.peer = true) (_ : F.ks = true) (_ : F.sch = true) (_ : F.queues = true) (_ : F.combs = true) (_ : F.jobs = true) (_ : F.out = true) (hK : Keeps F s0 s) : Keeps F s0 (opSliceBoundary id busy s) := by
  unfold opSliceBoundary
  try dsimp only
  repeat' (with_reducible first | assumption | apply Keeps.ite | apply Keeps.ite2 | apply Keeps.ite1 | apply Keeps.ite22 | apply Keeps.ite21 | apply modJob_keeps | apply chargeBusy_keeps | apply saveJob_keeps | apply takeOver_keeps | (fail_if_no_progress refine Keeps.set_sch ‹_› ?_) | split | intro _)

theorem endMark_keeps (s : State) (id : Nat) (_ : F.dma = true) (_ : F.ks = true) (_ : F.jobs = true) (hK : Keeps F s0 s) : Keeps F s0 (endMark s id) := by
  unfold endMark
  try dsimp only
  repeat' (with_reducible first | assumption | apply Keeps.ite | apply Keeps.ite2 | apply Keeps.ite1 | apply Keeps.ite22 | apply Keeps.ite21 | apply modJob_keeps | apply decide7_keeps | split | intro _)

theorem opNop_keeps (id : Nat) (s : State) (_ : F.dma = true) (_ : F.ks = true) (_ : F.jobs = true) (hK : Keeps F s0 s) : Keeps F s0 (opNop id s) := by
  unfold opNop
  try dsimp only
  repeat' (with_reducible first | assumption | apply Keeps.ite | apply Keeps.ite2 | apply Keeps.ite1 | apply Keeps.ite22 | apply Keeps.ite21 | apply endMark_keeps | split)

theorem opStamp_keeps (id : Nat) (s : State) (_ : F.dma = true) (_ : F.ks = true) (_ : F.jobs = true) (hK : Keeps F s0 s) : Keeps F s0 (opStamp id s) := by
  unfold opStamp
  try dsimp only
  repeat' (with_reducible first | assumption | apply Keeps.ite | apply Keeps.ite2 | apply Keeps.ite1 | apply Keeps.ite22 | apply Keeps.ite21 | apply endMark_keeps | split)

theorem endFence_keeps (s : State) (id : Nat) (_ : F.dma = true) (_ : F.ks = true) (_ : F.jobs = true) (hK : Keeps F s0 s) : Keeps F s0 (endFence s id) := by
  unfold endFence
  try dsimp only
  repeat' (with_reducible first | assumption | apply Keeps.ite | apply Keeps.ite2 | apply Keeps.ite1 | apply Keeps.ite22 | apply Keeps.ite21 | apply modJob_keeps | apply decide7_keeps | split | intro _)

theorem opFence_keeps (id : Nat) (s : State) (_ : F.dma = true) (_ : F.ks = true) (_ : F.jobs = true) (hK : Keeps F s0 s) : Keeps F s0 (opFence id s) := by
  unfold opFence
  try dsimp only
  repeat' (with_reducible first | assumption | apply Keeps.ite | apply Keeps.ite2 | apply Keeps.ite1 | apply Keeps.ite22 | apply Keeps.ite21 | apply modJob_keeps | apply endFence_keeps | split | intro _)

theorem opFenceEnd_keeps (id : Nat) (s : State) (_ : F.dma = true) (_ : F.ks = true) (_ : F.jobs = true) (hK : Keeps F s0 s) : Keeps F s0 (opFenceEnd id s) := by
  unfold opFenceEnd
  try dsimp only
  repeat' (with_reducible first | assumption | apply Keeps.ite | apply Keeps.ite2 | apply Keeps.ite1 | apply Keeps.ite22 | apply Keeps.ite21 | apply endFence_keeps | split)

/-! ## Cells -/

theorem drainCell_keeps (s : State) (id : Nat) (_ : F.jobs = true) (hK : Keeps F s0 s) : Keeps F s0 (drainCell s id) := by
  unfold drainCell
  try dsimp only
  repeat' (with_reducible first | assumption | apply Keeps.ite | apply Keeps.ite2 | apply Keeps.ite1 | apply Keeps.ite22 | apply Keeps.ite21 | apply modJob_keeps | apply leaveCell_keeps | split | intro _)

theorem finishCell_keeps (s : State) (id : Nat) (r : CellOut) (_ : F.dma = true) (_ : F.ks = true) (_ : F.ctxs = true) (_ : F.jobs = true) (hK : Keeps F s0 s) : Keeps F s0 (finishCell s id r) := by
  unfold finishCell
  try dsimp only
  repeat' (with_reducible first | assumption | apply Keeps.ite | apply Keeps.ite2 | apply Keeps.ite1 | apply Keeps.ite22 | apply Keeps.ite21 | apply modCtx_keeps | apply modJob_keeps | apply decide7_keeps | apply drainCell_keeps | split | intro _)

theorem runCell_keeps (o : Op) (f : Job → Ctx → CellOut) (id : Nat) (s : State) (_ : F.dma = true) (_ : F.ks = true) (_ : F.ctxs = true) (_ : F.jobs = true) (hK : Keeps F s0 s) : Keeps F s0 (runCell o f id s) := by
  unfold runCell
  try dsimp only
  repeat' (with_reducible first | assumption | apply Keeps.ite | apply Keeps.ite2 | apply Keeps.ite1 | apply Keeps.ite22 | apply Keeps.ite21 | apply finishCell_keeps | split)

theorem seedFail_keeps (s : State) (id : Nat) (_ : F.dma = true) (_ : F.ks = true) (_ : F.jobs = true) (hK : Keeps F s0 s) : Keeps F s0 (seedFail s id) := by
  unfold seedFail
  try dsimp only
  repeat' (with_reducible first | assumption | apply Keeps.ite | apply Keeps.ite2 | apply Keeps.ite1 | apply Keeps.ite22 | apply Keeps.ite21 | apply fail6_keeps | split)

theorem seedWaited_keeps (s : State) (t : State) (id : Nat) (_ : F.jobs = true) (_ : F.freeN = true) (hK : Keeps F s0 s) (hK1 : Keeps F s0 t) : Keeps F s0 (seedWaited s t id) := by
  unfold seedWaited
  try dsimp only
  repeat' (with_reducible first | assumption | apply Keeps.ite | apply Keeps.ite2 | apply Keeps.ite1 | apply Keeps.ite22 | apply Keeps.ite21 | apply modJob_keeps | (fail_if_no_progress refine Keeps.set_freeN ‹_› ?_) | split | intro _)

theorem withSeed_keeps (s : State) (id : Nat) (pr : Bool) (draw : State → Nat → Bytes × State) (f : Bytes → State → State) (hdraw : ∀ y0 y1, Keeps F s0 y0 → Keeps F s0 (draw y0 y1).2) (hf : ∀ y0 y1, Keeps F s0 y1 → Keeps F s0 (f y0 y1)) (_ : F.dma = true) (_ : F.ks = true) (_ : F.combs = true) (_ : F.jobs = true) (_ : F.trngN = true) (_ : F.freeN = true) (hK : Keeps F s0 s) : Keeps F s0 (withSeed s id pr draw f) := by
  unfold withSeed
  try dsimp only
  repeat' (with_reducible first | assumption | apply Keeps.ite | apply Keeps.ite2 | apply Keeps.ite1 | apply Keeps.ite22 | apply Keeps.ite21 | apply hdraw | apply hf | (apply drbgReady_keeps ‹_›) | apply seedFail_keeps | apply seedWaited_keeps | split)

theorem withDrbg_keeps (s : State) (id : Nat) (ns : List Nat) (f : Bytes → State → State) (hf : ∀ y0 y1, Keeps F s0 y1 → Keeps F s0 (f y0 y1)) (_ : F.dma = true) (_ : F.ks = true) (_ : F.combs = true) (_ : F.jobs = true) (_ : F.trngN = true) (_ : F.freeN = true) (hK : Keeps F s0 s) : Keeps F s0 (withDrbg s id ns f) := by
  unfold withDrbg
  try dsimp only
  repeat' (with_reducible first | assumption | (intro _ _) | apply Keeps.ite | apply Keeps.ite2 | apply Keeps.ite1 | apply Keeps.ite22 | apply Keeps.ite21 | apply hf | apply drbgGenerates_keeps | apply withSeed_keeps | split | intro _)

theorem withDraw_keeps (s : State) (id : Nat) (n : Nat) (f : Bytes → State → State) (hf : ∀ y0 y1, Keeps F s0 y1 → Keeps F s0 (f y0 y1)) (_ : F.dma = true) (_ : F.ks = true) (_ : F.combs = true) (_ : F.jobs = true) (_ : F.trngN = true) (_ : F.freeN = true) (hK : Keeps F s0 s) : Keeps F s0 (withDraw s id n f) := by
  unfold withDraw
  try dsimp only
  repeat' (with_reducible first | assumption | (intro _ _) | apply Keeps.ite | apply Keeps.ite2 | apply Keeps.ite1 | apply Keeps.ite22 | apply Keeps.ite21 | apply hf | apply drawFree_keeps | apply withSeed_keeps | split | intro _)

theorem faultCheck_keeps (s : State) (id : Nat) (cycles : Nat) (_ : F.aon = true) (_ : F.ev = true) (_ : F.dma = true) (_ : F.ks = true) (_ : F.fns = true) (_ : F.tenants = true) (_ : F.ctxs = true) (_ : F.combs = true) (_ : F.jobs = true) (hK : Keeps F s0 s) : Keeps F s0 (faultCheck s id cycles) := by
  unfold faultCheck
  try dsimp only
  repeat' (with_reducible first | assumption | apply Keeps.ite | apply Keeps.ite2 | apply Keeps.ite1 | apply Keeps.ite22 | apply Keeps.ite21 | apply combCount1_keeps | apply combFault_keeps | apply finishCell_keeps | split | intro _)

theorem commitKey_keeps (s : State) (id : Nat) (mat : Bytes) (out : Bytes) (cycles : Nat) (_ : F.dma = true) (_ : F.ks = true) (_ : F.ctxs = true) (_ : F.slots = true) (_ : F.jobs = true) (_ : F.freeN = true) (hK : Keeps F s0 s) : Keeps F s0 (commitKey s id mat out cycles) := by
  unfold commitKey
  try dsimp only
  repeat' (with_reducible first | assumption | apply Keeps.ite | apply Keeps.ite2 | apply Keeps.ite1 | apply Keeps.ite22 | apply Keeps.ite21 | apply modJob_keeps | apply commitRun_keeps | apply finishCell_keeps | (fail_if_no_progress refine Keeps.set_freeN ‹_› ?_) | split | intro _)

/-! ## PublicKey -/

theorem rsaApply_keeps (s : State) (id : Nat) (m : Nat) (cyc : Nat) (fault : Bool) (f : Bytes → CellOut) (_ : F.aon = true) (_ : F.ev = true) (_ : F.dma = true) (_ : F.ks = true) (_ : F.fns = true) (_ : F.tenants = true) (_ : F.ctxs = true) (_ : F.combs = true) (_ : F.jobs = true) (hK : Keeps F s0 s) : Keeps F s0 (rsaApply s id m cyc fault f) := by
  unfold rsaApply
  try dsimp only
  repeat' (with_reducible first | assumption | apply Keeps.ite | apply Keeps.ite2 | apply Keeps.ite1 | apply Keeps.ite22 | apply Keeps.ite21 | apply finishCell_keeps | apply faultCheck_keeps | split)

theorem opRsaPriv_keeps (id : Nat) (fault : Bool) (s : State) (_ : F.aon = true) (_ : F.ev = true) (_ : F.dma = true) (_ : F.ks = true) (_ : F.fns = true) (_ : F.tenants = true) (_ : F.ctxs = true) (_ : F.combs = true) (_ : F.jobs = true) (_ : F.trngN = true) (_ : F.freeN = true) (hK : Keeps F s0 s) : Keeps F s0 (opRsaPriv id fault s) := by
  unfold opRsaPriv
  try dsimp only
  repeat' (with_reducible first | assumption | (intro _ _) | apply Keeps.ite | apply Keeps.ite2 | apply Keeps.ite1 | apply Keeps.ite22 | apply Keeps.ite21 | apply finishCell_keeps | apply withDraw_keeps | apply rsaApply_keeps | split | intro _)

theorem opRsaPub_keeps (id : Nat) (s : State) (_ : F.dma = true) (_ : F.ks = true) (_ : F.ctxs = true) (_ : F.combs = true) (_ : F.jobs = true) (_ : F.trngN = true) (_ : F.freeN = true) (hK : Keeps F s0 s) : Keeps F s0 (opRsaPub id s) := by
  unfold opRsaPub
  try dsimp only
  repeat' (with_reducible first | assumption | (intro _ _) | apply Keeps.ite | apply Keeps.ite2 | apply Keeps.ite1 | apply Keeps.ite22 | apply Keeps.ite21 | apply finishCell_keeps | apply withDrbg_keeps | split | intro _)

theorem opModexpRaw_keeps (id : Nat) (s : State) (_ : F.dma = true) (_ : F.ks = true) (_ : F.ctxs = true) (_ : F.jobs = true) (hK : Keeps F s0 s) : Keeps F s0 (opModexpRaw id s) := by
  unfold opModexpRaw
  try dsimp only
  repeat' (with_reducible first | assumption | apply Keeps.ite | apply Keeps.ite2 | apply Keeps.ite1 | apply Keeps.ite22 | apply Keeps.ite21 | apply finishCell_keeps | split)

theorem opEcdsaSign_keeps (id : Nat) (fault : Bool) (s : State) (_ : F.aon = true) (_ : F.ev = true) (_ : F.dma = true) (_ : F.ks = true) (_ : F.fns = true) (_ : F.tenants = true) (_ : F.ctxs = true) (_ : F.combs = true) (_ : F.jobs = true) (_ : F.trngN = true) (_ : F.freeN = true) (hK : Keeps F s0 s) : Keeps F s0 (opEcdsaSign id fault s) := by
  unfold opEcdsaSign
  try dsimp only
  repeat' (with_reducible first | assumption | (intro _ _) | apply Keeps.ite | apply Keeps.ite2 | apply Keeps.ite1 | apply Keeps.ite22 | apply Keeps.ite21 | apply finishCell_keeps | apply withDraw_keeps | apply faultCheck_keeps | split | intro _)

theorem opEcdsaVerify_keeps (id : Nat) (s : State) (_ : F.dma = true) (_ : F.ks = true) (_ : F.ctxs = true) (_ : F.jobs = true) (hK : Keeps F s0 s) : Keeps F s0 (opEcdsaVerify id s) := by
  unfold opEcdsaVerify
  try dsimp only
  repeat' (with_reducible first | assumption | apply Keeps.ite | apply Keeps.ite2 | apply Keeps.ite1 | apply Keeps.ite22 | apply Keeps.ite21 | apply runCell_keeps | split)

theorem opEddsaSign_keeps (id : Nat) (fault : Bool) (s : State) (_ : F.aon = true) (_ : F.ev = true) (_ : F.dma = true) (_ : F.ks = true) (_ : F.fns = true) (_ : F.tenants = true) (_ : F.ctxs = true) (_ : F.combs = true) (_ : F.jobs = true) (_ : F.trngN = true) (_ : F.freeN = true) (hK : Keeps F s0 s) : Keeps F s0 (opEddsaSign id fault s) := by
  unfold opEddsaSign
  try dsimp only
  repeat' (with_reducible first | assumption | (intro _ _) | apply Keeps.ite | apply Keeps.ite2 | apply Keeps.ite1 | apply Keeps.ite22 | apply Keeps.ite21 | apply finishCell_keeps | apply withDraw_keeps | apply faultCheck_keeps | split | intro _)

theorem opEddsaVerify_keeps (id : Nat) (s : State) (_ : F.dma = true) (_ : F.ks = true) (_ : F.ctxs = true) (_ : F.jobs = true) (hK : Keeps F s0 s) : Keeps F s0 (opEddsaVerify id s) := by
  unfold opEddsaVerify
  try dsimp only
  repeat' (with_reducible first | assumption | apply Keeps.ite | apply Keeps.ite2 | apply Keeps.ite1 | apply Keeps.ite22 | apply Keeps.ite21 | apply runCell_keeps | split)

theorem agreed_keeps (s : State) (id : Nat) (cyc : Nat) (fault : Bool) (r : BitVec 8 ⊕ Bytes) (f : Bytes → State → State) (hf : ∀ y0 y1, Keeps F s0 y1 → Keeps F s0 (f y0 y1)) (_ : F.aon = true) (_ : F.ev = true) (_ : F.dma = true) (_ : F.ks = true) (_ : F.fns = true) (_ : F.tenants = true) (_ : F.ctxs = true) (_ : F.combs = true) (_ : F.jobs = true) (_ : F.trngN = true) (_ : F.freeN = true) (hK : Keeps F s0 s) : Keeps F s0 (agreed s id cyc fault r f) := by
  unfold agreed
  try dsimp only
  repeat' (with_reducible first | assumption | (intro _ _) | apply Keeps.ite | apply Keeps.ite2 | apply Keeps.ite1 | apply Keeps.ite22 | apply Keeps.ite21 | apply hf | apply finishCell_keeps | apply withDraw_keeps | apply faultCheck_keeps | split | intro _)

theorem outputs_keeps (id : Nat) (cyc : Nat) (b : Bytes) (s : State) (_ : F.dma = true) (_ : F.ks = true) (_ : F.ctxs = true) (_ : F.jobs = true) (hK : Keeps F s0 s) : Keeps F s0 (outputs id cyc b s) := by
  unfold outputs
  try dsimp only
  repeat' (with_reducible first | assumption | apply Keeps.ite | apply Keeps.ite2 | apply Keeps.ite1 | apply Keeps.ite22 | apply Keeps.ite21 | apply finishCell_keeps | split)

theorem opEcdh_keeps (id : Nat) (fault : Bool) (s : State) (_ : F.aon = true) (_ : F.ev = true) (_ : F.dma = true) (_ : F.ks = true) (_ : F.fns = true) (_ : F.tenants = true) (_ : F.ctxs = true) (_ : F.combs = true) (_ : F.jobs = true) (_ : F.trngN = true) (_ : F.freeN = true) (hK : Keeps F s0 s) : Keeps F s0 (opEcdh id fault s) := by
  unfold opEcdh
  try dsimp only
  repeat' (with_reducible first | assumption | (intro _ _) | apply Keeps.ite | apply Keeps.ite2 | apply Keeps.ite1 | apply Keeps.ite22 | apply Keeps.ite21 | apply agreed_keeps | apply outputs_keeps | split | intro _)

theorem opXdh_keeps (id : Nat) (fault : Bool) (s : State) (_ : F.aon = true) (_ : F.ev = true) (_ : F.dma = true) (_ : F.ks = true) (_ : F.fns = true) (_ : F.tenants = true) (_ : F.ctxs = true) (_ : F.combs = true) (_ : F.jobs = true) (_ : F.trngN = true) (_ : F.freeN = true) (hK : Keeps F s0 s) : Keeps F s0 (opXdh id fault s) := by
  unfold opXdh
  try dsimp only
  repeat' (with_reducible first | assumption | (intro _ _) | apply Keeps.ite | apply Keeps.ite2 | apply Keeps.ite1 | apply Keeps.ite22 | apply Keeps.ite21 | apply agreed_keeps | apply outputs_keeps | split | intro _)

theorem opEcPointMulRaw_keeps (id : Nat) (fault : Bool) (s : State) (_ : F.aon = true) (_ : F.ev = true) (_ : F.dma = true) (_ : F.ks = true) (_ : F.fns = true) (_ : F.tenants = true) (_ : F.ctxs = true) (_ : F.combs = true) (_ : F.jobs = true) (_ : F.trngN = true) (_ : F.freeN = true) (hK : Keeps F s0 s) : Keeps F s0 (opEcPointMulRaw id fault s) := by
  unfold opEcPointMulRaw
  try dsimp only
  repeat' (with_reducible first | assumption | (intro _ _) | apply Keeps.ite | apply Keeps.ite2 | apply Keeps.ite1 | apply Keeps.ite22 | apply Keeps.ite21 | apply agreed_keeps | apply outputs_keeps | split | intro _)

/-! ## LatticeOps -/

theorem opMlkemKeygen_keeps (id : Nat) (s : State) (_ : F.dma = true) (_ : F.ks = true) (_ : F.ctxs = true) (_ : F.slots = true) (_ : F.combs = true) (_ : F.jobs = true) (_ : F.trngN = true) (_ : F.freeN = true) (hK : Keeps F s0 s) : Keeps F s0 (opMlkemKeygen id s) := by
  unfold opMlkemKeygen
  try dsimp only
  repeat' (with_reducible first | assumption | (intro _ _) | apply Keeps.ite | apply Keeps.ite2 | apply Keeps.ite1 | apply Keeps.ite22 | apply Keeps.ite21 | apply withDrbg_keeps | apply commitKey_keeps | split | intro _)

theorem opMlkemEncap_keeps (id : Nat) (s : State) (_ : F.dma = true) (_ : F.ks = true) (_ : F.ctxs = true) (_ : F.combs = true) (_ : F.jobs = true) (_ : F.trngN = true) (_ : F.freeN = true) (hK : Keeps F s0 s) : Keeps F s0 (opMlkemEncap id s) := by
  unfold opMlkemEncap
  try dsimp only
  repeat' (with_reducible first | assumption | (intro _ _) | apply Keeps.ite | apply Keeps.ite2 | apply Keeps.ite1 | apply Keeps.ite22 | apply Keeps.ite21 | apply finishCell_keeps | apply withDrbg_keeps | split | intro _)

theorem opMlkemDecap_keeps (id : Nat) (s : State) (_ : F.dma = true) (_ : F.ks = true) (_ : F.ctxs = true) (_ : F.combs = true) (_ : F.jobs = true) (_ : F.trngN = true) (_ : F.freeN = true) (hK : Keeps F s0 s) : Keeps F s0 (opMlkemDecap id s) := by
  unfold opMlkemDecap
  try dsimp only
  repeat' (with_reducible first | assumption | (intro _ _) | apply Keeps.ite | apply Keeps.ite2 | apply Keeps.ite1 | apply Keeps.ite22 | apply Keeps.ite21 | apply finishCell_keeps | apply withDraw_keeps | split | intro _)

theorem opMldsaKeygen_keeps (id : Nat) (s : State) (_ : F.dma = true) (_ : F.ks = true) (_ : F.ctxs = true) (_ : F.slots = true) (_ : F.combs = true) (_ : F.jobs = true) (_ : F.trngN = true) (_ : F.freeN = true) (hK : Keeps F s0 s) : Keeps F s0 (opMldsaKeygen id s) := by
  unfold opMldsaKeygen
  try dsimp only
  repeat' (with_reducible first | assumption | (intro _ _) | apply Keeps.ite | apply Keeps.ite2 | apply Keeps.ite1 | apply Keeps.ite22 | apply Keeps.ite21 | apply withDrbg_keeps | apply commitKey_keeps | split | intro _)

theorem opMldsaSign_keeps (id : Nat) (s : State) (_ : F.dma = true) (_ : F.ks = true) (_ : F.ctxs = true) (_ : F.combs = true) (_ : F.jobs = true) (_ : F.trngN = true) (_ : F.freeN = true) (hK : Keeps F s0 s) : Keeps F s0 (opMldsaSign id s) := by
  unfold opMldsaSign
  try dsimp only
  repeat' (with_reducible first | assumption | (intro _ _) | apply Keeps.ite | apply Keeps.ite2 | apply Keeps.ite1 | apply Keeps.ite22 | apply Keeps.ite21 | apply finishCell_keeps | apply withDraw_keeps | split | intro _)

theorem opMldsaVerify_keeps (id : Nat) (s : State) (_ : F.dma = true) (_ : F.ks = true) (_ : F.ctxs = true) (_ : F.jobs = true) (hK : Keeps F s0 s) : Keeps F s0 (opMldsaVerify id s) := by
  unfold opMldsaVerify
  try dsimp only
  repeat' (with_reducible first | assumption | apply Keeps.ite | apply Keeps.ite2 | apply Keeps.ite1 | apply Keeps.ite22 | apply Keeps.ite21 | apply runCell_keeps | split)

end Sys2Proof.Machine
end

