-- ==== Sys2Proof/Laws/KeepsJobs.lean ====
section
/-! SUPPORT. What the operations can do: their footprints, of the modules Persist, Digest, KeyRows, Bulk, Queues, Logs, Stages, Ends, Waggle, LcOps. -/

set_option linter.unreachableTactic false
set_option linter.unusedTactic false
set_option linter.unusedVariables false
set_option Elab.async false

namespace Sys2Proof.Machine

variable {F : Foot} {s0 : State}

/-! ## Persist -/

theorem writeRec_keeps (s : State) (id : Nat) (payload : Bytes) (_ : F.store = true) (hK : Keeps F s0 s) : Keeps F s0 (writeRec s id payload) := by
  unfold writeRec
  try dsimp only
  repeat' (with_reducible first | assumption | apply Keeps.ite | apply Keeps.ite2 | apply Keeps.ite1 | apply Keeps.ite22 | apply Keeps.ite21 | (fail_if_no_progress refine Keeps.set_store ‹_› ?_ (by first | exact fun h => h | exact tblWf_set _ _ _ _ | exact tblWf_erase _ _ _ | exact tblWf_map _ _ _ | exact tblWf_drop _ _ _ | with_unfolding_all exact tblWf_drop _ _ _ | exact (tblWf_put _ _ _ _ · (by simp)))) | split)

theorem wipeRec_keeps (s : State) (id : Nat) (_ : F.store = true) (hK : Keeps F s0 s) : Keeps F s0 (wipeRec s id) := by
  unfold wipeRec
  try dsimp only
  repeat' (with_reducible first | assumption | apply Keeps.ite | apply Keeps.ite2 | apply Keeps.ite1 | apply Keeps.ite22 | apply Keeps.ite21 | (fail_if_no_progress refine Keeps.set_store ‹_› ?_ (by first | exact fun h => h | exact tblWf_set _ _ _ _ | exact tblWf_erase _ _ _ | exact tblWf_map _ _ _ | exact tblWf_drop _ _ _ | with_unfolding_all exact tblWf_drop _ _ _ | exact (tblWf_put _ _ _ _ · (by simp)))) | split)

theorem eraseRec_keeps (s : State) (id : Nat) (_ : F.store = true) (hK : Keeps F s0 s) : Keeps F s0 (eraseRec s id) := by
  unfold eraseRec
  try dsimp only
  repeat' (with_reducible first | assumption | apply Keeps.ite | apply Keeps.ite2 | apply Keeps.ite1 | apply Keeps.ite22 | apply Keeps.ite21 | apply wipeRec_keeps | split)

theorem writeRes_keeps (s : State) (c : Nat) (slot : Nat) (res : Nat) (_ : F.store = true) (hK : Keeps F s0 s) : Keeps F s0 (writeRes s c slot res) := by
  unfold writeRes
  try dsimp only
  repeat' (with_reducible first | assumption | apply Keeps.ite | apply Keeps.ite2 | apply Keeps.ite1 | apply Keeps.ite22 | apply Keeps.ite21 | apply writeRec_keeps | split)

theorem putRes_keeps (s : State) (c : Nat) (i : Nat) (pos : Nat) (_ : F.store = true) (_ : F.slots = true) (hK : Keeps F s0 s) : Keeps F s0 (putRes s c i pos) := by
  unfold putRes
  try dsimp only
  repeat' (with_reducible first | assumption | apply Keeps.ite | apply Keeps.ite2 | apply Keeps.ite1 | apply Keeps.ite22 | apply Keeps.ite21 | apply modSlot_keeps | apply writeRes_keeps | split | intro _)

theorem putResOf_keeps (s : State) (pos : Nat) (_ : F.store = true) (_ : F.slots = true) (hK : Keeps F s0 s) : Keeps F s0 (putResOf s pos) := by
  unfold putResOf
  try dsimp only
  repeat' (with_reducible first | assumption | apply Keeps.ite | apply Keeps.ite2 | apply Keeps.ite1 | apply Keeps.ite22 | apply Keeps.ite21 | apply putRes_keeps | split)

/-! ## Digest -/

theorem opHash_keeps (id : Nat) (s : State) (_ : F.dma = true) (_ : F.ks = true) (_ : F.ctxs = true) (_ : F.jobs = true) (hK : Keeps F s0 s) : Keeps F s0 (opHash id s) := by
  unfold opHash
  try dsimp only
  repeat' (with_reducible first | assumption | apply Keeps.ite | apply Keeps.ite2 | apply Keeps.ite1 | apply Keeps.ite22 | apply Keeps.ite21 | apply runCell_keeps | split)

theorem opShakeXof_keeps (id : Nat) (s : State) (_ : F.dma = true) (_ : F.ks = true) (_ : F.ctxs = true) (_ : F.jobs = true) (hK : Keeps F s0 s) : Keeps F s0 (opShakeXof id s) := by
  unfold opShakeXof
  try dsimp only
  repeat' (with_reducible first | assumption | apply Keeps.ite | apply Keeps.ite2 | apply Keeps.ite1 | apply Keeps.ite22 | apply Keeps.ite21 | apply runCell_keeps | split)

theorem opHmacGen_keeps (id : Nat) (s : State) (_ : F.dma = true) (_ : F.ks = true) (_ : F.ctxs = true) (_ : F.jobs = true) (hK : Keeps F s0 s) : Keeps F s0 (opHmacGen id s) := by
  unfold opHmacGen
  try dsimp only
  repeat' (with_reducible first | assumption | apply Keeps.ite | apply Keeps.ite2 | apply Keeps.ite1 | apply Keeps.ite22 | apply Keeps.ite21 | apply runCell_keeps | split)

theorem opHmacVerify_keeps (id : Nat) (s : State) (_ : F.dma = true) (_ : F.ks = true) (_ : F.ctxs = true) (_ : F.jobs = true) (hK : Keeps F s0 s) : Keeps F s0 (opHmacVerify id s) := by
  unfold opHmacVerify
  try dsimp only
  repeat' (with_reducible first | assumption | apply Keeps.ite | apply Keeps.ite2 | apply Keeps.ite1 | apply Keeps.ite22 | apply Keeps.ite21 | apply runCell_keeps | split)

theorem opKmac_keeps (id : Nat) (s : State) (_ : F.dma = true) (_ : F.ks = true) (_ : F.ctxs = true) (_ : F.jobs = true) (hK : Keeps F s0 s) : Keeps F s0 (opKmac id s) := by
  unfold opKmac
  try dsimp only
  repeat' (with_reducible first | assumption | apply Keeps.ite | apply Keeps.ite2 | apply Keeps.ite1 | apply Keeps.ite22 | apply Keeps.ite21 | apply runCell_keeps | split)

theorem opCmacGen_keeps (id : Nat) (s : State) (_ : F.dma = true) (_ : F.ks = true) (_ : F.ctxs = true) (_ : F.jobs = true) (hK : Keeps F s0 s) : Keeps F s0 (opCmacGen id s) := by
  unfold opCmacGen
  try dsimp only
  repeat' (with_reducible first | assumption | apply Keeps.ite | apply Keeps.ite2 | apply Keeps.ite1 | apply Keeps.ite22 | apply Keeps.ite21 | apply runCell_keeps | split)

theorem opCmacVerify_keeps (id : Nat) (s : State) (_ : F.dma = true) (_ : F.ks = true) (_ : F.ctxs = true) (_ : F.jobs = true) (hK : Keeps F s0 s) : Keeps F s0 (opCmacVerify id s) := by
  unfold opCmacVerify
  try dsimp only
  repeat' (with_reducible first | assumption | apply Keeps.ite | apply Keeps.ite2 | apply Keeps.ite1 | apply Keeps.ite22 | apply Keeps.ite21 | apply runCell_keeps | split)

/-! ## KeyRows -/

theorem ppCount_keeps (s : State) (_ : F.ks = true) (_ : F.freeN = true) (hK : Keeps F s0 s) : Keeps F s0 (ppCount s) := by
  unfold ppCount
  try dsimp only
  repeat' (with_reducible first | assumption | apply Keeps.ite | apply Keeps.ite2 | apply Keeps.ite1 | apply Keeps.ite22 | apply Keeps.ite21 | (fail_if_no_progress refine Keeps.set_ks_freeN ‹_› ‹_› ?_) | split)

theorem ppDone_keeps (s : State) (id : Nat) (_ : F.ks = true) (_ : F.freeN = true) (hK : Keeps F s0 s) : Keeps F s0 (ppDone s id) := by
  unfold ppDone
  try dsimp only
  repeat' (with_reducible first | assumption | apply Keeps.ite | apply Keeps.ite2 | apply Keeps.ite1 | apply Keeps.ite22 | apply Keeps.ite21 | apply ppCount_keeps | split)

theorem ppEnds_keeps (s : State) (id : Nat) (r : CellOut) (_ : F.dma = true) (_ : F.ks = true) (_ : F.ctxs = true) (_ : F.jobs = true) (_ : F.freeN = true) (hK : Keeps F s0 s) : Keeps F s0 (ppEnds s id r) := by
  unfold ppEnds
  try dsimp only
  repeat' (with_reducible first | assumption | apply Keeps.ite | apply Keeps.ite2 | apply Keeps.ite1 | apply Keeps.ite22 | apply Keeps.ite21 | apply finishCell_keeps | apply ppDone_keeps | split)

theorem opKeyGenerate_keeps (id : Nat) (s : State) (_ : F.dma = true) (_ : F.ks = true) (_ : F.ctxs = true) (_ : F.slots = true) (_ : F.combs = true) (_ : F.jobs = true) (_ : F.trngN = true) (_ : F.freeN = true) (hK : Keeps F s0 s) : Keeps F s0 (opKeyGenerate id s) := by
  unfold opKeyGenerate
  try dsimp only
  repeat' (with_reducible first | assumption | (intro _ _) | apply Keeps.ite | apply Keeps.ite2 | apply Keeps.ite1 | apply Keeps.ite22 | apply Keeps.ite21 | apply withDrbg_keeps | apply commitKey_keeps | split | intro _)

theorem opKeyDerive_keeps (id : Nat) (s : State) (_ : F.dma = true) (_ : F.ks = true) (_ : F.ctxs = true) (_ : F.slots = true) (_ : F.jobs = true) (_ : F.freeN = true) (hK : Keeps F s0 s) : Keeps F s0 (opKeyDerive id s) := by
  unfold opKeyDerive
  try dsimp only
  repeat' (with_reducible first | assumption | apply Keeps.ite | apply Keeps.ite2 | apply Keeps.ite1 | apply Keeps.ite22 | apply Keeps.ite21 | apply commitKey_keeps | apply ppDone_keeps | split)

theorem opKeyWrap_keeps (id : Nat) (s : State) (_ : F.dma = true) (_ : F.ks = true) (_ : F.ctxs = true) (_ : F.jobs = true) (_ : F.freeN = true) (hK : Keeps F s0 s) : Keeps F s0 (opKeyWrap id s) := by
  unfold opKeyWrap
  try dsimp only
  repeat' (with_reducible first | assumption | apply Keeps.ite | apply Keeps.ite2 | apply Keeps.ite1 | apply Keeps.ite22 | apply Keeps.ite21 | apply ppEnds_keeps | split)

theorem opKeyUnwrap_keeps (id : Nat) (s : State) (_ : F.dma = true) (_ : F.ks = true) (_ : F.ctxs = true) (_ : F.slots = true) (_ : F.jobs = true) (_ : F.freeN = true) (hK : Keeps F s0 s) : Keeps F s0 (opKeyUnwrap id s) := by
  unfold opKeyUnwrap
  try dsimp only
  repeat' (with_reducible first | assumption | apply Keeps.ite | apply Keeps.ite2 | apply Keeps.ite1 | apply Keeps.ite22 | apply Keeps.ite21 | apply commitKey_keeps | apply ppDone_keeps | apply ppEnds_keeps | split)

theorem opKeyCheckValue_keeps (id : Nat) (s : State) (_ : F.dma = true) (_ : F.ks = true) (_ : F.ctxs = true) (_ : F.jobs = true) (_ : F.freeN = true) (hK : Keeps F s0 s) : Keeps F s0 (opKeyCheckValue id s) := by
  unfold opKeyCheckValue
  try dsimp only
  repeat' (with_reducible first | assumption | apply Keeps.ite | apply Keeps.ite2 | apply Keeps.ite1 | apply Keeps.ite22 | apply Keeps.ite21 | apply ppEnds_keeps | split)

theorem eraseSlotRec_keeps (s : State) (c : Nat) (i : Nat) (_ : F.store = true) (hK : Keeps F s0 s) : Keeps F s0 (eraseSlotRec s c i) := by
  unfold eraseSlotRec
  try dsimp only
  repeat' (with_reducible first | assumption | apply Keeps.ite | apply Keeps.ite2 | apply Keeps.ite1 | apply Keeps.ite22 | apply Keeps.ite21 | apply eraseRec_keeps | split)

theorem opKeyInvalidate_keeps (id : Nat) (s : State) (_ : F.store = true) (_ : F.dma = true) (_ : F.ks = true) (_ : F.ctxs = true) (_ : F.slots = true) (_ : F.jobs = true) (hK : Keeps F s0 s) : Keeps F s0 (opKeyInvalidate id s) := by
  unfold opKeyInvalidate
  try dsimp only
  repeat' (with_reducible first | assumption | apply Keeps.ite | apply Keeps.ite2 | apply Keeps.ite1 | apply Keeps.ite22 | apply Keeps.ite21 | apply modJob_keeps | apply invalidate_keeps | apply finishCell_keeps | apply eraseSlotRec_keeps | split | intro _)

theorem opKeyAttest_keeps (id : Nat) (s : State) (_ : F.dma = true) (_ : F.ks = true) (_ : F.ctxs = true) (_ : F.combs = true) (_ : F.jobs = true) (_ : F.freeN = true) (hK : Keeps F s0 s) : Keeps F s0 (opKeyAttest id s) := by
  unfold opKeyAttest
  try dsimp only
  repeat' (with_reducible first | assumption | apply Keeps.ite | apply Keeps.ite2 | apply Keeps.ite1 | apply Keeps.ite22 | apply Keeps.ite21 | apply retireSlot_keeps | apply ppEnds_keeps | split)

theorem opKeyAgreeToSlot_keeps (id : Nat) (fault : Bool) (s : State) (_ : F.aon = true) (_ : F.ev = true) (_ : F.dma = true) (_ : F.ks = true) (_ : F.fns = true) (_ : F.tenants = true) (_ : F.ctxs = true) (_ : F.slots = true) (_ : F.combs = true) (_ : F.jobs = true) (_ : F.trngN = true) (_ : F.freeN = true) (hK : Keeps F s0 s) : Keeps F s0 (opKeyAgreeToSlot id fault s) := by
  unfold opKeyAgreeToSlot
  try dsimp only
  repeat' (with_reducible first | assumption | (intro _ _) | apply Keeps.ite | apply Keeps.ite2 | apply Keeps.ite1 | apply Keeps.ite22 | apply Keeps.ite21 | apply withDraw_keeps | apply commitKey_keeps | apply agreed_keeps | split | intro _)

theorem opCtxExport_keeps (id : Nat) (s : State) (_ : F.dma = true) (_ : F.ks = true) (_ : F.ctxs = true) (_ : F.jobs = true) (_ : F.freeN = true) (hK : Keeps F s0 s) : Keeps F s0 (opCtxExport id s) := by
  unfold opCtxExport
  try dsimp only
  repeat' (with_reducible first | assumption | apply Keeps.ite | apply Keeps.ite2 | apply Keeps.ite1 | apply Keeps.ite22 | apply Keeps.ite21 | apply ppEnds_keeps | split)

theorem importBlob_keeps (s : State) (id : Nat) (b : Bytes) (clear : Bool) (_ : F.dma = true) (_ : F.ks = true) (_ : F.ctxs = true) (_ : F.jobs = true) (_ : F.freeN = true) (hK : Keeps F s0 s) : Keeps F s0 (importBlob s id b clear) := by
  unfold importBlob
  try dsimp only
  repeat' (with_reducible first | assumption | apply Keeps.ite | apply Keeps.ite2 | apply Keeps.ite1 | apply Keeps.ite22 | apply Keeps.ite21 | apply modJob_keeps | apply ppEnds_keeps | split | intro _)

theorem opCtxImport_keeps (id : Nat) (s : State) (_ : F.dma = true) (_ : F.ks = true) (_ : F.ctxs = true) (_ : F.jobs = true) (_ : F.freeN = true) (hK : Keeps F s0 s) : Keeps F s0 (opCtxImport id s) := by
  unfold opCtxImport
  try dsimp only
  repeat' (with_reducible first | assumption | apply Keeps.ite | apply Keeps.ite2 | apply Keeps.ite1 | apply Keeps.ite22 | apply Keeps.ite21 | apply ppEnds_keeps | apply importBlob_keeps | split)

/-! ## Bulk -/

theorem opAesGcmEnc_keeps (id : Nat) (s : State) (_ : F.dma = true) (_ : F.ks = true) (_ : F.ctxs = true) (_ : F.jobs = true) (hK : Keeps F s0 s) : Keeps F s0 (opAesGcmEnc id s) := by
  unfold opAesGcmEnc
  try dsimp only
  repeat' (with_reducible first | assumption | apply Keeps.ite | apply Keeps.ite2 | apply Keeps.ite1 | apply Keeps.ite22 | apply Keeps.ite21 | apply runCell_keeps | split)

theorem opChachaPolyEnc_keeps (id : Nat) (s : State) (_ : F.dma = true) (_ : F.ks = true) (_ : F.ctxs = true) (_ : F.jobs = true) (hK : Keeps F s0 s) : Keeps F s0 (opChachaPolyEnc id s) := by
  unfold opChachaPolyEnc
  try dsimp only
  repeat' (with_reducible first | assumption | apply Keeps.ite | apply Keeps.ite2 | apply Keeps.ite1 | apply Keeps.ite22 | apply Keeps.ite21 | apply runCell_keeps | split)

theorem opAesCcmEnc_keeps (id : Nat) (s : State) (_ : F.dma = true) (_ : F.ks = true) (_ : F.ctxs = true) (_ : F.jobs = true) (hK : Keeps F s0 s) : Keeps F s0 (opAesCcmEnc id s) := by
  unfold opAesCcmEnc
  try dsimp only
  repeat' (with_reducible first | assumption | apply Keeps.ite | apply Keeps.ite2 | apply Keeps.ite1 | apply Keeps.ite22 | apply Keeps.ite21 | apply runCell_keeps | split)

theorem opAesGmac_keeps (id : Nat) (s : State) (_ : F.dma = true) (_ : F.ks = true) (_ : F.ctxs = true) (_ : F.jobs = true) (hK : Keeps F s0 s) : Keeps F s0 (opAesGmac id s) := by
  unfold opAesGmac
  try dsimp only
  repeat' (with_reducible first | assumption | apply Keeps.ite | apply Keeps.ite2 | apply Keeps.ite1 | apply Keeps.ite22 | apply Keeps.ite21 | apply runCell_keeps | split)

theorem runDec_keeps (o : Op) (f : State → Job → Opened) (head : State → Job → Option CellOut) (post : Job → Bytes → CellOut) (id : Nat) (s : State) (_ : F.hi = true) (_ : F.dma = true) (_ : F.ks = true) (_ : F.ctxs = true) (_ : F.jobs = true) (_ : F.out = true) (hK : Keeps F s0 s) : Keeps F s0 (runDec o f head post id s) := by
  unfold runDec
  try dsimp only
  repeat' (with_reducible first | assumption | apply Keeps.ite | apply Keeps.ite2 | apply Keeps.ite1 | apply Keeps.ite22 | apply Keeps.ite21 | apply modJob_keeps | apply readSource_keeps | apply finishCell_keeps | split | intro _)

theorem opAesGcmDec_keeps (id : Nat) (s : State) (_ : F.hi = true) (_ : F.dma = true) (_ : F.ks = true) (_ : F.ctxs = true) (_ : F.jobs = true) (_ : F.out = true) (hK : Keeps F s0 s) : Keeps F s0 (opAesGcmDec id s) := by
  unfold opAesGcmDec
  try dsimp only
  repeat' (with_reducible first | assumption | apply Keeps.ite | apply Keeps.ite2 | apply Keeps.ite1 | apply Keeps.ite22 | apply Keeps.ite21 | apply runDec_keeps | split)

theorem opAesCcmDec_keeps (id : Nat) (s : State) (_ : F.hi = true) (_ : F.dma = true) (_ : F.ks = true) (_ : F.ctxs = true) (_ : F.jobs = true) (_ : F.out = true) (hK : Keeps F s0 s) : Keeps F s0 (opAesCcmDec id s) := by
  unfold opAesCcmDec
  try dsimp only
  repeat' (with_reducible first | assumption | apply Keeps.ite | apply Keeps.ite2 | apply Keeps.ite1 | apply Keeps.ite22 | apply Keeps.ite21 | apply runDec_keeps | split)

theorem opChachaPolyDec_keeps (id : Nat) (s : State) (_ : F.hi = true) (_ : F.dma = true) (_ : F.ks = true) (_ : F.ctxs = true) (_ : F.jobs = true) (_ : F.out = true) (hK : Keeps F s0 s) : Keeps F s0 (opChachaPolyDec id s) := by
  unfold opChachaPolyDec
  try dsimp only
  repeat' (with_reducible first | assumption | apply Keeps.ite | apply Keeps.ite2 | apply Keeps.ite1 | apply Keeps.ite22 | apply Keeps.ite21 | apply runDec_keeps | split)

theorem opAesCbcEnc_keeps (id : Nat) (s : State) (_ : F.dma = true) (_ : F.ks = true) (_ : F.ctxs = true) (_ : F.jobs = true) (hK : Keeps F s0 s) : Keeps F s0 (opAesCbcEnc id s) := by
  unfold opAesCbcEnc
  try dsimp only
  repeat' (with_reducible first | assumption | apply Keeps.ite | apply Keeps.ite2 | apply Keeps.ite1 | apply Keeps.ite22 | apply Keeps.ite21 | apply runCell_keeps | split)

theorem opAesCbcDec_keeps (id : Nat) (s : State) (_ : F.dma = true) (_ : F.ks = true) (_ : F.ctxs = true) (_ : F.jobs = true) (hK : Keeps F s0 s) : Keeps F s0 (opAesCbcDec id s) := by
  unfold opAesCbcDec
  try dsimp only
  repeat' (with_reducible first | assumption | apply Keeps.ite | apply Keeps.ite2 | apply Keeps.ite1 | apply Keeps.ite22 | apply Keeps.ite21 | apply runCell_keeps | split)

theorem opAesCtr_keeps (id : Nat) (s : State) (_ : F.dma = true) (_ : F.ks = true) (_ : F.ctxs = true) (_ : F.jobs = true) (hK : Keeps F s0 s) : Keeps F s0 (opAesCtr id s) := by
  unfold opAesCtr
  try dsimp only
  repeat' (with_reducible first | assumption | apply Keeps.ite | apply Keeps.ite2 | apply Keeps.ite1 | apply Keeps.ite22 | apply Keeps.ite21 | apply runCell_keeps | split)

theorem opAesXtsEnc_keeps (id : Nat) (s : State) (_ : F.dma = true) (_ : F.ks = true) (_ : F.ctxs = true) (_ : F.jobs = true) (hK : Keeps F s0 s) : Keeps F s0 (opAesXtsEnc id s) := by
  unfold opAesXtsEnc
  try dsimp only
  repeat' (with_reducible first | assumption | apply Keeps.ite | apply Keeps.ite2 | apply Keeps.ite1 | apply Keeps.ite22 | apply Keeps.ite21 | apply runCell_keeps | split)

theorem opAesXtsDec_keeps (id : Nat) (s : State) (_ : F.dma = true) (_ : F.ks = true) (_ : F.ctxs = true) (_ : F.jobs = true) (hK : Keeps F s0 s) : Keeps F s0 (opAesXtsDec id s) := by
  unfold opAesXtsDec
  try dsimp only
  repeat' (with_reducible first | assumption | apply Keeps.ite | apply Keeps.ite2 | apply Keeps.ite1 | apply Keeps.ite22 | apply Keeps.ite21 | apply runCell_keeps | split)

theorem opTls13RecSeal_keeps (id : Nat) (s : State) (_ : F.dma = true) (_ : F.ks = true) (_ : F.ctxs = true) (_ : F.jobs = true) (hK : Keeps F s0 s) : Keeps F s0 (opTls13RecSeal id s) := by
  unfold opTls13RecSeal
  try dsimp only
  repeat' (with_reducible first | assumption | apply Keeps.ite | apply Keeps.ite2 | apply Keeps.ite1 | apply Keeps.ite22 | apply Keeps.ite21 | apply runCell_keeps | split)

theorem opTls13RecOpen_keeps (id : Nat) (s : State) (_ : F.hi = true) (_ : F.dma = true) (_ : F.ks = true) (_ : F.ctxs = true) (_ : F.jobs = true) (_ : F.out = true) (hK : Keeps F s0 s) : Keeps F s0 (opTls13RecOpen id s) := by
  unfold opTls13RecOpen
  try dsimp only
  repeat' (with_reducible first | assumption | apply Keeps.ite | apply Keeps.ite2 | apply Keeps.ite1 | apply Keeps.ite22 | apply Keeps.ite21 | apply runDec_keeps | split)

theorem opEspSeal_keeps (id : Nat) (s : State) (_ : F.dma = true) (_ : F.ks = true) (_ : F.ctxs = true) (_ : F.jobs = true) (hK : Keeps F s0 s) : Keeps F s0 (opEspSeal id s) := by
  unfold opEspSeal
  try dsimp only
  repeat' (with_reducible first | assumption | apply Keeps.ite | apply Keeps.ite2 | apply Keeps.ite1 | apply Keeps.ite22 | apply Keeps.ite21 | apply runCell_keeps | split)

theorem opEspOpen_keeps (id : Nat) (s : State) (_ : F.hi = true) (_ : F.dma = true) (_ : F.ks = true) (_ : F.ctxs = true) (_ : F.jobs = true) (_ : F.out = true) (hK : Keeps F s0 s) : Keeps F s0 (opEspOpen id s) := by
  unfold opEspOpen
  try dsimp only
  repeat' (with_reducible first | assumption | apply Keeps.ite | apply Keeps.ite2 | apply Keeps.ite1 | apply Keeps.ite22 | apply Keeps.ite21 | apply runDec_keeps | split)

theorem opRandom_keeps (id : Nat) (s : State) (_ : F.dma = true) (_ : F.ks = true) (_ : F.ctxs = true) (_ : F.combs = true) (_ : F.jobs = true) (_ : F.trngN = true) (_ : F.freeN = true) (hK : Keeps F s0 s) : Keeps F s0 (opRandom id s) := by
  unfold opRandom
  try dsimp only
  repeat' (with_reducible first | assumption | (intro _ _) | apply Keeps.ite | apply Keeps.ite2 | apply Keeps.ite1 | apply Keeps.ite22 | apply Keeps.ite21 | apply drbgGenerate_keeps | apply finishCell_keeps | apply withSeed_keeps | split | intro _)

/-! ## Queues -/

theorem acceptDb_keeps (s : State) (c : Nat) (q : Nat) (v : W32) (_ : F.queues = true) (hK : Keeps F s0 s) : Keeps F s0 (acceptDb s c q v) := by
  unfold acceptDb
  try dsimp only
  repeat' (with_reducible first | assumption | apply Keeps.ite | apply Keeps.ite2 | apply Keeps.ite1 | apply Keeps.ite22 | apply Keeps.ite21 | apply modQueue_keeps | split | intro _)

theorem issueMirror_keeps (s : State) (c : Nat) (q : Nat) (_ : F.hi = true) (_ : F.dma = true) (_ : F.queues = true) (_ : F.out = true) (hK : Keeps F s0 s) : Keeps F s0 (issueMirror s c q) := by
  unfold issueMirror
  try dsimp only
  repeat' (with_reducible first | assumption | apply Keeps.ite | apply Keeps.ite2 | apply Keeps.ite1 | apply Keeps.ite22 | apply Keeps.ite21 | apply modQueue_keeps | apply issueRead_keeps | apply stopQueue_keeps | (apply Keeps.each; intro _ _ _) | split | intro _)

theorem uncheck_keeps (s : State) (c : Nat) (q : Nat) (p : Nat → Bool) (_ : F.queues = true) (_ : F.jobs = true) (hK : Keeps F s0 s) : Keeps F s0 (uncheck s c q p) := by
  unfold uncheck
  try dsimp only
  repeat' (with_reducible first | assumption | apply Keeps.ite | apply Keeps.ite2 | apply Keeps.ite1 | apply Keeps.ite22 | apply Keeps.ite21 | apply modQueue_keeps | apply dropJob_keeps | (apply Keeps.each; intro _ _ _) | split | intro _)

theorem evictOne_keeps (s : State) (c : Nat) (q : Nat) (i : W32) (_ : F.queues = true) (_ : F.jobs = true) (hK : Keeps F s0 s) : Keeps F s0 (evictOne s c q i) := by
  unfold evictOne
  try dsimp only
  repeat' (with_reducible first | assumption | apply Keeps.ite | apply Keeps.ite2 | apply Keeps.ite1 | apply Keeps.ite22 | apply Keeps.ite21 | apply modQueue_keeps | apply uncheck_keeps | split | intro _)

theorem cacheMake_keeps (n k : Nat) (s : State) (_ : F.queues = true) (_ : F.jobs = true) (hK : Keeps F s0 s) : Keeps F s0 (cacheMake n k s) := by
  induction k generalizing s with
  | zero => exact hK
  | succ k ih =>
    rw [cacheMake]
    repeat' (with_reducible first | assumption | apply ih | apply evictOne_keeps | split)


theorem claimPush_keeps (s : State) (c : Nat) (q : Nat) (v : W32) (_ : F.queues = true) (_ : F.jobs = true) (hK : Keeps F s0 s) : Keeps F s0 (claimPush s c q v) := by
  unfold claimPush
  try dsimp only
  repeat' (with_reducible first | assumption | apply Keeps.ite | apply Keeps.ite2 | apply Keeps.ite1 | apply Keeps.ite22 | apply Keeps.ite21 | apply modQueue_keeps | apply cacheMake_keeps | split | intro _)

theorem opQDbWrite_keeps (c : Nat) (q : Nat) (v : W32) (s : State) (_ : F.dma = true) (_ : F.queues = true) (_ : F.jobs = true) (hK : Keeps F s0 s) : Keeps F s0 (opQDbWrite c q v s) := by
  unfold opQDbWrite
  try dsimp only
  repeat' (with_reducible first | assumption | apply Keeps.ite | apply Keeps.ite2 | apply Keeps.ite1 | apply Keeps.ite22 | apply Keeps.ite21 | apply modQueue_keeps | apply stopQueue_keeps | apply acceptDb_keeps | apply claimPush_keeps | split | intro _)

theorem opQDbNodataWrite_keeps (c : Nat) (q : Nat) (s : State) (_ : F.hi = true) (_ : F.dma = true) (_ : F.queues = true) (_ : F.out = true) (hK : Keeps F s0 s) : Keeps F s0 (opQDbNodataWrite c q s) := by
  unfold opQDbNodataWrite
  try dsimp only
  repeat' (with_reducible first | assumption | apply Keeps.ite | apply Keeps.ite2 | apply Keeps.ite1 | apply Keeps.ite22 | apply Keeps.ite21 | apply modQueue_keeps | apply issueMirror_keeps | split | intro _)

theorem opProducerMirrorReadDone_keeps (c : Nat) (q : Nat) (s : State) (_ : F.hi = true) (_ : F.dma = true) (_ : F.queues = true) (_ : F.out = true) (hK : Keeps F s0 s) : Keeps F s0 (opProducerMirrorReadDone c q s) := by
  unfold opProducerMirrorReadDone
  try dsimp only
  repeat' (with_reducible first | assumption | apply Keeps.ite | apply Keeps.ite2 | apply Keeps.ite1 | apply Keeps.ite22 | apply Keeps.ite21 | apply modQueue_keeps | apply stopQueue_keeps | apply acceptDb_keeps | apply issueMirror_keeps | split | intro _)

theorem opPushWindowWrite_keeps (c : Nat) (q : Nat) (off : Nat) (relaxed : Bool) (data : Bytes) (s : State) (_ : F.queues = true) (hK : Keeps F s0 s) : Keeps F s0 (opPushWindowWrite c q off relaxed data s) := by
  unfold opPushWindowWrite
  try dsimp only
  repeat' (with_reducible first | assumption | apply Keeps.ite | apply Keeps.ite2 | apply Keeps.ite1 | apply Keeps.ite22 | apply Keeps.ite21 | apply modQueue_keeps | split | intro _)

theorem opPushStagingTimeout_keeps (c : Nat) (q : Nat) (s : State) (_ : F.queues = true) (hK : Keeps F s0 s) : Keeps F s0 (opPushStagingTimeout c q s) := by
  unfold opPushStagingTimeout
  try dsimp only
  repeat' (with_reducible first | assumption | apply Keeps.ite | apply Keeps.ite2 | apply Keeps.ite1 | apply Keeps.ite22 | apply Keeps.ite21 | apply modQueue_keeps | split | intro _)

theorem fetchSlot_keeps (c : Nat) (q : Nat) (s : State) (i : W32) (_ : F.hi = true) (_ : F.dma = true) (_ : F.queues = true) (_ : F.out = true) (hK : Keeps F s0 s) : Keeps F s0 (fetchSlot c q s i) := by
  unfold fetchSlot
  try dsimp only
  repeat' (with_reducible first | assumption | apply Keeps.ite | apply Keeps.ite2 | apply Keeps.ite1 | apply Keeps.ite22 | apply Keeps.ite21 | apply modQueue_keeps | apply issueRead_keeps | (apply Keeps.each; intro _ _ _) | split | intro _)

theorem evictSlot_keeps (c : Nat) (q : Nat) (s : State) (i : W32) (_ : F.queues = true) (_ : F.jobs = true) (hK : Keeps F s0 s) : Keeps F s0 (evictSlot c q s i) := by
  unfold evictSlot
  try dsimp only
  repeat' (with_reducible first | assumption | apply Keeps.ite | apply Keeps.ite2 | apply Keeps.ite1 | apply Keeps.ite22 | apply Keeps.ite21 | apply evictOne_keeps | split)

theorem opDescriptorPrefetch_keeps (c : Nat) (q : Nat) (evict : List W32) (s : State) (_ : F.hi = true) (_ : F.dma = true) (_ : F.queues = true) (_ : F.jobs = true) (_ : F.out = true) (hK : Keeps F s0 s) : Keeps F s0 (opDescriptorPrefetch c q evict s) := by
  unfold opDescriptorPrefetch
  try dsimp only
  repeat' (with_reducible first | assumption | apply Keeps.ite | apply Keeps.ite2 | apply Keeps.ite1 | apply Keeps.ite22 | apply Keeps.ite21 | apply fetchSlot_keeps | apply evictSlot_keeps | (apply Keeps.each; intro _ _ _) | split | intro _)

theorem slotArrives_keeps (s : State) (c : Nat) (q : Nat) (i : W32) (data : Option Bytes) (_ : F.queues = true) (hK : Keeps F s0 s) : Keeps F s0 (slotArrives s c q i data) := by
  unfold slotArrives
  try dsimp only
  repeat' (with_reducible first | assumption | apply Keeps.ite | apply Keeps.ite2 | apply Keeps.ite1 | apply Keeps.ite22 | apply Keeps.ite21 | apply modQueue_keeps | split | intro _)

theorem mirrorArrives_keeps (s : State) (c : Nat) (q : Nat) (data : Option Bytes) (_ : F.queues = true) (hK : Keeps F s0 s) : Keeps F s0 (mirrorArrives s c q data) := by
  unfold mirrorArrives
  try dsimp only
  repeat' (with_reducible first | assumption | apply Keeps.ite | apply Keeps.ite2 | apply Keeps.ite1 | apply Keeps.ite22 | apply Keeps.ite21 | apply modQueue_keeps | split | intro _)

theorem newJob_keeps (s : State) (c : Nat) (src : JobSrc) (clear : Bool) (peer : Bool) (o : Op) (d : Bytes) (arr : Nat) (_ : F.jobs = true) (_ : F.nextJob = true) (hK : Keeps F s0 s) : Keeps F s0 (newJob s c src clear peer o d arr).2 := by
  unfold newJob
  try dsimp only
  repeat' (with_reducible first | assumption | apply Keeps.ite | apply Keeps.ite2 | apply Keeps.ite1 | apply Keeps.ite22 | apply Keeps.ite21 | (fail_if_no_progress refine Keeps.set_jobs_nextJob ‹_› ‹_› ?_ (by first | exact fun h => h | exact tblWf_set _ _ _ _ | exact tblWf_erase _ _ _ | exact tblWf_map _ _ _ | exact tblWf_drop _ _ _ | with_unfolding_all exact tblWf_drop _ _ _ | exact (tblWf_put _ _ _ _ · (by simp)))) | split | intro _)

theorem fetchEcc_keeps (s : State) (c : Nat) (q : Nat) (e : FetchEcc) (_ : F.aon = true) (_ : F.ev = true) (_ : F.dma = true) (_ : F.fns = true) (_ : F.tenants = true) (_ : F.queues = true) (_ : F.combs = true) (hK : Keeps F s0 s) : Keeps F s0 (fetchEcc s c q e) := by
  unfold fetchEcc
  try dsimp only
  repeat' (with_reducible first | assumption | apply Keeps.ite | apply Keeps.ite2 | apply Keeps.ite1 | apply Keeps.ite22 | apply Keeps.ite21 | apply modQueue_keeps | apply sticky_keeps | apply eccCorrected_keeps | apply stopQueue_keeps | split | intro _)

theorem opDescriptorFetchDone_keeps (c : Nat) (q : Nat) (ecc : FetchEcc) (s : State) (_ : F.aon = true) (_ : F.ev = true) (_ : F.dma = true) (_ : F.fns = true) (_ : F.tenants = true) (_ : F.queues = true) (_ : F.combs = true) (_ : F.jobs = true) (_ : F.nextJob = true) (hK : Keeps F s0 s) : Keeps F s0 (opDescriptorFetchDone c q ecc s) := by
  unfold opDescriptorFetchDone
  try dsimp only
  repeat' (with_reducible first | assumption | apply Keeps.ite | apply Keeps.ite2 | apply Keeps.ite1 | apply Keeps.ite22 | apply Keeps.ite21 | apply modQueue_keeps | apply stopQueue_keeps | apply freezeQueue_keeps | apply newJob_keeps | apply fetchEcc_keeps | (apply Keeps.ofEq2 ‹_›) | split | intro _)

theorem cmdResult_keeps (s : State) (c : Nat) (q : Nat) (r : Nat) (_ : F.queues = true) (hK : Keeps F s0 s) : Keeps F s0 (cmdResult s c q r) := by
  unfold cmdResult
  try dsimp only
  repeat' (with_reducible first | assumption | apply Keeps.ite | apply Keeps.ite2 | apply Keeps.ite1 | apply Keeps.ite22 | apply Keeps.ite21 | apply modQueue_keeps | split | intro _)

theorem doInvalidate_keeps (s : State) (c : Nat) (q : Nat) (start : W32) (n : Nat) (_ : F.dma = true) (_ : F.queues = true) (_ : F.jobs = true) (hK : Keeps F s0 s) : Keeps F s0 (doInvalidate s c q start n) := by
  unfold doInvalidate
  try dsimp only
  repeat' (with_reducible first | assumption | apply Keeps.ite | apply Keeps.ite2 | apply Keeps.ite1 | apply Keeps.ite22 | apply Keeps.ite21 | apply modQueue_keeps | apply orphanReads_keeps | apply uncheck_keeps | split | intro _)

theorem doEnable_keeps (s : State) (c : Nat) (q : Nat) (_ : F.queues = true) (hK : Keeps F s0 s) : Keeps F s0 (doEnable s c q) := by
  unfold doEnable
  try dsimp only
  repeat' (with_reducible first | assumption | apply Keeps.ite | apply Keeps.ite2 | apply Keeps.ite1 | apply Keeps.ite22 | apply Keeps.ite21 | apply modQueue_keeps | split | intro _)

theorem doReset_keeps (s : State) (c : Nat) (q : Nat) (_ : F.dma = true) (_ : F.queues = true) (_ : F.jobs = true) (hK : Keeps F s0 s) : Keeps F s0 (doReset s c q) := by
  unfold doReset
  try dsimp only
  repeat' (with_reducible first | assumption | apply Keeps.ite | apply Keeps.ite2 | apply Keeps.ite1 | apply Keeps.ite22 | apply Keeps.ite21 | apply modQueue_keeps | apply dropCopies_keeps | apply uncheck_keeps | split | intro _)

theorem qCmd_keeps (s : State) (c : Nat) (q : Nat) (code : Nat) (gen : BitVec 11) (count : Nat) (start : W32) (via : CmdVia) (_ : F.dma = true) (_ : F.queues = true) (_ : F.jobs = true) (hK : Keeps F s0 s) : Keeps F s0 (qCmd s c q code gen count start via) := by
  unfold qCmd
  try dsimp only
  repeat' (with_reducible first | assumption | apply Keeps.ite | apply Keeps.ite2 | apply Keeps.ite1 | apply Keeps.ite22 | apply Keeps.ite21 | apply modQueue_keeps | apply cmdResult_keeps | apply doInvalidate_keeps | apply doEnable_keeps | apply doReset_keeps | split | intro _)

theorem opQCmdReserved_keeps (client : Nat) (q : Nat) (word : W64) (via : CmdVia) (s : State) (_ : F.dma = true) (_ : F.queues = true) (_ : F.jobs = true) (hK : Keeps F s0 s) : Keeps F s0 (opQCmdReserved client q word via s) := by
  unfold opQCmdReserved
  try dsimp only
  repeat' (with_reducible first | assumption | apply Keeps.ite | apply Keeps.ite2 | apply Keeps.ite1 | apply Keeps.ite22 | apply Keeps.ite21 | apply qCmd_keeps | split)

theorem opPauseAck_keeps (c : Nat) (q : Nat) (s : State) (_ : F.queues = true) (hK : Keeps F s0 s) : Keeps F s0 (opPauseAck c q s) := by
  unfold opPauseAck
  try dsimp only
  repeat' (with_reducible first | assumption | apply Keeps.ite | apply Keeps.ite2 | apply Keeps.ite1 | apply Keeps.ite22 | apply Keeps.ite21 | apply modQueue_keeps | split | intro _)

theorem opResetAck_keeps (c : Nat) (q : Nat) (s : State) (_ : F.dma = true) (_ : F.peer = true) (_ : F.tenants = true) (_ : F.queues = true) (_ : F.jobs = true) (hK : Keeps F s0 s) : Keeps F s0 (opResetAck c q s) := by
  unfold opResetAck
  try dsimp only
  repeat' (with_reducible first | assumption | apply Keeps.ite | apply Keeps.ite2 | apply Keeps.ite1 | apply Keeps.ite22 | apply Keeps.ite21 | apply modQueue_keeps | apply dropCopies_keeps | apply releaseQueue_keeps | split | intro _)

theorem opInvalidateAck_keeps (c : Nat) (q : Nat) (s : State) (_ : F.queues = true) (hK : Keeps F s0 s) : Keeps F s0 (opInvalidateAck c q s) := by
  unfold opInvalidateAck
  try dsimp only
  repeat' (with_reducible first | assumption | apply Keeps.ite | apply Keeps.ite2 | apply Keeps.ite1 | apply Keeps.ite22 | apply Keeps.ite21 | apply modQueue_keeps | split | intro _)

theorem opRestartAck_keeps (c : Nat) (q : Nat) (s : State) (_ : F.queues = true) (hK : Keeps F s0 s) : Keeps F s0 (opRestartAck c q s) := by
  unfold opRestartAck
  try dsimp only
  repeat' (with_reducible first | assumption | apply Keeps.ite | apply Keeps.ite2 | apply Keeps.ite1 | apply Keeps.ite22 | apply Keeps.ite21 | apply modQueue_keeps | split | intro _)

theorem opQueueDrainEnd_keeps (c : Nat) (q : Nat) (s : State) (_ : F.dma = true) (_ : F.peer = true) (_ : F.tenants = true) (_ : F.queues = true) (_ : F.jobs = true) (hK : Keeps F s0 s) : Keeps F s0 (opQueueDrainEnd c q s) := by
  unfold opQueueDrainEnd
  try dsimp only
  repeat' (with_reducible first | assumption | apply Keeps.ite | apply Keeps.ite2 | apply Keeps.ite1 | apply Keeps.ite22 | apply Keeps.ite21 | apply releaseQueue_keeps | split)

theorem popEnded_keeps (c q n : Nat) (s : State) (_ : F.queues = true) (_ : F.jobs = true) (hK : Keeps F s0 s) : Keeps F s0 (popEnded c q n s) := by
  induction n generalizing s with
  | zero => exact hK
  | succ n ih =>
    rw [popEnded]
    split
    · exact hK
    dsimp only
    repeat' (with_reducible first | assumption | apply ih | apply modQueue_keeps | apply dropJob_keeps | split)


theorem opHeadAdvance_keeps (c : Nat) (q : Nat) (s : State) (_ : F.queues = true) (_ : F.jobs = true) (hK : Keeps F s0 s) : Keeps F s0 (opHeadAdvance c q s) := by
  unfold opHeadAdvance
  try dsimp only
  repeat' (with_reducible first | assumption | apply Keeps.ite | apply Keeps.ite2 | apply Keeps.ite1 | apply Keeps.ite22 | apply Keeps.ite21 | apply modQueue_keeps | apply popEnded_keeps | split)

theorem queueSignal_keeps (s : State) (c : Nat) (q : Nat) (irq : Bool) (chg : Bool) (_ : F.peer = true) (_ : F.fns = true) (_ : F.tenants = true) (hK : Keeps F s0 s) : Keeps F s0 (queueSignal s c q irq chg) := by
  unfold queueSignal
  try dsimp only
  repeat' (with_reducible first | assumption | apply Keeps.ite | apply Keeps.ite2 | apply Keeps.ite1 | apply Keeps.ite22 | apply Keeps.ite21 | apply signalVec_keeps | apply noticeFor_keeps | split)

theorem opHeadMirrorWrite_keeps (c : Nat) (q0 : Nat) (s : State) (_ : F.hi = true) (_ : F.dma = true) (_ : F.peer = true) (_ : F.fns = true) (_ : F.tenants = true) (_ : F.queues = true) (_ : F.out = true) (hK : Keeps F s0 s) : Keeps F s0 (opHeadMirrorWrite c q0 s) := by
  unfold opHeadMirrorWrite
  try dsimp only
  repeat' (with_reducible first | assumption | apply Keeps.ite | apply Keeps.ite2 | apply Keeps.ite1 | apply Keeps.ite22 | apply Keeps.ite21 | apply setQueue_keeps | apply modQueue_keeps | apply recordWrite_keeps | apply queueSignal_keeps | (apply Keeps.ofEq2 ‹_›) | split | intro _)

theorem crOwe_keeps (s : State) (c : Nat) (q : Nat) (_ : F.queues = true) (hK : Keeps F s0 s) : Keeps F s0 (crOwe s c q) := by
  unfold crOwe
  try dsimp only
  repeat' (with_reducible first | assumption | apply Keeps.ite | apply Keeps.ite2 | apply Keeps.ite1 | apply Keeps.ite22 | apply Keeps.ite21 | apply modQueue_keeps | split | intro _)

theorem opCompletionRecordWrite_keeps (c : Nat) (q0 : Nat) (s : State) (_ : F.hi = true) (_ : F.dma = true) (_ : F.fns = true) (_ : F.tenants = true) (_ : F.queues = true) (_ : F.rings = true) (_ : F.out = true) (hK : Keeps F s0 s) : Keeps F s0 (opCompletionRecordWrite c q0 s) := by
  unfold opCompletionRecordWrite
  try dsimp only
  repeat' (with_reducible first | assumption | apply Keeps.ite | apply Keeps.ite2 | apply Keeps.ite1 | apply Keeps.ite22 | apply Keeps.ite21 | apply modRing_keeps | apply signalVec_keeps | apply writeCr_keeps | apply replayRing_keeps | apply crOwe_keeps | split | intro _)

theorem opTnCrConsWrite_keeps (c : Nat) (v : W32) (s : State) (_ : F.hi = true) (_ : F.dma = true) (_ : F.fns = true) (_ : F.tenants = true) (_ : F.queues = true) (_ : F.rings = true) (_ : F.out = true) (hK : Keeps F s0 s) : Keeps F s0 (opTnCrConsWrite c v s) := by
  unfold opTnCrConsWrite
  try dsimp only
  repeat' (with_reducible first | assumption | apply Keeps.ite | apply Keeps.ite2 | apply Keeps.ite1 | apply Keeps.ite22 | apply Keeps.ite21 | apply modRing_keeps | apply replayRing_keeps | split | intro _)

/-! ## Logs -/

theorem logTry_keeps (s : State) (c : Nat) (r : LogRing) (b : Bytes) (_ : F.hi = true) (_ : F.dma = true) (_ : F.tenants = true) (_ : F.out = true) (hK : Keeps F s0 s) : Keeps F s0 (logTry s c r b).2.1 := by
  unfold logTry
  try dsimp only
  repeat' (with_reducible first | assumption | apply Keeps.ite | apply Keeps.ite2 | apply Keeps.ite1 | apply Keeps.ite22 | apply Keeps.ite21 | apply bodyWrite_keeps | split)

theorem logDrain_keeps (c : Nat) (sig : State → State) (l : List Bytes) (s : State) (r : LogRing) (hs : ∀ x, Keeps F s0 x → Keeps F s0 (sig x)) (_ : F.hi = true) (_ : F.dma = true) (_ : F.tenants = true) (_ : F.out = true) (hK : Keeps F s0 s) : Keeps F s0 (logDrain c sig l s r).1 := by
  induction l generalizing s r with
  | nil => exact hK
  | cons b l ih =>
    rw [logDrain]
    have hw : Keeps F s0 (logTry s c r b).2.1 := by apply logTry_keeps <;> assumption
    split
    all_goals
      rename_i e
      rw [e] at hw
      first | exact hw | exact ih _ _ (hs _ hw) | exact ih _ _ hw


theorem rlogSignal_keeps (c : Nat) (s : State) (_ : F.peer = true) (_ : F.fns = true) (_ : F.tenants = true) (hK : Keeps F s0 s) : Keeps F s0 (rlogSignal c s) := by
  unfold rlogSignal
  try dsimp only
  repeat' (with_reducible first | assumption | apply Keeps.ite | apply Keeps.ite2 | apply Keeps.ite1 | apply Keeps.ite22 | apply Keeps.ite21 | apply signalVec_keeps | apply noticeFor_keeps | split)

theorem rlogResume_keeps (s : State) (c : Nat) (_ : F.hi = true) (_ : F.dma = true) (_ : F.peer = true) (_ : F.fns = true) (_ : F.tenants = true) (_ : F.out = true) (hK : Keeps F s0 s) : Keeps F s0 (rlogResume s c) := by
  unfold rlogResume
  try dsimp only
  repeat' (with_reducible first | assumption | (intro _ _) | apply Keeps.ite | apply Keeps.ite2 | apply Keeps.ite1 | apply Keeps.ite22 | apply Keeps.ite21 | apply modTenant_keeps | apply logDrain_keeps | apply rlogSignal_keeps | split | intro _)

theorem rlogPut_keeps (s : State) (c : Nat) (b : Bytes) (_ : F.hi = true) (_ : F.dma = true) (_ : F.peer = true) (_ : F.fns = true) (_ : F.tenants = true) (_ : F.out = true) (hK : Keeps F s0 s) : Keeps F s0 (rlogPut s c b) := by
  unfold rlogPut
  try dsimp only
  repeat' (with_reducible first | assumption | apply Keeps.ite | apply Keeps.ite2 | apply Keeps.ite1 | apply Keeps.ite22 | apply Keeps.ite21 | apply modTenant_keeps | apply rlogResume_keeps | split | intro _)

theorem mlogResume_keeps (s : State) (_ : F.hi = true) (_ : F.dma = true) (_ : F.wg = true) (_ : F.fns = true) (_ : F.tenants = true) (_ : F.out = true) (hK : Keeps F s0 s) : Keeps F s0 (mlogResume s) := by
  unfold mlogResume
  try dsimp only
  repeat' (with_reducible first | assumption | (intro _ _) | apply Keeps.ite | apply Keeps.ite2 | apply Keeps.ite1 | apply Keeps.ite22 | apply Keeps.ite21 | apply signalVec_keeps | apply logDrain_keeps | (fail_if_no_progress refine Keeps.set_wg ‹_› ?_) | split | intro _)

theorem mlogPut_keeps (s : State) (b : Bytes) (_ : F.aon = true) (_ : F.ev = true) (_ : F.hi = true) (_ : F.dma = true) (_ : F.wg = true) (_ : F.fns = true) (_ : F.tenants = true) (_ : F.combs = true) (_ : F.out = true) (hK : Keeps F s0 s) : Keeps F s0 (mlogPut s b) := by
  unfold mlogPut
  try dsimp only
  repeat' (with_reducible first | assumption | apply Keeps.ite | apply Keeps.ite2 | apply Keeps.ite1 | apply Keeps.ite22 | apply Keeps.ite21 | apply sticky_keeps | apply mlogResume_keeps | (fail_if_no_progress refine Keeps.set_wg ‹_› ?_) | split)

/-! ## Stages -/

theorem holdCtx_keeps (s : State) (id : Nat) (o : Op) (gen : BitVec 16) (nonce : Option Bytes) (_ : F.ev = true) (_ : F.sch = true) (_ : F.fns = true) (_ : F.tenants = true) (_ : F.ctxs = true) (_ : F.combs = true) (_ : F.jobs = true) (hK : Keeps F s0 s) : Keeps F s0 (holdCtx s id o gen nonce) := by
  unfold holdCtx
  try dsimp only
  repeat' (with_reducible first | assumption | apply Keeps.ite | apply Keeps.ite2 | apply Keeps.ite1 | apply Keeps.ite22 | apply Keeps.ite21 | apply modCtx_keeps | apply modJob_keeps | apply combCount1_keeps | apply cachePut_keeps | split | intro _)

theorem passFive_keeps (s : State) (id : Nat) (_ : F.hi = true) (_ : F.dma = true) (_ : F.peer = true) (_ : F.ks = true) (_ : F.jobs = true) (_ : F.out = true) (hK : Keeps F s0 s) : Keeps F s0 (passFive s id) := by
  unfold passFive
  try dsimp only
  repeat' (with_reducible first | assumption | apply Keeps.ite | apply Keeps.ite2 | apply Keeps.ite1 | apply Keeps.ite22 | apply Keeps.ite21 | apply modJob_keeps | apply startRun_keeps | split | intro _)

theorem tagEcc_keeps (s : State) (c : Nat) (i : Nat) (hit : Bool) (_ : F.aon = true) (_ : F.ev = true) (_ : F.fns = true) (_ : F.tenants = true) (_ : F.slots = true) (_ : F.combs = true) (hK : Keeps F s0 s) : Keeps F s0 (tagEcc s c i hit) := by
  unfold tagEcc
  try dsimp only
  repeat' (with_reducible first | assumption | apply Keeps.ite | apply Keeps.ite2 | apply Keeps.ite1 | apply Keeps.ite22 | apply Keeps.ite21 | apply modSlot_keeps | apply sticky_keeps | split | intro _)

theorem payloadEcc_keeps (s : State) (pos : Nat) (hit : Bool) (_ : F.aon = true) (_ : F.ev = true) (_ : F.fns = true) (_ : F.tenants = true) (_ : F.slots = true) (_ : F.combs = true) (hK : Keeps F s0 s) : Keeps F s0 (payloadEcc s pos hit) := by
  unfold payloadEcc
  try dsimp only
  repeat' (with_reducible first | assumption | apply Keeps.ite | apply Keeps.ite2 | apply Keeps.ite1 | apply Keeps.ite22 | apply Keeps.ite21 | apply modSlot_keeps | apply sticky_keeps | split | intro _)

theorem deliver_keeps (s : State) (id : Nat) (pos : Nat) (_ : F.slots = true) (_ : F.jobs = true) (_ : F.freeN = true) (hK : Keeps F s0 s) : Keeps F s0 (deliver s id pos) := by
  unfold deliver
  try dsimp only
  repeat' (with_reducible first | assumption | apply Keeps.ite | apply Keeps.ite2 | apply Keeps.ite1 | apply Keeps.ite22 | apply Keeps.ite21 | apply modJob_keeps | apply takeRef_keeps | (fail_if_no_progress refine Keeps.set_freeN ‹_› ?_) | split | intro _)

theorem pullTarget_keeps (s : State) (id : Nat) (ecc : KeyEcc) (_ : F.aon = true) (_ : F.ev = true) (_ : F.hi = true) (_ : F.dma = true) (_ : F.peer = true) (_ : F.ks = true) (_ : F.fns = true) (_ : F.tenants = true) (_ : F.slots = true) (_ : F.combs = true) (_ : F.jobs = true) (_ : F.out = true) (_ : F.freeN = true) (hK : Keeps F s0 s) : Keeps F s0 (pullTarget s id ecc) := by
  unfold pullTarget
  try dsimp only
  repeat' (with_reducible first | assumption | apply Keeps.ite | apply Keeps.ite2 | apply Keeps.ite1 | apply Keeps.ite22 | apply Keeps.ite21 | apply modJob_keeps | apply takeRef_keeps | apply fail5_keeps | apply passFive_keeps | apply tagEcc_keeps | apply payloadEcc_keeps | (fail_if_no_progress refine Keeps.set_freeN ‹_› ?_) | split | intro _)

theorem finishPull_keeps (s : State) (id : Nat) (o : Op) (pos : Nat) (ecc : KeyEcc) (nonce : Option Bytes) (_ : F.aon = true) (_ : F.ev = true) (_ : F.hi = true) (_ : F.dma = true) (_ : F.peer = true) (_ : F.ks = true) (_ : F.sch = true) (_ : F.fns = true) (_ : F.tenants = true) (_ : F.ctxs = true) (_ : F.slots = true) (_ : F.combs = true) (_ : F.jobs = true) (_ : F.out = true) (_ : F.freeN = true) (hK : Keeps F s0 s) : Keeps F s0 (finishPull s id o pos ecc nonce) := by
  unfold finishPull
  try dsimp only
  repeat' (with_reducible first | assumption | apply Keeps.ite | apply Keeps.ite2 | apply Keeps.ite1 | apply Keeps.ite22 | apply Keeps.ite21 | apply modJob_keeps | apply reserveRun_keeps | apply fail5_keeps | apply holdCtx_keeps | apply passFive_keeps | apply payloadEcc_keeps | apply deliver_keeps | apply pullTarget_keeps | split | intro _)

theorem pullKey_keeps (s : State) (id : Nat) (o : Op) (ecc : KeyEcc) (_ : F.aon = true) (_ : F.ev = true) (_ : F.hi = true) (_ : F.dma = true) (_ : F.peer = true) (_ : F.ks = true) (_ : F.sch = true) (_ : F.fns = true) (_ : F.tenants = true) (_ : F.ctxs = true) (_ : F.slots = true) (_ : F.combs = true) (_ : F.jobs = true) (_ : F.out = true) (_ : F.freeN = true) (hK : Keeps F s0 s) : Keeps F s0 (pullKey s id o ecc) := by
  unfold pullKey
  try dsimp only
  repeat' (with_reducible first | assumption | apply Keeps.ite | apply Keeps.ite2 | apply Keeps.ite1 | apply Keeps.ite22 | apply Keeps.ite21 | apply takeNonce_keeps | apply fail5_keeps | apply tagEcc_keeps | apply finishPull_keeps | (apply Keeps.ofEq2 ‹_›) | split)

theorem pullAgain_keeps (s : State) (id : Nat) (ecc : KeyEcc) (_ : F.aon = true) (_ : F.ev = true) (_ : F.dma = true) (_ : F.ks = true) (_ : F.fns = true) (_ : F.tenants = true) (_ : F.slots = true) (_ : F.combs = true) (_ : F.jobs = true) (_ : F.freeN = true) (hK : Keeps F s0 s) : Keeps F s0 (pullAgain s id ecc) := by
  unfold pullAgain
  try dsimp only
  repeat' (with_reducible first | assumption | apply Keeps.ite | apply Keeps.ite2 | apply Keeps.ite1 | apply Keeps.ite22 | apply Keeps.ite21 | apply modJob_keeps | apply fail5_keeps | apply tagEcc_keeps | apply payloadEcc_keeps | (fail_if_no_progress refine Keeps.set_freeN ‹_› ?_) | split | intro _)

theorem opKeyPull_keeps (id : Nat) (ecc : KeyEcc) (s : State) (_ : F.aon = true) (_ : F.ev = true) (_ : F.hi = true) (_ : F.dma = true) (_ : F.peer = true) (_ : F.ks = true) (_ : F.sch = true) (_ : F.fns = true) (_ : F.tenants = true) (_ : F.ctxs = true) (_ : F.slots = true) (_ : F.combs = true) (_ : F.jobs = true) (_ : F.out = true) (_ : F.freeN = true) (hK : Keeps F s0 s) : Keeps F s0 (opKeyPull id ecc s) := by
  unfold opKeyPull
  try dsimp only
  repeat' (with_reducible first | assumption | apply Keeps.ite | apply Keeps.ite2 | apply Keeps.ite1 | apply Keeps.ite22 | apply Keeps.ite21 | apply eccCorrected_keeps | apply fail5_keeps | apply holdCtx_keeps | apply passFive_keeps | apply pullTarget_keeps | apply pullKey_keeps | apply pullAgain_keeps | split | intro _)

theorem opNonceReservationWriteDone_keeps (c : Nat) (i : Nat) (s : State) (_ : F.store = true) (_ : F.slots = true) (hK : Keeps F s0 s) : Keeps F s0 (opNonceReservationWriteDone c i s) := by
  unfold opNonceReservationWriteDone
  try dsimp only
  repeat' (with_reducible first | assumption | apply Keeps.ite | apply Keeps.ite2 | apply Keeps.ite1 | apply Keeps.ite22 | apply Keeps.ite21 | apply putRes_keeps | split)

theorem sourceFails_keeps (s : State) (id : Nat) (st : Status) (det : BitVec 8) (_ : F.dma = true) (_ : F.ks = true) (_ : F.jobs = true) (_ : F.freeN = true) (hK : Keeps F s0 s) : Keeps F s0 (sourceFails s id st det) := by
  unfold sourceFails
  try dsimp only
  repeat' (with_reducible first | assumption | apply Keeps.ite | apply Keeps.ite2 | apply Keeps.ite1 | apply Keeps.ite22 | apply Keeps.ite21 | apply modJob_keeps | apply fail6_keeps | (fail_if_no_progress refine Keeps.set_freeN ‹_› ?_) | split | intro _)

theorem readFails_keeps (s : State) (r : Req) (st : Status) (det : BitVec 8) (_ : F.dma = true) (_ : F.ks = true) (_ : F.queues = true) (_ : F.jobs = true) (_ : F.freeN = true) (hK : Keeps F s0 s) : Keeps F s0 (readFails s r st det) := by
  unfold readFails
  try dsimp only
  repeat' (with_reducible first | assumption | apply Keeps.ite | apply Keeps.ite2 | apply Keeps.ite1 | apply Keeps.ite22 | apply Keeps.ite21 | apply slotArrives_keeps | apply mirrorArrives_keeps | apply sourceFails_keeps | (fail_if_no_progress refine Keeps.set_dma ‹_› ?_ (by first | exact fun h => h | exact tblWf_set _ _ _ _ | exact tblWf_erase _ _ _ | exact tblWf_map _ _ _ | exact tblWf_drop _ _ _ | with_unfolding_all exact tblWf_drop _ _ _ | exact (tblWf_put _ _ _ _ · (by simp)))) | split)

theorem readDone_keeps (s : State) (r : Req) (_ : F.hi = true) (_ : F.dma = true) (_ : F.ks = true) (_ : F.queues = true) (_ : F.jobs = true) (_ : F.out = true) (hK : Keeps F s0 s) : Keeps F s0 (readDone s r) := by
  unfold readDone
  try dsimp only
  repeat' (with_reducible first | assumption | apply Keeps.ite | apply Keeps.ite2 | apply Keeps.ite1 | apply Keeps.ite22 | apply Keeps.ite21 | apply entryArrives_keeps | apply sourceArrives_keeps | apply slotArrives_keeps | apply mirrorArrives_keeps | split)

theorem retryRead_keeps (s : State) (r : Req) (_ : F.hi = true) (_ : F.dma = true) (_ : F.ks = true) (_ : F.queues = true) (_ : F.jobs = true) (_ : F.out = true) (_ : F.freeN = true) (hK : Keeps F s0 s) : Keeps F s0 (retryRead s r) := by
  unfold retryRead
  try dsimp only
  repeat' (with_reducible first | assumption | apply Keeps.ite | apply Keeps.ite2 | apply Keeps.ite1 | apply Keeps.ite22 | apply Keeps.ite21 | apply waitRead_keeps | apply issueRead_keeps | apply readFails_keeps | (fail_if_no_progress refine Keeps.set_dma ‹_› ?_ (by first | exact fun h => h | exact tblWf_set _ _ _ _ | exact tblWf_erase _ _ _ | exact tblWf_map _ _ _ | exact tblWf_drop _ _ _ | with_unfolding_all exact tblWf_drop _ _ _ | exact (tblWf_put _ _ _ _ · (by simp)))) | split)

theorem retryReads_keeps (s : State) (_ : F.hi = true) (_ : F.dma = true) (_ : F.ks = true) (_ : F.queues = true) (_ : F.jobs = true) (_ : F.out = true) (_ : F.freeN = true) (hK : Keeps F s0 s) : Keeps F s0 (retryReads s) := by
  unfold retryReads
  try dsimp only
  repeat' (with_reducible first | assumption | apply Keeps.ite | apply Keeps.ite2 | apply Keeps.ite1 | apply Keeps.ite22 | apply Keeps.ite21 | apply retryRead_keeps | (apply Keeps.each; intro _ _ _) | split | intro _)

theorem unexpected_keeps (s : State) (fn : Nat) (_ : F.aon = true) (_ : F.ev = true) (_ : F.hi = true) (_ : F.fns = true) (_ : F.tenants = true) (_ : F.combs = true) (hK : Keeps F s0 s) : Keeps F s0 (unexpected s fn) := by
  unfold unexpected
  try dsimp only
  repeat' (with_reducible first | assumption | apply Keeps.ite | apply Keeps.ite2 | apply Keeps.ite1 | apply Keeps.ite22 | apply Keeps.ite21 | apply modFunc_keeps | apply sticky_keeps | (fail_if_no_progress refine Keeps.set_hi ‹_› ?_) | split | intro _)

theorem opReadCompletion_keeps (tag : Nat) (status : CplStatus) (data : Bytes) (s : State) (_ : F.aon = true) (_ : F.ev = true) (_ : F.hi = true) (_ : F.dma = true) (_ : F.ks = true) (_ : F.fns = true) (_ : F.tenants = true) (_ : F.queues = true) (_ : F.combs = true) (_ : F.jobs = true) (_ : F.out = true) (_ : F.freeN = true) (hK : Keeps F s0 s) : Keeps F s0 (opReadCompletion tag status data s) := by
  unfold opReadCompletion
  try dsimp only
  repeat' (with_reducible first | assumption | apply Keeps.ite | apply Keeps.ite2 | apply Keeps.ite1 | apply Keeps.ite22 | apply Keeps.ite21 | apply dropRead_keeps | apply cplBad_keeps | apply cplPoisoned_keeps | apply readFails_keeps | apply readDone_keeps | apply retryReads_keeps | apply unexpected_keeps | (fail_if_no_progress refine Keeps.set_dma ‹_› ?_ (by first | exact fun h => h | exact tblWf_set _ _ _ _ | exact tblWf_erase _ _ _ | exact tblWf_map _ _ _ | exact tblWf_drop _ _ _ | with_unfolding_all exact tblWf_drop _ _ _ | exact (tblWf_put _ _ _ _ · (by simp)))) | split)

theorem opCompletionTimeout_keeps (tag : Nat) (s : State) (_ : F.aon = true) (_ : F.ev = true) (_ : F.hi = true) (_ : F.dma = true) (_ : F.ks = true) (_ : F.fns = true) (_ : F.tenants = true) (_ : F.queues = true) (_ : F.combs = true) (_ : F.jobs = true) (_ : F.out = true) (_ : F.freeN = true) (hK : Keeps F s0 s) : Keeps F s0 (opCompletionTimeout tag s) := by
  unfold opCompletionTimeout
  try dsimp only
  repeat' (with_reducible first | assumption | apply Keeps.ite | apply Keeps.ite2 | apply Keeps.ite1 | apply Keeps.ite22 | apply Keeps.ite21 | apply dropRead_keeps | apply timedOut_keeps | apply readFails_keeps | apply retryReads_keeps | split)

theorem xlateCached_keeps (s : State) (fn : Nat) (pasid : Option Nat) (page : Nat) (rd : Bool) (wr : Bool) (xlate : Nat) (_ : F.hi = true) (_ : F.dma = true) (_ : F.peer = true) (_ : F.wg = true) (_ : F.ks = true) (_ : F.fns = true) (_ : F.tenants = true) (_ : F.queues = true) (_ : F.jobs = true) (_ : F.out = true) (_ : F.freeN = true) (hK : Keeps F s0 s) : Keeps F s0 (xlateCached s fn pasid page rd wr xlate) := by
  unfold xlateCached
  try dsimp only
  repeat' (with_reducible first | assumption | apply Keeps.ite | apply Keeps.ite2 | apply Keeps.ite1 | apply Keeps.ite22 | apply Keeps.ite21 | apply rlogResume_keeps | apply mlogResume_keeps | apply readFails_keeps | (apply Keeps.each; intro _ _ _) | (fail_if_no_progress refine Keeps.set_dma ‹_› ?_ (by first | exact fun h => h | exact tblWf_set _ _ _ _ | exact tblWf_erase _ _ _ | exact tblWf_map _ _ _ | exact tblWf_drop _ _ _ | with_unfolding_all exact tblWf_drop _ _ _ | exact (tblWf_put _ _ _ _ · (by simp)))) | split | intro _)

theorem opAtsTranslationCompletion_keeps (fn : Nat) (pasid : Option Nat) (page : Nat) (rd : Bool) (wr : Bool) (xlate : Nat) (s : State) (_ : F.hi = true) (_ : F.dma = true) (_ : F.peer = true) (_ : F.wg = true) (_ : F.ks = true) (_ : F.fns = true) (_ : F.tenants = true) (_ : F.queues = true) (_ : F.jobs = true) (_ : F.out = true) (_ : F.freeN = true) (hK : Keeps F s0 s) : Keeps F s0 (opAtsTranslationCompletion fn pasid page rd wr xlate s) := by
  unfold opAtsTranslationCompletion
  try dsimp only
  repeat' (with_reducible first | assumption | apply Keeps.ite | apply Keeps.ite2 | apply Keeps.ite1 | apply Keeps.ite22 | apply Keeps.ite21 | apply dropRead_keeps | apply retryReads_keeps | apply xlateCached_keeps | (fail_if_no_progress refine Keeps.set_dma ‹_› ?_ (by first | exact fun h => h | exact tblWf_set _ _ _ _ | exact tblWf_erase _ _ _ | exact tblWf_map _ _ _ | exact tblWf_drop _ _ _ | with_unfolding_all exact tblWf_drop _ _ _ | exact (tblWf_put _ _ _ _ · (by simp)))) | split | intro _)

theorem opAtsInvalidationRequest_keeps (fn : Nat) (pasid : Option Nat) (page : Nat) (npages : Nat) (itag : Nat) (s : State) (_ : F.dma = true) (hK : Keeps F s0 s) : Keeps F s0 (opAtsInvalidationRequest fn pasid page npages itag s) := by
  unfold opAtsInvalidationRequest
  try dsimp only
  repeat' (with_reducible first | assumption | apply Keeps.ite | apply Keeps.ite2 | apply Keeps.ite1 | apply Keeps.ite22 | apply Keeps.ite21 | (fail_if_no_progress refine Keeps.set_dma ‹_› ?_ (by first | exact fun h => h | exact tblWf_set _ _ _ _ | exact tblWf_erase _ _ _ | exact tblWf_map _ _ _ | exact tblWf_drop _ _ _ | with_unfolding_all exact tblWf_drop _ _ _ | exact (tblWf_put _ _ _ _ · (by simp)))) | split | intro _)

theorem opAtsInvalidationDone_keeps (fn : Nat) (itag : Nat) (s : State) (_ : F.hi = true) (_ : F.dma = true) (_ : F.out = true) (hK : Keeps F s0 s) : Keeps F s0 (opAtsInvalidationDone fn itag s) := by
  unfold opAtsInvalidationDone
  try dsimp only
  repeat' (with_reducible first | assumption | apply Keeps.ite | apply Keeps.ite2 | apply Keeps.ite1 | apply Keeps.ite22 | apply Keeps.ite21 | apply emit_keeps | apply linkActive_keeps | (fail_if_no_progress refine Keeps.set_dma ‹_› ?_ (by first | exact fun h => h | exact tblWf_set _ _ _ _ | exact tblWf_erase _ _ _ | exact tblWf_map _ _ _ | exact tblWf_drop _ _ _ | with_unfolding_all exact tblWf_drop _ _ _ | exact (tblWf_put _ _ _ _ · (by simp)))) | split | intro _)

/-! ## Ends -/

theorem refreshPending_keeps (s : State) (_ : F.ev = true) (_ : F.wg = true) (_ : F.fns = true) (_ : F.tenants = true) (_ : F.jobs = true) (hK : Keeps F s0 s) : Keeps F s0 (refreshPending s) := by
  unfold refreshPending
  try dsimp only
  repeat' (with_reducible first | assumption | apply Keeps.ite | apply Keeps.ite2 | apply Keeps.ite1 | apply Keeps.ite22 | apply Keeps.ite21 | apply modJob_keeps | apply raiseHive_keeps | (apply Keeps.each; intro _ _ _) | (fail_if_no_progress refine Keeps.set_wg ‹_› ?_) | split | intro _)

theorem dropPacket_keeps (s : State) (id : Nat) (_ : F.peer = true) (hK : Keeps F s0 s) : Keeps F s0 (dropPacket s id) := by
  unfold dropPacket
  try dsimp only
  repeat' (with_reducible first | assumption | apply Keeps.ite | apply Keeps.ite2 | apply Keeps.ite1 | apply Keeps.ite22 | apply Keeps.ite21 | (fail_if_no_progress refine Keeps.set_peer ‹_› ?_ (by first | exact fun h => h | exact tblWf_set _ _ _ _ | exact tblWf_erase _ _ _ | exact tblWf_map _ _ _ | exact tblWf_drop _ _ _ | with_unfolding_all exact tblWf_drop _ _ _ | exact (tblWf_put _ _ _ _ · (by simp)))) | split)

theorem sendResult_keeps (s : State) (id : Nat) (_ : F.hi = true) (_ : F.dma = true) (_ : F.peer = true) (_ : F.tenants = true) (_ : F.jobs = true) (_ : F.out = true) (hK : Keeps F s0 s) : Keeps F s0 (sendResult s id) := by
  unfold sendResult
  try dsimp only
  repeat' (with_reducible first | assumption | apply Keeps.ite | apply Keeps.ite2 | apply Keeps.ite1 | apply Keeps.ite22 | apply Keeps.ite21 | apply modJob_keeps | apply recordWrite_keeps | apply dropPacket_keeps | (fail_if_no_progress refine Keeps.set_peer ‹_› ?_ (by first | exact fun h => h | exact tblWf_set _ _ _ _ | exact tblWf_erase _ _ _ | exact tblWf_map _ _ _ | exact tblWf_drop _ _ _ | with_unfolding_all exact tblWf_drop _ _ _ | exact (tblWf_put _ _ _ _ · (by simp)))) | (apply Keeps.ofEq2 ‹_›) | split | intro _)

theorem assignLeaf_keeps (s : State) (id : Nat) (_ : F.ev = true) (_ : F.hi = true) (_ : F.dma = true) (_ : F.peer = true) (_ : F.wg = true) (_ : F.fns = true) (_ : F.tenants = true) (_ : F.combs = true) (_ : F.jobs = true) (_ : F.out = true) (hK : Keeps F s0 s) : Keeps F s0 (assignLeaf s id) := by
  unfold assignLeaf
  try dsimp only
  repeat' (with_reducible first | assumption | apply Keeps.ite | apply Keeps.ite2 | apply Keeps.ite1 | apply Keeps.ite22 | apply Keeps.ite21 | apply modTenant_keeps | apply modJob_keeps | apply combCount1_keeps | apply sendResult_keeps | (fail_if_no_progress refine Keeps.set_wg ‹_› ?_) | split | intro _)

theorem endSeven_keeps (s : State) (id : Nat) (_ : F.ev = true) (_ : F.hi = true) (_ : F.dma = true) (_ : F.peer = true) (_ : F.wg = true) (_ : F.fns = true) (_ : F.tenants = true) (_ : F.jobs = true) (_ : F.out = true) (hK : Keeps F s0 s) : Keeps F s0 (endSeven s id) := by
  unfold endSeven
  try dsimp only
  repeat' (with_reducible first | assumption | apply Keeps.ite | apply Keeps.ite2 | apply Keeps.ite1 | apply Keeps.ite22 | apply Keeps.ite21 | apply modJob_keeps | apply refreshPending_keeps | apply sendResult_keeps | split | intro _)

theorem poisonAfter_keeps (s : State) (id : Nat) (n : Nat) (_ : F.dma = true) (_ : F.ks = true) (_ : F.jobs = true) (hK : Keeps F s0 s) : Keeps F s0 (poisonAfter s id n) := by
  unfold poisonAfter
  try dsimp only
  repeat' (with_reducible first | assumption | apply Keeps.ite | apply Keeps.ite2 | apply Keeps.ite1 | apply Keeps.ite22 | apply Keeps.ite21 | apply modJob_keeps | apply decide7_keeps | split | intro _)

theorem poisonJob_keeps (s : State) (id : Nat) (_ : F.dma = true) (_ : F.ks = true) (_ : F.jobs = true) (hK : Keeps F s0 s) : Keeps F s0 (poisonJob s id) := by
  unfold poisonJob
  try dsimp only
  repeat' (with_reducible first | assumption | apply Keeps.ite | apply Keeps.ite2 | apply Keeps.ite1 | apply Keeps.ite22 | apply Keeps.ite21 | apply poisonAfter_keeps | split)

theorem closeHeld_keeps (s : State) (id : Nat) (_ : F.ctxs = true) (_ : F.combs = true) (hK : Keeps F s0 s) : Keeps F s0 (closeHeld s id) := by
  unfold closeHeld
  try dsimp only
  repeat' (with_reducible first | assumption | apply Keeps.ite | apply Keeps.ite2 | apply Keeps.ite1 | apply Keeps.ite22 | apply Keeps.ite21 | apply closeCtx_keeps | split)

theorem jobEccAt_keeps (s : State) (id : Nat) (e : JobEcc) (_ : F.aon = true) (_ : F.ev = true) (_ : F.dma = true) (_ : F.ks = true) (_ : F.fns = true) (_ : F.tenants = true) (_ : F.ctxs = true) (_ : F.combs = true) (_ : F.jobs = true) (hK : Keeps F s0 s) : Keeps F s0 (jobEccAt s id e) := by
  unfold jobEccAt
  try dsimp only
  repeat' (with_reducible first | assumption | apply Keeps.ite | apply Keeps.ite2 | apply Keeps.ite1 | apply Keeps.ite22 | apply Keeps.ite21 | apply sticky_keeps | apply eccCorrected_keeps | apply combFault_keeps | apply poisonAfter_keeps | apply poisonJob_keeps | apply closeHeld_keeps | split)

theorem endCounts_keeps (s : State) (id : Nat) (_ : F.ev = true) (_ : F.fns = true) (_ : F.tenants = true) (_ : F.combs = true) (hK : Keeps F s0 s) : Keeps F s0 (endCounts s id) := by
  unfold endCounts
  try dsimp only
  repeat' (with_reducible first | assumption | apply Keeps.ite | apply Keeps.ite2 | apply Keeps.ite1 | apply Keeps.ite22 | apply Keeps.ite21 | apply modComb_keeps | apply raise_keeps | apply combCount1_keeps | split | intro _)

theorem peerDst_keeps (s : State) (id : Nat) (_ : F.jobs = true) (hK : Keeps F s0 s) : Keeps F s0 (peerDst s id) := by
  unfold peerDst
  try dsimp only
  repeat' (with_reducible first | assumption | apply Keeps.ite | apply Keeps.ite2 | apply Keeps.ite1 | apply Keeps.ite22 | apply Keeps.ite21 | apply modJob_keeps | split | intro _)

theorem handOver_keeps (s : State) (id : Nat) (_ : F.jobs = true) (hK : Keeps F s0 s) : Keeps F s0 (handOver s id) := by
  unfold handOver
  try dsimp only
  repeat' (with_reducible first | assumption | apply Keeps.ite | apply Keeps.ite2 | apply Keeps.ite1 | apply Keeps.ite22 | apply Keeps.ite21 | apply modJob_keeps | split | intro _)

theorem writeDst_keeps (s : State) (id : Nat) (_ : F.hi = true) (_ : F.dma = true) (_ : F.ks = true) (_ : F.jobs = true) (_ : F.out = true) (hK : Keeps F s0 s) : Keeps F s0 (writeDst s id).1 := by
  unfold writeDst
  try dsimp only
  repeat' (with_reducible first | assumption | apply Keeps.ite | apply Keeps.ite2 | apply Keeps.ite1 | apply Keeps.ite22 | apply Keeps.ite21 | apply modJob_keeps | apply decide7_keeps | apply writeOut_keeps | apply peerDst_keeps | apply handOver_keeps | (apply Keeps.ofEq2 ‹_›) | split | intro _)

theorem closeJob_keeps (s : State) (id : Nat) (overlapFree : Nat) (_ : F.ev = true) (_ : F.ks = true) (_ : F.sch = true) (_ : F.fns = true) (_ : F.tenants = true) (_ : F.ctxs = true) (_ : F.slots = true) (_ : F.combs = true) (_ : F.jobs = true) (_ : F.freeN = true) (hK : Keeps F s0 s) : Keeps F s0 (closeJob s id overlapFree) := by
  unfold closeJob
  try dsimp only
  repeat' (with_reducible first | assumption | apply Keeps.ite | apply Keeps.ite2 | apply Keeps.ite1 | apply Keeps.ite22 | apply Keeps.ite21 | apply modJob_keeps | apply chargeBusy_keeps | apply releaseJob_keeps | apply endCounts_keeps | split | intro _)

theorem opJobEnd_keeps (id : Nat) (overlapFree : Nat) (ecc : JobEcc) (s : State) (_ : F.aon = true) (_ : F.ev = true) (_ : F.hi = true) (_ : F.dma = true) (_ : F.peer = true) (_ : F.wg = true) (_ : F.ks = true) (_ : F.sch = true) (_ : F.fns = true) (_ : F.tenants = true) (_ : F.ctxs = true) (_ : F.slots = true) (_ : F.combs = true) (_ : F.jobs = true) (_ : F.out = true) (_ : F.freeN = true) (hK : Keeps F s0 s) : Keeps F s0 (opJobEnd id overlapFree ecc s) := by
  unfold opJobEnd
  try dsimp only
  repeat' (with_reducible first | assumption | apply Keeps.ite | apply Keeps.ite2 | apply Keeps.ite1 | apply Keeps.ite22 | apply Keeps.ite21 | apply leaveCell_keeps | apply drainCell_keeps | apply sendResult_keeps | apply endSeven_keeps | apply jobEccAt_keeps | apply writeDst_keeps | apply closeJob_keeps | split)

/-! ## Waggle -/

theorem noteBound_keeps (s : State) (_ : F.wg = true) (hK : Keeps F s0 s) : Keeps F s0 (noteBound s) := by
  unfold noteBound
  try dsimp only
  repeat' (with_reducible first | assumption | apply Keeps.ite | apply Keeps.ite2 | apply Keeps.ite1 | apply Keeps.ite22 | apply Keeps.ite21 | (fail_if_no_progress refine Keeps.set_wg ‹_› ?_) | split)

theorem setSync_keeps (s : State) (st : Nat) (_ : F.aon = true) (_ : F.ev = true) (_ : F.sync = true) (_ : F.wg = true) (_ : F.fns = true) (_ : F.tenants = true) (_ : F.combs = true) (hK : Keeps F s0 s) : Keeps F s0 (setSync s st) := by
  unfold setSync
  try dsimp only
  repeat' (with_reducible first | assumption | apply Keeps.ite | apply Keeps.ite2 | apply Keeps.ite1 | apply Keeps.ite22 | apply Keeps.ite21 | apply raiseHive_keeps | apply sticky_keeps | apply noteBound_keeps | (fail_if_no_progress refine Keeps.set_sync_wg ‹_› ‹_› ?_) | (fail_if_no_progress refine Keeps.set_sync ‹_› ?_) | split)

theorem setPps_keeps (s : State) (st : Nat) (_ : F.ev = true) (_ : F.sync = true) (_ : F.fns = true) (_ : F.tenants = true) (hK : Keeps F s0 s) : Keeps F s0 (setPps s st) := by
  unfold setPps
  try dsimp only
  repeat' (with_reducible first | assumption | apply Keeps.ite | apply Keeps.ite2 | apply Keeps.ite1 | apply Keeps.ite22 | apply Keeps.ite21 | apply raiseHive_keeps | (fail_if_no_progress refine Keeps.set_sync ‹_› ?_) | split)

theorem judgeSync_keeps (s : State) (_ : F.aon = true) (_ : F.ev = true) (_ : F.sync = true) (_ : F.wg = true) (_ : F.fns = true) (_ : F.tenants = true) (_ : F.combs = true) (hK : Keeps F s0 s) : Keeps F s0 (judgeSync s) := by
  unfold judgeSync
  try dsimp only
  repeat' (with_reducible first | assumption | apply Keeps.ite | apply Keeps.ite2 | apply Keeps.ite1 | apply Keeps.ite22 | apply Keeps.ite21 | apply setSync_keeps | split)

theorem applySync_keeps (s : State) (_ : F.ev = true) (_ : F.sync = true) (_ : F.fns = true) (_ : F.tenants = true) (hK : Keeps F s0 s) : Keeps F s0 (applySync s) := by
  unfold applySync
  try dsimp only
  repeat' (with_reducible first | assumption | apply Keeps.ite | apply Keeps.ite2 | apply Keeps.ite1 | apply Keeps.ite22 | apply Keeps.ite21 | apply setPps_keeps | (fail_if_no_progress refine Keeps.set_sync ‹_› ?_) | split)

theorem steer_keeps (s : State) (e : ℤ) (ps : ℤ) (_ : F.sync = true) (_ : F.wg = true) (hK : Keeps F s0 s) : Keeps F s0 (steer s e ps).1 := by
  unfold steer
  try dsimp only
  repeat' (with_reducible first | assumption | apply Keeps.ite | apply Keeps.ite2 | apply Keeps.ite1 | apply Keeps.ite22 | apply Keeps.ite21 | (fail_if_no_progress refine Keeps.set_sync_wg ‹_› ‹_› ?_) | (fail_if_no_progress refine Keeps.set_sync ‹_› ?_) | split | intro _)

theorem wordState_keeps (s : State) (src : Nat) (moved : Bool) (_ : F.aon = true) (_ : F.ev = true) (_ : F.sync = true) (_ : F.wg = true) (_ : F.fns = true) (_ : F.tenants = true) (_ : F.combs = true) (hK : Keeps F s0 s) : Keeps F s0 (wordState s src moved) := by
  unfold wordState
  try dsimp only
  repeat' (with_reducible first | assumption | apply Keeps.ite | apply Keeps.ite2 | apply Keeps.ite1 | apply Keeps.ite22 | apply Keeps.ite21 | apply setSync_keeps | apply judgeSync_keeps | split)

theorem useWord_keeps (s : State) (time : Nat) (src : Nat) (est : Nat) (_ : F.aon = true) (_ : F.ev = true) (_ : F.sync = true) (_ : F.wg = true) (_ : F.fns = true) (_ : F.tenants = true) (_ : F.combs = true) (hK : Keeps F s0 s) : Keeps F s0 (useWord s time src est) := by
  unfold useWord
  try dsimp only
  repeat' (with_reducible first | assumption | apply Keeps.ite | apply Keeps.ite2 | apply Keeps.ite1 | apply Keeps.ite22 | apply Keeps.ite21 | apply noteBound_keeps | apply applySync_keeps | apply steer_keeps | apply wordState_keeps | (fail_if_no_progress refine Keeps.set_sync_wg ‹_› ‹_› ?_) | split)

theorem opTodWord_keeps (w : BitVec 128) (s : State) (_ : F.aon = true) (_ : F.ev = true) (_ : F.sync = true) (_ : F.wg = true) (_ : F.fns = true) (_ : F.tenants = true) (_ : F.combs = true) (hK : Keeps F s0 s) : Keeps F s0 (opTodWord w s) := by
  unfold opTodWord
  try dsimp only
  repeat' (with_reducible first | assumption | apply Keeps.ite | apply Keeps.ite2 | apply Keeps.ite1 | apply Keeps.ite22 | apply Keeps.ite21 | apply useWord_keeps | (fail_if_no_progress refine Keeps.set_sync ‹_› ?_) | split)

theorem opFreezeEnd_keeps (s : State) (_ : F.sync = true) (hK : Keeps F s0 s) : Keeps F s0 (opFreezeEnd s) := by
  unfold opFreezeEnd
  try dsimp only
  repeat' (with_reducible first | assumption | apply Keeps.ite | apply Keeps.ite2 | apply Keeps.ite1 | apply Keeps.ite22 | apply Keeps.ite21 | (fail_if_no_progress refine Keeps.set_sync ‹_› ?_) | split)

theorem opTodLost_keeps (s : State) (_ : F.aon = true) (_ : F.ev = true) (_ : F.sync = true) (_ : F.wg = true) (_ : F.fns = true) (_ : F.tenants = true) (_ : F.combs = true) (hK : Keeps F s0 s) : Keeps F s0 (opTodLost s) := by
  unfold opTodLost
  try dsimp only
  repeat' (with_reducible first | assumption | apply Keeps.ite | apply Keeps.ite2 | apply Keeps.ite1 | apply Keeps.ite22 | apply Keeps.ite21 | apply sticky_keeps | apply setSync_keeps | apply judgeSync_keeps | (fail_if_no_progress refine Keeps.set_sync ‹_› ?_) | split)

theorem opErrorBoundExceeded_keeps (s : State) (_ : F.aon = true) (_ : F.ev = true) (_ : F.sync = true) (_ : F.wg = true) (_ : F.fns = true) (_ : F.tenants = true) (_ : F.combs = true) (hK : Keeps F s0 s) : Keeps F s0 (opErrorBoundExceeded s) := by
  unfold opErrorBoundExceeded
  try dsimp only
  repeat' (with_reducible first | assumption | apply Keeps.ite | apply Keeps.ite2 | apply Keeps.ite1 | apply Keeps.ite22 | apply Keeps.ite21 | apply setSync_keeps | split)

theorem opPpsEdge_keeps (sub : Nat) (s : State) (_ : F.sync = true) (hK : Keeps F s0 s) : Keeps F s0 (opPpsEdge sub s) := by
  unfold opPpsEdge
  try dsimp only
  repeat' (with_reducible first | assumption | apply Keeps.ite | apply Keeps.ite2 | apply Keeps.ite1 | apply Keeps.ite22 | apply Keeps.ite21 | (fail_if_no_progress refine Keeps.set_sync ‹_› ?_) | split)

theorem judgeEdge_keeps (s : State) (_ : F.aon = true) (_ : F.ev = true) (_ : F.sync = true) (_ : F.wg = true) (_ : F.fns = true) (_ : F.tenants = true) (_ : F.combs = true) (hK : Keeps F s0 s) : Keeps F s0 (judgeEdge s) := by
  unfold judgeEdge
  try dsimp only
  repeat' (with_reducible first | assumption | apply Keeps.ite | apply Keeps.ite2 | apply Keeps.ite1 | apply Keeps.ite22 | apply Keeps.ite21 | apply setPps_keeps | apply judgeSync_keeps | (fail_if_no_progress refine Keeps.set_sync ‹_› ?_) | split)

theorem opPpsTimeout_keeps (s : State) (_ : F.aon = true) (_ : F.ev = true) (_ : F.sync = true) (_ : F.wg = true) (_ : F.fns = true) (_ : F.tenants = true) (_ : F.combs = true) (hK : Keeps F s0 s) : Keeps F s0 (opPpsTimeout s) := by
  unfold opPpsTimeout
  try dsimp only
  repeat' (with_reducible first | assumption | apply Keeps.ite | apply Keeps.ite2 | apply Keeps.ite1 | apply Keeps.ite22 | apply Keeps.ite21 | apply setPps_keeps | apply judgeSync_keeps | (fail_if_no_progress refine Keeps.set_sync ‹_› ?_) | split)

theorem deriveAlias_keeps (s : State) (_ : F.aon = true) (_ : F.ev = true) (_ : F.hi = true) (_ : F.dma = true) (_ : F.wg = true) (_ : F.fns = true) (_ : F.tenants = true) (_ : F.combs = true) (_ : F.out = true) (hK : Keeps F s0 s) : Keeps F s0 (deriveAlias s) := by
  unfold deriveAlias
  try dsimp only
  repeat' (with_reducible first | assumption | apply Keeps.ite | apply Keeps.ite2 | apply Keeps.ite1 | apply Keeps.ite22 | apply Keeps.ite21 | apply raiseHive_keeps | apply mlogPut_keeps | (fail_if_no_progress refine Keeps.set_wg ‹_› ?_) | split)

theorem putReservation_keeps (s : State) (e : Nat) (_ : F.store = true) (_ : F.wg = true) (hK : Keeps F s0 s) : Keeps F s0 (putReservation s e) := by
  unfold putReservation
  try dsimp only
  repeat' (with_reducible first | assumption | apply Keeps.ite | apply Keeps.ite2 | apply Keeps.ite1 | apply Keeps.ite22 | apply Keeps.ite21 | apply writeRec_keeps | (fail_if_no_progress refine Keeps.set_wg ‹_› ?_) | split)

theorem reserveMore_keeps (s : State) (_ : F.wg = true) (hK : Keeps F s0 s) : Keeps F s0 (reserveMore s) := by
  unfold reserveMore
  try dsimp only
  repeat' (with_reducible first | assumption | apply Keeps.ite | apply Keeps.ite2 | apply Keeps.ite1 | apply Keeps.ite22 | apply Keeps.ite21 | (fail_if_no_progress refine Keeps.set_wg ‹_› ?_) | split)

theorem opEpochReservationWriteDone_keeps (s : State) (_ : F.store = true) (_ : F.wg = true) (hK : Keeps F s0 s) : Keeps F s0 (opEpochReservationWriteDone s) := by
  unfold opEpochReservationWriteDone
  try dsimp only
  repeat' (with_reducible first | assumption | apply Keeps.ite | apply Keeps.ite2 | apply Keeps.ite1 | apply Keeps.ite22 | apply Keeps.ite21 | apply putReservation_keeps | split)

theorem openEpoch_keeps (s : State) (epoch : Nat) (kind : Nat) (cause : Nat) (gapFrom : Nat) (prev : Bytes) (_ : F.wg = true) (hK : Keeps F s0 s) : Keeps F s0 (openEpoch s epoch kind cause gapFrom prev) := by
  unfold openEpoch
  try dsimp only
  repeat' (with_reducible first | assumption | apply Keeps.ite | apply Keeps.ite2 | apply Keeps.ite1 | apply Keeps.ite22 | apply Keeps.ite21 | (fail_if_no_progress refine Keeps.set_wg ‹_› ?_) | split)

theorem openGenesis_keeps (s : State) (_ : F.store = true) (_ : F.wg = true) (hK : Keeps F s0 s) : Keeps F s0 (openGenesis s) := by
  unfold openGenesis
  try dsimp only
  repeat' (with_reducible first | assumption | apply Keeps.ite | apply Keeps.ite2 | apply Keeps.ite1 | apply Keeps.ite22 | apply Keeps.ite21 | apply putReservation_keeps | apply openEpoch_keeps | split)

theorem openGap_keeps (s : State) (anchor : Nat) (hash : Bytes) (_ : F.store = true) (_ : F.wg = true) (hK : Keeps F s0 s) : Keeps F s0 (openGap s anchor hash) := by
  unfold openGap
  try dsimp only
  repeat' (with_reducible first | assumption | apply Keeps.ite | apply Keeps.ite2 | apply Keeps.ite1 | apply Keeps.ite22 | apply Keeps.ite21 | apply putReservation_keeps | apply openEpoch_keeps | split)

theorem tenantLogs_keeps (s : State) (kept : List Nat) (lost : List Nat) (entries : List Bytes) (rec : Bytes) (sig : Bytes) (_ : F.hi = true) (_ : F.dma = true) (_ : F.peer = true) (_ : F.fns = true) (_ : F.tenants = true) (_ : F.out = true) (hK : Keeps F s0 s) : Keeps F s0 (tenantLogs s kept lost entries rec sig) := by
  unfold tenantLogs
  try dsimp only
  repeat' (with_reducible first | assumption | apply Keeps.ite | apply Keeps.ite2 | apply Keeps.ite1 | apply Keeps.ite22 | apply Keeps.ite21 | apply rlogPut_keeps | (apply Keeps.each; intro _ _ _) | split | intro _)

theorem closeEpoch_keeps (s : State) (lostIn : List Nat) (_ : F.aon = true) (_ : F.ev = true) (_ : F.hi = true) (_ : F.dma = true) (_ : F.peer = true) (_ : F.wg = true) (_ : F.fns = true) (_ : F.tenants = true) (_ : F.combs = true) (_ : F.out = true) (hK : Keeps F s0 s) : Keeps F s0 (closeEpoch s lostIn) := by
  unfold closeEpoch
  try dsimp only
  repeat' (with_reducible first | assumption | apply Keeps.ite | apply Keeps.ite2 | apply Keeps.ite1 | apply Keeps.ite22 | apply Keeps.ite21 | apply modTenant_keeps | apply sticky_keeps | apply mlogPut_keeps | apply tenantLogs_keeps | (apply Keeps.each; intro _ _ _) | (fail_if_no_progress refine Keeps.set_wg ‹_› ?_) | split | intro _)

theorem opEpochClose_keeps (lost : List Nat) (corrected : Nat) (s : State) (_ : F.aon = true) (_ : F.ev = true) (_ : F.hi = true) (_ : F.dma = true) (_ : F.peer = true) (_ : F.wg = true) (_ : F.fns = true) (_ : F.tenants = true) (_ : F.combs = true) (_ : F.out = true) (hK : Keeps F s0 s) : Keeps F s0 (opEpochClose lost corrected s) := by
  unfold opEpochClose
  try dsimp only
  repeat' (with_reducible first | assumption | apply Keeps.ite | apply Keeps.ite2 | apply Keeps.ite1 | apply Keeps.ite22 | apply Keeps.ite21 | apply eccCount_keeps | apply reserveMore_keeps | apply openEpoch_keeps | apply closeEpoch_keeps | split)

theorem opLeafAssign_keeps (id : Nat) (s : State) (_ : F.aon = true) (_ : F.ev = true) (_ : F.hi = true) (_ : F.dma = true) (_ : F.peer = true) (_ : F.wg = true) (_ : F.fns = true) (_ : F.tenants = true) (_ : F.combs = true) (_ : F.jobs = true) (_ : F.out = true) (hK : Keeps F s0 s) : Keeps F s0 (opLeafAssign id s) := by
  unfold opLeafAssign
  try dsimp only
  repeat' (with_reducible first | assumption | apply Keeps.ite | apply Keeps.ite2 | apply Keeps.ite1 | apply Keeps.ite22 | apply Keeps.ite21 | apply refreshPending_keeps | apply sendResult_keeps | apply assignLeaf_keeps | apply opEpochClose_keeps | (apply Keeps.each; intro _ _ _) | split | intro _)

theorem ckptNext_keeps (s : State) (_ : F.wg = true) (hK : Keeps F s0 s) : Keeps F s0 (ckptNext s) := by
  unfold ckptNext
  try dsimp only
  repeat' (with_reducible first | assumption | apply Keeps.ite | apply Keeps.ite2 | apply Keeps.ite1 | apply Keeps.ite22 | apply Keeps.ite21 | (fail_if_no_progress refine Keeps.set_wg ‹_› ?_) | split)

theorem ckptMissed_keeps (s : State) (_ : F.wg = true) (hK : Keeps F s0 s) : Keeps F s0 (ckptMissed s) := by
  unfold ckptMissed
  try dsimp only
  repeat' (with_reducible first | assumption | apply Keeps.ite | apply Keeps.ite2 | apply Keeps.ite1 | apply Keeps.ite22 | apply Keeps.ite21 | apply ckptNext_keeps | split)

theorem opReceiptCheckpoint_keeps (r0 : State) (_ : F.hv = true) (_ : F.store = true) (_ : F.wg = true) (hK : Keeps F s0 r0) : Keeps F s0 (opReceiptCheckpoint r0) := by
  unfold opReceiptCheckpoint
  try dsimp only
  repeat' (with_reducible first | assumption | apply Keeps.ite | apply Keeps.ite2 | apply Keeps.ite1 | apply Keeps.ite22 | apply Keeps.ite21 | apply wake_keeps | apply writeRec_keeps | apply ckptNext_keeps | apply ckptMissed_keeps | (fail_if_no_progress refine Keeps.set_wg ‹_› ?_) | split)

theorem opCkptLate_keeps (s : State) (_ : F.ev = true) (_ : F.wg = true) (_ : F.fns = true) (_ : F.tenants = true) (hK : Keeps F s0 s) : Keeps F s0 (opCkptLate s) := by
  unfold opCkptLate
  try dsimp only
  repeat' (with_reducible first | assumption | apply Keeps.ite | apply Keeps.ite2 | apply Keeps.ite1 | apply Keeps.ite22 | apply Keeps.ite21 | apply raiseHive_keeps | (fail_if_no_progress refine Keeps.set_wg ‹_› ?_) | split)

theorem opWgMlogConsWrite_keeps (v : W32) (s : State) (_ : F.hi = true) (_ : F.dma = true) (_ : F.wg = true) (_ : F.fns = true) (_ : F.tenants = true) (_ : F.out = true) (hK : Keeps F s0 s) : Keeps F s0 (opWgMlogConsWrite v s) := by
  unfold opWgMlogConsWrite
  try dsimp only
  repeat' (with_reducible first | assumption | apply Keeps.ite | apply Keeps.ite2 | apply Keeps.ite1 | apply Keeps.ite22 | apply Keeps.ite21 | apply mlogResume_keeps | (fail_if_no_progress refine Keeps.set_wg ‹_› ?_) | split)

theorem opTnRlogConsWrite_keeps (c : Nat) (v : W32) (s : State) (_ : F.hi = true) (_ : F.dma = true) (_ : F.peer = true) (_ : F.fns = true) (_ : F.tenants = true) (_ : F.out = true) (hK : Keeps F s0 s) : Keeps F s0 (opTnRlogConsWrite c v s) := by
  unfold opTnRlogConsWrite
  try dsimp only
  repeat' (with_reducible first | assumption | apply Keeps.ite | apply Keeps.ite2 | apply Keeps.ite1 | apply Keeps.ite22 | apply Keeps.ite21 | apply modTenant_keeps | apply rlogResume_keeps | split | intro _)

theorem sendUnassigned_keeps (s : State) (_ : F.hi = true) (_ : F.dma = true) (_ : F.peer = true) (_ : F.tenants = true) (_ : F.jobs = true) (_ : F.out = true) (hK : Keeps F s0 s) : Keeps F s0 (sendUnassigned s) := by
  unfold sendUnassigned
  try dsimp only
  repeat' (with_reducible first | assumption | apply Keeps.ite | apply Keeps.ite2 | apply Keeps.ite1 | apply Keeps.ite22 | apply Keeps.ite21 | apply modJob_keeps | apply sendResult_keeps | (apply Keeps.each; intro _ _ _) | split | intro _)

theorem tamperWaggle_keeps (s : State) (_ : F.hi = true) (_ : F.dma = true) (_ : F.peer = true) (_ : F.wg = true) (_ : F.tenants = true) (_ : F.jobs = true) (_ : F.out = true) (hK : Keeps F s0 s) : Keeps F s0 (tamperWaggle s) := by
  unfold tamperWaggle
  try dsimp only
  repeat' (with_reducible first | assumption | apply Keeps.ite | apply Keeps.ite2 | apply Keeps.ite1 | apply Keeps.ite22 | apply Keeps.ite21 | apply modTenant_keeps | apply sendUnassigned_keeps | (apply Keeps.each; intro _ _ _) | (fail_if_no_progress refine Keeps.set_wg ‹_› ?_) | split | intro _)

theorem dropReceipts_keeps (s : State) (c : Nat) (_ : F.tenants = true) (hK : Keeps F s0 s) : Keeps F s0 (dropReceipts s c) := by
  unfold dropReceipts
  try dsimp only
  repeat' (with_reducible first | assumption | apply Keeps.ite | apply Keeps.ite2 | apply Keeps.ite1 | apply Keeps.ite22 | apply Keeps.ite21 | apply modTenant_keeps | split | intro _)

/-! ## LcOps -/

theorem startJournal_keeps (s : State) (_ : F.lc = true) (hK : Keeps F s0 s) : Keeps F s0 (startJournal s) := by
  unfold startJournal
  try dsimp only
  repeat' (with_reducible first | assumption | apply Keeps.ite | apply Keeps.ite2 | apply Keeps.ite1 | apply Keeps.ite22 | apply Keeps.ite21 | (fail_if_no_progress refine Keeps.set_lc ‹_› ?_) | split | intro _)

theorem otpTick_keeps (s : State) (_ : F.otp = true) (_ : F.lc = true) (hK : Keeps F s0 s) : Keeps F s0 (otpTick s) := by
  unfold otpTick
  try dsimp only
  repeat' (with_reducible first | assumption | apply Keeps.ite | apply Keeps.ite2 | apply Keeps.ite1 | apply Keeps.ite22 | apply Keeps.ite21 | (fail_if_no_progress refine Keeps.set_otp_lc ‹_› ‹_› ?_) | split)

theorem cutOtp_keeps (s : State) (_ : F.otp = true) (_ : F.freeN = true) (hK : Keeps F s0 s) : Keeps F s0 (cutOtp s) := by
  unfold cutOtp
  try dsimp only
  repeat' (with_reducible first | assumption | apply Keeps.ite | apply Keeps.ite2 | apply Keeps.ite1 | apply Keeps.ite22 | apply Keeps.ite21 | (fail_if_no_progress refine Keeps.set_otp_freeN ‹_› ‹_› ?_) | split)

end Sys2Proof.Machine
end

