-- ==== Sys2Proof/Laws/KeepsUnits.lean ====
section
/-! SUPPORT. What the operations can do: their footprints, of the modules Keystore, Tamper, PeerOps, Views, Peer, Tenants, Mailbox, Sleep, Time, Functions, Spdm, Image, Update. -/

set_option linter.unreachableTactic false
set_option linter.unusedTactic false
set_option linter.unusedVariables false
set_option Elab.async false

namespace Sys2Proof.Machine

variable {F : Foot} {s0 : State}

/-! ## Keystore -/

theorem deriveLadder_keeps (s : State) (_ : F.aon = true) (_ : F.ev = true) (_ : F.ks = true) (_ : F.fns = true) (_ : F.tenants = true) (_ : F.combs = true) (hK : Keeps F s0 s) : Keeps F s0 (deriveLadder s) := by
  unfold deriveLadder
  try dsimp only
  repeat' (with_reducible first | assumption | apply Keeps.ite | apply Keeps.ite2 | apply Keeps.ite1 | apply Keeps.ite22 | apply Keeps.ite21 | apply sticky_keeps | apply deriveRoot_keeps | (fail_if_no_progress refine Keeps.set_ks ‹_› ?_) | split)

theorem provEnd_keeps (s : State) (st : Status) (detail : BitVec 8) (_ : F.ev = true) (_ : F.ks = true) (_ : F.fns = true) (_ : F.tenants = true) (hK : Keeps F s0 s) : Keeps F s0 (provEnd s st detail) := by
  unfold provEnd
  try dsimp only
  repeat' (with_reducible first | assumption | apply Keeps.ite | apply Keeps.ite2 | apply Keeps.ite1 | apply Keeps.ite22 | apply Keeps.ite21 | apply raiseHive_keeps | (fail_if_no_progress refine Keeps.set_ks ‹_› ?_) | split)

theorem abortReady_keeps (s : State) (id : Nat) (_ : F.jobs = true) (hK : Keeps F s0 s) : Keeps F s0 (abortReady s id) := by
  unfold abortReady
  try dsimp only
  repeat' (with_reducible first | assumption | apply Keeps.ite | apply Keeps.ite2 | apply Keeps.ite1 | apply Keeps.ite22 | apply Keeps.ite21 | apply modJob_keeps | split | intro _)

theorem endKeyed_keeps (s : State) (t : ZTrigger) (_ : F.ev = true) (_ : F.dma = true) (_ : F.ks = true) (_ : F.fns = true) (_ : F.tenants = true) (_ : F.ctxs = true) (_ : F.slots = true) (_ : F.combs = true) (_ : F.jobs = true) (_ : F.freeN = true) (hK : Keeps F s0 s) : Keeps F s0 (endKeyed s t) := by
  unfold endKeyed
  try dsimp only
  repeat' (with_reducible first | assumption | apply Keeps.ite | apply Keeps.ite2 | apply Keeps.ite1 | apply Keeps.ite22 | apply Keeps.ite21 | apply forceEnd_keeps | apply provEnd_keeps | apply abortReady_keeps | (apply Keeps.each; intro _ _ _) | split | intro _)

theorem zeroMark_keeps (s : State) (t : ZTrigger) (erase : Bool) (_ : F.ks = true) (_ : F.jobs = true) (hK : Keeps F s0 s) : Keeps F s0 (zeroMark s t erase) := by
  unfold zeroMark
  try dsimp only
  repeat' (with_reducible first | assumption | apply Keeps.ite | apply Keeps.ite2 | apply Keeps.ite1 | apply Keeps.ite22 | apply Keeps.ite21 | (fail_if_no_progress refine Keeps.set_ks_jobs ‹_› ‹_› ?_ (by first | exact fun h => h | exact tblWf_set _ _ _ _ | exact tblWf_erase _ _ _ | exact tblWf_map _ _ _ | exact tblWf_drop _ _ _ | with_unfolding_all exact tblWf_drop _ _ _ | exact (tblWf_put _ _ _ _ · (by simp)))) | split | intro _)

theorem zeroNow_keeps (s : State) (t : ZTrigger) (_ : F.ev = true) (_ : F.dma = true) (_ : F.ks = true) (_ : F.fns = true) (_ : F.tenants = true) (_ : F.ctxs = true) (_ : F.slots = true) (_ : F.combs = true) (_ : F.jobs = true) (_ : F.freeN = true) (hK : Keeps F s0 s) : Keeps F s0 (zeroNow s t) := by
  unfold zeroNow
  try dsimp only
  repeat' (with_reducible first | assumption | apply Keeps.ite | apply Keeps.ite2 | apply Keeps.ite1 | apply Keeps.ite22 | apply Keeps.ite21 | apply retireAll_keeps | apply endKeyed_keeps | (fail_if_no_progress refine Keeps.set_ks ‹_› ?_) | (fail_if_no_progress refine Keeps.set_combs ‹_› ?_ (by first | exact fun h => h | exact tblWf_set _ _ _ _ | exact tblWf_erase _ _ _ | exact tblWf_map _ _ _ | exact tblWf_drop _ _ _ | with_unfolding_all exact tblWf_drop _ _ _ | exact (tblWf_put _ _ _ _ · (by simp)))) | (fail_if_no_progress refine Keeps.set_ks_combs ‹_› ‹_› ?_ (by first | exact fun h => h | exact tblWf_set _ _ _ _ | exact tblWf_erase _ _ _ | exact tblWf_map _ _ _ | exact tblWf_drop _ _ _ | with_unfolding_all exact tblWf_drop _ _ _ | exact (tblWf_put _ _ _ _ · (by simp)))) | split | intro _)

theorem zeroise_keeps (s : State) (t : ZTrigger) (erase : Bool) (_ : F.ev = true) (_ : F.dma = true) (_ : F.ks = true) (_ : F.fns = true) (_ : F.tenants = true) (_ : F.ctxs = true) (_ : F.slots = true) (_ : F.combs = true) (_ : F.jobs = true) (_ : F.freeN = true) (hK : Keeps F s0 s) : Keeps F s0 (zeroise s t erase) := by
  unfold zeroise
  try dsimp only
  repeat' (with_reducible first | assumption | apply Keeps.ite | apply Keeps.ite2 | apply Keeps.ite1 | apply Keeps.ite22 | apply Keeps.ite21 | apply zeroMark_keeps | apply zeroNow_keeps | split)

theorem opKsZeroiseStart_keeps (s : State) (_ : F.ev = true) (_ : F.dma = true) (_ : F.ks = true) (_ : F.fns = true) (_ : F.tenants = true) (_ : F.ctxs = true) (_ : F.slots = true) (_ : F.combs = true) (_ : F.jobs = true) (_ : F.freeN = true) (hK : Keeps F s0 s) : Keeps F s0 (opKsZeroiseStart s) := by
  unfold opKsZeroiseStart
  try dsimp only
  repeat' (with_reducible first | assumption | apply Keeps.ite | apply Keeps.ite2 | apply Keeps.ite1 | apply Keeps.ite22 | apply Keeps.ite21 | apply zeroise_keeps | split)

theorem clearPool_keeps (s : State) (_ : F.ks = true) (_ : F.slots = true) (hK : Keeps F s0 s) : Keeps F s0 (clearPool s) := by
  unfold clearPool
  try dsimp only
  repeat' (with_reducible first | assumption | apply Keeps.ite | apply Keeps.ite2 | apply Keeps.ite1 | apply Keeps.ite22 | apply Keeps.ite21 | (fail_if_no_progress refine Keeps.set_ks_slots ‹_› ‹_› ?_ (by first | exact fun h => h | exact tblWf_set _ _ _ _ | exact tblWf_erase _ _ _ | exact tblWf_map _ _ _ | exact tblWf_drop _ _ _ | with_unfolding_all exact tblWf_drop _ _ _ | exact (tblWf_put _ _ _ _ · (by simp)))) | split | intro _)

theorem eraseKeyRecs_keeps (s : State) (_ : F.store = true) (_ : F.freeN = true) (hK : Keeps F s0 s) : Keeps F s0 (eraseKeyRecs s) := by
  unfold eraseKeyRecs
  try dsimp only
  repeat' (with_reducible first | assumption | apply Keeps.ite | apply Keeps.ite2 | apply Keeps.ite1 | apply Keeps.ite22 | apply Keeps.ite21 | apply wipeRec_keeps | (apply Keeps.each; intro _ _ _) | (fail_if_no_progress refine Keeps.set_freeN ‹_› ?_) | split | intro _)

theorem deriveAllNodes_keeps (s : State) (_ : F.slots = true) (hK : Keeps F s0 s) : Keeps F s0 (deriveAllNodes s) := by
  unfold deriveAllNodes
  try dsimp only
  repeat' (with_reducible first | assumption | apply Keeps.ite | apply Keeps.ite2 | apply Keeps.ite1 | apply Keeps.ite22 | apply Keeps.ite21 | apply deriveNodes_keeps | (apply Keeps.each; intro _ _ _) | split | intro _)

theorem drawScramble_keeps (s : State) (_ : F.ks = true) (_ : F.trngN = true) (hK : Keeps F s0 s) : Keeps F s0 (drawScramble s) := by
  unfold drawScramble
  try dsimp only
  repeat' (with_reducible first | assumption | apply Keeps.ite | apply Keeps.ite2 | apply Keeps.ite1 | apply Keeps.ite22 | apply Keeps.ite21 | apply trng_keeps | (fail_if_no_progress refine Keeps.set_ks ‹_› ?_) | split)

theorem seedPropolis_keeps (s : State) (_ : F.ks = true) (_ : F.trngN = true) (hK : Keeps F s0 s) : Keeps F s0 (seedPropolis s) := by
  unfold seedPropolis
  try dsimp only
  repeat' (with_reducible first | assumption | apply Keeps.ite | apply Keeps.ite2 | apply Keeps.ite1 | apply Keeps.ite22 | apply Keeps.ite21 | apply trng_keeps | (fail_if_no_progress refine Keeps.set_ks ‹_› ?_) | split)

theorem openDebug_keeps (s : State) (_ : F.store = true) (_ : F.aon = true) (_ : F.ev = true) (_ : F.hi = true) (_ : F.dma = true) (_ : F.lc = true) (_ : F.wg = true) (_ : F.ks = true) (_ : F.fns = true) (_ : F.tenants = true) (_ : F.slots = true) (_ : F.combs = true) (_ : F.out = true) (hK : Keeps F s0 s) : Keeps F s0 (openDebug s) := by
  unfold openDebug
  try dsimp only
  repeat' (with_reducible first | assumption | apply Keeps.ite | apply Keeps.ite2 | apply Keeps.ite1 | apply Keeps.ite22 | apply Keeps.ite21 | apply raiseHive_keeps | apply sticky_keeps | apply deriveAlias_keeps | apply openGenesis_keeps | apply deriveLadder_keeps | apply deriveAllNodes_keeps | (fail_if_no_progress refine Keeps.set_lc_ks ‹_› ‹_› ?_) | (fail_if_no_progress refine Keeps.set_lc ‹_› ?_) | split)

theorem discardRec_keeps (s : State) (id : Nat) (_ : F.store = true) (_ : F.aon = true) (_ : F.ev = true) (_ : F.fns = true) (_ : F.tenants = true) (_ : F.combs = true) (hK : Keeps F s0 s) : Keeps F s0 (discardRec s id) := by
  unfold discardRec
  try dsimp only
  repeat' (with_reducible first | assumption | apply Keeps.ite | apply Keeps.ite2 | apply Keeps.ite1 | apply Keeps.ite22 | apply Keeps.ite21 | apply sticky_keeps | apply eraseRec_keeps | (fail_if_no_progress refine Keeps.set_store ‹_› ?_ (by first | exact fun h => h | exact tblWf_set _ _ _ _ | exact tblWf_erase _ _ _ | exact tblWf_map _ _ _ | exact tblWf_drop _ _ _ | with_unfolding_all exact tblWf_drop _ _ _ | exact (tblWf_put _ _ _ _ · (by simp)))) | split)

theorem restoreRec_keeps (s : State) (c : Nat) (id : Nat) (_ : F.store = true) (_ : F.aon = true) (_ : F.ev = true) (_ : F.fns = true) (_ : F.tenants = true) (_ : F.slots = true) (_ : F.combs = true) (hK : Keeps F s0 s) : Keeps F s0 (restoreRec s c id) := by
  unfold restoreRec
  try dsimp only
  repeat' (with_reducible first | assumption | apply Keeps.ite | apply Keeps.ite2 | apply Keeps.ite1 | apply Keeps.ite22 | apply Keeps.ite21 | apply modSlot_keeps | apply reserveRun_keeps | apply commitRun_keeps | apply discardRec_keeps | (apply Keeps.ofEq2 ‹_›) | split | intro _)

theorem restoreRecs_keeps (s : State) (c : Nat) (_ : F.store = true) (_ : F.aon = true) (_ : F.ev = true) (_ : F.fns = true) (_ : F.tenants = true) (_ : F.slots = true) (_ : F.combs = true) (hK : Keeps F s0 s) : Keeps F s0 (restoreRecs s c) := by
  unfold restoreRecs
  try dsimp only
  repeat' (with_reducible first | assumption | apply Keeps.ite | apply Keeps.ite2 | apply Keeps.ite1 | apply Keeps.ite22 | apply Keeps.ite21 | apply eraseRec_keeps | apply restoreRec_keeps | (apply Keeps.each; intro _ _ _) | split | intro _)

theorem restoreWaiting_keeps (s : State) (l : List Nat) (_ : F.store = true) (_ : F.aon = true) (_ : F.ev = true) (_ : F.fns = true) (_ : F.tenants = true) (_ : F.slots = true) (_ : F.combs = true) (hK : Keeps F s0 s) : Keeps F s0 (restoreWaiting s l) := by
  unfold restoreWaiting
  try dsimp only
  repeat' (with_reducible first | assumption | apply Keeps.ite | apply Keeps.ite2 | apply Keeps.ite1 | apply Keeps.ite22 | apply Keeps.ite21 | apply restoreRecs_keeps | (apply Keeps.each; intro _ _ _) | split | intro _)

theorem opZeroisationStep5Done_keeps (s : State) (_ : F.store = true) (_ : F.aon = true) (_ : F.ev = true) (_ : F.hi = true) (_ : F.dma = true) (_ : F.lc = true) (_ : F.wg = true) (_ : F.ks = true) (_ : F.fns = true) (_ : F.tenants = true) (_ : F.slots = true) (_ : F.combs = true) (_ : F.out = true) (_ : F.trngN = true) (_ : F.freeN = true) (hK : Keeps F s0 s) : Keeps F s0 (opZeroisationStep5Done s) := by
  unfold opZeroisationStep5Done
  try dsimp only
  repeat' (with_reducible first | assumption | apply Keeps.ite | apply Keeps.ite2 | apply Keeps.ite1 | apply Keeps.ite22 | apply Keeps.ite21 | apply sticky_keeps | apply drbgInit_keeps | apply startJournal_keeps | apply deriveLadder_keeps | apply clearPool_keeps | apply eraseKeyRecs_keeps | apply deriveAllNodes_keeps | apply drawScramble_keeps | apply seedPropolis_keeps | apply openDebug_keeps | apply restoreWaiting_keeps | (apply Keeps.each; intro _ _ _) | (fail_if_no_progress refine Keeps.set_ks ‹_› ?_) | (fail_if_no_progress refine Keeps.set_aon ‹_› ?_) | (fail_if_no_progress refine Keeps.set_aon_ks ‹_› ‹_› ?_) | split | intro _)

theorem releaseHeld_keeps (s : State) (_ : F.ks = true) (_ : F.slots = true) (hK : Keeps F s0 s) : Keeps F s0 (releaseHeld s) := by
  unfold releaseHeld
  try dsimp only
  repeat' (with_reducible first | assumption | apply Keeps.ite | apply Keeps.ite2 | apply Keeps.ite1 | apply Keeps.ite22 | apply Keeps.ite21 | (fail_if_no_progress refine Keeps.set_ks_slots ‹_› ‹_› ?_ (by first | exact fun h => h | exact tblWf_set _ _ _ _ | exact tblWf_erase _ _ _ | exact tblWf_map _ _ _ | exact tblWf_drop _ _ _ | with_unfolding_all exact tblWf_drop _ _ _ | exact (tblWf_put _ _ _ _ · (by simp)))) | split | intro _)

theorem opScrubPassStart_keeps (s : State) (_ : F.ks = true) (_ : F.slots = true) (hK : Keeps F s0 s) : Keeps F s0 (opScrubPassStart s) := by
  unfold opScrubPassStart
  try dsimp only
  repeat' (with_reducible first | assumption | apply Keeps.ite | apply Keeps.ite2 | apply Keeps.ite1 | apply Keeps.ite22 | apply Keeps.ite21 | apply releaseHeld_keeps | (fail_if_no_progress refine Keeps.set_ks ‹_› ?_) | split)

theorem reclaimRun_keeps (s : State) (l : List Nat) (_ : F.slots = true) (hK : Keeps F s0 s) : Keeps F s0 (reclaimRun s l) := by
  cases l with
  | nil => exact hK
  | cons h l =>
    rw [reclaimRun]
    repeat' (with_reducible first | assumption | apply freeRun_keeps | apply clearRun_keeps)


theorem scrubSlot_keeps (s : State) (pos : Nat) (_ : F.ks = true) (_ : F.slots = true) (hK : Keeps F s0 s) : Keeps F s0 (scrubSlot s pos) := by
  unfold scrubSlot
  try dsimp only
  repeat' (with_reducible first | assumption | apply Keeps.ite | apply Keeps.ite2 | apply Keeps.ite1 | apply Keeps.ite22 | apply Keeps.ite21 | apply modSlot_keeps | apply clearRun_keeps | apply reclaimRun_keeps | (fail_if_no_progress refine Keeps.set_ks ‹_› ?_) | split | intro _)

theorem opScrubSlotVisit_keeps (s : State) (_ : F.ev = true) (_ : F.ks = true) (_ : F.fns = true) (_ : F.tenants = true) (_ : F.slots = true) (hK : Keeps F s0 s) : Keeps F s0 (opScrubSlotVisit s) := by
  unfold opScrubSlotVisit
  try dsimp only
  repeat' (with_reducible first | assumption | apply Keeps.ite | apply Keeps.ite2 | apply Keeps.ite1 | apply Keeps.ite22 | apply Keeps.ite21 | apply raiseHive_keeps | apply releaseHeld_keeps | apply scrubSlot_keeps | (fail_if_no_progress refine Keeps.set_ks ‹_› ?_) | split)

theorem provCommit_keeps (s : State) (op : Nat) (_ : F.ev = true) (_ : F.ks = true) (_ : F.fns = true) (_ : F.tenants = true) (hK : Keeps F s0 s) : Keeps F s0 (provCommit s op) := by
  unfold provCommit
  try dsimp only
  repeat' (with_reducible first | assumption | apply Keeps.ite | apply Keeps.ite2 | apply Keeps.ite1 | apply Keeps.ite22 | apply Keeps.ite21 | apply provEnd_keeps | (fail_if_no_progress refine Keeps.set_ks ‹_› ?_) | split)

theorem opKsProvOp3_keeps (s : State) (_ : F.ev = true) (_ : F.ks = true) (_ : F.fns = true) (_ : F.tenants = true) (hK : Keeps F s0 s) : Keeps F s0 (opKsProvOp3 s) := by
  unfold opKsProvOp3
  try dsimp only
  repeat' (with_reducible first | assumption | apply Keeps.ite | apply Keeps.ite2 | apply Keeps.ite1 | apply Keeps.ite22 | apply Keeps.ite21 | apply provEnd_keeps | (fail_if_no_progress refine Keeps.set_ks ‹_› ?_) | split)

theorem provCreate_keeps (s : State) (p : ProvCfg) (mat : Bytes) (_ : F.store = true) (_ : F.slots = true) (_ : F.freeN = true) (hK : Keeps F s0 s) : Keeps F s0 (provCreate s p mat) := by
  unfold provCreate
  try dsimp only
  repeat' (with_reducible first | assumption | apply Keeps.ite | apply Keeps.ite2 | apply Keeps.ite1 | apply Keeps.ite22 | apply Keeps.ite21 | apply reserveRun_keeps | apply commitRun_keeps | apply writeRec_keeps | (fail_if_no_progress refine Keeps.set_freeN ‹_› ?_) | (apply Keeps.ofEq2 ‹_›) | split)

theorem chargeManager_keeps (s : State) (a : Account) (n : Nat) (_ : F.sch = true) (hK : Keeps F s0 s) : Keeps F s0 (chargeManager s a n) := by
  unfold chargeManager
  try dsimp only
  repeat' (with_reducible first | assumption | apply Keeps.ite | apply Keeps.ite2 | apply Keeps.ite1 | apply Keeps.ite22 | apply Keeps.ite21 | (fail_if_no_progress refine Keeps.set_sch ‹_› ?_) | split)

theorem provWrite_keeps (s : State) (p : ProvCfg) (_ : F.ev = true) (_ : F.hi = true) (_ : F.dma = true) (_ : F.ks = true) (_ : F.fns = true) (_ : F.tenants = true) (_ : F.out = true) (hK : Keeps F s0 s) : Keeps F s0 (provWrite s p) := by
  unfold provWrite
  try dsimp only
  repeat' (with_reducible first | assumption | apply Keeps.ite | apply Keeps.ite2 | apply Keeps.ite1 | apply Keeps.ite22 | apply Keeps.ite21 | apply writeOut_keeps | apply provEnd_keeps | (fail_if_no_progress refine Keeps.set_ks ‹_› ?_) | (apply Keeps.ofEq2 ‹_›) | split)

theorem provGenerate_keeps (s : State) (p : ProvCfg) (_ : F.store = true) (_ : F.ev = true) (_ : F.hi = true) (_ : F.dma = true) (_ : F.ks = true) (_ : F.sch = true) (_ : F.fns = true) (_ : F.tenants = true) (_ : F.slots = true) (_ : F.combs = true) (_ : F.out = true) (_ : F.trngN = true) (_ : F.freeN = true) (hK : Keeps F s0 s) : Keeps F s0 (provGenerate s p) := by
  unfold provGenerate
  try dsimp only
  repeat' (with_reducible first | assumption | apply Keeps.ite | apply Keeps.ite2 | apply Keeps.ite1 | apply Keeps.ite22 | apply Keeps.ite21 | (apply drbgReady_keeps ‹_›) | apply drbgGenerate_keeps | apply provEnd_keeps | apply provCreate_keeps | apply chargeManager_keeps | apply provWrite_keeps | (fail_if_no_progress refine Keeps.set_ks ‹_› ?_) | (apply Keeps.ofEq2 ‹_›) | split | intro _)

theorem provUnwrap_keeps (s : State) (p : ProvCfg) (read : ReadEnd) (blob : Bytes) (_ : F.store = true) (_ : F.aon = true) (_ : F.ev = true) (_ : F.hi = true) (_ : F.dma = true) (_ : F.ks = true) (_ : F.sch = true) (_ : F.fns = true) (_ : F.tenants = true) (_ : F.slots = true) (_ : F.combs = true) (_ : F.out = true) (_ : F.freeN = true) (hK : Keeps F s0 s) : Keeps F s0 (provUnwrap s p read blob) := by
  unfold provUnwrap
  try dsimp only
  repeat' (with_reducible first | assumption | apply Keeps.ite | apply Keeps.ite2 | apply Keeps.ite1 | apply Keeps.ite22 | apply Keeps.ite21 | apply keeperRead_keeps | apply ppCount_keeps | apply provEnd_keeps | apply provCreate_keeps | apply chargeManager_keeps | (apply Keeps.ofEq2 ‹_›) | split)

theorem provInvalidate_keeps (s : State) (p : ProvCfg) (_ : F.store = true) (_ : F.ev = true) (_ : F.ks = true) (_ : F.fns = true) (_ : F.tenants = true) (_ : F.slots = true) (hK : Keeps F s0 s) : Keeps F s0 (provInvalidate s p) := by
  unfold provInvalidate
  try dsimp only
  repeat' (with_reducible first | assumption | apply Keeps.ite | apply Keeps.ite2 | apply Keeps.ite1 | apply Keeps.ite22 | apply Keeps.ite21 | apply invalidate_keeps | apply eraseSlotRec_keeps | apply provEnd_keeps | split)

theorem opProvDone_keeps (read : ReadEnd) (blob : Bytes) (s : State) (_ : F.store = true) (_ : F.aon = true) (_ : F.ev = true) (_ : F.hi = true) (_ : F.dma = true) (_ : F.ks = true) (_ : F.sch = true) (_ : F.fns = true) (_ : F.tenants = true) (_ : F.slots = true) (_ : F.combs = true) (_ : F.out = true) (_ : F.trngN = true) (_ : F.freeN = true) (hK : Keeps F s0 s) : Keeps F s0 (opProvDone read blob s) := by
  unfold opProvDone
  try dsimp only
  repeat' (with_reducible first | assumption | apply Keeps.ite | apply Keeps.ite2 | apply Keeps.ite1 | apply Keeps.ite22 | apply Keeps.ite21 | apply provEnd_keeps | apply provWrite_keeps | apply provGenerate_keeps | apply provUnwrap_keeps | apply provInvalidate_keeps | split)

theorem opEntropySourceHealthFail_keeps (s : State) (_ : F.aon = true) (_ : F.ev = true) (_ : F.ks = true) (_ : F.fns = true) (_ : F.tenants = true) (_ : F.combs = true) (hK : Keeps F s0 s) : Keeps F s0 (opEntropySourceHealthFail s) := by
  unfold opEntropySourceHealthFail
  try dsimp only
  repeat' (with_reducible first | assumption | apply Keeps.ite | apply Keeps.ite2 | apply Keeps.ite1 | apply Keeps.ite22 | apply Keeps.ite21 | apply sticky_keeps | (fail_if_no_progress refine Keeps.set_ks ‹_› ?_) | split)

/-! ## Tamper -/

theorem endReopening_keeps (s : State) (_ : F.ev = true) (_ : F.lc = true) (_ : F.fns = true) (_ : F.tenants = true) (hK : Keeps F s0 s) : Keeps F s0 (endReopening s) := by
  unfold endReopening
  try dsimp only
  repeat' (with_reducible first | assumption | apply Keeps.ite | apply Keeps.ite2 | apply Keeps.ite1 | apply Keeps.ite22 | apply Keeps.ite21 | apply raiseHive_keeps | (fail_if_no_progress refine Keeps.set_lc ‹_› ?_) | split)

theorem zeroRest_keeps (s : State) (_ : F.ev = true) (_ : F.hi = true) (_ : F.dma = true) (_ : F.peer = true) (_ : F.wg = true) (_ : F.ks = true) (_ : F.fns = true) (_ : F.tenants = true) (_ : F.queues = true) (_ : F.ctxs = true) (_ : F.slots = true) (_ : F.combs = true) (_ : F.jobs = true) (_ : F.out = true) (_ : F.freeN = true) (hK : Keeps F s0 s) : Keeps F s0 (zeroRest s) := by
  unfold zeroRest
  try dsimp only
  repeat' (with_reducible first | assumption | apply Keeps.ite | apply Keeps.ite2 | apply Keeps.ite1 | apply Keeps.ite22 | apply Keeps.ite21 | apply freezeQueue_keeps | apply tamperWaggle_keeps | apply zeroNow_keeps | (apply Keeps.each; intro _ _ _) | split | intro _)

theorem tamperResponse_keeps (s : State) (_ : F.hv = true) (_ : F.aon = true) (_ : F.ev = true) (_ : F.hi = true) (_ : F.dma = true) (_ : F.lc = true) (_ : F.peer = true) (_ : F.wg = true) (_ : F.ks = true) (_ : F.fns = true) (_ : F.tenants = true) (_ : F.queues = true) (_ : F.ctxs = true) (_ : F.slots = true) (_ : F.combs = true) (_ : F.jobs = true) (_ : F.out = true) (_ : F.freeN = true) (hK : Keeps F s0 s) : Keeps F s0 (tamperResponse s) := by
  unfold tamperResponse
  try dsimp only
  repeat' (with_reducible first | assumption | apply Keeps.ite | apply Keeps.ite2 | apply Keeps.ite1 | apply Keeps.ite22 | apply Keeps.ite21 | apply wake_keeps | apply sticky_keeps | apply zeroMark_keeps | apply endReopening_keeps | apply zeroRest_keeps | (fail_if_no_progress refine Keeps.set_aon ‹_› ?_) | (fail_if_no_progress refine Keeps.set_hv ‹_› ?_ (by first | exact fun h => h | (intro _; dsimp only; split <;> decide) | (intro _; simp; done)) (by first | exact fun h => h | (intro _; dsimp only; split <;> decide) | (intro _; simp; done))) | (fail_if_no_progress refine Keeps.set_hv_aon ‹_› ‹_› ?_ (by first | exact fun h => h | (intro _; dsimp only; split <;> decide) | (intro _; simp; done)) (by first | exact fun h => h | (intro _; dsimp only; split <;> decide) | (intro _; simp; done))) | split)

theorem trip_keeps (s : State) (src : Nat) (_ : F.hv = true) (_ : F.aon = true) (_ : F.ev = true) (_ : F.hi = true) (_ : F.dma = true) (_ : F.lc = true) (_ : F.peer = true) (_ : F.wg = true) (_ : F.ks = true) (_ : F.fns = true) (_ : F.tenants = true) (_ : F.queues = true) (_ : F.ctxs = true) (_ : F.slots = true) (_ : F.combs = true) (_ : F.jobs = true) (_ : F.out = true) (_ : F.freeN = true) (hK : Keeps F s0 s) : Keeps F s0 (trip s src) := by
  unfold trip
  try dsimp only
  repeat' (with_reducible first | assumption | apply Keeps.ite | apply Keeps.ite2 | apply Keeps.ite1 | apply Keeps.ite22 | apply Keeps.ite21 | apply sticky_keeps | apply tamperResponse_keeps | (fail_if_no_progress refine Keeps.set_aon ‹_› ?_) | split)

theorem opTamperInTrip_keeps (n : Nat) (high : Bool) (s : State) (_ : F.hv = true) (_ : F.aon = true) (_ : F.ev = true) (_ : F.hi = true) (_ : F.dma = true) (_ : F.lc = true) (_ : F.peer = true) (_ : F.wg = true) (_ : F.ks = true) (_ : F.fns = true) (_ : F.tenants = true) (_ : F.queues = true) (_ : F.ctxs = true) (_ : F.slots = true) (_ : F.combs = true) (_ : F.jobs = true) (_ : F.out = true) (_ : F.freeN = true) (hK : Keeps F s0 s) : Keeps F s0 (opTamperInTrip n high s) := by
  unfold opTamperInTrip
  try dsimp only
  repeat' (with_reducible first | assumption | apply Keeps.ite | apply Keeps.ite2 | apply Keeps.ite1 | apply Keeps.ite22 | apply Keeps.ite21 | apply trip_keeps | (fail_if_no_progress refine Keeps.set_aon ‹_› ?_) | split)

theorem armMonitor_keeps (s : State) (_ : F.hv = true) (_ : F.aon = true) (_ : F.ev = true) (_ : F.hi = true) (_ : F.dma = true) (_ : F.lc = true) (_ : F.peer = true) (_ : F.wg = true) (_ : F.ks = true) (_ : F.fns = true) (_ : F.tenants = true) (_ : F.queues = true) (_ : F.ctxs = true) (_ : F.slots = true) (_ : F.combs = true) (_ : F.jobs = true) (_ : F.out = true) (_ : F.freeN = true) (hK : Keeps F s0 s) : Keeps F s0 (armMonitor s) := by
  unfold armMonitor
  try dsimp only
  repeat' (with_reducible first | assumption | apply Keeps.ite | apply Keeps.ite2 | apply Keeps.ite1 | apply Keeps.ite22 | apply Keeps.ite21 | apply trip_keeps | (fail_if_no_progress refine Keeps.set_aon ‹_› ?_) | split)

theorem armTick_keeps (s : State) (_ : F.hv = true) (_ : F.aon = true) (_ : F.ev = true) (_ : F.hi = true) (_ : F.dma = true) (_ : F.lc = true) (_ : F.peer = true) (_ : F.wg = true) (_ : F.ks = true) (_ : F.fns = true) (_ : F.tenants = true) (_ : F.queues = true) (_ : F.ctxs = true) (_ : F.slots = true) (_ : F.combs = true) (_ : F.jobs = true) (_ : F.out = true) (_ : F.freeN = true) (hK : Keeps F s0 s) : Keeps F s0 (armTick s) := by
  unfold armTick
  try dsimp only
  repeat' (with_reducible first | assumption | apply Keeps.ite | apply Keeps.ite2 | apply Keeps.ite1 | apply Keeps.ite22 | apply Keeps.ite21 | apply armMonitor_keeps | split)

theorem noteRails_keeps (s : State) (_ : F.aon = true) (hK : Keeps F s0 s) : Keeps F s0 (noteRails s) := by
  unfold noteRails
  try dsimp only
  repeat' (with_reducible first | assumption | apply Keeps.ite | apply Keeps.ite2 | apply Keeps.ite1 | apply Keeps.ite22 | apply Keeps.ite21 | (fail_if_no_progress refine Keeps.set_aon ‹_› ?_) | split)

theorem opVoltageTrip_keeps (domain : Nat) (reads : Supply) (s : State) (_ : F.hv = true) (_ : F.aon = true) (_ : F.ev = true) (_ : F.hi = true) (_ : F.dma = true) (_ : F.lc = true) (_ : F.peer = true) (_ : F.wg = true) (_ : F.ks = true) (_ : F.fns = true) (_ : F.tenants = true) (_ : F.queues = true) (_ : F.ctxs = true) (_ : F.slots = true) (_ : F.combs = true) (_ : F.jobs = true) (_ : F.out = true) (_ : F.freeN = true) (hK : Keeps F s0 s) : Keeps F s0 (opVoltageTrip domain reads s) := by
  unfold opVoltageTrip
  try dsimp only
  repeat' (with_reducible first | assumption | apply Keeps.ite | apply Keeps.ite2 | apply Keeps.ite1 | apply Keeps.ite22 | apply Keeps.ite21 | apply trip_keeps | apply noteRails_keeps | (apply Keeps.each; intro _ _ _) | (fail_if_no_progress refine Keeps.set_aon ‹_› ?_) | split | intro _)

theorem opPllLockLoss_keeps (s : State) (_ : F.hv = true) (_ : F.aon = true) (_ : F.ev = true) (_ : F.hi = true) (_ : F.dma = true) (_ : F.lc = true) (_ : F.peer = true) (_ : F.wg = true) (_ : F.ks = true) (_ : F.fns = true) (_ : F.tenants = true) (_ : F.queues = true) (_ : F.ctxs = true) (_ : F.slots = true) (_ : F.combs = true) (_ : F.jobs = true) (_ : F.out = true) (_ : F.freeN = true) (hK : Keeps F s0 s) : Keeps F s0 (opPllLockLoss s) := by
  unfold opPllLockLoss
  try dsimp only
  repeat' (with_reducible first | assumption | apply Keeps.ite | apply Keeps.ite2 | apply Keeps.ite1 | apply Keeps.ite22 | apply Keeps.ite21 | apply wake_keeps | apply sticky_keeps | apply trip_keeps | (fail_if_no_progress refine Keeps.set_hv_aon ‹_› ‹_› ?_ (by first | exact fun h => h | (intro _; dsimp only; split <;> decide) | (intro _; simp; done)) (by first | exact fun h => h | (intro _; dsimp only; split <;> decide) | (intro _; simp; done))) | split)

theorem opRefclkFrequencyTrip_keeps (outside : Bool) (s : State) (_ : F.hv = true) (_ : F.aon = true) (_ : F.ev = true) (_ : F.hi = true) (_ : F.dma = true) (_ : F.lc = true) (_ : F.peer = true) (_ : F.wg = true) (_ : F.ks = true) (_ : F.fns = true) (_ : F.tenants = true) (_ : F.queues = true) (_ : F.ctxs = true) (_ : F.slots = true) (_ : F.combs = true) (_ : F.jobs = true) (_ : F.out = true) (_ : F.freeN = true) (hK : Keeps F s0 s) : Keeps F s0 (opRefclkFrequencyTrip outside s) := by
  unfold opRefclkFrequencyTrip
  try dsimp only
  repeat' (with_reducible first | assumption | apply Keeps.ite | apply Keeps.ite2 | apply Keeps.ite1 | apply Keeps.ite22 | apply Keeps.ite21 | apply trip_keeps | (fail_if_no_progress refine Keeps.set_aon ‹_› ?_) | split)

theorem opTemperatureTrip_keeps (outside : Bool) (s : State) (_ : F.hv = true) (_ : F.aon = true) (_ : F.ev = true) (_ : F.hi = true) (_ : F.dma = true) (_ : F.lc = true) (_ : F.peer = true) (_ : F.wg = true) (_ : F.ks = true) (_ : F.fns = true) (_ : F.tenants = true) (_ : F.queues = true) (_ : F.ctxs = true) (_ : F.slots = true) (_ : F.combs = true) (_ : F.jobs = true) (_ : F.out = true) (_ : F.freeN = true) (hK : Keeps F s0 s) : Keeps F s0 (opTemperatureTrip outside s) := by
  unfold opTemperatureTrip
  try dsimp only
  repeat' (with_reducible first | assumption | apply Keeps.ite | apply Keeps.ite2 | apply Keeps.ite1 | apply Keeps.ite22 | apply Keeps.ite21 | apply trip_keeps | (fail_if_no_progress refine Keeps.set_aon ‹_› ?_) | split)

theorem opTpLatchClear_keeps (mask : BitVec 7) (s : State) (_ : F.aon = true) (hK : Keeps F s0 s) : Keeps F s0 (opTpLatchClear mask s) := by
  unfold opTpLatchClear
  try dsimp only
  repeat' (with_reducible first | assumption | apply Keeps.ite | apply Keeps.ite2 | apply Keeps.ite1 | apply Keeps.ite22 | apply Keeps.ite21 | (fail_if_no_progress refine Keeps.set_aon ‹_› ?_) | split)

/-! ## PeerOps -/

theorem closeCtxs_keeps (s : State) (c : Nat) (_ : F.ctxs = true) (_ : F.combs = true) (hK : Keeps F s0 s) : Keeps F s0 (closeCtxs s c) := by
  unfold closeCtxs
  try dsimp only
  repeat' (with_reducible first | assumption | apply Keeps.ite | apply Keeps.ite2 | apply Keeps.ite1 | apply Keeps.ite22 | apply Keeps.ite21 | apply cacheDrop_keeps | (apply Keeps.each; intro _ _ _) | (fail_if_no_progress refine Keeps.set_ctxs ‹_› ?_ (by first | exact fun h => h | exact tblWf_set _ _ _ _ | exact tblWf_erase _ _ _ | exact tblWf_map _ _ _ | exact tblWf_drop _ _ _ | with_unfolding_all exact tblWf_drop _ _ _ | exact (tblWf_put _ _ _ _ · (by simp)))) | split | intro _)

theorem peerQueueReset_keeps (s : State) (c : Nat) (q : Nat) (_ : F.dma = true) (_ : F.peer = true) (_ : F.ks = true) (_ : F.tenants = true) (_ : F.queues = true) (_ : F.ctxs = true) (_ : F.slots = true) (_ : F.combs = true) (_ : F.jobs = true) (_ : F.freeN = true) (hK : Keeps F s0 s) : Keeps F s0 (peerQueueReset s c q) := by
  unfold peerQueueReset
  try dsimp only
  repeat' (with_reducible first | assumption | apply Keeps.ite | apply Keeps.ite2 | apply Keeps.ite1 | apply Keeps.ite22 | apply Keeps.ite21 | apply setQueue_keeps | apply modQueue_keeps | apply abandonJob_keeps | apply dropCopies_keeps | apply dropReady_keeps | apply releaseQueue_keeps | (apply Keeps.each; intro _ _ _) | split | intro _)

theorem peerDiscard_keeps (s : State) (p : Nat) (_ : F.ev = true) (_ : F.dma = true) (_ : F.peer = true) (_ : F.wg = true) (_ : F.ks = true) (_ : F.fns = true) (_ : F.tenants = true) (_ : F.queues = true) (_ : F.ctxs = true) (_ : F.slots = true) (_ : F.combs = true) (_ : F.jobs = true) (_ : F.freeN = true) (hK : Keeps F s0 s) : Keeps F s0 (peerDiscard s p) := by
  unfold peerDiscard
  try dsimp only
  repeat' (with_reducible first | assumption | apply Keeps.ite | apply Keeps.ite2 | apply Keeps.ite1 | apply Keeps.ite22 | apply Keeps.ite21 | apply dropJob_keeps | apply orphanReads_keeps | apply abandonJob_keeps | apply refreshPending_keeps | apply peerQueueReset_keeps | (apply Keeps.each; intro _ _ _) | (fail_if_no_progress refine Keeps.set_peer ‹_› ?_ (by first | exact fun h => h | exact tblWf_set _ _ _ _ | exact tblWf_erase _ _ _ | exact tblWf_map _ _ _ | exact tblWf_drop _ _ _ | with_unfolding_all exact tblWf_drop _ _ _ | exact (tblWf_put _ _ _ _ · (by simp)))) | split | intro _)

theorem peerEnd_keeps (s : State) (p : Nat) (_ : F.ctxs = true) (_ : F.slots = true) (_ : F.combs = true) (hK : Keeps F s0 s) : Keeps F s0 (peerEnd s p) := by
  unfold peerEnd
  try dsimp only
  repeat' (with_reducible first | assumption | apply Keeps.ite | apply Keeps.ite2 | apply Keeps.ite1 | apply Keeps.ite22 | apply Keeps.ite21 | apply moveSession_keeps | apply closeCtxs_keeps | split)

/-! ## Views -/

theorem xoffEdge_keeps (s : State) (_ : F.peer = true) (hK : Keeps F s0 s) : Keeps F s0 (xoffEdge s) := by
  unfold xoffEdge
  try dsimp only
  repeat' (with_reducible first | assumption | apply Keeps.ite | apply Keeps.ite2 | apply Keeps.ite1 | apply Keeps.ite22 | apply Keeps.ite21 | (fail_if_no_progress refine Keeps.set_peer ‹_› ?_ (by first | exact fun h => h | exact tblWf_set _ _ _ _ | exact tblWf_erase _ _ _ | exact tblWf_map _ _ _ | exact tblWf_drop _ _ _ | with_unfolding_all exact tblWf_drop _ _ _ | exact (tblWf_put _ _ _ _ · (by simp)))) | split | intro _)

/-! ## Peer -/

theorem modPacket_keeps (s : State) (k : Nat) (f : Packet → Packet) (_ : F.peer = true) (hK : Keeps F s0 s) : Keeps F s0 (modPacket s k f) := by
  unfold modPacket
  try dsimp only
  repeat' (with_reducible first | assumption | apply Keeps.ite | apply Keeps.ite2 | apply Keeps.ite1 | apply Keeps.ite22 | apply Keeps.ite21 | (fail_if_no_progress refine Keeps.set_peer ‹_› ?_ (by first | exact fun h => h | exact tblWf_set _ _ _ _ | exact tblWf_erase _ _ _ | exact tblWf_map _ _ _ | exact tblWf_drop _ _ _ | with_unfolding_all exact tblWf_drop _ _ _ | exact (tblWf_put _ _ _ _ · (by simp)))) | split)

theorem closePacket_keeps (s : State) (n : Nat) (k : Nat) (mark : PktMark) (_ : F.peer = true) (hK : Keeps F s0 s) : Keeps F s0 (closePacket s n k mark) := by
  unfold closePacket
  try dsimp only
  repeat' (with_reducible first | assumption | apply Keeps.ite | apply Keeps.ite2 | apply Keeps.ite1 | apply Keeps.ite22 | apply Keeps.ite21 | apply modPacket_keeps | (fail_if_no_progress refine Keeps.set_peer ‹_› ?_ (by first | exact fun h => h | exact tblWf_set _ _ _ _ | exact tblWf_erase _ _ _ | exact tblWf_map _ _ _ | exact tblWf_drop _ _ _ | with_unfolding_all exact tblWf_drop _ _ _ | exact (tblWf_put _ _ _ _ · (by simp)))) | split | intro _)

theorem countFraming_keeps (s : State) (_ : F.peer = true) (hK : Keeps F s0 s) : Keeps F s0 (countFraming s) := by
  unfold countFraming
  try dsimp only
  repeat' (with_reducible first | assumption | apply Keeps.ite | apply Keeps.ite2 | apply Keeps.ite1 | apply Keeps.ite22 | apply Keeps.ite21 | (fail_if_no_progress refine Keeps.set_peer ‹_› ?_ (by first | exact fun h => h | exact tblWf_set _ _ _ _ | exact tblWf_erase _ _ _ | exact tblWf_map _ _ _ | exact tblWf_drop _ _ _ | with_unfolding_all exact tblWf_drop _ _ _ | exact (tblWf_put _ _ _ _ · (by simp)))) | split)

theorem countOverrun_keeps (s : State) (_ : F.aon = true) (_ : F.ev = true) (_ : F.peer = true) (_ : F.fns = true) (_ : F.tenants = true) (_ : F.combs = true) (hK : Keeps F s0 s) : Keeps F s0 (countOverrun s) := by
  unfold countOverrun
  try dsimp only
  repeat' (with_reducible first | assumption | apply Keeps.ite | apply Keeps.ite2 | apply Keeps.ite1 | apply Keeps.ite22 | apply Keeps.ite21 | apply sticky_keeps | (fail_if_no_progress refine Keeps.set_peer ‹_› ?_ (by first | exact fun h => h | exact tblWf_set _ _ _ _ | exact tblWf_erase _ _ _ | exact tblWf_map _ _ _ | exact tblWf_drop _ _ _ | with_unfolding_all exact tblWf_drop _ _ _ | exact (tblWf_put _ _ _ _ · (by simp)))) | split)

theorem storeWord_keeps (s : State) (k : Nat) (w : PeerWord) (bad : Bool) (_ : F.peer = true) (hK : Keeps F s0 s) : Keeps F s0 (storeWord s k w bad) := by
  unfold storeWord
  try dsimp only
  repeat' (with_reducible first | assumption | apply Keeps.ite | apply Keeps.ite2 | apply Keeps.ite1 | apply Keeps.ite22 | apply Keeps.ite21 | apply modPacket_keeps | split | intro _)

theorem startPacket_keeps (s : State) (w : PeerWord) (bad : Bool) (_ : F.aon = true) (_ : F.ev = true) (_ : F.peer = true) (_ : F.fns = true) (_ : F.tenants = true) (_ : F.combs = true) (hK : Keeps F s0 s) : Keeps F s0 (startPacket s w bad) := by
  unfold startPacket
  try dsimp only
  repeat' (with_reducible first | assumption | apply Keeps.ite | apply Keeps.ite2 | apply Keeps.ite1 | apply Keeps.ite22 | apply Keeps.ite21 | apply modPacket_keeps | apply closePacket_keeps | apply countFraming_keeps | apply countOverrun_keeps | apply storeWord_keeps | (fail_if_no_progress refine Keeps.set_peer ‹_› ?_ (by first | exact fun h => h | exact tblWf_set _ _ _ _ | exact tblWf_erase _ _ _ | exact tblWf_map _ _ _ | exact tblWf_drop _ _ _ | with_unfolding_all exact tblWf_drop _ _ _ | exact (tblWf_put _ _ _ _ · (by simp)))) | split | intro _)

theorem nextWord_keeps (s : State) (w : PeerWord) (bad : Bool) (_ : F.aon = true) (_ : F.ev = true) (_ : F.peer = true) (_ : F.fns = true) (_ : F.tenants = true) (_ : F.combs = true) (hK : Keeps F s0 s) : Keeps F s0 (nextWord s w bad) := by
  unfold nextWord
  try dsimp only
  repeat' (with_reducible first | assumption | apply Keeps.ite | apply Keeps.ite2 | apply Keeps.ite1 | apply Keeps.ite22 | apply Keeps.ite21 | apply modPacket_keeps | apply closePacket_keeps | apply countFraming_keeps | apply countOverrun_keeps | apply storeWord_keeps | (fail_if_no_progress refine Keeps.set_peer ‹_› ?_ (by first | exact fun h => h | exact tblWf_set _ _ _ _ | exact tblWf_erase _ _ _ | exact tblWf_map _ _ _ | exact tblWf_drop _ _ _ | with_unfolding_all exact tblWf_drop _ _ _ | exact (tblWf_put _ _ _ _ · (by simp)))) | split | intro _)

theorem opPeerWordWrite_keeps (w : PeerWord) (s : State) (_ : F.aon = true) (_ : F.ev = true) (_ : F.peer = true) (_ : F.fns = true) (_ : F.tenants = true) (_ : F.combs = true) (hK : Keeps F s0 s) : Keeps F s0 (opPeerWordWrite w s) := by
  unfold opPeerWordWrite
  try dsimp only
  repeat' (with_reducible first | assumption | apply Keeps.ite | apply Keeps.ite2 | apply Keeps.ite1 | apply Keeps.ite22 | apply Keeps.ite21 | apply xoffEdge_keeps | apply startPacket_keeps | apply nextWord_keeps | (fail_if_no_progress refine Keeps.set_peer ‹_› ?_ (by first | exact fun h => h | exact tblWf_set _ _ _ _ | exact tblWf_erase _ _ _ | exact tblWf_map _ _ _ | exact tblWf_drop _ _ _ | with_unfolding_all exact tblWf_drop _ _ _ | exact (tblWf_put _ _ _ _ · (by simp)))) | split)

theorem rejectPacket_keeps (s : State) (k : Nat) (p : Packet) (cause : BitVec 8) (_ : F.peer = true) (hK : Keeps F s0 s) : Keeps F s0 (rejectPacket s k p cause) := by
  unfold rejectPacket
  try dsimp only
  repeat' (with_reducible first | assumption | apply Keeps.ite | apply Keeps.ite2 | apply Keeps.ite1 | apply Keeps.ite22 | apply Keeps.ite21 | (fail_if_no_progress refine Keeps.set_peer ‹_› ?_ (by first | exact fun h => h | exact tblWf_set _ _ _ _ | exact tblWf_erase _ _ _ | exact tblWf_map _ _ _ | exact tblWf_drop _ _ _ | with_unfolding_all exact tblWf_drop _ _ _ | exact (tblWf_put _ _ _ _ · (by simp)))) | split)

theorem acceptPacket_keeps (s : State) (k : Nat) (p : Packet) (o : Op) (d : Bytes) (_ : F.peer = true) (_ : F.jobs = true) (_ : F.nextJob = true) (hK : Keeps F s0 s) : Keeps F s0 (acceptPacket s k p o d) := by
  unfold acceptPacket
  try dsimp only
  repeat' (with_reducible first | assumption | apply Keeps.ite | apply Keeps.ite2 | apply Keeps.ite1 | apply Keeps.ite22 | apply Keeps.ite21 | apply modJob_keeps | apply newJob_keeps | apply modPacket_keeps | (fail_if_no_progress refine Keeps.set_peer ‹_› ?_ (by first | exact fun h => h | exact tblWf_set _ _ _ _ | exact tblWf_erase _ _ _ | exact tblWf_map _ _ _ | exact tblWf_drop _ _ _ | with_unfolding_all exact tblWf_drop _ _ _ | exact (tblWf_put _ _ _ _ · (by simp)))) | split | intro _)

theorem poisonWords_keeps (s : State) (k : Nat) (ecc : List Nat) (_ : F.aon = true) (_ : F.ev = true) (_ : F.peer = true) (_ : F.fns = true) (_ : F.tenants = true) (_ : F.combs = true) (hK : Keeps F s0 s) : Keeps F s0 (poisonWords s k ecc) := by
  unfold poisonWords
  try dsimp only
  repeat' (with_reducible first | assumption | apply Keeps.ite | apply Keeps.ite2 | apply Keeps.ite1 | apply Keeps.ite22 | apply Keeps.ite21 | apply sticky_keeps | apply modPacket_keeps | split | intro _)

theorem opPacketRead_keeps (ecc : List Nat) (corrected : Nat) (s : State) (_ : F.aon = true) (_ : F.ev = true) (_ : F.peer = true) (_ : F.fns = true) (_ : F.tenants = true) (_ : F.combs = true) (_ : F.jobs = true) (_ : F.nextJob = true) (hK : Keeps F s0 s) : Keeps F s0 (opPacketRead ecc corrected s) := by
  unfold opPacketRead
  try dsimp only
  repeat' (with_reducible first | assumption | apply Keeps.ite | apply Keeps.ite2 | apply Keeps.ite1 | apply Keeps.ite22 | apply Keeps.ite21 | apply eccCount_keeps | apply xoffEdge_keeps | apply rejectPacket_keeps | apply acceptPacket_keeps | apply poisonWords_keeps | split)

theorem handOff_keeps (s : State) (e : Egress) (_ : F.peer = true) (_ : F.jobs = true) (_ : F.out = true) (hK : Keeps F s0 s) : Keeps F s0 (handOff s e) := by
  unfold handOff
  try dsimp only
  repeat' (with_reducible first | assumption | apply Keeps.ite | apply Keeps.ite2 | apply Keeps.ite1 | apply Keeps.ite22 | apply Keeps.ite21 | apply dropJob_keeps | apply emit_keeps | (fail_if_no_progress refine Keeps.set_peer ‹_› ?_ (by first | exact fun h => h | exact tblWf_set _ _ _ _ | exact tblWf_erase _ _ _ | exact tblWf_map _ _ _ | exact tblWf_drop _ _ _ | with_unfolding_all exact tblWf_drop _ _ _ | exact (tblWf_put _ _ _ _ · (by simp)))) | split | intro _)

theorem setStall_keeps (s : State) (w : Bool) (_ : F.ev = true) (_ : F.peer = true) (_ : F.fns = true) (_ : F.tenants = true) (hK : Keeps F s0 s) : Keeps F s0 (setStall s w) := by
  unfold setStall
  try dsimp only
  repeat' (with_reducible first | assumption | apply Keeps.ite | apply Keeps.ite2 | apply Keeps.ite1 | apply Keeps.ite22 | apply Keeps.ite21 | apply raiseHive_keeps | (fail_if_no_progress refine Keeps.set_peer ‹_› ?_ (by first | exact fun h => h | exact tblWf_set _ _ _ _ | exact tblWf_erase _ _ _ | exact tblWf_map _ _ _ | exact tblWf_drop _ _ _ | with_unfolding_all exact tblWf_drop _ _ _ | exact (tblWf_put _ _ _ _ · (by simp)))) | split)

theorem opPeerEgressHandoff_keeps (ready : Bool) (s : State) (_ : F.ev = true) (_ : F.peer = true) (_ : F.fns = true) (_ : F.tenants = true) (_ : F.jobs = true) (_ : F.out = true) (hK : Keeps F s0 s) : Keeps F s0 (opPeerEgressHandoff ready s) := by
  unfold opPeerEgressHandoff
  try dsimp only
  repeat' (with_reducible first | assumption | apply Keeps.ite | apply Keeps.ite2 | apply Keeps.ite1 | apply Keeps.ite22 | apply Keeps.ite21 | apply emit_keeps | apply handOff_keeps | apply setStall_keeps | (fail_if_no_progress refine Keeps.set_peer ‹_› ?_ (by first | exact fun h => h | exact tblWf_set _ _ _ _ | exact tblWf_erase _ _ _ | exact tblWf_map _ _ _ | exact tblWf_drop _ _ _ | with_unfolding_all exact tblWf_drop _ _ _ | exact (tblWf_put _ _ _ _ · (by simp)))) | split)

theorem opPiPeerReset_keeps (p : Nat) (s : State) (_ : F.ev = true) (_ : F.dma = true) (_ : F.peer = true) (_ : F.wg = true) (_ : F.ks = true) (_ : F.fns = true) (_ : F.tenants = true) (_ : F.queues = true) (_ : F.ctxs = true) (_ : F.slots = true) (_ : F.combs = true) (_ : F.jobs = true) (_ : F.freeN = true) (hK : Keeps F s0 s) : Keeps F s0 (opPiPeerReset p s) := by
  unfold opPiPeerReset
  try dsimp only
  repeat' (with_reducible first | assumption | apply Keeps.ite | apply Keeps.ite2 | apply Keeps.ite1 | apply Keeps.ite22 | apply Keeps.ite21 | apply peerDiscard_keeps | apply xoffEdge_keeps | (fail_if_no_progress refine Keeps.set_peer ‹_› ?_ (by first | exact fun h => h | exact tblWf_set _ _ _ _ | exact tblWf_erase _ _ _ | exact tblWf_map _ _ _ | exact tblWf_drop _ _ _ | with_unfolding_all exact tblWf_drop _ _ _ | exact (tblWf_put _ _ _ _ · (by simp)))) | split)

theorem opPeerResetDone_keeps (s : State) (_ : F.ev = true) (_ : F.peer = true) (_ : F.fns = true) (_ : F.tenants = true) (_ : F.ctxs = true) (_ : F.slots = true) (_ : F.combs = true) (hK : Keeps F s0 s) : Keeps F s0 (opPeerResetDone s) := by
  unfold opPeerResetDone
  try dsimp only
  repeat' (with_reducible first | assumption | apply Keeps.ite | apply Keeps.ite2 | apply Keeps.ite1 | apply Keeps.ite22 | apply Keeps.ite21 | apply raiseHive_keeps | apply peerEnd_keeps | (fail_if_no_progress refine Keeps.set_peer ‹_› ?_ (by first | exact fun h => h | exact tblWf_set _ _ _ _ | exact tblWf_erase _ _ _ | exact tblWf_map _ _ _ | exact tblWf_drop _ _ _ | with_unfolding_all exact tblWf_drop _ _ _ | exact (tblWf_put _ _ _ _ · (by simp)))) | split)

theorem opPiCommit_keeps (s : State) (_ : F.peer = true) (hK : Keeps F s0 s) : Keeps F s0 (opPiCommit s) := by
  unfold opPiCommit
  try dsimp only
  repeat' (with_reducible first | assumption | apply Keeps.ite | apply Keeps.ite2 | apply Keeps.ite1 | apply Keeps.ite22 | apply Keeps.ite21 | apply xoffEdge_keeps | (fail_if_no_progress refine Keeps.set_peer ‹_› ?_ (by first | exact fun h => h | exact tblWf_set _ _ _ _ | exact tblWf_erase _ _ _ | exact tblWf_map _ _ _ | exact tblWf_drop _ _ _ | with_unfolding_all exact tblWf_drop _ _ _ | exact (tblWf_put _ _ _ _ · (by simp)))) | split)

/-! ## Tenants -/

theorem takeQueue_keeps (s : State) (c : Nat) (q : Nat) (_ : F.tenants = true) (_ : F.freeN = true) (hK : Keeps F s0 s) : Keeps F s0 (takeQueue s c q) := by
  unfold takeQueue
  try dsimp only
  repeat' (with_reducible first | assumption | apply Keeps.ite | apply Keeps.ite2 | apply Keeps.ite1 | apply Keeps.ite22 | apply Keeps.ite21 | apply modTenant_keeps | (fail_if_no_progress refine Keeps.set_freeN ‹_› ?_) | split | intro _)

theorem takeGranule_keeps (s : State) (c : Nat) (_ : F.tenants = true) (_ : F.freeN = true) (hK : Keeps F s0 s) : Keeps F s0 (takeGranule s c) := by
  unfold takeGranule
  try dsimp only
  repeat' (with_reducible first | assumption | apply Keeps.ite | apply Keeps.ite2 | apply Keeps.ite1 | apply Keeps.ite22 | apply Keeps.ite21 | apply modTenant_keeps | (fail_if_no_progress refine Keeps.set_freeN ‹_› ?_) | split | intro _)

theorem keepOwed_keeps (s : State) (c : Nat) (q : Nat) (_ : F.queues = true) (hK : Keeps F s0 s) : Keeps F s0 (keepOwed s c q) := by
  unfold keepOwed
  try dsimp only
  repeat' (with_reducible first | assumption | apply Keeps.ite | apply Keeps.ite2 | apply Keeps.ite1 | apply Keeps.ite22 | apply Keeps.ite21 | apply setQueue_keeps | split)

theorem addQueues_keeps (s : State) (c : Nat) (a : Nat) (b : Nat) (_ : F.tenants = true) (_ : F.queues = true) (_ : F.freeN = true) (hK : Keeps F s0 s) : Keeps F s0 (addQueues s c a b) := by
  unfold addQueues
  try dsimp only
  repeat' (with_reducible first | assumption | apply Keeps.ite | apply Keeps.ite2 | apply Keeps.ite1 | apply Keeps.ite22 | apply Keeps.ite21 | apply setQueue_keeps | apply takeQueue_keeps | apply keepOwed_keeps | (apply Keeps.each; intro _ _ _) | split | intro _)

theorem addGranules_keeps (s : State) (c : Nat) (n : Nat) (_ : F.tenants = true) (_ : F.freeN = true) (hK : Keeps F s0 s) : Keeps F s0 (addGranules s c n) := by
  unfold addGranules
  try dsimp only
  repeat' (with_reducible first | assumption | apply Keeps.ite | apply Keeps.ite2 | apply Keeps.ite1 | apply Keeps.ite22 | apply Keeps.ite21 | apply takeGranule_keeps | (apply Keeps.each; intro _ _ _) | split | intro _)

theorem createTenant_keeps (s : State) (a : AdmCfg) (_ : F.store = true) (_ : F.aon = true) (_ : F.ev = true) (_ : F.peer = true) (_ : F.ks = true) (_ : F.sch = true) (_ : F.fns = true) (_ : F.tenants = true) (_ : F.queues = true) (_ : F.slots = true) (_ : F.combs = true) (_ : F.freeN = true) (hK : Keeps F s0 s) : Keeps F s0 (createTenant s a) := by
  unfold createTenant
  try dsimp only
  repeat' (with_reducible first | assumption | apply Keeps.ite | apply Keeps.ite2 | apply Keeps.ite1 | apply Keeps.ite22 | apply Keeps.ite21 | apply modTenant_keeps | apply deriveNodes_keeps | apply stepTenant_keeps | apply restoreRecs_keeps | apply addQueues_keeps | apply addGranules_keeps | (fail_if_no_progress refine Keeps.set_sch ‹_› ?_) | (fail_if_no_progress refine Keeps.set_peer ‹_› ?_ (by first | exact fun h => h | exact tblWf_set _ _ _ _ | exact tblWf_erase _ _ _ | exact tblWf_map _ _ _ | exact tblWf_drop _ _ _ | with_unfolding_all exact tblWf_drop _ _ _ | exact (tblWf_put _ _ _ _ · (by simp)))) | (fail_if_no_progress refine Keeps.set_ks ‹_› ?_) | (fail_if_no_progress refine Keeps.set_peer_sch ‹_› ‹_› ?_ (by first | exact fun h => h | exact tblWf_set _ _ _ _ | exact tblWf_erase _ _ _ | exact tblWf_map _ _ _ | exact tblWf_drop _ _ _ | with_unfolding_all exact tblWf_drop _ _ _ | exact (tblWf_put _ _ _ _ · (by simp)))) | (fail_if_no_progress refine Keeps.set_ks_sch ‹_› ‹_› ?_) | (fail_if_no_progress refine Keeps.set_peer_ks ‹_› ‹_› ?_ (by first | exact fun h => h | exact tblWf_set _ _ _ _ | exact tblWf_erase _ _ _ | exact tblWf_map _ _ _ | exact tblWf_drop _ _ _ | with_unfolding_all exact tblWf_drop _ _ _ | exact (tblWf_put _ _ _ _ · (by simp)))) | (fail_if_no_progress refine Keeps.set_peer_ks_sch ‹_› ‹_› ‹_› ?_ (by first | exact fun h => h | exact tblWf_set _ _ _ _ | exact tblWf_erase _ _ _ | exact tblWf_map _ _ _ | exact tblWf_drop _ _ _ | with_unfolding_all exact tblWf_drop _ _ _ | exact (tblWf_put _ _ _ _ · (by simp)))) | split | intro _)

theorem excessQueue_keeps (s : State) (c : Nat) (force : Bool) (q : Nat) (_ : F.dma = true) (_ : F.peer = true) (_ : F.tenants = true) (_ : F.queues = true) (_ : F.jobs = true) (hK : Keeps F s0 s) : Keeps F s0 (excessQueue s c force q) := by
  unfold excessQueue
  try dsimp only
  repeat' (with_reducible first | assumption | apply Keeps.ite | apply Keeps.ite2 | apply Keeps.ite1 | apply Keeps.ite22 | apply Keeps.ite21 | apply modQueue_keeps | apply dropCopies_keeps | apply releaseQueue_keeps | apply hiveReset_keeps | apply dropMirror_keeps | split | intro _)

theorem resizeTenant_keeps (s : State) (a : AdmCfg) (_ : F.dma = true) (_ : F.peer = true) (_ : F.fns = true) (_ : F.tenants = true) (_ : F.queues = true) (_ : F.jobs = true) (_ : F.freeN = true) (hK : Keeps F s0 s) : Keeps F s0 (resizeTenant s a) := by
  unfold resizeTenant
  try dsimp only
  repeat' (with_reducible first | assumption | apply Keeps.ite | apply Keeps.ite2 | apply Keeps.ite1 | apply Keeps.ite22 | apply Keeps.ite21 | apply modTenant_keeps | apply modFunc_keeps | apply stepTenant_keeps | apply addQueues_keeps | apply addGranules_keeps | apply excessQueue_keeps | (apply Keeps.each; intro _ _ _) | split | intro _)

theorem clearMail_keeps (s : State) (c : Nat) (_ : F.tenants = true) (hK : Keeps F s0 s) : Keeps F s0 (clearMail s c) := by
  unfold clearMail
  try dsimp only
  repeat' (with_reducible first | assumption | apply Keeps.ite | apply Keeps.ite2 | apply Keeps.ite1 | apply Keeps.ite22 | apply Keeps.ite21 | apply modTenant_keeps | split | intro _)

theorem orphanTenant_keeps (s : State) (c : Nat) (_ : F.store = true) (_ : F.tenants = true) (_ : F.rings = true) (_ : F.ctxs = true) (_ : F.slots = true) (_ : F.combs = true) (hK : Keeps F s0 s) : Keeps F s0 (orphanTenant s c) := by
  unfold orphanTenant
  try dsimp only
  repeat' (with_reducible first | assumption | apply Keeps.ite | apply Keeps.ite2 | apply Keeps.ite1 | apply Keeps.ite22 | apply Keeps.ite21 | apply modTenant_keeps | apply bumpGen_keeps | apply writeRec_keeps | apply dropReceipts_keeps | apply closeCtxs_keeps | apply clearMail_keeps | (fail_if_no_progress refine Keeps.set_rings ‹_› ?_ (by first | exact fun h => h | exact tblWf_set _ _ _ _ | exact tblWf_erase _ _ _ | exact tblWf_map _ _ _ | exact tblWf_drop _ _ _ | with_unfolding_all exact tblWf_drop _ _ _ | exact (tblWf_put _ _ _ _ · (by simp)))) | split | intro _)

theorem dropBlocked_keeps (s : State) (c : Nat) (_ : F.ev = true) (_ : F.dma = true) (_ : F.wg = true) (_ : F.ks = true) (_ : F.fns = true) (_ : F.tenants = true) (_ : F.queues = true) (_ : F.ctxs = true) (_ : F.slots = true) (_ : F.combs = true) (_ : F.jobs = true) (_ : F.freeN = true) (hK : Keeps F s0 s) : Keeps F s0 (dropBlocked s c) := by
  unfold dropBlocked
  try dsimp only
  repeat' (with_reducible first | assumption | apply Keeps.ite | apply Keeps.ite2 | apply Keeps.ite1 | apply Keeps.ite22 | apply Keeps.ite21 | apply modQueue_keeps | apply abandonJob_keeps | apply refreshPending_keeps | (apply Keeps.each; intro _ _ _) | split | intro _)

theorem orphanIfQuiet_keeps (r0 : State) (c : Nat) (_ : F.store = true) (_ : F.ev = true) (_ : F.dma = true) (_ : F.wg = true) (_ : F.ks = true) (_ : F.fns = true) (_ : F.tenants = true) (_ : F.queues = true) (_ : F.rings = true) (_ : F.ctxs = true) (_ : F.slots = true) (_ : F.combs = true) (_ : F.jobs = true) (_ : F.freeN = true) (hK : Keeps F s0 r0) : Keeps F s0 (orphanIfQuiet r0 c) := by
  unfold orphanIfQuiet
  try dsimp only
  repeat' (with_reducible first | assumption | apply Keeps.ite | apply Keeps.ite2 | apply Keeps.ite1 | apply Keeps.ite22 | apply Keeps.ite21 | apply orphanTenant_keeps | apply dropBlocked_keeps | split)

theorem destroyTenant_keeps (s : State) (a : AdmCfg) (_ : F.store = true) (_ : F.ev = true) (_ : F.dma = true) (_ : F.peer = true) (_ : F.wg = true) (_ : F.ks = true) (_ : F.fns = true) (_ : F.tenants = true) (_ : F.queues = true) (_ : F.rings = true) (_ : F.ctxs = true) (_ : F.slots = true) (_ : F.combs = true) (_ : F.jobs = true) (_ : F.freeN = true) (hK : Keeps F s0 s) : Keeps F s0 (destroyTenant s a) := by
  unfold destroyTenant
  try dsimp only
  repeat' (with_reducible first | assumption | apply Keeps.ite | apply Keeps.ite2 | apply Keeps.ite1 | apply Keeps.ite22 | apply Keeps.ite21 | apply stepTenant_keeps | apply releaseQueue_keeps | apply hiveReset_keeps | apply peerDiscard_keeps | apply peerEnd_keeps | apply orphanIfQuiet_keeps | (apply Keeps.each; intro _ _ _) | split | intro _)

theorem opDestroyComplete_keeps (c : Nat) (s : State) (_ : F.store = true) (_ : F.ev = true) (_ : F.dma = true) (_ : F.peer = true) (_ : F.wg = true) (_ : F.ks = true) (_ : F.sch = true) (_ : F.fns = true) (_ : F.tenants = true) (_ : F.queues = true) (_ : F.rings = true) (_ : F.ctxs = true) (_ : F.slots = true) (_ : F.combs = true) (_ : F.jobs = true) (_ : F.freeN = true) (hK : Keeps F s0 s) : Keeps F s0 (opDestroyComplete c s) := by
  unfold opDestroyComplete
  try dsimp only
  repeat' (with_reducible first | assumption | apply Keeps.ite | apply Keeps.ite2 | apply Keeps.ite1 | apply Keeps.ite22 | apply Keeps.ite21 | apply modTenant_keeps | apply modFunc_keeps | apply stepTenant_keeps | apply orphanIfQuiet_keeps | (fail_if_no_progress refine Keeps.set_sch_queues ‹_› ‹_› ?_ (by first | exact fun h => h | exact tblWf_set _ _ _ _ | exact tblWf_erase _ _ _ | exact tblWf_map _ _ _ | exact tblWf_drop _ _ _ | with_unfolding_all exact tblWf_drop _ _ _ | exact (tblWf_put _ _ _ _ · (by simp)))) | split | intro _)

theorem admEnd_keeps (s : State) (a : AdmCfg) (r : Nat) (_ : F.ev = true) (_ : F.adm = true) (_ : F.fns = true) (_ : F.tenants = true) (hK : Keeps F s0 s) : Keeps F s0 (admEnd s a r) := by
  unfold admEnd
  try dsimp only
  repeat' (with_reducible first | assumption | apply Keeps.ite | apply Keeps.ite2 | apply Keeps.ite1 | apply Keeps.ite22 | apply Keeps.ite21 | apply raiseHive_keeps | (fail_if_no_progress refine Keeps.set_adm ‹_› ?_) | split)

theorem fenceCheck_keeps (s : State) (_ : F.ev = true) (_ : F.dma = true) (_ : F.peer = true) (_ : F.adm = true) (_ : F.fns = true) (_ : F.tenants = true) (_ : F.queues = true) (_ : F.jobs = true) (_ : F.freeN = true) (hK : Keeps F s0 s) : Keeps F s0 (fenceCheck s) := by
  unfold fenceCheck
  try dsimp only
  repeat' (with_reducible first | assumption | apply Keeps.ite | apply Keeps.ite2 | apply Keeps.ite1 | apply Keeps.ite22 | apply Keeps.ite21 | apply resizeTenant_keeps | apply admEnd_keeps | (fail_if_no_progress refine Keeps.set_adm ‹_› ?_) | split)

theorem admTake_keeps (s : State) (_ : F.store = true) (_ : F.aon = true) (_ : F.ev = true) (_ : F.dma = true) (_ : F.peer = true) (_ : F.wg = true) (_ : F.adm = true) (_ : F.ks = true) (_ : F.sch = true) (_ : F.fns = true) (_ : F.tenants = true) (_ : F.queues = true) (_ : F.rings = true) (_ : F.ctxs = true) (_ : F.slots = true) (_ : F.combs = true) (_ : F.jobs = true) (_ : F.freeN = true) (hK : Keeps F s0 s) : Keeps F s0 (admTake s) := by
  unfold admTake
  try dsimp only
  repeat' (with_reducible first | assumption | apply Keeps.ite | apply Keeps.ite2 | apply Keeps.ite1 | apply Keeps.ite22 | apply Keeps.ite21 | apply createTenant_keeps | apply resizeTenant_keeps | apply destroyTenant_keeps | apply admEnd_keeps | (fail_if_no_progress refine Keeps.set_adm ‹_› ?_) | split)

theorem admCommit_keeps (s : State) (_ : F.store = true) (_ : F.aon = true) (_ : F.ev = true) (_ : F.dma = true) (_ : F.peer = true) (_ : F.wg = true) (_ : F.adm = true) (_ : F.ks = true) (_ : F.sch = true) (_ : F.fns = true) (_ : F.tenants = true) (_ : F.queues = true) (_ : F.rings = true) (_ : F.ctxs = true) (_ : F.slots = true) (_ : F.combs = true) (_ : F.jobs = true) (_ : F.freeN = true) (hK : Keeps F s0 s) : Keeps F s0 (admCommit s) := by
  unfold admCommit
  try dsimp only
  repeat' (with_reducible first | assumption | apply Keeps.ite | apply Keeps.ite2 | apply Keeps.ite1 | apply Keeps.ite22 | apply Keeps.ite21 | apply admTake_keeps | (fail_if_no_progress refine Keeps.set_adm ‹_› ?_) | split)

theorem opTnAdmCreate_keeps (s : State) (_ : F.store = true) (_ : F.aon = true) (_ : F.ev = true) (_ : F.dma = true) (_ : F.peer = true) (_ : F.wg = true) (_ : F.adm = true) (_ : F.ks = true) (_ : F.sch = true) (_ : F.fns = true) (_ : F.tenants = true) (_ : F.queues = true) (_ : F.rings = true) (_ : F.ctxs = true) (_ : F.slots = true) (_ : F.combs = true) (_ : F.jobs = true) (_ : F.freeN = true) (hK : Keeps F s0 s) : Keeps F s0 (opTnAdmCreate s) := by
  unfold opTnAdmCreate
  try dsimp only
  repeat' (with_reducible first | assumption | apply Keeps.ite | apply Keeps.ite2 | apply Keeps.ite1 | apply Keeps.ite22 | apply Keeps.ite21 | apply admCommit_keeps | split)

theorem opTnAdmResize_keeps (s : State) (_ : F.store = true) (_ : F.aon = true) (_ : F.ev = true) (_ : F.dma = true) (_ : F.peer = true) (_ : F.wg = true) (_ : F.adm = true) (_ : F.ks = true) (_ : F.sch = true) (_ : F.fns = true) (_ : F.tenants = true) (_ : F.queues = true) (_ : F.rings = true) (_ : F.ctxs = true) (_ : F.slots = true) (_ : F.combs = true) (_ : F.jobs = true) (_ : F.freeN = true) (hK : Keeps F s0 s) : Keeps F s0 (opTnAdmResize s) := by
  unfold opTnAdmResize
  try dsimp only
  repeat' (with_reducible first | assumption | apply Keeps.ite | apply Keeps.ite2 | apply Keeps.ite1 | apply Keeps.ite22 | apply Keeps.ite21 | apply admCommit_keeps | split)

theorem opTnAdmDestroy_keeps (s : State) (_ : F.store = true) (_ : F.aon = true) (_ : F.ev = true) (_ : F.dma = true) (_ : F.peer = true) (_ : F.wg = true) (_ : F.adm = true) (_ : F.ks = true) (_ : F.sch = true) (_ : F.fns = true) (_ : F.tenants = true) (_ : F.queues = true) (_ : F.rings = true) (_ : F.ctxs = true) (_ : F.slots = true) (_ : F.combs = true) (_ : F.jobs = true) (_ : F.freeN = true) (hK : Keeps F s0 s) : Keeps F s0 (opTnAdmDestroy s) := by
  unfold opTnAdmDestroy
  try dsimp only
  repeat' (with_reducible first | assumption | apply Keeps.ite | apply Keeps.ite2 | apply Keeps.ite1 | apply Keeps.ite22 | apply Keeps.ite21 | apply admCommit_keeps | split)

theorem opTnAdmOp0_keeps (s : State) (_ : F.store = true) (_ : F.aon = true) (_ : F.ev = true) (_ : F.dma = true) (_ : F.peer = true) (_ : F.wg = true) (_ : F.adm = true) (_ : F.ks = true) (_ : F.sch = true) (_ : F.fns = true) (_ : F.tenants = true) (_ : F.queues = true) (_ : F.rings = true) (_ : F.ctxs = true) (_ : F.slots = true) (_ : F.combs = true) (_ : F.jobs = true) (_ : F.freeN = true) (hK : Keeps F s0 s) : Keeps F s0 (opTnAdmOp0 s) := by
  unfold opTnAdmOp0
  try dsimp only
  repeat' (with_reducible first | assumption | apply Keeps.ite | apply Keeps.ite2 | apply Keeps.ite1 | apply Keeps.ite22 | apply Keeps.ite21 | apply admCommit_keeps | split)

theorem opAdmKeeperTimeout_keeps (s : State) (_ : F.ev = true) (_ : F.adm = true) (_ : F.fns = true) (_ : F.tenants = true) (hK : Keeps F s0 s) : Keeps F s0 (opAdmKeeperTimeout s) := by
  unfold opAdmKeeperTimeout
  try dsimp only
  repeat' (with_reducible first | assumption | apply Keeps.ite | apply Keeps.ite2 | apply Keeps.ite1 | apply Keeps.ite22 | apply Keeps.ite21 | apply admEnd_keeps | split)

theorem modWin_keeps (s : State) (c : Nat) (f : Windows → Windows) (_ : F.tenants = true) (hK : Keeps F s0 s) : Keeps F s0 (modWin s c f) := by
  unfold modWin
  try dsimp only
  repeat' (with_reducible first | assumption | apply Keeps.ite | apply Keeps.ite2 | apply Keeps.ite1 | apply Keeps.ite22 | apply Keeps.ite21 | apply modTenant_keeps | split | intro _)

theorem opTnDmawEntryWrite_keeps (reg : DmawReg) (v : W64) (s : State) (_ : F.tenants = true) (hK : Keeps F s0 s) : Keeps F s0 (opTnDmawEntryWrite reg v s) := by
  unfold opTnDmawEntryWrite
  try dsimp only
  repeat' (with_reducible first | assumption | apply Keeps.ite | apply Keeps.ite2 | apply Keeps.ite1 | apply Keeps.ite22 | apply Keeps.ite21 | apply modWin_keeps | split | intro _)

theorem opTnDmawFlip_keeps (c : Nat) (s : State) (_ : F.tenants = true) (hK : Keeps F s0 s) : Keeps F s0 (opTnDmawFlip c s) := by
  unfold opTnDmawFlip
  try dsimp only
  repeat' (with_reducible first | assumption | apply Keeps.ite | apply Keeps.ite2 | apply Keeps.ite1 | apply Keeps.ite22 | apply Keeps.ite21 | apply modWin_keeps | split | intro _)

theorem opDmawFlipEffect_keeps (c : Nat) (s : State) (_ : F.tenants = true) (hK : Keeps F s0 s) : Keeps F s0 (opDmawFlipEffect c s) := by
  unfold opDmawFlipEffect
  try dsimp only
  repeat' (with_reducible first | assumption | apply Keeps.ite | apply Keeps.ite2 | apply Keeps.ite1 | apply Keeps.ite22 | apply Keeps.ite21 | apply modWin_keeps | split | intro _)

theorem opDmawFlipDrained_keeps (c : Nat) (s : State) (_ : F.tenants = true) (hK : Keeps F s0 s) : Keeps F s0 (opDmawFlipDrained c s) := by
  unfold opDmawFlipDrained
  try dsimp only
  repeat' (with_reducible first | assumption | apply Keeps.ite | apply Keeps.ite2 | apply Keeps.ite1 | apply Keeps.ite22 | apply Keeps.ite21 | apply modWin_keeps | split | intro _)

/-! ## Mailbox -/

theorem modMail_keeps (s : State) (c : Nat) (f : Mbox → Mbox) (_ : F.tenants = true) (hK : Keeps F s0 s) : Keeps F s0 (modMail s c f) := by
  unfold modMail
  try dsimp only
  repeat' (with_reducible first | assumption | apply Keeps.ite | apply Keeps.ite2 | apply Keeps.ite1 | apply Keeps.ite22 | apply Keeps.ite21 | apply modTenant_keeps | split | intro _)

theorem writeH2k_keeps (s : State) (c : Nat) (f : Mbox → Mbox) (_ : F.tenants = true) (hK : Keeps F s0 s) : Keeps F s0 (writeH2k s c f) := by
  unfold writeH2k
  try dsimp only
  repeat' (with_reducible first | assumption | apply Keeps.ite | apply Keeps.ite2 | apply Keeps.ite1 | apply Keeps.ite22 | apply Keeps.ite21 | apply modMail_keeps | split | intro _)

theorem opMbH2kMsgWrite_keeps (c : Nat) (v : W32) (s : State) (_ : F.tenants = true) (hK : Keeps F s0 s) : Keeps F s0 (opMbH2kMsgWrite c v s) := by
  unfold opMbH2kMsgWrite
  try dsimp only
  repeat' (with_reducible first | assumption | apply Keeps.ite | apply Keeps.ite2 | apply Keeps.ite1 | apply Keeps.ite22 | apply Keeps.ite21 | apply modMail_keeps | split | intro _)

theorem reply_keeps (s : State) (c : Nat) (w : W32) (result : Nat) (body : Bytes) (_ : F.tenants = true) (hK : Keeps F s0 s) : Keeps F s0 (reply s c w result body) := by
  unfold reply
  try dsimp only
  repeat' (with_reducible first | assumption | apply Keeps.ite | apply Keeps.ite2 | apply Keeps.ite1 | apply Keeps.ite22 | apply Keeps.ite21 | apply mailFor_keeps | split)

theorem refuseMail_keeps (s : State) (c : Nat) (w : W32) (result : Nat) (_ : F.tenants = true) (hK : Keeps F s0 s) : Keeps F s0 (refuseMail s c w result) := by
  unfold refuseMail
  try dsimp only
  repeat' (with_reducible first | assumption | apply Keeps.ite | apply Keeps.ite2 | apply Keeps.ite1 | apply Keeps.ite22 | apply Keeps.ite21 | apply modMail_keeps | apply reply_keeps | split | intro _)

theorem readBody_keeps (s : State) (c : Nat) (read : ReadEnd) (body : Bytes) (_ : F.aon = true) (_ : F.ev = true) (_ : F.hi = true) (_ : F.dma = true) (_ : F.fns = true) (_ : F.tenants = true) (_ : F.combs = true) (_ : F.out = true) (hK : Keeps F s0 s) : Keeps F s0 (readBody s c read body) := by
  unfold readBody
  try dsimp only
  repeat' (with_reducible first | assumption | apply Keeps.ite | apply Keeps.ite2 | apply Keeps.ite1 | apply Keeps.ite22 | apply Keeps.ite21 | apply keeperRead_keeps | apply modMail_keeps | apply refuseMail_keeps | (apply Keeps.ofEq2 ‹_›) | split | intro _)

theorem opH2kKeeperRead_keeps (c : Nat) (read : ReadEnd) (body : Bytes) (s : State) (_ : F.aon = true) (_ : F.ev = true) (_ : F.hi = true) (_ : F.dma = true) (_ : F.fns = true) (_ : F.tenants = true) (_ : F.combs = true) (_ : F.out = true) (hK : Keeps F s0 s) : Keeps F s0 (opH2kKeeperRead c read body s) := by
  unfold opH2kKeeperRead
  try dsimp only
  repeat' (with_reducible first | assumption | apply Keeps.ite | apply Keeps.ite2 | apply Keeps.ite1 | apply Keeps.ite22 | apply Keeps.ite21 | apply signalVec_keeps | apply modMail_keeps | apply readBody_keeps | split | intro _)

theorem answer_keeps (s : State) (c : Nat) (isType : Nat → Bool) (result : Nat) (echo : Bool) (_ : F.tenants = true) (hK : Keeps F s0 s) : Keeps F s0 (answer s c isType result echo) := by
  unfold answer
  try dsimp only
  repeat' (with_reducible first | assumption | apply Keeps.ite | apply Keeps.ite2 | apply Keeps.ite1 | apply Keeps.ite22 | apply Keeps.ite21 | apply modMail_keeps | apply reply_keeps | split | intro _)

theorem opEcho_keeps (c : Nat) (s : State) (_ : F.tenants = true) (hK : Keeps F s0 s) : Keeps F s0 (opEcho c s) := by
  unfold opEcho
  try dsimp only
  repeat' (with_reducible first | assumption | apply Keeps.ite | apply Keeps.ite2 | apply Keeps.ite1 | apply Keeps.ite22 | apply Keeps.ite21 | apply answer_keeps | split)

theorem opUnknownType_keeps (c : Nat) (s : State) (_ : F.tenants = true) (hK : Keeps F s0 s) : Keeps F s0 (opUnknownType c s) := by
  unfold opUnknownType
  try dsimp only
  repeat' (with_reducible first | assumption | apply Keeps.ite | apply Keeps.ite2 | apply Keeps.ite1 | apply Keeps.ite22 | apply Keeps.ite21 | apply answer_keeps | split)

theorem opK2hPost_keeps (c : Nat) (s : State) (_ : F.hi = true) (_ : F.dma = true) (_ : F.fns = true) (_ : F.tenants = true) (_ : F.out = true) (hK : Keeps F s0 s) : Keeps F s0 (opK2hPost c s) := by
  unfold opK2hPost
  try dsimp only
  repeat' (with_reducible first | assumption | apply Keeps.ite | apply Keeps.ite2 | apply Keeps.ite1 | apply Keeps.ite22 | apply Keeps.ite21 | apply signalVec_keeps | apply bodyWrite_keeps | apply modMail_keeps | (apply Keeps.ofEq2 ‹_›) | split | intro _)

theorem opMbK2hMsgRead_keeps (c : Nat) (s : State) (_ : F.tenants = true) (_ : F.resp = true) (hK : Keeps F s0 s) : Keeps F s0 (opMbK2hMsgRead c s) := by
  unfold opMbK2hMsgRead
  try dsimp only
  repeat' (with_reducible first | assumption | apply Keeps.ite | apply Keeps.ite2 | apply Keeps.ite1 | apply Keeps.ite22 | apply Keeps.ite21 | apply modMail_keeps | (fail_if_no_progress refine Keeps.set_resp ‹_› ?_) | split | intro _)

theorem opMbPoolRegister_keeps (c : Nat) (reg : PoolReg) (s : State) (_ : F.tenants = true) (hK : Keeps F s0 s) : Keeps F s0 (opMbPoolRegister c reg s) := by
  unfold opMbPoolRegister
  try dsimp only
  repeat' (with_reducible first | assumption | apply Keeps.ite | apply Keeps.ite2 | apply Keeps.ite1 | apply Keeps.ite22 | apply Keeps.ite21 | apply modMail_keeps | split | intro _)

theorem restartMail_keeps (s : State) (c : Nat) (_ : F.tenants = true) (hK : Keeps F s0 s) : Keeps F s0 (restartMail s c) := by
  unfold restartMail
  try dsimp only
  repeat' (with_reducible first | assumption | apply Keeps.ite | apply Keeps.ite2 | apply Keeps.ite1 | apply Keeps.ite22 | apply Keeps.ite21 | apply mailFor_keeps | apply modMail_keeps | split | intro _)

/-! ## Sleep -/

theorem judgeEnter_keeps (s : State) (_ : F.hv = true) (hK : Keeps F s0 s) : Keeps F s0 (judgeEnter s) := by
  unfold judgeEnter
  try dsimp only
  repeat' (with_reducible first | assumption | apply Keeps.ite | apply Keeps.ite2 | apply Keeps.ite1 | apply Keeps.ite22 | apply Keeps.ite21 | (fail_if_no_progress refine Keeps.set_hv ‹_› ?_ (by first | exact fun h => h | (intro _; dsimp only; split <;> decide) | (intro _; simp; done)) (by first | exact fun h => h | (intro _; dsimp only; split <;> decide) | (intro _; simp; done))) | split)

theorem enterAgain_keeps (s : State) (_ : F.hv = true) (hK : Keeps F s0 s) : Keeps F s0 (enterAgain s) := by
  unfold enterAgain
  try dsimp only
  repeat' (with_reducible first | assumption | apply Keeps.ite | apply Keeps.ite2 | apply Keeps.ite1 | apply Keeps.ite22 | apply Keeps.ite21 | apply judgeEnter_keeps | split)

/-! ## Time -/

theorem linkTick_keeps (s : State) (_ : F.hi = true) (_ : F.out = true) (hK : Keeps F s0 s) : Keeps F s0 (linkTick s) := by
  unfold linkTick
  try dsimp only
  repeat' (with_reducible first | assumption | apply Keeps.ite | apply Keeps.ite2 | apply Keeps.ite1 | apply Keeps.ite22 | apply Keeps.ite21 | apply sendLtr_keeps | apply linkActive_keeps | split)

theorem answerQueueCmds_keeps (s : State) (_ : F.doe = true) (_ : F.out = true) (hK : Keeps F s0 s) : Keeps F s0 (answerQueueCmds s) := by
  unfold answerQueueCmds
  try dsimp only
  repeat' (with_reducible first | assumption | apply Keeps.ite | apply Keeps.ite2 | apply Keeps.ite1 | apply Keeps.ite22 | apply Keeps.ite21 | apply emit_keeps | (fail_if_no_progress refine Keeps.set_doe ‹_› ?_) | split | intro _)

theorem countTick_keeps (s : State) (_ : F.hv = true) (_ : F.aon = true) (hK : Keeps F s0 s) : Keeps F s0 (countTick s) := by
  unfold countTick
  try dsimp only
  repeat' (with_reducible first | assumption | apply Keeps.ite | apply Keeps.ite2 | apply Keeps.ite1 | apply Keeps.ite22 | apply Keeps.ite21 | (fail_if_no_progress refine Keeps.set_hv_aon ‹_› ‹_› ?_ (by first | exact fun h => h | (intro _; dsimp only; split <;> decide) | (intro _; simp; done)) (by first | exact fun h => h | (intro _; dsimp only; split <;> decide) | (intro _; simp; done))) | split)

theorem fclkTick_keeps (s : State) (_ : F.hi = true) (_ : F.doe = true) (_ : F.peer = true) (_ : F.sync = true) (_ : F.wg = true) (_ : F.out = true) (hK : Keeps F s0 s) : Keeps F s0 (fclkTick s) := by
  unfold fclkTick
  try dsimp only
  repeat' (with_reducible first | assumption | apply Keeps.ite | apply Keeps.ite2 | apply Keeps.ite1 | apply Keeps.ite22 | apply Keeps.ite21 | apply xoffEdge_keeps | apply linkTick_keeps | apply answerQueueCmds_keeps | (fail_if_no_progress refine Keeps.set_sync_wg ‹_› ‹_› ?_) | split)

theorem assignDue_keeps (s : State) (n : Nat) (_ : F.aon = true) (_ : F.ev = true) (_ : F.hi = true) (_ : F.dma = true) (_ : F.peer = true) (_ : F.wg = true) (_ : F.fns = true) (_ : F.tenants = true) (_ : F.combs = true) (_ : F.jobs = true) (_ : F.out = true) (hK : Keeps F s0 s) : Keeps F s0 (assignDue s n) := by
  induction n generalizing s with
  | zero => exact hK
  | succ n ih =>
    rw [assignDue]
    repeat' (with_reducible first | assumption | apply ih | apply opLeafAssign_keeps | split)


theorem edgeWork_keeps (s : State) (_ : F.hv = true) (_ : F.aon = true) (_ : F.ev = true) (_ : F.hi = true) (_ : F.dma = true) (_ : F.peer = true) (_ : F.sync = true) (_ : F.wg = true) (_ : F.adm = true) (_ : F.fns = true) (_ : F.tenants = true) (_ : F.queues = true) (_ : F.combs = true) (_ : F.jobs = true) (_ : F.out = true) (_ : F.freeN = true) (hK : Keeps F s0 s) : Keeps F s0 (edgeWork s) := by
  unfold edgeWork
  try dsimp only
  repeat' (with_reducible first | assumption | apply Keeps.ite | apply Keeps.ite2 | apply Keeps.ite1 | apply Keeps.ite22 | apply Keeps.ite21 | apply judgeEdge_keeps | apply opEpochClose_keeps | apply ckptMissed_keeps | apply fenceCheck_keeps | apply enterAgain_keeps | apply assignDue_keeps | split)

theorem idleTick_keeps (s : State) (_ : F.hv = true) (_ : F.otp = true) (_ : F.aon = true) (_ : F.ev = true) (_ : F.hi = true) (_ : F.dma = true) (_ : F.doe = true) (_ : F.lc = true) (_ : F.peer = true) (_ : F.sync = true) (_ : F.wg = true) (_ : F.adm = true) (_ : F.ks = true) (_ : F.fns = true) (_ : F.tenants = true) (_ : F.queues = true) (_ : F.ctxs = true) (_ : F.slots = true) (_ : F.combs = true) (_ : F.jobs = true) (_ : F.out = true) (_ : F.freeN = true) (hK : Keeps F s0 s) : Keeps F s0 (idleTick s) := by
  unfold idleTick
  try dsimp only
  repeat' (with_reducible first | assumption | (intro _ _) | apply Keeps.ite | apply Keeps.ite2 | apply Keeps.ite1 | apply Keeps.ite22 | apply Keeps.ite21 | apply onClock_keeps | apply otpTick_keeps | apply armTick_keeps | apply countTick_keeps | apply fclkTick_keeps | apply edgeWork_keeps | split | intro _)

/-! ## Functions -/

theorem sendVector_keeps (s : State) (c : Nat) (v : Nat) (_ : F.hi = true) (_ : F.fns = true) (_ : F.out = true) (hK : Keeps F s0 s) : Keeps F s0 (sendVector s c v) := by
  unfold sendVector
  try dsimp only
  repeat' (with_reducible first | assumption | apply Keeps.ite | apply Keeps.ite2 | apply Keeps.ite1 | apply Keeps.ite22 | apply Keeps.ite21 | apply modFunc_keeps | apply emit_keeps | apply linkActive_keeps | split | intro _)

theorem opMsixMessageSend_keeps (c : Nat) (v : Nat) (s : State) (_ : F.hi = true) (_ : F.fns = true) (_ : F.out = true) (hK : Keeps F s0 s) : Keeps F s0 (opMsixMessageSend c v s) := by
  unfold opMsixMessageSend
  try dsimp only
  repeat' (with_reducible first | assumption | apply Keeps.ite | apply Keeps.ite2 | apply Keeps.ite1 | apply Keeps.ite22 | apply Keeps.ite21 | apply modFunc_keeps | apply sendVector_keeps | split | intro _)

theorem opModerationIntervalEnd_keeps (c : Nat) (v : Nat) (s : State) (_ : F.hi = true) (_ : F.fns = true) (_ : F.out = true) (hK : Keeps F s0 s) : Keeps F s0 (opModerationIntervalEnd c v s) := by
  unfold opModerationIntervalEnd
  try dsimp only
  repeat' (with_reducible first | assumption | apply Keeps.ite | apply Keeps.ite2 | apply Keeps.ite1 | apply Keeps.ite22 | apply Keeps.ite21 | apply modFunc_keeps | apply sendVector_keeps | split | intro _)

theorem sendIfDue_keeps (s : State) (c : Nat) (v : Nat) (_ : F.hi = true) (_ : F.fns = true) (_ : F.out = true) (hK : Keeps F s0 s) : Keeps F s0 (sendIfDue s c v) := by
  unfold sendIfDue
  try dsimp only
  repeat' (with_reducible first | assumption | apply Keeps.ite | apply Keeps.ite2 | apply Keeps.ite1 | apply Keeps.ite22 | apply Keeps.ite21 | apply modFunc_keeps | apply sendVector_keeps | split | intro _)

theorem sendPending_keeps (s : State) (c : Nat) (_ : F.hi = true) (_ : F.fns = true) (_ : F.out = true) (hK : Keeps F s0 s) : Keeps F s0 (sendPending s c) := by
  unfold sendPending
  try dsimp only
  repeat' (with_reducible first | assumption | apply Keeps.ite | apply Keeps.ite2 | apply Keeps.ite1 | apply Keeps.ite22 | apply Keeps.ite21 | apply sendIfDue_keeps | (apply Keeps.each; intro _ _ _) | split | intro _)

theorem opMsixMaskWrite_keeps (c : Nat) (w : MaskWrite) (s : State) (_ : F.hi = true) (_ : F.fns = true) (_ : F.out = true) (hK : Keeps F s0 s) : Keeps F s0 (opMsixMaskWrite c w s) := by
  unfold opMsixMaskWrite
  try dsimp only
  repeat' (with_reducible first | assumption | apply Keeps.ite | apply Keeps.ite2 | apply Keeps.ite1 | apply Keeps.ite22 | apply Keeps.ite21 | apply modFunc_keeps | apply sendPending_keeps | split | intro _)

theorem stopMastering_keeps (s : State) (c : Nat) (_ : F.dma = true) (_ : F.peer = true) (_ : F.ks = true) (_ : F.fns = true) (_ : F.tenants = true) (_ : F.queues = true) (_ : F.ctxs = true) (_ : F.slots = true) (_ : F.combs = true) (_ : F.jobs = true) (_ : F.freeN = true) (hK : Keeps F s0 s) : Keeps F s0 (stopMastering s c) := by
  unfold stopMastering
  try dsimp only
  repeat' (with_reducible first | assumption | apply Keeps.ite | apply Keeps.ite2 | apply Keeps.ite1 | apply Keeps.ite22 | apply Keeps.ite21 | apply modFunc_keeps | apply orphanReads_keeps | apply abandonJob_keeps | apply bmeQueue_keeps | (apply Keeps.each; intro _ _ _) | split | intro _)

theorem opBmeClear_keeps (fn : Nat) (s : State) (_ : F.ev = true) (_ : F.dma = true) (_ : F.peer = true) (_ : F.wg = true) (_ : F.ks = true) (_ : F.fns = true) (_ : F.tenants = true) (_ : F.queues = true) (_ : F.ctxs = true) (_ : F.slots = true) (_ : F.combs = true) (_ : F.jobs = true) (_ : F.freeN = true) (hK : Keeps F s0 s) : Keeps F s0 (opBmeClear fn s) := by
  unfold opBmeClear
  try dsimp only
  repeat' (with_reducible first | assumption | apply Keeps.ite | apply Keeps.ite2 | apply Keeps.ite1 | apply Keeps.ite22 | apply Keeps.ite21 | apply modFunc_keeps | apply refreshPending_keeps | apply stopMastering_keeps | split | intro _)

theorem resumeWrites_keeps (s : State) (c : Nat) (_ : F.hi = true) (_ : F.dma = true) (_ : F.peer = true) (_ : F.wg = true) (_ : F.ks = true) (_ : F.fns = true) (_ : F.tenants = true) (_ : F.queues = true) (_ : F.jobs = true) (_ : F.out = true) (_ : F.freeN = true) (hK : Keeps F s0 s) : Keeps F s0 (resumeWrites s c) := by
  unfold resumeWrites
  try dsimp only
  repeat' (with_reducible first | assumption | apply Keeps.ite | apply Keeps.ite2 | apply Keeps.ite1 | apply Keeps.ite22 | apply Keeps.ite21 | apply rlogResume_keeps | apply mlogResume_keeps | apply retryReads_keeps | apply sendPending_keeps | split)

theorem opBmeSet_keeps (fn : Nat) (s : State) (_ : F.hi = true) (_ : F.dma = true) (_ : F.peer = true) (_ : F.wg = true) (_ : F.ks = true) (_ : F.fns = true) (_ : F.tenants = true) (_ : F.queues = true) (_ : F.jobs = true) (_ : F.out = true) (_ : F.freeN = true) (hK : Keeps F s0 s) : Keeps F s0 (opBmeSet fn s) := by
  unfold opBmeSet
  try dsimp only
  repeat' (with_reducible first | assumption | apply Keeps.ite | apply Keeps.ite2 | apply Keeps.ite1 | apply Keeps.ite22 | apply Keeps.ite21 | apply modFunc_keeps | apply resumeWrites_keeps | split | intro _)

theorem startFlr_keeps (s : State) (fn : Nat) (_ : F.ev = true) (_ : F.dma = true) (_ : F.peer = true) (_ : F.wg = true) (_ : F.ks = true) (_ : F.fns = true) (_ : F.tenants = true) (_ : F.queues = true) (_ : F.ctxs = true) (_ : F.slots = true) (_ : F.combs = true) (_ : F.jobs = true) (_ : F.halves = true) (_ : F.latches = true) (_ : F.freeN = true) (hK : Keeps F s0 s) : Keeps F s0 (startFlr s fn) := by
  unfold startFlr
  try dsimp only
  repeat' (with_reducible first | assumption | apply Keeps.ite | apply Keeps.ite2 | apply Keeps.ite1 | apply Keeps.ite22 | apply Keeps.ite21 | apply modFunc_keeps | apply orphanReads_keeps | apply abandonJob_keeps | apply flrQueue_keeps | apply refreshPending_keeps | (apply Keeps.each; intro _ _ _) | (fail_if_no_progress refine Keeps.set_dma_halves_latches ‹_› ‹_› ‹_› ?_ (by first | exact fun h => h | exact tblWf_set _ _ _ _ | exact tblWf_erase _ _ _ | exact tblWf_map _ _ _ | exact tblWf_drop _ _ _ | with_unfolding_all exact tblWf_drop _ _ _ | exact (tblWf_put _ _ _ _ · (by simp)))) | split | intro _)

theorem opFlr_keeps (fn : Nat) (s : State) (_ : F.ev = true) (_ : F.dma = true) (_ : F.peer = true) (_ : F.wg = true) (_ : F.ks = true) (_ : F.fns = true) (_ : F.tenants = true) (_ : F.queues = true) (_ : F.ctxs = true) (_ : F.slots = true) (_ : F.combs = true) (_ : F.jobs = true) (_ : F.halves = true) (_ : F.latches = true) (_ : F.freeN = true) (hK : Keeps F s0 s) : Keeps F s0 (opFlr fn s) := by
  unfold opFlr
  try dsimp only
  repeat' (with_reducible first | assumption | apply Keeps.ite | apply Keeps.ite2 | apply Keeps.ite1 | apply Keeps.ite22 | apply Keeps.ite21 | apply startFlr_keeps | split | intro _)

theorem flrTenant_keeps (s : State) (fn : Nat) (_ : F.tenants = true) (_ : F.rings = true) (_ : F.ctxs = true) (_ : F.slots = true) (_ : F.combs = true) (hK : Keeps F s0 s) : Keeps F s0 (flrTenant s fn) := by
  unfold flrTenant
  try dsimp only
  repeat' (with_reducible first | assumption | apply Keeps.ite | apply Keeps.ite2 | apply Keeps.ite1 | apply Keeps.ite22 | apply Keeps.ite21 | apply modTenant_keeps | apply moveSession_keeps | apply dropReceipts_keeps | apply closeCtxs_keeps | apply clearMail_keeps | (fail_if_no_progress refine Keeps.set_rings ‹_› ?_ (by first | exact fun h => h | exact tblWf_set _ _ _ _ | exact tblWf_erase _ _ _ | exact tblWf_map _ _ _ | exact tblWf_drop _ _ _ | with_unfolding_all exact tblWf_drop _ _ _ | exact (tblWf_put _ _ _ _ · (by simp)))) | split | intro _)

theorem opFlrReadsDrained_keeps (fn : Nat) (s : State) (_ : F.fns = true) (_ : F.tenants = true) (_ : F.rings = true) (_ : F.ctxs = true) (_ : F.slots = true) (_ : F.combs = true) (hK : Keeps F s0 s) : Keeps F s0 (opFlrReadsDrained fn s) := by
  unfold opFlrReadsDrained
  try dsimp only
  repeat' (with_reducible first | assumption | apply Keeps.ite | apply Keeps.ite2 | apply Keeps.ite1 | apply Keeps.ite22 | apply Keeps.ite21 | apply modFunc_keeps | apply flrTenant_keeps | split | intro _)

theorem flrCap_keeps (s : State) (_ : F.cap = true) (_ : F.doe = true) (hK : Keeps F s0 s) : Keeps F s0 (flrCap s) := by
  unfold flrCap
  try dsimp only
  repeat' (with_reducible first | assumption | apply Keeps.ite | apply Keeps.ite2 | apply Keeps.ite1 | apply Keeps.ite22 | apply Keeps.ite21 | (fail_if_no_progress refine Keeps.set_cap_doe ‹_› ‹_› ?_) | split)

theorem opFlrDone_keeps (fn : Nat) (s : State) (_ : F.ev = true) (_ : F.cap = true) (_ : F.doe = true) (_ : F.fns = true) (_ : F.tenants = true) (hK : Keeps F s0 s) : Keeps F s0 (opFlrDone fn s) := by
  unfold opFlrDone
  try dsimp only
  repeat' (with_reducible first | assumption | apply Keeps.ite | apply Keeps.ite2 | apply Keeps.ite1 | apply Keeps.ite22 | apply Keeps.ite21 | apply modFunc_keeps | apply raiseHive_keeps | apply flrCap_keeps | split | intro _)

theorem opD3hotEntry_keeps (fn : Nat) (s : State) (_ : F.ev = true) (_ : F.dma = true) (_ : F.peer = true) (_ : F.wg = true) (_ : F.ks = true) (_ : F.fns = true) (_ : F.tenants = true) (_ : F.queues = true) (_ : F.ctxs = true) (_ : F.slots = true) (_ : F.combs = true) (_ : F.jobs = true) (_ : F.freeN = true) (hK : Keeps F s0 s) : Keeps F s0 (opD3hotEntry fn s) := by
  unfold opD3hotEntry
  try dsimp only
  repeat' (with_reducible first | assumption | apply Keeps.ite | apply Keeps.ite2 | apply Keeps.ite1 | apply Keeps.ite22 | apply Keeps.ite21 | apply modFunc_keeps | apply refreshPending_keeps | apply stopMastering_keeps | split | intro _)

theorem opD3hotToD0_keeps (fn : Nat) (s : State) (_ : F.ev = true) (_ : F.dma = true) (_ : F.peer = true) (_ : F.wg = true) (_ : F.ks = true) (_ : F.fns = true) (_ : F.tenants = true) (_ : F.queues = true) (_ : F.ctxs = true) (_ : F.slots = true) (_ : F.combs = true) (_ : F.jobs = true) (_ : F.halves = true) (_ : F.latches = true) (_ : F.freeN = true) (hK : Keeps F s0 s) : Keeps F s0 (opD3hotToD0 fn s) := by
  unfold opD3hotToD0
  try dsimp only
  repeat' (with_reducible first | assumption | apply Keeps.ite | apply Keeps.ite2 | apply Keeps.ite1 | apply Keeps.ite22 | apply Keeps.ite21 | apply startFlr_keeps | split | intro _)

theorem opVfEnableClear_keeps (s : State) (_ : F.ev = true) (_ : F.cap = true) (_ : F.dma = true) (_ : F.peer = true) (_ : F.wg = true) (_ : F.ks = true) (_ : F.fns = true) (_ : F.tenants = true) (_ : F.queues = true) (_ : F.ctxs = true) (_ : F.slots = true) (_ : F.combs = true) (_ : F.jobs = true) (_ : F.halves = true) (_ : F.latches = true) (_ : F.freeN = true) (hK : Keeps F s0 s) : Keeps F s0 (opVfEnableClear s) := by
  unfold opVfEnableClear
  try dsimp only
  repeat' (with_reducible first | assumption | apply Keeps.ite | apply Keeps.ite2 | apply Keeps.ite1 | apply Keeps.ite22 | apply Keeps.ite21 | apply startFlr_keeps | (apply Keeps.each; intro _ _ _) | (fail_if_no_progress refine Keeps.set_cap ‹_› ?_) | split | intro _)

theorem opHiWttFlip_keeps (s : State) (_ : F.hi = true) (hK : Keeps F s0 s) : Keeps F s0 (opHiWttFlip s) := by
  unfold opHiWttFlip
  try dsimp only
  repeat' (with_reducible first | assumption | apply Keeps.ite | apply Keeps.ite2 | apply Keeps.ite1 | apply Keeps.ite22 | apply Keeps.ite21 | (fail_if_no_progress refine Keeps.set_hi ‹_› ?_) | split)

theorem opWttFlipEffect_keeps (s : State) (_ : F.hi = true) (hK : Keeps F s0 s) : Keeps F s0 (opWttFlipEffect s) := by
  unfold opWttFlipEffect
  try dsimp only
  repeat' (with_reducible first | assumption | apply Keeps.ite | apply Keeps.ite2 | apply Keeps.ite1 | apply Keeps.ite22 | apply Keeps.ite21 | (fail_if_no_progress refine Keeps.set_hi ‹_› ?_) | split)

theorem opWttFlipDrained_keeps (s : State) (_ : F.hi = true) (hK : Keeps F s0 s) : Keeps F s0 (opWttFlipDrained s) := by
  unfold opWttFlipDrained
  try dsimp only
  repeat' (with_reducible first | assumption | apply Keeps.ite | apply Keeps.ite2 | apply Keeps.ite1 | apply Keeps.ite22 | apply Keeps.ite21 | (fail_if_no_progress refine Keeps.set_hi ‹_› ?_) | split)

theorem opLinkIdleSignal_keeps (s : State) (_ : F.hi = true) (_ : F.out = true) (hK : Keeps F s0 s) : Keeps F s0 (opLinkIdleSignal s) := by
  unfold opLinkIdleSignal
  try dsimp only
  repeat' (with_reducible first | assumption | apply Keeps.ite | apply Keeps.ite2 | apply Keeps.ite1 | apply Keeps.ite22 | apply Keeps.ite21 | apply sendLtr_keeps | (fail_if_no_progress refine Keeps.set_hi ‹_› ?_) | split)

/-! ## Spdm -/

theorem doeAnswer_keeps (s : State) (ty : Nat) (b : Bytes) (_ : F.doe = true) (_ : F.out = true) (_ : F.freeN = true) (hK : Keeps F s0 s) : Keeps F s0 (doeAnswer s ty b) := by
  unfold doeAnswer
  try dsimp only
  repeat' (with_reducible first | assumption | apply Keeps.ite | apply Keeps.ite2 | apply Keeps.ite1 | apply Keeps.ite22 | apply Keeps.ite21 | apply emit_keeps | (fail_if_no_progress refine Keeps.set_doe_freeN ‹_› ‹_› ?_) | split)

theorem doeServe_keeps (s : State) (k : State → State) (hk : ∀ y0, Keeps F s0 y0 → Keeps F s0 (k y0)) (hK : Keeps F s0 s) : Keeps F s0 (doeServe s k) := by
  unfold doeServe
  try dsimp only
  repeat' (with_reducible first | assumption | apply Keeps.ite | apply Keeps.ite2 | apply Keeps.ite1 | apply Keeps.ite22 | apply Keeps.ite21 | apply hk | split)

theorem doeTake_keeps (i : Instr) (s : State) (k : State → State) (hk : ∀ y0, Keeps F s0 y0 → Keeps F s0 (k y0)) (_ : F.doe = true) (hK : Keeps F s0 s) : Keeps F s0 (doeTake i s k) := by
  unfold doeTake
  try dsimp only
  repeat' (with_reducible first | assumption | (intro _ _) | apply Keeps.ite | apply Keeps.ite2 | apply Keeps.ite1 | apply Keeps.ite22 | apply Keeps.ite21 | apply hk | apply doeServe_keeps | (fail_if_no_progress refine Keeps.set_doe ‹_› ?_) | split | intro _)

theorem doeRequest_keeps (i : Instr) (s : State) (k : State → State) (hk : ∀ y0, Keeps F s0 y0 → Keeps F s0 (k y0)) (_ : F.hv = true) (_ : F.doe = true) (hK : Keeps F s0 s) : Keeps F s0 (doeRequest i s k) := by
  unfold doeRequest
  try dsimp only
  repeat' (with_reducible first | assumption | (intro _ _) | apply Keeps.ite | apply Keeps.ite2 | apply Keeps.ite1 | apply Keeps.ite22 | apply Keeps.ite21 | apply hk | apply whenClocked_keeps | apply wake_keeps | apply doeTake_keeps | split | intro _)

theorem answerDiscovery_keeps (index : Nat) (s : State) (_ : F.doe = true) (_ : F.out = true) (_ : F.freeN = true) (hK : Keeps F s0 s) : Keeps F s0 (answerDiscovery index s) := by
  unfold answerDiscovery
  try dsimp only
  repeat' (with_reducible first | assumption | apply Keeps.ite | apply Keeps.ite2 | apply Keeps.ite1 | apply Keeps.ite22 | apply Keeps.ite21 | apply doeAnswer_keeps | split)

theorem spdmReply_keeps (s : State) (ver : Nat) (code : Nat) (p1 : Nat) (p2 : Nat) (b : Bytes) (_ : F.doe = true) (_ : F.out = true) (_ : F.freeN = true) (hK : Keeps F s0 s) : Keeps F s0 (spdmReply s ver code p1 p2 b) := by
  unfold spdmReply
  try dsimp only
  repeat' (with_reducible first | assumption | apply Keeps.ite | apply Keeps.ite2 | apply Keeps.ite1 | apply Keeps.ite22 | apply Keeps.ite21 | apply doeAnswer_keeps | split)

theorem spdmError_keeps (s : State) (code : Nat) (data : Nat) (_ : F.doe = true) (_ : F.out = true) (_ : F.freeN = true) (hK : Keeps F s0 s) : Keeps F s0 (spdmError s code data) := by
  unfold spdmError
  try dsimp only
  repeat' (with_reducible first | assumption | apply Keeps.ite | apply Keeps.ite2 | apply Keeps.ite1 | apply Keeps.ite22 | apply Keeps.ite21 | apply spdmReply_keeps | split)

theorem answerVersion_keeps (s : State) (_ : F.doe = true) (_ : F.out = true) (_ : F.freeN = true) (hK : Keeps F s0 s) : Keeps F s0 (answerVersion s) := by
  unfold answerVersion
  try dsimp only
  repeat' (with_reducible first | assumption | apply Keeps.ite | apply Keeps.ite2 | apply Keeps.ite1 | apply Keeps.ite22 | apply Keeps.ite21 | apply spdmReply_keeps | (fail_if_no_progress refine Keeps.set_doe ‹_› ?_) | split)

theorem answerCapabilities_keeps (s : State) (_ : F.doe = true) (_ : F.out = true) (_ : F.freeN = true) (hK : Keeps F s0 s) : Keeps F s0 (answerCapabilities s) := by
  unfold answerCapabilities
  try dsimp only
  repeat' (with_reducible first | assumption | apply Keeps.ite | apply Keeps.ite2 | apply Keeps.ite1 | apply Keeps.ite22 | apply Keeps.ite21 | apply spdmReply_keeps | apply spdmError_keeps | (fail_if_no_progress refine Keeps.set_doe ‹_› ?_) | split)

theorem answerAlgorithms_keeps (sha256 : Bool) (sha384 : Bool) (ed25519 : Bool) (s : State) (_ : F.doe = true) (_ : F.out = true) (_ : F.freeN = true) (hK : Keeps F s0 s) : Keeps F s0 (answerAlgorithms sha256 sha384 ed25519 s) := by
  unfold answerAlgorithms
  try dsimp only
  repeat' (with_reducible first | assumption | apply Keeps.ite | apply Keeps.ite2 | apply Keeps.ite1 | apply Keeps.ite22 | apply Keeps.ite21 | apply spdmReply_keeps | apply spdmError_keeps | (fail_if_no_progress refine Keeps.set_doe ‹_› ?_) | split)

theorem answerDigests_keeps (s : State) (_ : F.doe = true) (_ : F.out = true) (_ : F.freeN = true) (hK : Keeps F s0 s) : Keeps F s0 (answerDigests s) := by
  unfold answerDigests
  try dsimp only
  repeat' (with_reducible first | assumption | apply Keeps.ite | apply Keeps.ite2 | apply Keeps.ite1 | apply Keeps.ite22 | apply Keeps.ite21 | apply spdmReply_keeps | apply spdmError_keeps | split)

theorem answerCertificate_keeps (slot : Nat) (off : Nat) (len : Nat) (s : State) (_ : F.doe = true) (_ : F.out = true) (_ : F.freeN = true) (hK : Keeps F s0 s) : Keeps F s0 (answerCertificate slot off len s) := by
  unfold answerCertificate
  try dsimp only
  repeat' (with_reducible first | assumption | apply Keeps.ite | apply Keeps.ite2 | apply Keeps.ite1 | apply Keeps.ite22 | apply Keeps.ite21 | apply spdmReply_keeps | apply spdmError_keeps | split)

theorem answerChallenge_keeps (c : SpdmChallenge) (s : State) (_ : F.doe = true) (_ : F.out = true) (_ : F.freeN = true) (hK : Keeps F s0 s) : Keeps F s0 (answerChallenge c s) := by
  unfold answerChallenge
  try dsimp only
  repeat' (with_reducible first | assumption | apply Keeps.ite | apply Keeps.ite2 | apply Keeps.ite1 | apply Keeps.ite22 | apply Keeps.ite21 | apply spdmReply_keeps | apply spdmError_keeps | split)

theorem answerMeasurements_keeps (index : Nat) (signed : Bool) (s : State) (_ : F.doe = true) (_ : F.out = true) (_ : F.freeN = true) (hK : Keeps F s0 s) : Keeps F s0 (answerMeasurements index signed s) := by
  unfold answerMeasurements
  try dsimp only
  repeat' (with_reducible first | assumption | apply Keeps.ite | apply Keeps.ite2 | apply Keeps.ite1 | apply Keeps.ite22 | apply Keeps.ite21 | apply spdmReply_keeps | apply spdmError_keeps | split)

theorem answerUnsupported_keeps (code : BitVec 8) (s : State) (_ : F.doe = true) (_ : F.out = true) (_ : F.freeN = true) (hK : Keeps F s0 s) : Keeps F s0 (answerUnsupported code s) := by
  unfold answerUnsupported
  try dsimp only
  repeat' (with_reducible first | assumption | apply Keeps.ite | apply Keeps.ite2 | apply Keeps.ite1 | apply Keeps.ite22 | apply Keeps.ite21 | apply spdmError_keeps | split)

theorem doeWork_keeps (i : Instr) (s : State) (_ : F.doe = true) (_ : F.out = true) (_ : F.freeN = true) (hK : Keeps F s0 s) : Keeps F s0 (doeWork i s) := by
  unfold doeWork
  try dsimp only
  repeat' (with_reducible first | assumption | apply Keeps.ite | apply Keeps.ite2 | apply Keeps.ite1 | apply Keeps.ite22 | apply Keeps.ite21 | apply answerDiscovery_keeps | apply answerVersion_keeps | apply answerCapabilities_keeps | apply answerAlgorithms_keeps | apply answerDigests_keeps | apply answerCertificate_keeps | apply answerChallenge_keeps | apply answerMeasurements_keeps | apply answerUnsupported_keeps | split)

theorem doeResume_keeps (s : State) (_ : F.doe = true) (_ : F.out = true) (_ : F.freeN = true) (hK : Keeps F s0 s) : Keeps F s0 (doeResume s) := by
  unfold doeResume
  try dsimp only
  repeat' (with_reducible first | assumption | (intro _ _) | apply Keeps.ite | apply Keeps.ite2 | apply Keeps.ite1 | apply Keeps.ite22 | apply Keeps.ite21 | apply doeServe_keeps | apply doeWork_keeps | split | intro _)

theorem opDoeAbort_keeps (s : State) (_ : F.doe = true) (hK : Keeps F s0 s) : Keeps F s0 (opDoeAbort s) := by
  unfold opDoeAbort
  try dsimp only
  repeat' (with_reducible first | assumption | apply Keeps.ite | apply Keeps.ite2 | apply Keeps.ite1 | apply Keeps.ite22 | apply Keeps.ite21 | (fail_if_no_progress refine Keeps.set_doe ‹_› ?_) | split)

theorem restartDoe_keeps (s : State) (_ : F.doe = true) (hK : Keeps F s0 s) : Keeps F s0 (restartDoe s) := by
  unfold restartDoe
  try dsimp only
  repeat' (with_reducible first | assumption | apply Keeps.ite | apply Keeps.ite2 | apply Keeps.ite1 | apply Keeps.ite22 | apply Keeps.ite21 | (fail_if_no_progress refine Keeps.set_doe ‹_› ?_) | split)

/-! ## Image -/

theorem applyImage_keeps (s : State) (l : List (Nat × Bytes)) (_ : F.hv = true) (_ : F.ev = true) (_ : F.hi = true) (_ : F.peer = true) (_ : F.sync = true) (_ : F.wg = true) (_ : F.ks = true) (_ : F.fns = true) (_ : F.tenants = true) (hK : Keeps F s0 s) : Keeps F s0 (applyImage s l) := by
  unfold applyImage
  try dsimp only
  repeat' (with_reducible first | assumption | apply Keeps.ite | apply Keeps.ite2 | apply Keeps.ite1 | apply Keeps.ite22 | apply Keeps.ite21 | apply applySync_keeps | (fail_if_no_progress refine Keeps.set_hi ‹_› ?_) | (fail_if_no_progress refine Keeps.set_sync ‹_› ?_) | (fail_if_no_progress refine Keeps.set_hv_hi_peer_wg_ks ‹_› ‹_› ‹_› ‹_› ‹_› ?_ (by first | exact fun h => h | (intro _; dsimp only; split <;> decide) | (intro _; simp; done)) (by first | exact fun h => h | (intro _; dsimp only; split <;> decide) | (intro _; simp; done)) (by first | exact fun h => h | exact tblWf_set _ _ _ _ | exact tblWf_erase _ _ _ | exact tblWf_map _ _ _ | exact tblWf_drop _ _ _ | with_unfolding_all exact tblWf_drop _ _ _ | exact (tblWf_put _ _ _ _ · (by simp)))) | (fail_if_no_progress refine Keeps.set_hi_sync ‹_› ‹_› ?_) | (fail_if_no_progress refine Keeps.set_hv_hi_peer_sync_wg_ks ‹_› ‹_› ‹_› ‹_› ‹_› ‹_› ?_ (by first | exact fun h => h | (intro _; dsimp only; split <;> decide) | (intro _; simp; done)) (by first | exact fun h => h | (intro _; dsimp only; split <;> decide) | (intro _; simp; done)) (by first | exact fun h => h | exact tblWf_set _ _ _ _ | exact tblWf_erase _ _ _ | exact tblWf_map _ _ _ | exact tblWf_drop _ _ _ | with_unfolding_all exact tblWf_drop _ _ _ | exact (tblWf_put _ _ _ _ · (by simp)))) | split)

/-! ## Update -/

theorem setInactive_keeps (s : State) (b : Bytes) (_ : F.store = true) (hK : Keeps F s0 s) : Keeps F s0 (setInactive s b) := by
  unfold setInactive
  try dsimp only
  repeat' (with_reducible first | assumption | apply Keeps.ite | apply Keeps.ite2 | apply Keeps.ite1 | apply Keeps.ite22 | apply Keeps.ite21 | (fail_if_no_progress refine Keeps.set_store ‹_› ?_ (by first | exact fun h => h | exact tblWf_set _ _ _ _ | exact tblWf_erase _ _ _ | exact tblWf_map _ _ _ | exact tblWf_drop _ _ _ | with_unfolding_all exact tblWf_drop _ _ _ | exact (tblWf_put _ _ _ _ · (by simp)))) | split)

theorem updEnd_keeps (s : State) (r : Nat) (_ : F.store = true) (_ : F.aon = true) (_ : F.ev = true) (_ : F.fns = true) (_ : F.tenants = true) (_ : F.combs = true) (hK : Keeps F s0 s) : Keeps F s0 (updEnd s r) := by
  unfold updEnd
  try dsimp only
  repeat' (with_reducible first | assumption | apply Keeps.ite | apply Keeps.ite2 | apply Keeps.ite1 | apply Keeps.ite22 | apply Keeps.ite21 | apply raiseHive_keeps | apply sticky_keeps | (fail_if_no_progress refine Keeps.set_store ‹_› ?_ (by first | exact fun h => h | exact tblWf_set _ _ _ _ | exact tblWf_erase _ _ _ | exact tblWf_map _ _ _ | exact tblWf_drop _ _ _ | with_unfolding_all exact tblWf_drop _ _ _ | exact (tblWf_put _ _ _ _ · (by simp)))) | split)

theorem updTake_keeps (s : State) (_ : F.store = true) (_ : F.aon = true) (_ : F.ev = true) (_ : F.fns = true) (_ : F.tenants = true) (_ : F.combs = true) (hK : Keeps F s0 s) : Keeps F s0 (updTake s) := by
  unfold updTake
  try dsimp only
  repeat' (with_reducible first | assumption | apply Keeps.ite | apply Keeps.ite2 | apply Keeps.ite1 | apply Keeps.ite22 | apply Keeps.ite21 | apply updEnd_keeps | (fail_if_no_progress refine Keeps.set_store ‹_› ?_ (by first | exact fun h => h | exact tblWf_set _ _ _ _ | exact tblWf_erase _ _ _ | exact tblWf_map _ _ _ | exact tblWf_drop _ _ _ | with_unfolding_all exact tblWf_drop _ _ _ | exact (tblWf_put _ _ _ _ · (by simp)))) | split)

theorem opCfUpdCommit_keeps (s : State) (_ : F.store = true) (_ : F.aon = true) (_ : F.ev = true) (_ : F.fns = true) (_ : F.tenants = true) (_ : F.combs = true) (hK : Keeps F s0 s) : Keeps F s0 (opCfUpdCommit s) := by
  unfold opCfUpdCommit
  try dsimp only
  repeat' (with_reducible first | assumption | apply Keeps.ite | apply Keeps.ite2 | apply Keeps.ite1 | apply Keeps.ite22 | apply Keeps.ite21 | apply updTake_keeps | (fail_if_no_progress refine Keeps.set_store ‹_› ?_ (by first | exact fun h => h | exact tblWf_set _ _ _ _ | exact tblWf_erase _ _ _ | exact tblWf_map _ _ _ | exact tblWf_drop _ _ _ | with_unfolding_all exact tblWf_drop _ _ _ | exact (tblWf_put _ _ _ _ · (by simp)))) | split)

theorem updRead_keeps (s : State) (read : ReadEnd) (k : State → State) (hk : ∀ y0, Keeps F s0 y0 → Keeps F s0 (k y0)) (_ : F.store = true) (_ : F.aon = true) (_ : F.ev = true) (_ : F.hi = true) (_ : F.dma = true) (_ : F.fns = true) (_ : F.tenants = true) (_ : F.combs = true) (_ : F.out = true) (hK : Keeps F s0 s) : Keeps F s0 (updRead s read k) := by
  unfold updRead
  try dsimp only
  repeat' (with_reducible first | assumption | apply Keeps.ite | apply Keeps.ite2 | apply Keeps.ite1 | apply Keeps.ite22 | apply Keeps.ite21 | apply hk | apply keeperRead_keeps | apply updEnd_keeps | (apply Keeps.ofEq2 ‹_›) | split)

theorem opUpdatePhaseDone_keeps (read : ReadEnd) (buf : Bytes) (s : State) (_ : F.store = true) (_ : F.aon = true) (_ : F.ev = true) (_ : F.hi = true) (_ : F.dma = true) (_ : F.fns = true) (_ : F.tenants = true) (_ : F.combs = true) (_ : F.out = true) (hK : Keeps F s0 s) : Keeps F s0 (opUpdatePhaseDone read buf s) := by
  unfold opUpdatePhaseDone
  try dsimp only
  repeat' (with_reducible first | assumption | (intro _ _) | apply Keeps.ite | apply Keeps.ite2 | apply Keeps.ite1 | apply Keeps.ite22 | apply Keeps.ite21 | apply setInactive_keeps | apply updEnd_keeps | apply updRead_keeps | (fail_if_no_progress refine Keeps.set_store ‹_› ?_ (by first | exact fun h => h | exact tblWf_set _ _ _ _ | exact tblWf_erase _ _ _ | exact tblWf_map _ _ _ | exact tblWf_drop _ _ _ | with_unfolding_all exact tblWf_drop _ _ _ | exact (tblWf_put _ _ _ _ · (by simp)))) | split | intro _)

theorem opUpdateKeeperTimeout_keeps (s : State) (_ : F.store = true) (_ : F.aon = true) (_ : F.ev = true) (_ : F.fns = true) (_ : F.tenants = true) (_ : F.combs = true) (hK : Keeps F s0 s) : Keeps F s0 (opUpdateKeeperTimeout s) := by
  unfold opUpdateKeeperTimeout
  try dsimp only
  repeat' (with_reducible first | assumption | apply Keeps.ite | apply Keeps.ite2 | apply Keeps.ite1 | apply Keeps.ite22 | apply Keeps.ite21 | apply updEnd_keeps | split)

theorem updRestart_keeps (s : State) (_ : F.store = true) (_ : F.aon = true) (_ : F.ev = true) (_ : F.fns = true) (_ : F.tenants = true) (_ : F.combs = true) (hK : Keeps F s0 s) : Keeps F s0 (updRestart s) := by
  unfold updRestart
  try dsimp only
  repeat' (with_reducible first | assumption | apply Keeps.ite | apply Keeps.ite2 | apply Keeps.ite1 | apply Keeps.ite22 | apply Keeps.ite21 | apply setInactive_keeps | apply updEnd_keeps | split)

end Sys2Proof.Machine
end

