-- ==== Sys2Proof/Laws/KeepsHost.lean ====
section
/-! SUPPORT. What the operations can do: their footprints, of the modules Startup, LifeCycle, Power, Commits, Map, Combs, Events, Mctp, Reads, Writes, Wake. -/

set_option linter.unreachableTactic false
set_option linter.unusedTactic false
set_option linter.unusedVariables false
set_option Elab.async false

namespace Sys2Proof.Machine

variable {F : Foot} {s0 : State}

/-! ## Startup -/

theorem resetCombs_wf (b : BitVec 256) : tblWf {} (resetCombs b) = true := by
  unfold resetCombs
  have h : ∀ (n a : Nat) (p : Nat → Bool),
      tblWf ({} : Comb) (((List.range' a n).filter p).map fun c => (c, ({ before := 9 } : Comb))) = true
        ∧ ∀ e ∈ ((List.range' a n).filter p).map fun c => (c, ({ before := 9 } : Comb)), a ≤ e.1 := by
    intro n
    induction n with
    | zero => intro a p; exact ⟨rfl, by simp⟩
    | succ n ih =>
      intro a p
      obtain ⟨h1, h2⟩ := ih (a + 1) p
      have h3 : ∀ e ∈ ((List.range' (a + 1) n).filter p).map fun c => (c, ({ before := 9 } : Comb)), a < e.1 :=
        fun e he => h2 e he
      simp only [List.range'_succ, List.filter_cons]
      split
      · exact ⟨(tblWf_cons ..).2 ⟨by decide, h3, h1⟩, fun e he => by
          rcases List.mem_cons.1 he with rfl | he
          · exact Nat.le_refl _
          · exact Nat.le_of_lt (h3 e he)⟩
      · exact ⟨h1, fun e he => Nat.le_of_lt (h3 e he)⟩
  rw [List.range_eq_range']
  exact (h _ 0 _).1

theorem restart_keeps (s : State) (warm : Bool) (_ : F.hv = true) (_ : F.store = true) (_ : F.otp = true) (_ : F.aon = true) (_ : F.ev = true) (_ : F.hi = true) (_ : F.cap = true) (_ : F.dma = true) (_ : F.doe = true) (_ : F.lc = true) (_ : F.peer = true) (_ : F.sync = true) (_ : F.wg = true) (_ : F.adm = true) (_ : F.ks = true) (_ : F.sch = true) (_ : F.fns = true) (_ : F.tenants = true) (_ : F.queues = true) (_ : F.rings = true) (_ : F.ctxs = true) (_ : F.slots = true) (_ : F.combs = true) (_ : F.jobs = true) (_ : F.nextJob = true) (_ : F.halves = true) (_ : F.latches = true) (_ : F.retry = true) (_ : F.freeN = true) (hK : Keeps F s0 s) : Keeps F s0 (restart s warm) := by
  unfold restart
  replace hK : Keeps F s0 (cutOtp s) := by apply cutOtp_keeps <;> assumption
  revert hK
  generalize cutOtp s = s
  intro hK
  refine Keeps.upd hK (by constructor <;> first | exact Or.inl rfl | exact Or.inr ‹_›) (fns := fun _ => rfl)
    (tenants := fun _ => rfl) (queues := fun _ => rfl) (rings := fun _ => rfl) (ctxs := fun _ => rfl)
    (slots := fun h => ?_) (combs := fun _ => resetCombs_wf _) (jobs := fun _ => rfl) (mram := id)
    (reads := fun _ => rfl) (packets := fun _ => rfl) (pwr := fun _ => by simp) (step := fun _ => by dsimp only; split <;> decide)
  dsimp only
  split
  · exact tblWf_map _ _ _ h
  · rfl


theorem opColdPowerOn_keeps (s : State) (_ : F.hv = true) (_ : F.store = true) (_ : F.otp = true) (_ : F.aon = true) (_ : F.ev = true) (_ : F.hi = true) (_ : F.cap = true) (_ : F.dma = true) (_ : F.doe = true) (_ : F.lc = true) (_ : F.peer = true) (_ : F.sync = true) (_ : F.wg = true) (_ : F.adm = true) (_ : F.ks = true) (_ : F.sch = true) (_ : F.fns = true) (_ : F.tenants = true) (_ : F.queues = true) (_ : F.rings = true) (_ : F.ctxs = true) (_ : F.slots = true) (_ : F.combs = true) (_ : F.jobs = true) (_ : F.nextJob = true) (_ : F.halves = true) (_ : F.latches = true) (_ : F.retry = true) (_ : F.freeN = true) (hK : Keeps F s0 s) : Keeps F s0 (opColdPowerOn s) := by
  unfold opColdPowerOn
  try dsimp only
  repeat' (with_reducible first | assumption | apply Keeps.ite | apply Keeps.ite2 | apply Keeps.ite1 | apply Keeps.ite22 | apply Keeps.ite21 | apply noteRails_keeps | apply restart_keeps | (fail_if_no_progress refine Keeps.set_aon ‹_› ?_) | split)

theorem finishBegun_keeps (s : State) (_ : F.store = true) (_ : F.wg = true) (_ : F.slots = true) (_ : F.freeN = true) (hK : Keeps F s0 s) : Keeps F s0 (finishBegun s) := by
  unfold finishBegun
  try dsimp only
  repeat' (with_reducible first | assumption | apply Keeps.ite | apply Keeps.ite2 | apply Keeps.ite1 | apply Keeps.ite22 | apply Keeps.ite21 | apply putResOf_keeps | apply putReservation_keeps | (fail_if_no_progress refine Keeps.set_freeN ‹_› ?_) | split)

theorem opHiveRstNAssert_keeps (s : State) (_ : F.hv = true) (_ : F.store = true) (_ : F.otp = true) (_ : F.aon = true) (_ : F.ev = true) (_ : F.hi = true) (_ : F.cap = true) (_ : F.dma = true) (_ : F.doe = true) (_ : F.lc = true) (_ : F.peer = true) (_ : F.sync = true) (_ : F.wg = true) (_ : F.adm = true) (_ : F.ks = true) (_ : F.sch = true) (_ : F.fns = true) (_ : F.tenants = true) (_ : F.queues = true) (_ : F.rings = true) (_ : F.ctxs = true) (_ : F.slots = true) (_ : F.combs = true) (_ : F.jobs = true) (_ : F.nextJob = true) (_ : F.halves = true) (_ : F.latches = true) (_ : F.retry = true) (_ : F.freeN = true) (hK : Keeps F s0 s) : Keeps F s0 (opHiveRstNAssert s) := by
  unfold opHiveRstNAssert
  try dsimp only
  repeat' (with_reducible first | assumption | apply Keeps.ite | apply Keeps.ite2 | apply Keeps.ite1 | apply Keeps.ite22 | apply Keeps.ite21 | apply restart_keeps | apply finishBegun_keeps | (fail_if_no_progress refine Keeps.set_hv ‹_› ?_ (by first | exact fun h => h | (intro _; dsimp only; split <;> decide) | (intro _; simp; done)) (by first | exact fun h => h | (intro _; dsimp only; split <;> decide) | (intro _; simp; done))) | split)

theorem releaseReset_keeps (s : State) (_ : F.hv = true) (_ : F.store = true) (_ : F.otp = true) (_ : F.aon = true) (_ : F.ev = true) (_ : F.hi = true) (_ : F.cap = true) (_ : F.dma = true) (_ : F.doe = true) (_ : F.lc = true) (_ : F.peer = true) (_ : F.sync = true) (_ : F.wg = true) (_ : F.adm = true) (_ : F.ks = true) (_ : F.sch = true) (_ : F.fns = true) (_ : F.tenants = true) (_ : F.queues = true) (_ : F.rings = true) (_ : F.ctxs = true) (_ : F.slots = true) (_ : F.combs = true) (_ : F.jobs = true) (_ : F.nextJob = true) (_ : F.halves = true) (_ : F.latches = true) (_ : F.retry = true) (_ : F.freeN = true) (hK : Keeps F s0 s) : Keeps F s0 (releaseReset s) := by
  unfold releaseReset
  try dsimp only
  repeat' (with_reducible first | assumption | apply Keeps.ite | apply Keeps.ite2 | apply Keeps.ite1 | apply Keeps.ite22 | apply Keeps.ite21 | apply restart_keeps | (fail_if_no_progress refine Keeps.set_hv ‹_› ?_ (by first | exact fun h => h | (intro _; dsimp only; split <;> decide) | (intro _; simp; done)) (by first | exact fun h => h | (intro _; dsimp only; split <;> decide) | (intro _; simp; done))) | split)

theorem opWarmReset_keeps (cause : WarmCause) (s : State) (_ : F.hv = true) (_ : F.store = true) (_ : F.otp = true) (_ : F.aon = true) (_ : F.ev = true) (_ : F.hi = true) (_ : F.cap = true) (_ : F.dma = true) (_ : F.doe = true) (_ : F.lc = true) (_ : F.peer = true) (_ : F.sync = true) (_ : F.wg = true) (_ : F.adm = true) (_ : F.ks = true) (_ : F.sch = true) (_ : F.fns = true) (_ : F.tenants = true) (_ : F.queues = true) (_ : F.rings = true) (_ : F.ctxs = true) (_ : F.slots = true) (_ : F.combs = true) (_ : F.jobs = true) (_ : F.nextJob = true) (_ : F.halves = true) (_ : F.latches = true) (_ : F.retry = true) (_ : F.freeN = true) (hK : Keeps F s0 s) : Keeps F s0 (opWarmReset cause s) := by
  unfold opWarmReset
  try dsimp only
  repeat' (with_reducible first | assumption | apply Keeps.ite | apply Keeps.ite2 | apply Keeps.ite1 | apply Keeps.ite22 | apply Keeps.ite21 | apply restart_keeps | apply opHiveRstNAssert_keeps | apply releaseReset_keeps | split)

theorem resumeTransition_keeps (s : State) (_ : F.store = true) (_ : F.otp = true) (_ : F.aon = true) (_ : F.ev = true) (_ : F.lc = true) (_ : F.fns = true) (_ : F.tenants = true) (_ : F.combs = true) (_ : F.freeN = true) (hK : Keeps F s0 s) : Keeps F s0 (resumeTransition s) := by
  unfold resumeTransition
  try dsimp only
  repeat' (with_reducible first | assumption | apply Keeps.ite | apply Keeps.ite2 | apply Keeps.ite1 | apply Keeps.ite22 | apply Keeps.ite21 | apply sticky_keeps | apply eraseKeyRecs_keeps | (fail_if_no_progress refine Keeps.set_otp_lc ‹_› ‹_› ?_) | split)

theorem scrapped_keeps (s : State) (word : W32) (_ : F.hv = true) (_ : F.lc = true) (hK : Keeps F s0 s) : Keeps F s0 (scrapped s word) := by
  unfold scrapped
  try dsimp only
  repeat' (with_reducible first | assumption | apply Keeps.ite | apply Keeps.ite2 | apply Keeps.ite1 | apply Keeps.ite22 | apply Keeps.ite21 | (fail_if_no_progress refine Keeps.set_hv_lc ‹_› ‹_› ?_ (by first | exact fun h => h | (intro _; dsimp only; split <;> decide) | (intro _; simp; done)) (by first | exact fun h => h | (intro _; dsimp only; split <;> decide) | (intro _; simp; done))) | split)

theorem sampleTamper_keeps (s : State) (ins : BitVec 4) (_ : F.hv = true) (_ : F.aon = true) (_ : F.ev = true) (_ : F.hi = true) (_ : F.dma = true) (_ : F.lc = true) (_ : F.peer = true) (_ : F.wg = true) (_ : F.ks = true) (_ : F.fns = true) (_ : F.tenants = true) (_ : F.queues = true) (_ : F.ctxs = true) (_ : F.slots = true) (_ : F.combs = true) (_ : F.jobs = true) (_ : F.out = true) (_ : F.freeN = true) (hK : Keeps F s0 s) : Keeps F s0 (sampleTamper s ins) := by
  unfold sampleTamper
  try dsimp only
  repeat' (with_reducible first | assumption | apply Keeps.ite | apply Keeps.ite2 | apply Keeps.ite1 | apply Keeps.ite22 | apply Keeps.ite21 | apply trip_keeps | (apply Keeps.each; intro _ _ _) | (fail_if_no_progress refine Keeps.set_hv_aon ‹_› ‹_› ?_ (by first | exact fun h => h | (intro _; dsimp only; split <;> decide) | (intro _; simp; done)) (by first | exact fun h => h | (intro _; dsimp only; split <;> decide) | (intro _; simp; done))) | split | intro _)

theorem step1_keeps (s : State) (ins : BitVec 4) (bad : Bool) (_ : F.hv = true) (_ : F.store = true) (_ : F.otp = true) (_ : F.aon = true) (_ : F.ev = true) (_ : F.hi = true) (_ : F.dma = true) (_ : F.lc = true) (_ : F.peer = true) (_ : F.wg = true) (_ : F.ks = true) (_ : F.fns = true) (_ : F.tenants = true) (_ : F.queues = true) (_ : F.ctxs = true) (_ : F.slots = true) (_ : F.combs = true) (_ : F.jobs = true) (_ : F.out = true) (_ : F.freeN = true) (hK : Keeps F s0 s) : Keeps F s0 (step1 s ins bad) := by
  unfold step1
  try dsimp only
  repeat' (with_reducible first | assumption | apply Keeps.ite | apply Keeps.ite2 | apply Keeps.ite1 | apply Keeps.ite22 | apply Keeps.ite21 | apply resumeTransition_keeps | apply scrapped_keeps | apply sampleTamper_keeps | (fail_if_no_progress refine Keeps.set_hv_lc ‹_› ‹_› ?_ (by first | exact fun h => h | (intro _; dsimp only; split <;> decide) | (intro _; simp; done)) (by first | exact fun h => h | (intro _; dsimp only; split <;> decide) | (intro _; simp; done))) | split)

theorem step2_keeps (s : State) (_ : F.hv = true) (_ : F.ev = true) (_ : F.hi = true) (_ : F.dma = true) (_ : F.peer = true) (_ : F.wg = true) (_ : F.ks = true) (_ : F.fns = true) (_ : F.tenants = true) (_ : F.queues = true) (_ : F.ctxs = true) (_ : F.slots = true) (_ : F.combs = true) (_ : F.jobs = true) (_ : F.out = true) (_ : F.trngN = true) (_ : F.freeN = true) (hK : Keeps F s0 s) : Keeps F s0 (step2 s) := by
  unfold step2
  try dsimp only
  repeat' (with_reducible first | assumption | apply Keeps.ite | apply Keeps.ite2 | apply Keeps.ite1 | apply Keeps.ite22 | apply Keeps.ite21 | apply drbgInit_keeps | apply zeroRest_keeps | (apply Keeps.each; intro _ _ _) | (fail_if_no_progress refine Keeps.set_hv ‹_› ?_ (by first | exact fun h => h | (intro _; dsimp only; split <;> decide) | (intro _; simp; done)) (by first | exact fun h => h | (intro _; dsimp only; split <;> decide) | (intro _; simp; done))) | split | intro _)

theorem step3_keeps (s : State) (_ : F.hv = true) (_ : F.aon = true) (_ : F.ev = true) (_ : F.ks = true) (_ : F.fns = true) (_ : F.tenants = true) (_ : F.combs = true) (_ : F.trngN = true) (hK : Keeps F s0 s) : Keeps F s0 (step3 s) := by
  unfold step3
  try dsimp only
  repeat' (with_reducible first | assumption | apply Keeps.ite | apply Keeps.ite2 | apply Keeps.ite1 | apply Keeps.ite22 | apply Keeps.ite21 | apply sticky_keeps | apply drawScramble_keeps | apply seedPropolis_keeps | (fail_if_no_progress refine Keeps.set_hv ‹_› ?_ (by first | exact fun h => h | (intro _; dsimp only; split <;> decide) | (intro _; simp; done)) (by first | exact fun h => h | (intro _; dsimp only; split <;> decide) | (intro _; simp; done))) | (fail_if_no_progress refine Keeps.set_ks ‹_› ?_) | (fail_if_no_progress refine Keeps.set_hv_ks ‹_› ‹_› ?_ (by first | exact fun h => h | (intro _; dsimp only; split <;> decide) | (intro _; simp; done)) (by first | exact fun h => h | (intro _; dsimp only; split <;> decide) | (intro _; simp; done))) | split)

theorem enterRecovery_keeps (s : State) (fail : BitVec 8) (_ : F.hv = true) (_ : F.aon = true) (_ : F.ev = true) (_ : F.fns = true) (_ : F.tenants = true) (_ : F.combs = true) (hK : Keeps F s0 s) : Keeps F s0 (enterRecovery s fail) := by
  unfold enterRecovery
  try dsimp only
  repeat' (with_reducible first | assumption | apply Keeps.ite | apply Keeps.ite2 | apply Keeps.ite1 | apply Keeps.ite22 | apply Keeps.ite21 | apply sticky_keeps | (fail_if_no_progress refine Keeps.set_hv ‹_› ?_ (by first | exact fun h => h | (intro _; dsimp only; split <;> decide) | (intro _; simp; done)) (by first | exact fun h => h | (intro _; dsimp only; split <;> decide) | (intro _; simp; done))) | split)

theorem step4_keeps (s : State) (ecc : Ecc) (_ : F.hv = true) (_ : F.store = true) (_ : F.aon = true) (_ : F.ev = true) (_ : F.fns = true) (_ : F.tenants = true) (_ : F.combs = true) (hK : Keeps F s0 s) : Keeps F s0 (step4 s ecc) := by
  unfold step4
  try dsimp only
  repeat' (with_reducible first | assumption | apply Keeps.ite | apply Keeps.ite2 | apply Keeps.ite1 | apply Keeps.ite22 | apply Keeps.ite21 | apply sticky_keeps | apply eccCorrected_keeps | apply enterRecovery_keeps | (fail_if_no_progress refine Keeps.set_hv ‹_› ?_ (by first | exact fun h => h | (intro _; dsimp only; split <;> decide) | (intro _; simp; done)) (by first | exact fun h => h | (intro _; dsimp only; split <;> decide) | (intro _; simp; done))) | (fail_if_no_progress refine Keeps.set_hv_store ‹_› ‹_› ?_ (by first | exact fun h => h | (intro _; dsimp only; split <;> decide) | (intro _; simp; done)) (by first | exact fun h => h | (intro _; dsimp only; split <;> decide) | (intro _; simp; done)) (by first | exact fun h => h | exact tblWf_set _ _ _ _ | exact tblWf_erase _ _ _ | exact tblWf_map _ _ _ | exact tblWf_drop _ _ _ | with_unfolding_all exact tblWf_drop _ _ _ | exact (tblWf_put _ _ _ _ · (by simp)))) | (fail_if_no_progress refine Keeps.set_store ‹_› ?_ (by first | exact fun h => h | exact tblWf_set _ _ _ _ | exact tblWf_erase _ _ _ | exact tblWf_map _ _ _ | exact tblWf_drop _ _ _ | with_unfolding_all exact tblWf_drop _ _ _ | exact (tblWf_put _ _ _ _ · (by simp)))) | split)

theorem makeRoot_keeps (s : State) (_ : F.otp = true) (_ : F.trngN = true) (hK : Keeps F s0 s) : Keeps F s0 (makeRoot s) := by
  unfold makeRoot
  try dsimp only
  repeat' (with_reducible first | assumption | apply Keeps.ite | apply Keeps.ite2 | apply Keeps.ite1 | apply Keeps.ite22 | apply Keeps.ite21 | apply trng_keeps | (fail_if_no_progress refine Keeps.set_otp ‹_› ?_) | (apply Keeps.ofEq2 ‹_›) | split | intro _)

theorem step5_keeps (s : State) (bad : Bool) (_ : F.hv = true) (_ : F.otp = true) (_ : F.aon = true) (_ : F.ev = true) (_ : F.ks = true) (_ : F.fns = true) (_ : F.tenants = true) (_ : F.combs = true) (_ : F.trngN = true) (hK : Keeps F s0 s) : Keeps F s0 (step5 s bad) := by
  unfold step5
  try dsimp only
  repeat' (with_reducible first | assumption | apply Keeps.ite | apply Keeps.ite2 | apply Keeps.ite1 | apply Keeps.ite22 | apply Keeps.ite21 | apply sticky_keeps | apply deriveLadder_keeps | apply makeRoot_keeps | (fail_if_no_progress refine Keeps.set_hv ‹_› ?_ (by first | exact fun h => h | (intro _; dsimp only; split <;> decide) | (intro _; simp; done)) (by first | exact fun h => h | (intro _; dsimp only; split <;> decide) | (intro _; simp; done))) | (fail_if_no_progress refine Keeps.set_ks ‹_› ?_) | (fail_if_no_progress refine Keeps.set_hv_ks ‹_› ‹_› ?_ (by first | exact fun h => h | (intro _; dsimp only; split <;> decide) | (intro _; simp; done)) (by first | exact fun h => h | (intro _; dsimp only; split <;> decide) | (intro _; simp; done))) | split)

theorem countDamaged_keeps (s : State) (_ : F.store = true) (_ : F.aon = true) (_ : F.ev = true) (_ : F.fns = true) (_ : F.tenants = true) (_ : F.combs = true) (hK : Keeps F s0 s) : Keeps F s0 (countDamaged s) := by
  unfold countDamaged
  try dsimp only
  repeat' (with_reducible first | assumption | apply Keeps.ite | apply Keeps.ite2 | apply Keeps.ite1 | apply Keeps.ite22 | apply Keeps.ite21 | apply sticky_keeps | (fail_if_no_progress refine Keeps.set_store ‹_› ?_ (by first | exact fun h => h | exact tblWf_set _ _ _ _ | exact tblWf_erase _ _ _ | exact tblWf_map _ _ _ | exact tblWf_drop _ _ _ | with_unfolding_all exact tblWf_drop _ _ _ | exact (tblWf_put _ _ _ _ · (by simp)))) | split)

theorem scanEpoch_keeps (s : State) (c : Nat) (_ : F.store = true) (_ : F.aon = true) (_ : F.ev = true) (_ : F.fns = true) (_ : F.tenants = true) (_ : F.combs = true) (hK : Keeps F s0 s) : Keeps F s0 (scanEpoch s c) := by
  unfold scanEpoch
  try dsimp only
  repeat' (with_reducible first | assumption | apply Keeps.ite | apply Keeps.ite2 | apply Keeps.ite1 | apply Keeps.ite22 | apply Keeps.ite21 | apply modTenant_keeps | apply writeRec_keeps | apply eraseRec_keeps | apply countDamaged_keeps | (apply Keeps.each; intro _ _ _) | split | intro _)

theorem step6_keeps (s : State) (_ : F.hv = true) (_ : F.store = true) (_ : F.aon = true) (_ : F.ev = true) (_ : F.wg = true) (_ : F.fns = true) (_ : F.tenants = true) (_ : F.combs = true) (hK : Keeps F s0 s) : Keeps F s0 (step6 s) := by
  unfold step6
  try dsimp only
  repeat' (with_reducible first | assumption | apply Keeps.ite | apply Keeps.ite2 | apply Keeps.ite1 | apply Keeps.ite22 | apply Keeps.ite21 | apply countDamaged_keeps | apply scanEpoch_keeps | (apply Keeps.each; intro _ _ _) | (fail_if_no_progress refine Keeps.set_hv_store_wg ‹_› ‹_› ‹_› ?_ (by first | exact fun h => h | (intro _; dsimp only; split <;> decide) | (intro _; simp; done)) (by first | exact fun h => h | (intro _; dsimp only; split <;> decide) | (intro _; simp; done)) (by first | exact fun h => h | exact tblWf_set _ _ _ _ | exact tblWf_erase _ _ _ | exact tblWf_map _ _ _ | exact tblWf_drop _ _ _ | with_unfolding_all exact tblWf_drop _ _ _ | exact (tblWf_put _ _ _ _ · (by simp)))) | split | intro _)

theorem step7_keeps (s : State) (_ : F.hv = true) (_ : F.ev = true) (_ : F.hi = true) (_ : F.peer = true) (_ : F.sync = true) (_ : F.wg = true) (_ : F.ks = true) (_ : F.fns = true) (_ : F.tenants = true) (hK : Keeps F s0 s) : Keeps F s0 (step7 s) := by
  unfold step7
  try dsimp only
  repeat' (with_reducible first | assumption | apply Keeps.ite | apply Keeps.ite2 | apply Keeps.ite1 | apply Keeps.ite22 | apply Keeps.ite21 | apply modWin_keeps | apply applyImage_keeps | (fail_if_no_progress refine Keeps.set_hv ‹_› ?_ (by first | exact fun h => h | (intro _; dsimp only; split <;> decide) | (intro _; simp; done)) (by first | exact fun h => h | (intro _; dsimp only; split <;> decide) | (intro _; simp; done))) | split | intro _)

theorem step8_keeps (s : State) (_ : F.hv = true) (_ : F.store = true) (_ : F.aon = true) (_ : F.ev = true) (_ : F.peer = true) (_ : F.sync = true) (_ : F.ks = true) (_ : F.sch = true) (_ : F.fns = true) (_ : F.tenants = true) (_ : F.queues = true) (_ : F.slots = true) (_ : F.combs = true) (_ : F.freeN = true) (hK : Keeps F s0 s) : Keeps F s0 (step8 s) := by
  unfold step8
  have h : Keeps F s0 (if s.hv.recovery then s
      else modWin (createTenant s (managerCfg (activeCfg s))) 0 fun w => { w with a := managerWindows (activeCfg s) }) := by
    repeat' (with_reducible first | assumption | apply Keeps.ite | apply modWin_keeps | apply createTenant_keeps)
  exact Keeps.set_hv_sync ‹_› ‹_› h (fun h => h) (fun _ => show 9 ≤ 10 by decide)


theorem firstEpoch_keeps (s : State) (_ : F.store = true) (_ : F.wg = true) (hK : Keeps F s0 s) : Keeps F s0 (firstEpoch s) := by
  unfold firstEpoch
  try dsimp only
  repeat' (with_reducible first | assumption | apply Keeps.ite | apply Keeps.ite2 | apply Keeps.ite1 | apply Keeps.ite22 | apply Keeps.ite21 | apply openGenesis_keeps | apply openGap_keeps | split)

theorem step9_keeps (s : State) (_ : F.hv = true) (_ : F.store = true) (_ : F.aon = true) (_ : F.ev = true) (_ : F.hi = true) (_ : F.dma = true) (_ : F.wg = true) (_ : F.fns = true) (_ : F.tenants = true) (_ : F.combs = true) (_ : F.out = true) (hK : Keeps F s0 s) : Keeps F s0 (step9 s) := by
  unfold step9
  try dsimp only
  repeat' (with_reducible first | assumption | apply Keeps.ite | apply Keeps.ite2 | apply Keeps.ite1 | apply Keeps.ite22 | apply Keeps.ite21 | apply deriveAlias_keeps | apply firstEpoch_keeps | (fail_if_no_progress refine Keeps.set_hv ‹_› ?_ (by first | exact fun h => h | (intro _; dsimp only; split <;> decide) | (intro _; simp; done)) (by first | exact fun h => h | (intro _; dsimp only; split <;> decide) | (intro _; simp; done))) | split)

theorem step10_keeps (s : State) (_ : F.hv = true) (_ : F.ev = true) (_ : F.fns = true) (_ : F.tenants = true) (hK : Keeps F s0 s) : Keeps F s0 (step10 s) := by
  unfold step10
  try dsimp only
  repeat' (with_reducible first | assumption | apply Keeps.ite | apply Keeps.ite2 | apply Keeps.ite1 | apply Keeps.ite22 | apply Keeps.ite21 | apply raise_keeps | apply raiseHive_keeps | (apply Keeps.each; intro _ _ _) | (fail_if_no_progress refine Keeps.set_hv ‹_› ?_ (by first | exact fun h => h | (intro _; dsimp only; split <;> decide) | (intro _; simp; done)) (by first | exact fun h => h | (intro _; dsimp only; split <;> decide) | (intro _; simp; done))) | split | intro _)

theorem opStartupStepDone_keeps (ins : BitVec 4) (ecc : Ecc) (s : State) (_ : F.hv = true) (_ : F.store = true) (_ : F.otp = true) (_ : F.aon = true) (_ : F.ev = true) (_ : F.hi = true) (_ : F.dma = true) (_ : F.lc = true) (_ : F.peer = true) (_ : F.sync = true) (_ : F.wg = true) (_ : F.ks = true) (_ : F.sch = true) (_ : F.fns = true) (_ : F.tenants = true) (_ : F.queues = true) (_ : F.ctxs = true) (_ : F.slots = true) (_ : F.combs = true) (_ : F.jobs = true) (_ : F.out = true) (_ : F.trngN = true) (_ : F.freeN = true) (hK : Keeps F s0 s) : Keeps F s0 (opStartupStepDone ins ecc s) := by
  unfold opStartupStepDone
  try dsimp only
  repeat' (with_reducible first | assumption | apply Keeps.ite | apply Keeps.ite2 | apply Keeps.ite1 | apply Keeps.ite22 | apply Keeps.ite21 | apply step1_keeps | apply step2_keeps | apply step3_keeps | apply step4_keeps | apply step5_keeps | apply step6_keeps | apply step7_keeps | apply step8_keeps | apply step9_keeps | apply step10_keeps | split)

theorem opPllLockTimeout_keeps (s : State) (_ : F.hv = true) (_ : F.aon = true) (_ : F.ev = true) (_ : F.fns = true) (_ : F.tenants = true) (_ : F.combs = true) (hK : Keeps F s0 s) : Keeps F s0 (opPllLockTimeout s) := by
  unfold opPllLockTimeout
  try dsimp only
  repeat' (with_reducible first | assumption | apply Keeps.ite | apply Keeps.ite2 | apply Keeps.ite1 | apply Keeps.ite22 | apply Keeps.ite21 | apply sticky_keeps | (fail_if_no_progress refine Keeps.set_hv ‹_› ?_ (by first | exact fun h => h | (intro _; dsimp only; split <;> decide) | (intro _; simp; done)) (by first | exact fun h => h | (intro _; dsimp only; split <;> decide) | (intro _; simp; done))) | split)

theorem opSvnCommitProgram_keeps (s : State) (_ : F.otp = true) (hK : Keeps F s0 s) : Keeps F s0 (opSvnCommitProgram s) := by
  unfold opSvnCommitProgram
  try dsimp only
  repeat' (with_reducible first | assumption | apply Keeps.ite | apply Keeps.ite2 | apply Keeps.ite1 | apply Keeps.ite22 | apply Keeps.ite21 | (fail_if_no_progress refine Keeps.set_otp ‹_› ?_) | split)

theorem keeperBack_keeps (s : State) (_ : F.store = true) (_ : F.aon = true) (_ : F.ev = true) (_ : F.dma = true) (_ : F.doe = true) (_ : F.peer = true) (_ : F.wg = true) (_ : F.adm = true) (_ : F.ks = true) (_ : F.sch = true) (_ : F.fns = true) (_ : F.tenants = true) (_ : F.queues = true) (_ : F.rings = true) (_ : F.ctxs = true) (_ : F.slots = true) (_ : F.combs = true) (_ : F.jobs = true) (_ : F.out = true) (_ : F.freeN = true) (hK : Keeps F s0 s) : Keeps F s0 (keeperBack s) := by
  unfold keeperBack
  try dsimp only
  repeat' (with_reducible first | assumption | apply Keeps.ite | apply Keeps.ite2 | apply Keeps.ite1 | apply Keeps.ite22 | apply Keeps.ite21 | apply admTake_keeps | apply doeResume_keeps | apply updTake_keeps | split)

theorem keeperRestart_keeps (s : State) (readOk : Bool) (_ : F.hv = true) (_ : F.store = true) (_ : F.aon = true) (_ : F.ev = true) (_ : F.dma = true) (_ : F.doe = true) (_ : F.peer = true) (_ : F.wg = true) (_ : F.adm = true) (_ : F.ks = true) (_ : F.sch = true) (_ : F.fns = true) (_ : F.tenants = true) (_ : F.queues = true) (_ : F.rings = true) (_ : F.ctxs = true) (_ : F.slots = true) (_ : F.combs = true) (_ : F.jobs = true) (_ : F.out = true) (_ : F.freeN = true) (hK : Keeps F s0 s) : Keeps F s0 (keeperRestart s readOk) := by
  unfold keeperRestart
  try dsimp only
  repeat' (with_reducible first | assumption | apply Keeps.ite | apply Keeps.ite2 | apply Keeps.ite1 | apply Keeps.ite22 | apply Keeps.ite21 | apply sticky_keeps | apply restartMail_keeps | apply restartDoe_keeps | apply updRestart_keeps | apply keeperBack_keeps | (apply Keeps.each; intro _ _ _) | (fail_if_no_progress refine Keeps.set_hv ‹_› ?_ (by first | exact fun h => h | (intro _; dsimp only; split <;> decide) | (intro _; simp; done)) (by first | exact fun h => h | (intro _; dsimp only; split <;> decide) | (intro _; simp; done))) | split | intro _)

theorem opKeeperRestart_keeps (ramError : Bool) (readOk : Bool) (s : State) (_ : F.hv = true) (_ : F.store = true) (_ : F.aon = true) (_ : F.ev = true) (_ : F.dma = true) (_ : F.doe = true) (_ : F.peer = true) (_ : F.wg = true) (_ : F.adm = true) (_ : F.ks = true) (_ : F.sch = true) (_ : F.fns = true) (_ : F.tenants = true) (_ : F.queues = true) (_ : F.rings = true) (_ : F.ctxs = true) (_ : F.slots = true) (_ : F.combs = true) (_ : F.jobs = true) (_ : F.out = true) (_ : F.freeN = true) (hK : Keeps F s0 s) : Keeps F s0 (opKeeperRestart ramError readOk s) := by
  unfold opKeeperRestart
  try dsimp only
  repeat' (with_reducible first | assumption | apply Keeps.ite | apply Keeps.ite2 | apply Keeps.ite1 | apply Keeps.ite22 | apply Keeps.ite21 | apply sticky_keeps | apply keeperRestart_keeps | (fail_if_no_progress refine Keeps.set_hv ‹_› ?_ (by first | exact fun h => h | (intro _; dsimp only; split <;> decide) | (intro _; simp; done)) (by first | exact fun h => h | (intro _; dsimp only; split <;> decide) | (intro _; simp; done))) | split)

theorem opKeeperWatchdogExpiry_keeps (readOk : Bool) (s : State) (_ : F.hv = true) (_ : F.store = true) (_ : F.aon = true) (_ : F.ev = true) (_ : F.dma = true) (_ : F.doe = true) (_ : F.peer = true) (_ : F.wg = true) (_ : F.adm = true) (_ : F.ks = true) (_ : F.sch = true) (_ : F.fns = true) (_ : F.tenants = true) (_ : F.queues = true) (_ : F.rings = true) (_ : F.ctxs = true) (_ : F.slots = true) (_ : F.combs = true) (_ : F.jobs = true) (_ : F.out = true) (_ : F.freeN = true) (hK : Keeps F s0 s) : Keeps F s0 (opKeeperWatchdogExpiry readOk s) := by
  unfold opKeeperWatchdogExpiry
  try dsimp only
  repeat' (with_reducible first | assumption | apply Keeps.ite | apply Keeps.ite2 | apply Keeps.ite1 | apply Keeps.ite22 | apply Keeps.ite21 | apply sticky_keeps | apply keeperRestart_keeps | split)

/-! ## LifeCycle -/

theorem lcEnd_keeps (s : State) (r : Nat) (_ : F.ev = true) (_ : F.lc = true) (_ : F.fns = true) (_ : F.tenants = true) (hK : Keeps F s0 s) : Keeps F s0 (lcEnd s r) := by
  unfold lcEnd
  try dsimp only
  repeat' (with_reducible first | assumption | apply Keeps.ite | apply Keeps.ite2 | apply Keeps.ite1 | apply Keeps.ite22 | apply Keeps.ite21 | apply raiseHive_keeps | (fail_if_no_progress refine Keeps.set_lc ‹_› ?_) | split)

theorem tokenCheck_keeps (s : State) (t : Nat) (r : Nat) (_ : F.lc = true) (hK : Keeps F s0 s) : Keeps F s0 (tokenCheck s t r) := by
  unfold tokenCheck
  try dsimp only
  repeat' (with_reducible first | assumption | apply Keeps.ite | apply Keeps.ite2 | apply Keeps.ite1 | apply Keeps.ite22 | apply Keeps.ite21 | (fail_if_no_progress refine Keeps.set_lc ‹_› ?_) | split)

theorem lcStart_keeps (s : State) (t : Nat) (_ : F.ev = true) (_ : F.dma = true) (_ : F.lc = true) (_ : F.ks = true) (_ : F.fns = true) (_ : F.tenants = true) (_ : F.ctxs = true) (_ : F.slots = true) (_ : F.combs = true) (_ : F.jobs = true) (_ : F.freeN = true) (hK : Keeps F s0 s) : Keeps F s0 (lcStart s t) := by
  unfold lcStart
  try dsimp only
  repeat' (with_reducible first | assumption | apply Keeps.ite | apply Keeps.ite2 | apply Keeps.ite1 | apply Keeps.ite22 | apply Keeps.ite21 | apply startJournal_keeps | apply zeroise_keeps | (fail_if_no_progress refine Keeps.set_lc ‹_› ?_) | split)

theorem lcRequest_keeps (s : State) (t : Nat) (confirm : Nat) (_ : F.ev = true) (_ : F.dma = true) (_ : F.lc = true) (_ : F.ks = true) (_ : F.fns = true) (_ : F.tenants = true) (_ : F.ctxs = true) (_ : F.slots = true) (_ : F.combs = true) (_ : F.jobs = true) (_ : F.freeN = true) (hK : Keeps F s0 s) : Keeps F s0 (lcRequest s t confirm) := by
  unfold lcRequest
  try dsimp only
  repeat' (with_reducible first | assumption | apply Keeps.ite | apply Keeps.ite2 | apply Keeps.ite1 | apply Keeps.ite22 | apply Keeps.ite21 | apply lcEnd_keeps | apply tokenCheck_keeps | apply lcStart_keeps | split)

theorem opLcTransitionRefused_keeps (target : Nat) (confirm : Nat) (s : State) (_ : F.ev = true) (_ : F.dma = true) (_ : F.lc = true) (_ : F.ks = true) (_ : F.fns = true) (_ : F.tenants = true) (_ : F.ctxs = true) (_ : F.slots = true) (_ : F.combs = true) (_ : F.jobs = true) (_ : F.freeN = true) (hK : Keeps F s0 s) : Keeps F s0 (opLcTransitionRefused target confirm s) := by
  unfold opLcTransitionRefused
  try dsimp only
  repeat' (with_reducible first | assumption | apply Keeps.ite | apply Keeps.ite2 | apply Keeps.ite1 | apply Keeps.ite22 | apply Keeps.ite21 | apply lcRequest_keeps | split)

theorem opLcTransitionOtpDone_keeps (s : State) (_ : F.hv = true) (_ : F.store = true) (_ : F.otp = true) (_ : F.aon = true) (_ : F.ev = true) (_ : F.hi = true) (_ : F.cap = true) (_ : F.dma = true) (_ : F.doe = true) (_ : F.lc = true) (_ : F.peer = true) (_ : F.sync = true) (_ : F.wg = true) (_ : F.adm = true) (_ : F.ks = true) (_ : F.sch = true) (_ : F.fns = true) (_ : F.tenants = true) (_ : F.queues = true) (_ : F.rings = true) (_ : F.ctxs = true) (_ : F.slots = true) (_ : F.combs = true) (_ : F.jobs = true) (_ : F.nextJob = true) (_ : F.halves = true) (_ : F.latches = true) (_ : F.retry = true) (_ : F.freeN = true) (hK : Keeps F s0 s) : Keeps F s0 (opLcTransitionOtpDone s) := by
  unfold opLcTransitionOtpDone
  try dsimp only
  repeat' (with_reducible first | assumption | apply Keeps.ite | apply Keeps.ite2 | apply Keeps.ite1 | apply Keeps.ite22 | apply Keeps.ite21 | apply restart_keeps | apply lcEnd_keeps | (fail_if_no_progress refine Keeps.set_otp ‹_› ?_) | split)

theorem setDbg_keeps (s : State) (st : Nat) (_ : F.ev = true) (_ : F.lc = true) (_ : F.fns = true) (_ : F.tenants = true) (hK : Keeps F s0 s) : Keeps F s0 (setDbg s st) := by
  unfold setDbg
  try dsimp only
  repeat' (with_reducible first | assumption | apply Keeps.ite | apply Keeps.ite2 | apply Keeps.ite1 | apply Keeps.ite22 | apply Keeps.ite21 | apply raiseHive_keeps | (fail_if_no_progress refine Keeps.set_lc ‹_› ?_) | split)

theorem dbgRequest_keeps (s : State) (purpose : Byte) (_ : F.ev = true) (_ : F.lc = true) (_ : F.fns = true) (_ : F.tenants = true) (_ : F.trngN = true) (hK : Keeps F s0 s) : Keeps F s0 (dbgRequest s purpose) := by
  unfold dbgRequest
  try dsimp only
  repeat' (with_reducible first | assumption | apply Keeps.ite | apply Keeps.ite2 | apply Keeps.ite1 | apply Keeps.ite22 | apply Keeps.ite21 | apply trng_keeps | apply setDbg_keeps | (fail_if_no_progress refine Keeps.set_lc ‹_› ?_) | split)

theorem opLcRespCommit_keeps (s : State) (_ : F.ev = true) (_ : F.lc = true) (_ : F.fns = true) (_ : F.tenants = true) (hK : Keeps F s0 s) : Keeps F s0 (opLcRespCommit s) := by
  unfold opLcRespCommit
  try dsimp only
  repeat' (with_reducible first | assumption | apply Keeps.ite | apply Keeps.ite2 | apply Keeps.ite1 | apply Keeps.ite22 | apply Keeps.ite21 | apply setDbg_keeps | (fail_if_no_progress refine Keeps.set_lc ‹_› ?_) | split)

theorem readResponse_keeps (s : State) (e : ReadEnd) (_ : F.aon = true) (_ : F.ev = true) (_ : F.hi = true) (_ : F.dma = true) (_ : F.fns = true) (_ : F.tenants = true) (_ : F.combs = true) (_ : F.out = true) (hK : Keeps F s0 s) : Keeps F s0 (readResponse s e).2 := by
  unfold readResponse
  try dsimp only
  repeat' (with_reducible first | assumption | apply Keeps.ite | apply Keeps.ite2 | apply Keeps.ite1 | apply Keeps.ite22 | apply Keeps.ite21 | apply keeperRead_keeps | split)

theorem grantDebug_keeps (s : State) (_ : F.aon = true) (_ : F.ev = true) (_ : F.hi = true) (_ : F.dma = true) (_ : F.lc = true) (_ : F.peer = true) (_ : F.wg = true) (_ : F.fns = true) (_ : F.tenants = true) (_ : F.combs = true) (_ : F.out = true) (hK : Keeps F s0 s) : Keeps F s0 (grantDebug s) := by
  unfold grantDebug
  try dsimp only
  repeat' (with_reducible first | assumption | apply Keeps.ite | apply Keeps.ite2 | apply Keeps.ite1 | apply Keeps.ite22 | apply Keeps.ite21 | apply closeEpoch_keeps | (fail_if_no_progress refine Keeps.set_lc ‹_› ?_) | split)

theorem debugVerdict_keeps (s : State) (ok : Bool) (_ : F.aon = true) (_ : F.ev = true) (_ : F.hi = true) (_ : F.dma = true) (_ : F.lc = true) (_ : F.peer = true) (_ : F.wg = true) (_ : F.fns = true) (_ : F.tenants = true) (_ : F.combs = true) (_ : F.out = true) (hK : Keeps F s0 s) : Keeps F s0 (debugVerdict s ok) := by
  unfold debugVerdict
  try dsimp only
  repeat' (with_reducible first | assumption | apply Keeps.ite | apply Keeps.ite2 | apply Keeps.ite1 | apply Keeps.ite22 | apply Keeps.ite21 | apply sticky_keeps | apply setDbg_keeps | apply grantDebug_keeps | (fail_if_no_progress refine Keeps.set_lc ‹_› ?_) | split)

theorem opDebugAuthVerifyDone_keeps (read : ReadEnd) (resp : Bytes) (s : State) (_ : F.aon = true) (_ : F.ev = true) (_ : F.hi = true) (_ : F.dma = true) (_ : F.lc = true) (_ : F.peer = true) (_ : F.wg = true) (_ : F.fns = true) (_ : F.tenants = true) (_ : F.combs = true) (_ : F.out = true) (hK : Keeps F s0 s) : Keeps F s0 (opDebugAuthVerifyDone read resp s) := by
  unfold opDebugAuthVerifyDone
  try dsimp only
  repeat' (with_reducible first | assumption | apply Keeps.ite | apply Keeps.ite2 | apply Keeps.ite1 | apply Keeps.ite22 | apply Keeps.ite21 | apply readResponse_keeps | apply debugVerdict_keeps | (apply Keeps.ofEq2 ‹_›) | split)

theorem opSubstitutionRefDeadline_keeps (s : State) (_ : F.dma = true) (_ : F.lc = true) (_ : F.ks = true) (_ : F.ctxs = true) (_ : F.slots = true) (_ : F.combs = true) (_ : F.jobs = true) (_ : F.freeN = true) (hK : Keeps F s0 s) : Keeps F s0 (opSubstitutionRefDeadline s) := by
  unfold opSubstitutionRefDeadline
  try dsimp only
  repeat' (with_reducible first | assumption | apply Keeps.ite | apply Keeps.ite2 | apply Keeps.ite1 | apply Keeps.ite22 | apply Keeps.ite21 | apply forceEnd_keeps | (apply Keeps.each; intro _ _ _) | (fail_if_no_progress refine Keeps.set_lc ‹_› ?_) | split | intro _)

theorem opSubstitutionZeroise_keeps (s : State) (_ : F.ev = true) (_ : F.dma = true) (_ : F.wg = true) (_ : F.ks = true) (_ : F.fns = true) (_ : F.tenants = true) (_ : F.ctxs = true) (_ : F.slots = true) (_ : F.combs = true) (_ : F.jobs = true) (_ : F.freeN = true) (hK : Keeps F s0 s) : Keeps F s0 (opSubstitutionZeroise s) := by
  unfold opSubstitutionZeroise
  try dsimp only
  repeat' (with_reducible first | assumption | apply Keeps.ite | apply Keeps.ite2 | apply Keeps.ite1 | apply Keeps.ite22 | apply Keeps.ite21 | apply zeroise_keeps | (fail_if_no_progress refine Keeps.set_wg ‹_› ?_) | split)

/-! ## Power -/

theorem opHvSleepEnter_keeps (key : Byte) (s : State) (_ : F.hv = true) (hK : Keeps F s0 s) : Keeps F s0 (opHvSleepEnter key s) := by
  unfold opHvSleepEnter
  try dsimp only
  repeat' (with_reducible first | assumption | apply Keeps.ite | apply Keeps.ite2 | apply Keeps.ite1 | apply Keeps.ite22 | apply Keeps.ite21 | apply wake_keeps | apply judgeEnter_keeps | split)

theorem combSleep_keeps (s : State) (c : Nat) (_ : F.hv = true) (_ : F.ev = true) (_ : F.fns = true) (_ : F.tenants = true) (_ : F.combs = true) (hK : Keeps F s0 s) : Keeps F s0 (combSleep s c) := by
  unfold combSleep
  try dsimp only
  repeat' (with_reducible first | assumption | apply Keeps.ite | apply Keeps.ite2 | apply Keeps.ite1 | apply Keeps.ite22 | apply Keeps.ite21 | apply modComb_keeps | apply combSync_keeps | (fail_if_no_progress refine Keeps.set_hv ‹_› ?_ (by first | exact fun h => h | (intro _; dsimp only; split <;> decide) | (intro _; simp; done)) (by first | exact fun h => h | (intro _; dsimp only; split <;> decide) | (intro _; simp; done))) | split | intro _)

theorem opSleepEntryDone_keeps (s : State) (_ : F.hv = true) (_ : F.ev = true) (_ : F.fns = true) (_ : F.tenants = true) (_ : F.combs = true) (hK : Keeps F s0 s) : Keeps F s0 (opSleepEntryDone s) := by
  unfold opSleepEntryDone
  try dsimp only
  repeat' (with_reducible first | assumption | apply Keeps.ite | apply Keeps.ite2 | apply Keeps.ite1 | apply Keeps.ite22 | apply Keeps.ite21 | apply retireAll_keeps | apply combSleep_keeps | (apply Keeps.each; intro _ _ _) | (fail_if_no_progress refine Keeps.set_hv ‹_› ?_ (by first | exact fun h => h | (intro _; dsimp only; split <;> decide) | (intro _; simp; done)) (by first | exact fun h => h | (intro _; dsimp only; split <;> decide) | (intro _; simp; done))) | split | intro _)

theorem opHvSleepWake_keeps (key : Byte) (s : State) (_ : F.hv = true) (hK : Keeps F s0 s) : Keeps F s0 (opHvSleepWake key s) := by
  unfold opHvSleepWake
  try dsimp only
  repeat' (with_reducible first | assumption | apply Keeps.ite | apply Keeps.ite2 | apply Keeps.ite1 | apply Keeps.ite22 | apply Keeps.ite21 | apply wake_keeps | split)

theorem opSleepWake_keeps (cause : Nat) (s : State) (_ : F.hv = true) (hK : Keeps F s0 s) : Keeps F s0 (opSleepWake cause s) := by
  unfold opSleepWake
  try dsimp only
  repeat' (with_reducible first | assumption | apply Keeps.ite | apply Keeps.ite2 | apply Keeps.ite1 | apply Keeps.ite22 | apply Keeps.ite21 | apply wake_keeps | split)

theorem combWake_keeps (s : State) (c : Nat) (_ : F.ev = true) (_ : F.fns = true) (_ : F.tenants = true) (_ : F.combs = true) (_ : F.trngN = true) (hK : Keeps F s0 s) : Keeps F s0 (combWake s c) := by
  unfold combWake
  try dsimp only
  repeat' (with_reducible first | assumption | apply Keeps.ite | apply Keeps.ite2 | apply Keeps.ite1 | apply Keeps.ite22 | apply Keeps.ite21 | apply modComb_keeps | apply combSync_keeps | apply drbgInit_keeps | split | intro _)

theorem awaken_keeps (s : State) (_ : F.hv = true) (_ : F.store = true) (_ : F.aon = true) (_ : F.ev = true) (_ : F.hi = true) (_ : F.dma = true) (_ : F.doe = true) (_ : F.peer = true) (_ : F.wg = true) (_ : F.adm = true) (_ : F.ks = true) (_ : F.sch = true) (_ : F.fns = true) (_ : F.tenants = true) (_ : F.queues = true) (_ : F.rings = true) (_ : F.ctxs = true) (_ : F.slots = true) (_ : F.combs = true) (_ : F.jobs = true) (_ : F.out = true) (_ : F.trngN = true) (_ : F.freeN = true) (hK : Keeps F s0 s) : Keeps F s0 (awaken s) := by
  unfold awaken
  try dsimp only
  repeat' (with_reducible first | assumption | apply Keeps.ite | apply Keeps.ite2 | apply Keeps.ite1 | apply Keeps.ite22 | apply Keeps.ite21 | apply zeroRest_keeps | apply keeperBack_keeps | apply combWake_keeps | (apply Keeps.each; intro _ _ _) | (fail_if_no_progress refine Keeps.set_hv ‹_› ?_ (by first | exact fun h => h | (intro _; dsimp only; split <;> decide) | (intro _; simp; done)) (by first | exact fun h => h | (intro _; dsimp only; split <;> decide) | (intro _; simp; done))) | split | intro _)

/-! ## Commits -/

theorem opTnQcfgSelWrite_keeps (c : Nat) (v : W32) (s : State) (_ : F.tenants = true) (hK : Keeps F s0 s) : Keeps F s0 (opTnQcfgSelWrite c v s) := by
  unfold opTnQcfgSelWrite
  try dsimp only
  repeat' (with_reducible first | assumption | apply Keeps.ite | apply Keeps.ite2 | apply Keeps.ite1 | apply Keeps.ite22 | apply Keeps.ite21 | apply modTenant_keeps | split | intro _)

theorem opTnQcfgCommit_keeps (c : Nat) (s : State) (_ : F.tenants = true) (_ : F.queues = true) (hK : Keeps F s0 s) : Keeps F s0 (opTnQcfgCommit c s) := by
  unfold opTnQcfgCommit
  try dsimp only
  repeat' (with_reducible first | assumption | apply Keeps.ite | apply Keeps.ite2 | apply Keeps.ite1 | apply Keeps.ite22 | apply Keeps.ite21 | apply modQueue_keeps | apply modTenant_keeps | split | intro _)

theorem opTnCrSelWrite_keeps (c : Nat) (v : W32) (s : State) (_ : F.tenants = true) (hK : Keeps F s0 s) : Keeps F s0 (opTnCrSelWrite c v s) := by
  unfold opTnCrSelWrite
  try dsimp only
  repeat' (with_reducible first | assumption | apply Keeps.ite | apply Keeps.ite2 | apply Keeps.ite1 | apply Keeps.ite22 | apply Keeps.ite21 | apply modTenant_keeps | split | intro _)

theorem opTnCrCommit_keeps (c : Nat) (s : State) (_ : F.hi = true) (_ : F.dma = true) (_ : F.fns = true) (_ : F.tenants = true) (_ : F.queues = true) (_ : F.rings = true) (_ : F.out = true) (hK : Keeps F s0 s) : Keeps F s0 (opTnCrCommit c s) := by
  unfold opTnCrCommit
  try dsimp only
  repeat' (with_reducible first | assumption | apply Keeps.ite | apply Keeps.ite2 | apply Keeps.ite1 | apply Keeps.ite22 | apply Keeps.ite21 | apply modTenant_keeps | apply modRing_keeps | apply replayRing_keeps | split | intro _)

theorem opTnRlogCommit_keeps (c : Nat) (s : State) (_ : F.tenants = true) (hK : Keeps F s0 s) : Keeps F s0 (opTnRlogCommit c s) := by
  unfold opTnRlogCommit
  try dsimp only
  repeat' (with_reducible first | assumption | apply Keeps.ite | apply Keeps.ite2 | apply Keeps.ite1 | apply Keeps.ite22 | apply Keeps.ite21 | apply modTenant_keeps | split | intro _)

theorem opSchCommit_keeps (s : State) (_ : F.sch = true) (hK : Keeps F s0 s) : Keeps F s0 (opSchCommit s) := by
  unfold opSchCommit
  try dsimp only
  repeat' (with_reducible first | assumption | apply Keeps.ite | apply Keeps.ite2 | apply Keeps.ite1 | apply Keeps.ite22 | apply Keeps.ite21 | (fail_if_no_progress refine Keeps.set_sch ‹_› ?_) | split)

theorem opWgSyncCommit_keeps (s : State) (_ : F.sync = true) (hK : Keeps F s0 s) : Keeps F s0 (opWgSyncCommit s) := by
  unfold opWgSyncCommit
  try dsimp only
  repeat' (with_reducible first | assumption | apply Keeps.ite | apply Keeps.ite2 | apply Keeps.ite1 | apply Keeps.ite22 | apply Keeps.ite21 | (fail_if_no_progress refine Keeps.set_sync ‹_› ?_) | split)

theorem opWgMlogCommit_keeps (s : State) (_ : F.wg = true) (hK : Keeps F s0 s) : Keeps F s0 (opWgMlogCommit s) := by
  unfold opWgMlogCommit
  try dsimp only
  repeat' (with_reducible first | assumption | apply Keeps.ite | apply Keeps.ite2 | apply Keeps.ite1 | apply Keeps.ite22 | apply Keeps.ite21 | (fail_if_no_progress refine Keeps.set_wg ‹_› ?_) | split)

theorem opWgTselWrite_keeps (v : W32) (s : State) (_ : F.wg = true) (hK : Keeps F s0 s) : Keeps F s0 (opWgTselWrite v s) := by
  unfold opWgTselWrite
  try dsimp only
  repeat' (with_reducible first | assumption | apply Keeps.ite | apply Keeps.ite2 | apply Keeps.ite1 | apply Keeps.ite22 | apply Keeps.ite21 | (fail_if_no_progress refine Keeps.set_wg ‹_› ?_) | split)

theorem opWgTcommit_keeps (s : State) (_ : F.ev = true) (_ : F.wg = true) (_ : F.fns = true) (_ : F.tenants = true) (_ : F.jobs = true) (hK : Keeps F s0 s) : Keeps F s0 (opWgTcommit s) := by
  unfold opWgTcommit
  try dsimp only
  repeat' (with_reducible first | assumption | apply Keeps.ite | apply Keeps.ite2 | apply Keeps.ite1 | apply Keeps.ite22 | apply Keeps.ite21 | apply modTenant_keeps | apply refreshPending_keeps | (fail_if_no_progress refine Keeps.set_wg ‹_› ?_) | split | intro _)

/-! ## Map -/

theorem countUnmapped_keeps (s : State) (l : Landing) (_ : F.hi = true) (_ : F.retry = true) (hK : Keeps F s0 s) : Keeps F s0 (countUnmapped s l) := by
  unfold countUnmapped
  try dsimp only
  repeat' (with_reducible first | assumption | apply Keeps.ite | apply Keeps.ite2 | apply Keeps.ite1 | apply Keeps.ite22 | apply Keeps.ite21 | (fail_if_no_progress refine Keeps.set_retry ‹_› ?_) | (fail_if_no_progress refine Keeps.set_hi ‹_› ?_) | (fail_if_no_progress refine Keeps.set_hi_retry ‹_› ‹_› ?_) | split)

/-! ## Combs -/

theorem combCommand_keeps (s : State) (c : Nat) (op : Nat) (gen : BitVec 16) (_ : F.ev = true) (_ : F.fns = true) (_ : F.tenants = true) (_ : F.combs = true) (hK : Keeps F s0 s) : Keeps F s0 (combCommand s c op gen).2 := by
  unfold combCommand
  try dsimp only
  repeat' (with_reducible first | assumption | apply Keeps.ite | apply Keeps.ite2 | apply Keeps.ite1 | apply Keeps.ite22 | apply Keeps.ite21 | apply modComb_keeps | apply combSync_keeps | split | intro _)

theorem cbWrite_keeps (s : State) (c : Nat) (op : Nat) (gen : BitVec 16) (_ : F.ev = true) (_ : F.fns = true) (_ : F.tenants = true) (_ : F.combs = true) (hK : Keeps F s0 s) : Keeps F s0 (cbWrite s c op gen) := by
  unfold cbWrite
  try dsimp only
  repeat' (with_reducible first | assumption | apply Keeps.ite | apply Keeps.ite2 | apply Keeps.ite1 | apply Keeps.ite22 | apply Keeps.ite21 | apply combCommand_keeps | split)

theorem opCbCmdInvalid_keeps (comb : Nat) (word : W32) (s : State) (_ : F.ev = true) (_ : F.fns = true) (_ : F.tenants = true) (_ : F.combs = true) (hK : Keeps F s0 s) : Keeps F s0 (opCbCmdInvalid comb word s) := by
  unfold opCbCmdInvalid
  try dsimp only
  repeat' (with_reducible first | assumption | apply Keeps.ite | apply Keeps.ite2 | apply Keeps.ite1 | apply Keeps.ite22 | apply Keeps.ite21 | apply cbWrite_keeps | split)

theorem opCombDrainEnd_keeps (c : Nat) (s : State) (_ : F.ev = true) (_ : F.fns = true) (_ : F.tenants = true) (_ : F.combs = true) (hK : Keeps F s0 s) : Keeps F s0 (opCombDrainEnd c s) := by
  unfold opCombDrainEnd
  try dsimp only
  repeat' (with_reducible first | assumption | apply Keeps.ite | apply Keeps.ite2 | apply Keeps.ite1 | apply Keeps.ite22 | apply Keeps.ite21 | apply modComb_keeps | apply combSync_keeps | split | intro _)

/-! ## Events -/

theorem evWrite_keeps (s : State) (src : Nat) (_ : F.ev = true) (_ : F.hi = true) (_ : F.dma = true) (_ : F.fns = true) (_ : F.tenants = true) (_ : F.out = true) (hK : Keeps F s0 s) : Keeps F s0 (evWrite s src).2 := by
  unfold evWrite
  try dsimp only
  repeat' (with_reducible first | assumption | apply Keeps.ite | apply Keeps.ite2 | apply Keeps.ite1 | apply Keeps.ite22 | apply Keeps.ite21 | apply signalVec_keeps | apply logTry_keeps | (fail_if_no_progress refine Keeps.set_ev ‹_› ?_) | (apply Keeps.ofEq2 ‹_›) | split)

theorem evReplay_keeps (s : State) (n : Nat) (_ : F.ev = true) (_ : F.hi = true) (_ : F.dma = true) (_ : F.fns = true) (_ : F.tenants = true) (_ : F.out = true) (hK : Keeps F s0 s) : Keeps F s0 (evReplay s n) := by
  induction n generalizing s with
  | zero => exact hK
  | succ n ih =>
    rw [evReplay]
    have hw : ∀ x, Keeps F s0 (evWrite s x).2 := fun x => by apply evWrite_keeps <;> assumption
    try dsimp only
    repeat' (with_reducible first | assumption | apply hw | apply ih | (fail_if_no_progress refine Keeps.set_ev ‹_› ?_) | split)


theorem opEventRecordWrite_keeps (src : Nat) (s : State) (_ : F.aon = true) (_ : F.ev = true) (_ : F.hi = true) (_ : F.dma = true) (_ : F.fns = true) (_ : F.tenants = true) (_ : F.combs = true) (_ : F.out = true) (hK : Keeps F s0 s) : Keeps F s0 (opEventRecordWrite src s) := by
  unfold opEventRecordWrite
  try dsimp only
  repeat' (with_reducible first | assumption | apply Keeps.ite | apply Keeps.ite2 | apply Keeps.ite1 | apply Keeps.ite22 | apply Keeps.ite21 | apply sticky_keeps | apply evWrite_keeps | apply evReplay_keeps | (fail_if_no_progress refine Keeps.set_ev ‹_› ?_) | split)

theorem opEvLogConsWrite_keeps (v : W32) (s : State) (_ : F.ev = true) (_ : F.hi = true) (_ : F.dma = true) (_ : F.fns = true) (_ : F.tenants = true) (_ : F.out = true) (hK : Keeps F s0 s) : Keeps F s0 (opEvLogConsWrite v s) := by
  unfold opEvLogConsWrite
  try dsimp only
  repeat' (with_reducible first | assumption | apply Keeps.ite | apply Keeps.ite2 | apply Keeps.ite1 | apply Keeps.ite22 | apply Keeps.ite21 | apply evReplay_keeps | (fail_if_no_progress refine Keeps.set_ev ‹_› ?_) | split)

theorem signalWaiting_keeps (s : State) (_ : F.ev = true) (_ : F.fns = true) (_ : F.tenants = true) (hK : Keeps F s0 s) : Keeps F s0 (signalWaiting s) := by
  unfold signalWaiting
  try dsimp only
  repeat' (with_reducible first | assumption | apply Keeps.ite | apply Keeps.ite2 | apply Keeps.ite1 | apply Keeps.ite22 | apply Keeps.ite21 | apply signalVec_keeps | (apply Keeps.each; intro _ _ _) | (fail_if_no_progress refine Keeps.set_ev ‹_› ?_) | split | intro _)

theorem opEvLogCommit_keeps (s : State) (_ : F.ev = true) (_ : F.fns = true) (_ : F.tenants = true) (hK : Keeps F s0 s) : Keeps F s0 (opEvLogCommit s) := by
  unfold opEvLogCommit
  try dsimp only
  repeat' (with_reducible first | assumption | apply Keeps.ite | apply Keeps.ite2 | apply Keeps.ite1 | apply Keeps.ite22 | apply Keeps.ite21 | apply signalWaiting_keeps | (fail_if_no_progress refine Keeps.set_ev ‹_› ?_) | split)

theorem resignal_keeps (src : Nat) (s : State) (_ : F.ev = true) (_ : F.fns = true) (_ : F.tenants = true) (hK : Keeps F s0 s) : Keeps F s0 (resignal src s) := by
  unfold resignal
  try dsimp only
  repeat' (with_reducible first | assumption | apply Keeps.ite | apply Keeps.ite2 | apply Keeps.ite1 | apply Keeps.ite22 | apply Keeps.ite21 | apply signalVec_keeps | (fail_if_no_progress refine Keeps.set_ev ‹_› ?_) | split)

theorem opEvPendClear_keeps (i : Nat) (mask : W32) (raised : W32) (s : State) (_ : F.ev = true) (_ : F.fns = true) (_ : F.tenants = true) (hK : Keeps F s0 s) : Keeps F s0 (opEvPendClear i mask raised s) := by
  unfold opEvPendClear
  try dsimp only
  repeat' (with_reducible first | assumption | apply Keeps.ite | apply Keeps.ite2 | apply Keeps.ite1 | apply Keeps.ite22 | apply Keeps.ite21 | apply resignal_keeps | (apply Keeps.each; intro _ _ _) | (fail_if_no_progress refine Keeps.set_ev ‹_› ?_) | split | intro _)

theorem opEvRouteWrite_keeps (v : W32) (s : State) (_ : F.ev = true) (_ : F.fns = true) (_ : F.tenants = true) (hK : Keeps F s0 s) : Keeps F s0 (opEvRouteWrite v s) := by
  unfold opEvRouteWrite
  try dsimp only
  repeat' (with_reducible first | assumption | apply Keeps.ite | apply Keeps.ite2 | apply Keeps.ite1 | apply Keeps.ite22 | apply Keeps.ite21 | apply signalVec_keeps | (fail_if_no_progress refine Keeps.set_ev ‹_› ?_) | split)

theorem opStickyClear_keeps (i : Nat) (mask : W32) (s : State) (_ : F.aon = true) (_ : F.ev = true) (_ : F.fns = true) (_ : F.tenants = true) (_ : F.combs = true) (hK : Keeps F s0 s) : Keeps F s0 (opStickyClear i mask s) := by
  unfold opStickyClear
  try dsimp only
  repeat' (with_reducible first | assumption | apply Keeps.ite | apply Keeps.ite2 | apply Keeps.ite1 | apply Keeps.ite22 | apply Keeps.ite21 | apply stickyDrop_keeps | split)

/-! ## Mctp -/

theorem mctpMessage_keeps (i : Instr) (s : State) (k : State → State) (hk : ∀ y0, Keeps F s0 y0 → Keeps F s0 (k y0)) (_ : F.hv = true) (hK : Keeps F s0 s) : Keeps F s0 (mctpMessage i s k) := by
  unfold mctpMessage
  try dsimp only
  repeat' (with_reducible first | assumption | (intro _ _) | apply Keeps.ite | apply Keeps.ite2 | apply Keeps.ite1 | apply Keeps.ite22 | apply Keeps.ite21 | apply hk | apply whenAwakeBy_keeps | split | intro _)

theorem mctpControl_keeps (s : State) (cmd : Nat) (code : Nat) (b : Bytes) (_ : F.out = true) (_ : F.freeN = true) (hK : Keeps F s0 s) : Keeps F s0 (mctpControl s cmd code b) := by
  unfold mctpControl
  try dsimp only
  repeat' (with_reducible first | assumption | apply Keeps.ite | apply Keeps.ite2 | apply Keeps.ite1 | apply Keeps.ite22 | apply Keeps.ite21 | apply emit_keeps | (fail_if_no_progress refine Keeps.set_freeN ‹_› ?_) | split)

theorem answerSetEid_keeps (eid : BitVec 8) (s : State) (_ : F.doe = true) (_ : F.out = true) (_ : F.freeN = true) (hK : Keeps F s0 s) : Keeps F s0 (answerSetEid eid s) := by
  unfold answerSetEid
  try dsimp only
  repeat' (with_reducible first | assumption | apply Keeps.ite | apply Keeps.ite2 | apply Keeps.ite1 | apply Keeps.ite22 | apply Keeps.ite21 | apply mctpControl_keeps | (fail_if_no_progress refine Keeps.set_doe ‹_› ?_) | split)

theorem answerGetEid_keeps (s : State) (_ : F.out = true) (_ : F.freeN = true) (hK : Keeps F s0 s) : Keeps F s0 (answerGetEid s) := by
  unfold answerGetEid
  try dsimp only
  repeat' (with_reducible first | assumption | apply Keeps.ite | apply Keeps.ite2 | apply Keeps.ite1 | apply Keeps.ite22 | apply Keeps.ite21 | apply mctpControl_keeps | split)

theorem answerMctpVersion_keeps (msgType : BitVec 8) (s : State) (_ : F.out = true) (_ : F.freeN = true) (hK : Keeps F s0 s) : Keeps F s0 (answerMctpVersion msgType s) := by
  unfold answerMctpVersion
  try dsimp only
  repeat' (with_reducible first | assumption | apply Keeps.ite | apply Keeps.ite2 | apply Keeps.ite1 | apply Keeps.ite22 | apply Keeps.ite21 | apply mctpControl_keeps | split)

theorem answerMessageTypes_keeps (s : State) (_ : F.out = true) (_ : F.freeN = true) (hK : Keeps F s0 s) : Keeps F s0 (answerMessageTypes s) := by
  unfold answerMessageTypes
  try dsimp only
  repeat' (with_reducible first | assumption | apply Keeps.ite | apply Keeps.ite2 | apply Keeps.ite1 | apply Keeps.ite22 | apply Keeps.ite21 | apply mctpControl_keeps | split)

theorem answerVendors_keeps (selector : Nat) (s : State) (_ : F.out = true) (_ : F.freeN = true) (hK : Keeps F s0 s) : Keeps F s0 (answerVendors selector s) := by
  unfold answerVendors
  try dsimp only
  repeat' (with_reducible first | assumption | apply Keeps.ite | apply Keeps.ite2 | apply Keeps.ite1 | apply Keeps.ite22 | apply Keeps.ite21 | apply mctpControl_keeps | split)

theorem mctpSend_keeps (s : State) (cmd : Nat) (inst : Byte) (code : Byte) (data : Bytes) (_ : F.out = true) (hK : Keeps F s0 s) : Keeps F s0 (mctpSend s cmd inst code data) := by
  unfold mctpSend
  try dsimp only
  repeat' (with_reducible first | assumption | apply Keeps.ite | apply Keeps.ite2 | apply Keeps.ite1 | apply Keeps.ite22 | apply Keeps.ite21 | apply emit_keeps | split)

theorem answerReadState_keeps (inst : Byte) (kind : Nat) (index : Nat) (s : State) (_ : F.out = true) (hK : Keeps F s0 s) : Keeps F s0 (answerReadState inst kind index s) := by
  unfold answerReadState
  try dsimp only
  repeat' (with_reducible first | assumption | apply Keeps.ite | apply Keeps.ite2 | apply Keeps.ite1 | apply Keeps.ite22 | apply Keeps.ite21 | apply mctpSend_keeps | split)

theorem answerCombCmd_keeps (inst : Byte) (comb : Nat) (word : W32) (s : State) (_ : F.ev = true) (_ : F.fns = true) (_ : F.tenants = true) (_ : F.combs = true) (_ : F.out = true) (hK : Keeps F s0 s) : Keeps F s0 (answerCombCmd inst comb word s) := by
  unfold answerCombCmd
  try dsimp only
  repeat' (with_reducible first | assumption | apply Keeps.ite | apply Keeps.ite2 | apply Keeps.ite1 | apply Keeps.ite22 | apply Keeps.ite21 | apply combCommand_keeps | apply mctpSend_keeps | split)

theorem answerQueueCmd_keeps (inst : Byte) (pool : Nat) (word : W64) (s : State) (_ : F.dma = true) (_ : F.doe = true) (_ : F.queues = true) (_ : F.jobs = true) (_ : F.out = true) (hK : Keeps F s0 s) : Keeps F s0 (answerQueueCmd inst pool word s) := by
  unfold answerQueueCmd
  try dsimp only
  repeat' (with_reducible first | assumption | apply Keeps.ite | apply Keeps.ite2 | apply Keeps.ite1 | apply Keeps.ite22 | apply Keeps.ite21 | apply opQCmdReserved_keeps | apply mctpSend_keeps | (fail_if_no_progress refine Keeps.set_doe ‹_› ?_) | split)

theorem answerReadSticky_keeps (inst : Byte) (s : State) (_ : F.out = true) (hK : Keeps F s0 s) : Keeps F s0 (answerReadSticky inst s) := by
  unfold answerReadSticky
  try dsimp only
  repeat' (with_reducible first | assumption | apply Keeps.ite | apply Keeps.ite2 | apply Keeps.ite1 | apply Keeps.ite22 | apply Keeps.ite21 | apply mctpSend_keeps | split)

theorem answerClearSticky_keeps (inst : Byte) (mask : BitVec 256) (s : State) (_ : F.aon = true) (_ : F.ev = true) (_ : F.fns = true) (_ : F.tenants = true) (_ : F.combs = true) (_ : F.out = true) (hK : Keeps F s0 s) : Keeps F s0 (answerClearSticky inst mask s) := by
  unfold answerClearSticky
  try dsimp only
  repeat' (with_reducible first | assumption | apply Keeps.ite | apply Keeps.ite2 | apply Keeps.ite1 | apply Keeps.ite22 | apply Keeps.ite21 | apply stickyDrop_keeps | apply mctpSend_keeps | split)

/-! ## Reads -/

theorem clearHi_keeps (s : State) (o : Nat) (_ : F.hi = true) (_ : F.dma = true) (hK : Keeps F s0 s) : Keeps F s0 (clearHi s o) := by
  unfold clearHi
  try dsimp only
  repeat' (with_reducible first | assumption | apply Keeps.ite | apply Keeps.ite2 | apply Keeps.ite1 | apply Keeps.ite22 | apply Keeps.ite21 | (fail_if_no_progress refine Keeps.set_dma ‹_› ?_ (by first | exact fun h => h | exact tblWf_set _ _ _ _ | exact tblWf_erase _ _ _ | exact tblWf_map _ _ _ | exact tblWf_drop _ _ _ | with_unfolding_all exact tblWf_drop _ _ _ | exact (tblWf_put _ _ _ _ · (by simp)))) | (fail_if_no_progress refine Keeps.set_hi ‹_› ?_) | (fail_if_no_progress refine Keeps.set_hi_dma ‹_› ‹_› ?_ (by first | exact fun h => h | exact tblWf_set _ _ _ _ | exact tblWf_erase _ _ _ | exact tblWf_map _ _ _ | exact tblWf_drop _ _ _ | with_unfolding_all exact tblWf_drop _ _ _ | exact (tblWf_put _ _ _ _ · (by simp)))) | split)

theorem clearWg_keeps (s : State) (o : Nat) (_ : F.sync = true) (_ : F.wg = true) (hK : Keeps F s0 s) : Keeps F s0 (clearWg s o) := by
  unfold clearWg
  try dsimp only
  repeat' (with_reducible first | assumption | apply Keeps.ite | apply Keeps.ite2 | apply Keeps.ite1 | apply Keeps.ite22 | apply Keeps.ite21 | (fail_if_no_progress refine Keeps.set_sync ‹_› ?_) | (fail_if_no_progress refine Keeps.set_wg ‹_› ?_) | (fail_if_no_progress refine Keeps.set_sync_wg ‹_› ‹_› ?_) | split)

theorem clearPi_keeps (s : State) (o : Nat) (_ : F.peer = true) (hK : Keeps F s0 s) : Keeps F s0 (clearPi s o) := by
  unfold clearPi
  try dsimp only
  repeat' (with_reducible first | assumption | apply Keeps.ite | apply Keeps.ite2 | apply Keeps.ite1 | apply Keeps.ite22 | apply Keeps.ite21 | (fail_if_no_progress refine Keeps.set_peer ‹_› ?_ (by first | exact fun h => h | exact tblWf_set _ _ _ _ | exact tblWf_erase _ _ _ | exact tblWf_map _ _ _ | exact tblWf_drop _ _ _ | with_unfolding_all exact tblWf_drop _ _ _ | exact (tblWf_put _ _ _ _ · (by simp)))) | split)

theorem clearSch_keeps (s : State) (o : Nat) (_ : F.sch = true) (hK : Keeps F s0 s) : Keeps F s0 (clearSch s o) := by
  unfold clearSch
  try dsimp only
  repeat' (with_reducible first | assumption | apply Keeps.ite | apply Keeps.ite2 | apply Keeps.ite1 | apply Keeps.ite22 | apply Keeps.ite21 | (fail_if_no_progress refine Keeps.set_sch ‹_› ?_) | split)

theorem clearCb_keeps (s : State) (c : Nat) (o : Nat) (_ : F.combs = true) (hK : Keeps F s0 s) : Keeps F s0 (clearCb s c o) := by
  unfold clearCb
  try dsimp only
  repeat' (with_reducible first | assumption | apply Keeps.ite | apply Keeps.ite2 | apply Keeps.ite1 | apply Keeps.ite22 | apply Keeps.ite21 | apply modComb_keeps | split | intro _)

theorem clearDrops_keeps (s : State) (c : Nat) (_ : F.tenants = true) (hK : Keeps F s0 s) : Keeps F s0 (clearDrops s c) := by
  unfold clearDrops
  try dsimp only
  repeat' (with_reducible first | assumption | apply Keeps.ite | apply Keeps.ite2 | apply Keeps.ite1 | apply Keeps.ite22 | apply Keeps.ite21 | apply modTenant_keeps | split | intro _)

theorem readClear_keeps (s : State) (p : Place) (_ : F.store = true) (_ : F.ev = true) (_ : F.hi = true) (_ : F.dma = true) (_ : F.peer = true) (_ : F.sync = true) (_ : F.wg = true) (_ : F.ks = true) (_ : F.sch = true) (_ : F.tenants = true) (_ : F.combs = true) (hK : Keeps F s0 s) : Keeps F s0 (readClear s p) := by
  unfold readClear
  try dsimp only
  repeat' (with_reducible first | assumption | apply Keeps.ite | apply Keeps.ite2 | apply Keeps.ite1 | apply Keeps.ite22 | apply Keeps.ite21 | apply modMail_keeps | apply clearHi_keeps | apply clearWg_keeps | apply clearPi_keeps | apply clearSch_keeps | apply clearCb_keeps | apply clearDrops_keeps | (fail_if_no_progress refine Keeps.set_store ‹_› ?_ (by first | exact fun h => h | exact tblWf_set _ _ _ _ | exact tblWf_erase _ _ _ | exact tblWf_map _ _ _ | exact tblWf_drop _ _ _ | with_unfolding_all exact tblWf_drop _ _ _ | exact (tblWf_put _ _ _ _ · (by simp)))) | (fail_if_no_progress refine Keeps.set_ev ‹_› ?_) | (fail_if_no_progress refine Keeps.set_ks ‹_› ?_) | (fail_if_no_progress refine Keeps.set_sch ‹_› ?_) | (fail_if_no_progress refine Keeps.set_store_ev ‹_› ‹_› ?_ (by first | exact fun h => h | exact tblWf_set _ _ _ _ | exact tblWf_erase _ _ _ | exact tblWf_map _ _ _ | exact tblWf_drop _ _ _ | with_unfolding_all exact tblWf_drop _ _ _ | exact (tblWf_put _ _ _ _ · (by simp)))) | (fail_if_no_progress refine Keeps.set_store_ks ‹_› ‹_› ?_ (by first | exact fun h => h | exact tblWf_set _ _ _ _ | exact tblWf_erase _ _ _ | exact tblWf_map _ _ _ | exact tblWf_drop _ _ _ | with_unfolding_all exact tblWf_drop _ _ _ | exact (tblWf_put _ _ _ _ · (by simp)))) | (fail_if_no_progress refine Keeps.set_store_sch ‹_› ‹_› ?_ (by first | exact fun h => h | exact tblWf_set _ _ _ _ | exact tblWf_erase _ _ _ | exact tblWf_map _ _ _ | exact tblWf_drop _ _ _ | with_unfolding_all exact tblWf_drop _ _ _ | exact (tblWf_put _ _ _ _ · (by simp)))) | (fail_if_no_progress refine Keeps.set_ev_ks ‹_› ‹_› ?_) | (fail_if_no_progress refine Keeps.set_ev_sch ‹_› ‹_› ?_) | (fail_if_no_progress refine Keeps.set_ks_sch ‹_› ‹_› ?_) | (fail_if_no_progress refine Keeps.set_store_ev_ks ‹_› ‹_› ‹_› ?_ (by first | exact fun h => h | exact tblWf_set _ _ _ _ | exact tblWf_erase _ _ _ | exact tblWf_map _ _ _ | exact tblWf_drop _ _ _ | with_unfolding_all exact tblWf_drop _ _ _ | exact (tblWf_put _ _ _ _ · (by simp)))) | (fail_if_no_progress refine Keeps.set_store_ev_sch ‹_› ‹_› ‹_› ?_ (by first | exact fun h => h | exact tblWf_set _ _ _ _ | exact tblWf_erase _ _ _ | exact tblWf_map _ _ _ | exact tblWf_drop _ _ _ | with_unfolding_all exact tblWf_drop _ _ _ | exact (tblWf_put _ _ _ _ · (by simp)))) | (fail_if_no_progress refine Keeps.set_store_ks_sch ‹_› ‹_› ‹_› ?_ (by first | exact fun h => h | exact tblWf_set _ _ _ _ | exact tblWf_erase _ _ _ | exact tblWf_map _ _ _ | exact tblWf_drop _ _ _ | with_unfolding_all exact tblWf_drop _ _ _ | exact (tblWf_put _ _ _ _ · (by simp)))) | (fail_if_no_progress refine Keeps.set_ev_ks_sch ‹_› ‹_› ‹_› ?_) | (fail_if_no_progress refine Keeps.set_store_ev_ks_sch ‹_› ‹_› ‹_› ‹_› ?_ (by first | exact fun h => h | exact tblWf_set _ _ _ _ | exact tblWf_erase _ _ _ | exact tblWf_map _ _ _ | exact tblWf_drop _ _ _ | with_unfolding_all exact tblWf_drop _ _ _ | exact (tblWf_put _ _ _ _ · (by simp)))) | split | intro _)

theorem readWord_keeps (s : State) (who : Requester) (p : Place) (_ : F.store = true) (_ : F.ev = true) (_ : F.hi = true) (_ : F.dma = true) (_ : F.peer = true) (_ : F.sync = true) (_ : F.wg = true) (_ : F.ks = true) (_ : F.sch = true) (_ : F.tenants = true) (_ : F.combs = true) (_ : F.latches = true) (hK : Keeps F s0 s) : Keeps F s0 (readWord s who p).2 := by
  unfold readWord
  try dsimp only
  repeat' (with_reducible first | assumption | apply Keeps.ite | apply Keeps.ite2 | apply Keeps.ite1 | apply Keeps.ite22 | apply Keeps.ite21 | apply readClear_keeps | (fail_if_no_progress refine Keeps.set_latches ‹_› ?_) | split)

theorem readWords_keeps (who : Requester) (sp : Space) (l : List Nat) (s : State) (_ : F.store = true) (_ : F.ev = true) (_ : F.hi = true) (_ : F.dma = true) (_ : F.peer = true) (_ : F.sync = true) (_ : F.wg = true) (_ : F.ks = true) (_ : F.sch = true) (_ : F.tenants = true) (_ : F.combs = true) (_ : F.latches = true) (hK : Keeps F s0 s) : Keeps F s0 (readWords who sp l s).2 := by
  induction l generalizing s with
  | nil => exact hK
  | cons o l ih => exact ih _ (by apply readWord_keeps <;> assumption)


theorem readAt_keeps (s : State) (who : Requester) (p : Place) (n : Nat) (_ : F.store = true) (_ : F.ev = true) (_ : F.hi = true) (_ : F.dma = true) (_ : F.peer = true) (_ : F.sync = true) (_ : F.wg = true) (_ : F.ks = true) (_ : F.sch = true) (_ : F.tenants = true) (_ : F.combs = true) (_ : F.latches = true) (hK : Keeps F s0 s) : Keeps F s0 (readAt s who p n).2 := by
  unfold readAt
  try dsimp only
  repeat' (with_reducible first | assumption | apply Keeps.ite | apply Keeps.ite2 | apply Keeps.ite1 | apply Keeps.ite22 | apply Keeps.ite21 | apply readClear_keeps | apply readWords_keeps | split | intro _)

theorem opRegisterRead_keeps (old : Bool) (who : Requester) (a : Access) (n : Nat) (s : State) (_ : F.store = true) (_ : F.ev = true) (_ : F.hi = true) (_ : F.dma = true) (_ : F.peer = true) (_ : F.sync = true) (_ : F.wg = true) (_ : F.ks = true) (_ : F.sch = true) (_ : F.tenants = true) (_ : F.combs = true) (_ : F.latches = true) (_ : F.resp = true) (_ : F.retry = true) (hK : Keeps F s0 s) : Keeps F s0 (opRegisterRead old who a n s) := by
  unfold opRegisterRead
  try dsimp only
  repeat' (with_reducible first | assumption | apply Keeps.ite | apply Keeps.ite2 | apply Keeps.ite1 | apply Keeps.ite22 | apply Keeps.ite21 | apply countUnmapped_keeps | apply readAt_keeps | (fail_if_no_progress refine Keeps.set_resp ‹_› ?_) | split)

theorem access_keeps (i : Instr) (a : Access) (n : Nat) (read : Bool) (s : State) (k : State → State) (hk : ∀ y0, Keeps F s0 y0 → Keeps F s0 (k y0)) (_ : F.hv = true) (hK : Keeps F s0 s) : Keeps F s0 (access i a n read s k) := by
  unfold access
  try dsimp only
  repeat' (with_reducible first | assumption | (intro _ _) | apply Keeps.ite | apply Keeps.ite2 | apply Keeps.ite1 | apply Keeps.ite22 | apply Keeps.ite21 | apply hk | apply whenClocked_keeps | apply wake_keeps | apply whenAwakeBy_keeps | split | intro _)

theorem opRcRegisterRead_keeps (who : Requester) (a : Access) (n : Nat) (s : State) (_ : F.hv = true) (_ : F.store = true) (_ : F.ev = true) (_ : F.hi = true) (_ : F.dma = true) (_ : F.peer = true) (_ : F.sync = true) (_ : F.wg = true) (_ : F.ks = true) (_ : F.sch = true) (_ : F.tenants = true) (_ : F.combs = true) (_ : F.latches = true) (_ : F.resp = true) (_ : F.retry = true) (hK : Keeps F s0 s) : Keeps F s0 (opRcRegisterRead who a n s) := by
  unfold opRcRegisterRead
  try dsimp only
  repeat' (with_reducible first | assumption | (intro _ _) | apply Keeps.ite | apply Keeps.ite2 | apply Keeps.ite1 | apply Keeps.ite22 | apply Keeps.ite21 | apply opRegisterRead_keeps | apply access_keeps | split | intro _)

theorem splitRead_keeps (old : Bool) (who : Requester) (a : Access) (s : State) (_ : F.store = true) (_ : F.ev = true) (_ : F.hi = true) (_ : F.dma = true) (_ : F.peer = true) (_ : F.sync = true) (_ : F.wg = true) (_ : F.ks = true) (_ : F.sch = true) (_ : F.tenants = true) (_ : F.combs = true) (_ : F.latches = true) (_ : F.resp = true) (_ : F.retry = true) (hK : Keeps F s0 s) : Keeps F s0 (splitRead old who a s) := by
  unfold splitRead
  try dsimp only
  repeat' (with_reducible first | assumption | apply Keeps.ite | apply Keeps.ite2 | apply Keeps.ite1 | apply Keeps.ite22 | apply Keeps.ite21 | apply opRegisterRead_keeps | split)

theorem opSplitReadLatch_keeps (who : Requester) (a : Access) (s : State) (_ : F.hv = true) (_ : F.store = true) (_ : F.ev = true) (_ : F.hi = true) (_ : F.dma = true) (_ : F.peer = true) (_ : F.sync = true) (_ : F.wg = true) (_ : F.ks = true) (_ : F.sch = true) (_ : F.tenants = true) (_ : F.combs = true) (_ : F.latches = true) (_ : F.resp = true) (_ : F.retry = true) (hK : Keeps F s0 s) : Keeps F s0 (opSplitReadLatch who a s) := by
  unfold opSplitReadLatch
  try dsimp only
  repeat' (with_reducible first | assumption | (intro _ _) | apply Keeps.ite | apply Keeps.ite2 | apply Keeps.ite1 | apply Keeps.ite22 | apply Keeps.ite21 | apply access_keeps | apply splitRead_keeps | split | intro _)

/-! ## Writes -/

theorem writeHv_keeps (s : State) (o : Nat) (v : W32) (_ : F.hv = true) (_ : F.store = true) (_ : F.otp = true) (_ : F.aon = true) (_ : F.ev = true) (_ : F.hi = true) (_ : F.cap = true) (_ : F.dma = true) (_ : F.doe = true) (_ : F.lc = true) (_ : F.peer = true) (_ : F.sync = true) (_ : F.wg = true) (_ : F.adm = true) (_ : F.ks = true) (_ : F.sch = true) (_ : F.fns = true) (_ : F.tenants = true) (_ : F.queues = true) (_ : F.rings = true) (_ : F.ctxs = true) (_ : F.slots = true) (_ : F.combs = true) (_ : F.jobs = true) (_ : F.nextJob = true) (_ : F.out = true) (_ : F.halves = true) (_ : F.latches = true) (_ : F.retry = true) (_ : F.freeN = true) (hK : Keeps F s0 s) : Keeps F s0 (writeHv s o v) := by
  unfold writeHv
  try dsimp only
  repeat' (with_reducible first | assumption | apply Keeps.ite | apply Keeps.ite2 | apply Keeps.ite1 | apply Keeps.ite22 | apply Keeps.ite21 | apply wake_keeps | apply opWarmReset_keeps | apply opKeeperRestart_keeps | apply opHvSleepEnter_keeps | apply opHvSleepWake_keeps | (fail_if_no_progress refine Keeps.set_hv ‹_› ?_ (by first | exact fun h => h | (intro _; dsimp only; split <;> decide) | (intro _; simp; done)) (by first | exact fun h => h | (intro _; dsimp only; split <;> decide) | (intro _; simp; done))) | split)

theorem writeCf_keeps (s : State) (o : Nat) (v : W32) (_ : F.store = true) (_ : F.aon = true) (_ : F.ev = true) (_ : F.fns = true) (_ : F.tenants = true) (_ : F.combs = true) (hK : Keeps F s0 s) : Keeps F s0 (writeCf s o v) := by
  unfold writeCf
  try dsimp only
  repeat' (with_reducible first | assumption | apply Keeps.ite | apply Keeps.ite2 | apply Keeps.ite1 | apply Keeps.ite22 | apply Keeps.ite21 | apply opCfUpdCommit_keeps | (fail_if_no_progress refine Keeps.set_store ‹_› ?_ (by first | exact fun h => h | exact tblWf_set _ _ _ _ | exact tblWf_erase _ _ _ | exact tblWf_map _ _ _ | exact tblWf_drop _ _ _ | with_unfolding_all exact tblWf_drop _ _ _ | exact (tblWf_put _ _ _ _ · (by simp)))) | split)

theorem writeFnCtrl_keeps (s : State) (v : W32) (_ : F.ev = true) (_ : F.hi = true) (_ : F.dma = true) (_ : F.peer = true) (_ : F.wg = true) (_ : F.ks = true) (_ : F.fns = true) (_ : F.tenants = true) (_ : F.queues = true) (_ : F.ctxs = true) (_ : F.slots = true) (_ : F.combs = true) (_ : F.jobs = true) (_ : F.out = true) (_ : F.halves = true) (_ : F.latches = true) (_ : F.freeN = true) (hK : Keeps F s0 s) : Keeps F s0 (writeFnCtrl s v) := by
  unfold writeFnCtrl
  try dsimp only
  repeat' (with_reducible first | assumption | apply Keeps.ite | apply Keeps.ite2 | apply Keeps.ite1 | apply Keeps.ite22 | apply Keeps.ite21 | apply opMsixMaskWrite_keeps | apply opBmeClear_keeps | apply opBmeSet_keeps | apply opFlr_keeps | split | intro _)

theorem writeWtt_keeps (s : State) (f : Wtt → Wtt) (_ : F.hi = true) (hK : Keeps F s0 s) : Keeps F s0 (writeWtt s f) := by
  unfold writeWtt
  try dsimp only
  repeat' (with_reducible first | assumption | apply Keeps.ite | apply Keeps.ite2 | apply Keeps.ite1 | apply Keeps.ite22 | apply Keeps.ite21 | (fail_if_no_progress refine Keeps.set_hi ‹_› ?_) | split)

theorem writeHi_keeps (s : State) (o : Nat) (v : W32) (_ : F.ev = true) (_ : F.hi = true) (_ : F.dma = true) (_ : F.peer = true) (_ : F.wg = true) (_ : F.ks = true) (_ : F.fns = true) (_ : F.tenants = true) (_ : F.queues = true) (_ : F.ctxs = true) (_ : F.slots = true) (_ : F.combs = true) (_ : F.jobs = true) (_ : F.out = true) (_ : F.halves = true) (_ : F.latches = true) (_ : F.freeN = true) (hK : Keeps F s0 s) : Keeps F s0 (writeHi s o v) := by
  unfold writeHi
  try dsimp only
  repeat' (with_reducible first | assumption | apply Keeps.ite | apply Keeps.ite2 | apply Keeps.ite1 | apply Keeps.ite22 | apply Keeps.ite21 | apply opHiWttFlip_keeps | apply writeFnCtrl_keeps | apply writeWtt_keeps | (fail_if_no_progress refine Keeps.set_hi ‹_› ?_) | split | intro _)

theorem writeEv_keeps (s : State) (o : Nat) (v : W32) (_ : F.aon = true) (_ : F.ev = true) (_ : F.hi = true) (_ : F.dma = true) (_ : F.fns = true) (_ : F.tenants = true) (_ : F.combs = true) (_ : F.out = true) (hK : Keeps F s0 s) : Keeps F s0 (writeEv s o v) := by
  unfold writeEv
  try dsimp only
  repeat' (with_reducible first | assumption | apply Keeps.ite | apply Keeps.ite2 | apply Keeps.ite1 | apply Keeps.ite22 | apply Keeps.ite21 | apply opEvLogConsWrite_keeps | apply opEvLogCommit_keeps | apply opEvPendClear_keeps | apply opEvRouteWrite_keeps | apply opStickyClear_keeps | (fail_if_no_progress refine Keeps.set_ev ‹_› ?_) | (fail_if_no_progress refine Keeps.set_aon ‹_› ?_) | (fail_if_no_progress refine Keeps.set_aon_ev ‹_› ‹_› ?_) | split)

theorem writeLc_keeps (s : State) (o : Nat) (v : W32) (_ : F.ev = true) (_ : F.dma = true) (_ : F.lc = true) (_ : F.ks = true) (_ : F.fns = true) (_ : F.tenants = true) (_ : F.ctxs = true) (_ : F.slots = true) (_ : F.combs = true) (_ : F.jobs = true) (_ : F.trngN = true) (_ : F.freeN = true) (hK : Keeps F s0 s) : Keeps F s0 (writeLc s o v) := by
  unfold writeLc
  try dsimp only
  repeat' (with_reducible first | assumption | apply Keeps.ite | apply Keeps.ite2 | apply Keeps.ite1 | apply Keeps.ite22 | apply Keeps.ite21 | apply lcRequest_keeps | apply dbgRequest_keeps | apply opLcRespCommit_keeps | (fail_if_no_progress refine Keeps.set_lc ‹_› ?_) | split)

theorem writeTp_keeps (s : State) (o : Nat) (v : W32) (_ : F.aon = true) (hK : Keeps F s0 s) : Keeps F s0 (writeTp s o v) := by
  unfold writeTp
  try dsimp only
  repeat' (with_reducible first | assumption | apply Keeps.ite | apply Keeps.ite2 | apply Keeps.ite1 | apply Keeps.ite22 | apply Keeps.ite21 | apply opTpLatchClear_keeps | (fail_if_no_progress refine Keeps.set_aon ‹_› ?_) | split)

theorem provCommitAny_keeps (s : State) (_ : F.ev = true) (_ : F.ks = true) (_ : F.fns = true) (_ : F.tenants = true) (hK : Keeps F s0 s) : Keeps F s0 (provCommitAny s) := by
  unfold provCommitAny
  try dsimp only
  repeat' (with_reducible first | assumption | apply Keeps.ite | apply Keeps.ite2 | apply Keeps.ite1 | apply Keeps.ite22 | apply Keeps.ite21 | apply provCommit_keeps | apply opKsProvOp3_keeps | split)

theorem writeKs_keeps (s : State) (o : Nat) (v : W32) (_ : F.ev = true) (_ : F.dma = true) (_ : F.ks = true) (_ : F.fns = true) (_ : F.tenants = true) (_ : F.ctxs = true) (_ : F.slots = true) (_ : F.combs = true) (_ : F.jobs = true) (_ : F.freeN = true) (hK : Keeps F s0 s) : Keeps F s0 (writeKs s o v) := by
  unfold writeKs
  try dsimp only
  repeat' (with_reducible first | assumption | apply Keeps.ite | apply Keeps.ite2 | apply Keeps.ite1 | apply Keeps.ite22 | apply Keeps.ite21 | apply opKsZeroiseStart_keeps | apply provCommitAny_keeps | (fail_if_no_progress refine Keeps.set_ks ‹_› ?_) | split)

theorem writeWg_keeps (s : State) (o : Nat) (v : W32) (_ : F.ev = true) (_ : F.hi = true) (_ : F.dma = true) (_ : F.sync = true) (_ : F.wg = true) (_ : F.fns = true) (_ : F.tenants = true) (_ : F.jobs = true) (_ : F.out = true) (hK : Keeps F s0 s) : Keeps F s0 (writeWg s o v) := by
  unfold writeWg
  try dsimp only
  repeat' (with_reducible first | assumption | apply Keeps.ite | apply Keeps.ite2 | apply Keeps.ite1 | apply Keeps.ite22 | apply Keeps.ite21 | apply opWgMlogConsWrite_keeps | apply opWgSyncCommit_keeps | apply opWgMlogCommit_keeps | apply opWgTselWrite_keeps | apply opWgTcommit_keeps | (fail_if_no_progress refine Keeps.set_sync ‹_› ?_) | (fail_if_no_progress refine Keeps.set_wg ‹_› ?_) | (fail_if_no_progress refine Keeps.set_sync_wg ‹_› ‹_› ?_) | split)

theorem writePi_keeps (s : State) (o : Nat) (v : W32) (_ : F.ev = true) (_ : F.dma = true) (_ : F.peer = true) (_ : F.wg = true) (_ : F.ks = true) (_ : F.fns = true) (_ : F.tenants = true) (_ : F.queues = true) (_ : F.ctxs = true) (_ : F.slots = true) (_ : F.combs = true) (_ : F.jobs = true) (_ : F.freeN = true) (hK : Keeps F s0 s) : Keeps F s0 (writePi s o v) := by
  unfold writePi
  try dsimp only
  repeat' (with_reducible first | assumption | apply Keeps.ite | apply Keeps.ite2 | apply Keeps.ite1 | apply Keeps.ite22 | apply Keeps.ite21 | apply opPiPeerReset_keeps | apply opPiCommit_keeps | (fail_if_no_progress refine Keeps.set_peer ‹_› ?_ (by first | exact fun h => h | exact tblWf_set _ _ _ _ | exact tblWf_erase _ _ _ | exact tblWf_map _ _ _ | exact tblWf_drop _ _ _ | with_unfolding_all exact tblWf_drop _ _ _ | exact (tblWf_put _ _ _ _ · (by simp)))) | split)

theorem writeSch_keeps (s : State) (o : Nat) (v : W32) (_ : F.sch = true) (hK : Keeps F s0 s) : Keeps F s0 (writeSch s o v) := by
  unfold writeSch
  try dsimp only
  repeat' (with_reducible first | assumption | apply Keeps.ite | apply Keeps.ite2 | apply Keeps.ite1 | apply Keeps.ite22 | apply Keeps.ite21 | apply opSchCommit_keeps | (fail_if_no_progress refine Keeps.set_sch ‹_› ?_) | split)

theorem writeAdm_keeps (s : State) (o : Nat) (v : W32) (_ : F.store = true) (_ : F.aon = true) (_ : F.ev = true) (_ : F.dma = true) (_ : F.peer = true) (_ : F.wg = true) (_ : F.adm = true) (_ : F.ks = true) (_ : F.sch = true) (_ : F.fns = true) (_ : F.tenants = true) (_ : F.queues = true) (_ : F.rings = true) (_ : F.ctxs = true) (_ : F.slots = true) (_ : F.combs = true) (_ : F.jobs = true) (_ : F.freeN = true) (hK : Keeps F s0 s) : Keeps F s0 (writeAdm s o v) := by
  unfold writeAdm
  try dsimp only
  repeat' (with_reducible first | assumption | apply Keeps.ite | apply Keeps.ite2 | apply Keeps.ite1 | apply Keeps.ite22 | apply Keeps.ite21 | apply admCommit_keeps | (fail_if_no_progress refine Keeps.set_adm ‹_› ?_) | split)

theorem writeDmaw_keeps (s : State) (o : Nat) (v : W32) (_ : F.adm = true) (_ : F.tenants = true) (hK : Keeps F s0 s) : Keeps F s0 (writeDmaw s o v) := by
  unfold writeDmaw
  try dsimp only
  repeat' (with_reducible first | assumption | apply Keeps.ite | apply Keeps.ite2 | apply Keeps.ite1 | apply Keeps.ite22 | apply Keeps.ite21 | apply modWin_keeps | apply opTnDmawEntryWrite_keeps | apply opTnDmawFlip_keeps | (fail_if_no_progress refine Keeps.set_adm ‹_› ?_) | split | intro _)

theorem writeTn_keeps (s : State) (c : Nat) (o : Nat) (v : W32) (_ : F.tenants = true) (hK : Keeps F s0 s) : Keeps F s0 (writeTn s c o v) := by
  unfold writeTn
  try dsimp only
  repeat' (with_reducible first | assumption | apply Keeps.ite | apply Keeps.ite2 | apply Keeps.ite1 | apply Keeps.ite22 | apply Keeps.ite21 | apply modTenant_keeps | split | intro _)

theorem writeQs_keeps (s : State) (n : Nat) (o : Nat) (v : W32) (_ : F.queues = true) (hK : Keeps F s0 s) : Keeps F s0 (writeQs s n o v) := by
  unfold writeQs
  try dsimp only
  repeat' (with_reducible first | assumption | apply Keeps.ite | apply Keeps.ite2 | apply Keeps.ite1 | apply Keeps.ite22 | apply Keeps.ite21 | apply modQueue_keeps | split | intro _)

theorem writePage_keeps (s : State) (c : Nat) (q : Nat) (o : Nat) (v : W32) (_ : F.hi = true) (_ : F.dma = true) (_ : F.queues = true) (_ : F.jobs = true) (_ : F.out = true) (hK : Keeps F s0 s) : Keeps F s0 (writePage s c q o v) := by
  unfold writePage
  try dsimp only
  repeat' (with_reducible first | assumption | apply Keeps.ite | apply Keeps.ite2 | apply Keeps.ite1 | apply Keeps.ite22 | apply Keeps.ite21 | apply modQueue_keeps | apply fnActive_keeps | apply opQDbWrite_keeps | apply opQDbNodataWrite_keeps | split | intro _)

theorem writeQcfg_keeps (s : State) (c : Nat) (o : Nat) (v : W32) (_ : F.tenants = true) (_ : F.queues = true) (hK : Keeps F s0 s) : Keeps F s0 (writeQcfg s c o v) := by
  unfold writeQcfg
  try dsimp only
  repeat' (with_reducible first | assumption | apply Keeps.ite | apply Keeps.ite2 | apply Keeps.ite1 | apply Keeps.ite22 | apply Keeps.ite21 | apply modTenant_keeps | apply opTnQcfgSelWrite_keeps | apply opTnQcfgCommit_keeps | split | intro _)

theorem writeCrGroup_keeps (s : State) (c : Nat) (o : Nat) (v : W32) (_ : F.hi = true) (_ : F.dma = true) (_ : F.fns = true) (_ : F.tenants = true) (_ : F.queues = true) (_ : F.rings = true) (_ : F.out = true) (hK : Keeps F s0 s) : Keeps F s0 (writeCrGroup s c o v) := by
  unfold writeCrGroup
  try dsimp only
  repeat' (with_reducible first | assumption | apply Keeps.ite | apply Keeps.ite2 | apply Keeps.ite1 | apply Keeps.ite22 | apply Keeps.ite21 | apply modTenant_keeps | apply modRing_keeps | apply opTnCrConsWrite_keeps | apply opTnCrSelWrite_keeps | apply opTnCrCommit_keeps | split | intro _)

theorem writeRlog_keeps (s : State) (c : Nat) (o : Nat) (v : W32) (_ : F.hi = true) (_ : F.dma = true) (_ : F.peer = true) (_ : F.fns = true) (_ : F.tenants = true) (_ : F.out = true) (hK : Keeps F s0 s) : Keeps F s0 (writeRlog s c o v) := by
  unfold writeRlog
  try dsimp only
  repeat' (with_reducible first | assumption | apply Keeps.ite | apply Keeps.ite2 | apply Keeps.ite1 | apply Keeps.ite22 | apply Keeps.ite21 | apply modTenant_keeps | apply opTnRlogConsWrite_keeps | apply opTnRlogCommit_keeps | split | intro _)

theorem writeMail_keeps (s : State) (c : Nat) (o : Nat) (v : W32) (_ : F.tenants = true) (hK : Keeps F s0 s) : Keeps F s0 (writeMail s c o v) := by
  unfold writeMail
  try dsimp only
  repeat' (with_reducible first | assumption | apply Keeps.ite | apply Keeps.ite2 | apply Keeps.ite1 | apply Keeps.ite22 | apply Keeps.ite21 | apply modMail_keeps | apply writeH2k_keeps | apply opMbH2kMsgWrite_keeps | apply opMbPoolRegister_keeps | split | intro _)

theorem writeBlock_keeps (s : State) (c : Nat) (o : Nat) (v : W32) (_ : F.hi = true) (_ : F.dma = true) (_ : F.peer = true) (_ : F.fns = true) (_ : F.tenants = true) (_ : F.queues = true) (_ : F.rings = true) (_ : F.out = true) (hK : Keeps F s0 s) : Keeps F s0 (writeBlock s c o v) := by
  unfold writeBlock
  try dsimp only
  repeat' (with_reducible first | assumption | apply Keeps.ite | apply Keeps.ite2 | apply Keeps.ite1 | apply Keeps.ite22 | apply Keeps.ite21 | apply writeQcfg_keeps | apply writeCrGroup_keeps | apply writeRlog_keeps | apply writeMail_keeps | split)

theorem writeHi64_keeps (s : State) (o : Nat) (v : W64) (_ : F.hi = true) (hK : Keeps F s0 s) : Keeps F s0 (writeHi64 s o v) := by
  unfold writeHi64
  try dsimp only
  repeat' (with_reducible first | assumption | apply Keeps.ite | apply Keeps.ite2 | apply Keeps.ite1 | apply Keeps.ite22 | apply Keeps.ite21 | apply writeWtt_keeps | split | intro _)

theorem writeKs64_keeps (s : State) (o : Nat) (v : W64) (_ : F.ks = true) (hK : Keeps F s0 s) : Keeps F s0 (writeKs64 s o v) := by
  unfold writeKs64
  try dsimp only
  repeat' (with_reducible first | assumption | apply Keeps.ite | apply Keeps.ite2 | apply Keeps.ite1 | apply Keeps.ite22 | apply Keeps.ite21 | (fail_if_no_progress refine Keeps.set_ks ‹_› ?_) | split)

theorem writeWg64_keeps (s : State) (o : Nat) (v : W64) (_ : F.wg = true) (hK : Keeps F s0 s) : Keeps F s0 (writeWg64 s o v) := by
  unfold writeWg64
  try dsimp only
  repeat' (with_reducible first | assumption | apply Keeps.ite | apply Keeps.ite2 | apply Keeps.ite1 | apply Keeps.ite22 | apply Keeps.ite21 | (fail_if_no_progress refine Keeps.set_wg ‹_› ?_) | split)

theorem writeDmaw64_keeps (s : State) (o : Nat) (v : W64) (_ : F.tenants = true) (hK : Keeps F s0 s) : Keeps F s0 (writeDmaw64 s o v) := by
  unfold writeDmaw64
  try dsimp only
  repeat' (with_reducible first | assumption | apply Keeps.ite | apply Keeps.ite2 | apply Keeps.ite1 | apply Keeps.ite22 | apply Keeps.ite21 | apply opTnDmawEntryWrite_keeps | split)

theorem writeBlock64_keeps (s : State) (c : Nat) (o : Nat) (v : W64) (_ : F.tenants = true) (hK : Keeps F s0 s) : Keeps F s0 (writeBlock64 s c o v) := by
  unfold writeBlock64
  try dsimp only
  repeat' (with_reducible first | assumption | apply Keeps.ite | apply Keeps.ite2 | apply Keeps.ite1 | apply Keeps.ite22 | apply Keeps.ite21 | apply modTenant_keeps | apply writeH2k_keeps | apply opMbPoolRegister_keeps | split | intro _)

theorem writeReg64_keeps (s : State) (p : Place) (v : W64) (_ : F.store = true) (_ : F.ev = true) (_ : F.hi = true) (_ : F.dma = true) (_ : F.lc = true) (_ : F.wg = true) (_ : F.ks = true) (_ : F.tenants = true) (_ : F.queues = true) (_ : F.jobs = true) (hK : Keeps F s0 s) : Keeps F s0 (writeReg64 s p v) := by
  unfold writeReg64
  try dsimp only
  repeat' (with_reducible first | assumption | apply Keeps.ite | apply Keeps.ite2 | apply Keeps.ite1 | apply Keeps.ite22 | apply Keeps.ite21 | apply opQCmdReserved_keeps | apply writeHi64_keeps | apply writeKs64_keeps | apply writeWg64_keeps | apply writeDmaw64_keeps | apply writeBlock64_keeps | (fail_if_no_progress refine Keeps.set_store ‹_› ?_ (by first | exact fun h => h | exact tblWf_set _ _ _ _ | exact tblWf_erase _ _ _ | exact tblWf_map _ _ _ | exact tblWf_drop _ _ _ | with_unfolding_all exact tblWf_drop _ _ _ | exact (tblWf_put _ _ _ _ · (by simp)))) | (fail_if_no_progress refine Keeps.set_ev ‹_› ?_) | (fail_if_no_progress refine Keeps.set_lc ‹_› ?_) | (fail_if_no_progress refine Keeps.set_store_ev ‹_› ‹_› ?_ (by first | exact fun h => h | exact tblWf_set _ _ _ _ | exact tblWf_erase _ _ _ | exact tblWf_map _ _ _ | exact tblWf_drop _ _ _ | with_unfolding_all exact tblWf_drop _ _ _ | exact (tblWf_put _ _ _ _ · (by simp)))) | (fail_if_no_progress refine Keeps.set_store_lc ‹_› ‹_› ?_ (by first | exact fun h => h | exact tblWf_set _ _ _ _ | exact tblWf_erase _ _ _ | exact tblWf_map _ _ _ | exact tblWf_drop _ _ _ | with_unfolding_all exact tblWf_drop _ _ _ | exact (tblWf_put _ _ _ _ · (by simp)))) | (fail_if_no_progress refine Keeps.set_ev_lc ‹_› ‹_› ?_) | (fail_if_no_progress refine Keeps.set_store_ev_lc ‹_› ‹_› ‹_› ?_ (by first | exact fun h => h | exact tblWf_set _ _ _ _ | exact tblWf_erase _ _ _ | exact tblWf_map _ _ _ | exact tblWf_drop _ _ _ | with_unfolding_all exact tblWf_drop _ _ _ | exact (tblWf_put _ _ _ _ · (by simp)))) | split)

theorem writeReg32_keeps (s : State) (p : Place) (v : W32) (_ : F.hv = true) (_ : F.store = true) (_ : F.otp = true) (_ : F.aon = true) (_ : F.ev = true) (_ : F.hi = true) (_ : F.cap = true) (_ : F.dma = true) (_ : F.doe = true) (_ : F.lc = true) (_ : F.peer = true) (_ : F.sync = true) (_ : F.wg = true) (_ : F.adm = true) (_ : F.ks = true) (_ : F.sch = true) (_ : F.fns = true) (_ : F.tenants = true) (_ : F.queues = true) (_ : F.rings = true) (_ : F.ctxs = true) (_ : F.slots = true) (_ : F.combs = true) (_ : F.jobs = true) (_ : F.nextJob = true) (_ : F.out = true) (_ : F.halves = true) (_ : F.latches = true) (_ : F.retry = true) (_ : F.trngN = true) (_ : F.freeN = true) (hK : Keeps F s0 s) : Keeps F s0 (writeReg32 s p v) := by
  unfold writeReg32
  try dsimp only
  repeat' (with_reducible first | assumption | apply Keeps.ite | apply Keeps.ite2 | apply Keeps.ite1 | apply Keeps.ite22 | apply Keeps.ite21 | apply opMsixMaskWrite_keeps | apply opDoeAbort_keeps | apply opCbCmdInvalid_keeps | apply writeHv_keeps | apply writeCf_keeps | apply writeHi_keeps | apply writeEv_keeps | apply writeLc_keeps | apply writeTp_keeps | apply writeKs_keeps | apply writeWg_keeps | apply writePi_keeps | apply writeSch_keeps | apply writeAdm_keeps | apply writeDmaw_keeps | apply writeTn_keeps | apply writeQs_keeps | apply writePage_keeps | apply writeBlock_keeps | split)

theorem writeWord_keeps (s : State) (who : Requester) (p : Place) (v : W32) (_ : F.hv = true) (_ : F.store = true) (_ : F.otp = true) (_ : F.aon = true) (_ : F.ev = true) (_ : F.hi = true) (_ : F.cap = true) (_ : F.dma = true) (_ : F.doe = true) (_ : F.lc = true) (_ : F.peer = true) (_ : F.sync = true) (_ : F.wg = true) (_ : F.adm = true) (_ : F.ks = true) (_ : F.sch = true) (_ : F.fns = true) (_ : F.tenants = true) (_ : F.queues = true) (_ : F.rings = true) (_ : F.ctxs = true) (_ : F.slots = true) (_ : F.combs = true) (_ : F.jobs = true) (_ : F.nextJob = true) (_ : F.out = true) (_ : F.halves = true) (_ : F.latches = true) (_ : F.retry = true) (_ : F.trngN = true) (_ : F.freeN = true) (hK : Keeps F s0 s) : Keeps F s0 (writeWord s who p v) := by
  unfold writeWord
  try dsimp only
  repeat' (with_reducible first | assumption | apply Keeps.ite | apply Keeps.ite2 | apply Keeps.ite1 | apply Keeps.ite22 | apply Keeps.ite21 | apply writeReg64_keeps | apply writeReg32_keeps | (fail_if_no_progress refine Keeps.set_halves ‹_› ?_) | split)

theorem writeWords_keeps (s : State) (who : Requester) (p : Place) (n : Nat) (data : W64) (_ : F.hv = true) (_ : F.store = true) (_ : F.otp = true) (_ : F.aon = true) (_ : F.ev = true) (_ : F.hi = true) (_ : F.cap = true) (_ : F.dma = true) (_ : F.doe = true) (_ : F.lc = true) (_ : F.peer = true) (_ : F.sync = true) (_ : F.wg = true) (_ : F.adm = true) (_ : F.ks = true) (_ : F.sch = true) (_ : F.fns = true) (_ : F.tenants = true) (_ : F.queues = true) (_ : F.rings = true) (_ : F.ctxs = true) (_ : F.slots = true) (_ : F.combs = true) (_ : F.jobs = true) (_ : F.nextJob = true) (_ : F.out = true) (_ : F.halves = true) (_ : F.latches = true) (_ : F.retry = true) (_ : F.trngN = true) (_ : F.freeN = true) (hK : Keeps F s0 s) : Keeps F s0 (writeWords s who p n data) := by
  unfold writeWords
  try dsimp only
  repeat' (with_reducible first | assumption | apply Keeps.ite | apply Keeps.ite2 | apply Keeps.ite1 | apply Keeps.ite22 | apply Keeps.ite21 | apply writeReg64_keeps | apply writeWord_keeps | (fail_if_no_progress refine Keeps.set_halves ‹_› ?_) | split)

theorem putBme_keeps (s : State) (fn : Nat) (on : Bool) (_ : F.ev = true) (_ : F.hi = true) (_ : F.dma = true) (_ : F.peer = true) (_ : F.wg = true) (_ : F.ks = true) (_ : F.fns = true) (_ : F.tenants = true) (_ : F.queues = true) (_ : F.ctxs = true) (_ : F.slots = true) (_ : F.combs = true) (_ : F.jobs = true) (_ : F.out = true) (_ : F.freeN = true) (hK : Keeps F s0 s) : Keeps F s0 (putBme s fn on) := by
  unfold putBme
  try dsimp only
  repeat' (with_reducible first | assumption | apply Keeps.ite | apply Keeps.ite2 | apply Keeps.ite1 | apply Keeps.ite22 | apply Keeps.ite21 | apply opBmeClear_keeps | apply opBmeSet_keeps | split | intro _)

theorem putPower_keeps (s : State) (v : W32) (_ : F.ev = true) (_ : F.dma = true) (_ : F.peer = true) (_ : F.wg = true) (_ : F.ks = true) (_ : F.fns = true) (_ : F.tenants = true) (_ : F.queues = true) (_ : F.ctxs = true) (_ : F.slots = true) (_ : F.combs = true) (_ : F.jobs = true) (_ : F.halves = true) (_ : F.latches = true) (_ : F.freeN = true) (hK : Keeps F s0 s) : Keeps F s0 (putPower s v) := by
  unfold putPower
  try dsimp only
  repeat' (with_reducible first | assumption | apply Keeps.ite | apply Keeps.ite2 | apply Keeps.ite1 | apply Keeps.ite22 | apply Keeps.ite21 | apply opD3hotEntry_keeps | apply opD3hotToD0_keeps | split)

theorem putDevCtl_keeps (s : State) (fn : Nat) (v : W32) (_ : F.ev = true) (_ : F.cap = true) (_ : F.dma = true) (_ : F.peer = true) (_ : F.wg = true) (_ : F.ks = true) (_ : F.fns = true) (_ : F.tenants = true) (_ : F.queues = true) (_ : F.ctxs = true) (_ : F.slots = true) (_ : F.combs = true) (_ : F.jobs = true) (_ : F.halves = true) (_ : F.latches = true) (_ : F.freeN = true) (hK : Keeps F s0 s) : Keeps F s0 (putDevCtl s fn v) := by
  unfold putDevCtl
  try dsimp only
  repeat' (with_reducible first | assumption | apply Keeps.ite | apply Keeps.ite2 | apply Keeps.ite1 | apply Keeps.ite22 | apply Keeps.ite21 | apply modFunc_keeps | apply opFlr_keeps | (fail_if_no_progress refine Keeps.set_cap ‹_› ?_) | split | intro _)

theorem putAts_keeps (s : State) (fn : Nat) (on : Bool) (_ : F.dma = true) (_ : F.fns = true) (hK : Keeps F s0 s) : Keeps F s0 (putAts s fn on) := by
  unfold putAts
  try dsimp only
  repeat' (with_reducible first | assumption | apply Keeps.ite | apply Keeps.ite2 | apply Keeps.ite1 | apply Keeps.ite22 | apply Keeps.ite21 | apply modFunc_keeps | (fail_if_no_progress refine Keeps.set_dma ‹_› ?_ (by first | exact fun h => h | exact tblWf_set _ _ _ _ | exact tblWf_erase _ _ _ | exact tblWf_map _ _ _ | exact tblWf_drop _ _ _ | with_unfolding_all exact tblWf_drop _ _ _ | exact (tblWf_put _ _ _ _ · (by simp)))) | split | intro _)

theorem putVf_keeps (s : State) (on : Bool) (_ : F.ev = true) (_ : F.cap = true) (_ : F.dma = true) (_ : F.peer = true) (_ : F.wg = true) (_ : F.ks = true) (_ : F.fns = true) (_ : F.tenants = true) (_ : F.queues = true) (_ : F.ctxs = true) (_ : F.slots = true) (_ : F.combs = true) (_ : F.jobs = true) (_ : F.halves = true) (_ : F.latches = true) (_ : F.freeN = true) (hK : Keeps F s0 s) : Keeps F s0 (putVf s on) := by
  unfold putVf
  try dsimp only
  repeat' (with_reducible first | assumption | apply Keeps.ite | apply Keeps.ite2 | apply Keeps.ite1 | apply Keeps.ite22 | apply Keeps.ite21 | apply opVfEnableClear_keeps | (fail_if_no_progress refine Keeps.set_cap ‹_› ?_) | split)

theorem writeCfg_keeps (s : State) (fn : Nat) (o : Nat) (v : W32) (set : W32) (_ : F.ev = true) (_ : F.hi = true) (_ : F.cap = true) (_ : F.dma = true) (_ : F.doe = true) (_ : F.peer = true) (_ : F.wg = true) (_ : F.ks = true) (_ : F.fns = true) (_ : F.tenants = true) (_ : F.queues = true) (_ : F.ctxs = true) (_ : F.slots = true) (_ : F.combs = true) (_ : F.jobs = true) (_ : F.out = true) (_ : F.halves = true) (_ : F.latches = true) (_ : F.freeN = true) (hK : Keeps F s0 s) : Keeps F s0 (writeCfg s fn o v set) := by
  unfold writeCfg
  try dsimp only
  repeat' (with_reducible first | assumption | apply Keeps.ite | apply Keeps.ite2 | apply Keeps.ite1 | apply Keeps.ite22 | apply Keeps.ite21 | apply modFunc_keeps | apply opMsixMaskWrite_keeps | apply opDoeAbort_keeps | apply putBme_keeps | apply putPower_keeps | apply putDevCtl_keeps | apply putAts_keeps | apply putVf_keeps | (fail_if_no_progress refine Keeps.set_cap ‹_› ?_) | split | intro _)

theorem cfgWrite_keeps (s : State) (fn : Nat) (o : Nat) (n : Nat) (data : W64) (_ : F.ev = true) (_ : F.hi = true) (_ : F.cap = true) (_ : F.dma = true) (_ : F.doe = true) (_ : F.peer = true) (_ : F.wg = true) (_ : F.ks = true) (_ : F.fns = true) (_ : F.tenants = true) (_ : F.queues = true) (_ : F.ctxs = true) (_ : F.slots = true) (_ : F.combs = true) (_ : F.jobs = true) (_ : F.out = true) (_ : F.halves = true) (_ : F.latches = true) (_ : F.freeN = true) (hK : Keeps F s0 s) : Keeps F s0 (cfgWrite s fn o n data) := by
  unfold cfgWrite
  try dsimp only
  repeat' (with_reducible first | assumption | apply Keeps.ite | apply Keeps.ite2 | apply Keeps.ite1 | apply Keeps.ite22 | apply Keeps.ite21 | apply writeCfg_keeps | split)

theorem mailActive_keeps (s : State) (p : Place) (_ : F.hi = true) (_ : F.out = true) (hK : Keeps F s0 s) : Keeps F s0 (mailActive s p) := by
  unfold mailActive
  try dsimp only
  repeat' (with_reducible first | assumption | apply Keeps.ite | apply Keeps.ite2 | apply Keeps.ite1 | apply Keeps.ite22 | apply Keeps.ite21 | apply fnActive_keeps | split)

theorem writeAt_keeps (s : State) (who : Requester) (p : Place) (n : Nat) (data : W64) (_ : F.hv = true) (_ : F.store = true) (_ : F.otp = true) (_ : F.aon = true) (_ : F.ev = true) (_ : F.hi = true) (_ : F.cap = true) (_ : F.dma = true) (_ : F.doe = true) (_ : F.lc = true) (_ : F.peer = true) (_ : F.sync = true) (_ : F.wg = true) (_ : F.adm = true) (_ : F.ks = true) (_ : F.sch = true) (_ : F.fns = true) (_ : F.tenants = true) (_ : F.queues = true) (_ : F.rings = true) (_ : F.ctxs = true) (_ : F.slots = true) (_ : F.combs = true) (_ : F.jobs = true) (_ : F.nextJob = true) (_ : F.out = true) (_ : F.halves = true) (_ : F.latches = true) (_ : F.retry = true) (_ : F.trngN = true) (_ : F.freeN = true) (hK : Keeps F s0 s) : Keeps F s0 (writeAt s who p n data) := by
  unfold writeAt
  try dsimp only
  repeat' (with_reducible first | assumption | apply Keeps.ite | apply Keeps.ite2 | apply Keeps.ite1 | apply Keeps.ite22 | apply Keeps.ite21 | apply fnActive_keeps | apply opPushWindowWrite_keeps | apply writeWords_keeps | apply mailActive_keeps | (fail_if_no_progress refine Keeps.set_hi ‹_› ?_) | split)

theorem opRegisterWrite_keeps (old : Bool) (who : Requester) (a : Access) (n : Nat) (data : W64) (s : State) (_ : F.hv = true) (_ : F.store = true) (_ : F.otp = true) (_ : F.aon = true) (_ : F.ev = true) (_ : F.hi = true) (_ : F.cap = true) (_ : F.dma = true) (_ : F.doe = true) (_ : F.lc = true) (_ : F.peer = true) (_ : F.sync = true) (_ : F.wg = true) (_ : F.adm = true) (_ : F.ks = true) (_ : F.sch = true) (_ : F.fns = true) (_ : F.tenants = true) (_ : F.queues = true) (_ : F.rings = true) (_ : F.ctxs = true) (_ : F.slots = true) (_ : F.combs = true) (_ : F.jobs = true) (_ : F.nextJob = true) (_ : F.out = true) (_ : F.halves = true) (_ : F.latches = true) (_ : F.retry = true) (_ : F.trngN = true) (_ : F.freeN = true) (hK : Keeps F s0 s) : Keeps F s0 (opRegisterWrite old who a n data s) := by
  unfold opRegisterWrite
  try dsimp only
  repeat' (with_reducible first | assumption | apply Keeps.ite | apply Keeps.ite2 | apply Keeps.ite1 | apply Keeps.ite22 | apply Keeps.ite21 | apply countUnmapped_keeps | apply cfgWrite_keeps | apply writeAt_keeps | split)

theorem opRegWrite_keeps (who : Requester) (a : Access) (n : Nat) (data : W64) (s : State) (_ : F.hv = true) (_ : F.store = true) (_ : F.otp = true) (_ : F.aon = true) (_ : F.ev = true) (_ : F.hi = true) (_ : F.cap = true) (_ : F.dma = true) (_ : F.doe = true) (_ : F.lc = true) (_ : F.peer = true) (_ : F.sync = true) (_ : F.wg = true) (_ : F.adm = true) (_ : F.ks = true) (_ : F.sch = true) (_ : F.fns = true) (_ : F.tenants = true) (_ : F.queues = true) (_ : F.rings = true) (_ : F.ctxs = true) (_ : F.slots = true) (_ : F.combs = true) (_ : F.jobs = true) (_ : F.nextJob = true) (_ : F.out = true) (_ : F.halves = true) (_ : F.latches = true) (_ : F.retry = true) (_ : F.trngN = true) (_ : F.freeN = true) (hK : Keeps F s0 s) : Keeps F s0 (opRegWrite who a n data s) := by
  unfold opRegWrite
  try dsimp only
  repeat' (with_reducible first | assumption | (intro _ _) | apply Keeps.ite | apply Keeps.ite2 | apply Keeps.ite1 | apply Keeps.ite22 | apply Keeps.ite21 | apply access_keeps | apply opRegisterWrite_keeps | split | intro _)

/-! ## Wake -/

theorem runMctp_keeps (i : Instr) (s : State) (_ : F.aon = true) (_ : F.ev = true) (_ : F.dma = true) (_ : F.doe = true) (_ : F.fns = true) (_ : F.tenants = true) (_ : F.queues = true) (_ : F.combs = true) (_ : F.jobs = true) (_ : F.out = true) (_ : F.freeN = true) (hK : Keeps F s0 s) : Keeps F s0 (runMctp i s) := by
  unfold runMctp
  try dsimp only
  repeat' (with_reducible first | assumption | apply Keeps.ite | apply Keeps.ite2 | apply Keeps.ite1 | apply Keeps.ite22 | apply Keeps.ite21 | apply answerSetEid_keeps | apply answerGetEid_keeps | apply answerMctpVersion_keeps | apply answerMessageTypes_keeps | apply answerVendors_keeps | apply answerReadState_keeps | apply answerCombCmd_keeps | apply answerQueueCmd_keeps | apply answerReadSticky_keeps | apply answerClearSticky_keeps | split)

theorem heldQueue_keeps (i : Instr) (s : State) (_ : F.aon = true) (_ : F.ev = true) (_ : F.hi = true) (_ : F.dma = true) (_ : F.peer = true) (_ : F.sync = true) (_ : F.wg = true) (_ : F.ks = true) (_ : F.sch = true) (_ : F.fns = true) (_ : F.tenants = true) (_ : F.queues = true) (_ : F.rings = true) (_ : F.combs = true) (_ : F.jobs = true) (_ : F.out = true) (_ : F.freeN = true) (hK : Keeps F s0 s) : Keeps F s0 (heldQueue i s) := by
  cases i <;> delta heldQueue <;> dsimp only <;>
    repeat' (with_reducible first | assumption | apply opTnQcfgSelWrite_keeps | apply opTnQcfgCommit_keeps | apply opTnCrSelWrite_keeps | apply opTnCrCommit_keeps | apply opTnRlogCommit_keeps | apply opSchCommit_keeps | apply opWgSyncCommit_keeps | apply opWgMlogCommit_keeps | apply opWgTselWrite_keeps | apply opWgTcommit_keeps | apply opQDbWrite_keeps | apply fnActive_keeps | apply opQDbNodataWrite_keeps | apply opPushWindowWrite_keeps | apply qCmd_keeps | apply opQCmdReserved_keeps | apply opTnCrConsWrite_keeps | apply opReadCompletion_keeps | apply opAtsInvalidationRequest_keeps | apply opWgMlogConsWrite_keeps | apply opTnRlogConsWrite_keeps | apply opAtsTranslationCompletion_keeps)


theorem heldHost_keeps (i : Instr) (s : State) (_ : F.hv = true) (_ : F.store = true) (_ : F.aon = true) (_ : F.ev = true) (_ : F.hi = true) (_ : F.cap = true) (_ : F.dma = true) (_ : F.doe = true) (_ : F.peer = true) (_ : F.sync = true) (_ : F.wg = true) (_ : F.adm = true) (_ : F.ks = true) (_ : F.sch = true) (_ : F.fns = true) (_ : F.tenants = true) (_ : F.queues = true) (_ : F.rings = true) (_ : F.ctxs = true) (_ : F.slots = true) (_ : F.combs = true) (_ : F.jobs = true) (_ : F.out = true) (_ : F.halves = true) (_ : F.latches = true) (_ : F.freeN = true) (hK : Keeps F s0 s) : Keeps F s0 (heldHost i s) := by
  cases i <;> delta heldHost <;> dsimp only <;>
    repeat' (with_reducible first | assumption | apply opEvLogConsWrite_keeps | apply opEvLogCommit_keeps | apply opEvPendClear_keeps | apply opEvRouteWrite_keeps | apply opStickyClear_keeps | apply opMsixMaskWrite_keeps | apply opBmeClear_keeps | apply opBmeSet_keeps | apply opFlr_keeps | apply opD3hotEntry_keeps | apply opD3hotToD0_keeps | apply opVfEnableClear_keeps | apply opHiWttFlip_keeps | apply opPeerWordWrite_keeps | apply opPiPeerReset_keeps | apply opPiCommit_keeps | apply opDoeAbort_keeps | apply opKeeperRestart_keeps | apply opTpLatchClear_keeps | apply opCfUpdCommit_keeps | apply heldQueue_keeps)


theorem heldAdmin_keeps (i : Instr) (s : State) (_ : F.hv = true) (_ : F.store = true) (_ : F.aon = true) (_ : F.ev = true) (_ : F.hi = true) (_ : F.cap = true) (_ : F.dma = true) (_ : F.doe = true) (_ : F.lc = true) (_ : F.peer = true) (_ : F.sync = true) (_ : F.wg = true) (_ : F.adm = true) (_ : F.ks = true) (_ : F.sch = true) (_ : F.fns = true) (_ : F.tenants = true) (_ : F.queues = true) (_ : F.rings = true) (_ : F.ctxs = true) (_ : F.slots = true) (_ : F.combs = true) (_ : F.jobs = true) (_ : F.out = true) (_ : F.halves = true) (_ : F.latches = true) (_ : F.trngN = true) (_ : F.freeN = true) (hK : Keeps F s0 s) : Keeps F s0 (heldAdmin i s) := by
  cases i <;> delta heldAdmin <;> dsimp only <;>
    repeat' (with_reducible first | assumption | apply lcRequest_keeps | apply opLcTransitionRefused_keeps | apply dbgRequest_keeps | apply opLcRespCommit_keeps | apply opTnAdmCreate_keeps | apply opTnAdmResize_keeps | apply opTnAdmDestroy_keeps | apply opTnAdmOp0_keeps | apply opTnDmawEntryWrite_keeps | apply opTnDmawFlip_keeps | apply heldHost_keeps)


theorem runHeld_keeps (old : Bool) (i : Instr) (s : State) (_ : F.hv = true) (_ : F.store = true) (_ : F.otp = true) (_ : F.aon = true) (_ : F.ev = true) (_ : F.hi = true) (_ : F.cap = true) (_ : F.dma = true) (_ : F.doe = true) (_ : F.lc = true) (_ : F.peer = true) (_ : F.sync = true) (_ : F.wg = true) (_ : F.adm = true) (_ : F.ks = true) (_ : F.sch = true) (_ : F.fns = true) (_ : F.tenants = true) (_ : F.queues = true) (_ : F.rings = true) (_ : F.ctxs = true) (_ : F.slots = true) (_ : F.combs = true) (_ : F.jobs = true) (_ : F.nextJob = true) (_ : F.out = true) (_ : F.halves = true) (_ : F.latches = true) (_ : F.resp = true) (_ : F.retry = true) (_ : F.trngN = true) (_ : F.freeN = true) (hK : Keeps F s0 s) : Keeps F s0 (runHeld old i s) := by
  unfold runHeld
  try dsimp only
  repeat' (with_reducible first | assumption | (intro _ _) | apply Keeps.ite | apply Keeps.ite2 | apply Keeps.ite1 | apply Keeps.ite22 | apply Keeps.ite21 | apply fnActive_keeps | apply opKsZeroiseStart_keeps | apply provCommit_keeps | apply opKsProvOp3_keeps | apply opMbH2kMsgWrite_keeps | apply opMbK2hMsgRead_keeps | apply opMbPoolRegister_keeps | apply doeTake_keeps | apply doeWork_keeps | apply cbWrite_keeps | apply opCbCmdInvalid_keeps | apply opRegisterRead_keeps | apply splitRead_keeps | apply opRegisterWrite_keeps | apply runMctp_keeps | apply heldAdmin_keeps | split | intro _)

theorem runAll_keeps (s : State) (_ : F.hv = true) (_ : F.store = true) (_ : F.otp = true) (_ : F.aon = true) (_ : F.ev = true) (_ : F.hi = true) (_ : F.cap = true) (_ : F.dma = true) (_ : F.doe = true) (_ : F.lc = true) (_ : F.peer = true) (_ : F.sync = true) (_ : F.wg = true) (_ : F.adm = true) (_ : F.ks = true) (_ : F.sch = true) (_ : F.fns = true) (_ : F.tenants = true) (_ : F.queues = true) (_ : F.rings = true) (_ : F.ctxs = true) (_ : F.slots = true) (_ : F.combs = true) (_ : F.jobs = true) (_ : F.nextJob = true) (_ : F.out = true) (_ : F.halves = true) (_ : F.latches = true) (_ : F.resp = true) (_ : F.retry = true) (_ : F.trngN = true) (_ : F.freeN = true) (hK : Keeps F s0 s) : Keeps F s0 (runAll s) := by
  unfold runAll
  try dsimp only
  repeat' (with_reducible first | assumption | apply Keeps.ite | apply Keeps.ite2 | apply Keeps.ite1 | apply Keeps.ite22 | apply Keeps.ite21 | apply runHeld_keeps | (apply Keeps.each; intro _ _ _) | (fail_if_no_progress refine Keeps.set_hv_hi ‹_› ‹_› ?_ (by first | exact fun h => h | (intro _; dsimp only; split <;> decide) | (intro _; simp; done)) (by first | exact fun h => h | (intro _; dsimp only; split <;> decide) | (intro _; simp; done))) | split | intro _)

theorem opWakeDone_keeps (s : State) (_ : F.hv = true) (_ : F.store = true) (_ : F.otp = true) (_ : F.aon = true) (_ : F.ev = true) (_ : F.hi = true) (_ : F.cap = true) (_ : F.dma = true) (_ : F.doe = true) (_ : F.lc = true) (_ : F.peer = true) (_ : F.sync = true) (_ : F.wg = true) (_ : F.adm = true) (_ : F.ks = true) (_ : F.sch = true) (_ : F.fns = true) (_ : F.tenants = true) (_ : F.queues = true) (_ : F.rings = true) (_ : F.ctxs = true) (_ : F.slots = true) (_ : F.combs = true) (_ : F.jobs = true) (_ : F.nextJob = true) (_ : F.out = true) (_ : F.halves = true) (_ : F.latches = true) (_ : F.resp = true) (_ : F.retry = true) (_ : F.trngN = true) (_ : F.freeN = true) (hK : Keeps F s0 s) : Keeps F s0 (opWakeDone s) := by
  unfold opWakeDone
  try dsimp only
  repeat' (with_reducible first | assumption | apply Keeps.ite | apply Keeps.ite2 | apply Keeps.ite1 | apply Keeps.ite22 | apply Keeps.ite21 | apply awaken_keeps | apply runAll_keeps | split)

theorem settle_keeps (s : State) (t : State) (_ : F.hv = true) (_ : F.store = true) (_ : F.otp = true) (_ : F.aon = true) (_ : F.ev = true) (_ : F.hi = true) (_ : F.cap = true) (_ : F.dma = true) (_ : F.doe = true) (_ : F.lc = true) (_ : F.peer = true) (_ : F.sync = true) (_ : F.wg = true) (_ : F.adm = true) (_ : F.ks = true) (_ : F.sch = true) (_ : F.fns = true) (_ : F.tenants = true) (_ : F.queues = true) (_ : F.rings = true) (_ : F.ctxs = true) (_ : F.slots = true) (_ : F.combs = true) (_ : F.jobs = true) (_ : F.nextJob = true) (_ : F.out = true) (_ : F.halves = true) (_ : F.latches = true) (_ : F.resp = true) (_ : F.retry = true) (_ : F.trngN = true) (_ : F.freeN = true) (hK : Keeps F s0 s) (hK1 : Keeps F s0 t) : Keeps F s0 (settle s t) := by
  unfold settle
  try dsimp only
  repeat' (with_reducible first | assumption | apply Keeps.ite | apply Keeps.ite2 | apply Keeps.ite1 | apply Keeps.ite22 | apply Keeps.ite21 | apply runAll_keeps | split)

theorem opPllRelockRetry_keeps (locked : Bool) (s : State) (_ : F.hv = true) (_ : F.store = true) (_ : F.otp = true) (_ : F.aon = true) (_ : F.ev = true) (_ : F.hi = true) (_ : F.cap = true) (_ : F.dma = true) (_ : F.doe = true) (_ : F.lc = true) (_ : F.peer = true) (_ : F.sync = true) (_ : F.wg = true) (_ : F.adm = true) (_ : F.ks = true) (_ : F.sch = true) (_ : F.fns = true) (_ : F.tenants = true) (_ : F.queues = true) (_ : F.rings = true) (_ : F.ctxs = true) (_ : F.slots = true) (_ : F.combs = true) (_ : F.jobs = true) (_ : F.nextJob = true) (_ : F.out = true) (_ : F.halves = true) (_ : F.latches = true) (_ : F.resp = true) (_ : F.retry = true) (_ : F.trngN = true) (_ : F.freeN = true) (hK : Keeps F s0 s) : Keeps F s0 (opPllRelockRetry locked s) := by
  unfold opPllRelockRetry
  try dsimp only
  repeat' (with_reducible first | assumption | apply Keeps.ite | apply Keeps.ite2 | apply Keeps.ite1 | apply Keeps.ite22 | apply Keeps.ite21 | apply zeroRest_keeps | apply keeperBack_keeps | apply awaken_keeps | apply runAll_keeps | (fail_if_no_progress refine Keeps.set_hv_aon ‹_› ‹_› ?_ (by first | exact fun h => h | (intro _; dsimp only; split <;> decide) | (intro _; simp; done)) (by first | exact fun h => h | (intro _; dsimp only; split <;> decide) | (intro _; simp; done))) | split)

theorem opDebugKeeperHalt_keeps (cmd : DbgCmd) (s : State) (_ : F.hv = true) (_ : F.store = true) (_ : F.otp = true) (_ : F.aon = true) (_ : F.ev = true) (_ : F.dma = true) (_ : F.doe = true) (_ : F.peer = true) (_ : F.wg = true) (_ : F.adm = true) (_ : F.ks = true) (_ : F.sch = true) (_ : F.fns = true) (_ : F.tenants = true) (_ : F.queues = true) (_ : F.rings = true) (_ : F.ctxs = true) (_ : F.slots = true) (_ : F.combs = true) (_ : F.jobs = true) (_ : F.out = true) (_ : F.resp = true) (_ : F.freeN = true) (hK : Keeps F s0 s) : Keeps F s0 (opDebugKeeperHalt cmd s) := by
  unfold opDebugKeeperHalt
  try dsimp only
  repeat' (with_reducible first | assumption | apply Keeps.ite | apply Keeps.ite2 | apply Keeps.ite1 | apply Keeps.ite22 | apply Keeps.ite21 | apply keeperBack_keeps | (fail_if_no_progress refine Keeps.set_hv ‹_› ?_ (by first | exact fun h => h | (intro _; dsimp only; split <;> decide) | (intro _; simp; done)) (by first | exact fun h => h | (intro _; dsimp only; split <;> decide) | (intro _; simp; done))) | (fail_if_no_progress refine Keeps.set_resp ‹_› ?_) | (fail_if_no_progress refine Keeps.set_otp ‹_› ?_) | (fail_if_no_progress refine Keeps.set_hv_resp ‹_› ‹_› ?_ (by first | exact fun h => h | (intro _; dsimp only; split <;> decide) | (intro _; simp; done)) (by first | exact fun h => h | (intro _; dsimp only; split <;> decide) | (intro _; simp; done))) | (fail_if_no_progress refine Keeps.set_hv_otp ‹_› ‹_› ?_ (by first | exact fun h => h | (intro _; dsimp only; split <;> decide) | (intro _; simp; done)) (by first | exact fun h => h | (intro _; dsimp only; split <;> decide) | (intro _; simp; done))) | (fail_if_no_progress refine Keeps.set_otp_resp ‹_› ‹_› ?_) | (fail_if_no_progress refine Keeps.set_hv_otp_resp ‹_› ‹_› ‹_› ?_ (by first | exact fun h => h | (intro _; dsimp only; split <;> decide) | (intro _; simp; done)) (by first | exact fun h => h | (intro _; dsimp only; split <;> decide) | (intro _; simp; done))) | split)

end Sys2Proof.Machine
end

