-- ==== Sys2Proof/Tests/Slice0.lean ====
section
/-! SUPPORT. The model's own tests: a term that each check of well-formedness refuses, known answers, single
steps, and for every statement with hypotheses a theorem `wit_<Name>`: for each of its clauses a concrete state and
operands that meet the clause's hypotheses together. -/

namespace Sys2Proof.Tests

open Sys2Proof Sys2Proof.Machine

set_option Elab.async false

/-- A Hive in service. -/
def hvUp : Hv :=
  { step := 10, ready := true, fclk := true, cclk := true, kclk := true, xclk := true,
    keeperUp := true, rootLock := true }

/-- All of client 0's memory through one window to the host. -/
def winAll : Windows := { a := [(0, { limit := 0xFFFFFFFFFF, ctrl := 7 })] }

/-- A Hive in service with tenant 0, its function a bus master, and queue `u`. -/
def one (u : Queue) : State :=
  { hv := hvUp, fns := [(0, { bme := true })],
    tenants := [(0, { state := 1, queues := 1, vectors := 1, win := winAll })],
    queues := [(0, u)] }

/-- An active queue. -/
def act : Queue := { state := .active, cfg := { sizeLog2 := 6, hmirror := 0x1000 } }

/-- The same at tick `t`. -/
def at_ (t : Nat) (s : State) : State := { s with hv := { s.hv with tick := t } }

/-- A descriptor of one slot header and a parameter slot. -/
def mkDesc (code alg flags msg par : Nat) (params : Bytes := []) (key ctx aad : Nat := 0) : Bytes :=
  natLe 2 code ++ [2, 0] ++ natLe 2 flags ++ natLe 1 alg ++ [0] ++ natLe 4 key ++ natLe 4 ctx ++ natLe 5 msg
    ++ natLe 3 aad ++ zeros 36 ++ natLe 4 par ++ params

/-- One job, numbered 1. -/
def wj (j : Job) : State := { one act with jobs := [(1, j)], nextJob := 2 }

/-- A job at stage 6 with descriptor `d` and source `got`. -/
def runs (d : Bytes) (got : Bytes := []) : Job := { desc := d, stage := .run, gather := .done, got := got }

/-- The same with a key. -/
def keyed (d key got : Bytes) : Job := { runs d got with keyMat := key }

/-! ## Well-formedness: one term that each check refuses -/

theorem test_wf_client : Instr.wf (.destroyComplete 4160) = false := by decide
theorem test_wf_queue_client : Instr.wf (.pauseAck 4160 0) = false := by decide
theorem test_wf_queue : Instr.wf (.headAdvance 0 16384) = false := by decide
theorem test_wf_push_offset : Instr.wf (.pushWindowWrite 0 0 512 false [0]) = false := by decide
theorem test_wf_push_empty : Instr.wf (.pushWindowWrite 0 0 0 false []) = false := by decide
theorem test_wf_fn : Instr.wf (.flr 4096) = false := by decide
theorem test_wf_mailbox_fn : Instr.wf (.mbH2kMsgWrite 4096 0) = false := by decide
theorem test_wf_vector : Instr.wf (.msixMessageSend 0 2048) = false := by decide
theorem test_wf_peer_data : Instr.wf (.peerWordWrite ⟨[], 0, false, true, true, 0, 0, 0⟩) = false := by decide
theorem test_wf_peer_prio : Instr.wf (.peerWordWrite ⟨zeros 64, 0, false, true, true, 8, 0, 0⟩) = false := by decide
theorem test_wf_peer_client : Instr.wf (.peerWordWrite ⟨zeros 64, 0, false, true, true, 0, 64, 0⟩) = false := by
    decide
theorem test_wf_peer_bytes : Instr.wf (.peerWordWrite ⟨zeros 64, 0, false, true, true, 0, 0, 64⟩) = false := by
    decide
theorem test_wf_peer_reset : Instr.wf (.piPeerReset 64) = false := by decide
theorem test_wf_tamper_in : Instr.wf (.tamperInTrip 4 true) = false := by decide
theorem test_wf_test_state : Instr.wf (.lcToTestUnlocked 8 0) = false := by decide
theorem test_wf_pend : Instr.wf (.evPendClear 16 0 0) = false := by decide
theorem test_wf_sticky : Instr.wf (.stickyClear 8 0) = false := by decide
theorem test_wf_comb : Instr.wf (.cbCmdOnline 64 0) = false := by decide
theorem test_wf_pps : Instr.wf (.ppsEdge 4) = false := by decide
theorem test_wf_wake_low : Instr.wf (.sleepWake 0) = false := by decide
theorem test_wf_wake_high : Instr.wf (.sleepWake 9) = false := by decide
theorem test_wf_write_size : Instr.wf (.registerWrite .debug (.debug 0) 3 0) = false := by decide
theorem test_wf_read_size : Instr.wf (.rcRegisterRead .debug (.debug 0) 16) = false := by decide
theorem test_wf_cert_slot : Instr.wf (.getCertificate 8 0 0) = false := by decide
theorem test_wf_cert_offset : Instr.wf (.getCertificate 0 65536 0) = false := by decide
theorem test_wf_challenge_nonce : Instr.wf (.challenge ⟨0, []⟩) = false := by decide
theorem test_wf_challenge_slot : Instr.wf (.challenge ⟨8, zeros 32⟩) = false := by decide
theorem test_wf_measure_index : Instr.wf (.getMeasurements 256 false []) = false := by decide
theorem test_wf_measure_nonce : Instr.wf (.getMeasurements 1 true [0]) = false := by decide

/-! ## Known answers -/

/-- SHA-256 of "abc": FIPS 180-4's example. -/
theorem test_sha256 : beNat (sha256 [0x61, 0x62, 0x63]) =
    0xba7816bf8f01cfea414140de5dae2223b00361a396177a9cb410ff61f20015ad := by decide +kernel

/-- AES-128: FIPS 197, appendix C.1. -/
theorem test_aes128 : beNat (aesEnc (natBe 16 0x000102030405060708090a0b0c0d0e0f)
    (natBe 16 0x00112233445566778899aabbccddeeff)) = 0x69c4e0d86a7b0430d8cdb78070b4c55a := by decide +kernel

/-! ## One step each -/

/-- The state after a command. -/
def after (c : Instr) (s : State) : State := match exec c s with | .next t => t | _ => s

/-- R47: a doorbell inside the ring is taken. -/
theorem test_doorbell : ((after (.qDbWrite 0 0 64) (one act)).queue 0 0).pi = 64 := by decide +kernel
/-- R47: one past its end is malformed: the queue stops. -/
theorem test_doorbell_past : ((after (.qDbWrite 0 0 65) (one act)).queue 0 0).pi = 0 ∧
    ((after (.qDbWrite 0 0 65) (one act)).queue 0 0).state = .stopped := by decide +kernel
/-- R71: PAUSE of an ACTIVE queue. -/
theorem test_pause : ((after (.qCmdPause 0 0 0 .page) (one act)).queue 0 0).state = .paused := by decide +kernel
/-- R71: a GEN that has moved on is refused with STALE_GEN, 2. -/
theorem test_stale_gen : ((after (.qCmdPause 0 0 3 .page) (one act)).queue 0 0).state = .active ∧
    ((after (.qCmdPause 0 0 3 .page) (one act)).queue 0 0).cmdResult = 2 := by decide +kernel
/-- R404: an unarmed TAMPER_IN is latched only. -/
theorem test_tamper_unarmed : (after (.tamperInTrip 0 true) { one act with aon := { arm := 0xE } }).aon.latch = 1 ∧
    (after (.tamperInTrip 0 true) { one act with aon := { arm := 0xE } }).aon.tampered = false := by decide +kernel
/-- R395: a wrong CONFIRM ends a transition with 2. -/
theorem test_confirm : (after (.lcTransitionRefused 0x0300 0) (one act)).lc.result = 2 := by decide +kernel
/-- R303: a write to the active bank is refused. -/
theorem test_active_bank : ((after (.tnDmawEntryWrite .base 0x5000) (one act)).tenant 0).win.refused = true ∧
    ((after (.tnDmawEntryWrite .base 0x5000) (one act)).tenant 0).win.a = winAll.a := by decide +kernel
/-- R447: a wake from SLEEP. -/
theorem test_wake : (after (.sleepWake 3) { one act with hv := { hvUp with pwr := 2 } }).hv.pwr = 3 := by decide +kernel
/-- A step runs the front of the queue. -/
theorem test_step : (match step { one act with pending := [.qDbWrite 0 0 9, .ckptLate] } with
    | .next t => decide ((t.queue 0 0).pi = 9 ∧ t.pending = [.ckptLate]) | _ => false) = true := by decide +kernel
/-- No row of the table has bits. -/
theorem test_no_bits : decodeTableWord 32 0 = none := by decide

/-! ## States that the witnesses share -/

/-- An active queue with one staged slot, at the index the next doorbell claims. -/
def pushed : Queue := { act with staged := [(0, { data := zeros 64, mask := BitVec.allOnes 64 })] }

/-- A queue with a producer mirror. -/
def mirrored : Queue := { act with cfg := { act.cfg with pmirror := 0x2000 } }

/-- A NOP. -/
def nopSlot : Bytes := zeros 2 ++ [1, 255] ++ zeros 60

/-- A queue that holds slot 0. -/
def holds (b : Bytes) : Queue := { act with pi := 1, cache := [(0, { data := b })] }

/-- A queue that owes a completion record, its ring as `r` but enabled, of 64 entries. -/
def ringed (r : CrRing) : State :=
  { one { act with crDue := true, cfg := { act.cfg with crEn := true } } with
    rings := [(0, { r with base := 0x3000, sizeLog2 := 6, enable := true })] }

/-- The read of two source bytes. -/
def source2 : Req := { purpose := .source 1 0, len := 2 }

/-- A job that waits for it. -/
def awaits2 : State :=
  { wj { open_ := [0], stage := .run } with dma := { reads := [(7, some source2)] } }

/-- A job at its end, in the reorder window. -/
def ending (j : Job) : State :=
  { wj { j with src := .ring 0 0, stage := if j.stage = .ready then .cellDone else j.stage, noComb := true } with
    queues := [(0, { act with cfg := { act.cfg with ring := 0x4000 }, window := [1] })] }

/-- A SHA-384 stream that has taken 128 bytes. -/
def hashed128 : Ctx :=
  { state := .held, opcode := 0x0201, alg := 3, chain := hashAbsorb 3 (hashInit 3) (zeros 128), done := 128 }

/-- A job with a key, on a comb whose DRBG is seeded. -/
def live (d key got : Bytes) : State := { wj (keyed d key got) with combs := [(0, { drbg := { live := true } })] }

/-- A job with a key, on a comb whose DRBG cannot be seeded. -/
def unseeded (d key got : Bytes) : State := { wj (keyed d key got) with ks := { entropyFail := true } }

/-- A key of 128-byte format with p = 3, q = 11, e = 3. -/
def tinyRsa : Bytes := natBe 64 3 ++ natBe 64 11 ++ natBe 64 1 ++ natBe 64 7 ++ natBe 64 2 ++ natBe 4 3

/-- A job that holds the run at position 12,480 for its new key, on a comb whose DRBG is seeded. -/
def held (code alg : Nat) (params : Bytes := []) (acct : Account := .none) : State :=
  { live [] [] [] with
    jobs := [(1, { runs (mkDesc code alg 3 0 0 params) with reserved := [12480], acct := acct })]
    tenants := [(0, { state := 1, granules := [0] })]
    slots := [(0, { state := .valid, run := 1 }), (12480, { state := .reserved, run := 1 })] }

/-- A job of client 0 over key slot `i`, with a valid key in slot 2 and the context key. -/
def owns (code i msg : Nat) (k : KSlot := { state := .valid, run := 1, ktype := 1, mat := zeros 16 }) : State :=
  { wj (runs (mkDesc code 0 3 msg 0 [] i 1)) with
    tenants := [(0, { state := 1, granules := [0] })]
    slots := [(2, { state := .valid, run := 1, mat := zeros 32 }), (12480, k)] }

/-- An AES-128 key. -/
def aesKey : KSlot := { state := .valid, run := 1, ktype := 1, policy := 3, mat := zeros 16 }

/-- AES_CTR and AES_GCM_ENC over key slot 2, the second with a nonce to be built. -/
def ctrOne : Bytes := mkDesc 0x0107 1 3 16 0x1000 (zeros 64) 2
def gcmOne : Bytes := mkDesc 0x0101 1 3 2 0 (zeros 16) 2

/-- A job of client 0 at stage 5, whose first key slot holds `k`. -/
def pulls (d : Bytes) (k : KSlot) : State :=
  { wj { desc := d, stage := .key } with
    tenants := [(0, { state := 1, granules := [0] })]
    slots := [(12480, k)] }

/-- A KEY_WRAP at stage 5 whose target, the slot behind, holds `k`. -/
def wraps (k : KSlot) : State :=
  { pulls (mkDesc 0x0503 0 3 0 0 ([3] ++ zeros 63) 2) {} with
    slots := [(12480, { aesKey with policy := 0x400 })] ++ (if k = {} then [] else [(12481, k)]) }

/-- The scrubber at the first slot of client 0's first granule, which holds `k`. -/
def scrubs (k : KSlot) : State :=
  { one act with
    ks := { scrubbing := true, scrubPos := 12480 }
    slots := [(12480, k)]
    tenants := [(0, { state := 1, granules := [0] })] }

/-- What a key blob of a 16-byte AES key carries. -/
def kwPlain : Bytes := [1, 0, 1, 0, 16] ++ zeros 3 ++ [1] ++ zeros 7 ++ zeros 16

/-- The blob; its wrapping key is empty, so that the model's AES is the identity. -/
def kwBlob : Bytes := kwpWrap [] kwPlain

/-- A provisioning request for the key at index 2 of client 0, wrapped with the key at index 3. -/
def provCfg (op : Nat) : ProvCfg :=
  { op := op, slot := 2, ktype := 1, policy := 1, wrap := 3, addr := 0x2000, len := 40 }

/-- A Hive whose manager provisions by `p`: the nodes of client 0 are valid, and so is its wrapping key. -/
def provisions (p : ProvCfg) : State :=
  { one act with
    ks := { provRun := some p, psk := some (zeros 32) }
    tenants := [(0, { state := 1, granules := [0], win := winAll })]
    slots := [(0, { state := .valid, run := 1 }), (1, { state := .valid, run := 1 }),
      (12481, { state := .valid, run := 1, ktype := 1, policy := 0x800 })]
    combs := [(0, { drbg := { live := true } })] }

/-- A GENERATE of a key that is kept in MRAM. -/
def provKept : ProvCfg := { provCfg 0 with policy := 0x4001 }

/-- A GENERATE of an X25519 key. -/
def provCurve : ProvCfg := { provCfg 0 with ktype := 0x321, policy := 0x40 }

/-- A GENERATE whose public key waits to be written. -/
def publishes : State :=
  { provisions provCurve with ks := { (provisions provCurve).ks with provOut := [7] } }

/-- On a Hive of any grade, comb 0 is one that the key store's own draw may go to. -/
theorem any_comb : ∀ s ∈ [provisions (provCfg 0), provisions provKept, provisions provCurve],
    bestComb s 0 ((List.range combCount).filter fun c => (s.comb c).mode == 1) = some 0 := by
  unfold combCount
  generalize Config.grade = g
  revert g
  decide +kernel

/-- An empty key area has a place. -/
theorem key_area_open (s : State) (n : Nat) (hs : s.store.mram = []) (hn : 2 * n ≤ 0x400000) :
    (bestPlace s n).isSome = true := by
  have hm : MramArea.base .keys ∈ keyPlaces s n := by
    simp [keyPlaces, freePlaces, placeFree, hs]
    exact ⟨by decide, by simpa [MramArea.size] using hn⟩
  have hk : ∀ (l : List Nat) (b : Nat), (l.foldl (fun best p =>
      match best with
      | some b => if wearAt s p n < wearAt s b n then some p else best
      | none => some p) (some b)).isSome = true := by
    intro l
    induction l with
    | nil => intro b; rfl
    | cons x l ih =>
      intro b
      simp only [List.foldl_cons]
      split
      · exact ih x
      · exact ih b
  unfold bestPlace
  cases hl : keyPlaces s n with
  | nil => simp [hl] at hm
  | cons x l => exact hk l x

/-- The key record of `provKept` has a place. -/
theorem kept_key_fits : provIssue (provisions provKept) provKept = none := by
  have h : keyAreaFits (provisions provKept) (keyRecLen provKept.ktype) = true :=
    key_area_open _ _ rfl (by decide +kernel)
  have h1 : slotIssue (provisions provKept) provKept.client 1 = none := by decide +kernel
  have h2 : reserveIssue (provisions provKept) provKept.client provKept.slot provKept.ktype provKept.policy.toNat
      (trPos provKept.client) true none = none := by decide +kernel
  have h3 : (ktSym provKept.ktype || ktCurve provKept.ktype) = true := by decide
  simp [provIssue, h, h1, h2, h3]

/-- An update word. -/
def tod (t src est : Nat) : BitVec 128 := BitVec.ofNat 128 (t + src * 2 ^ 80 + est * 2 ^ 88)

/-- A job of a stream in context 1 that takes `n` bytes, FIRST or MIDDLE by `flags`. -/
def streams (code alg flags n : Nat) (key : Bytes) (k : Ctx) : State :=
  { wj { keyed (mkDesc code alg flags n 0 [] 0 1 0) key (zeros n) with holdsCtx := true } with ctxs := [(1, k)] }

/-- A new context. -/
def begun : Ctx := { state := .held }

/-- Streams of AES_GCM_ENC, CHACHA_POLY_ENC and AES_GMAC under keys of zeros, with the IV of zeros, that have taken one
byte of additional data and a block, or one block. -/
def gcmed : Ctx :=
  { state := .held, opcode := 0x0101, alg := 1, nonce := zeros 12, aad := 1, done := 16,
    chain := gcmHash (zeros 16) (gcmAad (zeros 16) [1]) (gcmEnc (zeros 16) (zeros 12) [1] (zeros 16)).1 }
def polyed : Ctx :=
  { state := .held, opcode := 0x010A, nonce := zeros 12, aad := 1, done := 64,
    chain := chachaSum (zeros 32) (zeros 12) [1] (zeros 64) }
def gmaced : Ctx :=
  { state := .held, opcode := 0x010C, alg := 1, nonce := zeros 12, done := 16, chain := gcmAad (zeros 16) (zeros 16) }

/-- A CREATE of client 5. -/
def creates : AdmCfg := { op := 1, client := 5, queues := 2, keyGran := 1, ctxGran := 1, vectors := 1, weight := 1 }

/-- A RESIZE of client 5. -/
def grows : AdmCfg := { op := 2, client := 5, queues := 2, keyGran := 1 }

/-- Tenant 0 present, with the fields of `t`. -/
def tn (t : Tenant) : State := { one act with tenants := [(0, { t with state := 1 })] }

/-- Mailboxes of function 0, its pool and windows registered. -/
def mail (m : Mbox) : State :=
  { one act with tenants := [(0, { state := 1, win := winAll, mb := { m with poolN := 4, pool := 0x8000 } })] }

/-- The words of a full store. -/
def full : List (Bytes × Bool) := List.replicate 131072 ([], false)

theorem storeUsed_one (s : State) (k : Nat) (p : Packet) (h : s.peer.packets = [(k, p)]) :
    storeUsed s = p.words.length := by simp [storeUsed, h]

/-- A Hive whose peer store is full. -/
def fullStore : State := { one act with peer := { packets := [(0, { client := 63, words := full })] } }

theorem full_used : 131072 ≤ storeUsed fullStore := by
  rw [storeUsed_one fullStore 0 { client := 63, words := full } rfl]
  exact List.length_replicate.ge

/-- A word of zeros, of a packet of one word or of none. -/
def wordIn (b : Bool) : PeerWord := ⟨zeros 64, 0, false, b, b, 7, 63, 63⟩

/-- A connection whose algorithms are negotiated. -/
def agreed : State :=
  { one act with doe := { ver := true, caps := true, hash := 32 }, ks := { devSeed := some (zeros 32) } }

theorem agreed_signs : spdmSign agreed = some (edSign 0x11 false (zeros 32) (Config.spdmTranscript 0)) := rfl

/-- The management endpoint answers, and takes no commands. -/
def mctp : State := { one act with ev := { mctpEn := true } }

/-- It takes commands too. -/
def writable : State := { one act with ev := { mctpEn := true, mctpWr := true } }

/-- An event record waits for a log of 64 entries. -/
def logged (tail : W32) : State :=
  { one act with
    ev := { log := { cfg := { en := true, base := 0x9000, size := 6 }, tail := tail }
            recs := [(300, { count := 1 })] } }

/-- On a Hive of any grade, comb 0 alone is online. -/
theorem lone_comb :
    let s := { one act with combs := (List.range 63).map fun i => (i + 1, { mode := 3 }) }
    ∀ d, d < combCount → d ≠ 0 → (s.comb d).mode ≠ 1 := by
  unfold combCount
  generalize Config.grade = g
  revert g
  decide +kernel

/-- A Hive whose life-cycle word is `w`. -/
def lcAt (w : BitVec 32) : State :=
  { one act with lc := { word := w }, otp := { tokens := List.replicate 8 (0, false) } }

/-- A response of `n` bytes is under verification. -/
def verifying (n : Nat) : State :=
  { one act with lc := { dbgState := 2, runAddr := 0x2000, runLen := n } }

/-- A Hive whose debug port is open. -/
def dbg : State := { one act with lc := { debugOpen := true } }

/-- A Hive with its power on, HIVE_RST_N held or not. -/
def powered (held : Bool) : State := { one act with hv := { hvUp with powered := true, rstHeld := held } }

/-- Start-up after step `n - 1`. -/
def starting (n : Nat) : State := { hv := { step := n, rootLock := true } }

/-- An update of 64 bytes in phase `n`. -/
def updating (n : Nat) : State :=
  { one act with store := { updBusy := true, updTaken := true, updPhase := n, updRunAddr := 0x2000, updRunLen := 64 } }

/-- The same where the keeper recorded the hash `h` in phase 1. -/
def hashed (h : Bytes) : State := { updating 3 with store := { (updating 3).store with updHash := h } }

/-- 300,000 bytes that nobody needs to evaluate, and what stands behind them. -/
theorem big_parts (d m T : Bytes) (hm : m.length = 300000) (ha : dAad d = 0) (hd : dMsg d = 300000)
    (ht : dT d = 16) (key : Bytes) :
    srcAad (keyed d key (m ++ T)) = [] ∧ srcMsg (keyed d key (m ++ T)) = m ∧
      srcTag (keyed d key (m ++ T)) = T.take 16 := by
  simp [srcAad, srcMsg, srcTag, keyed, runs, slice, ha, hd, ht, ← hm]

/-- A message for two passes. -/
def big : Bytes := List.replicate 300000 0

theorem big_length : big.length = 300000 := List.length_replicate

/-! ## The hypotheses of every statement are met -/

theorem wit_IdleStep :
    (∃ (s : State), s.pending = []) :=
  ⟨one act, by decide +kernel⟩

theorem wit_StepKeepsInv :
    (∃ (s t : State), s.Inv ∧ step s = .next t) := by
  unfold State.Inv
  exact ⟨one act, _, by decide +kernel, rfl⟩

theorem wit_Doorbells :
    (∃ (c q : Nat) (v : W32) (s : State), Running s ∧ pageOpen s c q = true ∧ takesDoorbells s c q = true ∧
        dbGood (s.queue c q) v = true) ∧
    (∃ (c q : Nat) (v : W32) (s : State), Running s ∧ pageOpen s c q = true ∧ takesDoorbells s c q = true ∧
        dbGood (s.queue c q) v = true ∧ (s.queue c q).staged ≠ [] ∧ (s.queue c q).pushGood v = true ∧ cacheUsed
        s + (s.queue c q).staged.length ≤ 8192) ∧
    (∃ (c q : Nat) (v : W32) (s : State), Running s ∧ pageOpen s c q = true ∧ takesDoorbells s c q = true ∧
        dbGood (s.queue c q) v = true ∧ (s.queue c q).staged ≠ [] ∧ (s.queue c q).pushGood v = false) ∧
    (∃ (c q : Nat) (v : W32) (s : State), Running s ∧ pageOpen s c q = true ∧ takesDoorbells s c q = true ∧
        dbGood (s.queue c q) v = false) ∧
    (∃ (c q : Nat) (s : State), Running s ∧ pageOpen s c q = true ∧ takesDoorbells s c q = false) := by
  unfold Running State.Inv
  exact ⟨⟨0, 0, 1, one act, by decide +kernel⟩,
    ⟨0, 0, 1, one pushed, by decide +kernel⟩,
    ⟨0, 0, 1, one { pushed with stagedBad := true }, by decide +kernel⟩,
    ⟨0, 0, 65, one act, by decide +kernel⟩,
    ⟨0, 0, one { act with state := .stopped }, by decide +kernel⟩⟩

theorem wit_ProducerMirror :
    (∃ (c q : Nat) (s : State), Running s ∧ pageOpen s c q = true ∧ takesDoorbells s c q = true ∧ (s.queue c
        q).mirror.busy = false ∧ MirrorReads s c q) ∧
    (∃ (c q : Nat) (s : State), Running s ∧ pageOpen s c q = true ∧ takesDoorbells s c q = true ∧ (s.queue c
        q).mirror.busy = true) ∧
    (∃ (c q : Nat) (s : State), Running s ∧ pageOpen s c q = true ∧ takesDoorbells s c q = true ∧ (s.queue c
        q).mirror.busy = false ∧ ¬ MirrorReads s c q) ∧
    (∃ (c q : Nat) (s : State), Running s ∧ pageOpen s c q = true ∧ takesDoorbells s c q = false) ∧
    (∃ (c q : Nat) (v : W32) (s : State), Running s ∧ (s.queue c q).mirror.result = some (some v) ∧ (s.queue c
        q).mirror.discard = false ∧ (s.queue c q).mirror.again = false ∧ dbGood (s.queue c q) v = true) ∧
    (∃ (c q : Nat) (v : W32) (s : State), Running s ∧ (s.queue c q).mirror.result = some (some v) ∧ (s.queue c
        q).mirror.discard = false ∧ (s.queue c q).mirror.again = true ∧ dbGood (s.queue c q) v = true ∧
        MirrorReads s c q) ∧
    (∃ (c q : Nat) (v : W32) (s : State), Running s ∧ (s.queue c q).mirror.result = some (some v) ∧ (s.queue c
        q).mirror.discard = true ∧ MirrorReads s c q) ∧
    (∃ (c q : Nat) (v : W32) (s : State), Running s ∧ (s.queue c q).mirror.result = some (some v) ∧ (s.queue c
        q).mirror.discard = false ∧ dbGood (s.queue c q) v = false ∧ ((s.queue c q).state = .active ∨ (s.queue
        c q).state = .paused)) ∧
    (∃ (c q : Nat) (s : State), Running s ∧ (s.queue c q).mirror.result = some none ∧ ((s.queue c q).state =
        .active ∨ (s.queue c q).state = .paused)) := by
  unfold MirrorReads Running State.Inv
  exact ⟨⟨0, 0, one mirrored, by decide +kernel⟩,
    ⟨0, 0, one { act with mirror := { busy := true } }, by decide +kernel⟩,
    ⟨0, 0, one act, by decide +kernel⟩,
    ⟨0, 0, one { act with state := .stopped }, by decide +kernel⟩,
    ⟨0, 0, 64, one { act with mirror := { result := some (some 64) } }, by decide +kernel⟩,
    ⟨0, 0, 64, one { mirrored with mirror := { result := some (some 64), again := true } }, by decide +kernel⟩,
    ⟨0, 0, 0, one { mirrored with mirror := { result := some (some 0), discard := true } }, by decide +kernel⟩,
    ⟨0, 0, 65, one { act with mirror := { result := some (some 65) } }, by decide +kernel⟩,
    ⟨0, 0, one { act with state := .paused, mirror := { result := some none } }, by decide +kernel⟩⟩

theorem wit_PushAndPrefetch :
    (∃ (c q off : Nat) (data : Bytes) (s : State), Running s ∧ pageOpen s c q = true ∧ takesDoorbells s c q =
        true ∧ 8 ≤ data.length ∧ off % 8 = 0 ∧ off + data.length ≤ 448 ∧ pushUsed s + 7 ≤ 2048 ∧ (∀ e ∈
        (s.queue c q).staged, e.2.data.length = 64)) ∧
    (∃ (c q off : Nat) (data : Bytes) (s : State), Running s ∧ pageOpen s c q = true ∧ off < 448 ∧ (448 < off +
        data.length ∨ (takesDoorbells s c q = true ∧ 0 < data.length ∧ (data.length < 8 ∨ off % 8 ≠ 0)))) ∧
    (∃ (c q off : Nat) (data : Bytes) (s : State), Running s ∧ pageOpen s c q = true ∧ takesDoorbells s c q =
        false ∧ 0 < data.length ∧ off + data.length ≤ 448) ∧
    (∃ (c q t0 : Nat) (s : State), Running s ∧ (s.queue c q).stagedAt = some t0 ∧ t0 + 153600 ≤ s.hv.tick) ∧
    (∃ (c q : Nat) (i : W32) (rest : List W32) (s : State), Running s ∧ s.hasQueue c q = true ∧ takesSlots
        (s.queue c q) = true ∧ fetchable s (s.queue c q) = i :: rest ∧ cacheUsed s < 8192) := by
  unfold Running State.Inv
  exact ⟨⟨0, 0, 440, List.replicate 8 0, one act, by decide +kernel⟩,
    ⟨0, 0, 440, List.replicate 9 0, one act, by decide +kernel⟩,
    ⟨0, 0, 447, [0], one { act with state := .stopped }, by decide +kernel⟩,
    ⟨0, 0, 0, at_ 153600 (one { act with stagedAt := some 0 }), by decide +kernel⟩,
    ⟨0, 0, 0, [], one { act with pi := 1 }, by decide +kernel⟩⟩

theorem wit_DescriptorChecks :
    (∃ (c q : Nat) (d : Bytes) (o : Op) (s : State), Running s ∧ s.hasQueue c q = true ∧ takesSlots (s.queue c
        q) = true ∧ judge (s.queue c q) = .whole d ∧ structural s c d = .inr o ∧ s.aon.tampered = false) ∧
    (∃ (c q : Nat) (code : BitVec 8) (s : State), Running s ∧ s.hasQueue c q = true ∧ takesSlots (s.queue c q)
        = true ∧ (s.queue c q).state ≠ .draining ∧ (judge (s.queue c q) = .stops code ∨ ∃ d, judge (s.queue c
        q) = .whole d ∧ structural s c d = .inl code)) ∧
    (∃ (c q : Nat) (code : BitVec 8) (s : State), Running s ∧ s.hasQueue c q = true ∧ (s.queue c q).resetting =
        false ∧ (s.queue c q).state = .draining ∧ judge (s.queue c q) = .stops code) := by
  unfold Running State.Inv
  exact ⟨⟨0, 0, nopSlot, .nop, one (holds nopSlot), by decide +kernel⟩,
    ⟨0, 0, qerrHeader, one (holds (zeros 2 ++ [1] ++ zeros 61)),
      by and_intros <;> first | decide +kernel | exact Or.inl (by decide +kernel)⟩,
    ⟨0, 0, qerrHeader, one { holds (zeros 2 ++ [1] ++ zeros 61) with state := .draining }, by decide +kernel⟩⟩

theorem wit_QueueCommands :
    (∃ (c q : Nat) (gen : BitVec 11) (via : CmdVia) (s : State), CommandTaken s c q 1 gen via ∧ via ≠ .mctp ∧
        cfgValid s c (s.queue c q).cfg = true ∧ (s.tenant c).state ≠ 3) ∧
    (∃ (c q : Nat) (gen : BitVec 11) (via : CmdVia) (s : State), CommandTaken s c q 2 gen via) ∧
    (∃ (c q : Nat) (gen : BitVec 11) (via : CmdVia) (s : State), CommandTaken s c q 3 gen via) ∧
    (∃ (c q : Nat) (gen : BitVec 11) (via : CmdVia) (s : State), CommandTaken s c q 4 gen via) ∧
    (∃ (c q : Nat) (gen : BitVec 11) (count : BitVec 17) (s : State), CommandTaken s c q 5 gen .page ∧ 0 <
        count.toNat ∧ count.toNat ≤ 65536) ∧
    (∃ (c q : Nat) (gen : BitVec 11) (via : CmdVia) (s : State), CommandTaken s c q 6 gen via ∧ via ≠ .mctp) := by
  unfold CommandTaken Running State.Inv
  exact ⟨⟨0, 0, 0, .page, one { act with state := .disabled }, by decide +kernel⟩,
    ⟨0, 0, 0, .page, one act, by decide +kernel⟩,
    ⟨0, 0, 0, .qs, one { act with state := .paused }, by decide +kernel⟩,
    ⟨0, 0, 0, .mctp, one { act with state := .frozen }, by decide +kernel⟩,
    ⟨0, 0, 0, 65536, one act, by decide +kernel⟩,
    ⟨0, 0, 0, .page, one { act with state := .stopped, stop := qerrHeader }, by decide +kernel⟩⟩

theorem wit_QueueCommandEnds :
    (∃ (c q : Nat) (word : W64) (via : CmdVia) (s : State), CommandArrives s c q via ∧ 6 < word.toNat % 16) ∧
    (∃ (c q : Nat) (gen : BitVec 11) (via : CmdVia) (s : State), CommandTaken s c q 1 gen via ∧ via ≠ .mctp ∧
        (cfgValid s c (s.queue c q).cfg = false ∨ (s.tenant c).state = 3)) ∧
    (∃ (c q : Nat) (gen : BitVec 11) (count : BitVec 17) (s : State), CommandTaken s c q 5 gen .page ∧
        (count.toNat = 0 ∨ 65536 < count.toNat)) ∧
    (∃ (c q : Nat) (s : State), Running s ∧ (s.queue c q).cmd = some .pause) ∧
    (∃ (c q : Nat) (late : Bool) (s : State), Running s ∧ (s.queue c q).cmd = some (.invalidate late)) ∧
    (∃ (c q : Nat) (s : State), Running s ∧ (s.queue c q).cmd = some .restart ∧ (s.queue c q).state = .stopped
        ∧ (s.queue c q).stopPt = some (s.queue c q).head) ∧
    (∃ (c q : Nat) (s : State), Running s ∧ (s.queue c q).resetting = true ∧ (s.queue c q).window = [] ∧
        (s.queue c q).leaving = false) ∧
    (∃ (c q : Nat) (s : State), Running s ∧ (s.queue c q).state = .draining ∧ (s.queue c q).resetting = false ∧
        (s.queue c q).window = [] ∧ (s.queue c q).ready = [] ∧ (s.queue c q).drainEnd = some (s.queue c
        q).head) := by
  unfold CommandArrives CommandTaken Running State.Inv
  exact ⟨⟨0, 0, 7, .page, one act, by decide +kernel⟩,
    ⟨0, 0, 0, .page, one { act with state := .disabled, cfg := { sizeLog2 := 5 } }, by decide +kernel⟩,
    ⟨0, 0, 0, 65537, one act, by decide +kernel⟩,
    ⟨0, 0, one { act with cmd := some .pause }, by decide +kernel⟩,
    ⟨0, 0, true, one { act with cmd := some (.invalidate true) }, by decide +kernel⟩,
    ⟨0, 0, one { act with cmd := some .restart, state := .stopped, stopPt := some 0 }, by decide +kernel⟩,
    ⟨0, 0, one { act with resetting := true }, by decide +kernel⟩,
    ⟨0, 0, one { act with state := .draining, drainEnd := some 0 }, by decide +kernel⟩⟩

/-- What the clauses of `TurnedAway` ask of the command of a code. -/
def TurnHyps (code : Nat) : Prop :=
  (∃ (c q : Nat) (gen : BitVec 11) (via : CmdVia) (s : State), CommandArrives s c q via ∧ (code = 5 → via = .page) ∧
    (via = .mctp → code = 2 ∨ code = 3 ∨ code = 4) ∧ gen ≠ (s.queue c q).gen) ∧
  (∃ (c q : Nat) (gen : BitVec 11) (via : CmdVia) (s : State), CommandArrives s c q via ∧ gen = (s.queue c q).gen ∧
    cmdAllowed (s.queue c q) code s.aon.tampered = false) ∧
  (∃ (c q : Nat) (s : State), Running s ∧ (s.queue c q).cmd ≠ none)

theorem wit_QueueCommandEnds_TurnedAway (code : Nat) : TurnHyps code := by
  unfold TurnHyps CommandArrives Running State.Inv
  exact ⟨⟨0, 0, 3, .page, one act, by decide +kernel, fun _ => rfl, nofun, by decide +kernel⟩,
    ⟨0, 0, 0, .page, one { act with resetting := true }, by decide +kernel, rfl, rfl⟩,
    ⟨0, 0, one { act with cmd := some .pause }, by decide +kernel⟩⟩

theorem wit_HeadsAndRings :
    (∃ (c q : Nat) (l rest : List Nat) (s : State), Running s ∧ (s.queue c q).window = l ++ rest ∧ l ≠ [] ∧
        l.Nodup ∧ (∀ j ∈ l, (s.job j).stage = .ended) ∧ (∀ k, rest.head? = some k → (s.job k).stage ≠ .ended)) ∧
    (∃ (c q j : Nat) (rest : List Nat) (s : State), Running s ∧ (s.queue c q).window = j :: rest ∧ (s.job
        j).stage ≠ .ended) ∧
    (∃ (c q0 q tgt a x : Nat) (pasid : Option Nat) (s : State), Running s ∧ mirrorTurn s c q0 = q ∧ (s.queue c
        q).hmDue = true ∧ (s.queue c q).cfg.crEn = true ∧ s.busMaster c = true ∧ windowed s c (s.queue c
        q).cfg.hmirror.toNat 8 true = some (tgt, a, pasid) ∧ xlated s c tgt a pasid true = .to x) ∧
    (∃ (c q0 q tgt a x : Nat) (pasid : Option Nat) (owes : Bool) (s : State), Running s ∧ mirrorTurn s c q0 = q
        ∧ (s.queue c q).hmDue = true ∧ (s.queue c q).cfg.crEn = false ∧ s.hasQueue c q = true ∧ s.busMaster c =
        true ∧ owes = ((s.queue c q).crDue || (s.queue c q).crPending) ∧ windowed s c (s.queue c
        q).cfg.hmirror.toNat 8 true = some (tgt, a, pasid) ∧ xlated s c tgt a pasid true = .to x) ∧
    (∃ (c q0 q tgt a x : Nat) (pasid : Option Nat) (s : State), Running s ∧ mirrorTurn s c q0 = q ∧ (s.queue c
        q).hmDue = true ∧ (s.queue c q).cfg.crEn = false ∧ s.hasQueue c q = false ∧ s.busMaster c = true ∧
        (s.queue c q).crDue = false ∧ (s.queue c q).crPending = false ∧ windowed s c (s.queue c
        q).cfg.hmirror.toNat 8 true = some (tgt, a, pasid) ∧ xlated s c tgt a pasid true = .to x) ∧
    (∃ (c q0 q r tgt a x : Nat) (pasid : Option Nat) (s : State), Running s ∧ recordTurn s c q0 = q ∧ (s.queue
        c q).crDue = true ∧ (s.queue c q).hmDue = false ∧ (s.queue c q).crAt = r ∧ pendingQueues s c r = [] ∧
        (s.ring c r).full = false ∧ s.busMaster c = true ∧ windowed s c ((s.ring c r).base.toNat + (s.ring c
        r).tail.toNat % 2 ^ (s.ring c r).sizeLog2 * 16) 16 true = some (tgt, a, pasid) ∧ xlated s c tgt a pasid
        true = .to x) ∧
    (∃ (c q0 q r : Nat) (s : State), Running s ∧ recordTurn s c q0 = q ∧ (s.queue c q).crDue = true ∧ (s.queue
        c q).hmDue = false ∧ (s.queue c q).crAt = r ∧ pendingQueues s c r = [] ∧ (s.ring c r).full = true) ∧
    (∃ (c q0 q r tgt a x : Nat) (pasid : Option Nat) (s : State), Running s ∧ recordTurn s c q0 = q ∧ (s.queue
        c q).crDue = false ∧ (s.queue c q).hmDue = false ∧ (s.queue c q).crAt = r ∧ pendingQueues s c r = [q] ∧
        (s.ring c r).mode = true ∧ (s.ring c r).full = false ∧ s.busMaster c = true ∧ windowed s c ((s.ring c
        r).base.toNat + (s.ring c r).tail.toNat % 2 ^ (s.ring c r).sizeLog2 * 16) 16 true = some (tgt, a,
        pasid) ∧ xlated s c tgt a pasid true = .to x) ∧
    (∃ (c : Nat) (v : W32) (s : State), Running s ∧ isFn c = true ∧ s.exists_ c = true ∧ fnReachable s c = true
        ∧ (s.ring c (s.tenant c).crSel).mode = false ∧ ringDist v (s.ring c (s.tenant c).crSel).cons ≤ ringDist
        (s.ring c (s.tenant c).crSel).tail (s.ring c (s.tenant c).crSel).cons) ∧
    (∃ (c : Nat) (v : W32) (s : State), Running s ∧ isFn c = true ∧ s.exists_ c = true ∧ fnReachable s c = true
        ∧ ringDist (s.ring c (s.tenant c).crSel).tail (s.ring c (s.tenant c).crSel).cons < ringDist v (s.ring c
        (s.tenant c).crSel).cons) := by
  unfold Running State.Inv
  exact ⟨⟨0, 0, [1], [2],
      { one act with
          jobs := [(1, { stage := .ended }), (2, { stage := .run })], nextJob := 3,
          queues := [(0, { act with window := [1, 2] })] },
      by decide +kernel⟩,
    ⟨0, 0, 1, [], { wj { stage := .run } with queues := [(0, { act with window := [1] })] }, by decide +kernel⟩,
    ⟨0, 0, 0, 0, 0x1000, 0x1000, none, one { act with hmDue := true, cfg := { act.cfg with crEn := true } },
      by decide +kernel⟩,
    ⟨0, 0, 0, 0, 0x1000, 0x1000, none, false, one { act with hmDue := true }, by decide +kernel⟩,
    ⟨0, 0, 32768, 0, 0x1000, 0x1000, none,
      { one act with queues := [(0, act), (32768, { act with hmDue := true })] }, by decide +kernel⟩,
    ⟨0, 0, 0, 0, 0, 0x3000, 0x3000, none, ringed {}, by decide +kernel⟩,
    ⟨0, 0, 0, 0, ringed { tail := 64 }, by decide +kernel⟩,
    ⟨0, 0, 0, 0, 0, 0x3000, 0x3000, none,
      { ringed { mode := true } with
          queues := [(0, { act with crPending := true, cfg := { act.cfg with crEn := true } })] },
      by decide +kernel⟩,
    ⟨0, 1, { one act with rings := [(0, { sizeLog2 := 6, tail := 1 })] }, by decide +kernel⟩,
    ⟨0, 2, { one act with rings := [(0, { sizeLog2 := 6, tail := 1 })] }, by decide +kernel⟩⟩

theorem wit_DispatchAndSlices :
    (∃ (a : Account) (ch : Choice) (comb : Option Nat) (lane : Bool) (q : Nat) (i : W32) (s : State), Running s
        ∧ choose s a (fun id st => (placeOf s id st).isSome) = some ch ∧ placeOf s ch.job ch.step = some (comb,
        lane) ∧ (s.job ch.job).stage = .ready ∧ (s.job ch.job).src = .ring q i) ∧
    (∃ (a : Account) (ch : Choice) (comb : Option Nat) (lane : Bool) (s : State), Running s ∧ choose s a (fun
        id st => (placeOf s id st).isSome) = some ch ∧ placeOf s ch.job ch.step = some (comb, lane) ∧ (s.job
        ch.job).stage = .saved) ∧
    (∃ (s : State), Running s ∧ s.sch.epochAt + 1200 ≤ s.hv.tick) ∧
    (∃ (id comb b : Nat) (o : Op) (k : Cell) (s : State), Running s ∧ dOp (s.job id).desc = some o ∧ (s.job
        id).comb = some comb ∧ acctCell (s.job id).acct = some k ∧ (k = .bulk ∨ k = .digest) ∧ (s.job id).stage
        = .run ∧ (s.job id).lane = false ∧ (s.job id).fromPeer = false ∧ inBlock s id = true ∧ laneHolds s id =
        false ∧ nextBoundary (s.job id) o = some b ∧ b ≤ (s.job id).received ∧ outputPassed s (s.job id) o b =
        true) := by
  unfold Running State.Inv
  exact ⟨⟨.none, { tenant := 0, queue := 0, job := 1, step := 5 }, none, false, 0, 0,
      { wj { desc := mkDesc 0 0 0 0 0, src := .ring 0 0 } with queues := [(0, { act with ready := [1] })] },
      by decide +kernel⟩,
    ⟨.none, { tenant := 0, queue := 0, job := 1, step := 5 }, none, false,
      { wj { desc := mkDesc 0 0 0 0 0, src := .ring 0 0, stage := .saved } with
          queues := [(0, { act with window := [1] })] },
      by decide +kernel⟩,
    ⟨at_ 1200 (one act), by decide +kernel⟩,
    ⟨1, 0, 16384, .hash, .digest,
      wj { runs (mkDesc 0x0201 3 3 100000 0) (List.replicate 100000 0) with
          acct := .digest, comb := some 0, gather := .idle },
      by decide +kernel⟩⟩

theorem wit_KeyPulls :
    (∃ (id : Nat) (o : Op) (st : Status) (det : BitVec 8) (s : State), Running s ∧ s.hasJob id = true ∧ (s.job
        id).stage = .key ∧ dOp (s.job id).desc = some o ∧ (s.job id).preempted = false ∧ (ctxFail s (s.job id)
        o = some (st, det) ∨ ctxFail s (s.job id) o = none ∧ totalFail s (s.job id) o = some (st, det))) ∧
    (∃ (id : Nat) (o : Op) (s : State), KeyStage s id o ∧ o.usesKey = false) ∧
    (∃ (id : Nat) (o : Op) (s : State), KeyStage s id o ∧ o.usesKey = true ∧ s.ks.zeroising = some
        .substitution) ∧
    (∃ (id : Nat) (o : Op) (s : State), KeyStage s id o ∧ o.usesKey = true ∧ s.ks.zeroising ≠ some
        .substitution ∧ laneShut s = true) ∧
    (∃ (id : Nat) (o : Op) (st : Status) (det : BitVec 8) (s : State), PullOpen s id o ∧ pullIssue s (s.job
        id).client o (s.job id).desc (wantGen s (s.job id) o) = some (st, det)) ∧
    (∃ (id pos : Nat) (o : Op) (s : State), PullOpen s id o ∧ pullIssue s (s.job id).client o (s.job id).desc
        (wantGen s (s.job id) o) = none ∧ s.slotPos (s.job id).client (dKeySlot (s.job id).desc) = some pos ∧
        (s.slot pos).refs = 65535) ∧
    (∃ (id pos : Nat) (o : Op) (st : Status) (det : BitVec 8) (s : State), PullOpen s id o ∧ pullIssue s (s.job
        id).client o (s.job id).desc (wantGen s (s.job id) o) = none ∧ s.slotPos (s.job id).client (dKeySlot
        (s.job id).desc) = some pos ∧ (s.slot pos).refs ≠ 65535 ∧ ruleIssue o (s.job id).desc (s.slot pos)
        (s.ctx (s.job id).client (dCtx (s.job id).desc)).hwNonce = some (st, det)) ∧
    (∃ (id pos : Nat) (o : Op) (s : State), PullPasses s id o pos ∧ ¬ PlainPull s id o pos ∧ (takeNonce s
        ((s.job id).comb.getD 0) pos).1 = .exhausted) ∧
    (∃ (id pos : Nat) (o : Op) (s : State), PullPasses s id o pos ∧ ¬ PlainPull s id o pos ∧ (takeNonce s
        ((s.job id).comb.getD 0) pos).1 = .waits) ∧
    (∃ (id pos v : Nat) (o : Op) (s : State), PullPasses s id o pos ∧ ¬ PlainPull s id o pos ∧ (takeNonce s
        ((s.job id).comb.getD 0) pos).1 = .value v ∧ (s.slot pos).bad = 0) ∧
    (∃ (id pos : Nat) (o : Op) (s : State), PullPasses s id o pos ∧ PlainPull s id o pos ∧ (s.slot pos).bad = 0
        ∧ o ≠ .keyWrap ∧ o.creates = false) ∧
    (∃ (id pos : Nat) (o : Op) (s : State), PullPasses s id o pos ∧ PlainPull s id o pos ∧ (s.slot pos).bad =
        1) ∧
    (∃ (id pos p : Nat) (s : State), PullPasses s id .keyWrap pos ∧ (s.slot pos).bad = 0 ∧ wrapIssue s (s.job
        id).client (s.job id).desc = none ∧ s.slotPos (s.job id).client (kbTarget (s.job id).desc) = some p ∧
        (s.slot p).bad = 0 ∧ (s.slot p).refs + (if p = pos then 1 else 0) ≠ 65535) ∧
    (∃ (id pos : Nat) (st : Status) (det : BitVec 8) (s : State), PullPasses s id .keyWrap pos ∧ (s.slot
        pos).bad = 0 ∧ wrapIssue s (s.job id).client (s.job id).desc = some (st, det)) ∧
    (∃ (id pos : Nat) (o : Op) (st : Status) (det : BitVec 8) (s : State), PullPasses s id o pos ∧ PlainPull s
        id o pos ∧ (s.slot pos).bad = 0 ∧ o ≠ .keyWrap ∧ o.creates = true ∧ reserveIssue s (s.job id).client
        (kbTarget (s.job id).desc) (kbType (s.job id).desc) (kbPolicy (s.job id).desc) pos false (makeIssue o
        (s.job id).desc) = some (st, det)) ∧
    (∃ (id pos h : Nat) (l : List Nat) (o : Op) (s : State), PullPasses s id o pos ∧ PlainPull s id o pos ∧
        (s.slot pos).bad = 0 ∧ o ≠ .keyWrap ∧ o.creates = true ∧ reserveIssue s (s.job id).client (kbTarget
        (s.job id).desc) (kbType (s.job id).desc) (kbPolicy (s.job id).desc) pos false (makeIssue o (s.job
        id).desc) = none ∧ runSlots s (s.job id).client (kbTarget (s.job id).desc) (runOf (kbType (s.job
        id).desc)) = some (h :: l)) ∧
    (∃ (id : Nat) (o : Op) (s : State), Running s ∧ s.hasJob id = true ∧ (s.job id).stage = .key ∧ dOp (s.job
        id).desc = some o ∧ (s.job id).preempted = true ∧ o.usesKey = true ∧ laneShut s = false ∧ (s.slot
        (s.job id).keyPos).bad = 0) ∧
    (∃ (id : Nat) (o : Op) (s : State), Running s ∧ s.hasJob id = true ∧ (s.job id).stage = .key ∧ dOp (s.job
        id).desc = some o ∧ (s.job id).preempted = true ∧ o.usesKey = true ∧ laneShut s = false ∧ (s.slot
        (s.job id).keyPos).bad ≠ 0) ∧
    (∃ (c i p : Nat) (s : State), Running s ∧ mramOn s = true ∧ s.slotPos c i = some p ∧ (s.slot p).resBusy =
        true) := by
  unfold PlainPull PullPasses PullOpen KeyStage Running State.Inv
  exact ⟨⟨1, .aesCtr, stCtxNotOpen, 0x03, wj { desc := mkDesc 0x0107 1 1 16 0x1000 (zeros 64) 2 5, stage := .key },
      by decide +kernel⟩,
    ⟨1, .hash, wj { desc := mkDesc 0x0201 3 3 1 0, stage := .key }, by decide +kernel⟩,
    ⟨1, .aesCtr, { pulls ctrOne aesKey with ks := { zeroising := some .substitution } }, by decide +kernel⟩,
    ⟨1, .aesCtr, { pulls ctrOne aesKey with ks := { zeroising := some .command } }, by decide +kernel⟩,
    ⟨1, .aesCtr, stPolicy, 0x01, pulls ctrOne { aesKey with policy := 0 }, by decide +kernel⟩,
    ⟨1, 12480, .aesCtr, pulls ctrOne { aesKey with refs := 65535 }, by decide +kernel⟩,
    ⟨1, 12480, .aesCtr, stPolicy, 0x82, pulls ctrOne { aesKey with policy := 0x2003 }, by decide +kernel⟩,
    ⟨1, 12480, .aesGcmEnc, pulls gcmOne { aesKey with policy := 0x2003 }, by decide +kernel⟩,
    ⟨1, 12480, .aesGcmEnc, pulls gcmOne { aesKey with policy := 0x466003 }, by decide +kernel⟩,
    ⟨1, 12480, 0, .aesGcmEnc, pulls gcmOne { aesKey with policy := 0x462003 }, by decide +kernel⟩,
    ⟨1, 12480, .aesCtr, pulls ctrOne aesKey, by decide +kernel⟩,
    ⟨1, 12480, .aesCtr, pulls ctrOne { aesKey with bad := 1 }, by decide +kernel⟩,
    ⟨1, 12480, 12481, wraps { aesKey with policy := 0x1000 }, by decide +kernel⟩,
    ⟨1, 12480, stOrphaned, 0x04, wraps {}, by decide +kernel⟩,
    ⟨1, 12480, .keyDerive, stPolicy, 0x08,
      pulls (mkDesc 0x0502 0 3 0 0 (zeros 16 ++ [1, 0]) 2) { aesKey with policy := 0x100 }, by decide +kernel⟩,
    ⟨1, 12480, 12481, [], .keyDerive,
      pulls (mkDesc 0x0502 0 3 0 0 ([3] ++ zeros 7 ++ [1] ++ zeros 7 ++ [1, 0]) 2) { aesKey with policy := 0x100 },
      by decide +kernel⟩,
    ⟨1, .aesCtr,
      { pulls ctrOne aesKey with
          jobs := [(1, { desc := ctrOne, stage := .key, preempted := true, refs := [12480] })] },
      by decide +kernel⟩,
    ⟨1, .aesCtr,
      { pulls ctrOne { aesKey with
          bad := 1 } with jobs := [(1, { desc := ctrOne, stage := .key, preempted := true, refs := [12480] })] },
      by decide +kernel⟩,
    ⟨0, 0, 1, { one act with slots := [(1, { resBusy := true })] }, by decide +kernel⟩⟩

theorem wit_ReadsAndTranslations :
    (∃ (tag : Nat) (s : State), Running s ∧ tblGet none s.dma.reads tag = none) ∧
    (∃ (tag : Nat) (data : Bytes) (r : Req) (s : State), Running s ∧ tblGet none s.dma.reads tag = some r ∧
        data ≠ [] ∧ r.got.length + data.length < r.len ∧ r.isXlate = false) ∧
    (∃ (tag id off : Nat) (data : Bytes) (r : Req) (s : State), Running s ∧ tblGet none s.dma.reads tag = some
        r ∧ data ≠ [] ∧ r.got.length + data.length = r.len ∧ r.purpose = .source id off ∧ (s.job id).open_ =
        [off] ∧ (s.job id).parts = [] ∧ s.dma.waiting = []) ∧
    (∃ (tag id off : Nat) (r : Req) (s : State), Running s ∧ tblGet none s.dma.reads tag = some r ∧ r.issued +
        1200 * s.hi.cplTo ≤ s.hv.tick ∧ r.purpose = .source id off ∧ s.hasJob id = true ∧ (s.job id).pass2 =
        false ∧ s.dma.waiting = []) ∧
    (∃ (fn page tag : Nat) (pasid : Option Nat) (s : State), Running s ∧ xlateTag s fn pasid page = some tag ∧
        s.dma.asked.contains (fn, pasid, page) = true ∧ (s.func fn).atsEn = true) ∧
    (∃ (s : State), Running s) ∧
    (∃ (fn itag : Nat) (i : AtsInv) (s : State), Running s ∧ s.dma.invs.find? (fun i => i.fn == fn && i.itag ==
        itag) = some i ∧ i.tags = []) := by
  unfold Running State.Inv
  exact ⟨⟨7, one act, by decide +kernel⟩,
    ⟨7, [0], { len := 4 }, { one act with dma := { reads := [(7, some { len := 4 })] } }, by decide +kernel⟩,
    ⟨7, 1, 0, [0, 0], source2, awaits2, by decide +kernel⟩,
    ⟨7, 1, 0, source2, at_ 12000000 awaits2, by decide +kernel⟩,
    ⟨0, 3, 9, none,
      { one act with
          fns := [(0, { bme := true, atsEn := true })],
          dma := { asked := [(0, none, 3)], reads := [(9, some { purpose := .xlate none 3 })] } },
      by decide +kernel⟩,
    ⟨one act, by decide +kernel⟩,
    ⟨0, 9, { itag := 9 }, { one act with dma := { invs := [{ itag := 9 }] } }, by decide +kernel⟩⟩

theorem wit_Marks :
    (∃ (id : Nat) (s : State), s.Inv ∧ s.runs id .nop = true) ∧
    (∃ (id : Nat) (s : State), s.Inv ∧ s.runs id .stamp = true) ∧
    (∃ (id : Nat) (s : State), s.Inv ∧ s.runs id .fence = true ∧ (s.job id).waits.all s.ended = true) ∧
    (∃ (id : Nat) (s : State), s.Inv ∧ s.runs id .fence = true ∧ (s.job id).waits.all s.ended = false) ∧
    (∃ (id : Nat) (s : State), Running s ∧ s.runs id .fence = true ∧ (s.job id).waits.all s.ended = true) := by
  unfold Running State.Inv
  exact ⟨⟨1, wj (runs (mkDesc 0 0 0 0 0)), by decide +kernel⟩,
    ⟨1, wj (runs (mkDesc 2 0 0 0 0)), by decide +kernel⟩,
    ⟨1, wj (runs (mkDesc 1 0 0 0 0)), by decide +kernel⟩,
    ⟨1,
      { one act with
          jobs := [(1, { runs (mkDesc 1 0 0 0 0) with waits := [2] }), (2, { stage := .run })],
          nextJob := 3 },
      by decide +kernel⟩,
    ⟨1, wj { runs (mkDesc 1 0 0 0 0) with waits := [0] }, by decide +kernel⟩⟩

theorem wit_JobEnds :
    (∃ (id tgt a x : Nat) (pasid : Option Nat) (s : State), Running s ∧ s.hasJob id = true ∧ (s.job id).stage =
        .cellDone ∧ (s.job id).record ≠ [] ∧ (s.job id).fromPeer = false ∧ s.busMaster (s.job id).client = true
        ∧ windowed s (s.job id).client (resultAddr s (s.job id)) 64 true = some (tgt, a, pasid) ∧ xlated s
        (s.job id).client tgt a pasid true = .to x) ∧
    (∃ (id tgt a x : Nat) (pasid : Option Nat) (s : State), Running s ∧ s.hasJob id = true ∧ (s.job id).stage =
        .cellDone ∧ (s.job id).record = [] ∧ (s.job id).fromPeer = false ∧ (s.job id).noComb = true ∧ (s.job
        id).output = [] ∧ ((s.job id).wantsLeaf && receiptsOn s (s.job id).client) = false ∧ s.busMaster (s.job
        id).client = true ∧ windowed s (s.job id).client (resultAddr s (s.job id)) 64 true = some (tgt, a,
        pasid) ∧ xlated s (s.job id).client tgt a pasid true = .to x) ∧
    (∃ (id comb tgt a x tgt2 a2 x2 : Nat) (o : Op) (g : Seg) (pasid pasid2 : Option Nat) (s : State), Running s
        ∧ s.hasJob id = true ∧ (s.job id).stage = .cellDone ∧ (s.job id).record = [] ∧ (s.job id).fromPeer =
        false ∧ (s.job id).noComb = false ∧ (s.job id).comb = some comb ∧ ((s.job id).wantsLeaf && receiptsOn s
        (s.job id).client) = false ∧ dOp (s.job id).desc = some o ∧ (s.job id).good = true ∧ (s.job id).dstSegs
        = [g] ∧ (s.job id).written = 0 ∧ (s.job id).output ≠ [] ∧ (s.job id).output.length ≤ g.len ∧ overlapFix
        s o id = (s.job id).output ∧ InPage g.addr.toNat (s.job id).output.length ∧ s.busMaster (s.job
        id).client = true ∧ windowed s (s.job id).client g.addr.toNat (s.job id).output.length true = some
        (tgt, a, pasid) ∧ xlated s (s.job id).client tgt a pasid true = .to x ∧ windowed s (s.job id).client
        (resultAddr s (s.job id)) 64 true = some (tgt2, a2, pasid2) ∧ xlated s (s.job id).client tgt2 a2 pasid2
        true = .to x2) ∧
    (∃ (id : Nat) (s : State), Running s ∧ closeDue s = false ∧ mayAssign s id = true ∧ leafTurn s id = true ∧
        id ∈ queueMates s id) := by
  unfold InPage Running State.Inv
  exact ⟨⟨1, 0, 0x4000, 0x4000, none, ending { record := zeros 64 }, by decide +kernel⟩,
    ⟨1, 0, 0x4000, 0x4000, none, ending {}, by decide +kernel⟩,
    ⟨1, 0, 0, 0x6000, 0x6000, 0, 0x4000, 0x4000, .hash, { addr := 0x6000, len := 16 }, none, none,
      { ending {} with
          jobs := [(1, { desc := mkDesc 0x0201 3 3 1 0, src := .ring 0 0, stage := .cellDone, comb := some 0,
                         dstSegs := [{ addr := 0x6000, len := 16 }], output := [7] })] },
      by decide +kernel⟩,
    ⟨1,
      { ending { record := zeros 64, stage := .leaf } with wg := { isOpen := true, signer := true, eres := 1 } },
      by decide +kernel⟩⟩

theorem wit_CtrCounts :
    (∃ (id i : Nat) (s : State), s.Inv ∧ s.ready id .aesCtr = true ∧ ((s.job id).keyMat.length = 16 ∨ (s.job
        id).keyMat.length = 24 ∨ (s.job id).keyMat.length = 32) ∧ (StreamBefore s id .aesCtr).nonce.length = 16
        ∧ (StreamBefore s id .aesCtr).done % 16 = 0 ∧ i < (s.job id).got.length) := by
  unfold State.Inv
  exact ⟨1, 20, wj (keyed (mkDesc 0x0107 1 3 32 4096 (zeros 16)) (zeros 16) (zeros 32)), by decide +kernel⟩

theorem wit_Ciphers :
    (∃ (id : Nat) (s : State), s.Inv ∧ s.ready id .aesCbcEnc = true) ∧
    (∃ (id : Nat) (s : State), s.Inv ∧ s.ready id .aesCbcDec = true ∧ dPad (s.job id).desc = false) ∧
    (∃ (id : Nat) (p : Bytes) (s : State), s.Inv ∧ s.ready id .aesCbcDec = true ∧ dPad (s.job id).desc = true ∧
        cbcDec (aesKeys (s.job id).keyMat) (cbcIv (StreamBefore s id .aesCbcDec)) (chunks 16 (s.job id).got) =
        p) ∧
    (∃ (id : Nat) (s : State), s.Inv ∧ s.ready id .aesXtsEnc = true) ∧
    (∃ (id : Nat) (s : State), s.Inv ∧ s.ready id .aesXtsDec = true) ∧
    (∃ (id : Nat) (s : State), s.Inv ∧ s.ready id .aesCtr = true ∧ (s.job id).left = false) := by
  unfold State.Inv
  exact ⟨⟨1, wj (keyed (mkDesc 0x0105 1 3 16 4096 (zeros 16)) (zeros 16) (zeros 16)), by decide +kernel⟩,
    ⟨1, wj (keyed (mkDesc 0x0106 1 3 16 4096 (zeros 16)) (zeros 16) (zeros 16)), by decide +kernel⟩,
    ⟨1, cbcDec (aesKeys (zeros 16)) (zeros 16) [zeros 16],
      wj (keyed (mkDesc 0x0106 1 3 16 135168 (zeros 16)) (zeros 16) (zeros 16)), by decide +kernel⟩,
    ⟨1, wj (keyed (mkDesc 0x0108 1 3 16 4096 (zeros 16)) (zeros 32) (zeros 16)), by decide +kernel⟩,
    ⟨1, wj (keyed (mkDesc 0x0109 1 3 16 4096 (zeros 16)) (zeros 32) (zeros 16)), by decide +kernel⟩,
    ⟨1, wj (keyed (mkDesc 0x0107 1 3 16 4096 (zeros 16)) (zeros 16) (zeros 16)), by decide +kernel⟩⟩

theorem wit_Encryptions :
    (∃ (id : Nat) (n a m x b : Bytes) (s : State), s.Inv ∧ s.ready id .aesGcmEnc = true ∧ dFinal .aesGcmEnc
        (s.job id).desc = false ∧ (StreamBefore s id .aesGcmEnc).nonce = n ∧ GcmTook (s.job id).keyMat n a m
        (StreamBefore s id .aesGcmEnc) ∧ Brings (s.job id) (StreamBefore s id .aesGcmEnc) x b ∧ b.length % 16 =
        0 ∧ (s.job id).holdsCtx = true ∧ AesKey (s.job id).keyMat) ∧
    (∃ (id : Nat) (n a m x b : Bytes) (s : State), s.Inv ∧ s.ready id .aesGcmEnc = true ∧ dFinal .aesGcmEnc
        (s.job id).desc = true ∧ (StreamBefore s id .aesGcmEnc).nonce = n ∧ GcmTook (s.job id).keyMat n a m
        (StreamBefore s id .aesGcmEnc) ∧ Brings (s.job id) (StreamBefore s id .aesGcmEnc) x b ∧ AesKey (s.job
        id).keyMat) ∧
    (∃ (id : Nat) (n a m x b : Bytes) (s : State), s.Inv ∧ s.ready id .chachaPolyEnc = true ∧ dFinal
        .chachaPolyEnc (s.job id).desc = false ∧ (StreamBefore s id .chachaPolyEnc).nonce = n ∧ ChachaTook
        (s.job id).keyMat n a m (StreamBefore s id .chachaPolyEnc) ∧ Brings (s.job id) (StreamBefore s id
        .chachaPolyEnc) x b ∧ b.length % 64 = 0 ∧ (s.job id).holdsCtx = true ∧ (m = [] ∨ (s.job
        id).keyMat.length = 32 ∧ n.length = 12)) ∧
    (∃ (id : Nat) (n a m x b : Bytes) (s : State), s.Inv ∧ s.ready id .chachaPolyEnc = true ∧ dFinal
        .chachaPolyEnc (s.job id).desc = true ∧ (StreamBefore s id .chachaPolyEnc).nonce = n ∧ ChachaTook
        (s.job id).keyMat n a m (StreamBefore s id .chachaPolyEnc) ∧ Brings (s.job id) (StreamBefore s id
        .chachaPolyEnc) x b ∧ (m = [] ∨ (s.job id).keyMat.length = 32 ∧ n.length = 12)) ∧
    (∃ (id : Nat) (a m : Bytes) (s : State), s.Inv ∧ s.ready id .aesCcmEnc = true ∧ (s.job id).got = a ++ m ∧
        a.length = dAad (s.job id).desc ∧ m.length = dMsg (s.job id).desc) ∧
    (∃ (id : Nat) (m b : Bytes) (s : State), s.Inv ∧ s.ready id .aesGmac = true ∧ dFinal .aesGmac (s.job
        id).desc = false ∧ GmacTook (s.job id).keyMat m (StreamBefore s id .aesGmac) ∧ (s.job id).got = b ∧
        b.length = dMsg (s.job id).desc ∧ b.length % 16 = 0 ∧ (s.job id).holdsCtx = true) ∧
    (∃ (id : Nat) (m b : Bytes) (s : State), s.Inv ∧ s.ready id .aesGmac = true ∧ dFinal .aesGmac (s.job
        id).desc = true ∧ dVerify (s.job id).desc = false ∧ GmacTook (s.job id).keyMat m (StreamBefore s id
        .aesGmac) ∧ (s.job id).got = b ∧ b.length = dMsg (s.job id).desc) ∧
    (∃ (id : Nat) (m b tag : Bytes) (s : State), s.Inv ∧ s.ready id .aesGmac = true ∧ dFinal .aesGmac (s.job
        id).desc = true ∧ dVerify (s.job id).desc = true ∧ GmacTook (s.job id).keyMat m (StreamBefore s id
        .aesGmac) ∧ (s.job id).got = b ++ tag ∧ b.length = dMsg (s.job id).desc ∧ tag.length = dT (s.job
        id).desc) := by
  unfold AesKey Brings GmacTook ChachaTook GcmTook State.Inv
  exact ⟨⟨1, zeros 12, [1], zeros 16, [], zeros 16, streams 0x0101 1 0 16 (zeros 16) gcmed, by decide +kernel⟩,
    ⟨1, zeros 12, [], [], [1], [2, 3],
      wj (keyed (mkDesc 0x0101 1 3 2 3072 (zeros 16) 0 0 1) (zeros 16) [1, 2, 3]),
      by decide +kernel⟩,
    ⟨1, zeros 12, [1], zeros 64, [], zeros 64, streams 0x010A 0 0 64 (zeros 32) polyed, by decide +kernel⟩,
    ⟨1, zeros 12, [], [], [1], [2, 3],
      wj (keyed (mkDesc 0x010A 0 3 2 3072 (zeros 16) 0 0 1) (zeros 32) [1, 2, 3]), by decide +kernel⟩,
    ⟨1, [1], [2, 3], wj (keyed (mkDesc 0x0103 1 3 2 3072 (zeros 16) 0 0 1) (zeros 16) [1, 2, 3]),
      by decide +kernel⟩,
    ⟨1, zeros 16, zeros 16, streams 0x010C 1 0 16 (zeros 16) gmaced, by decide +kernel⟩,
    ⟨1, [], [1], wj (keyed (mkDesc 0x010C 1 3 1 3072 (zeros 16)) (zeros 16) [1]), by decide +kernel⟩,
    ⟨1, [], [1], zeros 16, wj (keyed (mkDesc 0x010C 1 3 1 68608 (zeros 16)) (zeros 16) ([1] ++ zeros 16)),
      by decide +kernel⟩⟩

/-- What the clauses of `OpensAs` ask. -/
def OpenHyps (o : Op) (f : State → Job → Opened) : Prop :=
  (∃ (id : Nat) (s : State), s.Inv ∧ s.ready id o = true ∧ dOut o (s.job id).desc ≤ 262144 ∧
    (s.job id).pass2 = false) ∧
  (∃ (id : Nat) (s : State), s.Inv ∧ s.ready id o = true ∧ 262144 < dOut o (s.job id).desc ∧
    (s.job id).pass2 = false ∧ (f s (s.job id)).tag ≠ (f s (s.job id)).want) ∧
  (∃ (id : Nat) (s : State), s.Inv ∧ s.ready id o = true ∧ 262144 < dOut o (s.job id).desc ∧
    (s.job id).pass2 = false ∧ (f s (s.job id)).tag = (f s (s.job id)).want) ∧
  (∃ (id : Nat) (s : State), s.Inv ∧ s.ready id o = true ∧ (s.job id).pass2 = true)

theorem wit_Decryptions : OpenHyps .aesGcmDec gcmOpen ∧ OpenHyps .aesCcmDec ccmOpen ∧
    OpenHyps .chachaPolyDec chachaOpen := by
  refine ⟨⟨⟨1, wj (runs (mkDesc 0x102 1 3 16 0xC00 (zeros 16))), by unfold State.Inv; decide +kernel⟩,
      ⟨1, wj (keyed (mkDesc 0x102 1 3 300000 0xC00 (zeros 16)) (zeros 16) []), by unfold State.Inv; decide +kernel⟩,
      ?_, ⟨1, wj { runs (mkDesc 0x102 1 3 16 0xC00 (zeros 16)) with pass2 := true },
        by unfold State.Inv; decide +kernel⟩⟩,
    ⟨⟨1, wj (runs (mkDesc 0x104 1 3 16 0xC00 (zeros 16))), by unfold State.Inv; decide +kernel⟩,
      ⟨1, wj (keyed (mkDesc 0x104 1 3 300000 0xC00 (zeros 16)) (zeros 16) []), by unfold State.Inv; decide +kernel⟩,
      ?_, ⟨1, wj { runs (mkDesc 0x104 1 3 16 0xC00 (zeros 16)) with pass2 := true },
        by unfold State.Inv; decide +kernel⟩⟩,
    ⟨⟨1, wj (runs (mkDesc 0x10B 0 3 16 0xC00 (zeros 16))), by unfold State.Inv; decide +kernel⟩,
      ⟨1, wj (keyed (mkDesc 0x10B 0 3 300000 0xC00 (zeros 16)) (zeros 32) []), by unfold State.Inv; decide +kernel⟩,
      ?_, ⟨1, wj { runs (mkDesc 0x10B 0 3 16 0xC00 (zeros 16)) with pass2 := true },
        by unfold State.Inv; decide +kernel⟩⟩⟩
  · obtain ⟨h1, h2, h3⟩ := big_parts (mkDesc 0x102 1 3 300000 0xC00 (zeros 16)) big (gcmDec (zeros 16) (ivBytes
      (mkDesc 0x102 1 3 300000 0xC00 (zeros 16))) [] big).2 big_length
      (by decide +kernel) (by decide +kernel) (by decide +kernel) (zeros 16)
    refine ⟨1, wj (keyed (mkDesc 0x102 1 3 300000 0xC00 (zeros 16)) (zeros 16) (big ++ (gcmDec (zeros 16) (ivBytes
        (mkDesc 0x102 1 3 300000 0xC00 (zeros 16))) [] big).2)), by unfold State.Inv; decide +kernel,
      by decide +kernel, by decide +kernel, by decide +kernel, ?_⟩
    show (gcmOpen _ (keyed _ _ _)).tag = (gcmOpen _ (keyed _ _ _)).want
    simp only [gcmOpen, h1, h2, h3]
    rfl
  · obtain ⟨h1, h2, h3⟩ := big_parts (mkDesc 0x104 1 3 300000 0xC00 (zeros 16)) big (ccmDec (zeros 16) (ivBytes
      (mkDesc 0x104 1 3 300000 0xC00 (zeros 16))) [] big 16).2 big_length
      (by decide +kernel) (by decide +kernel) (by decide +kernel) (zeros 16)
    refine ⟨1, wj (keyed (mkDesc 0x104 1 3 300000 0xC00 (zeros 16)) (zeros 16) (big ++ (ccmDec (zeros 16) (ivBytes
        (mkDesc 0x104 1 3 300000 0xC00 (zeros 16))) [] big 16).2)), by unfold State.Inv; decide +kernel,
      by decide +kernel, by decide +kernel, by decide +kernel, ?_⟩
    show (ccmOpen _ (keyed _ _ _)).tag = (ccmOpen _ (keyed _ _ _)).want
    simp only [ccmOpen, h1, h2, h3]
    change (ccmDec (zeros 16) (ivBytes (mkDesc 0x104 1 3 300000 0xC00 (zeros 16))) [] big 16).2 = List.take 16 _
    exact (List.take_of_length_le (by
      simp only [ccmDec, ccmTag, xorB, ccmMac, List.length_zipWith, List.length_take]; omega)).symm
  · obtain ⟨h1, h2, h3⟩ := big_parts (mkDesc 0x10B 0 3 300000 0xC00 (zeros 16)) big (chachaDec (zeros 32) (ivBytes
      (mkDesc 0x10B 0 3 300000 0xC00 (zeros 16))) [] big).2 big_length
      (by decide +kernel) (by decide +kernel) (by decide +kernel) (zeros 32)
    refine ⟨1, wj (keyed (mkDesc 0x10B 0 3 300000 0xC00 (zeros 16)) (zeros 32) (big ++ (chachaDec (zeros 32)
        (ivBytes (mkDesc 0x10B 0 3 300000 0xC00 (zeros 16))) [] big).2)), by unfold State.Inv; decide +kernel,
      by decide +kernel, by decide +kernel, by decide +kernel, ?_⟩
    show (chachaOpen _ (keyed _ _ _)).tag = (chachaOpen _ (keyed _ _ _)).want
    simp only [chachaOpen, h1, h2, h3]
    rfl

theorem wit_ProtocolPackets :
    (∃ (id : Nat) (s : State), s.Inv ∧ s.ready id .tls13RecSeal = true ∧ (s.job id).got.length = dMsg (s.job
        id).desc) ∧
    (∃ (id : Nat) (s : State), s.Inv ∧ s.ready id .tls13RecOpen = true ∧ (s.job id).got.take 5 ≠ [0x17, 0x03,
        0x03] ++ natBe 2 (dMsg (s.job id).desc)) ∧
    (∃ (id : Nat) (s : State), s.Inv ∧ s.ready id .tls13RecOpen = true ∧ (s.job id).got.take 5 = [0x17, 0x03,
        0x03] ++ natBe 2 (dMsg (s.job id).desc) ∧ dOut .tls13RecOpen (s.job id).desc ≤ 262144 ∧ (s.job
        id).pass2 = false) ∧
    (∃ (id p : Nat) (pt : Bytes) (s : State), s.Inv ∧ s.ready id .espSeal = true ∧ espPadOf (dMsg (s.job
        id).desc) (espAlign (s.job id).desc) = p ∧ (s.job id).got ++ ((List.range p).map fun i => BitVec.ofNat
        8 (i + 1)) ++ [BitVec.ofNat 8 p, BitVec.ofNat 8 (espNext (s.job id).desc)] = pt) ∧
    (∃ (id : Nat) (s : State), s.Inv ∧ s.ready id .espOpen = true ∧ (beNat ((s.job id).got.take 4) ≠ espSpi
        (s.job id).desc ∨ beNat (slice (s.job id).got 4 4) ≠ espSeq (s.job id).desc % 2 ^ 32)) ∧
    (∃ (id n p : Nat) (plain : Bytes) (s : State), s.Inv ∧ s.ready id .espOpen = true ∧ beNat ((s.job
        id).got.take 4) = espSpi (s.job id).desc ∧ beNat (slice (s.job id).got 4 4) = espSeq (s.job id).desc %
        2 ^ 32 ∧ dOut .espOpen (s.job id).desc ≤ 262144 ∧ (s.job id).pass2 = false ∧ (espOpenOf s (s.job
        id)).plain = plain ∧ plain.length = n ∧ (plain.getD (n - 2) 0).toNat = p) := by
  unfold State.Inv
  exact ⟨⟨1, wj (keyed (mkDesc 0x0110 1 3 2 0 (zeros 16)) (zeros 16) [1, 2]), by decide +kernel⟩,
    ⟨1, wj (keyed (mkDesc 0x0111 1 3 20 0 (zeros 16)) (zeros 16) (zeros 25)), by decide +kernel⟩,
    ⟨1, wj (keyed (mkDesc 0x0111 1 3 20 0 (zeros 16)) (zeros 16) ([0x17, 3, 3, 0, 20] ++ zeros 20)),
      by decide +kernel⟩,
    ⟨1, 1, [7, 1, 1, 4], wj (keyed (mkDesc 0x0112 1 3 1 0 (zeros 28 ++ [4, 4])) (zeros 16) [7]), by decide +kernel⟩,
    ⟨1, wj (keyed (mkDesc 0x0113 1 3 20 0 (zeros 64)) (zeros 16) ([0, 0, 0, 1] ++ zeros 32)), by decide +kernel⟩,
    ⟨1, _, _, _, wj (keyed (mkDesc 0x0113 1 3 20 0 (zeros 64)) (zeros 16) (zeros 36)),
      by and_intros <;> first | decide +kernel | rfl⟩⟩

theorem wit_RandomNumbers :
    (∃ (id : Nat) (u : State) (s : State), s.Inv ∧ s.ready id .random = true ∧ drbgReady s (s.job id).on (dPr
        (s.job id).desc) = some u) ∧
    (∃ (id : Nat) (s : State), s.Inv ∧ s.ready id .random = true ∧ drbgReady s (s.job id).on (dPr (s.job
        id).desc) = none) := by
  unfold State.Inv
  exact ⟨⟨1, live (mkDesc 0x0601 0 3 8 0) [] [], live (mkDesc 0x0601 0 3 8 0) [] [], by decide +kernel⟩,
    ⟨1, unseeded (mkDesc 0x0601 0 3 8 0) [] [], by decide +kernel⟩⟩

theorem wit_DigestStreams :
    (∃ (id : Nat) (a : Bytes) (s : State), s.Inv ∧ s.ready id .hash = true ∧ dFinal .hash (s.job id).desc =
        true ∧ (s.job id).got.length = dMsg (s.job id).desc ∧ HashTook (dAlg (s.job id).desc) (hashInit (dAlg
        (s.job id).desc)) a (StreamBefore s id .hash)) ∧
    (∃ (id : Nat) (a : Bytes) (s : State), s.Inv ∧ s.ready id .shakeXof = true ∧ dFinal .shakeXof (s.job
        id).desc = true ∧ (s.job id).got.length = dMsg (s.job id).desc ∧ (dAlg (s.job id).desc = 0x21 ∨ dAlg
        (s.job id).desc = 0x22) ∧ HashTook (dAlg (s.job id).desc) (zeros 200) a (StreamBefore s id .shakeXof)) ∧
    (∃ (id : Nat) (a : Bytes) (s : State), s.Inv ∧ s.ready id .hmacGen = true ∧ dFinal .hmacGen (s.job id).desc
        = true ∧ (s.job id).got.length = dMsg (s.job id).desc ∧ HashTook (dAlg (s.job id).desc) (hmacStart s
        id) a (StreamBefore s id .hmacGen)) ∧
    (∃ (id : Nat) (a : Bytes) (s : State), s.Inv ∧ s.ready id .kmac = true ∧ dFinal .kmac (s.job id).desc =
        true ∧ (s.job id).got.length = dMsg (s.job id).desc ∧ (dAlg (s.job id).desc = 0x31 ∨ dAlg (s.job
        id).desc = 0x32) ∧ HashTook (dAlg (s.job id).desc) (kmacInit (dAlg (s.job id).desc) (s.job id).keyMat
        (StreamBefore s id .kmac).s) a (StreamBefore s id .kmac)) ∧
    (∃ (id : Nat) (a : Bytes) (s : State), s.Inv ∧ s.ready id .cmacGen = true ∧ dFinal .cmacGen (s.job id).desc
        = true ∧ (s.job id).got.length = dMsg (s.job id).desc ∧ ((s.job id).keyMat.length = 16 ∨ (s.job
        id).keyMat.length = 24 ∨ (s.job id).keyMat.length = 32) ∧ CmacTook (s.job id).keyMat a (StreamBefore s
        id .cmacGen)) := by
  unfold CmacTook HashTook State.Inv
  exact ⟨⟨1, zeros 128, { wj (keyed (mkDesc 0x0201 3 2 1 0 [] 0 1 0) [] [7]) with ctxs := [(1, hashed128)] },
      by decide +kernel⟩,
    ⟨1, [], wj (keyed (mkDesc 0x0207 33 3 1 0 []) [] [7]), by decide +kernel⟩,
    ⟨1, [], wj (keyed (mkDesc 0x0202 3 3 1 0 []) (zeros 32) [7]), by decide +kernel⟩,
    ⟨1, [], wj (keyed (mkDesc 0x0204 49 3 1 0 []) (zeros 32) [7]), by decide +kernel⟩,
    ⟨1, [], wj (keyed (mkDesc 0x0205 1 3 1 0 []) (zeros 16) [7]), by decide +kernel⟩⟩

/-- What `HashGoesOn` asks. -/
def HashGoesHyps (o : Op) (algs : Nat → Prop) (start : State → Nat → Bytes) : Prop :=
  ∃ (id : Nat) (a : Bytes) (s : State), s.Inv ∧ s.ready id o = true ∧ dFinal o (s.job id).desc = false ∧
    (s.job id).got.length = dMsg (s.job id).desc ∧
    (s.job id).got.length % hashBlock (dAlg (s.job id).desc) = 0 ∧ (s.job id).holdsCtx = true ∧
    algs (dAlg (s.job id).desc) ∧ HashTook (dAlg (s.job id).desc) (start s id) a (StreamBefore s id o)

/-- What `CmacGoesOn` asks. -/
def CmacGoesHyps (o : Op) : Prop :=
  ∃ (id : Nat) (a : Bytes) (s : State), s.Inv ∧ s.ready id o = true ∧ dFinal o (s.job id).desc = false ∧
    (s.job id).got.length = dMsg (s.job id).desc ∧ (s.job id).got.length % 16 = 0 ∧
    (s.job id).holdsCtx = true ∧
    ((s.job id).keyMat.length = 16 ∨ (s.job id).keyMat.length = 24 ∨ (s.job id).keyMat.length = 32) ∧
    CmacTook (s.job id).keyMat a (StreamBefore s id o)

/-- A CMAC stream of one block. -/
def maced : Ctx := { state := .held, opcode := 0x0205, alg := 1, chain := zeros 32, done := 16 }

theorem wit_DigestStreams_goesOn :
    HashGoesHyps .hash (fun _ => True) (fun s id => hashInit (dAlg (s.job id).desc)) ∧
    HashGoesHyps .shakeXof (fun n => n = 0x21 ∨ n = 0x22) (fun _ _ => zeros 200) ∧
    HashGoesHyps .hmacGen (fun _ => True) hmacStart ∧
    HashGoesHyps .hmacVerify (fun _ => True) hmacStart ∧
    HashGoesHyps .kmac (fun n => n = 0x31 ∨ n = 0x32)
      (fun s id => kmacInit (dAlg (s.job id).desc) (s.job id).keyMat (StreamBefore s id .kmac).s) ∧
    CmacGoesHyps .cmacGen ∧ CmacGoesHyps .cmacVerify := by
  unfold HashGoesHyps CmacGoesHyps HashTook CmacTook StreamBefore State.Inv
  exact ⟨⟨1, zeros 128, streams 0x0201 3 0 128 [] hashed128, by decide +kernel⟩,
    ⟨1, [], streams 0x0207 0x21 1 168 [] begun, by decide +kernel⟩,
    ⟨1, [], streams 0x0202 3 1 128 (zeros 32) begun, by decide +kernel⟩,
    ⟨1, [], streams 0x0203 3 1 128 (zeros 32) begun, by decide +kernel⟩,
    ⟨1, [], streams 0x0204 0x31 1 168 (zeros 32) begun, by decide +kernel⟩,
    ⟨1, zeros 16, streams 0x0205 1 0 16 (zeros 16) maced, by decide +kernel⟩,
    ⟨1, [], streams 0x0206 1 1 16 (zeros 16) begun, by decide +kernel⟩⟩

theorem wit_MacVerdicts :
    (∃ (id : Nat) (a : Bytes) (s : State), s.Inv ∧ s.ready id .hmacVerify = true ∧ dFinal .hmacVerify (s.job
        id).desc = true ∧ (s.job id).got.length = dMsg (s.job id).desc ∧ HashTook (dAlg (s.job id).desc)
        (hmacStart s id) a (StreamBefore s id .hmacVerify)) ∧
    (∃ (id : Nat) (a : Bytes) (s : State), s.Inv ∧ s.ready id .cmacVerify = true ∧ dFinal .cmacVerify (s.job
        id).desc = true ∧ (s.job id).got.length = dMsg (s.job id).desc ∧ ((s.job id).keyMat.length = 16 ∨
        (s.job id).keyMat.length = 24 ∨ (s.job id).keyMat.length = 32) ∧ CmacTook (s.job id).keyMat a
        (StreamBefore s id .cmacVerify)) := by
  unfold CmacTook HashTook State.Inv
  exact ⟨⟨1, [], wj (keyed (mkDesc 0x0203 3 3 1 0 []) (zeros 32) [7]), by decide +kernel⟩,
    ⟨1, [], wj (keyed (mkDesc 0x0206 1 3 1 0 []) (zeros 16) [7]), by decide +kernel⟩⟩

theorem wit_RsaAndPowers :
    (∃ (id m r : Nat) (u s : State), s.Inv ∧ s.ready id .rsaPriv = true ∧ Served s id u ∧ RsaInput s u id m ∧
        rsaCrt (rsaKey (s.job id).k (s.job id).keyMat) m = (r, true)) ∧
    (∃ (id m : Nat) (fault : Bool) (u s : State), s.Inv ∧ s.ready id .rsaPriv = true ∧ Served s id u ∧ RsaInput
        s u id m ∧ (fault = true ∨ (rsaCrt (rsaKey (s.job id).k (s.job id).keyMat) m).2 = false)) ∧
    (∃ (id : Nat) (s : State), s.Inv ∧ s.ready id .rsaPriv = true ∧ (dVariant (s.job id).desc = 0 ∨ dVariant
        (s.job id).desc = 3) ∧ rsaN (s.job id) ≤ beNat (s.job id).got) ∧
    (∃ (id r : Nat) (ok : Bool) (u s : State), s.Inv ∧ s.ready id .rsaPriv = true ∧ Served s id u ∧ dVariant
        (s.job id).desc = 3 ∧ beNat (s.job id).got < rsaN (s.job id) ∧ rsaCrt (rsaKey (s.job id).k (s.job
        id).keyMat) (beNat (s.job id).got) = (r, ok)) ∧
    (∃ (id : Nat) (s : State), s.Inv ∧ s.ready id .rsaPriv = true ∧ drbgReady s (s.job id).on false = none ∧
        (dVariant (s.job id).desc = 1 ∨ dVariant (s.job id).desc = 2 ∨ beNat (s.job id).got < rsaN (s.job id))) ∧
    (∃ (id n e : Nat) (s : State), s.Inv ∧ s.ready id .rsaPub = true ∧ n = beNat ((s.job id).got.take (s.job
        id).k) ∧ e = beNat (slice (s.job id).got (s.job id).k 4) ∧ (n % 2 = 0 ∨ n < 2 ^ (8 * (s.job id).k - 1)
        ∨ e % 2 = 0 ∨ e < 3)) ∧
    (∃ (id n e m : Nat) (s : State), s.Inv ∧ s.ready id .rsaPub = true ∧ RsaPublic (s.job id) n e ∧ m = beNat
        ((s.job id).got.drop ((s.job id).k + 4)) ∧ dVariant (s.job id).desc = 0) ∧
    (∃ (id n e : Nat) (sig dig : Bytes) (s : State), s.Inv ∧ s.ready id .rsaPub = true ∧ RsaPublic (s.job id) n
        e ∧ (s.job id).got.drop ((s.job id).k + 4) = sig ++ dig ∧ sig.length = (s.job id).k ∧ (dVariant (s.job
        id).desc = 1 ∨ dVariant (s.job id).desc = 2)) ∧
    (∃ (id n e : Nat) (u s : State), s.Inv ∧ s.ready id .rsaPub = true ∧ RsaPublic (s.job id) n e ∧ dVariant
        (s.job id).desc = 3 ∧ Served s id u) ∧
    (∃ (id n e b : Nat) (s : State), s.Inv ∧ s.ready id .modexpRaw = true ∧ n = beNat ((s.job id).got.take
        (s.job id).k) ∧ e = beNat (slice (s.job id).got (s.job id).k (s.job id).k) ∧ b = beNat (slice (s.job
        id).got (2 * (s.job id).k) (s.job id).k)) := by
  unfold RsaPublic RsaInput Served State.Inv
  exact ⟨⟨1, 4, 16, live (mkDesc 0x0301 16 3 1 0) tinyRsa [4], live (mkDesc 0x0301 16 3 1 0) tinyRsa [4],
      by decide +kernel⟩,
    ⟨1, beNat (emsaPkcs1 2 128 (zeros 32)), true, live (mkDesc 0x0301 16 3 1 513) tinyRsa (zeros 32),
      live (mkDesc 0x0301 16 3 1 513) tinyRsa (zeros 32), by decide +kernel⟩,
    ⟨1, live (mkDesc 0x0301 16 3 1 0) tinyRsa [33], by decide +kernel⟩,
    ⟨1, 16, true, live (mkDesc 0x0301 16 3 1 3) tinyRsa [4], live (mkDesc 0x0301 16 3 1 3) tinyRsa [4],
      by decide +kernel⟩,
    ⟨1, unseeded (mkDesc 0x0301 16 3 1 0x201) tinyRsa (zeros 32), by decide +kernel⟩,
    ⟨1, 0, 0, live (mkDesc 0x0302 16 3 0 0) [] (zeros 260), by decide +kernel⟩,
    ⟨1, 2 ^ 1023 + 1, 3, 2, live (mkDesc 0x0302 16 3 0 0) [] (natBe 128 (2 ^ 1023 + 1) ++ natBe 4 3 ++ [2]),
      by decide +kernel⟩,
    ⟨1, 2 ^ 1023 + 1, 3, zeros 128, [],
      live (mkDesc 0x0302 16 3 0 1) [] (natBe 128 (2 ^ 1023 + 1) ++ natBe 4 3 ++ zeros 128), by decide +kernel⟩,
    ⟨1, 2 ^ 1023 + 1, 3, live (mkDesc 0x0302 16 3 0 3) [] (natBe 128 (2 ^ 1023 + 1) ++ natBe 4 3 ++ [2]),
      live (mkDesc 0x0302 16 3 0 3) [] (natBe 128 (2 ^ 1023 + 1) ++ natBe 4 3 ++ [2]), by decide +kernel⟩,
    ⟨1, 0, 0, 5, live (mkDesc 0x0309 16 3 0 0) [] (zeros 383 ++ [5]), by decide +kernel⟩⟩

theorem wit_CurveSignatures :
    (∃ (id : Nat) (u s : State), s.Inv ∧ s.ready id .ecdsaSign = true ∧ Served s id u) ∧
    (∃ (id : Nat) (u s : State), s.Inv ∧ s.ready id .eddsaSign = true ∧ Served s id u) ∧
    (∃ (id : Nat) (s : State), s.Inv ∧ s.ready id .ecdsaVerify = true) ∧
    (∃ (id : Nat) (pk sig m : Bytes) (s : State), s.Inv ∧ s.ready id .eddsaVerify = true ∧ (s.job id).got = pk
        ++ sig ++ m ∧ pk.length = pubLen (dAlg (s.job id).desc) ∧ sig.length = sigLen (dAlg (s.job id).desc)) := by
  unfold Served State.Inv
  exact ⟨⟨1, live (mkDesc 0x0303 1 3 32 0) (natBe 32 1) (zeros 32),
      live (mkDesc 0x0303 1 3 32 0) (natBe 32 1) (zeros 32), by decide +kernel⟩,
    ⟨1, live (mkDesc 0x0305 17 3 1 0) (zeros 32) [7], live (mkDesc 0x0305 17 3 1 0) (zeros 32) [7],
      by decide +kernel⟩,
    ⟨1, live (mkDesc 0x0304 1 3 32 0) [] (zeros 161), by decide +kernel⟩,
    ⟨1, zeros 32, zeros 64, [7], live (mkDesc 0x0306 17 3 1 0) [] (zeros 96 ++ [7]), by decide +kernel⟩⟩

/-- What the clauses of `Agrees` ask. -/
def AgreeHyps (o : Op) (f : Job → BitVec 8 ⊕ Bytes) : Prop :=
  (∃ (id : Nat) (z : Bytes) (u s : State), s.Inv ∧ s.ready id o = true ∧ drbgReady s (s.job id).on false = some u ∧
    f (s.job id) = .inr z) ∧
  (∃ (id : Nat) (det : BitVec 8) (u s : State), s.Inv ∧ s.ready id o = true ∧ f (s.job id) = .inl det ∧
    (det = 0x81 ∨ drbgReady s (s.job id).on false = some u)) ∧
  (∃ (id : Nat) (s : State), s.Inv ∧ s.ready id o = true ∧ f (s.job id) ≠ .inl 0x81 ∧
    drbgReady s (s.job id).on false = none)

/-- The base point of P-256, as a peer sends it. -/
def basePoint : Bytes := [4] ++ natBe 32 (wCurve 1).gx ++ natBe 32 (wCurve 1).gy

theorem wit_Agreements : AgreeHyps .ecdh (fun j => ecdhOf (dAlg j.desc) j.keyMat j.got) ∧
    AgreeHyps .xdh (fun j => xdhOf (dAlg j.desc) j.keyMat j.got) ∧
    AgreeHyps .ecPointMulRaw (fun j => pointMul (dAlg j.desc) (dVariant j.desc == 1) j.got) := by
  unfold AgreeHyps State.Inv
  refine ⟨⟨⟨1, natBe 32 (wCurve 1).gx, live (mkDesc 0x0307 1 3 65 0) (natBe 32 1) basePoint,
        live (mkDesc 0x0307 1 3 65 0) (natBe 32 1) basePoint, ?_⟩,
      ⟨1, 0x81, {}, live (mkDesc 0x0307 1 3 65 0) (natBe 32 1) [], ?_⟩,
      ⟨1, unseeded (mkDesc 0x0307 1 3 65 0) (natBe 32 1) basePoint, ?_⟩⟩,
    ⟨⟨1, xdh 33 (zeros 32) (natLe 32 9), live (mkDesc 0x0308 33 3 32 0) (zeros 32) (natLe 32 9),
        live (mkDesc 0x0308 33 3 32 0) (zeros 32) (natLe 32 9), ?_⟩,
      ⟨1, 0x82, live (mkDesc 0x0308 33 3 32 0) (zeros 32) (zeros 32),
        live (mkDesc 0x0308 33 3 32 0) (zeros 32) (zeros 32), ?_⟩,
      ⟨1, unseeded (mkDesc 0x0308 33 3 32 0) (zeros 32) (natLe 32 9), ?_⟩⟩,
    ⟨⟨1, basePoint, live (mkDesc 0x030A 1 3 32 1) [] (natBe 32 1),
        live (mkDesc 0x030A 1 3 32 1) [] (natBe 32 1), ?_⟩,
      ⟨1, 0x81, {}, live (mkDesc 0x030A 1 3 97 0) [] (zeros 97), ?_⟩,
      ⟨1, unseeded (mkDesc 0x030A 1 3 32 1) [] (natBe 32 1), ?_⟩⟩⟩ <;> decide +kernel

theorem wit_LatticeJobs :
    (∃ (id h : Nat) (u s : State), s.Inv ∧ s.ready id .mlkemKeygen = true ∧ Served s id u ∧ RunHeld s id h) ∧
    (∃ (id h : Nat) (u s : State), s.Inv ∧ s.ready id .mldsaKeygen = true ∧ Served s id u ∧ RunHeld s id h) ∧
    (∃ (id h : Nat) (u s : State), s.Inv ∧ s.ready id .mlkemKeygen = true ∧ Served s id u ∧ (s.job
        id).reserved.head? = some h ∧ (s.ks.zeroising ≠ none ∨ (s.slot h).state ≠ .reserved)) ∧
    (∃ (id h : Nat) (u s : State), s.Inv ∧ s.ready id .mldsaKeygen = true ∧ Served s id u ∧ (s.job
        id).reserved.head? = some h ∧ (s.ks.zeroising ≠ none ∨ (s.slot h).state ≠ .reserved)) ∧
    (∃ (id : Nat) (u s : State), s.Inv ∧ s.ready id .mlkemEncap = true ∧ Served s id u ∧ kemEkOk (dAlg (s.job
        id).desc) (s.job id).got = true) ∧
    (∃ (id : Nat) (s : State), s.Inv ∧ s.ready id .mlkemEncap = true ∧ kemEkOk (dAlg (s.job id).desc) (s.job
        id).got = false) ∧
    (∃ (id : Nat) (u s : State), s.Inv ∧ s.ready id .mlkemDecap = true ∧ Served s id u) ∧
    (∃ (id : Nat) (mu rnd : Bytes) (u s : State), s.Inv ∧ s.ready id .mldsaSign = true ∧ Served s id u ∧ mu =
        (if 2 ≤ dVariant (s.job id).desc then (s.job id).got else dsaMu (dsaKeys (dAlg (s.job id).desc) (s.job
        id).keyMat).tr (s.job id).got) ∧ rnd = (if dVariant (s.job id).desc % 2 = 0 then Drawn s u id 32 else
        zeros 32)) ∧
    (∃ (id : Nat) (pk sig m mu : Bytes) (s : State), s.Inv ∧ s.ready id .mldsaVerify = true ∧ (s.job id).got =
        pk ++ sig ++ m ∧ pk.length = pubLen (dAlg (s.job id).desc) ∧ sig.length = sigLen (dAlg (s.job id).desc)
        ∧ mu = (if dVariant (s.job id).desc = 2 then m else dsaMu (shake256 pk 64) m)) := by
  unfold RunHeld Served State.Inv
  exact ⟨⟨1, 12480, held 0x0401 65, held 0x0401 65, by decide +kernel⟩,
    ⟨1, 12480, held 0x0404 81, held 0x0404 81, by decide +kernel⟩,
    ⟨1, 12480, { held 0x0401 65 with slots := [] }, { held 0x0401 65 with slots := [] }, by decide +kernel⟩,
    ⟨1, 12480, { held 0x0404 81 with slots := [] }, { held 0x0404 81 with slots := [] }, by decide +kernel⟩,
    ⟨1, live (mkDesc 0x0402 65 3 800 0) [] (zeros 800), live (mkDesc 0x0402 65 3 800 0) [] (zeros 800),
      by decide +kernel⟩,
    ⟨1, live (mkDesc 0x0402 65 3 800 0) [] (zeros 799), by decide +kernel⟩,
    ⟨1, live (mkDesc 0x0403 65 3 768 0) (zeros 64) (zeros 768),
      live (mkDesc 0x0403 65 3 768 0) (zeros 64) (zeros 768), by decide +kernel⟩,
    ⟨1, zeros 64, zeros 32, live (mkDesc 0x0405 81 3 64 3) (zeros 32) (zeros 64),
      live (mkDesc 0x0405 81 3 64 3) (zeros 32) (zeros 64), by decide +kernel⟩,
    ⟨1, zeros 1312, zeros 2420, [7], [7], live (mkDesc 0x0406 81 3 1 2) [] (zeros 3732 ++ [7]), by decide +kernel⟩⟩

theorem wit_KeyTransport :
    (∃ (id : Nat) (s : State), s.Inv ∧ served s id .keyWrap = true) ∧
    (∃ (id h : Nat) (s : State), s.Inv ∧ served s id .keyUnwrap = true ∧ RunHeld s id h) ∧
    (∃ (id : Nat) (s : State), s.Inv ∧ served s id .keyCheckValue = true) := by
  unfold RunHeld State.Inv
  exact ⟨⟨1, owns 0x0503 2 0, by decide +kernel⟩,
    ⟨1, 12480, held 0x0504 1, by decide +kernel⟩,
    ⟨1, owns 0x0505 2 0, by decide +kernel⟩⟩

theorem wit_KeyInvalidation :
    (∃ (id : Nat) (st : Status) (det : BitVec 8) (s : State), s.Inv ∧ s.hv.kclk = true ∧ s.ready id
        .keyInvalidate = true ∧ invalidateIssue s (s.job id).client (dKeySlot (s.job id).desc) = some (st,
        det)) ∧
    (∃ (id p : Nat) (s : State), s.Inv ∧ s.hv.kclk = true ∧ s.ready id .keyInvalidate = true ∧ invalidateIssue
        s (s.job id).client (dKeySlot (s.job id).desc) = none ∧ dKeySlot (s.job id).desc ≠ 0 ∧ s.slotPos (s.job
        id).client (dKeySlot (s.job id).desc) = some p ∧ s.held237 p = false) ∧
    (∃ (id c : Nat) (hrk : Bytes) (s : State), s.Inv ∧ s.hv.kclk = true ∧ s.ready id .keyInvalidate = true ∧
        (s.job id).client = c ∧ dKeySlot (s.job id).desc = 0 ∧ invalidateIssue s c 0 = none ∧ s.slotPos c 0 =
        some (spPos c) ∧ s.held237 (spPos c) = false ∧ s.ks.hrk = some hrk) ∧
    (∃ (id p : Nat) (s : State), s.Inv ∧ s.ready id .keyInvalidate = true ∧ invalidateIssue s (s.job id).client
        (dKeySlot (s.job id).desc) = none ∧ s.slotPos (s.job id).client (dKeySlot (s.job id).desc) = some p ∧
        s.held237 p = true) ∧
    (∃ (id : Nat) (st : Bytes) (s : State), s.Inv ∧ served s id .keyAttest = true ∧ st = statement (if (s.slot
        (s.job id).keyPos).pol 13 = true then retireSlot s (s.job id).keyPos else s) (s.job id) (s.job
        id).keyPos) := by
  unfold State.Inv
  exact ⟨⟨1, stPolicy, 0x03, owns 0x0506 1 0, by decide +kernel⟩,
    ⟨1, 12480, owns 0x0506 2 0, by decide +kernel⟩,
    ⟨1, 0, zeros 32,
      { owns 0x0506 0 0 with ks := { hrk := some (zeros 32) }, slots := [(1, { state := .valid, run := 1 })] },
      by decide +kernel⟩,
    ⟨1, 12480, owns 0x0506 2 0 { state := .valid, run := 1, adv := 16384 }, by decide +kernel⟩,
    ⟨1, _, owns 0x0507 2 0, by and_intros <;> first | decide +kernel | rfl⟩⟩

theorem wit_KeyCreation :
    (∃ (id h : Nat) (u s : State), s.Inv ∧ s.ready id .keyGenerate = true ∧ Served s id u ∧ RunHeld s id h ∧
        ktCurve (kbType (s.job id).desc) = false) ∧
    (∃ (id h : Nat) (r : Bytes) (u s : State), s.Inv ∧ s.ready id .keyGenerate = true ∧ Served s id u ∧ RunHeld
        s id h ∧ ktCurve (kbType (s.job id).desc) = true ∧ r = Generated s u id [if kbType (s.job id).desc %
        256 < 0x10 then NewLen (s.job id) + 8 else NewLen (s.job id)]) ∧
    (∃ (id h : Nat) (s : State), s.Inv ∧ served s id .keyDerive = true ∧ RunHeld s id h) ∧
    (∃ (id h : Nat) (u s : State), s.Inv ∧ s.ready id .keyAgreeToSlot = true ∧ Served s id u ∧ RunHeld s id h ∧
        0x41 ≤ dAlg (s.job id).desc) ∧
    (∃ (id h : Nat) (r : BitVec 8 ⊕ Bytes) (u s : State), s.Inv ∧ s.ready id .keyAgreeToSlot = true ∧ Served s
        id u ∧ RunHeld s id h ∧ dAlg (s.job id).desc < 0x41 ∧ r = (if dAlg (s.job id).desc < 0x10 then ecdhOf
        (dAlg (s.job id).desc) (s.job id).keyMat (s.job id).got else xdhOf (dAlg (s.job id).desc) (s.job
        id).keyMat (s.job id).got)) ∧
    (∃ (id : Nat) (z : Bytes) (u s : State), s.Inv ∧ s.ready id .keyAgreeToSlot = true ∧ Served s id u ∧ dAlg
        (s.job id).desc < 0x41 ∧ (if dAlg (s.job id).desc < 0x10 then ecdhOf (dAlg (s.job id).desc) (s.job
        id).keyMat (s.job id).got else xdhOf (dAlg (s.job id).desc) (s.job id).keyMat (s.job id).got) = .inr z) := by
  unfold RunHeld Served State.Inv
  exact ⟨⟨1, 12480, held 0x0501 0 (zeros 16 ++ [1, 0]), held 0x0501 0 (zeros 16 ++ [1, 0]), by decide +kernel⟩,
    ⟨1, 12480, Generated (held 0x0501 0 (zeros 16 ++ [1, 3])) (held 0x0501 0 (zeros 16 ++ [1, 3])) 1 [40],
      held 0x0501 0 (zeros 16 ++ [1, 3]), held 0x0501 0 (zeros 16 ++ [1, 3]), by decide +kernel⟩,
    ⟨1, 12480, held 0x0502 0 (zeros 16 ++ [1, 0]), by decide +kernel⟩,
    ⟨1, 12480, held 0x0508 0x41, held 0x0508 0x41, by decide +kernel⟩,
    ⟨1, 12480, .inl 0x81, held 0x0508 0x01, held 0x0508 0x01, by decide +kernel⟩,
    ⟨1, xdh 33 (zeros 32) (natLe 32 9), live (mkDesc 0x0508 33 3 32 0) (zeros 32) (natLe 32 9),
      live (mkDesc 0x0508 33 3 32 0) (zeros 32) (natLe 32 9), by decide +kernel⟩⟩

theorem wit_ContextBlobs :
    (∃ (id : Nat) (k : Ctx) (s : State), s.Inv ∧ served s id .ctxExport = true ∧ k = CtxOf s (s.job id) ∧
        ctxKind k.opcode = 0 ∧ (s.job id).clear = true) ∧
    (∃ (id : Nat) (ck : Bytes) (s : State), s.Inv ∧ served s id .ctxExport = true ∧ (ctxKind (CtxOf s (s.job
        id)).opcode ≠ 0 ∨ (s.job id).clear = false) ∧ laneShut s = false ∧ ctxKeyOf s (s.job id).client = some
        ck) ∧
    (∃ (id : Nat) (s : State), s.Inv ∧ served s id .ctxExport = true ∧ (ctxKind (CtxOf s (s.job id)).opcode ≠ 0
        ∨ (s.job id).clear = false) ∧ laneShut s = false ∧ ctxKeyOf s (s.job id).client = none) ∧
    (∃ (id : Nat) (s : State), s.Inv ∧ served s id .ctxExport = true ∧ (ctxKind (CtxOf s (s.job id)).opcode ≠ 0
        ∨ (s.job id).clear = false) ∧ laneShut s = true) ∧
    (∃ (id : Nat) (s : State), s.Inv ∧ served s id .ctxImport = true ∧ dMsg (s.job id).desc = 272) ∧
    (∃ (id : Nat) (ck : Bytes) (s : State), s.Inv ∧ served s id .ctxImport = true ∧ dMsg (s.job id).desc ≠ 272
        ∧ laneShut s = false ∧ ctxKeyOf s (s.job id).client = some ck) ∧
    (∃ (id : Nat) (s : State), s.Inv ∧ served s id .ctxImport = true ∧ dMsg (s.job id).desc ≠ 272 ∧ laneShut s
        = false ∧ ctxKeyOf s (s.job id).client = none) ∧
    (∃ (id : Nat) (s : State), s.Inv ∧ served s id .ctxImport = true ∧ dMsg (s.job id).desc ≠ 272 ∧ laneShut s
        = true) := by
  unfold State.Inv
  exact ⟨⟨1, { state := .held, opcode := 0x0201, alg := 3 },
      { wj { runs (mkDesc 0x0701 0 3 0 0 [] 0 1) with
          clear := true } with ctxs := [(1, { state := .held, opcode := 0x0201, alg := 3 })] },
      by decide +kernel⟩,
    ⟨1, zeros 32, owns 0x0701 0 0, by decide +kernel⟩,
    ⟨1, { owns 0x0701 0 0 with slots := [] }, by decide +kernel⟩,
    ⟨1, { owns 0x0701 0 0 with ks := { zeroising := some .substitution } }, by decide +kernel⟩,
    ⟨1, owns 0x0702 0 272, by decide +kernel⟩,
    ⟨1, zeros 32, owns 0x0702 0 280, by decide +kernel⟩,
    ⟨1, { owns 0x0702 0 280 with slots := [] }, by decide +kernel⟩,
    ⟨1, { owns 0x0702 0 280 with ks := { zeroising := some .command } }, by decide +kernel⟩⟩

theorem wit_KeyScrubbing :
    (∃ (s : State), s.Inv ∧ s.hv.kclk = true ∧ s.ks.scrubbing = false ∧ s.ks.scrubAt + s.ks.periodMs * 1200000
        ≤ s.hv.tick) ∧
    (∃ (s : State), s.Inv ∧ s.hv.kclk = true ∧ s.ks.scrubbing = true ∧ (s.slot s.ks.scrubPos).state = .valid ∧
        chainOk s s.ks.scrubPos = true ∧ s.ks.scrubPos + 1 < 524288) ∧
    (∃ (s : State), s.Inv ∧ s.hv.kclk = true ∧ s.ks.scrubbing = true ∧ (s.slot s.ks.scrubPos).state = .valid ∧
        chainOk s s.ks.scrubPos = false ∧ (s.slot s.ks.scrubPos).refs ≠ 0 ∧ s.ks.scrubPos + 1 < 524288) ∧
    (∃ (s : State), s.Inv ∧ s.hv.kclk = true ∧ s.ks.scrubbing = true ∧ ((s.slot s.ks.scrubPos).state = .invalid
        ∨ (s.slot s.ks.scrubPos).state = .orphan) ∧ (s.slot s.ks.scrubPos).refs = 0 ∧ runFrom s s.ks.scrubPos =
        [s.ks.scrubPos] ∧ s.ks.scrubPos + 1 < 524288) ∧
    (∃ (s : State), s.Inv ∧ s.hv.kclk = true ∧ s.ks.scrubbing = true ∧ s.ks.scrubPos = 524287) := by
  unfold State.Inv
  exact ⟨⟨at_ 12000000 (one act), by decide +kernel⟩,
    ⟨scrubs { state := .valid, run := 1 }, by decide +kernel⟩,
    ⟨scrubs { state := .valid, run := 1, sgen := 5, refs := 1 }, by decide +kernel⟩,
    ⟨scrubs { state := .invalid, run := 1 }, by decide +kernel⟩,
    ⟨{ one act with ks := { scrubbing := true, scrubPos := 524287 } }, by decide +kernel⟩⟩

theorem wit_Zeroisation :
    (∃ (s : State), Running s ∧ Up s) ∧
    (∃ (tr : ZTrigger) (s : State), s.Inv ∧ s.ks.zeroising = some tr ∧ s.hv.kclk = true ∧ s.ks.zPend = false ∧
        (tr = .tamper ∨ tr = .lifecycle)) ∧
    (∃ (b : Bytes) (test : Bool) (s : State), s.Inv ∧ s.ks.zeroising = some .command ∧ s.hv.kclk = true ∧
        s.ks.zPend = false ∧ s.aon.tampered = false ∧ (∀ c ∈ s.clients, isClient c = true) ∧ activeRoot s =
        .secret b test ∧ (s.ks.rootFail = false ∨ test = true)) ∧
    (∃ (b : Bytes) (s : State), s.Inv ∧ s.ks.zeroising = some .command ∧ s.hv.kclk = true ∧ s.ks.zPend = false
        ∧ s.aon.tampered = false ∧ activeRoot s = .secret b false ∧ s.ks.rootFail = true) := by
  unfold Up Running State.Inv
  exact ⟨⟨one act, by decide +kernel⟩,
    ⟨.tamper, { one act with ks := { zeroising := some .tamper } }, by decide +kernel⟩,
    ⟨bvBe 32 Config.testRoot, true, { one act with ks := { zeroising := some .command } },
      by and_intros <;> first | decide +kernel | rfl⟩,
    ⟨_,
      { one act with
          ks := { zeroising := some .command, rootFail := true }, lc := { word := 0x30001 },
          otp := { root := [{ intent := ⟨1, 1, 1⟩, done := ⟨1, 1, 1⟩ }] } },
      by and_intros <;> first | decide +kernel | rfl⟩⟩

theorem wit_KeyProvisioning :
    (∃ (s : State), Running s ∧ Up s ∧ s.ks.provRun = none ∧ s.ks.prov.op = 0 ∧ s.aon.tampered = false) ∧
    (∃ (s : State), Running s ∧ Up s ∧ s.ks.provRun = none ∧ s.ks.prov.op = 1 ∧ s.aon.tampered = false) ∧
    (∃ (s : State), Running s ∧ Up s ∧ s.ks.provRun = none ∧ s.ks.prov.op = 2 ∧ s.aon.tampered = false) ∧
    (∃ (s : State), Running s ∧ Up s ∧ s.ks.provRun = none ∧ s.ks.prov.op = 2 ∧ s.aon.tampered = true) ∧
    (∃ (s : State), Running s ∧ Up s ∧ s.ks.provRun = none ∧ s.ks.prov.op = 3 ∧ s.aon.tampered = false) ∧
    (∃ (s : State), Running s ∧ Up s ∧ s.ks.provRun = none ∧ s.ks.prov.op = 3 ∧ s.aon.tampered = true) ∧
    (∃ (s : State), Running s ∧ Up s ∧ (s.ks.provRun ≠ none ∨ s.ks.prov.op ≠ 3)) ∧
    (∃ (p : ProvCfg) (s : State), Running s ∧ s.ks.provRun = some p ∧ p.op ≠ 2 ∧ s.ks.provOut = [] ∧ laneShut s
        = true) ∧
    (∃ (p : ProvCfg) (st : Status) (d : BitVec 8) (s : State), Running s ∧ s.ks.provRun = some p ∧ p.op = 2 ∧
        invalidateIssue s p.client p.slot = some (st, d)) ∧
    (∃ (p : ProvCfg) (pos : Nat) (s : State), Running s ∧ s.ks.provRun = some p ∧ p.op = 2 ∧ p.slot ≠ 0 ∧
        invalidateIssue s p.client p.slot = none ∧ s.slotPos p.client p.slot = some pos ∧ s.held237 pos =
        false) ∧
    (∃ (p : ProvCfg) (c h : Nat) (rest : List Nat) (u s : State), GenerateServed p c u s ∧ ktCurve p.ktype =
        false ∧ bit p.policy.toNat 14 = false ∧ runSlots s p.client p.slot (runOf p.ktype) = some (h :: rest)) ∧
    (∃ (p : ProvCfg) (c h : Nat) (psk : Bytes) (rest : List Nat) (u s : State), GenerateServed p c u s ∧
        ktCurve p.ktype = false ∧ bit p.policy.toNat 14 = true ∧ s.ks.psk = some psk ∧ mramOn s = true ∧
        s.store.mram.length < 65536 ∧ runSlots s p.client p.slot (runOf p.ktype) = some (h :: rest)) ∧
    (∃ (p : ProvCfg) (c h tgt a x : Nat) (pasid : Option Nat) (key : Bytes × Bytes) (rest : List Nat) (u s :
        State), GenerateServed p c u s ∧ ktCurve p.ktype = true ∧ bit p.policy.toNat 14 = false ∧ runSlots s
        p.client p.slot (runOf p.ktype) = some (h :: rest) ∧ s.busMaster 0 = true ∧ allowed s 0 p.addr.toNat
        (provPublicLen p.ktype) true = true ∧ key = curveKey p.ktype (drbgGenerate u c (if p.ktype % 256 < 0x10
        then (keyLen p.ktype).getD 0 + 8 else (keyLen p.ktype).getD 0)).1 ∧ key.2 ≠ [] ∧ InPage p.addr.toNat
        key.2.length ∧ windowed s 0 p.addr.toNat key.2.length true = some (tgt, a, pasid) ∧ xlated s 0 tgt a
        pasid true = .to x) ∧
    (∃ (p : ProvCfg) (s : State), Running s ∧ s.ks.provRun = some p ∧ p.op = 0 ∧ s.ks.provOut = [] ∧ laneShut s
        = false ∧ ktCurve p.ktype = true ∧ allowed s 0 p.addr.toNat (provPublicLen p.ktype) true = false) ∧
    (∃ (p : ProvCfg) (b : Bytes) (s : State), PublicWaits p b s ∧ s.busMaster 0 = false) ∧
    (∃ (p : ProvCfg) (b : Bytes) (s : State), PublicWaits p b s ∧ s.busMaster 0 = true ∧ allowed s 0
        p.addr.toNat b.length true = false) ∧
    (∃ (p : ProvCfg) (tgt a : Nat) (pasid : Option Nat) (b : Bytes) (s : State), PublicWaits p b s ∧
        s.busMaster 0 = true ∧ InPage p.addr.toNat b.length ∧ windowed s 0 p.addr.toNat b.length true = some
        (tgt, a, pasid) ∧ xlated s 0 tgt a pasid true = .denied) ∧
    (∃ (p : ProvCfg) (h : Nat) (m key : Bytes) (rest : List Nat) (blob : Bytes) (s : State), UnwrapReads p s ∧
        isClient p.client = true ∧ parentOk s (trPos p.client) = true ∧ bit p.policy.toNat 14 = false ∧
        kwpUnwrap (s.slot ((s.slotPos 0 p.wrap).getD 0)).mat (fit blob p.len) = some m ∧ unwrapped 0 p.ktype
        p.policy.toNat m = some key ∧ runSlots s p.client p.slot (runOf p.ktype) = some (h :: rest)) ∧
    (∃ (p : ProvCfg) (s : State), UnwrapReads p s) ∧
    (∃ (s : State), s.Inv) := by
  unfold UnwrapReads GenerateServed PublicWaits Up InPage Running State.Inv
  exact ⟨⟨one act, by decide +kernel⟩,
    ⟨{ one act with ks := { prov := { op := 1 } } }, by decide +kernel⟩,
    ⟨{ one act with ks := { prov := { op := 2 } } }, by decide +kernel⟩,
    ⟨{ one act with ks := { prov := { op := 2 } }, aon := { tampered := true } }, by decide +kernel⟩,
    ⟨{ one act with ks := { prov := { op := 3 } } }, by decide +kernel⟩,
    ⟨{ one act with ks := { prov := { op := 3 } }, aon := { tampered := true } }, by decide +kernel⟩,
    ⟨one act, by decide +kernel⟩,
    ⟨provCfg 0,
      { provisions (provCfg 0) with ks := { (provisions (provCfg 0)).ks with zeroising := some .substitution } },
      by decide +kernel⟩,
    ⟨provCfg 2, stOrphaned, 0x04, { one act with ks := { provRun := some (provCfg 2) } }, by decide +kernel⟩,
    ⟨provCfg 2, 12480, { provisions (provCfg 2) with slots := [(12480, { state := .valid, run := 1 })] },
      by decide +kernel⟩,
    ⟨provCfg 0, 0, 12480, [], provisions (provCfg 0), provisions (provCfg 0),
      by and_intros <;> first | exact any_comb _ (by simp) | decide +kernel⟩,
    ⟨provKept, 0, 12480, zeros 32, [], provisions provKept, provisions provKept,
      by
        and_intros <;>
          first | with_reducible exact any_comb _ (by simp) | with_reducible exact kept_key_fits | decide +kernel⟩,
    ⟨provCurve, 0, 12480, 0, 0x2000, 0x2000, none, curveKey 0x321 (drbgGenerate (provisions provCurve) 0 32).1,
      [], provisions provCurve, provisions provCurve,
      by and_intros <;> first | exact any_comb _ (by simp) | decide +kernel⟩,
    ⟨provCurve, { provisions provCurve with tenants := [] }, by decide +kernel⟩,
    ⟨provCurve, [7], { publishes with fns := [] }, by decide +kernel⟩,
    ⟨provCurve, [7], { publishes with tenants := [] }, by decide +kernel⟩,
    ⟨provCurve, 0, 0x2000, none, [7],
      { publishes with
          fns := [(0, { bme := true, atsEn := true })], dma := { atc := [{ page := 2, rd := true }] } },
      by decide +kernel⟩,
    ⟨provCfg 1, 12480, kwPlain, zeros 16, [], kwBlob, provisions (provCfg 1), by decide +kernel⟩,
    ⟨provCfg 1, provisions (provCfg 1), by decide +kernel⟩,
    ⟨one act, by decide +kernel⟩⟩

theorem wit_HiveTime :
    (∃ (s : State), Running s ∧ s.pending = [] ∧ 9 ≤ s.hv.step) ∧
    (∃ (w : BitVec 128) (s : State), Running s ∧ 9 ≤ s.hv.step ∧ (bits w.toNat 87 82 ≠ 0 ∨ bits w.toNat 127 112
        ≠ 0 ∨ todSrc w ≤ 1)) ∧
    (∃ (w : BitVec 128) (s : State), WordUsed s w ∧ s.sync.h + s.sync.cfg.stepNs * 65536 < todTime w) ∧
    (∃ (w : BitVec 128) (s : State), WordUsed s w ∧ todTime w + s.sync.cfg.stepNs * 65536 < s.sync.h) ∧
    (∃ (w : BitVec 128) (s : State), WordUsed s w ∧ s.sync.frozen = false ∧ todTime w ≤ s.sync.h +
        s.sync.cfg.stepNs * 65536 ∧ s.sync.h ≤ todTime w + s.sync.cfg.stepNs * 65536 ∧ s.sync.state = 1) ∧
    (∃ (w : BitVec 128) (s : State), WordUsed s w ∧ s.sync.frozen = false ∧ todTime w ≤ s.sync.h +
        s.sync.cfg.stepNs * 65536 ∧ s.sync.h ≤ todTime w + s.sync.cfg.stepNs * 65536 ∧ s.sync.state = 1 ∧
        s.sync.locked = 15 ∧ todSrc w = 3 ∧ (todPs s w).natAbs ≤ s.sync.cfg.lockNs * 1000 ∧ (todPs s w).natAbs
        + todEst w * 1000 + 2000 ≤ s.sync.cfg.maxErrNs * 1000 ∧ ppsFails s = false) ∧
    (∃ (s : State), Running s ∧ s.sync.frozen = true ∧ s.sync.freezeLeft ≤ 0) ∧
    (∃ (t0 : Nat) (s : State), Running s ∧ s.sync.lastAt = some t0 ∧ s.sync.lost = false ∧ t0 + 4800 ≤
        s.hv.tick ∧ s.sync.state = 2 ∧ boundOk s = true ∧ ppsFails s = false) ∧
    (∃ (t0 : Nat) (s : State), Running s ∧ s.sync.lastAt = some t0 ∧ s.sync.lost = false ∧ t0 + 4800 ≤
        s.hv.tick ∧ s.sync.state = 1) ∧
    (∃ (s : State), Running s ∧ (s.sync.state = 2 ∨ s.sync.state = 3) ∧ boundOk s = false) ∧
    (∃ (t0 : Nat) (s : State), Running s ∧ s.sync.ppsUsed = some t0 ∧ s.hv.tick < t0 + 600000000) ∧
    (∃ (s : State), Running s ∧ (∀ t0, s.sync.ppsUsed = some t0 → t0 + 600000000 ≤ s.hv.tick)) ∧
    (∃ (off : Int) (s : State), EdgeWaits s off ∧ s.sync.cfg.ppsEn = false) ∧
    (∃ (off : Int) (s : State), EdgeWaits s off ∧ s.sync.cfg.ppsEn = true ∧ off.natAbs ≤ s.sync.cfg.limitNs *
        1000) ∧
    (∃ (off : Int) (s : State), EdgeWaits s off ∧ s.sync.cfg.ppsEn = true ∧ s.sync.cfg.limitNs * 1000 <
        off.natAbs ∧ (s.sync.ppsAt = none ∨ s.sync.ppsBad = false)) ∧
    (∃ (t0 : Nat) (off : Int) (s : State), EdgeWaits s off ∧ s.sync.cfg.ppsEn = true ∧ s.sync.cfg.limitNs *
        1000 < off.natAbs ∧ s.sync.ppsAt = some t0 ∧ s.sync.ppsBad = true) ∧
    (∃ (t0 : Nat) (s : State), Running s ∧ s.sync.ppsAt = some t0 ∧ s.sync.ppsEdge = none ∧ s.sync.cfg.ppsEn =
        true ∧ t0 + 1800000000 ≤ s.hv.tick) := by
  unfold EdgeWaits WordUsed Running State.Inv
  exact ⟨⟨one act, by decide +kernel⟩,
    ⟨0, one act, by decide +kernel⟩,
    ⟨tod 65536 3 0, one act, by decide +kernel⟩,
    ⟨tod 0 3 0, { one act with sync := { h := 65536 } }, by decide +kernel⟩,
    ⟨tod 0 3 0, { one act with sync := { state := 1 } }, by decide +kernel⟩,
    ⟨tod 0 3 0, { one act with sync := { state := 1, locked := 15, cfg := { hold := 0x20000 } } },
      by decide +kernel⟩,
    ⟨{ one act with sync := { frozen := true } }, by decide +kernel⟩,
    ⟨0, at_ 4800 { one act with sync := { lastAt := some 0, state := 2, cfg := { hold := 0x20000 } } },
      by decide +kernel⟩,
    ⟨0, at_ 4800 { one act with sync := { lastAt := some 0, state := 1 } }, by decide +kernel⟩,
    ⟨{ one act with sync := { state := 2 } }, by decide +kernel⟩,
    ⟨0, at_ 599999999 { one act with sync := { ppsUsed := some 0 } }, by decide +kernel⟩,
    ⟨at_ 600000000 { one act with sync := { ppsUsed := some 0 } }, by decide +kernel,
      fun t0 h => by injection h with h; subst h; decide⟩,
    ⟨0, { one act with sync := { ppsEdge := some 0 } }, by decide +kernel⟩,
    ⟨0, { one act with sync := { ppsEdge := some 0, cfg := { pps := 1 } } }, by decide +kernel⟩,
    ⟨1000, { one act with sync := { ppsEdge := some 1000, cfg := { pps := 1 } } }, by decide +kernel⟩,
    ⟨0, 1000,
      { one act with
          sync := { ppsEdge := some 1000, ppsAt := some 0, ppsBad := true, state := 2, cfg := { pps := 1 } } },
      by decide +kernel⟩,
    ⟨0, at_ 1800000000 { one act with sync := { ppsAt := some 0, cfg := { pps := 1 } } }, by decide +kernel⟩⟩

theorem wit_EpochsAndLogs :
    (∃ (s : State), s.Inv ∧ closeDue s = true) ∧
    (∃ (s : State), s.wg.eres ≤ s.wg.epoch + 1) ∧
    (∃ (e : Nat) (s : State), Running s ∧ mramOn s = true ∧ s.wg.eresNext = some e ∧ s.ks.testRoot = false) ∧
    (∃ (s : State), Running s ∧ Up s ∧ s.keeperOk = true ∧ ckptDue s = true ∧ mramOn s = true ∧ s.ks.testRoot =
        false ∧ s.wg.lastRec ≠ []) ∧
    (∃ (s : State), Running s ∧ Up s ∧ s.keeperOk = true ∧ ckptDue s = true ∧ mramOn s = false) ∧
    (∃ (s : State), Running s ∧ s.hv.ready = true ∧ s.wg.ckptLate = false ∧ s.wg.anchorAt + 2 * s.wg.ckptS *
        1200000000 < s.hv.tick) ∧
    (∃ (s : State), Running s ∧ s.hv.ready = true ∧ s.wg.mlog.held = []) ∧
    (∃ (c : Nat) (s : State), Running s ∧ isClient c = true ∧ s.exists_ c = true ∧ fnReachable s c = true ∧
        (s.tenant c).rlog.held = []) := by
  unfold Up Running State.Inv
  exact ⟨⟨{ one act with wg := { isOpen := true, signer := true, eres := 2 } }, by decide +kernel⟩,
    ⟨{ one act with wg := { epoch := 1, eres := 2 } }, by decide +kernel⟩,
    ⟨7, { one act with wg := { eresNext := some 7 } }, by decide +kernel⟩,
    ⟨at_ 1200000000 { one act with wg := { ckptS := 1, lastRec := zeros 32 } }, by decide +kernel⟩,
    ⟨at_ 1200000000 { one act with wg := { ckptS := 1, lastRec := zeros 32 }, aon := { low := 0x10 } },
      by decide +kernel⟩,
    ⟨at_ 2400000001 { one act with wg := { ckptS := 1 } }, by decide +kernel⟩,
    ⟨one act, by decide +kernel⟩,
    ⟨0, one act, by decide +kernel⟩⟩

theorem wit_ReceiptsEnabled :
    (∃ (id : Nat) (s : State), Running s ∧ s.hasJob id = true ∧ (s.job id).stage = .cellDone ∧ ¬ ((s.tenant
        (s.job id).client).wgT.enable = true ∧ s.wg.signer = true) ∧ (s.job id).isLeaf = false) ∧
    (∃ (id : Nat) (s : State), Running s ∧ s.hasJob id = true ∧ (s.job id).stage = .cellDone ∧ (s.tenant (s.job
        id).client).wgT.enable = true ∧ s.wg.signer = true ∧ (s.job id).wantsLeaf = true ∧ (s.job id).record =
        [] ∧ (s.job id).output.length ≤ (s.job id).written) := by
  unfold Running State.Inv
  exact ⟨⟨1, wj { desc := mkDesc 0x0201 3 7 0 0, stage := .cellDone, record := zeros 64 }, by decide +kernel⟩,
    ⟨1,
      { wj { desc := mkDesc 0x0201 3 7 0 0, stage := .cellDone } with
          wg := { signer := true }, tenants := [(0, { state := 1, wgT := { enable := true } })] },
      by decide +kernel⟩⟩

theorem wit_TenantAdministration :
    (∃ (a : AdmCfg) (s : State), AdmFree s ∧ s.adm.shadow = a ∧ a.op = 1 ∧ admIssue s a = 0) ∧
    (∃ (a : AdmCfg) (s : State), AdmFree s ∧ s.adm.shadow = a ∧ a.op = 2 ∧ admIssue s a = 0 ∧ fences s a =
        false) ∧
    (∃ (a : AdmCfg) (s : State), AdmFree s ∧ s.adm.shadow = a ∧ a.op = 2 ∧ admIssue s a = 0 ∧ fences s a =
        true) ∧
    (∃ (a : AdmCfg) (s : State), FenceJudged a s ∧ inUse s a = false) ∧
    (∃ (a : AdmCfg) (s : State), FenceJudged a s ∧ inUse s a = true) ∧
    (∃ (a : AdmCfg) (s : State), AdmFree s ∧ s.adm.shadow = a ∧ a.op = 3 ∧ admIssue s a = 0) ∧
    (∃ (s : State), AdmFree s ∧ admIssue s s.adm.shadow ≠ 0) ∧
    (∃ (a : AdmCfg) (s : State), Running s ∧ s.adm.running = some a ∧ s.adm.fenced = none ∧ s.adm.offeredAt +
        12000000 ≤ s.hv.tick) ∧
    (∃ (c : Nat) (s : State), Running s ∧ (s.tenant c).state = 3 ∧ (s.tenant c).orphaned = true ∧ (∀ p ∈
        granuleSlots (s.tenant c).granules, (s.slot p).state = .empty)) := by
  unfold FenceJudged AdmFree QuietEdge BareEdge Running State.Inv
  exact ⟨⟨creates, { one act with adm := { shadow := creates }, tenants := [] }, by decide +kernel⟩,
    ⟨grows, { one act with adm := { shadow := grows }, tenants := [(5, { state := 1, queues := 1 })] },
      by decide +kernel⟩,
    ⟨grows,
      { one act with adm := { shadow := grows }, tenants := [(5, { state := 1, queues := 1, ctxGran := 1 })] },
      by decide +kernel⟩,
    ⟨grows,
      { one act with
          adm := { running := some grows, fenced := some grows },
          tenants := [(5, { state := 1, queues := 1, ctxGran := 1 })] },
      by
        and_intros <;> first
          | decide +kernel
          | exact Or.inr nofun
          | exact fun id h => by simp [mayAssign, State.hasJob, one] at h⟩,
    ⟨grows,
      { one act with
          adm := { running := some grows, fenced := some grows },
          tenants := [(5, { state := 1, queues := 1, ctxGran := 1 })],
          ctxs := [(655360, { state := .opened })] },
      by
        and_intros <;> first
          | decide +kernel
          | exact Or.inr nofun
          | exact fun id h => by simp [mayAssign, State.hasJob, one] at h⟩,
    ⟨{ op := 3, client := 5 },
      { one act with adm := { shadow := { op := 3, client := 5 } }, tenants := [(5, { state := 1, queues := 1 })] },
      by decide +kernel⟩,
    ⟨{ one act with adm := { shadow := grows }, tenants := [] }, by decide +kernel⟩,
    ⟨creates, at_ 12000000 { one act with adm := { running := some creates }, tenants := [] }, by decide +kernel⟩,
    ⟨5, { one act with tenants := [(5, { state := 3, orphaned := true, granules := [0] })] }, by decide +kernel⟩⟩

theorem wit_WindowBanks :
    (∃ (s : State), Running s ∧ s.hv.ready = true ∧ isClient (dmawClient s) = true ∧ s.exists_ (dmawClient s) =
        true ∧ (s.tenant (dmawClient s)).win.flip = .none ∧ dmawBank s ≠ (s.tenant (dmawClient s)).win.active) ∧
    (∃ (s : State), Running s ∧ s.hv.ready = true ∧ isClient (dmawClient s) = true ∧ s.exists_ (dmawClient s) =
        true ∧ ((s.tenant (dmawClient s)).win.flip ≠ .none ∨ dmawBank s = (s.tenant (dmawClient
        s)).win.active)) ∧
    (∃ (c : Nat) (s : State), Running s ∧ s.hv.ready = true ∧ isClient c = true ∧ s.exists_ c = true) ∧
    (∃ (c : Nat) (s : State), Running s ∧ (s.tenant c).win.flip = .asked) ∧
    (∃ (c : Nat) (s : State), Running s ∧ (s.tenant c).win.flip = .draining ∧ bankBusy s c (!(s.tenant
        c).win.active) = false) ∧
    (∃ (s : State), Running s ∧ s.hv.ready = true) ∧
    (∃ (s : State), Running s ∧ s.hi.wttFlip = .asked ∧ heldReads s = false) ∧
    (∃ (s : State), Running s ∧ s.hi.wttFlip = .asked ∧ heldReads s = true) ∧
    (∃ (s : State), Running s ∧ s.hi.wttFlip = .draining ∧ heldReads s = false) := by
  unfold Running State.Inv
  exact ⟨⟨{ one act with adm := { dmawSel := 0x2000 } }, by decide +kernel⟩,
    ⟨one act, by decide +kernel⟩,
    ⟨0, one act, by decide +kernel⟩,
    ⟨0, tn { win := { flip := .asked } }, by decide +kernel⟩,
    ⟨0, tn { win := { flip := .draining } }, by decide +kernel⟩,
    ⟨one act, by decide +kernel⟩,
    ⟨{ one act with hi := { wttFlip := .asked } }, by decide +kernel⟩,
    ⟨{ one act with hi := { wttFlip := .asked }, hv := { hvUp with heldCmds := [.mbK2hMsgRead 0] } },
      by decide +kernel⟩,
    ⟨{ one act with hi := { wttFlip := .draining } }, by decide +kernel⟩⟩

theorem wit_Mailboxes :
    (∃ (c : Nat) (s : State), Running s ∧ s.hv.pwr = 0 ∧ mailOpen s c = true) ∧
    (∃ (c : Nat) (s : State), MessageWaits s c ∧ 16 ≤ (s.tenant c).mb.replies) ∧
    (∃ (c : Nat) (s : State), MessageWaits s c ∧ (s.tenant c).mb.read = none ∧ (s.tenant c).mb.replies < 16 ∧
        mailMalformed (s.tenant c).mb.h2kMsg = true ∧ (s.tenant c).mb.poolN ≠ 0) ∧
    (∃ (c : Nat) (s : State), MessageWaits s c ∧ (s.tenant c).mb.read = none ∧ (s.tenant c).mb.replies < 16 ∧
        mailMalformed (s.tenant c).mb.h2kMsg = false ∧ 4096 < (s.tenant c).mb.h2kLen ∧ (s.tenant c).mb.poolN ≠
        0) ∧
    (∃ (c : Nat) (s : State), MessageTaken s c ∧ ((s.tenant c).mb.h2kLen = 0 ∨ bodyRead s c = .issued)) ∧
    (∃ (c : Nat) (s : State), MessageTaken s c ∧ (s.tenant c).mb.h2kLen ≠ 0 ∧ bodyRead s c = .waits) ∧
    (∃ (c : Nat) (read : ReadEnd) (s : State), MessageTaken s c ∧ (s.tenant c).mb.h2kLen ≠ 0 ∧ (bodyRead s c =
        .refused ∨ bodyRead s c = .denied ∨ bodyRead s c = .issued ∧ read ≠ .ok) ∧ (s.tenant c).mb.poolN ≠ 0) ∧
    (∃ (c : Nat) (r : MailRead) (b : Bytes) (s : State), Running s ∧ s.keeperOk = true ∧ (s.tenant c).mb.read =
        some r ∧ r.body = some b ∧ r.epoch = (s.tenant c).mb.fepoch ∧ mailType r.word = 1 ∧ (s.tenant
        c).mb.poolN ≠ 0) ∧
    (∃ (c : Nat) (r : MailRead) (b : Bytes) (s : State), Running s ∧ s.keeperOk = true ∧ (s.tenant c).mb.read =
        some r ∧ r.body = some b ∧ r.epoch = (s.tenant c).mb.fepoch ∧ mailType r.word ≠ 1 ∧ (s.tenant
        c).mb.poolN ≠ 0) ∧
    (∃ (c : Nat) (h : Mail) (rest : List Mail) (s : State), PostDue s c h rest ∧ h.body = []) ∧
    (∃ (c tgt a x : Nat) (pasid : Option Nat) (h : Mail) (rest : List Mail) (s : State), PostDue s c h rest ∧
        h.body ≠ [] ∧ InPage (bufferAt s c).toNat h.body.length ∧ windowed s c (bufferAt s c).toNat
        h.body.length true = some (tgt, a, pasid) ∧ xlated s c tgt a pasid true = .to x) := by
  unfold PostDue MessageTaken MessageWaits InPage Running State.Inv
  exact ⟨⟨0, one act, by decide +kernel⟩,
    ⟨0, mail { h2kFull := true, held := List.replicate 16 { word := 0x100 } }, by decide +kernel⟩,
    ⟨0, mail { h2kFull := true, h2kMsg := 0x100 }, by decide +kernel⟩,
    ⟨0, mail { h2kFull := true, h2kMsg := 2, h2kLen := 4097 }, by decide +kernel⟩,
    ⟨0, mail { h2kFull := true, h2kMsg := 2, h2kAddr := 0x2000, h2kLen := 4096 }, by decide +kernel⟩,
    ⟨0, { mail { h2kFull := true, h2kMsg := 2, h2kAddr := 0x2000, h2kLen := 4096 } with fns := [] },
      by decide +kernel⟩,
    ⟨0, .error, mail { h2kFull := true, h2kMsg := 2, h2kAddr := 0x2000, h2kLen := 4096 }, by decide +kernel⟩,
    ⟨0, { word := 1, body := some [] }, [], mail { read := some { word := 1, body := some [] } }, by decide +kernel⟩,
    ⟨0, { word := 2, body := some [] }, [], mail { read := some { word := 2, body := some [] } }, by decide +kernel⟩,
    ⟨0, {}, [], mail { held := [{}] }, by decide +kernel⟩,
    ⟨0, 0, 0x8000, 0x8000, none, { body := [7] }, [], mail { held := [{ body := [7] }] }, by decide +kernel⟩⟩

theorem wit_FunctionStates :
    (∃ (fn : Nat) (s : State), Running s ∧ fnPresent s fn = true ∧ (s.func fn).flr = 0 ∧ (s.func fn).bme =
        true) ∧
    (∃ (fn : Nat) (s : State), Running s ∧ fnPresent s fn = true ∧ (s.func fn).flr = 0) ∧
    (∃ (fn : Nat) (s : State), Running s ∧ fnPresent s fn = true ∧ (s.func fn).flr = 0) ∧
    (∃ (fn : Nat) (s : State), Running s ∧ isFn fn = true ∧ (s.func fn).flr = 1 ∧ (∀ e ∈ s.reqs, e.2.client ≠
        fn) ∧ s.held237 (spPos fn) = false) ∧
    (∃ (fn : Nat) (s : State), Running s ∧ (s.func fn).flr = 2) ∧
    (∃ (s : State), Running s ∧ fnPresent s 0 = true ∧ (s.func 0).flr = 0 ∧ (s.func 0).d3hot = false) ∧
    (∃ (s : State), Running s ∧ fnPresent s 0 = true ∧ (s.func 0).d3hot = true) ∧
    (∃ (s : State), Running s ∧ fnPresent s 0 = true ∧ (s.func 0).flr = 0 ∧ s.cap.vfEnable = true ∧ s.rom =
        false) := by
  unfold Running State.Inv
  exact ⟨⟨0, one act, by decide +kernel⟩,
    ⟨0, one act, by decide +kernel⟩,
    ⟨3, { one act with cap := { vfEnable := true, numVfs := 3 } }, by decide +kernel⟩,
    ⟨0, { one act with fns := [(0, { flr := 1 })] }, by decide +kernel⟩,
    ⟨0, { one act with fns := [(0, { flr := 2 })] }, by decide +kernel⟩,
    ⟨one act, by decide +kernel⟩,
    ⟨{ one act with fns := [(0, { d3hot := true })] }, by decide +kernel⟩,
    ⟨{ one act with cap := { vfEnable := true } }, by decide +kernel⟩⟩

theorem wit_Vectors :
    (∃ (c v : Nat) (s : State), Running s ∧ v ∈ (s.func c).due ∧ (tblGet {} (s.func c).imod v).next ≤ s.hv.tick
        ∧ v < 2048 ∧ mayInterrupt s c v = true) ∧
    (∃ (c v : Nat) (s : State), Running s ∧ v ∈ (s.func c).due ∧ (tblGet {} (s.func c).imod v).next ≤ s.hv.tick
        ∧ v < 2048 ∧ mayInterrupt s c v = false) ∧
    (∃ (c v : Nat) (s : State), Running s ∧ v ∈ (s.func c).due ∧ s.hv.tick < (tblGet {} (s.func c).imod
        v).next) ∧
    (∃ (c v : Nat) (s : State), Running s ∧ (tblGet {} (s.func c).imod v).merged = true ∧ (tblGet {} (s.func
        c).imod v).next ≤ s.hv.tick ∧ mayInterrupt s c v = true) ∧
    (∃ (c v : Nat) (s : State), Running s ∧ isFn c = true ∧ s.hv.ready = true ∧ fnReachable s c = true ∧ v <
        (s.tenant c).vectors ∧ s.fencedVec c v = false) ∧
    (∃ (c : Nat) (s : State), Running s ∧ isFn c = true ∧ s.hv.ready = true ∧ (s.func c).flr = 0) ∧
    (∃ (s : State), Running s ∧ s.hv.ready = true ∧ s.hi.idle = false ∧ linkBusy s = false ∧ s.hi.busyAt + 1200
        * s.hi.idleUs ≤ s.hv.tick ∧ s.cap.ltrEn = true ∧ s.hi.ltrSent = none) := by
  unfold Running State.Inv
  exact ⟨⟨0, 0,
      { one act with
          fns := [(0, { bme := true, msixEn := true, due := [0], msix := [(0, { masked := false })] })] },
      by decide +kernel⟩,
    ⟨0, 0, { one act with fns := [(0, { bme := true, due := [0], msix := [(0, { masked := false })] })] },
      by decide +kernel⟩,
    ⟨0, 0,
      { one act with
          fns := [(0, { bme := true, msixEn := true, due := [0], msix := [(0, { masked := false })],
                        imod := [(0, { next := 5 })] })] },
      by decide +kernel⟩,
    ⟨0, 0,
      { one act with
          fns := [(0, { bme := true, msixEn := true, msix := [(0, { masked := false })],
                        imod := [(0, { merged := true })] })] },
      by decide +kernel⟩,
    ⟨0, 0, one act, by decide +kernel⟩,
    ⟨0, one act, by decide +kernel⟩,
    ⟨{ one act with cap := { ltrEn := true } }, by decide +kernel⟩⟩

theorem wit_PeerPackets :
    (∃ (w : PeerWord) (s : State), GoodWord s w ∧ w.sop = true ∧ w.eop = true ∧ tblGet none s.peer.open_ w.prio
        = none ∧ s.peer.resetBusy ≠ some w.client ∧ storeUsed s < 131072) ∧
    (∃ (w : PeerWord) (s : State), GoodWord s w ∧ w.sop = true ∧ tblGet none s.peer.open_ w.prio = none ∧
        s.peer.resetBusy ≠ some w.client ∧ 131072 ≤ storeUsed s) ∧
    (∃ (w : PeerWord) (s : State), GoodWord s w ∧ w.sop = false ∧ w.prio ∉ s.peer.discard ∧ tblGet none
        s.peer.open_ w.prio = none) ∧
    (∃ (s : State), Running s ∧ s.coreOff = true) ∧
    (∃ (k : Nat) (cause : BitVec 8) (s : State), Running s ∧ readerChoice s = some k ∧ checkPacket s (tblGet {}
        s.peer.packets k) = .inl cause ∧ egressUsed s + 64 ≤ 2097152 ∧ (queueWindow s ((tblGet {}
        s.peer.packets k).client + 4096) (peerQueueBase + (tblGet {} s.peer.packets k).prio)).length < 256) ∧
    (∃ (k : Nat) (o : Op) (d : Bytes) (s : State), Running s ∧ readerChoice s = some k ∧ checkPacket s (tblGet
        {} s.peer.packets k) = .inr (o, d) ∧ s.aon.tampered = false) ∧
    (∃ (k : Nat) (ecc : List Nat) (s : State), Running s ∧ readerChoice s = some k ∧ (∃ i ∈ ecc, i < (tblGet {}
        s.peer.packets k).words.length)) ∧
    (∃ (s : State), Running s ∧ s.hv.ready = true) ∧
    (∃ (e : Egress) (s : State), Running s ∧ s.peer.order.find? (·.started) = some e) ∧
    (∃ (n : Notice) (rest : List Notice) (s : State), Running s ∧ s.peer.order.find? (·.started) = none ∧
        s.peer.notices = n :: rest) ∧
    (∃ (e : Egress) (s : State), Running s ∧ s.peer.order.find? (·.started) = none ∧ s.peer.notices = [] ∧
        egressChoice s = some e) ∧
    (∃ (e : Egress) (s : State), Running s ∧ s.peer.order.find? (·.started) = some e ∧ s.peer.stall = false) ∧
    (∃ (p : Nat) (s : State), Running s ∧ s.hv.ready = true ∧ s.peer.resetBusy = none ∧ p < 64) ∧
    (∃ (p : Nat) (s : State), Running s ∧ s.peer.resetBusy = some p ∧ s.held237 (spPos (p + 4096)) = false) := by
  unfold GoodWord Running State.Inv
  exact ⟨⟨wordIn true, one act, by decide +kernel⟩,
    ⟨wordIn true, { one act with peer := { packets := [(0, { client := 63, words := full })] } },
      by and_intros <;> first | exact full_used | decide +kernel⟩,
    ⟨wordIn false, one act, by decide +kernel⟩,
    ⟨{ one act with aon := { low := 1 } }, by decide +kernel⟩,
    ⟨0, 0x90, { one act with peer := { packets := [(0, { mark := .noTenant, ready := some 0 })] } },
      by decide +kernel⟩,
    ⟨0, .nop, nopSlot,
      { one act with peer := { packets := [(0, { ready := some 0, nbytes := 64, words := [(nopSlot, false)] })] } },
      by decide +kernel⟩,
    ⟨0, [0],
      { one act with peer := { packets := [(0, { ready := some 0, nbytes := 64, words := [(nopSlot, false)] })] } },
      by decide +kernel⟩,
    ⟨one act, by decide +kernel⟩,
    ⟨{ started := true }, { one act with peer := { order := [{ started := true }] } }, by decide +kernel⟩,
    ⟨{}, [], { one act with peer := { notices := [{}] } }, by decide +kernel⟩,
    ⟨{ ready := true, bytes := [7] }, { one act with peer := { order := [{ ready := true, bytes := [7] }] } },
      by decide +kernel⟩,
    ⟨{ started := true }, { one act with peer := { order := [{ started := true }] } }, by decide +kernel⟩,
    ⟨63, one act, by decide +kernel⟩,
    ⟨0, { one act with peer := { resetBusy := some 0 } }, by decide +kernel⟩⟩

theorem wit_SpdmResponses :
    (∃ (n : Nat) (s : State), DoeFree s ∧ n < 2) ∧
    (∃ (s : State), DoeFree s) ∧
    (∃ (s : State), DoeFree s ∧ s.doe.ver = true) ∧
    (∃ (a b : Bool) (s : State), DoeFree s ∧ s.doe.ver = true ∧ s.doe.caps = true ∧ a ≠ b) ∧
    (∃ (s : State), DoeFree s ∧ s.doe.ver = true ∧ s.doe.caps = true) ∧
    (∃ (s : State), DoeFree s ∧ negotiated s = true) ∧
    (∃ (c : SpdmChallenge) (sig : Bytes) (s : State), DoeFree s ∧ negotiated s = true ∧ s.aon.tampered = false
        ∧ c.slot = 0 ∧ spdmSign s = some sig) ∧
    (∃ (s : State), DoeFree s ∧ negotiated s = true ∧ s.aon.tampered = true) ∧
    (∃ (i : Nat) (s : State), DoeFree s ∧ negotiated s = true ∧ 1 ≤ i ∧ i ≤ 5) ∧
    (∃ (i : Nat) (sig : Bytes) (s : State), DoeFree s ∧ negotiated s = true ∧ s.aon.tampered = false ∧ 1 ≤ i ∧
        i ≤ 5 ∧ spdmSign s = some sig) ∧
    (∃ (s : State), DoeFree s ∧ negotiated s = false) ∧
    (∃ (s : State), Running s ∧ doeOpen s = true) := by
  unfold DoeFree Running State.Inv
  exact ⟨⟨1, one act, by decide +kernel⟩,
    ⟨one act, by decide +kernel⟩,
    ⟨{ one act with doe := { ver := true } }, by decide +kernel⟩,
    ⟨true, false, { one act with doe := { ver := true, caps := true } }, by decide +kernel⟩,
    ⟨{ one act with doe := { ver := true, caps := true } }, by decide +kernel⟩,
    ⟨agreed, by decide +kernel⟩,
    ⟨⟨0, []⟩, edSign 0x11 false (zeros 32) (Config.spdmTranscript 0), agreed,
      by and_intros <;> first | exact agreed_signs | decide +kernel⟩,
    ⟨{ agreed with aon := { tampered := true } }, by decide +kernel⟩,
    ⟨5, agreed, by decide +kernel⟩,
    ⟨5, edSign 0x11 false (zeros 32) (Config.spdmTranscript 0), agreed,
      by and_intros <;> first | exact agreed_signs | decide +kernel⟩,
    ⟨one act, by decide +kernel⟩,
    ⟨one act, by decide +kernel⟩⟩

theorem wit_MctpEndpoint :
    (∃ (eid : BitVec 8) (s : State), MctpUp s ∧ eid ≠ 0 ∧ eid ≠ 0xFF) ∧
    (∃ (s : State), MctpUp s) ∧
    (∃ (kind index : Nat) (w : W32) (s : State), MctpUp s ∧ stateWord s kind index = some w) ∧
    (∃ (kind index : Nat) (s : State), MctpUp s ∧ stateWord s kind index = none) ∧
    (∃ (s : State), MctpUp s ∧ s.ev.mctpWr = false) ∧
    (∃ (comb : Nat) (word : W32) (s : State), MctpUp s ∧ s.ev.mctpWr = true ∧ comb < combCount ∧ bits
        word.toNat 3 0 = 1 ∧ BitVec.ofNat 16 (word.toNat / 65536) = (s.comb comb).gen ∧ ((s.comb comb).mode = 3
        ∨ (s.comb comb).mode = 5)) ∧
    (∃ (pool c q : Nat) (word : W64) (s : State), MctpUp s ∧ s.ev.mctpWr = true ∧ poolOwner s pool = some (c,
        q) ∧ bits word.toNat 3 0 = 2 ∧ CommandTaken s c q 2 (BitVec.ofNat 11 (bits word.toNat 31 21)) .mctp) ∧
    (∃ (pool : Nat) (s : State), MctpUp s ∧ s.ev.mctpWr = true ∧ poolOwner s pool = none) ∧
    (∃ (s : State), MctpUp s ∧ s.ev.mctpWr = true) := by
  unfold MctpUp CommandTaken Running State.Inv
  exact ⟨⟨1, mctp, by decide +kernel⟩,
    ⟨mctp, by decide +kernel⟩,
    ⟨3, 0, (tn {}).tenant 0 |>.word, mctp, by decide +kernel⟩,
    ⟨4, 0, mctp, by decide +kernel⟩,
    ⟨mctp, by decide +kernel⟩,
    ⟨0, 1, { writable with combs := [(0, { mode := 3 })] }, by decide +kernel⟩,
    ⟨9, 0, 0, 2, { writable with tenants := [(0, { state := 1, queues := 1, qmap := [(0, some 9)] })] },
      by decide +kernel⟩,
    ⟨9, writable, by decide +kernel⟩,
    ⟨writable, by decide +kernel⟩⟩

theorem wit_EventLog :
    (∃ (src tgt a a0 x : Nat) (pasid : Option Nat) (b : Bytes) (s : State), Running s ∧ s.ev.log.cfg.en = true
        ∧ (tblGet {} s.ev.recs src).count ≠ 0 ∧ s.ev.mode = false ∧ s.ev.log.full = false ∧ s.busMaster 0 =
        true ∧ b = patch (evBytes src (tblGet {} s.ev.recs src) false) 0 (bvLe 4 s.ev.log.tail) ∧ a0 =
        s.ev.log.cfg.base.toNat + s.ev.log.tail.toNat % 2 ^ s.ev.log.cfg.size * (evBytes src (tblGet {}
        s.ev.recs src) false).length ∧ InPage a0 b.length ∧ windowed s 0 a0 b.length true = some (tgt, a,
        pasid) ∧ xlated s 0 tgt a pasid true = .to x) ∧
    (∃ (src : Nat) (s : State), Running s ∧ s.ev.log.cfg.en = true ∧ (tblGet {} s.ev.recs src).count ≠ 0 ∧
        s.ev.mode = false ∧ s.ev.log.full = true) ∧
    (∃ (s : State), Running s ∧ s.presented = true ∧ s.ev.mode = false) ∧
    (∃ (i : Nat) (s : State), Running s ∧ s.presented = true ∧ i < 16) ∧
    (∃ (v : W32) (r : Route) (s : State), Running s ∧ s.presented = true ∧ r =
        { en := v.getLsbD 0, log := v.getLsbD 1, vec := bits v.toNat 12 2 }) ∧
    (∃ (i : Nat) (s : State), Running s ∧ s.presented = true ∧ i < 8) := by
  unfold InPage Running State.Inv
  exact ⟨⟨300, 0, 0x9000, 0x9000, 0x9000, none, patch (evBytes 300 { count := 1 } false) 0 (zeros 4), logged 0,
      by decide +kernel⟩,
    ⟨300, logged 64, by decide +kernel⟩,
    ⟨one act, by decide +kernel⟩,
    ⟨15, one act, by decide +kernel⟩,
    ⟨0, {}, one act, by decide +kernel⟩,
    ⟨7, one act, by decide +kernel⟩⟩

theorem wit_CombCommands :
    (∃ (comb : Nat) (gen : BitVec 16) (s : State), Running s ∧ Up s ∧ comb < combCount ∧ gen = (s.comb
        comb).gen ∧ ((s.comb comb).mode = 3 ∨ (s.comb comb).mode = 5)) ∧
    (∃ (comb d : Nat) (gen : BitVec 16) (s : State), Running s ∧ Up s ∧ comb < combCount ∧ gen = (s.comb
        comb).gen ∧ (s.comb comb).mode = 1 ∧ d < combCount ∧ d ≠ comb ∧ (s.comb d).mode = 1) ∧
    (∃ (comb : Nat) (gen : BitVec 16) (s : State), Running s ∧ Up s ∧ comb < combCount ∧ gen = (s.comb
        comb).gen ∧ (∀ d, d < combCount → d ≠ comb → (s.comb d).mode ≠ 1)) ∧
    (∃ (comb : Nat) (gen : BitVec 16) (s : State), Running s ∧ Up s ∧ comb < combCount ∧ gen = (s.comb
        comb).gen ∧ (s.comb comb).mode ≠ 3 ∧ (s.comb comb).mode ≠ 5) ∧
    (∃ (comb : Nat) (gen : BitVec 16) (s : State), Running s ∧ Up s ∧ comb < combCount ∧ gen ≠ (s.comb
        comb).gen) ∧
    (∃ (comb : Nat) (word : W32) (s : State), Running s ∧ Up s ∧ comb < combCount ∧ 2 < bits word.toNat 3 0) ∧
    (∃ (comb : Nat) (s : State), Running s ∧ comb < combCount ∧ (s.comb comb).mode = 2 ∧ combInUse s comb =
        false) := by
  unfold Up Running State.Inv
  exact ⟨⟨0, 0, { one act with combs := [(0, { mode := 3 })] }, by decide +kernel⟩,
    ⟨0, 1, 0, one act, by decide +kernel⟩,
    ⟨0, 0, { one act with combs := (List.range 63).map fun i => (i + 1, { mode := 3 }) },
      by and_intros <;> first | exact lone_comb | decide +kernel⟩,
    ⟨0, 0, one act, by decide +kernel⟩,
    ⟨0, 1, one act, by decide +kernel⟩,
    ⟨0, 15, one act, by decide +kernel⟩,
    ⟨0, { one act with combs := [(0, { mode := 2 })] }, by decide +kernel⟩⟩

theorem wit_TamperSources :
    (∃ (n : Nat) (s : State), Running s ∧ NothingHeld s ∧ n < 4 ∧ s.aon.arm.getLsbD n = true) ∧
    (∃ (n : Nat) (s : State), Running s ∧ n < 4 ∧ s.aon.arm.getLsbD n = false) ∧
    (∃ (n : Nat) (s : State), Running s ∧ n < 4) ∧
    (∃ (s : State), Running s ∧ NothingHeld s ∧ s.aon.monitor = true) ∧
    (∃ (d : Fin 5) (s : State), Running s ∧ NothingHeld s ∧ s.aon.monitor = true ∧ s.hv.rstHeld = false ∧ d.val
        ≠ domVddioAon) ∧
    (∃ (d : Fin 5) (s : State), Running s ∧ (s.aon.monitor = false ∨ s.hv.rstHeld = true) ∧ d.val ≠
        domVddioAon) ∧
    (∃ (n : Nat) (s : State), Running s ∧ NothingHeld s ∧ n < 4 ∧ s.live.getLsbD n = false) ∧
    (∃ (r : Supply) (s : State), Running s ∧ (r = .outside ∨ r = .within)) ∧
    (∃ (s : State), Running s ∧ NothingHeld s ∧ s.hv.rootLock = true) ∧
    (∃ (s : State), s.Inv ∧ s.hv.rootLock = false ∧ 3 ≤ s.hv.step ∧ s.hv.pwr = 0 ∧ s.ks.zeroising = some
        .tamper ∧ s.ks.zPend = true ∧ NothingWaits s) ∧
    (∃ (s : State), Running s ∧ NothingHeld s) ∧
    (∃ (s : State), Running s) ∧
    (∃ (s : State), Running s ∧ s.presented = true) := by
  unfold NothingHeld NothingWaits Running State.Inv
  exact ⟨⟨3, one act, by decide +kernel⟩,
    ⟨0, { one act with aon := { arm := 0xE } }, by decide +kernel⟩,
    ⟨3, one act, by decide +kernel⟩,
    ⟨{ one act with aon := { monitor := true } }, by decide +kernel⟩,
    ⟨0, { one act with aon := { monitor := true } }, by decide +kernel⟩,
    ⟨0, one act, by decide +kernel⟩,
    ⟨3, one act, by decide +kernel⟩,
    ⟨.within, one act, by decide +kernel⟩,
    ⟨one act, by decide +kernel⟩,
    ⟨{ one act with hv := { hvUp with rootLock := false }, ks := { zeroising := some .tamper, zPend := true } },
      by decide +kernel⟩,
    ⟨one act, by decide +kernel⟩,
    ⟨one act, by decide +kernel⟩,
    ⟨one act, by decide +kernel⟩⟩

/-- A transition to MANUFACTURED whose words are being programmed as `r`, in AON cycle `n`. -/
def burning (r : OtpRun) (n : Nat) : State :=
  { one act with
    lc := { busy := some 0x0300, run := some r }
    aon := { cycles := n }
    wg := { ckptS := 1 } }

theorem wit_LifeCycleTransitions :
    (∀ k, k < 8 → ∃ confirm : BitVec 16, ∃ s : State, LcFree s ∧ lcIssue s (0x0100 + k) confirm.toNat = 0) ∧
    (∀ k, k < 8 → ∃ confirm : BitVec 16, ∃ s : State, LcFree s ∧ lcIssue s (0x0200 + k) confirm.toNat = 0) ∧
    (∃ confirm : BitVec 16, ∃ s : State, LcFree s ∧ lcIssue s 0x0300 confirm.toNat = 0) ∧
    (∃ confirm : BitVec 16, ∃ s : State, LcFree s ∧ lcIssue s 0x0400 confirm.toNat = 0) ∧
    (∃ confirm : BitVec 16, ∃ s : State, LcFree s ∧ lcIssue s 0x0500 confirm.toNat = 0) ∧
    (∃ confirm : BitVec 16, ∃ s : State, LcFree s ∧ lcIssue s 0x0600 confirm.toNat = 0) ∧
    (∃ (target confirm : BitVec 16) (s : State), LcFree s ∧ lcIssue s target.toNat confirm.toNat ≠ 0) ∧
    (∃ (target : Nat) (s : State), s.Inv ∧ s.ks.zeroising = some .lifecycle ∧ s.hv.kclk = true ∧
      s.ks.zPend = false ∧ s.lc.busy = some target ∧ s.lc.run = none) ∧
    (∃ (target : Nat) (r : OtpRun) (s : State), Running s ∧ s.lc.busy = some target ∧ s.lc.run = some r ∧
      targetBit target < 32) := by
  unfold LcFree Running State.Inv
  refine ⟨fun k hk => ⟨BitVec.ofNat 16 (0xFEFF - k), lcAt (BitVec.ofNat 32 (2 ^ (2 * k) - 1)), ?_⟩,
    fun k hk => ⟨BitVec.ofNat 16 (0xFDFF - k), lcAt (BitVec.ofNat 32 (2 ^ (2 * k + 1) - 1)), ?_⟩,
    ⟨0xFCFF, lcAt 1, ?_⟩, ⟨0xFBFF, { one act with lc := { word := 0x10001, ownerWritten := true } }, ?_⟩,
    ⟨0xFAFF, { one act with lc := { word := 0x30001, rmaGrant := true } }, ?_⟩, ⟨0xF9FF, one act, ?_⟩,
    ⟨0x0300, 0, one act, ?_⟩,
    ⟨0x0600, { one act with lc := { busy := some 0x0600 }, ks := { zeroising := some .lifecycle } }, ?_⟩,
    ⟨0x0300, { entry := 0 }, burning { entry := 0 } 0, ?_⟩⟩
  · revert k; decide +kernel
  · revert k; decide +kernel
  all_goals decide +kernel

theorem wit_LifeCycleTransitions_words :
    (∃ (w : OtpWord) (v : W32) (l : List (OtpWord × W32)) (r : OtpRun) (s : State), OtpEdge s r ∧
      otpLeft s = (w, v) :: l ∧ r.since + 5000 * (r.words + 1) ≤ s.aon.cycles) ∧
    (∃ (r : OtpRun) (s : State), OtpEdge s r ∧ s.aon.cycles + 1 < r.since + 5000 * (r.words + 1)) := by
  unfold OtpEdge BareEdge
  have none_due : ∀ r n id, mayAssign (burning r n) id = true → leafTurn (burning r n) id = false := fun r n id h => by
    simp [mayAssign, State.hasJob, burning, one] at h
  exact ⟨⟨.lc 0, 0x10000, _, { entry := 0, words := 3 }, burning { entry := 0, words := 3 } 20000,
      ⟨rfl, by decide +kernel, rfl, by decide +kernel, ⟨none_due _ _, rfl, Or.inr nofun⟩, rfl⟩, rfl, by decide⟩,
    ⟨{ entry := 0, words := 3 }, burning { entry := 0, words := 3 } 19998,
      ⟨rfl, by decide +kernel, rfl, by decide +kernel, ⟨none_due _ _, rfl, Or.inr nofun⟩, rfl⟩, by decide⟩⟩

theorem wit_DebugAuthorisation :
    (∃ (s : State), Running s ∧ dbgPermitted s 1 = true) ∧
    (∃ (s : State), Running s ∧ dbgPermitted s 2 = true) ∧
    (∃ (s : State), Running s ∧ dbgPermitted s 1 = false) ∧
    (∃ (s : State), Running s ∧ s.presented = true ∧ s.lc.chalOut = true ∧ s.lc.dbgState = 1) ∧
    (∃ (read : ReadEnd) (s : State), Verifies s ∧ (readResponse s read).1 = .issued) ∧
    (∃ (read : ReadEnd) (s : State), Verifies s ∧ ((readResponse s read).1 = .refused ∨ (readResponse s read).1
        = .denied)) ∧
    (∃ (read : ReadEnd) (s : State), Verifies s ∧ (readResponse s read).1 = .waits) ∧
    (∃ (t0 : Nat) (s : State), Running s ∧ s.lc.subst = some t0 ∧ s.lc.substDue = false ∧ t0 + 12000000 ≤
        s.hv.tick) ∧
    (∃ (s : State), Running s ∧ s.lc.subst ≠ none ∧ s.ks.zeroising = none ∧ s.jobsWith (holdsProduction s) =
        []) ∧
    (∃ (s : State), Running s ∧ s.lc.debugOpen = true) ∧
    (∃ (a : Nat) (s : State), Running s ∧ s.lc.debugOpen = true ∧ ramSize ≤ a) ∧
    (∃ (a : Nat) (s : State), Running s ∧ s.lc.debugOpen = true ∧ a < ramSize) ∧
    (∃ (s : State), Running s ∧ s.lc.debugOpen = true ∧ testable s = true) ∧
    (∃ (k : Nat) (s : State), Running s ∧ s.lc.debugOpen = true ∧ s.lcCode = 0 ∧ s.hv.testMode ≠ 0 ∧ k < 8) ∧
    (∃ (s : State), s.lc.debugOpen = false) := by
  unfold Verifies Running State.Inv
  exact ⟨⟨{ one act with lc := { word := 0x30001 } }, by decide +kernel⟩,
    ⟨{ one act with lc := { word := 0x30001 } }, by decide +kernel⟩,
    ⟨one act, by decide +kernel⟩,
    ⟨{ one act with lc := { chalOut := true, dbgState := 1 } }, by decide +kernel⟩,
    ⟨.ok, verifying 7347, by decide +kernel⟩,
    ⟨.ok, verifying 7346, by decide +kernel⟩,
    ⟨.ok, { verifying 7347 with fns := [] }, by decide +kernel⟩,
    ⟨0, at_ 12000000 { one act with lc := { subst := some 0 } }, by decide +kernel⟩,
    ⟨{ one act with lc := { subst := some 0 } }, by decide +kernel⟩,
    ⟨dbg, by decide +kernel⟩,
    ⟨ramSize, dbg, by decide +kernel⟩,
    ⟨0x3FFFFF, dbg, by decide +kernel⟩,
    ⟨dbg, by decide +kernel⟩,
    ⟨0, { dbg with hv := { hvUp with testMode := 1 } }, by decide +kernel⟩,
    ⟨one act, by decide +kernel⟩⟩

theorem wit_StartUp :
    (∃ (s : State), s.Inv) ∧
    (∃ (s : State), s.Inv ∧ inert s = false ∧ s.presented = true ∧ s.hv.rstHeld = false) ∧
    (∃ (s : State), s.Inv ∧ s.hv.powered = true ∧ inert s = false ∧ s.hv.rstHeld = true) ∧
    (∃ (s : State), s.Inv ∧ s.hv.powered = true ∧ inert s = false ∧ s.hv.rstHeld = false) ∧
    (∃ (s : State), s.Inv ∧ inert s = false ∧ s.rom = false ∧ s.hv.rstHeld = false ∧ s.hv.step ≠ 0) ∧
    (∃ (e : Nat) (s : State), s.Inv ∧ s.hv.powered = true ∧ inert s = false ∧ s.hv.rstHeld = false ∧ resSlots s
        = [] ∧ s.wg.eresNext = some e ∧ mramOn s = true ∧ s.ks.testRoot = false) ∧
    (∃ (s : State), (s.hv.powered = false ∨ inert s = true)) ∧
    (∃ (ecc : Ecc) (s : State), StartsUp s 1 ∧ ecc ≠ .uncorrectable ∧ s.otp.nextEntry = 0 ∧ lcOf s.otp.lc.voted
        ≠ 0x0600) ∧
    (∃ (ecc : Ecc) (s : State), StartsUp s 1 ∧ (lcOf s.otp.lc.voted = 0x0600 ∨ ecc = .uncorrectable)) ∧
    (∃ (s : State), StartsUp s 2) ∧
    (∃ (s : State), StartsUp s 3) ∧
    (∃ (ecc : Ecc) (s : State), StartsUp s 4 ∧ ecc ≠ .uncorrectable) ∧
    (∃ (s : State), StartsUp s 4 ∧ s.hv.ramRetry = false) ∧
    (∃ (s : State), StartsUp s 4 ∧ s.hv.ramRetry = true) ∧
    (∃ (s : State), StartsUp s 5 ∧ s.aon.tampered = false ∧ testRooted s.lcCode s.lc.debugOpen = true) ∧
    (∃ (ecc : Ecc) (b : Bytes) (s : State), StartsUp s 5 ∧ NeedsProduction s ∧ ecc ≠ .uncorrectable ∧
        s.ks.rootFail = false ∧ productionRoot s.otp = some b) ∧
    (∃ (ecc : Ecc) (b : Bytes) (s : State), StartsUp s 5 ∧ NeedsProduction s ∧ ecc ≠ .uncorrectable ∧
        s.ks.rootFail = false ∧ s.lcCode = 0x0300 ∧ productionRoot s.otp = none ∧ s.otp.freeRoot ≠ none ∧
        s.ks.entropyFail = false ∧ b = bvBe 32 (BitVec.ofNat 256 (beNat (s.trng.1.take 32)))) ∧
    (∃ (ecc : Ecc) (s : State), StartsUp s 5 ∧ NeedsProduction s ∧ (ecc = .uncorrectable ∨ productionRoot s.otp
        = none ∧ (s.lcCode ≠ 0x0300 ∨ s.ks.entropyFail = true ∨ s.otp.freeRoot = none))) ∧
    (∃ (s : State), StartsUp s 5 ∧ s.aon.tampered = true) ∧
    (∃ (s : State), StartsUp s 6) ∧
    (∃ (l : List (Nat × Bytes)) (s : State), StartsUp s 7 ∧ l = activeCfg s) ∧
    (∃ (a : AdmCfg) (s : State), StartsUp s 8 ∧ s.hv.recovery = false ∧ a = managerCfg (activeCfg s)) ∧
    (∃ (s : State), StartsUp s 8 ∧ s.hv.recovery = true) ∧
    (∃ (s : State), StartsUp s 8) ∧
    (∃ (s : State), StartsUp s 9 ∧ s.hv.recovery = false) ∧
    (∃ (s : State), StartsUp s 9 ∧ s.hv.recovery = true) ∧
    (∃ (s : State), StartsUp s 10) ∧
    (∃ (s : State), s.Inv ∧ s.hv.step = 2 ∧ s.hv.halted = false) ∧
    (∃ (s : State), s.Inv ∧ s.hv.ready = true ∧ s.keeperOk = true ∧ imgCommits (activeBank s) = true ∧ (∀ i, i
        < 64 → s.otp.svnPartly i = false) ∧ s.otp.svnMin < s.store.cfSvn ∧ s.otp.svnMin < 64) ∧
    (∃ (i : Nat) (s : State), s.Inv ∧ s.hv.ready = true ∧ s.keeperOk = true ∧ i < 64 ∧ s.otp.svnPartly i = true
        ∧ (∀ k, k < i → s.otp.svnPartly k = false)) ∧
    (∃ (s : State), Running s ∧ s.hv.keeperUp = true ∧ 5 ≤ s.hv.step ∧ s.presented = true ∧ s.store.updBusy =
        false ∧ firmwareOk s true = true) ∧
    (∃ (ok : Bool) (s : State), Running s ∧ s.hv.keeperUp = true ∧ 5 ≤ s.hv.step ∧ s.store.updBusy = false ∧
        firmwareOk s ok = false) ∧
    (∃ (ok : Bool) (s : State), Running s ∧ s.hv.keeperUp = true ∧ 8 ≤ s.hv.step ∧ s.hv.pwr = 0 ∧
        s.store.updBusy = false ∧ firmwareOk s ok = true) := by
  unfold NeedsProduction StartsUp Running State.Inv
  exact ⟨⟨one act, by decide +kernel⟩,
    ⟨one act, by decide +kernel⟩,
    ⟨powered true, by decide +kernel⟩,
    ⟨powered false, by decide +kernel⟩,
    ⟨one act, by decide +kernel⟩,
    ⟨7, { powered false with wg := { eresNext := some 7 } }, by decide +kernel⟩,
    ⟨one act, by decide +kernel⟩,
    ⟨.corrected, { starting 1 with aon := { goodAt := some 0 } }, by decide +kernel⟩,
    ⟨.uncorrectable, { starting 1 with aon := { goodAt := some 0 } }, by decide +kernel⟩,
    ⟨starting 2, by decide +kernel⟩,
    ⟨starting 3, by decide +kernel⟩,
    ⟨.corrected, starting 4, by decide +kernel⟩,
    ⟨starting 4, by decide +kernel⟩,
    ⟨{ starting 4 with hv := { (starting 4).hv with ramRetry := true } }, by decide +kernel⟩,
    ⟨starting 5, by decide +kernel⟩,
    ⟨.clean, _,
      { starting 5 with
          lc := { word := 0x30001 }, otp := { root := [{ intent := ⟨1, 1, 1⟩, done := ⟨1, 1, 1⟩ }] } },
      by and_intros <;> first | decide +kernel | rfl⟩,
    ⟨.clean, _, { starting 5 with lc := { word := 0x10001 } }, by and_intros <;> first | decide +kernel | rfl⟩,
    ⟨.clean, { starting 5 with lc := { word := 0x30001 } }, by decide +kernel⟩,
    ⟨{ starting 5 with aon := { tampered := true } }, by decide +kernel⟩,
    ⟨starting 6, by decide +kernel⟩,
    ⟨_, starting 7, by and_intros <;> first | decide +kernel | rfl⟩,
    ⟨_, starting 8, by and_intros <;> first | decide +kernel | rfl⟩,
    ⟨{ starting 8 with hv := { (starting 8).hv with recovery := true } }, by decide +kernel⟩,
    ⟨starting 8, by decide +kernel⟩,
    ⟨starting 9, by decide +kernel⟩,
    ⟨{ starting 9 with hv := { (starting 9).hv with recovery := true } }, by decide +kernel⟩,
    ⟨starting 10, by decide +kernel⟩,
    ⟨starting 2, by decide +kernel⟩,
    ⟨{ one act with store := { cfSvn := 1, flashA := zeros 13 ++ [1] } }, by decide +kernel⟩,
    ⟨63, { one act with otp := { svn := (BitVec.ofNat 64 (2 ^ 63), 0, 0) } }, by decide +kernel⟩,
    ⟨{ one act with hv := { hvUp with recovery := true } }, by decide +kernel⟩,
    ⟨false, one act, by decide +kernel⟩,
    ⟨false, { one act with hv := { hvUp with recovery := true } }, by decide +kernel⟩⟩

theorem wit_ImageUpdate :
    (∃ (s : State), Running s ∧ s.presented = true ∧ s.store.updBusy = false ∧ s.keeperOk = true ∧
        s.aon.tampered = false ∧ acceptsImages s.lcCode = true) ∧
    (∃ (s : State), Running s ∧ s.presented = true ∧ s.store.updBusy = false ∧ s.keeperOk = true ∧
        (s.aon.tampered = true ∨ acceptsImages s.lcCode = false)) ∧
    (∃ (s : State), UpdPhase s 1 ∧ BufferRead s .issued) ∧
    (∃ (s : State), UpdPhase s 2 ∧ s.store.active ≤ 1) ∧
    (∃ (buf : Bytes) (s : State), UpdPhase s 3 ∧ BufferRead s .issued ∧ sha384 (fit buf s.store.updRunLen) =
        s.store.updHash) ∧
    (∃ (buf : Bytes) (s : State), UpdPhase s 3 ∧ BufferRead s .issued ∧ sha384 (fit buf s.store.updRunLen) ≠
        s.store.updHash) ∧
    (∃ (n : Nat) (read : ReadEnd) (s : State), UpdPhase s n ∧ (n = 1 ∨ n = 3) ∧ (BufferRead s .refused ∨
        BufferRead s .denied ∨ BufferRead s .issued ∧ read ≠ .ok)) ∧
    (∃ (n : Nat) (s : State), UpdPhase s n ∧ (n = 1 ∨ n = 3) ∧ BufferRead s .waits) ∧
    (∃ (n : Nat) (s : State), UpdPhase s n ∧ (n = 1 ∨ n = 3) ∧ (s.tenant 0).mb.fepoch ≠ s.store.updEpoch) ∧
    (∃ (s : State), Running s ∧ s.hv.keeperUp = true ∧ 5 ≤ s.hv.step ∧ s.presented = true ∧ s.store.updBusy =
        true ∧ s.store.updTaken = true) ∧
    (∃ (n : Nat) (read : ReadEnd) (s : State), UpdPhase s n ∧ (n = 2 ∨ n = 4) ∧ read ≠ .ok) ∧
    (∃ (s : State), UpdPhase s 4) ∧
    (∃ (s : State), Running s ∧ s.store.updBusy = true ∧ s.store.updTaken = false ∧ s.store.updAt + 12000000 ≤
        s.hv.tick) := by
  unfold BufferRead UpdPhase Running State.Inv
  exact ⟨⟨one act, by decide +kernel⟩,
    ⟨{ one act with aon := { tampered := true } }, by decide +kernel⟩,
    ⟨updating 1, by decide +kernel⟩,
    ⟨updating 2, by decide +kernel⟩,
    ⟨zeros 64, hashed (sha384 (fit (zeros 64) 64)), by decide +kernel⟩,
    ⟨[], updating 3, by decide +kernel⟩,
    ⟨3, .error, updating 3, by decide +kernel⟩,
    ⟨1, { updating 1 with fns := [] }, by decide +kernel⟩,
    ⟨1, { updating 1 with store := { (updating 1).store with updEpoch := 1 } }, by decide +kernel⟩,
    ⟨updating 1, by decide +kernel⟩,
    ⟨4, .error, updating 4, by decide +kernel⟩,
    ⟨updating 4, by decide +kernel⟩,
    ⟨at_ 12000000 { one act with store := { updBusy := true } }, by decide +kernel⟩⟩

theorem wit_RetentionSleep :
    (∃ (s : State), s.Inv ∧ s.hv.pwr = 0 ∧ s.presented = true) ∧
    (∃ (cause : Nat) (s : State), s.Inv ∧ s.hv.pwr = 0 ∧ s.presented = true ∧ sleepReason s = 0 ∧ s.hv.causeAt
        = some (s.hv.tick, cause)) ∧
    (∃ (key : Byte) (s : State), s.hv.pwr = 0 ∧ key ≠ 0xA5) ∧
    (∃ (s : State), s.hv.pwr ≠ 0) ∧
    (∃ (s : State), s.Inv ∧ s.hv.pwr = 1 ∧ s.jobsWith Job.live = [] ∧ s.hv.wakeNext = 0) ∧
    (∃ (s : State), s.Inv ∧ s.hv.pwr = 1 ∧ s.jobsWith Job.live = [] ∧ s.hv.wakeNext ≠ 0) ∧
    (∃ (s : State), s.hv.pwr = 2) ∧
    (∃ (cause : Nat) (s : State), s.hv.pwr = 0 ∧ 1 ≤ cause ∧ cause ≤ 8) ∧
    (∃ (cause : Nat) (s : State), s.hv.pwr = 1 ∧ s.hv.enterAt = some s.hv.tick ∧ 1 ≤ cause ∧ cause ≤ 8) ∧
    (∃ (s : State), s.pending = [] ∧ closeDue s = false ∧ s.adm.fenced = none ∧ ckptDue s = false ∧ QuietEdge s
        ∧ s.hv.pwr = 0 ∧ s.hv.enterAt = some s.hv.tick) ∧
    (∃ (cause : Nat) (s : State), s.hv.pwr = 2 ∧ 1 ≤ cause ∧ cause ≤ 8) ∧
    (∃ (cause : Nat) (s : State), s.hv.pwr = 1 ∧ s.hv.enterAt ≠ some s.hv.tick ∧ s.hv.wakeNext = 0 ∧ 1 ≤ cause
        ∧ cause ≤ 8) ∧
    (∃ (s : State), s.Inv ∧ s.hv.pwr = 3 ∧ s.hv.rootLock = true ∧ s.hv.heldCmds = []) ∧
    (∃ (s : State), s.Inv ∧ s.hv.rootLock = false ∧ 3 ≤ s.hv.step ∧ s.hv.pwr = 0 ∧ s.ks.zPend = false ∧
        NothingWaits s) := by
  unfold NothingWaits QuietEdge BareEdge State.Inv
  exact ⟨⟨one act, by decide +kernel⟩,
    ⟨7, { one act with hv := { hvUp with causeAt := some (0, 7) } }, by decide +kernel⟩,
    ⟨0, one act, by decide +kernel⟩,
    ⟨{ one act with hv := { hvUp with pwr := 2 } }, by decide +kernel⟩,
    ⟨{ one act with hv := { hvUp with pwr := 1 } }, by decide +kernel⟩,
    ⟨{ one act with hv := { hvUp with pwr := 1, wakeNext := 8 } }, by decide +kernel⟩,
    ⟨{ one act with hv := { hvUp with pwr := 2 } }, by decide +kernel⟩,
    ⟨8, one act, by decide +kernel⟩,
    ⟨1, { one act with hv := { hvUp with pwr := 1, enterAt := some 0 } }, by decide +kernel⟩,
    ⟨{ one act with hv := { hvUp with enterAt := some 0 }, wg := { ckptS := 1 } },
      by
        and_intros <;> first
          | decide +kernel
          | exact Or.inr nofun
          | exact fun id h => by simp [mayAssign, State.hasJob, one] at h⟩,
    ⟨8, { one act with hv := { hvUp with pwr := 2 } }, by decide +kernel⟩,
    ⟨1, { one act with hv := { hvUp with pwr := 1 } }, by decide +kernel⟩,
    ⟨{ one act with hv := { hvUp with pwr := 3 } }, by decide +kernel⟩,
    ⟨{ one act with hv := { hvUp with rootLock := false } }, by decide +kernel⟩⟩

theorem wit_ConfigurationGroups :
    (∃ (c : Nat) (s : State), Running s ∧ blockOpen s c = true) ∧
    (∃ (c q : Nat) (g : QCfg) (s : State), Running s ∧ blockOpen s c = true ∧ (s.tenant c).qcfgSel = q ∧
        (s.tenant c).qcfgSh = g) ∧
    (∃ (c : Nat) (s : State), Running s ∧ blockOpen s c = true ∧ isFn c = true) ∧
    (∃ (c : Nat) (s : State), Running s ∧ blockOpen s c = true ∧ isFn c = true ∧ crRefuses s c (s.tenant
        c).crSel (s.tenant c).crShCtrl = true) ∧
    (∃ (c : Nat) (s : State), Running s ∧ blockOpen s c = true ∧ isFn c = true ∧ crRefuses s c (s.tenant
        c).crSel (s.tenant c).crShCtrl = false) ∧
    (∃ (s : State), Running s ∧ s.hv.ready = true) ∧
    (∃ (s : State), Running s ∧ s.hv.ready = true ∧ isFn s.wg.tsel = true ∧ 1 ≤ s.wg.tcfgSh.pendMax ∧
        s.wg.tcfgSh.pendMax ≤ 16384) ∧
    (∃ (s : State), Running s ∧ s.hv.ready = true ∧ (s.wg.tcfgSh.pendMax = 0 ∨ 16384 < s.wg.tcfgSh.pendMax)) ∧
    (∃ (s : State), Running s ∧ s.presented = true) := by
  unfold Running State.Inv
  exact ⟨⟨0, one act, by decide +kernel⟩,
    ⟨0, 0, {}, one act, by decide +kernel⟩,
    ⟨0, one act, by decide +kernel⟩,
    ⟨0, tn { crShCtrl := 0x100 }, by decide +kernel⟩,
    ⟨0, tn { crShCtrl := 0x106 }, by decide +kernel⟩,
    ⟨one act, by decide +kernel⟩,
    ⟨{ one act with wg := { tcfgSh := { pendMax := 16384 } } }, by decide +kernel⟩,
    ⟨{ one act with wg := { tcfgSh := { pendMax := 16385 } } }, by decide +kernel⟩,
    ⟨one act, by decide +kernel⟩⟩

theorem wit_RegisterAccess :
    (∃ (a : Access) (p : Place) (s : State), At s a 4 p ∧ p.2 % 4 = 0 ∧ is64 p = false ∧ upperOf p = none) ∧
    (∃ (a : Access) (s : State), At s a 4 (.sch, 0x10)) ∧
    (∃ (a : Access) (p : Place) (n : Nat) (s u : State), At s a n p ∧ (n = 1 ∨ n = 2) ∧ u = atAccess s a p n) ∧
    (∃ (a : Access) (p : Place) (s u : State), At s a 4 p ∧ p.2 % 4 = 0 ∧ is64 p = true ∧ u = atWrite s a p) ∧
    (∃ (who : Requester) (a : Access) (sp : Space) (o : Nat) (low : W32) (s u : State), At s a 4 (sp, o + 4) ∧
        o % 4 = 0 ∧ is64 (sp, o) = true ∧ is64 (sp, o + 4) = false ∧ u = atWrite s a (sp, o + 4) ∧ halfOf
        s.halves who (regKey (sp, o)) = some low) ∧
    (∃ (a : Access) (p : Place) (s u : State), At s a 4 p ∧ p.2 % 4 = 0 ∧ is64 p = false ∧ upperOf p = none ∧ u
        = atRead s a p) ∧
    (∃ (a : Access) (p : Place) (s u : State), At s a 4 p ∧ p.2 % 4 = 0 ∧ is64 p = true ∧ u = atRead s a p) := by
  unfold At
  exact ⟨⟨.debug 0x70010, (.sch, 0x10), dbg, by and_intros <;> first | decide +kernel | simp⟩,
    ⟨.debug 0x70010, dbg, by and_intros <;> first | decide +kernel | simp⟩,
    ⟨.debug 0x70011, (.sch, 0x11), 1, dbg, _, by and_intros <;> first | decide +kernel | simp | rfl⟩,
    ⟨.debug 0x70020, (.sch, 0x20), dbg, _, by and_intros <;> first | decide +kernel | simp | rfl⟩,
    ⟨.debug, .debug 0x70024, .sch, 0x20, 7, { dbg with halves := [((.debug, regKey (.sch, 0x20)), 7)] },
      atWrite { dbg with halves := [((.debug, regKey (.sch, 0x20)), 7)] } (.debug 0x70024) (.sch, 0x24),
      by and_intros <;> first | decide +kernel | simp⟩,
    ⟨.debug 0x70010, (.sch, 0x10), dbg, _, by and_intros <;> first | decide +kernel | simp | rfl⟩,
    ⟨.debug 0x70020, (.sch, 0x20), dbg, _, by and_intros <;> first | decide +kernel | simp | rfl⟩⟩

theorem wit_AlertAndSyncBalls :
    (∃ (s : State), undriven s domVddioAon = false) ∧
    (∃ (s : State), undriven s domVddioHv = false) ∧
    (∃ (s : State), undriven s domVddioHv = false ∧ s.hv.ready = false) ∧
    (∃ (s : State), (s.hv.step = 0 ∨ s.hv.rstHeld = true ∨ s.aon.low.getLsbD domVddAon = true)) ∧
    (∃ (s : State), isolated s = true) :=
  ⟨⟨one act, by decide +kernel⟩,
    ⟨one act, by decide +kernel⟩,
    ⟨{ one act with hv := { hvUp with ready := false } }, by decide +kernel⟩,
    ⟨State.reset, by decide +kernel⟩,
    ⟨State.reset, by decide +kernel⟩⟩

theorem wit_KeptRecords :
    (∃ (c : Instr) (s t : State) (b : Nat), s.Inv ∧ exec c s = .next t ∧ ¬ ClearsSticky s c ∧
        s.aon.sticky.getLsbD b = true) ∧
    (∃ (c : Instr) (s t : State) (b : Nat), exec c s = .next t ∧ s.otp.lc.voted.getLsbD b = true) := by
  unfold ClearsSticky TamperSource State.Inv
  exact ⟨⟨.ksProvOp3, { one act with aon := { sticky := 1 } }, _, 0,
      by and_intros <;> first | decide +kernel | rfl | simp⟩,
    ⟨.ksProvOp3, { one act with otp := { lc := ⟨1, 1, 1⟩ } }, _, 0, by and_intros <;> first | decide +kernel | rfl⟩⟩

theorem wit_Frames :
    (∃ (c : Instr) (s t : State), TamperSource c ∧ s.hv.pwr = 0 ∧ exec c s = .next t) := by
  unfold TamperSource
  exact ⟨.tamperInTrip 0 false, one act, _, by and_intros <;> first | exact Or.inl ⟨_, _, rfl⟩ | decide +kernel | rfl⟩

end Sys2Proof.Tests
end

section
/-! SUPPORT. Byte strings: numbers written out in bytes, and strings cut into pieces. -/

namespace Sys2Proof.Machine

/-! ## Numbers in bytes (R17, R18) -/

@[simp] theorem natLe_length (n v : Nat) : (natLe n v).length = n := by
  induction n generalizing v with
  | zero => rfl
  | succ n ih => simp [natLe, ih]

@[simp] theorem natBe_length (n v : Nat) : (natBe n v).length = n := by simp [natBe]

/-- Only the last `n` bytes of a number are written. -/
theorem natLe_mod (n v : Nat) : natLe n (v % 256 ^ n) = natLe n v := by
  induction n generalizing v with
  | zero => rfl
  | succ n ih =>
    have hlow : BitVec.ofNat 8 (v % 256 ^ (n + 1)) = BitVec.ofNat 8 v := by
      apply BitVec.eq_of_toNat_eq
      simp [Nat.mod_mod_of_dvd v (dvd_pow_self 256 n.succ_ne_zero)]
    have hhigh : v % 256 ^ (n + 1) / 256 = v / 256 % 256 ^ n := by
      rw [Nat.pow_succ', Nat.mod_mul_right_div_self]
    simp only [natLe, hlow, hhigh, ih]

theorem natBe_mod (n v : Nat) : natBe n (v % 256 ^ n) = natBe n v := by
  simp only [natBe, natLe_mod]

theorem leNat_natLe (n v : Nat) : leNat (natLe n v) = v % 256 ^ n := by
  induction n generalizing v with
  | zero => simp [natLe, leNat, Nat.mod_one]
  | succ n ih => rw [natLe, leNat, ih, BitVec.toNat_ofNat, pow_succ' 256 n, Nat.mod_mul]

theorem beNat_reverse (b : Bytes) : beNat b.reverse = leNat b := by
  induction b with
  | nil => rfl
  | cons x b ih =>
    rw [beNat] at ih ⊢
    simp only [List.reverse_cons, List.foldl_append, List.foldl_cons, List.foldl_nil, ih, leNat]
    omega

theorem beNat_natBe (n v : Nat) : beNat (natBe n v) = v % 256 ^ n := by
  rw [natBe, beNat_reverse, leNat_natLe]

/-! ## Pieces of a byte string -/

/-- A string of `m` whole pieces is cut into `m` pieces. -/
theorem chunksF_length {n : Nat} (hn : 0 < n) {m fuel : Nat} {b : Bytes} (hb : b.length = n * m)
    (hm : m ≤ fuel) : (chunksF n fuel b).length = m := by
  induction fuel generalizing m b with
  | zero => simp [chunksF, Nat.le_zero.1 hm]
  | succ fuel ih =>
    cases m with
    | zero => simp [chunksF, List.eq_nil_of_length_eq_zero hb]
    | succ m =>
      have hne : b ≠ [] := by rintro rfl; simp at hb; omega
      have hrest : (b.drop n).length = n * m := by rw [List.length_drop, hb, Nat.mul_succ]; omega
      simp [chunksF, hne, ih hrest (by omega)]

/-- The pieces of a string of whole pieces are whole. -/
theorem length_of_mem_chunksF {n fuel : Nat} {b c : Bytes} (hb : n ∣ b.length) (hc : c ∈ chunksF n fuel b) :
    c.length = n := by
  induction fuel generalizing b with
  | zero => simp [chunksF] at hc
  | succ fuel ih =>
    rw [chunksF] at hc
    split at hc
    · simp at hc
    next hne =>
      have hpos : 0 < b.length := List.length_pos_iff.2 (by simpa using hne)
      rcases List.mem_cons.1 hc with rfl | hc
      · simpa using Nat.le_of_dvd hpos hb
      · exact ih (by rw [List.length_drop]; exact Nat.dvd_sub hb dvd_rfl) hc

@[simp] theorem xorB_length (a b : Bytes) : (xorB a b).length = min a.length b.length := by simp [xorB]

end Sys2Proof.Machine
end

section
/-! SUPPORT. The block length of AES (FIPS 197): under a key of whole words every round key, and so every block
that leaves the cipher, has 16 bytes. -/

namespace Sys2Proof.Machine

@[simp] theorem aesShift_length (b : Bytes) : (aesShift b).length = 16 := rfl

@[simp] theorem aesColumn_length (k : List Byte) (c : Bytes) : (aesColumn k c).length = 4 := rfl

theorem aesMix_length {b : Bytes} (hb : b.length = 16) : (aesMix b).length = 16 := by
  have hcols : (chunksF 4 4 b).length = 4 := chunksF_length (by decide) (by omega) (by omega)
  simp [aesMix, List.length_flatMap, hcols]

theorem aesRounds_length {ks : List Bytes} {b : Bytes} (hks : ∀ k ∈ ks, k.length = 16) (hb : b.length = 16) :
    (aesRounds ks b).length = 16 := by
  induction ks, b using aesRounds.induct with
  | case1 b => exact hb
  | case2 b k => simp [aesRounds, hks]
  | case3 k ks b hne ih =>
    have hmix : (aesMix (aesShift (b.map sboxAt))).length = 16 := aesMix_length (by simp)
    rw [aesRounds]
    · exact ih (fun k' h => hks k' (by simp [h])) (by simp [hmix, hks k])
    · exact hne

theorem aesEncK_length {ks : List Bytes} {b : Bytes} (hks : ∀ k ∈ ks, k.length = 16) (hb : b.length = 16) :
    (aesEncK ks b).length = 16 := by
  cases ks with
  | nil => exact hb
  | cons k ks => exact aesRounds_length (fun k' h => hks k' (by simp [h])) (by simp [hb, hks k])

/-- What the key schedule adds to the word `nk` places back: the last word, rotated and substituted where the
schedule says so. -/
def scheduleWord (nk i : Nat) (rcon : Byte) (last : Bytes) : Bytes :=
  if i % nk = 0 then
    match (last.drop 1 ++ last.take 1).map sboxAt with
    | x :: r => (x ^^^ rcon) :: r
    | [] => []
  else if 6 < nk && i % nk == 4 then last.map sboxAt
  else last

theorem aesExpand_succ (nk fuel i : Nat) (rcon : Byte) (w : List Bytes) :
    aesExpand nk (fuel + 1) i rcon w =
      aesExpand nk fuel (i + 1) (if i % nk = 0 then gfX rcon else rcon)
        (w ++ [xorB (w.getD (i - nk) []) (scheduleWord nk i rcon (w.getD (i - 1) []))]) := rfl

theorem scheduleWord_length (nk i : Nat) (rcon : Byte) {last : Bytes} (hlast : last.length = 4) :
    (scheduleWord nk i rcon last).length = 4 := by
  have hrot : ((last.drop 1 ++ last.take 1).map sboxAt).length = 4 := by simp [hlast]
  unfold scheduleWord
  split
  · split
    next x r hcons => rwa [hcons] at hrot
    next hnil => rwa [hnil] at hrot
  · split
    · rw [List.length_map, hlast]
    · exact hlast

/-- The key schedule adds one word for each unit of fuel, and all its words have 4 bytes. -/
theorem aesExpand_words {nk : Nat} (hnk : 0 < nk) (fuel : Nat) (rcon : Byte) {w : List Bytes}
    (hlen : nk ≤ w.length) (hw : ∀ x ∈ w, x.length = 4) :
    (aesExpand nk fuel w.length rcon w).length = w.length + fuel ∧
      ∀ x ∈ aesExpand nk fuel w.length rcon w, x.length = 4 := by
  induction fuel generalizing rcon w with
  | zero => exact ⟨rfl, hw⟩
  | succ fuel ih =>
    have hget (i : Nat) (hi : i < w.length) : (w.getD i []).length = 4 := by
      rw [List.getD_eq_getElem _ _ hi]
      exact hw _ (List.getElem_mem hi)
    rw [aesExpand_succ]
    generalize hx : xorB (w.getD (w.length - nk) []) _ = x
    have hx4 : x.length = 4 := by
      rw [← hx, xorB_length, hget _ (by omega), scheduleWord_length _ _ _ (hget _ (by omega)), min_self]
    obtain ⟨hlen', hw'⟩ := ih (if w.length % nk = 0 then gfX rcon else rcon) (w := w ++ [x])
      (by rw [List.length_append]; omega)
      (List.forall_mem_append.2 ⟨hw, List.forall_mem_singleton.2 hx4⟩)
    rw [List.length_append, List.length_singleton] at hlen' hw'
    exact ⟨by omega, hw'⟩

/-- A key of whole words has round keys of 16 bytes. -/
theorem length_of_mem_aesKeys {key k : Bytes} (h4 : 4 ∣ key.length) (hpos : 0 < key.length)
    (hk : k ∈ aesKeys key) : k.length = 16 := by
  obtain ⟨nk, hnk⟩ := h4
  have hcut : (chunks 4 key).length = nk := chunksF_length (by decide) hnk (by omega)
  have hdiv : key.length / 4 = nk := by omega
  obtain ⟨hlen, hword⟩ := aesExpand_words (nk := nk) (by omega) (4 * (nk + 7) - nk) 1 (w := chunks 4 key)
    (by omega) (fun x hx => length_of_mem_chunksF ⟨nk, hnk⟩ hx)
  have hflat : (aesExpand nk (4 * (nk + 7) - nk) nk 1 (chunks 4 key)).flatten.length = 16 * (nk + 7) := by
    rw [hcut] at hlen hword
    rw [List.length_flatten, List.map_congr_left hword, List.map_const', List.sum_replicate, hlen]
    simp; omega
  simp only [aesKeys, hdiv] at hk
  exact length_of_mem_chunksF ⟨nk + 7, hflat⟩ hk

end Sys2Proof.Machine
end

section
/-! SUPPORT. Counter mode (R139): the byte that masks a byte of the data, and the counter block of a byte. -/

namespace Sys2Proof.Machine

/-- A piece of at most 16 bytes that begins at byte `16 * k`, masked with a block. -/
theorem xorB_eq_zipIdx {block : Nat → Bytes} {k : Nat} {c : Bytes} (hblock : (block k).length = 16)
    (hc : c.length ≤ 16) :
    xorB c (block k) =
      (c.zipIdx (16 * k)).map fun xi => xi.1 ^^^ (block (xi.2 / 16)).getD (xi.2 % 16) 0 := by
  apply List.ext_getElem
  · simp [hblock, hc]
  · intro j hj _
    have hj16 : j < 16 := by simp [hblock] at hj; omega
    have hquot : (16 * k + j) / 16 = k := by omega
    have hrem : (16 * k + j) % 16 = j := by omega
    simp [xorB, hquot, hrem, hblock, hj16]

/-- Masking piece by piece masks byte `i` with byte `i % 16` of block `i / 16`. -/
theorem flatten_xorB_chunksF (block : Nat → Bytes) (hblock : ∀ n, (block n).length = 16) (fuel : Nat)
    (data : Bytes) (k : Nat) (hfuel : data.length ≤ fuel) :
    (((chunksF 16 fuel data).zipIdx k).map fun ci => xorB ci.1 (block ci.2)).flatten =
      (data.zipIdx (16 * k)).map fun xi => xi.1 ^^^ (block (xi.2 / 16)).getD (xi.2 % 16) 0 := by
  induction fuel generalizing data k with
  | zero => simp [chunksF, List.eq_nil_of_length_eq_zero (Nat.le_zero.1 hfuel)]
  | succ fuel ih =>
    by_cases hdata : data = []
    · simp [chunksF, hdata]
    have hpos : 0 < data.length := List.length_pos_iff.2 hdata
    have hrest : data.drop 16 = [] ∨ 16 * k + (data.take 16).length = 16 * (k + 1) := by
      simp; omega
    calc (((chunksF 16 (fuel + 1) data).zipIdx k).map fun ci => xorB ci.1 (block ci.2)).flatten
        = xorB (data.take 16) (block k) ++
            ((data.drop 16).zipIdx (16 * (k + 1))).map
              fun xi => xi.1 ^^^ (block (xi.2 / 16)).getD (xi.2 % 16) 0 := by
          rw [← ih (data.drop 16) (k + 1) (by simp; omega)]
          simp [chunksF, hdata]
      _ = ((data.take 16 ++ data.drop 16).zipIdx (16 * k)).map
            fun xi => xi.1 ^^^ (block (xi.2 / 16)).getD (xi.2 % 16) 0 := by
          rw [List.zipIdx_append, List.map_append, xorB_eq_zipIdx (hblock k) (by simp)]
          rcases hrest with hnil | hnext
          · simp [hnil]
          · rw [hnext]
      _ = _ := by rw [List.take_append_drop]

/-- The mask with blocks of 16 bytes, byte by byte. -/
theorem ctrMask_eq {ks : List Bytes} {inc : Bytes → Nat → Bytes} {b : Bytes} (hks : ∀ k ∈ ks, k.length = 16)
    (hinc : ∀ n, (inc b n).length = 16) (data : Bytes) :
    ctrMask ks inc b data =
      data.zipIdx.map fun xi => xi.1 ^^^ (aesEncK ks (inc b (xi.2 / 16))).getD (xi.2 % 16) 0 :=
  flatten_xorB_chunksF (fun n => aesEncK ks (inc b n)) (fun n => aesEncK_length hks (hinc n)) _ data 0 le_rfl

/-- A counter advanced twice is a counter advanced once by the sum. -/
theorem ctrAdd_ctrAdd (b : Bytes) (m n : Nat) : ctrAdd (ctrAdd b m) n = ctrAdd b (m + n) := by
  rw [ctrAdd, ctrAdd, ctrAdd, beNat_natBe, ← natBe_mod 16 (_ % _ + n), Nat.mod_add_mod, natBe_mod, Nat.add_assoc]

end Sys2Proof.Machine
end

section
/-! SUPPORT. What a cell's report leaves in the state: the job's status and output, and the stream's context. -/

namespace Sys2Proof.Machine

/-- The footprint of a cell's decision on a job; no context lies in it. -/
def decisionFoot : Foot := { dma := true, ks := true, jobs := true }

theorem Keeps.ctx_eq {F : Foot} {s t : State} (h : Keeps F s t) (hF : F.ctxs = false) (c x : Nat) :
    t.ctx c x = s.ctx c x := by
  obtain ⟨-, -, hunch⟩ := h
  have hctxs : t.ctxs = s.ctxs := hunch.ctxs.resolve_right (by simp [hF])
  rw [State.ctx, State.ctx, hctxs]

theorem Keeps.wf {F : Foot} {s t : State} (h : Keeps F s t) (hs : s.Inv) : t.wf = true := by
  obtain ⟨-, hinv, -⟩ := h
  exact (hinv hs).left

theorem decide7_keeps_decisionFoot (s : State) (id : Nat) (st : Status) (detail : BitVec 8) :
    Keeps decisionFoot s (decide7 s id st detail) :=
  decide7_keeps s id st detail rfl rfl rfl (Keeps.refl _ s)

theorem decide7_job_status {s : State} (hs : s.Inv) (id : Nat) (st : Status) (detail : BitVec 8) :
    ((decide7 s id st detail).job id).status = st := by
  have hk : Keeps decisionFoot s (ppFree (orphanJobReads s id) id) :=
    ppFree_keeps _ id rfl (orphanJobReads_keeps s id rfl rfl (Keeps.refl _ s))
  rw [decide7, State.modJob_same (hk.wf hs)]

theorem leaveCell_job {s : State} (hs : s.wf = true) (id : Nat) :
    ((leaveCell s id).job id).status = (s.job id).status ∧
      ((leaveCell s id).job id).output = (s.job id).output := by
  simp [leaveCell, State.modJob_same hs]

theorem drainCell_job {s : State} (hs : s.wf = true) (id : Nat) :
    ((drainCell s id).job id).status = (s.job id).status ∧
      ((drainCell s id).job id).output = (s.job id).output := by
  simp only [drainCell]
  split
  · simp only [leaveCell_job (State.modJob_wf hs id _), State.modJob_same hs, and_self]
  · simp only [State.modJob_same hs, and_self]

/-- The state after a cell's report, before the stream of the job takes its next state. -/
def reported (s : State) (id : Nat) (r : CellOut) : State :=
  drainCell ((decide7 s id r.status r.detail).modJob id fun x =>
    { x with opInfo := r.opInfo, output := r.output, digest := r.digest, cycles := x.cycles + r.cycles }) id

/-- A cell's report changes no context. -/
theorem reported_keeps (s : State) (id : Nat) (r : CellOut) : Keeps decisionFoot s (reported s id r) :=
  drainCell_keeps _ id rfl (modJob_keeps _ id _ rfl (decide7_keeps_decisionFoot s id r.status r.detail))

theorem reported_job {s : State} (hs : s.Inv) (id : Nat) (r : CellOut) :
    ((reported s id r).job id).status = r.status ∧ ((reported s id r).job id).output = r.output := by
  have hwf := (decide7_keeps_decisionFoot s id r.status r.detail).wf hs
  simp only [reported, drainCell_job (State.modJob_wf hwf id _), State.modJob_same hwf, decide7_job_status hs,
    and_self]

theorem finishCell_job_eq (s : State) (id : Nat) (r : CellOut) :
    (finishCell s id r).job id = (reported s id r).job id := by
  unfold finishCell
  cases r.ctx with
  | none => rfl
  | some k => cases hold : (s.job id).holdsCtx <;> simp [hold, reported]

theorem finishCell_ctx {s : State} (hs : s.Inv) (id : Nat) {r : CellOut} {k : Ctx} (hr : r.ctx = some k)
    (hold : (s.job id).holdsCtx = true) :
    (finishCell s id r).ctx (s.job id).client (dCtx (s.job id).desc) =
      { s.ctx (s.job id).client (dCtx (s.job id).desc) with chain := k.chain, done := k.done, aad := k.aad } := by
  have hkeeps := reported_keeps s id r
  have hmod : finishCell s id r = (reported s id r).modCtx (s.job id).client (dCtx (s.job id).desc) fun x =>
      { x with chain := k.chain, done := k.done, aad := k.aad } := by
    simp only [finishCell, hr, hold, if_true, reported]
  rw [hmod, State.modCtx_same (hkeeps.wf hs), hkeeps.ctx_eq rfl]

theorem runCell_of_ready {s : State} {id : Nat} {o : Op} (f : Job → Ctx → CellOut) (h : s.ready id o = true) :
    runCell o f id s = finishCell s id (f (s.job id) (streamOf s (s.job id) o)) := if_pos h

theorem streamOf_of_dStream (s : State) {j : Job} {o : Op} (h : dStream o j.desc = true) :
    streamOf s j o = s.ctx j.client (dCtx j.desc) := if_pos h

end Sys2Proof.Machine
end

section
/-! SUPPORT. AES_CTR (R139): the masking cell of a ready job, and the theorem that settles O18. -/

namespace Sys2Proof.Machine

/-- The output of the cell: every byte masked with the block that the counter has reached at its place in the
stream. -/
theorem ctrCell_output {j : Job} {k : Ctx}
    (hkey : j.keyMat.length = 16 ∨ j.keyMat.length = 24 ∨ j.keyMat.length = 32) (hdone : k.done % 16 = 0) :
    (ctrCell j k).output = j.got.zipIdx.map fun xi =>
      xi.1 ^^^ (aesEnc j.keyMat (natBe 16 ((beNat k.nonce + (k.done + xi.2) / 16) % 2 ^ 128))).getD (xi.2 % 16) 0 := by
  have hround : ∀ r ∈ aesKeys j.keyMat, r.length = 16 :=
    fun r hr => length_of_mem_aesKeys (by omega) (by omega) hr
  have hcounter (i : Nat) : ctrAdd (ctrAdd k.nonce (k.done / 16)) (i / 16) =
      natBe 16 ((beNat k.nonce + (k.done + i) / 16) % 2 ^ 128) := by
    have hblocks : k.done / 16 + i / 16 = (k.done + i) / 16 := by omega
    rw [ctrAdd_ctrAdd, hblocks, ctrAdd]
    exact (natBe_mod 16 _).symm
  have hmask := ctrMask_eq (inc := ctrAdd) (b := ctrAdd k.nonce (k.done / 16)) hround
    (fun _ => natBe_length 16 _) j.got
  simp only [hcounter] at hmask
  exact hmask

/-- Settles O18: the cell masks byte by byte, and its report reaches the job and the context. The length of the
IV is not used: the counter is reduced modulo 2¹²⁸ whatever it starts from. -/
theorem ctrCounts : Obligations.CtrCounts := by
  intro id i s hs hready hkey _ hdone hi
  have hrun : opAesCtr id s = finishCell s id (ctrCell (s.job id) (StreamBefore s id .aesCtr)) :=
    runCell_of_ready ctrCell hready
  obtain ⟨hstatus, hout⟩ := reported_job hs id (ctrCell (s.job id) (StreamBefore s id .aesCtr))
  rw [ctrCell_output hkey hdone] at hout
  refine ⟨opAesCtr id s, rfl, ?_⟩
  beta_reduce
  rw [hrun, finishCell_job_eq, hout]
  refine ⟨hstatus, by simp, by simp [hi], fun hstream hold => ?_⟩
  rw [finishCell_ctx hs id rfl hold]
  exact ⟨rfl, by rw [StreamBefore, streamOf_of_dStream s hstream]⟩

end Sys2Proof.Machine
end

section
/-! SUPPORT. What the end of a job leaves of the receipts before stage 8 (R260): no leaf is formed, the signer and
the receipt groups of the clients are as they were, and the job asks for what it asked for. -/

namespace Sys2Proof.Machine

theorem State.Inv.wf {s : State} (hs : s.Inv) : s.wf = true := hs.left

theorem Keeps.inv {F : Foot} {s t : State} (h : Keeps F s t) (hs : s.Inv) : t.Inv := by
  obtain ⟨-, hinv, -⟩ := h
  exact hinv hs

theorem Keeps.job_eq {F : Foot} {s t : State} (h : Keeps F s t) (hF : F.jobs = false) (j : Nat) :
    t.job j = s.job j := by
  obtain ⟨-, -, hunch⟩ := h
  have hjobs : t.jobs = s.jobs := hunch.jobs.resolve_right (by simp [hF])
  rw [State.job, State.job, hjobs]

theorem Keeps.tenant_eq {F : Foot} {s t : State} (h : Keeps F s t) (hF : F.tenants = false) (c : Nat) :
    t.tenant c = s.tenant c := by
  obtain ⟨-, -, hunch⟩ := h
  have htenants : t.tenants = s.tenants := hunch.tenants.resolve_right (by simp [hF])
  rw [State.tenant, State.tenant, htenants]

theorem Keeps.wg_eq {F : Foot} {s t : State} (h : Keeps F s t) (hF : F.wg = false) : t.wg = s.wg := by
  obtain ⟨-, -, hunch⟩ := h
  exact hunch.wg.resolve_right (by simp [hF])

/-- Before (`j`) and after (`k`) a part of a job's end that does not bring it to stage 8: it asks for what it asked
for, and where all of its output has been issued, nothing is left to issue. -/
structure JobKept (j k : Job) : Prop where
  isLeaf : k.isLeaf = j.isLeaf
  desc : k.desc = j.desc
  client : k.client = j.client
  notWaiting : j.stage ≠ .leaf → k.stage ≠ .leaf
  issued : j.output.length ≤ j.written → k.output.length ≤ k.written

theorem JobKept.refl (j : Job) : JobKept j j := ⟨rfl, rfl, rfl, id, id⟩

theorem JobKept.ofSame {j k : Job} (isLeaf : k.isLeaf = j.isLeaf := by rfl) (desc : k.desc = j.desc := by rfl)
    (client : k.client = j.client := by rfl) (stage : k.stage = j.stage := by rfl)
    (output : k.output = j.output := by rfl) (written : k.written = j.written := by rfl) : JobKept j k :=
  ⟨isLeaf, desc, client, fun h => stage ▸ h, fun h => output ▸ written ▸ h⟩

theorem JobKept.trans {j k l : Job} (h : JobKept j k) (g : JobKept k l) : JobKept j l where
  isLeaf := g.isLeaf.trans h.isLeaf
  desc := g.desc.trans h.desc
  client := g.client.trans h.client
  notWaiting := g.notWaiting ∘ h.notWaiting
  issued := g.issued ∘ h.issued

/-- No leaf has been formed, the receipts of each client are enabled or disabled as they were, and job `id` is the
one it was. -/
structure LeavesKept (id : Nat) (s t : State) : Prop where
  inv : t.Inv
  count : t.wg.leaves = s.wg.leaves
  signer : t.wg.signer = s.wg.signer
  leaves : ∀ c, (t.tenant c).leaves = (s.tenant c).leaves
  group : ∀ c, (t.tenant c).wgT = (s.tenant c).wgT
  job : JobKept (s.job id) (t.job id)

/-! ## Paths -/

section Paths

variable {F : Foot} {id : Nat} {s0 s t : State}

theorem LeavesKept.refl (id : Nat) (hs : s.Inv) : LeavesKept id s s :=
  ⟨hs, rfl, rfl, fun _ => rfl, fun _ => rfl, JobKept.refl _⟩

theorem LeavesKept.ite {a b : State} {c : Prop} [Decidable c] (ha : LeavesKept id s0 a) (hb : LeavesKept id s0 b) :
    LeavesKept id s0 (if c then a else b) := by
  split <;> assumption

/-- An operation outside whose footprint the waggle unit, the tenants and the jobs lie. -/
theorem LeavesKept.keeps (h : LeavesKept id s0 s) (hk : Keeps F s t) (hwg : F.wg = false := by rfl)
    (htenants : F.tenants = false := by rfl) (hjobs : F.jobs = false := by rfl) : LeavesKept id s0 t where
  inv := hk.inv h.inv
  count := hk.wg_eq hwg ▸ h.count
  signer := hk.wg_eq hwg ▸ h.signer
  leaves c := hk.tenant_eq htenants c ▸ h.leaves c
  group c := hk.tenant_eq htenants c ▸ h.group c
  job := hk.job_eq hjobs id ▸ h.job

theorem LeavesKept.modJobAt (h : LeavesKept id s0 s) {f : Job → Job} (hf : JobKept (s.job id) (f (s.job id))) :
    LeavesKept id s0 (s.modJob id f) where
  inv := (modJob_keeps (F := { jobs := true }) s id f rfl (Keeps.refl _ s)).inv h.inv
  count := h.count
  signer := h.signer
  leaves := h.leaves
  group := h.group
  job := by rw [State.modJob_same h.inv.wf]; exact h.job.trans hf

theorem LeavesKept.modJob (h : LeavesKept id s0 s) {f : Job → Job} (hf : ∀ j, JobKept j (f j)) :
    LeavesKept id s0 (s.modJob id f) := h.modJobAt (hf _)

theorem LeavesKept.modTenant (h : LeavesKept id s0 s) (c : Nat) {f : Tenant → Tenant}
    (hleaves : ∀ t, (f t).leaves = t.leaves := by exact fun _ => rfl)
    (hgroup : ∀ t, (f t).wgT = t.wgT := by exact fun _ => rfl) : LeavesKept id s0 (s.modTenant c f) where
  inv := (modTenant_keeps (F := { tenants := true }) s c f rfl (Keeps.refl _ s)).inv h.inv
  count := h.count
  signer := h.signer
  leaves d := by
    obtain rfl | hd := eq_or_ne d c
    · rw [State.modTenant_same h.inv.wf, hleaves, h.leaves]
    · rw [State.modTenant_other _ _ _ _ hd, h.leaves]
  group d := by
    obtain rfl | hd := eq_or_ne d c
    · rw [State.modTenant_same h.inv.wf, hgroup, h.group]
    · rw [State.modTenant_other _ _ _ _ hd, h.group]
  job := h.job

end Paths

/-! ## Events and records -/

section Events

variable {id : Nat} {s0 s : State}

theorem signalVec_leavesKept (c v : Nat) (h : LeavesKept id s0 s) : LeavesKept id s0 (signalVec s c v) := by
  unfold signalVec
  split
  · exact h.keeps (modFunc_keeps (F := { fns := true }) s c _ rfl (Keeps.refl _ s))
  · exact h.modTenant c

theorem raise_leavesKept (src : Nat) (info : W32) (h : LeavesKept id s0 s) : LeavesKept id s0 (raise s src info) := by
  have hpend : LeavesKept id s0 { s with ev.pend := s.ev.pend ||| (1#512 <<< src) } :=
    h.keeps (Keeps.set_ev (F := { ev := true }) rfl (Keeps.refl _ s))
  have hlogged (signal : Bool) :=
    hpend.keeps (recMerge_keeps (F := { ev := true }) _ src info signal rfl (Keeps.refl _ _))
  unfold raise
  exact .ite (signalVec_leavesKept _ _ (.ite (hlogged _) hpend)) (.ite (hlogged _) hpend)

theorem combSync_leavesKept (c : Nat) (h : LeavesKept id s0 s) : LeavesKept id s0 (combSync s c) := by
  unfold combSync
  exact .ite h (raise_leavesKept _ _ (h.keeps (modComb_keeps (F := { combs := true }) s c _ rfl (Keeps.refl _ s))))

theorem sticky_leavesKept (b : Nat) (info : W32) (h : LeavesKept id s0 s) : LeavesKept id s0 (sticky s b info) := by
  have hstick := h.keeps (stick_keeps (F := { aon := true }) s b rfl (Keeps.refl _ s))
  unfold sticky
  exact .ite (combSync_leavesKept b (raise_leavesKept _ info hstick)) (raise_leavesKept _ info hstick)

theorem eccCorrected_leavesKept (comb : Option Nat) (h : LeavesKept id s0 s) :
    LeavesKept id s0 (eccCorrected s comb) := by
  have hcount := h.keeps (eccCount_keeps (F := { ev := true }) s 1 rfl (Keeps.refl _ s))
  cases comb with
  | none => exact hcount
  | some c => exact raise_leavesKept _ _ hcount

theorem combCount1_leavesKept (c top : Nat) (get : Comb → Nat) (put : Comb → Nat → Comb) (h : LeavesKept id s0 s) :
    LeavesKept id s0 (combCount1 s c top get put) := by
  have hcount := h.keeps (modComb_keeps (F := { combs := true }) s c
    (fun b => put b (satAdd top (get (s.comb c)) 1)) rfl (Keeps.refl _ s))
  unfold combCount1
  exact .ite (raise_leavesKept _ _ hcount) hcount

theorem combFault_leavesKept (c : Nat) (cell : Option Cell) (info : W32) (h : LeavesKept id s0 s) :
    LeavesKept id s0 (combFault s c cell info) := by
  unfold combFault
  exact combSync_leavesKept c (raise_leavesKept _ info (h.keeps (stick_keeps (F := { combs := true, aon := true }) _ c
    rfl (modComb_keeps s c _ rfl (Keeps.refl _ s)))))

/-- The write of a record reports a refusal in WIN_DROP of its client, and changes no receipt. -/
theorem recordWrite_leavesKept (c a : Nat) (b : Bytes) (h : LeavesKept id s0 s) :
    LeavesKept id s0 (recordWrite s c a b).2 := by
  have hdrop : LeavesKept id s0 (winDrop s c) := h.modTenant c
  unfold recordWrite
  split
  · exact h
  · split
    · exact hdrop
    · split
      · exact hdrop
      · exact h.keeps (askXlate_keeps (F := { hi := true, dma := true, out := true }) s c _ _ rfl rfl rfl
          (Keeps.refl _ s))
      · exact h.keeps (emit_keeps (F := { hi := true, out := true }) _ _ rfl
          (.ite (linkActive_keeps s rfl rfl (Keeps.refl _ s)) (Keeps.refl _ s)))

end Events

/-! ## The decision on a job, and memory errors (R38) -/

section Decisions

variable {id : Nat} {s0 s : State}

theorem orphanJobReads_leavesKept (h : LeavesKept id s0 s) : LeavesKept id s0 (orphanJobReads s id) := by
  unfold orphanJobReads
  exact (h.keeps (orphanReads_keeps (F := { dma := true }) s false _ rfl (Keeps.refl _ s))).modJob fun _ => .ofSame

theorem decide7_leavesKept (st : Status) (detail : BitVec 8) (h : LeavesKept id s0 s) :
    LeavesKept id s0 (decide7 s id st detail) := by
  unfold decide7
  have hfree := ppFree_keeps (F := { ks := true }) (orphanJobReads s id) id rfl (Keeps.refl _ _)
  exact ((orphanJobReads_leavesKept h).keeps hfree).modJob fun _ => ⟨rfl, rfl, rfl, nofun, fun h => h⟩

theorem orphanJobReads_job (hs : s.Inv) : (orphanJobReads s id).job id = { s.job id with open_ := [] } := by
  have hreads (p : Req → Bool) := orphanReads_keeps (F := { dma := true }) s false p rfl (Keeps.refl _ s)
  unfold orphanJobReads
  dsimp only
  rw [State.modJob_same ((hreads _).wf hs), (hreads _).job_eq rfl]

theorem decide7_job_output (hs : s.Inv) (st : Status) (detail : BitVec 8) :
    ((decide7 s id st detail).job id).output = (s.job id).output := by
  have hfree := ppFree_keeps (F := { ks := true }) (orphanJobReads s id) id rfl (Keeps.refl _ _)
  have horphan := orphanJobReads_leavesKept (LeavesKept.refl id hs)
  rw [decide7, State.modJob_same (hfree.wf horphan.inv), hfree.job_eq rfl, orphanJobReads_job hs]

theorem poisonAfter_leavesKept (n : Nat) (h : LeavesKept id s0 s) : LeavesKept id s0 (poisonAfter s id n) := by
  unfold poisonAfter
  refine (decide7_leavesKept _ _ h).modJobAt ⟨rfl, rfl, rfl, fun h => h, fun hissued => ?_⟩
  rw [decide7_job_output h.inv] at hissued
  exact (List.length_take_le' n _).trans hissued

theorem closeHeld_leavesKept (h : LeavesKept id s0 s) : LeavesKept id s0 (closeHeld s id) :=
  h.keeps (closeHeld_keeps (F := { ctxs := true, combs := true }) s id rfl rfl (Keeps.refl _ s))

/-- One case for each memory error that is met, in the order in which `jobEccAt` has them. -/
theorem jobEccAt_leavesKept (e : JobEcc) (h : LeavesKept id s0 s) : LeavesKept id s0 (jobEccAt s id e) := by
  unfold jobEccAt
  dsimp only
  split
  · exact h
  · exact eccCorrected_leavesKept _ h
  · exact .ite (combFault_leavesKept _ _ _ h) h
  · exact .ite (closeHeld_leavesKept (poisonAfter_leavesKept 0 (sticky_leavesKept _ _ h))) h
  · exact .ite (closeHeld_leavesKept (poisonAfter_leavesKept 0 (combFault_leavesKept _ _ _ h))) h
  · exact .ite (poisonAfter_leavesKept _ (combFault_leavesKept _ _ _ h)) h
  · exact .ite (poisonAfter_leavesKept 0 (combFault_leavesKept _ _ _ h)) h
  · exact .ite h (poisonAfter_leavesKept 0 (sticky_leavesKept _ _ h))
  · exact .ite (poisonAfter_leavesKept 0 (sticky_leavesKept _ _ h)) h

end Decisions

/-! ## Destination writes (R90, R150) -/

section Writes

variable {id : Nat} {s0 s : State}

theorem overlapFix_length_le (s : State) (o : Op) (id : Nat) :
    (overlapFix s o id).length ≤ (s.job id).output.length := by
  unfold overlapFix
  dsimp only
  split
  · exact le_rfl
  · rw [List.length_zipWith]
    exact min_le_left _ _

/-- A job whose writes have all been issued has nothing left to write. -/
theorem leftToWrite_of_issued (h : (s.job id).output.length ≤ (s.job id).written) : leftToWrite s id = [] := by
  unfold leftToWrite
  dsimp only
  split
  · exact List.drop_eq_nil_of_le ((overlapFix_length_le s _ id).trans h)
  · rfl

theorem handOver_leavesKept (h : LeavesKept id s0 s) : LeavesKept id s0 (handOver s id) := by
  unfold handOver
  refine .ite h (h.modJobAt ⟨rfl, rfl, rfl, fun h => h, fun hissued => ?_⟩)
  simp only [leftToWrite_of_issued hissued, List.append_nil]
  exact List.length_take_le _ _

theorem peerDst_leavesKept (h : LeavesKept id s0 s) : LeavesKept id s0 (peerDst s id) := by
  refine h.modJob fun j => ?_
  split
  · exact ⟨rfl, rfl, rfl, fun h => h, fun _ => le_rfl⟩
  · exact ⟨rfl, rfl, rfl, fun h => h, fun _ => Nat.zero_le _⟩

theorem writeDst_leavesKept (h : LeavesKept id s0 s) : LeavesKept id s0 (writeDst s id).1 := by
  have hover := handOver_leavesKept h
  have hfails {t : State} (detail : BitVec 8) (ht : LeavesKept id s0 t) : LeavesKept id s0
      ((decide7 t id stDma detail).modJob id fun j => { j with output := j.output.take j.written }) :=
    (decide7_leavesKept _ _ ht).modJob fun _ => ⟨rfl, rfl, rfl, fun h => h, fun _ => List.length_take_le _ _⟩
  have htimed {t : State} (h : Nat) (un : Bool) (st : Nat) (ht : LeavesKept id s0 t) :
      LeavesKept id s0 (t.modJob id fun j => { j with tDone := h, unsync := un, combState := st }) :=
    ht.modJob fun _ => .ofSame
  unfold writeDst
  dsimp only
  split
  · exact peerDst_leavesKept hover
  split
  · exact hover
  generalize hr : writeOut (handOver s id) _ _ _ _ _ = r
  have hout : Keeps { hi := true, dma := true, out := true } (handOver s id) r.2.2 :=
    hr ▸ writeOut_keeps _ _ _ _ _ _ rfl rfl rfl (Keeps.refl _ _)
  have hissue : LeavesKept id s0 (r.2.2.modJob id fun j => { j with written := j.written + r.2.1 }) :=
    (hover.keeps hout).modJob fun _ => ⟨rfl, rfl, rfl, fun h => h, fun h => h.trans (Nat.le_add_right _ _)⟩
  split
  · exact hissue
  · exact hfails _ hissue
  · exact hfails _ hissue
  · split
    · exact htimed _ _ _ hissue
    · exact hissue

/-- Where all the output has been issued, the destination writes are done. -/
theorem writeDst_done (hs : s.Inv) (h : (s.job id).output.length ≤ (s.job id).written) :
    (writeDst s id).2 = true := by
  have hissued := (handOver_leavesKept (LeavesKept.refl id hs)).job.issued h
  unfold writeDst
  dsimp only
  rw [if_pos hissued]
  split <;> rfl

theorem leaveCell_leavesKept (h : LeavesKept id s0 s) : LeavesKept id s0 (leaveCell s id) :=
  h.modJob fun _ => .ofSame

theorem drainCell_leavesKept (h : LeavesKept id s0 s) : LeavesKept id s0 (drainCell s id) := by
  have hpages (n : Nat) : LeavesKept id s0 (s.modJob id fun j => { j with pages := n }) :=
    h.modJob fun _ => .ofSame
  unfold drainCell
  exact .ite (leaveCell_leavesKept (hpages _)) (hpages _)

end Writes

/-! ## Counters, charge, releases, and the record (R98, R109, R122) -/

section Closing

variable {id : Nat} {s0 s : State}

theorem endCounts_leavesKept (h : LeavesKept id s0 s) : LeavesKept id s0 (endCounts s id) := by
  have hcountIf {t : State} (b : Bool) (c top : Nat) (get : Comb → Nat) (put : Comb → Nat → Comb)
      (ht : LeavesKept id s0 t) : LeavesKept id s0 (if b then combCount1 t c top get put else t) :=
    .ite (combCount1_leavesKept c top get put ht) ht
  have hraiseIf {t : State} (b : Bool) (c src : Nat) (f : Comb → Comb) (ht : LeavesKept id s0 t) :
      LeavesKept id s0 (if b then raise (t.modComb c f) src 0 else t.modComb c f) := by
    have hmod := ht.keeps (modComb_keeps (F := { combs := true }) t c f rfl (Keeps.refl _ t))
    exact .ite (raise_leavesKept src 0 hmod) hmod
  unfold endCounts
  dsimp only
  split
  · refine .ite h (.ite (hraiseIf _ _ _ _ (combCount1_leavesKept _ _ _ _ ?_)) ?_)
    all_goals exact hcountIf _ _ _ _ _ (hcountIf _ _ _ _ _ (hcountIf _ _ _ _ _ (hcountIf _ _ _ _ _ h)))
  · exact h

theorem chargeBusy_leavesKept (n : Nat) (h : LeavesKept id s0 s) : LeavesKept id s0 (chargeBusy s id n) := by
  have hpaid (c : Nat) : LeavesKept id s0 (s.modJob id fun j => { j with credit := j.credit - c }) :=
    h.modJob fun _ => .ofSame
  unfold chargeBusy
  exact (hpaid _).keeps (chargeCycles_keeps (F := { sch := true }) _ id _ rfl (Keeps.refl _ _))

theorem endCtx_leavesKept (abandoned : Bool) (h : LeavesKept id s0 s) : LeavesKept id s0 (endCtx s id abandoned) := by
  have hfree : LeavesKept id s0 (s.modJob id fun j => { j with holdsCtx := false }) :=
    h.modJob fun _ => .ofSame
  have hmod (c x : Nat) (f : Ctx → Ctx) :=
    hfree.keeps (modCtx_keeps (F := { ctxs := true }) _ c x f rfl (Keeps.refl _ _))
  have hclose (c x : Nat) :=
    hfree.keeps (closeCtx_keeps (F := { ctxs := true, combs := true }) _ c x rfl rfl (Keeps.refl _ _))
  have himport (c x : Nat) (f : Ctx → Ctx) (n : Nat) :=
    (hmod c x f).keeps (Keeps.set_freeN (F := { freeN := true }) (xfreeN := n) rfl (Keeps.refl _ _))
  unfold endCtx
  dsimp only
  split
  · refine .ite h (.ite (hmod _ _ _) (.ite (.ite (himport _ _ _ _) (hmod _ _ _)) ?_))
    exact .ite (hclose _ _) (.ite (hmod _ _ _) (.ite (hmod _ _ _) (hclose _ _)))
  · exact h

theorem releaseJob_leavesKept (abandoned : Bool) (h : LeavesKept id s0 s) :
    LeavesKept id s0 (releaseJob s id abandoned) := by
  have hrefs := h.keeps (Keeps.each (F := { slots := true }) (s.job id).refs dropRef
    (fun x p hx => dropRef_keeps x p rfl hx) (Keeps.refl _ s))
  have hrun (l : List Nat) := hrefs.keeps (freeRun_keeps (F := { slots := true }) _ l rfl (Keeps.refl _ _))
  unfold releaseJob
  exact ((endCtx_leavesKept abandoned (hrun _)).keeps (ppFree_keeps (F := { ks := true, combs := true }) _ id rfl
    (cacheDrop_keeps _ _ rfl (Keeps.refl _ _)))).modJob fun _ => .ofSame

theorem closeJob_leavesKept (overlapFree : Nat) (h : LeavesKept id s0 s) :
    LeavesKept id s0 (closeJob s id overlapFree) := by
  unfold closeJob
  dsimp only
  refine (releaseJob_leavesKept false (chargeBusy_leavesKept _ (endCounts_leavesKept (h.modJob ?_)))).modJob ?_
  all_goals exact fun _ => .ofSame

/-- The record leaves without a leaf: the job ends, or its record waits. -/
theorem sendResult_leavesKept (h : LeavesKept id s0 s) : LeavesKept id s0 (sendResult s id) := by
  have hend {t : State} (b : Bytes) (ht : LeavesKept id s0 t) :
      LeavesKept id s0 (t.modJob id fun j => { j with stage := .ended, record := b }) :=
    ht.modJob fun _ => ⟨rfl, rfl, rfl, nofun, fun h => h⟩
  unfold sendResult
  dsimp only
  split
  · exact hend _ (h.keeps (Keeps.set_peer (F := { peer := true }) rfl
      (dropPacket_keeps s id rfl (Keeps.refl _ s)) fun hwf => hwf))
  · have hwrite := recordWrite_leavesKept (s.job id).client (resultAddr s (s.job id)) (recordOf (s.job id)) h
    split
    · exact hwrite
    · exact hend _ hwrite

end Closing

end Sys2Proof.Machine
end

section
/-! SUPPORT. Stage 8 (R260, R264): the wait for a leaf, and the theorem that settles O39. -/

namespace Sys2Proof.Machine

theorem receiptsOn_iff {s : State} {c : Nat} :
    receiptsOn s c = true ↔ (s.tenant c).wgT.enable = true ∧ s.wg.signer = true := by
  simp [receiptsOn]

theorem LeavesKept.wantsLeaf {id : Nat} {s t : State} (h : LeavesKept id s t) :
    (t.job id).wantsLeaf = (s.job id).wantsLeaf := by
  simp only [Job.wantsLeaf, h.job.desc]

theorem LeavesKept.receiptsOn {id : Nat} {s t : State} (h : LeavesKept id s t) :
    receiptsOn t (t.job id).client = receiptsOn s (s.job id).client := by
  simp only [Machine.receiptsOn, h.job.client, h.group, h.signer]

/-- Job `m` is at the stage it was, and has a leaf or none as it had. -/
structure PlaceKept (m : Nat) (s t : State) : Prop where
  inv : t.Inv
  stage : (t.job m).stage = (s.job m).stage
  isLeaf : (t.job m).isLeaf = (s.job m).isLeaf

theorem PlaceKept.keeps {F : Foot} {m : Nat} {s t u : State} (h : PlaceKept m s t) (hk : Keeps F t u)
    (hjobs : F.jobs = false := by rfl) : PlaceKept m s u where
  inv := hk.inv h.inv
  stage := hk.job_eq hjobs m ▸ h.stage
  isLeaf := hk.job_eq hjobs m ▸ h.isLeaf

/-- To become pending moves no job out of stage 8. -/
theorem PlaceKept.setPending {m : Nat} {s t : State} (h : PlaceKept m s t) (n : Nat) :
    PlaceKept m s (t.modJob n fun j => { j with pendingLeaf := true }) := by
  have hk := modJob_keeps (F := { jobs := true }) t n (fun j => { j with pendingLeaf := true }) rfl (Keeps.refl _ t)
  obtain rfl | hm := eq_or_ne m n
  · exact ⟨hk.inv h.inv, by rw [State.modJob_same h.inv.wf]; exact h.stage,
      by rw [State.modJob_same h.inv.wf]; exact h.isLeaf⟩
  · exact ⟨hk.inv h.inv, by rw [State.modJob_other _ _ _ _ hm]; exact h.stage,
      by rw [State.modJob_other _ _ _ _ hm]; exact h.isLeaf⟩

theorem refreshPending_placeKept {s : State} (hs : s.Inv) (m : Nat) : PlaceKept m s (refreshPending s) := by
  have hround (l : List Nat) (may : State → Nat → Bool) : PlaceKept m s (s.each l fun t n =>
      if may t n then t.modJob n fun j => { j with pendingLeaf := true } else t) := by
    refine List.foldlRecOn l _ ⟨hs, rfl, rfl⟩ fun t ht n _ => ?_
    split
    · exact ht.setPending n
    · exact ht
  have hraiseIf (b : Bool) {t : State} (ht : PlaceKept m s t) : PlaceKept m s (if b then raiseHive t 7 0 else t) := by
    split
    · exact ht.keeps (raiseHive_keeps (F := { ev := true, fns := true, tenants := true }) t 7 0 rfl rfl rfl
        (Keeps.refl _ t))
    · exact ht
  unfold refreshPending
  dsimp only
  exact hraiseIf _ ((hround _ _).keeps (Keeps.set_wg (F := { wg := true }) rfl (Keeps.refl _ _)))

/-- Where its receipts are enabled, a job that asks for one waits at stage 8 for its leaf. -/
theorem endSeven_waits {s : State} {id : Nat} (hs : s.Inv) (hwants : (s.job id).wantsLeaf = true)
    (hon : receiptsOn s (s.job id).client = true) :
    ((endSeven s id).job id).stage = .leaf ∧ ((endSeven s id).job id).isLeaf = (s.job id).isLeaf := by
  have hk := modJob_keeps (F := { jobs := true }) s id (fun j => { j with stage := .leaf }) rfl (Keeps.refl _ s)
  obtain ⟨-, hstage, hleaf⟩ := refreshPending_placeKept (hk.inv hs) id
  simp only [State.modJob_same hs.wf] at hstage hleaf
  simp only [endSeven, hwants, hon, Bool.and_self, if_true]
  exact ⟨hstage, hleaf⟩

/-- Where its receipts are disabled, the job's record leaves without a leaf. -/
theorem endSeven_leavesKept {id : Nat} {s0 s : State} (hoff : receiptsOn s (s.job id).client = false)
    (h : LeavesKept id s0 s) : LeavesKept id s0 (endSeven s id) := by
  simp only [endSeven, hoff, Bool.and_false]
  exact sendResult_leavesKept h

/-- The state after the memory error that the end of job `id` meets (R38). -/
def eccMet (s : State) (id : Nat) (ecc : JobEcc) : State := if (s.job id).noComb then s else jobEccAt s id ecc

/-- The state in which job `id`, all of its writes issued, comes to the end of stage 7. -/
def sevenEnded (s : State) (id overlapFree : Nat) (ecc : JobEcc) : State :=
  closeJob (leaveCell (writeDst (eccMet s id ecc) id).1 id) id overlapFree

/-- What JOB_END does with a decided job whose record has not been formed. -/
theorem opJobEnd_eq {s : State} {id : Nat} (overlapFree : Nat) (ecc : JobEcc) (hclock : s.hv.fclk = true)
    (hjob : s.hasJob id = true) (hstage : (s.job id).stage = .cellDone) (hrecord : (s.job id).record = []) :
    opJobEnd id overlapFree ecc s =
      if (writeDst (eccMet s id ecc) id).2 then endSeven (sevenEnded s id overlapFree ecc) id
      else drainCell (writeDst (eccMet s id ecc) id).1 id := by
  unfold opJobEnd
  dsimp only
  rw [if_neg (by simp [hclock, hjob, hstage]), if_neg (by simp [hrecord])]
  rfl

/-- A job whose record waited is offered again, at no other stage. -/
theorem opJobEnd_of_record {s : State} {id : Nat} (overlapFree : Nat) (ecc : JobEcc) (hclock : s.hv.fclk = true)
    (hjob : s.hasJob id = true) (hstage : (s.job id).stage = .cellDone) (hrecord : (s.job id).record ≠ []) :
    opJobEnd id overlapFree ecc s = sendResult s id := by
  simp [opJobEnd, hclock, hjob, hstage, hrecord]

theorem eccMet_leavesKept {id : Nat} {s0 s : State} (ecc : JobEcc) (h : LeavesKept id s0 s) :
    LeavesKept id s0 (eccMet s id ecc) := .ite h (jobEccAt_leavesKept ecc h)

theorem sevenEnded_leavesKept {id : Nat} {s0 s : State} (overlapFree : Nat) (ecc : JobEcc) (h : LeavesKept id s0 s) :
    LeavesKept id s0 (sevenEnded s id overlapFree ecc) :=
  closeJob_leavesKept overlapFree (leaveCell_leavesKept (writeDst_leavesKept (eccMet_leavesKept ecc h)))

/-- With its receipts disabled, the end of a job forms no leaf, whatever its writes do. -/
theorem opJobEnd_leavesKept {s : State} {id : Nat} (overlapFree : Nat) (ecc : JobEcc) (hs : s.Inv)
    (hclock : s.hv.fclk = true) (hjob : s.hasJob id = true) (hstage : (s.job id).stage = .cellDone)
    (hoff : receiptsOn s (s.job id).client = false) : LeavesKept id s (opJobEnd id overlapFree ecc s) := by
  have hkept := LeavesKept.refl id hs
  by_cases hrecord : (s.job id).record = []
  · have hended := sevenEnded_leavesKept overlapFree ecc hkept
    rw [opJobEnd_eq overlapFree ecc hclock hjob hstage hrecord]
    exact .ite (endSeven_leavesKept (hended.receiptsOn.trans hoff) hended)
      (drainCell_leavesKept (writeDst_leavesKept (eccMet_leavesKept ecc hkept)))
  · rw [opJobEnd_of_record overlapFree ecc hclock hjob hstage hrecord]
    exact sendResult_leavesKept hkept

/-- With its receipts enabled, a job that asks for one and has nothing left to write comes to stage 8 and waits. -/
theorem opJobEnd_waits {s : State} {id : Nat} (overlapFree : Nat) (ecc : JobEcc) (hs : s.Inv)
    (hclock : s.hv.fclk = true) (hjob : s.hasJob id = true) (hstage : (s.job id).stage = .cellDone)
    (hon : receiptsOn s (s.job id).client = true) (hwants : (s.job id).wantsLeaf = true)
    (hrecord : (s.job id).record = []) (hissued : (s.job id).output.length ≤ (s.job id).written) :
    ((opJobEnd id overlapFree ecc s).job id).stage = .leaf ∧
      ((opJobEnd id overlapFree ecc s).job id).isLeaf = (s.job id).isLeaf := by
  have hmet := eccMet_leavesKept ecc (LeavesKept.refl id hs)
  have hended := sevenEnded_leavesKept overlapFree ecc (LeavesKept.refl id hs)
  rw [opJobEnd_eq overlapFree ecc hclock hjob hstage hrecord, if_pos (writeDst_done hmet.inv (hmet.job.issued hissued)),
    ← hended.job.isLeaf]
  exact endSeven_waits hended.inv (hended.wantsLeaf.trans hwants) (hended.receiptsOn.trans hon)

/-- Settles O39: up to stage 8 a job's end keeps the leaves, the signer and the client's receipt group, so stage 8
tests what the state before it says. -/
theorem receiptsEnabled : Obligations.ReceiptsEnabled := by
  refine ⟨fun id n ecc s hrun hjob hstage hoff hleaf => ?_,
    fun id n ecc s hrun hjob hstage henable hsigner hwants hrecord hissued => ?_⟩
  all_goals obtain ⟨hs, ⟨-, hclock, -⟩, -⟩ := hrun
  · have hkept := opJobEnd_leavesKept n ecc hs hclock hjob hstage (Bool.eq_false_iff.2 (mt receiptsOn_iff.1 hoff))
    exact ⟨_, rfl, hkept.job.isLeaf.trans hleaf, hkept.job.notWaiting (by simp [hstage]), hkept.count,
      hkept.leaves⟩
  · exact ⟨_, rfl, opJobEnd_waits n ecc hs hclock hjob hstage (receiptsOn_iff.2 ⟨henable, hsigner⟩) hwants hrecord
      hissued⟩

end Sys2Proof.Machine
end

section
/-! SUPPORT. The status balls (R423, R434, R436, R438): the drive of a pad, the conditions behind each ball, and the
theorem that settles O58. -/

namespace Sys2Proof.Machine

/-! ## The drive of a pad (R434) -/

@[simp] theorem driveOf_eq_high {b : Bool} : driveOf b = .high ↔ b = true := by cases b <;> simp [driveOf]

@[simp] theorem driveOf_eq_low {b : Bool} : driveOf b = .low ↔ b = false := by cases b <;> simp [driveOf]

theorem ball_driven {s : State} {domain : Nat} (h : undriven s domain = false) (d : Drive) : ball s domain d = d := by
  simp [ball, h]

theorem ball_undriven {s : State} {domain : Nat} (h : undriven s domain = true) (d : Drive) :
    ball s domain d = .highZ := by
  simp [ball, h]

/-- Before power-on, while HIVE_RST_N is held and with VDD_AON low, the pads of every supply are released. -/
theorem undriven_every_domain {s : State}
    (h : s.hv.step = 0 ∨ s.hv.rstHeld = true ∨ s.aon.low.getLsbD domVddAon = true) (domain : Nat) :
    undriven s domain = true := by
  obtain hstep | hreset | hlow := h
  · simp [undriven, hstep]
  · simp [undriven, hreset]
  · simp [undriven, unpowered, hlow]

/-! ## The conditions of HIVE_ALERT_N and HIVE_SYNC_OK (R423, R391, R436) -/

theorem mem_map_add_range {b k n : Nat} : b ∈ (List.range n).map (k + ·) ↔ k ≤ b ∧ b < k + n := by
  rw [← List.range'_eq_map_range, List.mem_range'_1]

/-- The bits that drive the alert: those that nothing masks, then the groups of ST_ALERT. -/
theorem mem_alertMask {alert : BitVec 3} {b : Nat} :
    b ∈ alertMask alert ↔
      80 ≤ b ∧ b ≤ 87 ∨ b = 94 ∨ b = 95 ∨ alert.getLsbD 0 = true ∧ b < 64 ∨
        alert.getLsbD 1 = true ∧ 64 ≤ b ∧ b ≤ 75 ∨
        alert.getLsbD 2 = true ∧ (88 ≤ b ∧ b ≤ 93 ∨ 96 ≤ b ∧ b ≤ 105) := by
  simp only [alertMask, List.mem_append, List.mem_ite_nil_right, mem_map_add_range, List.mem_range, List.mem_cons,
    List.not_mem_nil, or_false, or_assoc]
  simp only [← Nat.lt_succ_iff]

theorem alerted_iff {s : State} :
    alerted s = true ↔
      (∃ b, s.aon.sticky.getLsbD b = true ∧ b ∈ alertMask s.aon.alert) ∨
        s.aon.latch ≠ 0 ∨ s.hv.fail ≠ 0 ∨ s.lcCode = 0x0600 := by
  simp only [alerted, Bool.or_eq_true, List.any_eq_true, bne_iff_ne, beq_iff_eq, or_assoc, and_comm]

theorem syncOk_iff {s : State} :
    syncOk s = true ↔ s.hv.ready = true ∧ (s.sync.state = 2 ∨ s.sync.state = 3 ∧ s.hv.syncHold = true) := by
  simp [syncOk]

/-! ## The balls -/

theorem ballAlertN_low_iff {s : State} (h : undriven s domVddioAon = false) :
    ballAlertN s = .low ↔ alerted s = true := by
  simp [ballAlertN, ball_driven h]

theorem ballSyncOk_high_iff {s : State} (h : undriven s domVddioHv = false) :
    ballSyncOk s = .high ↔ syncOk s = true := by
  simp [ballSyncOk, ball_driven h]

theorem ballSyncOk_low_of_not_ready {s : State} (h : undriven s domVddioHv = false) (hready : s.hv.ready = false) :
    ballSyncOk s = .low := by
  simp [ballSyncOk, ball_driven h, syncOk, hready]

theorem ballReady_high_iff {s : State} (h : undriven s domVddioHv = false) :
    ballReady s = .high ↔ s.hv.ready = true := by
  simp [ballReady, ball_driven h]

/-- The isolation cells stop every priority, and give each copy the level its resistor pulls to (R438). -/
theorem isolated_outputs {s : State} (h : isolated s = true) :
    pinXoff s = 0xFF ∧ copyReady s = false ∧ copyTamperOut s = true := by
  simp [pinXoff, copyReady, copyTamperOut, h]

/-- Settles O58: each driven ball is the condition behind it, and a released pad is high-Z whatever that says. -/
theorem alertAndSyncBalls : Obligations.AlertAndSyncBalls := by
  refine ⟨fun s h => ?_, fun s h => ?_, fun s => ballSyncOk_low_of_not_ready, fun s => ballReady_high_iff,
    fun s h => ?_, fun s => isolated_outputs⟩
  · rw [ballAlertN_low_iff h, alerted_iff]
    simp only [mem_alertMask]
  · rw [ballSyncOk_high_iff h, syncOk_iff]
  · have hz := undriven_every_domain h
    exact ⟨ball_undriven (hz _) _, ball_undriven (hz _) _, ball_undriven (hz _) _, ball_undriven (hz _) _⟩

end Sys2Proof.Machine
end

section
/-! SUPPORT. One command of the machine: it answers a next state, leaves the queue of commands alone, keeps the
invariant and stays within its footprint. The theorems that settle O1, O2, O3, O4, O5 and O60. -/

namespace Sys2Proof.Machine

/-! ## The gates in front of a command -/

section Gates

variable {F : Foot} {s0 s : State}

theorem Keeps.wake {n : Nat} (h : Keeps F s0 s) (hv : F.hv = true) : Keeps F s0 (wake s n) := wake_keeps _ _ hv h

theorem Keeps.fnActive {c : Nat} (h : Keeps F s0 s) (hi : F.hi = true) (out : F.out = true) :
    Keeps F s0 (fnActive s c) := fnActive_keeps _ _ hi out h

theorem Keeps.onClock {on : Bool} {k : State → State} (hk : ∀ u, Keeps F s u → Keeps F s (k u)) :
    Keeps F s (onClock on s k) := onClock_keeps _ _ _ hk (Keeps.refl _ _)

theorem Keeps.whenClocked {i : Instr} {k : State → State} (hv : F.hv = true) (hk : ∀ u, Keeps F s u → Keeps F s (k u)) :
    Keeps F s (whenClocked i s k) := whenClocked_keeps _ _ _ hk hv (Keeps.refl _ _)

theorem Keeps.whenAwake {i : Instr} {k : State → State} (hv : F.hv = true) (hk : ∀ u, Keeps F s u → Keeps F s (k u)) :
    Keeps F s (whenAwake i s k) := whenAwake_keeps _ _ _ hk hv (Keeps.refl _ _)

theorem Keeps.doeRequest {i : Instr} {k : State → State} (hv : F.hv = true) (doe : F.doe = true)
    (hk : ∀ u, Keeps F s u → Keeps F s (k u)) : Keeps F s (doeRequest i s k) :=
  doeRequest_keeps _ _ _ hk hv doe (Keeps.refl _ _)

theorem Keeps.mctpMessage {i : Instr} {k : State → State} (hv : F.hv = true)
    (hk : ∀ u, Keeps F s u → Keeps F s (k u)) : Keeps F s (mctpMessage i s k) :=
  mctpMessage_keeps _ _ _ hk hv (Keeps.refl _ _)

/-- What a tamper source reports may serve every access that a sleeping Hive holds. -/
theorem Keeps.settle {t : State} (h : Keeps (footOf .pllLockLoss) s t) :
    Keeps (footOf .pllLockLoss) s (settle s t) := by
  apply settle_keeps <;> first | rfl | exact h | exact Keeps.refl _ _

end Gates

/-- No command is refused and none faults; each stays within its frame. -/
theorem exec_keeps (c : Instr) (s : State) : ∃ t, exec c s = .next t ∧ Keeps (footOf c) s t := by
  cases c with
  | coldPowerOn => exact ⟨_, rfl, by apply opColdPowerOn_keeps <;> first | rfl | exact Keeps.refl _ _⟩
  | warmReset => exact ⟨_, rfl, by apply opWarmReset_keeps <;> first | rfl | exact Keeps.refl _ _⟩
  | hiveRstNAssert => exact ⟨_, rfl, by apply opHiveRstNAssert_keeps <;> first | rfl | exact Keeps.refl _ _⟩
  | startupStepDone =>
    refine ⟨_, rfl, ?_⟩
    refine Keeps.ite (Keeps.refl _ _) ?_
    apply opStartupStepDone_keeps <;> first | rfl | exact Keeps.refl _ _
  | pllLockTimeout => exact ⟨_, rfl, by apply opPllLockTimeout_keeps <;> first | rfl | exact Keeps.refl _ _⟩
  | svnCommitProgram => exact ⟨_, rfl, by apply opSvnCommitProgram_keeps <;> first | rfl | exact Keeps.refl _ _⟩
  | keeperRestart =>
    refine ⟨_, rfl, ?_⟩
    refine Keeps.ite (Keeps.onClock fun _ h => ?_) (Keeps.whenClocked rfl fun _ h => ?_)
    · apply opKeeperRestart_keeps <;> first | rfl | exact h
    · apply opKeeperRestart_keeps <;> first | rfl | exact h.wake rfl
  | keeperWatchdogExpiry => exact ⟨_, rfl,
      Keeps.onClock fun _ h => by apply opKeeperWatchdogExpiry_keeps <;> first | rfl | exact h⟩
  | qDbWrite => exact ⟨_, rfl,
      Keeps.whenClocked rfl fun _ h => by
      apply opQDbWrite_keeps <;> first | rfl | exact (h.wake rfl).fnActive rfl rfl⟩
  | qDbNodataWrite => exact ⟨_, rfl,
      Keeps.whenClocked rfl fun _ h => by
      apply opQDbNodataWrite_keeps <;> first | rfl | exact (h.wake rfl).fnActive rfl rfl⟩
  | producerMirrorReadDone => exact ⟨_, rfl,
      Keeps.onClock fun _ h => by apply opProducerMirrorReadDone_keeps <;> first | rfl | exact h⟩
  | pushWindowWrite => exact ⟨_, rfl,
      Keeps.whenClocked rfl fun _ h => by
      apply opPushWindowWrite_keeps <;> first | rfl | exact (h.wake rfl).fnActive rfl rfl⟩
  | pushStagingTimeout => exact ⟨_, rfl,
      Keeps.onClock fun _ h => by apply opPushStagingTimeout_keeps <;> first | rfl | exact h⟩
  | descriptorPrefetch => exact ⟨_, rfl,
      Keeps.onClock fun _ h => by apply opDescriptorPrefetch_keeps <;> first | rfl | exact h⟩
  | descriptorFetchDone => exact ⟨_, rfl, by apply opDescriptorFetchDone_keeps <;> first | rfl | exact Keeps.refl _ _⟩
  | qCmdEnable => exact ⟨_, rfl,
      Keeps.whenClocked rfl fun _ h => by apply qCmd_keeps <;> first | rfl | exact h.wake rfl⟩
  | qCmdPause => exact ⟨_, rfl,
      Keeps.whenClocked rfl fun _ h => by apply qCmd_keeps <;> first | rfl | exact h.wake rfl⟩
  | pauseAck => exact ⟨_, rfl, Keeps.onClock fun _ h => by apply opPauseAck_keeps <;> first | rfl | exact h⟩
  | qCmdResume => exact ⟨_, rfl,
      Keeps.whenClocked rfl fun _ h => by apply qCmd_keeps <;> first | rfl | exact h.wake rfl⟩
  | qCmdReset => exact ⟨_, rfl,
      Keeps.whenClocked rfl fun _ h => by apply qCmd_keeps <;> first | rfl | exact h.wake rfl⟩
  | resetAck => exact ⟨_, rfl, Keeps.onClock fun _ h => by apply opResetAck_keeps <;> first | rfl | exact h⟩
  | qCmdInvalidate => exact ⟨_, rfl,
      Keeps.whenClocked rfl fun _ h => by apply qCmd_keeps <;> first | rfl | exact h.wake rfl⟩
  | invalidateAck => exact ⟨_, rfl, Keeps.onClock fun _ h => by apply opInvalidateAck_keeps <;> first | rfl | exact h⟩
  | qCmdRestart => exact ⟨_, rfl,
      Keeps.whenClocked rfl fun _ h => by apply qCmd_keeps <;> first | rfl | exact h.wake rfl⟩
  | restartAck => exact ⟨_, rfl, Keeps.onClock fun _ h => by apply opRestartAck_keeps <;> first | rfl | exact h⟩
  | qCmdReserved => exact ⟨_, rfl,
      Keeps.whenClocked rfl fun _ h => by apply opQCmdReserved_keeps <;> first | rfl | exact h.wake rfl⟩
  | queueDrainEnd => exact ⟨_, rfl, Keeps.onClock fun _ h => by apply opQueueDrainEnd_keeps <;> first | rfl | exact h⟩
  | jobDispatch => exact ⟨_, rfl, by apply opJobDispatch_keeps <;> first | rfl | exact Keeps.refl _ _⟩
  | schedulingEpochStart => exact ⟨_, rfl, by apply opSchedulingEpochStart_keeps <;> first | rfl | exact Keeps.refl _ _⟩
  | keyPull => exact ⟨_, rfl, by apply opKeyPull_keeps <;> first | rfl | exact Keeps.refl _ _⟩
  | nonceReservationWriteDone => exact ⟨_, rfl,
      Keeps.onClock fun _ h => by apply opNonceReservationWriteDone_keeps <;> first | rfl | exact h⟩
  | readCompletion => exact ⟨_, rfl,
      Keeps.whenClocked rfl fun _ h => by apply opReadCompletion_keeps <;> first | rfl | exact h⟩
  | completionTimeout => exact ⟨_, rfl,
      Keeps.onClock fun _ h => by apply opCompletionTimeout_keeps <;> first | rfl | exact h⟩
  | atsTranslationCompletion => exact ⟨_, rfl,
      Keeps.whenClocked rfl fun _ h => by apply opAtsTranslationCompletion_keeps <;> first | rfl | exact h⟩
  | atsInvalidationRequest => exact ⟨_, rfl,
      Keeps.whenClocked rfl fun _ h => by apply opAtsInvalidationRequest_keeps <;> first | rfl | exact h⟩
  | atsInvalidationDone => exact ⟨_, rfl,
      Keeps.onClock fun _ h => by apply opAtsInvalidationDone_keeps <;> first | rfl | exact h⟩
  | sliceBoundary => exact ⟨_, rfl, by apply opSliceBoundary_keeps <;> first | rfl | exact Keeps.refl _ _⟩
  | jobEnd => exact ⟨_, rfl, by apply opJobEnd_keeps <;> first | rfl | exact Keeps.refl _ _⟩
  | leafAssign => exact ⟨_, rfl, by apply opLeafAssign_keeps <;> first | rfl | exact Keeps.refl _ _⟩
  | headAdvance => exact ⟨_, rfl, Keeps.onClock fun _ h => by apply opHeadAdvance_keeps <;> first | rfl | exact h⟩
  | headMirrorWrite => exact ⟨_, rfl,
      Keeps.onClock fun _ h => by apply opHeadMirrorWrite_keeps <;> first | rfl | exact h⟩
  | completionRecordWrite => exact ⟨_, rfl,
      Keeps.onClock fun _ h => by apply opCompletionRecordWrite_keeps <;> first | rfl | exact h⟩
  | tnCrConsWrite => exact ⟨_, rfl,
      Keeps.whenClocked rfl fun _ h => by apply opTnCrConsWrite_keeps <;> first | rfl | exact h.wake rfl⟩
  | fenceEnd => exact ⟨_, rfl, Keeps.onClock fun _ h => by apply opFenceEnd_keeps <;> first | rfl | exact h⟩
  | nop => exact ⟨_, rfl, by apply opNop_keeps <;> first | rfl | exact Keeps.refl _ _⟩
  | fence => exact ⟨_, rfl, by apply opFence_keeps <;> first | rfl | exact Keeps.refl _ _⟩
  | stamp => exact ⟨_, rfl, by apply opStamp_keeps <;> first | rfl | exact Keeps.refl _ _⟩
  | aesGcmEnc => exact ⟨_, rfl, by apply opAesGcmEnc_keeps <;> first | rfl | exact Keeps.refl _ _⟩
  | aesGcmDec => exact ⟨_, rfl, by apply opAesGcmDec_keeps <;> first | rfl | exact Keeps.refl _ _⟩
  | aesCcmEnc => exact ⟨_, rfl, by apply opAesCcmEnc_keeps <;> first | rfl | exact Keeps.refl _ _⟩
  | aesCcmDec => exact ⟨_, rfl, by apply opAesCcmDec_keeps <;> first | rfl | exact Keeps.refl _ _⟩
  | aesCbcEnc => exact ⟨_, rfl, by apply opAesCbcEnc_keeps <;> first | rfl | exact Keeps.refl _ _⟩
  | aesCbcDec => exact ⟨_, rfl, by apply opAesCbcDec_keeps <;> first | rfl | exact Keeps.refl _ _⟩
  | aesCtr => exact ⟨_, rfl, by apply opAesCtr_keeps <;> first | rfl | exact Keeps.refl _ _⟩
  | aesXtsEnc => exact ⟨_, rfl, by apply opAesXtsEnc_keeps <;> first | rfl | exact Keeps.refl _ _⟩
  | aesXtsDec => exact ⟨_, rfl, by apply opAesXtsDec_keeps <;> first | rfl | exact Keeps.refl _ _⟩
  | chachaPolyEnc => exact ⟨_, rfl, by apply opChachaPolyEnc_keeps <;> first | rfl | exact Keeps.refl _ _⟩
  | chachaPolyDec => exact ⟨_, rfl, by apply opChachaPolyDec_keeps <;> first | rfl | exact Keeps.refl _ _⟩
  | aesGmac => exact ⟨_, rfl, by apply opAesGmac_keeps <;> first | rfl | exact Keeps.refl _ _⟩
  | tls13RecSeal => exact ⟨_, rfl, by apply opTls13RecSeal_keeps <;> first | rfl | exact Keeps.refl _ _⟩
  | tls13RecOpen => exact ⟨_, rfl, by apply opTls13RecOpen_keeps <;> first | rfl | exact Keeps.refl _ _⟩
  | espSeal => exact ⟨_, rfl, by apply opEspSeal_keeps <;> first | rfl | exact Keeps.refl _ _⟩
  | espOpen => exact ⟨_, rfl, by apply opEspOpen_keeps <;> first | rfl | exact Keeps.refl _ _⟩
  | hash => exact ⟨_, rfl, by apply opHash_keeps <;> first | rfl | exact Keeps.refl _ _⟩
  | shakeXof => exact ⟨_, rfl, by apply opShakeXof_keeps <;> first | rfl | exact Keeps.refl _ _⟩
  | hmacGen => exact ⟨_, rfl, by apply opHmacGen_keeps <;> first | rfl | exact Keeps.refl _ _⟩
  | hmacVerify => exact ⟨_, rfl, by apply opHmacVerify_keeps <;> first | rfl | exact Keeps.refl _ _⟩
  | kmac => exact ⟨_, rfl, by apply opKmac_keeps <;> first | rfl | exact Keeps.refl _ _⟩
  | cmacGen => exact ⟨_, rfl, by apply opCmacGen_keeps <;> first | rfl | exact Keeps.refl _ _⟩
  | cmacVerify => exact ⟨_, rfl, by apply opCmacVerify_keeps <;> first | rfl | exact Keeps.refl _ _⟩
  | rsaPriv => exact ⟨_, rfl, by apply opRsaPriv_keeps <;> first | rfl | exact Keeps.refl _ _⟩
  | rsaPub => exact ⟨_, rfl, by apply opRsaPub_keeps <;> first | rfl | exact Keeps.refl _ _⟩
  | ecdsaSign => exact ⟨_, rfl, by apply opEcdsaSign_keeps <;> first | rfl | exact Keeps.refl _ _⟩
  | ecdsaVerify => exact ⟨_, rfl, by apply opEcdsaVerify_keeps <;> first | rfl | exact Keeps.refl _ _⟩
  | eddsaSign => exact ⟨_, rfl, by apply opEddsaSign_keeps <;> first | rfl | exact Keeps.refl _ _⟩
  | eddsaVerify => exact ⟨_, rfl, by apply opEddsaVerify_keeps <;> first | rfl | exact Keeps.refl _ _⟩
  | ecdh => exact ⟨_, rfl, by apply opEcdh_keeps <;> first | rfl | exact Keeps.refl _ _⟩
  | xdh => exact ⟨_, rfl, by apply opXdh_keeps <;> first | rfl | exact Keeps.refl _ _⟩
  | modexpRaw => exact ⟨_, rfl, by apply opModexpRaw_keeps <;> first | rfl | exact Keeps.refl _ _⟩
  | ecPointMulRaw => exact ⟨_, rfl, by apply opEcPointMulRaw_keeps <;> first | rfl | exact Keeps.refl _ _⟩
  | mlkemKeygen => exact ⟨_, rfl, by apply opMlkemKeygen_keeps <;> first | rfl | exact Keeps.refl _ _⟩
  | mlkemEncap => exact ⟨_, rfl, by apply opMlkemEncap_keeps <;> first | rfl | exact Keeps.refl _ _⟩
  | mlkemDecap => exact ⟨_, rfl, by apply opMlkemDecap_keeps <;> first | rfl | exact Keeps.refl _ _⟩
  | mldsaKeygen => exact ⟨_, rfl, by apply opMldsaKeygen_keeps <;> first | rfl | exact Keeps.refl _ _⟩
  | mldsaSign => exact ⟨_, rfl, by apply opMldsaSign_keeps <;> first | rfl | exact Keeps.refl _ _⟩
  | mldsaVerify => exact ⟨_, rfl, by apply opMldsaVerify_keeps <;> first | rfl | exact Keeps.refl _ _⟩
  | keyGenerate => exact ⟨_, rfl, by apply opKeyGenerate_keeps <;> first | rfl | exact Keeps.refl _ _⟩
  | keyDerive => exact ⟨_, rfl, by apply opKeyDerive_keeps <;> first | rfl | exact Keeps.refl _ _⟩
  | keyWrap => exact ⟨_, rfl, by apply opKeyWrap_keeps <;> first | rfl | exact Keeps.refl _ _⟩
  | keyUnwrap => exact ⟨_, rfl, by apply opKeyUnwrap_keeps <;> first | rfl | exact Keeps.refl _ _⟩
  | keyCheckValue => exact ⟨_, rfl, by apply opKeyCheckValue_keeps <;> first | rfl | exact Keeps.refl _ _⟩
  | keyInvalidate => exact ⟨_, rfl, by apply opKeyInvalidate_keeps <;> first | rfl | exact Keeps.refl _ _⟩
  | keyAttest => exact ⟨_, rfl, by apply opKeyAttest_keeps <;> first | rfl | exact Keeps.refl _ _⟩
  | keyAgreeToSlot => exact ⟨_, rfl, by apply opKeyAgreeToSlot_keeps <;> first | rfl | exact Keeps.refl _ _⟩
  | random => exact ⟨_, rfl, by apply opRandom_keeps <;> first | rfl | exact Keeps.refl _ _⟩
  | ctxExport => exact ⟨_, rfl, by apply opCtxExport_keeps <;> first | rfl | exact Keeps.refl _ _⟩
  | ctxImport => exact ⟨_, rfl, by apply opCtxImport_keeps <;> first | rfl | exact Keeps.refl _ _⟩
  | scrubPassStart => exact ⟨_, rfl, by apply opScrubPassStart_keeps <;> first | rfl | exact Keeps.refl _ _⟩
  | scrubSlotVisit => exact ⟨_, rfl, by apply opScrubSlotVisit_keeps <;> first | rfl | exact Keeps.refl _ _⟩
  | ksZeroiseStart => exact ⟨_, rfl,
      Keeps.whenAwake rfl fun _ h => by apply opKsZeroiseStart_keeps <;> first | rfl | exact h⟩
  | zeroisationStep5Done => exact ⟨_, rfl,
      Keeps.onClock fun _ h => by apply opZeroisationStep5Done_keeps <;> first | rfl | exact h⟩
  | ksProvGenerate => exact ⟨_, rfl,
      Keeps.whenAwake rfl fun _ h => by apply provCommit_keeps <;> first | rfl | exact h⟩
  | ksProvUnwrap => exact ⟨_, rfl, Keeps.whenAwake rfl fun _ h => by apply provCommit_keeps <;> first | rfl | exact h⟩
  | ksProvInvalidate => exact ⟨_, rfl,
      Keeps.whenAwake rfl fun _ h => by apply provCommit_keeps <;> first | rfl | exact h⟩
  | ksProvOp3 => exact ⟨_, rfl, Keeps.whenAwake rfl fun _ h => by apply opKsProvOp3_keeps <;> first | rfl | exact h⟩
  | provDone => exact ⟨_, rfl, Keeps.onClock fun _ h => by apply opProvDone_keeps <;> first | rfl | exact h⟩
  | todWord => exact ⟨_, rfl, by apply opTodWord_keeps <;> first | rfl | exact Keeps.refl _ _⟩
  | freezeEnd => exact ⟨_, rfl, by apply opFreezeEnd_keeps <;> first | rfl | exact Keeps.refl _ _⟩
  | todLost => exact ⟨_, rfl, by apply opTodLost_keeps <;> first | rfl | exact Keeps.refl _ _⟩
  | errorBoundExceeded => exact ⟨_, rfl, by apply opErrorBoundExceeded_keeps <;> first | rfl | exact Keeps.refl _ _⟩
  | ppsEdge => exact ⟨_, rfl, by apply opPpsEdge_keeps <;> first | rfl | exact Keeps.refl _ _⟩
  | ppsTimeout => exact ⟨_, rfl, by apply opPpsTimeout_keeps <;> first | rfl | exact Keeps.refl _ _⟩
  | epochClose => exact ⟨_, rfl, by apply opEpochClose_keeps <;> first | rfl | exact Keeps.refl _ _⟩
  | epochReservationWriteDone => exact ⟨_, rfl, by apply opEpochReservationWriteDone_keeps <;> first | rfl | exact Keeps.refl _ _⟩
  | receiptCheckpoint => exact ⟨_, rfl, by apply opReceiptCheckpoint_keeps <;> first | rfl | exact Keeps.refl _ _⟩
  | ckptLate => exact ⟨_, rfl, Keeps.onClock fun _ h => by apply opCkptLate_keeps <;> first | rfl | exact h⟩
  | wgMlogConsWrite => exact ⟨_, rfl,
      Keeps.whenClocked rfl fun _ h => by apply opWgMlogConsWrite_keeps <;> first | rfl | exact h.wake rfl⟩
  | tnRlogConsWrite => exact ⟨_, rfl,
      Keeps.whenClocked rfl fun _ h => by apply opTnRlogConsWrite_keeps <;> first | rfl | exact h.wake rfl⟩
  | peerWordWrite =>
    refine ⟨_, rfl, ?_⟩
    refine Keeps.ite (Keeps.refl _ _) (Keeps.whenClocked rfl fun _ h => ?_)
    apply opPeerWordWrite_keeps <;> first | rfl | exact h.wake rfl
  | packetRead => exact ⟨_, rfl, by apply opPacketRead_keeps <;> first | rfl | exact Keeps.refl _ _⟩
  | peerEgressHandoff => exact ⟨_, rfl, by apply opPeerEgressHandoff_keeps <;> first | rfl | exact Keeps.refl _ _⟩
  | piPeerReset => exact ⟨_, rfl,
      Keeps.whenClocked rfl fun _ h => by apply opPiPeerReset_keeps <;> first | rfl | exact h.wake rfl⟩
  | peerResetDone => exact ⟨_, rfl, Keeps.onClock fun _ h => by apply opPeerResetDone_keeps <;> first | rfl | exact h⟩
  | piCommit => exact ⟨_, rfl,
      Keeps.whenClocked rfl fun _ h => by apply opPiCommit_keeps <;> first | rfl | exact h.wake rfl⟩
  | tnAdmCreate => exact ⟨_, rfl,
      Keeps.whenClocked rfl fun _ h => by apply opTnAdmCreate_keeps <;> first | rfl | exact h.wake rfl⟩
  | tnAdmResize => exact ⟨_, rfl,
      Keeps.whenClocked rfl fun _ h => by apply opTnAdmResize_keeps <;> first | rfl | exact h.wake rfl⟩
  | tnAdmDestroy => exact ⟨_, rfl,
      Keeps.whenClocked rfl fun _ h => by apply opTnAdmDestroy_keeps <;> first | rfl | exact h.wake rfl⟩
  | tnAdmOp0 => exact ⟨_, rfl,
      Keeps.whenClocked rfl fun _ h => by apply opTnAdmOp0_keeps <;> first | rfl | exact h.wake rfl⟩
  | admKeeperTimeout => exact ⟨_, rfl, by apply opAdmKeeperTimeout_keeps <;> first | rfl | exact Keeps.refl _ _⟩
  | destroyComplete => exact ⟨_, rfl,
      Keeps.onClock fun _ h => by apply opDestroyComplete_keeps <;> first | rfl | exact h⟩
  | tnDmawEntryWrite => exact ⟨_, rfl,
      Keeps.whenClocked rfl fun _ h => by apply opTnDmawEntryWrite_keeps <;> first | rfl | exact h.wake rfl⟩
  | tnDmawFlip => exact ⟨_, rfl,
      Keeps.whenClocked rfl fun _ h => by apply opTnDmawFlip_keeps <;> first | rfl | exact h.wake rfl⟩
  | dmawFlipEffect => exact ⟨_, rfl,
      Keeps.onClock fun _ h => by apply opDmawFlipEffect_keeps <;> first | rfl | exact h⟩
  | dmawFlipDrained => exact ⟨_, rfl,
      Keeps.onClock fun _ h => by apply opDmawFlipDrained_keeps <;> first | rfl | exact h⟩
  | hiWttFlip => exact ⟨_, rfl,
      Keeps.whenClocked rfl fun _ h => by apply opHiWttFlip_keeps <;> first | rfl | exact h.wake rfl⟩
  | wttFlipEffect => exact ⟨_, rfl, Keeps.onClock fun _ h => by apply opWttFlipEffect_keeps <;> first | rfl | exact h⟩
  | wttFlipDrained => exact ⟨_, rfl,
      Keeps.onClock fun _ h => by apply opWttFlipDrained_keeps <;> first | rfl | exact h⟩
  | mbH2kMsgWrite => exact ⟨_, rfl,
      Keeps.whenAwake rfl fun _ h => by apply opMbH2kMsgWrite_keeps <;> first | rfl | exact h.fnActive rfl rfl⟩
  | h2kKeeperRead => exact ⟨_, rfl, by apply opH2kKeeperRead_keeps <;> first | rfl | exact Keeps.refl _ _⟩
  | echo => exact ⟨_, rfl, by apply opEcho_keeps <;> first | rfl | exact Keeps.refl _ _⟩
  | unknownType => exact ⟨_, rfl, by apply opUnknownType_keeps <;> first | rfl | exact Keeps.refl _ _⟩
  | k2hPost => exact ⟨_, rfl, by apply opK2hPost_keeps <;> first | rfl | exact Keeps.refl _ _⟩
  | mbK2hMsgRead => exact ⟨_, rfl,
      Keeps.whenAwake rfl fun _ h => by apply opMbK2hMsgRead_keeps <;> first | rfl | exact h⟩
  | mbPoolRegister => exact ⟨_, rfl,
      Keeps.whenAwake rfl fun _ h => by apply opMbPoolRegister_keeps <;> first | rfl | exact h.fnActive rfl rfl⟩
  | bmeClear => exact ⟨_, rfl,
      Keeps.whenClocked rfl fun _ h => by apply opBmeClear_keeps <;> first | rfl | exact h.wake rfl⟩
  | bmeSet => exact ⟨_, rfl,
      Keeps.whenClocked rfl fun _ h => by apply opBmeSet_keeps <;> first | rfl | exact h.wake rfl⟩
  | flr => exact ⟨_, rfl, Keeps.whenClocked rfl fun _ h => by apply opFlr_keeps <;> first | rfl | exact h.wake rfl⟩
  | flrReadsDrained => exact ⟨_, rfl,
      Keeps.onClock fun _ h => by apply opFlrReadsDrained_keeps <;> first | rfl | exact h⟩
  | flrDone => exact ⟨_, rfl, Keeps.onClock fun _ h => by apply opFlrDone_keeps <;> first | rfl | exact h⟩
  | d3hotEntry => exact ⟨_, rfl,
      Keeps.whenClocked rfl fun _ h => by apply opD3hotEntry_keeps <;> first | rfl | exact h.wake rfl⟩
  | d3hotToD0 => exact ⟨_, rfl,
      Keeps.whenClocked rfl fun _ h => by apply opD3hotToD0_keeps <;> first | rfl | exact h.wake rfl⟩
  | vfEnableClear => exact ⟨_, rfl,
      Keeps.whenClocked rfl fun _ h => by apply opVfEnableClear_keeps <;> first | rfl | exact h.wake rfl⟩
  | msixMessageSend => exact ⟨_, rfl,
      Keeps.onClock fun _ h => by apply opMsixMessageSend_keeps <;> first | rfl | exact h⟩
  | moderationIntervalEnd => exact ⟨_, rfl,
      Keeps.onClock fun _ h => by apply opModerationIntervalEnd_keeps <;> first | rfl | exact h⟩
  | msixMaskWrite => exact ⟨_, rfl,
      Keeps.whenClocked rfl fun _ h => by apply opMsixMaskWrite_keeps <;> first | rfl | exact h.wake rfl⟩
  | linkIdleSignal => exact ⟨_, rfl,
      Keeps.onClock fun _ h => by apply opLinkIdleSignal_keeps <;> first | rfl | exact h⟩
  | doeDiscovery => exact ⟨_, rfl,
      Keeps.doeRequest rfl rfl fun _ h => by apply answerDiscovery_keeps <;> first | rfl | exact h⟩
  | getVersion => exact ⟨_, rfl,
      Keeps.doeRequest rfl rfl fun _ h => by apply answerVersion_keeps <;> first | rfl | exact h⟩
  | getCapabilities => exact ⟨_, rfl,
      Keeps.doeRequest rfl rfl fun _ h => by apply answerCapabilities_keeps <;> first | rfl | exact h⟩
  | negotiateAlgorithms => exact ⟨_, rfl,
      Keeps.doeRequest rfl rfl fun _ h => by apply answerAlgorithms_keeps <;> first | rfl | exact h⟩
  | getDigests => exact ⟨_, rfl,
      Keeps.doeRequest rfl rfl fun _ h => by apply answerDigests_keeps <;> first | rfl | exact h⟩
  | getCertificate => exact ⟨_, rfl,
      Keeps.doeRequest rfl rfl fun _ h => by apply answerCertificate_keeps <;> first | rfl | exact h⟩
  | challenge => exact ⟨_, rfl,
      Keeps.doeRequest rfl rfl fun _ h => by apply answerChallenge_keeps <;> first | rfl | exact h⟩
  | getMeasurements => exact ⟨_, rfl,
      Keeps.doeRequest rfl rfl fun _ h => by apply answerMeasurements_keeps <;> first | rfl | exact h⟩
  | spdmUnsupportedRequest => exact ⟨_, rfl,
      Keeps.doeRequest rfl rfl fun _ h => by apply answerUnsupported_keeps <;> first | rfl | exact h⟩
  | doeAbort => exact ⟨_, rfl,
      Keeps.whenClocked rfl fun _ h => by apply opDoeAbort_keeps <;> first | rfl | exact h.wake rfl⟩
  | setEndpointId => exact ⟨_, rfl,
      Keeps.mctpMessage rfl fun _ h => by apply answerSetEid_keeps <;> first | rfl | exact h⟩
  | getEndpointId => exact ⟨_, rfl,
      Keeps.mctpMessage rfl fun _ h => by apply answerGetEid_keeps <;> first | rfl | exact h⟩
  | getMctpVersionSupport => exact ⟨_, rfl,
      Keeps.mctpMessage rfl fun _ h => by apply answerMctpVersion_keeps <;> first | rfl | exact h⟩
  | getMessageTypeSupport => exact ⟨_, rfl,
      Keeps.mctpMessage rfl fun _ h => by apply answerMessageTypes_keeps <;> first | rfl | exact h⟩
  | getVendorDefinedMessageSupport => exact ⟨_, rfl,
      Keeps.mctpMessage rfl fun _ h => by apply answerVendors_keeps <;> first | rfl | exact h⟩
  | readState => exact ⟨_, rfl,
      Keeps.mctpMessage rfl fun _ h => by apply answerReadState_keeps <;> first | rfl | exact h⟩
  | combCmd => exact ⟨_, rfl, Keeps.mctpMessage rfl fun _ h => by apply answerCombCmd_keeps <;> first | rfl | exact h⟩
  | queueCmd => exact ⟨_, rfl,
      Keeps.mctpMessage rfl fun _ h => by apply answerQueueCmd_keeps <;> first | rfl | exact h⟩
  | readSticky => exact ⟨_, rfl,
      Keeps.mctpMessage rfl fun _ h => by apply answerReadSticky_keeps <;> first | rfl | exact h⟩
  | clearSticky => exact ⟨_, rfl,
      Keeps.mctpMessage rfl fun _ h => by apply answerClearSticky_keeps <;> first | rfl | exact h⟩
  | eventRecordWrite => exact ⟨_, rfl,
      Keeps.onClock fun _ h => by apply opEventRecordWrite_keeps <;> first | rfl | exact h⟩
  | evLogConsWrite => exact ⟨_, rfl,
      Keeps.whenClocked rfl fun _ h => by apply opEvLogConsWrite_keeps <;> first | rfl | exact h.wake rfl⟩
  | evPendClear => exact ⟨_, rfl,
      Keeps.whenClocked rfl fun _ h => by apply opEvPendClear_keeps <;> first | rfl | exact h.wake rfl⟩
  | evRouteWrite => exact ⟨_, rfl,
      Keeps.whenClocked rfl fun _ h => by apply opEvRouteWrite_keeps <;> first | rfl | exact h.wake rfl⟩
  | stickyClear => exact ⟨_, rfl,
      Keeps.whenClocked rfl fun _ h => by apply opStickyClear_keeps <;> first | rfl | exact h.wake rfl⟩
  | cbCmdOnline => exact ⟨_, rfl, Keeps.whenAwake rfl fun _ h => by apply cbWrite_keeps <;> first | rfl | exact h⟩
  | cbCmdOffline => exact ⟨_, rfl, Keeps.whenAwake rfl fun _ h => by apply cbWrite_keeps <;> first | rfl | exact h⟩
  | cbCmdInvalid => exact ⟨_, rfl,
      Keeps.whenAwake rfl fun _ h => by apply opCbCmdInvalid_keeps <;> first | rfl | exact h⟩
  | combDrainEnd => exact ⟨_, rfl, Keeps.onClock fun _ h => by apply opCombDrainEnd_keeps <;> first | rfl | exact h⟩
  | tamperInTrip => exact ⟨_, rfl,
      Keeps.settle (by apply opTamperInTrip_keeps <;> first | rfl | exact Keeps.refl _ _)⟩
  | voltageTrip => exact ⟨_, rfl, Keeps.settle (by apply opVoltageTrip_keeps <;> first | rfl | exact Keeps.refl _ _)⟩
  | pllLockLoss => exact ⟨_, rfl, Keeps.settle (by apply opPllLockLoss_keeps <;> first | rfl | exact Keeps.refl _ _)⟩
  | refclkFrequencyTrip => exact ⟨_, rfl,
      Keeps.settle (by apply opRefclkFrequencyTrip_keeps <;> first | rfl | exact Keeps.refl _ _)⟩
  | temperatureTrip => exact ⟨_, rfl,
      Keeps.settle (by apply opTemperatureTrip_keeps <;> first | rfl | exact Keeps.refl _ _)⟩
  | pllRelockRetry => exact ⟨_, rfl, by apply opPllRelockRetry_keeps <;> first | rfl | exact Keeps.refl _ _⟩
  | tpLatchClear => exact ⟨_, rfl,
      Keeps.whenClocked rfl fun _ h => by apply opTpLatchClear_keeps <;> first | rfl | exact h.wake rfl⟩
  | lcToTestUnlocked => exact ⟨_, rfl,
      Keeps.whenClocked rfl fun _ h => by apply lcRequest_keeps <;> first | rfl | exact h.wake rfl⟩
  | lcToTestLocked => exact ⟨_, rfl,
      Keeps.whenClocked rfl fun _ h => by apply lcRequest_keeps <;> first | rfl | exact h.wake rfl⟩
  | lcToManufactured => exact ⟨_, rfl,
      Keeps.whenClocked rfl fun _ h => by apply lcRequest_keeps <;> first | rfl | exact h.wake rfl⟩
  | lcToProvisioned => exact ⟨_, rfl,
      Keeps.whenClocked rfl fun _ h => by apply lcRequest_keeps <;> first | rfl | exact h.wake rfl⟩
  | lcToRma => exact ⟨_, rfl,
      Keeps.whenClocked rfl fun _ h => by apply lcRequest_keeps <;> first | rfl | exact h.wake rfl⟩
  | lcToScrap => exact ⟨_, rfl,
      Keeps.whenClocked rfl fun _ h => by apply lcRequest_keeps <;> first | rfl | exact h.wake rfl⟩
  | lcTransitionRefused => exact ⟨_, rfl,
      Keeps.whenClocked rfl fun _ h => by apply opLcTransitionRefused_keeps <;> first | rfl | exact h.wake rfl⟩
  | lcTransitionOtpDone => exact ⟨_, rfl, by apply opLcTransitionOtpDone_keeps <;> first | rfl | exact Keeps.refl _ _⟩
  | lcDbgReqDebug => exact ⟨_, rfl,
      Keeps.whenClocked rfl fun _ h => by apply dbgRequest_keeps <;> first | rfl | exact h.wake rfl⟩
  | lcDbgReqRma => exact ⟨_, rfl,
      Keeps.whenClocked rfl fun _ h => by apply dbgRequest_keeps <;> first | rfl | exact h.wake rfl⟩
  | lcRespCommit => exact ⟨_, rfl,
      Keeps.whenClocked rfl fun _ h => by apply opLcRespCommit_keeps <;> first | rfl | exact h.wake rfl⟩
  | debugAuthVerifyDone => exact ⟨_, rfl, by apply opDebugAuthVerifyDone_keeps <;> first | rfl | exact Keeps.refl _ _⟩
  | substitutionRefDeadline => exact ⟨_, rfl,
      Keeps.onClock fun _ h => by apply opSubstitutionRefDeadline_keeps <;> first | rfl | exact h⟩
  | substitutionZeroise => exact ⟨_, rfl,
      Keeps.onClock fun _ h => by apply opSubstitutionZeroise_keeps <;> first | rfl | exact h⟩
  | cfUpdCommit => exact ⟨_, rfl,
      Keeps.whenClocked rfl fun _ h => by apply opCfUpdCommit_keeps <;> first | rfl | exact h.wake rfl⟩
  | updatePhaseDone => exact ⟨_, rfl,
      Keeps.onClock fun _ h => by apply opUpdatePhaseDone_keeps <;> first | rfl | exact h⟩
  | updateKeeperTimeout => exact ⟨_, rfl,
      Keeps.onClock fun _ h => by apply opUpdateKeeperTimeout_keeps <;> first | rfl | exact h⟩
  | hvSleepEnter => exact ⟨_, rfl, by apply opHvSleepEnter_keeps <;> first | rfl | exact Keeps.refl _ _⟩
  | sleepEntryDone => exact ⟨_, rfl, by apply opSleepEntryDone_keeps <;> first | rfl | exact Keeps.refl _ _⟩
  | hvSleepWake => exact ⟨_, rfl, by apply opHvSleepWake_keeps <;> first | rfl | exact Keeps.refl _ _⟩
  | sleepWake => exact ⟨_, rfl, by apply opSleepWake_keeps <;> first | rfl | exact Keeps.refl _ _⟩
  | wakeDone => exact ⟨_, rfl, by apply opWakeDone_keeps <;> first | rfl | exact Keeps.refl _ _⟩
  | tnQcfgSelWrite => exact ⟨_, rfl,
      Keeps.whenClocked rfl fun _ h => by apply opTnQcfgSelWrite_keeps <;> first | rfl | exact h.wake rfl⟩
  | tnQcfgCommit => exact ⟨_, rfl,
      Keeps.whenClocked rfl fun _ h => by apply opTnQcfgCommit_keeps <;> first | rfl | exact h.wake rfl⟩
  | tnCrSelWrite => exact ⟨_, rfl,
      Keeps.whenClocked rfl fun _ h => by apply opTnCrSelWrite_keeps <;> first | rfl | exact h.wake rfl⟩
  | tnCrCommit => exact ⟨_, rfl,
      Keeps.whenClocked rfl fun _ h => by apply opTnCrCommit_keeps <;> first | rfl | exact h.wake rfl⟩
  | tnRlogCommit => exact ⟨_, rfl,
      Keeps.whenClocked rfl fun _ h => by apply opTnRlogCommit_keeps <;> first | rfl | exact h.wake rfl⟩
  | schCommit => exact ⟨_, rfl,
      Keeps.whenClocked rfl fun _ h => by apply opSchCommit_keeps <;> first | rfl | exact h.wake rfl⟩
  | wgSyncCommit => exact ⟨_, rfl,
      Keeps.whenClocked rfl fun _ h => by apply opWgSyncCommit_keeps <;> first | rfl | exact h.wake rfl⟩
  | wgMlogCommit => exact ⟨_, rfl,
      Keeps.whenClocked rfl fun _ h => by apply opWgMlogCommit_keeps <;> first | rfl | exact h.wake rfl⟩
  | wgTselWrite => exact ⟨_, rfl,
      Keeps.whenClocked rfl fun _ h => by apply opWgTselWrite_keeps <;> first | rfl | exact h.wake rfl⟩
  | wgTcommit => exact ⟨_, rfl,
      Keeps.whenClocked rfl fun _ h => by apply opWgTcommit_keeps <;> first | rfl | exact h.wake rfl⟩
  | evLogCommit => exact ⟨_, rfl,
      Keeps.whenClocked rfl fun _ h => by apply opEvLogCommit_keeps <;> first | rfl | exact h.wake rfl⟩
  | registerWrite => exact ⟨_, rfl, by apply opRegWrite_keeps <;> first | rfl | exact Keeps.refl _ _⟩
  | rcRegisterRead => exact ⟨_, rfl, by apply opRcRegisterRead_keeps <;> first | rfl | exact Keeps.refl _ _⟩
  | splitReadLatch => exact ⟨_, rfl, by apply opSplitReadLatch_keeps <;> first | rfl | exact Keeps.refl _ _⟩
  | entropySourceHealthFail => exact ⟨_, rfl, by apply opEntropySourceHealthFail_keeps <;> first | rfl | exact Keeps.refl _ _⟩
  | debugKeeperHalt => exact ⟨_, rfl, by apply opDebugKeeperHalt_keeps <;> first | rfl | exact Keeps.refl _ _⟩

theorem exec_keeps_of_next {c : Instr} {s t : State} (h : exec c s = .next t) : Keeps (footOf c) s t := by
  obtain ⟨u, hu, hk⟩ := exec_keeps c s
  cases hu.symm.trans h
  exact hk

theorem step_of_pending {s : State} {c : Instr} {rest : List Instr} (h : s.pending = c :: rest) :
    step s = exec c { s with pending := rest } := by
  simp [step, h]

theorem step_of_idle {s : State} (h : s.pending = []) : step s = .next (idleTick s) := by simp [step, h]

/-- The queue of commands is no part of what the invariant speaks of. -/
theorem State.Inv.setPending {s : State} (h : s.Inv) (l : List Instr) : { s with pending := l }.Inv := h

/-- Settles O1: the step's own equation. -/
theorem stepRunsFront : Obligations.StepRunsFront := fun _ _ _ => step_of_pending rfl

/-- Settles O2. -/
theorem stepConsumesFront : Obligations.StepConsumesFront := by
  refine ⟨fun c s => ?_, fun c rest s => ?_⟩
  · obtain ⟨t, ht, hk⟩ := exec_keeps c s
    exact ⟨t, ht, hk.1⟩
  · obtain ⟨t, ht, hk⟩ := exec_keeps c { s with pending := rest }
    exact ⟨t, (step_of_pending rfl).trans ht, hk.1⟩

/-! ## The tick -/

/-- What one FCLK period with no command waiting may change. -/
def tickFoot : Foot :=
  { hv := true, aon := true, ev := true, hi := true, dma := true, doe := true, lc := true, peer := true
    sync := true, wg := true, adm := true, ks := true, fns := true, tenants := true, queues := true
    otp := true, ctxs := true, slots := true, combs := true, jobs := true, out := true, freeN := true }

theorem idleTick_keeps_tickFoot (s : State) : Keeps tickFoot s (idleTick s) := by
  apply idleTick_keeps <;> first | rfl | exact Keeps.refl _ _

/-- Settles O4: a command keeps the invariant because its operation does, and so does the tick of an empty queue. -/
theorem stepKeepsInv : Obligations.StepKeepsInv := by
  intro s t hs hstep
  cases hp : s.pending with
  | nil =>
    obtain rfl := Host.Outcome.next.inj ((step_of_idle hp).symm.trans hstep)
    exact (idleTick_keeps_tickFoot s).inv hs
  | cons c rest =>
    exact (exec_keeps_of_next ((step_of_pending hp).symm.trans hstep)).inv (hs.setPending rest)

/-- An edge of PPS_IN waits for its judgement while FCLK stands still. -/
def edgeWaitsUnclocked : State := { hv := { fclk := false }, sync := { ppsEdge := some 0 } }

/-- Refutes O3: the edge of PPS_IN that waits is judged on the tick even where FCLK stands still, and that changes
the registers of the Hive time. -/
theorem not_idleStep : ¬ Obligations.IdleStep := by
  intro h
  obtain ⟨t, ht, -, -, -, -, hsync⟩ := h edgeWaitsUnclocked rfl
  obtain rfl := Host.Outcome.next.inj ((step_of_idle rfl).symm.trans ht)
  have hjudged : (idleTick edgeWaitsUnclocked).sync.ppsEdge = none := by decide
  have hwaits : (idleTick edgeWaitsUnclocked).sync.ppsEdge = some 0 := congrArg Sync.ppsEdge (hsync rfl)
  simp [hjudged] at hwaits

/-! ## Reset -/

theorem mramOf_wf (l) : tblWf {} (mramOf l) = true := by
  induction l with
  | nil => rfl
  | cons e l ih => exact tblWf_set _ _ _ _ ih

/-- Settles O5: every table is empty but that of the persistent store, which is written entry by entry. -/
theorem resetMeetsInv : Obligations.ResetMeetsInv := by
  refine ⟨(State.wf_iff _).2 ?_, by decide, by decide⟩
  constructor
  case mram => exact mramOf_wf _
  all_goals rfl

/-! ## Frames -/

/-- A tamper source that reports to an awake Hive serves no held access. -/
theorem settle_of_awake {s : State} (h : s.hv.pwr = 0) (t : State) : settle s t = t := by simp [settle, h]

/-- What a tamper source may change in an awake Hive. -/
def tamperFoot : Foot :=
  { hv := true, aon := true, ev := true, hi := true, dma := true, lc := true, peer := true, wg := true
    ks := true, fns := true, tenants := true, queues := true, ctxs := true, slots := true, combs := true
    jobs := true, out := true, freeN := true }

theorem tamperSource_keeps_of_awake {c : Instr} {s t : State} (hc : TamperSource c) (hpwr : s.hv.pwr = 0)
    (ht : exec c s = .next t) : Keeps tamperFoot s t := by
  rcases hc with ⟨n, high, rfl⟩ | ⟨d, r, rfl⟩ | rfl | ⟨b, rfl⟩ | ⟨b, rfl⟩ <;>
    obtain rfl := Host.Outcome.next.inj ht <;> rw [settle_of_awake hpwr]
  · apply opTamperInTrip_keeps <;> first | rfl | exact Keeps.refl _ _
  · apply opVoltageTrip_keeps <;> first | rfl | exact Keeps.refl _ _
  · apply opPllLockLoss_keeps <;> first | rfl | exact Keeps.refl _ _
  · apply opRefclkFrequencyTrip_keeps <;> first | rfl | exact Keeps.refl _ _
  · apply opTemperatureTrip_keeps <;> first | rfl | exact Keeps.refl _ _

/-- Settles O60. -/
theorem frames : Obligations.Frames := by
  refine ⟨fun c s t ht => ?_, fun c s t hc hpwr ht => (tamperSource_keeps_of_awake hc hpwr ht).2.2⟩
  obtain ⟨hpending, -, hunch⟩ := exec_keeps_of_next ht
  exact ⟨hpending, hunch⟩

end Sys2Proof.Machine
end

section
/-! SUPPORT. The rules that the statements about commands share: how a command comes to its operation (the gates of
the clocks and of retention sleep), and what is left of a queue after an operation on it. -/

namespace Sys2Proof.Machine

theorem onClock_true {s : State} {on : Bool} (h : on = true) (k : State → State) : onClock on s k = k s := by
  simp [onClock, h]

theorem whenClocked_of_clocked {s : State} (h : s.unclocked = false) (i : Instr) (k : State → State) :
    whenClocked i s k = k s := by simp [whenClocked, h]

end Sys2Proof.Machine

namespace Sys2Proof

open Machine

/-! ## The gates in front of a command -/

section

variable {s : State}

theorem Running.inv (h : Running s) : s.Inv := h.1

theorem Running.wf (h : Running s) : s.wf = true := h.1.1

theorem Running.cclk (h : Running s) : s.hv.cclk = true := h.2.1.1

theorem Running.fclk (h : Running s) : s.hv.fclk = true := h.2.1.2.1

theorem Running.kclk (h : Running s) : s.hv.kclk = true := h.2.1.2.2.1

theorem Running.xclk (h : Running s) : s.hv.xclk = true := h.2.1.2.2.2

theorem Running.clocked (h : Running s) : s.unclocked = false := h.2.2

end

theorem Completes.ofNext {c : Instr} {s t : State} {P : State → Prop} (he : exec c s = .next t) (h : P t) :
    Completes c s P := ⟨t, he, h⟩

/-- A command of an engine that its clock drives. -/
theorem Completes.ofClock {c : Instr} {s : State} {on : Bool} {k : State → State} {P : State → Prop}
    (he : exec c s = .next (onClock on s k)) (hon : on = true) (h : P (k s)) : Completes c s P :=
  ⟨_, he, by rwa [onClock_true hon]⟩

/-- A command from outside that finds the clocks running. -/
theorem Completes.ofClocked {c i : Instr} {s : State} {k : State → State} {P : State → Prop}
    (he : exec c s = .next (whenClocked i s k)) (hs : Running s) (h : P (k s)) : Completes c s P :=
  ⟨_, he, by rwa [whenClocked_of_clocked hs.clocked]⟩

/-! ## All queues but one -/

theorem OtherQueues.refl (c q : Nat) (s : State) : OtherQueues c q s s := fun _ _ _ => rfl

theorem OtherQueues.trans {c q : Nat} {s u t : State} (h : OtherQueues c q s u) (g : OtherQueues c q u t) :
    OtherQueues c q s t := fun d r hk => (g d r hk).trans (h d r hk)

theorem OtherQueues.ofQueues {c q : Nat} {s t : State} (h : t.queues = s.queues) : OtherQueues c q s t :=
  fun _ _ _ => by simp only [State.queue, h]

end Sys2Proof

namespace Sys2Proof.Machine

/-! ## The gates in front of a command -/

/-- A wake cause moves the fields of retention sleep alone. -/
theorem wake_eq (s : State) (n : Nat) :
    ∃ p w k c, wake s n = { s with hv := { s.hv with pwr := p, wakeCause := w, wakeNext := k, causeAt := c } } := by
  unfold wake
  split
  · exact ⟨_, _, _, _, rfl⟩
  split
  · exact ⟨_, _, _, _, rfl⟩
  split <;> exact ⟨_, _, _, _, rfl⟩

theorem State.emit_eq (s : State) (l : List Out) :
    s.emit l = { s with out := s.out ++ if s.coreOff = true then [] else l } := by
  unfold emit
  split <;> simp

/-! ### What goes with a request for the link -/

/-- The state but for the link's idleness (R341), and for LTR messages that have left. -/
def LinkMoved (s u : State) : Prop :=
  ∃ busy idle due sent at' l, u = { s with
      hi := { s.hi with busyAt := busy, idle := idle, ltrDue := due, ltrSent := sent, ltrAt := at' }, out := s.out ++ l } ∧
    (∀ o ∈ l, isLtr o = true) ∧ (s.coreOff = true → l = [])

theorem LinkMoved.refl (s : State) : LinkMoved s s :=
  ⟨_, _, _, _, _, [], by rw [List.append_nil], by simp, fun _ => rfl⟩

theorem LinkMoved.trans {s u t : State} (h : LinkMoved s u) (g : LinkMoved u t) : LinkMoved s t := by
  obtain ⟨b, i, d, e, a, l, rfl, hl, hoff⟩ := h
  obtain ⟨b', i', d', e', a', l', rfl, hl', hoff'⟩ := g
  refine ⟨b', i', d', e', a', l ++ l', by rw [List.append_assoc], ?_, fun hc => ?_⟩
  · simpa [or_imp, forall_and] using And.intro hl hl'
  · rw [hoff hc, hoff' hc, List.nil_append]

theorem sendLtr_linkMoved (s : State) : LinkMoved s (sendLtr s) := by
  unfold sendLtr
  split
  · exact LinkMoved.refl s
  split
  · exact ⟨_, _, _, _, _, [], by rw [List.append_nil], by simp, fun _ => rfl⟩
  split
  · exact LinkMoved.refl s
  · refine ⟨s.hi.busyAt, s.hi.idle, false, some (ltrValue s), s.hv.tick, if s.coreOff = true then [] else [.ltr (ltrValue s)],
      State.emit_eq _ _, fun o ho => ?_, fun hc => if_pos hc⟩
    rw [List.mem_ite_nil_left, List.mem_singleton] at ho
    rw [ho.2, isLtr]

theorem linkActive_linkMoved (s : State) : LinkMoved s (linkActive s) := by
  have hbusy : ∀ i d, LinkMoved s { s with hi.busyAt := s.hv.tick, hi.idle := i, hi.ltrDue := d } := fun i d =>
    ⟨_, _, _, _, _, [], by rw [List.append_nil], by simp, fun _ => rfl⟩
  unfold linkActive
  dsimp only
  split
  · exact (hbusy false true).trans (sendLtr_linkMoved _)
  · exact hbusy s.hi.idle s.hi.ltrDue

theorem fnActive_linkMoved (s : State) (c : Nat) : LinkMoved s (fnActive s c) := by
  unfold fnActive
  split
  · exact linkActive_linkMoved s
  · exact LinkMoved.refl s

/-! ### The state in which an access acts -/

/-- What an access to the Hive moves before it acts: the fields of retention sleep, the link's idleness, and LTR
messages. -/
def Entered (s u : State) : Prop :=
  (s.Inv → u.Inv) ∧ ∃ p w k c, LinkMoved { s with hv := { s.hv with pwr := p, wakeCause := w, wakeNext := k, causeAt := c } } u

theorem wake_entered (s : State) (n : Nat) : Entered s (wake s n) := by
  obtain ⟨p, w, k, c, h⟩ := wake_eq s n
  have hk : Keeps { hv := true } s (wake s n) := (Keeps.refl _ _).wake rfl
  exact ⟨hk.inv, p, w, k, c, h ▸ LinkMoved.refl _⟩

theorem fnActive_wake_entered (s : State) (n c : Nat) : Entered s (fnActive (wake s n) c) := by
  obtain ⟨p, w, k, a, h⟩ := wake_eq s n
  have hk : Keeps { hv := true, hi := true, out := true } s (fnActive (wake s n) c) :=
    ((Keeps.refl _ _).wake rfl).fnActive rfl rfl
  exact ⟨hk.inv, p, w, k, a, h ▸ fnActive_linkMoved _ c⟩

namespace Entered

variable {s u : State}

theorem eq (h : Entered s u) :
    ∃ p w k c busy idle due sent at' out, u = { s with
      hv := { s.hv with pwr := p, wakeCause := w, wakeNext := k, causeAt := c }
      hi := { s.hi with busyAt := busy, idle := idle, ltrDue := due, ltrSent := sent, ltrAt := at' }
      out := out } := by
  obtain ⟨-, p, w, k, c, b, i, d, e, a, l, rfl, -, -⟩ := h
  exact ⟨p, w, k, c, b, i, d, e, a, s.out ++ l, rfl⟩

theorem inv (h : Entered s u) (hs : s.Inv) : u.Inv := h.1 hs

theorem queues (h : Entered s u) : u.queues = s.queues := by
  obtain ⟨p, w, k, c, b, i, d, e, a, l, rfl⟩ := h.eq
  rfl

theorem jobs (h : Entered s u) : u.jobs = s.jobs := by
  obtain ⟨p, w, k, c, b, i, d, e, a, l, rfl⟩ := h.eq
  rfl

theorem queue (h : Entered s u) (c q : Nat) : u.queue c q = s.queue c q := by simp only [State.queue, h.queues]

theorem tenants (h : Entered s u) : u.tenants = s.tenants := by
  obtain ⟨p, w, k, c, b, i, d, e, a, l, rfl⟩ := h.eq
  rfl

theorem tenant (h : Entered s u) (c : Nat) : u.tenant c = s.tenant c := by simp only [State.tenant, h.tenants]

theorem aon (h : Entered s u) : u.aon = s.aon := by
  obtain ⟨p, w, k, c, b, i, d, e, a, l, rfl⟩ := h.eq
  rfl

theorem sync (h : Entered s u) : u.sync = s.sync := by
  obtain ⟨p, w, k, c, b, i, d, e, a, l, rfl⟩ := h.eq
  rfl

theorem tick (h : Entered s u) : u.hv.tick = s.hv.tick := by
  obtain ⟨p, w, k, c, b, i, d, e, a, l, rfl⟩ := h.eq
  rfl

theorem pageOpen (h : Entered s u) (c q : Nat) : pageOpen u c q = pageOpen s c q := by
  obtain ⟨p, w, k, c, b, i, d, e, a, l, rfl⟩ := h.eq
  rfl

theorem takesDoorbells (h : Entered s u) (c q : Nat) : takesDoorbells u c q = takesDoorbells s c q := by
  obtain ⟨p, w, k, c, b, i, d, e, a, l, rfl⟩ := h.eq
  rfl

theorem hasQueue (h : Entered s u) (c q : Nat) : u.hasQueue c q = s.hasQueue c q := by
  obtain ⟨p, w, k, c, b, i, d, e, a, l, rfl⟩ := h.eq
  rfl

theorem ring (h : Entered s u) (c r : Nat) : u.ring c r = s.ring c r := by
  obtain ⟨p, w, k, a, b, i, d, e, at', l, rfl⟩ := h.eq
  rfl

theorem exists_ (h : Entered s u) (c : Nat) : u.exists_ c = s.exists_ c := by
  obtain ⟨p, w, k, a, b, i, d, e, at', l, rfl⟩ := h.eq
  rfl

theorem fnReachable (h : Entered s u) (c : Nat) : fnReachable u c = fnReachable s c := by
  obtain ⟨p, w, k, a, b, i, d, e, at', l, rfl⟩ := h.eq
  rfl

end Entered

/-! ## Queues -/

theorem Keeps.queues_eq {F : Foot} {s t : State} (h : Keeps F s t) (hF : F.queues = false) : t.queues = s.queues := by
  simpa [hF] using h.2.2.queues

/-- Of the queues, `q` of client `c` alone has changed, and is `u` now. -/
structure SetsQueue (c q : Nat) (s : State) (u : Queue) (t : State) : Prop where
  inv : t.Inv
  queue : t.queue c q = u
  others : OtherQueues c q s t

namespace SetsQueue

variable {c q : Nat} {s t : State} {u : Queue}

theorem wf (h : SetsQueue c q s u t) : t.wf = true := h.inv.wf

theorem refl (h : s.Inv) : SetsQueue c q s (s.queue c q) s := ⟨h, rfl, OtherQueues.refl c q s⟩

theorem ofEntered (h : Entered s t) (hs : s.Inv) : SetsQueue c q s (s.queue c q) t :=
  ⟨h.inv hs, h.queue c q, OtherQueues.ofQueues h.queues⟩

theorem setQueue (h : SetsQueue c q s u t) (v : Queue) : SetsQueue c q s v (t.setQueue c q v) where
  inv := (setQueue_keeps (F := { queues := true }) t c q v rfl (Keeps.refl _ _)).inv h.inv
  queue := State.setQueue_same h.wf c q v
  others := h.others.trans fun d r hk => State.setQueue_other _ c q v d r hk

theorem modQueue (h : SetsQueue c q s u t) (f : Queue → Queue) : SetsQueue c q s (f u) (t.modQueue c q f) :=
  h.queue ▸ h.setQueue (f (t.queue c q))

/-- An operation that leaves the queues alone. -/
theorem keeps (h : SetsQueue c q s u t) {F : Foot} {t' : State} (hk : Keeps F t t') (hF : F.queues = false) :
    SetsQueue c q s u t' where
  inv := hk.inv h.inv
  queue := by simpa only [State.queue, hk.queues_eq hF] using h.queue
  others := h.others.trans (OtherQueues.ofQueues (hk.queues_eq hF))

end SetsQueue

/-- A queue whose cached and staged slots and whose mirror read are dropped (R52, R68). -/
def Queue.dropped (u : Queue) : Queue := { u.unstage true with cache := [], fetching := [], mirror := {} }

/-- A queue that stops once its copies are dropped (R68). -/
def Queue.stop_ (code : BitVec 8) (i : W32) (u : Queue) : Queue :=
  ({ u.interrupt with stop := code, errIdx := i, stopPt := some u.chk }).enter .stopped

/-- A draining queue whose drain ends where it stands, once its copies are dropped (R68). -/
def Queue.endDrain (code : BitVec 8) (i : W32) (u : Queue) : Queue :=
  ({ u.interrupt with stop := code, errIdx := i, gen := u.gen + 1, drainEnd := some u.chk
                      accepts := [] }).publish true false

theorem Queue.interrupt_eq (u : Queue) : ∃ cmd r, u.interrupt = { u with cmd := cmd, cmdResult := r } := by
  unfold interrupt
  split <;> exact ⟨_, _, rfl⟩

section StopQueue

variable {c q : Nat} {s t : State} {u : Queue}

theorem SetsQueue.dropCopies (h : SetsQueue c q s u t) : SetsQueue c q s u.dropped (Machine.dropCopies t c q) :=
  by
  have hk : Keeps { dma := true } t (orphanQueueReads t c q) := orphanQueueReads_keeps t c q rfl (Keeps.refl _ _)
  exact (h.keeps hk rfl).modQueue _

/-- A queue that runs stops. -/
theorem SetsQueue.stopQueue (h : SetsQueue c q s u t) (hu : u.state = .active ∨ u.state = .paused)
    (code : BitVec 8) (i : W32) : SetsQueue c q s (u.dropped.stop_ code i) (Machine.stopQueue t c q code i) := by
  have hstops : Machine.stopQueue t c q code i = (Machine.dropCopies t c q).modQueue c q (Queue.stop_ code i) := by
    rcases hu with hu | hu <;> simp only [Machine.stopQueue, h.queue, hu] <;> rfl
  exact hstops ▸ h.dropCopies.modQueue (Queue.stop_ code i)

/-- The drain of a queue ends early. -/
theorem SetsQueue.stopDraining (h : SetsQueue c q s u t) (hu : u.state = .draining)
    (code : BitVec 8) (i : W32) : SetsQueue c q s (u.dropped.endDrain code i) (Machine.stopQueue t c q code i) := by
  have hstops : Machine.stopQueue t c q code i = (Machine.dropCopies t c q).modQueue c q (Queue.endDrain code i) := by
    simp only [Machine.stopQueue, h.queue, hu]
    rfl
  exact hstops ▸ h.dropCopies.modQueue (Queue.endDrain code i)

/-- What the stop of a queue leaves, in the words of the statements. -/
theorem SetsQueue.stopsAt {code : BitVec 8} {i : W32} (h : SetsQueue c q s (u.dropped.stop_ code i) t)
    (hgen : u.gen = (s.queue c q).gen) (hpi : u.pi = (s.queue c q).pi) (hhead : u.head = (s.queue c q).head) :
    StopsAt c q code i s t := by
  obtain ⟨m, r, hi⟩ := u.dropped.interrupt_eq
  have hq : t.queue c q = u.dropped.stop_ code i := h.queue
  rw [Queue.stop_, hi] at hq
  rw [StopsAt, hq, ← hgen, ← hpi, ← hhead]
  exact ⟨rfl, rfl, rfl, rfl, rfl, rfl, rfl, rfl, h.others⟩

end StopQueue

theorem takesDoorbells_runs {s : State} {c q : Nat} (h : takesDoorbells s c q = true) :
    (s.queue c q).state = .active ∨ (s.queue c q).state = .paused := by
  simp only [takesDoorbells, Bool.and_eq_true, Bool.or_eq_true, beq_iff_eq] at h
  exact h.1.1

end Sys2Proof.Machine
end

section
/-! SUPPORT. Queues: doorbells, the producer mirror and queue commands. The theorems that settle O6, O7, O10 and
O11. -/

namespace Sys2Proof.Machine

section Checks

variable {c q : Nat} {s t : State} {u : Queue}

theorem dropJobs_keeps (s : State) (l : List Nat) :
    Keeps { jobs := true } s (s.each l fun s j => s.dropJob j) :=
  Keeps.each l _ (fun _ _ h => dropJob_keeps _ _ rfl h) (Keeps.refl _ _)

/-- Undispatched descriptors lose their check: the queue keeps those before the first that meets `p`. -/
theorem SetsQueue.uncheck (h : SetsQueue c q s u t) (p : Nat → Bool) :
    ∃ chk, SetsQueue c q s { u with chk := chk, ready := u.ready.takeWhile (!p ·) } (Machine.uncheck t c q p) := by
  unfold Machine.uncheck
  rw [h.queue]
  dsimp only
  split
  · next hnone =>
    have hall : u.ready.takeWhile (!p ·) = u.ready := by
      simpa [hnone] using List.takeWhile_append_dropWhile (p := fun x => !p x) (l := u.ready)
    exact ⟨u.chk, hall.symm ▸ h⟩
  · exact ⟨_, (h.keeps (dropJobs_keeps t _) rfl).modQueue fun u => { u with chk := _, ready := u.ready.takeWhile (!p ·) }⟩

theorem SetsQueue.dropReady (h : SetsQueue c q s u t) :
    SetsQueue c q s { u with ready := [] } (Machine.dropReady t c q) :=
  (h.keeps (dropJobs_keeps t _) rfl).modQueue fun u => { u with ready := [] }

/-- A read that is issued, or waits, leaves the queues alone. -/
theorem issueReads_keeps (s : State) (l : List Req) :
    Keeps { hi := true, dma := true, out := true } s (s.each l issueRead) :=
  Keeps.each l _ (fun _ _ h => issueRead_keeps _ _ rfl rfl rfl h) (Keeps.refl _ _)

end Checks

/-! ## Doorbells (R47, R48, R51, R52) -/

/-- The queues of `t` are those of `s` but for what the forager holds and has checked ahead of dispatch. -/
def ChecksMoved (s t : State) : Prop :=
  t.Inv ∧ t.sync = s.sync ∧
    ∀ d r, ∃ cache ready chk, t.queue d r = { s.queue d r with cache := cache, ready := ready, chk := chk }

theorem ChecksMoved.refl {s : State} (h : s.Inv) : ChecksMoved s s := ⟨h, rfl, fun _ _ => ⟨_, _, _, rfl⟩⟩

theorem ChecksMoved.trans {s u t : State} (h : ChecksMoved s u) (g : ChecksMoved u t) : ChecksMoved s t := by
  refine ⟨g.1, g.2.1.trans h.2.1, fun d r => ?_⟩
  obtain ⟨_, _, _, e⟩ := h.2.2 d r
  obtain ⟨_, _, _, f⟩ := g.2.2 d r
  exact ⟨_, _, _, by rw [f, e]⟩

theorem evictOne_checksMoved {s : State} (h : s.Inv) (c q : Nat) (i : W32) : ChecksMoved s (evictOne s c q i) := by
  have hsync : (evictOne s c q i).sync = s.sync := by
    have hk : Keeps { queues := true, jobs := true } s (evictOne s c q i) :=
      evictOne_keeps s c q i rfl rfl (Keeps.refl _ _)
    simpa using hk.2.2.sync
  unfold evictOne at hsync ⊢
  dsimp only at hsync ⊢
  split
  · exact ChecksMoved.refl h
  · obtain ⟨chk, hu⟩ := (SetsQueue.refl (c := c) (q := q) h).uncheck (jobHit s i 1)
    have ht := hu.modQueue fun u => { u with cache := tblErase u.cache i.toNat }
    rw [if_neg ‹_›] at hsync
    refine ⟨ht.inv, hsync, fun d r => ?_⟩
    by_cases hk : qKey d r = qKey c q
    · have hsame (v : State) : v.queue d r = v.queue c q := by rw [State.queue, State.queue, hk]
      exact ⟨_, _, _, by rw [hsame, hsame s]; exact ht.queue⟩
    · exact ⟨_, _, _, ht.others d r hk⟩

theorem cacheMake_checksMoved (n fuel : Nat) {s : State} (h : s.Inv) : ChecksMoved s (cacheMake n fuel s) := by
  induction fuel generalizing s with
  | zero => exact ChecksMoved.refl h
  | succ fuel ih =>
    rw [cacheMake]
    split
    · exact ChecksMoved.refl h
    split
    · exact ChecksMoved.refl h
    · exact (evictOne_checksMoved h _ _ _).trans (ih (evictOne_checksMoved h _ _ _).1)

theorem cacheMake_of_room (n fuel : Nat) {s : State} (h : cacheUsed s + n ≤ 8192) : cacheMake n fuel s = s := by
  cases fuel with
  | zero => rfl
  | succ fuel => rw [cacheMake, if_pos h]

/-- The fields of a queue that a claim of its staging leaves alone. -/
def ClaimKept (u v : Queue) : Prop :=
  v.pi = u.pi ∧ v.head = u.head ∧ v.state = u.state ∧ v.gen = u.gen ∧ v.accepts = u.accepts ∧ v.mirror = u.mirror

theorem claimPush_kept {s : State} (h : s.Inv) (c q : Nat) (v : W32) :
    (claimPush s c q v).Inv ∧ (claimPush s c q v).sync = s.sync ∧
      ClaimKept (s.queue c q) ((claimPush s c q v).queue c q) ∧ ((claimPush s c q v).queue c q).staged = [] := by
  unfold claimPush
  dsimp only
  split
  · next hnone =>
    have hstaged : (s.queue c q).staged = [] := by
      simp only [Bool.and_eq_true, List.isEmpty_iff] at hnone
      exact hnone.1
    exact ⟨h, rfl, ⟨rfl, rfl, rfl, rfl, rfl, rfl⟩, hstaged⟩
  split
  · obtain ⟨hinv, hsync, hqueues⟩ := cacheMake_checksMoved (s.queue c q).staged.length (s.queue c q).staged.length h
    obtain ⟨_, _, _, hq⟩ := hqueues c q
    have ht := (SetsQueue.refl (c := c) (q := q) hinv).modQueue fun u =>
      if cacheUsed (cacheMake (s.queue c q).staged.length (s.queue c q).staged.length s) +
        (s.queue c q).staged.length ≤ 8192 then u.claim else u.unstage true
    refine ⟨ht.inv, hsync, ?_⟩
    rw [ht.queue, hq]
    split <;> exact ⟨⟨rfl, rfl, rfl, rfl, rfl, rfl⟩, rfl⟩
  · have ht := (SetsQueue.refl (c := c) (q := q) h).modQueue fun u => u.unstage true
    refine ⟨ht.inv, rfl, ?_⟩
    rw [ht.queue]
    exact ⟨⟨rfl, rfl, rfl, rfl, rfl, rfl⟩, rfl⟩

/-- A mirror read that a doorbell with a value overtook. -/
def Queue.overtaken (u : Queue) : Queue :=
  { u with mirror := if u.mirror.busy then { u.mirror with discard := true } else u.mirror }

/-- A producer value that R47 accepted, with its stamp. -/
def Queue.accept (v : W32) (h : Nat) (u : Queue) : Queue :=
  if v = u.pi then u else { u with pi := v, accepts := u.accepts ++ [(v, h)] }

theorem Queue.accept_eq (v : W32) (h : Nat) (u : Queue) :
    u.accept v h = { u with pi := v, accepts := if v = u.pi then u.accepts else u.accepts ++ [(v, h)] } := by
  unfold accept
  split
  · next hv => simp [hv]
  · rfl

section Doorbell

variable {c q : Nat} {v : W32} {s t : State} {u : Queue}

theorem SetsQueue.acceptDb (h : SetsQueue c q s u t) (v : W32) :
    SetsQueue c q s (u.accept v t.sync.h) (Machine.acceptDb t c q v) := h.modQueue _

theorem opQDbWrite_accepts (hopen : pageOpen s c q = true) (htakes : takesDoorbells s c q = true)
    (hgood : dbGood (s.queue c q) v = true) :
    opQDbWrite c q v s = acceptDb ((claimPush s c q v).modQueue c q Queue.overtaken) c q v := by
  simp only [opQDbWrite, hopen, htakes, hgood]
  rfl

/-- Where the claim leaves the queues known, so does the doorbell. -/
theorem SetsQueue.doorbell (h : SetsQueue c q s u (claimPush t c q v)) (hopen : pageOpen t c q = true)
    (htakes : takesDoorbells t c q = true) (hgood : dbGood (t.queue c q) v = true) :
    SetsQueue c q s (u.overtaken.accept v (claimPush t c q v).sync.h) (opQDbWrite c q v t) := by
  rw [opQDbWrite_accepts hopen htakes hgood]
  exact (h.modQueue Queue.overtaken).acceptDb v

theorem SetsQueue.claimNothing (h : SetsQueue c q s u t) (hnone : u.staged = []) (hbad : u.stagedBad = false) :
    SetsQueue c q s u (claimPush t c q v) := by
  have hclaim : claimPush t c q v = t := by simp [claimPush, h.queue, hnone, hbad]
  rwa [hclaim]

theorem SetsQueue.claimGood (h : SetsQueue c q s u t) (hstaged : u.staged ≠ []) (hgood : u.pushGood v = true)
    (hroom : cacheUsed t + u.staged.length ≤ 8192) : SetsQueue c q s u.claim (claimPush t c q v) := by
  have hclaim : claimPush t c q v = t.modQueue c q Queue.claim := by
    simp [claimPush, h.queue, hstaged, hgood, cacheMake_of_room _ _ hroom, hroom]
  exact hclaim ▸ h.modQueue Queue.claim

theorem SetsQueue.claimBad (h : SetsQueue c q s u t) (hstaged : u.staged ≠ []) (hbad : u.pushGood v = false) :
    SetsQueue c q s (u.unstage true) (claimPush t c q v) := by
  have hclaim : claimPush t c q v = t.modQueue c q fun u => u.unstage true := by
    simp [claimPush, h.queue, hstaged, hbad]
  exact hclaim ▸ h.modQueue fun u => u.unstage true

end Doorbell

/-- Of entries that are put into a table under different numbers, each reads as it was put. -/
theorem tblGet_foldl_tblPut {α V : Type} (d : V) (key : α → Nat) (val : α → V) {l : List α}
    (hdistinct : (l.map key).Nodup) (t : Tbl V) {e : α} (he : e ∈ l) :
    tblGet d (l.foldl (fun t e => tblPut t (key e) (val e)) t) (key e) = val e := by
  have hkeep (k : Nat) : ∀ (l : List α) (t : Tbl V), k ∉ l.map key →
      tblGet d (l.foldl (fun t e => tblPut t (key e) (val e)) t) k = tblGet d t k := by
    intro l
    induction l with
    | nil => exact fun _ _ => rfl
    | cons a l ih =>
      intro t hk
      rw [List.map_cons, List.mem_cons, not_or] at hk
      rw [List.foldl_cons, ih _ hk.2, tblGet_put_other _ _ _ _ _ hk.1]
  induction l generalizing t with
  | nil => cases he
  | cons a l ih =>
    rw [List.map_cons, List.nodup_cons] at hdistinct
    rcases List.mem_cons.1 he with rfl | he
    · rw [List.foldl_cons, hkeep _ _ _ hdistinct.1, tblGet_put_same]
    · exact ih hdistinct.2 _ he

/-- A claimed push is held in the slots from PI on. -/
theorem Queue.claim_cache {u : Queue} {v : W32} (hgood : u.pushGood v = true) {k : Nat} {w : StagedSlot}
    (hk : (k, w) ∈ u.staged) :
    tblGet {} u.claim.cache (u.pi + BitVec.ofNat 32 k).toNat = { data := w.data, pushed := true, push := u.pi } := by
  simp only [pushGood, Bool.and_eq_true, decide_eq_true_eq, beq_iff_eq] at hgood
  obtain ⟨⟨⟨-, hdist⟩, hkeys⟩, -⟩ := hgood
  have hlt : ringDist v u.pi < 2 ^ 32 := (v - u.pi).isLt
  have hinj : ∀ i ∈ List.range u.staged.length, ∀ j ∈ List.range u.staged.length,
      (u.pi + BitVec.ofNat 32 i).toNat = (u.pi + BitVec.ofNat 32 j).toNat → i = j := by
    intro i hi j hj hij
    rw [List.mem_range] at hi hj
    have hij := congrArg BitVec.toNat (add_left_cancel (BitVec.eq_of_toNat_eq hij))
    rw [BitVec.toNat_ofNat, BitVec.toNat_ofNat] at hij
    omega
  refine tblGet_foldl_tblPut {} (fun e : Nat × StagedSlot => (u.pi + BitVec.ofNat 32 e.1).toNat)
    (fun e => { data := e.2.data, pushed := true, push := u.pi }) ?_ u.cache hk
  have hmap : u.staged.map (fun e => (u.pi + BitVec.ofNat 32 e.1).toNat) =
      (List.range u.staged.length).map fun k => (u.pi + BitVec.ofNat 32 k).toNat := by
    rw [← hkeys, tblKeys, List.map_map]
    rfl
  rw [hmap]
  exact List.Nodup.map_on hinj List.nodup_range

/-- A doorbell of a page that answers acts on the state in which the access acts. -/
theorem completes_ofDoorbell {c q : Nat} {v : W32} {s : State} {P : State → Prop} (hs : Running s)
    (hopen : pageOpen s c q = true)
    (h : ∀ u, SetsQueue c q s (s.queue c q) u → pageOpen u c q = true → takesDoorbells u c q = takesDoorbells s c q →
      u.sync = s.sync → cacheUsed u = cacheUsed s → P (opQDbWrite c q v u)) : Completes (.qDbWrite c q v) s P := by
  have he := fnActive_wake_entered s 1 c
  refine Completes.ofClocked rfl hs (h _ (SetsQueue.ofEntered he hs.inv) ((he.pageOpen c q).trans hopen)
    (he.takesDoorbells c q) he.sync ?_)
  rw [cacheUsed, he.queues, cacheUsed]

/-- Settles O6. -/
theorem doorbells : Obligations.Doorbells := by
  refine ⟨fun c q v s hs hopen htakes hgood => completes_ofDoorbell hs hopen fun e he hopen htakes' hsync _ => ?_,
    fun c q v s hs hopen htakes hgood hstaged hpush hroom =>
      completes_ofDoorbell hs hopen fun e he hopen htakes' hsync hused => ?_,
    fun c q v s hs hopen htakes hgood hstaged hpush =>
      completes_ofDoorbell hs hopen fun e he hopen htakes' hsync _ => ?_,
    fun c q v s hs hopen htakes hbad => completes_ofDoorbell hs hopen fun e he hopen htakes' hsync _ => ?_,
    fun c q v s hs hopen htakes => completes_ofDoorbell hs hopen fun e he hopen htakes' hsync _ => ?_⟩ <;>
    rw [htakes] at htakes'
  · rw [← he.queue] at hgood
    obtain ⟨hinv, hclaimed, ⟨hpi, hhead, hstate, hgen, haccepts, hmirror⟩, hstaged⟩ := claimPush_kept he.inv c q v
    have hset := (SetsQueue.refl (c := c) (q := q) hinv).doorbell hopen htakes' hgood
    rw [he.queue] at hpi hhead hstate hgen haccepts hmirror
    rw [hset.queue, Queue.accept_eq, hclaimed, hsync]
    refine ⟨rfl, hhead, hstate, hgen, ?_, ?_, hstaged, fun hnone hbad => ?_⟩
    · rw [← hpi, ← haccepts]
      rfl
    · rw [← hmirror]
      rfl
    · have hnothing := (he.claimNothing (v := v) hnone hbad)
      have hdrop := congrArg Queue.pushDrop hnothing.queue
      exact ⟨hdrop, (hnothing.doorbell hopen htakes' hgood).others⟩
  · rw [← hused] at hroom
    have hset := (he.claimGood hstaged hpush hroom).doorbell hopen htakes' (he.queue ▸ hgood)
    rw [hset.queue, Queue.accept_eq]
    exact ⟨rfl, rfl, rfl, fun k w hk => Queue.claim_cache hpush hk, hset.others⟩
  · have hset := (he.claimBad hstaged hpush).doorbell hopen htakes' (he.queue ▸ hgood)
    rw [hset.queue, Queue.accept_eq]
    refine ⟨rfl, rfl, ?_, rfl, hset.others⟩
    simp [Queue.overtaken, Queue.unstage, hstaged]
  · have hstop : opQDbWrite c q v e = stopQueue e c q qerrDoorbell v := by
      simp [opQDbWrite, hopen, htakes', he.queue, hbad]
    rw [hstop]
    exact (he.stopQueue (takesDoorbells_runs htakes) _ _).stopsAt rfl rfl rfl
  · have hmark : opQDbWrite c q v e = e.modQueue c q fun u => { u with dbIgnored := true } := by
      simp [opQDbWrite, hopen, htakes']
    rw [hmark]
    have hset := he.modQueue fun u => { u with dbIgnored := true }
    exact ⟨hset.queue, hset.others⟩

/-! ## The producer mirror (R49) -/

/-- A queue that reads its producer mirror. -/
def Queue.readsMirror (u : Queue) : Queue := { u with mirror := { busy := true } }

theorem mirrorReads_of_entered {s t : State} (h : Entered s t) (c q : Nat) : MirrorReads t c q ↔ MirrorReads s c q := by
  obtain ⟨p, w, k, a, b, i, d, e, at', l, rfl⟩ := h.eq
  rfl

section Mirror

variable {c q : Nat} {s t : State} {u : Queue}

/-- Whether the mirror can be read depends on the configuration of the queue alone. -/
theorem mirrorReads_modQueue (h : t.wf = true) {f : Queue → Queue} (hf : (f (t.queue c q)).cfg = (t.queue c q).cfg) :
    MirrorReads (t.modQueue c q f) c q ↔ MirrorReads t c q := by
  rw [MirrorReads, State.modQueue_same h, hf]
  rfl

theorem SetsQueue.issueMirror (h : SetsQueue c q s u t) (hreads : MirrorReads t c q) :
    SetsQueue c q s u.readsMirror (Machine.issueMirror t c q) := by
  obtain ⟨hcfg, l, hl, hok⟩ := hreads
  have hissue : Machine.issueMirror t c q = (t.modQueue c q Queue.readsMirror).each l issueRead := by
    simp only [Machine.issueMirror, if_neg hcfg, hl, hok]
    rfl
  exact hissue ▸ (h.modQueue _).keeps (issueReads_keeps _ l) rfl

theorem issueMirror_stops (h : ¬ MirrorReads t c q) :
    Machine.issueMirror t c q = Machine.stopQueue t c q qerrFetch (t.queue c q).pi := by
  unfold Machine.issueMirror
  dsimp only
  split
  · rfl
  next hcfg =>
    split
    · rfl
    next l hl =>
      split
      · next hok => exact absurd ⟨hcfg, l, hl, hok⟩ h
      · rfl

theorem opQDbNodataWrite_takes (hwf : t.wf = true) (hopen : pageOpen t c q = true)
    (htakes : takesDoorbells t c q = true) :
    opQDbNodataWrite c q t =
      if (t.queue c q).mirror.busy = true then
        (t.modQueue c q fun u => u.unstage true).modQueue c q fun u => { u with mirror := { u.mirror with again := true } }
      else Machine.issueMirror (t.modQueue c q fun u => u.unstage true) c q := by
  simp only [opQDbNodataWrite, hopen, htakes, State.modQueue_same hwf]
  rfl

end Mirror

/-- A doorbell without a value, at a page that answers, acts on the state in which the access acts. -/
theorem completes_ofNodata {c q : Nat} {s : State} {P : State → Prop} (hs : Running s) (hopen : pageOpen s c q = true)
    (h : ∀ u, SetsQueue c q s (s.queue c q) u → pageOpen u c q = true → takesDoorbells u c q = takesDoorbells s c q →
      (MirrorReads u c q ↔ MirrorReads s c q) → P (opQDbNodataWrite c q u)) : Completes (.qDbNodataWrite c q) s P := by
  have he := fnActive_wake_entered s 1 c
  exact Completes.ofClocked rfl hs (h _ (SetsQueue.ofEntered he hs.inv) ((he.pageOpen c q).trans hopen)
    (he.takesDoorbells c q) (mirrorReads_of_entered he c q))

/-- A queue whose mirror read is given up. -/
def Queue.mirrorDone (u : Queue) : Queue := { u with mirror := {} }

theorem opProducerMirrorReadDone_failed {c q : Nat} {s : State} (h : (s.queue c q).mirror.result = some none) :
    opProducerMirrorReadDone c q s =
      stopQueue (s.modQueue c q Queue.mirrorDone) c q qerrFetch (s.queue c q).pi := by
  simp only [opProducerMirrorReadDone, h]
  rfl

theorem opProducerMirrorReadDone_value {c q : Nat} {s : State} {v : W32}
    (h : (s.queue c q).mirror.result = some (some v)) :
    opProducerMirrorReadDone c q s =
      if (s.queue c q).mirror.discard = true then issueMirror (s.modQueue c q Queue.mirrorDone) c q
      else if dbGood (s.queue c q) v = true then
        if (s.queue c q).mirror.again = true then
          issueMirror (acceptDb (s.modQueue c q Queue.mirrorDone) c q v) c q
        else acceptDb (s.modQueue c q Queue.mirrorDone) c q v
      else stopQueue (s.modQueue c q Queue.mirrorDone) c q qerrDoorbell v := by
  simp only [opProducerMirrorReadDone, h]
  rfl

/-- Settles O7. -/
theorem producerMirror : Obligations.ProducerMirror := by
  refine ⟨fun c q s hs hopen htakes hbusy hreads => completes_ofNodata hs hopen fun e he hopen htakes' hmr => ?_,
    fun c q s hs hopen htakes hbusy => completes_ofNodata hs hopen fun e he hopen htakes' hmr => ?_,
    fun c q s hs hopen htakes hbusy hreads => completes_ofNodata hs hopen fun e he hopen htakes' hmr => ?_,
    fun c q s hs hopen htakes => completes_ofNodata hs hopen fun e he hopen htakes' hmr => ?_,
    fun c q v s hs hres hdiscard hagain hgood => Completes.ofClock rfl hs.fclk ?_,
    fun c q v s hs hres hdiscard hagain hgood hreads => Completes.ofClock rfl hs.fclk ?_,
    fun c q v s hs hres hdiscard hreads => Completes.ofClock rfl hs.fclk ?_,
    fun c q v s hs hres hdiscard hbad hstate => Completes.ofClock rfl hs.fclk ?_,
    fun c q s hs hres hstate => Completes.ofClock rfl hs.fclk ?_⟩
  · have hu := he.modQueue fun u => u.unstage true
    rw [opQDbNodataWrite_takes he.wf hopen (htakes'.trans htakes), he.queue, if_neg (by simp [hbusy])]
    have hset := hu.issueMirror ((mirrorReads_modQueue he.wf rfl).2 (hmr.2 hreads))
    rw [hset.queue]
    refine ⟨rfl, rfl, fun hstaged => ?_, rfl, rfl, hset.others⟩
    simp [Queue.readsMirror, Queue.unstage, hstaged]
  · have hu := he.modQueue fun u => u.unstage true
    rw [opQDbNodataWrite_takes he.wf hopen (htakes'.trans htakes), he.queue, if_pos hbusy]
    have hset := hu.modQueue fun u => { u with mirror := { u.mirror with again := true } }
    rw [hset.queue]
    exact ⟨rfl, rfl, rfl, hset.others⟩
  · have hu := he.modQueue fun u => u.unstage true
    rw [opQDbNodataWrite_takes he.wf hopen (htakes'.trans htakes), he.queue, if_neg (by simp [hbusy]),
      issueMirror_stops fun h => hreads (hmr.1 ((mirrorReads_modQueue he.wf rfl).1 h)), hu.queue]
    exact (hu.stopQueue (takesDoorbells_runs htakes) _ _).stopsAt rfl rfl rfl
  · have hmark : opQDbNodataWrite c q e = e.modQueue c q fun u => { u with dbIgnored := true } := by
      simp [opQDbNodataWrite, hopen, htakes', htakes]
    have hset := he.modQueue fun u => { u with dbIgnored := true }
    rw [hmark]
    exact ⟨hset.queue, hset.others⟩
  all_goals have hu := (SetsQueue.refl (c := c) (q := q) hs.inv).modQueue Queue.mirrorDone
  · rw [opProducerMirrorReadDone_value hres]
    simp only [hdiscard, hgood, hagain, if_true, if_false, Bool.false_eq_true]
    have hset := hu.acceptDb v
    rw [hset.queue, Queue.accept_eq]
    exact ⟨rfl, rfl, rfl, rfl, hset.others⟩
  · rw [opProducerMirrorReadDone_value hres]
    simp only [hdiscard, hgood, hagain, if_true, if_false, Bool.false_eq_true]
    have hacc := hu.acceptDb v
    have hset := hacc.issueMirror ((mirrorReads_modQueue hu.wf (by
      rw [hu.queue]; split <;> rfl)).2 ((mirrorReads_modQueue hs.wf rfl).2 hreads))
    rw [hset.queue, Queue.accept_eq]
    exact ⟨rfl, rfl, hset.others⟩
  · rw [opProducerMirrorReadDone_value hres]
    simp only [hdiscard, if_true]
    have hset := hu.issueMirror ((mirrorReads_modQueue hs.wf rfl).2 hreads)
    rw [hset.queue]
    exact ⟨rfl, rfl, rfl, hset.others⟩
  · rw [opProducerMirrorReadDone_value hres]
    simp only [hdiscard, hbad, if_false, Bool.false_eq_true]
    exact (hu.stopQueue hstate _ _).stopsAt rfl rfl rfl
  · rw [opProducerMirrorReadDone_failed hres]
    exact (hu.stopQueue hstate _ _).stopsAt rfl rfl rfl

/-! ## Queue commands (R71) -/

/-- What a command that R71 allows does to its queue. -/
def commandAct (s : State) (c q code count : Nat) (start : W32) : State :=
  match code with
  | 1 => if cfgValid s c (s.queue c q).cfg && (s.tenant c).state != 3 then doEnable s c q else cmdResult s c q 3
  | 2 => s.modQueue c q fun u => ({ u with cmd := some .pause }).enter .paused
  | 3 => s.modQueue c q fun u => ({ u with cmdResult := 0 }).enter .active
  | 4 => doReset s c q
  | 5 =>
    if 65536 < count then cmdResult s c q 3
    else if count = 0 then cmdResult s c q 0
    else doInvalidate s c q start count
  | _ => s.modQueue c q fun u => { u with cmd := some .restart }

/-- A command word that no command of the queue keeps out: the code, GEN and the state of the queue judge it (R71,
R428, R432). -/
theorem qCmd_of_arrives {s u : State} {c q code : Nat} {via : CmdVia} (he : Entered s u) (h : CommandArrives s c q via)
    (gen : BitVec 11) (count : Nat) (start : W32) (hcode : code ≠ 0) :
    qCmd u c q code gen count start via =
      if (6 < code || (via != .page && code = 5) || (via == .mctp && code != 2 && code != 3 && code != 4)) = true then
        cmdResult u c q 3
      else if (gen != (s.queue c q).gen) = true then cmdResult u c q 2
      else if (!cmdAllowed (s.queue c q) code s.aon.tampered) = true then cmdResult u c q 3
      else commandAct u c q code count start := by
  obtain ⟨-, hclient, hqueue, hpage, hcmd⟩ := h
  have hgate : ¬ (!isClient c || !u.hasQueue c q || (via == .page && !pageOpen u c q)) = true := by
    rw [he.hasQueue, he.pageOpen, hclient, hqueue]
    cases hvia : via == .page
    · simp
    · simp [hpage (beq_iff_eq.1 hvia)]
  unfold qCmd commandAct
  dsimp only
  rw [if_neg hgate, if_neg (by simp [he.queue, hcmd, hcode]), he.queue, he.aon] <;> rfl

theorem commandArrives_of_taken {s : State} {c q code : Nat} {gen : BitVec 11} {via : CmdVia}
    (h : CommandTaken s c q code gen via) : CommandArrives s c q via := by
  obtain ⟨hs, hclient, hqueue, hpage, hcmd, -, -⟩ := h
  exact ⟨hs, hclient, hqueue, hpage, hcmd⟩

/-- A code that reaches a queue by a way that has it (R428, R432). -/
theorem commandWay {code : Nat} {via : CmdVia} (hcode : code ≤ 6) (hpage : code = 5 → via = .page)
    (hmctp : via = .mctp → code = 2 ∨ code = 3 ∨ code = 4) :
    ¬ (6 < code || (via != .page && code = 5) || (via == .mctp && code != 2 && code != 3 && code != 4)) = true := by
  cases via <;> simp at hpage hmctp ⊢ <;> omega

section Commands

variable {c q : Nat} {s t : State} {u : Queue}

theorem SetsQueue.endsAt (h : SetsQueue c q s u t) (r : Nat) :
    SetsQueue c q s { u with cmdResult := r } (Machine.cmdResult t c q r) := h.modQueue fun u => { u with cmdResult := r }

/-- RESET: every copy and every undispatched descriptor goes (R71). -/
theorem SetsQueue.doReset (h : SetsQueue c q s u t) :
    ∃ chk, SetsQueue c q s
      { { u with chk := chk, ready := [] }.dropped with cmd := some .reset, resetting := true } (Machine.doReset t c q) := by
  obtain ⟨chk, hu⟩ := h.uncheck fun _ => true
  have hnone : u.ready.takeWhile (fun _ => !true) = [] := List.takeWhile_eq_nil_iff.2 (by simp)
  rw [hnone] at hu
  exact ⟨chk, hu.dropCopies.modQueue fun u => { u with cmd := some .reset, resetting := true }⟩

/-- A queue whose held and awaited slots in a range are dropped (R56). -/
def Queue.invalidated (late : Bool) (hit : Nat → Bool) (u : Queue) : Queue :=
  { u with
    cmd := some (.invalidate late), cache := u.cache.filter fun e => !hit e.1
    fetching := u.fetching.filter fun k => !hit k }

/-- INVALIDATE: the copies of the named slots go, and the check goes back (R56). -/
theorem SetsQueue.doInvalidate (h : SetsQueue c q s u t) (start : W32) (n : Nat) :
    ∃ chk ready, SetsQueue c q s
      (Queue.invalidated (u.window.any (jobHit t start n)) (fun k => decide (ringDist (BitVec.ofNat 32 k) start < n))
        { u with chk := chk, ready := ready })
      (Machine.doInvalidate t c q start n) := by
  obtain ⟨chk, hu⟩ := h.uncheck (jobHit t start n)
  unfold Machine.doInvalidate
  rw [h.queue]
  exact ⟨chk, _, (hu.keeps (orphanReads_keeps (F := { dma := true }) _ _ _ rfl (Keeps.refl _ _)) rfl).modQueue
    (Queue.invalidated (u.window.any (jobHit t start n)) fun k => decide (ringDist (BitVec.ofNat 32 k) start < n))⟩

end Commands

/-- A queue command that is taken acts on the state in which the access acts. -/
theorem completes_ofCommand {c q code : Nat} {gen : BitVec 11} {count : Nat} {start : W32} {via : CmdVia} {i : Instr}
    {s : State} {P : State → Prop} (hs : CommandTaken s c q code gen via)
    (hexec : exec i s = .next (whenClocked i s fun s => qCmd (wake s 1) c q code gen count start via))
    (hcode : 1 ≤ code ∧ code ≤ 6) (hpage : code = 5 → via = .page) (hmctp : via = .mctp → code = 2 ∨ code = 3 ∨ code = 4)
    (h : ∀ u, Entered s u → SetsQueue c q s (s.queue c q) u → P (commandAct u c q code count start)) :
    Completes i s P := by
  have he := wake_entered s 1
  have harrives := commandArrives_of_taken hs
  obtain ⟨hrun, -, -, -, -, hgen, hallowed⟩ := hs
  refine Completes.ofClocked hexec hrun ?_
  rw [qCmd_of_arrives he harrives gen count start (by omega), if_neg (commandWay hcode.2 hpage hmctp),
    if_neg (by simp [hgen]), if_neg (by simp [hallowed])]
  exact h _ he (SetsQueue.ofEntered he hrun.inv)

theorem Entered.cfgValid {s u : State} (h : Entered s u) (c : Nat) (g : QCfg) :
    Machine.cfgValid u c g = Machine.cfgValid s c g := by
  obtain ⟨p, w, k, a, b, i, d, e, at', l, rfl⟩ := h.eq
  rfl

theorem commandTaken_gen {s : State} {c q code : Nat} {gen : BitVec 11} {via : CmdVia}
    (h : CommandTaken s c q code gen via) : gen = (s.queue c q).gen := by
  obtain ⟨-, -, -, -, -, hgen, -⟩ := h
  exact hgen

/-- Settles O10. -/
theorem queueCommands : Obligations.QueueCommands := by
  refine ⟨fun c q gen via s hs hvia hcfg hstate =>
      completes_ofCommand hs rfl (by decide) (by simp) (fun h => absurd h hvia) fun u he hu => ?_,
    fun c q gen via s hs => completes_ofCommand hs rfl (by decide) (by simp) (by simp) fun u he hu => ?_,
    fun c q gen via s hs => completes_ofCommand hs rfl (by decide) (by simp) (by simp) fun u he hu => ?_,
    fun c q gen via s hs => completes_ofCommand hs rfl (by decide) (by simp) (by simp) fun u he hu => ?_,
    fun c q gen start count s hs hpos htop =>
      completes_ofCommand hs rfl (by decide) (fun _ => rfl) (by simp) fun u he hu => ?_,
    fun c q gen via s hs hvia =>
      completes_ofCommand hs rfl (by decide) (by simp) (fun h => absurd h hvia) fun u he hu => ?_⟩ <;>
    have hgen := commandTaken_gen hs
  · have hact : commandAct u c q 1 0 0 = doEnable u c q := by
      simp [commandAct, he.queue, he.tenant, he.cfgValid, hcfg, hstate]
    have hset := hu.modQueue fun u =>
      ({ u with pi := u.cfg.init, head := u.cfg.init, chk := u.cfg.init, stop := 0, cmdResult := 0 }).enter .active
    rw [hact, doEnable, hset.queue, hgen]
    exact ⟨rfl, rfl, rfl, rfl, rfl, rfl, rfl, rfl, hset.others⟩
  · have hset := hu.modQueue fun u => ({ u with cmd := some .pause }).enter .paused
    rw [commandAct, hset.queue, hgen]
    exact ⟨rfl, rfl, rfl, rfl, rfl, hset.others⟩
  · have hset := hu.modQueue fun u => ({ u with cmdResult := 0 }).enter .active
    rw [commandAct, hset.queue, hgen]
    exact ⟨rfl, rfl, rfl, rfl, rfl, hset.others⟩
  · obtain ⟨chk, hset⟩ := hu.doReset
    rw [commandAct, hset.queue]
    exact ⟨rfl, rfl, rfl, rfl, rfl, rfl, hset.others⟩
  · obtain ⟨chk, ready, hset⟩ := hu.doInvalidate start count.toNat
    have hact : commandAct u c q 5 count.toNat start = doInvalidate u c q start count.toNat := by
      simp only [commandAct]
      rw [if_neg (by omega), if_neg (by omega)]
    have hjobs : jobHit u start count.toNat = jobHit s start count.toNat := by
      funext j
      simp only [jobHit, State.job, he.jobs]
    rw [hact, hset.queue, hjobs]
    refine ⟨rfl, fun k d hk => ?_, rfl, rfl, rfl, hset.others⟩
    simpa [Queue.invalidated] using (List.mem_filter.1 hk).2
  · have hset := hu.modQueue fun u => { u with cmd := some .restart }
    exact ⟨hset.queue, hset.others⟩

/-! ## The ends of queue commands (R56, R68, R71) -/

section TurnedAway

variable {c q : Nat} {s : State} {i : Instr} {code count : Nat} {gen : BitVec 11} {start : W32} {via : CmdVia}

theorem endsWith_of_qCmd {r : Nat} (hs : Running s)
    (hexec : exec i s = .next (whenClocked i s fun s => qCmd (wake s 1) c q code gen count start via))
    (h : qCmd (wake s 1) c q code gen count start via = cmdResult (wake s 1) c q r) : EndsWith i c q r s := by
  refine Completes.ofClocked hexec hs ?_
  rw [h]
  have hset := (SetsQueue.ofEntered (c := c) (q := q) (wake_entered s 1) hs.inv).endsAt r
  exact ⟨hset.queue, hset.others⟩

/-- The command of one code, whatever COUNT and START it carries, is turned away as R71 says. -/
theorem turnedAway_of_qCmd {i : Nat → Nat → BitVec 11 → CmdVia → Instr} (hcode : 1 ≤ code ∧ code ≤ 6)
    (hexec : ∀ c q gen via s, exec (i c q gen via) s =
      .next (whenClocked (i c q gen via) s fun s => qCmd (wake s 1) c q code gen count start via)) :
    TurnedAway i code := by
  refine ⟨fun c q gen via s harr hpage hmctp hgen => endsWith_of_qCmd harr.1 (hexec ..) ?_,
    fun c q gen via s harr hgen hallowed => endsWith_of_qCmd harr.1 (hexec ..) ?_,
    fun c q gen via s hs hcmd => Completes.ofClocked (hexec ..) hs ?_⟩
  · rw [qCmd_of_arrives (wake_entered s 1) harr gen count start (by omega), if_neg (commandWay hcode.2 hpage hmctp),
      if_pos (by simpa using hgen)]
  · rw [qCmd_of_arrives (wake_entered s 1) harr gen count start (by omega)]
    split
    · rfl
    · rw [if_neg (by simp [hgen]), if_pos (by simp [hallowed])]
  · have he := wake_entered s 1
    have hwaits : qCmd (wake s 1) c q code gen count start via = wake s 1 := by
      have hcmd : ((wake s 1).queue c q).cmd.isSome = true := by rwa [he.queue, Option.isSome_iff_ne_none]
      unfold qCmd
      dsimp only
      split
      · rfl
      · rw [if_pos (by simp [hcmd])]
    rw [hwaits]
    exact ⟨he.queues, he.jobs⟩

end TurnedAway

/-! ### Acknowledgements -/

section Acknowledged

variable {c q : Nat} {s t : State} {u : Queue}

/-- The tenant's state word and its notices leave the queues alone. -/
theorem resized_queues (s : State) (c : Nat) : Keeps { peer := true, tenants := true } s (resized s c) :=
  resized_keeps _ _ rfl rfl (Keeps.refl _ _)

/-- What is left of a queue that leaves its function: its last mirror and record (R293). -/
def Queue.released (mirror : Bool) (u : Queue) : Queue :=
  if mirror then
    { cfg := u.cfg, state := .disabled, gen := u.gen + 1, stop := u.stop, head := u.head, hmDue := true,
      chgDue := true, irqDue := u.irqDue, crDue := u.crDue, crPending := u.crPending, crAt := u.crAt
      crIrq := u.crIrq, crChg := u.crChg }
  else {}

theorem Queue.released_state (mirror : Bool) (u : Queue) : (u.released mirror).state = .disabled := by
  cases mirror <;> rfl

theorem releaseQueue_eq (h : SetsQueue c q s u t) (mirror : Bool) :
    Machine.releaseQueue t c q mirror =
      resized (((Machine.dropReady (Machine.dropCopies t c q) c q).setQueue c q
        (({ u.dropped with ready := [] } : Queue).released mirror)).modTenant c
          fun t => { t with qmap := tblErase t.qmap q }) c := by
  rw [← h.dropCopies.dropReady.queue]
  rfl

theorem SetsQueue.releaseQueue (h : SetsQueue c q s u t) (mirror : Bool) :
    SetsQueue c q s (({ u.dropped with ready := [] } : Queue).released mirror) (Machine.releaseQueue t c q mirror) := by
  rw [releaseQueue_eq h]
  exact ((h.dropCopies.dropReady.setQueue _).keeps
    (modTenant_keeps (F := { tenants := true }) _ _ _ rfl (Keeps.refl _ _)) rfl).keeps (resized_queues _ c) rfl

theorem mailFor_qmap (s : State) (h : s.wf = true) (c : Nat) (m : Mail) :
    ((mailFor s c m).tenant c).qmap = (s.tenant c).qmap := by
  unfold mailFor
  dsimp only
  split
  · rfl
  split <;> rw [State.modTenant_same h]

theorem resized_qmap {s : State} (h : s.wf = true) (c : Nat) : ((resized s c).tenant c).qmap = (s.tenant c).qmap := by
  have hmod : ((s.modTenant c fun t => { t with state := 1, gen := t.gen + 1 }).tenant c).qmap = (s.tenant c).qmap := by
    rw [State.modTenant_same h]
  unfold resized stepTenant tenantChanged
  split
  · split
    · rw [mailFor_qmap _ (State.modTenant_wf h _ _), hmod]
    · have hk := noticeFor_keeps (F := { peer := true }) (s.modTenant c fun t => { t with state := 1, gen := t.gen + 1 })
        (c - 4096) 3 0 rfl (Keeps.refl _ _)
      rw [hk.tenant_eq rfl, hmod]
  · rfl

theorem releaseQueue_qmap (h : SetsQueue c q s u t) (mirror : Bool) :
    ((Machine.releaseQueue t c q mirror).tenant c).qmap = tblErase (t.tenant c).qmap q := by
  have hwf := (h.dropCopies.dropReady.setQueue (({ u.dropped with ready := [] } : Queue).released mirror)).wf
  rw [releaseQueue_eq h, resized_qmap (State.modTenant_wf hwf _ _), State.modTenant_same hwf]
  have hk := (Keeps.refl { dma := true, jobs := true, queues := true } t).trans
    (dropReady_keeps _ c q rfl rfl (dropCopies_keeps t c q rfl rfl (Keeps.refl _ _)))
  rw [State.setQueue_get_tenant, hk.tenant_eq rfl]

end Acknowledged

/-- Settles O11. -/
theorem queueCommandEnds : Obligations.QueueCommandEnds := by
  refine ⟨fun c q word via s harr hcode => ?_, turnedAway_of_qCmd (by decide) fun _ _ _ _ _ => rfl,
    turnedAway_of_qCmd (by decide) fun _ _ _ _ _ => rfl, turnedAway_of_qCmd (by decide) fun _ _ _ _ _ => rfl,
    turnedAway_of_qCmd (by decide) fun _ _ _ _ _ => rfl,
    fun start count => turnedAway_of_qCmd (by decide) fun _ _ _ _ _ => rfl,
    turnedAway_of_qCmd (by decide) fun _ _ _ _ _ => rfl, fun c q gen via s hs hvia hbad => ?_,
    fun c q gen start count s hs hcount => ?_, fun c q s hs hcmd => Completes.ofClock rfl hs.fclk ?_,
    fun c q late s hs hcmd => Completes.ofClock rfl hs.fclk ?_,
    fun c q s hs hcmd hstate hstop => Completes.ofClock rfl hs.fclk ?_,
    fun c q s hs hreset hwindow hleaving => Completes.ofClock rfl hs.fclk ?_,
    fun c q s hs hstate hreset hwindow hready hdrain => Completes.ofClock rfl hs.fclk ?_⟩
  · have hbits : 6 < bits word.toNat 3 0 := by simpa [bits] using hcode
    refine endsWith_of_qCmd harr.1 rfl ?_
    rw [qCmd_of_arrives (wake_entered s 1) harr _ _ _ (by omega), if_pos (by simp [hbits])]
  · refine completes_ofCommand hs rfl (by decide) (by simp) (fun h => absurd h hvia) fun u he hu => ?_
    have hact : commandAct u c q 1 0 0 = cmdResult u c q 3 := by
      rcases hbad with hbad | hbad <;> simp [commandAct, he.queue, he.tenant, he.cfgValid, hbad]
    rw [hact]
    exact ⟨(hu.endsAt 3).queue, (hu.endsAt 3).others⟩
  · refine completes_ofCommand hs rfl (by decide) (fun _ => rfl) (by simp) fun u he hu => ?_
    have hact : commandAct u c q 5 count.toNat start = cmdResult u c q (if count.toNat = 0 then 0 else 3) := by
      rcases hcount with hcount | hcount
      · simp [commandAct, hcount]
      · rw [if_neg (by omega)]
        simp only [commandAct]
        rw [if_pos hcount]
    rw [hact]
    exact ⟨(hu.endsAt _).queue, (hu.endsAt _).others⟩
  · have hset := (SetsQueue.refl (c := c) (q := q) hs.inv).modQueue fun u => { u with cmd := none, cmdResult := 0 }
    rw [opPauseAck, if_pos hcmd]
    exact ⟨hset.queue, hset.others⟩
  · have hset := (SetsQueue.refl (c := c) (q := q) hs.inv).modQueue fun u =>
      { u with cmd := none, cmdResult := if late then 1 else 0 }
    have hack : opInvalidateAck c q s = s.modQueue c q fun u => { u with cmd := none, cmdResult := if late then 1 else 0 } := by
      simp only [opInvalidateAck, hcmd]
    rw [hack]
    exact ⟨hset.queue, hset.others⟩
  · have hset := (SetsQueue.refl (c := c) (q := q) hs.inv).modQueue fun u =>
      ({ u with cmd := none, cmdResult := 0, stopPt := none, chk := u.head }).enter .active
    have hack : opRestartAck c q s = s.modQueue c q fun u =>
        ({ u with cmd := none, cmdResult := 0, stopPt := none, chk := u.head }).enter .active := by
      simp [opRestartAck, hcmd, hstate, hstop]
    rw [hack, hset.queue]
    exact ⟨rfl, rfl, rfl, rfl, rfl, rfl, rfl, hset.others⟩
  · have hset := (SetsQueue.refl (c := c) (q := q) hs.inv).dropCopies.modQueue fun u =>
      { u.disable (s.busMaster c) with cmd := none, cmdResult := 0 }
    have hack : opResetAck c q s = (dropCopies s c q).modQueue c q fun u =>
        { u.disable (s.busMaster c) with cmd := none, cmdResult := 0 } := by
      simp [opResetAck, hreset, hwindow, hleaving]
    rw [hack, hset.queue]
    refine ⟨rfl, rfl, rfl, rfl, rfl, rfl, rfl, rfl, fun hstaged => ?_, hset.others⟩
    simp [Queue.disable, Queue.dropped, Queue.unstage, hstaged]
  · have hq := SetsQueue.refl (c := c) (q := q) hs.inv
    have hack : opQueueDrainEnd c q s = releaseQueue s c q (s.busMaster c) := by
      simp [opQueueDrainEnd, hstate, hreset, hwindow, hready, hdrain]
    rw [hack, releaseQueue_qmap hq, (hq.releaseQueue _).queue]
    exact ⟨Queue.released_state _ _, rfl, (hq.releaseQueue _).others⟩

end Sys2Proof.Machine
end

section
/-! SUPPORT. Queues: pushes, the forager's reads ahead of dispatch, and the check of descriptors. The theorems that
settle O8 and O9. -/

namespace Sys2Proof.Machine

/-! ## Putting twice, and membership after a put -/

section Put

variable {V : Type}

theorem tblPut_tblPut_same (t : Tbl V) (k : Nat) (v w : V) : tblPut (tblPut t k v) k w = tblPut t k w := by
  induction t with
  | nil => simp [tblPut]
  | cons e t ih =>
    obtain ⟨j, x⟩ := e
    by_cases h1 : k < j
    · simp [tblPut, h1]
    by_cases h2 : j = k
    · simp [tblPut, h2]
    · simp [tblPut, h1, h2, ih]

theorem tblPut_length_le (t : Tbl V) (k : Nat) (v : V) : (tblPut t k v).length ≤ t.length + 1 := by
  induction t with
  | nil => simp [tblPut]
  | cons e t ih =>
    obtain ⟨j, x⟩ := e
    simp only [tblPut]
    split
    · simp
    split <;> simp [ih]

/-- The numbers listed after a put. -/
theorem mem_tblKeys_put (t : Tbl V) (k : Nat) (v : V) (j : Nat) :
    j ∈ tblKeys (tblPut t k v) ↔ j = k ∨ j ∈ tblKeys t := by
  induction t with
  | nil => simp [tblPut, tblKeys]
  | cons e t ih =>
    obtain ⟨i, x⟩ := e
    simp only [tblKeys, List.map_cons, List.mem_cons] at ih ⊢
    simp only [tblPut]
    split
    · simp
    split
    · next h => simp [h]
    · simp [ih, or_left_comm]

theorem tblPut_length_eq (t : Tbl V) (k : Nat) (v w : V) : (tblPut t k v).length = (tblPut t k w).length := by
  induction t with
  | nil => rfl
  | cons e t ih =>
    obtain ⟨j, x⟩ := e
    simp only [tblPut]
    split
    · rfl
    split
    · rfl
    · simp [ih]

theorem any_key_iff (t : Tbl V) (j : Nat) : (t.any fun e => e.1 == j) = true ↔ j ∈ tblKeys t := by
  simp [tblKeys, List.any_eq_true]

theorem tblGet_mem_or (d : V) (t : Tbl V) (k : Nat) : (k, tblGet d t k) ∈ t ∨ tblGet d t k = d := by
  induction t with
  | nil => exact Or.inr rfl
  | cons e t ih =>
    obtain ⟨j, x⟩ := e
    simp only [tblGet]
    split
    · next h => exact Or.inl (by simp [h])
    · exact ih.imp_left (List.mem_cons_of_mem _)

end Put

/-! ## Pushes (R44, R51, R52) -/

theorem patch_length {b : Bytes} {o : Nat} (x : Byte) (h : o < b.length) : (patch b o [x]).length = b.length := by
  simp [patch]
  omega

theorem patch_getD_same {b : Bytes} {o : Nat} (x : Byte) (h : o < b.length) : (patch b o [x]).getD o 0 = x := by
  simp [patch, Nat.min_eq_left h.le]

theorem patch_getD_other {b : Bytes} {o p : Nat} (x : Byte) (h : o < b.length) (hp : p ≠ o) :
    (patch b o [x]).getD p 0 = b.getD p 0 := by
  rcases Nat.lt_or_gt_of_ne hp with hp | hp
  · have hpb : p < b.length := by omega
    simp [patch, List.getElem?_append, Nat.min_eq_left h.le, hp, hpb]
  · have h1 : ¬ p < o := by omega
    have h2 : ¬ p - o < 1 := by omega
    simp only [patch, List.append_assoc, List.singleton_append, List.getD_eq_getElem?_getD, List.getElem?_append,
      List.length_take, Nat.min_eq_left h.le, h1, if_false, List.length_singleton]
    rw [List.getElem?_cons, if_neg (by omega), List.getElem?_drop]
    congr 2
    omega

/-- What a queue has staged once the first bytes of a push have arrived from offset `off` on: the slots they touch hold
them, and each slot was taken once. -/
structure Staged (u v : Queue) (off : Nat) (data : Bytes) : Prop where
  eq : v = { u with staged := v.staged }
  whole : ∀ k, (tblGet {} v.staged k).data.length = 64
  room : data ≠ [] → v.staged.length ≤ u.staged.length + ((off + data.length - 1) / 64 - off / 64 + 1)
  last : data ≠ [] → ∃ t w, v.staged = tblPut t ((off + data.length - 1) / 64) w
  none : data = [] → v = u
  bytes : ∀ i, i < data.length →
    (tblGet {} v.staged ((off + i) / 64)).mask.getLsbD ((off + i) % 64) = true ∧
    (tblGet {} v.staged ((off + i) / 64)).data.getD ((off + i) % 64) 0 = data.getD i 0

section StageByte

variable {u v : Queue} {off room : Nat} {data : Bytes}

/-- The buffer has room for the slot of the next byte. -/
theorem Staged.takes (h : Staged u v off data) (hroom : u.staged.length + 7 ≤ room) (hend : off + data.length < 448) :
    (v.staged.any (fun e => e.1 == (off + data.length) / 64) || decide (v.staged.length < room)) = true := by
  rw [Bool.or_eq_true, any_key_iff, decide_eq_true_eq]
  by_cases hdata : data = []
  · rw [h.none hdata]
    omega
  have hpos := List.length_pos_iff.2 hdata
  by_cases hslot : (off + data.length - 1) / 64 = (off + data.length) / 64
  · obtain ⟨t, w, ht⟩ := h.last hdata
    exact Or.inl (by rw [ht, mem_tblKeys_put, hslot]; exact Or.inl rfl)
  · have := h.room hdata
    omega

theorem Staged.stageByte (h : Staged u v off data) (hroom : u.staged.length + 7 ≤ room)
    (hend : off + data.length < 448) (x : Byte) :
    Staged u (v.stageByte room (off + data.length) x) off (data ++ [x]) := by
  set o := off + data.length with ho
  set w := tblGet {} v.staged (o / 64) with hw
  set w' : StagedSlot := { data := patch w.data (o % 64) [x], mask := w.mask ||| (1#64 <<< (o % 64)) } with hw'
  have hbyte : v.stageByte room o x = { v with staged := tblPut v.staged (o / 64) w' } := if_pos (h.takes hroom hend)
  have hwhole : w.data.length = 64 := h.whole _
  have hin : o % 64 < w.data.length := by rw [hwhole]; exact Nat.mod_lt _ (by decide)
  have hlen : off + (data ++ [x]).length - 1 = o := by simp [ho]
  rw [hbyte]
  refine ⟨by rw [h.eq], fun k => ?_, fun _ => ?_, fun _ => ⟨_, _, by rw [hlen]⟩, by simp, fun i hi => ?_⟩
  · by_cases hk : k = o / 64
    · rw [hk, tblGet_put_same, patch_length x hin, hwhole]
    · rw [tblGet_put_other _ _ _ _ _ hk]
      exact h.whole k
  · rw [hlen]
    by_cases hdata : data = []
    · have hle := tblPut_length_le v.staged (o / 64) w'
      rw [show v.staged.length = u.staged.length by rw [h.none hdata]] at hle
      exact hle.trans (by omega)
    have hpos := List.length_pos_iff.2 hdata
    have hold := h.room hdata
    by_cases hslot : (off + data.length - 1) / 64 = o / 64
    · obtain ⟨t, y, ht⟩ := h.last hdata
      rw [hslot] at ht hold
      rw [ht] at hold
      rw [ht, tblPut_tblPut_same, tblPut_length_eq t _ _ y]
      exact hold
    · have hle := tblPut_length_le v.staged (o / 64) w'
      refine hle.trans ?_
      omega
  · rw [List.length_append, List.length_singleton] at hi
    by_cases hslot : (off + i) / 64 = o / 64
    · rw [hslot, tblGet_put_same]
      by_cases hlast : i = data.length
      · subst hlast
        have hbit : o % 64 < 64 := Nat.mod_lt _ (by decide)
        rw [← ho, patch_getD_same x hin]
        exact ⟨by simp [w', hbit], by simp⟩
      · obtain ⟨hmask, hdata⟩ := h.bytes i (by omega)
        rw [hslot, ← hw] at hmask hdata
        rw [patch_getD_other x hin (by omega), hdata, BitVec.getLsbD_or, hmask]
        simp [List.getElem?_append, show i < data.length by omega]
    · have hlt : i < data.length := by
        by_contra hge
        exact hslot (by rw [show i = data.length by omega])
      obtain ⟨hmask, hdata⟩ := h.bytes i hlt
      rw [tblGet_put_other _ _ _ _ _ hslot, hmask, hdata]
      simp [List.getElem?_append, hlt]

/-- A push of up to seven slots finds room for all of them. -/
theorem staged_foldl (u : Queue) (off room : Nat) (data : Bytes) (hroom : u.staged.length + 7 ≤ room)
    (hwhole : ∀ e ∈ u.staged, e.2.data.length = 64) (hend : off + data.length ≤ 448) :
    Staged u (data.zipIdx.foldl (fun u b => u.stageByte room (off + b.2) b.1) u) off data := by
  induction data using List.reverseRecOn with
  | nil =>
    refine ⟨rfl, fun k => ?_, by simp, by simp, fun _ => rfl, by simp⟩
    rcases tblGet_mem_or {} u.staged k with h | h
    · exact hwhole _ h
    · rw [List.zipIdx_nil, List.foldl_nil, h]
      rfl
  | append_singleton data x ih =>
    rw [List.length_append, List.length_singleton] at hend
    rw [List.zipIdx_append, List.foldl_append]
    simpa using (ih (by omega)).stageByte hroom (by omega) x

end StageByte

/-- A write that begins in the push window of a page that answers (R44, R51, R52, R67). -/
theorem opPushWindowWrite_eq {c q off : Nat} {relaxed : Bool} {data : Bytes} {s : State} (hopen : pageOpen s c q = true)
    (hlen : 0 < data.length) (hoff : off < 448) :
    opPushWindowWrite c q off relaxed data s =
      if 448 < off + data.length then s.modQueue c q fun u => u.unwrite off data.length
      else if takesDoorbells s c q = false then
        s.modQueue c q fun u => { u with pushDrop := true, dbIgnored := true }
      else if data.length < 8 ∨ off % 8 ≠ 0 then s.modQueue c q fun u => u.unwrite off data.length
      else s.modQueue c q fun u =>
        data.zipIdx.foldl (fun v b => v.stageByte (u.staged.length + (2048 - pushUsed s)) (off + b.2) b.1)
          { u with stagedBad := u.stagedBad || relaxed, stagedAt := some (u.stagedAt.getD s.hv.tick) } := by
  have hgate : ¬ (!pageOpen s c q || data.length = 0 || 448 ≤ off) = true := by
    simp only [hopen, Bool.not_true, Bool.false_or, Bool.or_eq_true, decide_eq_true_eq]
    omega
  unfold opPushWindowWrite
  dsimp only
  rw [if_neg hgate]
  simp only [Bool.not_eq_true', Bool.or_eq_true, decide_eq_true_eq, bne_iff_ne]

/-- An access to the push window acts on the state in which the access acts. -/
theorem completes_ofPush {c q off : Nat} {relaxed : Bool} {data : Bytes} {s : State} {P : State → Prop} (hs : Running s)
    (h : ∀ u, Entered s u → SetsQueue c q s (s.queue c q) u → P (opPushWindowWrite c q off relaxed data u)) :
    Completes (.pushWindowWrite c q off relaxed data) s P :=
  Completes.ofClocked rfl hs (h _ (fnActive_wake_entered s 1 c) (SetsQueue.ofEntered (fnActive_wake_entered s 1 c) hs.inv))

theorem Queue.unwrite_masks (u : Queue) (off n : Nat) :
    ∀ e ∈ (u.unwrite off n).staged, off / 64 ≤ e.1 → e.1 ≤ (off + n - 1) / 64 → e.2.mask = 0 := by
  intro e he hlow hhigh
  obtain ⟨f, -, rfl⟩ := List.mem_map.1 he
  split at hlow
  · next h => rw [if_pos h]
  · next h =>
    rw [if_neg h] at hhigh
    simp only [Bool.and_eq_true, decide_eq_true_eq] at h
    exact absurd ⟨hlow, hhigh⟩ h

/-! ## The forager (R54) -/

section Forager

variable {c q : Nat} {s t : State} {u : Queue}

/-- The slot is held, or its read is under way. -/
def Queue.has (u : Queue) (i : Nat) : Prop := i ∈ tblKeys u.cache ∨ i ∈ u.fetching

/-- A slot that may be fetched is fetched, or held as failed; what the queue has already stays (R54). -/
theorem SetsQueue.fetchSlot (h : SetsQueue c q s u t) (i : W32) :
    ∃ cache fetching, SetsQueue c q s { u with cache := cache, fetching := fetching } (Machine.fetchSlot c q t i) ∧
      (∀ k, u.has k → ({ u with cache := cache, fetching := fetching } : Queue).has k) ∧
      (cacheUsed t < 8192 → ({ u with cache := cache, fetching := fetching } : Queue).has i.toNat) := by
  unfold Machine.fetchSlot
  rw [h.queue]
  dsimp only
  split
  · next hskip =>
    refine ⟨u.cache, u.fetching, h, fun _ => id, fun hroom => ?_⟩
    simp only [Bool.or_eq_true, any_key_iff, List.contains_iff_mem, decide_eq_true_eq] at hskip
    exact hskip.resolve_right (by omega)
  split
  · refine ⟨u.cache, u.fetching ++ [i.toNat], (h.modQueue fun u => { u with fetching := u.fetching ++ [i.toNat] }).keeps
      (issueReads_keeps _ _) rfl, fun k hk => ?_, fun _ => Or.inr (by simp)⟩
    exact hk.imp_right (List.mem_append_left _)
  · refine ⟨tblPut u.cache i.toNat { bad := true }, u.fetching,
      h.modQueue fun u => { u with cache := tblPut u.cache i.toNat { bad := true } }, fun k hk => ?_, fun _ => ?_⟩
    · exact hk.imp_left fun hk => (mem_tblKeys_put ..).2 (Or.inr hk)
    · exact Or.inl ((mem_tblKeys_put ..).2 (Or.inl rfl))

theorem SetsQueue.fetchSlots (h : SetsQueue c q s u t) (l : List W32) :
    ∃ cache fetching, SetsQueue c q s { u with cache := cache, fetching := fetching }
        (t.each l (Machine.fetchSlot c q)) ∧
      ∀ k, u.has k → ({ u with cache := cache, fetching := fetching } : Queue).has k := by
  induction l generalizing t u with
  | nil => exact ⟨u.cache, u.fetching, h, fun _ => id⟩
  | cons i l ih =>
    obtain ⟨cache, fetching, hset, hkeep, -⟩ := h.fetchSlot i
    obtain ⟨cache', fetching', hset', hkeep'⟩ := ih hset
    exact ⟨cache', fetching', hset', fun k hk => hkeep' k (hkeep k hk)⟩

end Forager

theorem evictSlots_of_room {s : State} (h : cacheUsed s < 8192) (c q : Nat) (l : List W32) :
    s.each l (evictSlot c q) = s := by
  induction l with
  | nil => rfl
  | cons i l ih =>
    rw [State.each, List.foldl_cons, evictSlot, if_neg (by omega)]
    exact ih

/-- Settles O8. -/
theorem pushAndPrefetch : Obligations.PushAndPrefetch := by
  refine ⟨fun c q off relaxed data s hs hopen htakes hlen halign hend hroom hwhole =>
      completes_ofPush hs fun e he hq => ?_,
    fun c q off relaxed data s hs hopen hoff hbad => completes_ofPush hs fun e he hq => ?_,
    fun c q off relaxed data s hs hopen htakes hlen hend => completes_ofPush hs fun e he hq => ?_,
    fun c q t0 s hs hat htick => Completes.ofClock rfl hs.fclk ?_,
    fun c q evict i rest s hs hqueue htakes hfetch hroom => Completes.ofClock rfl hs.fclk ?_⟩
  · have hused : pushUsed e = pushUsed s := by rw [pushUsed, he.queues, pushUsed]
    rw [opPushWindowWrite_eq ((he.pageOpen c q).trans hopen) (by omega) (by omega), if_neg (by omega),
      if_neg (by simp [he.takesDoorbells, htakes]), if_neg (by omega), hused, he.tick]
    have hset := hq.modQueue fun u =>
      data.zipIdx.foldl (fun v b => v.stageByte (u.staged.length + (2048 - pushUsed s)) (off + b.2) b.1)
        { u with stagedBad := u.stagedBad || relaxed, stagedAt := some (u.stagedAt.getD s.hv.tick) }
    have hstaged := staged_foldl
      { s.queue c q with stagedBad := (s.queue c q).stagedBad || relaxed,
                         stagedAt := some ((s.queue c q).stagedAt.getD s.hv.tick) }
      off ((s.queue c q).staged.length + (2048 - pushUsed s)) data
      (show (s.queue c q).staged.length + 7 ≤ _ by omega) hwhole hend
    refine ⟨?_, ?_, fun i hi => ?_, ?_, ?_, hset.others⟩ <;> rw [hset.queue]
    · rw [hstaged.eq]
    · rw [hstaged.eq]
    · exact hstaged.bytes i hi
    · rw [hstaged.eq]
    · rw [hstaged.eq]
  · have hset := hq.modQueue fun u => u.unwrite off data.length
    have hdiscards : opPushWindowWrite c q off relaxed data e = e.modQueue c q fun u => u.unwrite off data.length := by
      rw [opPushWindowWrite_eq ((he.pageOpen c q).trans hopen) (by omega) hoff]
      split
      · rfl
      · obtain ⟨htakes, hpos, hshort⟩ := hbad.resolve_left ‹_›
        rw [if_neg (by simp [he.takesDoorbells, htakes]), if_pos hshort]
    rw [hdiscards, hset.queue]
    exact ⟨rfl, Queue.unwrite_masks _ _ _, rfl, hset.others⟩
  · have hset := hq.modQueue fun u => { u with pushDrop := true, dbIgnored := true }
    rw [opPushWindowWrite_eq ((he.pageOpen c q).trans hopen) hlen (by omega), if_neg (by omega),
      if_pos ((he.takesDoorbells c q).trans htakes)]
    exact ⟨hset.queue, hset.others⟩
  · have hset := (SetsQueue.refl (c := c) (q := q) hs.inv).modQueue fun u => u.unstage true
    have hdrop : opPushStagingTimeout c q s = s.modQueue c q fun u => u.unstage true := by
      simp only [opPushStagingTimeout, hat, htick, if_true]
    rw [hdrop, hset.queue]
    refine ⟨rfl, rfl, rfl, fun hstaged => ?_, hset.others⟩
    simp [Queue.unstage, hstaged]
  · have hfetches : opDescriptorPrefetch c q evict s = (fetchSlot c q s i).each rest (fetchSlot c q) := by
      simp only [opDescriptorPrefetch, hqueue, htakes, evictSlots_of_room hroom, hfetch]
      rfl
    obtain ⟨cache, fetching, hfirst, -, hhas⟩ := (SetsQueue.refl (c := c) (q := q) hs.inv).fetchSlot i
    obtain ⟨cache', fetching', hset, hkeep⟩ := hfirst.fetchSlots rest
    rw [hfetches, hset.queue]
    refine ⟨?_, rfl, rfl, hset.others⟩
    rw [Bool.or_eq_true, any_key_iff, List.contains_iff_mem]
    exact hkeep _ (hhas hroom)

/-! ## Stage 3 (R100, R101) -/

/-- A queue that takes descriptors and is not draining runs. -/
theorem takesSlots_runs {u : Queue} (h : takesSlots u = true) (hdrain : u.state ≠ .draining) :
    u.state = .active ∨ u.state = .paused := by
  simp only [takesSlots, Bool.and_eq_true, Bool.or_eq_true, beq_iff_eq] at h
  exact h.1.resolve_right hdrain

section Stage3

variable {c q : Nat} {s : State}

/-- A check that no memory error meets judges what the queue holds. -/
theorem opDescriptorFetchDone_eq (hs : Running s) (hqueue : s.hasQueue c q = true)
    (htakes : takesSlots (s.queue c q) = true) :
    opDescriptorFetchDone c q .clean s =
      match judge (s.queue c q) with
      | .waits => s
      | .stops code => stopQueue s c q code (s.queue c q).chk
      | .whole d =>
        match structural s c d with
        | .inl code => stopQueue s c q code (s.queue c q).chk
        | .inr o =>
          let n := newJob s c (.ring q (s.queue c q).chk) (s.queue c q).clearExport false o d
            (arrival s (s.queue c q) (dSlots d))
          if s.aon.tampered && keyedJob s (n.2.job n.1) then freezeQueue s c q
          else n.2.modQueue c q fun u =>
            { u with chk := u.chk + BitVec.ofNat 32 (dSlots d), ready := u.ready ++ [n.1] } := by
  simp only [opDescriptorFetchDone, hs.fclk, hqueue, htakes, fetchEcc]
  rfl

/-- The job that a checked descriptor becomes. -/
theorem newJob_job (src : JobSrc) (clear peer : Bool) (o : Op) (d : Bytes) (arr : Nat) :
    ∃ j : Job, (newJob s c src clear peer o d arr).2 = { s with jobs := tblSet {} s.jobs s.nextJob j, nextJob := s.nextJob + 1 } ∧
      j.desc = d ∧ j.client = c ∧ j.stage = .ready ∧ j.src = src ∧ j.tArrive = arr := by
  unfold newJob
  dsimp only
  refine ⟨_, rfl, ?_⟩
  split <;> exact ⟨rfl, rfl, rfl, rfl, rfl⟩

end Stage3

/-- Settles O9. -/
theorem descriptorChecks : Obligations.DescriptorChecks := by
  refine ⟨fun c q d o s hs hqueue htakes hjudge hstruct htamper => Completes.ofNext rfl ?_,
    fun c q code s hs hqueue htakes hdrain hbad => Completes.ofNext rfl ?_,
    fun c q code s hs hqueue hreset hdrain hjudge => Completes.ofNext rfl ?_⟩
  · obtain ⟨j, hj, hdesc, hclient, hstage, hsrc, harr⟩ := newJob_job (s := s) (c := c) (.ring q (s.queue c q).chk)
      (s.queue c q).clearExport false o d (arrival s (s.queue c q) (dSlots d))
    have hq := SetsQueue.refl (c := c) (q := q) hs.inv
    have hk : Keeps { jobs := true, nextJob := true } s
        { s with jobs := tblSet {} s.jobs s.nextJob j, nextJob := s.nextJob + 1 } :=
      Keeps.set_jobs_nextJob rfl rfl (Keeps.refl _ _) (tblWf_set _ _ _ _)
    have hset := (hq.keeps hk rfl).modQueue fun u =>
      { u with chk := u.chk + BitVec.ofNat 32 (dSlots d), ready := u.ready ++ [s.nextJob] }
    have hadmits : opDescriptorFetchDone c q .clean s =
        ({ s with jobs := tblSet {} s.jobs s.nextJob j, nextJob := s.nextJob + 1 }).modQueue c q fun u =>
          { u with chk := u.chk + BitVec.ofNat 32 (dSlots d), ready := u.ready ++ [s.nextJob] } := by
      rw [opDescriptorFetchDone_eq hs hqueue htakes, hjudge]
      simp only [hstruct, htamper, hj]
      rfl
    have hjob : ∀ k, (opDescriptorFetchDone c q .clean s).job k = tblGet {} (tblSet {} s.jobs s.nextJob j) k := by
      rw [hadmits]
      exact fun _ => rfl
    have hnew : (opDescriptorFetchDone c q .clean s).job s.nextJob = j :=
      (hjob _).trans (tblGet_set_same _ _ _ _ ((State.wf_iff s).1 hs.wf).jobs)
    refine ⟨by rw [hadmits]; rfl, by rw [hnew, hdesc], by rw [hnew, hclient], by rw [hnew, hstage], by rw [hnew, hsrc],
      by rw [hnew, harr], ?_, ?_, ?_, ?_, fun k hk => (hjob k).trans (tblGet_set_other _ _ _ _ _ hk)⟩
    · rw [hadmits, hset.queue]
    · rw [hadmits, hset.queue]
    · rw [hadmits, hset.queue]
    · exact hadmits ▸ hset.others
  · have hstops : opDescriptorFetchDone c q .clean s = stopQueue s c q code (s.queue c q).chk := by
      rw [opDescriptorFetchDone_eq hs hqueue htakes]
      rcases hbad with hbad | ⟨d, hjudge, hbad⟩
      · rw [hbad]
      · simp only [hjudge, hbad]
    have hk : Keeps { dma := true, queues := true } s (stopQueue s c q code (s.queue c q).chk) :=
      stopQueue_keeps _ _ _ _ _ rfl rfl (Keeps.refl _ _)
    rw [hstops]
    exact ⟨((SetsQueue.refl hs.inv).stopQueue (takesSlots_runs htakes hdrain) _ _).stopsAt rfl rfl rfl,
      by simpa using hk.2.2.nextJob, by simpa using hk.2.2.jobs⟩
  · have htakes : takesSlots (s.queue c q) = true := by simp [takesSlots, hdrain, hreset]
    have hstops : opDescriptorFetchDone c q .clean s = stopQueue s c q code (s.queue c q).chk := by
      rw [opDescriptorFetchDone_eq hs hqueue htakes, hjudge]
    have hk : Keeps { dma := true, queues := true } s (stopQueue s c q code (s.queue c q).chk) :=
      stopQueue_keeps _ _ _ _ _ rfl rfl (Keeps.refl _ _)
    have hset := (SetsQueue.refl (c := c) (q := q) hs.inv).stopDraining hdrain code (s.queue c q).chk
    obtain ⟨m, r, hi⟩ := (s.queue c q).dropped.interrupt_eq
    rw [hstops, hset.queue, Queue.endDrain, hi]
    exact ⟨hdrain, rfl, rfl, rfl, by simpa using hk.2.2.jobs, hset.others⟩

end Sys2Proof.Machine
end

section
/-! SUPPORT. Records that leave the Hive, HEAD, head mirrors and completion rings. The theorem that settles O12. -/

namespace Sys2Proof.Machine

/-! ## What leaves the Hive -/

/-- `t` is `s` but for the link's idleness, and for `l` that has left beside LTR messages. -/
def Emitted (s t : State) (l : List Out) : Prop :=
  ∃ busy idle due sent at' k, t = { s with
      hi := { s.hi with busyAt := busy, idle := idle, ltrDue := due, ltrSent := sent, ltrAt := at' }, out := s.out ++ k } ∧
    k.filter (fun o => !isLtr o) = (if s.coreOff = true then [] else l) ∧ (s.coreOff = true → k = [])

theorem LinkMoved.emit {s u : State} (h : LinkMoved s u) (l : List Out) (hl : ∀ o ∈ l, isLtr o = false) :
    Emitted s (u.emit l) l := by
  obtain ⟨b, i, d, e, a, k, rfl, hk, hoff⟩ := h
  refine ⟨b, i, d, e, a, k ++ if s.coreOff = true then [] else l, ?_, ?_, fun hc => by rw [hoff hc, if_pos hc]; rfl⟩
  · rw [State.emit_eq, ← List.append_assoc]
    rfl
  · have hnone : k.filter (fun o => !isLtr o) = [] := List.filter_eq_nil_iff.2 fun o ho => by simp [hk o ho]
    have hall : l.filter (fun o => !isLtr o) = l := List.filter_eq_self.2 fun o ho => by simp [hl o ho]
    rw [List.filter_append, hnone, List.nil_append]
    split
    · rfl
    · exact hall

theorem Emitted.sends {s t : State} {l : List Out} (h : Emitted s t l) : Sends s t l := by
  obtain ⟨b, i, d, e, a, k, rfl, hk, hoff⟩ := h
  exact ⟨k, rfl, hk, hoff⟩

theorem Emitted.keeps {s t : State} {l : List Out} (h : Emitted s t l) : Keeps { hi := true, out := true } s t := by
  obtain ⟨b, i, d, e, a, k, rfl, -, -⟩ := h
  exact Keeps.upd (Keeps.refl _ _) (by constructor <;> first | exact Or.inl rfl | exact Or.inr rfl)

theorem Keeps.out_eq {F : Foot} {s t : State} (h : Keeps F s t) (hF : F.out = false) : t.out = s.out := by
  simpa [hF] using h.2.2.out

theorem Keeps.aon_eq {F : Foot} {s t : State} (h : Keeps F s t) (hF : F.aon = false) : t.aon = s.aon := by
  simpa [hF] using h.2.2.aon

theorem Keeps.rings_eq {F : Foot} {s t : State} (h : Keeps F s t) (hF : F.rings = false) (c r : Nat) :
    t.ring c r = s.ring c r := by
  have hr : t.rings = s.rings := by simpa [hF] using h.2.2.rings
  rw [State.ring, hr, State.ring]

theorem Keeps.func_eq {F : Foot} {s t : State} (h : Keeps F s t) (hF : F.fns = false) (c : Nat) :
    t.func c = s.func c := by
  have hr : t.fns = s.fns := by simpa [hF] using h.2.2.fns
  rw [State.func, hr, State.func]

theorem Keeps.coreOff_eq {F : Foot} {s t : State} (h : Keeps F s t) (hF : F.aon = false) :
    t.coreOff = s.coreOff := by rw [State.coreOff, h.aon_eq hF, State.coreOff]

/-- Operations before and after that put nothing on the boundary. -/
theorem sends_between {F : Foot} {s s' t t' : State} {l : List Out} (h : Sends s' t l) (hb : Keeps F s s')
    (ha : t'.out = t.out) (hout : F.out = false) (haon : F.aon = false) : Sends s t' l := by
  obtain ⟨k, hk, hf, hoff⟩ := h
  rw [hb.coreOff_eq haon] at hf hoff
  exact ⟨k, by rw [ha, hk, hb.out_eq hout], hf, hoff⟩

/-- A record that its window and its translation let through is issued (R302, R329, R335). -/
theorem recordWrite_issued {s : State} {c a tgt a' x : Nat} {b : Bytes} {pasid : Option Nat} (hbm : s.busMaster c = true)
    (hwin : windowed s c a b.length true = some (tgt, a', pasid)) (hx : xlated s c tgt a' pasid true = .to x) :
    (recordWrite s c a b).1 = .issued ∧
      Emitted s (recordWrite s c a b).2 [.write c tgt x b false false pasid (atMark s c tgt)] := by
  have hmark : ∀ u, LinkMoved s u → atMark u c tgt = atMark s c tgt := by
    rintro u ⟨_, _, _, _, _, _, rfl, -, -⟩
    rfl
  have hlink : LinkMoved s (if tgt = 0 then linkActive s else s) := by
    split
    · exact linkActive_linkMoved s
    · exact LinkMoved.refl s
  have hwrite : recordWrite s c a b = (.issued, (if tgt = 0 then linkActive s else s).emit
      [.write c tgt x b false false pasid (atMark (if tgt = 0 then linkActive s else s) c tgt)]) := by
    simp only [recordWrite, hbm, hwin, hx]
    rfl
  rw [hwrite, hmark _ hlink]
  exact ⟨rfl, hlink.emit _ (by simp [isLtr])⟩

/-- A signal leaves a message due, where the function has the vector (R287). -/
theorem signalVec_due {s : State} (h : s.wf = true) {c v : Nat} (hv : v < (s.tenant c).vectors) :
    v ∈ ((signalVec s c v).func c).due := by
  rw [signalVec, if_pos hv, State.modFunc_same h]
  split
  · next hdue => simpa using hdue
  · simp

theorem signalVec_keeps_signals (s : State) (c v : Nat) : Keeps { fns := true, tenants := true } s (signalVec s c v) :=
  signalVec_keeps _ _ _ rfl rfl (Keeps.refl _ _)

theorem queueSignal_keeps_signals (s : State) (c q : Nat) (irq chg : Bool) :
    Keeps { fns := true, tenants := true, peer := true } s (queueSignal s c q irq chg) := by
  apply queueSignal_keeps <;> first | rfl | exact Keeps.refl _ _

@[simp] theorem bvLe_length {w : Nat} (n : Nat) (v : BitVec w) : (bvLe n v).length = n := by simp [bvLe]

theorem mirrorBytes_length (u : Queue) : (mirrorBytes u).length = 8 := by simp [mirrorBytes]

theorem crRecord_length (q : Nat) (u : Queue) (replay : Bool) (i : W32) : (crRecord q u replay i).length = 16 := by
  simp [crRecord]

/-! ## HEAD (R58) -/

/-- Jobs that have ended at the front of the window are passed, and forgotten. -/
theorem popEnded_ended {c q : Nat} {l rest : List Nat} (hnodup : l.Nodup) {s t : State} {u : Queue} {fuel : Nat}
    (h : SetsQueue c q s u t) (hfuel : l.length ≤ fuel) (hwindow : u.window = l ++ rest)
    (hended : ∀ j ∈ l, (t.job j).stage = .ended) (hrest : ∀ k, rest.head? = some k → (t.job k).stage ≠ .ended) :
    ∃ hm chg irq, SetsQueue c q s
        { u with window := rest, head := u.head + BitVec.ofNat 32 ((l.map fun j => dSlots (t.job j).desc).sum)
                 hmDue := hm, chgDue := chg, irqDue := irq } (popEnded c q fuel t) ∧
      (l ≠ [] ∨ u.hmDue = true → hm = true) ∧ (∀ j ∈ l, (popEnded c q fuel t).job j = {}) ∧
      ∀ k, k ∉ l → (popEnded c q fuel t).job k = t.job k := by
  induction l generalizing t u fuel with
  | nil =>
    have hstop : popEnded c q fuel t = t := by
      cases fuel with
      | zero => rfl
      | succ fuel =>
        rw [popEnded, h.queue, hwindow]
        cases rest with
        | nil => rfl
        | cons k rest => simp [hrest k rfl]
    rw [hstop]
    refine ⟨u.hmDue, u.chgDue, u.irqDue, ?_, by simp, by simp, fun _ _ => rfl⟩
    have hsame : ({ u with window := rest, head := u.head + BitVec.ofNat 32 0 } : Queue) = u := by
      rw [show rest = u.window from hwindow.symm]
      simp
    exact hsame.symm ▸ h
  | cons j l ih =>
    obtain ⟨hj, hnodup⟩ := List.nodup_cons.1 hnodup
    obtain ⟨fuel, rfl⟩ : ∃ n, fuel = n + 1 := ⟨fuel - 1, by rw [List.length_cons] at hfuel; omega⟩
    have hjobs := ((State.wf_iff t).1 h.wf).jobs
    have hother : ∀ k, k ≠ j → (t.dropJob j).job k = t.job k := fun k hk => tblGet_erase_other _ _ _ _ hk
    have hmod := (h.keeps (dropJob_keeps (F := { jobs := true }) t j rfl (Keeps.refl _ _)) rfl).modQueue fun u =>
      ({ u with window := l ++ rest, head := u.head + BitVec.ofNat 32 (dSlots (t.job j).desc) } : Queue).publish false
        (dIrq (t.job j).desc)
    have hpop : popEnded c q (fuel + 1) t = popEnded c q fuel ((t.dropJob j).modQueue c q fun u =>
        ({ u with window := l ++ rest, head := u.head + BitVec.ofNat 32 (dSlots (t.job j).desc) } : Queue).publish false
          (dIrq (t.job j).desc)) := by
      rw [popEnded, h.queue, hwindow]
      simp only [List.cons_append, hended j (List.mem_cons_self ..)]
      rfl
    have hne : ∀ k ∈ l, k ≠ j := fun k hk => ne_of_mem_of_not_mem hk hj
    have hlast : ∀ k, rest.head? = some k → k ≠ j := fun k hk hkj =>
      hrest k hk (hkj ▸ hended j (List.mem_cons_self ..))
    obtain ⟨hm, chg, irq, hset, hdue, hgone, hkept⟩ := ih (fuel := fuel) hnodup hmod
      (by rw [List.length_cons] at hfuel; omega) rfl
      (fun k hk => (congrArg Job.stage (hother k (hne k hk))).trans (hended k (List.mem_cons_of_mem _ hk)))
      (fun k hk => (congrArg Job.stage (hother k (hlast k hk))).trans_ne (hrest k hk))
    rw [hpop]
    refine ⟨hm, chg, irq, ?_, fun _ => hdue (Or.inr rfl), fun k hk => ?_, fun k hk => ?_⟩
    · have hsum : (l.map fun k => dSlots ((t.dropJob j).job k).desc) = l.map fun k => dSlots (t.job k).desc :=
        List.map_congr_left fun k hk => by rw [hother k (hne k hk)]
      have hhead : u.head + BitVec.ofNat 32 (dSlots (t.job j).desc) +
          BitVec.ofNat 32 ((l.map fun k => dSlots ((t.dropJob j).job k).desc).sum) =
          u.head + BitVec.ofNat 32 (((j :: l).map fun k => dSlots (t.job k).desc).sum) := by
        rw [hsum, add_assoc, List.map_cons, List.sum_cons, BitVec.ofNat_add]
      rw [← hhead]
      exact hset
    · rcases List.mem_cons.1 hk with rfl | hk
      · exact (hkept _ hj).trans (tblGet_erase_same _ _ _ hjobs)
      · exact hgone k hk
    · rw [List.mem_cons, not_or] at hk
      exact (hkept k hk.2).trans (hother k hk.1)

/-! ## Completion rings (R62 to R65) -/

/-- A queue whose record has been written. -/
def Queue.recorded (u : Queue) : Queue :=
  { u with crDue := false, crPending := false, crIrq := false, crChg := false }

section Rings

variable {c q r : Nat} {s : State}

theorem signalIf_keeps (s : State) (b : Bool) (c v : Nat) :
    Keeps { fns := true, tenants := true } s (if b = true then signalVec s c v else s) :=
  Keeps.ite (signalVec_keeps_signals _ _ _) (Keeps.refl _ _)

/-- A record that leaves is at TAIL, which moves; the interrupt that was due is signalled (R63). -/
theorem writeCr_issued {tgt a x : Nat} {pasid : Option Nat} {replay : Bool} (hs : s.Inv) (hbm : s.busMaster c = true)
    (hwin : windowed s c ((s.ring c r).base.toNat + (s.ring c r).tail.toNat % 2 ^ (s.ring c r).sizeLog2 * 16) 16 true =
      some (tgt, a, pasid)) (hx : xlated s c tgt a pasid true = .to x) :
    (writeCr s c r q replay).1 = .issued ∧
      (∃ v, v.crDue = false ∧ v.crPending = false ∧ v.crIrq = false ∧ SetsQueue c q s v (writeCr s c r q replay).2) ∧
      (writeCr s c r q replay).2.ring c r = { s.ring c r with tail := (s.ring c r).tail + 1 } ∧
      Sends s (writeCr s c r q replay).2 [.write c tgt x (crRecord q (s.queue c q) replay (s.ring c r).tail) false false
        pasid (atMark s c tgt)] ∧
      ((s.queue c q).crIrq = true → (s.ring c r).vec < (s.tenant c).vectors →
        (s.ring c r).vec ∈ ((writeCr s c r q replay).2.func c).due) := by
  have hlen := crRecord_length q (s.queue c q) replay (s.ring c r).tail
  obtain ⟨hissued, hemit⟩ := recordWrite_issued (b := crRecord q (s.queue c q) replay (s.ring c r).tail) hbm
    (by rw [hlen]; exact hwin) hx
  set w := (recordWrite s c ((s.ring c r).base.toNat + (s.ring c r).tail.toNat % 2 ^ (s.ring c r).sizeLog2 * 16)
    (crRecord q (s.queue c q) replay (s.ring c r).tail)).2 with hw
  have hkw := hemit.keeps
  have hinvw := hkw.inv hs
  set m := w.modRing c r fun g => { g with tail := g.tail + 1 } with hm
  have hkm : Keeps { rings := true } w m := modRing_keeps _ _ _ _ rfl (Keeps.refl _ _)
  set n := if (s.queue c q).crIrq = true then signalVec m c (s.ring c r).vec else m with hn
  have hkn : Keeps { fns := true, tenants := true } m n := signalIf_keeps _ _ _ _
  have hset : SetsQueue c q s (s.queue c q) n := (((SetsQueue.refl hs).keeps hkw rfl).keeps hkm rfl).keeps hkn rfl
  have hwrite : writeCr s c r q replay =
      (.issued, if n.hasQueue c q then n.modQueue c q Queue.recorded else n.setQueue c q {}) := by
    unfold writeCr
    dsimp only
    rw [hissued]
    rfl
  have hlast : Keeps { queues := true } n (writeCr s c r q replay).2 := by
    rw [hwrite]
    exact Keeps.ite (modQueue_keeps _ _ _ _ rfl (Keeps.refl _ _)) (setQueue_keeps _ _ _ _ rfl (Keeps.refl _ _))
  refine ⟨by rw [hwrite], ?_, ?_, ?_, fun hirq hvec => ?_⟩
  · rw [hwrite]
    dsimp only
    split
    · exact ⟨_, rfl, rfl, rfl, hset.modQueue Queue.recorded⟩
    · exact ⟨_, rfl, rfl, rfl, hset.setQueue {}⟩
  · rw [(hlast.rings_eq rfl), (hkn.rings_eq rfl), hm, State.modRing_same hinvw.wf, (hkw.rings_eq rfl)]
  · exact sends_between hemit.sends (Keeps.refl {} s) (by rw [(hlast.out_eq rfl), (hkn.out_eq rfl), (hkm.out_eq rfl)]) rfl rfl
  · rw [(hlast.func_eq rfl), hn, if_pos hirq]
    refine signalVec_due (hkm.inv hinvw).wf ?_
    rwa [hkm.tenant_eq rfl, hkw.tenant_eq rfl]

theorem mem_keys_of_tblGet_ne {V : Type} {d : V} {t : Tbl V} {k : Nat} (h : tblGet d t k ≠ d) : k ∈ tblKeys t := by
  rcases tblGet_mem_or d t k with hm | hm
  · exact List.mem_map.2 ⟨_, hm, rfl⟩
  · exact absurd hm h

/-- A queue that holds anything is among its client's. -/
theorem mem_queuesOf {k : Nat} (hk : k < qSpan) (h : s.queue c k ≠ {}) : k ∈ s.queuesOf c := by
  obtain ⟨e, he, hek⟩ := List.mem_map.1 (mem_keys_of_tblGet_ne (t := s.queues) h)
  refine List.mem_map.2 ⟨e, List.mem_filter.2 ⟨he, ?_⟩, ?_⟩
  · rw [hek, qKey, beq_iff_eq, Nat.mul_comm, Nat.mul_add_div (by decide), Nat.div_eq_of_lt hk, Nat.add_zero]
  · rw [hek, qKey, Nat.mul_comm, Nat.mul_add_mod, Nat.mod_eq_of_lt hk]

theorem mem_pendingQueues {k : Nat} (hk : k ∈ pendingQueues s c r) :
    k < qSpan ∧ (s.queue c k).crPending = true ∧ (s.queue c k).crAt = r := by
  obtain ⟨hof, hp⟩ := List.mem_filter.1 hk
  obtain ⟨e, -, rfl⟩ := List.mem_map.1 hof
  rw [Bool.and_eq_true, beq_iff_eq] at hp
  exact ⟨Nat.mod_lt _ (by decide), hp.1, hp.2⟩

/-- Once the record of the only pending queue is written, none is pending. -/
theorem pendingQueues_after {t : State} {v : Queue} (hone : pendingQueues s c r = [q]) (h : SetsQueue c q s v t)
    (hv : v.crPending = false) : pendingQueues t c r = [] := by
  refine List.eq_nil_iff_forall_not_mem.2 fun k hk => ?_
  obtain ⟨hlt, hpend, hat⟩ := mem_pendingQueues hk
  have hkey : qKey c k ≠ qKey c q := by
    intro hkey
    rw [State.queue, hkey, ← State.queue, h.queue, hv] at hpend
    exact Bool.false_ne_true hpend
  rw [h.others c k hkey] at hpend hat
  have hmem : k ∈ pendingQueues s c r := by
    refine List.mem_filter.2 ⟨mem_queuesOf hlt fun h0 => ?_, by simp [hpend, hat]⟩
    rw [h0] at hpend
    exact Bool.false_ne_true hpend
  rw [hone, List.mem_singleton] at hmem
  exact hkey (by rw [hmem])

theorem nextPending_of_none (h : pendingQueues s c r = []) : nextPending s c r = none := by
  simp [nextPending, h, lowestNum]

theorem nextPending_of_one (h : pendingQueues s c r = [q]) : nextPending s c r = some q := by
  by_cases hserved : (s.ring c r).lastServed ≤ qNum q <;> simp [nextPending, h, hserved, lowestNum]

theorem replayRing_of_direct (h : (s.ring c r).mode = false) (fuel : Nat) : replayRing s c r fuel = s := by
  cases fuel with
  | zero => rfl
  | succ fuel => simp [replayRing, h]

/-- The head mirror of the queue whose turn it is, which its window and its translation let through (R59, R302). -/
theorem opHeadMirrorWrite_issued {q0 tgt a x : Nat} {pasid : Option Nat} (hturn : mirrorTurn s c q0 = q)
    (hdue : (s.queue c q).hmDue = true) (hbm : s.busMaster c = true)
    (hwin : windowed s c (s.queue c q).cfg.hmirror.toNat 8 true = some (tgt, a, pasid))
    (hx : xlated s c tgt a pasid true = .to x) :
    ∃ w, Emitted s w [.write c tgt x (mirrorBytes (s.queue c q)) false false pasid (atMark s c tgt)] ∧
      opHeadMirrorWrite c q0 s =
        if (s.queue c q).cfg.crEn = true then w.modQueue c q Queue.oweRecord
        else
          let n := queueSignal w c q (s.queue c q).irqDue (s.queue c q).chgDue
          if n.hasQueue c q = true then n.modQueue c q Queue.told
          else if ((n.queue c q).crDue || (n.queue c q).crPending) = true then n.modQueue c q Queue.told
          else n.setQueue c q {} := by
  obtain ⟨hissued, hemit⟩ := recordWrite_issued (b := mirrorBytes (s.queue c q)) hbm
    (by rw [mirrorBytes_length]; exact hwin) hx
  refine ⟨_, hemit, ?_⟩
  unfold opHeadMirrorWrite
  dsimp only
  rw [hturn, hissued, hdue]
  rfl

/-- A signal that finds no vector is counted, and nothing else of a tenant changes. -/
theorem signalVec_tenant (h : s.wf = true) (v d : Nat) :
    ∃ n, (signalVec s c v).tenant d = { s.tenant d with vecDrop := n } := by
  unfold signalVec
  split
  · exact ⟨(s.tenant d).vecDrop, rfl⟩
  · by_cases hd : d = c
    · subst hd
      exact ⟨_, State.modTenant_same h _ _⟩
    · exact ⟨(s.tenant d).vecDrop, State.modTenant_other _ _ _ _ hd⟩

/-- Whether a queue exists is no matter of signals. -/
theorem hasQueue_of_tenant {t : State} {n : Nat} (hq : t.queues = s.queues)
    (ht : t.tenant c = { s.tenant c with vecDrop := n }) : t.hasQueue c q = s.hasQueue c q := by
  simp only [State.hasQueue, State.exists_, State.queue, hq, ht]

theorem queueSignal_hasQueue (h : s.wf = true) (irq chg : Bool) :
    (queueSignal s c q irq chg).hasQueue c q = s.hasQueue c q := by
  have hk := queueSignal_keeps_signals s c q irq chg
  obtain ⟨n, ht⟩ : ∃ n, (queueSignal s c q irq chg).tenant c = { s.tenant c with vecDrop := n } := by
    unfold queueSignal
    dsimp only
    split
    · split
      · exact signalVec_tenant h _ _
      · exact ⟨_, rfl⟩
    split
    · have hn := noticeFor_keeps (F := { peer := true }) s (c - 4096) 1 (qNum q) rfl (Keeps.refl _ _)
      exact ⟨(s.tenant c).vecDrop, hn.tenant_eq rfl c⟩
    · exact ⟨_, rfl⟩
  exact hasQueue_of_tenant (hk.queues_eq rfl) ht

/-- A write of TN_CR_CONS at a function that answers (R64). -/
theorem opTnCrConsWrite_eq {v : W32} (hfn : isFn c = true) (hexists : s.exists_ c = true)
    (hreach : fnReachable s c = true) :
    opTnCrConsWrite c v s =
      if ringDist v (s.ring c (s.tenant c).crSel).cons ≤
          ringDist (s.ring c (s.tenant c).crSel).tail (s.ring c (s.tenant c).crSel).cons then
        replayRing (s.modRing c (s.tenant c).crSel fun g => { g with cons := v }) c (s.tenant c).crSel 65
      else s.modRing c (s.tenant c).crSel fun g => { g with consErr := true } := by
  simp only [opTnCrConsWrite, hfn, hexists, hreach]
  rfl

end Rings

/-- Settles O12. -/
theorem headsAndRings : Obligations.HeadsAndRings := by
  refine ⟨fun c q l rest s hs hwindow hne hnodup hended hrest => Completes.ofClock rfl hs.fclk ?_,
    fun c q j rest s hs hwindow hended => Completes.ofClock rfl hs.fclk ?_,
    fun c q0 q tgt a x pasid s hs hturn hdue hbound hbm hwin hx => Completes.ofClock rfl hs.fclk ?_,
    fun c q0 q tgt a x pasid owes s hs hturn hdue hbound hqueue hbm howes hwin hx => Completes.ofClock rfl hs.fclk ?_,
    fun c q0 q tgt a x pasid s hs hturn hdue hbound hqueue hbm hcr hpend hwin hx => Completes.ofClock rfl hs.fclk ?_,
    fun c q0 q r tgt a x pasid s hs hturn hdue hmirror hat hnone hfull hbm hwin hx => Completes.ofClock rfl hs.fclk ?_,
    fun c q0 q r s hs hturn hdue hmirror hat hnone hfull => Completes.ofClock rfl hs.fclk ?_,
    fun c q0 q r tgt a x pasid s hs hturn hdue hmirror hat hone hmode hfull hbm hwin hx =>
      Completes.ofClock rfl hs.fclk ?_,
    fun c v s hs hfn hexists hreach hmode hdist => Completes.ofClocked rfl hs ?_,
    fun c v s hs hfn hexists hreach hdist => Completes.ofClocked rfl hs ?_⟩
  · obtain ⟨hm, chg, irq, hset, hdue, hgone, hkept⟩ := popEnded_ended (fuel := (s.queue c q).window.length) hnodup
      (SetsQueue.refl (c := c) (q := q) hs.inv) (by rw [hwindow, List.length_append]; omega) hwindow hended hrest
    have hpruned := hset.modQueue Queue.prune
    rw [opHeadAdvance, hpruned.queue]
    exact ⟨rfl, rfl, hdue (Or.inl hne), hgone, rfl, rfl, hpruned.others, hkept⟩
  · have hpruned := (SetsQueue.refl (c := c) (q := q) hs.inv).modQueue Queue.prune
    have hstop : popEnded c q (s.queue c q).window.length s = s := by
      rw [hwindow, List.length_cons, popEnded, hwindow]
      simp [hended]
    rw [opHeadAdvance, hstop, hpruned.queue]
    exact ⟨rfl, rfl, rfl, hpruned.others⟩
  · obtain ⟨w, hemit, hwrite⟩ := opHeadMirrorWrite_issued hturn hdue hbm hwin hx
    have hset := ((SetsQueue.refl (c := c) (q := q) hs.inv).keeps hemit.keeps rfl).modQueue Queue.oweRecord
    rw [hwrite, if_pos hbound, hset.queue]
    exact ⟨rfl, sends_between hemit.sends (Keeps.refl {} s) rfl rfl rfl, hset.others⟩
  · obtain ⟨w, hemit, hwrite⟩ := opHeadMirrorWrite_issued hturn hdue hbm hwin hx
    have hw := (SetsQueue.refl (c := c) (q := q) hs.inv).keeps hemit.keeps rfl
    have hk := queueSignal_keeps_signals w c q (s.queue c q).irqDue (s.queue c q).chgDue
    have hset := (hw.keeps hk rfl).modQueue Queue.told
    have hexists : (queueSignal w c q (s.queue c q).irqDue (s.queue c q).chgDue).hasQueue c q = true := by
      obtain ⟨_, _, _, _, _, _, rfl, -, -⟩ := hemit
      exact (queueSignal_hasQueue hw.wf _ _).trans hqueue
    rw [hwrite, if_neg (by simp [hbound])]
    dsimp only
    rw [if_pos hexists, hset.queue, howes]
    refine ⟨rfl, sends_between hemit.sends (Keeps.refl {} s) (hk.out_eq rfl) rfl rfl, fun hfn hirq hvec => ?_, hset.others⟩
    have hsignal : queueSignal w c q (s.queue c q).irqDue (s.queue c q).chgDue = signalVec w c (s.queue c q).cfg.vec := by
      simp only [queueSignal, hfn, hirq, hw.queue]
      rfl
    rw [State.modQueue, State.setQueue_get_func, hsignal]
    refine signalVec_due hw.wf ?_
    rwa [hemit.keeps.tenant_eq rfl]
  · obtain ⟨w, hemit, hwrite⟩ := opHeadMirrorWrite_issued hturn hdue hbm hwin hx
    have hw := (SetsQueue.refl (c := c) (q := q) hs.inv).keeps hemit.keeps rfl
    have hk := queueSignal_keeps_signals w c q (s.queue c q).irqDue (s.queue c q).chgDue
    have hn := hw.keeps hk rfl
    have hset := hn.setQueue {}
    have hexists : (queueSignal w c q (s.queue c q).irqDue (s.queue c q).chgDue).hasQueue c q = false := by
      obtain ⟨_, _, _, _, _, _, rfl, -, -⟩ := hemit
      exact (queueSignal_hasQueue hw.wf _ _).trans hqueue
    rw [hwrite, if_neg (by simp [hbound])]
    dsimp only
    rw [if_neg (by simp [hexists]), hn.queue, if_neg (by simp [hcr, hpend])]
    exact ⟨hset.queue, sends_between hemit.sends (Keeps.refl {} s) (hk.out_eq rfl) rfl rfl, hset.others⟩
  · set m := s.modRing c r fun g => { g with mode := false } with hm
    have hkm : Keeps { rings := true } s m := modRing_keeps _ _ _ _ rfl (Keeps.refl _ _)
    have hring : m.ring c r = { s.ring c r with mode := false } := State.modRing_same hs.wf _ _ _
    have hsame : m.queue c q = s.queue c q := rfl
    have hdirect : opCompletionRecordWrite c q0 s = (writeCr m c r q false).2 := by
      unfold opCompletionRecordWrite
      dsimp only
      rw [hturn, hat, hmirror, hdue, hnone]
      simp only [List.isEmpty_nil, if_true, Bool.not_true, Bool.false_eq_true, if_false, ← hm, hring]
      rw [if_neg (Bool.eq_false_iff.1 (show CrRing.full { s.ring c r with mode := false } = false from hfull))]
    obtain ⟨-, ⟨v, hcr, -, hirq, hset⟩, htail, hsends, hvec⟩ := writeCr_issued (s := m) (q := q) (replay := false)
      (hkm.inv hs.inv) hbm (by rw [hring]; exact hwin) hx
    rw [hring] at htail
    rw [hsame, hring] at hsends hvec
    rw [hdirect, htail, hset.queue]
    exact ⟨rfl, hcr, hirq, fun _ => hvec, sends_between hsends hkm rfl rfl rfl, hset.others⟩
  · set m := s.modRing c r fun g => { g with mode := false } with hm
    have hkm : Keeps { rings := true } s m := modRing_keeps _ _ _ _ rfl (Keeps.refl _ _)
    have hring : m.ring c r = { s.ring c r with mode := false } := State.modRing_same hs.wf _ _ _
    have howes : opCompletionRecordWrite c q0 s = crOwe (signalVec
        (m.modRing c r fun g => { g with mode := true, overflow := true }) c (m.ring c r).vec) c q := by
      unfold opCompletionRecordWrite
      dsimp only
      rw [hturn, hat, hmirror, hdue, hnone]
      simp only [List.isEmpty_nil, if_true, Bool.not_true, Bool.false_eq_true, if_false, ← hm]
      rw [if_neg (by simp [hring]), if_pos (by rw [hring]; exact hfull)]
    have hkr : Keeps { rings := true } m (m.modRing c r fun g => { g with mode := true, overflow := true }) :=
      modRing_keeps _ _ _ _ rfl (Keeps.refl _ _)
    have hks := signalVec_keeps_signals (m.modRing c r fun g => { g with mode := true, overflow := true }) c (m.ring c r).vec
    have hset := (((SetsQueue.refl (c := c) (q := q) hs.inv).keeps hkm rfl).keeps hkr rfl |>.keeps hks rfl).modQueue
      fun u => { u with crDue := false, crPending := true }
    have hlast : (opCompletionRecordWrite c q0 s).ring c r =
        { s.ring c r with mode := true, overflow := true } := by
      rw [howes, crOwe, State.modQueue, State.setQueue_get_ring, (hks.rings_eq rfl),
        State.modRing_same (hkm.inv hs.inv).wf, hring]
    rw [hlast]
    refine ⟨rfl, rfl, rfl, ?_, ?_, ?_⟩
    · rw [howes, crOwe, hset.queue]
    · rw [howes, crOwe, hset.queue]
    · rw [howes]
      exact hset.others
  · obtain ⟨hissued, ⟨v, -, hpend, -, hset⟩, htail, hsends, -⟩ := writeCr_issued (s := s) (q := q) (replay := true)
      hs.inv hbm hwin hx
    set w := (writeCr s c r q true).2 with hw
    set n := w.modRing c r fun g => { g with lastServed := qNum q + 1 } with hn
    have hring : n.ring c r = { s.ring c r with tail := (s.ring c r).tail + 1, lastServed := qNum q + 1 } := by
      rw [hn, State.modRing_same hset.wf, htail]
    have hpending : (s.queue c q).crPending = true := (mem_pendingQueues (hone ▸ List.mem_singleton_self q)).2.1
    have hkn : Keeps { rings := true } w n := modRing_keeps _ _ _ _ rfl (Keeps.refl _ _)
    have hreplays : opCompletionRecordWrite c q0 s = n.modRing c r fun g => { g with mode := false } := by
      unfold opCompletionRecordWrite
      dsimp only
      rw [hturn, hat, hmirror, hdue, hpending]
      simp only [Bool.not_false, if_true, Bool.false_eq_true, if_false]
      have hagain : replayRing s c r 65 = replayRing n c r 64 := by
        rw [replayRing, hmode, nextPending_of_one hone]
        simp only [hfull, hmirror, hissued]
        rfl
      rw [hagain, replayRing, hring, nextPending_of_none (pendingQueues_after hone (hset.keeps hkn rfl) hpend)]
      simp only [hmode]
      rfl
    have hlast : (n.modRing c r fun g => { g with mode := false }).ring c r =
        { s.ring c r with tail := (s.ring c r).tail + 1, lastServed := qNum q + 1, mode := false } := by
      rw [State.modRing_same (hset.keeps hkn rfl).wf, hring]
    rw [hreplays, hlast]
    exact ⟨rfl, rfl, (congrArg Queue.crPending (hset.keeps hkn rfl).queue).trans hpend,
      sends_between hsends (Keeps.refl {} s) rfl rfl rfl, hset.others⟩
  · have he := wake_entered s 1
    have hmod := State.modRing_same (he.inv hs.inv).wf c (s.tenant c).crSel fun g => { g with cons := v }
    rw [he.ring] at hmod
    rw [opTnCrConsWrite_eq (by rw [hfn]) ((he.exists_ c).trans hexists) ((he.fnReachable c).trans hreach), he.tenant, he.ring,
      if_pos hdist, replayRing_of_direct (by rw [hmod]; exact hmode), hmod]
  · have he := wake_entered s 1
    rw [opTnCrConsWrite_eq (by rw [hfn]) ((he.exists_ c).trans hexists) ((he.fnReachable c).trans hreach), he.tenant, he.ring,
      if_neg (by omega), State.modRing_same (he.inv hs.inv).wf, he.ring]

end Sys2Proof.Machine
end

section
/-! SUPPORT. What an operation on one job leaves: that job as it is then, and every other as it was. The decision of a
cell on its job, and the theorems that settle O16 and O23. -/

namespace Sys2Proof

open Machine

theorem OtherJobs.refl (id : Nat) (s : State) : OtherJobs id s s := fun _ _ => rfl

/-- The command whose operation comes to `t`. -/
theorem Completes.ofOp {c : Instr} {s u t : State} {P : State → Prop} (he : exec c s = .next u) (heq : u = t)
    (h : P t) : Completes c s P := ⟨t, heq ▸ he, h⟩

theorem OtherJobs.trans {id : Nat} {s u t : State} (h : OtherJobs id s u) (g : OtherJobs id u t) : OtherJobs id s t :=
  fun k hk => (g k hk).trans (h k hk)

end Sys2Proof

namespace Sys2Proof.Machine

/-! ## Operations on one job -/

/-- The job without the reads it waits for. -/
def Job.unread (j : Job) : Job := { j with open_ := [] }

/-- The job at stage 7, with the time of the decision, the state of its comb and the word on synchronisation. -/
def Job.decided (j : Job) (st : Status) (d : BitVec 8) (h : Nat) (b : Bool) (n : Nat) : Job :=
  { j with stage := .cellDone, status := st, detail := d, tDone := h, unsync := b, combState := n }

/-- The job out of its cell, its operands, its key and its message cleared (R206). -/
def Job.cleared (j : Job) : Job :=
  { j with left := true, keyMat := [], keyShare := [], got := [], parts := [], hostParts := [], pass1Tag := [] }

/-- From `s` to `t` job `id` becomes `j`, and every other job stays as it was. -/
structure SetsJob (id : Nat) (j : Job) (s t : State) : Prop where
  inv : t.Inv
  job : t.job id = j
  others : OtherJobs id s t

section

variable {id : Nat} {j : Job} {s u t : State}

theorem SetsJob.wf (h : SetsJob id j s t) : t.wf = true := h.inv.wf

theorem SetsJob.refl (hs : s.Inv) : SetsJob id (s.job id) s s := ⟨hs, rfl, OtherJobs.refl id s⟩

theorem SetsJob.keeps {F : Foot} (h : SetsJob id j s u) (hk : Keeps F u t) (hF : F.jobs = false) : SetsJob id j s t :=
  ⟨hk.inv h.inv, (hk.job_eq hF id).trans h.job, fun k hne => (hk.job_eq hF k).trans (h.others k hne)⟩

theorem SetsJob.modJob (h : SetsJob id j s u) (f : Job → Job) : SetsJob id (f j) s (u.modJob id f) := by
  refine ⟨(modJob_keeps (F := { jobs := true }) u id f rfl (Keeps.refl _ u)).inv h.inv, ?_, fun k hk => ?_⟩
  · rw [State.modJob_same h.wf, h.job]
  · rw [State.modJob_other _ _ _ _ hk, h.others k hk]

theorem SetsJob.orphanJobReads (h : SetsJob id j s u) : SetsJob id j.unread s (orphanJobReads u id) :=
  (h.keeps (F := { dma := true }) (orphanReads_keeps u _ _ rfl (Keeps.refl _ u)) rfl).modJob Job.unread

theorem SetsJob.ppFree (h : SetsJob id j s u) : SetsJob id j s (ppFree u id) :=
  h.keeps (F := { ks := true }) (ppFree_keeps u id rfl (Keeps.refl _ u)) rfl

theorem SetsJob.leaveCell (h : SetsJob id j s u) : SetsJob id j.cleared s (leaveCell u id) := h.modJob Job.cleared

/-- Stage 7 begins with the job as it was, its reads aside, but for what the decision itself writes. -/
theorem SetsJob.decide7 (h : SetsJob id j s u) (st : Status) (detail : BitVec 8) :
    ∃ b n, SetsJob id (j.unread.decided st detail u.sync.h b n) s (decide7 u id st detail) := by
  have hpp := h.orphanJobReads.ppFree
  refine ⟨u.sync.state != 2, match (j.unread).comb with | some c => (Machine.ppFree (Machine.orphanJobReads u id) id).combByte c | none => 0, ?_⟩
  exact hpp.modJob fun x => x.decided st detail u.sync.h (u.sync.state != 2)
    (match x.comb with | some c => (Machine.ppFree (Machine.orphanJobReads u id) id).combByte c | none => 0)

end

/-! ## NOP, STAMP and FENCE (R129, R258) -/

theorem endMark_setsJob {s : State} (hs : s.Inv) (id : Nat) :
    ∃ j, SetsJob id j s (endMark s id) ∧ j.stage = .cellDone ∧ j.status = stOk ∧ j.noComb = true ∧
      j.tDone = (s.job id).tDone := by
  obtain ⟨_, _, h⟩ := (SetsJob.refl (id := id) hs).decide7 stOk 0
  exact ⟨_, h.modJob fun x => { x with noComb := true, tDone := (s.job id).tDone, unsync := (s.job id).unsync },
    rfl, rfl, rfl, rfl⟩

theorem endFence_setsJob {s : State} (hs : s.Inv) (id : Nat) :
    ∃ j, SetsJob id j s (endFence s id) ∧ j.stage = .cellDone ∧ j.status = stOk ∧ j.noComb = true := by
  obtain ⟨_, _, h⟩ := (SetsJob.refl (id := id) hs).decide7 stOk 0
  exact ⟨_, h.modJob fun x => { x with noComb := true, waits := [] }, rfl, rfl, rfl⟩

theorem stage_of_runs {s : State} {id : Nat} {o : Op} (h : s.runs id o = true) : (s.job id).stage = .run := by
  simp only [State.runs, Bool.and_eq_true, beq_iff_eq] at h
  exact h.1.1.2

/-- A job that waits for none of its recorded jobs has none left to wait for. -/
theorem filter_not_ended {s : State} {l : List Nat} : (l.filter fun j => !s.ended j).isEmpty = l.all s.ended := by
  rw [Bool.eq_iff_iff]
  simp

theorem opFence_of_ended {s : State} {id : Nat} (h : s.runs id .fence = true)
    (hw : (s.job id).waits.all s.ended = true) : opFence id s = endFence s id := by
  simp [opFence, h, filter_not_ended, hw]

theorem opFence_of_waiting {s : State} {id : Nat} (h : s.runs id .fence = true)
    (hw : (s.job id).waits.all s.ended = false) :
    opFence id s = s.modJob id fun j => { j with waits := (s.job id).waits.filter fun k => !s.ended k } := by
  simp [opFence, h, filter_not_ended, hw]

/-- Settles O16: each of the three opcodes goes through one decision with status OK. -/
theorem marks : Obligations.Marks := by
  refine ⟨fun id s hs h => ?_, fun id s hs h => ?_, fun id s hs h hw => ?_, fun id s hs h hw => ?_,
    fun id s hs h hw => ?_⟩
  · obtain ⟨j, ht, h1, h2, h3, h4⟩ := endMark_setsJob hs id
    refine .ofOp rfl (if_pos h) ?_
    simp only [ht.job]
    exact ⟨h1, h2, h3, h4, ht.others⟩
  · obtain ⟨j, ht, h1, h2, h3, h4⟩ := endMark_setsJob hs id
    refine .ofOp rfl (if_pos h) ?_
    simp only [ht.job]
    exact ⟨h1, h2, h3, h4, ht.others⟩
  · obtain ⟨j, ht, h1, h2, h3⟩ := endFence_setsJob hs id
    refine .ofOp rfl (opFence_of_ended h hw) ?_
    simp only [ht.job]
    exact ⟨h1, h2, h3, ht.others⟩
  · have ht := (SetsJob.refl (id := id) hs).modJob fun j =>
      { j with waits := (s.job id).waits.filter fun k => !s.ended k }
    refine .ofOp rfl (opFence_of_waiting h hw) ?_
    simp only [ht.job]
    exact ⟨stage_of_runs h, trivial, ht.others⟩
  · obtain ⟨j, ht, h1, h2, h3⟩ := endFence_setsJob hs.inv id
    refine .ofClock rfl hs.fclk ?_
    have hend : opFenceEnd id s = endFence s id := if_pos (by rw [h, hw]; rfl)
    simp only [hend, ht.job]
    exact ⟨h1, h2, h3, ht.others⟩

/-! ## The report of a cell (R29, R98) -/

/-- The job with what its cell's report says, and with `n` pages for its output. -/
def Job.withReport (j : Job) (r : CellOut) : Job :=
  { j with opInfo := r.opInfo, output := r.output, digest := r.digest, cycles := j.cycles + r.cycles }

/-- What the report `r` makes of the job `j`: the job has left its cell with its key cleared, or keeps its key. -/
structure CellEnded (j : Job) (r : CellOut) (k : Job) : Prop where
  stage : k.stage = .cellDone
  status : k.status = r.status
  detail : k.detail = r.detail
  opInfo : k.opInfo = r.opInfo
  output : k.output = r.output
  digest : k.digest = r.digest
  refs : k.refs = j.refs
  reserved : k.reserved = j.reserved
  wrapMat : k.wrapMat = j.wrapMat
  acct : k.acct = j.acct
  key : k.left = true ∧ k.keyMat = [] ∨ k.left = j.left ∧ k.keyMat = j.keyMat

theorem reported_setsJob {s : State} (hs : s.Inv) (id : Nat) (r : CellOut) :
    ∃ k, SetsJob id k s (reported s id r) ∧ CellEnded (s.job id) r k := by
  obtain ⟨_, _, h⟩ := (SetsJob.refl (id := id) hs).decide7 r.status r.detail
  have hrep := h.modJob fun x => x.withReport r
  generalize hu : (decide7 s id r.status r.detail).modJob id (fun x => x.withReport r) = u at hrep
  have hpages := hrep.modJob fun x =>
    { x with pages := outPages u (u.job id) (u.job id).output.length (u.job id).written }
  have hdrain : reported s id r = drainCell u id := by rw [← hu]; rfl
  rw [hdrain]
  unfold drainCell
  dsimp only
  split
  · exact ⟨_, hpages.leaveCell, rfl, rfl, rfl, rfl, rfl, rfl, rfl, rfl, rfl, rfl,
      .inl ⟨rfl, rfl⟩⟩
  · exact ⟨_, hpages, rfl, rfl, rfl, rfl, rfl, rfl, rfl, rfl, rfl, rfl, .inr ⟨rfl, rfl⟩⟩

/-- The report goes on with the stream's context, and with nothing else. -/
theorem finishCell_eq (s : State) (id : Nat) (r : CellOut) :
    finishCell s id r = reported s id r ∨
      ∃ f, finishCell s id r = (reported s id r).modCtx (s.job id).client (dCtx (s.job id).desc) f := by
  unfold finishCell
  cases r.ctx with
  | none => exact .inl rfl
  | some k =>
    dsimp only
    split
    · exact .inr ⟨_, rfl⟩
    · exact .inl rfl

theorem finishCell_setsJob {s : State} (hs : s.Inv) (id : Nat) (r : CellOut) :
    ∃ k, SetsJob id k s (finishCell s id r) ∧ CellEnded (s.job id) r k := by
  obtain ⟨k, h, hk⟩ := reported_setsJob hs id r
  rcases finishCell_eq s id r with heq | ⟨f, heq⟩ <;> rw [heq]
  · exact ⟨k, h, hk⟩
  · exact ⟨k, h.keeps (F := { ctxs := true }) (modCtx_keeps _ _ _ _ rfl (Keeps.refl _ _)) rfl, hk⟩

/-- A cell's report decides its job. -/
theorem finishCell_decided {s : State} (hs : s.Inv) (id : Nat) (r : CellOut) :
    Decided (finishCell s id r) id r.status r.detail r.output ∧ ((finishCell s id r).job id).opInfo = r.opInfo ∧
      ((finishCell s id r).job id).digest = r.digest ∧ OtherJobs id s (finishCell s id r) := by
  obtain ⟨k, h, hk⟩ := finishCell_setsJob hs id r
  simp only [Decided, h.job]
  exact ⟨⟨hk.stage, hk.status, hk.detail, hk.output⟩, hk.opInfo, hk.digest, h.others⟩

/-- The cell of a ready job reports what it makes of it. -/
theorem completes_ofCell {c : Instr} {s : State} {id : Nat} {o : Op} {f : Job → Ctx → CellOut} {P : State → Prop}
    (he : exec c s = .next (runCell o f id s)) (hr : s.ready id o = true)
    (h : P (finishCell s id (f (s.job id) (StreamBefore s id o)))) : Completes c s P := by
  rw [runCell_of_ready f hr] at he
  exact ⟨_, he, h⟩

/-! ## RANDOM (R159, R160) -/

theorem fail6_setsJob {s : State} (hs : s.Inv) (id : Nat) (st : Status) (detail : BitVec 8) :
    ∃ j, SetsJob id j s (fail6 s id st detail) ∧ j.stage = .cellDone ∧ j.status = st ∧ j.detail = detail ∧
      j.output = [] ∧ j.left = true ∧ j.keyMat = [] := by
  obtain ⟨_, _, h⟩ := (SetsJob.refl (id := id) hs).decide7 st detail
  exact ⟨_, (h.modJob fun x => { x with output := [] }).leaveCell, rfl, rfl, rfl, rfl, rfl, rfl⟩

/-- A failure of stage 6 decides the job with nothing for its destination. -/
theorem fail6_decided {s : State} (hs : s.Inv) (id : Nat) (st : Status) (detail : BitVec 8) :
    Decided (fail6 s id st detail) id st detail [] ∧ OtherJobs id s (fail6 s id st detail) := by
  obtain ⟨j, h, h1, h2, h3, h4, -, -⟩ := fail6_setsJob hs id st detail
  simp only [Decided, h.job]
  exact ⟨⟨h1, h2, h3, h4⟩, h.others⟩

theorem withSeed_of_none {s : State} {id : Nat} {pr : Bool} (draw : State → Nat → Bytes × State)
    (f : Bytes → State → State) (h : drbgReady s (s.job id).on pr = none) :
    withSeed s id pr draw f = fail6 s id stPoison 0x81 := by
  simp only [withSeed, h, seedFail]

theorem withSeed_of_some {s u : State} {id : Nat} {pr : Bool} (draw : State → Nat → Bytes × State)
    (f : Bytes → State → State) (h : drbgReady s (s.job id).on pr = some u) :
    withSeed s id pr draw f = f (draw (seedWaited s u id) (s.job id).on).1 (draw (seedWaited s u id) (s.job id).on).2 := by
  simp only [withSeed, h]

/-- The wait for a seed is all that the job shows of a reseed: its busy cycles. -/
theorem seedWaited_setsJob {s u : State} {id : Nat} (hs : s.Inv) (hu : Keeps { combs := true, trngN := true } s u) :
    ∃ n, SetsJob id { s.job id with cycles := n } s (seedWaited s u id) := by
  have hsame : SetsJob id (s.job id) s u := (SetsJob.refl hs).keeps hu rfl
  unfold seedWaited
  split
  · exact ⟨(s.job id).cycles, hsame⟩
  · exact ⟨_, (hsame.modJob fun x => { x with cycles := x.cycles + Config.seedWait u.freeN }).keeps
      (F := { freeN := true }) (Keeps.set_freeN rfl (Keeps.refl _ _)) rfl⟩

theorem seedWaited_comb (s u : State) (id c : Nat) : (seedWaited s u id).comb c = u.comb c := by
  unfold seedWaited
  split <;> rfl

/-- The comb's DRBG that is served changes no other comb. -/
theorem drbgReady_otherCombs {s u : State} {c : Nat} {pr : Bool} (h : drbgReady s c pr = some u) :
    OtherCombs c s u := by
  intro d hd
  have hinit : (drbgInit s c).comb d = s.comb d := by
    unfold drbgInit
    split <;> exact State.modComb_other _ _ _ _ hd
  have hreseed : (drbgReseed s c).comb d = s.comb d := State.modComb_other _ _ _ _ hd
  unfold drbgReady at h
  dsimp only at h
  split at h
  · split at h <;> cases h
    rfl
  split at h
  · cases h; exact hinit
  split at h <;> cases h
  exacts [hreseed, rfl]

theorem drbgReady_keeps_combs {s u : State} {c : Nat} {pr : Bool} (h : drbgReady s c pr = some u) :
    Keeps { combs := true, trngN := true } s u := drbgReady_keeps h rfl rfl (Keeps.refl _ s)

theorem Keeps.combs_eq {F : Foot} {s t : State} (h : Keeps F s t) (hF : F.combs = false) :
    t.combs = s.combs := by
  obtain ⟨-, -, hunch⟩ := h
  exact hunch.combs.resolve_right (by simp [hF])

theorem Keeps.comb_eq {F : Foot} {s t : State} (h : Keeps F s t) (hF : F.combs = false) (c : Nat) :
    t.comb c = s.comb c := by rw [State.comb, State.comb, h.combs_eq hF]

theorem finishCell_comb (s : State) (id : Nat) (r : CellOut) (c : Nat) : (finishCell s id r).comb c = s.comb c :=
  (finishCell_keeps (F := { dma := true, ks := true, ctxs := true, jobs := true }) s id r rfl rfl rfl rfl
    (Keeps.refl _ s)).comb_eq rfl c

theorem opRandom_of_ready {s : State} {id : Nat} (hr : s.ready id .random = true) :
    opRandom id s = withSeed s id (dPr (s.job id).desc) (fun t c => drbgGenerate t c (dMsg (s.job id).desc)) fun out t =>
      finishCell t id { output := out, cycles := blocks 4 16 (dMsg (s.job id).desc) +
        (if t.trngN = s.trngN then 0 else 160) } := by
  unfold opRandom
  dsimp only
  rw [hr]
  exact if_neg (by decide)

/-- Settles O23: one generate request on the comb's DRBG where it can be served, no request where it cannot. -/
theorem randomNumbers : Obligations.RandomNumbers := by
  refine ⟨fun id u s hs hr hseed => ?_, fun id s hs hr hseed => ?_⟩
  · refine .ofOp rfl ((opRandom_of_ready hr).trans (withSeed_of_some _ _ hseed)) ?_
    have hu := drbgReady_keeps_combs hseed
    obtain ⟨n, hw⟩ := seedWaited_setsJob (id := id) hs hu
    have hg := drbgGenerate_keeps (F := { combs := true }) (seedWaited s u id) (s.job id).on (dMsg (s.job id).desc) rfl
      (Keeps.refl _ _)
    have hgj := hw.keeps hg rfl
    obtain ⟨hdec, hinfo, -, hoth⟩ := finishCell_decided hgj.inv id
      { output := (drbgGenerate (seedWaited s u id) (s.job id).on (dMsg (s.job id).desc)).1
        cycles := blocks 4 16 (dMsg (s.job id).desc) +
          if (drbgGenerate (seedWaited s u id) (s.job id).on (dMsg (s.job id).desc)).2.trngN = s.trngN then 0 else 160 }
    refine ⟨?_, hinfo, ?_, hgj.others.trans hoth, fun d hd => ?_⟩
    · rwa [← seedWaited_comb s u id]
    · rw [finishCell_comb, ← seedWaited_comb s u id]
      exact congrArg (·.drbg.count) (State.modComb_same hw.wf _ _)
    · rw [finishCell_comb]
      refine (State.modComb_other _ _ _ _ hd).trans ?_
      rw [seedWaited_comb, drbgReady_otherCombs hseed d hd]
  · refine .ofOp rfl ((opRandom_of_ready hr).trans (withSeed_of_none _ _ hseed)) ?_
    obtain ⟨hdec, hoth⟩ := fail6_decided hs id stPoison 0x81
    exact ⟨hdec, hoth, (fail6_keeps (F := decisionFoot) s id _ _ rfl rfl rfl (Keeps.refl _ s)).combs_eq rfl⟩

end Sys2Proof.Machine
end

section
/-! SUPPORT. Strings cut into whole pieces, and chaining states over them: a state that has taken `a` and then takes `b`
has taken `a ++ b` (R170 to R173). -/

namespace Sys2Proof.Machine

/-! ## Pieces of a joined string -/

/-- Any fuel for the whole string gives the same pieces. -/
theorem chunksF_fuel {n f g : Nat} (hn : 0 < n) {b : Bytes} (hf : b.length ≤ f) (hg : b.length ≤ g) :
    chunksF n f b = chunksF n g b := by
  induction f generalizing g b with
  | zero =>
    obtain rfl := List.eq_nil_of_length_eq_zero (Nat.le_zero.1 hf)
    cases g <;> rfl
  | succ f ih =>
    cases b with
    | nil => cases g <;> rfl
    | cons x b =>
      cases g with
      | zero => simp at hg
      | succ g =>
        have hrest : ((x :: b).drop n).length ≤ b.length := by simp only [List.length_drop, List.length_cons]; omega
        simp only [List.length_cons, Nat.add_le_add_iff_right] at hf hg
        simp only [chunksF, ih (hrest.trans hf) (hrest.trans hg)]

@[simp] theorem chunks_nil (n : Nat) : chunks n [] = [] := rfl

/-- A nonempty string begins with a piece. -/
theorem chunks_cons {n : Nat} (hn : 0 < n) {b : Bytes} (hb : b ≠ []) :
    chunks n b = b.take n :: chunks n (b.drop n) := by
  obtain ⟨x, r, rfl⟩ := List.exists_cons_of_ne_nil hb
  have hrest : ((x :: r).drop n).length ≤ r.length := by simp only [List.length_drop, List.length_cons]; omega
  rw [chunks, List.length_cons, chunksF, chunksF_fuel hn hrest le_rfl]
  rfl

/-- Behind whole pieces the pieces of the rest follow. -/
theorem chunks_append {n : Nat} (hn : 0 < n) {a : Bytes} (ha : n ∣ a.length) (b : Bytes) :
    chunks n (a ++ b) = chunks n a ++ chunks n b := by
  by_cases hnil : a = []
  · simp [hnil]
  have hpos : 0 < a.length := List.length_pos_iff.2 hnil
  have hle : n ≤ a.length := Nat.le_of_dvd hpos ha
  have hrest : n ∣ (a.drop n).length := by rw [List.length_drop]; exact Nat.dvd_sub ha dvd_rfl
  rw [chunks_cons hn (b := a ++ b) (by simp [hnil]), chunks_cons hn hnil, List.take_append_of_le_length hle,
    List.drop_append_of_le_length hle, chunks_append hn hrest b, List.cons_append]
termination_by a.length
decreasing_by rw [List.length_drop]; omega

/-! ## Hashes (R166) -/

theorem hashBlock_pos (alg : Nat) : 0 < hashBlock alg := by
  unfold hashBlock
  split <;> decide

/-- A state that has taken `a` and takes `b` has taken both. -/
theorem hashAbsorb_append {alg : Nat} {a : Bytes} (ha : hashBlock alg ∣ a.length) (st b : Bytes) :
    hashAbsorb alg st (a ++ b) = hashAbsorb alg (hashAbsorb alg st a) b := by
  rw [hashAbsorb, chunks_append (hashBlock_pos alg) ha, List.foldl_append]
  rfl

/-- The end of a hash whose state has taken `a` is the end of the whole. -/
theorem hashFinish_absorb {alg : Nat} {a : Bytes} (ha : hashBlock alg ∣ a.length) (st b : Bytes) (total n : Nat) :
    hashFinish alg (hashAbsorb alg st a) total b n = hashFinish alg st total (a ++ b) n := by
  have hwhole : (a ++ b).length / hashBlock alg * hashBlock alg =
      a.length + b.length / hashBlock alg * hashBlock alg := by
    rw [List.length_append, Nat.add_div_of_dvd_right ha, Nat.add_mul, Nat.div_mul_cancel ha]
  unfold hashFinish
  simp only [hwhole, List.take_length_add_append, List.drop_length_add_append, hashAbsorb_append ha]

/-! ### A chaining state is never empty -/

theorem flatMap_ne_nil {α : Type} {l : List α} {f : α → Bytes} (hl : l ≠ []) (hf : ∀ x, f x ≠ []) : l.flatMap f ≠ [] := by
  obtain ⟨x, r, rfl⟩ := List.exists_cons_of_ne_nil hl
  simp [hf x]

theorem bvBe_ne_nil {n : Nat} (hn : n ≠ 0) {w : Nat} (v : BitVec w) : bvBe n v ≠ [] := by
  rw [← List.length_pos_iff, bvBe, natBe_length]
  omega

theorem hashInit_ne_nil (alg : Nat) : hashInit alg ≠ [] := by
  have hroots : shaRoots.length = 16 := by simp [shaRoots, primes80]
  unfold hashInit
  split
  iterate 4
    refine flatMap_ne_nil (List.length_pos_iff.1 ?_) fun _ => bvBe_ne_nil (by decide) _
    simp [hroots]
  exact List.cons_ne_nil _ _

theorem shaBlock_ne_nil {w rounds : Nat} {f : ShaFns} {ks : List (BitVec w)} {st : Bytes} (hw : w / 8 ≠ 0)
    (hst : st ≠ []) (block : Bytes) : shaBlock w rounds f ks st block ≠ [] := by
  unfold shaBlock
  refine flatMap_ne_nil ?_ fun _ => bvBe_ne_nil hw _
  simp [beWords, chunks_cons (Nat.pos_of_ne_zero hw) hst]

theorem keccakRounds_size (l : List (BitVec 64)) {a : Array (BitVec 64)} (h : a.size = 25 ∨ l ≠ []) :
    (l.foldl keccakRound a).size = 25 := by
  induction l generalizing a with
  | nil => simpa using h
  | cons x l ih => exact ih (.inl (by simp [keccakRound]))

theorem keccakF_ne_nil (st : Bytes) : keccakF st ≠ [] := by
  unfold keccakF
  refine flatMap_ne_nil (List.length_pos_iff.1 ?_) fun v => List.length_pos_iff.1 (by simp)
  rw [Array.length_toList, keccakRounds_size _ (.inr (by simp [keccakRc]))]
  decide

theorem hashStep_ne_nil (alg : Nat) {st : Bytes} (hst : st ≠ []) (block : Bytes) : hashStep alg st block ≠ [] := by
  unfold hashStep
  split
  iterate 4 exact shaBlock_ne_nil (by decide) hst block
  exact keccakF_ne_nil _

theorem hashAbsorb_ne_nil (alg : Nat) {st : Bytes} (hst : st ≠ []) (msg : Bytes) : hashAbsorb alg st msg ≠ [] := by
  unfold hashAbsorb
  generalize chunks (hashBlock alg) msg = l
  induction l generalizing st with
  | nil => exact hst
  | cons c l ih => exact ih (hashStep_ne_nil alg hst c)

/-! ### The stream of a hash -/

section

variable {alg : Nat} {start a : Bytes} {k : Ctx}

theorem hashTook_dvd (h : HashTook alg start a k) : hashBlock alg ∣ a.length := Nat.dvd_of_mod_eq_zero h.2.1

/-- The state from which the stream goes on. -/
theorem hashTook_state (h : HashTook alg start a k) (hne : start ≠ []) :
    (if starts k then start else k.chain) = hashAbsorb alg start a := by
  obtain ⟨-, -, ⟨rfl, hchain⟩ | hchain⟩ := h
  · simp [starts, hchain, hashAbsorb]
  · rw [starts, hchain, if_neg]
    simpa using hashAbsorb_ne_nil alg hne a

/-- Whole blocks `b` enter the stream. -/
theorem hashTook_next (h : HashTook alg start a k) (hne : start ≠ []) {b : Bytes} (hb : b.length % hashBlock alg = 0)
    {k' : Ctx} (hchain : k'.chain = hashAbsorb alg (if starts k then start else k.chain) b)
    (hdone : k'.done = k.done + b.length) : HashTook alg start (a ++ b) k' := by
  refine ⟨?_, ?_, .inr ?_⟩
  · rw [hdone, h.1, List.length_append]
  · rw [List.length_append, Nat.add_mod, h.2.1, hb]
    exact Nat.zero_mod _
  · rw [hchain, hashTook_state h hne, hashAbsorb_append (hashTook_dvd h)]

/-- The end of the stream is the end of the whole. -/
theorem hashTook_finish (h : HashTook alg start a k) (hne : start ≠ []) (b : Bytes) (total n : Nat) :
    hashFinish alg (if starts k then start else k.chain) total b n = hashFinish alg start total (a ++ b) n := by
  rw [hashTook_state h hne, hashFinish_absorb (hashTook_dvd h)]

end

/-! ### HMAC and the sponges -/

theorem hmacPad_length (alg : Nat) (c : Byte) (key : Bytes) : (hmacPad alg c key).length = hashBlock alg := by
  unfold hmacPad fit zeros
  generalize (if hashBlock alg < key.length then hashOf alg key else key) = b
  simp only [List.length_map, List.length_append, List.length_take, List.length_replicate]
  omega

theorem hashAbsorb_of_block {alg : Nat} {b : Bytes} (hb : b.length = hashBlock alg) (st : Bytes) :
    hashAbsorb alg st b = hashStep alg st b := by
  have hne : b ≠ [] := List.length_pos_iff.1 (hb ▸ hashBlock_pos alg)
  rw [hashAbsorb, chunks_cons (hashBlock_pos alg) hne, ← hb, List.take_length, List.drop_length]
  rfl

/-- HMAC from its state after the inner pad. -/
theorem hmac_eq (alg : Nat) (key msg : Bytes) :
    hmacOuter alg key (hashFinish alg (hashAbsorb alg (hashInit alg) (hmacPad alg 0x36 key))
      (hashBlock alg + msg.length) msg (hashLen alg)) = hmac alg key msg := by
  rw [hashFinish_absorb (by rw [hmacPad_length]), hmac, hashOf, hashN, List.length_append, hmacPad_length]

theorem shake128_eq (msg : Bytes) (total n : Nat) : hashFinish 0x21 (zeros 200) total msg n = shake128 msg n := rfl

theorem shake256_eq (msg : Bytes) (total n : Nat) : hashFinish 0x22 (zeros 200) total msg n = shake256 msg n := rfl

/-! ## CMAC (R170) -/

theorem cbcMac_append (ks : List Bytes) (y : Bytes) {a : Bytes} (ha : 16 ∣ a.length) (b : Bytes) :
    cbcMac ks y (a ++ b) = cbcMac ks (cbcMac ks y a) b := by
  rw [cbcMac, chunks_append (by decide) ha, List.foldl_append]
  rfl

theorem fit_length (b : Bytes) (n : Nat) : (fit b n).length = n := by
  simp only [fit, zeros, List.length_append, List.length_take, List.length_replicate]
  omega

theorem cbcMac_length {ks : List Bytes} (hks : ∀ k ∈ ks, k.length = 16) {y : Bytes} (hy : y.length = 16) (data : Bytes) :
    (cbcMac ks y data).length = 16 := by
  unfold cbcMac
  generalize chunks 16 data = l
  induction l generalizing y with
  | nil => exact hy
  | cons c l ih => exact ih (aesEncK_length hks (by rw [xorB_length, hy, fit_length, min_self]))

/-- All but the last block of a nonempty string of `n` bytes. -/
def heldFrom (n : Nat) : Nat := (n - 1) / 16 * 16

/-- Where `a` comes first and is whole blocks, the bytes behind its last block hold the last block back. -/
theorem heldFrom_append {a b : Bytes} (ha : a.length % 16 = 0) :
    heldFrom (a ++ b).length = heldFrom a.length + heldFrom (a.drop (heldFrom a.length) ++ b).length := by
  simp only [heldFrom, List.length_append, List.length_drop]
  omega

theorem heldFrom_le (n : Nat) : heldFrom n ≤ n := by
  unfold heldFrom
  omega

theorem heldFrom_dvd (n : Nat) : 16 ∣ heldFrom n := Dvd.intro_left _ rfl

/-- The state and the held bytes of a CMAC stream that has taken `a`. -/
theorem cmacTook_state {key a : Bytes} {k : Ctx} (h : CmacTook key a k)
    (hkey : key.length = 16 ∨ key.length = 24 ∨ key.length = 32) :
    (if starts k then zeros 16 else k.chain.take 16) =
        cbcMac (aesKeys key) (zeros 16) (a.take (heldFrom a.length)) ∧
      k.chain.drop 16 = a.drop (heldFrom a.length) := by
  have hround : ∀ r ∈ aesKeys key, r.length = 16 := fun r hr => length_of_mem_aesKeys (by omega) (by omega) hr
  obtain ⟨-, -, ⟨rfl, hchain⟩ | hchain⟩ := h
  · simp [starts, hchain, cbcMac]
  · have hlen : (cbcMac (aesKeys key) (zeros 16) (a.take (heldFrom a.length))).length = 16 :=
      cbcMac_length hround (by simp [zeros]) _
    have hcut : k.chain = cbcMac (aesKeys key) (zeros 16) (a.take (heldFrom a.length)) ++
      a.drop (heldFrom a.length) := hchain
    have hnot : starts k = false := by
      rw [starts, hcut, List.isEmpty_eq_false_iff]
      exact List.append_ne_nil_of_left_ne_nil (List.length_pos_iff.1 (by omega)) _
    rw [hnot, hcut, List.take_append_of_le_length hlen.ge, List.drop_append_of_le_length hlen.ge,
      List.take_of_length_le hlen.le, List.drop_of_length_le hlen.le]
    exact ⟨rfl, rfl⟩

/-- CBC-MAC over the whole blocks of `a` that are not held back, then over those behind them. -/
theorem cbcMac_held (ks : List Bytes) (y : Bytes) {a b : Bytes} (ha : a.length % 16 = 0) :
    cbcMac ks (cbcMac ks y (a.take (heldFrom a.length))) ((a.drop (heldFrom a.length) ++ b).take
      (heldFrom (a.drop (heldFrom a.length) ++ b).length)) = cbcMac ks y ((a ++ b).take (heldFrom (a ++ b).length)) := by
  have hle := heldFrom_le a.length
  rw [← cbcMac_append ks y (by rw [List.length_take, Nat.min_eq_left hle]; exact heldFrom_dvd _),
    heldFrom_append ha, List.take_add, List.take_append_of_le_length hle, List.drop_append_of_le_length hle]

theorem drop_held {a b : Bytes} (ha : a.length % 16 = 0) :
    (a.drop (heldFrom a.length) ++ b).drop (heldFrom (a.drop (heldFrom a.length) ++ b).length) =
      (a ++ b).drop (heldFrom (a ++ b).length) := by
  rw [heldFrom_append ha, ← List.drop_drop, List.drop_append_of_le_length (heldFrom_le _)]

theorem cmacFinish_held (key y : Bytes) {a b : Bytes} (ha : a.length % 16 = 0) :
    cmacFinish key (cbcMac (aesKeys key) y (a.take (heldFrom a.length))) (a.drop (heldFrom a.length) ++ b) =
      cmacFinish key y (a ++ b) := by
  have htake := cbcMac_held (aesKeys key) y (b := b) ha
  have hdrop := drop_held (b := b) ha
  simp only [heldFrom] at htake hdrop
  simp only [cmacFinish, heldFrom, htake, hdrop]

end Sys2Proof.Machine
end

section
/-! SUPPORT. The digest cell on single-shot jobs and streams: the theorems that settle O24 and O25. -/

namespace Sys2Proof.Machine

/-- A report that leaves the stream's next state decides the job, and the context of the job takes that state. -/
theorem finishCell_stream {s : State} (hs : s.Inv) (id : Nat) {r : CellOut} {k : Ctx} (hr : r.ctx = some k)
    (hold : (s.job id).holdsCtx = true) :
    (CtxOf (finishCell s id r) (s.job id)).chain = k.chain ∧ (CtxOf (finishCell s id r) (s.job id)).done = k.done ∧
      (CtxOf (finishCell s id r) (s.job id)).aad = k.aad ∧
      (CtxOf (finishCell s id r) (s.job id)).nonce = (CtxOf s (s.job id)).nonce := by
  rw [CtxOf, finishCell_ctx hs id hr hold]
  exact ⟨rfl, rfl, rfl, rfl⟩

/-- What a cell does with a job of a hash stream that is not its last: `start` is the state that the stream begins
with. -/
def AbsorbsFrom (start : Bytes) (j : Job) (k : Ctx) (r : CellOut) : Prop :=
  ∃ cyc, r = { cycles := cyc, ctx := some { k with
    chain := hashAbsorb (dAlg j.desc) (if starts k then start else k.chain) j.got, done := k.done + dMsg j.desc } }

/-- A stream whose cell absorbs goes on. -/
theorem hashGoesOn_of {c : Nat → Instr} {o : Op} {algs : Nat → Prop} {start : State → Nat → Bytes}
    {f : Job → Ctx → CellOut} (he : ∀ id s, exec (c id) s = .next (runCell o f id s))
    (hne : ∀ s id, start s id ≠ [])
    (hf : ∀ s id, dFinal o (s.job id).desc = false → algs (dAlg (s.job id).desc) →
      AbsorbsFrom (start s id) (s.job id) (StreamBefore s id o) (f (s.job id) (StreamBefore s id o))) :
    HashGoesOn c o algs start := by
  intro id a s hs hr hfin hgot hblock hold halg htook
  obtain ⟨cyc, hcell⟩ := hf s id hfin halg
  refine completes_ofCell (he id s) hr ?_
  rw [hcell]
  obtain ⟨hdec, -, -, hoth⟩ := finishCell_decided hs id
    { cycles := cyc, ctx := some { StreamBefore s id o with
        chain := hashAbsorb (dAlg (s.job id).desc)
          (if starts (StreamBefore s id o) then start s id else (StreamBefore s id o).chain) (s.job id).got
        done := (StreamBefore s id o).done + dMsg (s.job id).desc } }
  obtain ⟨hchain, hdone, -, -⟩ := finishCell_stream hs id
    (r := { cycles := cyc, ctx := some { StreamBefore s id o with
        chain := hashAbsorb (dAlg (s.job id).desc)
          (if starts (StreamBefore s id o) then start s id else (StreamBefore s id o).chain) (s.job id).got
        done := (StreamBefore s id o).done + dMsg (s.job id).desc } }) rfl hold
  exact ⟨hdec, hashTook_next htook (hne s id) hblock hchain (by rw [hdone, hgot]), hoth⟩

theorem hashCell_of_not_final {o : Op} {j : Job} {k : Ctx} (h : dFinal o j.desc = false) :
    AbsorbsFrom (hashInit (dAlg j.desc)) j k (hashCell o j k) := by
  unfold hashCell
  dsimp only
  rw [h]
  exact ⟨_, rfl⟩

theorem hashCell_of_final {o : Op} {j : Job} {k : Ctx} (h : dFinal o j.desc = true) :
    ∃ cyc next, hashCell o j k = digested j (hashFinish (dAlg j.desc)
      (if starts k then hashInit (dAlg j.desc) else k.chain) (k.done + dMsg j.desc) j.got (outN o j)) cyc next := by
  unfold hashCell
  dsimp only
  rw [h]
  exact ⟨_, _, rfl⟩

/-- HMAC's state after its inner pad. -/
def padded (j : Job) : Bytes := hashAbsorb (dAlg j.desc) (hashInit (dAlg j.desc)) (hmacPad (dAlg j.desc) 0x36 j.keyMat)

theorem padded_ne_nil (j : Job) : padded j ≠ [] := hashAbsorb_ne_nil _ (hashInit_ne_nil _) _

theorem padded_eq_step (j : Job) :
    padded j = hashStep (dAlg j.desc) (hashInit (dAlg j.desc)) (hmacPad (dAlg j.desc) 0x36 j.keyMat) :=
  hashAbsorb_of_block (hmacPad_length _ _ _) _

theorem hmacCell_of_not_final {o : Op} {j : Job} {k : Ctx} (h : dFinal o j.desc = false) :
    AbsorbsFrom (padded j) j k (hmacCell o j k) := by
  rw [padded_eq_step]
  unfold hmacCell
  dsimp only
  rw [h]
  exact ⟨_, rfl⟩

/-- The MAC that the last job of a stream computes. -/
def streamMac (j : Job) (k : Ctx) : Bytes :=
  hmacOuter (dAlg j.desc) j.keyMat (hashFinish (dAlg j.desc) (if starts k then padded j else k.chain)
    (hashBlock (dAlg j.desc) + (k.done + dMsg j.desc)) j.got (hashLen (dAlg j.desc)))

theorem hmacCell_gen_of_final {j : Job} {k : Ctx} (h : dFinal .hmacGen j.desc = true) :
    ∃ cyc next, hmacCell .hmacGen j k = digested j ((streamMac j k).take (outN .hmacGen j)) cyc next := by
  unfold hmacCell streamMac
  dsimp only
  rw [h, padded_eq_step]
  exact ⟨_, _, rfl⟩

theorem hmacCell_verify_of_final {j : Job} {k : Ctx} (h : dFinal .hmacVerify j.desc = true) :
    ∃ cyc next, hmacCell .hmacVerify j k = verdict (streamMac j k) j .hmacVerify cyc next := by
  unfold hmacCell streamMac
  dsimp only
  rw [h, padded_eq_step]
  exact ⟨_, _, rfl⟩

/-- The MAC of a stream that has taken `a` is that of all. -/
theorem streamMac_eq {j : Job} {k : Ctx} {a : Bytes} (htook : HashTook (dAlg j.desc) (padded j) a k)
    (hgot : j.got.length = dMsg j.desc) : streamMac j k = hmac (dAlg j.desc) j.keyMat (a ++ j.got) := by
  have hlen : k.done + dMsg j.desc = (a ++ j.got).length := by rw [List.length_append, htook.1, hgot]
  rw [streamMac, hashTook_finish htook (padded_ne_nil j), hlen, ← hmac_eq, padded,
    hashFinish_absorb (by rw [hmacPad_length])]

theorem kmacInit_ne_nil (alg : Nat) (key s : Bytes) : kmacInit alg key s ≠ [] :=
  hashAbsorb_ne_nil alg (List.cons_ne_nil 0 _) _

theorem kmacCell_of_not_final {j : Job} {k : Ctx} (h : dFinal .kmac j.desc = false) :
    AbsorbsFrom (kmacInit (dAlg j.desc) j.keyMat k.s) j k (kmacCell j k) := by
  unfold kmacCell
  dsimp only
  rw [h]
  exact ⟨_, rfl⟩

theorem kmacCell_of_final {j : Job} {k : Ctx} (h : dFinal .kmac j.desc = true) :
    ∃ cyc next, kmacCell j k = digested j (kmacFinish (dAlg j.desc)
      (if starts k then kmacInit (dAlg j.desc) j.keyMat k.s else k.chain) j.got (outN .kmac j)) cyc next := by
  unfold kmacCell
  dsimp only
  rw [h]
  exact ⟨_, _, rfl⟩

/-- The state of an unknown sponge is the zero state. -/
theorem hashInit_shake {alg : Nat} (h : alg = 0x21 ∨ alg = 0x22) : hashInit alg = zeros 200 := by
  rcases h with rfl | rfl <;> rfl

theorem zeros_ne_nil : zeros 200 ≠ [] := List.cons_ne_nil 0 _

theorem outN_shakeXof (j : Job) : outN .shakeXof j = dOutLen j.desc := by
  simp [outN, digestOut]

/-! ### CMAC -/

theorem cmacCell_of_not_final {o : Op} {j : Job} {k : Ctx} (h : dFinal o j.desc = false) :
    ∃ cyc, cmacCell o j k = { cycles := cyc, ctx := some { k with
      chain := cbcMac (aesKeys j.keyMat) (if starts k then zeros 16 else k.chain.take 16)
          ((k.chain.drop 16 ++ j.got).take (heldFrom (k.chain.drop 16 ++ j.got).length)) ++
        (k.chain.drop 16 ++ j.got).drop (heldFrom (k.chain.drop 16 ++ j.got).length)
      done := k.done + dMsg j.desc } } := by
  unfold cmacCell
  dsimp only
  rw [h]
  exact ⟨_, rfl⟩

/-- The MAC that the last job of a stream computes. -/
def streamCmac (j : Job) (k : Ctx) : Bytes :=
  cmacFinish j.keyMat (if starts k then zeros 16 else k.chain.take 16) (k.chain.drop 16 ++ j.got)

theorem cmacCell_gen_of_final {j : Job} {k : Ctx} (h : dFinal .cmacGen j.desc = true) :
    ∃ cyc next, cmacCell .cmacGen j k = digested j ((streamCmac j k).take (outN .cmacGen j)) cyc next := by
  unfold cmacCell
  dsimp only
  rw [h]
  exact ⟨_, _, rfl⟩

theorem cmacCell_verify_of_final {j : Job} {k : Ctx} (h : dFinal .cmacVerify j.desc = true) :
    ∃ cyc next, cmacCell .cmacVerify j k = verdict (streamCmac j k) j .cmacVerify cyc next := by
  unfold cmacCell
  dsimp only
  rw [h]
  exact ⟨_, _, rfl⟩

theorem streamCmac_eq {j : Job} {k : Ctx} {a : Bytes} (htook : CmacTook j.keyMat a k)
    (hkey : j.keyMat.length = 16 ∨ j.keyMat.length = 24 ∨ j.keyMat.length = 32) :
    streamCmac j k = cmac j.keyMat (a ++ j.got) := by
  obtain ⟨hstate, hheld⟩ := cmacTook_state htook hkey
  rw [streamCmac, hstate, hheld, cmacFinish_held _ _ htook.2.1, cmac]

/-- The two CMAC opcodes go on alike. -/
theorem cmacGoesOn_of {c : Nat → Instr} {o : Op} (he : ∀ id s, exec (c id) s = .next (runCell o (cmacCell o) id s)) :
    CmacGoesOn c o := by
  intro id a s hs hr hfin hgot hblock hold hkey htook
  obtain ⟨cyc, hcell⟩ := cmacCell_of_not_final (k := StreamBefore s id o) hfin
  refine completes_ofCell (he id s) hr ?_
  obtain ⟨hstate, hheld⟩ := cmacTook_state htook hkey
  rw [hstate, hheld] at hcell
  obtain ⟨hdec, -, -, hoth⟩ := finishCell_decided hs id (cmacCell o (s.job id) (StreamBefore s id o))
  obtain ⟨hchain, hdone, -, -⟩ := finishCell_stream hs id (r := cmacCell o (s.job id) (StreamBefore s id o))
    (by rw [hcell]) hold
  have hlen := htook.2.1
  refine ⟨by rwa [hcell] at hdec ⊢, ⟨?_, ?_, .inr ?_⟩, hoth⟩
  · simp only [hdone, List.length_append, htook.1, hgot]
  · rw [List.length_append]; omega
  · rw [hchain, cbcMac_held _ _ hlen, drop_held hlen]
    rfl

/-! ### The reports that end a stream -/

/-- A verdict writes nothing. -/
theorem verdict_decided {s : State} (hs : s.Inv) (id : Nat) (mac : Bytes) (o : Op) (cyc : Nat) (next : Option Ctx) :
    Decided (finishCell s id (verdict mac (s.job id) o cyc next)) id
        (if mac.take (outN o (s.job id)) = (dBlock (s.job id).desc).take (outN o (s.job id)) then stOk else stAuthFail)
        0 [] ∧
      ((finishCell s id (verdict mac (s.job id) o cyc next)).job id).digest = [] ∧
      OtherJobs id s (finishCell s id (verdict mac (s.job id) o cyc next)) := by
  obtain ⟨hdec, -, hdig, hoth⟩ := finishCell_decided hs id (verdict mac (s.job id) o cyc next)
  refine ⟨?_, hdig, hoth⟩
  simpa only [verdict, beq_iff_eq] using hdec

/-- A digest is written, and committed where the descriptor asks for it. -/
theorem digested_decided {s : State} (hs : s.Inv) (id : Nat) (b : Bytes) (cyc : Nat) (next : Option Ctx) :
    Decided (finishCell s id (digested (s.job id) b cyc next)) id stOk 0 b ∧
      ((finishCell s id (digested (s.job id) b cyc next)).job id).digest =
        (if dCommit (s.job id).desc then b else []) ∧
      OtherJobs id s (finishCell s id (digested (s.job id) b cyc next)) := by
  obtain ⟨hdec, -, hdig, hoth⟩ := finishCell_decided hs id (digested (s.job id) b cyc next)
  exact ⟨hdec, hdig, hoth⟩

/-! ### The theorems -/

theorem hash_of_final {id : Nat} {a : Bytes} {s : State} (hs : s.Inv) (hr : s.ready id .hash = true)
    (hfin : dFinal .hash (s.job id).desc = true) (hgot : (s.job id).got.length = dMsg (s.job id).desc)
    (htook : HashTook (dAlg (s.job id).desc) (hashInit (dAlg (s.job id).desc)) a (StreamBefore s id .hash)) :
    Completes (.hash id) s fun t =>
      Decided t id stOk 0 (hashN (dAlg (s.job id).desc) (a ++ (s.job id).got) (outN .hash (s.job id))) ∧
      (t.job id).digest = (if dCommit (s.job id).desc then (t.job id).output else []) ∧ OtherJobs id s t := by
  refine completes_ofCell (o := .hash) (f := hashCell .hash) rfl hr ?_
  obtain ⟨cyc, next, hcell⟩ := hashCell_of_final (k := StreamBefore s id .hash) hfin
  have hlen : (StreamBefore s id .hash).done + dMsg (s.job id).desc = (a ++ (s.job id).got).length := by
    rw [List.length_append, htook.1, hgot]
  rw [hashTook_finish htook (hashInit_ne_nil _), hlen] at hcell
  obtain ⟨hdec, hdig, hoth⟩ := digested_decided hs id (hashN (dAlg (s.job id).desc) (a ++ (s.job id).got)
    (outN .hash (s.job id))) cyc next
  rw [hcell]
  exact ⟨hdec, hdig.trans (congrArg (fun b => if dCommit (s.job id).desc = true then b else []) hdec.2.2.2.symm), hoth⟩

theorem shakeXof_of_final {id : Nat} {a : Bytes} {s : State} (hs : s.Inv) (hr : s.ready id .shakeXof = true)
    (hfin : dFinal .shakeXof (s.job id).desc = true)
    (halg : dAlg (s.job id).desc = 0x21 ∨ dAlg (s.job id).desc = 0x22)
    (htook : HashTook (dAlg (s.job id).desc) (zeros 200) a (StreamBefore s id .shakeXof)) :
    Completes (.shakeXof id) s fun t =>
      Decided t id stOk 0 (if dAlg (s.job id).desc = 0x21
        then shake128 (a ++ (s.job id).got) (dOutLen (s.job id).desc)
        else shake256 (a ++ (s.job id).got) (dOutLen (s.job id).desc)) ∧ OtherJobs id s t := by
  refine completes_ofCell (o := .shakeXof) (f := hashCell .shakeXof) rfl hr ?_
  obtain ⟨cyc, next, hcell⟩ := hashCell_of_final (k := StreamBefore s id .shakeXof) hfin
  rw [hashInit_shake halg, hashTook_finish htook zeros_ne_nil, outN_shakeXof] at hcell
  rw [hcell]
  obtain ⟨hdec, -, hoth⟩ := digested_decided hs id (hashFinish (dAlg (s.job id).desc) (zeros 200)
    ((StreamBefore s id .shakeXof).done + dMsg (s.job id).desc) (a ++ (s.job id).got) (dOutLen (s.job id).desc)) cyc next
  refine ⟨?_, hoth⟩
  rcases halg with halg | halg
  · rw [if_pos halg, ← shake128_eq, ← halg]
    exact hdec
  · rw [if_neg (by rw [halg]; decide), ← shake256_eq, ← halg]
    exact hdec

/-- Settles O24: the state after whole blocks is that of the joined message, and the end works on the rest. -/
theorem digestStreams : Obligations.DigestStreams := by
  refine ⟨fun id a s hs hr hfin hgot htook => hash_of_final hs hr hfin hgot htook,
    hashGoesOn_of (fun _ _ => rfl) (fun _ _ => hashInit_ne_nil _) (fun _ _ h _ => hashCell_of_not_final h),
    hashGoesOn_of (fun _ _ => rfl) (fun _ _ => zeros_ne_nil)
      (fun s id h halg => hashInit_shake halg ▸ hashCell_of_not_final h),
    hashGoesOn_of (fun _ _ => rfl) (fun _ _ => padded_ne_nil _) (fun _ _ h _ => hmacCell_of_not_final h),
    hashGoesOn_of (fun _ _ => rfl) (fun _ _ => padded_ne_nil _) (fun _ _ h _ => hmacCell_of_not_final h),
    hashGoesOn_of (fun _ _ => rfl) (fun _ _ => kmacInit_ne_nil _ _ _) (fun _ _ h _ => kmacCell_of_not_final h),
    fun id a s hs hr hfin _ halg htook => shakeXof_of_final hs hr hfin halg htook, fun id a s hs hr hfin hgot htook => ?_,
    fun id a s hs hr hfin hgot halg htook => ?_, fun id a s hs hr hfin hgot hkey htook => ?_,
    cmacGoesOn_of fun _ _ => rfl, cmacGoesOn_of fun _ _ => rfl⟩
  · refine completes_ofCell (o := .hmacGen) (f := hmacCell .hmacGen) rfl hr ?_
    obtain ⟨cyc, next, hcell⟩ := hmacCell_gen_of_final (k := StreamBefore s id .hmacGen) hfin
    rw [streamMac_eq htook hgot] at hcell
    rw [hcell]
    obtain ⟨hdec, -, hoth⟩ := digested_decided hs id _ cyc next
    exact ⟨hdec, hoth⟩
  · refine completes_ofCell (o := .kmac) (f := kmacCell) rfl hr ?_
    obtain ⟨cyc, next, hcell⟩ := kmacCell_of_final (k := StreamBefore s id .kmac) hfin
    rw [kmacFinish, hashTook_finish htook (kmacInit_ne_nil _ _ _), ← List.append_assoc] at hcell
    rw [hcell]
    obtain ⟨hdec, -, hoth⟩ := digested_decided hs id _ cyc next
    exact ⟨hdec, hoth⟩
  · refine completes_ofCell (o := .cmacGen) (f := cmacCell .cmacGen) rfl hr ?_
    obtain ⟨cyc, next, hcell⟩ := cmacCell_gen_of_final (k := StreamBefore s id .cmacGen) hfin
    rw [streamCmac_eq htook hkey] at hcell
    rw [hcell]
    obtain ⟨hdec, -, hoth⟩ := digested_decided hs id _ cyc next
    exact ⟨hdec, hoth⟩

/-- Settles O25: the two verdicts on the MAC of all that the stream has taken. -/
theorem macVerdicts : Obligations.MacVerdicts := by
  refine ⟨fun id a s hs hr hfin hgot htook => ?_, fun id a s hs hr hfin hgot hkey htook => ?_⟩
  · refine completes_ofCell (o := .hmacVerify) (f := hmacCell .hmacVerify) rfl hr ?_
    obtain ⟨cyc, next, hcell⟩ := hmacCell_verify_of_final (k := StreamBefore s id .hmacVerify) hfin
    rw [streamMac_eq htook hgot] at hcell
    rw [hcell]
    exact verdict_decided hs id _ _ cyc next
  · refine completes_ofCell (o := .cmacVerify) (f := cmacCell .cmacVerify) rfl hr ?_
    obtain ⟨cyc, next, hcell⟩ := cmacCell_verify_of_final (k := StreamBefore s id .cmacVerify) hfin
    rw [streamCmac_eq htook hkey] at hcell
    rw [hcell]
    exact verdict_decided hs id _ _ cyc next

end Sys2Proof.Machine
end

section
/-! SUPPORT. The authenticated ciphers over joined strings: masks that go on where they stopped, and the sums GHASH and
Poly1305 over whole blocks (R136 to R142). -/

namespace Sys2Proof.Machine

/-! ## Masks -/

/-- Data of whole pieces, masked piece by piece from piece `k` on. -/
def maskFrom (n : Nat) (block : Nat → Bytes) (k : Nat) (data : Bytes) : Bytes :=
  (((chunks n data).zipIdx k).map fun ci => xorB ci.1 (block ci.2)).flatten

theorem maskFrom_nil (n : Nat) (block : Nat → Bytes) (k : Nat) : maskFrom n block k [] = [] := rfl

theorem maskFrom_cons {n : Nat} (hn : 0 < n) {data : Bytes} (hd : data ≠ []) (block : Nat → Bytes) (k : Nat) :
    maskFrom n block k data = xorB (data.take n) (block k) ++ maskFrom n block (k + 1) (data.drop n) := by
  rw [maskFrom, chunks_cons hn hd, List.zipIdx_cons, List.map_cons, List.flatten_cons]
  rfl

/-- A mask is as long as its data. -/
theorem maskFrom_length {n : Nat} (hn : 0 < n) {block : Nat → Bytes} (hblock : ∀ i, (block i).length = n) (k : Nat)
    (data : Bytes) : (maskFrom n block k data).length = data.length := by
  by_cases hd : data = []
  · rw [hd, maskFrom_nil]
  have hpos : 0 < data.length := List.length_pos_iff.2 hd
  rw [maskFrom_cons hn hd, List.length_append, maskFrom_length hn hblock (k + 1) (data.drop n), xorB_length, hblock,
    List.length_take, List.length_drop]
  omega
termination_by data.length
decreasing_by rw [List.length_drop]; omega

/-- Behind `a` of whole pieces the mask goes on with the piece after them. -/
theorem maskFrom_append {n : Nat} (hn : 0 < n) (block : Nat → Bytes) {a : Bytes} (ha : n ∣ a.length) (k : Nat)
    (b : Bytes) : maskFrom n block k (a ++ b) = maskFrom n block k a ++ maskFrom n block (k + a.length / n) b := by
  by_cases hnil : a = []
  · simp [hnil, maskFrom_nil]
  have hpos : 0 < a.length := List.length_pos_iff.2 hnil
  have hle : n ≤ a.length := Nat.le_of_dvd hpos ha
  have hrest : n ∣ (a.drop n).length := by rw [List.length_drop]; exact Nat.dvd_sub ha dvd_rfl
  have hquot : k + 1 + (a.drop n).length / n = k + a.length / n := by
    obtain ⟨q, hq⟩ := ha
    have hq1 : 1 ≤ q := Nat.pos_of_mul_pos_left (by omega : 0 < n * q)
    rw [List.length_drop, hq, ← Nat.mul_sub_one, Nat.mul_div_cancel_left _ hn, Nat.mul_div_cancel_left _ hn]
    omega
  rw [maskFrom_cons hn (data := a ++ b) (by simp [hnil]), maskFrom_cons hn hnil, List.take_append_of_le_length hle,
    List.drop_append_of_le_length hle, maskFrom_append hn block hrest (k + 1) b, hquot, List.append_assoc]
termination_by a.length
decreasing_by rw [List.length_drop]; omega

theorem drop_maskFrom_append {n : Nat} (hn : 0 < n) {block : Nat → Bytes} {a : Bytes}
    (hblock : a = [] ∨ ∀ i, (block i).length = n) (ha : n ∣ a.length) (k : Nat) (b : Bytes) :
    (maskFrom n block k (a ++ b)).drop a.length = maskFrom n block (k + a.length / n) b := by
  have hlen : (maskFrom n block k a).length = a.length := by
    rcases hblock with rfl | hblock
    · rfl
    · exact maskFrom_length hn hblock k a
  rw [maskFrom_append hn block ha, ← hlen, List.drop_left]

theorem maskFrom_shift (n : Nat) (block : Nat → Bytes) (j k : Nat) (data : Bytes) :
    maskFrom n (fun i => block (i + j)) k data = maskFrom n block (k + j) data := by
  unfold maskFrom
  generalize chunks n data = l
  induction l generalizing k with
  | nil => rfl
  | cons c l ih =>
    simp only [List.zipIdx_cons, List.map_cons, List.flatten_cons, ih (k + 1), Nat.add_right_comm k 1 j]

/-! ### Counter blocks of GCM (R136) -/

theorem ghash_length (h y data : Bytes) : (ghash h y data).length = 16 := by
  rw [ghash, bvBe, natBe_length]

theorem gcmJ0_length (key iv : Bytes) : (gcmJ0 key iv).length = 16 := by
  unfold gcmJ0
  split
  next h => simp [h]
  · exact ghash_length _ _ _

theorem ctrAdd32_length {b : Bytes} (hb : 12 ≤ b.length) (n : Nat) : (ctrAdd32 b n).length = 16 := by
  simp [ctrAdd32, hb]

theorem ctrAdd32_ctrAdd32 {b : Bytes} (hb : 12 ≤ b.length) (m n : Nat) :
    ctrAdd32 (ctrAdd32 b m) n = ctrAdd32 b (m + n) := by
  have htake : (b.take 12).length = 12 := by simp [hb]
  rw [ctrAdd32, ctrAdd32, ctrAdd32, List.take_append_of_le_length htake.ge, List.drop_append_of_le_length htake.ge,
    List.take_of_length_le htake.le, List.drop_of_length_le htake.le, List.nil_append, beNat_natBe,
    ← natBe_mod 4 (_ % _ + n), Nat.mod_add_mod, natBe_mod, Nat.add_assoc]

/-- GCM's mask by the number of the block. -/
def gcmBlock (key j0 : Bytes) (i : Nat) : Bytes := aesEncK (aesKeys key) (ctrAdd32 j0 (1 + i))

theorem gcmMask_eq {key j0 : Bytes} (hj : 12 ≤ j0.length) (done : Nat) (data : Bytes) :
    gcmMask key j0 done data = maskFrom 16 (gcmBlock key j0) (done / 16) data := by
  have hblock : (fun i => aesEncK (aesKeys key) (ctrAdd32 (ctrAdd32 j0 (1 + done / 16)) i)) =
      fun i => gcmBlock key j0 (i + done / 16) := by
    funext i
    rw [ctrAdd32_ctrAdd32 hj, gcmBlock, Nat.add_assoc, Nat.add_comm i]
  have hshift := maskFrom_shift 16 (gcmBlock key j0) (done / 16) 0 data
  rw [← hblock, Nat.zero_add] at hshift
  exact hshift

theorem aesKeys_length {key : Bytes} (hkey : AesKey key) : ∀ k ∈ aesKeys key, k.length = 16 := by
  rcases hkey with h | h | h <;> exact fun k hk => length_of_mem_aesKeys (by omega) (by omega) hk

theorem gcmBlock_length {key j0 : Bytes} (hkey : AesKey key) (hj : 12 ≤ j0.length) (i : Nat) :
    (gcmBlock key j0 i).length = 16 := aesEncK_length (aesKeys_length hkey) (ctrAdd32_length hj _)

theorem gcmMask_length {key j0 : Bytes} (hkey : AesKey key) (hj : 12 ≤ j0.length) (done : Nat) (data : Bytes) :
    (gcmMask key j0 done data).length = data.length := by
  rw [gcmMask_eq hj, maskFrom_length (by decide) (gcmBlock_length hkey hj)]

/-- Behind `m` the mask of GCM goes on where it stopped. -/
theorem drop_gcmMask {key j0 m : Bytes} (hkey : AesKey key) (hj : 12 ≤ j0.length) (hm : m.length % 16 = 0) (b : Bytes) :
    (gcmMask key j0 0 (m ++ b)).drop m.length = gcmMask key j0 m.length b := by
  rw [gcmMask_eq hj, gcmMask_eq hj, drop_maskFrom_append (by decide) (.inr (gcmBlock_length hkey hj))
    (Nat.dvd_of_mod_eq_zero hm), Nat.zero_div, Nat.zero_add]

theorem gcmMask_append {key j0 m : Bytes} (hj : 12 ≤ j0.length) (hm : m.length % 16 = 0) (b : Bytes) :
    gcmMask key j0 0 (m ++ b) = gcmMask key j0 0 m ++ gcmMask key j0 m.length b := by
  rw [gcmMask_eq hj, gcmMask_eq hj, gcmMask_eq hj, maskFrom_append (by decide) _ (Nat.dvd_of_mod_eq_zero hm),
    Nat.zero_div, Nat.zero_add]

/-! ### GHASH -/

theorem beBlock_bvBe (v : BitVec 128) : beBlock (bvBe 16 v) = v := by
  rw [beBlock, bvBe, beNat_natBe, Nat.mod_eq_of_lt (by have := v.isLt; omega), BitVec.ofNat_toNat, BitVec.setWidth_eq]

theorem ghash_append (h y : Bytes) {a : Bytes} (ha : a.length % 16 = 0) (b : Bytes) :
    ghash h y (a ++ b) = ghash h (ghash h y a) b := by
  rw [ghash, chunks_append (by decide) (Nat.dvd_of_mod_eq_zero ha), List.foldl_append, ghash, ghash, beBlock_bvBe]

theorem ghash_nil (h y data : Bytes) : ghash h (ghash h y data) [] = ghash h y data := by
  rw [ghash, ghash, beBlock_bvBe]
  rfl

theorem ghash_ne_nil (h y data : Bytes) : ghash h y data ≠ [] := List.length_pos_iff.1 (by rw [ghash_length]; decide)

/-! ### ChaCha20 and Poly1305 (R138) -/

theorem chachaQuarter_size (s : Array (BitVec 32)) (i j k l : Nat) : (chachaQuarter s i j k l).size = s.size := by
  simp [chachaQuarter]

theorem chachaRounds_size (n : Nat) (s : Array (BitVec 32)) : (chachaRounds n s).size = s.size := by
  induction n generalizing s with
  | zero => rfl
  | succ n ih => simp only [chachaRounds, ih, chachaDouble, chachaQuarter_size]

theorem chachaBlock_length {key nonce : Bytes} (hkey : key.length = 32) (hnonce : nonce.length = 12) (ctr : Nat) :
    (chachaBlock key ctr nonce).length = 64 := by
  have hin : (chunks 4 (ascii "expand 32-byte k" ++ key ++ natLe 4 ctr ++ nonce)).length = 16 :=
    chunksF_length (by decide) (by simp [ascii, hkey, hnonce]) (by simp [ascii, hkey, hnonce])
  unfold chachaBlock
  dsimp only
  rw [List.length_flatMap, List.map_congr_left fun _ _ => bvLe_length 4 _, List.map_const', List.sum_replicate]
  simp only [List.length_zipWith, Array.length_toList, chachaRounds_size, List.size_toArray, List.length_map, hin]
  rfl

/-- ChaCha20's mask by the number of the block. -/
theorem chachaMask_eq (key nonce : Bytes) (done : Nat) (data : Bytes) :
    chachaMask key nonce (1 + done / 64) data =
      maskFrom 64 (fun i => chachaBlock key (1 + i) nonce) (done / 64) data := by
  have hblock : (fun i => chachaBlock key (1 + done / 64 + i) nonce) =
      fun i => (fun i => chachaBlock key (1 + i) nonce) (i + done / 64) := by
    funext i
    dsimp only
    rw [Nat.add_assoc, Nat.add_comm i]
  have hshift := maskFrom_shift 64 (fun i => chachaBlock key (1 + i) nonce) (done / 64) 0 data
  rw [← hblock, Nat.zero_add] at hshift
  exact hshift

theorem chachaMask_one (key nonce data : Bytes) :
    chachaMask key nonce 1 data = maskFrom 64 (fun i => chachaBlock key (1 + i) nonce) 0 data := by
  have h := chachaMask_eq key nonce 0 data
  simpa using h

/-- Where blocks count (`m` is not empty) they are whole. -/
def ChachaWhole (key nonce m : Bytes) : Prop := m = [] ∨ key.length = 32 ∧ nonce.length = 12

theorem ChachaWhole.block {key nonce m : Bytes} (h : ChachaWhole key nonce m) :
    m = [] ∨ ∀ i, (chachaBlock key (1 + i) nonce).length = 64 := by
  rcases h with h | ⟨hkey, hnonce⟩
  · exact .inl h
  · exact .inr fun i => chachaBlock_length hkey hnonce _

theorem drop_chachaMask {key nonce m : Bytes} (h : ChachaWhole key nonce m) (hm : m.length % 64 = 0) (b : Bytes) :
    (chachaMask key nonce 1 (m ++ b)).drop m.length = chachaMask key nonce (1 + m.length / 64) b := by
  rw [chachaMask_one, chachaMask_eq, drop_maskFrom_append (by decide) h.block (Nat.dvd_of_mod_eq_zero hm), Nat.zero_add]

theorem chachaMask_append (key nonce : Bytes) {m : Bytes} (hm : m.length % 64 = 0) (b : Bytes) :
    chachaMask key nonce 1 (m ++ b) = chachaMask key nonce 1 m ++ chachaMask key nonce (1 + m.length / 64) b := by
  rw [chachaMask_one, chachaMask_one, chachaMask_eq, maskFrom_append (by decide) _ (Nat.dvd_of_mod_eq_zero hm),
    Nat.zero_add]

theorem chachaMask_length {key nonce m : Bytes} (h : ChachaWhole key nonce m) :
    (chachaMask key nonce 1 m).length = m.length := by
  rw [chachaMask_one]
  rcases h.block with rfl | hblock
  · rfl
  · exact maskFrom_length (by decide) hblock 0 m

/-- One step of Poly1305. -/
def polyStep (r a : Nat) (c : Bytes) : Nat := (a + leNat (fit c 16) + 2 ^ 128) * r % (2 ^ 130 - 5)

theorem polyFold_lt (r : Nat) (l : List Bytes) {a : Nat} (ha : a < 256 ^ 17) : l.foldl (polyStep r) a < 256 ^ 17 := by
  induction l generalizing a with
  | nil => exact ha
  | cons c l ih => exact ih ((Nat.mod_lt _ (by decide)).trans (by decide))

/-- The factor of Poly1305 (RFC 8439). -/
def polyR (otk : Bytes) : Nat := leNat (otk.take 16) &&& 0x0FFFFFFC0FFFFFFC0FFFFFFC0FFFFFFF

theorem polyBlocks_eq (otk st data : Bytes) :
    polyBlocks otk st data = natLe 17 ((chunks 16 data).foldl (polyStep (polyR otk)) (leNat st)) := rfl

theorem leNat_lt (b : Bytes) : leNat b < 256 ^ b.length := by
  induction b with
  | nil => simp [leNat]
  | cons x b ih =>
    have hx := x.isLt
    rw [leNat, List.length_cons, Nat.pow_succ]
    omega

theorem polyBlocks_append (otk : Bytes) {st a : Bytes} (hst : st.length = 17) (ha : a.length % 16 = 0) (b : Bytes) :
    polyBlocks otk st (a ++ b) = polyBlocks otk (polyBlocks otk st a) b := by
  have hlt := polyFold_lt (polyR otk) (chunks 16 a) (hst ▸ leNat_lt st)
  rw [polyBlocks_eq, chunks_append (by decide) (Nat.dvd_of_mod_eq_zero ha), List.foldl_append, polyBlocks_eq,
    polyBlocks_eq, leNat_natLe, Nat.mod_eq_of_lt hlt]

theorem polyBlocks_length (otk st data : Bytes) : (polyBlocks otk st data).length = 17 := natLe_length 17 _

/-- The sum goes on behind `m`. -/
theorem chachaSum_append {key nonce a m : Bytes} (h : ChachaWhole key nonce m) (hm : m.length % 64 = 0) (b : Bytes) :
    chachaSum key nonce a (m ++ b) =
      polyBlocks (polyOtk key nonce) (chachaSum key nonce a m) (chachaMask key nonce (1 + m.length / 64) b) := by
  rw [chachaSum, chachaMask_append key nonce hm,
    polyBlocks_append _ (polyBlocks_length _ _ _) (by rw [chachaMask_length h]; omega), chachaSum]

theorem chachaSum_ne_nil (key nonce a m : Bytes) : chachaSum key nonce a m ≠ [] :=
  List.length_pos_iff.1 (by rw [chachaSum, polyBlocks_length]; decide)

end Sys2Proof.Machine
end

section
/-! SUPPORT. The ciphers of the bulk cell: the theorems that settle O19 and O20. -/

namespace Sys2Proof.Machine

/-! ## CBC, XTS and CTR (R139 to R141) -/

theorem cbcDecCell_of_pad {j : Job} {k : Ctx} {p : Bytes} (hpad : dPad j.desc = true)
    (hp : cbcDec (aesKeys j.keyMat) (cbcIv k) (chunks 16 j.got) = p) :
    (∀ n, pkcs7Len (p.drop (p.length - 16)) = some n →
      ∃ cyc next, cbcDecCell j k = { output := p.take (p.length - n), opInfo := n, cycles := cyc, ctx := next }) ∧
    (pkcs7Len (p.drop (p.length - 16)) = none →
      ∃ cyc next, cbcDecCell j k =
        { status := stRange, detail := 0x80, output := p.take (p.length - 16), cycles := cyc, ctx := next }) := by
  constructor <;> intros <;> unfold cbcDecCell <;> simp_all

theorem cbcDecCell_of_no_pad {j : Job} {k : Ctx} (hpad : dPad j.desc = false) :
    ∃ cyc next, cbcDecCell j k =
      { output := cbcDec (aesKeys j.keyMat) (cbcIv k) (chunks 16 j.got), cycles := cyc, ctx := next } := by
  unfold cbcDecCell
  dsimp only
  rw [hpad]
  exact ⟨_, _, rfl⟩

/-- Settles O19: each report is the cipher of its mode. -/
theorem ciphers : Obligations.Ciphers := by
  refine ⟨fun id s hs hr => ?_, fun id s hs hr hpad => ?_, fun id p s hs hr hpad hp => ?_, fun id s hs hr => ?_,
    fun id s hs hr => ?_, fun id s hs hr hleft => ?_⟩
  · refine completes_ofCell (o := .aesCbcEnc) (f := cbcEncCell) rfl hr ?_
    obtain ⟨hdec, -, -, hoth⟩ := finishCell_decided hs id (cbcEncCell (s.job id) (StreamBefore s id .aesCbcEnc))
    exact ⟨hdec, hoth⟩
  · refine completes_ofCell (o := .aesCbcDec) (f := cbcDecCell) rfl hr ?_
    obtain ⟨cyc, next, hcell⟩ := cbcDecCell_of_no_pad (k := StreamBefore s id .aesCbcDec) hpad
    obtain ⟨hdec, hinfo, -, hoth⟩ := finishCell_decided hs id (cbcDecCell (s.job id) (StreamBefore s id .aesCbcDec))
    rw [hcell] at hdec hinfo hoth ⊢
    exact ⟨hdec, hinfo, hoth⟩
  · refine completes_ofCell (o := .aesCbcDec) (f := cbcDecCell) rfl hr ?_
    obtain ⟨hgood, hbad⟩ := cbcDecCell_of_pad hpad hp
    obtain ⟨hdec, hinfo, -, hoth⟩ := finishCell_decided hs id (cbcDecCell (s.job id) (StreamBefore s id .aesCbcDec))
    refine ⟨?_, hoth⟩
    split
    next n hn =>
      obtain ⟨cyc, next, hcell⟩ := hgood n hn
      rw [hcell] at hdec hinfo ⊢
      exact ⟨hdec, hinfo⟩
    next hn =>
      obtain ⟨cyc, next, hcell⟩ := hbad hn
      rw [hcell] at hdec hinfo ⊢
      exact ⟨hdec, hinfo⟩
  · refine completes_ofCell (o := .aesXtsEnc) (f := xtsCell true) rfl hr ?_
    obtain ⟨hdec, -, -, hoth⟩ := finishCell_decided hs id (xtsCell true (s.job id) (StreamBefore s id .aesXtsEnc))
    exact ⟨hdec, hoth⟩
  · refine completes_ofCell (o := .aesXtsDec) (f := xtsCell false) rfl hr ?_
    obtain ⟨hdec, -, -, hoth⟩ := finishCell_decided hs id (xtsCell false (s.job id) (StreamBefore s id .aesXtsDec))
    exact ⟨hdec, hoth⟩
  · refine completes_ofCell (o := .aesCtr) (f := ctrCell) rfl hr ?_
    obtain ⟨k, ht, hk⟩ := finishCell_setsJob hs id (ctrCell (s.job id) (StreamBefore s id .aesCtr))
    simp only [ht.job]
    refine ⟨hk.stage, hk.status, hk.refs, fun hl => ?_, fun hl => ?_, ht.others⟩ <;>
      rcases hk.key with ⟨hl', hkey⟩ | ⟨hl', hkey⟩
    · exact hkey
    · rw [hl', hleft] at hl; cases hl
    · rw [hl'] at hl; cases hl
    · exact hkey

/-! ## Authenticated encryption (R134 to R138, R142) -/

section

variable {j : Job} {k : Ctx} {x b : Bytes}

theorem srcAad_of_brings (h : Brings j k x b) : srcAad j = x := by
  obtain ⟨hgot, hx, -, -⟩ := h
  rw [srcAad, hgot, ← hx, List.take_left]

theorem srcMsg_of_brings (h : Brings j k x b) : srcMsg j = b := by
  obtain ⟨hgot, hx, hb, -⟩ := h
  rw [srcMsg, slice, hgot, ← hx, List.drop_left, ← hb, List.take_length]

/-! ### AES-GCM -/

theorem gcmHash_append (key y : Bytes) {a : Bytes} (ha : a.length % 16 = 0) (b : Bytes) :
    gcmHash key y (a ++ b) = gcmHash key (gcmHash key y a) b := by
  rw [gcmHash, ghash_append _ _ ha, gcmHash, gcmHash]

theorem gcmAad_append (key : Bytes) {a : Bytes} (ha : a.length % 16 = 0) (b : Bytes) :
    gcmAad key (a ++ b) = gcmHash key (gcmAad key a) b := by
  rw [gcmAad, ghash_append _ _ ha, gcmHash, gcmAad]

theorem gcmHash_ne_nil (key y data : Bytes) : gcmHash key y data ≠ [] := ghash_ne_nil _ _ _

theorem isEmpty_of_ne_nil {b : Bytes} (h : b ≠ []) : ¬ b.isEmpty = true := by simpa using h

/-- The sum after the job: over all additional data and all ciphertext. -/
theorem gcmTook_sum {key n a m : Bytes} (htook : GcmTook key n a m k) (hb : Brings j k x b) (hkey : AesKey key) :
    gcmHash key (if k.chain.isEmpty then gcmAad key (srcAad j) else k.chain)
      (gcmMask key (gcmJ0 key n) k.done (srcMsg j)) =
      gcmHash key (gcmAad key (a ++ x)) (gcmEnc key n (a ++ x) (m ++ b)).1 := by
  have hj : 12 ≤ (gcmJ0 key n).length := by rw [gcmJ0_length]; decide
  obtain ⟨-, hdone, hm, ⟨hchain, rfl, rfl⟩ | hchain⟩ := htook
  · rw [hchain, srcAad_of_brings hb, srcMsg_of_brings hb, hdone]
    rfl
  · have hne : k.chain ≠ [] := hchain ▸ gcmHash_ne_nil _ _ _
    obtain ⟨-, -, -, rfl | hnil⟩ := id hb
    · rw [if_neg (isEmpty_of_ne_nil hne), srcMsg_of_brings hb, hchain, hdone, gcmEnc, gcmEnc, List.append_nil,
        gcmMask_append hj hm, gcmHash_append _ _ (by rwa [gcmMask_length hkey hj])]
    · exact absurd hnil hne

theorem gcmEncCell_eq {n a m : Bytes} (hn : k.nonce = n) (htook : GcmTook j.keyMat n a m k) (hb : Brings j k x b)
    (hkey : AesKey j.keyMat) :
    ∃ cyc, gcmEncCell j k =
      { output := (gcmEnc j.keyMat n (a ++ x) (m ++ b)).1.drop m.length ++
          (if dFinal .aesGcmEnc j.desc then (gcmEnc j.keyMat n (a ++ x) (m ++ b)).2.take (dT j.desc) else [])
        cycles := cyc
        ctx := some { k with chain := gcmHash j.keyMat (gcmAad j.keyMat (a ++ x)) (gcmEnc j.keyMat n (a ++ x) (m ++ b)).1
                             aad := (a ++ x).length, done := (m ++ b).length } } := by
  have hj : 12 ≤ (gcmJ0 j.keyMat n).length := by rw [gcmJ0_length]; decide
  have hsum := gcmTook_sum htook hb hkey
  have hct : gcmMask j.keyMat (gcmJ0 j.keyMat n) k.done (srcMsg j) =
      (gcmEnc j.keyMat n (a ++ x) (m ++ b)).1.drop m.length := by
    rw [gcmEnc, drop_gcmMask hkey hj htook.2.2.1, htook.2.1, srcMsg_of_brings hb]
  have haad : k.aad + dAad j.desc = (a ++ x).length := by rw [List.length_append, htook.1, hb.2.1]
  have hdone : k.done + dMsg j.desc = (m ++ b).length := by rw [List.length_append, htook.2.1, hb.2.2.1]
  have htag : (gcmEnc j.keyMat n (a ++ x) (m ++ b)).2 = gcmTag j.keyMat (gcmJ0 j.keyMat n)
      (gcmHash j.keyMat (gcmAad j.keyMat (a ++ x)) (gcmEnc j.keyMat n (a ++ x) (m ++ b)).1) (a ++ x).length
      (m ++ b).length := by
    rw [gcmEnc, gcmMask_length hkey hj]
  unfold gcmEncCell
  dsimp only
  rw [hn, hsum, hct, haad, hdone, htag]
  exact ⟨_, rfl⟩

/-! ### ChaCha20-Poly1305 -/

theorem chachaTook_sum {key n a m : Bytes} (htook : ChachaTook key n a m k) (hb : Brings j k x b)
    (hw : ChachaWhole key n m) :
    polyBlocks (polyOtk key n) (if k.chain.isEmpty then polyBlocks (polyOtk key n) (zeros 17) (srcAad j) else k.chain)
      (chachaMask key n (1 + k.done / 64) (srcMsg j)) = chachaSum key n (a ++ x) (m ++ b) := by
  obtain ⟨-, hdone, hm, ⟨hchain, rfl, rfl⟩ | hchain⟩ := htook
  · rw [hchain, srcAad_of_brings hb, srcMsg_of_brings hb, hdone]
    rfl
  · have hne : k.chain ≠ [] := hchain ▸ chachaSum_ne_nil _ _ _ _
    obtain ⟨-, -, -, rfl | hnil⟩ := id hb
    · rw [if_neg (isEmpty_of_ne_nil hne), srcMsg_of_brings hb, hchain, hdone, List.append_nil, chachaSum_append hw hm]
    · exact absurd hnil hne

theorem chachaEncCell_eq {n a m : Bytes} (hn : k.nonce = n) (htook : ChachaTook j.keyMat n a m k) (hb : Brings j k x b)
    (hw : ChachaWhole j.keyMat n m) :
    ∃ cyc, chachaEncCell j k =
      { output := (chachaMask j.keyMat n 1 (m ++ b)).drop m.length ++
          (if dFinal .chachaPolyEnc j.desc then (polyTag (polyOtk j.keyMat n) (chachaSum j.keyMat n (a ++ x) (m ++ b))
            (a ++ x).length (m ++ b).length).take (dT j.desc) else [])
        cycles := cyc
        ctx := some { k with chain := chachaSum j.keyMat n (a ++ x) (m ++ b)
                             aad := (a ++ x).length, done := (m ++ b).length } } := by
  have hsum := chachaTook_sum htook hb hw
  have hct : chachaMask j.keyMat n (1 + k.done / 64) (srcMsg j) =
      (chachaMask j.keyMat n 1 (m ++ b)).drop m.length := by
    rw [drop_chachaMask hw htook.2.2.1, htook.2.1, srcMsg_of_brings hb]
  have haad : k.aad + dAad j.desc = (a ++ x).length := by rw [List.length_append, htook.1, hb.2.1]
  have hdone : k.done + dMsg j.desc = (m ++ b).length := by rw [List.length_append, htook.2.1, hb.2.2.1]
  unfold chachaEncCell
  dsimp only
  rw [hn, hsum, hct, haad, hdone]
  exact ⟨_, rfl⟩

/-! ### AES_GMAC -/

theorem gmacTook_sum {key m : Bytes} (htook : GmacTook key m k) (b : Bytes) :
    gcmHash key (if k.chain.isEmpty then zeros 16 else k.chain) b = gcmAad key (m ++ b) := by
  obtain ⟨-, hm, ⟨hchain, rfl⟩ | hchain⟩ := htook
  · rw [hchain]
    rfl
  · have hne : k.chain ≠ [] := hchain ▸ ghash_ne_nil _ _ _
    rw [if_neg (isEmpty_of_ne_nil hne), hchain, gcmAad_append _ hm]

/-- The tag of a message that is empty. -/
theorem gcmEnc_nil_tag (key iv aad : Bytes) :
    (gcmEnc key iv aad []).2 = gcmTag key (gcmJ0 key iv) (gcmAad key aad) aad.length 0 := by
  have hnil : gcmHash key (gcmAad key aad) [] = gcmAad key aad := ghash_nil _ _ _
  have h : (gcmEnc key iv aad []).2 = gcmTag key (gcmJ0 key iv) (gcmHash key (gcmAad key aad) []) aad.length 0 := rfl
  rw [h, hnil]

/-- What the GMAC cell leaves the stream. -/
def gmacNext (key : Bytes) (k : Ctx) (m : Bytes) : Ctx := { k with chain := gcmAad key m, done := m.length }

theorem gmacCell_of_not_final {m tail : Bytes} (htook : GmacTook j.keyMat m k) (hgot : j.got = b ++ tail)
    (hlen : b.length = dMsg j.desc) (hfin : dFinal .aesGmac j.desc = false) :
    ∃ cyc, gmacCell j k = { cycles := cyc, ctx := some (gmacNext j.keyMat k (m ++ b)) } := by
  have hdone : k.done + dMsg j.desc = (m ++ b).length := by rw [List.length_append, htook.1, hlen]
  unfold gmacCell
  dsimp only
  rw [hfin, hdone, hgot, ← hlen, List.take_left, gmacTook_sum htook]
  exact ⟨_, rfl⟩

theorem gmacCell_of_final {m tail : Bytes} (htook : GmacTook j.keyMat m k) (hgot : j.got = b ++ tail)
    (hlen : b.length = dMsg j.desc) (hfin : dFinal .aesGmac j.desc = true) :
    ∃ cyc next, gmacCell j k = if dVerify j.desc then
        { status := if (gcmEnc j.keyMat k.nonce (m ++ b) []).2.take (dT j.desc) = tail.take (dT j.desc) then stOk
            else stAuthFail, cycles := cyc, ctx := next }
      else { output := (gcmEnc j.keyMat k.nonce (m ++ b) []).2.take (dT j.desc), cycles := cyc, ctx := next } := by
  have hdone : k.done + dMsg j.desc = (m ++ b).length := by rw [List.length_append, htook.1, hlen]
  have htail : slice j.got (dMsg j.desc) (dT j.desc) = tail.take (dT j.desc) := by
    rw [slice, hgot, ← hlen, List.drop_left]
  refine ⟨blocks 4 16 (dMsg j.desc), some (gmacNext j.keyMat k (m ++ b)), ?_⟩
  unfold gmacCell
  dsimp only
  rw [hfin, hdone, htail, hgot, gcmEnc_nil_tag, ← hlen, List.take_left, gmacTook_sum htook]
  simp [gmacNext]

end

/-- A stream that does not end here has a context. -/
theorem dStream_of_not_final {o : Op} {d : Bytes} (h : dFinal o d = false) : dStream o d = true := by
  simp only [dFinal, Bool.or_eq_false_iff, Bool.not_eq_false'] at h
  simp [dStream, h]

theorem streamBefore_of_not_final {s : State} {id : Nat} {o : Op} (h : dFinal o (s.job id).desc = false) :
    CtxOf s (s.job id) = StreamBefore s id o := (streamOf_of_dStream s (dStream_of_not_final h)).symm

/-- Settles O20: sums and masks go on where the stream stopped. -/
theorem encryptions : Obligations.Encryptions := by
  refine ⟨fun id n a m x b s hs hr hfin hn htook hb hblock hold hkey => ?_,
    fun id n a m x b s hs hr hfin hn htook hb hkey => ?_,
    fun id n a m x b s hs hr hfin hn htook hb hblock hold hw => ?_,
    fun id n a m x b s hs hr hfin hn htook hb hw => ?_,
    fun id a m s hs hr hgot ha hm => ?_,
    fun id m b s hs hr hfin htook hgot hlen hblock hold => ?_,
    fun id m b s hs hr hfin hver htook hgot hlen => ?_,
    fun id m b tag s hs hr hfin hver htook hgot hlen htag => ?_⟩
  · refine completes_ofCell (o := .aesGcmEnc) (f := gcmEncCell) rfl hr ?_
    obtain ⟨cyc, hcell⟩ := gcmEncCell_eq hn htook hb hkey
    rw [hfin, if_neg (by decide), List.append_nil] at hcell
    obtain ⟨hdec, -, -, hoth⟩ := finishCell_decided hs id (gcmEncCell (s.job id) (StreamBefore s id .aesGcmEnc))
    obtain ⟨hchain, hdone, haad, hnonce⟩ := finishCell_stream hs id
      (r := gcmEncCell (s.job id) (StreamBefore s id .aesGcmEnc)) (by rw [hcell]) hold
    refine ⟨by rwa [hcell] at hdec ⊢, ⟨haad, hdone, ?_, .inr hchain⟩, ?_, hoth⟩
    · rw [List.length_append]
      have := htook.2.2.1
      omega
    · rw [hnonce, streamBefore_of_not_final hfin, hn]
  · refine completes_ofCell (o := .aesGcmEnc) (f := gcmEncCell) rfl hr ?_
    obtain ⟨cyc, hcell⟩ := gcmEncCell_eq hn htook hb hkey
    rw [if_pos hfin] at hcell
    obtain ⟨hdec, -, -, hoth⟩ := finishCell_decided hs id (gcmEncCell (s.job id) (StreamBefore s id .aesGcmEnc))
    exact ⟨by rwa [hcell] at hdec ⊢, hoth⟩
  · refine completes_ofCell (o := .chachaPolyEnc) (f := chachaEncCell) rfl hr ?_
    obtain ⟨cyc, hcell⟩ := chachaEncCell_eq hn htook hb hw
    rw [hfin, if_neg (by decide), List.append_nil] at hcell
    obtain ⟨hdec, -, -, hoth⟩ := finishCell_decided hs id (chachaEncCell (s.job id) (StreamBefore s id .chachaPolyEnc))
    obtain ⟨hchain, hdone, haad, hnonce⟩ := finishCell_stream hs id
      (r := chachaEncCell (s.job id) (StreamBefore s id .chachaPolyEnc)) (by rw [hcell]) hold
    refine ⟨by rwa [hcell] at hdec ⊢, ⟨haad, hdone, ?_, .inr hchain⟩, ?_, hoth⟩
    · rw [List.length_append]
      have := htook.2.2.1
      omega
    · rw [hnonce, streamBefore_of_not_final hfin, hn]
  · refine completes_ofCell (o := .chachaPolyEnc) (f := chachaEncCell) rfl hr ?_
    obtain ⟨cyc, hcell⟩ := chachaEncCell_eq hn htook hb hw
    rw [if_pos hfin] at hcell
    obtain ⟨hdec, -, -, hoth⟩ := finishCell_decided hs id (chachaEncCell (s.job id) (StreamBefore s id .chachaPolyEnc))
    exact ⟨by rwa [hcell] at hdec ⊢, hoth⟩
  · refine completes_ofCell (o := .aesCcmEnc) (f := ccmEncCell) rfl hr ?_
    have hbrings : Brings (s.job id) { StreamBefore s id .aesCcmEnc with chain := [] } a m := ⟨hgot, ha, hm, .inr rfl⟩
    obtain ⟨hdec, -, -, hoth⟩ := finishCell_decided hs id (ccmEncCell (s.job id) (StreamBefore s id .aesCcmEnc))
    rw [← srcAad_of_brings hbrings, ← srcMsg_of_brings hbrings]
    exact ⟨hdec, hoth⟩
  · refine completes_ofCell (o := .aesGmac) (f := gmacCell) rfl hr ?_
    obtain ⟨cyc, hcell⟩ := gmacCell_of_not_final htook (hgot.trans (List.append_nil b).symm) hlen hfin
    obtain ⟨hdec, -, -, hoth⟩ := finishCell_decided hs id (gmacCell (s.job id) (StreamBefore s id .aesGmac))
    obtain ⟨hchain, hdone, -, hnonce⟩ := finishCell_stream hs id
      (r := gmacCell (s.job id) (StreamBefore s id .aesGmac)) (by rw [hcell]) hold
    refine ⟨by rwa [hcell] at hdec ⊢, ⟨hdone, ?_, .inr hchain⟩, ?_, hoth⟩
    · rw [List.length_append]
      have := htook.2.1
      omega
    · rw [hnonce, streamBefore_of_not_final hfin]
  · refine completes_ofCell (o := .aesGmac) (f := gmacCell) rfl hr ?_
    obtain ⟨cyc, next, hcell⟩ := gmacCell_of_final htook (hgot.trans (List.append_nil b).symm) hlen hfin
    rw [hver, if_neg (by decide)] at hcell
    obtain ⟨hdec, -, -, hoth⟩ := finishCell_decided hs id (gmacCell (s.job id) (StreamBefore s id .aesGmac))
    exact ⟨by rwa [hcell] at hdec ⊢, hoth⟩
  · refine completes_ofCell (o := .aesGmac) (f := gmacCell) rfl hr ?_
    obtain ⟨cyc, next, hcell⟩ := gmacCell_of_final htook hgot hlen hfin
    rw [if_pos hver, ← htag, List.take_length] at hcell
    obtain ⟨hdec, -, -, hoth⟩ := finishCell_decided hs id (gmacCell (s.job id) (StreamBefore s id .aesGmac))
    exact ⟨by rwa [hcell] at hdec ⊢, hoth⟩

end Sys2Proof.Machine
end

section
/-! SUPPORT. Decryption in one pass and in two (R149 to R153), and the record and packet helpers (R154 to R157): the
theorems that settle O21 and O22. -/

namespace Sys2Proof.Machine

/-! ## Reads of a job -/

section

variable {id : Nat} {j : Job} {s u : State}

/-- The job waits for what the requests asked for. -/
def Job.waitsFor (j : Job) (o : List Nat) : Job := { j with open_ := o }

theorem SetsJob.jobRead (h : SetsJob id j s u) (a n : Nat) (mk : Nat → Purpose) (b : Bool) (code : BitVec 8) :
    ∃ o, SetsJob id (j.waitsFor o) s (jobRead u id a n mk b code).2 := by
  unfold Machine.jobRead
  split
  · exact ⟨j.open_, h⟩
  split
  next l _ _ =>
    exact ⟨j.open_ ++ l.map Req.off, (h.modJob fun x => x.waitsFor (x.open_ ++ l.map Req.off)).keeps
      (issueReads_keeps _ l) rfl⟩
  · exact ⟨j.open_, h⟩

theorem SetsJob.readSegs (h : SetsJob id j s u) (l : List Seg) (n : Nat) :
    ∃ o, SetsJob id (j.waitsFor o) s (readSegs id l n u).2 := by
  induction l generalizing n u j with
  | nil => exact ⟨j.open_, h⟩
  | cons g l ih =>
    obtain ⟨o, ho⟩ := h.jobRead g.addr.toNat g.len (fun o => .source id (n + o)) g.noSnoop 0x01
    rw [Machine.readSegs]
    generalize hr : Machine.jobRead u id g.addr.toNat g.len (fun o => .source id (n + o)) g.noSnoop 0x01 = r at ho
    obtain ⟨d, v⟩ := r
    cases d with
    | none => exact ih ho _
    | some d => exact ⟨o, ho⟩

/-- A job whose source is read waits for it, or has ended with a DMA error. -/
theorem SetsJob.readSource (h : SetsJob id j s u) :
    ∃ k, SetsJob id k s (readSource u id) ∧ k.pass2 = j.pass2 ∧ k.twoPass = j.twoPass ∧
      (k.stage = .cellDone ∧ k.status = stDma ∨ k.stage = j.stage ∧ k.pass1Tag = j.pass1Tag) := by
  unfold Machine.readSource
  have h0 := h.modJob fun x => { x with parts := [], hostParts := [], got := [], open_ := [], gather := .src }
  generalize u.modJob id _ = v at h0
  dsimp only
  obtain ⟨o, ho⟩ := h0.readSegs (v.job id).srcSegs 0
  generalize Machine.readSegs id (v.job id).srcSegs 0 v = r at ho
  obtain ⟨d, w⟩ := r
  cases d with
  | some d =>
    obtain ⟨b, n, hd⟩ := SetsJob.decide7 ho stDma d
    exact ⟨_, (hd.modJob fun x => { x with output := [] }).leaveCell, rfl, rfl, .inl ⟨rfl, rfl⟩⟩
  | none =>
    dsimp only
    split
    · exact ⟨_, SetsJob.modJob ho fun x => { x with gather := .done }, rfl, rfl, .inr ⟨rfl, rfl⟩⟩
    · exact ⟨_, ho, rfl, rfl, .inr ⟨rfl, rfl⟩⟩

end

/-! ## One pass and two -/

section

variable {o : Op} {f : State → Job → Opened} {head : State → Job → Option CellOut} {post : Job → Bytes → CellOut}
  {id : Nat} {s : State}

theorem runDec_of_head {r : CellOut} (hr : s.ready id o = true) (hh : head s (s.job id) = some r) :
    runDec o f head post id s = finishCell s id r := by
  simp [runDec, hr, hh]

/-- The second pass gives the tag of the first. -/
theorem runDec_of_pass2 (hr : s.ready id o = true) (hh : head s (s.job id) = none) (hp : (s.job id).pass2 = true)
    (ht : (f s (s.job id)).tag = (s.job id).pass1Tag) :
    runDec o f head post id s =
      finishCell s id { output := (f s (s.job id)).plain, cycles := (f s (s.job id)).cycles } := by
  simp [runDec, hr, hh, hp, ht]

/-- The second pass gives another tag than the first. -/
theorem runDec_of_bad_pass2 (hr : s.ready id o = true) (hh : head s (s.job id) = none) (hp : (s.job id).pass2 = true)
    (ht : (f s (s.job id)).tag ≠ (s.job id).pass1Tag) :
    runDec o f head post id s = finishCell s id { status := stAuthFail, opInfo := 2, output := (f s (s.job id)).plain
                                                  cycles := (f s (s.job id)).cycles } := by
  simp [runDec, hr, hh, hp, ht]

/-- The first pass finds another tag than the one received. -/
theorem runDec_of_bad_tag (hr : s.ready id o = true) (hh : head s (s.job id) = none) (hp : (s.job id).pass2 = false)
    (ht : (f s (s.job id)).tag ≠ (f s (s.job id)).want) :
    runDec o f head post id s =
      (finishCell s id { status := stAuthFail, opInfo := 1, cycles := (f s (s.job id)).cycles }).modJob id fun j =>
        { j with twoPass := decide (262144 < dOut o (s.job id).desc) } := by
  simp [runDec, hr, hh, hp, ht]

/-- What a first pass keeps for the second. -/
def Job.passed (j : Job) (r : Opened) : Job :=
  { j with twoPass := true, pass2 := true, pass1Tag := r.tag, cycles := j.cycles + r.cycles }

theorem runDec_of_two (hr : s.ready id o = true) (hh : head s (s.job id) = none) (hp : (s.job id).pass2 = false)
    (ht : (f s (s.job id)).tag = (f s (s.job id)).want) (hn : 262144 < dOut o (s.job id).desc) :
    runDec o f head post id s = readSource (s.modJob id fun j => j.passed (f s (s.job id))) id := by
  simp [runDec, hr, hh, hp, ht, hn, Job.passed]

theorem runDec_of_one (hr : s.ready id o = true) (hh : head s (s.job id) = none) (hp : (s.job id).pass2 = false)
    (ht : (f s (s.job id)).tag = (f s (s.job id)).want) (hn : dOut o (s.job id).desc ≤ 262144) :
    runDec o f head post id s = finishCell s id
      { post (s.job id) (f s (s.job id)).plain with cycles := (f s (s.job id)).cycles } := by
  simp [runDec, hr, hh, hp, ht, hn]

/-- A tag that differs leaves nothing. -/
theorem runDec_bad_tag_decided (hs : s.Inv) (hr : s.ready id o = true) (hh : head s (s.job id) = none)
    (hp : (s.job id).pass2 = false) (ht : (f s (s.job id)).tag ≠ (f s (s.job id)).want) :
    Decided (runDec o f head post id s) id stAuthFail 0 [] ∧ ((runDec o f head post id s).job id).opInfo = 1 ∧
      ((runDec o f head post id s).job id).twoPass = decide (262144 < dOut o (s.job id).desc) ∧
      OtherJobs id s (runDec o f head post id s) := by
  obtain ⟨k, h, hk⟩ := finishCell_setsJob hs id
    { status := stAuthFail, opInfo := 1, cycles := (f s (s.job id)).cycles }
  have ht := h.modJob fun x => { x with twoPass := decide (262144 < dOut o (s.job id).desc) }
  rw [runDec_of_bad_tag hr hh hp ‹_›]
  simp only [Decided, ht.job]
  exact ⟨⟨hk.stage, hk.status, hk.detail, hk.output⟩, hk.opInfo, trivial, ht.others⟩

end

/-- A decryption without a header and without a trailer. -/
theorem opensAs_of {c : Nat → Instr} {o : Op} {f : State → Job → Opened}
    (he : ∀ id s, exec (c id) s = .next (runDec o f noHead plainOut id s)) : OpensAs c o f := by
  refine ⟨fun id s hs hr hn hp => ?_, fun id s hs hr hn hp ht => ?_, fun id s hs hr hn hp ht => ?_,
    fun id s hs hr hp => ?_⟩
  · refine .ofNext (he id s) ?_
    by_cases ht : (f s (s.job id)).tag = (f s (s.job id)).want
    · simp only [if_pos ht]
      rw [runDec_of_one hr rfl hp ht hn]
      obtain ⟨hdec, hinfo, -, hoth⟩ := finishCell_decided hs id
        { plainOut (s.job id) (f s (s.job id)).plain with cycles := (f s (s.job id)).cycles }
      exact ⟨⟨hdec, hinfo⟩, hoth⟩
    · simp only [if_neg ht]
      obtain ⟨hdec, hinfo, -, hoth⟩ := runDec_bad_tag_decided (head := noHead) (post := plainOut) hs hr rfl hp ht
      exact ⟨⟨hdec, hinfo⟩, hoth⟩
  · refine .ofNext (he id s) ?_
    obtain ⟨hdec, hinfo, htwo, hoth⟩ := runDec_bad_tag_decided (head := noHead) (post := plainOut) hs hr rfl hp ht
    exact ⟨hdec, hinfo, by rw [htwo, decide_eq_true hn], hoth⟩
  · refine .ofNext (he id s) ?_
    have hstage : (s.job id).stage = .run := by
      simp only [State.ready, Bool.and_eq_true] at hr
      exact stage_of_runs hr.1.1.1.1
    obtain ⟨k, h, hpass, htwo, hend⟩ :=
      ((SetsJob.refl (id := id) hs).modJob fun j => j.passed (f s (s.job id))).readSource
    rw [runDec_of_two hr rfl hp ht hn]
    simp only [h.job]
    refine ⟨hpass, htwo, ?_, h.others⟩
    rcases hend with ⟨hst, hcode⟩ | ⟨hst, htag⟩
    · exact .inl ⟨hst, by rw [hcode]; decide⟩
    · exact .inr ⟨hst.trans hstage, htag⟩
  · refine .ofNext (he id s) ?_
    by_cases ht : (f s (s.job id)).tag = (s.job id).pass1Tag
    · simp only [if_pos ht]
      rw [runDec_of_pass2 hr rfl hp ht]
      obtain ⟨hdec, hinfo, -, hoth⟩ := finishCell_decided hs id
        { output := (f s (s.job id)).plain, cycles := (f s (s.job id)).cycles }
      exact ⟨⟨hdec, hinfo⟩, hoth⟩
    · simp only [if_neg ht]
      rw [runDec_of_bad_pass2 hr rfl hp ht]
      obtain ⟨⟨hst, hcode, -, -⟩, hinfo, -, hoth⟩ := finishCell_decided hs id
        { status := stAuthFail, opInfo := 2, output := (f s (s.job id)).plain, cycles := (f s (s.job id)).cycles }
      exact ⟨⟨hst, hcode, hinfo⟩, hoth⟩

/-- Settles O21: the three ciphers go through one operation. -/
theorem decryptions : Obligations.Decryptions :=
  ⟨opensAs_of fun _ _ => rfl, opensAs_of fun _ _ => rfl, opensAs_of fun _ _ => rfl⟩

/-! ## TLS 1.3 records and ESP packets (R154 to R157) -/

theorem zeros_length (n : Nat) : (zeros n).length = n := List.length_replicate

theorem allZero_iff (b : Bytes) : allZero b = true ↔ ∀ x ∈ b, x = 0 := by simp [allZero]

/-- The zeros at the end of a string. -/
def tailZeros (p : Bytes) : Nat := (p.reverse.takeWhile (· == 0)).length

/-- The string is what stands before its last zeros, and those. -/
theorem exists_eq_append_zeros (p : Bytes) :
    ∃ r, p = r ++ zeros (tailZeros p) ∧ (r = [] ∨ ∃ q x, r = q ++ [x] ∧ x ≠ 0) := by
  have hzeros : (p.reverse.takeWhile (· == 0)).reverse = zeros (tailZeros p) := by
    refine List.eq_replicate_iff.2 ⟨by rw [List.length_reverse, tailZeros], fun x hx => ?_⟩
    have := List.mem_takeWhile_imp (List.mem_reverse.1 hx)
    simpa using this
  refine ⟨(p.reverse.dropWhile (· == 0)).reverse, ?_, ?_⟩
  · rw [← hzeros, ← List.reverse_append, List.takeWhile_append_dropWhile, List.reverse_reverse]
  · rcases hd : p.reverse.dropWhile (· == 0) with _ | ⟨x, q⟩
    · exact .inl rfl
    · refine .inr ⟨q.reverse, x, by simp, ?_⟩
      have hne : p.reverse.dropWhile (· == 0) ≠ [] := by rw [hd]; exact List.cons_ne_nil _ _
      have hhead := List.head_dropWhile_not (· == 0) hne
      simpa only [hd, List.head_cons, beq_eq_false_iff_ne] using hhead

theorem tailZeros_eq_length_iff (p : Bytes) : tailZeros p = p.length ↔ allZero p = true := by
  obtain ⟨r, hp, hr⟩ := exists_eq_append_zeros p
  have hlen : p.length = r.length + tailZeros p := by
    rw [← zeros_length (tailZeros p), ← List.length_append, ← hp]
  rw [allZero_iff]
  rcases hr with rfl | ⟨q, x, rfl, hx⟩
  · refine ⟨fun _ y hy => ?_, fun _ => by simpa using hlen.symm⟩
    rw [hp, List.nil_append] at hy
    exact List.eq_of_mem_replicate hy
  · refine ⟨fun h => by simp at hlen; omega, fun h => absurd (h x ?_) hx⟩
    rw [hp]
    simp

/-- The last byte that is not zero, and the zeros behind it. -/
theorem last_nonzero {p : Bytes} (h : allZero p = false) :
    p.getD (p.length - tailZeros p - 1) 0 ≠ 0 ∧ allZero (p.drop (p.length - tailZeros p - 1 + 1)) = true := by
  obtain ⟨r, hp, hr⟩ := exists_eq_append_zeros p
  rcases hr with rfl | ⟨q, x, rfl, hx⟩
  · have hall : allZero p = true := by
      rw [allZero_iff, hp]
      intro y hy
      rw [List.nil_append] at hy
      exact List.eq_of_mem_replicate hy
    rw [hall] at h
    cases h
  · have hlen : p.length - tailZeros p - 1 = q.length := by
      have := congrArg List.length hp
      simp only [List.length_append, List.length_singleton, zeros_length] at this
      omega
    generalize tailZeros p = z at hp hlen
    rw [hlen]
    subst hp
    refine ⟨by simpa using hx, ?_⟩
    rw [List.append_assoc, List.drop_append, List.drop_of_length_le (by omega), allZero_iff]
    intro y hy
    simp only [List.nil_append, Nat.add_sub_cancel_left, List.singleton_append, List.drop_succ_cons, List.drop_zero] at hy
    exact List.eq_of_mem_replicate hy

theorem tlsPost_eq (j : Job) (p : Bytes) :
    tlsPost j p = if allZero p then { status := stRange, detail := 0x81, output := p }
      else { output := p, opInfo := p.length - tailZeros p - 1 } := by
  have h : tlsPost j p = if tailZeros p = p.length then { status := stRange, detail := 0x81, output := p }
      else { output := p, opInfo := p.length - tailZeros p - 1 } := rfl
  simp only [h, tailZeros_eq_length_iff]

/-- The trailer is wrong: fewer bytes than the padding counts, or others than 1, 2, … (R157). -/
def BadTrailer (b : Bytes) : Prop :=
  b.length - 2 < (b.getD (b.length - 2) 0).toNat ∨
    slice b (b.length - 2 - (b.getD (b.length - 2) 0).toNat) (b.getD (b.length - 2) 0).toNat ≠
      (List.range (b.getD (b.length - 2) 0).toNat).map fun i => BitVec.ofNat 8 (i + 1)

theorem espPost_of_bad {b : Bytes} (h : BadTrailer b) (j : Job) :
    espPost j b = { status := stRange, detail := 0x84, output := b } :=
  if_pos (by simpa only [BadTrailer, espPad, Bool.or_eq_true, decide_eq_true_eq, bne_iff_ne] using h)

theorem espPost_of_good {b : Bytes} (h : ¬ BadTrailer b) (j : Job) :
    espPost j b = { output := b, opInfo := b.length - 2 - (b.getD (b.length - 2) 0).toNat } :=
  if_neg (by simpa only [BadTrailer, espPad, Bool.or_eq_true, decide_eq_true_eq, bne_iff_ne] using h)

/-- Settles O22: the seals are one report each; the openings go through the one-pass decryption, whose trailer the
second judgement reads. -/
theorem protocolPackets : Obligations.ProtocolPackets := by
  refine ⟨fun id s hs hr hgot => ?_, fun id s hs hr hhead => ?_, fun id s hs hr hhead hn hp => ?_,
    fun id p pt s hs hr hpad hpt => ?_, fun id s hs hr hhead => ?_,
    fun id n p plain s hs hr hspi hseq hn hp hplain hlen hpad => ?_⟩
  · refine completes_ofCell (o := .tls13RecSeal) (f := tlsSealCell) rfl hr ?_
    obtain ⟨hdec, -, -, hoth⟩ := finishCell_decided hs id (tlsSealCell (s.job id) (StreamBefore s id .tls13RecSeal))
    refine ⟨⟨_, ?_, rfl⟩, hoth⟩
    have hinner : ((s.job id).got ++ [BitVec.ofNat 8 (tlsInner (s.job id).desc)] ++
        zeros (tlsPad (s.job id).desc)).length = dMsg (s.job id).desc + 1 + tlsPad (s.job id).desc := by
      simp only [List.length_append, List.length_singleton, zeros_length, hgot]
    rw [← hinner, ← List.append_assoc]
    exact hdec
  · have hh : tlsHead s (s.job id) = some (cellFail stRange 0x82) := if_neg fun h => hhead (beq_iff_eq.1 h)
    refine .ofOp rfl (runDec_of_head hr hh) ?_
    obtain ⟨hdec, -, -, hoth⟩ := finishCell_decided hs id (cellFail stRange 0x82)
    exact ⟨hdec, hoth⟩
  · have hh : tlsHead s (s.job id) = none := if_pos (beq_iff_eq.2 hhead)
    refine .ofNext (t := runDec .tls13RecOpen tlsOpen tlsHead tlsPost id s) rfl ?_
    by_cases ht : (tlsOpen s (s.job id)).tag = (tlsOpen s (s.job id)).want
    · simp only [if_pos ht]
      rw [runDec_of_one hr hh hp ht hn, tlsPost_eq]
      by_cases hz : allZero (tlsOpen s (s.job id)).plain = true
      · simp only [if_pos hz]
        obtain ⟨hdec, -, -, hoth⟩ := finishCell_decided hs id
          { status := stRange, detail := 0x81, output := (tlsOpen s (s.job id)).plain
            cycles := (tlsOpen s (s.job id)).cycles }
        exact ⟨hdec, hoth⟩
      · simp only [if_neg hz]
        obtain ⟨hdec, hinfo, -, hoth⟩ := finishCell_decided hs id
          { output := (tlsOpen s (s.job id)).plain
            opInfo := (tlsOpen s (s.job id)).plain.length - tailZeros (tlsOpen s (s.job id)).plain - 1
            cycles := (tlsOpen s (s.job id)).cycles }
        rw [hinfo]
        exact ⟨⟨hdec, last_nonzero (by simpa using hz)⟩, hoth⟩
    · simp only [if_neg ht]
      obtain ⟨hdec, hinfo, -, hoth⟩ := runDec_bad_tag_decided (post := tlsPost) hs hr hh hp ht
      exact ⟨⟨hdec, hinfo⟩, hoth⟩
  · refine completes_ofCell (o := .espSeal) (f := espSealCell) rfl hr ?_
    obtain ⟨hdec, -, -, hoth⟩ := finishCell_decided hs id (espSealCell (s.job id) (StreamBefore s id .espSeal))
    subst hpad hpt
    exact ⟨hdec, hoth⟩
  · have hh : espHead s (s.job id) = some (cellFail stRange 0x82) := if_neg (by simpa [imp_iff_not_or] using hhead)
    refine .ofOp rfl (runDec_of_head hr hh) ?_
    obtain ⟨hdec, -, -, hoth⟩ := finishCell_decided hs id (cellFail stRange 0x82)
    exact ⟨hdec, hoth⟩
  · have hh : espHead s (s.job id) = none := if_pos (by simp [hspi, hseq])
    refine .ofNext (t := runDec .espOpen espOpenOf espHead espPost id s) rfl ?_
    subst hplain hlen hpad
    by_cases ht : (espOpenOf s (s.job id)).tag = (espOpenOf s (s.job id)).want
    · simp only [if_pos ht]
      rw [runDec_of_one hr hh hp ht hn]
      by_cases hbad : BadTrailer (espOpenOf s (s.job id)).plain
      · rw [espPost_of_bad hbad]
        rw [BadTrailer] at hbad
        rw [if_pos hbad]
        obtain ⟨hdec, hinfo, -, hoth⟩ := finishCell_decided hs id
          { status := stRange, detail := 0x84, output := (espOpenOf s (s.job id)).plain
            cycles := (espOpenOf s (s.job id)).cycles }
        exact ⟨⟨hdec, hinfo⟩, hoth⟩
      · rw [espPost_of_good hbad]
        rw [BadTrailer] at hbad
        rw [if_neg hbad]
        obtain ⟨hdec, hinfo, -, hoth⟩ := finishCell_decided hs id
          { output := (espOpenOf s (s.job id)).plain
            opInfo := (espOpenOf s (s.job id)).plain.length - 2 -
              ((espOpenOf s (s.job id)).plain.getD ((espOpenOf s (s.job id)).plain.length - 2) 0).toNat
            cycles := (espOpenOf s (s.job id)).cycles }
        exact ⟨⟨hdec, hinfo⟩, hoth⟩
    · simp only [if_neg ht]
      obtain ⟨hdec, hinfo, -, hoth⟩ := runDec_bad_tag_decided (post := espPost) hs hr hh hp ht
      exact ⟨⟨hdec, hinfo⟩, hoth⟩

end Sys2Proof.Machine
end

section
/-! SUPPORT. What drawing from a comb's DRBG leaves: the DRBGs, and the busy cycles of the job that draws (R158, R203).
The fault check of the number cell (R204). -/

namespace Sys2Proof.Machine

/-! ## Draws -/

/-- The state but for the combs, the jobs, and the counters of random and of free values. -/
theorem Keeps.drawn_eq {s t : State} (h : Keeps { combs := true, jobs := true, trngN := true, freeN := true } s t) :
    t = { s with combs := t.combs, jobs := t.jobs, trngN := t.trngN, freeN := t.freeN } := by
  obtain ⟨hpend, -, hunch⟩ := h
  obtain ⟨⟩ := hunch
  cases s
  cases t
  simp_all

/-- From `s` to `v` the job `id` drew random bytes: its busy cycles and the combs' DRBGs moved. -/
structure DrawnFrom (id : Nat) (s v : State) : Prop where
  keeps : Keeps { combs := true, jobs := true, trngN := true, freeN := true } s v
  job : ∃ n, SetsJob id { s.job id with cycles := n } s v
  combs : ∀ c, ∃ g, v.comb c = { s.comb c with drbg := g }

section

variable {id : Nat} {s u v : State}

theorem modComb_drbg {s v : State} (hv : v.wf = true) (h : ∀ c, ∃ g, v.comb c = { s.comb c with drbg := g })
    (c : Nat) {f : Comb → Comb} (hf : ∀ b, ∃ g, f b = { b with drbg := g }) (d : Nat) :
    ∃ g, (v.modComb c f).comb d = { s.comb d with drbg := g } := by
  by_cases hd : d = c
  · subst hd
    obtain ⟨g, hg⟩ := h d
    obtain ⟨g', hg'⟩ := hf (v.comb d)
    exact ⟨g', by rw [State.modComb_same hv, hg', hg]⟩
  · obtain ⟨g, hg⟩ := h d
    exact ⟨g, by rw [State.modComb_other _ _ _ _ hd, hg]⟩

/-- Readiness moves nothing but the comb's DRBG. -/
theorem drbgReady_combs {c : Nat} {pr : Bool} (hs : s.wf = true) (h : drbgReady s c pr = some u) (d : Nat) :
    ∃ g, u.comb d = { s.comb d with drbg := g } := by
  have hsame : ∀ c, ∃ g, s.comb c = { s.comb c with drbg := g } := fun c => ⟨_, rfl⟩
  have hinit : ∃ g, (drbgInit s c).comb d = { s.comb d with drbg := g } := by
    unfold drbgInit
    split
    · exact modComb_drbg hs hsame c (fun b => ⟨{}, rfl⟩) d
    · refine modComb_drbg (s := s) (v := s.trng.2) hs hsame c (fun b => ?_) d
      generalize drbgUpdate _ _ _ = kv
      exact ⟨_, rfl⟩
  have hreseed : ∃ g, (drbgReseed s c).comb d = { s.comb d with drbg := g } := by
    refine modComb_drbg (s := s) (v := s.trng.2) hs hsame c (fun b => ?_) d
    dsimp only
    generalize drbgUpdate _ _ _ = kv
    exact ⟨_, rfl⟩
  unfold drbgReady at h
  dsimp only at h
  split at h
  · split at h <;> cases h
    exact ⟨_, rfl⟩
  split at h
  · cases h; exact hinit
  split at h <;> cases h
  exacts [hreseed, ⟨_, rfl⟩]

theorem drawnFrom_seedWaited (hs : s.Inv) (h : Served s id u) : DrawnFrom id s (seedWaited s u id) := by
  have hu := drbgReady_keeps (F := { combs := true, jobs := true, trngN := true, freeN := true }) h rfl rfl
    (Keeps.refl _ s)
  refine ⟨seedWaited_keeps _ _ _ rfl rfl (Keeps.refl _ s) hu, seedWaited_setsJob hs (drbgReady_keeps_combs h), fun c => ?_⟩
  rw [seedWaited_comb]
  exact drbgReady_combs hs.wf h c

theorem DrawnFrom.wf (h : DrawnFrom id s v) : v.wf = true := by
  obtain ⟨-, ⟨n, hj⟩, -⟩ := h
  exact hj.wf

/-- A further request. -/
theorem DrawnFrom.generate (h : DrawnFrom id s v) (c n : Nat) : DrawnFrom id s (drbgGenerate v c n).2 := by
  obtain ⟨n', hj⟩ := h.job
  exact ⟨drbgGenerate_keeps _ _ _ rfl h.keeps,
    ⟨n', hj.keeps (F := { combs := true }) (drbgGenerate_keeps _ _ _ rfl (Keeps.refl _ _)) rfl⟩,
    modComb_drbg h.wf h.combs c fun b => ⟨_, rfl⟩⟩

theorem DrawnFrom.generates (h : DrawnFrom id s v) (c : Nat) (ns : List Nat) :
    DrawnFrom id s (drbgGenerates v c ns).2 := by
  induction ns generalizing v with
  | nil => exact h
  | cons n ns ih => exact ih (h.generate c n)

/-- The state behind the requests that `Generated` speaks of. -/
def afterRequests (s u : State) (id : Nat) (ns : List Nat) : State :=
  (drbgGenerates (seedWaited s u id) (s.job id).on ns).2

/-- The state behind the draw that `Drawn` speaks of. -/
def afterDraw (s u : State) (id n : Nat) : State := (drawFree (seedWaited s u id) (s.job id).on n).2

theorem drawnFrom_afterRequests (hs : s.Inv) (h : Served s id u) (ns : List Nat) :
    DrawnFrom id s (afterRequests s u id ns) := (drawnFrom_seedWaited hs h).generates _ ns

theorem drawnFrom_afterDraw (hs : s.Inv) (h : Served s id u) (n : Nat) : DrawnFrom id s (afterDraw s u id n) := by
  have hw := drawnFrom_seedWaited hs h
  obtain ⟨n', hj⟩ := hw.job
  exact ⟨drawFree_keeps _ _ _ rfl rfl hw.keeps,
    ⟨n', hj.keeps (F := { combs := true, freeN := true }) (drawFree_keeps _ _ _ rfl rfl (Keeps.refl _ _)) rfl⟩,
    modComb_drbg hw.wf hw.combs _ fun b => ⟨_, rfl⟩⟩

theorem withDraw_of_served (h : Served s id u) (n : Nat) (f : Bytes → State → State) :
    withDraw s id n f = f (Drawn s u id n) (afterDraw s u id n) := withSeed_of_some _ f h

theorem withDrbg_of_served (h : Served s id u) (ns : List Nat) (f : Bytes → State → State) :
    withDrbg s id ns f = f (Generated s u id ns) (afterRequests s u id ns) := withSeed_of_some _ f h

theorem withDraw_of_none (h : drbgReady s (s.job id).on false = none) (n : Nat) (f : Bytes → State → State) :
    withDraw s id n f = fail6 s id stPoison 0x81 := withSeed_of_none _ f h

theorem DrawnFrom.inv (h : DrawnFrom id s v) : v.Inv := by
  obtain ⟨n, hj⟩ := h.job
  exact hj.inv

theorem DrawnFrom.others (h : DrawnFrom id s v) : OtherJobs id s v := by
  obtain ⟨n, hj⟩ := h.job
  exact hj.others

/-- The report of a cell behind a draw. -/
theorem DrawnFrom.finishCell (h : DrawnFrom id s v) (r : CellOut) :
    Decided (finishCell v id r) id r.status r.detail r.output ∧ ((finishCell v id r).job id).opInfo = r.opInfo ∧
      OtherJobs id s (finishCell v id r) := by
  obtain ⟨hdec, hinfo, -, hoth⟩ := finishCell_decided h.inv id r
  exact ⟨hdec, hinfo, h.others.trans hoth⟩

/-! ## The fault check -/

theorem raise_comb (s : State) (src : Nat) (info : W32) (c : Nat) : (raise s src info).comb c = s.comb c :=
  (raise_keeps (F := { ev := true, fns := true, tenants := true }) s src info rfl rfl rfl (Keeps.refl _ s)).comb_eq rfl c

theorem combSync_pkFault {s : State} (hs : s.wf = true) (c d : Nat) :
    ((combSync s c).comb d).pkFault = (s.comb d).pkFault := by
  unfold combSync
  split
  · rfl
  rw [raise_comb]
  by_cases hd : d = c
  · rw [hd, State.modComb_same hs]
  · rw [State.modComb_other _ _ _ _ hd]

theorem combFault_pkFault {s : State} (hs : s.Inv) (c : Nat) (cell : Option Cell) (info : W32) (d : Nat) :
    ((combFault s c cell info).comb d).pkFault = (s.comb d).pkFault := by
  unfold combFault
  dsimp only
  generalize hu : s.modComb c _ = u
  have hk : Keeps { combs := true } s u := hu ▸ modComb_keeps _ _ _ rfl (Keeps.refl _ _)
  have hrk := raise_keeps (F := { aon := true, ev := true, fns := true, tenants := true }) (stick u c) (4 * c) info
    rfl rfl rfl (stick_keeps _ _ rfl (Keeps.refl _ u))
  rw [combSync_pkFault (hrk.inv (hk.inv hs)).wf, hrk.comb_eq rfl, ← hu]
  by_cases hd : d = c
  · rw [hd, State.modComb_same hs.wf]
    split
    · rfl
    split <;> rfl
  · rw [State.modComb_other _ _ _ _ hd]

theorem combFault_sticky (s : State) {c : Nat} (hc : c < 256) (cell : Option Cell) (info : W32) :
    (combFault s c cell info).aon.sticky.getLsbD c = true := by
  unfold combFault
  dsimp only
  generalize s.modComb c _ = u
  have hk : Keeps { ev := true, fns := true, tenants := true, combs := true } (stick u c)
      (combSync (raise (stick u c) (4 * c) info) c) :=
    combSync_keeps _ _ rfl rfl rfl rfl (raise_keeps _ _ _ rfl rfl rfl (Keeps.refl _ _))
  rw [hk.aon_eq rfl]
  simp [stick, hc]

/-- A failed fault check decides the job and faults its comb. -/
theorem faultCheck_found {s : State} (hs : s.Inv) (id cyc : Nat) :
    FaultFound s (faultCheck s id cyc) id ∧ OtherJobs id s (faultCheck s id cyc) := by
  unfold faultCheck
  dsimp only
  generalize hu : combCount1 s (s.job id).on 0xFFFFFFFF (·.pkFault) (fun b v => { b with pkFault := v }) = u
  have hku : Keeps { ev := true, fns := true, tenants := true, combs := true } s u :=
    hu ▸ combCount1_keeps _ _ _ _ _ rfl rfl rfl rfl (Keeps.refl _ s)
  have hcount : (u.comb (s.job id).on).pkFault = satAdd 0xFFFFFFFF (s.comb (s.job id).on).pkFault 1 := by
    rw [← hu]
    unfold combCount1
    dsimp only
    split
    · rw [raise_comb, State.modComb_same hs.wf]
    · rw [State.modComb_same hs.wf]
  generalize hv : combFault u (s.job id).on _ _ = v
  have hkv : Keeps { aon := true, ev := true, fns := true, tenants := true, combs := true } u v :=
    hv ▸ combFault_keeps _ _ _ _ rfl rfl rfl rfl rfl (Keeps.refl _ u)
  have hfin := finishCell_keeps (F := { dma := true, ks := true, ctxs := true, jobs := true }) v id
    { status := stPoison, detail := 0x80, cycles := cyc } rfl rfl rfl rfl (Keeps.refl _ v)
  obtain ⟨hdec, -, -, hoth⟩ := finishCell_decided (hkv.inv (hku.inv hs)) id
    { status := stPoison, detail := 0x80, cycles := cyc }
  refine ⟨⟨hdec, ?_, fun hon => ?_⟩, fun k hk => ?_⟩
  · rw [hfin.comb_eq rfl, ← hv, combFault_pkFault (hku.inv hs), hcount]
  · rw [hfin.aon_eq rfl, ← hv]
    exact combFault_sticky u (by omega) _ _
  · rw [hoth k hk, hkv.job_eq rfl, hku.job_eq rfl]

/-- The same behind a draw. -/
theorem DrawnFrom.faultCheck (h : DrawnFrom id s v) (cyc : Nat) :
    FaultFound s (faultCheck v id cyc) id ∧ OtherJobs id s (faultCheck v id cyc) := by
  obtain ⟨n, hj⟩ := h.job
  obtain ⟨⟨hdec, hcount, hstick⟩, hoth⟩ := faultCheck_found h.inv id cyc
  have hon : (v.job id).on = (s.job id).on := by rw [hj.job]; rfl
  obtain ⟨g, hg⟩ := h.combs (s.job id).on
  rw [hon, hg] at hcount
  rw [hon] at hstick
  exact ⟨⟨hdec, hcount, hstick⟩, h.others.trans hoth⟩

end

end Sys2Proof.Machine
end

section
/-! SUPPORT. The number cell: RSA, powers, curves and agreements (R184 to R211). The theorems that settle O26, O27 and
O28. -/

namespace Sys2Proof.Machine

/-! ## Powers -/

theorem powModF_eq (m : Nat) {fuel e : Nat} (he : e < 2 ^ fuel) (b acc : Nat) :
    powModF m fuel b e (acc % m) = acc * b ^ e % m := by
  induction fuel generalizing b e acc with
  | zero =>
    obtain rfl : e = 0 := by simpa using he
    simp [powModF]
  | succ fuel ih =>
    rw [powModF]
    split
    next h0 => simp [h0]
    next hne =>
      have hlt : e / 2 < 2 ^ fuel := by rw [Nat.pow_succ] at he; omega
      have hsq : ∀ x, x * (b * b % m) ^ (e / 2) % m = x * b ^ (2 * (e / 2)) % m := fun x => by
        rw [Nat.mul_mod, ← Nat.pow_mod, ← Nat.mul_mod, pow_mul, pow_two]
      split
      next hodd =>
        have hsplit : e = 2 * (e / 2) + 1 := by omega
        rw [Nat.mod_mul_mod, ih hlt, hsq]
        conv_rhs => rw [hsplit, pow_succ]
        rw [Nat.mul_assoc, Nat.mul_comm b]
      next heven =>
        have hsplit : e = 2 * (e / 2) := by omega
        rw [ih hlt, hsq, ← hsplit]

/-- Squaring and multiplying computes the power. -/
theorem powMod_eq (b e m : Nat) : powMod b e m = b ^ e % m := by
  rw [powMod, powModF_eq m (Nat.lt_log2_self), Nat.one_mul, ← Nat.pow_mod]

theorem beNat_lt (b : Bytes) : beNat b < 256 ^ b.length := by
  rw [← b.reverse_reverse, beNat_reverse, List.length_reverse]
  exact leNat_lt _

theorem beNat_slice_lt (b : Bytes) (i n : Nat) : beNat (slice b i n) < 256 ^ n :=
  (beNat_lt _).trans_le (Nat.pow_le_pow_right (by decide) (by simp [slice]))

/-! ## RSA (R196, R204) -/

theorem k_eq (j : Job) : j.k = 2 * (j.k / 2) := by
  unfold Job.k
  omega

/-- The modulus of a key of the slot's size has at most k bytes. -/
theorem rsaN_lt (j : Job) : rsaN j < 256 ^ j.k := by
  have hp : (rsaKey j.k j.keyMat).p < 256 ^ (j.k / 2) := beNat_slice_lt _ _ _
  have hq : (rsaKey j.k j.keyMat).q < 256 ^ (j.k / 2) := beNat_slice_lt _ _ _
  calc rsaN j < 256 ^ (j.k / 2) * 256 ^ (j.k / 2) := Nat.mul_lt_mul'' hp hq
    _ = 256 ^ j.k := by rw [← pow_add, ← Nat.two_mul, ← k_eq]

/-- A result that passes its check is below the modulus, and the public exponent takes it back. -/
theorem rsaCrt_ok {j : Job} {m r : Nat} (h : rsaCrt (rsaKey j.k j.keyMat) m = (r, true)) :
    r < rsaN j ∧ r ^ (rsaKey j.k j.keyMat).e % rsaN j = m := by
  simp only [rsaCrt, Prod.mk.injEq, Bool.and_eq_true, bne_iff_ne, beq_iff_eq, decide_eq_true_eq, powMod_eq] at h
  obtain ⟨hr, ⟨-, hcheck⟩, hlt⟩ := h
  subst hr
  exact ⟨hlt, hcheck⟩

section

variable {id m cyc : Nat} {fault : Bool} {s u v : State} {f : Bytes → CellOut}

/-- The job of a secret-key operation after a draw has the key that it had. -/
theorem DrawnFrom.keyMat (h : DrawnFrom id s v) :
    (v.job id).k = (s.job id).k ∧ (v.job id).keyMat = (s.job id).keyMat := by
  obtain ⟨n, hj⟩ := h.job
  rw [hj.job]
  exact ⟨rfl, rfl⟩

/-- The result passes, or is one whose failure stands before the check. -/
theorem DrawnFrom.rsaApply_passes (h : DrawnFrom id s v) {r : Nat} {ok : Bool}
    (hcrt : rsaCrt (rsaKey (s.job id).k (s.job id).keyMat) m = (r, ok))
    (hpass : (f (natBe (s.job id).k r)).status = stOk → fault = false ∧ ok = true) :
    rsaApply v id m cyc fault f = Machine.finishCell v id { f (natBe (s.job id).k r) with cycles := cyc } := by
  obtain ⟨hk, hkey⟩ := h.keyMat
  unfold rsaApply
  dsimp only
  rw [hk, hkey, hcrt]
  refine if_neg fun hc => ?_
  simp only [Bool.and_eq_true, beq_iff_eq, Bool.or_eq_true, Bool.not_eq_true'] at hc
  obtain ⟨hst, hbad⟩ := hc
  obtain ⟨rfl, rfl⟩ := hpass hst
  simp at hbad

theorem DrawnFrom.rsaApply_fails (h : DrawnFrom id s v)
    (hst : (f (natBe (s.job id).k (rsaCrt (rsaKey (s.job id).k (s.job id).keyMat) m).1)).status = stOk)
    (hbad : fault = true ∨ (rsaCrt (rsaKey (s.job id).k (s.job id).keyMat) m).2 = false) :
    rsaApply v id m cyc fault f = Machine.faultCheck v id cyc := by
  obtain ⟨hk, hkey⟩ := h.keyMat
  unfold rsaApply
  dsimp only
  rw [hk, hkey]
  refine if_pos ?_
  rcases hbad with hbad | hbad <;> simp [hst, hbad]

/-- What is made of the power of OAEP. -/
def oaepResult (j : Job) (b : Bytes) : CellOut :=
  match oaepDecode (dHash j.desc) j.k b with
  | some m => { output := m, opInfo := m.length }
  | none => cellFail stRange 0x84

/-- The value that a secret-key operation of a variant works on, with the salt that it drew. -/
def rsaValue (j : Job) (salt : Bytes) : Nat :=
  if dVariant j.desc = 1 then beNat (emsaPkcs1 (dHash j.desc) j.k j.got)
  else if dVariant j.desc = 2 then beNat (emsaPss (dHash j.desc) j.k j.got salt)
  else beNat j.got

/-- What a variant makes of the power. -/
def rsaResult (j : Job) (b : Bytes) : CellOut :=
  if dVariant j.desc = 0 ∨ dVariant j.desc = 1 ∨ dVariant j.desc = 2 then { output := b } else oaepResult j b

theorem rsaResult_of_power {j : Job} (h : dVariant j.desc = 0 ∨ dVariant j.desc = 1 ∨ dVariant j.desc = 2) :
    rsaResult j = fun b => { output := b } := funext fun _ => if_pos h

theorem rsaResult_of_oaep {j : Job} (h : ¬ (dVariant j.desc = 0 ∨ dVariant j.desc = 1 ∨ dVariant j.desc = 2)) :
    rsaResult j = oaepResult j := funext fun _ => if_neg h

/-- The source is judged against the modulus. -/
def RsaRefuses (j : Job) : Prop := (dVariant j.desc = 0 ∨ dVariant j.desc = 3) ∧ rsaN j ≤ beNat j.got

theorem opRsaPriv_of_refused (hr : s.ready id .rsaPriv = true) (h : RsaRefuses (s.job id)) :
    opRsaPriv id fault s = finishCell s id
      { status := stRange, detail := 0x80, cycles := rsaPrivCycles (dAlg (s.job id).desc) } := by
  unfold opRsaPriv
  dsimp only
  rw [hr, if_neg (by decide), if_pos]
  simpa [RsaRefuses, rsaN] using h

theorem opRsaPriv_of_ready (hr : s.ready id .rsaPriv = true) (h : ¬ RsaRefuses (s.job id)) :
    opRsaPriv id fault s = withDraw s id (hashLen (dHash (s.job id).desc)) fun salt v =>
      rsaApply v id (rsaValue (s.job id) salt) (rsaPrivCycles (dAlg (s.job id).desc)) fault (rsaResult (s.job id)) := by
  unfold opRsaPriv
  dsimp only
  rw [hr, if_neg (by decide), if_neg (by simpa [RsaRefuses, rsaN] using h)]
  congr 1
  funext salt v
  by_cases h0 : dVariant (s.job id).desc = 0
  · rw [if_pos h0, rsaResult_of_power (.inl h0), rsaValue, if_neg (by omega), if_neg (by omega)]
  by_cases h1 : dVariant (s.job id).desc = 1
  · rw [if_neg h0, if_pos h1, rsaResult_of_power (.inr (.inl h1)), rsaValue, if_pos h1]
  by_cases h2 : dVariant (s.job id).desc = 2
  · rw [if_neg h0, if_neg h1, if_pos h2, rsaResult_of_power (.inr (.inr h2)), rsaValue, if_neg h1, if_pos h2]
  rw [if_neg h0, if_neg h1, if_neg h2, rsaResult_of_oaep (by omega), rsaValue, if_neg h1, if_neg h2]
  rfl

/-- A value that `RsaInput` speaks of is the one that the operation works on, and its power is its output. -/
theorem rsaInput_cases (h : RsaInput s u id m) :
    ¬ RsaRefuses (s.job id) ∧ rsaValue (s.job id) (Drawn s u id (hashLen (dHash (s.job id).desc))) = m ∧
      rsaResult (s.job id) = fun b => { output := b } := by
  have hres : dVariant (s.job id).desc = 0 ∨ dVariant (s.job id).desc = 1 ∨ dVariant (s.job id).desc = 2 :=
    h.imp And.left (.imp And.left And.left)
  refine ⟨fun ⟨hv, hle⟩ => ?_, ?_, rsaResult_of_power hres⟩
  · rcases h with ⟨-, rfl, hlt⟩ | ⟨hv', -⟩ | ⟨hv', -⟩ <;> omega
  · rcases h with ⟨hv, rfl, -⟩ | ⟨hv, rfl⟩ | ⟨hv, rfl⟩ <;> simp [rsaValue, hv]

theorem opRsaPriv_of_input (hr : s.ready id .rsaPriv = true) (hu : Served s id u) (h : RsaInput s u id m) :
    opRsaPriv id fault s = rsaApply (afterDraw s u id (hashLen (dHash (s.job id).desc))) id m
      (rsaPrivCycles (dAlg (s.job id).desc)) fault fun b => { output := b } := by
  obtain ⟨hno, hval, hres⟩ := rsaInput_cases h
  rw [opRsaPriv_of_ready hr hno, withDraw_of_served hu, hval, hres]

end

/-! ## RSA_PUB and MODEXP_RAW -/

section

variable {id n e : Nat} {s : State}

/-- The modulus or the exponent does not pass R194. -/
def RsaPublicBad (n e k : Nat) : Prop := n % 2 = 0 ∨ n < 2 ^ (8 * k - 1) ∨ e % 2 = 0 ∨ e < 3

theorem not_bad_of_rsaPublic {j : Job} (h : RsaPublic j n e) : ¬ RsaPublicBad n e j.k := by
  obtain ⟨-, -, h1, h2, h3, h4⟩ := h
  unfold RsaPublicBad
  omega

/-- The report of a verification of RSA: OAEP apart, what follows the checks of the public key. -/
def rsaPubCell (j : Job) (n e : Nat) (cyc early : Nat) : CellOut :=
  if dVariant j.desc = 0 then
    if n ≤ beNat (j.got.drop (j.k + 4)) then { status := stRange, detail := 0x80, cycles := early }
    else { output := natBe j.k (powMod (beNat (j.got.drop (j.k + 4))) e n), cycles := cyc }
  else
    let sig := beNat ((j.got.drop (j.k + 4)).take j.k)
    let ok := sig < n && (if dVariant j.desc = 1
      then natBe j.k (powMod sig e n) == emsaPkcs1 (dHash j.desc) j.k ((j.got.drop (j.k + 4)).drop j.k)
      else emsaPssOk (dHash j.desc) j.k ((j.got.drop (j.k + 4)).drop j.k) (natBe j.k (powMod sig e n)))
    { status := if ok then stOk else stSigInvalid, cycles := if ok then cyc else early }

theorem opRsaPub_of_bad (hr : s.ready id .rsaPub = true)
    (h : RsaPublicBad (beNat ((s.job id).got.take (s.job id).k)) (beNat (slice (s.job id).got (s.job id).k 4))
      (s.job id).k) :
    ∃ cyc, opRsaPub id s = finishCell s id { status := stRange, detail := 0x81, cycles := cyc } := by
  unfold opRsaPub
  dsimp only
  rw [hr, if_neg (by decide), if_pos]
  · exact ⟨_, rfl⟩
  · simpa [RsaPublicBad, or_assoc] using h

theorem opRsaPub_of_public (hr : s.ready id .rsaPub = true) (h : RsaPublic (s.job id) n e)
    (h3 : dVariant (s.job id).desc ≠ 3) :
    ∃ cyc early, opRsaPub id s = finishCell s id (rsaPubCell (s.job id) n e cyc early) := by
  have hbad := not_bad_of_rsaPublic h
  obtain ⟨hn, he, -⟩ := h
  unfold opRsaPub
  dsimp only
  rw [hr, if_neg (by decide), ← hn, ← he, if_neg (by simpa [RsaPublicBad, or_assoc] using hbad)]
  refine ⟨rsaPubCycles (dAlg (s.job id).desc) e,
    atMost (rsaPubCycles (dAlg (s.job id).desc) e) (0x30280 + dAlg (s.job id).desc), ?_⟩
  unfold rsaPubCell
  by_cases h0 : dVariant (s.job id).desc = 0
  · rw [if_pos h0, if_pos h0]
    split <;> rfl
  · rw [if_neg h0, if_neg h3, if_neg h0]

theorem opRsaPub_of_oaep {u : State} (hr : s.ready id .rsaPub = true) (h : RsaPublic (s.job id) n e)
    (h3 : dVariant (s.job id).desc = 3) (hu : Served s id u) :
    ∃ cyc, opRsaPub id s = finishCell (afterRequests s u id [hashLen (dHash (s.job id).desc)]) id
      { output := natBe (s.job id).k (powMod (beNat (oaepEncode (dHash (s.job id).desc) (s.job id).k
          ((s.job id).got.drop ((s.job id).k + 4)) (Generated s u id [hashLen (dHash (s.job id).desc)]))) e n)
        cycles := cyc } := by
  have hbad := not_bad_of_rsaPublic h
  obtain ⟨hn, he, -⟩ := h
  unfold opRsaPub
  dsimp only
  rw [hr, if_neg (by decide), ← hn, ← he, if_neg (by simpa [RsaPublicBad, or_assoc] using hbad),
    if_neg (by rw [h3]; decide), if_pos h3, withDrbg_of_served hu]
  exact ⟨_, rfl⟩

/-- The report of MODEXP_RAW. -/
def modexpCell (k n e b cyc : Nat) : CellOut :=
  if n % 2 = 0 ∨ n ≤ 1 then { status := stRange, detail := 0x83, cycles := cyc }
  else if n ≤ b then { status := stRange, detail := 0x80, cycles := cyc }
  else { output := natBe k (powMod b e n), cycles := cyc }

theorem opModexpRaw_of_ready (hr : s.ready id .modexpRaw = true) :
    opModexpRaw id s = finishCell s id (modexpCell (s.job id).k (beNat ((s.job id).got.take (s.job id).k))
      (beNat (slice (s.job id).got (s.job id).k (s.job id).k)) (beNat (slice (s.job id).got (2 * (s.job id).k) (s.job id).k))
      (modexpCycles (dAlg (s.job id).desc))) := by
  unfold opModexpRaw modexpCell
  dsimp only
  rw [hr, if_neg (by decide)]
  simp only [Bool.or_eq_true, decide_eq_true_eq]
  split
  · rfl
  split <;> rfl

end

/-- Settles O26: the operation with the secret key and its check of R204, and the public ones. -/
theorem rsaAndPowers : Obligations.RsaAndPowers := by
  refine ⟨fun id m r u s hs hr hu hin hcrt => ?_, fun id m fault u s hs hr hu hin hbad => ?_,
    fun id fault s hs hr hv hlt => ?_, fun id r fault ok u s hs hr hu hv hlt hcrt => ?_,
    fun id fault s hs hr hnone hv => ?_, fun id n e s hs hr hn he hbad => ?_,
    fun id n e m s hs hr hpub hm hv => ?_, fun id n e sig dig s hs hr hpub hgot hlen hv => ?_,
    fun id n e u s hs hr hpub hv hu => ?_, fun id n e b s hs hr hn he hb => ?_⟩
  · have hd := drawnFrom_afterDraw hs hu (hashLen (dHash (s.job id).desc))
    refine .ofOp rfl ((opRsaPriv_of_input hr hu hin).trans (hd.rsaApply_passes hcrt fun _ => ⟨rfl, rfl⟩)) ?_
    obtain ⟨hdec, -, hoth⟩ := hd.finishCell { output := natBe (s.job id).k r
                                              cycles := rsaPrivCycles (dAlg (s.job id).desc) }
    obtain ⟨hlt, hback⟩ := rsaCrt_ok hcrt
    refine ⟨hdec, ?_, hoth⟩
    obtain ⟨-, -, -, hout⟩ := hdec
    rw [hout, beNat_natBe, Nat.mod_eq_of_lt (hlt.trans (rsaN_lt _)), hback]
  · have hd := drawnFrom_afterDraw hs hu (hashLen (dHash (s.job id).desc))
    refine .ofOp rfl ((opRsaPriv_of_input hr hu hin).trans (hd.rsaApply_fails rfl hbad)) ?_
    exact hd.faultCheck _
  · refine .ofOp rfl (opRsaPriv_of_refused hr ⟨hv, hlt⟩) ?_
    obtain ⟨hdec, -, -, hoth⟩ := finishCell_decided hs id
      { status := stRange, detail := 0x80, cycles := rsaPrivCycles (dAlg (s.job id).desc) }
    exact ⟨hdec, hoth⟩
  · have hd := drawnFrom_afterDraw hs hu (hashLen (dHash (s.job id).desc))
    have hop := opRsaPriv_of_ready (fault := fault) hr fun h : RsaRefuses (s.job id) => absurd h.2 (by omega)
    have hval : ∀ salt, rsaValue (s.job id) salt = beNat (s.job id).got := fun _ => by simp [rsaValue, hv]
    have hres : rsaResult (s.job id) = oaepResult (s.job id) := rsaResult_of_oaep (by omega)
    simp only [withDraw_of_served hu, hval, hres] at hop
    have hcases : ∀ o, oaepDecode (dHash (s.job id).desc) (s.job id).k (natBe (s.job id).k r) = o →
        oaepResult (s.job id) (natBe (s.job id).k r) =
          match (motive := Option Bytes → CellOut) o with
          | some m => { output := m, opInfo := m.length }
          | none => cellFail stRange 0x84 := by
      rintro o rfl
      rfl
    cases hdecode : oaepDecode (dHash (s.job id).desc) (s.job id).k (natBe (s.job id).k r) with
    | none =>
      have hfail : oaepResult (s.job id) (natBe (s.job id).k r) = cellFail stRange 0x84 := hcases _ hdecode
      refine .ofOp rfl (hop.trans (hd.rsaApply_passes hcrt fun h => ?_)) ?_
      · rw [hfail] at h
        exact absurd h (by decide)
      · rw [hfail]
        obtain ⟨hdec, -, hoth⟩ := hd.finishCell
          { cellFail stRange 0x84 with cycles := rsaPrivCycles (dAlg (s.job id).desc) }
        exact ⟨hdec, hoth⟩
    | some msg =>
      have hgood : oaepResult (s.job id) (natBe (s.job id).k r) = { output := msg, opInfo := msg.length } :=
        hcases _ hdecode
      by_cases hpass : fault = false ∧ ok = true
      · refine .ofOp rfl (hop.trans (hd.rsaApply_passes hcrt fun _ => hpass)) ?_
        rw [hgood]
        obtain ⟨hdec, hinfo, hoth⟩ := hd.finishCell
          { output := msg, opInfo := msg.length, cycles := rsaPrivCycles (dAlg (s.job id).desc) }
        simp only [if_pos hpass]
        exact ⟨⟨hdec, hinfo⟩, hoth⟩
      · refine .ofOp rfl (hop.trans (hd.rsaApply_fails (by rw [hcrt, hgood]) ?_)) ?_
        · rw [hcrt]
          cases fault <;> simp_all
        · simp only [if_neg hpass]
          exact hd.faultCheck _
  · have hno : ¬ RsaRefuses (s.job id) := by
      rintro ⟨h, hle⟩
      omega
    refine .ofOp rfl ((opRsaPriv_of_ready hr hno).trans (withDraw_of_none hnone _ _)) ?_
    exact fail6_decided hs id stPoison 0x81
  · subst hn he
    obtain ⟨cyc, hop⟩ := opRsaPub_of_bad hr hbad
    refine .ofOp rfl hop ?_
    obtain ⟨hdec, -, -, hoth⟩ := finishCell_decided hs id { status := stRange, detail := 0x81, cycles := cyc }
    exact ⟨hdec, hoth⟩
  · obtain ⟨cyc, early, hop⟩ := opRsaPub_of_public hr hpub (by rw [hv]; decide)
    refine .ofOp rfl hop ?_
    obtain ⟨hdec, -, -, hoth⟩ := finishCell_decided hs id (rsaPubCell (s.job id) n e cyc early)
    refine ⟨?_, hoth⟩
    have hcell : rsaPubCell (s.job id) n e cyc early =
        if n ≤ m then { status := stRange, detail := 0x80, cycles := early }
        else { output := natBe (s.job id).k (m ^ e % n), cycles := cyc } := by
      rw [rsaPubCell, if_pos hv, ← hm, powMod_eq]
    by_cases hlt : m < n
    · rw [if_neg (by omega)] at hcell
      rw [if_pos hlt]
      rwa [hcell] at hdec ⊢
    · rw [if_pos (by omega)] at hcell
      rw [if_neg hlt]
      rwa [hcell] at hdec ⊢
  · obtain ⟨cyc, early, hop⟩ := opRsaPub_of_public hr hpub (by omega)
    refine .ofOp rfl hop ?_
    obtain ⟨⟨hst, hcode, hdet, hout⟩, -, -, hoth⟩ := finishCell_decided hs id (rsaPubCell (s.job id) n e cyc early)
    have h0 : ¬ dVariant (s.job id).desc = 0 := by omega
    have htake : (sig ++ dig).take (s.job id).k = sig := by rw [← hlen, List.take_left]
    have hdrop : (sig ++ dig).drop (s.job id).k = dig := by rw [← hlen, List.drop_left]
    have hcell : rsaPubCell (s.job id) n e cyc early = _ := if_neg h0
    dsimp only at hcell
    rw [hgot, htake, hdrop, powMod_eq] at hcell
    refine ⟨⟨hst, hcode.trans ?_, hdet.trans (by rw [hcell]), hout.trans (by rw [hcell])⟩, hoth⟩
    rw [hcell]
    dsimp only
    rcases hv with hv | hv <;> simp [hv]
  · obtain ⟨cyc, hop⟩ := opRsaPub_of_oaep hr hpub hv hu
    refine .ofOp rfl hop ?_
    rw [powMod_eq]
    obtain ⟨hdec, -, hoth⟩ := (drawnFrom_afterRequests hs hu [hashLen (dHash (s.job id).desc)]).finishCell
      { output := natBe (s.job id).k (beNat (oaepEncode (dHash (s.job id).desc) (s.job id).k
          ((s.job id).got.drop ((s.job id).k + 4)) (Generated s u id [hashLen (dHash (s.job id).desc)])) ^ e % n)
        cycles := cyc }
    exact ⟨hdec, hoth⟩
  · refine .ofOp rfl (opModexpRaw_of_ready hr) ?_
    rw [← hn, ← he, ← hb]
    obtain ⟨hdec, -, -, hoth⟩ := finishCell_decided hs id
      (modexpCell (s.job id).k n e b (modexpCycles (dAlg (s.job id).desc)))
    refine ⟨?_, hoth⟩
    simp only [modexpCell, powMod_eq] at hdec ⊢
    by_cases h1 : n % 2 = 0 ∨ n ≤ 1
    · simpa only [if_pos h1] using hdec
    by_cases h2 : n ≤ b
    · simpa only [if_neg h1, if_pos h2] using hdec
    · simpa only [if_neg h1, if_neg h2] using hdec

end Sys2Proof.Machine
end

section
/-! SUPPORT. Curves in the number cell (R194, R197 to R199): the theorems that settle O27 and O28. -/

namespace Sys2Proof.Machine

section

variable {id : Nat} {fault : Bool} {s u : State}

/-! ## Signatures -/

/-- The signature of an ECDSA job that drew `r`. -/
def ecdsaBytes (j : Job) (r : Bytes) : Bytes :=
  if dVariant j.desc = 0
  then ecdsaSign (wCurve (dAlg j.desc)) (beNat j.keyMat) j.got (randomSecret (wCurve (dAlg j.desc)).n) (r, [])
  else ecdsaSign (wCurve (dAlg j.desc)) (beNat j.keyMat) j.got (rfc6979Next (dHash j.desc) (wCurve (dAlg j.desc)))
    (rfc6979Init (dHash j.desc) (wCurve (dAlg j.desc)) (beNat j.keyMat) j.got)

theorem opEcdsaSign_of_served (hr : s.ready id .ecdsaSign = true) (hu : Served s id u) :
    opEcdsaSign id fault s =
      if fault then faultCheck (afterDraw s u id 9216) id (ecdsaSignCycles (dAlg (s.job id).desc))
      else finishCell (afterDraw s u id 9216) id
        { output := ecdsaBytes (s.job id) (Drawn s u id 9216), cycles := ecdsaSignCycles (dAlg (s.job id).desc) } := by
  unfold opEcdsaSign
  dsimp only
  rw [hr, if_neg (by decide), withDraw_of_served hu]
  rfl

theorem opEddsaSign_of_served (hr : s.ready id .eddsaSign = true) (hu : Served s id u) :
    ∃ cyc, opEddsaSign id fault s =
      if fault then faultCheck (afterDraw s u id 16) id cyc
      else finishCell (afterDraw s u id 16) id
        { output := edSign (dAlg (s.job id).desc) (decide (dVariant (s.job id).desc = 1)) (s.job id).keyMat (s.job id).got
          cycles := cyc } := by
  unfold opEddsaSign
  dsimp only
  rw [hr, if_neg (by decide), withDraw_of_served hu]
  exact ⟨_, rfl⟩

/-- The signature in the source of an ECDSA verification is one of the digest behind it. -/
def ecdsaAccepts (j : Job) (q : Nat × Nat) : Bool :=
  ecdsaOk (wCurve (dAlg j.desc)) q
    (beNat (slice j.got (1 + 2 * (wCurve (dAlg j.desc)).f) (wCurve (dAlg j.desc)).f))
    (beNat (slice j.got (1 + 3 * (wCurve (dAlg j.desc)).f) (wCurve (dAlg j.desc)).f))
    (j.got.drop (1 + 4 * (wCurve (dAlg j.desc)).f))

/-- The verdict on a public key that was decoded, or its refusal. -/
theorem ecdsaVerifyCell_cases (j : Job) (k : Ctx) :
    (wDecode (wCurve (dAlg j.desc)) (j.got.take (1 + 2 * (wCurve (dAlg j.desc)).f)) = none ∧
      ∃ cyc, ecdsaVerifyCell j k = { status := stRange, detail := 0x81, cycles := cyc }) ∨
    (∃ q cyc, wDecode (wCurve (dAlg j.desc)) (j.got.take (1 + 2 * (wCurve (dAlg j.desc)).f)) = some q ∧
      ecdsaVerifyCell j k = { status := if ecdsaAccepts j q = true then stOk else stSigInvalid, cycles := cyc }) := by
  unfold ecdsaVerifyCell
  dsimp only
  split
  next h => exact .inl ⟨h, _, rfl⟩
  next q h => exact .inr ⟨q, _, h, rfl⟩

theorem eddsaVerifyCell_cases {j : Job} (k : Ctx) {pk sig m : Bytes} (hgot : j.got = pk ++ sig ++ m)
    (hpk : pk.length = pubLen (dAlg j.desc)) (hsig : sig.length = sigLen (dAlg j.desc)) :
    (eDecode (eCurve (dAlg j.desc)) pk = none ∧
      ∃ cyc, eddsaVerifyCell j k = { status := stRange, detail := 0x81, cycles := cyc }) ∨
    (∃ q cyc, eDecode (eCurve (dAlg j.desc)) pk = some q ∧
      eddsaVerifyCell j k = { status := if edOk (dAlg j.desc) (decide (dVariant j.desc = 1)) pk q sig m = true
        then stOk else stSigInvalid, cycles := cyc }) := by
  have htake : j.got.take (pubLen (dAlg j.desc)) = pk := by
    rw [hgot, ← hpk, List.append_assoc, List.take_left]
  have hslice : slice j.got (pubLen (dAlg j.desc)) (sigLen (dAlg j.desc)) = sig := by
    rw [slice, hgot, ← hpk, ← hsig, List.append_assoc, List.drop_left, List.take_left]
  have hdrop : j.got.drop (pubLen (dAlg j.desc) + sigLen (dAlg j.desc)) = m := by
    rw [hgot, ← hpk, ← hsig, ← List.length_append, List.drop_left]
  unfold eddsaVerifyCell
  dsimp only
  rw [htake, hslice, hdrop]
  split
  next h => exact .inl ⟨h, _, rfl⟩
  next q h => exact .inr ⟨q, _, h, rfl⟩

/-- Settles O27: the draw, then the signature or the fault check; and the two verdicts. -/
theorem curveSignatures : Obligations.CurveSignatures := by
  refine ⟨fun id u s hs hr hu => ?_, fun id u s hs hr hu => ?_, fun id u s hs hr hu => ?_, fun id u s hs hr hu => ?_,
    fun id s hs hr => ?_, fun id pk sig m s hs hr hgot hpk hsig => ?_⟩
  · refine .ofOp rfl (opEcdsaSign_of_served hr hu) ?_
    obtain ⟨hdec, -, hoth⟩ := (drawnFrom_afterDraw hs hu 9216).finishCell
      { output := ecdsaBytes (s.job id) (Drawn s u id 9216), cycles := ecdsaSignCycles (dAlg (s.job id).desc) }
    exact ⟨hdec, hoth⟩
  · refine .ofOp rfl (opEcdsaSign_of_served hr hu) ?_
    exact (drawnFrom_afterDraw hs hu 9216).faultCheck _
  · obtain ⟨cyc, hop⟩ := opEddsaSign_of_served (fault := false) hr hu
    refine .ofOp rfl hop ?_
    obtain ⟨hdec, -, hoth⟩ := (drawnFrom_afterDraw hs hu 16).finishCell
      { output := edSign (dAlg (s.job id).desc) (decide (dVariant (s.job id).desc = 1)) (s.job id).keyMat (s.job id).got
        cycles := cyc }
    exact ⟨hdec, hoth⟩
  · obtain ⟨cyc, hop⟩ := opEddsaSign_of_served (fault := true) hr hu
    refine .ofOp rfl hop ?_
    exact (drawnFrom_afterDraw hs hu 16).faultCheck _
  · refine completes_ofCell (o := .ecdsaVerify) (f := ecdsaVerifyCell) rfl hr ?_
    rcases ecdsaVerifyCell_cases (s.job id) (StreamBefore s id .ecdsaVerify) with
      ⟨hq, cyc, hcell⟩ | ⟨q, cyc, hq, hcell⟩ <;> rw [hcell, hq]
    · obtain ⟨hdec, -, -, hoth⟩ := finishCell_decided hs id { status := stRange, detail := 0x81, cycles := cyc }
      exact ⟨hdec, hoth⟩
    · obtain ⟨hdec, -, -, hoth⟩ := finishCell_decided hs id (ecdsaVerifyCell (s.job id) (StreamBefore s id .ecdsaVerify))
      rw [hcell] at hdec hoth
      exact ⟨hdec, hoth⟩
  · refine completes_ofCell (o := .eddsaVerify) (f := eddsaVerifyCell) rfl hr ?_
    rcases eddsaVerifyCell_cases (StreamBefore s id .eddsaVerify) hgot hpk hsig with
      ⟨hq, cyc, hcell⟩ | ⟨q, cyc, hq, hcell⟩ <;> rw [hcell, hq]
    · obtain ⟨hdec, -, -, hoth⟩ := finishCell_decided hs id { status := stRange, detail := 0x81, cycles := cyc }
      exact ⟨hdec, hoth⟩
    · obtain ⟨hdec, -, -, hoth⟩ := finishCell_decided hs id (eddsaVerifyCell (s.job id) (StreamBefore s id .eddsaVerify))
      rw [hcell] at hdec hoth
      exact ⟨hdec, hoth⟩

/-! ## Agreements (R199) -/

section

variable {cyc : Nat} {z : Bytes} {f : Bytes → State → State}

theorem agreed_of_secret (hu : Served s id u) :
    agreed s id cyc fault (.inr z) f =
      if fault then faultCheck (afterDraw s u id 16) id cyc else f z (afterDraw s u id 16) :=
  withDraw_of_served hu 16 _

theorem agreed_of_refused_early :
    agreed s id cyc fault (.inl 0x81) f = finishCell s id { status := stRange, detail := 0x81, cycles := cyc } := rfl

theorem agreed_of_refused_late {det : BitVec 8} (hdet : det ≠ 0x81) (hu : Served s id u) :
    agreed s id cyc fault (.inl det) f =
      finishCell (afterDraw s u id 16) id { status := stRange, detail := det, cycles := cyc } :=
  (if_neg hdet).trans (withDraw_of_served hu 16 _)

theorem agreed_of_none {r : BitVec 8 ⊕ Bytes} (hr : r ≠ .inl 0x81) (hnone : drbgReady s (s.job id).on false = none) :
    agreed s id cyc fault r f = fail6 s id stPoison 0x81 := by
  cases r with
  | inl det => exact (if_neg fun h => hr (congrArg _ h)).trans (withDraw_of_none hnone 16 _)
  | inr b => exact withDraw_of_none hnone 16 _

end

/-- An agreement that releases what it computed. -/
theorem agrees_of {c : Nat → Bool → Instr} {o : Op} {f : Job → BitVec 8 ⊕ Bytes}
    (he : ∀ id fault s, s.ready id o = true →
      ∃ cyc, exec (c id fault) s = .next (agreed s id cyc fault (f (s.job id)) (outputs id cyc))) : Agrees c o f := by
  refine ⟨fun id z u s hs hr hu hz => ?_, fun id z u s hs hr hu hz => ?_, fun id det fault s hs hr hdet hu => ?_,
    fun id fault s hs hr hne hnone => ?_⟩
  · obtain ⟨cyc, hop⟩ := he id false s hr
    refine .ofOp hop (by rw [hz, agreed_of_secret hu, if_neg (by decide)]) ?_
    obtain ⟨hdec, -, hoth⟩ := (drawnFrom_afterDraw hs hu 16).finishCell { output := z, cycles := cyc }
    exact ⟨hdec, hoth⟩
  · obtain ⟨cyc, hop⟩ := he id true s hr
    refine .ofOp hop (by rw [hz, agreed_of_secret hu, if_pos rfl]) ?_
    exact (drawnFrom_afterDraw hs hu 16).faultCheck _
  · obtain ⟨cyc, hop⟩ := he id fault s hr
    by_cases h81 : det = 0x81
    · subst h81
      refine .ofOp hop (by rw [hdet, agreed_of_refused_early]) ?_
      obtain ⟨hdec, -, -, hoth⟩ := finishCell_decided hs id { status := stRange, detail := 0x81, cycles := cyc }
      exact ⟨hdec, hoth⟩
    · obtain ⟨u, hu⟩ := hu.resolve_left h81
      refine .ofOp hop (by rw [hdet, agreed_of_refused_late h81 hu]) ?_
      obtain ⟨hdec, -, hoth⟩ := (drawnFrom_afterDraw hs hu 16).finishCell
        { status := stRange, detail := det, cycles := cyc }
      exact ⟨hdec, hoth⟩
  · obtain ⟨cyc, hop⟩ := he id fault s hr
    refine .ofOp hop (agreed_of_none hne hnone) ?_
    exact fail6_decided hs id stPoison 0x81

/-- Settles O28: the three opcodes go through one operation. -/
theorem agreements : Obligations.Agreements :=
  ⟨agrees_of fun _ _ _ hr => ⟨_, congrArg _ (if_pos hr)⟩, agrees_of fun _ _ _ hr => ⟨_, congrArg _ (if_pos hr)⟩,
    agrees_of fun _ _ _ hr => ⟨_, congrArg _ (if_pos hr)⟩⟩

end

end Sys2Proof.Machine
end

section
/-! SUPPORT. The lattice cell (R200 to R202) and the commit of a reserved run (R208, R233): the theorem that settles
O29. -/

namespace Sys2Proof.Machine

/-! ## The commit of a reserved run -/

theorem Keeps.slots_eq {F : Foot} {s t : State} (h : Keeps F s t) (hF : F.slots = false) :
    t.slots = s.slots := by
  obtain ⟨-, -, hunch⟩ := h
  exact hunch.slots.resolve_right (by simp [hF])

theorem Keeps.slot_eq {F : Foot} {s t : State} (h : Keeps F s t) (hF : F.slots = false) (p : Nat) :
    t.slot p = s.slot p := by rw [State.slot, State.slot, h.slots_eq hF]

/-- The slot with its new material. -/
def KSlot.made (k : KSlot) (mat : Bytes) : KSlot := { k with state := .valid, mat := mat }

/-- What the commit writes at one position of the run of `h`. -/
def commitSlot (h : Nat) (mat : Bytes) (s : State) (p : Nat) : State :=
  s.modSlot p fun k => if p = h then k.made mat else { k with state := .cont }

section

variable {s : State} {h : Nat} {mat : Bytes}

theorem commitSlot_wf (hs : s.wf = true) (p : Nat) : (commitSlot h mat s p).wf = true := State.modSlot_wf hs _ _

theorem each_commitSlot_other (l : List Nat) {p : Nat} (hp : p ∉ l) :
    (s.each l (commitSlot h mat)).slot p = s.slot p := by
  induction l generalizing s with
  | nil => rfl
  | cons q l ih =>
    obtain ⟨hpq, hpl⟩ := not_or.1 (mt List.mem_cons.2 hp)
    exact (ih hpl).trans (State.modSlot_other _ _ _ _ hpq)

theorem each_commitSlot_same {k : KSlot} (l : List Nat) (hs : s.wf = true)
    (hk : s.slot h = k ∧ h ∈ l ∨ s.slot h = k.made mat) : (s.each l (commitSlot h mat)).slot h = k.made mat := by
  induction l generalizing s with
  | nil =>
    rcases hk with ⟨-, hmem⟩ | hk
    · cases hmem
    · exact hk
  | cons q l ih =>
    refine ih (commitSlot_wf hs q) ?_
    by_cases hq : h = q
    · refine .inr ?_
      subst hq
      rw [commitSlot, State.modSlot_same hs, if_pos rfl]
      rcases hk with ⟨hk, -⟩ | hk <;> rw [hk]
      rfl
    · rw [commitSlot, State.modSlot_other _ _ _ _ hq]
      exact hk.imp (fun ⟨hk, hmem⟩ => ⟨hk, (List.mem_cons.1 hmem).resolve_left hq⟩) id

/-- The run can become the key: it is reserved, no zeroisation runs, and the parent is sound. -/
def CanCommit (s : State) (h : Nat) : Prop :=
  s.ks.zeroising = none ∧ (s.slot h).state = .reserved ∧ parentOk s (s.slot h).parent = true

theorem commitRun_of_can {l : List Nat} (hl : l.head? = some h) (hc : CanCommit s h) :
    commitRun s l mat = (true, s.each l (commitSlot h mat)) := by
  obtain ⟨hz, hst, hp⟩ := hc
  unfold commitRun
  rw [hl]
  dsimp only
  rw [if_pos (by rw [hz, hst, hp]; rfl)]
  rfl

theorem commitRun_of_cannot {l : List Nat} (hl : l.head? = some h) (hc : ¬ CanCommit s h) :
    commitRun s l mat = (false, freeRun s l) := by
  unfold commitRun
  rw [hl]
  dsimp only
  refine if_neg fun hall => hc ?_
  simpa [CanCommit, and_assoc] using hall

end

/-- The job has nothing reserved any longer, and its new material went over the key lane. -/
def Job.committed (j : Job) (lane : Bytes) : Job := { j with reserved := [], lane2 := lane }

section

variable {s v : State} {id h n : Nat} {mat out : Bytes} {cyc : Nat}

theorem commitKey_eq (s : State) (id : Nat) (mat out : Bytes) (cyc : Nat) :
    ∃ lane : Bytes, ∃ n : Nat, commitKey s id mat out cyc =
      finishCell { (commitRun s (s.job id).reserved mat).2.modJob id fun j => j.committed lane with freeN := n } id
        (if (commitRun s (s.job id).reserved mat).1 then { output := out, cycles := cyc }
          else { status := stOrphaned, detail := 0x02, cycles := cyc }) := by
  refine ⟨fit (Config.laneShare s.freeN mat.length) mat.length, s.freeN + 1, ?_⟩
  unfold commitKey
  by_cases hb : (commitRun s (s.job id).reserved mat).1 = true
  · exact (if_pos hb).trans (congrArg (Machine.finishCell _ id) (if_pos hb).symm)
  · exact (if_neg hb).trans (congrArg (Machine.finishCell _ id) (if_neg hb).symm)

/-- The job and the slots behind a commit, whatever it came to. -/
theorem commitKey_setsJob (hs : s.Inv) (id : Nat) (mat out : Bytes) (cyc : Nat) :
    Decided (commitKey s id mat out cyc) id (if (commitRun s (s.job id).reserved mat).1 then stOk else stOrphaned)
        (if (commitRun s (s.job id).reserved mat).1 then 0 else 0x02)
        (if (commitRun s (s.job id).reserved mat).1 then out else []) ∧
      ((commitKey s id mat out cyc).job id).reserved = [] ∧
      ((commitKey s id mat out cyc).job id).acct = (s.job id).acct ∧
      (∀ p, (commitKey s id mat out cyc).slot p = (commitRun s (s.job id).reserved mat).2.slot p) ∧
      OtherJobs id s (commitKey s id mat out cyc) := by
  obtain ⟨lane, n, heq⟩ := commitKey_eq s id mat out cyc
  have hkc := commitRun_keeps (F := { slots := true }) s (s.job id).reserved mat rfl (Keeps.refl _ s)
  have hj := (((SetsJob.refl (id := id) hs).keeps hkc rfl).modJob fun j => j.committed lane).keeps
    (F := { freeN := true }) (t := { (commitRun s (s.job id).reserved mat).2.modJob id fun j => j.committed lane with
      freeN := n }) (Keeps.set_freeN rfl (Keeps.refl _ _)) rfl
  rw [heq]
  generalize hr : (if (commitRun s (s.job id).reserved mat).1 then ({ output := out, cycles := cyc } : CellOut)
    else { status := stOrphaned, detail := 0x02, cycles := cyc }) = r
  obtain ⟨k, ht, hk⟩ := finishCell_setsJob hj.inv id r
  have hslots := finishCell_keeps (F := { dma := true, ks := true, ctxs := true, jobs := true })
    { (commitRun s (s.job id).reserved mat).2.modJob id fun j => j.committed lane with freeN := n } id r rfl rfl rfl rfl
    (Keeps.refl _ _)
  refine ⟨?_, ?_, ?_, fun p => hslots.slot_eq rfl p, hj.others.trans ht.others⟩
  · simp only [Decided, ht.job]
    refine ⟨hk.stage, ?_, ?_, ?_⟩
    · rw [hk.status, ← hr]; split <;> rfl
    · rw [hk.detail, ← hr]; split <;> rfl
    · rw [hk.output, ← hr]; split <;> rfl
  · rw [ht.job, hk.reserved, hj.job]
    rfl
  · rw [ht.job, hk.acct, hj.job]
    rfl

/-- The run that can become the key becomes it. -/
theorem commitKey_made (hs : s.Inv) (hl : (s.job id).reserved.head? = some h) (hc : CanCommit s h) :
    NewKey s (commitKey s id mat out cyc) id h mat out ∧ OtherJobs id s (commitKey s id mat out cyc) := by
  obtain ⟨hdec, hres, -, hslot, hoth⟩ := commitKey_setsJob hs id mat out cyc
  rw [commitRun_of_can hl hc] at hdec hslot
  have hmem : h ∈ (s.job id).reserved := List.mem_of_mem_head? hl
  have hmade := each_commitSlot_same (mat := mat) (s.job id).reserved hs.wf (.inl ⟨rfl, hmem⟩)
  refine ⟨⟨hdec, hres, ?_, ?_, ?_, fun p hp => (hslot p).trans (each_commitSlot_other _ hp)⟩, hoth⟩ <;>
    rw [hslot, hmade]
  exacts [rfl, rfl, rfl]

/-- The run that cannot leaves the job without its key. -/
theorem commitKey_orphaned (hs : s.Inv) (hl : (s.job id).reserved.head? = some h) (hc : ¬ CanCommit s h) :
    Decided (commitKey s id mat out cyc) id stOrphaned 0x02 [] ∧ OtherJobs id s (commitKey s id mat out cyc) := by
  obtain ⟨hdec, -, -, -, hoth⟩ := commitKey_setsJob hs id mat out cyc
  rw [commitRun_of_cannot hl hc] at hdec
  exact ⟨hdec, hoth⟩

/-! ### Behind the draws -/

theorem DrawnFrom.reserved (hd : DrawnFrom id s v) : (v.job id).reserved = (s.job id).reserved := by
  obtain ⟨n, hj⟩ := hd.job
  rw [hj.job]

theorem DrawnFrom.canCommit_iff (hd : DrawnFrom id s v) (h : Nat) : CanCommit v h ↔ CanCommit s h := by
  rw [hd.keeps.drawn_eq]
  exact Iff.rfl

theorem DrawnFrom.slot (hd : DrawnFrom id s v) (p : Nat) : v.slot p = s.slot p := hd.keeps.slot_eq rfl p

theorem DrawnFrom.commitKey_made (hd : DrawnFrom id s v) (hrun : RunHeld s id h) :
    NewKey s (commitKey v id mat out cyc) id h mat out ∧ OtherJobs id s (commitKey v id mat out cyc) := by
  obtain ⟨hl, hc⟩ := hrun
  obtain ⟨⟨hdec, hres, hst, hmat, hgen, hrest⟩, hoth⟩ := Machine.commitKey_made (mat := mat) (out := out) (cyc := cyc)
    hd.inv (hd.reserved ▸ hl) ((hd.canCommit_iff h).2 hc)
  refine ⟨⟨hdec, hres, hst, hmat, hgen.trans (congrArg KSlot.gen (hd.slot h)), fun p hp => ?_⟩, hd.others.trans hoth⟩
  rw [hrest p (hd.reserved ▸ hp), hd.slot]

theorem DrawnFrom.commitKey_orphaned (hd : DrawnFrom id s v) (hl : (s.job id).reserved.head? = some h)
    (hc : ¬ CanCommit s h) :
    Decided (commitKey v id mat out cyc) id stOrphaned 0x02 [] ∧ OtherJobs id s (commitKey v id mat out cyc) := by
  obtain ⟨hdec, hoth⟩ := Machine.commitKey_orphaned (mat := mat) (out := out) (cyc := cyc) hd.inv
    (hd.reserved ▸ hl) (mt (hd.canCommit_iff h).1 hc)
  exact ⟨hdec, hd.others.trans hoth⟩

end

theorem not_canCommit_of {s : State} {h : Nat} (hz : s.ks.zeroising ≠ none ∨ (s.slot h).state ≠ .reserved) :
    ¬ CanCommit s h := by
  rintro ⟨h1, h2, -⟩
  exact hz.elim (absurd h1) (absurd h2)

/-! ## The theorem -/

section

variable {s u : State} {id : Nat}

theorem opMlkemKeygen_of_served (hr : s.ready id .mlkemKeygen = true) (hu : Served s id u) :
    opMlkemKeygen id s = commitKey (afterRequests s u id [32, 32]) id (Generated s u id [32, 32])
      (kemKeys (dAlg (s.job id).desc) ((Generated s u id [32, 32]).take 32)).1
      (kemKeygenCycles (dAlg (s.job id).desc)) := (if_pos hr).trans (withDrbg_of_served hu _ _)

theorem opMldsaKeygen_of_served (hr : s.ready id .mldsaKeygen = true) (hu : Served s id u) :
    opMldsaKeygen id s = commitKey (afterRequests s u id [32]) id (Generated s u id [32])
      (dsaKeys (dAlg (s.job id).desc) (Generated s u id [32])).pk
      (dsaKeygenCycles (dAlg (s.job id).desc)) := (if_pos hr).trans (withDrbg_of_served hu _ _)

theorem opMlkemEncap_of_served (hr : s.ready id .mlkemEncap = true) (hu : Served s id u)
    (hek : kemEkOk (dAlg (s.job id).desc) (s.job id).got = true) :
    opMlkemEncap id s = finishCell (afterRequests s u id [32]) id
      { output := (kemEncaps (dAlg (s.job id).desc) (s.job id).got (Generated s u id [32])).1 ++
          (kemEncaps (dAlg (s.job id).desc) (s.job id).got (Generated s u id [32])).2
        cycles := kemEncapCycles (dAlg (s.job id).desc) } := by
  unfold opMlkemEncap
  dsimp only
  rw [hr, hek, if_neg (by decide), if_neg (by decide), withDrbg_of_served hu]

theorem opMlkemEncap_of_refused (hr : s.ready id .mlkemEncap = true)
    (hek : kemEkOk (dAlg (s.job id).desc) (s.job id).got = false) :
    ∃ cyc, opMlkemEncap id s = finishCell s id { status := stRange, detail := 0x81, cycles := cyc } := by
  unfold opMlkemEncap
  dsimp only
  rw [hr, hek, if_neg (by decide), if_pos (by decide)]
  exact ⟨_, rfl⟩

/-- The report of an ML-DSA signature. -/
def dsaSigned (r : Option (Bytes × Nat)) (base per : Nat) : CellOut :=
  match r with
  | some (sig, i) => { output := sig, opInfo := i, cycles := base + per * i }
  | none => { status := stRange, detail := 0x85, cycles := base + per * 1000 }

theorem opMldsaSign_of_served (hr : s.ready id .mldsaSign = true) (hu : Served s id u) :
    ∃ base, opMldsaSign id s = finishCell (afterDraw s u id 32) id
      (dsaSigned (dsaSign (dAlg (s.job id).desc) (dsaKeys (dAlg (s.job id).desc) (s.job id).keyMat)
        (if 2 ≤ dVariant (s.job id).desc then (s.job id).got
          else dsaMu (dsaKeys (dAlg (s.job id).desc) (s.job id).keyMat).tr (s.job id).got)
        (if dVariant (s.job id).desc % 2 = 0 then Drawn s u id 32 else zeros 32)) base (dsaPer (dAlg (s.job id).desc))) := by
  unfold opMldsaSign
  dsimp only
  rw [if_pos hr, withDraw_of_served hu]
  refine ⟨dsaSetup (dAlg (s.job id).desc) +
    (if 2 ≤ dVariant (s.job id).desc then 0 else dsaMsgCycles (dMsg (s.job id).desc)), ?_⟩
  generalize dsaSign _ _ _ _ = r
  cases r <;> rfl

theorem mldsaVerifyCell_eq {j : Job} (k : Ctx) {pk sig m mu : Bytes} (hgot : j.got = pk ++ sig ++ m)
    (hpk : pk.length = pubLen (dAlg j.desc)) (hsig : sig.length = sigLen (dAlg j.desc))
    (hmu : mu = if dVariant j.desc = 2 then m else dsaMu (shake256 pk 64) m) :
    ∃ cyc, mldsaVerifyCell j k =
      { status := if dsaOk (dAlg j.desc) pk sig mu = true then stOk else stSigInvalid, cycles := cyc } := by
  have htake : j.got.take (pubLen (dAlg j.desc)) = pk := by
    rw [hgot, ← hpk, List.append_assoc, List.take_left]
  have hslice : slice j.got (pubLen (dAlg j.desc)) (sigLen (dAlg j.desc)) = sig := by
    rw [slice, hgot, ← hpk, ← hsig, List.append_assoc, List.drop_left, List.take_left]
  have hdrop : j.got.drop (pubLen (dAlg j.desc) + sigLen (dAlg j.desc)) = m := by
    rw [hgot, ← hpk, ← hsig, ← List.length_append, List.drop_left]
  unfold mldsaVerifyCell
  dsimp only
  rw [htake, hslice, hdrop, hmu]
  exact ⟨_, rfl⟩

end

/-- Settles O29: each new key goes through one commit, the others through one report. -/
theorem latticeJobs : Obligations.LatticeJobs := by
  refine ⟨fun id h u s hs hr hu hrun => ?_, fun id h u s hs hr hu hrun => ?_, fun id h u s hs hr hu hl hz => ?_,
    fun id h u s hs hr hu hl hz => ?_, fun id u s hs hr hu hek => ?_, fun id s hs hr hek => ?_,
    fun id u s hs hr hu => ?_, fun id mu rnd u s hs hr hu hmu hrnd => ?_,
    fun id pk sig m mu s hs hr hgot hpk hsig hmu => ?_⟩
  · exact .ofOp rfl (opMlkemKeygen_of_served hr hu) ((drawnFrom_afterRequests hs hu [32, 32]).commitKey_made hrun)
  · exact .ofOp rfl (opMldsaKeygen_of_served hr hu) ((drawnFrom_afterRequests hs hu [32]).commitKey_made hrun)
  · exact .ofOp rfl (opMlkemKeygen_of_served hr hu)
      ((drawnFrom_afterRequests hs hu [32, 32]).commitKey_orphaned hl (not_canCommit_of hz))
  · exact .ofOp rfl (opMldsaKeygen_of_served hr hu)
      ((drawnFrom_afterRequests hs hu [32]).commitKey_orphaned hl (not_canCommit_of hz))
  · refine .ofOp rfl (opMlkemEncap_of_served hr hu hek) ?_
    obtain ⟨hdec, -, hoth⟩ := (drawnFrom_afterRequests hs hu [32]).finishCell
      { output := (kemEncaps (dAlg (s.job id).desc) (s.job id).got (Generated s u id [32])).1 ++
          (kemEncaps (dAlg (s.job id).desc) (s.job id).got (Generated s u id [32])).2
        cycles := kemEncapCycles (dAlg (s.job id).desc) }
    exact ⟨hdec, hoth⟩
  · obtain ⟨cyc, hop⟩ := opMlkemEncap_of_refused hr hek
    refine .ofOp rfl hop ?_
    obtain ⟨hdec, -, -, hoth⟩ := finishCell_decided hs id { status := stRange, detail := 0x81, cycles := cyc }
    exact ⟨hdec, hoth⟩
  · refine .ofOp rfl ((if_pos hr).trans (withDraw_of_served hu _ _)) ?_
    obtain ⟨hdec, -, hoth⟩ := (drawnFrom_afterDraw hs hu 32).finishCell
      { output := kemDecaps (dAlg (s.job id).desc) (s.job id).keyMat (s.job id).got
        cycles := kemDecapCycles (dAlg (s.job id).desc) }
    exact ⟨hdec, hoth⟩
  · obtain ⟨base, hop⟩ := opMldsaSign_of_served hr hu
    refine .ofOp rfl hop ?_
    rw [← hmu, ← hrnd]
    have hd := drawnFrom_afterDraw hs hu 32
    cases hsign : dsaSign (dAlg (s.job id).desc) (dsaKeys (dAlg (s.job id).desc) (s.job id).keyMat) mu rnd with
    | none =>
      obtain ⟨hdec, hinfo, hoth⟩ := hd.finishCell (dsaSigned none base (dsaPer (dAlg (s.job id).desc)))
      exact ⟨⟨hdec, hinfo⟩, hoth⟩
    | some r =>
      obtain ⟨hdec, hinfo, hoth⟩ := hd.finishCell (dsaSigned (some r) base (dsaPer (dAlg (s.job id).desc)))
      exact ⟨⟨hdec, hinfo⟩, hoth⟩
  · refine completes_ofCell (o := .mldsaVerify) (f := mldsaVerifyCell) rfl hr ?_
    obtain ⟨cyc, hcell⟩ := mldsaVerifyCell_eq (StreamBefore s id .mldsaVerify) hgot hpk hsig hmu
    obtain ⟨hdec, -, -, hoth⟩ := finishCell_decided hs id (mldsaVerifyCell (s.job id) (StreamBefore s id .mldsaVerify))
    rw [hcell] at hdec hoth ⊢
    exact ⟨hdec, hoth⟩

end Sys2Proof.Machine
end

section
/-! SUPPORT. The key management opcodes of the propolis engine and of the combs (R230 to R244), and the blobs of contexts
(R125 to R127): the theorems that settle O30, O32 and O33. -/

namespace Sys2Proof.Machine

/-! ## The engine's report -/

section

variable {id : Nat} {s : State}

theorem SetsJob.ppDone {j : Job} {s u : State} (h : SetsJob id j s u) : SetsJob id j s (ppDone u id) :=
  h.keeps (F := { ks := true, freeN := true }) (ppDone_keeps _ _ rfl rfl (Keeps.refl _ _)) rfl

theorem ppEnds_setsJob (hs : s.Inv) (id : Nat) (r : CellOut) :
    ∃ k, SetsJob id k s (ppEnds s id r) ∧ CellEnded (s.job id) r k := by
  obtain ⟨k, h, hk⟩ := finishCell_setsJob hs id r
  exact ⟨k, h.ppDone, hk⟩

theorem ppEnds_decided (hs : s.Inv) (id : Nat) (r : CellOut) :
    Decided (ppEnds s id r) id r.status r.detail r.output ∧ OtherJobs id s (ppEnds s id r) := by
  obtain ⟨k, h, hk⟩ := ppEnds_setsJob hs id r
  simp only [Decided, h.job]
  exact ⟨⟨hk.stage, hk.status, hk.detail, hk.output⟩, h.others⟩

theorem ppEnds_slots (s : State) (id : Nat) (r : CellOut) : (ppEnds s id r).slots = s.slots :=
  (ppEnds_keeps (F := { dma := true, ks := true, ctxs := true, jobs := true, freeN := true }) s id r rfl rfl rfl rfl rfl
    (Keeps.refl _ s)).slots_eq rfl

theorem ppDone_slot (s : State) (id p : Nat) : (ppDone s id).slot p = s.slot p :=
  (ppDone_keeps (F := { ks := true, freeN := true }) s id rfl rfl (Keeps.refl _ s)).slot_eq rfl p

theorem ppDone_job (s : State) (id k : Nat) : (ppDone s id).job k = s.job k :=
  (ppDone_keeps (F := { ks := true, freeN := true }) s id rfl rfl (Keeps.refl _ s)).job_eq rfl k

/-- A new key that the engine made. -/
theorem newKey_ppDone {t : State} {h : Nat} {mat out : Bytes} (hn : NewKey s t id h mat out) (ho : OtherJobs id s t) :
    NewKey s (ppDone t id) id h mat out ∧ OtherJobs id s (ppDone t id) := by
  simpa only [NewKey, Decided, OtherJobs, ppDone_slot, ppDone_job] using And.intro hn ho

theorem commitKey_newKey {h : Nat} {mat out : Bytes} {cyc : Nat} (hs : s.Inv) (hrun : RunHeld s id h) :
    NewKey s (commitKey s id mat out cyc) id h mat out ∧ OtherJobs id s (commitKey s id mat out cyc) := by
  obtain ⟨hl, hc⟩ := hrun
  exact commitKey_made hs hl hc

/-- Settles O30: each wrapping is one report of the engine, and an unwrapped key is one commit. -/
theorem keyTransport : Obligations.KeyTransport := by
  refine ⟨fun id s hs hr => ?_, fun id h s hs hr hrun => ?_, fun id s hs hr => ?_⟩
  · refine .ofOp rfl (if_pos hr) ?_
    obtain ⟨hdec, hoth⟩ := ppEnds_decided hs id
      { output := if dSub (s.job id).desc = 0 then kwpWrap (s.job id).keyMat
          (blobHeader (s.slot (((s.job id).refs[1]?).getD 0)).ktype (s.job id).wrapMat.length
            (s.slot (((s.job id).refs[1]?).getD 0)).policy ++ (s.job id).wrapMat)
          else if dSub (s.job id).desc = 1 then kwWrap (s.job id).keyMat (s.job id).wrapMat
          else kwpWrap (s.job id).keyMat (s.job id).wrapMat
        cycles := wrapCost ((if dSub (s.job id).desc = 0 then kwpWrap (s.job id).keyMat
          (blobHeader (s.slot (((s.job id).refs[1]?).getD 0)).ktype (s.job id).wrapMat.length
            (s.slot (((s.job id).refs[1]?).getD 0)).policy ++ (s.job id).wrapMat)
          else if dSub (s.job id).desc = 1 then kwWrap (s.job id).keyMat (s.job id).wrapMat
          else kwpWrap (s.job id).keyMat (s.job id).wrapMat).length / 8 - 1) }
    exact ⟨hdec, ppEnds_slots _ _ _, hoth⟩
  · refine .ofOp rfl (if_neg (by rw [hr]; decide)) ?_
    cases hplain : unwrapPlain (dSub (s.job id).desc) (s.job id).keyMat (s.job id).got with
    | none =>
      obtain ⟨hdec, hoth⟩ := ppEnds_decided hs id
        { status := stAuthFail, cycles := wrapCost (dMsg (s.job id).desc / 8 - 1) }
      exact ⟨⟨hdec, ppEnds_slots _ _ _⟩, hoth⟩
    | some p =>
      dsimp only
      cases hkey : unwrapped (dSub (s.job id).desc) (kbType (s.job id).desc) (kbPolicy (s.job id).desc) p with
      | none =>
        obtain ⟨hdec, hoth⟩ := ppEnds_decided hs id
          { status := stPolicy, detail := 0x0B, cycles := wrapCost (dMsg (s.job id).desc / 8 - 1) }
        exact ⟨⟨hdec, ppEnds_slots _ _ _⟩, hoth⟩
      | some m =>
        obtain ⟨hnew, hoth⟩ := commitKey_newKey (mat := m) (out := [])
          (cyc := wrapCost (dMsg (s.job id).desc / 8 - 1)) hs hrun
        exact newKey_ppDone hnew hoth
  · refine .ofOp rfl (if_pos hr) ?_
    obtain ⟨hdec, hoth⟩ := ppEnds_decided hs id
      { output := checkValue (s.slot (s.job id).keyPos).ktype (s.job id).keyMat
        cycles := 300 * ((checkValue (s.slot (s.job id).keyPos).ktype (s.job id).keyMat).length / 16) }
    refine ⟨?_, hoth⟩
    simpa only [checkValue, Bool.or_eq_true, decide_eq_true_eq] using hdec

/-! ## New keys (R207, R208, R230 to R234) -/

/-- The report of a job moves nothing of the key store but the engine's queues. -/
theorem finishCell_ks (s : State) (id : Nat) (r : CellOut) :
    ∃ q, (finishCell s id r).ks = { s.ks with ppQueues := q } := by
  have hrep : (reported s id r).ks = { s.ks with ppQueues := s.ks.ppQueues.map fun q => q.filter (· != id) } := by
    unfold reported drainCell
    dsimp only
    split <;> rfl
  rcases finishCell_eq s id r with heq | ⟨f, heq⟩ <;> rw [heq]
  exacts [⟨_, hrep⟩, ⟨_, hrep⟩]

theorem commitKey_ppOps (s : State) (id : Nat) (mat out : Bytes) (cyc : Nat) :
    (commitKey s id mat out cyc).ks.ppOps = s.ks.ppOps := by
  obtain ⟨lane, n, heq⟩ := commitKey_eq s id mat out cyc
  have hk := commitRun_keeps (F := { slots := true }) s (s.job id).reserved mat rfl (Keeps.refl _ s)
  obtain ⟨-, -, hunch⟩ := hk
  have hks : (commitRun s (s.job id).reserved mat).2.ks = s.ks := hunch.ks.resolve_right (by decide)
  obtain ⟨q, hq⟩ := finishCell_ks { (commitRun s (s.job id).reserved mat).2.modJob id fun j => j.committed lane with
    freeN := n } id (if (commitRun s (s.job id).reserved mat).1 then { output := out, cycles := cyc }
      else { status := stOrphaned, detail := 0x02, cycles := cyc })
  rw [heq, hq]
  exact congrArg (·.ppOps) hks

theorem ppDone_ppOps (s : State) (id : Nat) :
    (ppDone s id).ks.ppOps = s.ks.ppOps + if (s.job id).acct = .propolis then 1 else 0 := by
  unfold ppDone
  by_cases h : (s.job id).acct = .propolis <;> simp [h, ppCount]

theorem opKeyGenerate_of_served {u : State} (hr : s.ready id .keyGenerate = true) (hu : Served s id u)
    (hc : ktCurve (kbType (s.job id).desc) = false) :
    opKeyGenerate id s = commitKey (afterRequests s u id [NewLen (s.job id)]) id (Generated s u id [NewLen (s.job id)])
      [] 64 := by
  unfold opKeyGenerate
  dsimp only
  rw [hr, hc, if_neg (by decide), if_neg (by decide)]
  exact withDrbg_of_served hu _ _

theorem opKeyGenerate_of_curve {u : State} {n : Nat} (hr : s.ready id .keyGenerate = true) (hu : Served s id u)
    (hc : ktCurve (kbType (s.job id).desc) = true)
    (hn : n = if kbType (s.job id).desc % 256 < 0x10 then NewLen (s.job id) + 8 else NewLen (s.job id)) :
    opKeyGenerate id s = commitKey (afterRequests s u id [n]) id
      (curveKey (kbType (s.job id).desc) (Generated s u id [n])).1
      (curveKey (kbType (s.job id).desc) (Generated s u id [n])).2 (pointCycles (kbType (s.job id).desc % 256) 1) := by
  subst hn
  unfold opKeyGenerate
  dsimp only
  rw [hr, hc, if_neg (by decide), if_pos rfl]
  exact withDrbg_of_served hu _ _

/-- The material that KEY_DERIVE makes (R230, R231). -/
def derivedKey (j : Job) : Bytes :=
  (if dSub j.desc = 1 then kdfHash else kdf) j.keyMat (kbLabel j.desc) (deriveCtx j) (NewLen j)

theorem opKeyDerive_of_served (hr : served s id .keyDerive = true) :
    opKeyDerive id s = ppDone (commitKey s id (derivedKey (s.job id)) [] (deriveCost (s.job id) (NewLen (s.job id)))) id := by
  have hkdf : (if dSub (s.job id).desc = 1 then kdfHash (s.job id).keyMat (kbLabel (s.job id).desc)
        (deriveCtx (s.job id)) (NewLen (s.job id))
      else kdf (s.job id).keyMat (kbLabel (s.job id).desc) (deriveCtx (s.job id)) (NewLen (s.job id))) =
      derivedKey (s.job id) := by
    unfold derivedKey
    split <;> rfl
  rw [← hkdf]
  exact if_pos hr

/-- The secret that KEY_AGREE_TO_SLOT takes from a curve. -/
def curveSecret (j : Job) : BitVec 8 ⊕ Bytes :=
  if dAlg j.desc < 0x10 then ecdhOf (dAlg j.desc) j.keyMat j.got else xdhOf (dAlg j.desc) j.keyMat j.got

/-- The cycles of KEY_AGREE_TO_SLOT on a curve. -/
def curveAgreeCycles (j : Job) : Nat := if dAlg j.desc < 0x10 then ecdhCycles (dAlg j.desc) else xdhCycles (dAlg j.desc)

theorem opKeyAgreeToSlot_of_kem {u : State} {fault : Bool} (hr : s.ready id .keyAgreeToSlot = true)
    (hu : Served s id u) (ha : 0x41 ≤ dAlg (s.job id).desc) :
    opKeyAgreeToSlot id fault s = commitKey (afterDraw s u id 32) id
      (kemDecaps (dAlg (s.job id).desc) (s.job id).keyMat (s.job id).got) [] (kemDecapCycles (dAlg (s.job id).desc)) := by
  unfold opKeyAgreeToSlot
  dsimp only
  rw [hr, if_neg (by decide), if_pos ha]
  exact withDraw_of_served hu _ _

theorem opKeyAgreeToSlot_of_curve {fault : Bool} (hr : s.ready id .keyAgreeToSlot = true)
    (ha : dAlg (s.job id).desc < 0x41) :
    opKeyAgreeToSlot id fault s = agreed s id (curveAgreeCycles (s.job id)) fault (curveSecret (s.job id))
      fun z v => commitKey v id z [] (curveAgreeCycles (s.job id)) := by
  unfold opKeyAgreeToSlot
  dsimp only
  rw [hr, if_neg (by decide), if_neg (by omega)]
  rfl

theorem finishCell_slots (s : State) (id : Nat) (r : CellOut) : (finishCell s id r).slots = s.slots :=
  (finishCell_keeps (F := { dma := true, ks := true, ctxs := true, jobs := true }) s id r rfl rfl rfl rfl
    (Keeps.refl _ s)).slots_eq rfl

theorem faultCheck_slots (s : State) (id cyc : Nat) : (faultCheck s id cyc).slots = s.slots :=
  (faultCheck_keeps (F := { aon := true, ev := true, dma := true, ks := true, fns := true, tenants := true, ctxs := true,
                            combs := true, jobs := true }) s id cyc rfl rfl rfl rfl rfl rfl rfl rfl rfl
    (Keeps.refl _ s)).slots_eq rfl

/-- Settles O32: what the draws or the derivation give becomes the new key by one commit. -/
theorem keyCreation : Obligations.KeyCreation := by
  refine ⟨fun id h u s hs hr hu hrun hc => ?_, fun id h r u s hs hr hu hrun hc hrand => ?_,
    fun id h s hs hr hrun => ?_, fun id h fault u s hs hr hu hrun ha => ?_,
    fun id h r u s hs hr hu hrun ha hsecret => ?_, fun id z u s hs hr hu ha hz => ?_⟩
  · exact .ofOp rfl (opKeyGenerate_of_served hr hu hc) ((drawnFrom_afterRequests hs hu _).commitKey_made hrun)
  · subst hrand
    exact .ofOp rfl (opKeyGenerate_of_curve hr hu hc rfl) ((drawnFrom_afterRequests hs hu _).commitKey_made hrun)
  · refine .ofOp rfl (opKeyDerive_of_served hr) ?_
    obtain ⟨-, -, hacct, -, -⟩ := commitKey_setsJob hs id (derivedKey (s.job id)) []
      (deriveCost (s.job id) (NewLen (s.job id)))
    obtain ⟨hnew, hoth⟩ := commitKey_newKey (mat := derivedKey (s.job id)) (out := [])
      (cyc := deriveCost (s.job id) (NewLen (s.job id))) hs hrun
    obtain ⟨hnew', hoth'⟩ := newKey_ppDone hnew hoth
    refine ⟨hnew', ?_, hoth'⟩
    rw [ppDone_ppOps, commitKey_ppOps, hacct]
  · exact .ofOp rfl (opKeyAgreeToSlot_of_kem hr hu ha) ((drawnFrom_afterDraw hs hu 32).commitKey_made hrun)
  · have hop := opKeyAgreeToSlot_of_curve (fault := false) hr ha
    have hsec : curveSecret (s.job id) = r := hsecret.symm
    rw [hsec] at hop
    have hd := drawnFrom_afterDraw hs hu 16
    cases r with
    | inl det =>
      by_cases h81 : det = 0x81
      · subst h81
        refine .ofOp rfl (hop.trans agreed_of_refused_early) ?_
        obtain ⟨hdec, -, -, hoth⟩ := finishCell_decided hs id
          { status := stRange, detail := 0x81, cycles := curveAgreeCycles (s.job id) }
        exact ⟨⟨hdec, finishCell_slots _ _ _⟩, hoth⟩
      · refine .ofOp rfl (hop.trans (agreed_of_refused_late h81 hu)) ?_
        obtain ⟨hdec, -, hoth⟩ := hd.finishCell
          { status := stRange, detail := det, cycles := curveAgreeCycles (s.job id) }
        exact ⟨⟨hdec, (finishCell_slots _ _ _).trans (hd.keeps.slots_eq rfl)⟩, hoth⟩
    | inr z =>
      refine .ofOp rfl (hop.trans (agreed_of_secret hu)) ?_
      exact hd.commitKey_made hrun
  · have hop := opKeyAgreeToSlot_of_curve (fault := true) hr ha
    have hsec : curveSecret (s.job id) = .inr z := hz
    rw [hsec] at hop
    have hd := drawnFrom_afterDraw hs hu 16
    refine .ofOp rfl (hop.trans (agreed_of_secret hu)) ?_
    obtain ⟨hfault, hoth⟩ := hd.faultCheck (curveAgreeCycles (s.job id))
    exact ⟨hfault, (faultCheck_slots _ _ _).trans (hd.keeps.slots_eq rfl), hoth⟩

end

/-! ## Blobs of contexts -/

section

variable {id : Nat} {s : State}

theorem ppEnds_ctxs (s : State) (id : Nat) {r : CellOut} (hr : r.ctx = none) : (ppEnds s id r).ctxs = s.ctxs := by
  have hfin : finishCell s id r = reported s id r := by
    unfold finishCell
    rw [hr]
    rfl
  have hk : Keeps { dma := true, ks := true, jobs := true, freeN := true } s (ppEnds s id r) := by
    refine ppDone_keeps _ _ rfl rfl ?_
    rw [hfin]
    exact drainCell_keeps _ _ rfl (modJob_keeps _ _ _ rfl (decide7_keeps _ _ _ _ rfl rfl rfl (Keeps.refl _ s)))
  obtain ⟨-, -, hunch⟩ := hk
  exact hunch.ctxs.resolve_right (by decide)

/-- A report of the engine that leaves every context as it was. -/
theorem ppEnds_plain (hs : s.Inv) (id : Nat) {r : CellOut} (hr : r.ctx = none) :
    Decided (ppEnds s id r) id r.status r.detail r.output ∧ (ppEnds s id r).ctxs = s.ctxs ∧
      OtherJobs id s (ppEnds s id r) := by
  obtain ⟨hdec, hoth⟩ := ppEnds_decided hs id r
  exact ⟨hdec, ppEnds_ctxs s id hr, hoth⟩

theorem not_substitution_of_open (h : laneShut s = false) : ¬ (s.ks.zeroising == some .substitution) = true := by
  intro hsub
  rw [laneShut, beq_iff_eq.1 hsub] at h
  cases h

/-- The blob of a hash stream. -/
theorem exportBlob_of_hash (c : Nat) {k : Ctx} (hk : ctxKind k.opcode = 0) :
    exportBlob c k = [0x01, 0x00] ++ natLe 2 k.opcode ++ [BitVec.ofNat 8 k.alg, 0] ++ natLe 2 c ++ zeros 8 ++
      fit k.chain 216 ++ natLe 8 k.done ++ zeros 32 := by
  unfold exportBlob
  dsimp only
  rw [hk]
  exact if_pos rfl

theorem opCtxExport_of_clear (hr : served s id .ctxExport = true) (hk : ctxKind (CtxOf s (s.job id)).opcode = 0)
    (hc : (s.job id).clear = true) :
    opCtxExport id s = ppEnds s id { output := exportBlob (s.job id).client (CtxOf s (s.job id)) } := by
  unfold opCtxExport
  dsimp only
  rw [hr, if_neg (by decide)]
  exact if_pos (by rw [Bool.and_eq_true, decide_eq_true_eq]; exact ⟨hk, hc⟩)

theorem opCtxExport_of_wrapped (hr : served s id .ctxExport = true)
    (hk : ctxKind (CtxOf s (s.job id)).opcode ≠ 0 ∨ (s.job id).clear = false) :
    opCtxExport id s =
      if s.ks.zeroising == some .substitution then ppEnds s id (cellFail stOrphaned 0x03)
      else if laneShut s then s
      else match ctxKeyOf s (s.job id).client with
        | none => ppEnds s id (cellFail stOrphaned 0x03)
        | some ck => ppEnds s id { output := kwpWrap ck (exportBlob (s.job id).client (CtxOf s (s.job id)))
                                   cycles := wrapCost 34 } := by
  unfold opCtxExport
  dsimp only
  rw [hr, if_neg (by decide)]
  refine (if_neg fun h => ?_).trans ?_
  · rw [Bool.and_eq_true, decide_eq_true_eq] at h
    obtain ⟨h0, hc⟩ := h
    rcases hk with hk | hk
    · exact hk h0
    · rw [hc] at hk; cases hk
  · rfl

theorem opCtxImport_of_wrapped (hr : served s id .ctxImport = true) (hm : dMsg (s.job id).desc ≠ 272) :
    opCtxImport id s =
      if s.ks.zeroising == some .substitution then ppEnds s id (cellFail stOrphaned 0x03)
      else if laneShut s then s
      else match ctxKeyOf s (s.job id).client with
        | none => ppEnds s id (cellFail stOrphaned 0x03)
        | some ck =>
          match kwpUnwrap ck (s.job id).got with
          | none => ppEnds s id { status := stAuthFail, cycles := wrapCost 34 }
          | some b => importBlob s id b false := by
  unfold opCtxImport
  dsimp only
  rw [hr]
  exact (if_neg (by decide)).trans (if_neg hm)

/-- A blob is judged, and kept where it passes. -/
theorem importBlob_judged (hs : s.Inv) (id : Nat) (b : Bytes) (clear : Bool) :
    (match importIssue s (s.job id) b clear with
      | some (st, det) => Decided (importBlob s id b clear) id st det []
      | none => Decided (importBlob s id b clear) id stOk 0 [] ∧ ((importBlob s id b clear).job id).wrapMat = b) ∧
      (importBlob s id b clear).ctxs = s.ctxs ∧ OtherJobs id s (importBlob s id b clear) := by
  unfold importBlob
  dsimp only
  cases importIssue s (s.job id) b clear with
  | some d =>
    obtain ⟨st, det⟩ := d
    exact ppEnds_plain hs id rfl
  | none =>
    have hj := (SetsJob.refl (id := id) hs).modJob fun j => { j with wrapMat := b }
    dsimp only
    obtain ⟨k, ht, hk⟩ := ppEnds_setsJob hj.inv id { cycles := if clear then 0 else wrapCost 34 }
    refine ⟨⟨?_, ?_⟩, ppEnds_ctxs _ id rfl, hj.others.trans ht.others⟩
    · simp only [Decided, ht.job]
      exact ⟨hk.stage, hk.status, hk.detail, hk.output⟩
    · rw [ht.job, hk.wrapMat, hj.job]

end

/-- Settles O33: the blob of a context leaves, or is judged; the lane and the context key decide before. -/
theorem contextBlobs : Obligations.ContextBlobs := by
  refine ⟨fun id k s hs hr hctx hk hc => ?_, fun id ck s hs hr hw hopen hck => ?_, fun id s hs hr hw hopen hck => ?_,
    fun id s hs hr hw hshut => ?_, fun id s hs hr hm => ?_, fun id ck s hs hr hm hopen hck => ?_,
    fun id s hs hr hm hopen hck => ?_, fun id s hs hr hm hshut => ?_⟩
  · subst hctx
    refine .ofOp rfl (opCtxExport_of_clear hr hk hc) ?_
    obtain ⟨hdec, hctxs, hoth⟩ := ppEnds_plain hs id
      (r := { output := exportBlob (s.job id).client (CtxOf s (s.job id)) }) rfl
    exact ⟨by rwa [exportBlob_of_hash _ hk] at hdec ⊢, hctxs, hoth⟩
  · refine .ofOp rfl (opCtxExport_of_wrapped hr hw) ?_
    rw [if_neg (not_substitution_of_open hopen), hopen, if_neg (by decide), hck]
    exact ppEnds_plain hs id rfl
  · refine .ofOp rfl (opCtxExport_of_wrapped hr hw) ?_
    rw [if_neg (not_substitution_of_open hopen), hopen, if_neg (by decide), hck]
    obtain ⟨hdec, -, hoth⟩ := ppEnds_plain hs id (r := cellFail stOrphaned 0x03) rfl
    exact ⟨hdec, hoth⟩
  · refine .ofOp rfl (opCtxExport_of_wrapped hr hw) ?_
    by_cases hsub : s.ks.zeroising = some .substitution
    · rw [if_pos (beq_iff_eq.2 hsub), if_pos hsub]
      exact ppEnds_plain hs id rfl
    · rw [if_neg (mt beq_iff_eq.1 hsub), if_pos hshut, if_neg hsub]
  · refine .ofOp rfl ((if_neg (by rw [hr]; decide)).trans (if_pos hm)) ?_
    exact importBlob_judged hs id _ true
  · refine .ofOp rfl (opCtxImport_of_wrapped hr hm) ?_
    rw [if_neg (not_substitution_of_open hopen), hopen, if_neg (by decide), hck]
    dsimp only
    cases kwpUnwrap ck (s.job id).got with
    | none => exact ppEnds_plain hs id rfl
    | some b => exact importBlob_judged hs id b false
  · refine .ofOp rfl (opCtxImport_of_wrapped hr hm) ?_
    rw [if_neg (not_substitution_of_open hopen), hopen, if_neg (by decide), hck]
    exact ppEnds_plain hs id rfl
  · refine .ofOp rfl (opCtxImport_of_wrapped hr hm) ?_
    by_cases hsub : s.ks.zeroising = some .substitution
    · rw [if_pos (beq_iff_eq.2 hsub), if_pos hsub]
      exact ppEnds_plain hs id rfl
    · rw [if_neg (mt beq_iff_eq.1 hsub), if_pos hshut, if_neg hsub]

end Sys2Proof.Machine
end

section
/-! SUPPORT. KEY_INVALIDATE and KEY_ATTEST (R235, R237, R244, R245): the theorem that settles O31. -/

namespace Sys2Proof.Machine

section

variable {s : State} {id c i p : Nat}

/-! ## Invalidation -/

/-- The slot behind an invalidation. -/
def KSlot.invalidated (k : KSlot) : KSlot :=
  { k with state := .invalid, run := if k.bad = 2 then 1 else k.run, bad := 0, gen := k.gen + 1, adv := k.adv + 1 }

theorem bumpGen_same (hs : s.wf = true) (p : Nat) :
    (bumpGen s p).slot p = { s.slot p with gen := (s.slot p).gen + 1, adv := (s.slot p).adv + 1 } :=
  State.modSlot_same hs _ _

theorem bumpGen_other {k : Nat} (hk : k ≠ p) : (bumpGen s p).slot k = s.slot k := State.modSlot_other _ _ _ _ hk

theorem invalidate_same (hs : s.wf = true) (hi : i ≠ 0) (hp : s.slotPos c i = some p) :
    (invalidate s c i).slot p = (s.slot p).invalidated := by
  unfold invalidate
  rw [if_neg hi, hp]
  dsimp only
  rw [bumpGen_same (State.modSlot_wf hs _ _), State.modSlot_same hs]
  rfl

theorem invalidate_other (hi : i ≠ 0) (hp : s.slotPos c i = some p) {k : Nat} (hk : k ≠ p) :
    (invalidate s c i).slot k = s.slot k := by
  unfold invalidate
  rw [if_neg hi, hp]
  dsimp only
  rw [bumpGen_other hk, State.modSlot_other _ _ _ _ hk]

/-! ### The session parent -/

theorem spPos_ne_ckPos (c : Nat) : spPos c ≠ ckPos c := by
  unfold spPos ckPos
  omega

theorem spPos_ne_trPos (c : Nat) : trPos c ≠ spPos c := by
  unfold spPos trPos
  omega

/-- A session node derived afresh. -/
def sessionNode (s : State) (c pol : Nat) (k : KSlot) (label : Bytes) : KSlot :=
  nodeSlot k c s.ks.testRoot pol (trPos c) (s.gen (trPos c))
    (kdf (s.slot (trPos c)).mat label (bvBe 2 (s.gen (spPos c))) 32)

theorem deriveSession_sp (hs : s.wf = true) (c : Nat) :
    (deriveSession s c).slot (spPos c) = sessionNode s c 0x300 (s.slot (spPos c)) (ascii "QHV1 SESSION") :=
  (State.modSlot_other _ _ _ _ (spPos_ne_ckPos c)).trans (State.modSlot_same hs _ _)

theorem deriveSession_ck (hs : s.wf = true) (c : Nat) :
    (deriveSession s c).slot (ckPos c) = sessionNode s c 0 (s.slot (ckPos c)) (ascii "QHV1 CTXKEY") := by
  unfold deriveSession
  dsimp only
  rw [State.modSlot_same (State.modSlot_wf hs _ _), State.modSlot_other _ _ _ _ (spPos_ne_ckPos c).symm]
  rfl

theorem deriveSession_other {k : Nat} (hsp : k ≠ spPos c) (hck : k ≠ ckPos c) :
    (deriveSession s c).slot k = s.slot k :=
  (State.modSlot_other _ _ _ _ hck).trans (State.modSlot_other _ _ _ _ hsp)

theorem invalidate_zero {h : Bytes} (hh : s.ks.hrk = some h) :
    invalidate s c 0 = deriveSession (bumpGen s (spPos c)) c := by
  have hb : (bumpGen s (spPos c)).ks.hrk = some h := hh
  unfold invalidate moveSession
  dsimp only
  rw [if_pos rfl, hb]
  rfl

/-! ## The end of KEY_INVALIDATE -/

/-- The job reports no comb. -/
def endsNoComb (s : State) (id : Nat) (r : CellOut) : State :=
  (finishCell s id r).modJob id fun x => { x with noComb := true }

theorem endsNoComb_decided (hs : s.Inv) (id : Nat) (r : CellOut) :
    Decided (endsNoComb s id r) id r.status r.detail r.output ∧ ((endsNoComb s id r).job id).noComb = true ∧
      OtherJobs id s (endsNoComb s id r) := by
  obtain ⟨k, h, hk⟩ := finishCell_setsJob hs id r
  have ht := h.modJob fun x => { x with noComb := true }
  simp only [Decided, endsNoComb, ht.job]
  exact ⟨⟨hk.stage, hk.status, hk.detail, hk.output⟩, trivial, ht.others⟩

theorem endsNoComb_slot (s : State) (id : Nat) (r : CellOut) (k : Nat) : (endsNoComb s id r).slot k = s.slot k := by
  have h := finishCell_slots s id r
  simp only [endsNoComb, State.modJob_get_slot]
  rw [State.slot, State.slot, h]

theorem endsNoComb_genBase (s : State) (id : Nat) (r : CellOut) : (endsNoComb s id r).ks.genBase = s.ks.genBase := by
  obtain ⟨q, hq⟩ := finishCell_ks s id r
  have h : (endsNoComb s id r).ks = (finishCell s id r).ks := rfl
  rw [h, hq]

theorem opKeyInvalidate_of_issue {st : Status} {det : BitVec 8} (hk : s.hv.kclk = true)
    (hr : s.ready id .keyInvalidate = true)
    (hi : invalidateIssue s (s.job id).client (dKeySlot (s.job id).desc) = some (st, det)) :
    opKeyInvalidate id s = endsNoComb s id (cellFail st det) := by
  unfold opKeyInvalidate
  dsimp only
  rw [hr, hk, if_neg (by decide), hi]
  rfl

theorem opKeyInvalidate_of_pass (hk : s.hv.kclk = true) (hr : s.ready id .keyInvalidate = true)
    (hi : invalidateIssue s (s.job id).client (dKeySlot (s.job id).desc) = none)
    (hp : s.slotPos (s.job id).client (dKeySlot (s.job id).desc) = some p) (hheld : s.held237 p = false) :
    opKeyInvalidate id s = endsNoComb (invalidate (eraseSlotRec s (s.job id).client (dKeySlot (s.job id).desc))
      (s.job id).client (dKeySlot (s.job id).desc)) id {} := by
  have hw : invalidateWaits s (s.job id).client (dKeySlot (s.job id).desc) = false := by
    unfold invalidateWaits
    rw [hp]
    exact hheld
  unfold opKeyInvalidate
  dsimp only
  rw [hr, hk, if_neg (by decide), hi]
  dsimp only
  rw [hw]
  rfl

theorem opKeyInvalidate_of_held (hr : s.ready id .keyInvalidate = true)
    (hi : invalidateIssue s (s.job id).client (dKeySlot (s.job id).desc) = none)
    (hp : s.slotPos (s.job id).client (dKeySlot (s.job id).desc) = some p) (hheld : s.held237 p = true) :
    opKeyInvalidate id s = s := by
  have hw : invalidateWaits s (s.job id).client (dKeySlot (s.job id).desc) = true := by
    unfold invalidateWaits
    rw [hp]
    exact hheld
  unfold opKeyInvalidate
  dsimp only
  cases hk : s.hv.kclk with
  | false => exact if_pos (by simp)
  | true =>
    rw [hr, if_neg (by decide), hi]
    exact if_pos hw

/-- Erasing the persistent record of a slot changes the store alone. -/
theorem eraseSlotRec_store (s : State) (c i : Nat) : Keeps { store := true } s (eraseSlotRec s c i) :=
  eraseSlotRec_keeps s c i rfl (Keeps.refl _ s)

theorem Keeps.ks_eq {F : Foot} {s t : State} (h : Keeps F s t) (hF : F.ks = false) : t.ks = s.ks := by
  obtain ⟨-, -, hunch⟩ := h
  exact hunch.ks.resolve_right (by simp [hF])

theorem slotPos_eraseSlotRec (s : State) (c i d k : Nat) : (eraseSlotRec s c i).slotPos d k = s.slotPos d k := by
  unfold State.slotPos
  rw [(eraseSlotRec_store s c i).tenant_eq rfl]

/-! ## KEY_ATTEST -/

theorem retire_nonces (hs : s.wf = true) (c : Nat) (f : NonceBlock → Bool) :
    ((retire s c f).comb c).nonces = (s.comb c).nonces.filter fun e => !f e := by
  unfold retire abandonNonces
  dsimp only
  rw [State.modComb_same (State.modComb_wf hs _ _), State.modComb_same hs]

theorem retire_other {d : Nat} (c : Nat) (f : NonceBlock → Bool) (hd : d ≠ c) :
    (retire s c f).comb d = s.comb d := by
  unfold retire abandonNonces
  dsimp only
  rw [State.modComb_other _ _ _ _ hd, State.modComb_other _ _ _ _ hd]

theorem retire_wf (hs : s.wf = true) (c : Nat) (f : NonceBlock → Bool) : (retire s c f).wf = true :=
  State.modComb_wf (State.modComb_wf hs _ _) _ _

/-- Blocks of a slot are in no comb that was retired, and in no other where they were not. -/
theorem each_retire_nonces {pos : Nat} (l : List Nat) (hs : s.wf = true) {c : Nat}
    (hc : c ∈ l ∨ ∀ b ∈ (s.comb c).nonces, b.pos ≠ pos) :
    ∀ b ∈ ((s.each l fun s c => retire s c fun b => b.pos == pos).comb c).nonces, b.pos ≠ pos := by
  induction l generalizing s with
  | nil => exact hc.resolve_left (List.not_mem_nil)
  | cons d l ih =>
    refine ih (retire_wf hs _ _) ?_
    by_cases hd : c = d
    · refine .inr fun b hb => ?_
      rw [hd, retire_nonces hs] at hb
      simpa using (List.mem_filter.1 hb).2
    · refine hc.imp (fun h => (List.mem_cons.1 h).resolve_left hd) fun h => ?_
      rwa [retire_other _ _ hd]

/-- No comb keeps a block of the slot. -/
theorem retireSlot_nonces (hs : s.wf = true) (pos c : Nat) :
    ∀ b ∈ ((retireSlot s pos).comb c).nonces, b.pos ≠ pos := by
  refine each_retire_nonces _ hs ?_
  rcases tblGet_mem_or ({} : Comb) s.combs c with hmem | hdef
  · exact .inl (List.mem_map_of_mem (f := Prod.fst) hmem)
  · refine .inr fun b hb => ?_
    rw [State.comb, hdef] at hb
    cases hb

/-- The state in which KEY_ATTEST reads the slot. -/
def attestState (s : State) (pos : Nat) : State := if (s.slot pos).pol 13 = true then retireSlot s pos else s

theorem attestState_keeps (s : State) (pos : Nat) : Keeps { combs := true } s (attestState s pos) := by
  unfold attestState
  split
  · exact retireSlot_keeps _ _ rfl (Keeps.refl _ s)
  · exact Keeps.refl _ s

theorem opKeyAttest_of_served (hr : served s id .keyAttest = true) :
    ∃ cyc, opKeyAttest id s = ppEnds (attestState s (s.job id).keyPos) id
      { output := statement (attestState s (s.job id).keyPos) (s.job id) (s.job id).keyPos ++
          edSign 0x11 false ((attestState s (s.job id).keyPos).ks.devSeed.getD [])
            (ascii "QHV1 KEY_ATTEST" ++ [0] ++
              statement (attestState s (s.job id).keyPos) (s.job id) (s.job id).keyPos)
        cycles := cyc } := by
  unfold opKeyAttest
  dsimp only
  rw [hr, if_neg (by decide)]
  exact ⟨_, rfl⟩

end

/-- Settles O31: the checks, the one slot or the session that moves, and the statement with its signature. -/
theorem keyInvalidation : Obligations.KeyInvalidation := by
  refine ⟨fun id st det s hs hk hr hi => ?_, fun id p s hs hk hr hi h0 hp hheld => ?_,
    fun id c hrk s hs hk hr hc h0 hi hp hheld hhrk => ?_, fun id p s hs hr hi hp hheld => ?_,
    fun id st s hs hr hst => ?_⟩
  · refine .ofOp rfl (opKeyInvalidate_of_issue hk hr hi) ?_
    obtain ⟨hdec, hno, hoth⟩ := endsNoComb_decided hs id (cellFail st det)
    exact ⟨hdec, hno, finishCell_slots s id _, hoth⟩
  · refine .ofOp rfl (opKeyInvalidate_of_pass hk hr hi hp hheld) ?_
    generalize hu : eraseSlotRec s (s.job id).client (dKeySlot (s.job id).desc) = u
    have hku : Keeps { store := true } s u := hu ▸ eraseSlotRec_store _ _ _
    have hpu : u.slotPos (s.job id).client (dKeySlot (s.job id).desc) = some p := by
      rw [← hu, slotPos_eraseSlotRec, hp]
    generalize hv : invalidate u (s.job id).client (dKeySlot (s.job id).desc) = v
    have hkv : Keeps { slots := true } u v := hv ▸ invalidate_keeps _ _ _ rfl (Keeps.refl _ _)
    obtain ⟨hdec, hno, hoth⟩ := endsNoComb_decided (hkv.inv (hku.inv hs)) id {}
    have hsame : (endsNoComb v id {}).slot p = (s.slot p).invalidated := by
      rw [endsNoComb_slot, ← hv, invalidate_same (hku.inv hs).wf h0 hpu, hku.slot_eq rfl]
    have hbefore : OtherJobs id s v := fun k _ => (hkv.job_eq rfl k).trans (hku.job_eq rfl k)
    refine ⟨hdec, hno, by rw [hsame]; rfl, by rw [hsame]; rfl, by rw [hsame]; rfl, by rw [hsame]; rfl, fun k hk => ?_,
      hbefore.trans hoth⟩
    rw [endsNoComb_slot, ← hv, invalidate_other h0 hpu hk, hku.slot_eq rfl]
  · rw [← h0, ← hc] at hi
    have hp' : s.slotPos (s.job id).client (dKeySlot (s.job id).desc) = some (spPos c) := by rw [hc, h0, hp]
    refine .ofOp rfl (opKeyInvalidate_of_pass hk hr hi hp' hheld) ?_
    rw [hc, h0]
    generalize hu : eraseSlotRec s c 0 = u
    have hku : Keeps { store := true } s u := hu ▸ eraseSlotRec_store _ _ _
    have hhrk' : u.ks.hrk = some hrk := by rw [hku.ks_eq rfl, hhrk]
    generalize hv : invalidate u c 0 = v
    have hkv : Keeps { slots := true } u v := hv ▸ invalidate_keeps _ _ _ rfl (Keeps.refl _ _)
    obtain ⟨hdec, hno, hoth⟩ := endsNoComb_decided (hkv.inv (hku.inv hs)) id {}
    have hbefore : OtherJobs id s v := fun k _ => (hkv.job_eq rfl k).trans (hku.job_eq rfl k)
    rw [invalidate_zero hhrk'] at hv
    have hwu := (hku.inv hs).wf
    have hwb : (bumpGen u (spPos c)).wf = true := State.modSlot_wf hwu _ _
    have hgen : (bumpGen u (spPos c)).gen (spPos c) = s.gen (spPos c) + 1 := by
      rw [State.gen, bumpGen_same hwu, hku.slot_eq rfl]
      have hks : (bumpGen u (spPos c)).ks = s.ks := hku.ks_eq rfl
      rw [hks, State.gen]
      exact add_right_comm _ _ _
    have htr : (bumpGen u (spPos c)).slot (trPos c) = s.slot (trPos c) := by
      rw [bumpGen_other (spPos_ne_trPos c), hku.slot_eq rfl]
    have hsp : (endsNoComb v id {}).slot (spPos c) = sessionNode (bumpGen u (spPos c)) c 0x300
        ((bumpGen u (spPos c)).slot (spPos c)) (ascii "QHV1 SESSION") := by
      rw [endsNoComb_slot, ← hv, deriveSession_sp hwb]
    have hck : (endsNoComb v id {}).slot (ckPos c) = sessionNode (bumpGen u (spPos c)) c 0
        ((bumpGen u (spPos c)).slot (ckPos c)) (ascii "QHV1 CTXKEY") := by
      rw [endsNoComb_slot, ← hv, deriveSession_ck hwb]
    have hbase : (endsNoComb v id {}).ks.genBase = (bumpGen u (spPos c)).ks.genBase := by
      rw [endsNoComb_genBase, ← hv]
      rfl
    refine ⟨hdec, hno, ?_, by rw [hsp]; rfl, by rw [hck]; rfl, ?_, ?_, ?_, ?_, fun k hk1 hk2 => ?_, hbefore.trans hoth⟩
    · rw [← hgen, State.gen, hsp, hbase]
      rfl
    · rw [hsp, ← hgen, ← htr]
      rfl
    · rw [hck, ← hgen, ← htr]
      rfl
    · rw [hsp]
      refine (congrArg KSlot.refs (bumpGen_same hwu (spPos c))).trans ?_
      rw [hku.slot_eq rfl]
    · rw [hck]
      refine (congrArg KSlot.refs (bumpGen_other (spPos_ne_ckPos c).symm)).trans ?_
      rw [hku.slot_eq rfl]
    · rw [endsNoComb_slot, ← hv, deriveSession_other hk1 hk2, bumpGen_other hk1, hku.slot_eq rfl]
  · refine .ofOp rfl (opKeyInvalidate_of_held hr hi hp hheld) ?_
    exact ⟨rfl, rfl⟩
  · obtain ⟨cyc, hop⟩ := opKeyAttest_of_served hr
    refine .ofOp rfl hop ?_
    have hka := attestState_keeps s (s.job id).keyPos
    have hst' : statement (attestState s (s.job id).keyPos) (s.job id) (s.job id).keyPos = st := hst.symm
    rw [hst', hka.ks_eq rfl]
    obtain ⟨hdec, hoth⟩ := ppEnds_decided (hka.inv hs) id
      { output := st ++ edSign 0x11 false (s.ks.devSeed.getD []) (ascii "QHV1 KEY_ATTEST" ++ [0] ++ st), cycles := cyc }
    have hbefore : OtherJobs id s (attestState s (s.job id).keyPos) := fun k _ => hka.job_eq rfl k
    refine ⟨hdec, fun hpol c b hb => ?_, (ppEnds_slots _ _ _).trans (hka.slots_eq rfl), hbefore.trans hoth⟩
    have hcombs := (ppEnds_keeps (F := { dma := true, ks := true, ctxs := true, jobs := true, freeN := true })
      (attestState s (s.job id).keyPos) id
      { output := st ++ edSign 0x11 false (s.ks.devSeed.getD []) (ascii "QHV1 KEY_ATTEST" ++ [0] ++ st), cycles := cyc }
      rfl rfl rfl rfl rfl (Keeps.refl _ _)).comb_eq rfl c
    rw [hcombs, attestState, if_pos hpol] at hb
    exact retireSlot_nonces hs.wf _ c b hb

end Sys2Proof.Machine
end

section
/-! SUPPORT. Facts that the statements about the key store's own work and about the Hive's state share: tables whose
entries all change, what raising an event and setting a sticky bit leave, accesses that find the Hive awake. -/

namespace Sys2Proof.Machine

/-! ## Tables -/

theorem tblGet_of_above {V : Type} {d : V} {t : Tbl V} {k : Nat} (h : tblAbove k t) : tblGet d t k = d := by
  induction t with
  | nil => rfl
  | cons e t ih =>
    have hne : e.1 ≠ k := (h e List.mem_cons_self).ne'
    exact (if_neg hne).trans (ih fun x hx => h x (List.mem_cons_of_mem _ hx))

/-- Changing every entry changes what every number reads as, where what is unlisted stays. -/
theorem tblGet_map {V : Type} [DecidableEq V] {d : V} {f : Nat → V → V} {t : Tbl V} (hd : ∀ k, f k d = d)
    (h : tblWf d t = true) (k : Nat) : tblGet d (tblMap d f t) k = f k (tblGet d t k) := by
  induction t with
  | nil => exact (hd k).symm
  | cons e t ih =>
    obtain ⟨j, v⟩ := e
    obtain ⟨-, habove, hw⟩ := (tblWf_cons d j v t).1 h
    by_cases hjk : j = k
    · subst hjk
      rw [show tblGet d ((j, v) :: t) j = v from if_pos rfl, tblMap]
      split
      next hfv => rw [ih hw, tblGet_of_above habove, hd, hfv]
      next => exact if_pos rfl
    · rw [show tblGet d ((j, v) :: t) k = tblGet d t k from if_neg hjk, tblMap, ← ih hw]
      split
      next => rfl
      next => exact if_neg hjk

/-! ## Folds -/

/-- A fold keeps what each of its steps keeps. -/
theorem State.each_induction {α : Type} {P : State → Prop} {f : State → α → State} {l : List α}
    (hf : ∀ x, ∀ a ∈ l, P x → P (f x a)) {s : State} (h : P s) : P (s.each l f) := by
  induction l generalizing s with
  | nil => exact h
  | cons a l ih => exact ih (fun x b hb => hf x b (List.mem_cons_of_mem _ hb)) (hf s a List.mem_cons_self h)

/-! ## What an operation leaves, a field at a time -/

section

variable {F : Foot} {s t : State}

theorem Keeps.hv_eq (h : Keeps F s t) (hF : F.hv = false) : t.hv = s.hv :=
  h.2.2.hv.resolve_right (by simp [hF])

theorem Keeps.store_eq (h : Keeps F s t) (hF : F.store = false) : t.store = s.store :=
  h.2.2.store.resolve_right (by simp [hF])

theorem Keeps.otp_eq (h : Keeps F s t) (hF : F.otp = false) : t.otp = s.otp :=
  h.2.2.otp.resolve_right (by simp [hF])

theorem Keeps.hi_eq (h : Keeps F s t) (hF : F.hi = false) : t.hi = s.hi :=
  h.2.2.hi.resolve_right (by simp [hF])

theorem Keeps.cap_eq (h : Keeps F s t) (hF : F.cap = false) : t.cap = s.cap :=
  h.2.2.cap.resolve_right (by simp [hF])

theorem Keeps.dma_eq (h : Keeps F s t) (hF : F.dma = false) : t.dma = s.dma :=
  h.2.2.dma.resolve_right (by simp [hF])

theorem Keeps.lc_eq (h : Keeps F s t) (hF : F.lc = false) : t.lc = s.lc :=
  h.2.2.lc.resolve_right (by simp [hF])

theorem Keeps.peer_eq (h : Keeps F s t) (hF : F.peer = false) : t.peer = s.peer :=
  h.2.2.peer.resolve_right (by simp [hF])

theorem Keeps.sync_eq (h : Keeps F s t) (hF : F.sync = false) : t.sync = s.sync :=
  h.2.2.sync.resolve_right (by simp [hF])

theorem Keeps.sch_eq (h : Keeps F s t) (hF : F.sch = false) : t.sch = s.sch :=
  h.2.2.sch.resolve_right (by simp [hF])

theorem Keeps.tenants_eq (h : Keeps F s t) (hF : F.tenants = false) : t.tenants = s.tenants :=
  h.2.2.tenants.resolve_right (by simp [hF])

theorem Keeps.ctxs_eq (h : Keeps F s t) (hF : F.ctxs = false) : t.ctxs = s.ctxs :=
  h.2.2.ctxs.resolve_right (by simp [hF])

theorem Keeps.jobs_eq (h : Keeps F s t) (hF : F.jobs = false) : t.jobs = s.jobs :=
  h.2.2.jobs.resolve_right (by simp [hF])

theorem Keeps.halves_eq (h : Keeps F s t) (hF : F.halves = false) : t.halves = s.halves :=
  h.2.2.halves.resolve_right (by simp [hF])

theorem Keeps.latches_eq (h : Keeps F s t) (hF : F.latches = false) : t.latches = s.latches :=
  h.2.2.latches.resolve_right (by simp [hF])

theorem Keeps.ev_eq (h : Keeps F s t) (hF : F.ev = false) : t.ev = s.ev :=
  h.2.2.ev.resolve_right (by simp [hF])

end

/-! ## Events -/

theorem recMerge_pend (s : State) (src : Nat) (info : W32) (b : Bool) : (recMerge s src info b).ev.pend = s.ev.pend := rfl

theorem signalVec_ev (s : State) (c v : Nat) : (signalVec s c v).ev = s.ev :=
  ((signalVec_keeps_signals s c v).ev_eq rfl)

theorem raise_pend (s : State) (src : Nat) (info : W32) : (raise s src info).ev.pend = s.ev.pend ||| (1#512 <<< src) := by
  unfold raise
  dsimp only
  split <;> split <;> simp only [signalVec_ev, recMerge_pend]

theorem shiftLeft_one_getLsbD {w b : Nat} (hb : b < w) : (1#w <<< b).getLsbD b = true := by
  simp [hb]

/-- A source that is raised pends. -/
theorem raise_pend_same (s : State) {src : Nat} (hsrc : src < 512) (info : W32) :
    (raise s src info).ev.pend.getLsbD src = true := by
  rw [raise_pend, BitVec.getLsbD_or, shiftLeft_one_getLsbD hsrc, Bool.or_true]

/-- A source that pends goes on pending when another is raised. -/
theorem raise_pend_mono {s : State} {n : Nat} (h : s.ev.pend.getLsbD n = true) (src : Nat) (info : W32) :
    (raise s src info).ev.pend.getLsbD n = true := by
  rw [raise_pend, BitVec.getLsbD_or, h, Bool.true_or]

theorem raise_signals (s : State) (src : Nat) (info : W32) :
    Keeps { ev := true, fns := true, tenants := true } s (raise s src info) :=
  raise_keeps s src info rfl rfl rfl (Keeps.refl _ s)

theorem raiseHive_signals (s : State) (h : Nat) (info : W32) :
    Keeps { ev := true, fns := true, tenants := true } s (raiseHive s h info) :=
  raise_signals s (256 + h) info

/-! ## The sticky record -/

/-- What a sticky bit that sets moves. -/
theorem sticky_signals (s : State) (b : Nat) (info : W32) :
    Keeps { aon := true, ev := true, fns := true, tenants := true, combs := true } s (sticky s b info) :=
  sticky_keeps s b info rfl rfl rfl rfl rfl (Keeps.refl _ s)

/-- No bit of the sticky record is clear that was set. -/
def StickyKept (s t : State) : Prop := ∀ b, s.aon.sticky.getLsbD b = true → t.aon.sticky.getLsbD b = true

theorem StickyKept.refl (s : State) : StickyKept s s := fun _ h => h

theorem StickyKept.trans {s u t : State} (h : StickyKept s u) (g : StickyKept u t) : StickyKept s t :=
  fun b hb => g b (h b hb)

theorem StickyKept.of_eq {s t : State} (h : t.aon.sticky = s.aon.sticky) : StickyKept s t := fun _ hb => h ▸ hb

theorem StickyKept.keeps {F : Foot} {s u t : State} (h : StickyKept s u) (hk : Keeps F u t)
    (hF : F.aon = false) : StickyKept s t := h.trans (.of_eq (congrArg (·.sticky) (hk.aon_eq hF)))

/-- A bit that sets moves the record alone of the always-on domain. -/
theorem sticky_aon (s : State) (b : Nat) (info : W32) : (sticky s b info).aon = (stick s b).aon := by
  have h : Keeps { ev := true, fns := true, tenants := true, combs := true } (stick s b) (sticky s b info) := by
    unfold sticky
    dsimp only
    split
    · exact combSync_keeps _ _ rfl rfl rfl rfl (raise_keeps _ _ _ rfl rfl rfl (Keeps.refl _ _))
    · exact raiseHive_keeps _ _ _ rfl rfl rfl (Keeps.refl _ _)
  exact (h.aon_eq rfl)

theorem sticky_record (s : State) (b : Nat) (info : W32) :
    (sticky s b info).aon.sticky = s.aon.sticky ||| (1#256 <<< b) := congrArg (·.sticky) (sticky_aon s b info)

theorem sticky_same (s : State) {b : Nat} (hb : b < 256) (info : W32) :
    (sticky s b info).aon.sticky.getLsbD b = true := by
  rw [sticky_record, BitVec.getLsbD_or, shiftLeft_one_getLsbD hb, Bool.or_true]

theorem sticky_kept (s : State) (b : Nat) (info : W32) : StickyKept s (sticky s b info) := fun n hn => by
  rw [sticky_record, BitVec.getLsbD_or, hn, Bool.true_or]

/-! ## Accesses to an awake Hive -/

theorem wake_awake {s : State} (h : s.hv.pwr = 0) (w : Nat) :
    ∃ a, wake s w = { s with hv.pwr := 0, hv.causeAt := a } := by
  unfold wake
  rw [if_neg (by rw [h]; decide), if_pos (by simp [h])]
  exact ⟨_, rfl⟩

theorem whenAwakeBy_of_awake {s : State} (hs : s.unclocked = false) (h : s.hv.pwr = 0) (w : Nat) (i : Instr)
    (k : State → State) : whenAwakeBy w i s k = k (wake s w) := by
  obtain ⟨a, ha⟩ := wake_awake h w
  have hu : (wake s w).unclocked = false := by rw [ha]; exact hs
  have hp : (wake s w).hv.pwr = 0 := by rw [ha]
  unfold whenAwakeBy
  dsimp only
  exact if_pos (by rw [hu, hp]; rfl)

end Sys2Proof.Machine

namespace Sys2Proof

open Machine

/-- An access that waits for an awake Hive finds it awake. -/
theorem Completes.ofAwake {c i : Instr} {s : State} {w : Nat} {k : State → State} {P : State → Prop}
    (he : exec c s = .next (whenAwakeBy w i s k)) (hs : Running s) (hup : s.hv.pwr = 0) (h : P (k (wake s w))) :
    Completes c s P := ⟨_, he, by rwa [whenAwakeBy_of_awake hs.clocked hup]⟩

end Sys2Proof
end

section
/-! SUPPORT. The scrubber and the steps of a zeroisation (R236, R237, R249, R464): the theorems that settle O34 and
O35. -/

namespace Sys2Proof.Machine

section

variable {s : State} {p : Nat}

/-! ## The scrubber -/

theorem releaseHeld_slot (hs : s.wf = true) (p : Nat) : (releaseHeld s).slot p = { s.slot p with adv := 0 } :=
  tblGet_map (d := ({} : KSlot)) (f := fun _ (k : KSlot) => { k with adv := 0 }) (fun _ => rfl)
    ((State.wf_iff s).1 hs).slots p

/-- The scrubber moves on; the visit was not the pass's last. -/
theorem opScrubSlotVisit_of_more (hk : s.hv.kclk = true) (hrun : s.ks.scrubbing = true)
    (hmore : s.ks.scrubPos + 1 < 524288) :
    opScrubSlotVisit s = { scrubSlot s s.ks.scrubPos with
      ks := { (scrubSlot s s.ks.scrubPos).ks with scrubPos := s.ks.scrubPos + 1 } } := by
  unfold opScrubSlotVisit
  rw [hk, hrun, if_neg (by decide)]
  exact if_pos hmore

theorem strayCont_of_state (h : (s.slot p).state ≠ .cont) : strayCont s p = false := by
  simp [strayCont, h]

theorem scrubSlot_of_sound (hv : (s.slot p).state = .valid) (hc : chainOk s p = true) : scrubSlot s p = s := by
  simp [scrubSlot, strayCont_of_state, hv, hc]

/-- The slot with its chain broken. -/
def KSlot.orphaned (k : KSlot) : KSlot := { k with state := .orphan }

theorem scrubSlot_of_broken (hs : s.wf = true) (hv : (s.slot p).state = .valid) (hc : chainOk s p = false)
    (hr : (s.slot p).refs ≠ 0) : scrubSlot s p = s.modSlot p KSlot.orphaned := by
  have hsame := State.modSlot_same hs p fun k => { k with state := .orphan }
  simp [scrubSlot, strayCont_of_state, hsame, hv, hc, hr]
  rfl

/-- The slot behind its reclaiming. -/
def KSlot.reclaimed (k : KSlot) : KSlot := { gen := k.gen + 1, adv := k.adv + 1 }

theorem scrubSlot_of_unused (hst : (s.slot p).state = .invalid ∨ (s.slot p).state = .orphan)
    (hr : (s.slot p).refs = 0) (hrun : runFrom s p = [p]) :
    scrubSlot s p = { s.modSlot p KSlot.reclaimed with
      ks := { s.ks with reclaimed := satAdd 0xFFFFFFFF s.ks.reclaimed 1 } } := by
  have hv : (s.slot p).state ≠ .valid := by rcases hst with h | h <;> rw [h] <;> decide
  have ho : ((s.slot p).state = .orphan ∨ (s.slot p).state = .invalid) := hst.symm
  simp only [scrubSlot, hv, ho, hr, hrun, beq_iff_eq, Bool.and_eq_true, Bool.or_eq_true, decide_true, and_self,
    false_and, if_true, if_false]
  rfl

end

/-- Settles O34: the start of a pass, then the four findings of a visit. -/
theorem keyScrubbing : Obligations.KeyScrubbing := by
  unfold Obligations.KeyScrubbing
  refine ⟨fun s hs hk hidle hdue => ?_, fun s hs hk hrun hv hc hmore => ?_, fun s hs hk hrun hv hc hr hmore => ?_,
    fun s hs hk hrun hst hr hone hmore => ?_, fun s hs hk hrun hlast => ?_⟩
  · refine .ofOp rfl (if_pos (by simp [hk, hidle, hdue])) ?_
    exact ⟨rfl, rfl, rfl, rfl, fun p => releaseHeld_slot hs.wf p⟩
  · refine .ofOp rfl (opScrubSlotVisit_of_more hk hrun hmore) ?_
    rw [scrubSlot_of_sound hv hc]
    exact ⟨rfl, rfl⟩
  · refine .ofOp rfl (opScrubSlotVisit_of_more hk hrun hmore) ?_
    rw [scrubSlot_of_broken hs.wf hv hc hr]
    exact ⟨State.modSlot_same hs.wf _ KSlot.orphaned, rfl, rfl, fun p hp => State.modSlot_other s _ KSlot.orphaned _ hp⟩
  · refine .ofOp rfl (opScrubSlotVisit_of_more hk hrun hmore) ?_
    rw [scrubSlot_of_unused hst hr hone]
    have hsame := State.modSlot_same hs.wf s.ks.scrubPos KSlot.reclaimed
    refine ⟨congrArg (·.state) hsame, congrArg (·.mat) hsame, ?_, rfl, rfl,
      fun p hp => State.modSlot_other s _ KSlot.reclaimed _ hp⟩
    refine (congrArg (fun k : KSlot => k.gen + s.ks.genBase) hsame).trans ?_
    simp only [KSlot.reclaimed, State.gen]
    ac_rfl
  · obtain ⟨u, hu⟩ : ∃ u, opScrubSlotVisit s = raiseHive { releaseHeld u with
        ks := { (releaseHeld u).ks with scrubbing := false, scrubPos := 0 } } 9 0 := by
      refine ⟨scrubSlot s s.ks.scrubPos, ?_⟩
      unfold opScrubSlotVisit
      rw [hk, hrun, if_neg (by decide)]
      exact if_neg (by rw [hlast]; decide)
    refine .ofOp rfl hu ?_
    have hks := ((raiseHive_signals { releaseHeld u with
      ks := { (releaseHeld u).ks with scrubbing := false, scrubPos := 0 } } 9 0).ks_eq rfl)
    exact ⟨congrArg (·.scrubbing) hks, congrArg (·.scrubPos) hks, congrArg (·.genAdv) hks, raise_pend_same _ (by decide) 0⟩

/-! ## The start of a zeroisation -/

section

variable {s : State} {id : Nat}

/-- The end of a job's references and reads moves the queues of the propolis engine alone in the key store. -/
theorem releaseJob_ks (s : State) (id : Nat) (ab : Bool) : ∃ q, (releaseJob s id ab).ks = { s.ks with ppQueues := q } := by
  have h : ∀ l, Keeps { slots := true, ctxs := true, combs := true, jobs := true, freeN := true } s
      (cacheDrop (endCtx (freeRun (s.each (s.job id).refs dropRef) l) id ab) (.saved id)) := fun l =>
    cacheDrop_keeps _ _ rfl (endCtx_keeps _ _ _ rfl rfl rfl rfl (freeRun_keeps _ _ rfl
      (Keeps.each _ _ (fun _ _ => dropRef_keeps _ _ rfl) (Keeps.refl _ s))))
  unfold releaseJob
  dsimp only
  refine ⟨_, (congrArg (fun k : Ks => { k with ppQueues := k.ppQueues.map fun (q : List Nat) => q.filter (· != id) })
    ((h _).ks_eq rfl))⟩

theorem forceEnd_ks (s : State) (id : Nat) (st : Status) (det : BitVec 8) :
    ∃ q, (forceEnd s id st det).ks = { s.ks with ppQueues := q } := by
  obtain ⟨q, hq⟩ := releaseJob_ks (decide7 s id st det) id true
  refine ⟨q, ?_⟩
  unfold forceEnd
  dsimp only [State.modJob]
  rw [hq]
  rfl

/-- No comb holds a block of nonces. -/
def NoNonces (s : State) : Prop := s.Inv ∧ ∀ c, (s.comb c).nonces = []

theorem NoNonces.modComb (h : NoNonces s) (c : Nat) {f : Comb → Comb} (hf : (f (s.comb c)).nonces = (s.comb c).nonces) :
    NoNonces (s.modComb c f) := by
  refine ⟨(modComb_keeps (F := { combs := true }) s c f rfl (Keeps.refl _ s)).inv h.1, fun d => ?_⟩
  by_cases hd : d = c
  · rw [hd, State.modComb_same h.1.wf, hf, h.2]
  · rw [State.modComb_other _ _ _ _ hd, h.2]

theorem NoNonces.keeps {F : Foot} {t : State} (h : NoNonces s) (hk : Keeps F s t) (hF : F.combs = false) :
    NoNonces t := ⟨hk.inv h.1, fun c => by rw [State.comb, hk.combs_eq hF]; exact h.2 c⟩

theorem NoNonces.modJob (h : NoNonces s) (id : Nat) (f : Job → Job) : NoNonces (s.modJob id f) :=
  h.keeps (modJob_keeps (F := { jobs := true }) s id f rfl (Keeps.refl _ s)) rfl

theorem NoNonces.cacheDrop (h : NoNonces s) (e : CacheEntry) : NoNonces (cacheDrop s e) :=
  State.each_induction (fun _ c _ hx => hx.modComb c rfl) h

theorem NoNonces.closeCtx (h : NoNonces s) (c x : Nat) : NoNonces (closeCtx s c x) :=
  NoNonces.cacheDrop (h.keeps (Keeps.set_ctxs (F := { ctxs := true }) rfl (Keeps.refl _ s) (tblWf_erase _ _ _)) rfl) _

theorem NoNonces.endCtx (h : NoNonces s) (id : Nat) (ab : Bool) : NoNonces (endCtx s id ab) := by
  have hjob := h.modJob id fun j => { j with holdsCtx := false }
  have hctx : ∀ c x f, NoNonces ((s.modJob id fun j => { j with holdsCtx := false }).modCtx c x f) := fun c x f =>
    hjob.keeps (modCtx_keeps (F := { ctxs := true }) _ _ _ _ rfl (Keeps.refl _ _)) rfl
  unfold Machine.endCtx
  dsimp only
  split
  next o x _ _ =>
    split_ifs
    · exact h
    · exact hctx _ _ _
    · exact (hctx _ _ _).keeps (Keeps.set_freeN (F := { freeN := true }) rfl (Keeps.refl _ _)) rfl
    · exact hctx _ _ _
    · exact hjob.closeCtx _ _
    · exact hctx _ _ _
    · exact hctx _ _ _
    · exact hjob.closeCtx _ _
  next => exact h

theorem NoNonces.releaseJob (h : NoNonces s) (id : Nat) (ab : Bool) : NoNonces (releaseJob s id ab) := by
  have hslots : ∀ l, Keeps { slots := true } s (freeRun (s.each (s.job id).refs dropRef) l) := fun l =>
    freeRun_keeps _ _ rfl (Keeps.each _ _ (fun _ _ => dropRef_keeps _ _ rfl) (Keeps.refl _ s))
  have hpp : ∀ l, NoNonces _ := fun l => (((h.keeps (hslots l) rfl).endCtx id ab).cacheDrop (.saved id)).keeps
    (ppFree_keeps (F := { ks := true }) _ id rfl (Keeps.refl _ _)) rfl
  exact (hpp _).modJob id _

theorem NoNonces.forceEnd (h : NoNonces s) (id : Nat) (st : Status) (det : BitVec 8) : NoNonces (forceEnd s id st det) := by
  have hdec : NoNonces (decide7 s id st det) :=
    h.keeps (decide7_keeps (F := { dma := true, ks := true, jobs := true }) s id st det rfl rfl rfl (Keeps.refl _ s)) rfl
  unfold Machine.forceEnd
  exact (hdec.releaseJob id true).modJob _ _

theorem each_retire_none (l : List Nat) (hs : s.wf = true) {c : Nat} (hc : c ∈ l ∨ (s.comb c).nonces = []) :
    ((s.each l fun s c => retire s c fun _ => true).comb c).nonces = [] := by
  induction l generalizing s with
  | nil => exact hc.resolve_left List.not_mem_nil
  | cons d l ih =>
    refine ih (retire_wf hs _ _) ?_
    by_cases hd : c = d
    · exact .inr (by rw [hd, retire_nonces hs]; simp)
    · rw [retire_other _ _ hd]
      exact hc.imp_left fun h => (List.mem_cons.1 h).resolve_left hd

theorem retireAll_noNonces (hs : s.Inv) : NoNonces (retireAll s) := by
  refine ⟨(retireAll_keeps (F := { combs := true }) s rfl (Keeps.refl _ s)).inv hs, fun c => each_retire_none _ hs.wf ?_⟩
  rcases tblGet_mem_or ({} : Comb) s.combs c with hmem | hdef
  · exact .inl (List.mem_map_of_mem (f := Prod.fst) hmem)
  · exact .inr (congrArg Comb.nonces hdef)

theorem endKeyed_command (s : State) :
    endKeyed s .command = s.each (s.jobsWith (endedBy s .command)) fun s id => forceEnd s id stOrphaned 0x06 := rfl

theorem endKeyed_command_ks (s : State) : ∃ q, (endKeyed s .command).ks = { s.ks with ppQueues := q } := by
  rw [endKeyed_command]
  refine State.each_induction (P := fun x => ∃ q, x.ks = { s.ks with ppQueues := q }) (fun x id _ hx => ?_) ⟨_, rfl⟩
  obtain ⟨q, hq⟩ := hx
  obtain ⟨q', hq'⟩ := forceEnd_ks x id stOrphaned 0x06
  exact ⟨q', by rw [hq', hq]⟩

/-- The key store's fields behind steps 1 to 4 of a zeroisation by command. -/
theorem zeroNow_command_ks (s : State) : ∃ q, (zeroNow s .command).ks =
    { s.ks with hrk := none, psk := none, devSeed := none, ppDrbg := none, zPend := false, ppQueues := q } := by
  unfold zeroNow
  dsimp only
  obtain ⟨q, hq⟩ := endKeyed_command_ks (retireAll { s with
    ks := { s.ks with hrk := none, psk := none, devSeed := none, ppDrbg := none, zPend := false } })
  refine ⟨q, ?_⟩
  rw [if_neg (by decide), hq, ((retireAll_keeps (F := { combs := true }) _ rfl (Keeps.refl _ _)).ks_eq rfl)]

theorem zeroNow_command_noNonces (hs : s.Inv) : NoNonces (zeroNow s .command) := by
  have hks : Keeps { ks := true } s { s with
      ks := { s.ks with hrk := none, psk := none, devSeed := none, ppDrbg := none, zPend := false } } :=
    Keeps.set_ks rfl (Keeps.refl _ s)
  exact State.each_induction (fun x id _ hx => hx.forceEnd id _ _) (retireAll_noNonces (hks.inv hs))

/-! ## The end of a zeroisation -/

/-- Steps 5 and 6: the pool is cleared, and the records where they are to be. -/
def erasedPool (s : State) : State :=
  if s.ks.zErase then eraseKeyRecs (seedPropolis (clearPool s)) else seedPropolis (clearPool s)

/-- The state in which the trigger's own part of the end begins. -/
def poolCleared (s : State) : State :=
  startJournal (sticky { erasedPool s with
    ks := { (erasedPool s).ks with zeroising := none, zErase := false, restoreDue := [] } } 89 0)

theorem erasedPool_store (s : State) :
    Keeps { store := true, freeN := true } (seedPropolis (clearPool s)) (erasedPool s) := by
  unfold erasedPool
  split
  · exact eraseKeyRecs_keeps _ rfl rfl (Keeps.refl _ _)
  · exact Keeps.refl _ _

/-- What steps 5 and 6 move. -/
def poolFoot : Foot := { store := true, freeN := true, ks := true, slots := true, trngN := true }

theorem erasedPool_keeps (s : State) : Keeps poolFoot s (erasedPool s) := by
  have h : Keeps poolFoot s (seedPropolis (clearPool s)) :=
    seedPropolis_keeps _ rfl rfl (clearPool_keeps s rfl rfl (Keeps.refl _ s))
  unfold erasedPool
  split
  · exact eraseKeyRecs_keeps _ rfl rfl h
  · exact h

/-- What `poolCleared` moves behind steps 5 and 6. -/
theorem poolCleared_events (s : State) :
    Keeps { aon := true, ev := true, fns := true, tenants := true, combs := true, lc := true }
      { erasedPool s with ks := { (erasedPool s).ks with zeroising := none, zErase := false, restoreDue := [] } }
      (poolCleared s) :=
  startJournal_keeps _ rfl (sticky_keeps _ _ _ rfl rfl rfl rfl rfl (Keeps.refl _ _))

theorem poolCleared_ks (s : State) : (poolCleared s).ks = { (clearPool s).ks with
    ppDrbg := some (BitVec.ofNat 384 (beNat (clearPool s).trng.1)), zeroising := none, zErase := false, restoreDue := [] } := by
  rw [((poolCleared_events s).ks_eq rfl)]
  dsimp only
  rw [((erasedPool_store s).ks_eq rfl)]
  rfl

theorem poolCleared_slots (s : State) : (poolCleared s).slots = (clearPool s).slots := by
  rw [((poolCleared_events s).slots_eq rfl)]
  exact ((erasedPool_store s).slots_eq rfl)

/-- Step 5 leaves of a slot its GEN alone. -/
theorem poolCleared_slot (hs : s.wf = true) (p : Nat) :
    (poolCleared s).slot p = { gen := (s.slot p).gen, adv := (s.slot p).adv } := by
  rw [State.slot, poolCleared_slots]
  exact tblGet_map (d := ({} : KSlot)) (f := fun _ (k : KSlot) => { gen := k.gen, adv := k.adv }) (fun _ => rfl)
    ((State.wf_iff s).1 hs).slots p

/-- The slot is EMPTY, its payload gone, and its GEN is one higher than it was in `s`. -/
def Emptied (s t : State) (p : Nat) : Prop :=
  (t.slot p).state = .empty ∧ (t.slot p).mat = [] ∧ t.gen p = s.gen p + 1

theorem emptied_of_cleared {t : State} (hs : s.wf = true) {p : Nat} (hp : t.slot p = (poolCleared s).slot p)
    (hb : t.ks.genBase = s.ks.genBase + 1) : Emptied s t p := by
  have h := hp.trans (poolCleared_slot hs p)
  refine ⟨by rw [h], by rw [h], ?_⟩
  rw [State.gen, State.gen, h, hb, BitVec.add_assoc]

/-- Of the always-on domain the sticky record alone moves. -/
theorem poolCleared_aon (s : State) : (poolCleared s).aon = (stick s 89).aon := by
  unfold poolCleared
  rw [((startJournal_keeps (F := { lc := true }) _ rfl (Keeps.refl _ _)).aon_eq rfl), sticky_aon]
  unfold stick
  dsimp only
  rw [((erasedPool_keeps s).aon_eq rfl)]

theorem stick_same (s : State) {b : Nat} (hb : b < 256) : (stick s b).aon.sticky.getLsbD b = true := by
  rw [stick, BitVec.getLsbD_or, shiftLeft_one_getLsbD hb, Bool.or_true]

theorem poolCleared_sticky (s : State) : (poolCleared s).aon.sticky.getLsbD 89 = true := by
  rw [poolCleared_aon]
  exact stick_same s (by decide)

theorem opZeroisationStep5Done_lifecycle (hz : s.ks.zeroising = some .lifecycle) (hk : s.hv.kclk = true)
    (hp : s.ks.zPend = false) : opZeroisationStep5Done s = poolCleared s := by
  unfold opZeroisationStep5Done
  rw [hz]
  dsimp only
  rw [hk, hp]
  exact if_neg (by decide)

theorem opZeroisationStep5Done_tamper (hz : s.ks.zeroising = some .tamper) (hk : s.hv.kclk = true)
    (hp : s.ks.zPend = false) : opZeroisationStep5Done s =
      { (poolCleared s).each (List.range combCount) drbgInit with
        aon := { ((poolCleared s).each (List.range combCount) drbgInit).aon with responding := false } } := by
  unfold opZeroisationStep5Done
  rw [hz]
  dsimp only
  rw [hk, hp]
  exact if_neg (by decide)

/-- The ladder behind a zeroisation by command, and the nodes of the clients. -/
def ladderBack (s : State) : State := deriveLadder (drawScramble (poolCleared s))

theorem opZeroisationStep5Done_command (hz : s.ks.zeroising = some .command) (hk : s.hv.kclk = true)
    (hp : s.ks.zPend = false) (ht : s.aon.tampered = false) :
    opZeroisationStep5Done s = restoreWaiting (deriveAllNodes (ladderBack s)) (erasedPool s).ks.restoreDue := by
  have htamper : ¬ (poolCleared s).aon.tampered = true := by
    rw [poolCleared_aon]
    exact Bool.eq_false_iff.1 ht
  unfold opZeroisationStep5Done
  rw [hz]
  dsimp only
  rw [hk, hp]
  exact (if_neg (by decide)).trans (if_neg htamper)

theorem erasedPool_due (s : State) : (erasedPool s).ks.restoreDue = s.ks.restoreDue := by
  rw [((erasedPool_store s).ks_eq rfl)]
  rfl

/-! ### The ladder and the restored records -/

/-- What decides which root is active. -/
theorem activeRoot_congr {t : State} (hlc : t.lcCode = s.lcCode) (hdbg : t.lc.debugOpen = s.lc.debugOpen)
    (hotp : t.otp = s.otp) : activeRoot t = activeRoot s := by
  unfold activeRoot
  rw [hlc, hdbg, hotp]

theorem startJournal_lc (s : State) : ∃ r, (startJournal s).lc = { s.lc with run := r } := by
  unfold startJournal
  split
  · exact ⟨_, rfl⟩
  · exact ⟨_, rfl⟩

theorem poolCleared_activeRoot (s : State) : activeRoot (drawScramble (poolCleared s)) = activeRoot s := by
  have hotp : (poolCleared s).otp = s.otp := by
    rw [((poolCleared_events s).otp_eq rfl)]
    exact ((erasedPool_keeps s).otp_eq rfl)
  have hlc : ∃ r, (poolCleared s).lc = { s.lc with run := r } := by
    unfold poolCleared
    obtain ⟨r, hr⟩ := startJournal_lc (sticky { erasedPool s with
      ks := { (erasedPool s).ks with zeroising := none, zErase := false, restoreDue := [] } } 89 0)
    refine ⟨r, ?_⟩
    rw [hr, ((sticky_signals _ _ _).lc_eq rfl)]
    dsimp only
    rw [((erasedPool_keeps s).lc_eq rfl)]
  obtain ⟨r, hr⟩ := hlc
  have hd : (drawScramble (poolCleared s)).lc = { s.lc with run := r } := hr
  refine activeRoot_congr ?_ ?_ hotp
  · rw [State.lcCode, State.lcCode, hd]
  · rw [hd]

theorem discardRec_stickyKept (s : State) (id : Nat) : StickyKept s (discardRec s id) := by
  have h : Keeps { store := true } s { eraseRec s id with
      store := { (eraseRec s id).store with errKey := satAdd 65535 (eraseRec s id).store.errKey 1 } } :=
    Keeps.set_store rfl (eraseRec_keeps _ _ rfl (Keeps.refl _ s)) fun h => h
  exact ((StickyKept.refl s).keeps h rfl).trans (sticky_kept _ _ _)

theorem restoreRec_stickyKept (s : State) (c id : Nat) : StickyKept s (restoreRec s c id) := by
  have hmade : ∀ l kt pol par pr og ex p f m, Keeps { slots := true } s
      (State.modSlot (commitRun (reserveRun s c l kt pol par pr og ex) l m).2 p f) := fun l kt pol par pr og ex p f m =>
    modSlot_keeps _ _ _ rfl (commitRun_keeps _ _ _ rfl (reserveRun_keeps _ _ _ _ _ _ _ _ _ rfl (Keeps.refl _ s)))
  unfold restoreRec
  dsimp only
  split
  next => exact discardRec_stickyKept s id
  next =>
    split
    next => exact discardRec_stickyKept s id
    next =>
      split
      · exact discardRec_stickyKept s id
      · exact (StickyKept.refl s).keeps (hmade _ _ _ _ _ _ _ _ _ _) rfl

theorem restoreRecs_stickyKept (s : State) (c : Nat) : StickyKept s (restoreRecs s c) := by
  unfold restoreRecs
  split
  · exact StickyKept.refl s
  · refine State.each_induction (P := StickyKept s) (fun x id _ hx => ?_) (StickyKept.refl s)
    dsimp only
    split
    · exact hx.trans (restoreRec_stickyKept x c id)
    split
    · exact hx.keeps (eraseRec_keeps (F := { store := true }) x id rfl (Keeps.refl _ x)) rfl
    · exact hx

theorem restoreWaiting_stickyKept (s : State) (l : List Nat) : StickyKept s (restoreWaiting s l) :=
  State.each_induction (fun x c _ hx => hx.trans (restoreRecs_stickyKept x c)) (StickyKept.refl s)

/-- What the restored records move. -/
def restoreFoot : Foot :=
  { store := true, aon := true, ev := true, fns := true, tenants := true, slots := true, combs := true }

theorem restoreWaiting_foot (s : State) (l : List Nat) : Keeps restoreFoot s (restoreWaiting s l) :=
  restoreWaiting_keeps s l rfl rfl rfl rfl rfl rfl rfl (Keeps.refl _ s)

theorem deriveAllNodes_slots (s : State) : Keeps { slots := true } s (deriveAllNodes s) :=
  deriveAllNodes_keeps s rfl (Keeps.refl _ s)

theorem deriveNodes_other {c p : Nat} (hc : isClient c = true) (hp : 12480 ≤ p) : (deriveNodes s c).slot p = s.slot p := by
  have hc' : c < 4160 := by simpa [isClient] using hc
  unfold deriveNodes
  split
  · rfl
  · rw [deriveSession_other (by unfold spPos; omega) (by unfold ckPos; omega),
      State.modSlot_other _ _ _ _ (by unfold trPos; omega)]

theorem deriveAllNodes_other {p : Nat} (hc : ∀ c ∈ s.clients, isClient c = true) (hp : 12480 ≤ p) :
    (deriveAllNodes s).slot p = s.slot p :=
  State.each_induction (P := fun x => x.slot p = s.slot p)
    (fun _ c hmem hx => (deriveNodes_other (hc c hmem) hp).trans hx) rfl

theorem deriveLadder_of_derives {b : Bytes} {test : Bool} (ha : activeRoot s = .secret b test)
    (hr : s.ks.rootFail = false ∨ test = true) :
    deriveLadder s = deriveRoot { s with ks := { s.ks with rootFail := false } } b test := by
  unfold deriveLadder
  rw [ha]
  exact if_neg (by rcases hr with h | h <;> simp [h])

theorem deriveLadder_of_failed {b : Bytes} (ha : activeRoot s = .secret b false) (hr : s.ks.rootFail = true) :
    deriveLadder s = s := by
  unfold deriveLadder
  rw [ha]
  exact if_pos (by simp [hr])

/-! ### Clients -/

theorem mem_tblErase {V : Type} {t : Tbl V} {k : Nat} {e : Nat × V} (h : e ∈ tblErase t k) : e ∈ t := by
  induction t with
  | nil => exact h
  | cons x t ih =>
    rw [tblErase] at h
    split at h
    · exact List.mem_cons_of_mem _ h
    · exact List.mem_cons.2 ((List.mem_cons.1 h).imp_right ih)

theorem mem_tblPut {V : Type} {v : V} {t : Tbl V} {k : Nat} {e : Nat × V} (h : e ∈ tblPut t k v) : e = (k, v) ∨ e ∈ t := by
  induction t with
  | nil => exact .inl (List.mem_singleton.1 h)
  | cons x t ih =>
    rw [tblPut] at h
    split_ifs at h
    · exact List.mem_cons.1 h
    · exact (List.mem_cons.1 h).imp_right (List.mem_cons_of_mem _)
    · rcases List.mem_cons.1 h with rfl | h
      · exact .inr List.mem_cons_self
      · exact (ih h).imp_right (List.mem_cons_of_mem _)

/-- A write lists no other number. -/
theorem mem_tblSet {V : Type} [DecidableEq V] {d v : V} {t : Tbl V} {k : Nat} {e : Nat × V} (h : e ∈ tblSet d t k v) :
    e.1 = k ∨ e ∈ t := by
  unfold tblSet at h
  split at h
  · exact .inr (mem_tblErase h)
  · exact (mem_tblPut h).imp_left fun he => by rw [he]

theorem mem_clients {c : Nat} : c ∈ s.clients ↔ ∃ t, (c, t) ∈ s.tenants ∧ t.state ≠ 0 := by
  simp [State.clients]

/-- Events report to the manager, and list no other client. -/
theorem raise_clients {src : Nat} {info : W32} {c : Nat} (h : c ∈ (raise s src info).clients) : c = 0 ∨ c ∈ s.clients := by
  obtain ⟨t, hmem, ht⟩ := mem_clients.1 h
  have hor : c = 0 ∨ (c, t) ∈ s.tenants := by
    have hsig : ∀ (u : State) v, (c, t) ∈ (signalVec u 0 v).tenants → u.tenants = s.tenants →
        c = 0 ∨ (c, t) ∈ s.tenants := by
      intro u v hv hu
      unfold signalVec at hv
      split at hv
      · exact .inr (hu ▸ hv)
      · exact (mem_tblSet hv).imp_right fun h => hu ▸ h
    unfold raise at hmem
    dsimp only at hmem
    split at hmem <;> split at hmem
    · exact hsig _ _ hmem rfl
    · exact hsig _ _ hmem rfl
    · exact .inr hmem
    · exact .inr hmem
  exact hor.imp_right fun h => mem_clients.2 ⟨t, h, ht⟩

theorem poolCleared_clients {c : Nat} (h : c ∈ (poolCleared s).clients) : c = 0 ∨ c ∈ s.clients := by
  have hj : ∀ u, (startJournal u).clients = u.clients := fun u => by
    rw [State.clients, ((startJournal_keeps (F := { lc := true }) u rfl (Keeps.refl _ u)).tenants_eq rfl)]; rfl
  rw [poolCleared, hj] at h
  have hor := raise_clients h
  simpa only [State.clients, stick, ((erasedPool_keeps s).tenants_eq rfl)] using hor

/-- The ladder is derived from the root that is active. -/
structure Derives (s : State) (b : Bytes) (test : Bool) : Prop where
  active : activeRoot s = .secret b test
  sound : s.ks.rootFail = false ∨ test = true

namespace Derives

variable {b : Bytes} {test : Bool}

theorem ladder (h : Derives s b test) : ladderBack s = deriveRoot { drawScramble (poolCleared s) with
    ks := { (drawScramble (poolCleared s)).ks with rootFail := false } } b test := by
  have hrf : (drawScramble (poolCleared s)).ks.rootFail = s.ks.rootFail := congrArg (·.rootFail) (poolCleared_ks s)
  exact deriveLadder_of_derives ((poolCleared_activeRoot s).trans h.active) (hrf ▸ h.sound)

theorem foot (h : Derives s b test) : Keeps { ks := true, trngN := true } (poolCleared s) (ladderBack s) := by
  rw [h.ladder]
  exact deriveRoot_keeps _ _ _ rfl (Keeps.set_ks rfl (drawScramble_keeps _ rfl rfl (Keeps.refl _ _)))

/-- The key store behind the derivation. -/
theorem ks (h : Derives s b test) : ∃ psk dev scr, (ladderBack s).ks = { (poolCleared s).ks with
    rootFail := false, testRoot := test, hrk := some (kdf b (ascii "QHV1 HRK") [if test then 2 else 1] 32)
    psk := psk, devSeed := dev, scramble := scr } := by
  rw [h.ladder]
  exact ⟨_, _, _, rfl⟩

theorem clients (h : Derives s b test) (hc : ∀ c ∈ s.clients, isClient c = true) :
    ∀ c ∈ (ladderBack s).clients, isClient c = true := by
  intro c hmem
  rw [State.clients, (h.foot.tenants_eq rfl)] at hmem
  rcases poolCleared_clients hmem with rfl | hmem
  · rfl
  · exact hc c hmem

end Derives

end

/-! ## O35 -/

/-- What an access moves that begins a zeroisation. -/
def zeroFoot : Foot :=
  { hv := true, ev := true, dma := true, ks := true, fns := true, tenants := true, ctxs := true, slots := true, combs := true,
    jobs := true, freeN := true }

/-- A zeroisation by command begins. -/
theorem ksZeroiseStart_zeroises {s : State} (hs : Running s) (hup : Up s) :
    Completes .ksZeroiseStart s fun t =>
      (∃ tr, t.ks.zeroising = some tr ∧ (s.ks.zeroising = none → tr = .command)) ∧
      t.ks.hrk = none ∧ t.ks.psk = none ∧ t.ks.devSeed = none ∧ t.ks.scramble = none ∧
      t.ks.ppDrbg = none ∧ (∀ c, (t.comb c).nonces = []) ∧
      t.queues = s.queues ∧ t.otp = s.otp := by
  obtain ⟨hpwr, hready⟩ := hup
  obtain ⟨a, ha⟩ := wake_awake hpwr 1
  refine .ofAwake rfl hs hpwr ?_
  have hz : opKsZeroiseStart (wake s 1) = zeroNow (zeroMark (wake s 1) .command false) .command := by
    rw [ha]
    exact (if_pos hready).trans (if_pos hs.kclk)
  obtain ⟨q, hq⟩ := zeroNow_command_ks (zeroMark (wake s 1) .command false)
  have hinv : (zeroMark (wake s 1) .command false).Inv :=
    (zeroMark_keeps (F := { hv := true, ks := true, jobs := true }) _ _ _ rfl rfl ((Keeps.refl _ s).wake rfl)).inv hs.inv
  have hk : Keeps zeroFoot s (zeroNow (zeroMark (wake s 1) .command false) .command) :=
    zeroNow_keeps _ _ rfl rfl rfl rfl rfl rfl rfl rfl rfl rfl
      (zeroMark_keeps _ _ _ rfl rfl ((Keeps.refl _ s).wake rfl))
  rw [hz]
  refine ⟨?_, by rw [hq], by rw [hq], by rw [hq], by rw [hq]; rfl, by rw [hq], (zeroNow_command_noNonces hinv).2,
    hk.queues_eq rfl, (hk.otp_eq rfl)⟩
  rw [hq, ha]
  refine ⟨_, rfl, fun hnone => ?_⟩
  dsimp only
  rw [hnone]

/-- What the restored records leave of the key store and of the sticky record. -/
theorem commandEnds {s : State} (hz : s.ks.zeroising = some .command) (hk : s.hv.kclk = true)
    (hp : s.ks.zPend = false) (ht : s.aon.tampered = false) :
    Completes .zeroisationStep5Done s fun t =>
      t.ks = (ladderBack s).ks ∧ StickyKept (ladderBack s) t ∧
        (s.ks.restoreDue = [] → t.slots = (deriveAllNodes (ladderBack s)).slots) := by
  have hfoot := restoreWaiting_foot (deriveAllNodes (ladderBack s)) (erasedPool s).ks.restoreDue
  refine .ofClock rfl hk ?_
  rw [opZeroisationStep5Done_command hz hk hp ht]
  refine ⟨(hfoot.ks_eq rfl).trans ((deriveAllNodes_slots _).ks_eq rfl), ?_, fun hdue => ?_⟩
  · exact ((StickyKept.refl _).keeps (deriveAllNodes_slots _) rfl).trans (restoreWaiting_stickyKept _ _)
  · rw [erasedPool_due, hdue]
    rfl

/-- Settles O35: the start clears the ladder and the nonces; at the end the pool is cleared, and the trigger decides
what follows. -/
theorem zeroisation : Obligations.Zeroisation := by
  unfold Obligations.Zeroisation
  refine ⟨fun s hs hup => ksZeroiseStart_zeroises hs hup, fun tr s hs hz hk hp htr => ?_,
    fun b test s hs hz hk hp ht hc ha hr => ?_, fun b s hs hz hk hp ht ha hr => ?_⟩
  · have hks := poolCleared_ks s
    have hcleared := fun p => emptied_of_cleared (t := poolCleared s) hs.wf (p := p) rfl (by rw [hks]; rfl)
    have hjobs : (poolCleared s).jobs = s.jobs := by
      rw [((poolCleared_events s).jobs_eq rfl)]
      exact ((erasedPool_keeps s).jobs_eq rfl)
    have hqueues : (poolCleared s).queues = s.queues := by
      rw [(poolCleared_events s).queues_eq rfl]
      exact (erasedPool_keeps s).queues_eq rfl
    refine .ofClock rfl hk ?_
    rcases htr with rfl | rfl
    · have hdrbg : Keeps { combs := true, trngN := true } (poolCleared s)
          ((poolCleared s).each (List.range combCount) drbgInit) :=
        Keeps.each _ _ (fun _ _ => drbgInit_keeps _ _ rfl rfl) (Keeps.refl _ _)
      rw [opZeroisationStep5Done_tamper hz hk hp]
      have hks' := (hdrbg.ks_eq rfl).trans hks
      refine ⟨by rw [hks'], by rw [hks'], by rw [hks'], ?_,
        fun p => emptied_of_cleared hs.wf (hdrbg.slot_eq rfl p) (by rw [hks']; rfl),
        (hdrbg.jobs_eq rfl).trans hjobs, (hdrbg.queues_eq rfl).trans hqueues⟩
      exact (congrArg (fun a : Aon => a.sticky.getLsbD 89) (hdrbg.aon_eq rfl)).trans (poolCleared_sticky s)
    · rw [opZeroisationStep5Done_lifecycle hz hk hp]
      exact ⟨by rw [hks], by rw [hks], by rw [hks], poolCleared_sticky s, hcleared, hjobs, hqueues⟩
  · have hd : Derives s b test := ⟨ha, hr⟩
    obtain ⟨psk, dev, scr, hlad⟩ := hd.ks
    obtain ⟨t, he, hks, hsticky, hslots⟩ := commandEnds hz hk hp ht
    have hpool := poolCleared_ks s
    rw [hlad, hpool] at hks
    refine ⟨t, he, by rw [hks], by rw [hks], hsticky _ ?_, by rw [hks], by rw [hks], fun hdue p hp12 => ?_⟩
    · rw [(hd.foot.aon_eq rfl)]
      exact poolCleared_sticky s
    · refine emptied_of_cleared hs.wf ?_ (by rw [hks]; rfl)
      rw [State.slot, hslots hdue]
      exact (deriveAllNodes_other (hd.clients hc) hp12).trans (hd.foot.slot_eq rfl p)
  · have hrf : (drawScramble (poolCleared s)).ks.rootFail = true := (congrArg (·.rootFail) (poolCleared_ks s)).trans hr
    have hladder : ladderBack s = _ := deriveLadder_of_failed ((poolCleared_activeRoot s).trans ha) hrf
    obtain ⟨t, he, hks, -, -⟩ := commandEnds hz hk hp ht
    have hpool := hks.trans (congrArg (·.ks) hladder)
    exact ⟨t, he, by rw [hpool]; exact congrArg (·.zeroising) (poolCleared_ks s),
      by rw [hpool]; exact hrf, by rw [hpool]; exact congrArg (·.hrk) (poolCleared_ks s)⟩

end Sys2Proof.Machine
end

section
/-! SUPPORT. Writes of bytes that lie in one page: how they are cut into requests, and what leaves (R302, R330, R335). -/

namespace Sys2Proof.Machine

/-! ## Requests cut at multiples -/

section

variable {step : Nat}

theorem cutF_bounds (hstep : 0 < step) {fuel a n : Nat} {p : Nat × Nat} (hp : p ∈ cutF step fuel a n) :
    a ≤ p.1 ∧ 0 < p.2 ∧ p.1 + p.2 ≤ a + n := by
  induction fuel generalizing a n with
  | zero => cases hp
  | succ fuel ih =>
    have hmod := Nat.mod_lt a hstep
    rw [cutF] at hp
    split at hp
    · cases hp
    · rcases List.mem_cons.1 hp with rfl | hp
      · dsimp only
        omega
      · have h := ih hp
        omega

theorem cutF_zero (fuel a : Nat) : cutF step fuel a 0 = [] := by
  cases fuel <;> rfl

/-- What reaches no multiple of `step` is one request. -/
theorem cutF_single {fuel a n : Nat} (hn : n ≠ 0) (hle : n ≤ step - a % step) :
    cutF step (fuel + 1) a n = [(a, n)] := by
  rw [cutF, if_neg hn]
  dsimp only
  rw [min_eq_left hle, Nat.sub_self, cutF_zero]

/-- The bytes that the requests hold together. -/
def piecesTotal (l : List (Nat × Nat)) : Nat := (l.map (·.2)).sum

theorem cutF_total (hstep : 0 < step) {fuel a n : Nat} (hfuel : a % step + n ≤ step * fuel) :
    piecesTotal (cutF step fuel a n) = n := by
  induction fuel generalizing a n with
  | zero =>
    obtain rfl : n = 0 := by omega
    rfl
  | succ fuel ih =>
    have hmod := Nat.mod_lt a hstep
    rw [Nat.mul_succ] at hfuel
    obtain rfl | hn := Nat.eq_zero_or_pos n
    · rw [cutF_zero]
      rfl
    by_cases hle : n ≤ step - a % step
    · rw [cutF_single hn.ne' hle]
      rfl
    · have hnext : (a + (step - a % step)) % step = 0 := by
        have hdiv : a + (step - a % step) = step * (a / step + 1) := by
          rw [Nat.mul_succ]
          have := Nat.div_add_mod a step
          omega
        rw [hdiv, Nat.mul_mod_right]
      have ht := ih (a := a + (step - a % step)) (n := n - (step - a % step)) (by omega)
      rw [cutF, if_neg hn.ne']
      dsimp only
      rw [min_eq_right (by omega)]
      simp only [piecesTotal, List.map_cons, List.sum_cons] at ht ⊢
      omega

theorem cuts_total (hstep : 0 < step) (a n : Nat) : piecesTotal (cuts step a n) = n := by
  refine cutF_total hstep ?_
  have hmod := Nat.mod_lt a hstep
  have hdiv := Nat.div_add_mod n step
  have hn := Nat.mod_lt n hstep
  rw [Nat.mul_add]
  omega

theorem cuts_page {a n : Nat} (hn : n ≠ 0) (h : InPage a n) : cuts 4096 a n = [(a, n)] :=
  cutF_single hn (by unfold InPage at h; omega)

end

/-! ## The pieces of a page -/

section

variable {s t u : State} {c tgt a n x : Nat} {pasid : Option Nat}

theorem mps_pos (s : State) : 0 < s.mps := by
  have : 0 < 2 ^ s.cap.mps := Nat.two_pow_pos _
  unfold State.mps
  omega

/-- What a write in a page is cut into. -/
def pageCuts (s : State) (tgt a n : Nat) : List (Nat × Nat) := if tgt = 0 then cuts s.mps a n else [(a, n)]

theorem pageCuts_total (s : State) (tgt a n : Nat) : piecesTotal (pageCuts s tgt a n) = n := by
  unfold pageCuts
  split
  · exact cuts_total (mps_pos s) a n
  · rfl

theorem pageCuts_bounds (hn : n ≠ 0) {p : Nat × Nat} (hp : p ∈ pageCuts s tgt a n) :
    a ≤ p.1 ∧ 0 < p.2 ∧ p.1 + p.2 ≤ a + n := by
  unfold pageCuts at hp
  split at hp
  · exact cutF_bounds (mps_pos s) hp
  · rw [List.mem_singleton.1 hp]
    omega

theorem reqCuts_page (hn : n ≠ 0) (hpage : InPage a n) {y : Nat} (hw : windowed s c a n true = some (tgt, y, pasid)) :
    reqCuts s c s.mps a n true = pageCuts s tgt a n := by
  unfold reqCuts pageCuts
  rw [cuts_page hn hpage]
  rw [List.flatMap_singleton, hw]
  dsimp only
  by_cases h : tgt = 0
  · subst h; rfl
  · rw [if_neg h]
    split
    next heq => simp at heq; omega
    next => rfl

theorem covers_congr {w : Dmaw} {b : Nat} (h : b / 4096 = a / 4096) : covers s w b = covers s w a := by
  simp only [covers, h]

/-- Within a page, a window of the host that lets the whole through lets each piece through. -/
theorem windowed_within {b m y : Nat} (hw : windowed s c a n true = some (0, y, pasid)) (hn : n ≠ 0) (hm : m ≠ 0)
    (hb : b / 4096 = a / 4096) (hlast : (b + m - 1) / 4096 = (a + n - 1) / 4096) :
    windowed s c b m true = some (0, b, pasid) ∧ y = a := by
  unfold windowed at hw ⊢
  dsimp only at hw ⊢
  simp only [covers_congr hb]
  revert hw
  split
  next => exact fun h => nomatch h
  next i _ =>
    simp only [hn, hm, hlast, if_true, decide_false, Bool.false_or]
    split
    next hok =>
      intro hw
      simp only [Option.some.injEq, Prod.mk.injEq] at hw
      obtain ⟨htgt, hy, hpasid⟩ := hw
      rw [htgt, if_pos rfl] at hy
      rw [htgt] at hpasid ⊢
      exact ⟨by rw [← hpasid, if_pos rfl], hy.symm⟩
    next => exact fun h => nomatch h

/-- A translation moves the addresses of a page together. -/
theorem xlated_within {b : Nat} (hx : xlated s c tgt a pasid true = .to x) (hb : b / 4096 = a / 4096) (hle : a ≤ b) :
    xlated s c tgt b pasid true = .to (x + (b - a)) := by
  unfold xlated at hx ⊢
  simp only [hb, if_true] at hx ⊢
  split at hx
  next hats =>
    rw [if_pos hats]
    split at hx
    next e he =>
      split at hx
      next hok =>
        injection hx with hx
        rw [if_pos hok]
        congr 1
        omega
      next => cases hx
    next => cases hx
  next hats =>
    injection hx with hx
    rw [if_neg hats]
    congr 1
    omega

/-- Each piece goes through the window of the whole, to the place that lies as far in. -/
theorem piece_placed (hn : n ≠ 0) (hpage : InPage a n) {y : Nat} (hw : windowed s c a n true = some (tgt, y, pasid))
    (hx : xlated s c tgt y pasid true = .to x) {p : Nat × Nat} (hp : p ∈ pageCuts s tgt a n) :
    ∃ z, windowed s c p.1 p.2 true = some (tgt, z, pasid) ∧ xlated s c tgt z pasid true = .to (x + (p.1 - a)) := by
  obtain ⟨hle, hpos, hend⟩ := pageCuts_bounds hn hp
  by_cases htgt : tgt = 0
  · subst htgt
    unfold InPage at hpage
    have hdiv : p.1 / 4096 = a / 4096 := by omega
    obtain ⟨hwin, rfl⟩ := windowed_within hw hn hpos.ne' hdiv (by omega)
    refine ⟨p.1, hwin, ?_⟩
    exact xlated_within hx hdiv hle
  · unfold pageCuts at hp
    rw [if_neg htgt, List.mem_singleton] at hp
    subst hp
    exact ⟨y, hw, by rw [hx, Nat.sub_self, Nat.add_zero]⟩

end

/-! ## What leaves -/

section

variable {s t u : State} {c tgt a n x : Nat} {pasid : Option Nat}

theorem Emitted.refl (s : State) : Emitted s s [] :=
  ⟨s.hi.busyAt, s.hi.idle, s.hi.ltrDue, s.hi.ltrSent, s.hi.ltrAt, [], by rw [List.append_nil], by simp, fun _ => rfl⟩

theorem Emitted.trans {l k : List Out} (h : Emitted s t l) (g : Emitted t u k) : Emitted s u (l ++ k) := by
  obtain ⟨b, i, d, e, w, o, rfl, ho, hoff⟩ := h
  obtain ⟨b', i', d', e', w', o', rfl, ho', hoff'⟩ := g
  refine ⟨b', i', d', e', w', o ++ o', by rw [List.append_assoc], ?_, fun hc => by rw [hoff hc, hoff' hc]; rfl⟩
  rw [List.filter_append, ho, ho']
  change (_ ++ if s.coreOff = true then [] else k) = _
  split <;> rfl

theorem Emitted.windowed (h : Emitted s t l) (c a n : Nat) (wr : Bool) : windowed t c a n wr = windowed s c a n wr := by
  obtain ⟨_, _, _, _, _, _, rfl, -, -⟩ := h
  rfl

theorem Emitted.xlated (h : Emitted s t l) (c tgt a : Nat) (pasid : Option Nat) (wr : Bool) :
    xlated t c tgt a pasid wr = xlated s c tgt a pasid wr := by
  obtain ⟨_, _, _, _, _, _, rfl, -, -⟩ := h
  rfl

/-- The write request for a piece. -/
def pieceOut (s : State) (c tgt a x : Nat) (pasid : Option Nat) (noSnoop relaxed : Bool) (b : Bytes) (p : Nat × Nat) : Out :=
  .write c tgt (x + (p.1 - a)) (slice b (p.1 - a) p.2) noSnoop relaxed pasid (atMark s c tgt)

theorem pageWrites_eq (s : State) (c tgt a x : Nat) (pasid : Option Nat) (ns ro : Bool) (b : Bytes) :
    PageWrites s c tgt a x pasid ns ro b = (pageCuts s tgt a b.length).map (pieceOut s c tgt a x pasid ns ro b) := rfl

/-- The pieces lie one behind the other from `a` on. -/
def Adjoin : Nat → List (Nat × Nat) → Prop
  | _, [] => True
  | a, p :: l => p.1 = a ∧ Adjoin (a + p.2) l

theorem cutF_adjoin (step fuel a n : Nat) : Adjoin a (cutF step fuel a n) := by
  induction fuel generalizing a n with
  | zero => trivial
  | succ fuel ih =>
    rw [cutF]
    split
    · trivial
    · exact ⟨rfl, ih _ _⟩

theorem pageCuts_adjoin (s : State) (tgt a n : Nat) : Adjoin a (pageCuts s tgt a n) := by
  unfold pageCuts
  split
  · exact cutF_adjoin _ _ _ _
  · exact ⟨rfl, trivial⟩

/-- The window and the translation of the piece let it through. -/
def Placed (s : State) (c tgt a x : Nat) (pasid : Option Nat) (p : Nat × Nat) : Prop :=
  ∃ z, windowed s c p.1 p.2 true = some (tgt, z, pasid) ∧ xlated s c tgt z pasid true = .to (x + (p.1 - a))

/-- No Snoop and Relaxed Ordering of a data write. -/
def noSnoopOf (s : State) (c tgt : Nat) (g : Bool) : Bool := g && (s.func c).nsEn && tgt == 0
def relaxedOf (s : State) (c : Nat) : Bool := (s.func c).roEn && isFn c && s.hi.cfg.getLsbD 3

theorem pieceEmitted {k : List Out} (h : Emitted s u k) (c tgt x : Nat) (b : Bytes) (g : Bool) (pasid : Option Nat) :
    Emitted s ((if tgt = 0 then linkActive u else u).emit [.write c tgt x b
        (g && ((if tgt = 0 then linkActive u else u).func c).nsEn && tgt == 0)
        (((if tgt = 0 then linkActive u else u).func c).roEn && isFn c &&
          (if tgt = 0 then linkActive u else u).hi.cfg.getLsbD 3) pasid
        (atMark (if tgt = 0 then linkActive u else u) c tgt)])
      (k ++ [.write c tgt x b (noSnoopOf s c tgt g) (relaxedOf s c) pasid (atMark s c tgt)]) := by
  have hlink : LinkMoved u (if tgt = 0 then linkActive u else u) := by
    split
    · exact linkActive_linkMoved u
    · exact LinkMoved.refl u
  revert hlink
  generalize (if tgt = 0 then linkActive u else u) = v
  intro hlink
  have hsame : v.func c = s.func c ∧ v.hi.cfg = s.hi.cfg ∧ atMark v c tgt = atMark s c tgt := by
    obtain ⟨_, _, _, _, _, _, rfl, -, -⟩ := h
    obtain ⟨_, _, _, _, _, _, rfl, -, -⟩ := hlink
    exact ⟨rfl, rfl, rfl⟩
  obtain ⟨hfunc, hcfg, hmark⟩ := hsame
  rw [hfunc, hcfg, hmark]
  exact h.trans (hlink.emit _ (by simp [isLtr]))

/-- Pieces that their window lets through are issued one after the other. -/
theorem dataPieces_issued (g : Bool) (b : Bytes) (l : List (Nat × Nat)) {d m : Nat} {k : List Out} (h : Emitted s u k)
    (hadj : Adjoin (a + d) l) (hl : ∀ p ∈ l, Placed s c tgt a x pasid p) :
    ∃ t, dataPieces u c g l (b.drop d) m = (.issued, m + piecesTotal l, t) ∧
      Emitted s t (k ++ l.map (pieceOut s c tgt a x pasid (noSnoopOf s c tgt g) (relaxedOf s c) b)) := by
  induction l generalizing u d m k with
  | nil => exact ⟨u, rfl, by rwa [List.map_nil, List.append_nil]⟩
  | cons p l ih =>
    obtain ⟨p1, p2⟩ := p
    obtain ⟨rfl, hadj⟩ := hadj
    obtain ⟨z, hw, hx⟩ := hl _ List.mem_cons_self
    dsimp only at hw hx hadj
    rw [Nat.add_assoc] at hadj
    obtain ⟨t, ht, hemit⟩ := ih (m := m + p2) (pieceEmitted h c tgt (x + (a + d - a)) ((b.drop d).take p2) g pasid)
      hadj fun p hp => hl p (List.mem_cons_of_mem _ hp)
    refine ⟨t, ?_, ?_⟩
    · rw [dataPieces, h.windowed, hw]
      dsimp only
      rw [h.xlated, hx]
      dsimp only
      rw [List.drop_drop, ht, piecesTotal, piecesTotal, List.map_cons, List.sum_cons, Nat.add_assoc]
    · rw [List.append_assoc] at hemit
      rw [List.map_cons, pieceOut, slice, Nat.add_sub_cancel_left]
      rw [Nat.add_sub_cancel_left] at hemit
      exact hemit

theorem page_placed (hn : n ≠ 0) (hpage : InPage a n) {y : Nat} (hw : windowed s c a n true = some (tgt, y, pasid))
    (hx : xlated s c tgt y pasid true = .to x) : ∀ p ∈ pageCuts s tgt a n, Placed s c tgt a x pasid p :=
  fun _ hp => piece_placed hn hpage hw hx hp

/-- In a page, the window that holds the whole range lets it through. -/
theorem allowed_page (hpage : InPage a n) {wr : Bool} (hw : (windowed s c a n wr).isSome = true) :
    allowed s c a n wr = true := by
  unfold InPage at hpage
  unfold allowed
  rw [rangeAllowed]
  split
  · rfl
  · dsimp only
    rw [min_eq_left (by omega), hw, Nat.sub_self, rangeAllowed]
    rfl

theorem length_ne_zero {b : Bytes} (hb : b ≠ []) : b.length ≠ 0 := mt List.length_eq_zero_iff.1 hb

/-- A segment in a page whose window and translation let it through is written whole. -/
theorem writeSeg_page {g : Seg} {b : Bytes} {y : Nat} (hbm : s.busMaster c = true) (hb : b ≠ [])
    (hpage : InPage g.addr.toNat b.length) (hw : windowed s c g.addr.toNat b.length true = some (tgt, y, pasid))
    (hx : xlated s c tgt y pasid true = .to x) :
    ∃ t, writeSeg s c g true b = (.issued, b.length, t) ∧ Emitted s t (PageWrites s c tgt g.addr.toNat x pasid
      (noSnoopOf s c tgt g.noSnoop) (relaxedOf s c) b) := by
  have hallowed := allowed_page hpage (show (windowed s c _ _ true).isSome = true by rw [hw]; rfl)
  obtain ⟨t, ht, hemit⟩ := dataPieces_issued (d := 0) (m := 0) g.noSnoop b _ (Emitted.refl s)
    (pageCuts_adjoin s tgt g.addr.toNat b.length) (page_placed (length_ne_zero hb) hpage hw hx)
  refine ⟨t, ?_, hemit⟩
  unfold writeSeg
  dsimp only
  rw [hbm, hallowed, if_neg (by decide), if_neg (by decide), reqCuts_page (length_ne_zero hb) hpage hw]
  rw [pageCuts_total, Nat.zero_add] at ht
  exact ht

theorem writeOut_page {g : Seg} {b : Bytes} {y : Nat} (hbm : s.busMaster c = true) (hb : b ≠ []) (hlen : b.length ≤ g.len)
    (hpage : InPage g.addr.toNat b.length) (hw : windowed s c g.addr.toNat b.length true = some (tgt, y, pasid))
    (hx : xlated s c tgt y pasid true = .to x) :
    ∃ t, writeOut s c 0 [g] b 0 = (.issued, b.length, t) ∧ Emitted s t (PageWrites s c tgt g.addr.toNat x pasid
      (noSnoopOf s c tgt g.noSnoop) (relaxedOf s c) b) := by
  obtain ⟨t, ht, hemit⟩ := writeSeg_page hbm hb hpage hw hx
  refine ⟨t, ?_, hemit⟩
  have hpos := Nat.pos_of_ne_zero (length_ne_zero hb)
  have hg : ({ g with addr := g.addr + BitVec.ofNat 64 0, len := g.len - 0 } : Seg) = g := by
    rw [show g.addr + BitVec.ofNat 64 0 = g.addr from BitVec.add_zero _]
    rfl
  unfold writeOut
  rw [if_neg (by simpa using hb), if_neg (by omega)]
  dsimp only
  rw [hg, Nat.sub_zero, List.take_of_length_le hlen, show (0 == 0) = true from rfl, ht]
  dsimp only
  rw [Nat.zero_add, writeOut]

/-! ### Bodies and log entries -/

/-- The write of a body, piece by piece. -/
theorem body_issued (hbm : s.busMaster c = true) (b : Bytes) (l : List (Nat × Nat)) {k : List Out} (h : Emitted s u k)
    (hl : ∀ p ∈ l, Placed s c tgt a x pasid p) (hb : ∀ p ∈ l, p.1 - a + p.2 ≤ b.length) :
    ∃ t, l.foldl (fun w p => if w.1 = .issued then recordWrite w.2 c p.1 (slice b (p.1 - a) p.2) else w)
        ((.issued, u) : Wrote × State) = (.issued, t) ∧
      Emitted s t (k ++ l.map (pieceOut s c tgt a x pasid false false b)) := by
  induction l generalizing u k with
  | nil => exact ⟨u, rfl, by rwa [List.map_nil, List.append_nil]⟩
  | cons p l ih =>
    obtain ⟨z, hw, hx⟩ := hl p List.mem_cons_self
    have hlen : (slice b (p.1 - a) p.2).length = p.2 := by
      have := hb p List.mem_cons_self
      rw [slice, List.length_take, List.length_drop]
      omega
    have hbm' : u.busMaster c = true := by
      obtain ⟨_, _, _, _, _, _, rfl, -, -⟩ := h
      exact hbm
    have hmark : atMark u c tgt = atMark s c tgt := by
      obtain ⟨_, _, _, _, _, _, rfl, -, -⟩ := h
      rfl
    obtain ⟨hissued, hemit⟩ := recordWrite_issued (s := u) (b := slice b (p.1 - a) p.2) hbm'
      (by rw [hlen, h.windowed, hw]) ((h.xlated _ _ _ _ _).trans hx)
    rw [hmark] at hemit
    obtain ⟨t, ht, hout⟩ := ih (h.trans hemit) (fun p hp => hl p (List.mem_cons_of_mem _ hp))
      fun p hp => hb p (List.mem_cons_of_mem _ hp)
    refine ⟨t, ?_, by rwa [List.append_assoc] at hout⟩
    rw [List.foldl_cons]
    dsimp only
    rw [if_pos rfl, ← ht, ← hissued]

/-- A body in a page whose window and translation let it through is written whole. -/
theorem bodyWrite_page {b : Bytes} {y : Nat} (hbm : s.busMaster c = true) (hb : b ≠ []) (hpage : InPage a b.length)
    (hw : windowed s c a b.length true = some (tgt, y, pasid)) (hx : xlated s c tgt y pasid true = .to x) :
    ∃ t, bodyWrite s c a b = (.issued, t) ∧ Emitted s t (PageWrites s c tgt a x pasid false false b) := by
  obtain ⟨t, ht, hemit⟩ := body_issued hbm b _ (Emitted.refl s) (page_placed (length_ne_zero hb) hpage hw hx)
    fun p hp => by have := pageCuts_bounds (length_ne_zero hb) hp; omega
  refine ⟨t, ?_, hemit⟩
  unfold bodyWrite
  rw [reqCuts_page (length_ne_zero hb) hpage hw]
  exact ht

end

end Sys2Proof.Machine
end

section
/-! SUPPORT. What the ways of requests depend on; the end of a job: its output, its record, its leaf (R58, R90, R96 to
R98, R262). The theorem that settles O17. -/

namespace Sys2Proof.Machine

section

variable {s t u : State}

/-! ## The ways of requests -/

/-- Windows, bus mastering, translations and the attributes of requests are as they were. -/
structure SameWays (s t : State) : Prop where
  win : ∀ c, (t.tenant c).win = (s.tenant c).win
  func : ∀ c, ∃ due, t.func c = { s.func c with due := due }
  rom : t.hi.rom = s.hi.rom
  cfg : t.hi.cfg = s.hi.cfg
  cap : t.cap = s.cap
  atc : t.dma.atc = s.dma.atc

namespace SameWays

theorem refl (s : State) : SameWays s s := ⟨fun _ => rfl, fun _ => ⟨_, rfl⟩, rfl, rfl, rfl, rfl⟩

theorem trans (h : SameWays s u) (g : SameWays u t) : SameWays s t where
  win c := (g.win c).trans (h.win c)
  func c := by
    obtain ⟨d, hd⟩ := h.func c
    obtain ⟨e, he⟩ := g.func c
    exact ⟨e, by rw [he, hd]⟩
  rom := g.rom.trans h.rom
  cfg := g.cfg.trans h.cfg
  cap := g.cap.trans h.cap
  atc := g.atc.trans h.atc

/-- An operation outside whose footprint the ways lie. -/
theorem ofKeeps {F : Foot} (h : Keeps F s t) (htenants : F.tenants = false) (hfns : F.fns = false)
    (hhi : F.hi = false) (hcap : F.cap = false) (hdma : F.dma = false) : SameWays s t where
  win c := by rw [h.tenant_eq htenants]
  func c := ⟨(s.func c).due, h.func_eq hfns c⟩
  rom := by rw [h.hi_eq hhi]
  cfg := by rw [h.hi_eq hhi]
  cap := h.cap_eq hcap
  atc := by rw [h.dma_eq hdma]

theorem keeps {F : Foot} (h : SameWays s u) (hk : Keeps F u t) (htenants : F.tenants = false)
    (hfns : F.fns = false) (hhi : F.hi = false) (hcap : F.cap = false)
    (hdma : F.dma = false) : SameWays s t := h.trans (ofKeeps hk htenants hfns hhi hcap hdma)

theorem emitted {l : List Out} (h : SameWays s u) (he : Emitted u t l) : SameWays s t := by
  refine h.trans ?_
  obtain ⟨_, _, _, _, _, _, rfl, -, -⟩ := he
  exact ⟨fun _ => rfl, fun _ => ⟨_, rfl⟩, rfl, rfl, rfl, rfl⟩

theorem signalVec (hs : s.wf = true) (c v : Nat) : SameWays s (signalVec s c v) := by
  unfold Machine.signalVec
  split
  · refine ⟨fun _ => rfl, fun d => ?_, rfl, rfl, rfl, rfl⟩
    by_cases hd : d = c
    · rw [hd, State.modFunc_same hs]
      split
      · exact ⟨_, rfl⟩
      · exact ⟨_, rfl⟩
    · exact ⟨_, State.modFunc_other _ _ _ _ hd⟩
  · refine ⟨fun d => ?_, fun _ => ⟨_, rfl⟩, rfl, rfl, rfl, rfl⟩
    by_cases hd : d = c
    · rw [hd, State.modTenant_same hs]
    · rw [State.modTenant_other _ _ _ _ hd]

theorem raise (hs : s.Inv) (src : Nat) (info : W32) : SameWays s (raise s src info) := by
  have hev : ∀ {e}, Keeps { ev := true } s { s with ev := e } := Keeps.set_ev rfl (Keeps.refl _ s)
  have hrec : ∀ {e} b, Keeps { ev := true } s (recMerge { s with ev := e } src info b) := fun b =>
    recMerge_keeps _ _ _ _ rfl hev
  unfold Machine.raise
  dsimp only
  split <;> split
  · exact (ofKeeps (hrec _) rfl rfl rfl rfl rfl).trans (signalVec ((hrec _).wf hs) _ _)
  · exact (ofKeeps hev rfl rfl rfl rfl rfl).trans (signalVec (hev.wf hs) _ _)
  · exact ofKeeps (hrec _) rfl rfl rfl rfl rfl
  · exact ofKeeps hev rfl rfl rfl rfl rfl

theorem combCount1 (hs : s.Inv) (c top : Nat) (get : Comb → Nat) (put : Comb → Nat → Comb) :
    SameWays s (combCount1 s c top get put) := by
  have hmod := modComb_keeps (F := { combs := true }) s c (fun b => put b (satAdd top (get (s.comb c)) 1)) rfl
    (Keeps.refl _ s)
  unfold Machine.combCount1
  dsimp only
  split
  · exact (ofKeeps hmod rfl rfl rfl rfl rfl).trans (raise (hmod.inv hs) _ _)
  · exact ofKeeps hmod rfl rfl rfl rfl rfl

theorem busMaster (h : SameWays s t) (c : Nat) : t.busMaster c = s.busMaster c := by
  obtain ⟨d, hd⟩ := h.func c
  simp only [State.busMaster, hd]

theorem windowed (h : SameWays s t) (c a n : Nat) (wr : Bool) : windowed t c a n wr = windowed s c a n wr := by
  simp only [Machine.windowed, covers, State.rom, h.win, h.rom, h.cap]

theorem xlated (h : SameWays s t) (c tgt a : Nat) (pasid : Option Nat) (wr : Bool) :
    xlated t c tgt a pasid wr = xlated s c tgt a pasid wr := by
  obtain ⟨d, hd⟩ := h.func c
  simp only [Machine.xlated, hd, h.atc]

theorem atMark (h : SameWays s t) (c tgt : Nat) : atMark t c tgt = atMark s c tgt := by
  obtain ⟨d, hd⟩ := h.func c
  simp only [Machine.atMark, hd]

theorem mps (h : SameWays s t) : t.mps = s.mps := by simp only [State.mps, h.cap]

theorem noSnoop (h : SameWays s t) (c tgt : Nat) (g : Bool) : noSnoopOf t c tgt g = noSnoopOf s c tgt g := by
  obtain ⟨d, hd⟩ := h.func c
  simp only [noSnoopOf, hd]

theorem relaxed (h : SameWays s t) (c : Nat) : relaxedOf t c = relaxedOf s c := by
  obtain ⟨d, hd⟩ := h.func c
  simp only [relaxedOf, hd, h.cfg]

theorem pageWrites (h : SameWays s t) (c tgt a x : Nat) (pasid : Option Nat) (ns ro : Bool) (b : Bytes) :
    PageWrites t c tgt a x pasid ns ro b = PageWrites s c tgt a x pasid ns ro b := by
  simp only [PageWrites, h.mps, h.atMark]

end SameWays

/-! ## The counts and the release of a job that ends -/

variable {id : Nat} {j : Job}

/-- A counter of the comb moves where the job met what it counts. -/
def countIf (b : Bool) (c : Nat) (get : Comb → Nat) (put : Comb → Nat → Comb) (s : State) : State :=
  if b then combCount1 s c 0xFFFFFFFF get put else s

/-- A signature moves two counters. -/
def signCounts (c n : Nat) (s : State) : State :=
  let s := combCount1 s c 0xFFFFFF (·.signs) fun b v => { b with signs := v }
  let it := (s.comb c).iters
  let s := s.modComb c fun b => { b with iters := satAdd (2 ^ 40 - 1) it n }
  if it < 2 ^ 40 - 1 && 2 ^ 40 - 1 ≤ it + n then raise s (4 * c + 3) 0 else s

/-- The four counters of a job's end that any job may move. -/
def plainCounts (c : Nat) (o : Op) (j : Job) (s : State) : State :=
  countIf (j.status == stSigInvalid) c (·.pkInvalid) (fun b v => { b with pkInvalid := v })
    (countIf ((o == .hmacVerify || o == .cmacVerify) && j.status == stAuthFail) c (·.digVerify)
      (fun b v => { b with digVerify := v })
      (countIf j.twoPass c (·.twoPass) (fun b v => { b with twoPass := v })
        (countIf (j.acct == .bulk && j.status == stAuthFail) c (·.authFail) (fun b v => { b with authFail := v }) s)))

theorem endCounts_eq (s : State) (id : Nat) : endCounts s id =
    match (s.job id).comb, dOp (s.job id).desc with
    | some c, some o =>
      if (s.job id).noComb then s
      else if o == .mldsaSign && (s.job id).good then signCounts c (s.job id).opInfo (plainCounts c o (s.job id) s)
      else plainCounts c o (s.job id) s
    | _, _ => s := rfl

/-- `t` meets the invariant, and requests go the ways they went. -/
def WaysKept (s t : State) : Prop := t.Inv ∧ SameWays s t

theorem WaysKept.keeps {F : Foot} (h : WaysKept s u) (hk : Keeps F u t) (htenants : F.tenants = false)
    (hfns : F.fns = false) (hhi : F.hi = false) (hcap : F.cap = false)
    (hdma : F.dma = false) : WaysKept s t := ⟨hk.inv h.1, h.2.keeps hk htenants hfns hhi hcap hdma⟩

theorem WaysKept.trans (h : WaysKept s u) (g : WaysKept u t) : WaysKept s t := ⟨g.1, h.2.trans g.2⟩

theorem WaysKept.combCount1 (h : WaysKept s u) (c top : Nat) (get : Comb → Nat) (put : Comb → Nat → Comb) :
    WaysKept s (combCount1 u c top get put) :=
  ⟨(combCount1_keeps (F := { ev := true, fns := true, tenants := true, combs := true }) u c top get put rfl rfl rfl rfl
    (Keeps.refl _ u)).inv h.1, h.2.trans (.combCount1 h.1 c top get put)⟩

theorem WaysKept.countIf (h : WaysKept s u) (b : Bool) (c : Nat) (get : Comb → Nat) (put : Comb → Nat → Comb) :
    WaysKept s (countIf b c get put u) := by
  unfold Machine.countIf
  split
  · exact h.combCount1 _ _ _ _
  · exact h

theorem WaysKept.raise (h : WaysKept s u) (src : Nat) (info : W32) : WaysKept s (raise u src info) :=
  ⟨(raise_signals u src info).inv h.1, h.2.trans (.raise h.1 src info)⟩

theorem WaysKept.signCounts (h : WaysKept s u) (c n : Nat) : WaysKept s (signCounts c n u) := by
  have hmod : ∀ f, WaysKept s (State.modComb (Machine.combCount1 u c 0xFFFFFF (·.signs) fun b v => { b with signs := v }) c f) :=
    fun f => (h.combCount1 c 0xFFFFFF (·.signs) fun b v => { b with signs := v }).keeps
      (modComb_keeps (F := { combs := true }) _ c f rfl (Keeps.refl _ _)) rfl rfl rfl rfl rfl
  unfold Machine.signCounts
  dsimp only
  split
  · exact (hmod _).raise _ _
  · exact hmod _

theorem endCounts_ways (hs : s.Inv) (id : Nat) : WaysKept s (endCounts s id) := by
  have h : WaysKept s s := ⟨hs, .refl s⟩
  have hplain : ∀ c o, WaysKept s (plainCounts c o (s.job id) s) := fun c o =>
    (((h.countIf _ _ _ _).countIf _ _ _ _).countIf _ _ _ _).countIf _ _ _ _
  rw [endCounts_eq]
  split
  next c o _ _ =>
    split
    · exact h
    split
    · exact (hplain c o).signCounts _ _
    · exact hplain c o
  next => exact h

/-- The job holds no context any more, or holds it as it did. -/
theorem endCtx_setsJob (h : SetsJob id j s u) (ab : Bool) : ∃ b, SetsJob id { j with holdsCtx := b } s (endCtx u id ab) := by
  have hfree : SetsJob id { j with holdsCtx := false } s (u.modJob id fun j => { j with holdsCtx := false }) :=
    h.modJob fun j => { j with holdsCtx := false }
  have hctx : ∀ c x f, SetsJob id { j with holdsCtx := false } s
      (State.modCtx (u.modJob id fun j => { j with holdsCtx := false }) c x f) := fun c x f =>
    hfree.keeps (modCtx_keeps (F := { ctxs := true }) _ _ _ _ rfl (Keeps.refl _ _)) rfl
  have hclose : ∀ c x, SetsJob id { j with holdsCtx := false } s
      (closeCtx (u.modJob id fun j => { j with holdsCtx := false }) c x) := fun c x =>
    hfree.keeps (closeCtx_keeps (F := { ctxs := true, combs := true }) _ _ _ rfl rfl (Keeps.refl _ _)) rfl
  unfold endCtx
  dsimp only
  split
  next o x _ _ =>
    split
    · exact ⟨j.holdsCtx, h⟩
    · refine ⟨false, ?_⟩
      split_ifs
      · exact hctx _ _ _
      · exact (hctx _ _ _).keeps (Keeps.set_freeN (F := { freeN := true }) rfl (Keeps.refl _ _)) rfl
      · exact hctx _ _ _
      · exact hclose _ _
      · exact hctx _ _ _
      · exact hctx _ _ _
      · exact hclose _ _
  next => exact ⟨j.holdsCtx, h⟩

/-- The job when its resources are free again. -/
def Job.freed (j : Job) (holds : Bool) : Job :=
  { j with
    holdsCtx := holds, refs := [], reserved := [], pages := 0, keyMat := [], keyShare := [], wrapMat := [], lane2 := []
    inReserve := false, got := [], parts := [], hostParts := [], pass1Tag := [] }

theorem releaseJob_setsJob (h : SetsJob id j s u) (ab : Bool) : ∃ b, SetsJob id (j.freed b) s (releaseJob u id ab) := by
  have hslots : ∀ l, Keeps { slots := true } u (freeRun (u.each (u.job id).refs dropRef) l) := fun l =>
    freeRun_keeps _ _ rfl (Keeps.each _ _ (fun _ _ => dropRef_keeps _ _ rfl) (Keeps.refl _ u))
  obtain ⟨b, hb⟩ := endCtx_setsJob (h.keeps (hslots ((u.job id).reserved.filter fun p =>
    ((u.each (u.job id).refs dropRef).slot p).state == .reserved)) rfl) ab
  have hpp := (hb.keeps (cacheDrop_keeps (F := { combs := true }) _ (.saved id) rfl (Keeps.refl _ _)) rfl).ppFree
  exact ⟨b, hpp.modJob fun j => j.freed j.holdsCtx⟩

/-- The job when its record has been formed. -/
def Job.recorded (j : Job) (credit : Nat) (holds : Bool) : Job :=
  { ({ closedJob j with credit := credit } : Job).freed holds with record := recordOf (closedJob j) }

theorem chargeBusy_setsJob (h : SetsJob id j s u) (n : Nat) :
    SetsJob id { j with credit := j.credit - min j.credit n } s (chargeBusy u id n) := by
  have hm := h.modJob fun x => { x with credit := x.credit - min (u.job id).credit n }
  rw [h.job] at hm
  unfold chargeBusy
  rw [← h.job] at hm ⊢
  exact hm.keeps (chargeCycles_keeps (F := { sch := true }) _ id _ rfl (Keeps.refl _ _)) rfl

/-- The job with the status `st` that its record will show. -/
def Job.closedWith (j : Job) (st : Status) : Job :=
  { j with
    status := st
    nbytes := if st == stShort then j.nbytes else bytesOf st j.srcLen 0 j.written j.noComb
    digest := if st.toNat ≤ 1 then j.digest else [] }

theorem closedWith_eq (j : Job) : j.closedWith (if j.status == stOk && j.trunc then stTrunc else j.status) = closedJob j := by
  by_cases h : j.status = stOk ∧ j.trunc = true
  · obtain ⟨hok, htr⟩ := h
    simp [Job.closedWith, closedJob, hok, htr, show (stTrunc = stShort) = False by decide,
      show (stOk = stShort) = False by decide]
  · have hb : ¬ (j.status == stOk && j.trunc) = true := by simpa using h
    rw [if_neg hb]
    simp only [Job.closedWith, closedJob, if_neg h, beq_iff_eq]

/-- What the release of a job's resources moves. -/
def releaseFoot : Foot := { ks := true, ctxs := true, slots := true, combs := true, jobs := true, freeN := true }

theorem closeJob_eq (s : State) (id n : Nat) : closeJob s id n =
    (releaseJob (chargeBusy (endCounts (s.modJob id fun j => j.closedWith
      (if (s.job id).status == stOk && (s.job id).trunc then stTrunc else (s.job id).status)) id) id
        ((s.job id).allBusy n - (s.job id).busy)) id false).modJob id fun j => { j with record := recordOf j } := rfl

/-- The end of the writes leaves the job with its record, and frees what it held. -/
theorem closeJob_setsJob (hs : s.Inv) (id n : Nat) :
    ∃ cr b, SetsJob id ((s.job id).recorded cr b) s (closeJob s id n) := by
  have h := (SetsJob.refl (id := id) hs).modJob fun j => j.closedWith
    (if (s.job id).status == stOk && (s.job id).trunc then stTrunc else (s.job id).status)
  rw [closedWith_eq] at h
  have hcount := h.keeps (endCounts_keeps (F := { ev := true, fns := true, tenants := true, combs := true }) _ id
    rfl rfl rfl rfl (Keeps.refl _ _)) rfl
  obtain ⟨b, hb⟩ := releaseJob_setsJob (chargeBusy_setsJob hcount ((s.job id).allBusy n - (s.job id).busy)) false
  rw [closeJob_eq]
  exact ⟨_, b, hb.modJob fun j => { j with record := recordOf j }⟩

theorem closeJob_ways (hs : s.Inv) (id n : Nat) : WaysKept s (closeJob s id n) := by
  have hmod : ∀ f, WaysKept s (s.modJob id f) := fun f => WaysKept.keeps ⟨hs, .refl s⟩
    (modJob_keeps (F := { jobs := true }) s id f rfl (Keeps.refl _ s)) rfl rfl rfl rfl rfl
  have hrel : ∀ (u : State) m, Keeps releaseFoot u (releaseJob u id m) := fun u m =>
    releaseJob_keeps u id m rfl rfl rfl rfl rfl rfl (Keeps.refl _ u)
  have hbusy : ∀ (u : State) m, Keeps { sch := true, jobs := true } u (chargeBusy u id m) := fun u m =>
    chargeBusy_keeps u id m rfl rfl (Keeps.refl _ u)
  rw [closeJob_eq]
  have hcount := (hmod fun j => j.closedWith
    (if (s.job id).status == stOk && (s.job id).trunc then stTrunc else (s.job id).status)).1
  exact (((((hmod _).trans (endCounts_ways hcount id)).keeps (hbusy _ _) rfl rfl rfl rfl rfl).keeps (hrel _ _) rfl rfl rfl rfl rfl)).keeps
    (modJob_keeps (F := { jobs := true }) _ id _ rfl (Keeps.refl _ _)) rfl rfl rfl rfl rfl

/-! ## The record leaves -/

theorem recordOf_length (j : Job) : (recordOf j).length = 64 := by
  simp [recordOf, fit_length, zeros_length]

/-- The job's record leaves, and the job has ended. -/
theorem sendResult_issued {tgt a x : Nat} {pasid : Option Nat} (h : SetsJob id j s u) (hpeer : j.fromPeer = false)
    (hbm : u.busMaster j.client = true) (hw : windowed u j.client (resultAddr u j) 64 true = some (tgt, a, pasid))
    (hx : xlated u j.client tgt a pasid true = .to x) :
    SetsJob id { j with stage := .ended, record := recordOf j } s (sendResult u id) ∧
      Sends u (sendResult u id) [.write j.client tgt x (recordOf j) false false pasid (atMark u j.client tgt)] := by
  obtain ⟨hissued, hemit⟩ := recordWrite_issued (b := recordOf j) hbm (by rw [recordOf_length]; exact hw) hx
  have heq : sendResult u id = (recordWrite u j.client (resultAddr u j) (recordOf j)).2.modJob id
      fun x => { x with stage := .ended, record := recordOf j } := by
    unfold sendResult
    dsimp only
    rw [h.job, if_neg (by rw [hpeer]; decide), hissued]
  rw [heq]
  exact ⟨(h.keeps hemit.keeps rfl).modJob fun x => { x with stage := .ended, record := recordOf j }, hemit.sends⟩

theorem Sends.trans {l k : List Out} (h : Sends s u l) (g : Sends u t k) (hoff : u.coreOff = s.coreOff) :
    Sends s t (l ++ k) := by
  obtain ⟨a, ha, hfa, hna⟩ := h
  obtain ⟨b, hb, hfb, hnb⟩ := g
  rw [hoff] at hfb hnb
  refine ⟨a ++ b, by rw [hb, ha, List.append_assoc], ?_, fun hc => by rw [hna hc, hnb hc]; rfl⟩
  rw [List.filter_append, hfa, hfb]
  split <;> rfl

theorem recorded_client (j : Job) (cr : Nat) (b : Bool) : (j.cleared.recorded cr b).client = j.client := rfl

theorem resultAddr_recorded (s : State) (j : Job) (cr : Nat) (b : Bool) :
    resultAddr s (j.cleared.recorded cr b) = resultAddr s j := rfl

theorem recordOf_recorded (j : Job) (cr : Nat) (b : Bool) : recordOf (j.cleared.recorded cr b) = recordOf (closedJob j) := rfl

theorem resultAddr_congr (h : t.queues = s.queues) (j : Job) : resultAddr t j = resultAddr s j := by
  simp only [resultAddr, State.queue, h]

/-- What the end of a job's writes moves. -/
def closeFoot : Foot :=
  { ev := true, ks := true, sch := true, fns := true, tenants := true, ctxs := true, slots := true, combs := true,
    jobs := true, freeN := true }

theorem closeJob_foot (s : State) (id n : Nat) : Keeps closeFoot s (closeJob s id n) :=
  closeJob_keeps s id n rfl rfl rfl rfl rfl rfl rfl rfl rfl rfl (Keeps.refl _ s)

/-- The job that leaves its cell with all its output written ends with its record, where no leaf holds it back. -/
theorem endSeven_issued {tgt a x : Nat} {pasid : Option Nat} (hs : s.Inv) (id n : Nat)
    (hpeer : (s.job id).fromPeer = false) (hleaf : ((s.job id).wantsLeaf && receiptsOn s (s.job id).client) = false)
    (hbm : s.busMaster (s.job id).client = true)
    (hw : windowed s (s.job id).client (resultAddr s (s.job id)) 64 true = some (tgt, a, pasid))
    (hx : xlated s (s.job id).client tgt a pasid true = .to x) :
    ∃ k, SetsJob id k s (endSeven (closeJob (leaveCell s id) id n) id) ∧ k.stage = .ended ∧ k.refs = [] ∧ k.keyMat = [] ∧
      Sends s (endSeven (closeJob (leaveCell s id) id n) id) [.write (s.job id).client tgt x (recordOf (closedJob (s.job id)))
        false false pasid (atMark s (s.job id).client tgt)] := by
  have hleft := (SetsJob.refl (id := id) hs).leaveCell
  have hkept : LeavesKept id s (closeJob (leaveCell s id) id n) :=
    closeJob_leavesKept n (leaveCell_leavesKept (LeavesKept.refl id hs))
  obtain ⟨cr, b, hset⟩ := closeJob_setsJob hleft.inv id n
  rw [hleft.job] at hset
  have hways : WaysKept s (closeJob (leaveCell s id) id n) :=
    WaysKept.trans ⟨hleft.inv, .ofKeeps (modJob_keeps (F := { jobs := true }) s id Job.cleared rfl (Keeps.refl _ s)) rfl rfl rfl rfl rfl⟩
      (closeJob_ways hleft.inv id n)
  have hfoot : Keeps closeFoot s (closeJob (leaveCell s id) id n) :=
    (modJob_keeps s id Job.cleared rfl (Keeps.refl _ s)).trans (closeJob_foot _ id n)
  have heq : endSeven (closeJob (leaveCell s id) id n) id = sendResult (closeJob (leaveCell s id) id n) id := by
    unfold endSeven
    dsimp only
    rw [hkept.wantsLeaf, hkept.receiptsOn, hleaf]
    exact if_neg Bool.false_ne_true
  have hall : SetsJob id ((s.job id).cleared.recorded cr b) s (closeJob (leaveCell s id) id n) :=
    ⟨hset.inv, hset.job, hleft.others.trans hset.others⟩
  have hsend := sendResult_issued (tgt := tgt) (a := a) (x := x) (pasid := pasid) hall hpeer
  rw [recorded_client, resultAddr_congr (hfoot.queues_eq rfl), resultAddr_recorded, recordOf_recorded, hways.2.busMaster,
    hways.2.windowed, hways.2.xlated, hways.2.atMark] at hsend
  obtain ⟨hend, hsends⟩ := hsend hbm hw hx
  rw [heq]
  exact ⟨_, hend, rfl, rfl, rfl, sends_between hsends hfoot rfl rfl rfl⟩

/-! ## The output leaves -/

theorem filter_tblErase {V : Type} (t : Tbl V) (k : Nat) (q : V → Bool) :
    (tblErase t k).filter (fun e => e.1 != k && q e.2) = t.filter fun e => e.1 != k && q e.2 := by
  induction t with
  | nil => rfl
  | cons e t ih =>
    rw [tblErase]
    split
    next h => simp [h]
    next => rw [List.filter_cons, List.filter_cons, ih]

theorem filter_tblPut {V : Type} (t : Tbl V) (k : Nat) (v : V) (q : V → Bool) :
    (tblPut t k v).filter (fun e => e.1 != k && q e.2) = t.filter fun e => e.1 != k && q e.2 := by
  induction t with
  | nil => simp [tblPut]
  | cons e t ih =>
    rw [tblPut]
    split_ifs with _ h
    · simp
    · simp [h]
    · rw [List.filter_cons, List.filter_cons, ih]

/-- A write leaves the other entries as they were. -/
theorem filter_tblSet {V : Type} [DecidableEq V] (d : V) (t : Tbl V) (k : Nat) (v : V) (q : V → Bool) :
    (tblSet d t k v).filter (fun e => e.1 != k && q e.2) = t.filter fun e => e.1 != k && q e.2 := by
  unfold tblSet
  split
  · exact filter_tblErase t k q
  · exact filter_tblPut t k v q

/-- What a job's output may meet is no matter of what it commits to. -/
theorem overlapFix_digest (hs : s.wf = true) (o : Op) (d : Bytes) :
    overlapFix (s.modJob id fun j => { j with digest := d }) o id = overlapFix s o id := by
  have hjob := State.modJob_same hs id fun j => { j with digest := d }
  have hforeign : foreignPlaces (s.modJob id fun j => { j with digest := d }) id o = foreignPlaces s id o := by
    have hf := filter_tblSet ({} : Job) s.jobs id { s.job id with digest := d } fun j => j.stage != Stage.ready
    unfold foreignPlaces
    rw [hjob]
    exact congrArg (fun l : Tbl Job => (if inPlace o (s.job id) then [] else
      placesOf s (s.job id).client false (s.job id).srcSegs) ++
        l.flatMap fun e => placesOf s e.2.client true e.2.dstSegs) hf
  unfold overlapFix
  rw [hforeign, hjob]
  rfl

/-- Before the first write, the job commits to its output at most. -/
theorem handOver_eq {o : Op} (ho : dOp (s.job id).desc = some o) (hfix : overlapFix s o id = (s.job id).output)
    (hw : (s.job id).written = 0) :
    handOver s id = s ∨ (s.job id).output.isEmpty = (s.job id).digest.isEmpty ∧
      handOver s id = s.modJob id fun j => { j with digest := (s.job id).output } := by
  have hleft : leftToWrite s id = (s.job id).output := by
    unfold leftToWrite
    dsimp only
    rw [ho, hw]
    exact hfix
  unfold handOver
  dsimp only
  split
  next => exact .inl rfl
  next hsome =>
    rw [Bool.or_eq_true, not_or, Bool.not_eq_true, Bool.not_eq_true] at hsome
    refine .inr ⟨hsome.2.trans hsome.1.symm, ?_⟩
    rw [hleft, hw, List.take_zero, List.nil_append]
    rfl

theorem Emitted.keepsTo {F : Foot} {l : List Out} (h : Emitted s t l) (hhi : F.hi = true) (hout : F.out = true) :
    Keeps F s t := by
  obtain ⟨b, i, d, e, a, k, rfl, -, -⟩ := h
  exact Keeps.upd (Keeps.refl _ _) (by constructor <;> first | exact Or.inl rfl | exact Or.inr ‹_›)

/-- The job whose output has been written. -/
def Job.wrote (j : Job) (d : Bytes) (n at' : Nat) (un : Bool) (st : Nat) : Job :=
  { j with digest := d, written := n, tDone := at', unsync := un, combState := st }

/-- Of what a job commits to, its record shows whether there is something. -/
theorem recordOf_digest {k : Job} {d : Bytes} (hd : d.isEmpty = k.digest.isEmpty) :
    recordOf { k with digest := d } = recordOf k := by
  have hc : ({ k with digest := d } : Job).commits = k.commits := by
    simp only [Job.commits, hd]
    rfl
  have hf : ({ k with digest := d } : Job).rflags = k.rflags := by
    unfold Job.rflags
    rw [hc]
    rfl
  unfold recordOf
  rw [hf]
  rfl

theorem isEmpty_if {c : Prop} [Decidable c] {d e : Bytes} (h : d.isEmpty = e.isEmpty) :
    (if c then d else []).isEmpty = (if c then e else []).isEmpty := by
  split
  · exact h
  · rfl

theorem recordOf_wrote {j : Job} {d : Bytes} (hd : d.isEmpty = j.digest.isEmpty) (n at' : Nat) (un : Bool) (st : Nat) :
    recordOf (closedJob (j.wrote d n at' un st)) =
      recordOf (closedJob { j with written := n, tDone := at', unsync := un, combState := st }) := by
  refine recordOf_digest (k := closedJob { j with written := n, tDone := at', unsync := un, combState := st }) ?_
  exact isEmpty_if hd

/-- What destination writes move. -/
def writeFoot : Foot := { hi := true, out := true, jobs := true }

/-- The output of a job whose destination is one segment within a page leaves whole. -/
theorem writeDst_page {o : Op} {g : Seg} {comb tgt a x : Nat} {pasid : Option Nat} (hs : s.Inv)
    (hpeer : (s.job id).fromPeer = false) (hcomb : (s.job id).comb = some comb) (ho : dOp (s.job id).desc = some o)
    (hgood : (s.job id).good = true) (hdst : (s.job id).dstSegs = [g]) (hw0 : (s.job id).written = 0)
    (hout : (s.job id).output ≠ []) (hlen : (s.job id).output.length ≤ g.len)
    (hfix : overlapFix s o id = (s.job id).output) (hpage : InPage g.addr.toNat (s.job id).output.length)
    (hbm : s.busMaster (s.job id).client = true)
    (hw : windowed s (s.job id).client g.addr.toNat (s.job id).output.length true = some (tgt, a, pasid))
    (hx : xlated s (s.job id).client tgt a pasid true = .to x) :
    (writeDst s id).2 = true ∧ Keeps writeFoot s (writeDst s id).1 ∧ SameWays s (writeDst s id).1 ∧
      (∃ d : Bytes, d.isEmpty = (s.job id).digest.isEmpty ∧ SetsJob id ((s.job id).wrote d (s.job id).output.length s.sync.h (s.sync.state != 2) (s.combByte comb)) s
        (writeDst s id).1) ∧
      Sends s (writeDst s id).1 (PageWrites s (s.job id).client tgt g.addr.toNat x pasid
        (noSnoopOf s (s.job id).client tgt g.noSnoop) (relaxedOf s (s.job id).client) (s.job id).output) := by
  obtain ⟨d, hd, hu, hku, hleft⟩ : ∃ d : Bytes, d.isEmpty = (s.job id).digest.isEmpty ∧
      SetsJob id { s.job id with digest := d } s (handOver s id) ∧
      (∀ F : Foot, F.jobs = true → Keeps F s (handOver s id)) ∧ leftToWrite (handOver s id) id = (s.job id).output := by
    have hleft : ∀ u : State, u.job id = { s.job id with digest := (u.job id).digest } → overlapFix u o id = overlapFix s o id →
        leftToWrite u id = (s.job id).output := by
      intro u hj hu
      unfold leftToWrite
      rw [hj]
      dsimp only
      rw [ho, hw0]
      exact hu.trans hfix
    rcases handOver_eq ho hfix hw0 with heq | ⟨hsame, heq⟩
    · rw [heq]
      exact ⟨_, rfl, SetsJob.refl hs, fun F _ => Keeps.refl F s, hleft s rfl rfl⟩
    · rw [heq]
      have hset := (SetsJob.refl (id := id) hs).modJob fun j => { j with digest := (s.job id).output }
      exact ⟨_, hsame, hset, fun F hF => modJob_keeps _ _ _ hF (Keeps.refl F s), hleft _ (by rw [hset.job]) (overlapFix_digest hs.wf o _)⟩
  have hways : SameWays s (handOver s id) := .ofKeeps (hku { jobs := true } rfl) rfl rfl rfl rfl rfl
  obtain ⟨t, ht, hemit⟩ := writeOut_page (s := handOver s id) (c := (s.job id).client) (g := g) (tgt := tgt) (x := x)
    (pasid := pasid) ((hways.busMaster _).trans hbm) hout hlen hpage (by rw [hways.windowed]; exact hw)
    ((hways.xlated _ _ _ _ _).trans hx)
  have hkt : Keeps writeFoot s t := (hku _ rfl).trans (hemit.keepsTo rfl rfl)
  have hbyte : t.combByte comb = s.combByte comb := by
    unfold State.combByte
    rw [(hkt.comb_eq rfl), (hkt.aon_eq rfl)]
  have hset := ((hu.keeps hemit.keeps rfl).modJob fun j => { j with written := j.written + (s.job id).output.length })
  have hdone : writeDst s id = ((t.modJob id fun j => { j with written := j.written + (s.job id).output.length }).modJob id
      fun j => { j with tDone := s.sync.h, unsync := s.sync.state != 2, combState := s.combByte comb }, true) := by
    have hpeer' : ((handOver s id).job id).fromPeer = false := by rw [hu.job]; exact hpeer
    have hclient : ((handOver s id).job id).client = (s.job id).client := by rw [hu.job]
    have hwritten : ((handOver s id).job id).written = 0 := by rw [hu.job]; exact hw0
    have hsegs : ((handOver s id).job id).dstSegs = [g] := by rw [hu.job]; exact hdst
    have houtput : ((handOver s id).job id).output = (s.job id).output := by rw [hu.job]
    unfold writeDst
    dsimp only
    rw [if_neg (by rw [hpeer']; decide), hwritten, if_neg (by rw [houtput]; simpa using hout), hclient, hsegs, hleft, ht]
    dsimp only
    have hgood' : ((handOver s id).job id).good = true := by rw [hu.job]; exact hgood
    have hcomb' : ((handOver s id).job id).comb = some comb := by rw [hu.job]; exact hcomb
    rw [if_pos hgood', hcomb']
    change ((t.modJob id fun j => { j with written := j.written + (s.job id).output.length }).modJob id
      fun j => { j with tDone := t.sync.h, unsync := t.sync.state != 2, combState := t.combByte comb }, true) = _
    rw [(hkt.sync_eq rfl), hbyte]
  rw [hdone]
  have hend := hset.modJob fun j =>
    { j with tDone := s.sync.h, unsync := s.sync.state != 2, combState := s.combByte comb }
  refine ⟨rfl, modJob_keeps _ _ _ rfl (modJob_keeps _ _ _ rfl hkt), ?_, ⟨d, hd, ?_⟩, ?_⟩
  · exact ((hways.emitted hemit).keeps (modJob_keeps (F := { jobs := true }) t id _ rfl (Keeps.refl _ t)) rfl rfl rfl rfl rfl).keeps
      (modJob_keeps (F := { jobs := true }) _ id _ rfl (Keeps.refl _ _)) rfl rfl rfl rfl rfl
  · dsimp only at hend
    rw [hw0, Nat.zero_add] at hend
    exact hend
  · have hsends := hemit.sends
    rw [hways.pageWrites, hways.noSnoop, hways.relaxed] at hsends
    exact sends_between hsends (hku { jobs := true } rfl) rfl rfl rfl

end

/-! ## Leaves (R262) -/

section

variable {s t : State} {id : Nat}

/-- Job `id` has the leaf. -/
structure LeafIs (id e n : Nat) (t : State) : Prop where
  inv : t.Inv
  isLeaf : (t.job id).isLeaf = true
  epoch : (t.job id).epoch = e
  leafIdx : (t.job id).leafIdx = n

variable {e n : Nat}

theorem LeafIs.keeps {F : Foot} {u : State} (h : LeafIs id e n t) (hk : Keeps F t u) (hF : F.jobs = false) :
    LeafIs id e n u := by
  have hj := hk.job_eq hF id
  exact ⟨hk.inv h.inv, hj ▸ h.isLeaf, hj ▸ h.epoch, hj ▸ h.leafIdx⟩

/-- A change of a job that gives no leaf. -/
theorem LeafIs.modJob (h : LeafIs id e n t) (k : Nat) {f : Job → Job} (hl : (f (t.job k)).isLeaf = (t.job k).isLeaf)
    (he : (f (t.job k)).epoch = (t.job k).epoch) (hn : (f (t.job k)).leafIdx = (t.job k).leafIdx) :
    LeafIs id e n (t.modJob k f) := by
  have hinv := (modJob_keeps (F := { jobs := true }) t k f rfl (Keeps.refl _ t)).inv h.inv
  by_cases hk : id = k
  · subst hk
    have hj := State.modJob_same h.inv.wf id f
    exact ⟨hinv, by rw [hj, hl, h.isLeaf], by rw [hj, he, h.epoch], by rw [hj, hn, h.leafIdx]⟩
  · have hj := State.modJob_other t k f id hk
    exact ⟨hinv, hj ▸ h.isLeaf, hj ▸ h.epoch, hj ▸ h.leafIdx⟩

/-- The job that has ended with the record `b`. -/
def Job.sent (j : Job) (b : Bytes) : Job := { j with stage := .ended, record := b }

theorem LeafIs.sendResult (h : LeafIs id e n t) (k : Nat) : LeafIs id e n (sendResult t k) := by
  unfold Machine.sendResult
  dsimp only
  split
  · refine LeafIs.modJob (f := fun j => j.sent (recordOf (t.job k))) (h.keeps (F := { peer := true }) ?_ rfl) k rfl rfl rfl
    exact Keeps.set_peer rfl (dropPacket_keeps t k rfl (Keeps.refl _ t)) fun hwf => hwf
  · have hw := h.keeps (recordWrite_keeps (F := { hi := true, dma := true, tenants := true, out := true }) t
      (t.job k).client (resultAddr t (t.job k)) (recordOf (t.job k)) rfl rfl rfl rfl (Keeps.refl _ t)) rfl
    split
    · exact hw
    · exact hw.modJob k (f := fun j => j.sent (recordOf (t.job k))) rfl rfl rfl

theorem LeafIs.raise (h : LeafIs id e n t) (src : Nat) (info : W32) : LeafIs id e n (raise t src info) :=
  h.keeps (raise_signals t src info) rfl

theorem LeafIs.refreshPending (h : LeafIs id e n t) : LeafIs id e n (refreshPending t) := by
  have hround : ∀ (l : List Nat) (may : State → Nat → Bool), LeafIs id e n (t.each l fun t k =>
      if may t k then t.modJob k fun j => { j with pendingLeaf := true } else t) := fun l may => by
    refine State.each_induction (fun x k _ hx => ?_) h
    split
    · exact hx.modJob k (f := fun j => { j with pendingLeaf := true }) rfl rfl rfl
    · exact hx
  have hfull : ∀ (b : Bool) {u : State}, LeafIs id e n u → LeafIs id e n (if b then raiseHive u 7 0 else u) :=
    fun b u hu => by
      split
      · exact hu.raise _ _
      · exact hu
  unfold Machine.refreshPending
  dsimp only
  exact hfull _ ((hround _ _).keeps (Keeps.set_wg (F := { wg := true }) rfl (Keeps.refl _ _)) rfl)

/-- The job that takes a leaf. -/
def Job.leafed (j : Job) (e n : Nat) : Job := { j with isLeaf := true, pendingLeaf := false, epoch := e, leafIdx := n }

/-- What is done behind the assignment of job `k`'s leaf. -/
def leafRest (c k : Nat) (s : State) : State :=
  let j := s.job k
  let s := s.modTenant c fun t => { t with leaves := t.leaves ++ [leafOf j] }
  let s := { s with wg.leaves := s.wg.leaves + 1 }
  let s := match j.comb with
    | some d => if j.commits then combCount1 s d 0xFFFFFFFF (·.digCommits) fun b v => { b with digCommits := v } else s
    | none => s
  sendResult s k

theorem assignLeaf_eq (s : State) (k : Nat) : assignLeaf s k = leafRest (s.job k).client k
    (s.modJob k fun j => j.leafed s.wg.epoch (s.tenant (s.job k).client).leaves.length) := rfl

theorem LeafIs.leafRest (h : LeafIs id e n t) (c k : Nat) : LeafIs id e n (leafRest c k t) := by
  have hten : ∀ f, LeafIs id e n { t.modTenant c f with wg := { (t.modTenant c f).wg with
      leaves := (t.modTenant c f).wg.leaves + 1 } } := fun f =>
    h.keeps (Keeps.set_wg (F := { tenants := true, wg := true }) rfl (modTenant_keeps _ _ _ rfl (Keeps.refl _ t))) rfl
  unfold Machine.leafRest
  refine LeafIs.sendResult ?_ k
  dsimp only
  split
  · split
    · exact (hten _).keeps (combCount1_keeps (F := { ev := true, fns := true, tenants := true, combs := true }) _ _ _ _ _
        rfl rfl rfl rfl (Keeps.refl _ _)) rfl
    · exact hten _
  · exact hten _

/-- A job's own leaf. -/
theorem assignLeaf_same (hs : s.Inv) (id : Nat) :
    LeafIs id s.wg.epoch (s.tenant (s.job id).client).leaves.length (assignLeaf s id) := by
  have hj := State.modJob_same hs.wf id fun j => j.leafed s.wg.epoch (s.tenant (s.job id).client).leaves.length
  rw [assignLeaf_eq]
  refine LeafIs.leafRest ⟨(modJob_keeps (F := { jobs := true }) s id _ rfl (Keeps.refl _ s)).inv hs, ?_, ?_, ?_⟩ _ id <;> rw [hj] <;> rfl

/-- Another job's leaf. -/
theorem LeafIs.assignOther (h : LeafIs id e n t) {k : Nat} (hk : id ≠ k) : LeafIs id e n (assignLeaf t k) := by
  have hj := State.modJob_other t k (fun j => j.leafed t.wg.epoch (t.tenant (t.job k).client).leaves.length) id hk
  rw [assignLeaf_eq]
  exact LeafIs.leafRest ⟨(modJob_keeps (F := { jobs := true }) t k _ rfl (Keeps.refl _ t)).inv h.inv,
    hj ▸ h.isLeaf, hj ▸ h.epoch, hj ▸ h.leafIdx⟩ _ k

theorem isLeaf_of_mayAssign {k : Nat} (h : mayAssign s k = true) : (s.job k).isLeaf = false ∧ s.wg.signer = true := by
  simp only [mayAssign, Bool.and_eq_true, Bool.not_eq_true'] at h
  exact ⟨h.1.1.1.1.2, h.1.2⟩

/-- Jobs that are assigned a leaf behind it leave a job's own leaf. -/
theorem LeafIs.others (h : LeafIs id e n t) (l : List Nat) :
    LeafIs id e n (t.each l fun s k => if mayAssign s k then assignLeaf s k else s) := by
  refine State.each_induction (fun x k _ hx => ?_) h
  split
  next hmay =>
    refine hx.assignOther fun hk => ?_
    have hleaf := (isLeaf_of_mayAssign hmay).1
    rw [← hk, hx.isLeaf] at hleaf
    cases hleaf
  next => exact hx

theorem opLeafAssign_of (hs : Running s) (hclose : closeDue s = false) (hmay : mayAssign s id = true)
    (hturn : leafTurn s id = true) : opLeafAssign id s = refreshPending (s.each ((queueMates s id).dropWhile (· != id))
      fun s k => if mayAssign s k then assignLeaf s k else s) := by
  obtain ⟨hleaf, hsigner⟩ := isLeaf_of_mayAssign hmay
  have hepoch : opEpochClose [] 0 s = s := by
    unfold opEpochClose
    rw [hclose]
    rfl
  unfold opLeafAssign
  dsimp only
  rw [hs.fclk, hleaf, hsigner, hepoch, hmay, hturn, if_neg (by decide), if_neg (by simp), if_neg (by decide)]

theorem dropWhile_cons_of_mem {l : List Nat} (h : id ∈ l) : ∃ rest, l.dropWhile (· != id) = id :: rest := by
  induction l with
  | nil => cases h
  | cons k l ih =>
    rw [List.dropWhile_cons]
    by_cases hk : k = id
    · subst hk
      exact ⟨l, by simp⟩
    · rw [if_pos (by simpa using hk)]
      exact ih ((List.mem_cons.1 h).resolve_left (Ne.symm hk))

end

/-- Settles O17: a formed record leaves; the end of stage 7 forms it, behind the output; a leaf is assigned. -/
theorem jobEnds : Obligations.JobEnds := by
  unfold Obligations.JobEnds
  refine ⟨fun id n tgt a x ecc pasid s hs hjob hst hrec hpeer hbm hw hx => ?_,
    fun id n tgt a x pasid s hs hjob hst hrec hpeer hno hout hleaf hbm hw hx => ?_,
    fun id n comb tgt a x tgt2 a2 x2 o g pasid pasid2 s hs hjob hst hrec hpeer hno hcomb hleaf ho hgood hdst hw0 hout hlen
      hfix hpage hbm hw hx hw2 hx2 => ?_, fun id s hs hclose hmay hturn hmem => ?_⟩
  · refine .ofOp rfl (opJobEnd_of_record n ecc hs.fclk hjob hst hrec) ?_
    obtain ⟨hset, hsends⟩ := sendResult_issued (SetsJob.refl (id := id) hs.inv) hpeer hbm hw hx
    exact ⟨by rw [hset.job], hsends, hset.others⟩
  · have hhand : handOver s id = s := by
      unfold handOver
      exact if_pos (by simp [hout])
    have hdst : writeDst s id = (s, true) := by
      unfold writeDst
      dsimp only
      rw [hhand, if_neg (by rw [hpeer]; decide)]
      exact if_pos (by rw [hout]; exact Nat.zero_le _)
    have heq : opJobEnd id n .clean s = endSeven (closeJob (leaveCell s id) id n) id := by
      rw [opJobEnd_eq n .clean hs.fclk hjob hst hrec]
      unfold sevenEnded eccMet
      rw [if_pos hno, hdst]
      rfl
    obtain ⟨k, hset, hend, hrefs, hmat, hsends⟩ := endSeven_issued hs.inv id n hpeer hleaf hbm hw hx
    refine .ofOp rfl heq ?_
    exact ⟨by rw [hset.job, hend], by rw [hset.job, hrefs], by rw [hset.job, hmat], hsends, hset.others⟩
  · obtain ⟨hdone, hk, hways, ⟨d, hd, hset⟩, hsends⟩ := writeDst_page hs.inv hpeer hcomb ho hgood hdst hw0 hout hlen hfix hpage
      hbm hw hx
    have hecc : eccMet s id .clean = s := by
      unfold eccMet jobEccAt
      dsimp only
      rw [hno, if_neg (by decide), if_pos hw0]
    have heq : opJobEnd id n .clean s = endSeven (closeJob (leaveCell (writeDst s id).1 id) id n) id := by
      rw [opJobEnd_eq n .clean hs.fclk hjob hst hrec, hecc, hdone]
      unfold sevenEnded
      rw [hecc]
      rfl
    refine .ofOp rfl heq ?_
    have hclient : ((writeDst s id).1.job id).client = (s.job id).client := by rw [hset.job]; rfl
    have haddr : resultAddr (writeDst s id).1 ((writeDst s id).1.job id) = resultAddr s (s.job id) := by
      rw [resultAddr_congr (hk.queues_eq rfl), hset.job]
      rfl
    have hreceipts : receiptsOn (writeDst s id).1 (s.job id).client = receiptsOn s (s.job id).client := by
      unfold receiptsOn
      rw [hk.tenant_eq rfl, hk.wg_eq rfl]
    have hend := endSeven_issued (tgt := tgt2) (a := a2) (x := x2) (pasid := pasid2) hset.inv id n
      (by rw [hset.job]; exact hpeer)
    rw [hclient, haddr, hways.busMaster, hways.windowed, hways.xlated, hways.atMark] at hend
    obtain ⟨k, hfin, hended, hrefs, hmat, hlast⟩ := hend (by rw [hset.job, hreceipts]; exact hleaf) hbm hw2 hx2
    refine ⟨by rw [hfin.job, hended], by rw [hfin.job, hrefs], by rw [hfin.job, hmat], ?_, hset.others.trans hfin.others⟩
    rw [hset.job, recordOf_wrote hd] at hlast
    exact Sends.trans hsends hlast ((hk.coreOff_eq rfl))
  · obtain ⟨rest, hrest⟩ := dropWhile_cons_of_mem hmem
    refine .ofOp rfl (opLeafAssign_of hs hclose hmay hturn) ?_
    rw [hrest]
    have hall : LeafIs id s.wg.epoch (s.tenant (s.job id).client).leaves.length
        (s.each (id :: rest) fun s k => if mayAssign s k then assignLeaf s k else s) := by
      rw [State.each, List.foldl_cons, if_pos hmay]
      exact (assignLeaf_same hs.inv id).others rest
    have hend := hall.refreshPending
    exact ⟨hend.isLeaf, hend.epoch, hend.leafIdx⟩

end Sys2Proof.Machine
end

section
/-! SUPPORT. The operations of KS_PROV (R246): the theorem that refutes O36. -/

namespace Sys2Proof.Machine

/-- A GENERATE of a curve's key that a comb serves. -/
theorem provGenerate_curve {s u : State} {p : ProvCfg} {c : Nat} (hcurve : ktCurve p.ktype = true)
    (hallowed : allowed s 0 p.addr.toNat (provPublicLen p.ktype) true = true) (hissue : provIssue s p = none)
    (hcomb : bestComb s 0 ((List.range combCount).filter fun c => (s.comb c).mode == 1) = some c)
    (hready : drbgReady s c false = some u) {n : Nat} (hn : (if p.ktype % 256 < 0x10 then (keyLen p.ktype).getD 0 + 8
      else (keyLen p.ktype).getD 0) = n) :
    provGenerate s p = provWrite { provCreate (chargeManager (drbgGenerate u c n).2 .number
        (pointCycles (p.ktype % 256) 1)) p (curveKey p.ktype (drbgGenerate u c n).1).1 with
      ks := { (provCreate (chargeManager (drbgGenerate u c n).2 .number (pointCycles (p.ktype % 256) 1)) p
          (curveKey p.ktype (drbgGenerate u c n).1).1).ks with
        provOut := (curveKey p.ktype (drbgGenerate u c n).1).2 } } p := by
  subst hn
  unfold provGenerate
  simp only [hcurve, hallowed, hissue, hcomb, hready, Bool.true_and, Bool.not_true, if_true, decide_eq_true_eq]
  exact if_neg Bool.false_ne_true

/-! ## A GENERATE that counts bytes of a public key as written -/

/-- A GENERATE of an X25519 key whose public key goes to 0x2000. -/
def generateX25519 : ProvCfg := { op := 0, slot := 2, ktype := 0x321, policy := 0x40, addr := 0x2000 }

/-- A Hive at work. -/
def atWork : Hv :=
  { step := 10, ready := true, fclk := true, cclk := true, kclk := true, xclk := true, keeperUp := true, rootLock := true }

/-- A Hive at work, whose KS_PROV runs that GENERATE and counts 64 bytes as written before any byte is there. -/
def writtenAhead : State :=
  { hv := atWork
    fns := [(0, { bme := true })]
    tenants := [(0, { state := 1, granules := [0], win := { a := [(0, { limit := 0xFFFFFFFFFF, ctrl := 7 })] } })]
    slots := [(0, { state := .valid, run := 1 }), (1, { state := .valid, run := 1 })]
    combs := [(0, { drbg := { live := true } })]
    ks := { provRun := some generateX25519, provAt := 64 } }

/-- The key that the GENERATE makes. -/
def keyMade : Bytes × Bytes := curveKey 0x321 (drbgGenerate writtenAhead 0 32).1

theorem curveKey_x25519_length (r : Bytes) : (curveKey 0x321 r).2.length = 32 := by
  unfold curveKey
  dsimp only
  rw [if_neg (by decide), if_neg (by decide)]
  exact natLe_length _ _

theorem keyMade_length : keyMade.2.length = 32 := curveKey_x25519_length _

/-- Whatever the grade, comb 0 serves it. -/
theorem writtenAhead_comb :
    bestComb writtenAhead 0 ((List.range combCount).filter fun c => (writtenAhead.comb c).mode == 1) = some 0 := by
  unfold combCount
  generalize Config.grade = g
  revert g
  decide

theorem writtenAhead_served : GenerateServed generateX25519 0 writtenAhead writtenAhead := by
  refine ⟨?_, rfl, rfl, rfl, rfl, rfl, ?_, ?_, writtenAhead_comb, ?_⟩
  · unfold Running State.Inv
    decide
  · decide
  · decide
  · decide +kernel

/-- The state in which what is left of the public key is written. -/
def keyCreated : State :=
  provCreate (chargeManager (drbgGenerate writtenAhead 0 32).2 .number (pointCycles 0x21 1)) generateX25519 keyMade.1

theorem keyCreated_keeps : Keeps { combs := true, sch := true, store := true, slots := true, freeN := true }
    writtenAhead keyCreated :=
  provCreate_keeps _ _ _ rfl rfl rfl (chargeManager_keeps _ _ _ rfl (drbgGenerate_keeps _ _ _ rfl (Keeps.refl _ _)))

theorem opProvDone_writtenAhead :
    opProvDone .ok [] writtenAhead = provEnd { keyCreated with ks := { keyCreated.ks with provOut := keyMade.2 } } stOk 0 := by
  obtain ⟨-, hrun, -, hout, hopen, -, hissue, -, hcomb, hready⟩ := writtenAhead_served
  have hgen : opProvDone .ok [] writtenAhead = provGenerate writtenAhead generateX25519 := rfl
  have hallowed : allowed writtenAhead 0 0x2000 32 true = true := by decide
  have hat : keyCreated.ks.provAt = 64 := by rw [(keyCreated_keeps.ks_eq rfl)]; rfl
  have hwrite : provWrite { keyCreated with ks := { keyCreated.ks with provOut := keyMade.2 } } generateX25519 =
      provEnd { keyCreated with ks := { keyCreated.ks with provOut := keyMade.2 } } stOk 0 := by
    have hnone : keyMade.2.drop 64 = [] := List.drop_eq_nil_of_le (by rw [keyMade_length]; decide)
    unfold provWrite
    dsimp only
    rw [hat, hnone]
    rfl
  rw [hgen, ← hwrite]
  exact provGenerate_curve (p := generateX25519) (n := 32) rfl hallowed hissue hcomb hready rfl

/-- Of the public key nothing leaves. -/
theorem writtenAhead_out : (opProvDone .ok [] writtenAhead).out = [] := by
  have hk : ∀ u : State, (provEnd u stOk 0).out = u.out := fun u =>
    ((provEnd_keeps (F := { ev := true, ks := true, fns := true, tenants := true }) u stOk 0 rfl rfl rfl rfl
      (Keeps.refl _ u)).out_eq rfl)
  rw [opProvDone_writtenAhead, hk]
  exact (keyCreated_keeps.out_eq rfl)

theorem writtenAhead_window : windowed writtenAhead 0 0x2000 32 true = some (0, 0x2000, none) := by decide

/-- Refutes O36: GENERATE begins to write its public part at KS_PROV's count of bytes that have left, which the statement
leaves open for a GENERATE whose key is not there yet. In a state that counts 64 bytes already, the operation ends with
OK, and none of the 32 bytes of an X25519 key leaves. -/
theorem not_keyProvisioning : ¬ Obligations.KeyProvisioning := by
  unfold Obligations.KeyProvisioning
  rintro ⟨-, -, -, -, -, -, -, -, -, -, -, -, hcurve, -⟩
  obtain ⟨t, he, -, -, -, -, hsends, -⟩ := hcurve generateX25519 0 12480 0 0x2000 0x2000 none keyMade [] writtenAhead
    writtenAhead .ok [] writtenAhead_served rfl (by decide) (by decide) (by decide +kernel) (by decide +kernel) rfl
    (fun h => by simpa [h] using keyMade_length) (by rw [keyMade_length]; unfold InPage; decide)
    (by rw [keyMade_length]; exact writtenAhead_window) (by decide)
  have ht : t = opProvDone .ok [] writtenAhead := by
    have hnext : Host.Outcome.next (onClock writtenAhead.hv.kclk writtenAhead (opProvDone .ok [])) = .next t := he
    rw [onClock_true (show writtenAhead.hv.kclk = true from rfl)] at hnext
    exact (Host.Outcome.next.inj hnext).symm
  obtain ⟨k, hout, hsent, -⟩ := hsends
  have hk : k = [] := by
    rw [ht, writtenAhead_out] at hout
    exact hout.symm
  have hnone : (pageCuts writtenAhead 0 0x2000 keyMade.2.length) = [] := by
    have hnil : PageWrites writtenAhead 0 0 0x2000 0x2000 none false _ keyMade.2 = [] :=
      (hsent.symm.trans (by rw [hk]; rfl))
    rw [pageWrites_eq] at hnil
    exact List.map_eq_nil_iff.1 hnil
  have htotal := pageCuts_total writtenAhead 0 0x2000 keyMade.2.length
  rw [hnone, keyMade_length] at htotal
  cases htotal

end Sys2Proof.Machine
end

section
/-! SUPPORT. The banks of DMA windows and of the window translation table (R296, R328). -/

namespace Sys2Proof
open Machine

theorem OtherTenants.trans {c : Nat} {s u t : State} (h : OtherTenants c s u) (g : OtherTenants c u t) :
    OtherTenants c s t := fun d hd => (g d hd).trans (h d hd)

/-- A command from the host or the manager, which wakes the Hive. -/
theorem Completes.ofWoken {c i : Instr} {s : State} {n : Nat} {k : State → State} {P : State → Prop}
    (he : exec c s = .next (whenClocked i s fun s => k (wake s n))) (hs : Running s) (h : P (k (wake s n))) :
    Completes c s P := .ofClocked he hs h

end Sys2Proof

namespace Sys2Proof.Machine

/-- A change of the windows of one client. -/
theorem modWin_sets {s u : State} (hs : s.Inv) (h : Entered s u) (c : Nat) (f : Windows → Windows) :
    ((modWin u c f).tenant c).win = f (s.tenant c).win ∧ OtherTenants c s (modWin u c f) := by
  refine ⟨?_, fun d hd => (State.modTenant_other _ c _ d hd).trans (h.tenant d)⟩
  have hsame := State.modTenant_same (h.inv hs).wf c fun t => { t with win := f t.win }
  exact (congrArg Tenant.win hsame).trans (by rw [h.tenant])

theorem opTnDmawEntryWrite_of {s : State} {reg : DmawReg} {v : W64} (hready : s.hv.ready = true)
    (hc : isClient (dmawClient s) = true) (he : s.exists_ (dmawClient s) = true) :
    opTnDmawEntryWrite reg v s = modWin s (dmawClient s) fun w =>
      if (s.tenant (dmawClient s)).win.flip != .none || dmawBank s == (s.tenant (dmawClient s)).win.active then
        { w with refused := true }
      else if dmawBank s then
        { w with b := tblSet {} w.b (dmawIndex s) ((tblGet {} w.b (dmawIndex s)).put reg v) }
      else { w with a := tblSet {} w.a (dmawIndex s) ((tblGet {} w.a (dmawIndex s)).put reg v) } := by
  simp only [opTnDmawEntryWrite, hready, hc, he, Bool.not_true, Bool.or_self, Bool.false_eq_true, if_false]
  by_cases hrefuse : ((s.tenant (dmawClient s)).win.flip != .none ||
      dmawBank s == (s.tenant (dmawClient s)).win.active) = true <;> simp only [hrefuse, Bool.false_eq_true, if_true, if_false]

/-- `SEL` of the windows, and what it selects, do not move when the Hive wakes. -/
theorem Entered.dmaw {s u : State} (h : Entered s u) :
    dmawClient u = dmawClient s ∧ dmawBank u = dmawBank s ∧ dmawIndex u = dmawIndex s := by
  obtain ⟨p, w, k, c, b, i, d, e, a, l, rfl⟩ := h.eq
  exact ⟨rfl, rfl, rfl⟩

theorem Entered.ready {s u : State} (h : Entered s u) : u.hv.ready = s.hv.ready := by
  obtain ⟨p, w, k, c, b, i, d, e, a, l, rfl⟩ := h.eq
  rfl

theorem wake_hi (s : State) (n : Nat) : (wake s n).hi = s.hi := by
  obtain ⟨p, w, k, c, h⟩ := wake_eq s n
  rw [h]

/-- A write of a window register: into the bank that `SEL` selects, or refused. -/
theorem tnDmawEntryWrite_sets {s : State} (hs : s.Inv) (reg : DmawReg) (v : W64) (hready : s.hv.ready = true)
    (hc : isClient (dmawClient s) = true) (he : s.exists_ (dmawClient s) = true) :
    ((opTnDmawEntryWrite reg v (wake s 1)).tenant (dmawClient s)).win =
      (if (s.tenant (dmawClient s)).win.flip != .none || dmawBank s == (s.tenant (dmawClient s)).win.active then
        { (s.tenant (dmawClient s)).win with refused := true }
      else if dmawBank s then
        { (s.tenant (dmawClient s)).win with
            b := tblSet {} (s.tenant (dmawClient s)).win.b (dmawIndex s)
              ((tblGet {} (s.tenant (dmawClient s)).win.b (dmawIndex s)).put reg v) }
      else
        { (s.tenant (dmawClient s)).win with
            a := tblSet {} (s.tenant (dmawClient s)).win.a (dmawIndex s)
              ((tblGet {} (s.tenant (dmawClient s)).win.a (dmawIndex s)).put reg v) }) ∧
      OtherTenants (dmawClient s) s (opTnDmawEntryWrite reg v (wake s 1)) := by
  have hw := wake_entered s 1
  obtain ⟨hclient, hbank, hindex⟩ := hw.dmaw
  rw [opTnDmawEntryWrite_of (hw.ready.trans hready) (by rw [hclient, hc])
    (by rw [hclient, hw.exists_, he]), hclient, hbank, hindex, hw.tenant]
  exact modWin_sets hs hw (dmawClient s) _

theorem opTnDmawFlip_of {s : State} {c : Nat} (hready : s.hv.ready = true) (hc : isClient c = true)
    (he : s.exists_ c = true) :
    opTnDmawFlip c s = modWin s c fun w => if w.flip != .none then { w with refused := true }
      else { w with flip := .asked } := by
  simp only [opTnDmawFlip, hready, hc, he, Bool.not_true, Bool.or_self, Bool.false_eq_true, if_false]

theorem opDmawFlipEffect_of {s : State} {c : Nat} (h : (s.tenant c).win.flip = .asked) :
    opDmawFlipEffect c s = modWin s c fun w =>
      { w with active := !w.active, flip := if bankBusy s c w.active then .draining else .none } := by
  simp only [opDmawFlipEffect, h, bne_self_eq_false, Bool.false_eq_true, if_false]

theorem opDmawFlipDrained_of {s : State} {c : Nat} (h : (s.tenant c).win.flip = .draining)
    (hidle : bankBusy s c (!(s.tenant c).win.active) = false) :
    opDmawFlipDrained c s = modWin s c fun w => { w with flip := .none } := by
  simp only [opDmawFlipDrained, h, hidle, BEq.rfl, Bool.not_false, Bool.and_self, if_true]

/-- Settles O41: a write, a flip and its end each change one record of windows, or `hi`. -/
theorem windowBanks : Obligations.WindowBanks := by
  unfold Obligations.WindowBanks
  refine ⟨fun reg v s hs hready hc he hflip hbank => ?_, fun reg v s hs hready hc he hrefuse => ?_,
    fun c s hs hready hc he => ?_, fun c s hs hflip => ?_, fun c s hs hflip hidle => ?_, fun s hs hready => ?_,
    fun s hs hflip hheld => ?_, fun s hs hflip hheld => ?_, fun s hs hflip hheld => ?_⟩
  · refine .ofWoken rfl hs ?_
    have hw := tnDmawEntryWrite_sets hs.inv reg v hready hc he
    rw [if_neg (by simp [hflip, hbank])] at hw
    refine ⟨hw.1, ?_, hw.2⟩
    rw [hw.1]
    have hactive : (s.tenant (dmawClient s)).win.active = !dmawBank s := by
      cases hb : dmawBank s <;> simp_all
    cases hb : dmawBank s <;> simp only [Windows.bank, hactive, hb, if_true, Bool.not_true, Bool.not_false,
      Bool.false_eq_true, if_false]
  · refine .ofWoken rfl hs ?_
    have hw := tnDmawEntryWrite_sets hs.inv reg v hready hc he
    rwa [if_pos (by simpa only [Bool.or_eq_true, bne_iff_ne, beq_iff_eq] using hrefuse)] at hw
  · refine .ofWoken rfl hs ?_
    have hw := wake_entered s 1
    rw [opTnDmawFlip_of (hw.ready.trans hready) hc ((hw.exists_ c).trans he)]
    obtain ⟨hwin, hothers⟩ := modWin_sets hs.inv hw c fun w =>
      if w.flip != .none then { w with refused := true } else { w with flip := .asked }
    refine ⟨hwin.trans ?_, hothers⟩
    by_cases hn : (s.tenant c).win.flip = .none <;> simp [hn]
  · refine .ofClock rfl hs.fclk ?_
    rw [opDmawFlipEffect_of hflip]
    obtain ⟨hwin, hothers⟩ := modWin_sets hs.inv (show Entered s s from ⟨id, _, _, _, _, LinkMoved.refl _⟩) c
      fun w => { w with active := !w.active, flip := if bankBusy s c w.active then .draining else .none }
    exact ⟨by rw [hwin], by rw [hwin], by rw [hwin], by rw [hwin], hothers⟩
  · refine .ofClock rfl hs.fclk ?_
    rw [opDmawFlipDrained_of hflip hidle]
    exact modWin_sets hs.inv (show Entered s s from ⟨id, _, _, _, _, LinkMoved.refl _⟩) c
      fun w => { w with flip := .none }
  · refine .ofWoken rfl hs ?_
    have hhi := wake_hi s 1
    simp only [opHiWttFlip, (wake_entered s 1).ready, hready, Bool.not_true, Bool.false_eq_true, if_false, hhi]
    by_cases hn : s.hi.wttFlip = .none <;> simp [hn]
  all_goals
    refine .ofClock rfl hs.fclk ?_
    simp only [opWttFlipEffect, opWttFlipDrained, hflip, hheld, bne_self_eq_false, BEq.rfl, Bool.not_false,
      Bool.and_self, Bool.false_eq_true, if_true, if_false]

end Sys2Proof.Machine
end

section
/-! SUPPORT. Read completions, and the cache of address translations (R330 to R335). -/

namespace Sys2Proof.Machine

open Host

/-! ## The cache of translations -/

/-- The cache of address translations is as it was. -/
def AtcKept (s t : State) : Prop := t.dma.atc = s.dma.atc

namespace AtcKept

variable {s t u : State}

theorem refl (s : State) : AtcKept s s := rfl

theorem trans (h : AtcKept s u) (g : AtcKept u t) : AtcKept s t := Eq.trans g h

theorem keeps {F : Foot} (h : AtcKept s u) (hk : Keeps F u t) (hF : F.dma = false) : AtcKept s t :=
  h.trans (by rw [AtcKept, hk.dma_eq hF])

theorem linkActive (s : State) : AtcKept s (linkActive s) :=
  (refl s).keeps (F := { hi := true, out := true }) (linkActive_keeps _ rfl rfl (Keeps.refl _ _)) rfl

theorem emit (s : State) (l : List Out) : AtcKept s (s.emit l) := by
  rw [State.emit_eq]
  exact rfl

theorem askXlate (s : State) (c : Nat) (pasid : Option Nat) (page : Nat) : AtcKept s (askXlate s c pasid page) := by
  unfold Machine.askXlate
  split
  · exact refl s
  · exact (linkActive s).trans (emit _ _)

theorem issueRead (s : State) (r : Req) : AtcKept s (issueRead s r) := by
  unfold Machine.issueRead
  split
  · exact refl s
  split
  · split
    · split
      · exact (linkActive s).trans (emit _ _)
      · exact askXlate s _ _ _
      · exact refl s
    · exact refl s
  · exact (refl s).trans (emit _ _)

theorem fail6 (s : State) (id : Nat) (st : Status) (det : BitVec 8) : AtcKept s (fail6 s id st det) := rfl

theorem sourceFails (s : State) (id : Nat) (st : Status) (det : BitVec 8) : AtcKept s (sourceFails s id st det) := by
  unfold Machine.sourceFails
  dsimp only
  split
  · generalize List.take _ (pass2Plain s (s.job id) _) = b
    exact (fail6 s id st det).keeps (F := { jobs := true, freeN := true })
      (Keeps.set_freeN rfl (modJob_keeps _ _ _ rfl (Keeps.refl _ _))) rfl
  · exact fail6 s id st det

theorem readFails (s : State) (r : Req) (st : Status) (det : BitVec 8) : AtcKept s (readFails s r st det) := by
  unfold Machine.readFails
  split
  · exact (refl s).keeps (F := { queues := true }) (slotArrives_keeps _ _ _ _ _ rfl (Keeps.refl _ _)) rfl
  · exact (refl s).keeps (F := { queues := true }) (mirrorArrives_keeps _ _ _ _ rfl (Keeps.refl _ _)) rfl
  iterate 3
    split
    · exact sourceFails s _ st det
    · exact refl s
  · exact rfl
  · exact refl s

theorem retryRead (s : State) (r : Req) : AtcKept s (retryRead s r) := by
  unfold Machine.retryRead
  split
  · exact refl s
  dsimp only
  split
  · exact rfl
  split
  · exact readFails { s with dma.waiting := s.dma.waiting.erase r } _ _ _
  split
  · exact readFails { s with dma.waiting := s.dma.waiting.erase r } _ _ _
  · exact issueRead { s with dma.waiting := s.dma.waiting.erase r } _

theorem retryReads (s : State) : AtcKept s (retryReads s) :=
  State.each_induction (P := AtcKept s) (fun x r _ h => h.trans (retryRead x r)) (refl s)

theorem recordWrite (s : State) (c a : Nat) (b : Bytes) : AtcKept s (recordWrite s c a b).2 := by
  unfold Machine.recordWrite
  split
  · exact refl s
  split
  · exact rfl
  split
  · exact rfl
  · exact askXlate s _ _ _
  · dsimp only
    split
    · exact (linkActive s).trans (emit _ _)
    · exact emit _ _

theorem bodyWrite (s : State) (c a : Nat) (b : Bytes) : AtcKept s (bodyWrite s c a b).2 := by
  unfold Machine.bodyWrite
  refine List.foldlRecOn (motive := fun w : Wrote × State => AtcKept s w.2) _ _ (refl s) fun w hw p _ => ?_
  split
  · exact AtcKept.trans hw (recordWrite _ _ _ _)
  · exact hw

theorem logDrain {c : Nat} {sig : State → State} (hsig : ∀ x, AtcKept x (sig x)) (l : List Bytes) (s : State)
    (r : LogRing) : AtcKept s (logDrain c sig l s r).1 := by
  have htry : ∀ x r b, AtcKept x (logTry x c r b).2.1 := fun x r b => by
    unfold logTry
    split
    · exact refl x
    · exact bodyWrite x _ _ _
  induction l generalizing s r with
  | nil => exact refl s
  | cons b l ih =>
    have hb := htry s r b
    rw [Machine.logDrain]
    split <;> rename_i heq <;> rw [heq] at hb
    · exact hb
    · exact (AtcKept.trans hb (hsig _)).trans (ih _ _)
    · exact AtcKept.trans hb (ih _ _)

theorem rlogSignal (c : Nat) (s : State) : AtcKept s (rlogSignal c s) := by
  unfold Machine.rlogSignal
  split
  · exact (refl s).keeps (F := { fns := true, tenants := true }) (signalVec_keeps _ _ _ rfl rfl (Keeps.refl _ _)) rfl
  · exact (refl s).keeps (F := { peer := true }) (noticeFor_keeps _ _ _ _ rfl (Keeps.refl _ _)) rfl

theorem rlogResume (s : State) (c : Nat) : AtcKept s (rlogResume s c) := by
  unfold Machine.rlogResume
  dsimp only
  split
  · exact refl s
  · exact logDrain (rlogSignal c) _ _ _

theorem mlogResume (s : State) : AtcKept s (mlogResume s) := by
  unfold Machine.mlogResume
  dsimp only
  split
  · exact refl s
  · exact logDrain (fun x => (refl x).keeps (F := { fns := true, tenants := true })
      (signalVec_keeps _ _ _ rfl rfl (Keeps.refl _ _)) rfl) _ _ _

end AtcKept

theorem retryReads_nil {s : State} (h : s.dma.waiting = []) : retryReads s = s := by
  unfold retryReads
  rw [h]
  rfl

/-- A translation that allows reads is cached. -/
theorem xlateCached_mem (s : State) (fn : Nat) (pasid : Option Nat) (page : Nat) (wr : Bool) (xlate : Nat) :
    ({ fn := fn, pasid := pasid, page := page, rd := true, wr := wr, xlate := xlate } : Atc) ∈
      (xlateCached s fn pasid page true wr xlate).dma.atc := by
  unfold xlateCached
  dsimp only
  rw [if_pos rfl]
  refine (congrArg (_ ∈ ·) ((AtcKept.rlogResume _ fn).trans (AtcKept.refl _))).mpr ?_
  split
  · rw [AtcKept.mlogResume]
    exact List.mem_append_right _ (List.mem_singleton_self _)
  · exact List.mem_append_right _ (List.mem_singleton_self _)

/-! ## Completions -/

/-- A read that is under way. -/
theorem opReadCompletion_of {s : State} {tag : Nat} {data : Bytes} {r : Req} (hr : tblGet none s.dma.reads tag = some r)
    (hx : r.isXlate = false) (hdata : data ≠ []) (hfit : r.got.length + data.length ≤ r.len) :
    opReadCompletion tag .ok data s =
      if r.got.length + data.length < r.len then
        { (if r.purpose == .dropped true then unexpected s r.client else s) with
          dma.reads := tblPut (if r.purpose == .dropped true then unexpected s r.client else s).dma.reads tag
            (some { r with got := r.got ++ data }) }
      else retryReads (readDone (dropRead (if r.purpose == .dropped true then unexpected s r.client else s) tag)
        { r with got := r.got ++ data }) := by
  have hne : data.isEmpty = false := by cases data with
    | nil => exact absurd rfl hdata
    | cons => rfl
  have hlen : decide (r.len < r.got.length + data.length) = false := decide_eq_false (by omega)
  unfold opReadCompletion
  rw [hr]
  simp only [hx, hne, hlen, BEq.rfl, Bool.or_self, Bool.and_false, Bool.false_eq_true, if_false, bne_self_eq_false,
    Bool.false_or, List.length_append, Bool.not_eq_true', decide_eq_false_iff_not, not_le]

theorem unexpected_foot (s : State) (fn : Nat) :
    Keeps { aon := true, ev := true, hi := true, fns := true, tenants := true, combs := true } s (unexpected s fn) :=
  unexpected_keeps _ _ rfl rfl rfl rfl rfl rfl (Keeps.refl _ _)

/-- A completion that no read awaits. -/
theorem unexpected_zero (s : State) :
    (unexpected s 0).hi.unexpected = satAdd 65535 s.hi.unexpected 1 ∧
      (unexpected s 0).aon.sticky.getLsbD 105 = true := by
  refine ⟨?_, sticky_same _ (by decide) 0⟩
  exact congrArg (·.unexpected) (Keeps.hi_eq
    (sticky_keeps (F := { aon := true, ev := true, fns := true, tenants := true, combs := true }) _ _ _
      rfl rfl rfl rfl rfl (Keeps.refl _ _)) rfl)

/-- The last part of a job's source. -/
theorem sourceArrives_last {s : State} (hs : s.Inv) {id off : Nat} (hopen : (s.job id).open_ = [off])
    (hparts : (s.job id).parts = []) (host : Bool) (b : Bytes) :
    SetsJob id { s.job id with parts := [], hostParts := [], open_ := [], got := b, gather := .done } s
      (sourceArrives s id off host b) := by
  have h := (SetsJob.refl (id := id) hs).modJob fun j =>
    if (j.open_.filter (· != off)).isEmpty then
      { j with parts := [], hostParts := [], open_ := [], got := (tblPut j.parts off b).flatMap (·.2), gather := .done }
    else { j with
      parts := tblPut j.parts off b, open_ := j.open_.filter (· != off)
      hostParts := if host then off :: j.hostParts else j.hostParts }
  have hleft : ((s.job id).open_.filter (· != off)).isEmpty = true := by rw [hopen]; simp
  have hgot : (tblPut (s.job id).parts off b).flatMap (·.2) = b := by rw [hparts]; simp [tblPut]
  rwa [if_pos hleft, hgot] at h

theorem timedOut_foot (s : State) (fn : Nat) :
    Keeps { aon := true, ev := true, hi := true, fns := true, tenants := true, combs := true } s (timedOut s fn) :=
  timedOut_keeps _ _ rfl rfl rfl rfl rfl rfl (Keeps.refl _ _)

theorem timedOut_count (s : State) (fn : Nat) : (timedOut s fn).hi.timeouts = satAdd 65535 s.hi.timeouts 1 := by
  unfold timedOut
  have hsticky : ∀ u, (sticky u 105 0).hi = u.hi := fun u => Keeps.hi_eq
    (sticky_keeps (F := { aon := true, ev := true, fns := true, tenants := true, combs := true }) _ _ _
      rfl rfl rfl rfl rfl (Keeps.refl _ _)) rfl
  dsimp only
  rw [hsticky]
  split <;> rfl

/-- A read of a job's source that fails decides the job. -/
theorem readFails_source {s : State} {r : Req} {id off : Nat} (hp : r.purpose = .source id off)
    (hjob : s.hasJob id = true) (hpass : (s.job id).pass2 = false) (st : Status) (det : BitVec 8) :
    readFails s r st det = fail6 s id st det := by
  unfold readFails sourceFails
  rw [hp]
  simp only [hjob, hpass, if_true, Bool.false_eq_true, if_false]

theorem fail6_waiting {s : State} (h : s.dma.waiting = []) (id : Nat) (st : Status) (det : BitVec 8) :
    (fail6 s id st det).dma.waiting = [] := by
  have heq : (fail6 s id st det).dma.waiting = (orphanJobReads s id).dma.waiting := rfl
  rw [heq]
  simp only [orphanJobReads, orphanReads, State.modJob, h, List.filter_nil]

/-- A read of a job's source that has timed out. -/
theorem opCompletionTimeout_source {s : State} (hs : s.Inv) {tag id off : Nat} {r : Req}
    (hr : tblGet none s.dma.reads tag = some r) (hlate : r.issued + 1200 * s.hi.cplTo ≤ s.hv.tick)
    (hp : r.purpose = .source id off) (hjob : s.hasJob id = true) (hpass : (s.job id).pass2 = false)
    (hwait : s.dma.waiting = []) :
    (opCompletionTimeout tag s).hi.timeouts = satAdd 65535 s.hi.timeouts 1 ∧
      Decided (opCompletionTimeout tag s) id stDma 0x07 [] ∧ OtherJobs id s (opCompletionTimeout tag s) := by
  have hfoot : Keeps { aon := true, ev := true, hi := true, fns := true, tenants := true, combs := true, dma := true } s
      (dropRead (timedOut s r.client) tag) :=
    dropRead_keeps _ _ rfl (timedOut_keeps _ _ rfl rfl rfl rfl rfl rfl (Keeps.refl _ _))
  have hcount : (dropRead (timedOut s r.client) tag).hi.timeouts = satAdd 65535 s.hi.timeouts 1 :=
    timedOut_count s r.client
  have hnone : (dropRead (timedOut s r.client) tag).dma.waiting = [] :=
    (congrArg (·.waiting) ((timedOut_foot s r.client).dma_eq rfl)).trans hwait
  unfold opCompletionTimeout
  rw [hr]
  dsimp only
  rw [if_neg (by omega)]
  generalize dropRead (timedOut s r.client) tag = u at hfoot hcount hnone
  rw [readFails_source hp (by rw [State.hasJob, (hfoot.jobs_eq rfl)]; exact hjob) (by rw [hfoot.job_eq rfl]; exact hpass),
    retryReads_nil (fail6_waiting hnone id stDma 0x07)]
  obtain ⟨hdec, hothers⟩ := fail6_decided (hfoot.inv hs) id stDma 0x07
  exact ⟨hcount, hdec, fun k hk => (hothers k hk).trans (hfoot.job_eq rfl k)⟩

/-! ## Translations -/

theorem opAtsTranslationCompletion_of {s : State} {fn page xlate tag : Nat} {pasid : Option Nat} {wr : Bool}
    (htag : xlateTag s fn pasid page = some tag) (hasked : s.dma.asked.contains (fn, pasid, page) = true)
    (hen : (s.func fn).atsEn = true) :
    opAtsTranslationCompletion fn pasid page true wr xlate s =
      retryReads (xlateCached { dropRead s tag with dma.asked := s.dma.asked.filter (· != (fn, pasid, page)) }
        fn pasid page true wr xlate) := by
  unfold opAtsTranslationCompletion
  rw [htag]
  refine congrArg retryReads (if_pos ?_)
  exact (Bool.and_eq_true _ _).mpr ⟨hasked, hen⟩

/-- Settles O15: each completion takes one path of its operation, and the reads that it lets go on leave the cache
of translations alone. -/
theorem readsAndTranslations : Obligations.ReadsAndTranslations := by
  unfold Obligations.ReadsAndTranslations
  refine ⟨fun tag status data s hs hnone => ?_, fun tag data r s hs hr hdata hfit hx => ?_,
    fun tag id off data r s hs hr hdata hfit hp hopen hparts hwait => ?_,
    fun tag id off r s hs hr hlate hp hjob hpass hwait => ?_,
    fun fn page xlate tag pasid wr s hs htag hasked hen => ?_, fun fn page npages itag pasid s hs => ?_,
    fun fn itag i s hs hi htags => ?_⟩
  · refine .ofClocked rfl hs ?_
    have hop : opReadCompletion tag status data s = unexpected s 0 := by rw [opReadCompletion, hnone]
    rw [hop]
    obtain ⟨hcount, hsticky⟩ := unexpected_zero s
    exact ⟨hcount, hsticky, ((unexpected_foot s 0).jobs_eq rfl), (unexpected_foot s 0).queues_eq rfl⟩
  · refine .ofClocked rfl hs ?_
    rw [opReadCompletion_of hr hx hdata hfit.le, if_pos hfit]
    refine ⟨tblGet_put_same _ _ _ _, ?_⟩
    split
    · exact ((unexpected_foot s r.client).jobs_eq rfl)
    · rfl
  · refine .ofClocked rfl hs ?_
    have hx : r.isXlate = false := by rw [Req.isXlate, hp]
    rw [opReadCompletion_of hr hx hdata hfit.le, if_neg (by omega), if_neg (by rw [hp]; exact Bool.false_ne_true)]
    have hdrop : Keeps { dma := true } s (dropRead s tag) := dropRead_keeps _ _ rfl (Keeps.refl _ _)
    have hdone : readDone (dropRead s tag) { r with got := r.got ++ data } =
        sourceArrives (dropRead s tag) id off (r.target == 0) (r.got ++ data) := by
      unfold readDone
      rw [hp]
    rw [hdone, retryReads_nil (by exact hwait)]
    have h := (sourceArrives_last (hdrop.inv hs.inv) (id := id) (off := off) hopen hparts (r.target == 0) (r.got ++ data))
    have hothers : OtherJobs id s (sourceArrives (dropRead s tag) id off (r.target == 0) (r.got ++ data)) :=
      fun k hk => (h.others k hk).trans (hdrop.job_eq rfl k)
    simp only [h.job, true_and]
    exact ⟨rfl, hothers⟩
  · exact .ofClock rfl hs.fclk (opCompletionTimeout_source hs.inv hr hlate hp hjob hpass hwait)
  · refine .ofClocked rfl hs ?_
    rw [opAtsTranslationCompletion_of htag hasked hen, AtcKept.retryReads]
    exact xlateCached_mem _ fn pasid page wr xlate
  · refine .ofClocked rfl hs ⟨fun e he hhit => ?_, ⟨_, List.mem_append_right _ (List.mem_singleton_self _), rfl, rfl⟩,
      rfl⟩
    obtain ⟨hfn, hpasid, hlo, hhi⟩ := hhit
    have hkeep := (List.mem_filter.mp he).2
    simp [hfn, hpasid, hlo, hhi] at hkeep
  · refine .ofClock rfl hs.fclk ?_
    have hop : opAtsInvalidationDone fn itag s = { linkActive s with
        dma.invs := (linkActive s).dma.invs.filter fun x => !(x.fn == fn && x.itag == itag) }.emit [.atsDone fn itag] := by
      unfold opAtsInvalidationDone
      rw [hi]
      exact if_pos (by rw [htags]; rfl)
    rw [hop]
    have hmoved : LinkMoved { s with dma.invs := s.dma.invs.filter fun x => !(x.fn == fn && x.itag == itag) }
        { linkActive s with
          dma.invs := (linkActive s).dma.invs.filter fun x => !(x.fn == fn && x.itag == itag) } := by
      obtain ⟨b, d, e, f, a, l, heq, hl⟩ := linkActive_linkMoved s
      rw [heq]
      exact ⟨b, d, e, f, a, l, rfl, hl⟩
    have hsent := hmoved.emit [.atsDone fn itag] (by simp [isLtr])
    refine ⟨hsent.sends, fun x hx hhit => ?_, ?_⟩
    · rw [(hsent.keeps.dma_eq rfl)] at hx
      have hkeep := (List.mem_filter.mp hx).2
      simp [hhit.1, hhit.2] at hkeep
    · rw [(hsent.keeps.dma_eq rfl)]

end Sys2Proof.Machine
end

section
/-! SUPPORT. Stage 5 (R226, R233): what a job keeps while stage 6 gathers its source and its destination. -/

namespace Sys2Proof.Machine

open Host

/-! ## The job that goes on to stage 6 -/

/-- `j` is `k` further on in stage 6: what stage 5 gave it stands, unless a check of stage 6 has decided it. -/
structure Job.GoesOn (k j : Job) : Prop where
  nonce : j.nonce = k.nonce
  refs : j.refs = k.refs
  reserved : j.reserved = k.reserved
  holdsCtx : j.holdsCtx = k.holdsCtx
  stage : (j.stage = k.stage ∧ j.keyMat = k.keyMat ∧ j.wrapMat = k.wrapMat) ∨ j.stage = .cellDone

theorem Job.GoesOn.refl (k : Job) : k.GoesOn k := ⟨rfl, rfl, rfl, rfl, .inl ⟨rfl, rfl, rfl⟩⟩

theorem Job.GoesOn.trans {k j i : Job} (h : k.GoesOn j) (g : j.GoesOn i) : k.GoesOn i where
  nonce := g.nonce.trans h.nonce
  refs := g.refs.trans h.refs
  reserved := g.reserved.trans h.reserved
  holdsCtx := g.holdsCtx.trans h.holdsCtx
  stage := by
    rcases g.stage with ⟨hs, hk, hw⟩ | hdone
    · rcases h.stage with ⟨hs', hk', hw'⟩ | hdone
      · exact .inl ⟨hs.trans hs', hk.trans hk', hw.trans hw'⟩
      · exact .inr (hs.trans hdone)
    · exact .inr hdone

/-- Every other job is as in `s`, and job `id` is `k` further on in stage 6. -/
def Gathers (id : Nat) (k : Job) (s t : State) : Prop := ∃ j, SetsJob id j s t ∧ k.GoesOn j

namespace Gathers

variable {id : Nat} {k : Job} {s u t : State}

theorem of (h : SetsJob id k s u) : Gathers id k s u := ⟨k, h, Job.GoesOn.refl k⟩

theorem keeps {F : Foot} (h : Gathers id k s u) (hk : Keeps F u t) (hF : F.jobs = false) :
    Gathers id k s t := by
  obtain ⟨j, hj, hgo⟩ := h
  exact ⟨j, hj.keeps hk hF, hgo⟩

theorem modJob (h : Gathers id k s u) {f : Job → Job} (hf : ∀ x : Job, x.GoesOn (f x)) :
    Gathers id k s (u.modJob id f) := by
  obtain ⟨j, hj, hgo⟩ := h
  exact ⟨f j, hj.modJob f, hgo.trans (hf j)⟩

theorem jobRead (h : Gathers id k s u) (a n : Nat) (mk : Nat → Purpose) (b : Bool) (code : BitVec 8) :
    Gathers id k s (jobRead u id a n mk b code).2 := by
  obtain ⟨j, hj, hgo⟩ := h
  obtain ⟨o, ho⟩ := hj.jobRead a n mk b code
  exact ⟨_, ho, hgo.trans ⟨rfl, rfl, rfl, rfl, .inl ⟨rfl, rfl, rfl⟩⟩⟩

theorem fail6 (h : Gathers id k s u) (st : Status) (det : BitVec 8) : Gathers id k s (fail6 u id st det) := by
  obtain ⟨j, hj, hgo⟩ := h
  obtain ⟨b, n, hd⟩ := hj.decide7 st det
  exact ⟨_, (hd.modJob fun x => { x with output := [] }).leaveCell, hgo.trans ⟨rfl, rfl, rfl, rfl, .inr rfl⟩⟩

theorem readSource (h : Gathers id k s u) : Gathers id k s (readSource u id) := by
  unfold Machine.readSource
  obtain ⟨j, hj, hgo⟩ :=
    h.modJob (f := fun x => { x with parts := [], hostParts := [], got := [], open_ := [], gather := .src })
      fun _ => ⟨rfl, rfl, rfl, rfl, .inl ⟨rfl, rfl, rfl⟩⟩
  generalize u.modJob id _ = v at hj
  dsimp only
  obtain ⟨o, ho⟩ := hj.readSegs (v.job id).srcSegs 0
  have hv : Gathers id k s (Machine.readSegs id (v.job id).srcSegs 0 v).2 :=
    ⟨_, ho, hgo.trans ⟨rfl, rfl, rfl, rfl, .inl ⟨rfl, rfl, rfl⟩⟩⟩
  generalize Machine.readSegs id (v.job id).srcSegs 0 v = r at hv
  obtain ⟨d, w⟩ := r
  cases d with
  | some d => exact hv.fail6 stDma d
  | none =>
    dsimp only
    split
    · exact hv.modJob fun _ => ⟨rfl, rfl, rfl, rfl, .inl ⟨rfl, rfl, rfl⟩⟩
    · exact hv

theorem judgeLists (h : Gathers id k s u) : Gathers id k s (judgeLists u id) := by
  unfold Machine.judgeLists
  dsimp only
  split
  · exact h
  · split
    · exact (h.fail6 _ _).modJob fun _ => ⟨rfl, rfl, rfl, rfl, .inl ⟨rfl, rfl, rfl⟩⟩
    split
    · exact h.fail6 _ _
    split
    · exact h.fail6 _ _
    split
    · exact h.fail6 _ _
    · exact h.readSource

/-- A list that is read goes on with its next entry, or fails the job. -/
theorem listRead (h : Gathers id k s u) (g : Gather) (a : Nat) (mk : Nat → Purpose) :
    Gathers id k s (match Machine.jobRead (u.modJob id fun j => { j with gather := g }) id a 16 mk false 0x03 with
      | (none, s) => s
      | (some d, s) => Machine.fail6 s id stDma d) := by
  have hread := (h.modJob (f := fun j => { j with gather := g })
    fun _ => ⟨rfl, rfl, rfl, rfl, .inl ⟨rfl, rfl, rfl⟩⟩).jobRead a 16 mk false 0x03
  generalize Machine.jobRead (u.modJob id fun j => { j with gather := g }) id a 16 mk false 0x03 = r at hread
  obtain ⟨d, w⟩ := r
  cases d with
  | none => exact hread
  | some d => exact hread.fail6 stDma d

theorem stepDst (h : Gathers id k s u) (i : Nat) : Gathers id k s (stepDst u id i) := by
  unfold Machine.stepDst
  dsimp only
  split
  · exact h.judgeLists
  · exact h.listRead _ _ _

theorem startDst (h : Gathers id k s u) : Gathers id k s (startDst u id) := by
  unfold Machine.startDst
  dsimp only
  split
  · exact h
  split
  · exact Gathers.judgeLists (h.modJob (by exact fun _ => ⟨rfl, rfl, rfl, rfl, .inl ⟨rfl, rfl, rfl⟩⟩))
  split
  · exact Gathers.judgeLists (h.modJob (by exact fun _ => ⟨rfl, rfl, rfl, rfl, .inl ⟨rfl, rfl, rfl⟩⟩))
  · exact h.stepDst 0

theorem stepSrc (h : Gathers id k s u) (i : Nat) : Gathers id k s (stepSrc u id i) := by
  unfold Machine.stepSrc
  dsimp only
  split
  · exact Gathers.startDst (h.modJob (by exact fun _ => ⟨rfl, rfl, rfl, rfl, .inl ⟨rfl, rfl, rfl⟩⟩))
  · exact h.listRead _ _ _

theorem peerSource (h : Gathers id k s u) : Gathers id k s (peerSource u id) := by
  unfold Machine.peerSource
  dsimp only
  split
  · exact (h.fail6 _ _).modJob fun _ => ⟨rfl, rfl, rfl, rfl, .inl ⟨rfl, rfl, rfl⟩⟩
  · generalize hv : ({ u with peer.packets := _ } : State) = v
    have hkeep : Keeps { peer := true } u v := hv ▸ Keeps.set_peer rfl (Keeps.refl _ _) (tblWf_set _ _ _ _)
    have hrun := (h.keeps hkeep rfl).modJob
      (f := fun j => { j with trunc := decide ((u.job id).srcLen < (packetOf u (u.job id)).2.nbytes) }) fun _ => ⟨rfl, rfl, rfl, rfl, .inl ⟨rfl, rfl, rfl⟩⟩
    split
    · exact hrun.fail6 _ _
    · exact hrun.modJob fun _ => ⟨rfl, rfl, rfl, rfl, .inl ⟨rfl, rfl, rfl⟩⟩

theorem startRun (h : Gathers id k s u) : Gathers id k s (startRun u id) := by
  unfold Machine.startRun
  dsimp only
  split
  · exact h
  split
  · exact h.peerSource
  split
  · exact Gathers.startDst (h.modJob (by exact fun _ => ⟨rfl, rfl, rfl, rfl, .inl ⟨rfl, rfl, rfl⟩⟩))
  split
  · exact Gathers.startDst (h.modJob (by exact fun _ => ⟨rfl, rfl, rfl, rfl, .inl ⟨rfl, rfl, rfl⟩⟩))
  · exact h.stepSrc 0

end Gathers

/-- A job that passes stage 5 gathers. -/
theorem passFive_gathers {id : Nat} {k : Job} {s u : State} (h : SetsJob id k s u) :
    Gathers id { k with stage := .run } s (passFive u id) :=
  (Gathers.of (h.modJob fun j => { j with stage := .run })).startRun

/-- It runs with its material, or has been decided. -/
theorem Gathers.runsWith {id : Nat} {k : Job} {s t : State} (h : Gathers id { k with stage := .run } s t) :
    (t.job id).nonce = k.nonce ∧ (t.job id).refs = k.refs ∧ (t.job id).reserved = k.reserved ∧
      (t.job id).holdsCtx = k.holdsCtx ∧ RunsWith t id k.keyMat ∧
      ((t.job id).stage = .run → (t.job id).wrapMat = k.wrapMat) := by
  obtain ⟨j, hj, hgo⟩ := h
  rw [RunsWith, hj.job]
  refine ⟨hgo.nonce, hgo.refs, hgo.reserved, hgo.holdsCtx, ?_, fun hrun => ?_⟩
  · rcases hgo.stage with ⟨hs, hk, -⟩ | hdone
    · exact .inl ⟨hs, hk⟩
    · exact .inr hdone
  · rcases hgo.stage with ⟨-, -, hw⟩ | hdone
    · exact hw
    · exact absurd (hrun.symm.trans hdone) (by decide)

/-! ## The context and the reference that stage 5 takes -/

/-- The fields of the state that stage 5 writes when it takes a context. -/
def holdFoot : Foot :=
  { ev := true, sch := true, fns := true, tenants := true, ctxs := true, combs := true, jobs := true }

theorem holdCtx_foot (s : State) (id : Nat) (o : Op) (gen : BitVec 16) (nonce : Option Bytes) :
    Keeps holdFoot s (holdCtx s id o gen nonce) :=
  holdCtx_keeps _ _ _ _ _ rfl rfl rfl rfl rfl rfl rfl (Keeps.refl _ _)

/-- Where a cache's room is made, a preempted job's state may go to the reserve: nothing else of a job moves. -/
def Reserved (s t : State) : Prop := ∀ id, ∃ b, t.job id = { s.job id with inReserve := b }

theorem Reserved.of_jobs {s t : State} (h : t.jobs = s.jobs) : Reserved s t :=
  fun id => ⟨(s.job id).inReserve, by rw [State.job, h]; rfl⟩

theorem Reserved.trans {s u t : State} (h : Reserved s u) (g : Reserved u t) : Reserved s t := fun id => by
  obtain ⟨b, hb⟩ := h id
  obtain ⟨c, hc⟩ := g id
  exact ⟨c, by rw [hc, hb]⟩

theorem toReserve_reserved {s : State} (hs : s.Inv) (j : Nat) : Reserved s (toReserve s j) := fun id => by
  by_cases hid : id = j
  · subst hid
    exact ⟨true, State.modJob_same hs.wf id fun x => { x with inReserve := true }⟩
  · exact ⟨(s.job id).inReserve, State.modJob_other s j (fun x => { x with inReserve := true }) id hid⟩

theorem cacheDrop_foot (s : State) (e : CacheEntry) : Keeps { combs := true } s (cacheDrop s e) :=
  cacheDrop_keeps _ _ rfl (Keeps.refl _ _)

theorem cacheRoom_reserved {s t : State} (hs : s.Inv) {c : Nat} (h : cacheRoom s c = some t) : Reserved s t := by
  unfold cacheRoom at h
  dsimp only at h
  split at h
  · cases h
    exact .of_jobs rfl
  split at h
  · cases h
  have hmod : ∀ e : CacheEntry, Keeps { combs := true } s
      (s.modComb c fun b => { b with cache := b.cache.filter (· != e) }) :=
    fun e => modComb_keeps _ _ _ rfl (Keeps.refl _ _)
  split at h <;> cases h
  · exact .of_jobs ((hmod _).jobs_eq rfl)
  · exact (Reserved.of_jobs ((hmod _).jobs_eq rfl)).trans (toReserve_reserved ((hmod _).inv hs) _)

theorem cachePut_reserved {s : State} (hs : s.Inv) (c : Nat) (e : CacheEntry) : Reserved s (cachePut s c e) := by
  have hdrop := cacheDrop_foot s e
  have h0 : Reserved s (cacheDrop s e) := .of_jobs (hdrop.jobs_eq rfl)
  unfold cachePut
  dsimp only
  split
  next t ht =>
    exact (h0.trans (cacheRoom_reserved (hdrop.inv hs) ht)).trans (.of_jobs rfl)
  next => exact h0

theorem combCount1_jobs (s : State) (c top : Nat) (get : Comb → Nat) (put : Comb → Nat → Comb) :
    (combCount1 s c top get put).jobs = s.jobs :=
  Keeps.jobs_eq (combCount1_keeps (F := { ev := true, fns := true, tenants := true, combs := true }) _ _ _ _ _
    rfl rfl rfl rfl (Keeps.refl _ _)) rfl

/-- A job that takes its context, or needs none. -/
theorem holdCtx_job {s : State} (hs : s.Inv) (id : Nat) (o : Op) (gen : BitVec 16) (nonce : Option Bytes) :
    ∃ b r, (holdCtx s id o gen nonce).job id =
      { s.job id with
        holdsCtx := if dUsesCtx o (s.job id).desc then true else (s.job id).holdsCtx
        restarted := b, inReserve := r } := by
  unfold holdCtx
  dsimp only
  split
  next hno =>
    rw [Bool.not_eq_true'] at hno
    exact ⟨_, _, by rw [if_neg (by rw [hno]; exact Bool.false_ne_true)]⟩
  next hyes =>
    rw [Bool.not_eq_true', Bool.not_eq_false] at hyes
    rw [if_pos hyes]
    generalize hu : s.modCtx (s.job id).client (dCtx (s.job id).desc) _ = u
    have hk : Keeps { ctxs := true } s u := hu ▸ modCtx_keeps _ _ _ _ rfl (Keeps.refl _ _)
    have hset := ((SetsJob.refl (id := id) hs).keeps hk rfl).modJob fun j =>
      { j with holdsCtx := true, restarted := restarts s (s.job id) o }
    split
    · exact ⟨_, _, hset.job⟩
    next c _ =>
      obtain ⟨r, hr⟩ := cachePut_reserved hset.inv c (.ctx (ctxKey (s.job id).client (dCtx (s.job id).desc))) id
      rw [hset.job] at hr
      refine ⟨_, r, Eq.trans ?_ hr⟩
      split
      · rw [State.job, combCount1_jobs]
        rfl
      · rfl

/-- The context that a job takes. -/
theorem holdCtx_ctx {s : State} (hs : s.Inv) {id : Nat} {o : Op} (gen : BitVec 16) (nonce : Option Bytes)
    (huses : dUsesCtx o (s.job id).desc = true) :
    ((holdCtx s id o gen nonce).ctx (s.job id).client (dCtx (s.job id).desc)).state = .held ∧
      ((holdCtx s id o gen nonce).ctx (s.job id).client (dCtx (s.job id).desc)).holder = id := by
  unfold holdCtx
  dsimp only
  rw [if_neg (by rw [huses]; exact Bool.false_ne_true)]
  generalize hu : s.modCtx (s.job id).client (dCtx (s.job id).desc) _ = u
  have hctx : (u.ctx (s.job id).client (dCtx (s.job id).desc)).state = .held ∧
      (u.ctx (s.job id).client (dCtx (s.job id).desc)).holder = id := by
    rw [← hu, State.modCtx_same hs.wf]
    split <;> exact ⟨rfl, rfl⟩
  have hmod : Keeps { jobs := true } u (u.modJob id fun j =>
      { j with holdsCtx := true, restarted := restarts s (s.job id) o }) := modJob_keeps _ _ _ rfl (Keeps.refl _ _)
  rw [← hmod.ctx_eq rfl] at hctx
  generalize u.modJob id _ = v at hctx
  split
  · exact hctx
  · have hput : ∀ c e, (cachePut v c e).ctx (s.job id).client (dCtx (s.job id).desc) =
        v.ctx (s.job id).client (dCtx (s.job id).desc) := fun c e =>
      (cachePut_keeps (F := { sch := true, combs := true, jobs := true }) _ _ _ rfl rfl rfl (Keeps.refl _ _)).ctx_eq rfl _ _
    split
    · rw [(combCount1_keeps (F := { ev := true, fns := true, tenants := true, combs := true }) _ _ _ _ _
        rfl rfl rfl rfl (Keeps.refl _ _)).ctx_eq rfl, hput]
      exact hctx
    · rw [hput]
      exact hctx

end Sys2Proof.Machine
end

section
/-! SUPPORT. Key pulls (R226, R227, R233, R143): the theorem that settles O14. -/

namespace Sys2Proof.Machine

open Host

/-! ## Slots that differ in their references alone -/

/-- From `s` to `t` a slot changes its references at most, and no tenant, root or life-cycle state moves. -/
structure RefsMoved (s t : State) : Prop where
  slot : ∀ p, ∃ r, t.slot p = { s.slot p with refs := r }
  rest : Keeps { slots := true, jobs := true, freeN := true } s t

namespace RefsMoved

variable {s t : State}

theorem slotPos (h : RefsMoved s t) (c i : Nat) : t.slotPos c i = s.slotPos c i := by
  simp only [State.slotPos, h.rest.tenant_eq rfl]

theorem gen (h : RefsMoved s t) (p : Nat) : t.gen p = s.gen p := by
  obtain ⟨r, hr⟩ := h.slot p
  rw [State.gen, State.gen, hr, (h.rest.ks_eq rfl)]

theorem linksOk (h : RefsMoved s t) (fuel p : Nat) : linksOk t fuel p = linksOk s fuel p := by
  induction fuel generalizing p with
  | zero => rfl
  | succ fuel ih =>
    obtain ⟨r, hr⟩ := h.slot p
    simp only [Machine.linksOk, hr, h.gen, ih]

theorem chainOk (h : RefsMoved s t) (p : Nat) : chainOk t p = chainOk s p := by
  obtain ⟨r, hr⟩ := h.slot p
  simp only [Machine.chainOk, hr, h.gen, h.linksOk]

theorem rootOk (h : RefsMoved s t) (k : KSlot) : rootOk t k = rootOk s k := by
  simp only [Machine.rootOk, State.lcCode, (h.rest.ks_eq rfl), (h.rest.lc_eq rfl)]

theorem slotIssue (h : RefsMoved s t) (c i : Nat) : slotIssue t c i = slotIssue s c i := by
  unfold Machine.slotIssue
  rw [(h.rest.ks_eq rfl), h.slotPos]
  split
  · rfl
  split
  · rfl
  next p _ =>
    obtain ⟨r, hr⟩ := h.slot p
    dsimp only
    rw [hr, h.chainOk]
    split
    · rfl
    · dsimp only
      split <;> simp only [Machine.rootOk, State.lcCode, (h.rest.ks_eq rfl), (h.rest.lc_eq rfl)]; rfl

theorem wrapIssue (h : RefsMoved s t) (c : Nat) (d : Bytes) : wrapIssue t c d = wrapIssue s c d := by
  unfold Machine.wrapIssue
  rw [h.slotIssue, h.slotPos]
  split
  next p _ _ =>
    obtain ⟨r, hr⟩ := h.slot p
    simp only [hr]
    rfl
  next => rfl

end RefsMoved

/-! ## The steps of a pull -/

theorem tagEcc_clean (s : State) (c i : Nat) : tagEcc s c i false = s := by
  unfold tagEcc
  split <;> simp only [Bool.false_eq_true, if_false]

theorem payloadEcc_clean (s : State) (pos : Nat) : payloadEcc s pos false = s := rfl

section

variable {id : Nat} {k : Job} {s u : State}

/-- Stage 5 decides a job against it. -/
theorem fail5_fails (h : SetsJob id k s u) (hslots : u.slots = s.slots) (st : Status) (det : BitVec 8) :
    PullFails s id st det (fail5 u id st det) ∧ OtherJobs id s (fail5 u id st det) := by
  obtain ⟨b, n, hd⟩ := h.decide7 st det
  have hset := ((hd.modJob fun x => { x with output := [] }).leaveCell).modJob fun x => { x with noComb := true }
  have hfoot : Keeps { dma := true, ks := true, jobs := true } u (fail5 u id st det) :=
    modJob_keeps _ _ _ rfl (fail6_keeps _ _ _ _ rfl rfl rfl (Keeps.refl _ _))
  have hjob : (fail5 u id st det).job id = _ := hset.job
  refine ⟨⟨?_, ?_, ?_, (hfoot.slots_eq rfl).trans hslots⟩, hset.others⟩
  · simp only [Decided, hjob]
    exact ⟨rfl, rfl, rfl, rfl⟩
  · rw [hjob]
  · rw [hjob]
    rfl

/-- The material goes to the job, and a reference stays on the slot. -/
theorem deliver_setsJob (h : SetsJob id k s u) (pos : Nat) :
    SetsJob id { k with
      refs := [pos], keyMat := (u.slot pos).mat
      keyShare := fit (Config.laneShare u.freeN (u.slot pos).mat.length) (u.slot pos).mat.length } s
      (deliver u id pos) :=
  ((h.keeps (F := { slots := true }) (takeRef_keeps _ _ rfl (Keeps.refl _ _)) rfl).modJob fun j => { j with
    refs := [pos], keyMat := (u.slot pos).mat
    keyShare := fit (Config.laneShare u.freeN (u.slot pos).mat.length) (u.slot pos).mat.length }).keeps
      (F := { freeN := true }) (Keeps.set_freeN rfl (Keeps.refl _ _)) rfl

theorem takeRef_slot (hu : u.Inv) (pos p : Nat) :
    (takeRef u pos).slot p = if p = pos then { u.slot pos with refs := (u.slot pos).refs + 1 } else u.slot p := by
  split
  next hp => rw [hp]; exact State.modSlot_same hu.wf pos fun k => { k with refs := k.refs + 1 }
  next hp => exact State.modSlot_other u pos (fun k => { k with refs := k.refs + 1 }) p hp

theorem deliver_slot (hu : u.Inv) (id pos p : Nat) : (deliver u id pos).slot p =
    if p = pos then { u.slot pos with refs := (u.slot pos).refs + 1 } else u.slot p := takeRef_slot hu pos p

theorem deliver_refsMoved (hu : u.Inv) (id pos : Nat) : RefsMoved u (deliver u id pos) where
  slot p := by
    rw [deliver_slot hu]
    split
    next hp => exact ⟨(u.slot pos).refs + 1, by rw [hp]⟩
    next => exact ⟨(u.slot p).refs, rfl⟩
  rest := deliver_keeps _ _ _ rfl rfl rfl (Keeps.refl _ _)

/-- The slots do not move when a job takes its context or gathers. -/
theorem passFive_slots (v : State) (id : Nat) : (passFive v id).slots = v.slots :=
  Keeps.slots_eq (F := { hi := true, dma := true, peer := true, ks := true, jobs := true, out := true })
    (passFive_keeps _ _ rfl rfl rfl rfl rfl rfl (Keeps.refl _ _)) (hF := rfl)

theorem passFive_slot (v : State) (id p : Nat) : (passFive v id).slot p = v.slot p := by
  rw [State.slot, passFive_slots, State.slot]

theorem passFive_ctx (v : State) (id c x : Nat) : (passFive v id).ctx c x = v.ctx c x :=
  Keeps.ctx_eq (F := { hi := true, dma := true, peer := true, ks := true, jobs := true, out := true })
    (passFive_keeps _ _ rfl rfl rfl rfl rfl rfl (Keeps.refl _ _)) rfl c x

end

/-! ## The job that passes -/

/-- What a pull gives its job: references, material, nonce and reservation. -/
def Given (t : State) (id : Nat) (nonce : Option Bytes) (refs : List Nat) (m : Bytes) : Prop :=
  (t.job id).nonce = nonce ∧ (t.job id).refs = refs ∧ RunsWith t id m

/-- A job that takes its context and its key, and passes. -/
def passed (u : State) (id : Nat) (o : Op) (pos : Nat) (nonce : Option Bytes) : State :=
  deliver (holdCtx u id o (u.gen pos) nonce) id pos

/-- The fields that a pull without a run to create writes, up to stage 6. -/
def passedFoot : Foot :=
  { ev := true, sch := true, fns := true, tenants := true, ctxs := true, combs := true, jobs := true, slots := true
    freeN := true }

theorem passed_foot (u : State) (id : Nat) (o : Op) (pos : Nat) (nonce : Option Bytes) :
    Keeps passedFoot u (passed u id o pos nonce) :=
  deliver_keeps _ _ _ rfl rfl rfl (holdCtx_keeps _ _ _ _ _ rfl rfl rfl rfl rfl rfl rfl (Keeps.refl _ _))

section

variable {id : Nat} {s u : State}

theorem passed_job (hu : u.Inv) (o : Op) (pos : Nat) (nonce : Option Bytes) :
    ((passed u id o pos nonce).job id).nonce = (u.job id).nonce ∧
      ((passed u id o pos nonce).job id).refs = [pos] ∧
      ((passed u id o pos nonce).job id).keyMat = (u.slot pos).mat := by
  obtain ⟨b, r, hjob⟩ := holdCtx_job hu id o (u.gen pos) nonce
  have hset := deliver_setsJob (SetsJob.refl (id := id) ((holdCtx_foot u id o (u.gen pos) nonce).inv hu)) pos
  have hmat := (holdCtx_foot u id o (u.gen pos) nonce).slot_eq rfl pos
  simp only [passed, hset.job, hmat, hjob, and_self]

theorem passed_slot (hu : u.Inv) (o : Op) (pos : Nat) (nonce : Option Bytes) (p : Nat) :
    (passed u id o pos nonce).slot p =
      if p = pos then { u.slot pos with refs := (u.slot pos).refs + 1 } else u.slot p := by
  have hold := holdCtx_foot u id o (u.gen pos) nonce
  rw [passed, deliver_slot (hold.inv hu), hold.slot_eq rfl, hold.slot_eq rfl]

/-- A state in which the job's stage 5 has passed goes on to stage 6. -/
theorem passFive_given (hu : u.Inv) : Given (passFive u id) id (u.job id).nonce (u.job id).refs (u.job id).keyMat ∧
    ((passFive u id).job id).reserved = (u.job id).reserved ∧
    ((passFive u id).job id).holdsCtx = (u.job id).holdsCtx ∧
    (((passFive u id).job id).stage = .run → ((passFive u id).job id).wrapMat = (u.job id).wrapMat) := by
  obtain ⟨hnonce, hrefs, hres, hctx, hruns, hwrap⟩ := (passFive_gathers (SetsJob.refl (id := id) hu)).runsWith
  exact ⟨⟨hnonce, hrefs, hruns⟩, hres, hctx, hwrap⟩

end

/-! ## The end of a pull -/

/-- The job has its nonce. -/
def withNonce (s : State) (id : Nat) (nonce : Option Bytes) : State := s.modJob id fun j => { j with nonce := nonce }

section

variable {id pos : Nat} {o : Op} {nonce : Option Bytes} {s u : State}

theorem withNonce_foot (u : State) (id : Nat) (nonce : Option Bytes) :
    Keeps { jobs := true } u (withNonce u id nonce) := modJob_keeps _ _ _ rfl (Keeps.refl _ _)

theorem withNonce_setsJob {k : Job} (h : SetsJob id k s u) (nonce : Option Bytes) :
    SetsJob id { k with nonce := nonce } s (withNonce u id nonce) := h.modJob fun j => { j with nonce := nonce }

theorem finishPull_bad (hbad : (u.slot pos).bad = 1) :
    finishPull u id o pos .clean nonce = fail5 (withNonce u id nonce) id stPoison 0 := by
  have hb : ((withNonce u id nonce).slot pos).bad = 1 := by rw [((withNonce_foot u id nonce).slot_eq rfl)]; exact hbad
  exact if_pos hb

theorem finishPull_sound (hbad : (u.slot pos).bad = 0) (hwrap : o ≠ .keyWrap) :
    finishPull u id o pos .clean nonce =
      match (if o.creates then reserveIssue (withNonce u id nonce) (u.job id).client (kbTarget (u.job id).desc)
          (kbType (u.job id).desc) (kbPolicy (u.job id).desc) pos false (makeIssue o (u.job id).desc) else none) with
      | some (st, det) => fail5 (withNonce u id nonce) id st det
      | none => passFive (if o.creates then
          (reserveRun (passed (withNonce u id nonce) id o pos nonce) (u.job id).client
            ((runSlots (passed (withNonce u id nonce) id o pos nonce) (u.job id).client (kbTarget (u.job id).desc)
              (runOf (kbType (u.job id).desc))).getD []) (kbType (u.job id).desc) (kbPolicy (u.job id).desc) pos false
            (originOf o (kbPolicy (u.job id).desc) ((withNonce u id nonce).slot pos)).1
            (originOf o (kbPolicy (u.job id).desc) ((withNonce u id nonce).slot pos)).2).modJob id fun j =>
              { j with reserved := (runSlots (passed (withNonce u id nonce) id o pos nonce) (u.job id).client
                (kbTarget (u.job id).desc) (runOf (kbType (u.job id).desc))).getD [] }
          else passed (withNonce u id nonce) id o pos nonce) id := by
  have hb : ¬ ((withNonce u id nonce).slot pos).bad = 1 := by
    rw [((withNonce_foot u id nonce).slot_eq rfl), hbad]
    decide
  have hw : ¬ (o == .keyWrap) = true := fun h => hwrap (beq_iff_eq.mp h)
  exact (if_neg hb).trans ((if_neg hw).trans rfl)

/-- A pull that creates nothing. -/
theorem finishPull_plain (hu : u.Inv) (hbad : (u.slot pos).bad = 0) (hwrap : o ≠ .keyWrap) (hcreates : o.creates = false) :
    Given (finishPull u id o pos .clean nonce) id nonce [pos] (u.slot pos).mat ∧
      OneRef u (finishPull u id o pos .clean nonce) pos := by
  have hw := (withNonce_foot u id nonce).inv hu
  have heq : finishPull u id o pos .clean nonce = passFive (passed (withNonce u id nonce) id o pos nonce) id := by
    rw [finishPull_sound hbad hwrap]
    simp only [hcreates, Bool.false_eq_true, if_false]
  have hslot := fun p => (withNonce_foot u id nonce).slot_eq rfl p
  obtain ⟨hn, hr, hm⟩ := passed_job (id := id) hw o pos nonce
  have hgiven := (passFive_given (id := id) ((passed_foot (withNonce u id nonce) id o pos nonce).inv hw)).1
  rw [hn, hr, hm, hslot, (withNonce_setsJob (SetsJob.refl (id := id) hu) nonce).job, ← heq] at hgiven
  have hslots : ∀ p, (finishPull u id o pos .clean nonce).slot p =
      if p = pos then { u.slot pos with refs := (u.slot pos).refs + 1 } else u.slot p := fun p => by
    rw [heq, passFive_slot, passed_slot hw, hslot, hslot]
  refine ⟨hgiven, ?_, ?_, fun p hp => by rw [hslots, if_neg hp]⟩
  · rw [hslots, if_pos rfl]
  · rw [hslots, if_pos rfl]

/-- A pull that creates, where R233 refuses the run. -/
theorem finishPull_refused {st : Status} {det : BitVec 8} (hbad : (u.slot pos).bad = 0) (hwrap : o ≠ .keyWrap) (hcreates : o.creates = true)
    (hissue : reserveIssue u (u.job id).client (kbTarget (u.job id).desc) (kbType (u.job id).desc)
      (kbPolicy (u.job id).desc) pos false (makeIssue o (u.job id).desc) = some (st, det)) :
    finishPull u id o pos .clean nonce = fail5 (withNonce u id nonce) id st det := by
  rw [finishPull_sound hbad hwrap, if_pos hcreates]
  have hsame : ∀ c t kt pol p b m, reserveIssue (withNonce u id nonce) c t kt pol p b m =
      reserveIssue u c t kt pol p b m := fun _ _ _ _ _ _ _ => rfl
  rw [hsame, hissue]

/-- KEY_WRAP goes on with its target. -/
theorem finishPull_wrap (hbad : (u.slot pos).bad = 0) :
    finishPull u id .keyWrap pos .clean nonce =
      pullTarget (deliver (withNonce u id nonce) id pos) id .clean := by
  have hb : ¬ ((withNonce u id nonce).slot pos).bad = 1 := by
    rw [((withNonce_foot u id nonce).slot_eq rfl), hbad]
    decide
  exact (if_neg hb).trans (if_pos rfl)

end

/-! ## The run that a job reserves (R233) -/

/-- What a slot of a reserved run holds: the head is described, the others are but taken. -/
def reservedSlot (s : State) (c : Nat) (h : Option Nat) (n kt pol parent : Nat) (prov : Bool) (origin : Nat)
    (exposed : Bool) (p : Nat) (k : KSlot) : KSlot :=
  if some p = h then
    { gen := k.gen, adv := k.adv, state := .reserved, owner := c, root := s.ks.testRoot, prov := prov,
      origin := origin, exposed := exposed, run := n, ktype := kt,
      policy := BitVec.ofNat 64 pol, parent := parent, pgen := s.gen parent, sgen := s.gen (spPos c) }
  else { gen := k.gen, adv := k.adv, state := .reserved, owner := c }

/-- A walk that writes each slot of a list writes those, and no other. -/
theorem each_modSlot {s : State} (hs : s.wf = true) (f : Nat → KSlot → KSlot) (l : List Nat) (p : Nat) :
    (p ∈ l → ∃ k, (s.each l fun s p => s.modSlot p (f p)).slot p = f p k) ∧
      (p ∉ l → (s.each l fun s p => s.modSlot p (f p)).slot p = s.slot p) := by
  induction l generalizing s with
  | nil => exact ⟨fun h => absurd h (by simp), fun _ => rfl⟩
  | cons a l ih =>
    have hwf : (s.modSlot a (f a)).wf = true :=
      State.modSlot_wf hs a (f a)
    obtain ⟨hin, hout⟩ := ih hwf
    refine ⟨fun hp => ?_, fun hp => ?_⟩
    · by_cases hl : p ∈ l
      · exact hin hl
      · have hpa : p = a := (List.mem_cons.mp hp).resolve_right hl
        subst hpa
        exact ⟨s.slot p, (hout hl).trans (State.modSlot_same hs p (f p))⟩
    · obtain ⟨hne, hl⟩ := not_or.mp (mt List.mem_cons.mpr hp)
      exact (hout hl).trans (State.modSlot_other s a (f a) p hne)

/-- Every slot of a run that R233 lets a job reserve is EMPTY. -/
theorem empty_of_reserveIssue {s : State} {c t kt pol parent : Nat} {prov : Bool} {make : Fail} {l : List Nat}
    (h : reserveIssue s c t kt pol parent prov make = none) (hl : runSlots s c t (runOf kt) = some l) :
    ∀ p ∈ l, (s.slot p).state = .empty := by
  intro p hp
  unfold reserveIssue at h
  rw [hl] at h
  split at h
  · cases h
  split at h
  next hmake => rw [h] at hmake; cases hmake
  split at h
  · cases h
  split at h
  · cases h
  dsimp only at h
  split at h
  · cases h
  next hany =>
    by_contra hne
    exact hany (List.any_eq_true.mpr ⟨p, hp, by simp [hne]⟩)

/-- A key that passes the checks of its slot is VALID. -/
theorem valid_of_pullIssue {s : State} {c : Nat} {o : Op} {d : Bytes} {gen : Option (BitVec 16)} {pos : Nat}
    (h : pullIssue s c o d gen = none) (hpos : s.slotPos c (dKeySlot d) = some pos) :
    (s.slot pos).state = .valid := by
  have hslot : slotIssue s c (dKeySlot d) = none := by
    unfold pullIssue at h
    rw [hpos] at h
    cases hi : slotIssue s c (dKeySlot d) with
    | none => rfl
    | some f => rw [hi] at h; exact h
  unfold slotIssue at hslot
  rw [hpos] at hslot
  dsimp only at hslot
  split at hslot
  · cases hslot
  split at hslot
  · cases hslot
  split at hslot
  iterate 5 cases hslot
  assumption

theorem holdCtx_of_not_uses {s : State} {id : Nat} {o : Op} (h : dUsesCtx o (s.job id).desc = false) (gen : BitVec 16)
    (nonce : Option Bytes) : holdCtx s id o gen nonce = s := by
  unfold holdCtx
  exact if_pos (by rw [h]; rfl)

/-- No opcode that creates a key names a context. -/
theorem not_uses_of_creates {o : Op} (h : o.creates = true) (d : Bytes) : dUsesCtx o d = false := by
  cases o <;> first | rfl | cases h

theorem runSlots_congr {s t : State} (h : t.tenants = s.tenants) (c i n : Nat) : runSlots t c i n = runSlots s c i n := by
  have ht : t.tenant c = s.tenant c := by rw [State.tenant, State.tenant, h]
  have hpos : ∀ x, t.slotPos c x = s.slotPos c x := fun x => by rw [State.slotPos, ht, ← State.slotPos]
  simp only [runSlots, hpos]

/-- The job has reserved the run `l`, whose parent is the slot at `pos`. -/
def reserving (v : State) (id c : Nat) (l : List Nat) (kt pol pos origin : Nat) (exposed : Bool) : State :=
  (reserveRun v c l kt pol pos false origin exposed).modJob id fun j => { j with reserved := l }

section

variable {id pos h : Nat} {l : List Nat} {o : Op} {nonce : Option Bytes} {s v : State}

theorem reserving_job (hv : v.Inv) (c kt pol origin : Nat) (exposed : Bool) :
    (reserving v id c (h :: l) kt pol pos origin exposed).job id = { v.job id with reserved := h :: l } :=
  ((SetsJob.refl (id := id) hv).keeps (F := { slots := true })
    (reserveRun_keeps _ _ _ _ _ _ _ _ _ rfl (Keeps.refl _ _)) rfl).modJob (fun j => { j with reserved := h :: l }) |>.job

theorem reserving_inv (hv : v.Inv) (c kt pol origin : Nat) (exposed : Bool) :
    (reserving v id c l kt pol pos origin exposed).Inv :=
  (modJob_keeps (F := { slots := true, jobs := true }) _ _ _ rfl
    (reserveRun_keeps _ _ _ _ _ _ _ _ _ rfl (Keeps.refl _ v))).inv hv

theorem reserving_slot (hv : v.Inv) (c kt pol origin : Nat) (exposed : Bool) (p : Nat) :
    (p ∈ h :: l → ((reserving v id c (h :: l) kt pol pos origin exposed).slot p).state = .reserved) ∧
      (p ∉ h :: l → (reserving v id c (h :: l) kt pol pos origin exposed).slot p = v.slot p) ∧
      (p = h → ((reserving v id c (h :: l) kt pol pos origin exposed).slot p).ktype = kt ∧
        ((reserving v id c (h :: l) kt pol pos origin exposed).slot p).policy = BitVec.ofNat 64 pol ∧
        ((reserving v id c (h :: l) kt pol pos origin exposed).slot p).parent = pos) := by
  obtain ⟨hin, hout⟩ := each_modSlot hv.wf
    (reservedSlot v c (h :: l).head? (h :: l).length kt pol pos false origin exposed) (h :: l) p
  have heq : (reserving v id c (h :: l) kt pol pos origin exposed).slot p =
      (v.each (h :: l) fun s' p => s'.modSlot p
        (reservedSlot v c (h :: l).head? (h :: l).length kt pol pos false origin exposed p)).slot p := rfl
  rw [heq]
  refine ⟨fun hp => ?_, hout, fun hp => ?_⟩
  · obtain ⟨k, hk⟩ := hin hp
    rw [hk, reservedSlot]
    split <;> rfl
  · obtain ⟨k, hk⟩ := hin (hp ▸ List.mem_cons_self)
    rw [hk, reservedSlot, if_pos (by rw [hp]; rfl)]
    exact ⟨rfl, rfl, rfl⟩

theorem finishPull_creates (hbad : (s.slot pos).bad = 0)
    (hwrap : o ≠ .keyWrap) (hcreates : o.creates = true)
    (hissue : reserveIssue s (s.job id).client (kbTarget (s.job id).desc) (kbType (s.job id).desc)
      (kbPolicy (s.job id).desc) pos false (makeIssue o (s.job id).desc) = none)
    (hl : runSlots s (s.job id).client (kbTarget (s.job id).desc) (runOf (kbType (s.job id).desc)) = some (h :: l)) :
    ∃ origin exposed, finishPull s id o pos .clean nonce =
      passFive (reserving (deliver (withNonce s id nonce) id pos) id (s.job id).client (h :: l) (kbType (s.job id).desc)
        (kbPolicy (s.job id).desc) pos origin exposed) id := by
  have hpassed : passed (withNonce s id nonce) id o pos nonce = deliver (withNonce s id nonce) id pos := by
    rw [passed, holdCtx_of_not_uses (not_uses_of_creates hcreates _)]
  have htenants : (deliver (withNonce s id nonce) id pos).tenants = s.tenants :=
    Keeps.tenants_eq (F := { slots := true, jobs := true, freeN := true })
      (deliver_keeps _ _ _ rfl rfl rfl (modJob_keeps _ _ _ rfl (Keeps.refl _ _))) rfl
  have hsame : ∀ c t kt pol p b m, reserveIssue (withNonce s id nonce) c t kt pol p b m =
      reserveIssue s c t kt pol p b m := fun _ _ _ _ _ _ _ => rfl
  refine ⟨(originOf o (kbPolicy (s.job id).desc) ((withNonce s id nonce).slot pos)).1,
    (originOf o (kbPolicy (s.job id).desc) ((withNonce s id nonce).slot pos)).2, ?_⟩
  rw [finishPull_sound hbad hwrap, if_pos hcreates, hsame, hissue]
  dsimp only
  rw [if_pos hcreates, hpassed, runSlots_congr htenants, hl]
  exact rfl

/-- A pull that reserves the run of a new key. -/
theorem finishPull_reserves (hs : s.Inv) (hbad : (s.slot pos).bad = 0) (hvalid : (s.slot pos).state = .valid)
    (hwrap : o ≠ .keyWrap) (hcreates : o.creates = true)
    (hissue : reserveIssue s (s.job id).client (kbTarget (s.job id).desc) (kbType (s.job id).desc)
      (kbPolicy (s.job id).desc) pos false (makeIssue o (s.job id).desc) = none)
    (hl : runSlots s (s.job id).client (kbTarget (s.job id).desc) (runOf (kbType (s.job id).desc)) = some (h :: l))
    {t : State} (ht : finishPull s id o pos .clean nonce = t) :
    (t.job id).reserved = h :: l ∧ (t.job id).refs = [pos] ∧ RunsWith t id (s.slot pos).mat ∧
      (t.slot h).state = .reserved ∧ (t.slot h).ktype = kbType (s.job id).desc ∧
      (t.slot h).policy = BitVec.ofNat 64 (kbPolicy (s.job id).desc) ∧ (t.slot h).parent = pos ∧
      (∀ p ∈ l, (t.slot p).state = .reserved) ∧ (t.slot pos).refs = (s.slot pos).refs + 1 ∧
      ∀ p, p ≠ pos → p ∉ h :: l → t.slot p = s.slot p := by
  have hpos : pos ∉ h :: l := fun hmem => by
    rw [empty_of_reserveIssue hissue hl pos hmem] at hvalid
    cases hvalid
  have hv := deliver_setsJob (withNonce_setsJob (SetsJob.refl (id := id) hs) nonce) pos
  have hslotv : ∀ p, (deliver (withNonce s id nonce) id pos).slot p =
      if p = pos then { s.slot pos with refs := (s.slot pos).refs + 1 } else s.slot p :=
    fun p => deliver_slot (withNonce_setsJob (SetsJob.refl (id := id) hs) nonce).inv id pos p
  obtain ⟨origin, exposed, heq⟩ := finishPull_creates (nonce := nonce) hbad hwrap hcreates hissue hl
  rw [heq] at ht
  generalize deliver (withNonce s id nonce) id pos = v at hv hslotv ht
  generalize hc : (s.job id).client = c at ht
  generalize hkt : kbType (s.job id).desc = kt at ht
  generalize hpol : kbPolicy (s.job id).desc = pol at ht
  have hjob := reserving_job (id := id) (pos := pos) (h := h) (l := l) hv.inv c kt pol origin exposed
  obtain ⟨⟨-, hrefs, hruns⟩, hres, -⟩ := passFive_given (id := id)
    (reserving_inv (id := id) (pos := pos) (l := h :: l) hv.inv c kt pol origin exposed)
  have hslot : ∀ p, t.slot p = (reserving v id c (h :: l) kt pol pos origin exposed).slot p := fun p => by
    rw [← ht, passFive_slot]
  have hsp := reserving_slot (id := id) (pos := pos) (h := h) (l := l) hv.inv c kt pol origin exposed
  rw [ht, hjob, hv.job] at hrefs hruns hres
  obtain ⟨hkind, hpolicy, hparent⟩ := (hsp h).2.2 rfl
  simp only [hslot]
  refine ⟨hres, hrefs, hruns, (hsp h).1 List.mem_cons_self, hkind, hpolicy, hparent,
    fun p hp => (hsp p).1 (List.mem_cons_of_mem _ hp), ?_, fun p hp hpl => ?_⟩
  · rw [(hsp pos).2.1 hpos, hslotv, if_pos rfl]
  · rw [(hsp p).2.1 hpl, hslotv, if_neg hp]

end

/-! ## KEY_WRAP's target -/

/-- The job has the target's material too, and a reference stays on its slot. -/
def targeted (v : State) (id p : Nat) : State :=
  { (takeRef v p).modJob id fun j => { j with
      refs := j.refs ++ [p], wrapMat := (v.slot p).mat
      lane2 := fit (Config.laneShare v.freeN (v.slot p).mat.length) (v.slot p).mat.length } with freeN := v.freeN + 1 }

section

variable {id pos p : Nat} {k : Job} {s v : State}

theorem targeted_setsJob (h : SetsJob id k s v) (p : Nat) :
    SetsJob id { k with
      refs := k.refs ++ [p], wrapMat := (v.slot p).mat
      lane2 := fit (Config.laneShare v.freeN (v.slot p).mat.length) (v.slot p).mat.length } s (targeted v id p) :=
  ((h.keeps (F := { slots := true }) (takeRef_keeps _ _ rfl (Keeps.refl _ _)) rfl).modJob fun j => { j with
    refs := j.refs ++ [p], wrapMat := (v.slot p).mat
    lane2 := fit (Config.laneShare v.freeN (v.slot p).mat.length) (v.slot p).mat.length }).keeps
      (F := { freeN := true }) (Keeps.set_freeN rfl (Keeps.refl _ _)) rfl

theorem pullTarget_of_issue {st : Status} {det : BitVec 8}
    (h : wrapIssue v (v.job id).client (v.job id).desc = some (st, det)) :
    pullTarget v id .clean = fail5 v id st det := by
  unfold pullTarget
  dsimp only
  rw [show ((KeyEcc.clean == .targetTag) = false) from rfl, tagEcc_clean, h]

theorem pullTarget_of_none (h : wrapIssue v (v.job id).client (v.job id).desc = none)
    (hp : v.slotPos (v.job id).client (kbTarget (v.job id).desc) = some p) (hbad : (v.slot p).bad = 0)
    (hroom : (v.slot p).refs ≠ 65535) : pullTarget v id .clean = passFive (targeted v id p) id := by
  unfold pullTarget
  dsimp only
  rw [show ((KeyEcc.clean == .targetTag) = false) from rfl, tagEcc_clean, h, hp]
  dsimp only
  rw [show ((KeyEcc.clean == .targetPayload) = false) from rfl, payloadEcc_clean, if_neg (by rw [hbad]; decide),
    if_neg hroom]
  rfl

theorem withNonce_wrapIssue (s : State) (id : Nat) (nonce : Option Bytes) (c : Nat) (d : Bytes) :
    wrapIssue (withNonce s id nonce) c d = wrapIssue s c d := rfl

/-- The key that is wrapped has been pulled: the job has it, and its target's checks read as before. -/
theorem delivered_target (hs : s.Inv) (id pos : Nat) {v : State} (hv : deliver (withNonce s id none) id pos = v) :
    (∃ m, SetsJob id { s.job id with nonce := none, refs := [pos], keyMat := (s.slot pos).mat, keyShare := m } s v) ∧
      wrapIssue v (v.job id).client (v.job id).desc = wrapIssue s (s.job id).client (s.job id).desc ∧
      v.slotPos (v.job id).client (kbTarget (v.job id).desc) =
        s.slotPos (s.job id).client (kbTarget (s.job id).desc) ∧
      ∀ p, v.slot p = if p = pos then { s.slot pos with refs := (s.slot pos).refs + 1 } else s.slot p := by
  have hw := withNonce_setsJob (SetsJob.refl (id := id) hs) none
  have hset := deliver_setsJob hw pos
  have hmoved := deliver_refsMoved hw.inv id pos
  have hslot := fun p => deliver_slot hw.inv id pos p
  rw [hv] at hset hmoved
  rw [hset.job]
  refine ⟨⟨_, hset⟩, (hmoved.wrapIssue _ _).trans (withNonce_wrapIssue s id none _ _), hmoved.slotPos _ _, fun p => ?_⟩
  rw [← hv]
  exact hslot p

/-- KEY_WRAP with both its keys. -/
theorem wrapped_spec (hs : s.Inv) (hissue : wrapIssue s (s.job id).client (s.job id).desc = none)
    (hp : s.slotPos (s.job id).client (kbTarget (s.job id).desc) = some p) (hbad : (s.slot p).bad = 0)
    (hroom : (s.slot p).refs + (if p = pos then 1 else 0) ≠ 65535) {t : State}
    (ht : pullTarget (deliver (withNonce s id none) id pos) id .clean = t) :
    (t.job id).refs = [pos, p] ∧ RunsWith t id (s.slot pos).mat ∧
      ((t.job id).stage = .run → (t.job id).wrapMat = (s.slot p).mat) ∧
      ∀ k, (t.slot k).refs = (s.slot k).refs + (if k = pos then 1 else 0) + (if k = p then 1 else 0) ∧
        (t.slot k).mat = (s.slot k).mat := by
  obtain ⟨⟨m, hset⟩, hwrap, hpos, hslot⟩ := delivered_target hs id pos rfl
  generalize deliver (withNonce s id none) id pos = v at ht hset hwrap hpos hslot
  have hone : ∀ k, (v.slot k).refs = (s.slot k).refs + (if k = pos then 1 else 0) ∧ (v.slot k).mat = (s.slot k).mat ∧
      (v.slot k).bad = (s.slot k).bad := fun k => by
    rw [hslot]
    split
    next hk => rw [hk]; exact ⟨rfl, rfl, rfl⟩
    next => exact ⟨rfl, rfl, rfl⟩
  rw [pullTarget_of_none (hwrap.trans hissue) (hpos.trans hp) ((hone p).2.2.trans hbad)
    (by rw [(hone p).1]; exact hroom)] at ht
  have htarget := targeted_setsJob hset p
  obtain ⟨⟨-, hrefs, hruns⟩, -, -, hmat⟩ := passFive_given (id := id) htarget.inv
  rw [htarget.job, ht] at hrefs hruns hmat
  refine ⟨hrefs, hruns, fun hrun => (hmat hrun).trans (hone p).2.1, fun k => ?_⟩
  have hk : t.slot k = (takeRef v p).slot k := by rw [← ht, passFive_slot]; rfl
  rw [hk, takeRef_slot hset.inv]
  obtain ⟨hr, hm, -⟩ := hone k
  split
  next hkp => rw [hkp] at hr hm ⊢; exact ⟨congrArg (· + 1) hr, hm⟩
  next => exact ⟨hr, hm⟩

/-- KEY_WRAP whose target fails a check. -/
theorem wrapped_fails {st : Status} {det : BitVec 8} (hs : s.Inv)
    (hissue : wrapIssue s (s.job id).client (s.job id).desc = some (st, det)) {t : State}
    (ht : pullTarget (deliver (withNonce s id none) id pos) id .clean = t) :
    Decided t id st det [] ∧ (t.job id).noComb = true ∧ ∀ k, k ≠ pos → t.slot k = s.slot k := by
  obtain ⟨⟨m, hset⟩, hwrap, -, hslot⟩ := delivered_target hs id pos rfl
  generalize deliver (withNonce s id none) id pos = v at ht hset hwrap hslot
  rw [pullTarget_of_issue (hwrap.trans hissue)] at ht
  obtain ⟨⟨hdec, hcomb, -, hslots⟩, -⟩ := fail5_fails (SetsJob.refl (id := id) hset.inv) rfl st det
  rw [ht] at hdec hcomb hslots
  refine ⟨hdec, hcomb, fun k hk => ?_⟩
  rw [State.slot, hslots, ← State.slot, hslot, if_neg hk]

/-! ## The job that was preempted -/

theorem pullAgain_bad (hbad : (s.slot (s.job id).keyPos).bad ≠ 0) :
    pullAgain s id .clean = fail5 s id stPoison 0 := by
  unfold pullAgain
  dsimp only
  rw [show ((KeyEcc.clean == .tag) = false) from rfl, tagEcc_clean,
    show ((KeyEcc.clean == .payload) = false) from rfl, payloadEcc_clean, if_pos (by simpa using hbad)]

/-- The job has its material again, on the lane of this moment. -/
theorem pullAgain_sound (hs : s.Inv) (hbad : (s.slot (s.job id).keyPos).bad = 0) :
    (∃ m, SetsJob id { s.job id with keyMat := (s.slot (s.job id).keyPos).mat, keyShare := m, stage := .run } s
      (pullAgain s id .clean)) ∧ (pullAgain s id .clean).slots = s.slots := by
  have heq : pullAgain s id .clean =
      { s.modJob id fun j => { j with
          keyMat := (s.slot (s.job id).keyPos).mat
          keyShare := fit (Config.laneShare s.freeN (s.slot (s.job id).keyPos).mat.length)
            (s.slot (s.job id).keyPos).mat.length
          stage := .run } with freeN := s.freeN + 1 } := by
    unfold pullAgain
    dsimp only
    rw [show ((KeyEcc.clean == .tag) = false) from rfl, tagEcc_clean,
      show ((KeyEcc.clean == .payload) = false) from rfl, payloadEcc_clean, if_neg (by simp [hbad])]
  rw [heq]
  exact ⟨⟨_, ((SetsJob.refl (id := id) hs).modJob fun j => { j with
      keyMat := (s.slot (s.job id).keyPos).mat
      keyShare := fit (Config.laneShare s.freeN (s.slot (s.job id).keyPos).mat.length)
        (s.slot (s.job id).keyPos).mat.length
      stage := .run }).keeps (F := { freeN := true }) (Keeps.set_freeN rfl (Keeps.refl _ _)) rfl⟩, rfl⟩

end

/-! ## The whole operation -/

section

variable {id pos : Nat} {o : Op} {ecc : KeyEcc} {s : State}

theorem opKeyPull_of_fail {st : Status} {det : BitVec 8} (hs : Running s) (hjob : s.hasJob id = true)
    (hstage : (s.job id).stage = .key) (hop : dOp (s.job id).desc = some o)
    (hfail : (if (s.job id).preempted then none else
      (ctxFail s (s.job id) o).orElse fun _ => totalFail s (s.job id) o) = some (st, det)) :
    opKeyPull id ecc s = fail5 s id st det := by
  unfold opKeyPull
  dsimp only
  rw [if_neg (by simp [hjob, hstage, hs.kclk]), hop]
  dsimp only
  rw [hfail]

/-- Where context and total pass, or were judged before. -/
theorem opKeyPull_of_pass (hs : Running s) (hjob : s.hasJob id = true) (hstage : (s.job id).stage = .key)
    (hop : dOp (s.job id).desc = some o) (hpass : (if (s.job id).preempted then none else
      (ctxFail s (s.job id) o).orElse fun _ => totalFail s (s.job id) o) = none) :
    opKeyPull id ecc s = if !o.usesKey then passFive (holdCtx s id o 0 none) id
      else if s.ks.zeroising == some .substitution then fail5 s id stOrphaned 0x03
      else if laneShut s then s
      else if (s.job id).preempted then pullAgain (if ecc = .corrected then eccCorrected s none else s) id ecc
      else if (s.job id).refs.isEmpty then
        pullKey (if ecc = .corrected then eccCorrected s none else s) id o ecc
      else pullTarget (if ecc = .corrected then eccCorrected s none else s) id ecc := by
  unfold opKeyPull
  dsimp only
  rw [if_neg (by simp [hjob, hstage, hs.kclk]), hop]
  dsimp only
  rw [hpass]

theorem opKeyPull_of_stage (h : KeyStage s id o) :
    opKeyPull id ecc s = if !o.usesKey then passFive (holdCtx s id o 0 none) id
      else if s.ks.zeroising == some .substitution then fail5 s id stOrphaned 0x03
      else if laneShut s then s
      else if (s.job id).refs.isEmpty then
        pullKey (if ecc = .corrected then eccCorrected s none else s) id o ecc
      else pullTarget (if ecc = .corrected then eccCorrected s none else s) id ecc := by
  obtain ⟨hs, hjob, hstage, hop, hfirst, hctx, htotal⟩ := h
  rw [opKeyPull_of_pass hs hjob hstage hop (by rw [hfirst, hctx, htotal]; rfl), hfirst]
  simp only [Bool.false_eq_true, if_false]

theorem zeroising_of_laneOpen (h : laneShut s = false) : (s.ks.zeroising == some .substitution) = false := by
  unfold laneShut at h
  cases hz : s.ks.zeroising with
  | none => rfl
  | some z => rw [hz] at h; simp at h

theorem opKeyPull_of_again (hs : Running s) (hjob : s.hasJob id = true) (hstage : (s.job id).stage = .key)
    (hop : dOp (s.job id).desc = some o) (hpre : (s.job id).preempted = true) (huses : o.usesKey = true)
    (hopen : laneShut s = false) : opKeyPull id .clean s = pullAgain s id .clean := by
  rw [opKeyPull_of_pass hs hjob hstage hop (by rw [hpre]; rfl), huses, zeroising_of_laneOpen hopen, hopen, hpre]
  rfl

theorem opKeyPull_of_open (h : PullOpen s id o) : opKeyPull id .clean s = pullKey s id o .clean := by
  obtain ⟨hstage, huses, hopen, hrefs⟩ := h
  rw [opKeyPull_of_stage hstage, huses, zeroising_of_laneOpen hopen, hopen, hrefs]
  rfl

theorem pullKey_of_issue {st : Status} {det : BitVec 8}
    (h : pullIssue s (s.job id).client o (s.job id).desc (wantGen s (s.job id) o) = some (st, det)) :
    pullKey s id o .clean = fail5 s id st det := by
  unfold pullKey
  dsimp only
  rw [show ((KeyEcc.clean == .tag) = false) from rfl, tagEcc_clean, h]

/-- The checks of the slot have passed: what is left of the pull. -/
theorem pullKey_of_none
    (h : pullIssue s (s.job id).client o (s.job id).desc (wantGen s (s.job id) o) = none)
    (hpos : s.slotPos (s.job id).client (dKeySlot (s.job id).desc) = some pos) :
    pullKey s id o .clean = if (s.slot pos).refs = 65535 then s
      else match ruleIssue o (s.job id).desc (s.slot pos) (s.ctx (s.job id).client (dCtx (s.job id).desc)).hwNonce with
        | some (st, det) => fail5 s id st det
        | none =>
          if (s.slot pos).pol 13 && buildsNonce o (s.job id).desc && dIvLen (s.job id).desc = 0 then
            match takeNonce s ((s.job id).comb.getD 0) pos with
            | (.exhausted, s) => fail5 s id stExhausted 0x80
            | (.waits, s) => s
            | (.value v, s') => finishPull s' id o pos .clean (some (hwNonce (s.slot pos) v))
          else finishPull s id o pos .clean none := by
  unfold pullKey
  dsimp only
  rw [show ((KeyEcc.clean == .tag) = false) from rfl, tagEcc_clean, h, hpos] <;> rfl

/-- A pull that passes, and builds no hardware nonce. -/
theorem opKeyPull_of_plain (h : PullPasses s id o pos) (hplain : PlainPull s id o pos) :
    opKeyPull id .clean s = finishPull s id o pos .clean none := by
  obtain ⟨hopen, hissue, hpos, hroom, hrule⟩ := h
  rw [opKeyPull_of_open hopen, pullKey_of_none hissue hpos, if_neg hroom, hrule]
  dsimp only
  refine if_neg fun hall => ?_
  simp only [Bool.and_eq_true, decide_eq_true_eq] at hall
  obtain ⟨⟨hpol, hbuilds⟩, hiv⟩ := hall
  rcases hplain with hno | hno | hno
  · rw [hpol] at hno; cases hno
  · rw [hbuilds] at hno; cases hno
  · exact hno hiv

/-- One that builds a hardware nonce. -/
theorem opKeyPull_of_nonce (h : PullPasses s id o pos) (hnonce : ¬ PlainPull s id o pos) {g : NonceGot} {u : State}
    (hgot : takeNonce s ((s.job id).comb.getD 0) pos = (g, u)) :
    (g = .exhausted → opKeyPull id .clean s = fail5 u id stExhausted 0x80) ∧
      (g = .waits → opKeyPull id .clean s = u) ∧
      ∀ v, g = .value v → opKeyPull id .clean s = finishPull u id o pos .clean (some (hwNonce (s.slot pos) v)) := by
  obtain ⟨hopen, hissue, hpos, hroom, hrule⟩ := h
  simp only [PlainPull, not_or, Bool.not_eq_false, not_not] at hnonce
  obtain ⟨hpol, hbuilds, hiv⟩ := hnonce
  rw [opKeyPull_of_open hopen, pullKey_of_none hissue hpos, if_neg hroom, hrule]
  dsimp only
  rw [if_pos (by simp only [hpol, hbuilds, hiv, decide_true, Bool.and_self]), hgot]
  exact ⟨fun hg => by rw [hg], fun hg => by rw [hg], fun v hg => by rw [hg]⟩

/-- An opcode that builds a nonce wraps no key and creates none. -/
theorem not_wraps_of_buildsNonce {o : Op} {d : Bytes} (h : buildsNonce o d = true) :
    o ≠ .keyWrap ∧ o.creates = false := by
  cases o <;> first | exact ⟨by decide, rfl⟩ | cases h

theorem takeNonce_foot (s : State) (comb pos : Nat) :
    Keeps { slots := true, combs := true } s (takeNonce s comb pos).2 :=
  takeNonce_keeps _ _ _ rfl rfl (Keeps.refl _ _)

/-- Of the slots a nonce moves the counter of its own, and asks for a reservation. -/
def CountedAt (pos : Nat) (s u : State) : Prop :=
  ∃ n b, ∀ p, u.slot p = if p = pos then { s.slot pos with next := n, resBusy := b } else s.slot p

theorem CountedAt.of_slots {s u : State} (h : u.slots = s.slots) (pos : Nat) : CountedAt pos s u :=
  ⟨(s.slot pos).next, (s.slot pos).resBusy, fun p => by
    simp only [State.slot, h]
    split
    next hp => rw [hp]
    next => rfl⟩

theorem CountedAt.of_modSlot {s u v : State} {f : KSlot → KSlot} {pos : Nat} (hu : u.Inv) (hs : u.slots = s.slots)
    (hv : v.slots = (u.modSlot pos f).slots) (hf : ∀ k, ∃ n b, f k = { k with next := n, resBusy := b }) :
    CountedAt pos s v := by
  obtain ⟨n, b, hk⟩ := hf (s.slot pos)
  refine ⟨n, b, fun p => ?_⟩
  have hslot : ∀ q, u.slot q = s.slot q := fun q => by rw [State.slot, State.slot, hs]
  have hvp : v.slot p = (u.modSlot pos f).slot p := by rw [State.slot, State.slot, hv]
  rw [hvp]
  split
  next hp => rw [hp, State.modSlot_same hu.wf, hslot, hk]
  next hp => rw [State.modSlot_other _ _ _ _ hp, hslot]

theorem retire_foot (s : State) (comb : Nat) (f : NonceBlock → Bool) : Keeps { combs := true } s (retire s comb f) :=
  retire_keeps _ _ _ rfl (Keeps.refl _ _)

/-- What taking a nonce does to the slots. -/
theorem takeNonce_slots (hs : s.Inv) (comb pos : Nat) :
    ((takeNonce s comb pos).1 = .exhausted → (takeNonce s comb pos).2.slots = s.slots) ∧
      ((takeNonce s comb pos).1 = .waits → ∀ p, (takeNonce s comb pos).2.slot p =
        if p = pos then { s.slot pos with resBusy := true } else s.slot p) ∧
      (∀ v, (takeNonce s comb pos).1 = .value v → CountedAt pos s (takeNonce s comb pos).2) := by
  unfold takeNonce
  dsimp only
  have hr := retire_foot s comb fun b => b.pos == pos && b.gen != s.gen pos
  generalize retire s comb (fun b => b.pos == pos && b.gen != s.gen pos) = u at hr
  have hslots : u.slots = s.slots := (hr.slots_eq rfl)
  split
  · exact ⟨nofun, nofun, fun _ _ => .of_slots hslots pos⟩
  split
  · exact ⟨fun _ => hslots, nofun, nofun⟩
  split
  · refine ⟨nofun, fun _ p => ?_, nofun⟩
    dsimp only
    split
    next hp => rw [hp, State.modSlot_same (hr.inv hs).wf, (hr.slot_eq rfl)]
    next hp => rw [State.modSlot_other _ _ _ _ hp, (hr.slot_eq rfl)]
  · refine ⟨nofun, nofun, fun _ _ => ?_⟩
    have hplain := hr.inv hs
    cases (u.comb comb).nonces with
    | nil => exact .of_modSlot (v := putBlock _ _ _) hplain hslots rfl fun _ => ⟨_, _, rfl⟩
    | cons old rest =>
      dsimp only
      have hretired := retire_foot u comb fun b => b.pos == old.pos
      split
      · exact .of_modSlot (v := putBlock _ _ _) (hretired.inv hplain) ((hretired.slots_eq rfl).trans hslots) rfl fun _ => ⟨_, _, rfl⟩
      · exact .of_modSlot (v := putBlock _ _ _) hplain hslots rfl fun _ => ⟨_, _, rfl⟩

end

/-- The reservation of nonces that a slot has asked for is written. -/
theorem opNonceReservationWriteDone_slot {c i p : Nat} {s : State} (hs : s.Inv) (hmram : mramOn s = true)
    (hp : s.slotPos c i = some p) (hbusy : (s.slot p).resBusy = true) :
    (opNonceReservationWriteDone c i s).slot p =
        { s.slot p with res := (s.slot p).res + resStep s, resBusy := false } ∧
      ∀ k, k ≠ p → (opNonceReservationWriteDone c i s).slot k = s.slot k := by
  have hop : opNonceReservationWriteDone c i s = putRes s c i p := by
    unfold opNonceReservationWriteDone
    rw [hp]
    exact if_pos (by rw [hbusy, hmram]; rfl)
  rw [hop]
  unfold putRes
  dsimp only
  have hwrite : ∀ (u : State) (v k : Nat), (writeRes u c i v).slot k = u.slot k := fun u v k =>
    Keeps.slot_eq (F := { store := true }) (writeRes_keeps _ _ _ _ rfl (Keeps.refl _ _)) (hF := rfl) k
  refine ⟨?_, fun k hk => ?_⟩
  · rw [hwrite, State.modSlot_same hs.wf]
  · rw [hwrite, State.modSlot_other _ _ _ _ hk]

/-- Settles O14: the pull's path through stage 5, with the job and the slots at its end. -/
theorem keyPulls : Obligations.KeyPulls := by
  unfold Obligations.KeyPulls
  refine ⟨fun id ecc o st det s hs hjob hstage hop hfirst hfail => ?_, fun id ecc o s h huses => ?_,
    fun id ecc o s h huses hz => ?_, fun id ecc o s h huses hz hshut => ?_, fun id o st det s h hissue => ?_,
    fun id pos o s h hissue hpos hfull => ?_, fun id pos o st det s h hissue hpos hroom hrule => ?_,
    fun id pos o s h hnonce hgot => ?_, fun id pos o s h hnonce hgot => ?_,
    fun id pos v o s h hnonce hgot hbad => ?_, fun id pos o s h hplain hbad hwrap hcreates => ?_,
    fun id pos o s h hplain hbad => ?_, fun id pos p s h hbad hissue hp hbadp hroom => ?_,
    fun id pos st det s h hbad hissue => ?_, fun id pos o st det s h hplain hbad hwrap hcreates hissue => ?_,
    fun id pos hd l o s h hplain hbad hwrap hcreates hissue hl => ?_,
    fun id o s hs hjob hstage hop hpre huses hopen hbad => ?_,
    fun id o s hs hjob hstage hop hpre huses hopen hbad => ?_, fun c i p s hs hmram hp hbusy => ?_⟩
  · refine .ofOp (t := fail5 s id st det) rfl (opKeyPull_of_fail hs hjob hstage hop ?_)
      (fail5_fails (SetsJob.refl hs.inv) rfl st det)
    rw [hfirst]
    rcases hfail with hctx | ⟨hctx, htotal⟩
    · rw [hctx]; rfl
    · rw [hctx, htotal]; rfl
  · have hs := h.1.inv
    refine .ofOp (t := passFive (holdCtx s id o 0 none) id) rfl
      ((opKeyPull_of_stage h).trans (if_pos (by rw [huses]; rfl))) ?_
    have hold := holdCtx_foot s id o 0 none
    obtain ⟨⟨-, -, hruns⟩, -, hctx, -⟩ := passFive_given (id := id) (hold.inv hs)
    refine ⟨hruns.imp (·.1) fun hdone => hdone, ?_, fun hu => ?_⟩
    · exact (passFive_slots _ id).trans (hold.slots_eq rfl)
    · obtain ⟨b, r, hjob⟩ := holdCtx_job hs id o 0 none
      rw [hjob, if_pos hu] at hctx
      rw [passFive_ctx]
      exact ⟨hctx, holdCtx_ctx hs 0 none hu⟩
  · refine .ofOp (t := fail5 s id stOrphaned 0x03) rfl ((opKeyPull_of_stage h).trans ?_)
      (fail5_fails (SetsJob.refl h.1.inv) rfl _ _)
    rw [huses, hz]
    rfl
  · refine .ofOp (t := s) rfl ((opKeyPull_of_stage h).trans ?_) rfl
    rw [huses, hshut, Bool.not_true, if_neg Bool.false_ne_true, if_neg (by simpa using hz), if_pos rfl]
  · exact .ofOp rfl ((opKeyPull_of_open h).trans (pullKey_of_issue hissue))
      (fail5_fails (SetsJob.refl h.1.1.inv) rfl st det)
  · exact .ofOp (t := s) rfl ((opKeyPull_of_open h).trans ((pullKey_of_none hissue hpos).trans (if_pos hfull))) rfl
  · refine .ofOp rfl ((opKeyPull_of_open h).trans ?_) (fail5_fails (SetsJob.refl h.1.1.inv) rfl st det)
    rw [pullKey_of_none hissue hpos, if_neg hroom, hrule]
  · have hs := h.1.1.1.inv
    obtain ⟨hexhausted, -, -⟩ := opKeyPull_of_nonce (g := (takeNonce s ((s.job id).comb.getD 0) pos).1)
      (u := (takeNonce s ((s.job id).comb.getD 0) pos).2) h hnonce rfl
    exact .ofOp rfl (hexhausted hgot) (fail5_fails ((SetsJob.refl hs).keeps (takeNonce_foot s _ pos) rfl)
      ((takeNonce_slots hs _ pos).1 hgot) _ _).1
  · have hs := h.1.1.1.inv
    obtain ⟨-, hwaits, -⟩ := opKeyPull_of_nonce (g := (takeNonce s ((s.job id).comb.getD 0) pos).1)
      (u := (takeNonce s ((s.job id).comb.getD 0) pos).2) h hnonce rfl
    have hslots := (takeNonce_slots hs ((s.job id).comb.getD 0) pos).2.1 hgot
    refine .ofOp rfl (hwaits hgot) ⟨((takeNonce_foot s _ pos).jobs_eq rfl), ?_, fun p hp => ?_⟩
    · rw [hslots, if_pos rfl]
    · rw [hslots, if_neg hp]
  · have hs := h.1.1.1.inv
    obtain ⟨-, -, hvalue⟩ := opKeyPull_of_nonce (g := (takeNonce s ((s.job id).comb.getD 0) pos).1)
      (u := (takeNonce s ((s.job id).comb.getD 0) pos).2) h hnonce rfl
    obtain ⟨n, b, hslot⟩ := (takeNonce_slots hs ((s.job id).comb.getD 0) pos).2.2 v hgot
    have hfoot := takeNonce_foot s ((s.job id).comb.getD 0) pos
    have hbuilds : buildsNonce o (s.job id).desc = true := by
      simp only [PlainPull, not_or, Bool.not_eq_false] at hnonce
      exact hnonce.2.1
    refine .ofOp rfl (hvalue v hgot) ?_
    generalize (takeNonce s ((s.job id).comb.getD 0) pos).2 = u at hslot hfoot
    have hpos := hslot pos
    rw [if_pos rfl] at hpos
    obtain ⟨hwrap, hcreates⟩ := not_wraps_of_buildsNonce hbuilds
    obtain ⟨⟨hn, hr, hm⟩, hrefs, hmat, hothers⟩ := finishPull_plain (id := id) (o := o)
      (nonce := some (hwNonce (s.slot pos) v)) (hfoot.inv hs) (pos := pos) (by rw [hpos]; exact hbad) hwrap hcreates
    rw [hpos] at hm hrefs hmat
    exact ⟨hn, hr, hm, hrefs, hmat, fun p hp => (hothers p hp).trans ((hslot p).trans (if_neg hp))⟩
  · have hs := h.1.1.1.inv
    obtain ⟨⟨hn, hr, hm⟩, hone⟩ := finishPull_plain (id := id) (o := o) (nonce := none) hs hbad hwrap hcreates
    exact .ofOp rfl (opKeyPull_of_plain h hplain) ⟨hn, hr, hm, hone⟩
  · have hs := h.1.1.1.inv
    exact .ofOp rfl ((opKeyPull_of_plain h hplain).trans (finishPull_bad hbad))
      (fail5_fails (withNonce_setsJob (SetsJob.refl hs) none) rfl _ _).1
  · exact .ofOp rfl ((opKeyPull_of_plain h (.inr (.inl rfl))).trans (finishPull_wrap hbad))
      (wrapped_spec h.1.1.1.inv hissue hp hbadp hroom rfl)
  · exact .ofOp rfl ((opKeyPull_of_plain h (.inr (.inl rfl))).trans (finishPull_wrap hbad))
      (wrapped_fails h.1.1.1.inv hissue rfl)
  · have hs := h.1.1.1.inv
    exact .ofOp rfl ((opKeyPull_of_plain h hplain).trans (finishPull_refused hbad hwrap hcreates hissue))
      (fail5_fails (withNonce_setsJob (SetsJob.refl hs) none) rfl _ _).1
  · have hs := h.1.1.1.inv
    exact .ofOp rfl (opKeyPull_of_plain h hplain)
      (finishPull_reserves hs hbad (valid_of_pullIssue h.2.1 h.2.2.1) hwrap hcreates hissue hl rfl)
  · obtain ⟨⟨m, hset⟩, hslots⟩ := pullAgain_sound (id := id) hs.inv hbad
    refine .ofOp (t := pullAgain s id .clean) rfl (opKeyPull_of_again hs hjob hstage hop hpre huses hopen) ?_
    rw [hset.job]
    exact ⟨rfl, rfl, rfl, hslots, hset.others⟩
  · obtain ⟨⟨hdec, -, -, hslots⟩, hothers⟩ := fail5_fails (SetsJob.refl (id := id) hs.inv) rfl stPoison 0
    exact .ofOp rfl ((opKeyPull_of_again hs hjob hstage hop hpre huses hopen).trans (pullAgain_bad hbad))
      ⟨hdec, hslots, hothers⟩
  · exact .ofClock rfl hs.kclk (opNonceReservationWriteDone_slot hs.inv hmram hp hbusy)

end Sys2Proof.Machine
end

section
/-! SUPPORT. MSI-X messages and the idleness of the link (R339 to R342, R418): the theorem that settles O44. -/

namespace Sys2Proof.Machine

open Host

/-! ## The message of a vector -/

theorem LinkMoved.modFunc {s u : State} (h : LinkMoved s u) (c : Nat) (f : Func → Func) :
    LinkMoved (s.modFunc c f) (u.modFunc c f) := by
  obtain ⟨b, i, d, e, a, l, rfl, hl, hoff⟩ := h
  exact ⟨b, i, d, e, a, l, rfl, hl, hoff⟩

section

variable {s : State} {c v : Nat}

/-- The message goes: the pending bit clears, the next interval begins, nothing else of the function moves. -/
theorem sendVector_of_may (h : mayInterrupt s c v = true) :
    ∃ n : Tbl Imod → Tbl Imod, Emitted
      (s.modFunc c fun f => { f with pba := f.pba &&& ~~~(1#2048 <<< v), imod := n f.imod }) (sendVector s c v)
      [.msi c (tblGet {} (s.func c).msix v).addr (tblGet {} (s.func c).msix v).data] := by
  have heq : sendVector s c v = (State.modFunc (linkActive s) c fun f => { f with
      pba := f.pba &&& ~~~(1#2048 <<< v)
      imod := tblSet {} f.imod v (if 120 * tblGet 0 s.ev.interval c = 0 then {}
        else { next := (linkActive s).hv.tick + 120 * tblGet 0 s.ev.interval c }) }).emit
      [.msi c (tblGet {} (s.func c).msix v).addr (tblGet {} (s.func c).msix v).data] := if_pos h
  rw [heq]
  exact ⟨fun i => tblSet {} i v (if 120 * tblGet 0 s.ev.interval c = 0 then {}
    else { next := (linkActive s).hv.tick + 120 * tblGet 0 s.ev.interval c }),
    ((linkActive_linkMoved s).modFunc c _).emit _ (by simp [isLtr])⟩

theorem sendVector_of_not (h : mayInterrupt s c v = false) :
    sendVector s c v = s.modFunc c fun f => { f with pba := f.pba ||| (1#2048 <<< v) } :=
  if_neg (by rw [h]; exact Bool.false_ne_true)

/-- What sending a vector leaves of its function: everything but its pending bits and its intervals. -/
def FuncKept (c : Nat) (s t : State) : Prop :=
  t.Inv ∧ (t.func c).msix = (s.func c).msix ∧ (t.func c).msixEn = (s.func c).msixEn ∧
    (t.func c).fmask = (s.func c).fmask ∧ (t.func c).due = (s.func c).due

theorem FuncKept.refl (hs : s.Inv) (c : Nat) : FuncKept c s s := ⟨hs, rfl, rfl, rfl, rfl⟩

theorem FuncKept.modFunc {t : State} (h : FuncKept c s t) {f : Func → Func}
    (hf : ∀ x, (f x).msix = x.msix ∧ (f x).msixEn = x.msixEn ∧ (f x).fmask = x.fmask ∧ (f x).due = x.due) :
    FuncKept c s (t.modFunc c f) := by
  obtain ⟨ht, h1, h2, h3, h4⟩ := h
  obtain ⟨g1, g2, g3, g4⟩ := hf (t.func c)
  refine ⟨(modFunc_keeps (F := { fns := true }) _ _ _ rfl (Keeps.refl _ _)).inv ht, ?_⟩
  rw [State.modFunc_same ht.wf]
  exact ⟨g1.trans h1, g2.trans h2, g3.trans h3, g4.trans h4⟩

theorem FuncKept.sendVector {t : State} (h : FuncKept c s t) (v : Nat) : FuncKept c s (sendVector t c v) := by
  by_cases hmay : mayInterrupt t c v = true
  · obtain ⟨n, he⟩ := sendVector_of_may hmay
    obtain ⟨hi, hrest⟩ := h.modFunc (f := fun f => { f with pba := f.pba &&& ~~~(1#2048 <<< v), imod := n f.imod })
      fun _ => ⟨rfl, rfl, rfl, rfl⟩
    refine ⟨he.keeps.inv hi, ?_⟩
    rw [(he.keeps.func_eq rfl)]
    exact hrest
  · rw [sendVector_of_not (Bool.eq_false_iff.mpr hmay)]
    exact h.modFunc fun _ => ⟨rfl, rfl, rfl, rfl⟩

theorem FuncKept.sendPending {t : State} (h : FuncKept c s t) : FuncKept c s (sendPending t c) := by
  refine State.each_induction (P := FuncKept c s) (fun x v _ hx => ?_) h
  unfold sendIfDue
  split
  · exact hx
  split
  · exact hx.modFunc fun _ => ⟨rfl, rfl, rfl, rfl⟩
  · exact hx.sendVector v

end

/-! ## Moderation -/

section

variable {s : State} {c v : Nat}

/-- The vector is no longer due. -/
def undue (s : State) (c v : Nat) : State := s.modFunc c fun f => { f with due := f.due.filter (· != v) }

theorem undue_func (hs : s.Inv) (c v : Nat) :
    (undue s c v).func c = { s.func c with due := (s.func c).due.filter (· != v) } :=
  State.modFunc_same hs.wf c fun f => { f with due := f.due.filter (· != v) }

theorem undue_inv (hs : s.Inv) (c v : Nat) : (undue s c v).Inv :=
  (modFunc_keeps (F := { fns := true }) _ _ _ rfl (Keeps.refl _ _)).inv hs

theorem not_mem_undue (l : List Nat) (v : Nat) : v ∉ l.filter (· != v) := by simp

theorem mayInterrupt_congr {t : State} (hm : (t.func c).msix = (s.func c).msix) (he : (t.func c).msixEn = (s.func c).msixEn)
    (hf : (t.func c).fmask = (s.func c).fmask) (hb : t.busMaster c = s.busMaster c) :
    mayInterrupt t c v = mayInterrupt s c v := by
  simp only [mayInterrupt, hm, he, hf, hb]

theorem undue_mayInterrupt (hs : s.Inv) : mayInterrupt (undue s c v) c v = mayInterrupt s c v := by
  have hf := undue_func hs c v
  exact mayInterrupt_congr (by rw [hf]) (by rw [hf]) (by rw [hf]) (by simp only [State.busMaster, hf])

theorem opMsixMessageSend_of_due (hv : v ∈ (s.func c).due) :
    opMsixMessageSend c v s = if s.hv.tick < (tblGet {} (s.func c).imod v).next then
        (undue s c v).modFunc c fun f =>
          { f with imod := tblSet {} f.imod v { tblGet {} (s.func c).imod v with merged := true } }
      else sendVector (undue s c v) c v := by
  unfold opMsixMessageSend
  dsimp only
  rw [if_neg (by simpa using hv)]
  rfl

/-- A message that leaves from a function shows in nothing but the link. -/
theorem Sends.of_same {u t : State} {l : List Out} (hout : u.out = s.out) (hcore : u.coreOff = s.coreOff)
    (h : Sends u t l) : Sends s t l := by
  obtain ⟨k, hk, hfilter, hoff⟩ := h
  exact ⟨k, by rw [hk, hout], by rw [hfilter, hcore], fun h => hoff (hcore.trans h)⟩

/-- The vector is sent: from the function as `u` has it. -/
theorem sendVector_sends {u : State} (hu : u.Inv) (hmay : mayInterrupt u c v = true) :
    ((sendVector u c v).func c).due = (u.func c).due ∧ ((sendVector u c v).func c).pba.getLsbD v = false ∧
      Sends u (sendVector u c v) [.msi c (tblGet {} (u.func c).msix v).addr (tblGet {} (u.func c).msix v).data] := by
  obtain ⟨n, he⟩ := sendVector_of_may hmay
  have hfunc := State.modFunc_same hu.wf c fun f : Func =>
    { f with pba := f.pba &&& ~~~(1#2048 <<< v), imod := n f.imod }
  rw [(he.keeps.func_eq rfl), hfunc]
  refine ⟨rfl, ?_, Sends.of_same rfl rfl he.sends⟩
  by_cases hv : v < 2048
  · rw [BitVec.getLsbD_and, BitVec.getLsbD_not, shiftLeft_one_getLsbD hv, Bool.not_true, Bool.and_false, Bool.and_false]
  · exact BitVec.getLsbD_of_ge _ _ (Nat.le_of_not_lt hv)

end

theorem Entered.func {s u : State} (h : Entered s u) (c : Nat) : u.func c = s.func c := by
  obtain ⟨p, w, k, a, b, i, d, e, at', l, rfl⟩ := h.eq
  rfl

theorem Entered.fencedVec {s u : State} (h : Entered s u) (c v : Nat) : u.fencedVec c v = s.fencedVec c v := by
  obtain ⟨p, w, k, a, b, i, d, e, at', l, rfl⟩ := h.eq
  rfl

/-- A write of a table entry that the function takes. -/
theorem opMsixMaskWrite_entry {s : State} {c v word : Nat} {x : W32} (hc : isFn c = true) (hready : s.hv.ready = true)
    (hreach : fnReachable s c = true) (hv : v < (s.tenant c).vectors) (hfence : s.fencedVec c v = false) :
    opMsixMaskWrite c (.entry v word x) s =
      sendPending (s.modFunc c fun f => { f with msix := tblSet {} f.msix v ((tblGet {} f.msix v).put word x) }) c := by
  unfold opMsixMaskWrite
  rw [if_neg (by simp [hc, hready])]
  exact if_pos (by simp [hreach, hv, hfence])

/-- A write of the function's own bits that it takes. -/
theorem opMsixMaskWrite_control {s : State} {c : Nat} {en mask : Bool} (hc : isFn c = true) (hready : s.hv.ready = true)
    (hflr : (s.func c).flr = 0) : opMsixMaskWrite c (.control en mask) s =
      sendPending (s.modFunc c fun f => { f with msixEn := en, fmask := mask }) c := by
  unfold opMsixMaskWrite
  rw [if_neg (by simp [hc, hready])]
  exact if_pos hflr

/-- Settles O44: what a message, an interval and a mask write do, from what sending one vector does. -/
theorem vectors : Obligations.Vectors := by
  unfold Obligations.Vectors
  refine ⟨fun c v s hs hv hnext hlt hmay => ?_, fun c v s hs hv hnext hlt hmay => ?_, fun c v s hs hv hnext => ?_,
    fun c v s hs hmerged hnext hmay => ?_, fun c v word x s hs hc hready hreach hv hfence => ?_,
    fun c en mask s hs hc hready hflr => ?_, fun s hs hready hidle hbusy hlong hen hsent => ?_⟩
  · refine .ofClock rfl hs.fclk ?_
    rw [opMsixMessageSend_of_due hv, if_neg (by omega)]
    obtain ⟨hdue, hpba, hsends⟩ := sendVector_sends (undue_inv hs.inv c v) ((undue_mayInterrupt hs.inv).trans hmay)
    rw [undue_func hs.inv] at hdue hsends
    exact ⟨hdue ▸ not_mem_undue _ v, hpba, Sends.of_same rfl rfl hsends⟩
  · refine .ofClock rfl hs.fclk ?_
    rw [opMsixMessageSend_of_due hv, if_neg (by omega), sendVector_of_not ((undue_mayInterrupt hs.inv).trans hmay)]
    have hfunc := State.modFunc_same (undue_inv hs.inv c v).wf c fun f : Func =>
      { f with pba := f.pba ||| (1#2048 <<< v) }
    rw [hfunc, undue_func hs.inv]
    refine ⟨not_mem_undue _ v, ?_, rfl⟩
    rw [BitVec.getLsbD_or, shiftLeft_one_getLsbD hlt, Bool.or_true]
  · refine .ofClock rfl hs.fclk ?_
    rw [opMsixMessageSend_of_due hv, if_pos hnext]
    have hfunc := State.modFunc_same (undue_inv hs.inv c v).wf c fun f : Func =>
      { f with imod := tblSet {} f.imod v { tblGet {} (s.func c).imod v with merged := true } }
    rw [hfunc, undue_func hs.inv]
    refine ⟨not_mem_undue _ v, ?_, rfl⟩
    dsimp only
    rw [tblSet, if_neg (by simp)]
    exact tblGet_put_same _ _ _ _
  · refine .ofClock rfl hs.fclk ?_
    have hop : opModerationIntervalEnd c v s =
        sendVector (s.modFunc c fun f => { f with imod := tblSet {} f.imod v {} }) c v := by
      unfold opModerationIntervalEnd
      dsimp only
      rw [if_neg (by omega), if_pos hmerged]
    have hfunc := State.modFunc_same hs.inv.wf c fun f : Func => { f with imod := tblSet {} f.imod v {} }
    have hinv : (s.modFunc c fun f => { f with imod := tblSet {} f.imod v {} }).Inv :=
      (modFunc_keeps (F := { fns := true }) _ _ _ rfl (Keeps.refl _ _)).inv hs.inv
    rw [hop]
    obtain ⟨-, hpba, hsends⟩ := sendVector_sends (v := v) hinv (by
      rw [← hmay]
      exact mayInterrupt_congr (by rw [hfunc]) (by rw [hfunc]) (by rw [hfunc]) (by simp only [State.busMaster, hfunc]))
    rw [hfunc] at hsends
    exact ⟨hpba, Sends.of_same rfl rfl hsends⟩
  · refine .ofWoken rfl hs ?_
    have hw := wake_entered s (maskCause (.entry v word x))
    rw [opMsixMaskWrite_entry hc (hw.ready.trans hready) ((hw.fnReachable c).trans hreach) (by rw [hw.tenant]; exact hv)
      ((hw.fencedVec c v).trans hfence)]
    have hfunc := State.modFunc_same (hw.inv hs.inv).wf c fun f : Func =>
      { f with msix := tblSet {} f.msix v ((tblGet {} f.msix v).put word x) }
    obtain ⟨-, hmsix, hen, -, -⟩ := (FuncKept.refl ((modFunc_keeps (F := { fns := true }) _ c
      (fun f : Func => { f with msix := tblSet {} f.msix v ((tblGet {} f.msix v).put word x) }) rfl
      (Keeps.refl _ _)).inv (hw.inv hs.inv)) c).sendPending
    rw [hfunc, hw.func] at hmsix hen
    exact ⟨hmsix, hen⟩
  · refine .ofWoken rfl hs ?_
    have hw := wake_entered s (maskCause (.control en mask))
    rw [opMsixMaskWrite_control hc (hw.ready.trans hready) (by rw [hw.func]; exact hflr)]
    have hfunc := State.modFunc_same (hw.inv hs.inv).wf c fun f : Func => { f with msixEn := en, fmask := mask }
    obtain ⟨-, hmsix, hen, hmask, -⟩ := (FuncKept.refl ((modFunc_keeps (F := { fns := true }) _ c
      (fun f : Func => { f with msixEn := en, fmask := mask }) rfl
      (Keeps.refl _ _)).inv (hw.inv hs.inv)) c).sendPending
    rw [hfunc, hw.func] at hmsix hen hmask
    exact ⟨hen, hmask, hmsix⟩
  · refine .ofClock rfl hs.fclk ?_
    have hop : opLinkIdleSignal s = sendLtr { s with hi.idle := true, hi.ltrDue := true } :=
      if_neg (by simp [hready, hidle, hbusy, hlong])
    have hsend : sendLtr { s with hi.idle := true, hi.ltrDue := true } =
        { s with
          hi.idle := true, hi.ltrDue := false, hi.ltrAt := s.hv.tick
          hi.ltrSent := some (ltrValue { s with hi.idle := true, hi.ltrDue := true }) }.emit
          [.ltr (ltrValue { s with hi.idle := true, hi.ltrDue := true })] := by
      unfold sendLtr
      rw [if_neg (by simp), if_neg (by simp [hen, hsent]), if_neg (by simp [hsent])]
    rw [hop, hsend, State.emit_eq]
    refine ⟨rfl, ⟨_, rfl, ?_⟩, rfl⟩
    by_cases hoff : s.coreOff = true
    · rw [SendsOnly, if_pos hoff]
      exact (congrArg (s.out ++ ·) (if_pos hoff)).trans (List.append_nil _)
    · rw [SendsOnly, if_neg hoff]
      exact congrArg (s.out ++ ·) (if_neg hoff)

end Sys2Proof.Machine
end

section
/-! SUPPORT. The commands of a comb's state word (R424 to R426): the theorem that settles O49. -/

namespace Sys2Proof.Machine

open Host

section

variable {s : State} {c : Nat}

/-- A comb whose state word has moved is announced: its GEN counts the change, nothing else of it moves. -/
theorem combSync_spec (hs : s.wf = true) (c : Nat) :
    OtherCombs c s (combSync s c) ∧ ∃ g b, (combSync s c).comb c = { s.comb c with gen := g, before := b } ∧
      (s.combByte c ≠ (s.comb c).before → g = (s.comb c).gen + 1) := by
  unfold combSync
  split
  next hsame => exact ⟨fun _ _ => rfl, (s.comb c).gen, (s.comb c).before, rfl, fun hne => absurd hsame hne⟩
  next =>
    refine ⟨fun d hd => ?_, (s.comb c).gen + 1, s.combByte c, ?_, fun _ => rfl⟩
    · rw [raise_comb, State.modComb_other _ _ _ _ hd]
    · rw [raise_comb, State.modComb_same hs]

/-- A change of a comb's mode from a state word that stood announced. -/
theorem combSync_modComb (hs : s.Inv) (hc : c < combCount) (f : Comb → Comb)
    (hf : (f (s.comb c)).gen = (s.comb c).gen ∧ (f (s.comb c)).before = (s.comb c).before)
    (hmove : (f (s.comb c)).mode + (f (s.comb c)).faultCell.toNat * 16 ≠
      (s.comb c).mode + (s.comb c).faultCell.toNat * 16) :
    OtherCombs c s (combSync (s.modComb c f) c) ∧
      ∃ g b, (combSync (s.modComb c f) c).comb c = { f (s.comb c) with gen := g, before := b } ∧
        ((s.comb c).before = s.combByte c → g = (s.comb c).gen + 1) := by
  have hinv : (s.modComb c f).Inv := (modComb_keeps (F := { combs := true }) _ _ _ rfl (Keeps.refl _ _)).inv hs
  have hsame : (s.modComb c f).comb c = f (s.comb c) := State.modComb_same hs.wf c f
  obtain ⟨hothers, g, b, hcomb, hgen⟩ := combSync_spec hinv.wf c
  rw [hsame] at hcomb hgen
  refine ⟨fun d hd => (hothers d hd).trans (State.modComb_other _ _ _ _ hd), g, b, hcomb, fun hbefore => ?_⟩
  rw [hgen ?_, hf.1]
  rw [hf.2, hbefore]
  have haon : (s.modComb c f).aon = s.aon := rfl
  simp only [State.combByte, hc, if_true, hsame, haon]
  omega

end

/-! ## A command -/

/-- What becomes of a command: 0 it acts, 1 its GEN is stale, 2 it is refused. -/
def combVerdict (s : State) (c op : Nat) (gen : BitVec 16) : Nat :=
  if gen != (s.comb c).gen then 1
  else if op = 1 then (if (s.comb c).mode = 3 || (s.comb c).mode = 5 then 0 else 2)
  else if op = 2 then
    (if (s.comb c).mode = 1 && (List.range combCount).any (fun d => d != c && (s.comb d).mode == 1) then 0 else 2)
  else 2

section

variable {s : State} {c op : Nat} {gen : BitVec 16}

theorem cbWrite_eq (hready : s.hv.ready = true) (hc : c < combCount) (hop : op ≠ 0) :
    cbWrite s c op gen = (combCommand s c op gen).2 :=
  if_neg (by simp [hready, hop, Nat.not_le.mpr hc])

/-- A command that is turned away shows in its result alone. -/
theorem cbWrite_refused (hs : s.wf = true) (hready : s.hv.ready = true) (hc : c < combCount) (hop : op ≠ 0) {r : Nat}
    (hr : combVerdict s c op gen = r) (hne : r ≠ 0) :
    (cbWrite s c op gen).comb c = { s.comb c with cmdResult := r } ∧ OtherCombs c s (cbWrite s c op gen) := by
  have heq : cbWrite s c op gen = s.modComb c fun b => { b with cmdResult := r } := by
    rw [cbWrite_eq hready hc hop]
    subst hr
    exact if_pos (bne_iff_ne.mpr hne)
  rw [heq]
  exact ⟨State.modComb_same hs c fun b => { b with cmdResult := r },
    fun d hd => State.modComb_other _ _ _ _ hd⟩

/-- One that acts changes the mode, and is announced. -/
theorem cbWrite_acts (hs : s.Inv) (hready : s.hv.ready = true) (hc : c < combCount) (hop : op ≠ 0)
    (hr : combVerdict s c op gen = 0) {f : Comb → Comb}
    (hf : f = if op = 1 then fun b => { b with mode := 1, faultCell := 0 } else fun b => { b with mode := 2 })
    (hmove : (f (s.comb c)).mode + (f (s.comb c)).faultCell.toNat * 16 ≠
      (s.comb c).mode + (s.comb c).faultCell.toNat * 16) :
    OtherCombs c s (cbWrite s c op gen) ∧ ∃ g b, (cbWrite s c op gen).comb c =
        { f { s.comb c with cmdResult := 0 } with gen := g, before := b } ∧
      ((s.comb c).before = s.combByte c → g = (s.comb c).gen + 1) := by
  have heq : cbWrite s c op gen = combSync ((s.modComb c fun b => { b with cmdResult := 0 }).modComb c f) c := by
    rw [cbWrite_eq hready hc hop]
    have hacts : (combCommand s c op gen).2 =
        if combVerdict s c op gen != 0 then s.modComb c fun b => { b with cmdResult := combVerdict s c op gen }
        else if op = 1 then combSync ((s.modComb c fun b => { b with cmdResult := combVerdict s c op gen }).modComb c
          fun b => { b with mode := 1, faultCell := 0 }) c
        else combSync ((s.modComb c fun b => { b with cmdResult := combVerdict s c op gen }).modComb c
          fun b => { b with mode := 2 }) c := rfl
    rw [hacts, hr, hf, if_neg (by decide)]
    split <;> rfl
  have hinv : (s.modComb c fun b => { b with cmdResult := 0 }).Inv :=
    (modComb_keeps (F := { combs := true }) _ _ _ rfl (Keeps.refl _ _)).inv hs
  have hsame : (s.modComb c fun b => { b with cmdResult := 0 }).comb c = { s.comb c with cmdResult := 0 } :=
    State.modComb_same hs.wf c fun b => { b with cmdResult := 0 }
  rw [heq]
  obtain ⟨hothers, g, b, hcomb, hgen⟩ := combSync_modComb hinv hc f
    (by rw [hf]; split <;> exact ⟨rfl, rfl⟩)
    (by rw [hsame]; convert hmove using 2 <;> rw [hf] <;> split <;> rfl)
  rw [hsame] at hcomb hgen
  refine ⟨fun d hd => (hothers d hd).trans (State.modComb_other _ _ _ _ hd), g, b, hcomb, fun hbefore => hgen ?_⟩
  rw [hbefore]
  have haon : (s.modComb c fun b => { b with cmdResult := 0 }).aon = s.aon := rfl
  simp only [State.combByte, hsame, haon]

end

/-- `u` has the combs of `s`, and what their state words read from. -/
def SameCombs (s u : State) : Prop := u.combs = s.combs ∧ u.aon = s.aon

theorem SameCombs.comb {s u : State} (h : SameCombs s u) (c : Nat) : u.comb c = s.comb c := by
  rw [State.comb, h.1, State.comb]

theorem SameCombs.combByte {s u : State} (h : SameCombs s u) (c : Nat) : u.combByte c = s.combByte c := by
  simp only [State.combByte, h.comb, h.2]

theorem SameCombs.others {s u t : State} (h : SameCombs s u) {c : Nat} (g : OtherCombs c u t) : OtherCombs c s t :=
  fun d hd => (g d hd).trans (h.comb d)

theorem SameCombs.verdict {s u : State} (h : SameCombs s u) (c op : Nat) (gen : BitVec 16) :
    combVerdict u c op gen = combVerdict s c op gen := by
  simp only [combVerdict, h.comb]

/-- A command from the manager meets an awake Hive with its combs as they were. -/
theorem completes_ofAwakeCombs {i : Instr} {s : State} {k : State → State} {P : State → Prop} (hs : Running s)
    (hup : Up s) (he : exec i s = .next (whenAwake i s k))
    (h : ∀ u : State, u.Inv → u.hv.ready = true → SameCombs s u → P (k u)) : Completes i s P := by
  refine .ofAwake he hs hup.1 ?_
  have hinv : (wake s 1).Inv := ((Keeps.refl { hv := true } s).wake rfl).inv hs.inv
  obtain ⟨a, ha⟩ := wake_awake hup.1 1
  rw [ha] at hinv ⊢
  exact h _ hinv hup.2 ⟨rfl, rfl⟩

/-- A command that is turned away. -/
theorem completes_ofRefused {i : Instr} {s : State} {c op r : Nat} {gen : BitVec 16} (hs : Running s) (hup : Up s)
    (he : exec i s = .next (whenAwake i s fun s => cbWrite s c op gen)) (hc : c < combCount) (hop : op ≠ 0)
    (hr : combVerdict s c op gen = r) (hne : r ≠ 0) :
    Completes i s fun t => t.comb c = { s.comb c with cmdResult := r } ∧ OtherCombs c s t := by
  refine completes_ofAwakeCombs hs hup he fun u hu hready hsame => ?_
  obtain ⟨hcomb, hothers⟩ := cbWrite_refused hu.wf hready hc hop ((hsame.verdict c op gen).trans hr) hne
  rw [hsame.comb] at hcomb
  exact ⟨hcomb, hsame.others hothers⟩

/-- Settles O49: the verdict on a command, and what one that acts does to its comb. -/
theorem combCommands : Obligations.CombCommands := by
  unfold Obligations.CombCommands
  refine ⟨fun c gen s hs hup hc hgen hmode => ?_, fun c d gen s hs hup hc hgen hmode hd hne hon => ?_,
    fun c gen s hs hup hc hgen halone => ?_, fun c gen s hs hup hc hgen h3 h5 => ?_,
    fun c gen s hs hup hc hgen => ⟨?_, ?_⟩, fun c word s hs hup hc hop => ?_, fun c s hs hc hmode huse => ?_⟩
  · refine completes_ofAwakeCombs hs hup rfl fun u hu hready hsame => ?_
    obtain ⟨hothers, g, b, hcomb, hg⟩ := cbWrite_acts (op := 1) (gen := gen) hu hready hc (by decide)
      (by rw [hsame.verdict]; simp [combVerdict, hgen, hmode]) (if_pos rfl).symm
      (by rw [hsame.comb]; rcases hmode with h | h <;> rw [h] <;> simp <;> omega)
    rw [hsame.comb] at hcomb
    rw [hcomb]
    rw [hsame.comb, hsame.combByte, ← hgen] at hg
    exact ⟨rfl, rfl, rfl, hg, hsame.others hothers⟩
  · refine completes_ofAwakeCombs hs hup rfl fun u hu hready hsame => ?_
    have hothers : (List.range combCount).any (fun d => d != c && (s.comb d).mode == 1) = true :=
      List.any_eq_true.mpr ⟨d, List.mem_range.mpr hd, by simp [hne, hon]⟩
    obtain ⟨hothers, g, b, hcomb, hg⟩ := cbWrite_acts (op := 2) (gen := gen) hu hready hc (by decide)
      (by rw [hsame.verdict]; simp [combVerdict, hgen, hmode, hothers]) (if_neg (by decide)).symm
      (by rw [hsame.comb, hmode]; simp)
    rw [hsame.comb] at hcomb
    rw [hcomb]
    rw [hsame.comb, hsame.combByte, ← hgen] at hg
    exact ⟨rfl, rfl, hg, hsame.others hothers⟩
  · refine completes_ofRefused hs hup rfl hc (by decide : (2 : Nat) ≠ 0) ?_ (by decide)
    have hno : (List.range combCount).any (fun d => d != c && (s.comb d).mode == 1) = false :=
      List.any_eq_false.mpr fun d hd hboth => by
        rw [Bool.and_eq_true, bne_iff_ne, beq_iff_eq] at hboth
        exact halone d (List.mem_range.mp hd) hboth.1 hboth.2
    simp [combVerdict, hgen, hno]
  · exact completes_ofRefused hs hup rfl hc (by decide : (1 : Nat) ≠ 0) (by simp [combVerdict, hgen, h3, h5]) (by decide)
  · exact completes_ofRefused hs hup rfl hc (by decide : (1 : Nat) ≠ 0) (by simp [combVerdict, hgen]) (by decide)
  · exact completes_ofRefused hs hup rfl hc (by decide : (2 : Nat) ≠ 0) (by simp [combVerdict, hgen]) (by decide)
  · refine completes_ofRefused hs hup rfl hc (by omega : bits word.toNat 3 0 ≠ 0) ?_ (by split <;> decide)
    rw [combVerdict, if_neg (by omega : ¬ bits word.toNat 3 0 = 1), if_neg (by omega : ¬ bits word.toNat 3 0 = 2)]
    by_cases hgen : BitVec.ofNat 16 (word.toNat / 65536) = (s.comb c).gen <;> simp [hgen]
  · refine .ofClock rfl hs.cclk ?_
    have hop : opCombDrainEnd c s = combSync (s.modComb c fun b => { b with mode := 3 }) c := if_pos (by simp [hmode, huse])
    obtain ⟨hothers, g, b, hcomb, -⟩ := combSync_modComb hs.inv hc (fun b => { b with mode := 3 }) ⟨rfl, rfl⟩
      (by rw [hmode]; simp)
    rw [hop, hcomb]
    exact ⟨rfl, hothers⟩

end Sys2Proof.Machine
end

section
/-! SUPPORT. The event log, the pending bits and the sticky record (R415 to R422): the theorem that settles O48. -/

namespace Sys2Proof.Machine

open Host

/-! ## What a raise leaves of the event log -/

/-- The log, and whether it is in overflow, are as they were. -/
def LogKept (s t : State) : Prop :=
  t.ev.log = s.ev.log ∧ t.ev.mode = s.ev.mode ∧ t.ev.overflow = s.ev.overflow

theorem LogKept.refl (s : State) : LogKept s s := ⟨rfl, rfl, rfl⟩

theorem LogKept.trans {s u t : State} (h : LogKept s u) (g : LogKept u t) : LogKept s t :=
  ⟨g.1.trans h.1, g.2.1.trans h.2.1, g.2.2.trans h.2.2⟩

theorem LogKept.of_ev {s t : State} (h : t.ev = s.ev) : LogKept s t := by
  rw [LogKept, h]
  exact ⟨rfl, rfl, rfl⟩

theorem raise_logKept (s : State) (src : Nat) (info : W32) : LogKept s (raise s src info) := by
  unfold raise
  dsimp only
  generalize hu : (if ((s.route src).log && s.ev.log.cfg.en) = true then _ else _ : State) = u
  have hkept : LogKept s u := by
    rw [← hu]
    split <;> exact ⟨rfl, rfl, rfl⟩
  split
  · exact hkept.trans (.of_ev (signalVec_ev _ _ _))
  · exact hkept

theorem combSync_logKept (s : State) (c : Nat) : LogKept s (combSync s c) := by
  unfold combSync
  split
  · exact LogKept.refl s
  · exact LogKept.trans (u := s.modComb c _) ⟨rfl, rfl, rfl⟩ (raise_logKept _ _ _)

theorem sticky_logKept (s : State) (b : Nat) (info : W32) : LogKept s (sticky s b info) := by
  have hstick : LogKept s (stick s b) := by
    unfold stick
    exact ⟨rfl, rfl, rfl⟩
  unfold sticky
  dsimp only
  split
  · exact (hstick.trans (raise_logKept _ _ _)).trans (combSync_logKept _ _)
  · unfold raiseHive
    exact hstick.trans (raise_logKept _ _ _)

/-! ## A record of the log -/

/-- A log entry that lies in one page is written, and its ring moves on. -/
theorem logTry_page {s : State} {r : LogRing} {b : Bytes} {tgt y x : Nat} {pasid : Option Nat} (hroom : r.full = false)
    (hbm : s.busMaster 0 = true) (hb : patch b 0 (bvLe 4 r.tail) ≠ [])
    (hpage : InPage (r.cfg.base.toNat + r.tail.toNat % 2 ^ r.cfg.size * b.length) (patch b 0 (bvLe 4 r.tail)).length)
    (hw : windowed s 0 (r.cfg.base.toNat + r.tail.toNat % 2 ^ r.cfg.size * b.length)
      (patch b 0 (bvLe 4 r.tail)).length true = some (tgt, y, pasid))
    (hx : xlated s 0 tgt y pasid true = .to x) :
    ∃ t, logTry s 0 r b = (.issued, t, { r with tail := r.tail + 1 }) ∧
      Emitted s t (PageWrites s 0 tgt (r.cfg.base.toNat + r.tail.toNat % 2 ^ r.cfg.size * b.length) x pasid false false
        (patch b 0 (bvLe 4 r.tail))) := by
  obtain ⟨t, ht, hemit⟩ := bodyWrite_page hbm hb hpage hw hx
  refine ⟨t, ?_, hemit⟩
  unfold logTry
  dsimp only
  rw [if_neg (by rw [hroom]; exact Bool.false_ne_true), ht]
  rfl

theorem evBytes_patched_ne_nil (src : Nat) (r : EvRec) (t : W32) :
    patch (evBytes src r false) 0 (bvLe 4 t) ≠ [] := by
  have hne : bvLe 4 t ≠ [] := List.ne_nil_of_length_pos (by rw [bvLe, natLe_length]; decide)
  simp [patch, hne]

/-- The record of a source that has been written is gone, and its vector is signalled behind it. -/
theorem evWrite_of_issued {s t : State} {src : Nat} {r : LogRing}
    (h : logTry s 0 s.ev.log (evBytes src (tblGet {} s.ev.recs src) s.ev.mode) = (.issued, t, r)) :
    (evWrite s src).2 = if (tblGet {} s.ev.recs src).signal then
        signalVec { t with ev.log := r, ev.recs := tblErase t.ev.recs src } 0 (t.route src).vec
      else { t with ev.log := r, ev.recs := tblErase t.ev.recs src } := by
  unfold evWrite
  dsimp only
  rw [h]
  rfl

/-! ## Pending bits -/

theorem resignal_pend (src : Nat) (s : State) : (resignal src s).ev.pend = s.ev.pend := by
  unfold resignal
  dsimp only
  split
  · rfl
  split
  · rfl
  · rw [signalVec_ev]

/-- The bits of one word of a wide record. -/
theorem word_getLsbD {n : Nat} (m : W32) (i j : Nat) (hj : j < n) :
    (m.setWidth n <<< (32 * i)).getLsbD j = if 32 * i ≤ j ∧ j < 32 * i + 32 then m.getLsbD (j - 32 * i) else false := by
  simp only [BitVec.getLsbD_shiftLeft, BitVec.getLsbD_setWidth, hj, decide_true, Bool.true_and]
  split
  next h => simp [Nat.not_lt.mpr h.1]; omega
  next h =>
    rcases Nat.lt_or_ge j (32 * i) with hlt | hge
    · simp [hlt]
    · have : 32 ≤ j - 32 * i := by omega
      rw [BitVec.getLsbD_of_ge _ _ this]
      simp

/-- A write of one clears the bits of its word that `m` names, and no other. -/
theorem clearWord_getLsbD {n w : Nat} (x : BitVec n) (m : W32) (i : Nat) (hn : n = 32 * w) (hi : i < w) :
    (∀ b, b < 32 → (x &&& ~~~(m.setWidth n <<< (32 * i))).getLsbD (32 * i + b) =
      (x.getLsbD (32 * i + b) && !m.getLsbD b)) ∧
    ∀ j, j < 32 * i ∨ 32 * i + 32 ≤ j → (x &&& ~~~(m.setWidth n <<< (32 * i))).getLsbD j = x.getLsbD j := by
  refine ⟨fun b hb => ?_, fun j hj => ?_⟩
  · have hlt : 32 * i + b < n := by omega
    rw [BitVec.getLsbD_and, BitVec.getLsbD_not, word_getLsbD m i _ hlt, if_pos (by omega)]
    simp [hlt]
  · by_cases hlt : j < n
    · rw [BitVec.getLsbD_and, BitVec.getLsbD_not, word_getLsbD m i _ hlt, if_neg (by omega)]
      simp [hlt]
    · rw [BitVec.getLsbD_of_ge _ _ (by omega), BitVec.getLsbD_of_ge _ _ (by omega)]

theorem Entered.presented {s u : State} (h : Entered s u) : u.presented = s.presented := by
  obtain ⟨p, w, k, c, b, i, d, e, a, l, rfl⟩ := h.eq
  rfl

theorem wake_ev (s : State) (n : Nat) : (wake s n).ev = s.ev := by
  obtain ⟨p, w, k, c, h⟩ := wake_eq s n
  rw [h]

theorem wake_aon (s : State) (n : Nat) : (wake s n).aon = s.aon := (wake_entered s n).aon

/-- The combs that a cleared sticky bit announces leave the record. -/
theorem stickyDrop_aon (s : State) (mask : BitVec 256) : (stickyDrop s mask).aon =
    { s.aon with sticky := s.aon.sticky &&& ~~~mask, firstOk := s.aon.firstOk && (s.aon.sticky &&& ~~~mask) != 0 } := by
  unfold stickyDrop
  dsimp only
  refine State.each_induction (P := fun x => x.aon = _) (fun x c _ hx => ?_) rfl
  rw [← hx]
  exact ((combSync_keeps (F := { ev := true, fns := true, tenants := true, combs := true }) _ _ rfl rfl rfl rfl
    (Keeps.refl _ _)).aon_eq rfl)

/-- Settles O48: a log entry that lies in one page, the overflow, and the bits of one word that a write clears. -/
theorem eventLog : Obligations.EventLog := by
  unfold Obligations.EventLog
  refine ⟨fun src tgt a a0 x pasid b s hs hen hcount hmode hroom hbm hb ha0 hpage hw hx => ?_,
    fun src s hs hen hcount hmode hfull => ?_, fun v s hs hpres hmode => ?_, fun i mask raised s hs hpres hi => ?_,
    fun v r s hs hpres hr => ?_, fun i mask s hs hpres hi => ?_⟩
  · subst hb ha0
    refine .ofClock rfl hs.fclk ?_
    obtain ⟨t, htry, hemit⟩ := logTry_page hroom hbm (evBytes_patched_ne_nil _ _ _) hpage hw hx
    have hop : opEventRecordWrite src s = (evWrite s src).2 := by
      unfold opEventRecordWrite
      rw [if_neg (by simpa [hen] using hcount), if_neg (by simp [hmode]), if_neg (by simp [hroom])]
    rw [hop, evWrite_of_issued (by rw [hmode]; exact htry)]
    have hev := (hemit.keeps.ev_eq rfl)
    have hsent : Sends s { t with
        ev.log := { s.ev.log with tail := s.ev.log.tail + 1 }, ev.recs := tblErase t.ev.recs src } _ := hemit.sends
    rw [hev] at hsent
    have hown : ∀ c v u, (signalVec u c v).ev = u.ev ∧ (signalVec u c v).out = u.out := fun c v u =>
      ⟨signalVec_ev u c v, ((signalVec_keeps_signals u c v).out_eq rfl)⟩
    split
    · simp only [(hown _ _ _).1, hev]
      exact ⟨trivial, trivial, hmode, by simpa only [Sends, (hown _ _ _).2] using hsent⟩
    · simp only [hev]
      exact ⟨trivial, trivial, hmode, hsent⟩
  · refine .ofClock rfl hs.fclk ?_
    have hop : opEventRecordWrite src s = sticky { s with ev.mode := true, ev.overflow := true } 104 0 := by
      unfold opEventRecordWrite
      rw [if_neg (by simpa [hen] using hcount), if_neg (by simp [hmode]), if_pos hfull]
    rw [hop]
    obtain ⟨hlog, hm, ho⟩ := sticky_logKept { s with ev.mode := true, ev.overflow := true } 104 0
    refine ⟨hm, ho, congrArg LogRing.tail hlog, ?_, sticky_same _ (by decide) 0⟩
    exact (Keeps.out_eq (F := { aon := true, ev := true, fns := true, tenants := true, combs := true })
      (sticky_keeps _ _ _ rfl rfl rfl rfl rfl (Keeps.refl _ _)) rfl).trans rfl
  · refine .ofWoken rfl hs ?_
    have hev := wake_ev s 1
    have hpresent := (wake_entered s 1).presented.trans hpres
    generalize wake s 1 = u at hev hpresent
    have hreplay : ∀ x : State, x.ev.mode = false → evReplay x 513 = x := fun x hx =>
      if_pos (by rw [hx]; rfl)
    have hop : opEvLogConsWrite v u = { u with ev.log := u.ev.log.consume v } := by
      unfold opEvLogConsWrite
      rw [if_neg (by simp [hpresent])]
      dsimp only
      split
      · exact hreplay _ (by rw [hev]; exact hmode)
      · rfl
    rw [hop, hev]
    rfl
  · refine .ofWoken rfl hs ?_
    have hev := wake_ev s 1
    have hpresent := (wake_entered s 1).presented.trans hpres
    generalize wake s 1 = u at hev hpresent
    have hpend : (opEvPendClear i mask raised u).ev.pend =
        u.ev.pend &&& ~~~((mask &&& ~~~raised).setWidth 512 <<< (32 * i)) := by
      unfold opEvPendClear
      rw [if_neg (by simp [hpresent])]
      exact State.each_induction (P := fun x => x.ev.pend = _) (fun x b _ hx => (resignal_pend _ x).trans hx) rfl
    obtain ⟨hin, hout⟩ := clearWord_getLsbD u.ev.pend (mask &&& ~~~raised) i (w := 16) rfl hi
    rw [hpend, ← hev]
    refine ⟨fun b hb => (hin b hb).trans ?_, hout⟩
    rw [BitVec.getLsbD_and, BitVec.getLsbD_not]
    simp [hb]
  · refine .ofWoken rfl hs ?_
    have hev := wake_ev s 1
    have hw := wake_entered s 1
    have hpresent := hw.presented.trans hpres
    have hinv := hw.inv hs.inv
    have htenant := hw.tenant 0
    generalize wake s 1 = u at hev hpresent hinv htenant
    subst hr
    unfold opEvRouteWrite
    rw [if_neg (by simp [hpresent])]
    dsimp only
    have hroute : u.route u.ev.routeSel = s.route s.ev.routeSel := by rw [State.route, hev, ← State.route]
    split
    next hsig =>
      refine ⟨?_, ?_, fun _ _ _ hvec => signalVec_due ?_ ?_⟩
      · rw [signalVec_ev, hev]
      · rw [signalVec_ev, hev]
      · exact (State.wf_iff _).2 { (State.wf_iff u).1 hinv.wf with }
      · refine lt_of_lt_of_eq hvec (congrArg Tenant.vectors htenant).symm
    next hno =>
      refine ⟨by rw [hev], by rw [hev], fun hen hold hpend _ => absurd ?_ hno⟩
      rw [hroute, hev]
      simp only [hen, hold, hpend]
      rfl
  · refine .ofWoken rfl hs ?_
    have haon := wake_aon s 1
    have hpresent := (wake_entered s 1).presented.trans hpres
    generalize wake s 1 = u at haon hpresent
    have hop : opStickyClear i mask u = stickyDrop u (mask.setWidth 256 <<< (32 * i)) := if_pos hpresent
    obtain ⟨hin, hout⟩ := clearWord_getLsbD s.aon.sticky mask i (w := 8) rfl hi
    rw [hop, stickyDrop_aon, haon]
    refine ⟨hin, hout, fun hzero => ?_⟩
    dsimp only at hzero ⊢
    rw [hzero]
    simp

end Sys2Proof.Machine
end

section
/-! SUPPORT. Function level reset (R338): the theorem that refutes O43. -/

namespace Sys2Proof.Machine

open Host

/-! ## A Hive whose receipt buffer is found full -/

/-- A job whose leaf waits to be assigned. -/
def leafWaits : Job := { client := 1, stage := .leaf, pendingLeaf := true }

/-- `n` such jobs. -/
def leavesWaiting (n : Nat) : Tbl Job := (List.range n).map fun i => (i, leafWaits)

theorem tblWf_sameValue {V : Type} [DecidableEq V] {d v : V} (h : v ≠ d) (n i : Nat) :
    tblWf d ((List.range' i n).map fun k => (k, v)) = true := by
  induction n generalizing i with
  | zero => rfl
  | succ n ih =>
    rw [List.range'_succ, List.map_cons, tblWf_cons]
    refine ⟨h, fun e he => ?_, ih (i + 1)⟩
    obtain ⟨k, hk, rfl⟩ := List.mem_map.mp he
    exact (List.mem_range'_1.mp hk).1

theorem leavesWaiting_wf (n : Nat) : tblWf {} (leavesWaiting n) = true := by
  rw [leavesWaiting, List.range_eq_range']
  exact tblWf_sameValue (by decide) n 0

/-- Which of the jobs a condition picks. -/
theorem jobsWith_leavesWaiting {s : State} {n : Nat} (h : s.jobs = leavesWaiting n) (p : Job → Bool) :
    (s.jobsWith p).length = if p leafWaits then n else 0 := by
  rw [State.jobsWith, h, leavesWaiting]
  cases hp : p leafWaits <;> simp [List.filter_map, Function.comp_def, hp]

/-- A Hive in service with `n` leaves in its buffer of receipts, which has not been found full; the manager is signalled
when it is. -/
def leafBuffer (n : Nat) : State :=
  { hv := { step := 10, ready := true, fclk := true, cclk := true, kclk := true, xclk := true, rootLock := true }
    tenants := [(0, { state := 1, vectors := 1 })]
    ev := { routes := [(263, { en := true })] }
    jobs := leavesWaiting n }

theorem tenantZero_wf : tblWf {} [(0, ({ state := 1, vectors := 1 } : Tenant))] = true := by decide

theorem leafBuffer_running (n : Nat) : Running (leafBuffer n) := by
  refine ⟨⟨(State.wf_iff _).2 ?_, Nat.zero_le 3, Nat.le_refl 10⟩, ⟨rfl, rfl, rfl, rfl⟩, rfl⟩
  exact { fns := rfl, tenants := tenantZero_wf, queues := rfl, rings := rfl, ctxs := rfl,
          slots := rfl, combs := rfl, jobs := leavesWaiting_wf n, mram := rfl,
          reads := rfl, packets := rfl }

section

variable {s : State} {n : Nat}

/-- Where no leaf is taken in, and the buffer is full and was not, its source is raised. -/
theorem refreshPending_of_full (hj : s.jobs = leavesWaiting n) (hn : 16384 ≤ n) (hwas : s.wg.bufFull = false) :
    refreshPending s = raiseHive { s with wg.bufFull := true, wg.pendPeak := max s.wg.pendPeak n } 7 0 := by
  have hnone : s.jobsWith (fun j => j.stage == .leaf && !j.isLeaf && !j.pendingLeaf) = [] :=
    List.eq_nil_of_length_eq_zero (jobsWith_leavesWaiting hj _)
  have hcount : pendingLeaves s none = n := jobsWith_leavesWaiting hj _
  unfold refreshPending
  rw [hnone]
  simp only [State.each, List.foldl_nil, hcount, hn, hwas, decide_true, Bool.not_false, Bool.and_self, if_true]

/-- The manager's vector is due once a routed source is raised for the first time. -/
theorem due_of_raise (hs : s.wf = true) {src : Nat} (hroute : s.route src = { en := true })
    (hpend : s.ev.pend.getLsbD src = false) (hvec : 0 < (s.tenant 0).vectors) (info : W32) :
    ((raise s src info).func 0).due ≠ [] := by
  have heq : raise s src info = signalVec { s with ev.pend := s.ev.pend ||| (1#512 <<< src) } 0 0 := by
    unfold raise
    simp [hroute, hpend]
  rw [heq]
  exact List.ne_nil_of_mem (signalVec_due (s := { s with ev.pend := s.ev.pend ||| (1#512 <<< src) })
    ((State.wf_iff _).2 { (State.wf_iff s).1 hs with }) hvec)

end

theorem leafBuffer_present (n : Nat) : fnPresent (leafBuffer n) 0 = true := by
  have hpresented : (leafBuffer n).presented = true := by
    simp [State.presented, State.released, State.coreOff, leafBuffer]
  simp [fnPresent, isFn, hpresented]

theorem leafBuffer_route (n : Nat) : (leafBuffer n).route 263 = { en := true } := by
  simp [State.route, leafBuffer, tblGet]

/-- What an FLR of PF0 has left where PF0 has no queue and no job, before the leaves are judged anew. -/
def resetZero (s : State) : State :=
  let u := orphanReads (s.modFunc 0 fun f => { f with flr := 1, due := [], d3hot := false }) true fun r => r.client == 0
  { u with
    halves := u.halves.filter fun e => e.1.1 != .fn 0
    latches := u.latches.filter fun e => e.1.1 != .fn 0
    dma.atc := u.dma.atc.filter fun e => e.fn != 0
    dma.asked := u.dma.asked.filter fun e => e.1 != 0 }

theorem startFlr_zero {s : State} {n : Nat} (hq : s.queues = []) (hj : s.jobs = leavesWaiting n) :
    startFlr s 0 = refreshPending (resetZero s) := by
  have hqueues : (s.modFunc 0 fun f => { f with flr := 1, due := [], d3hot := false }).queuesOf 0 = [] := by
    rw [State.queuesOf, show (s.modFunc 0 _).queues = s.queues from rfl, hq]
    rfl
  have hjobs : (s.modFunc 0 fun f => { f with flr := 1, due := [], d3hot := false }).jobsWith
      (fun j => j.client == 0 && j.live) = [] :=
    List.eq_nil_of_length_eq_zero (jobsWith_leavesWaiting (by exact hj) _)
  unfold startFlr
  simp only [hqueues, State.each, List.foldl_nil, hjobs]
  rfl

/-- The buffer is found full when PF0 takes an FLR. -/
theorem flr_leafBuffer {n : Nat} (hn : 16384 ≤ n) :
    ¬ Completes (.flr 0) (leafBuffer n) fun t => ResetBegun 0 (leafBuffer n) t := by
  rintro ⟨t, ht, -, hdue, -⟩
  have hexec : exec (.flr 0) (leafBuffer n) = .next (whenClocked (.flr 0) (leafBuffer n) fun s => opFlr 0 (wake s 6)) :=
    rfl
  rw [hexec, whenClocked_of_clocked rfl] at ht
  obtain rfl := Host.Outcome.next.inj ht
  have hinv : (wake (leafBuffer n) 6).Inv := (wake_entered _ 6).inv (leafBuffer_running n).inv
  obtain ⟨p, w, k, c, hw⟩ := wake_eq (leafBuffer n) 6
  generalize hu : wake (leafBuffer n) 6 = u at hinv hw hdue
  have hreset : (resetZero u).Inv := by
    have hreads : Keeps { fns := true, dma := true } u (orphanReads (u.modFunc 0 fun f =>
        { f with flr := 1, due := [], d3hot := false }) true fun r => r.client == 0) :=
      orphanReads_keeps _ _ _ rfl (modFunc_keeps _ _ _ rfl (Keeps.refl _ _))
    exact hreads.inv hinv
  have hop : opFlr 0 u = refreshPending (resetZero u) := by
    have hpresent : (fnPresent u 0 && decide ((u.func 0).flr = 0)) = true := by
      rw [hw]
      exact (Bool.and_eq_true _ _).mpr ⟨leafBuffer_present n, rfl⟩
    rw [opFlr, if_pos hpresent, startFlr_zero (n := n) (by rw [hw]; rfl) (by rw [hw]; rfl)]
  have hfull := refreshPending_of_full (s := resetZero u) (n := n) (by rw [hw]; rfl) hn (by rw [hw]; rfl)
  rw [hop, hfull] at hdue
  exact due_of_raise (s := { resetZero u with wg.bufFull := true, wg.pendPeak := max (resetZero u).wg.pendPeak n })
    (src := 263) ((State.wf_iff _).2 { (State.wf_iff _).1 hreset.wf with }) (by rw [hw]; exact leafBuffer_route n)
    (by rw [hw]; exact BitVec.getLsbD_zero) (by rw [hw]; exact Nat.zero_lt_one) 0 hdue

/-- Refutes O43: an FLR of PF0 judges the leaves anew that wait for their assignment, and where that finds the buffer of
receipts full the manager's vector is due again, which `ResetBegun` denies. -/
theorem not_functionStates : ¬ Obligations.FunctionStates := by
  intro h
  obtain ⟨-, -, hflr, -⟩ := h
  have hbegins := fun n => hflr 0 (leafBuffer n) (leafBuffer_running n) (leafBuffer_present n) rfl
  exact flr_leafBuffer (le_refl 16384) (hbegins 16384)

end Sys2Proof.Machine
end

section
/-! SUPPORT. The commit of the event log (R419): the theorem that refutes O56. -/

namespace Sys2Proof.Machine

open Host

/-- A Hive in service whose log is in use and leaves it with the next commit. Source 5 stands twice in the table of the
records that wait, which no form is asked of: first with a signal owed and no raise counted, then with three raises. -/
def doubledRecord : State :=
  { hv := { step := 10, ready := true, fclk := true, cclk := true, kclk := true, xclk := true, rootLock := true }
    ev := { log := { cfg := { en := true } }, recs := [(5, { signal := true }), (5, { count := 3 })] } }

theorem doubledRecord_running : Running doubledRecord := by
  unfold Running State.Inv
  decide

/-- What the commit leaves of the count of source 5. -/
theorem doubledRecord_count : (tblGet {} (opEvLogCommit (wake doubledRecord 1)).ev.recs 5).count = 3 := by decide

/-- Refutes O56: the commit that takes the event log out of use drops the record that owes a signal alone, and where the
table holds a second record of that source, its count shows. -/
theorem not_configurationGroups : ¬ Obligations.ConfigurationGroups := by
  intro h
  obtain ⟨-, -, -, -, -, -, -, -, -, -, -, -, hlog⟩ := h
  obtain ⟨t, ht, -, -, hcount, -⟩ := hlog doubledRecord doubledRecord_running (by decide)
  have hop : t = opEvLogCommit (wake doubledRecord 1) := (Host.Outcome.next.inj ht).symm
  have hthree := hcount 5
  rw [hop, doubledRecord_count] at hthree
  exact absurd hthree (by decide)

end Sys2Proof.Machine
end

section
/-! SUPPORT. Register access (R16, R35): the theorem that settles O57. -/

namespace Sys2Proof.Machine

open Host

/-! ## The access -/

/-- Where an access lands does not depend on what a wake cause writes. -/
theorem lands_wake (s : State) (c : Nat) (old : Bool) (a : Access) (n : Nat) :
    lands (wake s c) old a n = lands s old a n := by
  obtain ⟨p, w, k, b, h⟩ := wake_eq s c
  rw [h]
  rfl

/-- The state in which an access acts that finds the Hive awake: its cause is written (R446, R447). -/
def afterCause (s : State) (a : Access) (p : Place) (read : Bool) : State :=
  match causeOf a p read with
  | some c => wake s c
  | none => s

theorem lands_afterCause (s : State) (a : Access) (p : Place) (read old : Bool) (n : Nat) :
    lands (afterCause s a p read) old a n = lands s old a n := by
  unfold afterCause
  split
  · exact lands_wake s _ old a n
  · rfl

theorem afterCause_entered (s : State) (a : Access) (p : Place) (read : Bool) : Entered s (afterCause s a p read) := by
  unfold afterCause
  split
  · exact wake_entered s _
  · exact ⟨id, _, _, _, _, LinkMoved.refl s⟩

/-- The access reaches an awake Hive with its clocks running, and acts. -/
theorem access_of_up {s : State} {i : Instr} {a : Access} {n : Nat} {read : Bool} {k : State → State} {p : Place}
    (hup : s.hv.pwr = 0) (hclk : s.unclocked = false) (hp : (lands s false a n).place = p) :
    access i a n read s k = k (afterCause s a p read) := by
  subst hp
  unfold access afterCause
  dsimp only
  cases hc : causeOf a (lands s false a n).place read with
  | some c =>
    dsimp only
    split
    · exact whenAwakeBy_of_awake hclk hup c i k
    · exact whenClocked_of_clocked hclk i _
  | none =>
    cases a with
    | debug o => exact whenClocked_of_clocked hclk i k
    | config f o => rfl
    | endpoint f b x => rfl
    | fabric r x => rfl

section

variable {s : State} {a : Access} {n : Nat} {p : Place}

theorem atRead_eq (s : State) (a : Access) (p : Place) : atRead s a p = { afterCause s a p true with retry := false } := by
  unfold atRead afterCause
  cases causeOf a p true <;> rfl

theorem atAccess_eq (s : State) (a : Access) (p : Place) (n : Nat) :
    atAccess s a p n = { if p = (.hv, 0x40) ∧ 4 ≤ n then s else afterCause s a p false with retry := false } := by
  unfold atAccess afterCause
  cases causeOf a p false with
  | some c => rfl
  | none => rw [ite_self]

/-- A write that lands in a block of registers acts there. -/
theorem opRegWrite_of_at (h : At s a n p) (hn : okSize n = true) (who : Requester) (data : W64) :
    opRegWrite who a n data s = writeAt (atAccess s a p n) who p n data := by
  obtain ⟨hup, hclk, hlands, hvoid, hcfg, -⟩ := h
  have hwrite : ∀ u : State, lands u false a n = { place := p } →
      opRegisterWrite false who a n data u = writeAt { u with retry := false } who p n data := by
    intro u hu
    unfold opRegisterWrite
    rw [hu]
    obtain ⟨sp, o⟩ := p
    cases sp with
    | void => exact absurd rfl hvoid
    | config f => exact absurd rfl (hcfg f)
    | _ => rfl
  rw [atAccess_eq]
  unfold opRegWrite
  rw [if_neg (by rw [hn]; exact Bool.false_ne_true)]
  have hsleep : toSleep s a n = decide (p = (.hv, 0x40) ∧ 4 ≤ n) := by
    unfold toSleep
    rw [hlands]
    simp [Bool.decide_and, beq_eq_decide]
  rw [hsleep]
  by_cases hs : p = (.hv, 0x40) ∧ 4 ≤ n
  · rw [if_pos (decide_eq_true hs), if_pos hs, hwrite s hlands]
  · rw [if_neg (by rw [decide_eq_false hs]; exact Bool.false_ne_true), if_neg hs,
      access_of_up hup hclk (congrArg Landing.place hlands),
      hwrite _ ((lands_afterCause s a p false false n).trans hlands)]

/-- A write of a word. -/
theorem writeAt_word (hpush : pushPlace p = none) (hp : p.2 % 4 = 0) (u : State) (who : Requester) (data : W64) :
    writeAt u who p 4 data = writeWord (mailActive u p) who p (data.setWidth 32) := by
  have hlo : lo32 data = data.setWidth 32 := BitVec.eq_of_toNat_eq (by simp [lo32, w32])
  unfold writeAt
  rw [hpush]
  dsimp only
  rw [if_neg (by simp [hp])]
  unfold writeWords
  rw [if_neg (by simp), if_neg (by decide), hlo]

theorem opRegWrite_word (h : At s a 4 p) (hp : p.2 % 4 = 0) (who : Requester) (data : W64) :
    opRegWrite who a 4 data s = writeWord (atWrite s a p) who p (data.setWidth 32) := by
  rw [opRegWrite_of_at h rfl, writeAt_word h.2.2.2.2.2 hp, atWrite]

/-- A read that lands in a block of registers. -/
theorem opRegisterRead_of_at (h : At s a 4 p) (who : Requester) :
    opRegisterRead false who a 4 (afterCause s a p true) =
      { (readAt (atRead s a p) who p 4).2 with resp := (readAt (atRead s a p) who p 4).1 } := by
  obtain ⟨-, -, hlands, -, -, -⟩ := h
  rw [opRegisterRead, (lands_afterCause s a p true false 4).trans hlands, atRead_eq]
  rfl

theorem opRcRegisterRead_of_at (h : At s a 4 p) (who : Requester) :
    opRcRegisterRead who a 4 s =
      { (readAt (atRead s a p) who p 4).2 with resp := (readAt (atRead s a p) who p 4).1 } := by
  rw [← opRegisterRead_of_at h]
  exact access_of_up h.1 h.2.1 (congrArg Landing.place h.2.2.1)

theorem opSplitReadLatch_of_at (h : At s a 4 p) (h64 : is64 p = true) (who : Requester) :
    opSplitReadLatch who a s =
      { (readAt (atRead s a p) who p 4).2 with resp := (readAt (atRead s a p) who p 4).1 } := by
  rw [← opRegisterRead_of_at h]
  refine (access_of_up h.1 h.2.1 (congrArg Landing.place h.2.2.1)).trans (if_pos ?_)
  rw [lands_afterCause, h.2.2.1]
  exact h64

/-- A read of a word. -/
theorem readAt_word (hp : p.2 % 4 = 0) (u : State) (who : Requester) :
    readAt u who p 4 = ((readWord u who p).1.setWidth 64, (readWord u who p).2) := by
  have hcount : (p.2 + 4 - 1) / 4 + 1 - p.2 / 4 = 1 := by omega
  have hplace : (p.1, 4 * (p.2 / 4 + 0)) = p := Prod.ext rfl (by dsimp only; omega)
  have hwords : readWords who p.1 ((List.range 1).map fun i => 4 * (p.2 / 4 + i)) u =
      (bvLe 4 (readWord u who p).1 ++ [], (readWord u who p).2) := by
    rw [List.range_one, List.map_singleton, readWords, hplace]
    rfl
  have hvalue : BitVec.ofNat 64 (leAt (bvLe 4 (readWord u who p).1 ++ []) 0 4) = (readWord u who p).1.setWidth 64 := by
    refine BitVec.eq_of_toNat_eq ?_
    have hle : leAt (bvLe 4 (readWord u who p).1 ++ []) 0 4 = (readWord u who p).1.toNat := by
      rw [leAt, slice, List.append_nil, List.drop_zero,
        List.take_of_length_le (by rw [bvLe, natLe_length]), bvLe, leNat_natLe]
      exact Nat.mod_eq_of_lt (BitVec.isLt _)
    rw [hle]
    simp
  unfold readAt
  rw [if_neg (by simp)]
  dsimp only
  rw [hcount, hwords, hp, hvalue]

theorem writeWord_plain (h64 : is64 p = false) (hup : upperOf p = none) (u : State) (who : Requester) (v : W32) :
    writeWord u who p v = writeReg32 u p v := by
  unfold writeWord
  rw [if_neg (by rw [h64]; exact Bool.false_ne_true), hup]

theorem writeWord_low (h64 : is64 p = true) (u : State) (who : Requester) (v : W32) :
    writeWord u who p v = { u with halves := dropHalf u.halves who (regKey p) ++ [((who, regKey p), v)] } := by
  unfold writeWord
  exact if_pos h64

theorem upperOf_upper {sp : Space} {o : Nat} (h64 : is64 (sp, o) = true) : upperOf (sp, o + 4) = some (sp, o) := by
  simp [upperOf, h64]

/-- The upper half completes the write whose lower half the same requester wrote. -/
theorem writeWord_high {sp : Space} {o : Nat} {low : W32} (hlow : is64 (sp, o) = true) (hhigh : is64 (sp, o + 4) = false)
    {u : State} {who : Requester} (hhalf : halfOf u.halves who (regKey (sp, o)) = some low) (v : W32) :
    writeWord u who (sp, o + 4) v = writeReg64 { u with halves := dropHalf u.halves who (regKey (sp, o)) } (sp, o)
      (BitVec.ofNat 64 (low.toNat + v.toNat * 2 ^ 32)) := by
  unfold writeWord
  rw [if_neg (by rw [hhigh]; exact Bool.false_ne_true), upperOf_upper hlow]
  dsimp only
  rw [hhalf]
  rfl

theorem readWord_plain (h64 : is64 p = false) (hup : upperOf p = none) (u : State) (who : Requester) :
    readWord u who p = (regWord u p, readClear u p) := by
  unfold readWord
  dsimp only
  rw [if_neg (by rw [h64]; exact Bool.false_ne_true), hup]

theorem readWord_low (h64 : is64 p = true) (u : State) (who : Requester) :
    readWord u who p = (regWord u p, readClear
      { u with latches := dropHalf u.latches who (regKey p) ++ [((who, regKey p), regWord u (p.1, p.2 + 4))] } p) := by
  unfold readWord
  exact if_pos h64

end

/-! ## What the access leaves as it was -/

/-- A write acts in a state that differs from the one it met in the wake, the link, and what leaves the Hive. -/
theorem atWrite_entered (s : State) (a : Access) (p : Place) : ∃ u, Entered s u ∧ atWrite s a p =
    mailActive { u with retry := false } p := by
  refine ⟨if p = (.hv, 0x40) ∧ 4 ≤ 4 then s else afterCause s a p false, ?_, by rw [atWrite, atAccess_eq]⟩
  split
  · exact ⟨id, _, _, _, _, LinkMoved.refl s⟩
  · exact afterCause_entered s a p false

theorem mailActive_keeps_link (s : State) (p : Place) : Keeps { hi := true, out := true } s (mailActive s p) := by
  unfold mailActive
  split
  · split
    · exact fnActive_keeps _ _ rfl rfl (Keeps.refl _ _)
    · exact Keeps.refl _ _
  · exact Keeps.refl _ _

theorem Entered.halves {s u : State} (h : Entered s u) : u.halves = s.halves := by
  obtain ⟨p, w, k, c, b, i, d, e, a, l, rfl⟩ := h.eq
  rfl

theorem Entered.sch {s u : State} (h : Entered s u) : u.sch = s.sch := by
  obtain ⟨p, w, k, c, b, i, d, e, a, l, rfl⟩ := h.eq
  rfl

theorem atWrite_halves (s : State) (a : Access) (p : Place) : (atWrite s a p).halves = s.halves := by
  obtain ⟨u, hu, heq⟩ := atWrite_entered s a p
  rw [heq, ((mailActive_keeps_link _ p).halves_eq rfl)]
  exact hu.halves

theorem atWrite_sch (s : State) (a : Access) (p : Place) : (atWrite s a p).sch = s.sch := by
  obtain ⟨u, hu, heq⟩ := atWrite_entered s a p
  rw [heq, ((mailActive_keeps_link _ p).sch_eq rfl)]
  exact hu.sch

theorem atAccess_hi (s : State) (a : Access) (p : Place) (n : Nat) : (atAccess s a p n).hi = s.hi := by
  unfold atAccess
  split
  · dsimp only
    split
    · rfl
    · exact wake_hi s _
  · rfl

theorem atRead_latches (s : State) (a : Access) (p : Place) : (atRead s a p).latches = s.latches := by
  unfold atRead
  split
  next c _ => exact Keeps.latches_eq (F := { hv := true }) (t := wake s c) ((Keeps.refl _ s).wake rfl) rfl
  next => rfl

theorem readClear_latches (s : State) (p : Place) : (readClear s p).latches = s.latches :=
  Keeps.latches_eq (F := { store := true, ev := true, hi := true, dma := true, peer := true, sync := true, wg := true
                           ks := true, sch := true, tenants := true, combs := true })
    (readClear_keeps _ _ rfl rfl rfl rfl rfl rfl rfl rfl rfl rfl rfl (Keeps.refl _ _)) rfl

/-- Settles O57: where the access lands it reads or writes words, and a word is a register or half of one. -/
theorem registerAccess : Obligations.RegisterAccess := by
  unfold Obligations.RegisterAccess
  refine ⟨fun who a p data s h hp h64 hup => ?_, fun who a data s h => ?_, fun who a p n data s u h hn hu => ?_,
    fun who a p data s u h hp h64 hu => ?_, fun who a sp o low data s u h ho hlow hhigh hu hhalf => ?_,
    fun who a p s u h hp h64 hup hu => ?_, fun who a p s u h hp h64 hu => ?_⟩
  · exact .ofOp rfl ((opRegWrite_word h hp who data).trans (writeWord_plain h64 hup _ who _)) rfl
  · refine .ofOp rfl ((opRegWrite_word h (by decide) who data).trans (writeWord_plain (by decide) (by decide) _ who _)) ?_
    have hcap : bits (data.setWidth 32).toNat 8 0 = data.toNat % 512 := by
      rw [bits, BitVec.toNat_setWidth]
      omega
    have hwrite : ∀ u : State, writeReg32 u (.sch, 0x10) (data.setWidth 32) =
        { u with sch.shadow := { u.sch.shadow with cap := bits (data.setWidth 32).toNat 8 0 } } := fun _ => rfl
    rw [hwrite, hcap, atWrite_sch]
    exact ⟨rfl, rfl⟩
  · subst hu
    have hpush := h.2.2.2.2.2
    refine .ofOp (t := { atAccess s a p n with
      hi := { (atAccess s a p n).hi with subword := satAdd 0xFFFFFFFF (atAccess s a p n).hi.subword 1 } }) rfl
      ((opRegWrite_of_at h (by rcases hn with rfl | rfl <;> rfl) who data).trans ?_) ?_
    · unfold writeAt
      rw [hpush]
      exact if_pos (by rcases hn with rfl | rfl <;> rfl)
    · rw [atAccess_hi]
  · subst hu
    exact .ofOp rfl ((opRegWrite_word h hp who data).trans (writeWord_low h64 _ who _)) rfl
  · subst hu
    refine .ofOp rfl ((opRegWrite_word h (by dsimp only; omega) who data).trans
      (writeWord_high hlow hhigh (by rw [atWrite_halves]; exact hhalf) _)) ?_
    rw [BitVec.toNat_setWidth]
  · subst hu
    refine .ofOp rfl (opRcRegisterRead_of_at h who) ?_
    rw [readAt_word hp, readWord_plain h64 hup]
  · subst hu
    refine .ofOp rfl (opSplitReadLatch_of_at h h64 who) ?_
    rw [readAt_word hp, readWord_low h64]
    refine ⟨rfl, (readClear_latches _ p).trans ?_⟩
    rw [atRead_latches]

end Sys2Proof.Machine
end

section
/-! SUPPORT. The judgement of fenced ranges (R295, R296): the theorem that refutes O40. -/

namespace Sys2Proof.Machine

open Host

/-- A RESIZE of client 5 to no resource at all. -/
def emptyResize : AdmCfg := { op := 2, client := 5 }

/-- A keeper about to judge the fenced ranges of that RESIZE, where client 5 is ABSENT: the invariant does not tie the
command that runs to the state of its client. -/
def fencedAbsent : State :=
  { hv := { step := 10, ready := true, keeperUp := true, fclk := true, cclk := true, kclk := true, xclk := true,
            rootLock := true }
    aon := { monitor := true }
    adm := { running := some emptyResize, fenced := some emptyResize } }

theorem fencedAbsent_judged : FenceJudged emptyResize fencedAbsent := by
  have hrun : Running fencedAbsent := by
    unfold Running State.Inv
    decide
  have hleaf : ∀ id, mayAssign fencedAbsent id = false := fun id => by
    simp [mayAssign, State.hasJob, fencedAbsent]
  have hbare : BareEdge fencedAbsent := ⟨fun id h => absurd (hleaf id) (by simp [h]), rfl, .inl rfl⟩
  exact ⟨hrun, rfl, by decide, by decide +kernel, ⟨hbare, rfl⟩, rfl, rfl⟩

theorem idleTick_fencedAbsent : ((idleTick fencedAbsent).tenant emptyResize.client).state = 0 := by decide +kernel

/-- Refutes O40: where the RESIZE that is judged changes no count, it leaves the state word of its client as it was, and
that need not be ACTIVE or RESIZING. -/
theorem not_tenantAdministration : ¬ Obligations.TenantAdministration := by
  intro h
  obtain ⟨-, -, -, happlied, -⟩ := h
  obtain ⟨t, ht, -, -, -, -, hstate, -⟩ := happlied emptyResize fencedAbsent fencedAbsent_judged (by decide)
  have hidle : t = idleTick fencedAbsent := (Host.Outcome.next.inj ht).symm
  rw [hidle, idleTick_fencedAbsent] at hstate
  rcases hstate with hone | ⟨htwo, -⟩
  · exact absurd hone (by decide)
  · exact absurd htwo (by decide)

end Sys2Proof.Machine
end

section
/-! SUPPORT. The Hive time (R252 to R257): what a word, its absence, an edge on PPS_IN and an FCLK tick leave of it. The
theorem that settles O37. -/

namespace Sys2Proof.Machine

open Host

/-! ## The sync state -/

section

variable {s : State}

theorem raiseHive_sync (s : State) (n : Nat) (info : W32) : (raiseHive s n info).sync = s.sync :=
  ((raiseHive_signals s n info).sync_eq rfl)

theorem sticky_sync (s : State) (b : Nat) (info : W32) : (sticky s b info).sync = s.sync :=
  ((sticky_signals s b info).sync_eq rfl)

theorem setSync_same {st : Nat} (h : s.sync.state = st) : setSync s st = s := if_pos h

/-- The loop where the sync state becomes `st`: the ADJ of holdover is the integral part once the words are lost. -/
def Sync.become (y : Sync) (st : Nat) : Sync :=
  { y with state := st, adj := if st = 3 ∧ y.lost = true then clampAdj y.integ else y.adj }

def syncChange (s : State) (st : Nat) : State :=
  raiseHive { s with sync := s.sync.become st, wg.syncAll := s.wg.syncAll && st == 2 } 5 0

theorem setSync_eq {st : Nat} (h : s.sync.state ≠ st) :
    setSync s st = noteBound (if st = 4 then sticky (syncChange s st) 97 0 else syncChange s st) := by
  unfold setSync syncChange Sync.become
  rw [if_neg h]
  dsimp only
  by_cases hc : st = 3 ∧ s.sync.lost = true
  · rw [if_pos (c := (decide (st = 3) && s.sync.lost) = true) (by simp [hc]), if_pos hc]
  · rw [if_neg (c := (decide (st = 3) && s.sync.lost) = true) (by simpa using hc), if_neg hc]

theorem syncChange_sync (s : State) (st : Nat) : (syncChange s st).sync = s.sync.become st := raiseHive_sync _ _ _

theorem setSync_sync {st : Nat} (h : s.sync.state ≠ st) : (setSync s st).sync = s.sync.become st := by
  rw [setSync_eq h]
  change State.sync (if st = 4 then _ else _) = _
  split
  · rw [sticky_sync, syncChange_sync]
  · rw [syncChange_sync]

theorem setSync_sync_other {st : Nat} (h3 : st ≠ 3) : (setSync s st).sync = { s.sync with state := st } := by
  by_cases h : s.sync.state = st
  · rw [setSync_same h, ← h]
  · rw [setSync_sync h, Sync.become, if_neg (by simp [h3])]

def syncFoot : Foot :=
  { aon := true, ev := true, sync := true, wg := true, fns := true, tenants := true, combs := true }

theorem setSync_foot (s : State) (st : Nat) : Keeps syncFoot s (setSync s st) :=
  setSync_keeps s st rfl rfl rfl rfl rfl rfl rfl (Keeps.refl _ _)

/-- A sticky bit of the Hive raises its source. -/
theorem sticky_hive {b : Nat} (hb : ¬ b < 64) (s : State) (info : W32) :
    sticky s b info = raiseHive (stick s b) b info := if_neg hb

theorem syncChange_pend (s : State) (st : Nat) : (syncChange s st).ev.pend.getLsbD 261 = true :=
  raise_pend_same _ (by decide) _

/-- A change of the sync state raises source 261. -/
theorem setSync_pend {st : Nat} (h : s.sync.state ≠ st) : (setSync s st).ev.pend.getLsbD 261 = true := by
  have hmarked : (sticky (syncChange s st) 97 0).ev.pend.getLsbD 261 = true := by
    have hstick : (stick (syncChange s st) 97).ev.pend.getLsbD 261 = true := syncChange_pend s st
    rw [sticky_hive (by decide)]
    exact raise_pend_mono hstick (256 + 97) 0
  rw [setSync_eq h]
  split
  · exact hmarked
  · exact syncChange_pend s st

/-- UNSYNC sets its sticky bit, and the epoch is no longer synchronised throughout. -/
theorem setSync_unsync (h : s.sync.state ≠ 4) :
    (setSync s 4).aon.sticky.getLsbD 97 = true ∧ (setSync s 4).wg.syncAll = false := by
  rw [setSync_eq h, if_pos rfl]
  refine ⟨sticky_same _ (by decide) _, ?_⟩
  have hwg : (sticky (syncChange s 4) 97 0).wg.syncAll = false := by
    rw [(sticky_signals _ _ _).wg_eq rfl, syncChange, (raiseHive_signals _ _ _).wg_eq rfl]
    exact Bool.and_false _
  exact hwg

/-- A state that lies within its bound and meets the PPS condition goes on. -/
theorem judgeSync_good (hb : boundOk s = true) (hp : ppsFails s = false) : judgeSync s = s := by
  unfold judgeSync
  rw [if_neg (by simp [hb, hp])]

theorem judgeSync_fails (hst : s.sync.state = 2 ∨ s.sync.state = 3) (h : boundOk s = false ∨ ppsFails s = true) :
    judgeSync s = setSync s 4 := by
  unfold judgeSync
  rw [if_pos (by rcases hst with hst | hst <;> rcases h with h | h <;> simp [hst, h])]

/-- The judgement moves the sync state alone. -/
theorem judgeSync_sync (s : State) : (judgeSync s).sync = { s.sync with state := (judgeSync s).sync.state } := by
  unfold judgeSync
  split
  · rw [setSync_sync_other (by decide)]
  · rfl

theorem setPps_sync (s : State) (st : Nat) : (setPps s st).sync = { s.sync with ppsState := st } := by
  unfold setPps
  split
  next h => rw [← h]
  next => exact raiseHive_sync _ _ _

end

/-! ## Update words -/

section

variable {s : State} {e ps : Int}

/-- Far ahead: the next tick takes the forward step. -/
theorem steer_ahead (h : ((s.sync.cfg.stepNs * 65536 : Nat) : Int) < e) :
    (steer s e ps).2 = true ∧ (steer s e ps).1.sync =
      { s.sync with stepDue := e.toNat, frozen := false, freezeLeft := 0, steps := satAdd 65535 s.sync.steps 1 } := by
  unfold steer
  dsimp only
  rw [if_pos h]
  exact ⟨rfl, rfl⟩

/-- Far behind: the Hive time freezes. -/
theorem steer_behind (h : e < -((s.sync.cfg.stepNs * 65536 : Nat) : Int)) :
    (steer s e ps).2 = true ∧ (steer s e ps).1.sync =
      { s.sync with
        stepDue := 0, frozen := true, freezeLeft := (e.natAbs : Int) * (3 * 10 ^ 12)
        steps := if s.sync.frozen then s.sync.steps else satAdd 65535 s.sync.steps 1 } := by
  unfold steer
  dsimp only
  rw [if_neg (by omega), if_pos h]
  exact ⟨rfl, rfl⟩

/-- Near: the offset feeds the loop. -/
theorem steer_near (hlo : -((s.sync.cfg.stepNs * 65536 : Nat) : Int) ≤ e)
    (hhi : e ≤ ((s.sync.cfg.stepNs * 65536 : Nat) : Int)) (hf : s.sync.frozen = false) :
    (steer s e ps).2 = false ∧ (steer s e ps).1.sync =
      { s.sync with
        integ := s.sync.integ + Int.tdiv (ps * 10 ^ 6) (2 ^ s.sync.cfg.ki)
        adj := clampAdj (Int.tdiv (ps * 10 ^ 6) (2 ^ s.sync.cfg.kp) +
          (s.sync.integ + Int.tdiv (ps * 10 ^ 6) (2 ^ s.sync.cfg.ki)))
        stepDue := 0, frozen := false, freezeLeft := 0 } := by
  unfold steer
  dsimp only
  rw [if_neg (by omega), if_neg (by omega), if_neg (by simp [hf])]
  exact ⟨rfl, rfl⟩

theorem steer_foot (s : State) (e ps : Int) : Keeps syncFoot s (steer s e ps).1 :=
  steer_keeps s e ps rfl rfl (Keeps.refl _ _)

/-- A step or a freeze takes any state but that before the first word to state 1. -/
theorem wordState_moved (s : State) (src : Nat) : (wordState s src true).sync = { s.sync with state := 1 } := by
  unfold wordState
  dsimp only
  split
  · exact setSync_sync_other (by decide)
  split
  · split
    next h => rw [← h]
    next => exact setSync_sync_other (by decide)
  · contradiction

/-- A word before the Hive time is synchronised: it is with the sixteenth good one, within its bound. -/
theorem wordState_syncing (h : s.sync.state = 1) (src : Nat) : wordState s src false =
    if (decide (16 ≤ s.sync.locked) && boundOk s && !ppsFails s) = true then setSync s 2 else s := by
  unfold wordState
  dsimp only
  rw [h, if_neg (by decide), if_neg (by decide), if_neg (by simp), if_neg (by simp)]
  simp only [show ((1 : Nat) != 2) = true from rfl, Bool.true_and]

/-- The offset of a word in 2⁻¹⁶ ns. -/
def wordOffset (s : State) (time : Nat) : Int := (time : Int) - (s.sync.h : Int)

/-- The loop when the word has steered it. -/
def steered (s : State) (time : Nat) : State × Bool :=
  steer (noteBound (noteBound s)) (wordOffset s time) (Int.tdiv (wordOffset s time * 1000) 65536)

/-- A word counts as good for lock. -/
def wordGood (s : State) (time src : Nat) : Bool :=
  src == 3 && decide ((Int.tdiv (wordOffset s time * 1000) 65536).natAbs ≤ s.sync.cfg.lockNs * 1000)

/-- The Hive when the word is taken, before its state is judged. -/
def wordTaken (s : State) (time src est : Nat) : State :=
  { (steered s time).1 with
    sync.eLast := Int.tdiv (wordOffset s time * 1000) 65536, sync.errEst := est
    sync.lastAt := some (steered s time).1.hv.tick, sync.lost := false, sync.src := src
    sync.locked := if wordGood s time src then min 16 ((steered s time).1.sync.locked + 1) else 0
    wg.offMax := max (steered s time).1.wg.offMax
      (min 0xFFFFFFFF (Int.tdiv (wordOffset s time * 1000) 65536).natAbs) }

theorem useWord_eq (h : s.sync.waiting = none) (time src est : Nat) : useWord s time src est =
    noteBound (wordState (wordTaken s time src est) src (steered s time).2) := by
  have happly : applySync (noteBound s) = noteBound s := by
    unfold applySync
    dsimp only [noteBound]
    rw [h]
  unfold useWord
  rw [happly]
  rfl

theorem steered_tick (s : State) (time : Nat) : (steered s time).1.hv.tick = s.hv.tick := by
  rw [steered, ((steer_foot _ _ _).hv_eq rfl)]
  rfl

theorem noteBound_sync (s : State) : (noteBound s).sync = s.sync := rfl

/-- The loop where a used word has left it: what the word itself leaves, beside what it steers. -/
def Sync.withWord (y : Sync) (s : State) (time src est : Nat) : Sync :=
  { y with
    eLast := Int.tdiv (wordOffset s time * 1000) 65536, errEst := est, lastAt := some s.hv.tick, lost := false
    src := src, locked := if wordGood s time src then min 16 (y.locked + 1) else 0 }

theorem wordTaken_sync (s : State) (time src est : Nat) :
    (wordTaken s time src est).sync = (steered s time).1.sync.withWord s time src est := by
  unfold wordTaken Sync.withWord
  rw [steered_tick]

/-- A word that steps or freezes the Hive time takes the state to 1. -/
theorem useWord_moved (h : s.sync.waiting = none) {time : Nat} (hm : (steered s time).2 = true) (src est : Nat) :
    (useWord s time src est).sync = { (steered s time).1.sync.withWord s time src est with state := 1 } := by
  rw [useWord_eq h, hm, ← wordTaken_sync]
  exact wordState_moved _ _

/-- A word that feeds the loop before the Hive time is synchronised. -/
theorem useWord_syncing (h : s.sync.waiting = none) {time : Nat} (hm : (steered s time).2 = false)
    (hst : (steered s time).1.sync.state = 1) (src est : Nat) : useWord s time src est =
      noteBound (if (decide (16 ≤ (wordTaken s time src est).sync.locked) && boundOk (wordTaken s time src est)
          && !ppsFails (wordTaken s time src est)) = true then setSync (wordTaken s time src est) 2
        else wordTaken s time src est) := by
  have hone : (wordTaken s time src est).sync.state = 1 := by rw [wordTaken_sync]; exact hst
  rw [useWord_eq h, hm, wordState_syncing hone]

theorem useWord_syncing_loop (h : s.sync.waiting = none) {time : Nat} (hm : (steered s time).2 = false)
    (hst : (steered s time).1.sync.state = 1) (src est : Nat) : (useWord s time src est).sync =
      { (steered s time).1.sync.withWord s time src est with state := (useWord s time src est).sync.state } := by
  rw [useWord_syncing h hm hst, ← wordTaken_sync, noteBound_sync]
  split
  · rw [setSync_sync_other (by decide)]
  · rfl

theorem useWord_foot (s : State) (time src est : Nat) : Keeps syncFoot s (useWord s time src est) :=
  useWord_keeps s time src est rfl rfl rfl rfl rfl rfl rfl (Keeps.refl _ _)

/-- What a used word notes of its sequence number. -/
def noteSeq (s : State) (q : Option (BitVec 8)) (n : Nat) : State :=
  { s with sync.seq := q, sync.seqErr := n }

theorem opTodWord_used {w : BitVec 128} (h : WordUsed s w) :
    ∃ q n, opTodWord w s = useWord (noteSeq s q n) (todTime w) (todSrc w) (todEst w) := by
  obtain ⟨hs, hstep, hlow, hhigh, hsrc, -⟩ := h
  have hon : (!s.hv.fclk || decide (s.hv.step < 9)) = false := by simp [hs.fclk, hstep]
  have hok : (bits w.toNat 87 82 != 0 || bits w.toNat 127 112 != 0 || decide (bits w.toNat 81 80 ≤ 1)) = false := by
    have hgt : 1 < bits w.toNat 81 80 := hsrc
    rw [hlow, hhigh, decide_eq_false (Nat.not_le.2 hgt)]
    rfl
  unfold opTodWord
  dsimp only
  rw [if_neg (by rw [hon]; decide), hok, if_neg Bool.false_ne_true, Bool.false_or]
  split
  · split
    · exact ⟨some (BitVec.ofNat 8 (bits w.toNat 111 104)), satAdd 65535 s.sync.seqErr 1, rfl⟩
    · exact ⟨some (BitVec.ofNat 8 (bits w.toNat 111 104)), s.sync.seqErr, rfl⟩
  · exact ⟨some (BitVec.ofNat 8 (bits w.toNat 111 104)), s.sync.seqErr, rfl⟩

end

/-! ## FCLK ticks -/

section

variable {s : State}

/-- What does not stop FCLK and does not move the step of start-up. -/
def SameBeat (s t : State) : Prop := t.hv.step = s.hv.step ∧ t.hv.fclk = s.hv.fclk

theorem SameBeat.of_hv {t : State} (h : t.hv = s.hv) : SameBeat s t := by rw [SameBeat, h]; exact ⟨rfl, rfl⟩

theorem SameBeat.trans {u t : State} (h : SameBeat s u) (g : SameBeat u t) : SameBeat s t :=
  ⟨g.1.trans h.1, g.2.trans h.2⟩

theorem wake_sameBeat (s : State) (n : Nat) : SameBeat s (wake s n) := by
  obtain ⟨p, w, k, c, h⟩ := wake_eq s n
  rw [h]
  exact ⟨rfl, rfl⟩

def restFoot : Foot :=
  { ev := true, hi := true, dma := true, peer := true, wg := true, ks := true, fns := true, tenants := true
    queues := true, ctxs := true, slots := true, combs := true, jobs := true, out := true, freeN := true
    lc := true, aon := true }

/-- The record of a response in the always-on domain (R406). -/
def tamperNoted (s : State) : State :=
  { s with aon := { s.aon with
      count := satAdd 65535 s.aon.count 1, lastAt := s.aon.cycles, lastSrc := s.live, responding := true
      tampered := true } }

/-- A response before the Hive is released marks the start-up. -/
def tamperStart (s : State) : State := if s.released then s else { s with hv.tampered := true }

/-- A response ends sleep, or abandons its entry (R447). -/
def tamperWake (s : State) : State :=
  if s.hv.pwr = 1 && !entersNow s then { s with hv.pwr := 0, hv.wakeNext := 0 } else wake s 5

/-- The response before the key store's part. -/
def tamperBegun (s : State) : State := endReopening (tamperWake (sticky (tamperStart (tamperNoted s)) 87 0))

theorem tamperResponse_eq (s : State) : tamperResponse s =
    zeroRest (zeroMark (tamperBegun s) .tamper ((tamperBegun s).ks.erasePersist && (tamperBegun s).released)) := rfl

theorem tamperStart_sameBeat (s : State) : SameBeat s (tamperStart s) := by
  unfold tamperStart
  split <;> exact ⟨rfl, rfl⟩

theorem tamperWake_sameBeat (s : State) : SameBeat s (tamperWake s) := by
  unfold tamperWake
  split
  · exact ⟨rfl, rfl⟩
  · exact wake_sameBeat s 5

theorem tamperBegun_sameBeat (s : State) : SameBeat s (tamperBegun s) := by
  have hstart : SameBeat s (tamperStart (tamperNoted s)) :=
    (show SameBeat s (tamperNoted s) from ⟨rfl, rfl⟩).trans (tamperStart_sameBeat _)
  have hsticky : SameBeat s (sticky (tamperStart (tamperNoted s)) 87 0) :=
    hstart.trans (.of_hv ((sticky_signals _ _ _).hv_eq rfl))
  have hend : Keeps restFoot (tamperWake (sticky (tamperStart (tamperNoted s)) 87 0)) (tamperBegun s) :=
    endReopening_keeps _ rfl rfl rfl rfl (Keeps.refl _ _)
  exact (hsticky.trans (tamperWake_sameBeat _)).trans (.of_hv (hend.hv_eq rfl))

theorem tamperResponse_sameBeat (s : State) : SameBeat s (tamperResponse s) := by
  have hrest : Keeps restFoot (tamperBegun s) (tamperResponse s) := by
    rw [tamperResponse_eq]
    exact zeroRest_keeps _ rfl rfl rfl rfl rfl rfl rfl rfl rfl rfl rfl rfl rfl rfl rfl
      (zeroMark_keeps _ _ _ rfl rfl (Keeps.refl _ _))
  exact (tamperBegun_sameBeat s).trans (.of_hv (hrest.hv_eq rfl))

/-- A source has tripped: its latch and its sticky bit. -/
def tripNoted (s : State) (src : Nat) : State :=
  sticky { s with aon.latch := s.aon.latch ||| (1#7 <<< src) } (80 + src) 0

theorem trip_eq (s : State) (src : Nat) : trip s src =
    if (decide (4 ≤ src) || s.aon.arm.getLsbD src) = true then tamperResponse (tripNoted s src)
    else tripNoted s src := rfl

theorem tripNoted_sameBeat (s : State) (src : Nat) : SameBeat s (tripNoted s src) :=
  .of_hv ((sticky_keeps (F := syncFoot) _ _ _ rfl rfl rfl rfl rfl
    (Keeps.set_aon (F := syncFoot) rfl (Keeps.refl _ s))).hv_eq rfl)

theorem trip_sameBeat (s : State) (src : Nat) : SameBeat s (trip s src) := by
  rw [trip_eq]
  split
  · exact (tripNoted_sameBeat s src).trans (tamperResponse_sameBeat _)
  · exact tripNoted_sameBeat s src

theorem armMonitor_sameBeat (s : State) : SameBeat s (armMonitor s) := by
  have hset : SameBeat s { s with aon.monitor := true } := ⟨rfl, rfl⟩
  unfold armMonitor
  split
  · exact ⟨rfl, rfl⟩
  · dsimp only
    split
    · exact hset.trans (trip_sameBeat _ 4)
    · exact hset

theorem armTick_sameBeat (s : State) : SameBeat s (armTick s) := by
  unfold armTick
  split
  · split
    · exact armMonitor_sameBeat s
    · exact ⟨rfl, rfl⟩
  · exact ⟨rfl, rfl⟩

theorem fclkTick_sync (s : State) :
    (fclkTick s).sync = if s.hv.step < 9 then s.sync else syncTick s.sync := by
  have hedge : Keeps { hi := true, doe := true, peer := true, out := true } s
      (xoffEdge (answerQueueCmds (linkTick s))) :=
    xoffEdge_keeps _ rfl (answerQueueCmds_keeps _ rfl rfl (linkTick_keeps _ rfl rfl (Keeps.refl _ _)))
  unfold fclkTick
  dsimp only
  rw [(hedge.hv_eq rfl), (hedge.sync_eq rfl)]

/-- What the edge's other work leaves of the loop and of the clocks. -/
def edgeFoot : Foot :=
  { aon := true, ev := true, hi := true, dma := true, peer := true, wg := true, fns := true, tenants := true
    combs := true, out := true, jobs := true, adm := true, queues := true, freeN := true }

theorem edgeWork_foot (s : State) : Keeps edgeFoot (judgeEdge (enterAgain s)) (edgeWork s) := by
  unfold edgeWork
  exact fenceCheck_keeps _ rfl rfl rfl rfl rfl rfl rfl rfl rfl (ckptMissed_keeps _ rfl
    (assignDue_keeps _ _ rfl rfl rfl rfl rfl rfl rfl rfl rfl rfl rfl (opEpochClose_keeps _ _ _ rfl rfl rfl rfl rfl rfl
      rfl rfl rfl rfl (Keeps.refl _ _))))

def armFoot : Foot :=
  { hv := true, aon := true, ev := true, hi := true, dma := true, lc := true, peer := true, wg := true, ks := true
    fns := true, tenants := true, queues := true, ctxs := true, slots := true, combs := true, jobs := true
    out := true, freeN := true, otp := true }

theorem judgeEdge_foot (s : State) : Keeps syncFoot s (judgeEdge s) :=
  judgeEdge_keeps s rfl rfl rfl rfl rfl rfl rfl (Keeps.refl _ _)

theorem enterAgain_sameBeat (s : State) : SameBeat s (enterAgain s) := by
  unfold enterAgain judgeEnter
  dsimp only
  split
  · split <;> exact ⟨rfl, rfl⟩
  · exact ⟨rfl, rfl⟩

theorem edgeWork_sameBeat (s : State) : SameBeat s (edgeWork s) :=
  ((enterAgain_sameBeat s).trans (.of_hv ((judgeEdge_foot _).hv_eq rfl))).trans (.of_hv ((edgeWork_foot s).hv_eq rfl))

/-- The Hive when a tick has counted, and FCLK has yet to move. -/
def tickCounted (s : State) : State := otpTick (armTick (countTick (edgeWork s)))

theorem idleTick_eq (s : State) : idleTick s = onClock (tickCounted s).hv.fclk (tickCounted s) fclkTick := by
  unfold idleTick
  rfl

theorem otpTick_foot (s : State) : Keeps { otp := true, lc := true } s (otpTick s) :=
  otpTick_keeps _ rfl rfl (Keeps.refl _ _)

theorem countTick_sameBeat (s : State) : SameBeat s (countTick s) := ⟨rfl, rfl⟩

theorem tickCounted_sameBeat (s : State) : SameBeat s (tickCounted s) :=
  (((edgeWork_sameBeat s).trans (countTick_sameBeat _)).trans (armTick_sameBeat _)).trans (.of_hv ((otpTick_foot _).hv_eq rfl))

theorem tickCounted_sync (s : State) : (tickCounted s).sync = (judgeEdge (enterAgain s)).sync := by
  have harm : Keeps armFoot (edgeWork s) (armTick (countTick (edgeWork s))) :=
    armTick_keeps _ rfl rfl rfl rfl rfl rfl rfl rfl rfl rfl rfl rfl rfl rfl rfl rfl rfl rfl
      (countTick_keeps _ rfl rfl (Keeps.refl _ _))
  rw [tickCounted, ((otpTick_foot _).sync_eq rfl), (harm.sync_eq rfl), ((edgeWork_foot s).sync_eq rfl)]

/-- A tick takes the Hive time on from what the judgement of an edge has left (R34). -/
theorem idleTick_sync (h : s.hv.fclk = true) : (idleTick s).sync =
    if s.hv.step < 9 then (judgeEdge (enterAgain s)).sync else syncTick (judgeEdge (enterAgain s)).sync := by
  obtain ⟨hstep, hfclk⟩ := tickCounted_sameBeat s
  rw [idleTick_eq, onClock_true (hfclk.trans h), fclkTick_sync, hstep, tickCounted_sync]

end

/-! ## The words of O37 -/

section

variable {s : State} {w : BitVec 128}

/-- A word that is used acts as `useWord` does, but for the sequence number. -/
theorem completes_ofWord (h : WordUsed s w) {P : State → Prop}
    (hP : ∀ q n, P (useWord (noteSeq s q n) (todTime w) (todSrc w) (todEst w))) : Completes (.todWord w) s P := by
  obtain ⟨q, n, heq⟩ := opTodWord_used h
  exact Completes.ofOp rfl heq (hP q n)

theorem todWord_ahead (h : WordUsed s w) (hfar : s.sync.h + s.sync.cfg.stepNs * 65536 < todTime w) :
    Completes (.todWord w) s fun t =>
      t.sync.h = s.sync.h ∧ t.sync.h + t.sync.stepDue = todTime w ∧ t.sync.steps = satAdd 65535 s.sync.steps 1 ∧
      t.sync.frozen = false ∧ t.sync.state = 1 ∧ t.sync.eLast = todPs s w ∧ t.sync.adj = s.sync.adj ∧ t.jobs = s.jobs := by
  refine completes_ofWord h fun q n => ?_
  have hjobs : (useWord (noteSeq s q n) (todTime w) (todSrc w) (todEst w)).jobs = s.jobs :=
    ((useWord_foot (noteSeq s q n) _ _ _).jobs_eq rfl)
  have hlim : (((noteBound (noteBound (noteSeq s q n))).sync.cfg.stepNs * 65536 : Nat) : Int) <
      wordOffset (noteSeq s q n) (todTime w) := by
    change ((s.sync.cfg.stepNs * 65536 : Nat) : Int) < (todTime w : Int) - (s.sync.h : Int)
    omega
  obtain ⟨hmoved, hsync⟩ := steer_ahead (ps := Int.tdiv (wordOffset (noteSeq s q n) (todTime w) * 1000) 65536) hlim
  have hloop := useWord_moved (s := noteSeq s q n) h.2.2.2.2.2 hmoved (todSrc w) (todEst w)
  rw [steered, hsync] at hloop
  refine ⟨by rw [hloop]; rfl, ?_, by rw [hloop]; rfl, by rw [hloop]; rfl, by rw [hloop], by rw [hloop]; rfl,
    by rw [hloop]; rfl, hjobs⟩
  rw [hloop]
  change s.sync.h + ((todTime w : Int) - (s.sync.h : Int)).toNat = todTime w
  omega

theorem todWord_behind (h : WordUsed s w) (hfar : todTime w + s.sync.cfg.stepNs * 65536 < s.sync.h) :
    Completes (.todWord w) s fun t =>
      t.sync.h = s.sync.h ∧ t.sync.frozen = true ∧ t.sync.state = 1 ∧
      t.sync.freezeLeft = ((s.sync.h - todTime w : Nat) : Int) * (3 * 10 ^ 12) ∧
      (s.sync.frozen = false → t.sync.steps = satAdd 65535 s.sync.steps 1) := by
  refine completes_ofWord h fun q n => ?_
  have hlim : wordOffset (noteSeq s q n) (todTime w) <
      -(((noteBound (noteBound (noteSeq s q n))).sync.cfg.stepNs * 65536 : Nat) : Int) := by
    change (todTime w : Int) - (s.sync.h : Int) < -((s.sync.cfg.stepNs * 65536 : Nat) : Int)
    omega
  obtain ⟨hmoved, hsync⟩ := steer_behind (ps := Int.tdiv (wordOffset (noteSeq s q n) (todTime w) * 1000) 65536) hlim
  have hloop := useWord_moved (s := noteSeq s q n) h.2.2.2.2.2 hmoved (todSrc w) (todEst w)
  rw [steered, hsync] at hloop
  have habs : (wordOffset (noteSeq s q n) (todTime w)).natAbs = s.sync.h - todTime w := by
    change ((todTime w : Int) - (s.sync.h : Int)).natAbs = _
    omega
  refine ⟨by rw [hloop]; rfl, by rw [hloop]; rfl, by rw [hloop], ?_, fun hf => ?_⟩
  · rw [hloop, ← habs]
    rfl
  · rw [hloop]
    exact if_neg (by rw [show (noteBound (noteBound (noteSeq s q n))).sync.frozen = s.sync.frozen from rfl, hf]; decide)

/-- A word near the Hive time. -/
def WordNear (s : State) (w : BitVec 128) : Prop :=
  todTime w ≤ s.sync.h + s.sync.cfg.stepNs * 65536 ∧ s.sync.h ≤ todTime w + s.sync.cfg.stepNs * 65536

theorem steered_near (h : WordNear s w) (hf : s.sync.frozen = false) (q : Option (BitVec 8)) (n : Nat) :
    (steered (noteSeq s q n) (todTime w)).2 = false ∧ (steered (noteSeq s q n) (todTime w)).1.sync =
      { s.sync with
        seq := q, seqErr := n
        integ := s.sync.integ + Int.tdiv (todPs s w * 10 ^ 6) (2 ^ s.sync.cfg.ki)
        adj := clampAdj (Int.tdiv (todPs s w * 10 ^ 6) (2 ^ s.sync.cfg.kp) +
          (s.sync.integ + Int.tdiv (todPs s w * 10 ^ 6) (2 ^ s.sync.cfg.ki)))
        stepDue := 0, frozen := false, freezeLeft := 0 } := by
  obtain ⟨hhi, hlo⟩ := h
  refine steer_near (s := noteBound (noteBound (noteSeq s q n))) ?_ ?_ hf
  · change -((s.sync.cfg.stepNs * 65536 : Nat) : Int) ≤ (todTime w : Int) - (s.sync.h : Int)
    omega
  · change (todTime w : Int) - (s.sync.h : Int) ≤ ((s.sync.cfg.stepNs * 65536 : Nat) : Int)
    omega

theorem todWord_near (h : WordUsed s w) (hnear : WordNear s w) (hf : s.sync.frozen = false) (hst : s.sync.state = 1) :
    Completes (.todWord w) s fun t =>
      t.sync.h = s.sync.h ∧ t.sync.frozen = false ∧
      t.sync.integ = s.sync.integ + Int.tdiv (todPs s w * 10 ^ 6) (2 ^ s.sync.cfg.ki) ∧
      t.sync.adj = clampAdj (Int.tdiv (todPs s w * 10 ^ 6) (2 ^ s.sync.cfg.kp) + t.sync.integ) ∧
      t.sync.locked =
        (if todSrc w = 3 ∧ (todPs s w).natAbs ≤ s.sync.cfg.lockNs * 1000 then min 16 (s.sync.locked + 1) else 0) := by
  refine completes_ofWord h fun q n => ?_
  obtain ⟨hmoved, hsync⟩ := steered_near hnear hf q n
  have hloop := useWord_syncing_loop (s := noteSeq s q n) h.2.2.2.2.2 hmoved (by rw [hsync]; exact hst) (todSrc w)
    (todEst w)
  rw [hsync] at hloop
  refine ⟨by rw [hloop]; rfl, by rw [hloop]; rfl, by rw [hloop]; rfl, by rw [hloop]; rfl, ?_⟩
  rw [hloop]
  change (if wordGood (noteSeq s q n) (todTime w) (todSrc w) = true then min 16 (s.sync.locked + 1) else 0) = _
  refine if_congr ?_ rfl rfl
  change (todSrc w == 3 && decide ((todPs s w).natAbs ≤ s.sync.cfg.lockNs * 1000)) = true ↔ _
  simp

/-- The sixteenth good word in a row synchronises. -/
theorem todWord_locks (h : WordUsed s w) (hnear : WordNear s w) (hf : s.sync.frozen = false) (hst : s.sync.state = 1)
    (hlocked : s.sync.locked = 15) (hsrc : todSrc w = 3) (hgood : (todPs s w).natAbs ≤ s.sync.cfg.lockNs * 1000)
    (hbound : (todPs s w).natAbs + todEst w * 1000 + 2000 ≤ s.sync.cfg.maxErrNs * 1000) (hpps : ppsFails s = false) :
    Completes (.todWord w) s fun t => t.sync.state = 2 ∧ t.sync.h = s.sync.h ∧ t.ev.pend.getLsbD 261 = true := by
  refine completes_ofWord h fun q n => ?_
  obtain ⟨hmoved, hsync⟩ := steered_near hnear hf q n
  have hone : (steered (noteSeq s q n) (todTime w)).1.sync.state = 1 := by rw [hsync]; exact hst
  have htaken := wordTaken_sync (noteSeq s q n) (todTime w) (todSrc w) (todEst w)
  rw [hsync] at htaken
  have htick : (wordTaken (noteSeq s q n) (todTime w) (todSrc w) (todEst w)).hv.tick = s.hv.tick := steered_tick _ _
  rw [useWord_syncing (s := noteSeq s q n) h.2.2.2.2.2 hmoved hone]
  generalize wordTaken (noteSeq s q n) (todTime w) (todSrc w) (todEst w) = u at htaken htick ⊢
  have hfull : u.sync.locked = 16 := by
    rw [htaken]
    change (if (todSrc w == 3 && decide ((todPs s w).natAbs ≤ s.sync.cfg.lockNs * 1000)) = true
      then min 16 (s.sync.locked + 1) else 0) = 16
    rw [if_pos (by simp [hsrc, hgood]), hlocked]
    rfl
  have hp : ppsFails u = false := by
    rw [← hpps]
    unfold ppsFails
    rw [htaken]
    rfl
  have hlast : u.sync.state = 1 := by rw [htaken]; exact hst
  have hb : boundOk u = true := by
    have herr : errBound u = min 0xFFFFFFFF ((todPs s w).natAbs + todEst w * 1000 + 2000 +
        s.sync.cfg.driftPpb * ((s.hv.tick - s.hv.tick) * 5 / 6) / 1000000) := by
      unfold errBound
      rw [if_neg (by rw [hlast]; decide), htick, htaken]
      rfl
    have hmax : u.sync.cfg.maxErrNs = s.sync.cfg.maxErrNs := by rw [htaken]; rfl
    unfold boundOk
    rw [herr, hmax, Nat.sub_self]
    simp only [decide_eq_true_eq, Nat.zero_mul, Nat.zero_div, Nat.mul_zero, Nat.add_zero]
    omega
  rw [if_pos (by rw [hfull, hb, hp]; rfl)]
  refine ⟨?_, ?_, setSync_pend (by rw [hlast]; decide)⟩
  · change (setSync u 2).sync.state = 2
    rw [setSync_sync_other (by decide)]
  · change (setSync u 2).sync.h = s.sync.h
    rw [setSync_sync_other (by decide), htaken]
    rfl

end

/-! ## Losses, bounds and edges -/

section

variable {s : State}

theorem enterAgain_tick (s : State) : (enterAgain s).hv.tick = s.hv.tick := by
  unfold enterAgain judgeEnter
  dsimp only
  split
  · split <;> rfl
  · rfl

theorem enterAgain_sync (s : State) : (enterAgain s).sync = s.sync :=
  ((enterAgain_keeps (F := { hv := true }) s rfl (Keeps.refl _ s)).sync_eq rfl)

/-- An edge whose offset has been noted. -/
def edgeNoted (s : State) (off : Int) : State := { s with sync.ppsOff := some off, sync.ppsEdge := none }

/-- An edge that the check has used. -/
def edgeUsed (s : State) (off : Int) (out : Bool) : State :=
  { edgeNoted s off with sync.ppsAt := some s.hv.tick, sync.ppsBad := out }

/-- What the check makes of an edge that it uses. -/
def edgeChecked (s : State) (off : Int) (out : Bool) : State :=
  if out = false then setPps (edgeUsed s off out) 1
  else if s.sync.ppsAt.isSome && s.sync.ppsBad then setPps (edgeUsed s off out) 2 else edgeUsed s off out

/-- The edge lies outside the limit of the check. -/
def edgeOut (s : State) (off : Int) : Bool := decide (s.sync.cfg.limitNs * 1000 < off.natAbs)

theorem judgeEdge_none (h : s.sync.ppsEdge = none) : judgeEdge s = s := by
  unfold judgeEdge
  rw [h]

theorem judgeEdge_some {stamp : Nat} {off : Int} (h : s.sync.ppsEdge = some stamp)
    (hoff : off = ppsOffset (stamp - s.sync.cfg.delayPs)) : judgeEdge s =
      if s.sync.cfg.ppsEn = false then edgeNoted s off else judgeSync (edgeChecked s off (edgeOut s off)) := by
  unfold judgeEdge
  rw [h]
  dsimp only
  rw [← hoff]
  cases hen : s.sync.cfg.ppsEn <;> cases hout : edgeOut s off <;> (unfold edgeOut at hout; rw [hout]; rfl)

theorem edgeChecked_sync (s : State) (off : Int) (out : Bool) :
    (edgeChecked s off out).sync = { (edgeUsed s off out).sync with ppsState := (edgeChecked s off out).sync.ppsState } := by
  unfold edgeChecked
  split
  · rw [setPps_sync]
  · split
    · rw [setPps_sync]
    · rfl

/-- The judgement of an edge moves the state and the check alone. -/
theorem judgeEdge_loop (s : State) : ∃ st p o e a b, (judgeEdge s).sync =
    { s.sync with state := st, ppsState := p, ppsOff := o, ppsEdge := e, ppsAt := a, ppsBad := b } := by
  cases h : s.sync.ppsEdge with
  | none =>
    rw [judgeEdge_none h]
    exact ⟨_, _, _, _, _, _, rfl⟩
  | some stamp =>
    rw [judgeEdge_some h rfl]
    split
    · exact ⟨_, _, _, _, _, _, rfl⟩
    · rw [judgeSync_sync, edgeChecked_sync]
      exact ⟨_, _, _, _, _, _, rfl⟩

theorem tick_advances (hs : Running s) (hp : s.pending = []) (hstep : 9 ≤ s.hv.step) :
    ∃ t, step s = .next t ∧ t.sync.stepDue = 0 ∧
      t.sync.h = s.sync.h + s.sync.stepDue + (s.sync.acc + tickAdvance s.sync) / (3 * 10 ^ 12) ∧
      t.sync.acc = (s.sync.acc + tickAdvance s.sync) % (3 * 10 ^ 12) := by
  obtain ⟨st, p, o, e, a, b, hedge⟩ := judgeEdge_loop (enterAgain s)
  rw [enterAgain_sync] at hedge
  refine ⟨_, step_of_idle hp, ?_⟩
  rw [idleTick_sync hs.fclk, if_neg (by omega), hedge]
  exact ⟨rfl, rfl, rfl⟩

theorem opTodLost_eq {t0 : Nat} (hs : Running s) (hat : s.sync.lastAt = some t0) (hl : s.sync.lost = false)
    (hlate : t0 + 4800 ≤ s.hv.tick) {u : State}
    (hu : u = sticky { s with sync.lost := true, sync.locked := 0 } 96 0) : opTodLost s =
      if u.sync.state = 2 then judgeSync (setSync u 3)
      else if u.sync.state = 1 then setSync u 4
      else if u.sync.state = 3 then { u with sync.adj := clampAdj u.sync.integ } else u := by
  unfold opTodLost
  rw [hat]
  dsimp only
  rw [if_pos (by simp [hl, hs.fclk, hlate]), hu]

/-- The Hive has noted that the words are lost. -/
theorem lost_noted {u : State} (hu : u = sticky { s with sync.lost := true, sync.locked := 0 } 96 0) :
    u.sync = { s.sync with lost := true, locked := 0 } ∧ u.hv.tick = s.hv.tick ∧
      u.aon.sticky.getLsbD 96 = true := by
  subst hu
  exact ⟨sticky_sync _ _ _, by rw [((sticky_signals _ _ _).hv_eq rfl)], sticky_same _ (by decide) _⟩

theorem setSync_sticky (h : s.aon.sticky.getLsbD 96 = true) (st : Nat) :
    (setSync s st).aon.sticky.getLsbD 96 = true := by
  by_cases hst : s.sync.state = st
  · rw [setSync_same hst]
    exact h
  · have hchange : (syncChange s st).aon.sticky.getLsbD 96 = true := by
      rw [syncChange, ((raiseHive_signals _ _ _).aon_eq rfl)]
      exact h
    rw [setSync_eq hst]
    split
    · exact sticky_kept _ 97 0 96 hchange
    · exact hchange

theorem todLost_synchronised {t0 : Nat} (hs : Running s) (hat : s.sync.lastAt = some t0) (hl : s.sync.lost = false)
    (hlate : t0 + 4800 ≤ s.hv.tick) (hst : s.sync.state = 2) (hb : boundOk s = true) (hp : ppsFails s = false) :
    Completes .todLost s fun t =>
      t.sync.lost = true ∧ t.sync.locked = 0 ∧ t.sync.state = 3 ∧ t.sync.adj = clampAdj s.sync.integ ∧
      t.sync.h = s.sync.h ∧ t.aon.sticky.getLsbD 96 = true := by
  obtain ⟨u, hu⟩ : ∃ u, u = sticky { s with sync.lost := true, sync.locked := 0 } 96 0 := ⟨_, rfl⟩
  obtain ⟨hsync, htick, hmark⟩ := lost_noted hu
  have htwo : u.sync.state = 2 := by rw [hsync]; exact hst
  have hhold : (setSync u 3).sync = { s.sync with lost := true, locked := 0, state := 3, adj := clampAdj s.sync.integ } := by
    rw [setSync_sync (by rw [htwo]; decide), hsync]
    exact congrArg (fun a => { s.sync with lost := true, locked := 0, state := 3, adj := a })
      (if_pos (c := (3 : Nat) = 3 ∧ true = true) ⟨rfl, rfl⟩)
  have hbound : boundOk (setSync u 3) = true := by
    have herr : errBound (setSync u 3) = errBound s := by
      unfold errBound
      rw [hhold, ((setSync_foot u 3).hv_eq rfl), htick, hst]
      rfl
    unfold boundOk at hb ⊢
    rw [herr, hhold]
    exact hb
  have hfails : ppsFails (setSync u 3) = false := by
    rw [← hp]
    unfold ppsFails
    rw [hhold]
  refine Completes.ofOp rfl (opTodLost_eq hs hat hl hlate hu) ?_
  rw [if_pos htwo, judgeSync_good hbound hfails, hhold]
  exact ⟨rfl, rfl, rfl, rfl, rfl, setSync_sticky hmark 3⟩

theorem todLost_acquiring {t0 : Nat} (hs : Running s) (hat : s.sync.lastAt = some t0) (hl : s.sync.lost = false)
    (hlate : t0 + 4800 ≤ s.hv.tick) (hst : s.sync.state = 1) :
    Completes .todLost s fun t =>
      t.sync.lost = true ∧ t.sync.locked = 0 ∧ t.sync.state = 4 ∧ t.sync.h = s.sync.h ∧
      t.aon.sticky.getLsbD 96 = true ∧ t.aon.sticky.getLsbD 97 = true := by
  obtain ⟨u, hu⟩ : ∃ u, u = sticky { s with sync.lost := true, sync.locked := 0 } 96 0 := ⟨_, rfl⟩
  obtain ⟨hsync, -, hmark⟩ := lost_noted hu
  have hone : u.sync.state = 1 := by rw [hsync]; exact hst
  refine Completes.ofOp rfl (opTodLost_eq hs hat hl hlate hu) ?_
  rw [if_neg (by rw [hone]; decide), if_pos hone, setSync_sync_other (by decide), hsync]
  exact ⟨rfl, rfl, rfl, rfl, setSync_sticky hmark 4, (setSync_unsync (by rw [hone]; decide)).1⟩

theorem errorBound_unsync (hs : Running s) (hst : s.sync.state = 2 ∨ s.sync.state = 3) (hb : boundOk s = false) :
    Completes .errorBoundExceeded s fun t =>
      t.sync = { s.sync with state := 4 } ∧ t.aon.sticky.getLsbD 97 = true ∧ t.ev.pend.getLsbD 261 = true ∧
      t.wg.syncAll = false := by
  have hne : s.sync.state ≠ 4 := by omega
  have hop : opErrorBoundExceeded s = setSync s 4 := by
    unfold opErrorBoundExceeded
    rw [if_pos (by rcases hst with h | h <;> simp [hs.fclk, h, hb])]
  obtain ⟨hmark, hall⟩ := setSync_unsync hne
  exact Completes.ofOp rfl hop ⟨setSync_sync_other (by decide), hmark, setSync_pend hne, hall⟩

/-! ### PPS -/

/-- What a tick leaves of the state and of the check is what the judgement of its edge leaves. -/
theorem idleTick_checks (h : s.hv.fclk = true) :
    (idleTick s).sync.ppsOff = (judgeEdge (enterAgain s)).sync.ppsOff ∧
    (idleTick s).sync.ppsEdge = (judgeEdge (enterAgain s)).sync.ppsEdge ∧
    (idleTick s).sync.ppsAt = (judgeEdge (enterAgain s)).sync.ppsAt ∧
    (idleTick s).sync.ppsBad = (judgeEdge (enterAgain s)).sync.ppsBad ∧
    (idleTick s).sync.ppsState = (judgeEdge (enterAgain s)).sync.ppsState ∧
    (idleTick s).sync.state = (judgeEdge (enterAgain s)).sync.state := by
  rw [idleTick_sync h]
  split <;> exact ⟨rfl, rfl, rfl, rfl, rfl, rfl⟩

/-- The Hive before the edge is judged is as it was, but for a sleep that it may enter. -/
theorem edge_judged {off : Int} (h : EdgeWaits s off) : judgeEdge (enterAgain s) =
    if s.sync.cfg.ppsEn = false then edgeNoted (enterAgain s) off
    else judgeSync (edgeChecked (enterAgain s) off (edgeOut s off)) := by
  obtain ⟨-, -, stamp, hedge, hoff⟩ := h
  have hsync := enterAgain_sync s
  have hout : edgeOut (enterAgain s) off = edgeOut s off := by
    unfold edgeOut
    rw [hsync]
  rw [judgeEdge_some (off := off) (by rw [hsync]; exact hedge) (by rw [hsync]; exact hoff), hsync, hout]

/-- An edge that the check uses. -/
theorem edge_used {off : Int} (h : EdgeWaits s off) (hen : s.sync.cfg.ppsEn = true) {out : Bool}
    (hout : edgeOut s off = out) :
    (idleTick s).sync.ppsOff = some off ∧ (idleTick s).sync.ppsEdge = none ∧
    (idleTick s).sync.ppsAt = some s.hv.tick ∧ (idleTick s).sync.ppsBad = out ∧
    (idleTick s).sync.ppsState = (edgeChecked (enterAgain s) off out).sync.ppsState ∧
    (idleTick s).sync.state = (judgeSync (edgeChecked (enterAgain s) off out)).sync.state := by
  obtain ⟨h1, h2, h3, h4, h5, h6⟩ := idleTick_checks h.1.fclk
  have hjudged := edge_judged h
  rw [if_neg (by rw [hen]; decide), hout] at hjudged
  rw [hjudged] at h1 h2 h3 h4 h5 h6
  rw [judgeSync_sync, edgeChecked_sync] at h1 h2 h3 h4
  rw [judgeSync_sync] at h5
  exact ⟨h1, h2, h3.trans (congrArg some (enterAgain_tick s)), h4, h5, h6⟩

theorem pps_timeout {t0 : Nat} (hs : Running s) (hat : s.sync.ppsAt = some t0) (hedge : s.sync.ppsEdge = none)
    (hen : s.sync.cfg.ppsEn = true) (hlate : t0 + 1800000000 ≤ s.hv.tick) :
    Completes .ppsTimeout s fun t =>
      t.sync.ppsAt = none ∧ t.sync.ppsState = 3 ∧ t.sync.h = s.sync.h ∧
      ((s.sync.state = 2 ∨ s.sync.state = 3) → s.sync.cfg.require = true → t.sync.state = 4) := by
  have hop : opPpsTimeout s = judgeSync (setPps { s with sync.ppsAt := none, sync.ppsBad := false } 3) := by
    unfold opPpsTimeout
    rw [hat]
    dsimp only
    rw [if_pos (by simp [hs.fclk, hedge, hen, hlate])]
  have hset := setPps_sync { s with sync.ppsAt := none, sync.ppsBad := false } 3
  refine Completes.ofOp rfl hop ⟨?_, ?_, ?_, fun hst hreq => ?_⟩
  · rw [judgeSync_sync, hset]
  · rw [judgeSync_sync, hset]
  · rw [judgeSync_sync, hset]
  · rw [judgeSync_fails (by rw [hset]; exact hst) (.inr ?_), setSync_sync_other (by decide)]
    unfold ppsFails
    rw [hset]
    simp [hreq]

end

/-- Settles O37: a word steers the loop and judges the sync state; what is not used, lost or late leaves the loop but
for the state and the check; and each tick takes the Hive time on from the judgement of its edge. -/
theorem hiveTime : Obligations.HiveTime := by
  refine ⟨fun s hs hp hstep => tick_advances hs hp hstep, fun w s hs hstep hbad => ?_,
    fun w s h hfar => todWord_ahead h hfar, fun w s h hfar => todWord_behind h hfar,
    fun w s h hf hhi hlo hst => todWord_near h ⟨hhi, hlo⟩ hf hst,
    fun w s h hf hhi hlo hst hlocked hsrc hgood hbound hpps =>
      todWord_locks h ⟨hhi, hlo⟩ hf hst hlocked hsrc hgood hbound hpps,
    fun s hs hf hleft => ?_,
    fun t0 s hs hat hl hlate hst hb hp => todLost_synchronised hs hat hl hlate hst hb hp,
    fun t0 s hs hat hl hlate hst => todLost_acquiring hs hat hl hlate hst,
    fun s hs hst hb => errorBound_unsync hs hst hb, fun sub t0 s hs hused hsoon => ?_, fun sub s hs hfree => ?_,
    fun off s h hen => ?_, fun off s h hen hin => ?_, fun off s h hen hout hfirst => ?_,
    fun t0 off s h hen hout hat hbad => ?_, fun t0 s hs hat hedge hen hlate => pps_timeout hs hat hedge hen hlate⟩
  · have hcond : (bits w.toNat 87 82 != 0 || bits w.toNat 127 112 != 0 || decide (bits w.toNat 81 80 ≤ 1)) = true := by
      rcases hbad with h | h | h
      · rw [bne_iff_ne.2 h, Bool.true_or, Bool.true_or]
      · rw [bne_iff_ne.2 h, Bool.or_true, Bool.true_or]
      · rw [decide_eq_true (p := bits w.toNat 81 80 ≤ 1) h, Bool.or_true]
    have hop : opTodWord w s = noteSeq s (some (BitVec.ofNat 8 (bits w.toNat 111 104))) (satAdd 65535 s.sync.seqErr 1) := by
      unfold opTodWord
      dsimp only
      rw [hcond, if_neg (by simp [hs.fclk, hstep])]
      rfl
    exact Completes.ofOp rfl hop ⟨rfl, rfl⟩
  · have hop : opFreezeEnd s = { s with sync := { s.sync with frozen := false, freezeLeft := 0 } } := by
      unfold opFreezeEnd
      rw [if_pos (by simp [hs.fclk, hf, hleft])]
    exact Completes.ofOp rfl hop rfl
  · have hop : opPpsEdge sub s = s := by
      unfold opPpsEdge
      dsimp only
      rw [hused]
      exact if_pos (by simp [hs.fclk, hsoon])
    exact Completes.ofOp rfl hop rfl
  · refine Completes.ofOp (t := { s with sync := { s.sync with
        ppsUsed := some s.hv.tick, ppsEdge := some (s.sync.h * 1000 / 65536 + sub % 4 * 625 / 3) } }) rfl ?_ rfl
    unfold opPpsEdge
    dsimp only
    cases hused : s.sync.ppsUsed with
    | none => exact if_neg (by simp [hs.fclk])
    | some t0 =>
      have hlate := hfree t0 hused
      exact if_neg (by simp [hs.fclk, hlate])
  · obtain ⟨h1, h2, -, -, h5, h6⟩ := idleTick_checks h.1.fclk
    rw [edge_judged h, if_pos hen] at h1 h2 h5 h6
    have hsync := enterAgain_sync s
    exact ⟨_, step_of_idle h.2.1, h1, h2, h5.trans (congrArg (·.ppsState) hsync), h6.trans (congrArg (·.state) hsync)⟩
  · obtain ⟨h1, h2, h3, h4, h5, -⟩ := edge_used h hen (out := false) (decide_eq_false (by omega))
    refine ⟨_, step_of_idle h.2.1, h1, h2, h3, h4, h5.trans ?_⟩
    rw [edgeChecked, if_pos rfl, setPps_sync]
  · obtain ⟨h1, h2, h3, h4, h5, -⟩ := edge_used h hen (out := true) (decide_eq_true hout)
    refine ⟨_, step_of_idle h.2.1, h1, h2, h3, h4, h5.trans ?_⟩
    have hsync := enterAgain_sync s
    rw [edgeChecked, if_neg (by decide), if_neg (by rw [hsync]; rcases hfirst with h | h <;> simp [h])]
    exact congrArg (·.ppsState) hsync
  · obtain ⟨h1, h2, -, -, h5, h6⟩ := edge_used h hen (out := true) (decide_eq_true hout)
    have hsync := enterAgain_sync s
    have hchk : edgeChecked (enterAgain s) off true = setPps (edgeUsed (enterAgain s) off true) 2 := by
      rw [edgeChecked, if_neg (by decide), if_pos (by rw [hsync]; simp [hat, hbad])]
    rw [hchk] at h5 h6
    refine ⟨_, step_of_idle h.2.1, h1, h2, h5.trans (by rw [setPps_sync]), fun hst => h6.trans ?_⟩
    have hset := setPps_sync (edgeUsed (enterAgain s) off true) 2
    have hstate : (edgeUsed (enterAgain s) off true).sync.state = s.sync.state := congrArg (·.state) hsync
    rw [judgeSync_fails (by rw [hset, hstate]; exact hst) (.inr (by unfold ppsFails; rw [hset]; rfl)),
      setSync_sync_other (by decide)]

end Sys2Proof.Machine
end

section
/-! SUPPORT. Epochs, the anchor and the logs of the waggle unit (R270 to R277): what a close leaves, what a record of
the persistent store reads as once it is written. The theorem that settles O38. -/

namespace Sys2Proof.Machine

open Host

/-! ## A record that is written (R382, R383) -/

section

variable {s : State} {id : Nat} {payload : Bytes}

/-- The bank of a record, as it is written. -/
def freshBank (id seq : Nat) (payload : Bytes) : Bank :=
  { id := id, seq := seq, len := payload.length, payload := payload, crc := bankCrc seq payload.length payload }

/-- The record that takes the payload: where it stays it keeps the bank that holds its value (R383). -/
def recordBefore (s : State) (id n : Nat) : Record :=
  if (occupied s id && (s.record id).size == (placeFor s id n).2) = true then s.record id
  else { place := (placeFor s id n).1, size := (placeFor s id n).2 }

def seqNext (s : State) (id : Nat) (r : Record) : Nat :=
  if (s.recValue id).isSome then ((if holdsB id r then r.b.seq else r.a.seq) + 1) % 2 ^ 32 else 1

/-- The record with the payload in the bank that does not hold the value. -/
def Record.rewritten (r : Record) (id : Nat) (k : Bank) : Record :=
  if (r.okA id && !holdsB id r) = true then { r with b := k } else { r with a := k }

theorem writeRec_store (hon : mramOn s = true) : (writeRec s id payload).store.mram =
    tblSet {} s.store.mram id ((recordBefore s id payload.length).rewritten id
      (freshBank id (seqNext s id (recordBefore s id payload.length)) payload)) := by
  unfold writeRec
  rw [if_neg (by rw [hon]; decide)]
  rfl

theorem placeFor_size (s : State) (id n : Nat) : (placeFor s id n).2 = bankSize id n := by
  unfold placeFor
  dsimp only
  split
  · rfl
  · split <;> rfl

theorem recordBefore_size (s : State) (id n : Nat) : (recordBefore s id n).size = bankSize id n := by
  unfold recordBefore
  split
  next h =>
    rw [Bool.and_eq_true, beq_iff_eq] at h
    rw [h.2, placeFor_size]
  next => exact placeFor_size s id n

theorem bankOk_fresh {size : Nat} (hid : id ≠ 0) (hff : id ≠ 0xFFFFFFFF) (hfit : 16 + payload.length ≤ size) (seq : Nat) :
    bankOk id size (freshBank id seq payload) = true := by
  simp [bankOk, freshBank, hid, hff, hfit]

/-- A later sequence number is one above. -/
theorem laterSeq_succ (n : Nat) : laterSeq ((n + 1) % 2 ^ 32) n = true := by
  unfold laterSeq
  dsimp only
  rw [Bool.and_eq_true, decide_eq_true_eq, decide_eq_true_eq]
  omega

theorem not_laterSeq_succ (n : Nat) : laterSeq n ((n + 1) % 2 ^ 32) = false := by
  unfold laterSeq
  dsimp only
  rw [Bool.and_eq_false_iff, decide_eq_false_iff_not, decide_eq_false_iff_not]
  omega

/-- The value of a record is what its bank that is later holds. -/
def Record.value (r : Record) (id : Nat) : Option Bytes :=
  if holdsB id r then some r.b.payload else if r.okA id then some r.a.payload else none

theorem recValue_eq (s : State) (id : Nat) : s.recValue id = (s.record id).value id := rfl

/-- The payload is the value, where its sequence number follows that of the value before. -/
theorem Record.rewritten_value {r : Record} {seq : Nat} (hid : id ≠ 0) (hff : id ≠ 0xFFFFFFFF)
    (hfit : 16 + payload.length ≤ r.size)
    (hseq : r.okA id = true ∨ r.okB id = true → seq = ((if holdsB id r then r.b.seq else r.a.seq) + 1) % 2 ^ 32) :
    (r.rewritten id (freshBank id seq payload)).value id = some payload := by
  have hfresh := bankOk_fresh hid hff hfit seq
  unfold Record.rewritten
  split
  next htoB =>
    obtain ⟨hA, hB⟩ := Bool.and_eq_true_iff.1 htoB
    have hlater : laterSeq seq r.a.seq = true := by
      rw [hseq (.inl hA), if_neg (by simpa using hB)]
      exact laterSeq_succ _
    have hholds : holdsB id { r with b := freshBank id seq payload } = true := by
      unfold holdsB Record.okA Record.okB
      rw [hfresh, show laterSeq (freshBank id seq payload).seq r.a.seq = true from hlater, Bool.or_true]
      rfl
    exact if_pos hholds
  next htoB =>
    have hholds : holdsB id { r with a := freshBank id seq payload } = false := by
      cases hB : r.okB id with
      | false =>
        unfold holdsB
        rw [show Record.okB { r with a := freshBank id seq payload } id = r.okB id from rfl, hB]
        rfl
      | true =>
        have hold : holdsB id r = true := by
          cases hA : r.okA id with
          | true => simpa [hA] using htoB
          | false => unfold holdsB; rw [hA, hB]; rfl
        have hlater : laterSeq r.b.seq seq = false := by
          rw [hseq (.inr hB), if_pos hold]
          exact not_laterSeq_succ _
        unfold holdsB Record.okA
        rw [hfresh, show laterSeq r.b.seq (freshBank id seq payload).seq = false from hlater]
        exact Bool.and_false _
    unfold Record.value
    rw [if_neg (by rw [hholds]; decide)]
    exact if_pos hfresh

/-- A record with a valid bank stays where it is. -/
theorem recordBefore_of_ok {n : Nat} (hid : id ≠ 0)
    (h : (recordBefore s id n).okA id = true ∨ (recordBefore s id n).okB id = true) :
    recordBefore s id n = s.record id := by
  unfold recordBefore at h ⊢
  split
  next => rfl
  next hne =>
    rw [if_neg hne] at h
    simp [Record.okA, Record.okB, bankOk, hid.symm] at h

theorem recValue_isSome (h : (s.record id).okA id = true ∨ (s.record id).okB id = true) :
    (s.recValue id).isSome = true := by
  rw [recValue_eq]
  unfold Record.value
  split
  · rfl
  next hB =>
    cases hA : (s.record id).okA id with
    | true => rfl
    | false =>
      have hokB : (s.record id).okB id = true := by simpa [hA] using h
      unfold holdsB at hB
      rw [hA, hokB] at hB
      exact absurd rfl hB

/-- A record that the store takes reads as its payload. -/
theorem writeRec_value (hs : s.Inv) (hon : mramOn s = true) (hid : id ≠ 0) (hff : id ≠ 0xFFFFFFFF)
    (hfit : 16 + payload.length ≤ bankSize id payload.length) : (writeRec s id payload).recValue id = some payload := by
  have hrec : (writeRec s id payload).record id = (recordBefore s id payload.length).rewritten id
      (freshBank id (seqNext s id (recordBefore s id payload.length)) payload) := by
    rw [State.record, writeRec_store hon, tblGet_set_same _ _ _ _ ((State.wf_iff s).1 hs.wf).mram]
  rw [recValue_eq, hrec]
  refine Record.rewritten_value hid hff (by rw [recordBefore_size]; exact hfit) fun hok => ?_
  have hstays := recordBefore_of_ok hid hok
  rw [hstays] at hok
  unfold seqNext
  rw [if_pos (recValue_isSome hok)]

/-- The other records read as they did. -/
theorem writeRec_other {r : Nat} (hr : r ≠ id) : (writeRec s id payload).recValue r = s.recValue r := by
  have hrec : (writeRec s id payload).record r = s.record r := by
    by_cases hon : mramOn s = true
    · rw [State.record, writeRec_store hon, tblGet_set_other _ _ _ _ _ hr]
      rfl
    · unfold writeRec
      rw [if_pos (by simpa using hon)]
  rw [recValue_eq, hrec, recValue_eq]

end

/-! ## What logging an epoch leaves of the leaves -/

section

variable {id : Nat} {s0 s : State}

theorem bodyWrite_leavesKept (c a : Nat) (b : Bytes) (h : LeavesKept id s0 s) : LeavesKept id s0 (bodyWrite s c a b).2 := by
  unfold bodyWrite
  refine List.foldlRecOn (motive := fun w : Wrote × State => LeavesKept id s0 w.2) _ _ h fun w hw p _ => ?_
  split
  · exact recordWrite_leavesKept _ _ _ hw
  · exact hw

theorem logDrain_leavesKept {c : Nat} {sig : State → State} (hsig : ∀ x, LeavesKept id s0 x → LeavesKept id s0 (sig x))
    (l : List Bytes) (r : LogRing) (h : LeavesKept id s0 s) : LeavesKept id s0 (logDrain c sig l s r).1 := by
  have htry : ∀ x r b, LeavesKept id s0 x → LeavesKept id s0 (logTry x c r b).2.1 := fun x r b hx => by
    unfold logTry
    split
    · exact hx
    · exact bodyWrite_leavesKept _ _ _ hx
  induction l generalizing s r with
  | nil => exact h
  | cons b l ih =>
    have hb := htry s r b h
    rw [logDrain]
    split <;> rename_i heq <;> rw [heq] at hb
    · exact hb
    · exact ih _ (hsig _ hb)
    · exact ih _ hb

theorem rlogSignal_leavesKept (c : Nat) (h : LeavesKept id s0 s) : LeavesKept id s0 (rlogSignal c s) := by
  unfold rlogSignal
  split
  · exact signalVec_leavesKept _ _ h
  · exact h.keeps (noticeFor_keeps (F := { peer := true }) _ _ _ _ rfl (Keeps.refl _ _)) rfl rfl rfl

theorem rlogPut_leavesKept (c : Nat) (b : Bytes) (h : LeavesKept id s0 s) : LeavesKept id s0 (rlogPut s c b) := by
  unfold rlogPut
  split
  · unfold rlogResume
    dsimp only
    split
    · exact h.modTenant c
    · exact (logDrain_leavesKept (fun x hx => rlogSignal_leavesKept c hx) _ _ (h.modTenant c)).modTenant c
  · exact h

/-- What changes of the waggle unit's own log alone. -/
theorem LeavesKept.setMlog (h : LeavesKept id s0 s) (r : LogRing) (n : Nat) :
    LeavesKept id s0 { s with wg := { s.wg with mlog := r, mlost := n } } where
  inv := (Keeps.set_wg (F := { wg := true }) rfl (Keeps.refl _ s)).inv h.inv
  count := h.count
  signer := h.signer
  leaves := h.leaves
  group := h.group
  job := h.job

theorem mlogResume_leavesKept (h : LeavesKept id s0 s) : LeavesKept id s0 (mlogResume s) := by
  unfold mlogResume
  dsimp only
  split
  · exact h
  · exact (logDrain_leavesKept (fun x hx => signalVec_leavesKept 0 _ hx) _ _ h).setMlog _ _

theorem mlogPut_leavesKept (b : Bytes) (h : LeavesKept id s0 s) : LeavesKept id s0 (mlogPut s b) := by
  unfold mlogPut
  split
  · exact h
  · have hput := mlogResume_leavesKept (h.setMlog { s.wg.mlog with held := s.wg.mlog.held ++ [b] } s.wg.mlost)
    dsimp only
    split
    · exact sticky_leavesKept _ _ (hput.setMlog _ _)
    · exact hput

theorem tenantLogs_leavesKept (kept lost : List Nat) (entries : List Bytes) (rec_ sig : Bytes)
    (h : LeavesKept id s0 s) : LeavesKept id s0 (tenantLogs s kept lost entries rec_ sig) := by
  unfold tenantLogs
  dsimp only
  exact State.each_induction (P := LeavesKept id s0) (fun x _ _ hx => rlogPut_leavesKept _ _ hx)
    (State.each_induction (P := LeavesKept id s0) (fun x _ _ hx => rlogPut_leavesKept _ _ hx) h)

end

/-! ## The waggle unit while its log takes an entry -/

section

variable {s t u : State}

/-- The waggle unit but for its log. -/
def WgLogged (s t : State) : Prop := ∃ r n, t.wg = { s.wg with mlog := r, mlost := n }

theorem WgLogged.refl (s : State) : WgLogged s s := ⟨_, _, rfl⟩

theorem WgLogged.trans (h : WgLogged s u) (g : WgLogged u t) : WgLogged s t := by
  obtain ⟨r, n, h⟩ := h
  obtain ⟨r', n', g⟩ := g
  exact ⟨r', n', by rw [g, h]⟩

theorem WgLogged.of_eq (h : t.wg = s.wg) : WgLogged s t := ⟨_, _, h⟩

theorem WgLogged.setMlog (h : WgLogged s u) (r : LogRing) (n : Nat) :
    WgLogged s { u with wg := { u.wg with mlog := r, mlost := n } } := h.trans ⟨r, n, rfl⟩

theorem WgLogged.sticky (h : WgLogged s u) (b : Nat) (info : W32) : WgLogged s (sticky u b info) :=
  h.trans (.of_eq ((sticky_signals u b info).wg_eq rfl))

theorem mlogResume_wg (s : State) : WgLogged s (mlogResume s) := by
  have hdrain : (logDrain 0 (fun s => signalVec s 0 s.wg.mlog.cfg.vec) s.wg.mlog.held s s.wg.mlog).1.wg = s.wg :=
    (logDrain_keeps (F := { hi := true, dma := true, tenants := true, out := true, fns := true }) 0 _ _ s _
      (fun x hx => signalVec_keeps x 0 _ rfl rfl hx) rfl rfl rfl rfl (Keeps.refl _ s)).wg_eq rfl
  unfold mlogResume
  dsimp only
  split
  · exact WgLogged.refl s
  · exact ⟨_, s.wg.mlost, by rw [hdrain]⟩

theorem mlogPut_wg (s : State) (b : Bytes) : WgLogged s (mlogPut s b) := by
  have hput : WgLogged s (mlogResume { s with wg := { s.wg with mlog := { s.wg.mlog with held := s.wg.mlog.held ++ [b] } } }) :=
    WgLogged.trans ⟨_, _, rfl⟩ (mlogResume_wg _)
  unfold mlogPut
  split
  · exact WgLogged.refl s
  · dsimp only
    split
    · exact (hput.setMlog _ _).sticky _ _
    · exact hput

/-! ## The close of an epoch -/

/-- The leaves of the clients that a list names go. -/
def clearLeaves (s : State) (l : List Nat) : State := s.each l fun s c => s.modTenant c fun t => { t with leaves := [] }

theorem clearLeaves_wg (s : State) (l : List Nat) : (clearLeaves s l).wg = s.wg := by
  have h : Keeps { tenants := true } s (clearLeaves s l) :=
    Keeps.each l _ (fun x c hx => modTenant_keeps x c _ rfl hx) (Keeps.refl _ s)
  exact h.wg_eq rfl

theorem clearLeaves_leaves (l : List Nat) (hs : s.Inv) (c : Nat) :
    ((clearLeaves s l).tenant c).leaves = if c ∈ l then [] else (s.tenant c).leaves := by
  induction l generalizing s with
  | nil => rfl
  | cons d l ih =>
    have hnext : (s.modTenant d fun t => { t with leaves := [] }).Inv :=
      (modTenant_keeps (F := { tenants := true }) s d _ rfl (Keeps.refl _ s)).inv hs
    refine (ih hnext).trans ?_
    by_cases hcd : c = d
    · subst hcd
      rw [State.modTenant_same hs.wf]
      simp
    · rw [State.modTenant_other _ _ _ _ hcd]
      simp [hcd]

/-- A client that holds leaves is listed. -/
theorem leaves_nil_of_unlisted {c : Nat} (h : c ∉ leafClients s) : (s.tenant c).leaves = [] := by
  rcases tblGet_mem_or ({} : Tenant) s.tenants c with hmem | hdef
  · by_contra hne
    refine h (List.mem_map.2 ⟨_, List.mem_filter.2 ⟨hmem, ?_⟩, rfl⟩)
    rw [Bool.not_eq_true', List.isEmpty_eq_false_iff]
    exact hne
  · exact (congrArg (·.leaves) hdef).trans rfl

/-- The entries of an epoch of whose leaves none is lost. -/
def epochEntries (s : State) : List Bytes := (leafClients s).map fun c =>
  tenantEntry c (s.tenant c).epoch (s.tenant c).leaves.length (subtreeRoot (s.tenant c).leaves)

/-- The logs have taken the record `rec_`. -/
def epochLogged (s : State) (rec_ : Bytes) : State :=
  tenantLogs (mlogPut s (mlogEntry 1 rec_ (signRecord s rec_))) (leafClients s) [] (epochEntries s) rec_
    (signRecord s rec_)

/-- The logs have taken it and the leaves are gone. -/
def epochCleared (s : State) (rec_ : Bytes) : State := clearLeaves (epochLogged s rec_) (leafClients s)

/-- The close, where the clients whose leaves are lost and kept are named, with the counts of their leaves. -/
def closeWith (s : State) (lost kept : List Nat) (nKept nLost : Nat) : State :=
  let entries := kept.map fun c =>
    tenantEntry c (s.tenant c).epoch (s.tenant c).leaves.length (subtreeRoot (s.tenant c).leaves)
  let rec_ := epochRecord s entries nKept nLost
  let sig := signRecord s rec_
  let u := if lost.isEmpty then s else sticky (sticky s 68 0) 98 0
  let u := tenantLogs (mlogPut u (mlogEntry 1 rec_ sig)) kept lost entries rec_ sig
  let u := clearLeaves u (leafClients s)
  { u with wg := { u.wg with
      isOpen := false, prev := sha256 ([3] ++ rec_), lastRec := if u.wg.root then u.wg.lastRec else rec_ } }

theorem closeEpoch_eq (s : State) (l : List Nat) : closeEpoch s l =
    closeWith s ((leafClients s).filter l.contains) ((leafClients s).filter fun c => !l.contains c)
      (((leafClients s).filter fun c => !l.contains c).foldl (fun a c => a + (s.tenant c).leaves.length) 0)
      (((leafClients s).filter l.contains).foldl (fun a c => a + (s.tenant c).leaves.length) 0) := by
  unfold closeEpoch closeWith clearLeaves
  rfl

theorem closeWith_nil (s : State) :
    closeWith s [] (leafClients s) ((leafClients s).map fun c => (s.tenant c).leaves.length).sum 0 =
    { epochCleared s (ClosingRecord s) with wg := { (epochCleared s (ClosingRecord s)).wg with
      isOpen := false, prev := sha256 ([3] ++ ClosingRecord s)
      lastRec := if (epochCleared s (ClosingRecord s)).wg.root then (epochCleared s (ClosingRecord s)).wg.lastRec
        else ClosingRecord s } } := by
  have hrec : epochRecord s (epochEntries s) ((leafClients s).map fun c => (s.tenant c).leaves.length).sum 0 =
      ClosingRecord s := by
    unfold ClosingRecord epochEntries
    rfl
  unfold closeWith
  rw [show ((leafClients s).map fun c => tenantEntry c (s.tenant c).epoch (s.tenant c).leaves.length
    (subtreeRoot (s.tenant c).leaves)) = epochEntries s from rfl]
  dsimp only
  rw [hrec]
  unfold epochCleared epochLogged
  generalize ClosingRecord s = r
  generalize signRecord s r = sig
  rfl

theorem closeEpoch_nil (s : State) : closeEpoch s [] =
    { epochCleared s (ClosingRecord s) with wg := { (epochCleared s (ClosingRecord s)).wg with
      isOpen := false, prev := sha256 ([3] ++ ClosingRecord s)
      lastRec := if (epochCleared s (ClosingRecord s)).wg.root then (epochCleared s (ClosingRecord s)).wg.lastRec
        else ClosingRecord s } } := by
  have hlost : (leafClients s).filter ([] : List Nat).contains = [] := List.filter_eq_nil_iff.2 fun _ _ => by simp
  have hkept : (leafClients s).filter (fun c => !([] : List Nat).contains c) = leafClients s :=
    List.filter_eq_self.2 fun _ _ => by simp
  have hcount : (leafClients s).foldl (fun a c => a + (s.tenant c).leaves.length) 0 =
      ((leafClients s).map fun c => (s.tenant c).leaves.length).sum := by
    rw [List.sum_eq_foldl, List.foldl_map]
  rw [closeEpoch_eq, hlost, hkept, hcount]
  exact closeWith_nil s

theorem epochLogged_foot (s : State) (rec_ : Bytes) : WgLogged s (epochLogged s rec_) :=
  (mlogPut_wg s _).trans (.of_eq ((tenantLogs_keeps (F := { hi := true, dma := true, peer := true, fns := true
                                                            tenants := true, out := true }) _ _ _ _ _ _ rfl rfl rfl
    rfl rfl rfl (Keeps.refl _ _)).wg_eq rfl))

theorem epochLogged_leavesKept (hs : s.Inv) (rec_ : Bytes) (id : Nat) : LeavesKept id s (epochLogged s rec_) :=
  tenantLogs_leavesKept _ _ _ _ _ (mlogPut_leavesKept _ (LeavesKept.refl id hs))

theorem epochCleared_wg (s : State) (rec_ : Bytes) : WgLogged s (epochCleared s rec_) := by
  obtain ⟨r, n, h⟩ := epochLogged_foot s rec_
  exact ⟨r, n, (clearLeaves_wg _ _).trans h⟩

/-- No client holds a leaf once the epoch is closed. -/
theorem epochCleared_leaves (hs : s.Inv) (rec_ : Bytes) (c : Nat) : ((epochCleared s rec_).tenant c).leaves = [] := by
  have hkept := epochLogged_leavesKept hs rec_ 0
  rw [epochCleared, clearLeaves_leaves _ hkept.inv, hkept.leaves]
  split
  · rfl
  next h => exact leaves_nil_of_unlisted h

theorem opEpochClose_due (n : Nat) (h : closeDue s = true) : opEpochClose [] n s =
    reserveMore (openEpoch (closeEpoch (eccCount s n) []) (s.wg.epoch + 1) 0 0 0
      (closeEpoch (eccCount s n) []).wg.prev) := by
  unfold opEpochClose
  rw [if_neg (by rw [h]; decide)]

/-- What reserving the next epochs leaves of the one that is open. -/
theorem reserveMore_wg (s : State) : ∃ r, reserveMore s = { s with wg := { s.wg with eresNext := r } } := by
  unfold reserveMore
  split <;> exact ⟨_, rfl⟩

theorem epochClose_opensNext (n : Nat) (hs : s.Inv) (h : closeDue s = true) :
    Completes (.epochClose [] n) s fun t =>
      t.wg.isOpen = true ∧ t.wg.epoch = s.wg.epoch + 1 ∧ t.wg.kind = 0 ∧ t.wg.tOpen = s.sync.h ∧
      t.wg.prev = sha256 ([3] ++ ClosingRecord s) ∧
      t.wg.lastRec = (if s.wg.root then s.wg.lastRec else ClosingRecord s) ∧
      (∀ c, (t.tenant c).leaves = []) ∧ t.jobs = s.jobs ∧ t.sync = s.sync := by
  have hinv : (eccCount s n).Inv := (eccCount_keeps (F := { ev := true }) s n rfl (Keeps.refl _ s)).inv hs
  have hrec : ClosingRecord (eccCount s n) = ClosingRecord s := rfl
  obtain ⟨r, m, hwg⟩ := epochCleared_wg (eccCount s n) (ClosingRecord s)
  have hleaves := epochCleared_leaves hinv (ClosingRecord s)
  have hfoot : Keeps { aon := true, ev := true, hi := true, dma := true, peer := true, wg := true, fns := true
                       tenants := true, combs := true, out := true } s (closeEpoch (eccCount s n) []) :=
    closeEpoch_keeps _ _ rfl rfl rfl rfl rfl rfl rfl rfl rfl rfl (eccCount_keeps _ _ rfl (Keeps.refl _ s))
  have hsync := (hfoot.sync_eq rfl)
  have hjobs := (hfoot.jobs_eq rfl)
  refine Completes.ofOp rfl (opEpochClose_due n h) ?_
  rw [closeEpoch_nil, hrec] at hsync hjobs ⊢
  generalize epochCleared (eccCount s n) (ClosingRecord s) = u at hwg hleaves hsync hjobs ⊢
  obtain ⟨w, hmore⟩ := reserveMore_wg (openEpoch { u with wg := { u.wg with
      isOpen := false, prev := sha256 ([3] ++ ClosingRecord s)
      lastRec := if u.wg.root then u.wg.lastRec else ClosingRecord s } } (s.wg.epoch + 1) 0 0 0
      (sha256 ([3] ++ ClosingRecord s)))
  rw [hmore]
  refine ⟨rfl, rfl, rfl, congrArg (·.h) hsync, rfl, ?_, hleaves, hjobs, hsync⟩
  change (if u.wg.root then u.wg.lastRec else ClosingRecord s) = _
  rw [hwg]
  rfl

end

/-! ## The other clauses of O38 -/

theorem sha256_length_le (b : Bytes) : (sha256 b).length ≤ 32 := by
  unfold sha256 hashOf hashN hashFinish
  exact List.length_take_le _ _

theorem anchorPayload_fits (r : Bytes) : 16 + (anchorPayload r).length ≤ bankSize 0x10 (anchorPayload r).length := by
  have hsha := sha256_length_le ([3] ++ r)
  have hlen : (anchorPayload r).length = 32 + (sha256 ([3] ++ r)).length := by
    simp only [anchorPayload, List.length_append, natLe_length, zeros_length, List.length_singleton]
  rw [hlen, show bankSize 0x10 (32 + (sha256 ([3] ++ r)).length) = 128 from rfl]
  omega

theorem resPayload_fits (e : Nat) : 16 + (resPayload e).length ≤ bankSize 0x11 (resPayload e).length := by
  have hlen : (resPayload e).length = 16 := by
    simp only [resPayload, List.length_append, natLe_length, zeros_length, List.length_singleton]
  rw [hlen]
  decide

theorem LogRing.consume_held (r : LogRing) (v : W32) : (r.consume v).held = r.held := by
  unfold LogRing.consume
  split <;> rfl

section

variable {s : State}

/-- The keeper takes a checkpoint that is due. -/
theorem opReceiptCheckpoint_due (hup : Up s) (hk : s.keeperOk = true) (hdue : ckptDue s = true) :
    ∃ a, opReceiptCheckpoint s =
      (let u := ckptNext { s with hv.pwr := 0, hv.causeAt := a }
       if u.ks.testRoot || u.wg.lastRec.isEmpty || !mramOn u then u
       else
        let v := writeRec u 0x10 (anchorPayload u.wg.lastRec)
        { v with
          wg.anchor := beNat (slice v.wg.lastRec 24 8)
          wg.anchorAt := v.hv.tick, wg.ckptLate := false }) := by
  obtain ⟨a, ha⟩ := wake_awake hup.1 4
  have hkeeper : ({ s with hv.pwr := 0, hv.causeAt := a } : State).keeperOk = true := by
    rw [← hk]
    unfold State.keeperOk
    rw [hup.1]
  refine ⟨a, ?_⟩
  unfold opReceiptCheckpoint
  rw [ha]
  dsimp only
  rw [hdue, hkeeper, hup.2]
  rfl

theorem checkpoint_written (hs : Running s) (hup : Up s) (hk : s.keeperOk = true) (hdue : ckptDue s = true)
    (hon : mramOn s = true) (hroot : s.ks.testRoot = false) (hlast : s.wg.lastRec ≠ []) :
    Completes .receiptCheckpoint s fun t =>
      t.recValue 0x10 = some (anchorPayload s.wg.lastRec) ∧
      t.wg.anchor = beNat (slice s.wg.lastRec 24 8) ∧ t.wg.anchorAt = s.hv.tick ∧ t.wg.ckptLate = false ∧
      ∀ r, r ≠ 0x10 → t.recValue r = s.recValue r := by
  obtain ⟨a, hop⟩ := opReceiptCheckpoint_due hup hk hdue
  obtain ⟨u, hu⟩ : ∃ u, u = ckptNext { s with hv.pwr := 0, hv.causeAt := a } := ⟨_, rfl⟩
  have hinv : u.Inv := by
    rw [hu]
    exact (ckptNext_keeps (F := { hv := true, wg := true }) _ rfl
      (Keeps.set_hv (F := { hv := true, wg := true }) (xhv := { s.hv with pwr := 0, causeAt := a }) rfl
        (Keeps.refl _ s) (fun _ => Nat.zero_le 3)
        (fun h => h))).inv hs.inv
  have hval : (writeRec u 0x10 (anchorPayload s.wg.lastRec)).recValue 0x10 = some (anchorPayload s.wg.lastRec) :=
    writeRec_value hinv (by rw [hu]; exact hon) (by decide) (by decide) (anchorPayload_fits _)
  have hfoot : Keeps { store := true } u (writeRec u 0x10 (anchorPayload s.wg.lastRec)) :=
    writeRec_keeps _ _ _ rfl (Keeps.refl _ _)
  have hwg := hfoot.wg_eq rfl
  have hhv := (hfoot.hv_eq rfl)
  have hother : ∀ r, r ≠ 0x10 → (writeRec u 0x10 (anchorPayload s.wg.lastRec)).recValue r = s.recValue r := fun r hr => by
    rw [writeRec_other hr, hu]
    rfl
  rw [← hu] at hop
  refine Completes.ofOp (t := { writeRec u 0x10 (anchorPayload s.wg.lastRec) with
      wg.anchor := beNat (slice s.wg.lastRec 24 8), wg.anchorAt := s.hv.tick, wg.ckptLate := false }) rfl
    (hop.trans ?_) ⟨hval, rfl, rfl, rfl, hother⟩
  have hrec : u.wg.lastRec = s.wg.lastRec := by rw [hu]; rfl
  have htick : u.hv.tick = s.hv.tick := by rw [hu]; rfl
  have hmay : (u.ks.testRoot || u.wg.lastRec.isEmpty || !mramOn u) = false := by
    rw [hrec, List.isEmpty_eq_false_iff.2 hlast, hu]
    change (s.ks.testRoot || false || !mramOn s) = false
    rw [hroot, hon]
    rfl
  dsimp only
  rw [if_neg (by rw [hmay]; decide), hrec, hwg, hhv, hrec, htick]

theorem checkpoint_unpowered (hup : Up s) (hk : s.keeperOk = true) (hdue : ckptDue s = true) (hon : mramOn s = false) :
    Completes .receiptCheckpoint s fun t =>
      t.wg.anchor = s.wg.anchor ∧ t.wg.anchorAt = s.wg.anchorAt ∧ t.wg.ckptLate = s.wg.ckptLate ∧
      t.store.mram = s.store.mram := by
  obtain ⟨a, hop⟩ := opReceiptCheckpoint_due hup hk hdue
  refine Completes.ofOp (t := ckptNext { s with hv.pwr := 0, hv.causeAt := a }) rfl (hop.trans ?_) ⟨rfl, rfl, rfl, rfl⟩
  refine if_pos ?_
  change (s.ks.testRoot || s.wg.lastRec.isEmpty || !mramOn s) = true
  rw [hon]
  exact Bool.or_true _

theorem reservation_written {e : Nat} (hs : Running s) (hon : mramOn s = true) (he : s.wg.eresNext = some e)
    (hroot : s.ks.testRoot = false) :
    Completes .epochReservationWriteDone s fun t =>
      t.wg.eres = e ∧ t.wg.eresNext = none ∧ t.recValue 0x11 = some (resPayload e) ∧
      ∀ r, r ≠ 0x11 → t.recValue r = s.recValue r := by
  obtain ⟨u, hu⟩ : ∃ u, u = { s with wg.eres := e, wg.eresNext := none } := ⟨_, rfl⟩
  have hop : opEpochReservationWriteDone s = writeRec u 0x11 (resPayload e) := by
    unfold opEpochReservationWriteDone putReservation
    rw [he, hu]
    dsimp only
    rw [hs.fclk, hon, hroot]
    rfl
  have hinv : u.Inv := by
    rw [hu]
    exact (Keeps.set_wg (F := { wg := true }) rfl (Keeps.refl _ s)).inv hs.inv
  have hwg : (writeRec u 0x11 (resPayload e)).wg = u.wg :=
    (writeRec_keeps (F := { store := true }) _ _ _ rfl (Keeps.refl _ u)).wg_eq rfl
  refine Completes.ofOp rfl hop ⟨by rw [hwg, hu], by rw [hwg, hu], ?_, fun r hr => ?_⟩
  · exact writeRec_value hinv (by rw [hu]; exact hon) (by decide) (by decide) (resPayload_fits e)
  · rw [writeRec_other hr, hu]
    rfl

end

/-- Settles O38: the close of an epoch logs its record without touching a leaf but to clear it, a record that the
store takes reads as its payload, and a ring that holds no entry writes none. -/
theorem epochsAndLogs : Obligations.EpochsAndLogs := by
  refine ⟨fun n s hs h => epochClose_opensNext n hs h, fun lost n s h => ?_,
    fun e s hs hon he hroot => reservation_written hs hon he hroot,
    fun s hs hup hk hdue hon hroot hlast => checkpoint_written hs hup hk hdue hon hroot hlast,
    fun s _ hup hk hdue hon => checkpoint_unpowered hup hk hdue hon, fun s hs hready hlate hold => ?_,
    fun v s hs hready hheld => ?_, fun c v s hs hc hex hreach hheld => ?_⟩
  · refine Completes.ofOp (t := s) rfl ?_ rfl
    have hdue : closeDue s = false := by
      unfold closeDue
      rw [decide_eq_false (p := s.wg.epoch + 1 < s.wg.eres) (by omega), Bool.and_false]
    unfold opEpochClose
    rw [if_pos (by rw [hdue]; rfl)]
  · refine Completes.ofClock rfl hs.fclk ?_
    have hop : opCkptLate s = raiseHive { s with wg.ckptLate := true } 8 0 := by
      unfold opCkptLate
      rw [if_pos (by simp [hready, hlate, hold])]
    rw [hop]
    exact ⟨(raiseHive_signals _ _ _).wg_eq rfl, raise_pend_same _ (by decide) _⟩
  · refine Completes.ofClocked rfl hs ?_
    obtain ⟨p, w, k, a, hw⟩ := wake_eq s 1
    rw [hw]
    unfold opWgMlogConsWrite mlogResume
    rw [if_pos hready]
    dsimp only
    rw [if_pos (by rw [LogRing.consume_held, hheld]; rfl)]
    exact ⟨rfl, rfl⟩
  · refine Completes.ofClocked rfl hs ?_
    obtain ⟨p, w, k, a, hw⟩ := wake_eq s 1
    rw [hw]
    obtain ⟨u, hu⟩ : ∃ u, u = { s with hv := { s.hv with pwr := p, wakeCause := w, wakeNext := k, causeAt := a } } := ⟨_, rfl⟩
    have hwf : u.wf = true := by rw [hu]; exact hs.wf
    have hcons : ((u.modTenant c fun t => { t with rlog := t.rlog.consume v }).tenant c).rlog =
        (s.tenant c).rlog.consume v := by
      rw [State.modTenant_same hwf, hu]
      rfl
    have hop : opTnRlogConsWrite c v u = u.modTenant c fun t => { t with rlog := t.rlog.consume v } := by
      have hmay : (isClient c && u.exists_ c && fnReachable u c) = true := by
        rw [hu]
        change (isClient c && s.exists_ c && fnReachable s c) = true
        rw [hc, hex, hreach]
        rfl
      unfold opTnRlogConsWrite rlogResume
      rw [if_pos hmay]
      dsimp only
      rw [hcons, if_pos (by rw [LogRing.consume_held, hheld]; rfl)]
    rw [← hu, hop]
    refine ⟨hcons, by rw [hu]; rfl, fun d hd => ?_⟩
    rw [State.modTenant_other _ _ _ _ hd, hu]
    rfl

end Sys2Proof.Machine
end

section
/-! SUPPORT. The mailboxes of functions (R307 to R313): what an operation of one leaves of every client's state, and what
decides a read of the keeper. The theorem that settles O42. -/

namespace Sys2Proof.Machine

open Host

/-! ## Operations of one mailbox -/

section

variable {c : Nat} {m : Mbox} {s t u : State} {quiet : Prop}

/-- The mailboxes of client `c` hold `m`, and, where nothing loud has happened, every other client is as it was. -/
structure Mailed (quiet : Prop) (c : Nat) (s t : State) (m : Mbox) : Prop where
  inv : t.Inv
  mb : (t.tenant c).mb = m
  others : quiet → OtherTenants c s t

theorem Mailed.refl (hs : s.Inv) (c : Nat) (quiet : Prop) : Mailed quiet c s s (s.tenant c).mb :=
  ⟨hs, rfl, fun _ _ _ => rfl⟩

theorem Mailed.keeps {F : Foot} (h : Mailed quiet c s u m) (hk : Keeps F u t) (hF : F.tenants = false) :
    Mailed quiet c s t m :=
  ⟨hk.inv h.inv, by rw [hk.tenant_eq hF, h.mb], fun hq d hd => (hk.tenant_eq hF d).trans (h.others hq d hd)⟩

theorem Mailed.modTenant (h : Mailed quiet c s t m) {f : Tenant → Tenant} {g : Mbox → Mbox}
    (hf : ∀ x, (f x).mb = g x.mb) : Mailed quiet c s (t.modTenant c f) (g m) where
  inv := (modTenant_keeps (F := { tenants := true }) t c _ rfl (Keeps.refl _ t)).inv h.inv
  mb := by rw [State.modTenant_same h.inv.wf, hf, h.mb]
  others hq d hd := by rw [State.modTenant_other _ _ _ _ hd, h.others hq d hd]

theorem Mailed.modMail (h : Mailed quiet c s t m) (f : Mbox → Mbox) : Mailed quiet c s (modMail t c f) (f m) :=
  h.modTenant fun _ => rfl

/-- A vector of the client pends, or its drop is counted. -/
theorem Mailed.signalVec (h : Mailed quiet c s t m) (v : Nat) : Mailed quiet c s (signalVec t c v) m := by
  unfold Machine.signalVec
  split
  · exact h.keeps (modFunc_keeps (F := { fns := true }) t c _ rfl (Keeps.refl _ t)) rfl
  · exact h.modTenant (g := fun x => x) fun _ => rfl

theorem Mailed.signalIf (h : Mailed quiet c s t m) (b : Bool) (v : Nat) :
    Mailed quiet c s (if b then Machine.signalVec t c v else t) m := by
  cases b with
  | false => exact h
  | true => exact h.signalVec v

/-- A message that replaces none joins those that the keeper holds. -/
theorem Mailed.mailFor (h : Mailed quiet c s t m) {x : Mail} (hpool : m.poolN ≠ 0) (hx : x.word.getLsbD 9 = false) :
    Mailed quiet c s (mailFor t c x) { m with held := m.held ++ [x] } := by
  unfold Machine.mailFor
  dsimp only
  rw [h.mb, if_neg hpool, hx, Bool.false_and, if_neg Bool.false_ne_true]
  exact h.modTenant (g := fun y => { y with held := y.held ++ [x] }) fun _ => rfl

/-- A reply is no notice (R307). -/
theorem replyWord_reply (w : W32) (r : Nat) : (replyWord w r).getLsbD 9 = false := by
  have htype : mailType w < 256 := by
    unfold mailType bits
    exact Nat.mod_lt _ (by decide)
  rw [replyWord, BitVec.getLsbD_ofNat, Nat.testBit_eq_decide_div_mod_eq]
  simp only [show (9 : Nat) < 32 from by decide, decide_true, Bool.true_and, decide_eq_false_iff_not]
  omega

theorem Mailed.reply (h : Mailed quiet c s t m) (hpool : m.poolN ≠ 0) (w : W32) (r : Nat) (b : Bytes) :
    Mailed quiet c s (reply t c w r b) { m with held := m.held ++ [{ word := replyWord w r, body := b }] } :=
  h.mailFor hpool (replyWord_reply w r)

theorem Mailed.refuse (h : Mailed quiet c s t m) (hpool : m.poolN ≠ 0) (w : W32) (r : Nat) :
    Mailed quiet c s (refuseMail t c w r)
      { m with read := none, held := m.held ++ [{ word := replyWord w r, body := [] }] } :=
  (h.modMail fun m => { m with read := none }).reply hpool w r []

/-! ## Reads of the keeper -/

theorem signalVec_mb (hs : s.wf = true) (c v d : Nat) : ((signalVec s c v).tenant d).mb = (s.tenant d).mb := by
  unfold signalVec
  split
  · rfl
  · by_cases hd : d = c
    · rw [hd, State.modTenant_same hs]
    · rw [State.modTenant_other _ _ _ _ hd]

/-- Raising a source moves the drop counts of clients alone. -/
theorem raise_mb (hs : s.Inv) (src : Nat) (info : W32) (d : Nat) : ((raise s src info).tenant d).mb = (s.tenant d).mb := by
  have hev : ∀ {e}, Keeps { ev := true } s { s with ev := e } := Keeps.set_ev rfl (Keeps.refl _ s)
  have hrec : ∀ {e} b, Keeps { ev := true } s (recMerge { s with ev := e } src info b) := fun b =>
    recMerge_keeps _ _ _ _ rfl hev
  unfold raise
  dsimp only
  split <;> split
  · exact signalVec_mb ((hrec _).wf hs) _ _ d
  · exact signalVec_mb (hev.wf hs) _ _ d
  · rfl
  · rfl

/-- What the read of a function that has timed out leaves: its event may reach the manager's vectors (R420). -/
theorem Mailed.timedOut (h : Mailed quiet c s t m) (fn : Nat) : Mailed False c s (timedOut t fn) m := by
  have hmark : Keeps { hi := true, fns := true, aon := true } t (stick (if isFn fn then
      { t with hi.timeouts := satAdd 65535 t.hi.timeouts 1 }.modFunc fn fun f => { f with aerCto := true }
      else { t with hi.timeouts := satAdd 65535 t.hi.timeouts 1 }) 105) := by
    refine Keeps.set_aon rfl ?_
    split
    · exact modFunc_keeps _ _ _ rfl (Keeps.set_hi rfl (Keeps.refl _ t))
    · exact Keeps.set_hi rfl (Keeps.refl _ t)
  unfold Machine.timedOut
  dsimp only
  rw [sticky_hive (by decide)]
  refine ⟨(raiseHive_signals _ _ _).inv (hmark.inv h.inv), ?_, False.elim⟩
  rw [raiseHive, raise_mb (hmark.inv h.inv), hmark.tenant_eq rfl, h.mb]

theorem Mailed.mono {q : Prop} (h : Mailed quiet c s t m) (hq : q → quiet) : Mailed q c s t m :=
  ⟨h.inv, h.mb, fun hx => h.others (hq hx)⟩

theorem Mailed.keeperRead (h : Mailed quiet c s t m) (a n : Nat) {e : ReadEnd} (hq : quiet → e ≠ .timeout) :
    Mailed quiet c s (keeperRead t c a n e).2 m := by
  have hissue : ∀ l : List Req, Mailed quiet c s (t.each l keeperIssue) m := fun l =>
    h.keeps (F := { hi := true, dma := true, out := true })
      (Keeps.each l _ (fun x r hx => keeperIssue_keeps x r rfl rfl rfl hx) (Keeps.refl _ t)) rfl
  have hend : ∀ l : List Req, Mailed quiet c s (keeperEnd (t.each l keeperIssue) c e) m := fun l => by
    cases e with
    | ok => exact hissue l
    | error => exact (hissue l).keeps (F := { hi := true }) (Keeps.set_hi rfl (Keeps.refl _ _)) rfl
    | poisoned => exact (hissue l).keeps (F := { hi := true }) (Keeps.set_hi rfl (Keeps.refl _ _)) rfl
    | timeout => exact ((hissue l).timedOut c).mono fun hx => hq hx rfl
  unfold Machine.keeperRead
  split
  · exact h
  · split
    · exact h
    split
    · exact h
    split
    · exact h
    split
    · exact h.keeps (askXlate_keeps (F := { hi := true, dma := true, out := true }) _ _ _ _ rfl rfl rfl (Keeps.refl _ t)) rfl
    · split
      · exact hend _
      · exact h

/-- What decides a read of the keeper. -/
theorem keeperRead_congr (hw : SameWays s t) (hdma : t.dma = s.dma) (hhi : t.hi = s.hi) (hjobs : t.jobs = s.jobs)
    (c a n : Nat) (e e' : ReadEnd) : (keeperRead t c a n e).1 = (keeperRead s c a n e').1 := by
  have hcuts : ∀ c step a n wr, reqCuts t c step a n wr = reqCuts s c step a n wr := fun c step a n wr => by
    simp only [reqCuts, hw.windowed]
  have hwin : ∀ r : Req, r.inWindow t = r.inWindow s := fun r => by
    simp only [Req.inWindow, hw.windowed, hw.win]
  have hpieces : readPieces t c a n (fun _ => .mirror 0) false = readPieces s c a n (fun _ => .mirror 0) false := by
    simp only [readPieces, hcuts, hwin, State.mrrs, hw.cap, Bool.false_and]
  have hreqs : hostReqs t = hostReqs s := by simp only [hostReqs, State.reqs, hdma]
  have hroom : ∀ l, keeperRoom t c l = keeperRoom s c l := fun l => by
    have hone : ∀ r, reqRoom t r = reqRoom s r := fun r => by
      unfold reqRoom State.job
      rw [hjobs]
    have htag : t.tagLimit = s.tagLimit := by
      unfold State.tagLimit
      rw [hw.cap]
    have hfree : tagFree t c = tagFree s c := by
      unfold tagFree
      rw [hreqs, htag, hhi]
    have hcpl : t.cplUsed = s.cplUsed := by
      unfold State.cplUsed
      rw [hreqs, hjobs]
      simp only [hone]
    unfold keeperRoom
    rw [hfree, hcpl]
  have hread : ∀ l, readable t l = readable s l := fun l => by simp only [readable, hw.xlated]
  unfold keeperRead
  rw [hpieces]
  cases readPieces s c a n (fun _ => .mirror 0) false with
  | none => rfl
  | some l =>
    dsimp only
    rw [hread, hw.busMaster, hroom]
    simp only [hw.xlated]
    split
    · rfl
    split
    · rfl
    split
    · rfl
    split
    · rfl
    · split <;> rfl

/-- A read that waits has met no end. -/
theorem keeperRead_waits {a n : Nat} {e : ReadEnd} (h : (keeperRead t c a n e).1 = .waits) :
    keeperRead t c a n e = keeperRead t c a n .ok := by
  unfold keeperRead at h ⊢
  split
  · rfl
  next hl =>
    rw [hl] at h
    dsimp only at h
    split
    · rfl
    next h1 =>
      rw [if_neg h1] at h
      split
      · rfl
      next h2 =>
        rw [if_neg h2] at h
        split
        · rfl
        next h3 =>
          rw [if_neg h3] at h
          split
          · rfl
          next hx =>
            rw [hx] at h
            dsimp only at h
            split
            next h4 => rw [if_pos h4] at h; contradiction
            next => rfl

/-! ## The read of a request -/

/-- The keeper has taken the word of the request (R308). -/
def wordTakenOf (s : State) (c : Nat) : State :=
  let u := modMail s c fun m => { m with h2kFull := false }
  if (s.tenant c).mb.h2kIe then signalVec u c (s.tenant c).mb.vec else u

theorem wordTakenOf_mailed (hs : s.Inv) (c : Nat) (quiet : Prop) :
    Mailed quiet c s (wordTakenOf s c) { (s.tenant c).mb with h2kFull := false } :=
  ((Mailed.refl hs c quiet).modMail fun m => { m with h2kFull := false }).signalIf _ _

theorem modMail_sameWays (hs : s.wf = true) (c : Nat) (f : Mbox → Mbox) : SameWays s (modMail s c f) := by
  refine ⟨fun d => ?_, fun _ => ⟨_, rfl⟩, rfl, rfl, rfl, rfl⟩
  by_cases hd : d = c
  · rw [hd, modMail, State.modTenant_same hs]
  · rw [modMail, State.modTenant_other _ _ _ _ hd]

def mailFoot : Foot := { fns := true, tenants := true }

theorem wordTakenOf_foot (s : State) (c : Nat) : Keeps mailFoot s (wordTakenOf s c) := by
  have hmod : Keeps mailFoot s (modMail s c fun m => { m with h2kFull := false }) :=
    modTenant_keeps _ _ _ rfl (Keeps.refl _ s)
  unfold wordTakenOf
  dsimp only
  split
  · exact signalVec_keeps _ _ _ rfl rfl hmod
  · exact hmod

theorem wordTakenOf_sameWays (hs : s.Inv) (c : Nat) : SameWays s (wordTakenOf s c) := by
  have hmod : Keeps mailFoot s (modMail s c fun m => { m with h2kFull := false }) :=
    modTenant_keeps _ _ _ rfl (Keeps.refl _ s)
  have hways := modMail_sameWays hs.wf c fun m => { m with h2kFull := false }
  unfold wordTakenOf
  dsimp only
  split
  · exact hways.trans (SameWays.signalVec (hmod.wf hs) _ _)
  · exact hways

/-- The request as the keeper takes it. -/
def requestOf (m : Mbox) : MailRead := { word := m.h2kMsg, addr := m.h2kAddr, len := m.h2kLen, epoch := m.fepoch }

/-- The keeper holds the request. -/
def requestHeld (s : State) (c : Nat) : State :=
  modMail (wordTakenOf s c) c fun m => { m with read := some (requestOf (s.tenant c).mb) }

theorem opH2kKeeperRead_takes (h : MessageWaits s c) (hr : (s.tenant c).mb.read = none)
    (hfree : (s.tenant c).mb.replies < 16) (read : ReadEnd) (body : Bytes) :
    opH2kKeeperRead c read body s = readBody (requestHeld s c) c read body := by
  obtain ⟨-, hfn, hk, hfull⟩ := h
  unfold opH2kKeeperRead
  dsimp only
  rw [decide_eq_false (by omega), hfn, hk, hfull, hr]
  rfl

theorem opH2kKeeperRead_drops (h : MessageWaits s c) (hfull : 16 ≤ (s.tenant c).mb.replies) (read : ReadEnd) (body : Bytes) :
    opH2kKeeperRead c read body s = modMail (wordTakenOf s c) c fun m =>
      { m with drop := true, dropSeq := BitVec.ofNat 16 ((s.tenant c).mb.h2kMsg.toNat / 65536) } := by
  obtain ⟨-, hfn, hk, hh⟩ := h
  unfold opH2kKeeperRead
  dsimp only
  rw [decide_eq_true hfull, hfn, hk, hh]
  simp only [Bool.not_true, Bool.and_false, Bool.or_self, Bool.false_eq_true, if_false, if_true]
  rfl

/-- The mailboxes when the keeper holds the request. -/
def holding (m : Mbox) : Mbox := { m with h2kFull := false, read := some (requestOf m) }

theorem requestHeld_mailed (hs : s.Inv) (c : Nat) (quiet : Prop) :
    Mailed quiet c s (requestHeld s c) (holding (s.tenant c).mb) :=
  (wordTakenOf_mailed hs c quiet).modMail fun m => { m with read := some (requestOf (s.tenant c).mb) }

theorem requestHeld_ways (hs : s.Inv) (c : Nat) : SameWays s (requestHeld s c) :=
  (wordTakenOf_sameWays hs c).trans (modMail_sameWays ((wordTakenOf_foot s c).wf hs) c _)

theorem requestHeld_foot (s : State) (c : Nat) : Keeps mailFoot s (requestHeld s c) :=
  modTenant_keeps _ _ _ rfl (wordTakenOf_foot s c)

/-- What becomes of the read of the body is what the request met before its word was taken. -/
theorem requestHeld_read (hs : s.Inv) (c : Nat) (e : ReadEnd) :
    (keeperRead (requestHeld s c) c (s.tenant c).mb.h2kAddr.toNat (s.tenant c).mb.h2kLen e).1 = bodyRead s c :=
  keeperRead_congr (requestHeld_ways hs c) ((requestHeld_foot s c).dma_eq rfl) ((requestHeld_foot s c).hi_eq rfl)
    ((requestHeld_foot s c).jobs_eq rfl) c _ _ e .ok

/-- The body has come. -/
def bodyGot (m : Mbox) (body : Bytes) : Mbox :=
  { m with h2kFull := false, read := some { requestOf m with body := some (fit body m.h2kLen) } }

/-- The request has been refused with a RESULT. -/
def refused (m : Mbox) (r : Nat) : Mbox :=
  { m with h2kFull := false, held := m.held ++ [{ word := replyWord m.h2kMsg r, body := [] }] }

variable {read : ReadEnd} {body : Bytes}

theorem refuse_held (hr : (s.tenant c).mb.read = none) (hpool : (s.tenant c).mb.poolN ≠ 0)
    (h : Mailed quiet c s t (holding (s.tenant c).mb)) (r : Nat) :
    Mailed quiet c s (refuseMail t c (s.tenant c).mb.h2kMsg r) (refused (s.tenant c).mb r) := by
  have hdone := h.refuse hpool (s.tenant c).mb.h2kMsg r
  rwa [show ({ holding (s.tenant c).mb with
      read := none
      held := (holding (s.tenant c).mb).held ++ [{ word := replyWord (s.tenant c).mb.h2kMsg r, body := [] }] } : Mbox) =
    refused (s.tenant c).mb r from by unfold holding refused; rw [hr]] at hdone

theorem readBody_malformed (hs : s.Inv) (hr : (s.tenant c).mb.read = none) (hpool : (s.tenant c).mb.poolN ≠ 0)
    (hbad : mailMalformed (s.tenant c).mb.h2kMsg = true) :
    Mailed quiet c s (readBody (requestHeld s c) c read body) (refused (s.tenant c).mb 1) := by
  have hheld := requestHeld_mailed hs c quiet
  have heq : readBody (requestHeld s c) c read body = refuseMail (requestHeld s c) c (s.tenant c).mb.h2kMsg 1 := by
    unfold readBody
    rw [hheld.mb]
    change (if mailMalformed (s.tenant c).mb.h2kMsg = true then _ else _) = _
    exact if_pos hbad
  rw [heq]
  exact refuse_held hr hpool hheld 1

theorem readBody_long (hs : s.Inv) (hr : (s.tenant c).mb.read = none) (hpool : (s.tenant c).mb.poolN ≠ 0)
    (hbad : mailMalformed (s.tenant c).mb.h2kMsg = false) (hlong : 4096 < (s.tenant c).mb.h2kLen) :
    Mailed quiet c s (readBody (requestHeld s c) c read body) (refused (s.tenant c).mb 3) := by
  have hheld := requestHeld_mailed hs c quiet
  have heq : readBody (requestHeld s c) c read body = refuseMail (requestHeld s c) c (s.tenant c).mb.h2kMsg 3 := by
    unfold readBody
    rw [hheld.mb]
    change (if mailMalformed (s.tenant c).mb.h2kMsg = true then _
      else if 4096 < (s.tenant c).mb.h2kLen then _ else _) = _
    rw [if_neg (by rw [hbad]; decide), if_pos hlong]
    rfl
  rw [heq]
  exact refuse_held hr hpool hheld 3

/-- What the outcome of the read makes of the request. -/
def bodyEnds (s : State) (c : Nat) (read : ReadEnd) (body : Bytes) (r : Wrote × State) : State :=
  match r with
  | (.waits, u) => u
  | (.issued, u) =>
    if read = .ok then
      modMail u c fun m => { m with read := some { requestOf (s.tenant c).mb with
        body := some (fit body (s.tenant c).mb.h2kLen) } }
    else refuseMail u c (s.tenant c).mb.h2kMsg 3
  | (_, u) => refuseMail u c (s.tenant c).mb.h2kMsg 3

theorem readBody_empty (hs : s.Inv) (hbad : mailMalformed (s.tenant c).mb.h2kMsg = false)
    (hlen : (s.tenant c).mb.h2kLen = 0) :
    Mailed quiet c s (readBody (requestHeld s c) c read body) (bodyGot (s.tenant c).mb body) := by
  have hheld := requestHeld_mailed hs c quiet
  have heq : readBody (requestHeld s c) c read body = modMail (requestHeld s c) c fun m =>
      { m with read := some { requestOf (s.tenant c).mb with body := some (fit body (s.tenant c).mb.h2kLen) } } := by
    unfold readBody
    rw [hheld.mb]
    change (if mailMalformed (s.tenant c).mb.h2kMsg = true then _
      else if 4096 < (s.tenant c).mb.h2kLen then _ else if (s.tenant c).mb.h2kLen = 0 then _ else _) = _
    rw [if_neg (by rw [hbad]; decide), if_neg (by omega), if_pos hlen]
    rfl
  rw [heq]
  exact hheld.modMail fun m =>
    { m with read := some { requestOf (s.tenant c).mb with body := some (fit body (s.tenant c).mb.h2kLen) } }

theorem readBody_reads (hs : s.Inv) (hbad : mailMalformed (s.tenant c).mb.h2kMsg = false)
    (hlong : (s.tenant c).mb.h2kLen ≤ 4096) (hlen : (s.tenant c).mb.h2kLen ≠ 0) :
    readBody (requestHeld s c) c read body = bodyEnds s c read body
      (keeperRead (requestHeld s c) c (s.tenant c).mb.h2kAddr.toNat (s.tenant c).mb.h2kLen read) := by
  unfold readBody
  rw [(requestHeld_mailed hs c True).mb]
  change (if mailMalformed (s.tenant c).mb.h2kMsg = true then _
    else if 4096 < (s.tenant c).mb.h2kLen then _ else if (s.tenant c).mb.h2kLen = 0 then _ else _) = _
  rw [if_neg (by rw [hbad]; decide), if_neg (by omega), if_neg hlen]
  unfold bodyEnds
  rfl

/-- The read of the body goes on from the request that is held, as it was judged. -/
theorem bodyRead_mailed (hs : s.Inv) (hq : quiet → read ≠ .timeout) :
    ∃ u, keeperRead (requestHeld s c) c (s.tenant c).mb.h2kAddr.toNat (s.tenant c).mb.h2kLen read = (bodyRead s c, u) ∧
      Mailed quiet c s u (holding (s.tenant c).mb) := by
  have hfst := requestHeld_read hs c read
  have hsnd := (requestHeld_mailed hs c quiet).keeperRead (s.tenant c).mb.h2kAddr.toNat (s.tenant c).mb.h2kLen hq
  generalize keeperRead (requestHeld s c) c (s.tenant c).mb.h2kAddr.toNat (s.tenant c).mb.h2kLen read = r at hfst hsnd ⊢
  exact ⟨r.2, Prod.ext hfst rfl, hsnd⟩

theorem bodyEnds_ok (h : Mailed quiet c s t (holding (s.tenant c).mb)) :
    Mailed quiet c s (bodyEnds s c .ok body (.issued, t)) (bodyGot (s.tenant c).mb body) := by
  unfold bodyEnds
  exact h.modMail fun m =>
    { m with read := some { requestOf (s.tenant c).mb with body := some (fit body (s.tenant c).mb.h2kLen) } }

theorem bodyEnds_refused {w : Wrote} (hr : (s.tenant c).mb.read = none) (hpool : (s.tenant c).mb.poolN ≠ 0)
    (hw : w = .refused ∨ w = .denied ∨ w = .issued ∧ read ≠ .ok)
    (h : Mailed quiet c s t (holding (s.tenant c).mb)) :
    Mailed quiet c s (bodyEnds s c read body (w, t)) (refused (s.tenant c).mb 3) := by
  unfold bodyEnds
  rcases hw with rfl | rfl | ⟨rfl, hread⟩
  · exact refuse_held hr hpool h 3
  · exact refuse_held hr hpool h 3
  · dsimp only
    rw [if_neg hread]
    exact refuse_held hr hpool h 3

/-! ## Answers and posts -/

theorem answer_mailed {r : MailRead} {b : Bytes} {isType : Nat → Bool} (hs : s.Inv) (hk : s.keeperOk = true)
    (hr : (s.tenant c).mb.read = some r) (hb : r.body = some b) (he : r.epoch = (s.tenant c).mb.fepoch)
    (ht : isType (mailType r.word) = true) (hpool : (s.tenant c).mb.poolN ≠ 0) (result : Nat) (echo : Bool) :
    Mailed quiet c s (answer s c isType result echo) { (s.tenant c).mb with
      read := none
      held := (s.tenant c).mb.held ++ [{ word := replyWord r.word result, body := if echo then b else [] }] } := by
  have hfree := (Mailed.refl hs c quiet).modMail fun m => { m with read := none }
  have heq : answer s c isType result echo =
      reply (modMail s c fun m => { m with read := none }) c r.word result (if echo then b else []) := by
    unfold answer
    rw [hr]
    dsimp only
    rw [if_neg (by simp [hk, hb, ht]), hfree.mb, if_pos he, hb]
    rfl
  rw [heq]
  exact hfree.reply hpool r.word result _

/-- The mailboxes when the message at the front has been posted. -/
def posted (m : Mbox) (h : Mail) (rest : List Mail) (a : W64) : Mbox :=
  { m with held := rest, k2hAddr := a, k2hLen := h.body.length, k2hMsg := h.word, k2hFull := true, count := m.count + 1 }

/-- The message's word appears, and its vector is signalled. -/
def postWord (s t : State) (c : Nat) (h : Mail) (rest : List Mail) : State :=
  let u := modMail t c fun m => posted m h rest (bufferAt s c)
  if (s.tenant c).mb.k2hIe then signalVec u c (s.tenant c).mb.vec else u

theorem postWord_mailed {h : Mail} {rest : List Mail} (ht : Mailed quiet c s t (s.tenant c).mb) :
    Mailed quiet c s (postWord s t c h rest) (posted (s.tenant c).mb h rest (bufferAt s c)) :=
  (ht.modMail fun m => posted m h rest (bufferAt s c)).signalIf _ _

theorem postWord_foot (s t : State) (c : Nat) (h : Mail) (rest : List Mail) :
    Keeps mailFoot t (postWord s t c h rest) := by
  have hmod : Keeps mailFoot t (modMail t c fun m => posted m h rest (bufferAt s c)) :=
    modTenant_keeps _ _ _ rfl (Keeps.refl _ t)
  unfold postWord
  dsimp only
  split
  · exact signalVec_keeps _ _ _ rfl rfl hmod
  · exact hmod

theorem opK2hPost_posts {h : Mail} {rest : List Mail} (hp : PostDue s c h rest)
    (hw : (if h.body.isEmpty then (Wrote.issued, s) else bodyWrite s c (bufferAt s c).toNat h.body) = (.issued, t)) :
    opK2hPost c s = postWord s t c h rest := by
  obtain ⟨-, hfn, hk, hbm, hheld, hfull, hpool⟩ := hp
  unfold opK2hPost
  dsimp only
  rw [hheld]
  dsimp only
  rw [if_neg (by simp [hfn, hk, hbm, hfull, hpool])]
  rw [show (s.tenant c).mb.pool + BitVec.ofNat 64 ((s.tenant c).mb.count % (s.tenant c).mb.poolN * 4096) =
    bufferAt s c from rfl, hw]
  rfl

/-- A message without a body. -/
theorem k2hPost_bare {h : Mail} {rest : List Mail} (hp : PostDue s c h rest) (hb : h.body = []) :
    Completes (.k2hPost c) s fun t =>
      (t.tenant c).mb = { (s.tenant c).mb with
        held := rest, k2hLen := 0, k2hMsg := h.word, k2hFull := true, k2hAddr := bufferAt s c,
        count := (s.tenant c).mb.count + 1 } ∧ t.out = s.out ∧ OtherTenants c s t := by
  have hpost := postWord_mailed (h := h) (rest := rest) (Mailed.refl hp.1.inv c True)
  refine Completes.ofOp rfl (opK2hPost_posts hp (t := s) (by rw [hb]; rfl))
    ⟨hpost.mb.trans ?_, ((postWord_foot s s c h rest).out_eq rfl), hpost.others trivial⟩
  unfold posted
  rw [hb]
  rfl

/-- A message with a body, which leaves in requests of at most Max_Payload_Size. -/
theorem k2hPost_body {tgt a x : Nat} {pasid : Option Nat} {h : Mail} {rest : List Mail} (hp : PostDue s c h rest)
    (hb : h.body ≠ []) (hpage : InPage (bufferAt s c).toNat h.body.length)
    (hw : windowed s c (bufferAt s c).toNat h.body.length true = some (tgt, a, pasid))
    (hx : xlated s c tgt a pasid true = .to x) :
    Completes (.k2hPost c) s fun t =>
      (t.tenant c).mb = { (s.tenant c).mb with
        held := rest, k2hLen := h.body.length, k2hMsg := h.word, k2hFull := true, k2hAddr := bufferAt s c,
        count := (s.tenant c).mb.count + 1 } ∧ OtherTenants c s t ∧
      Sends s t (PageWrites s c tgt (bufferAt s c).toNat x pasid false false h.body) := by
  obtain ⟨u, hu, hsent⟩ := bodyWrite_page hp.2.2.2.1 hb hpage hw hx
  have hkept : Mailed True c s u (s.tenant c).mb := by
    obtain ⟨_, _, _, _, _, _, rfl, -, -⟩ := hsent
    exact ⟨⟨hp.1.inv.wf, hp.1.inv.2⟩, rfl, fun _ _ _ => rfl⟩
  have hpost := postWord_mailed (h := h) (rest := rest) hkept
  have hfoot := postWord_foot s u c h rest
  refine Completes.ofOp rfl (opK2hPost_posts hp (t := u) (by rw [if_neg (by simpa using hb)]; exact hu))
    ⟨hpost.mb, hpost.others trivial, ?_⟩
  obtain ⟨k, hk, hfilter, hoff⟩ := hsent.sends
  exact ⟨k, (hfoot.out_eq rfl).trans hk, hfilter, hoff⟩

/-! ## Registers -/

theorem mailOpen_entered (h : Entered s u) (hopen : mailOpen s c = true) : mailOpen u c = true := by
  rw [← hopen, mailOpen, mailOpen, h.exists_, h.fnReachable]

theorem Entered.mailed (h : Entered s u) (hs : s.Inv) (c : Nat) : Mailed True c s u (s.tenant c).mb :=
  ⟨h.inv hs, by rw [h.tenant], fun _ d _ => h.tenant d⟩

theorem mailed_of_modMail (hs : Running s) (h : Entered s u) (f : Mbox → Mbox) :
    Mailed True c s (modMail u c f) (f (s.tenant c).mb) := (h.mailed hs.inv c).modMail f

end

/-- Settles O42: each operation of a mailbox changes the mailboxes of its client by a function of what they hold, and
the read of a request's body is decided before its word is taken. -/
theorem mailboxes : Obligations.Mailboxes := by
  refine ⟨fun c v s hs hpwr hopen => ?_, fun c read body s h hfull => ?_, fun c read body s h hr hfree hbad hpool => ?_,
    fun c read body s h hr hfree hbad hlong hpool => ?_, fun c body s h hbody => ?_, fun c read body s h hlen hw => ?_,
    fun c read body s h hlen hw hpool => ?_, fun c r b s hs hk hr hb he ht hpool => ?_,
    fun c r b s hs hk hr hb he ht hpool => ?_, fun c h rest s hp hb => k2hPost_bare hp hb,
    fun c tgt a x pasid h rest s hp hb hpage hw hx => k2hPost_body hp hb hpage hw hx, fun c s hs hpwr hopen => ?_,
    fun c v s hs hpwr hopen => ?_, fun c v s hs hpwr hopen => ?_⟩
  · have he : Entered s (fnActive (wake s 1) c) := fnActive_wake_entered s 1 c
    refine Completes.ofAwake rfl hs hpwr ?_
    unfold opMbH2kMsgWrite
    rw [mailOpen_entered he hopen, if_neg (by decide)]
    have hm := mailed_of_modMail (c := c) hs he fun m =>
      if m.h2kFull || mailType v = 0 then { m with h2kErr := true } else { m with h2kMsg := v, h2kFull := true }
    refine ⟨hm.mb.trans (if_congr ?_ rfl rfl), hm.others trivial⟩
    simp only [Bool.or_eq_true, decide_eq_true_eq]
  · have hm := (wordTakenOf_mailed h.1.inv c True).modMail fun m =>
      { m with drop := true, dropSeq := BitVec.ofNat 16 ((s.tenant c).mb.h2kMsg.toNat / 65536) }
    exact Completes.ofOp rfl (opH2kKeeperRead_drops h hfull read body) ⟨hm.mb, hm.others trivial⟩
  · have hm := readBody_malformed (quiet := True) (read := read) (body := body) h.1.inv hr hpool hbad
    exact Completes.ofOp rfl (opH2kKeeperRead_takes h hr hfree read body) ⟨hm.mb, hm.others trivial⟩
  · have hm := readBody_long (quiet := True) (read := read) (body := body) h.1.inv hr hpool hbad hlong
    exact Completes.ofOp rfl (opH2kKeeperRead_takes h hr hfree read body) ⟨hm.mb, hm.others trivial⟩
  · obtain ⟨hwaits, hr, hfree, hbad, hshort⟩ := h
    refine Completes.ofOp rfl (opH2kKeeperRead_takes hwaits hr hfree .ok body) ?_
    by_cases hlen : (s.tenant c).mb.h2kLen = 0
    · have hm := readBody_empty (quiet := True) (read := .ok) (body := body) hwaits.1.inv hbad hlen
      exact ⟨hm.mb, hm.others trivial⟩
    · obtain ⟨u, hu, hheld⟩ := bodyRead_mailed (quiet := True) (read := .ok) (c := c) hwaits.1.inv fun _ => by decide
      rw [readBody_reads hwaits.1.inv hbad hshort hlen, hu, hbody.resolve_left hlen]
      have hm := bodyEnds_ok (body := body) hheld
      exact ⟨hm.mb, hm.others trivial⟩
  · obtain ⟨hwaits, hr, hfree, hbad, hshort⟩ := h
    have hfst := (requestHeld_read hwaits.1.inv c read).trans hw
    have hm : Mailed True c s (keeperRead (requestHeld s c) c (s.tenant c).mb.h2kAddr.toNat (s.tenant c).mb.h2kLen
        read).2 (holding (s.tenant c).mb) := by
      rw [keeperRead_waits hfst]
      exact (requestHeld_mailed hwaits.1.inv c True).keeperRead _ _ fun _ => by decide
    refine Completes.ofOp rfl (opH2kKeeperRead_takes hwaits hr hfree read body) ?_
    rw [readBody_reads hwaits.1.inv hbad hshort hlen]
    generalize keeperRead (requestHeld s c) c (s.tenant c).mb.h2kAddr.toNat (s.tenant c).mb.h2kLen read = r at hfst hm ⊢
    obtain ⟨w, u⟩ := r
    obtain rfl : w = .waits := hfst
    exact ⟨hm.mb, hm.others trivial⟩
  · obtain ⟨hwaits, hr, hfree, hbad, hshort⟩ := h
    obtain ⟨u, hu, hheld⟩ := bodyRead_mailed (quiet := read ≠ .timeout) (read := read) (c := c) hwaits.1.inv id
    refine Completes.ofOp rfl (opH2kKeeperRead_takes hwaits hr hfree read body) ?_
    rw [readBody_reads hwaits.1.inv hbad hshort hlen, hu]
    have hm := bodyEnds_refused (body := body) hr hpool hw hheld
    exact ⟨hm.mb, hm.others⟩
  · have hm := answer_mailed (quiet := True) (isType := (· == 1)) hs.inv hk hr hb he (by simp [ht]) hpool 0 true
    exact Completes.ofOp rfl rfl ⟨hm.mb, hm.others trivial⟩
  · have hm := answer_mailed (quiet := True) (isType := (· != 1)) hs.inv hk hr hb he (by simp [ht]) hpool 2 false
    exact Completes.ofOp rfl rfl ⟨hm.mb, hm.others trivial⟩
  · have he : Entered s (wake s 1) := wake_entered s 1
    refine Completes.ofAwake rfl hs hpwr ?_
    unfold opMbK2hMsgRead
    rw [mailOpen_entered he hopen, if_neg (by decide)]
    have hm := mailed_of_modMail (c := c) hs he fun m => { m with k2hMsg := 0, k2hFull := false }
    exact ⟨by rw [he.tenant], hm.mb, hm.others trivial⟩
  · have he : Entered s (fnActive (wake s 1) c) := fnActive_wake_entered s 1 c
    refine Completes.ofAwake rfl hs hpwr ?_
    unfold opMbPoolRegister
    rw [mailOpen_entered he hopen, if_neg (by decide)]
    have hm := mailed_of_modMail (c := c) hs he fun m => { m with pool := v &&& ~~~0xFFF#64, count := 0 }
    exact ⟨hm.mb, hm.others trivial⟩
  · have he : Entered s (fnActive (wake s 1) c) := fnActive_wake_entered s 1 c
    refine Completes.ofAwake rfl hs hpwr ?_
    unfold opMbPoolRegister
    rw [mailOpen_entered he hopen, if_neg (by decide)]
    have hm := mailed_of_modMail (c := c) hs he fun m =>
      { m with
        poolN := min 16 (bits v.toNat 4 0), vec := bits v.toNat 15 5, k2hIe := v.getLsbD 16, h2kIe := v.getLsbD 17
        count := 0, held := if min 16 (bits v.toNat 4 0) = 0 then [] else m.held }
    dsimp only
    refine ⟨?_, ?_, ?_, ?_, fun hnone => ?_, hm.others trivial⟩
    · exact congrArg (·.poolN) hm.mb
    · exact congrArg (·.count) hm.mb
    · exact congrArg (·.vec) hm.mb
    · exact congrArg (·.pool) hm.mb
    · exact (congrArg (·.held) hm.mb).trans (if_pos (by rw [hnone]; rfl))

end Sys2Proof.Machine
end

section
/-! SUPPORT. Packets of peer clients (R347 to R360): what a word of the ingress and a packet that the reader takes leave
of the store. -/

namespace Sys2Proof.Machine

open Host

/-! ## The store -/

section

variable {s t u : State} {k : Nat} {p : Packet}

/-- Of the packets, number `k` alone has changed, and is `p` now. -/
structure SetsPacket (k : Nat) (p : Packet) (s t : State) : Prop where
  inv : t.Inv
  packet : tblGet {} t.peer.packets k = p
  others : ∀ j, j ≠ k → tblGet {} t.peer.packets j = tblGet {} s.peer.packets j

theorem SetsPacket.refl (hs : s.Inv) : SetsPacket k (tblGet {} s.peer.packets k) s s := ⟨hs, rfl, fun _ _ => rfl⟩

theorem SetsPacket.modPacket (h : SetsPacket k p s t) (f : Packet → Packet) :
    SetsPacket k (f p) s (modPacket t k f) where
  inv := (modPacket_keeps (F := { peer := true }) t k f rfl (Keeps.refl _ t)).inv h.inv
  packet := by
    rw [← h.packet]
    exact tblGet_set_same _ _ _ _ ((State.wf_iff t).1 h.inv.wf).packets
  others j hj := (tblGet_set_other _ _ _ _ _ hj).trans (h.others j hj)

/-- What leaves the packets alone. -/
theorem SetsPacket.same (h : SetsPacket k p s t) (hu : u.Inv) (hp : u.peer.packets = t.peer.packets) :
    SetsPacket k p s u := ⟨hu, by rw [hp, h.packet], fun j hj => by rw [hp, h.others j hj]⟩

/-- What changes of the peer interface but its packets. -/
theorem inv_setPeer (h : s.Inv) {x : Pi} (hx : x.packets = s.peer.packets) : ({ s with peer := x } : State).Inv :=
  (Keeps.set_peer (F := { peer := true }) rfl (Keeps.refl _ s) fun hw => by rw [hx]; exact hw).inv h

theorem SetsPacket.closePacket (h : SetsPacket k p s t) (n : Nat) (mark : PktMark) :
    SetsPacket k { p with mark := worseMark p.mark mark, ready := some t.peer.nextReady } s (closePacket t n k mark) := by
  have hm := h.modPacket fun p => { p with mark := worseMark p.mark mark, ready := some t.peer.nextReady }
  exact hm.same (inv_setPeer hm.inv rfl) rfl

/-- The flow control of the peers moves with the store (R356). -/
theorem xoffEdge_eq (s : State) : ∃ x, xoffEdge s = { s with peer := { s.peer with xoff := x } } := by
  unfold xoffEdge
  split <;> exact ⟨_, rfl⟩

/-! ## Ingress -/

/-- A word that is taken. -/
theorem opPeerWordWrite_good {w : PeerWord} (h : GoodWord s w) : ∃ x, opPeerWordWrite w (wake s 2) =
    (let v := if w.sop then startPacket (wake s 2) w false else nextWord (wake s 2) w false
     { v with peer := { v.peer with xoff := x } }) := by
  obtain ⟨hs, hready, hcore, hlen, hprio, hclient, hbytes, hpar, hpoison⟩ := h
  obtain ⟨x, hx⟩ := xoffEdge_eq (if w.sop then startPacket (wake s 2) w false else nextWord (wake s 2) w false)
  refine ⟨x, Eq.trans ?_ hx⟩
  have hon : (!(wake s 2).hv.ready || !(wake s 2).hv.fclk || (wake s 2).coreOff
      || !(w.data.length = 64 && w.prio < 8 && w.client < 64 && w.nbytes < 64)) = false := by
    obtain ⟨a, b, c, d, hw⟩ := wake_eq s 2
    have hon' : (!s.hv.ready || !s.hv.fclk || s.coreOff ||
        !(w.data.length = 64 && w.prio < 8 && w.client < 64 && w.nbytes < 64)) = false := by
      simp [hready, hs.fclk, hcore, hlen, hprio, hclient, hbytes]
    rw [hw]
    exact hon'
  unfold opPeerWordWrite
  rw [hon, if_neg Bool.false_ne_true, hpar, hpoison]
  rfl

/-- The first word of a packet that the store has room for. -/
def opened (s : State) (w : PeerWord) : State :=
  modPacket { s with
      peer.discard := s.peer.discard.filter (· != w.prio)
      peer.nextPkt := s.peer.nextPkt + 1
      peer.seq := tblSet 0 s.peer.seq (w.client * 8 + w.prio) (tblGet 0 s.peer.seq (w.client * 8 + w.prio) + 1)
      peer.open_ := tblSet none s.peer.open_ w.prio (some s.peer.nextPkt) } s.peer.nextPkt fun _ =>
    { client := w.client, prio := w.prio, seq := tblGet 0 s.peer.seq (w.client * 8 + w.prio), tArrive := s.sync.h
      mark := if ((s.tenant (w.client + 4096)).state == 0) = true then .noTenant else .none }

theorem startPacket_whole {w : PeerWord} (hopen : tblGet none s.peer.open_ w.prio = none)
    (hreset : s.peer.resetBusy ≠ some w.client) (hroom : storeUsed s < 131072) (heop : w.eop = true) (bad : Bool) :
    startPacket s w bad = closePacket (storeWord (opened s w) s.peer.nextPkt w bad) w.prio s.peer.nextPkt .none := by
  unfold startPacket
  dsimp only
  rw [hopen]
  dsimp only
  rw [if_neg hreset, if_neg (by exact Nat.not_le.2 hroom), heop, if_pos rfl]
  rfl

theorem completes_goodWord {w : PeerWord} (h : GoodWord s w) {P : State → Prop}
    (hP : ∀ u, (∃ v, u = { s with hv := v }) → u.Inv → ∀ x,
      P (let v := if w.sop then startPacket u w false else nextWord u w false
         { v with peer := { v.peer with xoff := x } })) : Completes (.peerWordWrite w) s P := by
  obtain ⟨x, hx⟩ := opPeerWordWrite_good h
  have hcore : s.coreOff = false := h.2.2.1
  have hinv : (wake s 2).Inv := ((Keeps.refl { hv := true } s).wake rfl).inv h.1.inv
  refine Completes.ofOp (t := opPeerWordWrite w (wake s 2)) rfl ?_ ?_
  · rw [if_neg (by rw [hcore]; decide), whenClocked_of_clocked h.1.clocked]
  · rw [hx]
    refine hP _ ?_ hinv x
    obtain ⟨a, b, c, d, hw⟩ := wake_eq s 2
    exact ⟨_, hw⟩

/-- A packet of one word becomes readable (R348, R352). -/
theorem wordWrite_whole {w : PeerWord} (h : GoodWord s w) (hsop : w.sop = true) (heop : w.eop = true)
    (hopen : tblGet none s.peer.open_ w.prio = none) (hreset : s.peer.resetBusy ≠ some w.client)
    (hroom : storeUsed s < 131072) :
    Completes (.peerWordWrite w) s fun t =>
      tblGet {} t.peer.packets s.peer.nextPkt =
        { client := w.client, prio := w.prio, seq := tblGet 0 s.peer.seq (w.client * 8 + w.prio),
          words := [(w.data, false)], nbytes := if w.nbytes = 0 then 64 else w.nbytes,
          mark := if (s.tenant (w.client + 4096)).state = 0 then .noTenant else .none, tArrive := s.sync.h,
          ready := some s.peer.nextReady } ∧
      t.peer.nextPkt = s.peer.nextPkt + 1 ∧
      t.peer.seq = tblSet 0 s.peer.seq (w.client * 8 + w.prio)
        (tblGet 0 s.peer.seq (w.client * 8 + w.prio) + 1) ∧
      (∀ k, k ≠ s.peer.nextPkt → tblGet {} t.peer.packets k = tblGet {} s.peer.packets k) ∧ t.jobs = s.jobs := by
  refine completes_goodWord h fun u hu hinv x => ?_
  obtain ⟨v, rfl⟩ := hu
  have hset := (((SetsPacket.refl (k := s.peer.nextPkt) (inv_setPeer hinv (x := { s.peer with
      discard := s.peer.discard.filter (· != w.prio), nextPkt := s.peer.nextPkt + 1
      seq := tblSet 0 s.peer.seq (w.client * 8 + w.prio) (tblGet 0 s.peer.seq (w.client * 8 + w.prio) + 1)
      open_ := tblSet none s.peer.open_ w.prio (some s.peer.nextPkt) }) rfl)).modPacket fun _ =>
    { client := w.client, prio := w.prio, seq := tblGet 0 s.peer.seq (w.client * 8 + w.prio), tArrive := s.sync.h
      mark := if ((s.tenant (w.client + 4096)).state == 0) = true then .noTenant else .none }).modPacket fun p =>
    { p with words := p.words ++ [(w.data, false)]
             nbytes := p.nbytes + if w.eop && w.nbytes != 0 then w.nbytes else 64 }).closePacket w.prio .none
  rw [hsop, if_pos rfl, startPacket_whole (s := { s with hv := v }) hopen hreset hroom heop]
  refine ⟨hset.packet.trans ?_, rfl, rfl, hset.others, rfl⟩
  have hmark : ∀ m : PktMark, worseMark m .none = m := fun m => by cases m <;> rfl
  have hbytes : (0 + if w.eop && w.nbytes != 0 then w.nbytes else 64) = if w.nbytes = 0 then 64 else w.nbytes := by
    by_cases h0 : w.nbytes = 0 <;> simp [heop, h0]
  rw [hmark, hbytes]
  simp only [beq_iff_eq, List.nil_append]
  rfl

/-- A word that finds the store full (R349). -/
theorem wordWrite_full {w : PeerWord} (h : GoodWord s w) (hsop : w.sop = true)
    (hopen : tblGet none s.peer.open_ w.prio = none) (hreset : s.peer.resetBusy ≠ some w.client)
    (hfull : 131072 ≤ storeUsed s) :
    Completes (.peerWordWrite w) s fun t =>
      t.peer.packets = s.peer.packets ∧ t.peer.overrun = satAdd 0xFFFFFFFF s.peer.overrun 1 ∧
      t.aon.sticky.getLsbD 91 = true := by
  refine completes_goodWord h fun u hu hinv x => ?_
  obtain ⟨v, rfl⟩ := hu
  have heq : startPacket { s with hv := v } w false = sticky { s with
      hv := v
      peer := { s.peer with
        discard := s.peer.discard.filter (· != w.prio), overrun := satAdd 0xFFFFFFFF s.peer.overrun 1 } } 91 0 := by
    unfold startPacket
    dsimp only
    rw [hopen]
    dsimp only
    rw [if_neg hreset, if_pos (by exact hfull)]
    rfl
  rw [hsop, if_pos rfl, heq]
  have hpeer := ((sticky_signals { s with
      hv := v
      peer := { s.peer with
        discard := s.peer.discard.filter (· != w.prio), overrun := satAdd 0xFFFFFFFF s.peer.overrun 1 } } 91 0).peer_eq rfl)
  exact ⟨congrArg (·.packets) hpeer, congrArg (·.overrun) hpeer, sticky_same _ (by decide) _⟩

/-- A word outside a packet (R348). -/
theorem wordWrite_framing {w : PeerWord} (h : GoodWord s w) (hsop : w.sop = false) (hdiscard : w.prio ∉ s.peer.discard)
    (hopen : tblGet none s.peer.open_ w.prio = none) :
    Completes (.peerWordWrite w) s fun t =>
      t.peer.packets = s.peer.packets ∧ t.peer.framing = satAdd 0xFFFFFFFF s.peer.framing 1 := by
  refine completes_goodWord h fun u hu hinv x => ?_
  obtain ⟨v, rfl⟩ := hu
  have heq : nextWord { s with hv := v } w false = countFraming { s with hv := v } := by
    unfold nextWord
    dsimp only
    rw [if_neg (by simpa using hdiscard), hopen]
  rw [hsop, if_neg Bool.false_ne_true, heq]
  exact ⟨rfl, rfl⟩

end

end Sys2Proof.Machine
end

section
/-! SUPPORT. The reader, the watermarks and the egress of the peer interface (R351 to R363). -/

namespace Sys2Proof.Machine

open Host

section

variable {V : Type} [DecidableEq V] {d : V} {t : Tbl V} {k : Nat}

theorem tblErase_of_unlisted (hwf : tblWf d t = true) (h : tblGet d t k = d) : tblErase t k = t := by
  induction t with
  | nil => rfl
  | cons e t ih =>
    obtain ⟨j, v⟩ := e
    obtain ⟨hv, -, htail⟩ := (tblWf_cons d j v t).1 hwf
    rw [tblGet] at h
    rw [tblErase]
    split at h
    · exact absurd h hv
    · next hjk => rw [if_neg hjk, ih htail h]

theorem tblPut_get_self (hwf : tblWf d t = true) (h : tblGet d t k ≠ d) : tblPut t k (tblGet d t k) = t := by
  induction t with
  | nil => exact absurd rfl h
  | cons e t ih =>
    obtain ⟨j, v⟩ := e
    obtain ⟨hv, habove, htail⟩ := (tblWf_cons d j v t).1 hwf
    rw [tblGet] at h ⊢
    split
    · next hjk => rw [tblPut, if_neg (by omega), if_pos hjk, hjk]
    · next hjk =>
      rw [if_neg hjk] at h
      have hlt : ¬ k < j := fun hlt =>
        h (tblGet_above d t k fun e he => Nat.lt_trans hlt (habove e he))
      rw [tblPut, if_neg hlt, if_neg hjk, ih htail h]

/-- Writing what is there leaves a table in its canonical form as it is. -/
theorem tblSet_get_self (hwf : tblWf d t = true) : tblSet d t k (tblGet d t k) = t := by
  rw [tblSet]
  split
  · next h => exact tblErase_of_unlisted hwf h
  · next h => exact tblPut_get_self hwf h

end

/-! ## The reader -/

section

variable {s t : State} {k n : Nat}

/-- A packet in which no word fails. -/
theorem poisonWords_nil (hs : s.Inv) (k : Nat) : poisonWords s k [] = s := by
  have hsame : modPacket s k (fun p => { p with words := p.words.mapIdx fun i w => (w.1, w.2 || ([] : List Nat).contains i) }) = s := by
    have hid : (tblGet {} s.peer.packets k).words.mapIdx (fun i w => (w.1, w.2 || ([] : List Nat).contains i)) =
        (tblGet {} s.peer.packets k).words := by
      refine List.ext_getElem (List.length_mapIdx ..) fun i h _ => ?_
      simp
    rw [modPacket, hid, tblSet_get_self ((State.wf_iff s).1 hs.wf).packets]
  unfold poisonWords
  dsimp only
  rw [List.filter_nil, hsame]
  rfl

/-- A packet without an uncorrectable error is rejected or becomes a job. -/
theorem opPacketRead_clean (hs : Running s) (hk : readerChoice s = some k) (n : Nat) :
    ∃ x, opPacketRead [] n s =
      (let v := match checkPacket s (tblGet {} s.peer.packets k) with
        | .inl cause => rejectPacket (eccCount s n) k (tblGet {} s.peer.packets k) cause
        | .inr o => acceptPacket (eccCount s n) k (tblGet {} s.peer.packets k) o.1 o.2
       { v with peer := { v.peer with xoff := x } }) := by
  have hcount : (eccCount s n).Inv := (Keeps.set_ev (F := { ev := true }) rfl (Keeps.refl _ s)).inv hs.inv
  obtain ⟨x, hx⟩ := xoffEdge_eq (match checkPacket s (tblGet {} s.peer.packets k) with
        | .inl cause => rejectPacket (eccCount s n) k (tblGet {} s.peer.packets k) cause
        | .inr o => acceptPacket (eccCount s n) k (tblGet {} s.peer.packets k) o.1 o.2)
  refine ⟨x, Eq.trans ?_ hx⟩
  unfold opPacketRead
  rw [hs.fclk, if_pos rfl, hk]
  dsimp only
  rw [poisonWords_nil hcount]
  rfl

/-- A packet that fails its checks is rejected (R360). -/
theorem packetRead_rejects {cause : BitVec 8} (hs : Running s) (hk : readerChoice s = some k)
    (hcheck : checkPacket s (tblGet {} s.peer.packets k) = .inl cause) (hroom : egressUsed s + 64 ≤ 2097152)
    (hwindow : (queueWindow s ((tblGet {} s.peer.packets k).client + 4096)
      (peerQueueBase + (tblGet {} s.peer.packets k).prio)).length < 256) (n : Nat) :
    Completes (.packetRead [] n) s fun t =>
      tblGet {} t.peer.packets k = {} ∧ t.peer.reject = satAdd 0xFFFFFFFF s.peer.reject 1 ∧
      t.peer.order = s.peer.order ++
        [{ client := (tblGet {} s.peer.packets k).client, prio := (tblGet {} s.peer.packets k).prio,
           seq := (tblGet {} s.peer.packets k).seq, pkt := k, kind := 1,
           bytes := rejectBytes (tblGet {} s.peer.packets k) cause, room := 64, ready := true }] ∧
      t.jobs = s.jobs := by
  obtain ⟨x, hx⟩ := opPacketRead_clean hs hk n
  have hreject : ∀ p : Packet, (queueWindow s (p.client + 4096) (peerQueueBase + p.prio)).length < 256 →
      rejectPacket (eccCount s n) k p cause = { eccCount s n with peer := { s.peer with
        packets := tblErase s.peer.packets k
        order := s.peer.order ++ [{ client := p.client, prio := p.prio, seq := p.seq, pkt := k, kind := 1
                                    bytes := rejectBytes p cause, room := 64, ready := true }]
        reject := satAdd 0xFFFFFFFF s.peer.reject 1 } } := fun p hp => by
    unfold rejectPacket
    refine if_neg ?_
    rw [Bool.or_eq_true, decide_eq_true_eq, decide_eq_true_eq]
    exact fun h => h.elim (fun h => absurd h (Nat.not_lt.2 hroom)) fun h => absurd h (Nat.not_le.2 hp)
  rw [hcheck] at hx
  dsimp only at hx
  rw [hreject _ hwindow] at hx
  refine Completes.ofOp rfl hx ⟨?_, rfl, rfl, rfl⟩
  exact tblGet_erase_same _ _ _ ((State.wf_iff s).1 hs.inv.wf).packets

/-- The job that a descriptor makes. -/
theorem newJob_eq (s : State) (c : Nat) (src : JobSrc) (clear peer : Bool) (o : Op) (d : Bytes) (arr : Nat) :
    ∃ j : Job, newJob s c src clear peer o d arr =
      (s.nextJob, { s with jobs := tblSet {} s.jobs s.nextJob j, nextJob := s.nextJob + 1 }) ∧
      j.client = c ∧ j.desc = d ∧ j.tArrive = arr := by
  refine ⟨_, rfl, ?_⟩
  split <;> exact ⟨rfl, rfl, rfl⟩

/-- A packet that passes its checks becomes a job (R353). -/
theorem acceptPacket_job (hs : s.Inv) (ht : s.aon.tampered = false) (k : Nat) (p : Packet) (o : Op) (d : Bytes) (x : BitVec 8) :
    let t := acceptPacket s k p o d
    let u : State := { t with peer := { t.peer with xoff := x } }
    u.nextJob = s.nextJob + 1 ∧ (u.job s.nextJob).desc = d ∧ (u.job s.nextJob).client = p.client + 4096 ∧
      (u.job s.nextJob).tArrive = p.tArrive ∧ (tblGet {} u.peer.packets k).read = true ∧
      u.peer.order = s.peer.order ++
        [{ client := p.client, prio := p.prio, seq := p.seq, pkt := k, job := s.nextJob }] ∧
      OtherJobs s.nextJob s u := by
  have hset := (SetsPacket.refl (k := k) hs).modPacket fun p => { p with
    read := true, words := p.words.drop (dSlots d), nbytes := p.nbytes - 64 * dSlots d }
  obtain ⟨j, hj, hclient, hdesc, harr⟩ := newJob_eq (modPacket s k fun p => { p with
    read := true, words := p.words.drop (dSlots d), nbytes := p.nbytes - 64 * dSlots d }) (p.client + 4096)
    (.peer p.prio p.seq k) false true o d p.tArrive
  have hjob : tblGet {} (tblSet {} s.jobs s.nextJob j) s.nextJob = j :=
    tblGet_set_same _ _ _ _ ((State.wf_iff s).1 hs.wf).jobs
  have hother : ∀ i, i ≠ s.nextJob → tblGet {} (tblSet {} s.jobs s.nextJob j) i = tblGet {} s.jobs i := fun i hi =>
    tblGet_set_other _ _ _ _ _ hi
  have haccept : acceptPacket s k p o d =
      (let m := modPacket s k fun p => { p with
          read := true, words := p.words.drop (dSlots d), nbytes := p.nbytes - 64 * dSlots d }
       { m with
          jobs := tblSet {} s.jobs s.nextJob j, nextJob := s.nextJob + 1
          peer := { m.peer with order := s.peer.order ++
            [{ client := p.client, prio := p.prio, seq := p.seq, pkt := k, job := s.nextJob }] } }) := by
    unfold acceptPacket
    dsimp only
    rw [hj]
    exact if_neg (by rw [Bool.and_eq_true]; exact fun h => absurd (ht.symm.trans h.1) (by decide))
  dsimp only
  rw [haccept]
  exact ⟨rfl, (congrArg Job.desc hjob).trans hdesc, (congrArg Job.client hjob).trans hclient,
    (congrArg Job.tArrive hjob).trans harr, congrArg Packet.read hset.packet, rfl, hother⟩

theorem packetRead_accepts {o : Op} {d : Bytes} (hs : Running s) (hk : readerChoice s = some k)
    (hcheck : checkPacket s (tblGet {} s.peer.packets k) = .inr (o, d)) (ht : s.aon.tampered = false) (n : Nat) :
    Completes (.packetRead [] n) s fun t =>
      t.nextJob = s.nextJob + 1 ∧ (t.job s.nextJob).desc = d ∧
      (t.job s.nextJob).client = (tblGet {} s.peer.packets k).client + 4096 ∧
      (t.job s.nextJob).tArrive = (tblGet {} s.peer.packets k).tArrive ∧
      (tblGet {} t.peer.packets k).read = true ∧
      t.peer.order = s.peer.order ++
        [{ client := (tblGet {} s.peer.packets k).client, prio := (tblGet {} s.peer.packets k).prio,
           seq := (tblGet {} s.peer.packets k).seq, pkt := k, job := s.nextJob }] ∧
      OtherJobs s.nextJob s t := by
  have hcount : (eccCount s n).Inv := (Keeps.set_ev (F := { ev := true }) rfl (Keeps.refl _ s)).inv hs.inv
  obtain ⟨x, hx⟩ := opPacketRead_clean hs hk n
  rw [hcheck] at hx
  exact Completes.ofOp rfl hx (acceptPacket_job hcount ht k (tblGet {} s.peer.packets k) o d x)

theorem raiseHive_eccCorr (s : State) (h : Nat) (info : W32) : (raiseHive s h info).ev.eccCorr = s.ev.eccCorr := by
  rw [raiseHive, raise]
  dsimp only
  split <;> split <;> simp only [signalVec_ev, recMerge]

/-- What ECC corrects is counted, and what it cannot correct sets its sticky bit (R38, R350). -/
theorem packetRead_ecc {ecc : List Nat} (hs : Running s) (hk : readerChoice s = some k)
    (hecc : ∃ i ∈ ecc, i < (tblGet {} s.peer.packets k).words.length) (n : Nat) :
    Completes (.packetRead ecc n) s fun t =>
      t.aon.sticky.getLsbD 72 = true ∧ t.ev.eccCorr = satAdd 0xFFFFFFFF s.ev.eccCorr n := by
  obtain ⟨i, hi, hlt⟩ := hecc
  have hhit : ecc.filter (fun i => decide (i < (tblGet {} (eccCount s n).peer.packets k).words.length)) ≠ [] :=
    List.ne_nil_of_mem (List.mem_filter.2 ⟨hi, decide_eq_true hlt⟩)
  have hpoison : ∃ m : State, poisonWords (eccCount s n) k ecc = sticky m 72 0 ∧ m.ev = (eccCount s n).ev := by
    unfold poisonWords
    dsimp only
    exact ⟨_, if_neg (by rw [List.isEmpty_iff]; exact hhit), rfl⟩
  obtain ⟨m, hm, hev⟩ := hpoison
  have hcorr : (sticky m 72 0).ev.eccCorr = satAdd 0xFFFFFFFF s.ev.eccCorr n := by
    rw [sticky_hive (by decide), raiseHive_eccCorr]
    exact congrArg (·.eccCorr) hev
  have hrest : ∀ (u : State) (p : Packet), Keeps { peer := true, jobs := true, nextJob := true } u
      (xoffEdge (match checkPacket u p with
        | .inl cause => rejectPacket u k p cause
        | .inr x => acceptPacket u k p x.1 x.2)) := fun u p => by
    refine xoffEdge_keeps _ rfl ?_
    split
    · exact rejectPacket_keeps _ _ _ _ rfl (Keeps.refl _ _)
    · exact acceptPacket_keeps _ _ _ _ _ rfl rfl rfl (Keeps.refl _ _)
  have heq : opPacketRead ecc n s = xoffEdge (match checkPacket (poisonWords (eccCount s n) k ecc)
        (tblGet {} (poisonWords (eccCount s n) k ecc).peer.packets k) with
      | .inl cause => rejectPacket (poisonWords (eccCount s n) k ecc) k
          (tblGet {} (poisonWords (eccCount s n) k ecc).peer.packets k) cause
      | .inr x => acceptPacket (poisonWords (eccCount s n) k ecc) k
          (tblGet {} (poisonWords (eccCount s n) k ecc).peer.packets k) x.1 x.2) := by
    unfold opPacketRead
    rw [hs.fclk, if_pos rfl, hk] <;> rfl
  have hk := hrest (poisonWords (eccCount s n) k ecc) (tblGet {} (poisonWords (eccCount s n) k ecc).peer.packets k)
  refine Completes.ofOp rfl heq ⟨?_, ?_⟩
  · rw [hk.aon_eq rfl, hm]
    exact sticky_same _ (by decide) _
  · rw [hk.ev_eq rfl, hm, hcorr]

end

/-! ## Watermarks and egress -/

section

variable {s : State}

/-- The watermarks apply, or are refused (R357). -/
theorem piCommit_applies (hs : Running s) (hready : s.hv.ready = true) :
    Completes .piCommit s fun t =>
      (if wmOk s.peer.wmSh then t.peer.wm = s.peer.wmSh ∧ t.peer.refused = false
        else t.peer = { s.peer with refused := true }) ∧ t.jobs = s.jobs := by
  obtain ⟨p, w, a, b, hw⟩ := wake_eq s 1
  obtain ⟨x, hx⟩ := xoffEdge_eq { wake s 1 with peer.wm := (wake s 1).peer.wmSh, peer.refused := false }
  refine Completes.ofOp rfl (whenClocked_of_clocked hs.clocked _ _) ?_
  unfold opPiCommit
  rw [hx, hw]
  dsimp only
  rw [if_neg (c := (!s.hv.ready) = true) (by rw [hready]; decide)]
  by_cases hok : wmOk s.peer.wmSh = true
  · rw [if_pos hok, if_pos hok]
    exact ⟨⟨rfl, rfl⟩, rfl⟩
  · rw [if_neg hok, if_neg hok]
    exact ⟨rfl, rfl⟩

theorem sendsOnly_append {s t : State} {l : List Out} (h : t.out = s.out ++ if s.coreOff = true then [] else l) :
    SendsOnly s t l := by
  rw [SendsOnly, h]
  split
  · rw [List.append_nil]
  · rfl

/-- What leaves, and what stays, of the word that the egress hands off. -/
theorem handOff_out (s : State) (e : Egress) :
    SendsOnly s (handOff s e) [.egress e.kind e.client e.prio e.seq.toNat (!e.started) (decide (e.bytes.length ≤ 64)) 0
      (fit e.bytes 64) (parityOf (fit e.bytes 64))] ∧
    (handOff s e).peer.stall = s.peer.stall ∧ (handOff s e).peer.notices = s.peer.notices := by
  unfold handOff
  dsimp only
  rw [State.emit_eq]
  split <;> exact ⟨sendsOnly_append rfl, rfl, rfl⟩

/-- An egress word that need not wait. -/
theorem setStall_false (s : State) : setStall s false = { s with peer := { s.peer with stall := false } } := by
  unfold setStall
  exact if_neg (by simp)

theorem opPeerEgressHandoff_started {e : Egress} (hs : Running s) (he : s.peer.order.find? (·.started) = some e)
    (b : Bool) : opPeerEgressHandoff b s = if b then handOff (setStall s false) e else setStall s true := by
  unfold opPeerEgressHandoff
  rw [hs.fclk, he]
  rfl

/-- A packet whose hand-off has begun goes on. -/
theorem egress_goes_on {e : Egress} (hs : Running s) (he : s.peer.order.find? (·.started) = some e) :
    Completes (.peerEgressHandoff true) s fun t =>
      SendsOnly s t [.egress e.kind e.client e.prio e.seq.toNat false (decide (e.bytes.length ≤ 64)) 0
        (fit e.bytes 64) (parityOf (fit e.bytes 64))] ∧ t.peer.stall = false ∧ t.peer.notices = s.peer.notices := by
  have hstarted : e.started = true := List.find?_some he
  refine Completes.ofOp rfl (opPeerEgressHandoff_started hs he true) ?_
  rw [if_pos rfl, setStall_false]
  have h := handOff_out { s with peer := { s.peer with stall := false } } e
  rw [hstarted] at h
  exact h

/-- A notice goes before the packets that have not begun (R363). -/
theorem egress_notice {n : Notice} {rest : List Notice} (hs : Running s)
    (hnone : s.peer.order.find? (·.started) = none) (hn : s.peer.notices = n :: rest) :
    Completes (.peerEgressHandoff true) s fun t =>
      SendsOnly s t [.egress 2 n.client 7 0 true true 0 (noticeBytes s n) (parityOf (noticeBytes s n))] ∧
      t.peer.notices = rest ∧ t.peer.order = s.peer.order ∧ t.jobs = s.jobs := by
  have heq : opPeerEgressHandoff true s = ({ s with peer := { s.peer with stall := false, notices := rest } } : State).emit
      [.egress 2 n.client 7 0 true true 0 (noticeBytes s n) (parityOf (noticeBytes s n))] := by
    unfold opPeerEgressHandoff
    rw [hs.fclk, hnone]
    dsimp only
    rw [hn]
    dsimp only
    rw [setStall_false]
    rfl
  refine Completes.ofOp rfl heq ?_
  rw [State.emit_eq]
  exact ⟨sendsOnly_append rfl, rfl, rfl, rfl⟩

/-- The packet of the highest priority goes (R359). -/
theorem egress_begins {e : Egress} (hs : Running s) (hnone : s.peer.order.find? (·.started) = none)
    (hn : s.peer.notices = []) (he : egressChoice s = some e) :
    Completes (.peerEgressHandoff true) s fun t =>
      SendsOnly s t [.egress e.kind e.client e.prio e.seq.toNat (!e.started) (decide (e.bytes.length ≤ 64)) 0
        (fit e.bytes 64) (parityOf (fit e.bytes 64))] := by
  have heq : opPeerEgressHandoff true s = handOff (setStall s false) e := by
    unfold opPeerEgressHandoff
    rw [hs.fclk, if_neg (c := (!true) = true) (by decide), hnone]
    dsimp only
    rw [hn]
    dsimp only
    rw [he]
    dsimp only
    rw [if_pos rfl]
  rw [setStall_false] at heq
  exact Completes.ofOp rfl heq (handOff_out { s with peer := { s.peer with stall := false } } e).1

/-- Without PE_READY the interface stalls. -/
theorem egress_stalls {e : Egress} (hs : Running s) (he : s.peer.order.find? (·.started) = some e)
    (hstall : s.peer.stall = false) :
    Completes (.peerEgressHandoff false) s fun t =>
      t.peer.stall = true ∧ t.out = s.out ∧ t.peer.order = s.peer.order ∧ t.ev.pend.getLsbD 267 = true := by
  have heq : setStall s true = raiseHive { s with peer := { s.peer with stall := true } } 11 0 := by
    unfold setStall
    dsimp only
    rw [hstall]
    rfl
  have hk := raiseHive_signals { s with peer := { s.peer with stall := true } } 11 0
  refine Completes.ofOp rfl ((opPeerEgressHandoff_started hs he false).trans heq) ⟨?_, ?_, ?_, ?_⟩
  · rw [hk.peer_eq rfl]
  · rw [hk.out_eq rfl]
  · rw [hk.peer_eq rfl]
  · exact raise_pend_same _ (by decide) _

end

end Sys2Proof.Machine
end

section
/-! SUPPORT. The reset of a peer client (R364): queues, jobs and packets that it takes away, and what its end closes. -/

namespace Sys2Proof.Machine

open Host

/-! ## Working through a list -/

/-- What a pass over a list does to each of its members, where no later step undoes it. -/
theorem State.each_reaches {α : Type} {P : State → Prop} {Q : α → State → Prop} {f : State → α → State} {l : List α}
    (hP : ∀ x, ∀ a ∈ l, P x → P (f x a)) (hQ : ∀ x, ∀ a ∈ l, P x → Q a (f x a))
    (hstay : ∀ x, ∀ a ∈ l, ∀ b, P x → Q b x → Q b (f x a)) {s : State} (h : P s) : ∀ a ∈ l, Q a (s.each l f) := by
  induction l generalizing s with
  | nil => exact fun a ha => absurd ha List.not_mem_nil
  | cons a l ih =>
    intro b hb
    have hrest : (P ((f s a).each l f) ∧ Q a ((f s a).each l f)) :=
      State.each_induction (P := fun x => P x ∧ Q a x)
        (fun x b hb hx => ⟨hP x b (List.mem_cons_of_mem _ hb) hx.1, hstay x b (List.mem_cons_of_mem _ hb) a hx.1 hx.2⟩)
        ⟨hP s a List.mem_cons_self h, hQ s a List.mem_cons_self h⟩
    rcases List.mem_cons.1 hb with rfl | hb
    · exact hrest.2
    · exact ih (fun x b hb => hP x b (List.mem_cons_of_mem _ hb)) (fun x b hb => hQ x b (List.mem_cons_of_mem _ hb))
        (fun x b hb => hstay x b (List.mem_cons_of_mem _ hb)) (hP s a List.mem_cons_self h) b hb

/-- A number that no entry of a table has reads as the default. -/
theorem tblGet_of_unlisted {V : Type} {d : V} {t : Tbl V} {k : Nat} (h : ∀ e ∈ t, e.1 ≠ k) : tblGet d t k = d := by
  rcases tblGet_mem_or d t k with hm | hd
  · exact absurd rfl (h _ hm)
  · exact hd

/-! ## Ring queues -/

section

variable {s t u : State} {c q r : Nat}

/-- A queue that a peer reset has taken: DISABLED with the configuration it had. -/
structure QueueTaken (cfg : QCfg) (u : Queue) : Prop where
  leaving : u.leaving = false
  cfg : u.cfg = cfg
  state : u.state = .disabled
  mirror : u.hmDue = false
  record : u.crDue = false

theorem peerQueueReset_setsQueue (hs : s.Inv) (c q : Nat) : ∃ u, SetsQueue c q s u (peerQueueReset s c q) ∧
    ((s.queue c q).leaving = false → q < 32768 → QueueTaken (s.queue c q).cfg u) := by
  have hk : ∀ (x : State) l, Keeps { dma := true, ks := true, ctxs := true, slots := true, combs := true, jobs := true, freeN := true }
      x (x.each l abandonJob) := fun x l =>
    Keeps.each l _ (fun y j => abandonJob_keeps y j rfl rfl rfl rfl rfl rfl rfl) (Keeps.refl _ x)
  have h := ((SetsQueue.refl (c := c) (q := q) hs).dropCopies.dropReady.keeps (hk _
    ((dropReady (dropCopies s c q) c q).queue c q).window) rfl)
  unfold peerQueueReset
  dsimp only
  rw [h.queue]
  split
  · next hl => exact ⟨_, h.releaseQueue false, fun hno => absurd (hno.symm.trans hl) (by decide)⟩
  split
  · next hq => exact ⟨_, h.setQueue {}, fun _ hlt => absurd hlt (Nat.not_lt.2 hq)⟩
  split
  · next hd => exact ⟨_, h.modQueue Queue.owesNothing, fun hno _ => ⟨hno, rfl, beq_iff_eq.1 hd, rfl, rfl⟩⟩
  · refine ⟨_, h.modQueue fun u => { u.interruptAll.disable false with cmd := none, window := [] }, fun hno _ => ?_⟩
    dsimp only [Queue.interruptAll]
    split <;> exact ⟨hno, rfl, rfl, rfl, Bool.and_false _⟩

/-- The queue as it stands, and, once the reset has come to it, what the reset leaves of it. -/
def QueueWaits (s : State) (c q : Nat) (t : State) : Prop :=
  t.Inv ∧ (t.queue c q).leaving = false ∧ (t.queue c q).cfg = (s.queue c q).cfg

theorem queuesOf_lt (h : r ∈ s.queuesOf c) : r < qSpan := by
  obtain ⟨e, -, rfl⟩ := List.mem_map.1 h
  exact Nat.mod_lt _ (by decide)

theorem queue_of_unlisted (hq : q < qSpan) (h : q ∉ s.queuesOf c) : s.queue c q = {} := by
  refine tblGet_of_unlisted fun e he hk => h ?_
  have hc : e.1 / qSpan = c ∧ e.1 % qSpan = q := by
    rw [hk, qKey]
    exact ⟨by rw [Nat.mul_comm, Nat.mul_add_div (by decide), Nat.div_eq_of_lt hq, Nat.add_zero],
      by rw [Nat.mul_comm, Nat.mul_add_mod, Nat.mod_eq_of_lt hq]⟩
  exact List.mem_map.2 ⟨e, List.mem_filter.2 ⟨he, beq_iff_eq.2 hc.1⟩, hc.2⟩

/-- The reset of one queue, as another sees it and as it sees itself. -/
theorem peerQueueReset_queue {x : State} (hx : x.Inv) (hr : r < qSpan) (hq : q < 32768)
    (hl : (x.queue c q).leaving = false) :
    (r ≠ q ∧ (peerQueueReset x c r).queue c q = x.queue c q) ∨
      (r = q ∧ QueueTaken (x.queue c q).cfg ((peerQueueReset x c r).queue c q)) := by
  obtain ⟨u, hset, htaken⟩ := peerQueueReset_setsQueue hx c r
  by_cases hrq : r = q
  · subst hrq
    exact .inr ⟨rfl, by rw [hset.queue]; exact htaken hl hq⟩
  · refine .inl ⟨hrq, hset.others c q fun hk => hrq ?_⟩
    exact (qKey_inj (Nat.lt_trans hq (by decide)) hr hk).2.symm

/-- Every ring queue of the client is taken (R364). -/
theorem queuesReset_taken (hs : s.Inv) (hq : q < 32768) (hl : (s.queue c q).leaving = false) :
    QueueTaken (s.queue c q).cfg ((s.each (s.queuesOf c) fun s q => peerQueueReset s c q).queue c q) := by
  have hstep : ∀ x, ∀ r ∈ s.queuesOf c, QueueWaits s c q x → QueueWaits s c q (peerQueueReset x c r) := by
    intro x r hr ⟨hx, hleave, hcfg⟩
    obtain ⟨u, hset, -⟩ := peerQueueReset_setsQueue hx c r
    rcases peerQueueReset_queue hx (queuesOf_lt hr) hq hleave with ⟨-, hsame⟩ | ⟨-, htaken⟩
    · exact ⟨hset.inv, by rw [hsame]; exact hleave, by rw [hsame]; exact hcfg⟩
    · exact ⟨hset.inv, htaken.leaving, htaken.cfg.trans hcfg⟩
  by_cases hmem : q ∈ s.queuesOf c
  · refine State.each_reaches (P := QueueWaits s c q)
      (Q := fun r x => r = q → QueueTaken (s.queue c q).cfg (x.queue c q)) hstep ?_ ?_ ⟨hs, hl, rfl⟩ q hmem rfl
    · rintro x r hr ⟨hx, hleave, hcfg⟩ rfl
      rcases peerQueueReset_queue hx (queuesOf_lt hr) hq hleave with ⟨hne, -⟩ | ⟨-, htaken⟩
      · exact absurd rfl hne
      · rwa [hcfg] at htaken
    · rintro x r hr b ⟨hx, hleave, hcfg⟩ hb rfl
      rcases peerQueueReset_queue hx (queuesOf_lt hr) hq hleave with ⟨-, hsame⟩ | ⟨-, htaken⟩
      · rw [hsame]
        exact hb rfl
      · rwa [hcfg] at htaken
  · have hnone : s.queue c q = {} := queue_of_unlisted (Nat.lt_trans hq (by decide)) hmem
    have hkept : QueueWaits s c q (s.each (s.queuesOf c) fun s q => peerQueueReset s c q) ∧
        (s.each (s.queuesOf c) fun s q => peerQueueReset s c q).queue c q = {} := by
      refine State.each_induction (P := fun x => QueueWaits s c q x ∧ x.queue c q = {}) (fun x r hr hx => ?_)
        ⟨⟨hs, hl, rfl⟩, hnone⟩
      refine ⟨hstep x r hr hx.1, ?_⟩
      rcases peerQueueReset_queue hx.1.1 (queuesOf_lt hr) hq hx.1.2.1 with ⟨-, hsame⟩ | ⟨rfl, -⟩
      · rw [hsame, hx.2]
      · exact absurd hr hmem
    rw [hkept.2, hnone]
    exact ⟨rfl, rfl, rfl, rfl, rfl⟩

end

/-! ## Jobs -/

/-- Every job belongs to the client it belonged to, or to none. -/
def JobsThin (s t : State) : Prop := t.Inv ∧ ∀ k, (t.job k).client = (s.job k).client ∨ (t.job k).client = 0

namespace JobsThin

variable {s t u : State}

theorem refl (hs : s.Inv) : JobsThin s s := ⟨hs, fun _ => .inl rfl⟩

theorem keeps {F : Foot} (h : JobsThin s t) (hk : Keeps F t u) (hF : F.jobs = false) : JobsThin s u :=
  ⟨hk.inv h.1, fun k => by rw [hk.job_eq hF k]; exact h.2 k⟩

theorem setsJob {id : Nat} {j : Job} (h : JobsThin s t) (hset : SetsJob id j t u) (hj : j.client = (t.job id).client) :
    JobsThin s u := by
  refine ⟨hset.inv, fun k => ?_⟩
  by_cases hk : k = id
  · subst hk
    rw [hset.job, hj]
    exact h.2 k
  · rw [hset.others k hk]
    exact h.2 k

theorem modJob (h : JobsThin s t) (id : Nat) {f : Job → Job} (hf : (f (t.job id)).client = (t.job id).client) :
    JobsThin s (t.modJob id f) := h.setsJob ((SetsJob.refl h.1).modJob f) hf

theorem dropJob_same (hs : s.Inv) (id : Nat) : (s.dropJob id).job id = {} :=
  tblGet_erase_same _ _ _ ((State.wf_iff s).1 hs.wf).jobs

theorem dropJob_other {id k : Nat} (hk : k ≠ id) : (s.dropJob id).job k = s.job k := tblGet_erase_other _ _ _ _ hk

theorem dropJob (h : JobsThin s t) (id : Nat) : JobsThin s (t.dropJob id) := by
  refine ⟨(dropJob_keeps (F := { jobs := true }) t id rfl (Keeps.refl _ t)).inv h.1, fun k => ?_⟩
  by_cases hk : k = id
  · subst hk
    exact .inr (by rw [dropJob_same h.1])
  · rw [dropJob_other hk]
    exact h.2 k

/-- What a job is that is to be abandoned. -/
theorem released (h : JobsThin s t) (id : Nat) : JobsThin s (releaseJob (orphanJobReads t id) id true) := by
  obtain ⟨b, hb⟩ := releaseJob_setsJob ((SetsJob.refl (id := id) h.1).orphanJobReads) true
  exact h.setsJob hb rfl

theorem abandonJob (h : JobsThin s t) (id : Nat) : JobsThin s (abandonJob t id) := (h.released id).dropJob id

theorem abandonJob_same (hs : s.Inv) (id : Nat) : (Machine.abandonJob s id).job id = {} :=
  dropJob_same ((refl hs).released id).1 id

theorem dropReady (h : JobsThin s t) (c q : Nat) : JobsThin s (dropReady t c q) :=
  (State.each_induction (P := JobsThin s) (fun _ id _ hx => hx.dropJob id) h).keeps (F := { queues := true })
    (modQueue_keeps _ _ _ _ rfl (Keeps.refl _ _)) rfl

theorem dropCopies (h : JobsThin s t) (c q : Nat) : JobsThin s (dropCopies t c q) :=
  h.keeps (F := { dma := true, queues := true }) (dropCopies_keeps _ _ _ rfl rfl (Keeps.refl _ _)) rfl

theorem releaseQueue (h : JobsThin s t) (c q : Nat) : JobsThin s (releaseQueue t c q false) := by
  unfold Machine.releaseQueue
  exact (((h.dropCopies c q).dropReady c q).keeps (F := { tenants := true, queues := true })
    (modTenant_keeps _ _ _ rfl (setQueue_keeps _ _ _ _ rfl (Keeps.refl _ _))) rfl).keeps (resized_queues _ c) rfl

theorem peerQueueReset (h : JobsThin s t) (c q : Nat) : JobsThin s (peerQueueReset t c q) := by
  have hx : ∀ l, JobsThin s ((Machine.dropReady (Machine.dropCopies t c q) c q).each l Machine.abandonJob) := fun l =>
    State.each_induction (P := JobsThin s) (fun _ id _ hx => hx.abandonJob id) ((h.dropCopies c q).dropReady c q)
  unfold Machine.peerQueueReset
  dsimp only
  split
  · exact (hx _).releaseQueue c q
  split
  · exact (hx _).keeps (F := { queues := true }) (setQueue_keeps _ _ _ _ rfl (Keeps.refl _ _)) rfl
  split
  · exact (hx _).keeps (F := { queues := true }) (modQueue_keeps _ _ _ _ rfl (Keeps.refl _ _)) rfl
  · exact (hx _).keeps (F := { queues := true }) (modQueue_keeps _ _ _ _ rfl (Keeps.refl _ _)) rfl

theorem refreshPending (h : JobsThin s t) : JobsThin s (refreshPending t) := by
  unfold Machine.refreshPending
  dsimp only
  have hmarked : JobsThin s (t.each (t.jobsWith fun j => j.stage == .leaf && !j.isLeaf && !j.pendingLeaf) fun s id =>
      if !leafFirst s id && pendingLeaves s (some (s.job id).client) < (s.tenant (s.job id).client).wgT.pendMax
          && pendingLeaves s none < 16384 then s.modJob id fun j => { j with pendingLeaf := true } else s) :=
    State.each_induction (P := JobsThin s) (fun x id _ hx => by
      split
      · exact hx.modJob id rfl
      · exact hx) h
  split
  · exact (hmarked.keeps (Keeps.set_wg (F := { wg := true }) rfl (Keeps.refl _ _)) rfl).keeps (raiseHive_signals _ _ _) rfl
  · exact hmarked.keeps (Keeps.set_wg (F := { wg := true }) rfl (Keeps.refl _ _)) rfl

end JobsThin

/-- One job of the client goes. -/
def jobGone (s : State) (j : Nat) : State :=
  if !s.hasJob j then s else if (s.job j).live then abandonJob s j else s.dropJob j

theorem job_of_hasNot {s : State} {j : Nat} (h : s.hasJob j = false) : s.job j = {} := by
  refine tblGet_of_unlisted fun e he hk => ?_
  have hno := List.any_eq_false.1 h e he
  exact hno (beq_iff_eq.2 hk)

theorem jobGone_thin {s t : State} (h : JobsThin s t) (j : Nat) : JobsThin s (jobGone t j) := by
  unfold jobGone
  split
  · exact h
  split
  · exact h.abandonJob j
  · exact h.dropJob j

theorem jobGone_same {s : State} (hs : s.Inv) (j : Nat) : (jobGone s j).job j = {} := by
  unfold jobGone
  split
  · next hno => exact job_of_hasNot (by simpa using hno)
  split
  · exact JobsThin.abandonJob_same hs j
  · exact JobsThin.dropJob_same hs j

/-- No job of the client is left. -/
theorem jobsGone_client {s t : State} {c : Nat} (h : JobsThin s t) (hc : c ≠ 0) (k : Nat) :
    ((t.each (s.jobsWith fun j => j.client == c) jobGone).job k).client ≠ c := by
  have hthin : ∀ l, JobsThin s (t.each l jobGone) := fun l =>
    State.each_induction (P := JobsThin s) (fun _ j _ hx => jobGone_thin hx j) h
  by_cases hmem : k ∈ s.jobsWith fun j => j.client == c
  · have hzero := State.each_reaches (P := JobsThin s) (Q := fun j x => (x.job j).client = 0) (f := jobGone)
      (fun x j _ hx => jobGone_thin hx j) (fun x j _ hx => by rw [jobGone_same hx.1])
      (fun x j _ b hx hb => (jobGone_thin (JobsThin.refl hx.1) j).2 b |>.elim (fun he => he.trans hb) id) h k hmem
    rw [hzero]
    exact hc.symm
  · have hs : (s.job k).client ≠ c := fun hk => hmem <| by
      rcases tblGet_mem_or {} s.jobs k with hm | hd
      · exact List.mem_map.2 ⟨_, List.mem_filter.2 ⟨hm, beq_iff_eq.2 hk⟩, rfl⟩
      · have h0 : (s.job k).client = 0 := congrArg Job.client hd
        exact absurd (hk.symm.trans h0) hc
    rcases (hthin (s.jobsWith fun j => j.client == c)).2 k with he | he
    · rw [he]
      exact hs
    · rw [he]
      exact hc.symm

/-! ## What of the peer interface the passes leave -/

/-- Of the peer interface only the notices have moved. -/
def NoticesMoved (s t : State) : Prop := ∃ n, t.peer = { s.peer with notices := n }

namespace NoticesMoved

variable {s t u : State}

theorem refl (s : State) : NoticesMoved s s := ⟨_, rfl⟩

theorem same (h : NoticesMoved s t) (hp : u.peer = t.peer) : NoticesMoved s u := by
  obtain ⟨n, hn⟩ := h
  exact ⟨n, hp.trans hn⟩

theorem keeps {F : Foot} (h : NoticesMoved s t) (hk : Keeps F t u) (hF : F.peer = false) : NoticesMoved s u :=
  h.same (hk.peer_eq hF)

theorem noticeFor (h : NoticesMoved s t) (c ty q : Nat) : NoticesMoved s (noticeFor t c ty q) := by
  obtain ⟨n, hn⟩ := h
  unfold Machine.noticeFor
  dsimp only
  split
  · exact ⟨n, hn⟩
  · refine ⟨t.peer.notices ++ [{ client := c, ty := ty, queue := q }], ?_⟩
    dsimp only
    rw [hn]

theorem resized (h : NoticesMoved s t) (c : Nat) : NoticesMoved s (resized t c) := by
  unfold Machine.resized stepTenant tenantChanged
  have hm : NoticesMoved s (t.modTenant c fun t => { t with state := 1, gen := t.gen + 1 }) := h.same rfl
  split
  · split
    · refine hm.keeps (mailFor_keeps (F := { tenants := true }) _ _ _ rfl (Keeps.refl _ _)) rfl
    · exact hm.noticeFor _ _ _
  · exact h

theorem releaseQueue (h : NoticesMoved s t) (c q : Nat) : NoticesMoved s (releaseQueue t c q false) := by
  unfold Machine.releaseQueue
  refine NoticesMoved.resized ?_ c
  refine h.keeps (F := { dma := true, queues := true, jobs := true, tenants := true }) ?_ rfl
  exact modTenant_keeps _ _ _ rfl (setQueue_keeps _ _ _ _ rfl
    (dropReady_keeps _ _ _ rfl rfl (dropCopies_keeps _ _ _ rfl rfl (Keeps.refl _ _))))

theorem peerQueueReset (h : NoticesMoved s t) (c q : Nat) : NoticesMoved s (peerQueueReset t c q) := by
  have hx : ∀ l, NoticesMoved s ((Machine.dropReady (Machine.dropCopies t c q) c q).each l Machine.abandonJob) := fun l =>
    h.keeps (F := { dma := true, ks := true, queues := true, ctxs := true, slots := true, combs := true, jobs := true, freeN := true })
      (Keeps.each l _ (fun y j hy => abandonJob_keeps y j rfl rfl rfl rfl rfl rfl rfl hy)
        (dropReady_keeps _ _ _ rfl rfl (dropCopies_keeps _ _ _ rfl rfl (Keeps.refl _ _)))) rfl
  have hq := hx ((Machine.dropReady (Machine.dropCopies t c q) c q).queue c q).window
  unfold Machine.peerQueueReset
  dsimp only
  generalize (Machine.dropReady (Machine.dropCopies t c q) c q).each _ Machine.abandonJob = y at hq ⊢
  have hset : ∀ v, NoticesMoved s (y.setQueue c q v) := fun v => hq.same rfl
  split
  · exact hq.releaseQueue c q
  split
  · exact hset _
  split
  · exact hset _
  · exact hset _

end NoticesMoved

/-! ## The reset begins -/

/-- What a peer client has lost when its queues, its jobs and its reads are gone. -/
def peerCleared (s : State) (p : Nat) : State :=
  orphanReads ((s.each (s.queuesOf (p + 4096)) fun s q => peerQueueReset s (p + 4096) q).each
    (s.jobsWith fun j => j.client == p + 4096) jobGone) false fun r => r.client == p + 4096

/-- The peer interface without the client. -/
def Pi.without (x : Pi) (p : Nat) (cut : List Nat) (discard : List Nat) : Pi :=
  { x with
    packets := tblDrop (fun _ k => k.client == p) x.packets
    open_ := tblDrop (fun n _ => cut.contains n) x.open_
    discard := discard
    order := x.order.filter fun e => e.client != p
    notices := x.notices.filter fun n => n.client != p
    seq := tblDrop (fun k _ => k / 8 == p) x.seq }

theorem peerDiscard_eq (s : State) (p : Nat) : ∃ cut d, peerDiscard s p =
    refreshPending { peerCleared s p with peer := (peerCleared s p).peer.without p cut d } := ⟨_, _, rfl⟩

section

variable {s : State} {p : Nat}

theorem jobGone_keeps (s : State) (j : Nat) :
    Keeps { dma := true, ks := true, ctxs := true, slots := true, combs := true, jobs := true, freeN := true } s (jobGone s j) := by
  unfold jobGone
  split
  · exact Keeps.refl _ _
  split
  · exact abandonJob_keeps _ _ rfl rfl rfl rfl rfl rfl rfl (Keeps.refl _ _)
  · exact dropJob_keeps _ _ rfl (Keeps.refl _ _)

/-- The jobs that go leave queues and the peer interface alone. -/
theorem jobsGone_keeps (s : State) (l : List Nat) :
    Keeps { dma := true, ks := true, ctxs := true, slots := true, combs := true, jobs := true, freeN := true }
      s (orphanReads (s.each l jobGone) false fun r => r.client == p + 4096) :=
  orphanReads_keeps _ _ _ rfl (Keeps.each l _ (fun _ j hx => hx.trans (jobGone_keeps _ j)) (Keeps.refl _ _))

theorem peerCleared_thin (hs : s.Inv) (p : Nat) :
    JobsThin s (s.each (s.queuesOf (p + 4096)) fun s q => peerQueueReset s (p + 4096) q) :=
  State.each_induction (P := JobsThin s) (fun _ q _ hx => hx.peerQueueReset _ q) (JobsThin.refl hs)

theorem peerCleared_inv (hs : s.Inv) (p : Nat) : (peerCleared s p).Inv := (jobsGone_keeps _ _).inv (peerCleared_thin hs p).1

theorem peerCleared_job (hs : s.Inv) (p k : Nat) : ((peerCleared s p).job k).client ≠ p + 4096 := by
  have h := jobsGone_client (peerCleared_thin hs p) (c := p + 4096) (by omega) k
  have hk : Keeps { dma := true } _ (peerCleared s p) := orphanReads_keeps _ _ _ rfl (Keeps.refl _ _)
  rw [hk.job_eq rfl]
  exact h

theorem peerCleared_moved (s : State) (p : Nat) : NoticesMoved s (peerCleared s p) :=
  (State.each_induction (P := NoticesMoved s) (fun _ q _ hx => hx.peerQueueReset _ q) (NoticesMoved.refl s)).keeps
    (jobsGone_keeps _ _) rfl

theorem peerCleared_queue (hs : s.Inv) (p : Nat) {q : Nat} (hq : q < 32768)
    (hl : (s.queue (p + 4096) q).leaving = false) :
    QueueTaken (s.queue (p + 4096) q).cfg ((peerCleared s p).queue (p + 4096) q) := by
  have hk := jobsGone_keeps (p := p) (s.each (s.queuesOf (p + 4096)) fun s q => peerQueueReset s (p + 4096) q)
    (s.jobsWith fun j => j.client == p + 4096)
  have hsame : (peerCleared s p).queue (p + 4096) q =
      (s.each (s.queuesOf (p + 4096)) fun s q => peerQueueReset s (p + 4096) q).queue (p + 4096) q := by
    rw [State.queue, peerCleared, hk.queues_eq rfl, State.queue]
  rw [hsame]
  exact queuesReset_taken hs hq hl

/-- A peer reset takes away what the peer has in the Hive (R364). -/
theorem piPeerReset_takes (hs : Running s) (hready : s.hv.ready = true) (hbusy : s.peer.resetBusy = none) (hp : p < 64) :
    Completes (.piPeerReset p) s fun t =>
      t.peer.resetBusy = some p ∧ (∀ e ∈ t.peer.packets, e.2.client ≠ p) ∧
      (∀ e ∈ t.peer.order, e.client ≠ p) ∧ (∀ n ∈ t.peer.notices, n.client ≠ p) ∧
      (∀ k, (t.job k).client ≠ p + 4096) ∧
      (∀ q, q < 32768 → (s.queue (p + 4096) q).leaving = false →
        (t.queue (p + 4096) q).state = .disabled ∧ (t.queue (p + 4096) q).cfg = (s.queue (p + 4096) q).cfg ∧
        (t.queue (p + 4096) q).hmDue = false ∧ (t.queue (p + 4096) q).crDue = false) := by
  have hwi : (wake s 1).Inv := ((Keeps.refl { hv := true } s).wake rfl).inv hs.inv
  obtain ⟨a, b, c, d, hw⟩ := wake_eq s 1
  rw [hw] at hwi
  generalize hv : ({ s.hv with pwr := a, wakeCause := b, wakeNext := c, causeAt := d } : Hv) = v at hwi hw
  have hvr : v.ready = s.hv.ready := by rw [← hv]
  have hbi := inv_setPeer hwi (x := { s.peer with resetBusy := some p }) rfl
  have heq : opPiPeerReset p (wake s 1) = xoffEdge (peerDiscard { s with hv := v, peer := { s.peer with resetBusy := some p } } p) := by
    rw [hw]
    unfold opPiPeerReset
    refine if_neg ?_
    rw [Bool.or_eq_true, Bool.or_eq_true, decide_eq_true_eq]
    dsimp only
    rw [hvr, hready, hbusy]
    simpa using hp
  generalize hu : ({ s with hv := v, peer := { s.peer with resetBusy := some p } } : State) = u at heq hbi
  have hsq : ∀ q, u.queue (p + 4096) q = s.queue (p + 4096) q := fun q => by rw [← hu]; rfl
  have hub : u.peer.resetBusy = some p := by rw [← hu]
  obtain ⟨cut, dis, hd⟩ := peerDiscard_eq u p
  obtain ⟨x, hx⟩ := xoffEdge_eq (peerDiscard u p)
  have hbare : ({ peerCleared u p with peer := (peerCleared u p).peer.without p cut dis } : State).Inv :=
    (Keeps.set_peer (F := { peer := true }) rfl (Keeps.refl _ _)
      fun h => tblWf_drop {} (fun _ k => k.client == p) (peerCleared u p).peer.packets h).inv (peerCleared_inv hbi p)
  have hk : Keeps { ev := true, wg := true, fns := true, tenants := true, jobs := true } _ (peerDiscard u p) :=
    hd ▸ refreshPending_keeps _ rfl rfl rfl rfl rfl (Keeps.refl _ _)
  have hpeer : (peerDiscard u p).peer = (peerCleared u p).peer.without p cut dis := hk.peer_eq rfl
  have hjobs : ∀ k, ((peerDiscard u p).job k).client ≠ p + 4096 := fun k => by
    rw [hd]
    rcases (JobsThin.refl hbare).refreshPending.2 k with he | he
    · rw [he]
      exact peerCleared_job hbi p k
    · rw [he]
      omega
  obtain ⟨n, hn⟩ := peerCleared_moved u p
  refine Completes.ofOp rfl ((whenClocked_of_clocked hs.clocked _ _).trans (heq.trans hx)) ?_
  have hbusy' : (peerDiscard u p).peer.resetBusy = some p := by
    rw [hpeer, Pi.without, hn]
    exact hub
  have hqueues : (peerDiscard u p).queues = (peerCleared u p).queues := hk.queues_eq rfl
  generalize peerDiscard u p = m at hpeer hjobs hbusy' hqueues ⊢
  refine ⟨hbusy', fun e he => ?_, fun e he => ?_, fun e he => ?_, hjobs, fun q hq hl => ?_⟩
  · have hmem : e ∈ m.peer.packets := he
    rw [hpeer] at hmem
    simpa using (List.mem_filter.1 hmem).2
  · have hmem : e ∈ m.peer.order := he
    rw [hpeer] at hmem
    simpa using (List.mem_filter.1 hmem).2
  · have hmem : e ∈ m.peer.notices := he
    rw [hpeer] at hmem
    simpa using (List.mem_filter.1 hmem).2
  · have htaken := peerCleared_queue hbi p hq ((congrArg Queue.leaving (hsq q)).trans hl)
    rw [hsq] at htaken
    rw [show (peerCleared u p).queue (p + 4096) q = tblGet {} m.queues (qKey (p + 4096) q) by rw [hqueues]; rfl] at htaken
    obtain ⟨-, hcfg, hstate, hmirror, hrecord⟩ := htaken
    exact ⟨hstate, hcfg, hmirror, hrecord⟩

end

/-! ## Its end -/

section

variable {s : State} {p c : Nat}

theorem cacheDrop_combs (s : State) (e : CacheEntry) : Keeps { combs := true } s (cacheDrop s e) :=
  cacheDrop_keeps _ _ rfl (Keeps.refl _ _)

/-- A context that is closed reads as one that never was. -/
theorem closeCtxs_closed (hs : s.Inv) (c : Nat) {x : Nat} (hx : x < 131072) : (closeCtxs s c).ctx c x = {} := by
  have hstep : ∀ (u : State) k, u.Inv → (cacheDrop { u with ctxs := tblErase u.ctxs k } (.ctx k)).Inv ∧
      (cacheDrop { u with ctxs := tblErase u.ctxs k } (.ctx k)).ctxs = tblErase u.ctxs k := fun u k hu =>
    have herase := (Keeps.set_ctxs (F := { ctxs := true }) rfl (Keeps.refl _ u) (tblWf_erase _ _ k)).inv hu
    ⟨(cacheDrop_combs _ _).inv herase, (cacheDrop_combs _ _).ctxs_eq rfl⟩
  have hkey : ctxKey c x / 131072 = c := by
    rw [ctxKey, Nat.mul_comm, Nat.mul_add_div (by decide), Nat.div_eq_of_lt hx, Nat.add_zero]
  by_cases hmem : ctxKey c x ∈ (s.ctxs.filter fun e => e.1 / 131072 == c).map (·.1)
  · refine State.each_reaches (P := State.Inv) (Q := fun k u => tblGet {} u.ctxs k = {}) (fun u k _ hu => (hstep u k hu).1)
      (fun u k _ hu => ?_) (fun u k _ b hu hb => ?_) hs _ hmem
    · rw [(hstep u k hu).2]
      exact tblGet_erase_same _ _ _ ((State.wf_iff u).1 hu.wf).ctxs
    · rw [(hstep u k hu).2]
      by_cases hbk : b = k
      · subst hbk
        exact tblGet_erase_same _ _ _ ((State.wf_iff u).1 hu.wf).ctxs
      · rw [tblGet_erase_other _ _ _ _ hbk, hb]
  · have hnone : tblGet {} s.ctxs (ctxKey c x) = {} := tblGet_of_unlisted fun e he hk => hmem <|
      List.mem_map.2 ⟨e, List.mem_filter.2 ⟨he, beq_iff_eq.2 (hk ▸ hkey)⟩, hk⟩
    refine (State.each_induction (P := fun u => u.Inv ∧ tblGet {} u.ctxs (ctxKey c x) = {}) (fun u k hk hu => ?_) ⟨hs, hnone⟩).2
    refine ⟨(hstep u k hu.1).1, ?_⟩
    rw [(hstep u k hu.1).2, tblGet_erase_other _ _ _ _ (fun hb : ctxKey c x = k => hmem (hb ▸ hk)), hu.2]

/-- A session that moves on. -/
theorem moveSession_gen (hs : s.wf = true) (c : Nat) : (moveSession s c).gen (spPos c) = s.gen (spPos c) + 1 := by
  have hb : (bumpGen s (spPos c)).gen (spPos c) = s.gen (spPos c) + 1 := by
    rw [State.gen, bumpGen_same hs, State.gen]
    exact add_right_comm _ _ _
  unfold moveSession
  dsimp only
  split
  · refine Eq.trans ?_ hb
    rw [State.gen, deriveSession_sp (s := bumpGen s (spPos c)) (State.modSlot_wf hs _ _)]
    rfl
  · exact hb

/-- The reset ends (R364). -/
theorem peerResetDone_ends (hs : Running s) (hp : s.peer.resetBusy = some p) (hheld : s.held237 (spPos (p + 4096)) = false) :
    Completes .peerResetDone s fun t =>
      t.peer.resetBusy = none ∧ (∀ x, x < 131072 → t.ctx (p + 4096) x = {}) ∧
      (s.exists_ (p + 4096) = true → t.gen (spPos (p + 4096)) = s.gen (spPos (p + 4096)) + 1) ∧
      t.ev.pend.getLsbD 266 = true := by
  have hon : (s.hv.fclk && s.hv.kclk) = true := by rw [hs.fclk, hs.kclk]; rfl
  have heq : opPeerResetDone s = raiseHive { peerEnd s p with peer.resetBusy := none } 10 0 := by
    unfold opPeerResetDone
    rw [hp]
    dsimp only
    rw [hheld]
    rfl
  have hraise := raiseHive_signals { peerEnd s p with peer.resetBusy := none } 10 0
  have hmoved : Keeps { slots := true } s (if (s.exists_ (p + 4096) && !s.held237 (spPos (p + 4096))) = true
      then moveSession s (p + 4096) else s) := by
    split
    · exact moveSession_keeps _ _ rfl (Keeps.refl _ _)
    · exact Keeps.refl _ _
  refine .ofClock rfl hon ?_
  rw [heq]
  refine ⟨by rw [hraise.peer_eq rfl], fun x hx => ?_, fun hex => ?_, raise_pend_same _ (by decide) _⟩
  · rw [State.ctx, hraise.ctxs_eq rfl]
    exact closeCtxs_closed (hmoved.inv hs.inv) (p + 4096) hx
  · have hclose := closeCtxs_keeps (F := { ctxs := true, combs := true }) (moveSession s (p + 4096)) (p + 4096) rfl rfl
      (Keeps.refl _ _)
    have hend : peerEnd s p = closeCtxs (moveSession s (p + 4096)) (p + 4096) := by
      unfold peerEnd
      dsimp only
      rw [hex, hheld]
      rfl
    rw [State.gen, hraise.slot_eq rfl, hraise.ks_eq rfl]
    change (peerEnd s p).gen (spPos (p + 4096)) = _
    rw [hend, State.gen, hclose.slot_eq rfl, hclose.ks_eq rfl]
    exact moveSession_gen hs.inv.wf _

end

/-- Settles O45. -/
theorem peerPackets : Obligations.PeerPackets := by
  unfold Obligations.PeerPackets
  refine ⟨fun w s h => wordWrite_whole h, fun w s h => wordWrite_full h, fun w s h => wordWrite_framing h,
    fun w s hs hcore => ?_, fun k n cause s hs hk hc hr hw => packetRead_rejects hs hk hc hr hw n,
    fun k n o d s hs hk hc ht => packetRead_accepts hs hk hc ht n,
    fun k n ecc s hs hk hecc => packetRead_ecc hs hk hecc n, fun s => piCommit_applies, fun e s => egress_goes_on,
    fun n rest s => egress_notice, fun e s => egress_begins, fun e s => egress_stalls, fun p s => piPeerReset_takes,
    fun p s => peerResetDone_ends⟩
  exact .ofOp rfl (if_pos hcore) rfl

end Sys2Proof.Machine
end

section
/-! SUPPORT. PF0's DOE mailbox and the SPDM responder (R343, R344, R409): the theorem that settles O46. -/

namespace Sys2Proof.Machine

open Host

section

variable {s : State}

/-! ## Requests -/

/-- The state in which the keeper works on the request object `i`. -/
def asked (s : State) (i : Instr) (a : Option (Nat × Nat)) : State :=
  { s with hv := { s.hv with pwr := 0, causeAt := a }, doe := { s.doe with busy := true, held := some i } }

theorem doeFree_coreOff (h : DoeFree s) : s.coreOff = false := by
  obtain ⟨-, hopen, -, -, -⟩ := h
  unfold doeOpen fnPresent State.presented at hopen
  simp only [Bool.and_eq_true, Bool.not_eq_true'] at hopen
  exact hopen.1.1.2.2

theorem keeperOk_awake (h : s.keeperOk = true) : s.hv.pwr = 0 := by
  unfold State.keeperOk at h
  simp only [Bool.and_eq_true, beq_iff_eq] at h
  exact h.1.2

/-- A request object that finds the mailbox free is served at once. -/
theorem doeRequest_served (h : DoeFree s) (i : Instr) (k : State → State) : ∃ a, doeRequest i s k = k (asked s i a) := by
  obtain ⟨hs, hopen, hbusy, herr, hok⟩ := h
  have hpwr := keeperOk_awake hok
  obtain ⟨a, hw⟩ := wake_awake hpwr 3
  have hfree : ¬ (!doeOpen s || s.doe.busy || s.doe.error) = true := by simp [hopen, hbusy, herr]
  have hserves : (asked s i a).keeperOk = true := by
    rw [← hok, State.keeperOk, State.keeperOk, hpwr]
    rfl
  refine ⟨a, ?_⟩
  rw [doeRequest, whenClocked_of_clocked hs.clocked, hw]
  exact (if_neg hfree).trans (if_pos hserves)

theorem Completes.ofRequest {c i : Instr} {k : State → State} {P : State → Prop} (he : exec c s = .next (doeRequest i s k))
    (h : DoeFree s) (hP : ∀ a, P (k (asked s i a))) : Completes c s P := by
  obtain ⟨a, ha⟩ := doeRequest_served h i k
  exact .ofOp he ha (hP a)

/-! ## Responses -/

theorem doeAnswer_eq {u : State} (hcore : u.coreOff = false) (ty : Nat) (b : Bytes) :
    doeAnswer u ty b = { u with doe := { u.doe with busy := false, held := none }, freeN := u.freeN + 1
                                out := u.out ++ [.doe (doeObject ty b)] } := by
  unfold doeAnswer State.emit
  exact if_neg (fun h => absurd (hcore.symm.trans h) (by decide))

/-- A response leaves the jobs and the queues alone and the mailbox free. -/
theorem answers_of {u : State} (hout : u.out = s.out) (hcore : u.coreOff = false) (hjobs : u.jobs = s.jobs)
    (hqueues : u.queues = s.queues) (b : Bytes) : Answers s (doeAnswer u 1 b) b := by
  rw [doeAnswer_eq hcore]
  exact ⟨by rw [hout], rfl, rfl, hjobs, hqueues⟩

theorem asked_answers (h : DoeFree s) (i : Instr) (a : Option (Nat × Nat)) (b : Bytes) :
    Answers s (doeAnswer (asked s i a) 1 b) b :=
  answers_of (u := asked s i a) rfl (doeFree_coreOff (s := s) h) rfl rfl b

/-- The same once the responder has set fields of its own. -/
theorem set_answers (h : DoeFree s) (i : Instr) (a : Option (Nat × Nat)) (x : Doe) (b : Bytes) :
    Answers s (doeAnswer { asked s i a with doe := x } 1 b) b :=
  answers_of (u := { asked s i a with doe := x }) rfl (doeFree_coreOff (s := s) h) rfl rfl b

/-- The fields of the mailbox that a response leaves as they were. -/
theorem doeAnswer_doe (u : State) (ty : Nat) (b : Bytes) :
    (doeAnswer u ty b).doe = { u.doe with busy := false, held := none } := by
  unfold doeAnswer State.emit
  split <;> rfl

/-- What the mailbox is again when a request that set nothing has been answered. -/
theorem asked_doe (h : DoeFree s) (i : Instr) (a : Option (Nat × Nat)) (ty : Nat) (b : Bytes) :
    (doeAnswer (asked s i a) ty b).doe = { s.doe with held := none } := by
  obtain ⟨-, -, hbusy, -, -⟩ := h
  have hsame : s.doe = { s.doe with busy := false } := by rw [← hbusy]
  rw [doeAnswer_doe, hsame]
  rfl

/-- An ERROR response. -/
theorem error_answers (h : DoeFree s) (i : Instr) (a : Option (Nat × Nat)) (code data : Nat) :
    Answers s (spdmError (asked s i a) code data) [0x13, 0x7F, BitVec.ofNat 8 code, BitVec.ofNat 8 data] :=
  asked_answers h i a _

/-! ## Negotiation -/

theorem doeDiscovery_answered (n : Nat) (h : DoeFree s) (hn : n < 2) :
    Completes (.doeDiscovery n) s fun t =>
      t.out = s.out ++ [.doe (doeObject 0 (if n = 0 then natLe 2 1 ++ [0, 1] else natLe 2 1 ++ [1, 0]))] ∧
      t.doe = { s.doe with busy := false, held := none } := by
  refine Completes.ofRequest rfl h fun a => ?_
  have hb : (if n = 0 then natLe 2 1 ++ [0, 1] else if n = 1 then natLe 2 1 ++ [1, 0] else Config.doeBody s.freeN : Bytes) =
      if n = 0 then natLe 2 1 ++ [0, 1] else natLe 2 1 ++ [1, 0] := by
    split
    · rfl
    · rw [if_pos (by omega)]
  have hanswer : answerDiscovery n (asked s (.doeDiscovery n) a) = doeAnswer (asked s (.doeDiscovery n) a) 0
      (if n = 0 then natLe 2 1 ++ [0, 1] else natLe 2 1 ++ [1, 0]) := by rw [← hb]; rfl
  have hcore : (asked s (.doeDiscovery n) a).coreOff = false := doeFree_coreOff (s := s) h
  rw [hanswer, doeAnswer_eq hcore]
  exact ⟨rfl, rfl⟩

theorem getVersion_answered (h : DoeFree s) :
    Completes .getVersion s fun t =>
      Answers s t [0x10, 0x04, 0, 0, 0, 1, 0x00, 0x13] ∧ t.doe.ver = true ∧ t.doe.caps = false ∧ t.doe.hash = 0 := by
  refine Completes.ofRequest rfl h fun a => ⟨set_answers h _ a _ _, ?_⟩
  unfold answerVersion spdmReply
  dsimp only
  rw [doeAnswer_doe]
  exact ⟨rfl, rfl, rfl⟩

theorem getCapabilities_answered (h : DoeFree s) (hver : s.doe.ver = true) :
    Completes .getCapabilities s fun t =>
      (∃ b, Answers s t ([0x13, 0x61, 0, 0, 0, 12, 0, 0] ++ natLe 4 0x16 ++ b)) ∧ t.doe.caps = true := by
  refine Completes.ofRequest rfl h fun a => ?_
  have hno : ¬ (!s.doe.ver) = true := by rw [hver]; decide
  have hanswer : answerCapabilities (asked s .getCapabilities a) =
      doeAnswer { asked s .getCapabilities a with doe := { (asked s .getCapabilities a).doe with caps := true, hash := 0 } } 1
        ([0x13, 0x61, 0, 0, 0, 12, 0, 0] ++ natLe 4 0x16 ++ spdmFree s) := (if_neg hno).trans rfl
  rw [hanswer]
  exact ⟨⟨_, set_answers h _ a _ _⟩, congrArg (·.caps) (doeAnswer_doe _ _ _)⟩

theorem negotiateAlgorithms_answered (x y z : Bool) (h : DoeFree s) (hver : s.doe.ver = true) (hcaps : s.doe.caps = true) :
    Completes (.negotiateAlgorithms x y z) s fun t =>
      (∃ l, Answers s t ([0x13, 0x63, 0, 0] ++ l)) ∧ t.doe.hash = chosenHash x y z := by
  refine Completes.ofRequest rfl h fun a => ?_
  have hno : ¬ (!s.doe.ver || !s.doe.caps) = true := by rw [hver, hcaps]; decide
  have hanswer : ∃ l, answerAlgorithms x y z (asked s (.negotiateAlgorithms x y z) a) =
      doeAnswer { asked s (.negotiateAlgorithms x y z) a with
        doe := { (asked s (.negotiateAlgorithms x y z) a).doe with hash := chosenHash x y z } } 1 ([0x13, 0x63, 0, 0] ++ l) :=
    ⟨_, (if_neg hno).trans rfl⟩
  obtain ⟨l, hl⟩ := hanswer
  rw [hl]
  exact ⟨⟨l, set_answers h _ a _ _⟩, congrArg (·.hash) (doeAnswer_doe _ _ _)⟩

theorem chosenHash_one {x y : Bool} (h : x ≠ y) : chosenHash x y true = if x then 32 else 48 := by
  cases x <;> cases y <;> first | exact absurd rfl h | rfl

/-! ## Certificates and signatures -/

/-- A request that comes after the negotiation passes its first check. -/
theorem negotiated_asked (hn : negotiated s = true) (i : Instr) (a : Option (Nat × Nat)) :
    ¬ (!negotiated (asked s i a)) = true := by
  have h : negotiated (asked s i a) = negotiated s := rfl
  rw [h, hn]
  decide

theorem getDigests_answered (h : DoeFree s) (hn : negotiated s = true) :
    Completes .getDigests s fun t =>
      Answers s t ([0x13, 0x01, 1, 1] ++ spdmHash s (certChain s)) ∧ t.doe = { s.doe with held := none } := by
  refine Completes.ofRequest rfl h fun a => ?_
  unfold answerDigests
  rw [if_neg (negotiated_asked hn _ a)]
  exact ⟨asked_answers h _ a _, asked_doe h _ _ _ _⟩

theorem getDigests_refused (h : DoeFree s) (hn : negotiated s = false) :
    Completes .getDigests s fun t => Answers s t [0x13, 0x7F, 0x04, 0] := by
  refine Completes.ofRequest rfl h fun a => ?_
  have hno : (!negotiated (asked s .getDigests a)) = true := by
    rw [show negotiated (asked s .getDigests a) = false from hn]
    rfl
  unfold answerDigests
  rw [if_pos hno]
  exact error_answers h _ a 4 0

theorem getCertificate_answered (off len : Nat) (h : DoeFree s) (hn : negotiated s = true) :
    Completes (.getCertificate 0 off len) s fun t =>
      Answers s t (if (certChain s).length ≤ off then [0x13, 0x7F, 0x01, 0] else
        [0x13, 0x02, 0, 0] ++
        natLe 2 (((certChain s).drop off).take (min len 4080)).length ++
        natLe 2 ((certChain s).length - off - (((certChain s).drop off).take (min len 4080)).length) ++
        ((certChain s).drop off).take (min len 4080)) := by
  refine Completes.ofRequest rfl h fun a => ?_
  have hchain : certChain (asked s (.getCertificate 0 off len) a) = certChain s := rfl
  unfold answerCertificate
  rw [if_neg (negotiated_asked hn _ a), hchain]
  dsimp only
  by_cases hoff : (certChain s).length ≤ off
  · rw [if_pos hoff, if_pos (by simp [hoff])]
    exact error_answers h _ a 1 0
  · rw [if_neg hoff, if_neg (by simp [hoff])]
    refine Eq.mp (congrArg (Answers s _) ?_) (asked_answers h _ a _)
    simp only [List.append_assoc]
    rfl

theorem challenge_answered {c : SpdmChallenge} {sig : Bytes} (h : DoeFree s) (hn : negotiated s = true)
    (ht : s.aon.tampered = false) (hc : c.slot = 0) (hsig : spdmSign s = some sig) :
    Completes (.challenge c) s fun t =>
      ∃ b, Answers s t ([0x13, 0x03, 0, 1] ++ spdmHash s (certChain s) ++ b ++ sig) := by
  refine Completes.ofRequest rfl h fun a => ?_
  have hsign : spdmSign (asked s (.challenge c) a) = some sig := hsig
  have hsafe : ¬ (asked s (.challenge c) a).aon.tampered = true := fun hx => absurd (ht.symm.trans hx) (by decide)
  unfold answerChallenge
  rw [if_neg (negotiated_asked hn _ a), if_neg hsafe, if_neg (by rw [hc]; decide), hsign]
  refine ⟨spdmFree s, Eq.mp (congrArg (Answers s _) ?_) (asked_answers h _ a _)⟩
  simp only [List.append_assoc]
  rfl

theorem challenge_tampered (c : SpdmChallenge) (h : DoeFree s) (hn : negotiated s = true) (ht : s.aon.tampered = true) :
    Completes (.challenge c) s fun t => Answers s t [0x13, 0x7F, 0x05, 0] := by
  refine Completes.ofRequest rfl h fun a => ?_
  have htampered : (asked s (.challenge c) a).aon.tampered = true := ht
  unfold answerChallenge
  rw [if_neg (negotiated_asked hn _ a), if_pos htampered]
  exact error_answers h _ a 5 0

/-! ## Measurements -/

/-- What is written of one measurement block. -/
def oneMeasurement (s : State) (i : Nat) : Bytes := [1] ++ natLe 3 (measureBlock s i).length ++ measureBlock s i ++ spdmFree s

/-- A request for one measurement passes its checks. -/
theorem answerMeasurements_one {i : Nat} {u : State} (hn : ¬ (!negotiated u) = true) (h1 : 1 ≤ i) (h5 : i ≤ 5) (b : Bool)
    (ht : ¬ (b && u.aon.tampered) = true) :
    answerMeasurements i b u = if b = true then
        match spdmSign u with
        | none => spdmError u 0x05 0
        | some sig => spdmReply u 0x13 0x60 0 0 (oneMeasurement u i ++ sig)
      else spdmReply u 0x13 0x60 0 0 (oneMeasurement u i) := by
  unfold answerMeasurements
  rw [if_neg hn, if_neg ht, if_neg (by simp; omega)]
  dsimp only
  rw [if_neg (show i ≠ 0 by omega), if_neg (show i ≠ 255 by omega), if_neg (show i ≠ 0 by omega), List.flatMap_singleton]
  rfl

theorem getMeasurements_one {i : Nat} (nonce : Bytes) (h : DoeFree s) (hn : negotiated s = true) (h1 : 1 ≤ i) (h5 : i ≤ 5) :
    Completes (.getMeasurements i false nonce) s fun t =>
      ∃ b, Answers s t ([0x13, 0x60, 0, 0, 1] ++ natLe 3 (measureBlock s i).length ++ measureBlock s i ++ b) := by
  refine Completes.ofRequest rfl h fun a => ?_
  rw [answerMeasurements_one (negotiated_asked hn _ a) h1 h5 false (by rw [Bool.false_and]; decide), if_neg (by decide)]
  refine ⟨spdmFree s, Eq.mp (congrArg (Answers s _) ?_) (asked_answers h _ a _)⟩
  rw [oneMeasurement]
  simp only [List.append_assoc]
  rfl

theorem getMeasurements_signed {i : Nat} {sig : Bytes} (nonce : Bytes) (h : DoeFree s) (hn : negotiated s = true)
    (ht : s.aon.tampered = false) (h1 : 1 ≤ i) (h5 : i ≤ 5) (hsig : spdmSign s = some sig) :
    Completes (.getMeasurements i true nonce) s fun t =>
      ∃ b, Answers s t ([0x13, 0x60, 0, 0, 1] ++ natLe 3 (measureBlock s i).length ++ measureBlock s i ++ b ++ sig) := by
  refine Completes.ofRequest rfl h fun a => ?_
  have hsign : spdmSign (asked s (.getMeasurements i true nonce) a) = some sig := hsig
  have hsafe : ¬ (true && (asked s (.getMeasurements i true nonce) a).aon.tampered) = true := fun hx =>
    absurd (ht.symm.trans hx) (by decide)
  rw [answerMeasurements_one (negotiated_asked hn _ a) h1 h5 true hsafe, if_pos rfl, hsign]
  refine ⟨spdmFree s, Eq.mp (congrArg (Answers s _) ?_) (asked_answers h _ a _)⟩
  rw [oneMeasurement]
  simp only [List.append_assoc]
  rfl

theorem getMeasurements_tampered (i : Nat) (nonce : Bytes) (h : DoeFree s) (hn : negotiated s = true)
    (ht : s.aon.tampered = true) :
    Completes (.getMeasurements i true nonce) s fun t => Answers s t [0x13, 0x7F, 0x05, 0] := by
  refine Completes.ofRequest rfl h fun a => ?_
  have htampered : (true && (asked s (.getMeasurements i true nonce) a).aon.tampered) = true := ht
  unfold answerMeasurements
  rw [if_neg (negotiated_asked hn _ a), if_pos htampered]
  exact error_answers h _ a 5 0

/-! ## What the responder does not know, and DOE Abort -/

theorem spdmUnsupportedRequest_answered (code : BitVec 8) (h : DoeFree s) :
    Completes (.spdmUnsupportedRequest code) s fun t => Answers s t [0x13, 0x7F, 0x07, code] := by
  refine Completes.ofRequest rfl h fun a => ?_
  have he := error_answers h (.spdmUnsupportedRequest code) a 7 code.toNat
  rwa [BitVec.ofNat_toNat, BitVec.setWidth_eq] at he

theorem doeAbort_frees (hs : Running s) (hopen : doeOpen s = true) :
    Completes .doeAbort s fun t =>
      t.doe = { s.doe with busy := false, error := false, held := none } ∧ t.out = s.out := by
  refine Completes.ofClocked rfl hs ?_
  obtain ⟨p, w, n, a, hw⟩ := wake_eq s 3
  rw [hw]
  have heq : opDoeAbort { s with hv := { s.hv with pwr := p, wakeCause := w, wakeNext := n, causeAt := a } } = { s with
      hv := { s.hv with pwr := p, wakeCause := w, wakeNext := n, causeAt := a }
      doe := { s.doe with busy := false, error := false, held := none } } := if_pos hopen
  rw [heq]
  exact ⟨rfl, rfl⟩

end

/-- Settles O46. -/
theorem spdmResponses : Obligations.SpdmResponses := by
  unfold Obligations.SpdmResponses
  refine ⟨fun n s => doeDiscovery_answered n, fun s => getVersion_answered, fun s => getCapabilities_answered,
    fun a b s h hver hcaps hne => ?_, fun a b c s h hver hcaps => negotiateAlgorithms_answered a b c h hver hcaps,
    fun s => getDigests_answered, fun off len s h hn => getCertificate_answered off len h hn,
    fun c sig s => challenge_answered, fun c s => challenge_tampered c, fun i nonce s h hn h1 h5 => getMeasurements_one nonce h hn h1 h5,
    fun i nonce sig s h hn ht h1 h5 hsig => getMeasurements_signed nonce h hn ht h1 h5 hsig,
    fun i nonce s => getMeasurements_tampered i nonce, fun code s => spdmUnsupportedRequest_answered code,
    fun s => getDigests_refused, fun s => doeAbort_frees⟩
  rw [← chosenHash_one hne]
  exact negotiateAlgorithms_answered a b true h hver hcaps

end Sys2Proof.Machine
end

section
/-! SUPPORT. The keeper's MCTP endpoint (R427, R428): the theorem that settles O47. -/

namespace Sys2Proof.Machine

open Host

section

variable {s : State}

/-! ## Messages -/

/-- The state in which the keeper answers a message. -/
def spoken (s : State) (a : Option (Nat × Nat)) : State := { s with hv := { s.hv with pwr := 0, causeAt := a } }

/-- A message that finds the Hive awake and the endpoint open is answered at once. -/
theorem Completes.ofMessage {c i : Instr} {k : State → State} {P : State → Prop} (he : exec c s = .next (mctpMessage i s k))
    (h : MctpUp s) (hP : ∀ a, P (k (spoken s a))) : Completes c s P := by
  obtain ⟨hs, hpwr, hopen⟩ := h
  obtain ⟨a, hw⟩ := wake_awake hpwr 3
  have hawake : ((spoken s a).hv.pwr = 0 && !(spoken s a).unclocked) = true := by
    have hclock : (spoken s a).unclocked = false := hs.clocked
    rw [hclock]
    rfl
  have hup : mctpOpen (spoken s a) = true := by
    rw [← hopen]
    unfold mctpOpen State.keeperOk
    rw [hpwr]
    rfl
  refine Completes.ofOp he ?_ (hP a)
  unfold mctpMessage whenAwakeBy
  rw [hw]
  exact (if_pos hawake).trans (if_pos hup)

theorem spoken_entered (s : State) (a : Option (Nat × Nat)) : Entered s (spoken s a) :=
  ⟨fun hs => (Keeps.set_hv (F := { hv := true }) (xhv := { s.hv with pwr := 0, causeAt := a }) rfl (Keeps.refl _ s)
      (fun _ => Nat.zero_le 3) fun h => h).inv hs,
    0, s.hv.wakeCause, s.hv.wakeNext, a, LinkMoved.refl _⟩

/-- A message that leaves. -/
theorem emit_sendsOnly {u : State} (hout : u.out = s.out) (hcore : u.coreOff = s.coreOff) (l : List Out) :
    SendsOnly s (u.emit l) l := by
  rw [State.emit_eq]
  refine sendsOnly_append ?_
  rw [← hout, ← hcore]

/-- A control response of at most 64 bytes. -/
theorem mctpControl_sends {u : State} (hout : u.out = s.out) (hcore : u.coreOff = s.coreOff) (cmd code : Nat) (b : Bytes) :
    SendsOnly s (mctpControl u cmd code b) [.mctp (([0, BitVec.ofNat 8 cmd, BitVec.ofNat 8 code] ++ b).take 64)] :=
  emit_sendsOnly (u := { u with freeN := u.freeN + 1 }) hout hcore _

theorem mctpControl_doe (u : State) (cmd code : Nat) (b : Bytes) : (mctpControl u cmd code b).doe = u.doe := by
  unfold mctpControl
  rw [State.emit_eq]

/-! ## Control messages -/

theorem setEndpointId_answered {eid : BitVec 8} (h : MctpUp s) (h0 : eid ≠ 0) (h1 : eid ≠ 0xFF) :
    Completes (.setEndpointId eid) s fun t =>
      (∃ b, b.length ≤ 59 ∧ SendsOnly s t [.mctp ([0, 1, 0, 0, eid] ++ b)]) ∧ t.doe = { s.doe with eid := eid } := by
  refine Completes.ofMessage rfl h fun a => ?_
  have hno : ¬ (eid = 0 || eid = 0xFF : Bool) = true := by
    rw [Bool.or_eq_true, decide_eq_true_eq, decide_eq_true_eq]
    exact fun hx => hx.elim h0 h1
  unfold answerSetEid
  rw [if_neg hno]
  refine ⟨⟨(mctpFree (spoken s a)).take 59, List.length_take_le .., ?_⟩, mctpControl_doe _ _ _ _⟩
  exact mctpControl_sends rfl rfl 1 0 ([0, eid] ++ mctpFree (spoken s a))

theorem getEndpointId_answered (h : MctpUp s) :
    Completes .getEndpointId s fun t =>
      (∃ b, b.length ≤ 60 ∧ SendsOnly s t [.mctp ([0, 2, 0, s.doe.eid] ++ b)]) ∧ t.doe = s.doe := by
  refine Completes.ofMessage rfl h fun a => ?_
  refine ⟨⟨(mctpFree (spoken s a)).take 60, List.length_take_le .., ?_⟩, mctpControl_doe _ _ _ _⟩
  exact mctpControl_sends rfl rfl 2 0 ([s.doe.eid] ++ mctpFree (spoken s a))

theorem getMctpVersionSupport_answered (h : MctpUp s) :
    Completes (.getMctpVersionSupport 0) s fun t =>
      SendsOnly s t [.mctp [0, 4, 0, 1, 0xF1, 0xF3, 0xFF, 0x00]] ∧ t.doe = s.doe := by
  refine Completes.ofMessage rfl h fun a => ⟨?_, mctpControl_doe _ _ _ _⟩
  exact mctpControl_sends rfl rfl 4 0 [1, 0xF1, 0xF3, 0xFF, 0x00]

theorem getMessageTypeSupport_answered (h : MctpUp s) :
    Completes .getMessageTypeSupport s fun t => SendsOnly s t [.mctp [0, 5, 0, 1, 0x7E]] ∧ t.doe = s.doe := by
  refine Completes.ofMessage rfl h fun a => ⟨?_, mctpControl_doe _ _ _ _⟩
  exact mctpControl_sends rfl rfl 5 0 [1, 0x7E]

theorem getVendorDefinedMessageSupport_answered (h : MctpUp s) :
    Completes (.getVendorDefinedMessageSupport 0) s fun t =>
      (∃ b, SendsOnly s t [.mctp ([0, 6, 0, 0xFF, 0] ++ bvBe 2 Config.vendorId ++ b)]) ∧ t.doe = s.doe := by
  refine Completes.ofMessage rfl h fun a => ⟨⟨fit (mctpFree (spoken s a)) 2, ?_⟩, mctpControl_doe _ _ _ _⟩
  have hsend := mctpControl_sends (s := s) (u := spoken s a) rfl rfl 6 0
    ([0xFF, 0] ++ bvBe 2 Config.vendorId ++ fit (mctpFree (spoken s a)) 2)
  have hshort : ([0, BitVec.ofNat 8 6, BitVec.ofNat 8 0] ++ ([0xFF, 0] ++ bvBe 2 Config.vendorId ++
      fit (mctpFree (spoken s a)) 2) : Bytes).length ≤ 64 := by
    simp only [List.length_append, fit_length]
    decide
  rw [List.take_of_length_le hshort] at hsend
  exact hsend

/-! ## Data messages -/

theorem stateWord_spoken (s : State) (a : Option (Nat × Nat)) (kind index : Nat) :
    stateWord (spoken s a) kind index = stateWord s kind index := rfl

theorem readState_answered {inst : Byte} {kind index : Nat} {w : W32} (h : MctpUp s) (hw : stateWord s kind index = some w) :
    Completes (.readState inst kind index) s fun t => SendsOnly s t [.mctp (mctpData 1 inst 0 (bvLe 4 w))] := by
  refine Completes.ofMessage rfl h fun a => ?_
  unfold answerReadState
  rw [stateWord_spoken, hw]
  exact emit_sendsOnly rfl rfl _

theorem readState_absent {inst : Byte} {kind index : Nat} (h : MctpUp s) (hw : stateWord s kind index = none) :
    Completes (.readState inst kind index) s fun t => SendsOnly s t [.mctp (mctpData 1 inst 3 [])] := by
  refine Completes.ofMessage rfl h fun a => ?_
  unfold answerReadState
  rw [stateWord_spoken, hw]
  exact emit_sendsOnly rfl rfl _

theorem combCmd_closed {inst : Byte} {comb : Nat} {word : W32} (h : MctpUp s) (hw : s.ev.mctpWr = false) :
    Completes (.combCmd inst comb word) s fun t =>
      SendsOnly s t [.mctp (mctpData 2 inst 4 [])] ∧ t.combs = s.combs := by
  refine Completes.ofMessage rfl h fun a => ?_
  have hno : (!(spoken s a).ev.mctpWr) = true := by
    rw [show (spoken s a).ev.mctpWr = false from hw]
    rfl
  unfold answerCombCmd
  rw [if_pos hno]
  refine ⟨emit_sendsOnly rfl rfl _, ?_⟩
  unfold mctpSend
  rw [State.emit_eq]
  rfl

/-- The state word of a comb is made of the combs and the always-on domain alone. -/
theorem combWord_emit (u : State) (l : List Out) (c : Nat) : (u.emit l).combWord c = u.combWord c := by
  rw [State.emit_eq]
  rfl

theorem combCmd_online {inst : Byte} {comb : Nat} {word : W32} (h : MctpUp s) (hw : s.ev.mctpWr = true)
    (hc : comb < combCount) (hop : bits word.toNat 3 0 = 1)
    (hgen : BitVec.ofNat 16 (word.toNat / 65536) = (s.comb comb).gen)
    (hmode : (s.comb comb).mode = 3 ∨ (s.comb comb).mode = 5) :
    Completes (.combCmd inst comb word) s fun t =>
      SendsOnly s t [.mctp (mctpData 2 inst 0 (bvLe 4 (t.combWord comb)))] ∧ (t.comb comb).mode = 1 := by
  have hs := h.1
  have hready : s.hv.ready = true := by
    have hopen := h.2.2
    unfold mctpOpen at hopen
    simp only [Bool.and_eq_true] at hopen
    exact hopen.1.1.1
  refine Completes.ofMessage rfl h fun a => ?_
  have hverdict : combVerdict (spoken s a) comb 1 (BitVec.ofNat 16 (word.toNat / 65536)) = 0 := by
    have hcomb : (spoken s a).comb comb = s.comb comb := rfl
    rcases hmode with hm | hm <;> simp [combVerdict, hcomb, hgen, hm]
  obtain ⟨-, g, b, hcomb, -⟩ := cbWrite_acts (op := 1) ((spoken_entered s a).inv hs.inv) hready hc (by decide) hverdict (if_pos rfl).symm
    (by rw [show (spoken s a).comb comb = s.comb comb from rfl]; rcases hmode with hm | hm <;> rw [hm] <;> simp <;> omega)
  rw [cbWrite_eq (s := spoken s a) hready hc (by decide)] at hcomb
  have hkeep : Keeps { ev := true, fns := true, tenants := true, combs := true } (spoken s a)
      (combCommand (spoken s a) comb 1 (BitVec.ofNat 16 (word.toNat / 65536))).2 :=
    combCommand_keeps _ _ _ _ rfl rfl rfl rfl (Keeps.refl _ _)
  have hcode : (combCommand (spoken s a) comb 1 (BitVec.ofNat 16 (word.toNat / 65536))).1 = 0 := hverdict
  have hanswer : answerCombCmd inst comb word (spoken s a) =
      mctpSend (combCommand (spoken s a) comb 1 (BitVec.ofNat 16 (word.toNat / 65536))).2 2 inst 0
        (bvLe 4 ((combCommand (spoken s a) comb 1 (BitVec.ofNat 16 (word.toNat / 65536))).2.combWord comb)) := by
    have hyes : ¬ (!(spoken s a).ev.mctpWr) = true := by
      rw [show (spoken s a).ev.mctpWr = true from hw]
      decide
    unfold answerCombCmd
    dsimp only
    rw [if_neg hyes, if_neg (Nat.not_le.2 hc), hop, if_neg (by decide), hcode]
    rfl
  rw [hanswer]
  generalize (combCommand (spoken s a) comb 1 (BitVec.ofNat 16 (word.toNat / 65536))).2 = u at hcomb hkeep ⊢
  have hsend := emit_sendsOnly (s := s) (u := u) (hkeep.out_eq rfl) (hkeep.coreOff_eq rfl)
    [.mctp (mctpData 2 inst 0 (bvLe 4 (u.combWord comb)))]
  unfold mctpSend
  refine ⟨by rw [combWord_emit]; exact hsend, ?_⟩
  rw [State.emit_eq]
  exact congrArg Comb.mode hcomb

theorem queueCmd_pauses {inst : Byte} {pool c q : Nat} {word : W64} (h : MctpUp s) (hw : s.ev.mctpWr = true)
    (howner : poolOwner s pool = some (c, q)) (hop : bits word.toNat 3 0 = 2)
    (htaken : CommandTaken s c q 2 (BitVec.ofNat 11 (bits word.toNat 31 21)) .mctp) :
    Completes (.queueCmd inst pool word) s fun t =>
      (t.queue c q).state = .paused ∧ t.doe.waits = s.doe.waits ++ [(inst, pool)] ∧ t.out = s.out := by
  have harrives := commandArrives_of_taken htaken
  obtain ⟨hs, -, -, -, hcmd, hgen, hallowed⟩ := htaken
  refine Completes.ofMessage rfl h fun a => ?_
  have he := spoken_entered s a
  have hset := (SetsQueue.ofEntered (c := c) (q := q) he hs.inv).modQueue fun u => ({ u with cmd := some .pause }).enter .paused
  have hact : opQCmdReserved c q word .mctp (spoken s a) =
      (spoken s a).modQueue c q fun u => ({ u with cmd := some .pause }).enter .paused := by
    unfold opQCmdReserved
    dsimp only
    rw [hop, qCmd_of_arrives he harrives _ _ _ (by decide), if_neg (commandWay (by decide) (by simp) (by simp)),
      if_neg (by simp [hgen]), if_neg (by simp [hallowed])]
    rfl
  have hanswer : answerQueueCmd inst pool word (spoken s a) =
      (let u := (spoken s a).modQueue c q fun u => ({ u with cmd := some .pause }).enter .paused
       { u with doe := { u.doe with waits := u.doe.waits ++ [(inst, pool)] } }) := by
    have hyes : ¬ (!(spoken s a).ev.mctpWr) = true := by
      rw [show (spoken s a).ev.mctpWr = true from hw]
      decide
    unfold answerQueueCmd
    rw [if_neg hyes, show poolOwner (spoken s a) pool = some (c, q) from howner]
    dsimp only
    rw [if_neg (by rw [he.queue, hcmd]; decide), hact, if_pos (by rw [hset.queue]; rfl)]
  rw [hanswer]
  exact ⟨congrArg Queue.state hset.queue, rfl, rfl⟩

theorem queueCmd_absent {inst : Byte} {pool : Nat} {word : W64} (h : MctpUp s) (hw : s.ev.mctpWr = true)
    (howner : poolOwner s pool = none) :
    Completes (.queueCmd inst pool word) s fun t =>
      SendsOnly s t [.mctp (mctpData 3 inst 3 [])] ∧ t.queues = s.queues := by
  refine Completes.ofMessage rfl h fun a => ?_
  have hyes : ¬ (!(spoken s a).ev.mctpWr) = true := by
    rw [show (spoken s a).ev.mctpWr = true from hw]
    decide
  have hanswer : answerQueueCmd inst pool word (spoken s a) = mctpSend (spoken s a) 3 inst 3 [] := by
    unfold answerQueueCmd
    rw [if_neg hyes, show poolOwner (spoken s a) pool = none from howner]
  rw [hanswer]
  refine ⟨emit_sendsOnly rfl rfl _, ?_⟩
  unfold mctpSend
  rw [State.emit_eq]
  rfl

theorem readSticky_answered {inst : Byte} (h : MctpUp s) :
    Completes (.readSticky inst) s fun t =>
      SendsOnly s t [.mctp (mctpData 4 inst 0 (bvLe 32 s.aon.sticky))] ∧ t.aon = s.aon := by
  refine Completes.ofMessage rfl h fun a => ⟨emit_sendsOnly (u := spoken s a) rfl rfl _, ?_⟩
  unfold answerReadSticky mctpSend
  rw [State.emit_eq]
  rfl

theorem clearSticky_answered {inst : Byte} {mask : BitVec 256} (h : MctpUp s) (hw : s.ev.mctpWr = true) :
    Completes (.clearSticky inst mask) s fun t =>
      t.aon.sticky = s.aon.sticky &&& ~~~mask ∧
      SendsOnly s t [.mctp (mctpData 5 inst 0 (bvLe 32 (s.aon.sticky &&& ~~~mask)))] := by
  refine Completes.ofMessage rfl h fun a => ?_
  have hyes : ¬ (!(spoken s a).ev.mctpWr) = true := by
    rw [show (spoken s a).ev.mctpWr = true from hw]
    decide
  have hrecord : (stickyDrop (spoken s a) mask).aon.sticky = s.aon.sticky &&& ~~~mask := by
    rw [stickyDrop_aon]
    rfl
  have hlow : (stickyDrop (spoken s a) mask).coreOff = s.coreOff := by
    rw [State.coreOff, stickyDrop_aon, State.coreOff]
    rfl
  have hkeep : Keeps { aon := true, ev := true, fns := true, tenants := true, combs := true } (spoken s a)
      (stickyDrop (spoken s a) mask) := stickyDrop_keeps _ _ rfl rfl rfl rfl rfl (Keeps.refl _ _)
  have hout : (stickyDrop (spoken s a) mask).out = s.out := hkeep.out_eq rfl
  unfold answerClearSticky
  rw [if_neg hyes]
  dsimp only
  refine ⟨?_, ?_⟩
  · unfold mctpSend
    rw [State.emit_eq]
    exact hrecord
  · rw [← hrecord]
    exact emit_sendsOnly hout hlow _

end

/-- Settles O47. -/
theorem mctpEndpoint : Obligations.MctpEndpoint := by
  unfold Obligations.MctpEndpoint
  exact ⟨fun eid s => setEndpointId_answered, fun s => getEndpointId_answered, fun s => getMctpVersionSupport_answered,
    fun s => getMessageTypeSupport_answered, fun s => getVendorDefinedMessageSupport_answered,
    fun inst kind index w s => readState_answered, fun inst kind index s => readState_absent,
    fun inst comb word s => combCmd_closed, fun inst comb word s => combCmd_online,
    fun inst pool c q word s => queueCmd_pauses, fun inst pool word s => queueCmd_absent, fun inst s => readSticky_answered,
    fun inst mask s => clearSticky_answered⟩

end Sys2Proof.Machine
end

section
/-! SUPPORT. The tamper response and the jobs of peer clients (R359, R408): the theorem that refutes O50. -/

namespace Sys2Proof.Machine

open Host

/-- A Hive in service with one job, a peer's AES_CTR on its comb, of whose output a byte is counted as left for
egress. -/
def partlyLeft : State :=
  { hv := { step := 10, ready := true, fclk := true, cclk := true, kclk := true, xclk := true, rootLock := true }
    jobs := [(1, { desc := [0x07, 0x01], stage := .run, src := .peer 0 0 0, output := [7], written := 1 })]
    nextJob := 2 }

theorem partlyLeft_running : Running partlyLeft := by
  unfold Running State.Inv
  decide

/-- The response ends the job, and what has left of its output stays in front of its result. -/
theorem partlyLeft_trips :
    (opTamperInTrip 0 true partlyLeft).hasJob 1 = true ∧ ((opTamperInTrip 0 true partlyLeft).job 1).output = [7] := by
  decide +kernel

/-- Refutes O50: the keyed job of a peer client whose output has left in part keeps that part under a tamper response. -/
theorem not_tamperSources : ¬ Obligations.TamperSources := by
  intro h
  obtain ⟨hresponds, -⟩ := h
  obtain ⟨t, ht, -, hcleared⟩ := hresponds 0 partlyLeft partlyLeft_running (.inl rfl) (by decide) (by decide)
  obtain ⟨-, -, -, -, -, -, -, -, hjobs⟩ := hcleared
  have hop : t = opTamperInTrip 0 true partlyLeft := by
    rw [← settle_of_awake (s := partlyLeft) rfl (opTamperInTrip 0 true partlyLeft)]
    exact (Host.Outcome.next.inj ht).symm
  obtain ⟨hstays, hout⟩ := partlyLeft_trips
  rw [← hop] at hstays hout
  obtain ⟨-, hnone⟩ := hjobs 1 rfl (by decide) rfl hstays
  exact absurd (hout.symm.trans hnone) (by decide)

end Sys2Proof.Machine
end

section
/-! SUPPORT. The deadline of a substitution and the jobs of peer clients (R216, R359): the theorem that refutes O52. -/

namespace Sys2Proof.Machine

open Host

/-- A Hive whose granted substitution has reached its deadline, with one job: a peer's, which holds a reference to a
production slot, and of whose output a byte is counted as left for egress. -/
def deadlineReached : State :=
  { hv := { step := 10, ready := true, fclk := true, cclk := true, kclk := true, xclk := true, rootLock := true
            tick := 12000000 }
    lc := { subst := some 0 }
    jobs := [(1, { stage := .run, src := .peer 0 0 0, refs := [9], output := [7], written := 1 })], nextJob := 2 }

theorem deadlineReached_running : Running deadlineReached := by
  unfold Running State.Inv
  decide

/-- The deadline ends the job, and what has left of its output stays in front of its result. -/
theorem deadlineReached_output : ((opSubstitutionRefDeadline deadlineReached).job 1).output = [7] := by decide

/-- Refutes O52: the job of a peer client that the deadline ends keeps what has left of its output. -/
theorem not_debugAuthorisation : ¬ Obligations.DebugAuthorisation := by
  intro h
  obtain ⟨-, -, -, -, -, -, -, hdeadline, -⟩ := h
  obtain ⟨t, ht, -, hjobs⟩ := hdeadline 0 deadlineReached deadlineReached_running rfl rfl (by decide)
  have hop : t = opSubstitutionRefDeadline deadlineReached := (Host.Outcome.next.inj ht).symm
  obtain ⟨-, -, hnone, -⟩ := hjobs 1 rfl (by decide)
  rw [hop, deadlineReached_output] at hnone
  exact absurd hnone (by decide)

end Sys2Proof.Machine
end

section
/-! SUPPORT. The end of start-up in recovery mode (R367, R438): the theorem that refutes O53. -/

namespace Sys2Proof.Machine

open Host

/-- A Hive in recovery mode at step 9, while the supply of a core domain is below its limit. -/
def recoveryDark : State :=
  { hv := { step := 9, recovery := true, rootLock := true }, aon := { low := 1, tampered := true } }

theorem recoveryDark_startsUp : StartsUp recoveryDark 9 := by
  unfold StartsUp State.Inv
  decide

/-- With the core domains off the registers are not presented. -/
theorem recoveryDark_hidden : (opStartupStepDone 0 .clean recoveryDark).presented = false := by decide

/-- Refutes O53: start-up stops in recovery mode with its registers hidden while a core domain is off. -/
theorem not_startUp : ¬ Obligations.StartUp := by
  intro h
  obtain ⟨-, -, -, -, -, -, -, -, -, -, -, -, -, -, -, -, -, -, -, -, -, -, -, -, -, -, hrecovery, -⟩ := h
  obtain ⟨t, ht, -, hpresented⟩ := hrecovery 0 .clean recoveryDark recoveryDark_startsUp rfl
  have hop : t = opStartupStepDone 0 .clean recoveryDark := (Host.Outcome.next.inj ht).symm
  rw [hop, recoveryDark_hidden] at hpresented
  exact absurd hpresented (by decide)

end Sys2Proof.Machine
end

section
/-! SUPPORT. An FCLK edge on which nothing of R34 is due: what is left of it. -/

namespace Sys2Proof.Machine

open Host

section

variable {s : State}

theorem assignDue_bare (h : ∀ id, mayAssign s id = true → leafTurn s id = false) (n : Nat) : assignDue s n = s := by
  cases n with
  | zero => rfl
  | succ n =>
    have hnone : ((s.jobsWith fun j => j.stage == .leaf).find? fun id => mayAssign s id && leafTurn s id) = none := by
      refine List.find?_eq_none.2 fun id _ hid => ?_
      obtain ⟨hmay, hturn⟩ := Bool.and_eq_true_iff.1 hid
      exact absurd hturn (by simp [h id hmay])
    simp only [assignDue, hnone]

/-- An ENTER that is judged touches `hv` alone. -/
theorem enterAgain_hv (s : State) : ∃ h, enterAgain s = { s with hv := h } ∧ h.tick = s.hv.tick ∧ h.fclk = s.hv.fclk := by
  unfold enterAgain judgeEnter
  dsimp only
  split
  · split <;> exact ⟨_, rfl, rfl, rfl⟩
  · exact ⟨s.hv, rfl, rfl, rfl⟩

/-- On such an edge the edge's own work is the judgement of an ENTER. -/
theorem edgeWork_bare (hclose : closeDue s = false) (hfence : s.adm.fenced = none) (hckpt : ckptDue s = false)
    (hbare : BareEdge s) : edgeWork s = enterAgain s := by
  obtain ⟨hleaf, hpps, -⟩ := hbare
  obtain ⟨h, heq, htick, hfclk⟩ := enterAgain_hv s
  rw [edgeWork, heq]
  have hedge : judgeEdge { s with hv := h } = { s with hv := h } := by unfold judgeEdge; simp only [hpps]
  have hopen : closeDue { s with hv := h } = false := (congrArg (fun b => s.wg.isOpen && s.wg.signer && b
    && decide (epochBoundary s ≤ s.sync.h) && decide (s.wg.epoch + 1 < s.wg.eres)) hfclk).trans hclose
  have hepoch : opEpochClose [] 0 { s with hv := h } = { s with hv := h } := by simp [opEpochClose, hopen]
  have hassign : ∀ n, assignDue { s with hv := h } n = { s with hv := h } := assignDue_bare hleaf
  have hmissed : ckptMissed { s with hv := h } = { s with hv := h } := by
    have : ckptDue { s with hv := h } = false := 
      (congrArg (fun n => decide (s.wg.ckptAt + ckptTicks s ≤ n)) htick).trans hckpt
    simp [ckptMissed, this]
  rw [hedge, hepoch]
  dsimp only
  rw [hassign, hmissed]
  simp only [fenceCheck, hfence]

/-- The voltage monitor does not arm on the edge. -/
theorem armTick_bare {t : State} (haon : t.aon = s.aon)
    (h : s.aon.monitor = true ∨ ∀ t0, s.aon.goodAt = some t0 → s.aon.cycles + 1 < t0 + 10000) :
    armTick (countTick t) = countTick t := by
  have hcount : (countTick t).aon.monitor = s.aon.monitor ∧ (countTick t).aon.goodAt = s.aon.goodAt ∧
      (countTick t).aon.cycles ≤ s.aon.cycles + 1 := by
    unfold countTick
    dsimp only
    rw [haon]
    refine ⟨rfl, rfl, ?_⟩
    split <;> omega
  obtain ⟨hmon, hgood, hcyc⟩ := hcount
  unfold armTick armMonitor
  rw [hgood]
  split
  next t0 ht0 =>
    rw [hmon]
    rcases h with hm | hlate
    · rw [if_pos hm, ite_self]
    · rw [if_neg (by have := hlate t0 ht0; omega)]
  next => rfl

/-- The Hive when such an edge has counted. -/
theorem idleTick_bare (hclose : closeDue s = false) (hfence : s.adm.fenced = none) (hckpt : ckptDue s = false)
    (hbare : BareEdge s) :
    idleTick s = onClock s.hv.fclk (otpTick (countTick (enterAgain s))) fclkTick := by
  have hmon := hbare.2.2
  obtain ⟨h, heq, htick, hfclk⟩ := enterAgain_hv s
  have hcounted : tickCounted s = otpTick (countTick (enterAgain s)) := by
    rw [tickCounted, edgeWork_bare hclose hfence hckpt hbare, armTick_bare (s := s) (by rw [heq]) hmon]
  rw [idleTick_eq, hcounted, (otpTick_foot _).hv_eq rfl, heq]
  exact congrArg (fun b => onClock b _ _) hfclk

theorem onClock_fclkTick_keeps (on : Bool) (s : State) :
    Keeps { hi := true, doe := true, peer := true, sync := true, wg := true, out := true } s
      (onClock on s fclkTick) := by
  unfold onClock
  split
  · exact fclkTick_keeps _ rfl rfl rfl rfl rfl rfl (Keeps.refl _ _)
  · exact Keeps.refl _ _

end

end Sys2Proof.Machine
end

section
/-! SUPPORT. What the keeper takes up when it runs again leaves every comb in its mode. -/

namespace Sys2Proof.Machine

open Host

/-- The combs stand in the modes `m`. -/
def CombModes (m : Nat → Nat) (s : State) : Prop := s.Inv ∧ ∀ c, c < combCount → (s.comb c).mode = m c

section

variable {s : State} {m : Nat → Nat}

theorem CombModes.keeps {F : Foot} {t : State} (h : CombModes m s) (hk : Keeps F s t) (hF : F.combs = false) :
    CombModes m t := ⟨hk.inv h.1, fun c hc => by rw [State.comb, hk.combs_eq hF]; exact h.2 c hc⟩

theorem CombModes.modComb (h : CombModes m s) (c : Nat) {f : Comb → Comb} (hf : (f (s.comb c)).mode = (s.comb c).mode) :
    CombModes m (s.modComb c f) := by
  refine ⟨(modComb_keeps (F := { combs := true }) s c f rfl (Keeps.refl _ s)).inv h.1, fun d hd => ?_⟩
  by_cases hdc : d = c
  · rw [hdc, State.modComb_same h.1.wf, hf, h.2 c (hdc ▸ hd)]
  · rw [State.modComb_other _ _ _ _ hdc, h.2 d hd]

theorem CombModes.raise (h : CombModes m s) (src : Nat) (info : W32) : CombModes m (raise s src info) :=
  h.keeps (raise_signals s src info) rfl

theorem CombModes.combSync (h : CombModes m s) (c : Nat) : CombModes m (combSync s c) := by
  unfold Machine.combSync
  split
  · exact h
  · exact CombModes.raise (h.modComb c rfl) _ _

theorem CombModes.sticky (h : CombModes m s) (b : Nat) (info : W32) : CombModes m (sticky s b info) := by
  have hstick : CombModes m (stick s b) := h.keeps (stick_keeps (F := { aon := true }) s b rfl (Keeps.refl _ s)) rfl
  unfold Machine.sticky
  dsimp only
  split
  · exact CombModes.combSync (hstick.raise _ _) b
  · exact hstick.raise _ _

theorem CombModes.modJob (h : CombModes m s) (id : Nat) (f : Job → Job) : CombModes m (s.modJob id f) :=
  h.keeps (modJob_keeps (F := { jobs := true }) s id f rfl (Keeps.refl _ s)) rfl

theorem CombModes.cacheDrop (h : CombModes m s) (e : CacheEntry) : CombModes m (cacheDrop s e) :=
  State.each_induction (fun _ c _ hx => hx.modComb c rfl) h

theorem CombModes.eraseCtx (h : CombModes m s) (k : Nat) :
    CombModes m (Machine.cacheDrop { s with ctxs := tblErase s.ctxs k } (.ctx k)) :=
  CombModes.cacheDrop (h.keeps (Keeps.set_ctxs (F := { ctxs := true }) rfl (Keeps.refl _ s) (tblWf_erase _ _ _)) rfl) _

theorem CombModes.endCtx (h : CombModes m s) (id : Nat) (ab : Bool) : CombModes m (endCtx s id ab) := by
  have hjob := h.modJob id fun j => { j with holdsCtx := false }
  have hctx : ∀ c x f, CombModes m ((s.modJob id fun j => { j with holdsCtx := false }).modCtx c x f) := fun c x f =>
    hjob.keeps (modCtx_keeps (F := { ctxs := true }) _ _ _ _ rfl (Keeps.refl _ _)) rfl
  unfold Machine.endCtx
  dsimp only
  split
  next o x _ _ =>
    split_ifs
    · exact h
    · exact hctx _ _ _
    · exact (hctx _ _ _).keeps (Keeps.set_freeN (F := { freeN := true }) rfl (Keeps.refl _ _)) rfl
    · exact hctx _ _ _
    · exact hjob.eraseCtx _
    · exact hctx _ _ _
    · exact hctx _ _ _
    · exact hjob.eraseCtx _
  next => exact h

theorem CombModes.releaseJob (h : CombModes m s) (id : Nat) (ab : Bool) : CombModes m (releaseJob s id ab) := by
  have hslots : ∀ l, Keeps { slots := true } s (freeRun (s.each (s.job id).refs dropRef) l) := fun l =>
    freeRun_keeps _ _ rfl (Keeps.each _ _ (fun _ _ => dropRef_keeps _ _ rfl) (Keeps.refl _ s))
  have hpp : ∀ l, CombModes m _ := fun l => (((h.keeps (hslots l) rfl).endCtx id ab).cacheDrop (.saved id)).keeps
    (ppFree_keeps (F := { ks := true }) _ id rfl (Keeps.refl _ _)) rfl
  exact (hpp _).modJob id _

theorem CombModes.dropJob (h : CombModes m s) (id : Nat) : CombModes m (s.dropJob id) :=
  h.keeps (dropJob_keeps (F := { jobs := true }) s id rfl (Keeps.refl _ s)) rfl

theorem CombModes.abandonJob (h : CombModes m s) (id : Nat) : CombModes m (abandonJob s id) :=
  ((h.keeps (orphanJobReads_keeps (F := { dma := true, jobs := true }) s id rfl rfl (Keeps.refl _ s)) rfl).releaseJob id true).dropJob id

theorem CombModes.abandonJobs (h : CombModes m s) (l : List Nat) : CombModes m (s.each l Machine.abandonJob) :=
  State.each_induction (fun _ id _ hx => hx.abandonJob id) h

theorem CombModes.eraseRec (h : CombModes m s) (id : Nat) : CombModes m (eraseRec s id) :=
  h.keeps (eraseRec_keeps (F := { store := true }) s id rfl (Keeps.refl _ s)) rfl

theorem CombModes.discardRec (h : CombModes m s) (id : Nat) : CombModes m (discardRec s id) := by
  have hstore : Keeps { store := true } s { Machine.eraseRec s id with
      store.errKey := satAdd 65535 (Machine.eraseRec s id).store.errKey 1 } :=
    Keeps.set_store rfl (eraseRec_keeps _ _ rfl (Keeps.refl _ s)) fun h => h
  exact (h.keeps hstore rfl).sticky 90 0

theorem CombModes.restoreRec (h : CombModes m s) (c id : Nat) : CombModes m (restoreRec s c id) := by
  have hmade : ∀ l kt pol par pr og ex p f k, Keeps { slots := true } s
      (State.modSlot (commitRun (reserveRun s c l kt pol par pr og ex) l k).2 p f) := fun l kt pol par pr og ex p f k =>
    modSlot_keeps _ _ _ rfl (commitRun_keeps _ _ _ rfl (reserveRun_keeps _ _ _ _ _ _ _ _ _ rfl (Keeps.refl _ s)))
  unfold Machine.restoreRec
  dsimp only
  split
  next => exact h.discardRec id
  next =>
    split
    next => exact h.discardRec id
    next =>
      split
      · exact h.discardRec id
      · exact h.keeps (hmade _ _ _ _ _ _ _ _ _ _) rfl

theorem CombModes.restoreRecs (h : CombModes m s) (c : Nat) : CombModes m (restoreRecs s c) := by
  unfold Machine.restoreRecs
  split
  · exact h
  · refine State.each_induction (P := CombModes m) (fun x id _ hx => ?_) h
    dsimp only
    split
    · exact hx.restoreRec c id
    split
    · exact hx.eraseRec id
    · exact hx

theorem CombModes.refreshPending (h : CombModes m s) : CombModes m (refreshPending s) :=
  h.keeps (refreshPending_keeps (F := { ev := true, wg := true, fns := true, tenants := true, jobs := true }) s rfl rfl rfl
    rfl rfl (Keeps.refl _ s)) rfl

theorem CombModes.dropBlocked (h : CombModes m s) (c : Nat) : CombModes m (dropBlocked s c) :=
  CombModes.refreshPending <| State.each_induction
    (fun x _ _ hx => hx.keeps (modQueue_keeps (F := { queues := true }) x _ _ _ rfl (Keeps.refl _ x)) rfl)
    (h.abandonJobs _)

theorem CombModes.closeCtxs (h : CombModes m s) (c : Nat) : CombModes m (closeCtxs s c) :=
  State.each_induction (fun _ k _ hx => hx.eraseCtx k) h

theorem CombModes.peerQueueReset (h : CombModes m s) (c q : Nat) : CombModes m (peerQueueReset s c q) := by
  have hdropped : CombModes m (dropReady (dropCopies s c q) c q) :=
    h.keeps (dropReady_keeps (F := { dma := true, queues := true, jobs := true }) _ c q rfl rfl
      (dropCopies_keeps _ _ _ rfl rfl (Keeps.refl _ s))) rfl
  unfold Machine.peerQueueReset
  dsimp only
  have hq := hdropped.abandonJobs ((dropReady (dropCopies s c q) c q).queue c q).window
  generalize (dropReady (dropCopies s c q) c q).each _ Machine.abandonJob = u at hq
  split
  · exact hq.keeps (releaseQueue_keeps
      (F := { dma := true, peer := true, tenants := true, queues := true, jobs := true }) _ _ _ _ rfl rfl rfl rfl rfl
      (Keeps.refl _ _)) rfl
  split
  · exact hq.keeps (setQueue_keeps (F := { queues := true }) _ _ _ _ rfl (Keeps.refl _ _)) rfl
  split
  · exact hq.keeps (modQueue_keeps (F := { queues := true }) _ _ _ _ rfl (Keeps.refl _ _)) rfl
  · exact hq.keeps (modQueue_keeps (F := { queues := true }) _ _ _ _ rfl (Keeps.refl _ _)) rfl

theorem CombModes.peerDiscard (h : CombModes m s) (p : Nat) : CombModes m (peerDiscard s p) := by
  have hqueues : CombModes m (s.each (s.queuesOf (p + 4096)) fun s q => Machine.peerQueueReset s (p + 4096) q) :=
    State.each_induction (fun _ q _ hx => hx.peerQueueReset _ q) h
  have hjobs : CombModes m (State.each (s.each (s.queuesOf (p + 4096)) fun s q => Machine.peerQueueReset s (p + 4096) q)
      (s.jobsWith fun j => j.client == p + 4096) fun s j =>
        if !s.hasJob j then s else if (s.job j).live then Machine.abandonJob s j else s.dropJob j) := by
    refine State.each_induction (fun x j _ hx => ?_) hqueues
    split
    · exact hx
    split
    · exact hx.abandonJob j
    · exact hx.dropJob j
  have hpeer : ∀ x d o k r n q, CombModes m x → CombModes m (Machine.refreshPending { x with peer := { x.peer with
      packets := tblDrop d x.peer.packets, open_ := o, discard := k, order := r, notices := n, seq := q } }) :=
    fun x d o k r n q hx => CombModes.refreshPending (hx.keeps (F := { peer := true })
      (Keeps.set_peer rfl (Keeps.refl _ x) fun hw => tblWf_drop _ _ _ hw) rfl)
  exact hpeer _ _ _ _ _ _ _ (hjobs.keeps (orphanReads_keeps (F := { dma := true }) _ _ _ rfl (Keeps.refl _ _)) rfl)

theorem CombModes.peerEnd (h : CombModes m s) (p : Nat) : CombModes m (peerEnd s p) := by
  unfold Machine.peerEnd
  dsimp only
  refine CombModes.closeCtxs ?_ _
  split
  · exact h.keeps (moveSession_keeps (F := { slots := true }) _ _ rfl (Keeps.refl _ s)) rfl
  · exact h

theorem CombModes.orphanTenant (h : CombModes m s) (c : Nat) : CombModes m (orphanTenant s c) := by
  have hmoved : ∀ p id b f, CombModes m (Machine.closeCtxs ((writeRec (bumpGen s p) id b).modTenant c f) c) := fun p id b f =>
    CombModes.closeCtxs (h.keeps (modTenant_keeps (F := { slots := true, store := true, tenants := true }) _ c f rfl
      (writeRec_keeps _ _ _ rfl (bumpGen_keeps _ _ rfl (Keeps.refl _ s)))) rfl) c
  have hrings : ∀ x, CombModes m x →
      CombModes m (dropReceipts { x with rings := tblDrop (fun k _ => k / 512 == c) x.rings } c) := fun x hx =>
    hx.keeps (F := { rings := true, tenants := true }) (dropReceipts_keeps _ _ rfl
      (Keeps.set_rings rfl (Keeps.refl _ x) fun hw => tblWf_drop _ _ _ hw)) rfl
  unfold Machine.orphanTenant
  exact hrings _ ((hmoved _ _ _ _).keeps (clearMail_keeps (F := { tenants := true }) _ _ rfl (Keeps.refl _ _)) rfl)

theorem CombModes.orphanIfQuiet (h : CombModes m s) (c : Nat) : CombModes m (orphanIfQuiet s c) := by
  have hblocked : CombModes m (if (s.tenant c).state = 3 && !(s.tenant c).orphaned then Machine.dropBlocked s c else s) := by
    split
    · exact h.dropBlocked c
    · exact h
  unfold Machine.orphanIfQuiet
  dsimp only
  generalize (if (s.tenant c).state = 3 && !(s.tenant c).orphaned then Machine.dropBlocked s c else s) = u at hblocked
  split
  · exact hblocked.orphanTenant c
  · exact hblocked

theorem CombModes.stepTenant (h : CombModes m s) (c st : Nat) : CombModes m (stepTenant s c st) :=
  h.keeps (stepTenant_keeps (F := { peer := true, tenants := true }) s c st rfl rfl (Keeps.refl _ s)) rfl

theorem CombModes.destroyTenant (h : CombModes m s) (a : AdmCfg) : CombModes m (destroyTenant s a) := by
  have hstep := h.stepTenant a.client 3
  have hpeer : CombModes m (if isFn a.client then Machine.stepTenant s a.client 3 else
      Machine.peerEnd (Machine.peerDiscard (Machine.stepTenant s a.client 3) (a.client - 4096)) (a.client - 4096)) := by
    split
    · exact hstep
    · exact CombModes.peerEnd (hstep.peerDiscard _) _
  unfold Machine.destroyTenant
  dsimp only
  refine CombModes.orphanIfQuiet (State.each_induction (fun x q _ hx => ?_) hpeer) _
  split
  · exact hx.keeps (releaseQueue_keeps
      (F := { dma := true, peer := true, tenants := true, queues := true, jobs := true }) _ _ _ _ rfl rfl rfl rfl rfl
      (Keeps.refl _ _)) rfl
  · exact hx.keeps (hiveReset_keeps (F := { dma := true, queues := true, jobs := true }) _ _ _ rfl rfl rfl
      (Keeps.refl _ _)) rfl

theorem CombModes.createTenant (h : CombModes m s) (a : AdmCfg) : CombModes m (createTenant s a) := by
  have hset : ∀ f w q, CombModes m { s.modTenant a.client f with
      sch.weight := w, peer.seq := tblDrop q s.peer.seq } := fun f w q =>
    h.keeps (F := { tenants := true, peer := true, sch := true }) (Keeps.set_peer_sch rfl rfl
      (modTenant_keeps _ _ _ rfl (Keeps.refl _ s)) fun hw => hw) rfl
  have hset' : ∀ f w, CombModes m { s.modTenant a.client f with sch.weight := w } := fun f w =>
    h.keeps (F := { tenants := true, sch := true }) (Keeps.set_sch rfl (modTenant_keeps _ _ _ rfl (Keeps.refl _ s))) rfl
  have hadd : ∀ x, CombModes m x →
      CombModes m (addGranules (addQueues x a.client 0 a.queues) a.client a.keyGran) := fun x hx =>
    hx.keeps (F := { tenants := true, queues := true, freeN := true })
      (addGranules_keeps _ _ _ rfl rfl (addQueues_keeps _ _ _ _ rfl rfl rfl (Keeps.refl _ x))) rfl
  have hnodes : ∀ x, CombModes m x → CombModes m (if x.aon.tampered then x
      else if laneShut x then
        { x with ks.restoreDue := x.ks.restoreDue.filter (· != a.client) ++ [a.client] }
      else Machine.restoreRecs (deriveNodes x a.client) a.client) := fun x hx => by
    split_ifs
    · exact hx
    · exact hx.keeps (Keeps.set_ks (F := { ks := true }) rfl (Keeps.refl _ x)) rfl
    · exact CombModes.restoreRecs (hx.keeps (deriveNodes_keeps (F := { slots := true }) _ _ rfl (Keeps.refl _ x)) rfl) _
  unfold Machine.createTenant
  dsimp only
  refine CombModes.stepTenant (hnodes _ (hadd _ ?_)) _ _
  split
  · exact hset' _ _
  · exact hset _ _ _

theorem CombModes.admEnd (h : CombModes m s) (a : AdmCfg) (r : Nat) : CombModes m (admEnd s a r) :=
  h.keeps (admEnd_keeps (F := { ev := true, adm := true, fns := true, tenants := true }) s a r rfl rfl rfl rfl
    (Keeps.refl _ s)) rfl

/-- What a RESIZE moves. -/
def resizeFoot : Foot :=
  { dma := true, peer := true, fns := true, tenants := true, queues := true, jobs := true, freeN := true }

theorem CombModes.admTake (h : CombModes m s) : CombModes m (admTake s) := by
  unfold Machine.admTake
  split
  next => exact h
  next a _ =>
    dsimp only
    split_ifs
    · exact h
    · exact h.admEnd a _
    · exact h.keeps (Keeps.set_adm (F := { adm := true }) rfl (Keeps.refl _ s)) rfl
    · refine CombModes.admEnd ?_ a 0
      split
      · exact h.createTenant a
      · exact h.keeps (resizeTenant_keeps (F := resizeFoot) s a rfl rfl rfl rfl rfl rfl rfl (Keeps.refl _ s)) rfl
      · exact h.destroyTenant a

theorem CombModes.updEnd (h : CombModes m s) (r : Nat) : CombModes m (updEnd s r) := by
  have hended : ∀ k, CombModes m (Machine.raiseHive { s with store := { s.store with
      updBusy := false, updTaken := false, updPhase := 0, updResult := r, updHash := [], updBuf := [] } } 2 k) := fun k =>
    h.keeps (raiseHive_keeps (F := { store := true, ev := true, fns := true, tenants := true }) _ _ _ rfl rfl rfl
      (Keeps.set_store rfl (Keeps.refl _ s) fun h => h)) rfl
  unfold Machine.updEnd
  dsimp only
  split
  · exact hended _
  · exact (hended _).sticky 103 0

theorem CombModes.updTake (h : CombModes m s) : CombModes m (updTake s) := by
  unfold Machine.updTake
  split_ifs
  · exact h
  · exact h.updEnd 12
  · exact h.keeps (Keeps.set_store (F := { store := true }) rfl (Keeps.refl _ s) fun h => h) rfl

/-- What waited for the keeper leaves the combs in their modes. -/
theorem CombModes.keeperBack (h : CombModes m s) : CombModes m (keeperBack s) :=
  CombModes.updTake (h.admTake.keeps
    (doeResume_keeps (F := { doe := true, out := true, freeN := true }) _ rfl rfl rfl (Keeps.refl _ _)) rfl)

end

end Sys2Proof.Machine
end

section
/-! SUPPORT. Retention sleep (R445 to R447): the theorem that settles O55. -/

namespace Sys2Proof.Machine

open Host

section

variable {s : State}

/-! ## Entry -/

theorem judgeEnter_hv (s : State) : judgeEnter s =
    { s with hv := if sleepReason s = 0 then { s.hv with pwr := 1, wakeNext := causeNow s, enterAt := some s.hv.tick }
      else { s.hv with refuse := sleepReason s } } := by
  unfold judgeEnter
  dsimp only
  split <;> rfl

theorem opHvSleepEnter_keyed (hpwr : s.hv.pwr = 0) (hp : s.presented = true) : opHvSleepEnter 0xA5 s = judgeEnter s := by
  simp [opHvSleepEnter, hpwr, hp]

theorem combSleep_hv (s : State) (c : Nat) :
    (combSleep s c).hv = { s.hv with modes := tblPut s.hv.modes c (s.comb c).mode } :=
  (combSync_keeps (F := { ev := true, fns := true, tenants := true, combs := true }) _ c rfl rfl rfl rfl
    (Keeps.refl _ _)).hv_eq rfl

theorem combSleep_inv (hs : s.Inv) (c : Nat) : (combSleep s c).Inv :=
  (combSleep_keeps (F := { hv := true, ev := true, fns := true, tenants := true, combs := true }) s c rfl rfl rfl rfl rfl
    (Keeps.refl _ s)).inv hs

/-- A comb that goes to sleep takes its mode, and keeps its blocks of nonces. -/
theorem combSleep_combs (hs : s.Inv) (c : Nat) :
    OtherCombs c s (combSleep s c) ∧ ((combSleep s c).comb c).mode = 4 ∧
      ((combSleep s c).comb c).nonces = (s.comb c).nonces := by
  have hwf : ∀ m, ({ s with hv.modes := m } : State).wf = true := fun m => hs.wf
  obtain ⟨hothers, g, b, hcomb, -⟩ := combSync_spec (State.modComb_wf (hwf (tblPut s.hv.modes c (s.comb c).mode)) c
    fun b => { b with mode := 4, cache := [] }) c
  rw [State.modComb_same (hwf _)] at hcomb
  refine ⟨fun d hd => (hothers d hd).trans (State.modComb_other _ _ _ _ hd), ?_, ?_⟩
  · exact (congrArg Comb.mode hcomb :)
  · exact (congrArg Comb.nonces hcomb :)

/-- The combs of a list have gone to sleep and remember their modes; nothing else of `hv` has moved. -/
structure CombsAsleep (l : List Nat) (s t : State) : Prop where
  inv : t.Inv
  asleep : ∀ c ∈ l, (t.comb c).mode = 4 ∧ tblGet 1 t.hv.modes c = (s.comb c).mode
  awake : ∀ c, c ∉ l → t.comb c = s.comb c ∧ tblGet 1 t.hv.modes c = tblGet 1 s.hv.modes c
  nonces : ∀ c, (t.comb c).nonces = (s.comb c).nonces
  hv : ∃ m, t.hv = { s.hv with modes := m }

theorem each_combSleep (l : List Nat) (hl : l.Nodup) (hs : s.Inv) : CombsAsleep l s (s.each l combSleep) := by
  induction l generalizing s with
  | nil => exact ⟨hs, by simp, fun _ _ => ⟨rfl, rfl⟩, fun _ => rfl, s.hv.modes, rfl⟩
  | cons d l ih =>
    obtain ⟨hd, hl⟩ := List.nodup_cons.1 hl
    obtain ⟨hothers, hmode, hnonces⟩ := combSleep_combs hs d
    have hhv := combSleep_hv s d
    have hmodes : (combSleep s d).hv.modes = tblPut s.hv.modes d (s.comb d).mode := congrArg Hv.modes hhv
    have h := ih hl (combSleep_inv hs d)
    have heach : s.each (d :: l) combSleep = (combSleep s d).each l combSleep := rfl
    rw [heach]
    refine ⟨h.inv, fun c hc => ?_, fun c hc => ?_, fun c => ?_, ?_⟩
    · by_cases hcd : c = d
      · subst hcd
        obtain ⟨hcomb, hget⟩ := h.awake c hd
        exact ⟨by rw [hcomb, hmode], by rw [hget, hmodes, tblGet_put_same]⟩
      · obtain ⟨hm, hget⟩ := h.asleep c ((List.mem_cons.1 hc).resolve_left hcd)
        exact ⟨hm, by rw [hget, hothers c hcd]⟩
    · obtain ⟨hcd, hcl⟩ := not_or.1 (mt List.mem_cons.2 hc)
      obtain ⟨hcomb, hget⟩ := h.awake c hcl
      exact ⟨by rw [hcomb, hothers c hcd], by rw [hget, hmodes, tblGet_put_other _ _ _ _ _ hcd]⟩
    · rw [h.nonces c]
      by_cases hcd : c = d
      · rw [hcd, hnonces]
      · rw [hothers c hcd]
    · obtain ⟨m, hm⟩ := h.hv
      exact ⟨m, by rw [hm, hhv]⟩

/-- The end of entry. -/
theorem opSleepEntryDone_asleep (hpwr : s.hv.pwr = 1) (hlive : s.jobsWith Job.live = []) :
    opSleepEntryDone s =
      let u := (retireAll s).each (List.range combCount) combSleep
      { u with hv := { u.hv with
        cclk := false, kclk := false, xclk := false, wakeNext := 0
        pwr := if u.hv.wakeNext = 0 then 2 else 3
        wakeCause := if u.hv.wakeNext = 0 then u.hv.wakeCause else u.hv.wakeNext } } :=
  if_neg (by simp [hpwr, hlive])

theorem retireAll_foot (s : State) : Keeps { combs := true } s (retireAll s) := retireAll_keeps _ rfl (Keeps.refl _ s)

theorem retireAll_mode (hs : s.Inv) (c : Nat) (hc : c < combCount) : ((retireAll s).comb c).mode = (s.comb c).mode := by
  have hretire : ∀ x d, CombModes (fun c => (s.comb c).mode) x →
      CombModes (fun c => (s.comb c).mode) (retire x d fun _ => true) := fun x d hx => (hx.modComb d rfl).modComb d rfl
  exact (State.each_induction (fun x d _ hx => hretire x d hx) (⟨hs, fun _ _ => rfl⟩ : CombModes _ s)).2 c hc

/-- What entry that has ended leaves. -/
theorem sleepEntry_ends (hs : s.Inv) (hpwr : s.hv.pwr = 1) (hlive : s.jobsWith Job.live = []) :
    ∃ m, (opSleepEntryDone s).hv = { s.hv with
        modes := m, cclk := false, kclk := false, xclk := false, wakeNext := 0
        pwr := if s.hv.wakeNext = 0 then 2 else 3
        wakeCause := if s.hv.wakeNext = 0 then s.hv.wakeCause else s.hv.wakeNext } ∧
      (∀ c, ((opSleepEntryDone s).comb c).nonces = []) ∧
      (∀ c, c < combCount → ((opSleepEntryDone s).comb c).mode = 4 ∧ tblGet 1 m c = (s.comb c).mode) ∧
      (opSleepEntryDone s).jobs = s.jobs ∧ (opSleepEntryDone s).queues = s.queues := by
  have hfoot := opSleepEntryDone_keeps (F := { hv := true, ev := true, fns := true, tenants := true, combs := true }) s rfl
    rfl rfl rfl rfl (Keeps.refl _ s)
  have hretired := retireAll_foot s
  obtain ⟨-, hasleep, -, hnonces, m, hm⟩ := each_combSleep (List.range combCount) List.nodup_range (hretired.inv hs)
  rw [opSleepEntryDone_asleep hpwr hlive] at hfoot ⊢
  dsimp only at hfoot ⊢
  generalize (retireAll s).each (List.range combCount) combSleep = u at *
  rw [hretired.hv_eq rfl] at hm
  refine ⟨m, by rw [hm], fun c => (hnonces c).trans ((retireAll_noNonces hs).2 c), fun c hc => ?_, hfoot.jobs_eq rfl,
    hfoot.queues_eq rfl⟩
  obtain ⟨hmode, hget⟩ := hasleep c (List.mem_range.2 hc)
  rw [hm] at hget
  exact ⟨hmode, hget.trans (retireAll_mode hs c hc)⟩

/-! ## Wake -/

theorem modComb_mode (hs : s.wf = true) (c : Nat) {f : Comb → Comb} (hf : (f (s.comb c)).mode = (s.comb c).mode) :
    ((s.modComb c f).comb c).mode = (s.comb c).mode := by rw [State.modComb_same hs, hf]

/-- A DRBG that is instantiated changes its comb alone, and not the comb's mode. -/
theorem drbgInit_combs (hs : s.wf = true) (c : Nat) :
    OtherCombs c s (drbgInit s c) ∧ ((drbgInit s c).comb c).mode = (s.comb c).mode := by
  unfold drbgInit
  split
  · exact ⟨fun d hd => State.modComb_other _ _ _ _ hd, modComb_mode hs c rfl⟩
  · have htrng : ({ s with trngN := s.trngN + 1 } : State).wf = true := hs
    exact ⟨fun d hd => State.modComb_other _ _ _ _ hd, modComb_mode htrng c rfl⟩

def wakeFoot : Foot := { ev := true, fns := true, tenants := true, combs := true, trngN := true }

theorem combWake_foot (s : State) (c : Nat) : Keeps wakeFoot s (combWake s c) :=
  combWake_keeps s c rfl rfl rfl rfl rfl (Keeps.refl _ s)

/-- A comb that wakes returns to the mode it held. -/
theorem combWake_combs (hs : s.Inv) (c : Nat) :
    OtherCombs c s (combWake s c) ∧ ((combWake s c).comb c).mode = tblGet 1 s.hv.modes c := by
  have hset : (s.modComb c fun b => { b with mode := tblGet 1 s.hv.modes c }).Inv :=
    (modComb_keeps (F := { combs := true }) s c _ rfl (Keeps.refl _ s)).inv hs
  have hsync : (combSync (s.modComb c fun b => { b with mode := tblGet 1 s.hv.modes c }) c).Inv :=
    (combSync_keeps (F := { ev := true, fns := true, tenants := true, combs := true }) _ c rfl rfl rfl rfl
      (Keeps.refl _ _)).inv hset
  obtain ⟨hothers, g, b, hcomb, -⟩ := combSync_spec hset.wf c
  rw [State.modComb_same hs.wf] at hcomb
  have hkept : OtherCombs c s (combSync (s.modComb c fun b => { b with mode := tblGet 1 s.hv.modes c }) c) :=
    fun d hd => (hothers d hd).trans (State.modComb_other _ _ _ _ hd)
  have hmode := (congrArg Comb.mode hcomb :)
  unfold combWake
  dsimp only
  split
  · exact ⟨hkept, hmode⟩
  · obtain ⟨hdrbg, hdmode⟩ := drbgInit_combs hsync.wf c
    exact ⟨fun d hd => (hdrbg d hd).trans (hkept d hd), hdmode.trans hmode⟩

/-- The combs of a list wake. -/
theorem each_combWake (l : List Nat) (hs : s.Inv) :
    (∀ c ∈ l, ((s.each l combWake).comb c).mode = tblGet 1 s.hv.modes c) ∧
      (∀ c, c ∉ l → (s.each l combWake).comb c = s.comb c) := by
  induction l generalizing s with
  | nil => exact ⟨by simp, fun _ _ => rfl⟩
  | cons d l ih =>
    obtain ⟨hothers, hmode⟩ := combWake_combs hs d
    have hfoot := combWake_foot s d
    obtain ⟨hwoken, hleft⟩ := ih (hfoot.inv hs)
    rw [hfoot.hv_eq rfl] at hwoken
    have heach : s.each (d :: l) combWake = (combWake s d).each l combWake := rfl
    rw [heach]
    refine ⟨fun c hc => ?_, fun c hc => ?_⟩
    · by_cases hcl : c ∈ l
      · exact hwoken c hcl
      · obtain rfl := (List.mem_cons.1 hc).resolve_right hcl
        rw [hleft c hcl, hmode]
    · obtain ⟨hcd, hcl⟩ := not_or.1 (mt List.mem_cons.2 hc)
      rw [hleft c hcl, hothers c hcd]

/-- The state in which the combs wake: the clocks are back, and what a tamper response left for them is done. -/
def clocksBack (s : State) : State :=
  zeroRest { s with hv := { s.hv with cclk := true, kclk := true, xclk := true, pwr := 0 } }

theorem clocksBack_foot (s : State) :
    Keeps restFoot { s with hv := { s.hv with cclk := true, kclk := true, xclk := true, pwr := 0 } } (clocksBack s) :=
  zeroRest_keeps _ rfl rfl rfl rfl rfl rfl rfl rfl rfl rfl rfl rfl rfl rfl rfl (Keeps.refl _ _)

def backFoot : Foot :=
  { store := true, aon := true, ev := true, dma := true, doe := true, peer := true, wg := true, adm := true, ks := true
    sch := true, fns := true, tenants := true, queues := true, rings := true, ctxs := true, slots := true
    combs := true, jobs := true, out := true, freeN := true }

theorem keeperBack_foot (s : State) : Keeps backFoot s (keeperBack s) :=
  keeperBack_keeps s rfl rfl rfl rfl rfl rfl rfl rfl rfl rfl rfl rfl rfl rfl rfl rfl rfl rfl rfl rfl (Keeps.refl _ s)

/-- The Hive that wakes: its clocks run, and every comb is back in the mode that it held. -/
theorem awaken_awake (hs : s.Inv) :
    (awaken s).hv = { s.hv with cclk := true, kclk := true, xclk := true, pwr := 0, modes := [] } ∧
      ∀ c, c < combCount → ((awaken s).comb c).mode = tblGet 1 s.hv.modes c := by
  have hclocks : ({ s with hv := { s.hv with cclk := true, kclk := true, xclk := true, pwr := 0 } } : State).Inv :=
    ⟨hs.wf, Nat.zero_le _, hs.2.2⟩
  have hback := clocksBack_foot s
  have hinv := hback.inv hclocks
  have hhv : (clocksBack s).hv = _ := hback.hv_eq rfl
  obtain ⟨hmodes, -⟩ := each_combWake (List.range combCount) hinv
  have hwake : Keeps wakeFoot (clocksBack s) ((clocksBack s).each (List.range combCount) combWake) :=
    Keeps.each _ _ (fun x c hx => combWake_keeps x c rfl rfl rfl rfl rfl hx) (Keeps.refl _ _)
  have heq : awaken s = keeperBack { (clocksBack s).each (List.range combCount) combWake with
      hv.modes := [] } := rfl
  rw [heq]
  generalize (clocksBack s).each (List.range combCount) combWake = u at hmodes hwake ⊢
  have hu : u.Inv := hwake.inv hinv
  have huhv : u.hv = (clocksBack s).hv := hwake.hv_eq rfl
  have hplain : ({ u with hv.modes := [] } : State).Inv := ⟨hu.wf, hu.2.1, hu.2.2⟩
  refine ⟨?_, fun c hc => ?_⟩
  · rw [(keeperBack_foot _).hv_eq rfl]
    dsimp only
    rw [huhv, hhv]
  · have hcombs : CombModes (tblGet 1 (clocksBack s).hv.modes) { u with hv.modes := [] } :=
      ⟨hplain, fun d hd => hmodes d (List.mem_range.2 hd)⟩
    rw [hcombs.keeperBack.2 c hc, hhv]

/-- Nothing waits: the held accesses are none. -/
theorem runAll_none (h : s.hv.heldCmds = []) : runAll s = { s with hv.heldCmds := [], hi.wttOld := 0 } := by
  unfold runAll
  rw [h]
  rfl

end

section

variable {s : State}

/-! ## Wake causes -/

theorem wake_aware (hpwr : s.hv.pwr = 0 ∨ entersNow s = true) (h2 : s.hv.pwr ≠ 2) (n : Nat) : wake s n =
    { s with hv := { s.hv with
      pwr := 0, causeAt := if causeNow s = 0 then some (s.hv.tick, n) else s.hv.causeAt } } := by
  unfold wake
  rw [if_neg h2, if_pos (by simpa using hpwr)]

theorem wake_asleep (hpwr : s.hv.pwr = 2) (n : Nat) : wake s n = { s with hv := { s.hv with pwr := 3, wakeCause := n } } :=
  if_pos hpwr

theorem wake_entering (hpwr : s.hv.pwr = 1) (hnow : s.hv.enterAt ≠ some s.hv.tick) (hnext : s.hv.wakeNext = 0) (n : Nat) :
    wake s n = { s with hv := { s.hv with wakeNext := n } } := by
  unfold wake entersNow
  simp [hpwr, hnow, hnext]

theorem opSleepWake_cause {cause : Nat} (h1 : 1 ≤ cause) (h8 : cause ≤ 8) (s : State) :
    opSleepWake cause s = wake s cause := if_pos (by simp [h1, h8])

/-! ## The end of the FCLK cycle -/

/-- On a bare edge the power state is what the judgement of ENTER leaves. -/
theorem idleTick_power (hclose : closeDue s = false) (hfence : s.adm.fenced = none) (hckpt : ckptDue s = false)
    (hbare : BareEdge s) :
    (idleTick s).hv = { (enterAgain s).hv with tick := s.hv.tick + 1 } := by
  rw [idleTick_bare hclose hfence hckpt hbare, (onClock_fclkTick_keeps _ _).hv_eq rfl, (otpTick_foot _).hv_eq rfl]
  obtain ⟨h, heq, htick, -⟩ := enterAgain_hv s
  rw [heq]
  unfold countTick
  dsimp only
  rw [htick]

/-- The clocks have restarted (R35). -/
def relocked (s : State) : State :=
  { s with
    hv := { s.hv with rootLock := true, cclk := true, fclk := true, kclk := true, xclk := true }
    aon.unlock := false }

/-- The relock that finds nothing to do but to serve accesses, of which there are none. -/
theorem pllRelock_quiet (hroot : s.hv.rootLock = false) (hstep : 3 ≤ s.hv.step) (hpwr : s.hv.pwr = 0)
    (hz : s.ks.zPend = false) (hn : NothingWaits s) :
    opPllRelockRetry true s = { s with
      hv := { s.hv with rootLock := true, cclk := true, fclk := true, kclk := true, xclk := true }
      aon := { s.aon with unlock := false }
      hi := { s.hi with wttOld := 0 } } := by
  obtain ⟨hheld, hadm, hdoe, hupd⟩ := hn
  have hlocked : ∀ x : State, x.ks.zPend = false → x.adm.running = none → x.doe.held = none → x.store.updBusy = false →
      keeperBack (zeroRest x) = x := fun x hz hadm hdoe hupd => by
    simp [keeperBack, zeroRest, admTake, doeResume, updTake, hz, hadm, hdoe, hupd]
  unfold opPllRelockRetry
  rw [if_neg (by simp [hroot]; omega)]
  dsimp only
  have hback := hlocked (relocked s) hz hadm hdoe hupd
  have hserved := runAll_none (s := relocked s) hheld
  have hnone : { (relocked s).hv with heldCmds := [] } = (relocked s).hv := by rw [← hheld]; rfl
  rw [if_pos hpwr]
  refine ((congrArg runAll hback).trans hserved).trans ?_
  rw [hnone]
  rfl

end

/-- Settles O55: entry and its refusal, the wake causes, the end of a wake, and the relock. -/
theorem retentionSleep : Obligations.RetentionSleep := by
  refine ⟨fun s hs hpwr hp => ?_, fun cause s hs hpwr hp hr hc => ?_, fun key s hpwr hkey => ?_, fun key s hpwr => ?_,
    fun s hs hpwr hlive hnext => ?_, fun s hs hpwr hlive hnext => ?_, fun s hpwr => ?_,
    fun cause s hpwr h1 h8 => ?_, fun cause s hpwr hnow h1 h8 => ?_, fun s hpend hclose hfence hckpt hq hpwr hat => ?_,
    fun cause s hpwr h1 h8 => ?_, fun cause s hpwr hnow hnext h1 h8 => ?_, fun s hs hpwr hroot hheld => ?_,
    fun s hs hroot hstep hpwr hz hn => ?_⟩
  · refine Completes.ofOp rfl (opHvSleepEnter_keyed hpwr hp) ?_
    rw [judgeEnter_hv]
    exact ⟨rfl, rfl, rfl⟩
  · refine Completes.ofOp rfl (opHvSleepEnter_keyed hpwr hp) ?_
    have hcause : causeNow s = cause := by simp [causeNow, hc]
    rw [judgeEnter_hv, if_pos hr, hcause]
    exact ⟨rfl, rfl⟩
  · refine ⟨_, rfl, ?_⟩
    by_cases hp : s.presented = true
    · have hbyte : (key != 0xA5) = true := bne_iff_ne.mpr hkey
      simp only [opHvSleepEnter, hpwr, hp, hbyte, Bool.or_true, if_true, Bool.not_true, Bool.and_false, Bool.false_eq_true,
        if_false]
    · simp [opHvSleepEnter, hpwr, hp]
  · refine ⟨_, rfl, ?_⟩
    unfold opHvSleepEnter
    simp [hpwr]
  · obtain ⟨m, hhv, hnonces, hmode, hjobs, hqueues⟩ := sleepEntry_ends hs hpwr hlive
    refine ⟨_, rfl, ?_⟩
    beta_reduce
    rw [hhv, if_pos hnext]
    exact ⟨rfl, rfl, rfl, rfl, rfl, hnonces, hmode, hjobs, hqueues⟩
  · obtain ⟨m, hhv, hnonces, hmode, hjobs, hqueues⟩ := sleepEntry_ends hs hpwr hlive
    refine ⟨_, rfl, ?_⟩
    beta_reduce
    rw [hhv, if_neg hnext, if_neg hnext]
    exact ⟨rfl, rfl, rfl, rfl, rfl, fun c hc => (hmode c hc).1, hjobs, hqueues⟩
  · exact ⟨_, rfl, wake_asleep hpwr 7⟩
  · refine Completes.ofOp rfl (opSleepWake_cause h1 h8 s) ?_
    rw [wake_aware (.inl hpwr) (by omega), ← hpwr]
  · refine Completes.ofOp rfl (opSleepWake_cause h1 h8 s) ?_
    exact wake_aware (.inr (by simp [entersNow, hpwr, hnow])) (by omega) cause
  · refine ⟨_, step_of_idle hpend, ?_⟩
    rw [idleTick_power hclose hfence hckpt hq.1]
    have hjudged : enterAgain s = judgeEnter s := if_pos (by simp [hpwr, hat])
    rw [hjudged, judgeEnter_hv]
    dsimp only
    split
    · exact ⟨rfl, rfl⟩
    · exact ⟨hpwr, rfl⟩
  · exact Completes.ofOp rfl (opSleepWake_cause h1 h8 s) (wake_asleep hpwr cause)
  · exact Completes.ofOp rfl (opSleepWake_cause h1 h8 s) (wake_entering hpwr hnow hnext cause)
  · have heq : opWakeDone s = runAll (awaken s) := if_pos (by simp [hpwr, hroot])
    obtain ⟨hhv, hmodes⟩ := awaken_awake hs
    refine Completes.ofOp rfl (heq.trans (runAll_none (by rw [hhv]; exact hheld))) ?_
    dsimp only
    rw [hhv]
    exact ⟨rfl, rfl, rfl, rfl, rfl, hmodes⟩
  · exact Completes.ofOp rfl (pllRelock_quiet hroot hstep hpwr hz hn) rfl

end Sys2Proof.Machine
end

section
/-! SUPPORT. The words of a life-cycle transition in the OTP array (R392, R397). -/

namespace Sys2Proof.Machine

open Host

section

variable (o : Otp)

theorem Otp.putWords_append (l m : List (OtpWord × BitVec 32)) : o.putWords (l ++ m) = (o.putWords l).putWords m :=
  List.foldl_append

theorem Otp.setEntry_same {i : Nat} (hi : i < 20) (e : JEntry) : (o.setEntry i e).entry i = e := by
  simp [Otp.entry, Otp.setEntry, hi]

theorem Otp.put_intent {e : Nat} (he : e < 20) (k : Nat) (w : BitVec 32) :
    (o.put (.intent e k) w).lc = o.lc ∧
      (o.put (.intent e k) w).entry e = { o.entry e with intent := (o.entry e).intent.programCopy k w } :=
  ⟨rfl, o.setEntry_same he _⟩

theorem Otp.put_done {e : Nat} (he : e < 20) (k : Nat) (w : BitVec 32) :
    (o.put (.done e k) w).lc = o.lc ∧
      (o.put (.done e k) w).entry e = { o.entry e with done := (o.entry e).done.programCopy k w } :=
  ⟨rfl, o.setEntry_same he _⟩

/-- A word in its three copies. -/
def threeCopies (p : Nat → OtpWord) (w : BitVec 32) : List (OtpWord × BitVec 32) := (List.range 3).map fun k => (p k, w)

theorem Otp.putWords_three (p : Nat → OtpWord) (w : BitVec 32) :
    o.putWords (threeCopies p w) = ((o.put (p 0) w).put (p 1) w).put (p 2) w := rfl

theorem Otp.putWords_intent {e : Nat} (he : e < 20) (w : BitVec 32) :
    (o.putWords (threeCopies (.intent e) w)).lc = o.lc ∧
      (o.putWords (threeCopies (.intent e) w)).entry e =
        { o.entry e with intent := (o.entry e).intent.program w } := by
  refine ⟨rfl, ?_⟩
  rw [Otp.putWords_three, (Otp.put_intent _ he 2 w).2, (Otp.put_intent _ he 1 w).2, (Otp.put_intent _ he 0 w).2]
  rfl

theorem Otp.putWords_done {e : Nat} (he : e < 20) (w : BitVec 32) :
    (o.putWords (threeCopies (.done e) w)).lc = o.lc ∧
      (o.putWords (threeCopies (.done e) w)).entry e = { o.entry e with done := (o.entry e).done.program w } := by
  refine ⟨rfl, ?_⟩
  rw [Otp.putWords_three, (Otp.put_done _ he 2 w).2, (Otp.put_done _ he 1 w).2, (Otp.put_done _ he 0 w).2]
  rfl

theorem Otp.putWords_lc (w : BitVec 32) :
    (o.putWords (threeCopies .lc w)).lc = o.lc.program w ∧
      ∀ e, (o.putWords (threeCopies .lc w)).entry e = o.entry e := ⟨rfl, fun _ => rfl⟩

/-- Words of the owner fields lie outside the life-cycle word and the journal. -/
theorem Otp.putWords_owner {l : List (OtpWord × BitVec 32)} (h : ∀ p ∈ l, ∃ f k i, p.1 = .owner f k i) :
    (o.putWords l).lc = o.lc ∧ ∀ e, (o.putWords l).entry e = o.entry e := by
  induction l generalizing o with
  | nil => exact ⟨rfl, fun _ => rfl⟩
  | cons p l ih =>
    obtain ⟨f, k, i, hp⟩ := h p List.mem_cons_self
    obtain ⟨hlc, hentry⟩ := ih (o := o.put p.1 p.2) fun q hq => h q (List.mem_cons_of_mem _ hq)
    rw [hp] at hlc hentry
    have hcons : o.putWords (p :: l) = (o.put (.owner f k i) p.2).putWords l := by
      rw [← hp]
      rfl
    rw [hcons]
    exact ⟨hlc, hentry⟩

/-- The words of the owner field, where the transition has some. -/
def ownerWords (r : OtpRun) (target : Nat) : List (OtpWord × BitVec 32) :=
  if target = 0x0400 && r.field < 3 then
    (List.range 3).flatMap fun k => (List.range 13).map fun i =>
      (OtpWord.owner r.field k i, BitVec.ofNat 32 (leAt r.owner (4 * i) 4))
  else []

theorem ownerWords_owner (r : OtpRun) (target : Nat) : ∀ p ∈ ownerWords r target, ∃ f k i, p.1 = .owner f k i := by
  intro p hp
  unfold ownerWords at hp
  split at hp
  · obtain ⟨k, -, hp⟩ := List.mem_flatMap.1 hp
    obtain ⟨i, -, rfl⟩ := List.mem_map.1 hp
    exact ⟨_, _, _, rfl⟩
  · exact absurd hp List.not_mem_nil

theorem transWords_eq (r : OtpRun) (target : Nat) : transWords r target =
    (if r.entry < 20 then threeCopies (.intent r.entry) (intentWord target) else []) ++ ownerWords r target ++
      threeCopies .lc (1#32 <<< targetBit target) ++ (if r.entry < 20 then threeCopies (.done r.entry) 1 else []) := by
  unfold transWords
  rfl

/-- The life-cycle word and the journal entry behind all the words of a transition. -/
theorem Otp.putWords_transWords (r : OtpRun) (target : Nat) :
    (o.putWords (transWords r target)).lc = o.lc.program (1#32 <<< targetBit target) ∧
      (r.entry < 20 → (o.putWords (transWords r target)).entry r.entry =
        { intent := (o.entry r.entry).intent.program (intentWord target)
          done := (o.entry r.entry).done.program 1 }) := by
  rw [transWords_eq]
  simp only [Otp.putWords_append]
  by_cases he : r.entry < 20
  · simp only [if_pos he]
    obtain ⟨hlc1, hentry1⟩ := o.putWords_intent he (intentWord target)
    generalize o.putWords (threeCopies (.intent r.entry) (intentWord target)) = o1 at *
    obtain ⟨hlc2, hentry2⟩ := o1.putWords_owner (ownerWords_owner r target)
    generalize o1.putWords (ownerWords r target) = o2 at *
    obtain ⟨hlc3, hentry3⟩ := o2.putWords_lc (1#32 <<< targetBit target)
    generalize o2.putWords (threeCopies .lc (1#32 <<< targetBit target)) = o3 at *
    obtain ⟨hlc4, hentry4⟩ := o3.putWords_done he 1
    refine ⟨by rw [hlc4, hlc3, hlc2, hlc1], fun _ => ?_⟩
    rw [hentry4, hentry3, hentry2, hentry1]
  · simp only [if_neg he]
    refine ⟨?_, fun h => absurd h he⟩
    obtain ⟨hlc2, -⟩ := o.putWords_owner (ownerWords_owner r target)
    exact congrArg (·.program (1#32 <<< targetBit target)) hlc2

end

theorem Otp3.program_voted (o : Otp3) {n : Nat} (hn : n < 32) : (o.program (1#32 <<< n)).voted.getLsbD n = true := by
  simp only [Otp3.voted, Otp3.program, vote, BitVec.getLsbD_or, BitVec.getLsbD_and, shiftLeft_one_getLsbD hn, Bool.or_true,
    Bool.and_self]

end Sys2Proof.Machine
end

section
/-! SUPPORT. Life-cycle transitions (R394 to R399): the theorem that settles O51. -/

namespace Sys2Proof.Machine

open Host

section

variable {s : State} {target confirm : Nat}

/-! ## The journal -/

/-- The programming that begins. -/
def begunRun (s : State) : OtpRun :=
  { entry := s.otp.nextEntry
    field := ((List.range 3).find? fun i => !ownerUsed ((s.otp.owner[i]?).getD ([], [], []))).getD 3
    owner := fit ((List.range 12).flatMap fun i => bvLe 4 (tblGet 0 s.lc.ownerHash i)) 48 ++
      bvLe 4 (crc32c (fit ((List.range 12).flatMap fun i => bvLe 4 (tblGet 0 s.lc.ownerHash i)) 48))
    since := s.aon.cycles }

theorem startJournal_begun {t : Nat} (hb : s.lc.busy = some t) (hr : s.lc.run = none) :
    startJournal s = { s with lc.run := some (begunRun s) } := if_neg (by simp [hb, hr])

theorem ownerUsed_blank : ownerUsed ([], [], []) = false := by decide

/-- Where fewer than three owner fields are used, one of the three is not. -/
theorem Otp.unusedField {o : Otp} (h : o.owners.length < 3) :
    ∃ i ∈ List.range 3, (!ownerUsed ((o.owner[i]?).getD ([], [], []))) = true := by
  by_contra hall
  have hused : ∀ i, i < 3 → ownerUsed ((o.owner[i]?).getD ([], [], [])) = true := fun i hi => by
    by_contra hno
    exact hall ⟨i, List.mem_range.2 hi, by simpa using hno⟩
  have hlen : ∀ i, i < 3 → i < o.owner.length := fun i hi => by
    by_contra hge
    have := hused i hi
    rw [List.getElem?_eq_none (Nat.not_lt.1 hge), Option.getD_none, ownerUsed_blank] at this
    exact absurd this (by decide)
  have hthree : (o.owner.take 3).length = 3 := by
    have := hlen 2 (by decide)
    rw [List.length_take]
    omega
  have hfilter : (o.owner.take 3).filter ownerUsed = o.owner.take 3 := by
    refine List.filter_eq_self.2 fun f hf => ?_
    obtain ⟨i, hi, rfl⟩ := List.mem_iff_getElem.1 hf
    have := hused i (hthree ▸ hi)
    rwa [List.getElem?_eq_getElem (hlen i (hthree ▸ hi)), Option.getD_some, ← List.getElem_take] at this
  rw [Otp.owners, hfilter, List.length_map, hthree] at h
  exact absurd h (by decide)

theorem begunRun_field (h : s.otp.owners.length < 3) : (begunRun s).field < 3 ∧
    ownerUsed ((s.otp.owner[(begunRun s).field]?).getD ([], [], [])) = false := by
  obtain ⟨i, hmem, hi⟩ := Otp.unusedField h
  obtain ⟨k, hk⟩ := Option.isSome_iff_exists.1 
    (List.find?_isSome (p := fun i => !ownerUsed ((s.otp.owner[i]?).getD ([], [], []))).2 ⟨i, hmem, hi⟩)
  have hfield : (begunRun s).field = k := congrArg (·.getD 3) hk
  rw [hfield]
  exact ⟨List.mem_range.1 (List.mem_of_find?_eq_some hk), by simpa using List.find?_some hk⟩

/-! ## A request -/

theorem lcRequest_acts (hp : s.presented = true) (hb : s.lc.busy = none) (hi : lcIssue s target confirm = 0) :
    lcRequest s target confirm = lcStart (tokenCheck s target 0) target := by
  unfold lcRequest
  rw [if_neg (by simp [hp, hb])]
  dsimp only
  rw [hi, if_pos rfl]

theorem lcRequest_fails (hp : s.presented = true) (hb : s.lc.busy = none) (hi : lcIssue s target confirm ≠ 0) :
    lcRequest s target confirm =
      lcEnd (tokenCheck s target (lcIssue s target confirm)) (lcIssue s target confirm) := by
  unfold lcRequest
  rw [if_neg (by simp [hp, hb])]
  exact if_neg hi

theorem tokenCheck_lc (s : State) (t r : Nat) : ∃ tok f, tokenCheck s t r = { s with lc.token := tok, lc.tokenFails := f } ∧
    (isUnlocked t = true → r = 0 ∨ r = 3 → tok = 0) ∧ (r ≠ 3 → f = s.lc.tokenFails) ∧
    (isUnlocked t = true → r = 3 → f = satAdd 3 s.lc.tokenFails 1) := by
  unfold tokenCheck
  split
  next => exact ⟨_, _, rfl, fun _ _ => rfl, fun h => if_neg h, fun _ h => if_pos h⟩
  next h =>
    refine ⟨_, _, rfl, fun hu hr => absurd ?_ h, fun _ => rfl, fun hu hr => absurd ?_ h⟩
    · simp [hu, hr.symm]
    · simp [hu, hr]

theorem lcIssue_owners {c : Nat} (h : lcIssue s 0x0400 c = 0) : s.otp.owners.length < 3 := by
  by_contra hge
  have h7 : (3 : Nat) ≤ s.otp.owners.length := Nat.not_lt.1 hge
  unfold lcIssue at h
  split_ifs at h with _ _ _ _ _ _ _ hfull
  exact hfull (by simp [h7])

/-- RESULT 3 is a token that does not match (R396). -/
theorem lcIssue_token {t c : Nat} (h : lcIssue s t c = 3) : isUnlocked t = true := by
  by_contra hno
  rw [Bool.not_eq_true] at hno
  simp only [lcIssue, hno, Bool.false_and, Bool.false_eq_true, if_false] at h
  split_ifs at h <;> exact absurd h (by decide)

/-- A transition that needs no zeroisation begins its journal. -/
theorem lcStart_journal (h5 : target ≠ 0x0500) (h6 : target ≠ 0x0600) (s : State) :
    lcStart s target = { s with lc.busy := some target, lc.run := some (begunRun s) } := by
  unfold lcStart
  dsimp only
  rw [if_neg (by simp [h5, h6])]
  exact startJournal_begun rfl rfl

/-- A Hive that an access has woken. -/
def woken (s : State) (p w k : Nat) (a : Option (Nat × Nat)) : State :=
  { s with hv := { s.hv with pwr := p, wakeCause := w, wakeNext := k, causeAt := a } }

theorem lcIssue_woken {s : State} (p w k : Nat) (a : Option (Nat × Nat)) (t c : Nat) :
    lcIssue (woken s p w k a) t c = lcIssue s t c := rfl

/-- A request reaches the Hive it has woken. -/
theorem completes_lcRequest {c i : Instr} {n : Nat} {P : State → Prop}
    (he : exec c s = .next (whenClocked i s fun s => lcRequest (wake s 1) target n)) (hf : LcFree s)
    (h : ∀ p w k a, P (lcRequest (woken s p w k a) target n)) : Completes c s P := by
  obtain ⟨hs, -, -⟩ := hf
  obtain ⟨p, w, k, a, hw⟩ := wake_eq s 1
  refine Completes.ofClocked he hs ?_
  rw [hw]
  exact h p w k a

end

/-- A transition that needs no zeroisation begins to program its words. -/
theorem lcStarts {c : BitVec 16 → Instr} {target : Nat} (h5 : target ≠ 0x0500) (h6 : target ≠ 0x0600)
    (he : ∀ v s, ∃ i, exec (c v) s = .next (whenClocked i s fun s => lcRequest (wake s 1) target v.toNat)) :
    LcStarts c target := by
  intro v s hf hi
  obtain ⟨i, hexec⟩ := he v s
  refine completes_lcRequest hexec hf fun p w k a => ?_
  obtain ⟨-, hp, hb⟩ := hf
  rw [lcRequest_acts (s := woken s p w k a) hp hb hi, lcStart_journal h5 h6]
  obtain ⟨tok, f, heq, htok, hfails, -⟩ := tokenCheck_lc (woken s p w k a) target 0
  rw [heq]
  exact ⟨rfl, ⟨_, rfl, rfl, rfl, rfl, rfl⟩, rfl, fun hu => htok hu (.inl rfl), hfails (by decide), rfl, rfl, rfl⟩

/-- The transition to PROVISIONED programs the owner field besides. -/
theorem lcProvisions (confirm : BitVec 16) {s : State} (hf : LcFree s) (hi : lcIssue s 0x0400 confirm.toNat = 0) :
    Completes (.lcToProvisioned confirm) s fun t =>
      t.lc.busy = some 0x0400 ∧ LcBegun s t ∧ t.lc.word = s.lc.word ∧
      (∃ (r : OtpRun) (hash : Bytes), t.lc.run = some r ∧
        hash = fit ((List.range 12).flatMap fun i => bvLe 4 (tblGet 0 s.lc.ownerHash i)) 48 ∧ r.field < 3 ∧
        ownerUsed ((s.otp.owner[r.field]?).getD ([], [], [])) = false ∧ r.owner = hash ++ bvLe 4 (crc32c hash)) ∧
      t.queues = s.queues ∧ t.jobs = s.jobs := by
  refine completes_lcRequest rfl hf fun p w k a => ?_
  obtain ⟨-, hp, hb⟩ := hf
  rw [lcRequest_acts (s := woken s p w k a) hp hb hi, lcStart_journal (by decide) (by decide)]
  obtain ⟨tok, f, heq, -⟩ := tokenCheck_lc (woken s p w k a) 0x0400 0
  rw [heq]
  obtain ⟨hfield, hunused⟩ := begunRun_field (lcIssue_owners hi)
  exact ⟨rfl, ⟨_, rfl, rfl, rfl, rfl, rfl⟩, rfl, ⟨begunRun s, _, rfl, rfl, hfield, hunused, rfl⟩, rfl, rfl⟩

/-! ## RMA and SCRAP -/

theorem endKeyed_lifecycle_ks (s : State) : ∃ q, (endKeyed s .lifecycle).ks = { s.ks with ppQueues := q } := by
  have heq : endKeyed s .lifecycle =
    s.each (s.jobsWith (endedBy s .lifecycle)) fun s id => forceEnd s id stOrphaned 0x06 := rfl
  rw [heq]
  refine State.each_induction (P := fun x => ∃ q, x.ks = { s.ks with ppQueues := q }) (fun x id _ hx => ?_) ⟨_, rfl⟩
  obtain ⟨q, hq⟩ := hx
  obtain ⟨q', hq'⟩ := forceEnd_ks x id stOrphaned 0x06
  exact ⟨q', by rw [hq', hq]⟩

theorem zeroNow_lifecycle_ks (s : State) : ∃ q, (zeroNow s .lifecycle).ks =
    { s.ks with hrk := none, psk := none, devSeed := none, ppDrbg := none, zPend := false, ppQueues := q } := by
  unfold zeroNow
  dsimp only
  obtain ⟨q, hq⟩ := endKeyed_lifecycle_ks (retireAll { s with
    ks := { s.ks with hrk := none, psk := none, devSeed := none, ppDrbg := none, zPend := false } })
  refine ⟨q, ?_⟩
  rw [if_neg (by decide), hq, (retireAll_foot _).ks_eq rfl]

/-- What steps 1 to 4 of a zeroisation move. -/
def zeroiseFoot : Foot :=
  { ev := true, dma := true, ks := true, fns := true, tenants := true, ctxs := true, slots := true, combs := true
    jobs := true, freeN := true }

/-- A zeroisation for a transition, while the key store's clock runs. -/
theorem zeroise_lifecycle {s : State} (hk : s.hv.kclk = true) (erase : Bool) :
    Keeps zeroiseFoot s (zeroise s .lifecycle erase) ∧ (zeroise s .lifecycle erase).ks.zeroising ≠ none ∧
      (zeroise s .lifecycle erase).ks.hrk = none ∧ (zeroise s .lifecycle erase).ks.psk = none ∧
      (zeroise s .lifecycle erase).ks.devSeed = none ∧
      (zeroise s .lifecycle erase).ks.zErase = (s.ks.zErase || erase) := by
  have heq : zeroise s .lifecycle erase = zeroNow (zeroMark s .lifecycle erase) .lifecycle := if_pos hk
  obtain ⟨q, hq⟩ := zeroNow_lifecycle_ks (zeroMark s .lifecycle erase)
  refine ⟨heq ▸ (zeroNow_keeps _ _ rfl rfl rfl rfl rfl rfl rfl rfl rfl rfl
    (zeroMark_keeps _ _ _ rfl rfl (Keeps.refl _ s))), ?_⟩
  rw [heq, hq]
  exact ⟨Option.some_ne_none _, rfl, rfl, rfl, rfl⟩

/-- A transition to RMA or SCRAP zeroises first. -/
theorem lcZeroises {c : BitVec 16 → Instr} {target : Nat} (ht : target = 0x0500 ∨ target = 0x0600)
    (he : ∀ v s, ∃ i, exec (c v) s = .next (whenClocked i s fun s => lcRequest (wake s 1) target v.toNat)) :
    LcZeroises c target := by
  intro v s hf hi
  obtain ⟨i, hexec⟩ := he v s
  refine completes_lcRequest hexec hf fun p w k a => ?_
  obtain ⟨hs, hp, hb⟩ := hf
  rw [lcRequest_acts (s := woken s p w k a) hp hb hi]
  obtain ⟨tok, f, heq, -⟩ := tokenCheck_lc (woken s p w k a) target 0
  have hstart : ∀ x : State, lcStart x target =
      zeroise { x with lc := { x.lc with busy := some target, run := none } } .lifecycle (target == 0x0600) :=
    fun x => if_pos (by simpa using ht)
  rw [heq, hstart]
  obtain ⟨hfoot, hks⟩ := zeroise_lifecycle (s := { woken s p w k a with
    lc := { s.lc with token := tok, tokenFails := f, busy := some target, run := none } }) hs.kclk (target == 0x0600)
  obtain ⟨hz, hhrk, hpsk, hseed, herase⟩ := hks
  have hlc := hfoot.lc_eq rfl
  exact ⟨(congrArg Lc.busy hlc :), (congrArg Lc.run hlc :), hfoot.otp_eq rfl, (congrArg Lc.word hlc :), hz, hhrk, hpsk, hseed, herase,
    hfoot.queues_eq rfl⟩

/-! ## A request that fails -/

theorem lcEnd_spec (s : State) (r : Nat) : (lcEnd s r).lc = { s.lc with busy := none, result := r } ∧
    (lcEnd s r).otp = s.otp ∧ (lcEnd s r).ev.pend.getLsbD 259 = true :=
  have h : Keeps _ { s with lc := { s.lc with busy := none, result := r } } (lcEnd s r) := raiseHive_signals _ _ _
  ⟨h.lc_eq rfl, h.otp_eq rfl, raise_pend_same _ (by decide) _⟩

theorem lcRefused (target confirm : BitVec 16) {s : State} (hf : LcFree s)
    (hi : lcIssue s target.toNat confirm.toNat ≠ 0) :
    Completes (.lcTransitionRefused target confirm) s fun t =>
      t.lc.result = lcIssue s target.toNat confirm.toNat ∧ t.lc.busy = none ∧ t.otp = s.otp ∧
      t.lc.word = s.lc.word ∧ t.ev.pend.getLsbD 259 = true ∧
      (lcIssue s target.toNat confirm.toNat = 3 →
        t.lc.token = 0 ∧ t.lc.tokenFails = satAdd 3 s.lc.tokenFails 1) := by
  obtain ⟨hs, hp, hb⟩ := hf
  obtain ⟨p, w, k, a, hwake⟩ := wake_eq s 1
  have hw : wake s 1 = woken s p w k a := hwake
  refine Completes.ofClocked rfl hs ?_
  rw [hw]
  have hfails : opLcTransitionRefused target.toNat confirm.toNat (woken s p w k a) =
      lcRequest (woken s p w k a) target.toNat confirm.toNat := if_pos (bne_iff_ne.mpr hi)
  obtain ⟨tok, f, heq, htok, -, hcount⟩ := tokenCheck_lc (woken s p w k a) target.toNat
    (lcIssue s target.toNat confirm.toNat)
  have hends := hfails.trans (lcRequest_fails (s := woken s p w k a) hp hb hi)
  rw [lcIssue_woken, heq] at hends
  obtain ⟨hlc, hotp, hpend⟩ := lcEnd_spec { woken s p w k a with lc := { s.lc with token := tok, tokenFails := f } }
    (lcIssue s target.toNat confirm.toNat)
  rw [hends]
  refine ⟨(congrArg Lc.result hlc :), (congrArg Lc.busy hlc :), hotp, (congrArg Lc.word hlc :), hpend, fun h3 => ?_⟩
  have hu := lcIssue_token h3
  exact ⟨(congrArg Lc.token hlc :).trans (htok hu (.inr h3)), (congrArg Lc.tokenFails hlc :).trans (hcount hu h3)⟩

/-! ## The end of the zeroisation, and the words -/

theorem stick_cycles (s : State) (b : Nat) : (stick s b).aon.cycles = s.aon.cycles := rfl

/-- The journal begins behind the zeroisation of a transition. -/
theorem poolCleared_begun {s : State} {target : Nat} (hb : s.lc.busy = some target) (hr : s.lc.run = none) :
    (poolCleared s).ks.zeroising = none ∧ (poolCleared s).lc.busy = some target ∧ LcBegun s (poolCleared s) := by
  have hsticky := (sticky_signals { erasedPool s with
    ks := { (erasedPool s).ks with zeroising := none, zErase := false, restoreDue := [] } } 89 0)
  have haon := sticky_aon { erasedPool s with
    ks := { (erasedPool s).ks with zeroising := none, zErase := false, restoreDue := [] } } 89 0
  have hpool := erasedPool_keeps s
  have hks : (poolCleared s).ks.zeroising = none := by rw [poolCleared_ks]
  rw [poolCleared] at hks ⊢
  generalize sticky _ 89 0 = x at *
  have hlc : x.lc = s.lc := (hsticky.lc_eq rfl).trans (hpool.lc_eq rfl)
  have hotp : x.otp = s.otp := (hsticky.otp_eq rfl).trans (hpool.otp_eq rfl)
  have hcycles : x.aon.cycles = s.aon.cycles := by
    rw [haon, stick_cycles]
    exact congrArg Aon.cycles (hpool.aon_eq rfl)
  have heq := startJournal_begun (s := x) (hlc ▸ hb) (hlc ▸ hr)
  rw [heq] at hks ⊢
  exact ⟨hks, hlc ▸ hb, begunRun x, rfl, congrArg Otp.nextEntry hotp, rfl, hcycles, hotp⟩

/-- An edge on which only the programming of a word may be due. -/
theorem otpEdge_step {s : State} {r : OtpRun} (he : OtpEdge s r) : ∃ t, step s = .next t ∧
    ∃ h : Hv, ∃ n, s.aon.cycles ≤ n ∧ n ≤ s.aon.cycles + 1 ∧
      t.otp = (otpTick { s with hv := h, aon.cycles := n }).otp ∧ t.lc = (otpTick { s with hv := h, aon.cycles := n }).lc := by
  obtain ⟨hpend, hclose, hfence, hckpt, hbare, -⟩ := he
  refine ⟨_, step_of_idle hpend, ?_⟩
  rw [idleTick_bare hclose hfence hckpt hbare]
  have hedge := onClock_fclkTick_keeps s.hv.fclk (otpTick (countTick (enterAgain s)))
  rw [hedge.otp_eq rfl, hedge.lc_eq rfl]
  obtain ⟨h, heq, -⟩ := enterAgain_hv s
  rw [heq]
  unfold countTick
  dsimp only
  refine ⟨_, _, ?_, ?_, rfl, rfl⟩
  all_goals split <;> omega

theorem otpTick_due {s : State} {r : OtpRun} {w : OtpWord} {v : W32} {l : List (OtpWord × W32)}
    (hl : otpLeft s = (w, v) :: l) (hr : s.lc.run = some r) (hdue : r.since + 5000 * (r.words + 1) ≤ s.aon.cycles) :
    otpTick s = { s with otp := s.otp.put w v, lc.run := some { r with words := r.words + 1 } } := by
  unfold otpTick
  rw [hl, hr]
  exact if_pos hdue

theorem otpTick_early {s : State} {r : OtpRun} (hr : s.lc.run = some r)
    (hearly : s.aon.cycles < r.since + 5000 * (r.words + 1)) : otpTick s = s := by
  unfold otpTick
  split
  next p l r' _ hrun =>
    obtain rfl := Option.some.inj (hr.symm.trans hrun)
    exact if_neg (Nat.not_le.mpr hearly)
  next => rfl

/-! ## The end of a transition -/

/-- A warm reset that cuts no word short. -/
theorem restart_warm {s : State} (h : otpLeft s = []) :
    (restart s true).otp = s.otp ∧ (restart s true).hv.step = (if s.hv.rstHeld = true then 0 else 1) ∧
      (restart s true).hv.warm = true ∧ (restart s true).queues = [] ∧ (restart s true).jobs = [] ∧
      (restart s true).store.mram = s.store.mram ∧ (restart s true).aon.sticky = s.aon.sticky := by
  have hcut : cutOtp s = s := by unfold cutOtp; rw [h]
  unfold restart
  rw [hcut]
  exact ⟨rfl, rfl, rfl, rfl, rfl, rfl, rfl⟩

theorem lcTransition_ends {s : State} {target : Nat} {r : OtpRun} (hb : s.lc.busy = some target)
    (hr : s.lc.run = some r) :
    opLcTransitionOtpDone s = restart (lcEnd { s with otp := s.otp.putWords (otpLeft s) } 0) true := by
  unfold opLcTransitionOtpDone
  rw [hb]
  dsimp only
  rw [hr]
  exact if_neg (by simp)

/-- Settles O51: requests that start, zeroise and fail, the words as their times pass, and the restart behind them. -/
theorem lifeCycleTransitions : Obligations.LifeCycleTransitions := by
  have hmod : ∀ k, k < 8 → k % 256 = k := fun k hk => Nat.mod_eq_of_lt (by omega)
  refine ⟨fun k hk => lcStarts (by omega) (by omega) fun v s => ⟨.lcToTestUnlocked k v, congrArg (fun n =>
      (Outcome.next (whenClocked (.lcToTestUnlocked k v) s fun s => lcRequest (wake s 1) (0x0100 + n) v.toNat) : Outcome State Fault Refusal)) (hmod k hk)⟩,
    fun k hk => lcStarts (by omega) (by omega) fun v s => ⟨.lcToTestLocked k v, congrArg (fun n =>
      (Outcome.next (whenClocked (.lcToTestLocked k v) s fun s => lcRequest (wake s 1) (0x0200 + n) v.toNat) : Outcome State Fault Refusal)) (hmod k hk)⟩,
    lcStarts (by decide) (by decide) fun _ _ => ⟨_, rfl⟩, fun v s hf hi => lcProvisions v hf hi,
    lcZeroises (.inl rfl) fun _ _ => ⟨_, rfl⟩, lcZeroises (.inr rfl) fun _ _ => ⟨_, rfl⟩,
    fun target v s hf hi => lcRefused target v hf hi, fun target s _ hz hk hp hb hr => ?_,
    fun w v l r s he hl hdue => ?_, fun r s he hearly => ?_, fun target r s hs hb hr hbit => ?_⟩
  · refine Completes.ofClock rfl hk ?_
    rw [opZeroisationStep5Done_lifecycle hz hk hp]
    exact poolCleared_begun hb hr
  · obtain ⟨t, ht, h, n, hlo, -, hotp, hlc⟩ := otpEdge_step he
    obtain ⟨-, -, -, -, -, hrun⟩ := he
    rw [otpTick_due (s := { s with hv := h, aon.cycles := n }) hl hrun (hdue.trans hlo)] at hotp hlc
    exact ⟨t, ht, hotp, hlc⟩
  · obtain ⟨t, ht, h, n, -, hhi, hotp, hlc⟩ := otpEdge_step he
    obtain ⟨-, -, -, -, -, hrun⟩ := he
    rw [otpTick_early (s := { s with hv := h, aon.cycles := n }) hrun (Nat.lt_of_le_of_lt hhi hearly)] at hotp hlc
    exact ⟨t, ht, hotp, hlc⟩
  · refine Completes.ofOp rfl (lcTransition_ends hb hr) ?_
    have hfoot : Keeps { ev := true, lc := true, fns := true, tenants := true, otp := true } s
      (lcEnd { s with otp := s.otp.putWords (otpLeft s) } 0) :=
      lcEnd_keeps _ _ rfl rfl rfl rfl (Keeps.set_otp rfl (Keeps.refl _ s))
    obtain ⟨hlc, hotp, -⟩ := lcEnd_spec { s with otp := s.otp.putWords (otpLeft s) } 0
    generalize lcEnd { s with otp := s.otp.putWords (otpLeft s) } 0 = u at *
    have hleft : otpLeft u = [] := by unfold otpLeft; rw [hlc]
    obtain ⟨hkept, hstep, hwarm, hqueues, hjobs, hmram, hsticky⟩ := restart_warm hleft
    rw [hkept, hotp, hstep, hmram, hsticky, hfoot.hv_eq rfl, hfoot.store_eq rfl, hfoot.aon_eq rfl]
    refine ⟨rfl, fun h0 => ?_, rfl, hwarm, hqueues, hjobs, rfl, rfl⟩
    have hall : otpLeft s = transWords r target := by
      unfold otpLeft
      rw [hb, hr]
      exact congrArg (fun n => (transWords r target).drop n) h0
    obtain ⟨hword, hentry⟩ := s.otp.putWords_transWords r target
    rw [← hall] at hword hentry
    exact ⟨hword, by rw [hword]; exact Otp3.program_voted _ hbit,
      fun he => ⟨congrArg JEntry.intent (hentry he), congrArg JEntry.done (hentry he)⟩⟩

end Sys2Proof.Machine
end

section
/-! SUPPORT. What the keeper takes up leaves the configuration flash, and an update that has ended, as they are. -/

namespace Sys2Proof.Machine

open Host

/-- What the keeper's work moves besides the persistent store and the sticky record. -/
def workFoot : Foot :=
  { ev := true, dma := true, doe := true, peer := true, wg := true, adm := true, ks := true, sch := true, fns := true
    tenants := true, queues := true, rings := true, ctxs := true, slots := true, combs := true, jobs := true, out := true
    freeN := true }

/-- Of the persistent store, records and their counts alone have moved. -/
def StoreKept (s t : State) : Prop := ∃ m w e, t.store = { s.store with mram := m, wear := w, errKey := e }

section

variable {s u t : State}

theorem StoreKept.refl (s : State) : StoreKept s s := ⟨_, _, _, rfl⟩

theorem StoreKept.trans (h : StoreKept s u) (g : StoreKept u t) : StoreKept s t := by
  obtain ⟨m, w, e, h⟩ := h
  obtain ⟨m', w', e', g⟩ := g
  exact ⟨m', w', e', by rw [g, h]⟩

theorem StoreKept.keeps {F : Foot} (h : StoreKept s u) (hk : Keeps F u t) (hF : F.store = false) : StoreKept s t := by
  obtain ⟨m, w, e, h⟩ := h
  exact ⟨m, w, e, by rw [hk.store_eq hF, h]⟩

theorem writeRec_storeKept (s : State) (id : Nat) (b : Bytes) : StoreKept s (writeRec s id b) := by
  unfold writeRec
  split
  · exact .refl s
  · exact ⟨_, _, _, rfl⟩

theorem eraseRec_storeKept (s : State) (id : Nat) : StoreKept s (eraseRec s id) := by
  unfold eraseRec wipeRec
  split
  · exact ⟨_, _, _, rfl⟩
  · exact .refl s

theorem discardRec_storeKept (s : State) (id : Nat) : StoreKept s (discardRec s id) := by
  obtain ⟨m, w, e, h⟩ := eraseRec_storeKept s id
  unfold discardRec
  refine StoreKept.keeps (u := { eraseRec s id with store.errKey := satAdd 65535 (eraseRec s id).store.errKey 1 })
    ⟨m, w, satAdd 65535 (eraseRec s id).store.errKey 1, ?_⟩ (sticky_signals _ _ _) rfl
  dsimp only
  rw [h]

theorem restoreRec_storeKept (s : State) (c id : Nat) : StoreKept s (restoreRec s c id) := by
  have hmade : ∀ l kt pol par pr og ex p f m, Keeps { slots := true } s
      (State.modSlot (commitRun (reserveRun s c l kt pol par pr og ex) l m).2 p f) := fun l kt pol par pr og ex p f m =>
    modSlot_keeps _ _ _ rfl (commitRun_keeps _ _ _ rfl (reserveRun_keeps _ _ _ _ _ _ _ _ _ rfl (Keeps.refl _ s)))
  unfold restoreRec
  dsimp only
  split
  next => exact discardRec_storeKept s id
  next =>
    split
    next => exact discardRec_storeKept s id
    next =>
      split
      · exact discardRec_storeKept s id
      · exact (StoreKept.refl s).keeps (hmade _ _ _ _ _ _ _ _ _ _) rfl

theorem restoreRecs_storeKept (s : State) (c : Nat) : StoreKept s (restoreRecs s c) := by
  unfold restoreRecs
  split
  · exact .refl s
  · refine State.each_induction (P := StoreKept s) (fun x id _ hx => ?_) (.refl s)
    dsimp only
    split
    · exact hx.trans (restoreRec_storeKept x c id)
    split
    · exact hx.trans (eraseRec_storeKept x id)
    · exact hx

theorem orphanTenant_storeKept (s : State) (c : Nat) : StoreKept s (orphanTenant s c) := by
  have hrest : ∀ x, Keeps { tenants := true, rings := true, ctxs := true, combs := true } x
      (dropReceipts { clearMail (closeCtxs x c) c with
        rings := tblDrop (fun k _ => k / 512 == c) (clearMail (closeCtxs x c) c).rings } c) := fun x =>
    dropReceipts_keeps _ _ rfl (Keeps.set_rings rfl (clearMail_keeps _ _ rfl (closeCtxs_keeps _ _ rfl rfl (Keeps.refl _ x)))
      fun hw => tblWf_drop _ _ _ hw)
  have hwritten : ∀ p id b, StoreKept s (writeRec (bumpGen s p) id b) := fun p id b =>
    ((StoreKept.refl s).keeps (bumpGen_keeps (F := { slots := true }) s p rfl (Keeps.refl _ s)) rfl).trans
      (writeRec_storeKept _ _ _)
  unfold orphanTenant
  exact ((hwritten _ _ _).keeps (modTenant_keeps (F := { tenants := true }) _ _ _ rfl (Keeps.refl _ _)) rfl).keeps
    (hrest _) rfl

theorem orphanIfQuiet_storeKept (s : State) (c : Nat) : StoreKept s (orphanIfQuiet s c) := by
  have hblocked : StoreKept s (if (s.tenant c).state = 3 && !(s.tenant c).orphaned then dropBlocked s c else s) := by
    split
    · exact (StoreKept.refl s).keeps (dropBlocked_keeps (F := workFoot) s c rfl rfl rfl rfl rfl rfl rfl rfl rfl rfl rfl rfl
        (Keeps.refl _ s)) rfl
    · exact .refl s
  unfold orphanIfQuiet
  dsimp only
  generalize (if (s.tenant c).state = 3 && !(s.tenant c).orphaned then dropBlocked s c else s) = v at hblocked
  split
  · exact hblocked.trans (orphanTenant_storeKept v c)
  · exact hblocked

theorem destroyTenant_storeKept (s : State) (a : AdmCfg) : StoreKept s (destroyTenant s a) := by
  have hpeer : Keeps workFoot s (if isFn a.client then stepTenant s a.client 3 else
      peerEnd (peerDiscard (stepTenant s a.client 3) (a.client - 4096)) (a.client - 4096)) := by
    have hstep : Keeps workFoot s (stepTenant s a.client 3) := stepTenant_keeps _ _ _ rfl rfl (Keeps.refl _ s)
    split
    · exact hstep
    · exact peerEnd_keeps _ _ rfl rfl rfl (peerDiscard_keeps _ _ rfl rfl rfl rfl rfl rfl rfl rfl rfl rfl rfl rfl rfl hstep)
  unfold destroyTenant
  dsimp only
  refine StoreKept.trans ((StoreKept.refl s).keeps (Keeps.each _ _ (fun x q hx => ?_) hpeer) rfl)
    (orphanIfQuiet_storeKept _ _)
  exact .ite (releaseQueue_keeps _ _ _ _ rfl rfl rfl rfl rfl hx) (hiveReset_keeps _ _ _ rfl rfl rfl hx)

/-- The nodes and the records of a client that is created, where the key store is open. -/
def clientKeys (s : State) (c : Nat) : State :=
  if s.aon.tampered then s
  else if laneShut s then { s with ks.restoreDue := s.ks.restoreDue.filter (· != c) ++ [c] }
  else restoreRecs (deriveNodes s c) c

/-- CREATE makes the tenant, then its keys, then steps the client to ACTIVE. -/
theorem createTenant_split (s : State) (a : AdmCfg) : ∃ x, Keeps workFoot s x ∧
    createTenant s a = stepTenant (clientKeys x a.client) a.client 1 := by
  have hset : ∀ f w q, Keeps workFoot s { s.modTenant a.client f with
      sch.weight := w, peer.seq := tblDrop q s.peer.seq } := fun f w q =>
    Keeps.set_peer_sch rfl rfl (modTenant_keeps _ _ _ rfl (Keeps.refl _ s)) fun hw => hw
  have hset' : ∀ f w, Keeps workFoot s { s.modTenant a.client f with sch.weight := w } := fun f w =>
    Keeps.set_sch rfl (modTenant_keeps _ _ _ rfl (Keeps.refl _ s))
  refine ⟨_, ?_, rfl⟩
  refine addGranules_keeps _ _ _ rfl rfl (addQueues_keeps _ _ _ _ rfl rfl rfl ?_)
  split
  · exact hset' _ _
  · exact hset _ _ _

theorem clientKeys_storeKept (s : State) (c : Nat) : StoreKept s (clientKeys s c) := by
  unfold clientKeys
  split_ifs
  · exact .refl s
  · exact .refl s
  · exact ((StoreKept.refl s).keeps (deriveNodes_keeps (F := { slots := true }) _ _ rfl (Keeps.refl _ s)) rfl).trans
      (restoreRecs_storeKept _ _)

theorem createTenant_storeKept (s : State) (a : AdmCfg) : StoreKept s (createTenant s a) := by
  obtain ⟨x, hx, heq⟩ := createTenant_split s a
  rw [heq]
  exact (((StoreKept.refl s).keeps hx rfl).trans (clientKeys_storeKept x a.client)).keeps
    (stepTenant_keeps (F := { peer := true, tenants := true }) _ _ _ rfl rfl (Keeps.refl _ _)) rfl

theorem admTake_storeKept (s : State) : StoreKept s (admTake s) := by
  have hend : ∀ x r a, StoreKept s x → StoreKept s (admEnd x a r) := fun x r a hx =>
    hx.keeps (admEnd_keeps (F := workFoot) x a r rfl rfl rfl rfl (Keeps.refl _ x)) rfl
  unfold admTake
  split
  next => exact .refl s
  next a _ =>
    dsimp only
    split_ifs
    · exact .refl s
    · exact hend _ _ _ (.refl s)
    · exact .refl s
    · refine hend _ _ _ ?_
      split
      · exact createTenant_storeKept s a
      · exact (StoreKept.refl s).keeps (resizeTenant_keeps (F := resizeFoot) s a rfl rfl rfl rfl rfl rfl rfl
          (Keeps.refl _ s)) rfl
      · exact destroyTenant_storeKept s a

/-- Without an update that waits, the keeper's return leaves the flash as it is. -/
theorem keeperBack_storeKept (h : s.store.updBusy = false) : StoreKept s (keeperBack s) := by
  have hwork : StoreKept s (doeResume (admTake s)) :=
    (admTake_storeKept s).keeps (doeResume_keeps (F := { doe := true, out := true, freeN := true }) _ rfl rfl rfl
      (Keeps.refl _ _)) rfl
  have hidle : (doeResume (admTake s)).store.updBusy = false := by
    obtain ⟨m, w, e, heq⟩ := hwork
    rw [heq]
    exact h
  unfold keeperBack
  rw [updTake, if_pos (by simp [hidle])]
  exact hwork

/-! ## The sticky record -/

theorem clientKeys_stickyKept (s : State) (c : Nat) : StickyKept s (clientKeys s c) := by
  unfold clientKeys
  split_ifs
  · exact .refl s
  · exact .refl s
  · exact ((StickyKept.refl s).keeps (deriveNodes_keeps (F := { slots := true }) _ _ rfl (Keeps.refl _ s)) rfl).trans
      (restoreRecs_stickyKept _ _)

theorem createTenant_stickyKept (s : State) (a : AdmCfg) : StickyKept s (createTenant s a) := by
  obtain ⟨x, hx, heq⟩ := createTenant_split s a
  rw [heq]
  exact (((StickyKept.refl s).keeps hx rfl).trans (clientKeys_stickyKept x a.client)).keeps
    (stepTenant_keeps (F := { peer := true, tenants := true }) _ _ _ rfl rfl (Keeps.refl _ _)) rfl

/-- What DESTROY moves. -/
def destroyFoot : Foot := { workFoot with store := true }

theorem admTake_stickyKept (s : State) : StickyKept s (admTake s) := by
  have hend : ∀ x r a, StickyKept s x → StickyKept s (admEnd x a r) := fun x r a hx =>
    hx.keeps (admEnd_keeps (F := workFoot) x a r rfl rfl rfl rfl (Keeps.refl _ x)) rfl
  unfold admTake
  split
  next => exact .refl s
  next a _ =>
    dsimp only
    split_ifs
    · exact .refl s
    · exact hend _ _ _ (.refl s)
    · exact .refl s
    · refine hend _ _ _ ?_
      split
      · exact createTenant_stickyKept s a
      · exact (StickyKept.refl s).keeps (resizeTenant_keeps (F := resizeFoot) s a rfl rfl rfl rfl rfl rfl rfl
          (Keeps.refl _ s)) rfl
      · exact (StickyKept.refl s).keeps (destroyTenant_keeps (F := destroyFoot) s a rfl rfl rfl rfl rfl rfl rfl rfl rfl
          rfl rfl rfl rfl rfl rfl (Keeps.refl _ s)) rfl

theorem updEnd_stickyKept (s : State) (r : Nat) : StickyKept s (updEnd s r) := by
  have hended : ∀ k, StickyKept s (raiseHive { s with store := { s.store with
      updBusy := false, updTaken := false, updPhase := 0, updResult := r, updHash := [], updBuf := [] } } 2 k) := fun k =>
    (StickyKept.refl s).keeps (raiseHive_keeps (F := { store := true, ev := true, fns := true, tenants := true }) _ _ _ rfl
      rfl rfl (Keeps.set_store rfl (Keeps.refl _ s) fun h => h)) rfl
  unfold updEnd
  dsimp only
  split
  · exact hended _
  · exact (hended _).trans (sticky_kept _ _ _)

theorem updTake_stickyKept (s : State) : StickyKept s (updTake s) := by
  unfold updTake
  split_ifs
  · exact .refl s
  · exact updEnd_stickyKept s 12
  · exact .refl s

theorem keeperBack_stickyKept (s : State) : StickyKept s (keeperBack s) :=
  ((admTake_stickyKept s).keeps (doeResume_keeps (F := { doe := true, out := true, freeN := true }) _ rfl rfl rfl
    (Keeps.refl _ _)) rfl).trans (updTake_stickyKept _)

end

end Sys2Proof.Machine
end

section
/-! SUPPORT. An update of the image (R379, R380): the theorem that settles O54. -/

namespace Sys2Proof.Machine

open Host

/-- The registers of an update that has ended with a result. -/
def Store.updEnded (c : Store) (r : Nat) : Store :=
  { c with updBusy := false, updTaken := false, updPhase := 0, updResult := r, updHash := [], updBuf := [] }

section

variable {s : State}

/-! ## The end of an update -/

theorem updEnd_raised (s : State) (r : Nat) : Keeps { ev := true, fns := true, tenants := true }
    { s with store := s.store.updEnded r } (raiseHive { s with store := s.store.updEnded r } 2 (BitVec.ofNat 32 r)) :=
  raiseHive_signals _ _ _

theorem updEnd_eq (s : State) (r : Nat) : updEnd s r =
    if r = 0 then raiseHive { s with store := s.store.updEnded r } 2 (BitVec.ofNat 32 r)
    else sticky (raiseHive { s with store := s.store.updEnded r } 2 (BitVec.ofNat 32 r)) 103 0 := rfl

theorem updEnd_store (s : State) (r : Nat) : (updEnd s r).store = s.store.updEnded r := by
  rw [updEnd_eq]
  split
  · exact (updEnd_raised s r).store_eq rfl
  · exact ((sticky_signals _ _ _).store_eq rfl).trans ((updEnd_raised s r).store_eq rfl)

/-- A failure shows in sticky bit 103. -/
theorem updEnd_sticky (s : State) {r : Nat} (hr : r ≠ 0) : (updEnd s r).aon.sticky.getLsbD 103 = true := by
  rw [updEnd_eq, if_neg hr]
  exact sticky_same _ (by decide) _

theorem updEnd_pend (s : State) {r : Nat} (hr : r ≠ 0) : (updEnd s r).ev.pend.getLsbD 258 = true := by
  have hp : (raiseHive { s with store := s.store.updEnded r } 2 (BitVec.ofNat 32 r)).ev.pend.getLsbD 258 = true :=
    raise_pend_same _ (by decide) _
  rw [updEnd_eq, if_neg hr]
  generalize raiseHive { s with store := s.store.updEnded r } 2 (BitVec.ofNat 32 r) = u at hp ⊢
  rw [sticky_hive (by decide)]
  exact raise_pend_mono (s := stick u 103) hp _ _

/-- The update has failed with a result. -/
def UpdFailed (r : Nat) (t : State) : Prop :=
  t.store.updBusy = false ∧ t.store.updResult = r ∧ t.aon.sticky.getLsbD 103 = true

theorem updEnd_failed (s : State) {r : Nat} (hr : r ≠ 0) : UpdFailed r (updEnd s r) := by
  have h := updEnd_store s r
  exact ⟨by rw [h]; rfl, by rw [h]; rfl, updEnd_sticky s hr⟩

/-! ## The flash -/

theorem inactiveBank_set (s : State) (b : Bytes) : InactiveBank (setInactive s b) = b := by
  unfold setInactive InactiveBank
  split
  next => simp
  next => simp

theorem activeBank_setInactive (h : s.store.active ≤ 1) (b : Bytes) : activeBank (setInactive s b) = activeBank s := by
  unfold setInactive activeBank
  split
  next h0 => simp [h0]
  next h0 =>
    have h1 : s.store.active = 1 := by omega
    simp [h1]

theorem inactiveBank_updEnd (s : State) (r : Nat) : InactiveBank (updEnd s r) = InactiveBank s := by
  unfold InactiveBank
  rw [updEnd_store]
  rfl

/-! ## A read of the buffer -/

/-- What a read of the keeper moves. -/
def readFoot : Foot :=
  { aon := true, ev := true, hi := true, dma := true, fns := true, tenants := true, combs := true, out := true }

theorem keeperRead_foot (s : State) (c a n : Nat) (e : ReadEnd) : Keeps readFoot s (keeperRead s c a n e).2 :=
  keeperRead_keeps s c a n e rfl rfl rfl rfl rfl rfl rfl rfl (Keeps.refl _ s)

theorem bufferRead_end {w : Wrote} (h : BufferRead s w) (e : ReadEnd) :
    (keeperRead s 0 s.store.updRunAddr.toNat s.store.updRunLen e).1 = w :=
  (keeperRead_congr (SameWays.refl s) rfl rfl rfl 0 _ _ e .ok).trans h.2

theorem updRead_cut (h : (s.tenant 0).mb.fepoch ≠ s.store.updEpoch) (read : ReadEnd) (k : State → State) :
    updRead s read k = updEnd s 10 := if_pos (bne_iff_ne.mpr h)

/-- A buffer that has been read is judged. -/
theorem updRead_issued (h : BufferRead s .issued) (k : State → State) :
    ∃ u, Keeps readFoot s u ∧ updRead s .ok k = k u := by
  have hread := bufferRead_end h .ok
  have hfoot := keeperRead_foot s 0 s.store.updRunAddr.toNat s.store.updRunLen .ok
  unfold updRead
  rw [if_neg (by simp [h.1])]
  generalize keeperRead s 0 s.store.updRunAddr.toNat s.store.updRunLen .ok = x at hread hfoot ⊢
  obtain ⟨w, u⟩ := x
  obtain rfl : w = .issued := hread
  exact ⟨u, hfoot, rfl⟩

/-- A read that is refused, denied or fails ends the update. -/
theorem updRead_fails {read : ReadEnd}
    (h : BufferRead s .refused ∨ BufferRead s .denied ∨ BufferRead s .issued ∧ read ≠ .ok) (k : State → State) :
    ∃ u, updRead s read k = updEnd u 2 := by
  have hread : ∀ w, BufferRead s w → (s.tenant 0).mb.fepoch = s.store.updEpoch ∧
      (keeperRead s 0 s.store.updRunAddr.toNat s.store.updRunLen read).1 = w := fun w hw => ⟨hw.1, bufferRead_end hw read⟩
  unfold updRead
  generalize keeperRead s 0 s.store.updRunAddr.toNat s.store.updRunLen read = x at hread ⊢
  obtain ⟨w, u⟩ := x
  refine ⟨u, ?_⟩
  rcases h with h | h | ⟨h, hne⟩
  · obtain ⟨hf, rfl⟩ := hread _ h
    rw [if_neg (by simp [hf])]
  · obtain ⟨hf, rfl⟩ := hread _ h
    rw [if_neg (by simp [hf])]
  · obtain ⟨hf, rfl⟩ := hread _ h
    rw [if_neg (by simp [hf])]
    exact if_neg hne

theorem updRead_waits (h : BufferRead s .waits) (read : ReadEnd) (k : State → State) :
    ∃ u, Keeps readFoot s u ∧ updRead s read k = u := by
  have hread := bufferRead_end h read
  have hfoot := keeperRead_foot s 0 s.store.updRunAddr.toNat s.store.updRunLen read
  unfold updRead
  rw [if_neg (by simp [h.1])]
  generalize keeperRead s 0 s.store.updRunAddr.toNat s.store.updRunLen read = x at hread hfoot ⊢
  obtain ⟨w, u⟩ := x
  obtain rfl : w = .waits := hread
  exact ⟨u, hfoot, rfl⟩

/-! ## The phases -/

/-- Phase 1: the checks on the buffer. -/
def updPhase1 (b : Bytes) (s : State) : State :=
  let r := updCheck s b
  if r != 0 then updEnd s r
  else { s with store := { s.store with updPhase := 2, updHash := sha384 b } }

/-- Phase 3: the body is written. -/
def updPhase3 (b : Bytes) (s : State) : State :=
  if sha384 b != s.store.updHash then updEnd s 8
  else
    let s := setInactive s (List.replicate 128 0xFF ++ b.drop 128)
    { s with store := { s.store with updPhase := 4, updProgress := s.store.updRunLen / 1024, updBuf := b.take 128 } }

theorem opUpdatePhaseDone_one (h : UpdPhase s 1) (read : ReadEnd) (buf : Bytes) :
    opUpdatePhaseDone read buf s = updRead s read (updPhase1 (fit buf s.store.updRunLen)) := by
  obtain ⟨-, hbusy, htaken, hk, hph⟩ := h
  unfold opUpdatePhaseDone
  dsimp only
  rw [if_neg (by simp [hbusy, htaken, hk]), if_pos hph]
  rfl

theorem opUpdatePhaseDone_two (h : UpdPhase s 2) (read : ReadEnd) (buf : Bytes) :
    opUpdatePhaseDone read buf s =
      if read = .ok then { setInactive s [] with store.updPhase := 3 } else updEnd (setInactive s []) 9 := by
  obtain ⟨-, hbusy, htaken, hk, hph⟩ := h
  unfold opUpdatePhaseDone
  dsimp only
  rw [if_neg (by simp [hbusy, htaken, hk]), if_neg (by omega), if_pos hph]

theorem opUpdatePhaseDone_three (h : UpdPhase s 3) (read : ReadEnd) (buf : Bytes) :
    opUpdatePhaseDone read buf s = updRead s read (updPhase3 (fit buf s.store.updRunLen)) := by
  obtain ⟨-, hbusy, htaken, hk, hph⟩ := h
  unfold opUpdatePhaseDone
  dsimp only
  rw [if_neg (by simp [hbusy, htaken, hk]), if_neg (by omega), if_neg (by omega), if_pos hph]
  rfl

theorem opUpdatePhaseDone_four (h : UpdPhase s 4) (read : ReadEnd) (buf : Bytes) :
    opUpdatePhaseDone read buf s =
      if read = .ok then updEnd (setInactive s (s.store.updBuf ++ (InactiveBank s).drop 128)) 0
      else updEnd (setInactive s []) 9 := by
  obtain ⟨-, hbusy, htaken, hk, hph⟩ := h
  unfold opUpdatePhaseDone
  dsimp only
  rw [if_neg (by simp [hbusy, htaken, hk]), if_neg (by omega), if_neg (by omega), if_neg (by omega)]
  rfl

/-! ## A keeper restart -/

/-- The update has been cut off: no valid header stands in the inactive bank. -/
def UpdCut (t : State) : Prop := UpdFailed 10 t ∧ InactiveBank t = []

theorem UpdCut.kept {t : State} (h : UpdCut s) (hstore : StoreKept s t) (hsticky : StickyKept s t) : UpdCut t := by
  obtain ⟨⟨hbusy, hresult, hbit⟩, hbank⟩ := h
  obtain ⟨m, w, e, heq⟩ := hstore
  refine ⟨⟨by rw [heq]; exact hbusy, by rw [heq]; exact hresult, hsticky _ hbit⟩, ?_⟩
  rw [InactiveBank, heq]
  exact hbank

theorem updRestart_cut (hb : s.store.updBusy = true) (ht : s.store.updTaken = true) : UpdCut (updRestart s) := by
  have heq : updRestart s = updEnd (setInactive s []) 10 := if_pos (by simp [hb, ht])
  rw [heq]
  exact ⟨updEnd_failed _ (by decide), (inactiveBank_updEnd _ _).trans (inactiveBank_set _ _)⟩

theorem keeperRestart_cut (hb : s.store.updBusy = true) (ht : s.store.updTaken = true) (ok : Bool) :
    UpdCut (keeperRestart s ok) := by
  have hcut : UpdCut (updRestart (restartDoe s)) := updRestart_cut hb ht
  unfold keeperRestart
  dsimp only
  generalize updRestart (restartDoe s) = v at hcut ⊢
  have hkeeps : ∀ {F : Foot} {x : State}, Keeps F v x → F.store = false → F.aon = false → UpdCut x := fun hk hS hA =>
    hcut.kept ((StoreKept.refl v).keeps hk hS) ((StickyKept.refl v).keeps hk hA)
  split
  · have hmail : ∀ r l, UpdCut (State.each { v with hv.ram := r } l restartMail) := fun r l =>
      hkeeps (Keeps.each (F := { hv := true, tenants := true }) _ _ (fun x c hx => restartMail_keeps x c rfl hx)
        (Keeps.set_hv rfl (Keeps.refl _ v) (fun h => h) (fun h => h))) rfl rfl
    exact (hmail _ _).kept (keeperBack_storeKept (hmail _ _).1.1) (keeperBack_stickyKept _)
  · have hdown : UpdCut { v with hv := { v.hv with keeperUp := false, keeperFail := true, fail := 5 } } := hcut
    exact hdown.kept ((StoreKept.refl _).keeps (sticky_signals _ _ _) rfl) (sticky_kept _ _ _)

theorem opKeeperRestart_acts (hk : s.hv.kclk = true) (hx : s.hv.xclk = true) (hup : s.hv.keeperUp = true)
    (hstep : 5 ≤ s.hv.step) (hp : s.presented = true) (ok : Bool) : opKeeperRestart false ok s = keeperRestart s ok := by
  unfold opKeeperRestart
  rw [if_neg (by simp [hup, hp]; omega), if_neg (by simp [hk, hx])]
  rfl

/-! ## The offer of an update -/

/-- The registers of an update that is offered. -/
def Store.updOffered (c : Store) (tick : Nat) : Store :=
  { c with updBusy := true, updTaken := false, updAt := tick, updPhase := 0, updProgress := 0
           updRunAddr := c.updAddr, updRunLen := c.updLen }

theorem opCfUpdCommit_offers (hp : s.presented = true) (hb : s.store.updBusy = false) :
    opCfUpdCommit s = updTake { s with store := s.store.updOffered s.hv.tick } := if_neg (by simp [hp, hb])

theorem updTake_takes (hb : s.store.updBusy = true) (ht : s.store.updTaken = false) (hk : s.keeperOk = true)
    (htamper : s.aon.tampered = false) (hacc : acceptsImages s.lcCode = true) : updTake s =
      { s with store := { s.store with updTaken := true, updPhase := 1, updEpoch := (s.tenant 0).mb.fepoch } } := by
  unfold updTake
  rw [if_neg (by simp [hb, ht, hk]), if_neg (by simp [htamper, hacc])]

theorem updTake_rejects (hb : s.store.updBusy = true) (ht : s.store.updTaken = false) (hk : s.keeperOk = true)
    (h : s.aon.tampered = true ∨ acceptsImages s.lcCode = false) : updTake s = updEnd s 12 := by
  unfold updTake
  rw [if_neg (by simp [hb, ht, hk]), if_pos (by simpa using h)]

/-- An access to an awake Hive leaves it awake. -/
theorem wake_of_keeperOk (hk : s.keeperOk = true) : ∃ a,
    wake s 1 = { s with hv.pwr := 0, hv.causeAt := a } ∧
      ({ s with hv.pwr := 0, hv.causeAt := a } : State).keeperOk = true := by
  obtain ⟨a, ha⟩ := wake_awake (keeperOk_awake hk) 1
  refine ⟨a, ha, ?_⟩
  have hpwr := keeperOk_awake hk
  rw [← hk]
  simp only [State.keeperOk, hpwr]

theorem completes_updatePhase {n : Nat} {read : ReadEnd} {buf : Bytes} {t : State} {P : State → Prop} (h : UpdPhase s n)
    (heq : opUpdatePhaseDone read buf s = t) (hP : P t) : Completes (.updatePhaseDone read buf) s P := by
  obtain ⟨hs, -⟩ := h
  refine Completes.ofClock rfl hs.xclk ?_
  rw [heq]
  exact hP

/-- Phases 1 and 3 read the buffer first. -/
theorem opUpdatePhaseDone_reads {n : Nat} (h : UpdPhase s n) (hn : n = 1 ∨ n = 3) (read : ReadEnd) (buf : Bytes) :
    ∃ k, opUpdatePhaseDone read buf s = updRead s read k := by
  rcases hn with rfl | rfl
  · exact ⟨_, opUpdatePhaseDone_one h read buf⟩
  · exact ⟨_, opUpdatePhaseDone_three h read buf⟩

/-- A failure of the flash leaves the bank erased. -/
theorem opUpdatePhaseDone_flash {n : Nat} (h : UpdPhase s n) (hn : n = 2 ∨ n = 4) {read : ReadEnd} (hr : read ≠ .ok)
    (buf : Bytes) : opUpdatePhaseDone read buf s = updEnd (setInactive s []) 9 := by
  rcases hn with rfl | rfl
  · rw [opUpdatePhaseDone_two h, if_neg hr]
  · rw [opUpdatePhaseDone_four h, if_neg hr]

theorem updCheck_congr {t : State} (hk : Keeps readFoot s t) (b : Bytes) : updCheck t b = updCheck s b := by
  unfold updCheck hasActive State.lcCode
  rw [hk.otp_eq rfl, hk.lc_eq rfl, hk.hv_eq rfl, hk.store_eq rfl]

theorem updPhase1_spec {u : State} (hk : Keeps readFoot s u) (b : Bytes) :
    if updCheck s b = 0 then (updPhase1 b u).store = { s.store with updPhase := 2, updHash := sha384 b }
    else (updPhase1 b u).store.updBusy = false ∧ (updPhase1 b u).store.updResult = updCheck s b ∧
      (updPhase1 b u).store.flashA = s.store.flashA ∧ (updPhase1 b u).store.flashB = s.store.flashB ∧
      (updPhase1 b u).aon.sticky.getLsbD 103 = true := by
  have hstore : u.store = s.store := hk.store_eq rfl
  unfold updPhase1
  dsimp only
  rw [updCheck_congr hk]
  split
  next h0 =>
    rw [if_neg (by simp [h0])]
    exact congrArg (fun c : Store => { c with updPhase := 2, updHash := sha384 b }) hstore
  next h0 =>
    rw [if_pos (bne_iff_ne.mpr h0)]
    obtain ⟨hbusy, hresult, hbit⟩ := updEnd_failed u h0
    refine ⟨hbusy, hresult, ?_, ?_, hbit⟩
    · rw [updEnd_store, hstore]
      rfl
    · rw [updEnd_store, hstore]
      rfl

end

/-- Settles O54: the offer, the four phases and their ends, an FLR, a keeper restart, and the timeout. -/
theorem imageUpdate : Obligations.ImageUpdate := by
  refine ⟨fun s hs hp hb hk htamper hacc => ?_, fun s hs hp hb hk hrej => ?_, fun buf s hph hread => ?_,
    fun buf s hph hact => ?_, fun buf s hph hread hhash => ?_, fun buf s hph hread hhash => ?_,
    fun n read buf s hph hn hread => ?_, fun n read buf s hph hn hread => ?_, fun n read buf s hph hn hep => ?_,
    fun ok s hs hup hstep hp hb ht => ?_, fun n read buf s hph hn hread => ?_, fun buf s hph => ?_,
    fun s hs hb ht hlate => ?_⟩
  · obtain ⟨a, ha, hka⟩ := wake_of_keeperOk hk
    refine Completes.ofClocked rfl hs ?_
    rw [ha, opCfUpdCommit_offers (s := { s with hv.pwr := 0, hv.causeAt := a }) hp hb,
      updTake_takes (s := { s with hv.pwr := 0, hv.causeAt := a, store := s.store.updOffered s.hv.tick }) rfl rfl hka
        htamper hacc]
    exact ⟨rfl, rfl, rfl, rfl, rfl, rfl, rfl⟩
  · obtain ⟨a, ha, hka⟩ := wake_of_keeperOk hk
    refine Completes.ofClocked rfl hs ?_
    rw [ha, opCfUpdCommit_offers (s := { s with hv.pwr := 0, hv.causeAt := a }) hp hb,
      updTake_rejects (s := { s with hv.pwr := 0, hv.causeAt := a, store := s.store.updOffered s.hv.tick }) rfl rfl hka
        hrej]
    obtain ⟨hbusy, hresult, hbit⟩ := updEnd_failed
      { s with hv.pwr := 0, hv.causeAt := a, store := s.store.updOffered s.hv.tick } (r := 12) (by decide)
    exact ⟨hbusy, hresult, hbit, updEnd_pend _ (by decide)⟩
  · obtain ⟨u, hk, heq⟩ := updRead_issued hread (updPhase1 (fit buf s.store.updRunLen))
    exact completes_updatePhase hph ((opUpdatePhaseDone_one hph .ok buf).trans heq) (updPhase1_spec hk _)
  · refine completes_updatePhase hph ((opUpdatePhaseDone_two hph .ok buf).trans (if_pos rfl)) ⟨rfl, ?_, ?_⟩
    · exact inactiveBank_set s []
    · exact activeBank_setInactive hact []
  · obtain ⟨u, hk, heq⟩ := updRead_issued hread (updPhase3 (fit buf s.store.updRunLen))
    have hwrites : updPhase3 (fit buf s.store.updRunLen) u =
        let v := setInactive u (List.replicate 128 0xFF ++ (fit buf s.store.updRunLen).drop 128)
        { v with store := { v.store with
          updPhase := 4, updProgress := v.store.updRunLen / 1024, updBuf := (fit buf s.store.updRunLen).take 128 } } :=
      if_neg (by rw [hk.store_eq rfl]; simp [hhash])
    exact completes_updatePhase hph (((opUpdatePhaseDone_three hph .ok buf).trans heq).trans hwrites)
      ⟨rfl, inactiveBank_set u _, rfl⟩
  · obtain ⟨u, hk, heq⟩ := updRead_issued hread (updPhase3 (fit buf s.store.updRunLen))
    have hends : updPhase3 (fit buf s.store.updRunLen) u = updEnd u 8 :=
      if_pos (by rw [hk.store_eq rfl]; exact bne_iff_ne.mpr hhash)
    exact completes_updatePhase hph (((opUpdatePhaseDone_three hph .ok buf).trans heq).trans hends)
      (updEnd_failed u (by decide))
  · obtain ⟨k, heq⟩ := opUpdatePhaseDone_reads hph hn read buf
    obtain ⟨u, hu⟩ := updRead_fails hread k
    exact completes_updatePhase hph (heq.trans hu) (updEnd_failed u (by decide))
  · obtain ⟨k, heq⟩ := opUpdatePhaseDone_reads hph hn read buf
    obtain ⟨u, hk, hu⟩ := updRead_waits hread read k
    exact completes_updatePhase hph (heq.trans hu) (hk.store_eq rfl)
  · obtain ⟨k, heq⟩ := opUpdatePhaseDone_reads hph hn read buf
    exact completes_updatePhase hph (heq.trans (updRead_cut hep read k)) (updEnd_failed s (by decide))
  · obtain ⟨p, w, k, a, hwake⟩ := wake_eq s 1
    have hw : wake s 1 = woken s p w k a := hwake
    have hexec : exec (.keeperRestart false ok) s =
        .next (whenClocked (.keeperRestart false ok) s fun s => opKeeperRestart false ok (wake s 1)) :=
      congrArg Outcome.next (if_neg Bool.false_ne_true)
    refine Completes.ofClocked hexec hs ?_
    rw [hw, opKeeperRestart_acts (s := woken s p w k a) hs.kclk hs.xclk hup hstep hp]
    obtain ⟨⟨hbusy, hresult, hbit⟩, hbank⟩ := keeperRestart_cut (s := woken s p w k a) hb ht ok
    exact ⟨hbusy, hresult, hbank, hbit⟩
  · refine completes_updatePhase hph (opUpdatePhaseDone_flash hph hn hread buf) ?_
    obtain ⟨hbusy, hresult, hbit⟩ := updEnd_failed (setInactive s []) (r := 9) (by decide)
    exact ⟨hbusy, hresult, (inactiveBank_updEnd _ _).trans (inactiveBank_set _ _), hbit⟩
  · refine completes_updatePhase hph ((opUpdatePhaseDone_four hph .ok buf).trans (if_pos rfl)) ?_
    have hstore := updEnd_store (setInactive s (s.store.updBuf ++ (InactiveBank s).drop 128)) 0
    exact ⟨by rw [hstore]; rfl, by rw [hstore]; rfl, (inactiveBank_updEnd _ _).trans (inactiveBank_set _ _)⟩
  · have heq : opUpdateKeeperTimeout s = updEnd s 11 := if_pos (by simp [hb, ht, hlate])
    refine Completes.ofClock rfl hs.fclk ?_
    rw [heq]
    exact updEnd_failed s (by decide)

end Sys2Proof.Machine
end

section
/-! SUPPORT. The sticky record over the operations of the jobs and the queues: no bit of it clears. -/

namespace Sys2Proof.Machine

open Host

/-- Everything but the always-on domain. -/
def calmFoot : Foot :=
  { hv := true, store := true, otp := true, ev := true, hi := true, cap := true, dma := true, doe := true, lc := true
    peer := true, sync := true, wg := true, adm := true, ks := true, sch := true, fns := true, tenants := true
    queues := true, rings := true, ctxs := true, slots := true, combs := true, jobs := true, nextJob := true, out := true
    halves := true, latches := true, resp := true, retry := true, trngN := true, freeN := true }

/-! ## Combinators -/

section

variable {s s0 u t : State}

theorem StickyKept.calm (h : StickyKept s0 s) (hk : Keeps calmFoot s t) : StickyKept s0 t := h.keeps hk rfl

theorem Keeps.sticky (hk : Keeps calmFoot s t) : StickyKept s t := (StickyKept.refl s).calm hk

/-- Elsewhere than in the always-on domain anything may move. -/
theorem StickyKept.moved (h : StickyKept s0 u) (he : t.aon = u.aon) : StickyKept s0 t :=
  h.trans (.of_eq (congrArg (·.sticky) he))

theorem StickyKept.ite {c : Prop} [Decidable c] (ha : StickyKept s0 u) (hb : StickyKept s0 t) :
    StickyKept s0 (if c then u else t) := by
  split
  · exact ha
  · exact hb

theorem StickyKept.each {α : Type} {f : State → α → State} (l : List α) (h : StickyKept s0 s)
    (hf : ∀ x a, StickyKept s0 x → StickyKept s0 (f x a)) : StickyKept s0 (s.each l f) :=
  State.each_induction (fun x a _ hx => hf x a hx) h

theorem StickyKept.sticky (h : StickyKept s0 s) (b : Nat) (info : W32) : StickyKept s0 (Machine.sticky s b info) :=
  h.trans (sticky_kept s b info)

theorem StickyKept.raiseHive (h : StickyKept s0 s) (n : Nat) (info : W32) : StickyKept s0 (Machine.raiseHive s n info) :=
  h.keeps (raiseHive_signals s n info) rfl

theorem StickyKept.modJob (h : StickyKept s0 s) (id : Nat) (f : Job → Job) : StickyKept s0 (s.modJob id f) := h

end

section

variable (s : State)

theorem stick_stickyKept (b : Nat) : StickyKept s (stick s b) := fun n hn => by
  rw [stick, BitVec.getLsbD_or, hn, Bool.true_or]

/-! ## Reads of the keeper -/

theorem combFault_stickyKept (c : Nat) (cell : Option Cell) (info : W32) : StickyKept s (combFault s c cell info) := by
  have hset : ∀ f, StickyKept s (stick (s.modComb c f) c) := fun f =>
    (Keeps.sticky (modComb_keeps s c f rfl (Keeps.refl _ s))).trans (stick_stickyKept _ c)
  have hraised : ∀ x, Keeps calmFoot x (combSync (raise x (4 * c) info) c) := fun x =>
    combSync_keeps _ c rfl rfl rfl rfl (raise_keeps _ _ info rfl rfl rfl (Keeps.refl _ x))
  unfold combFault
  dsimp only
  generalize hu : stick (s.modComb c _) c = u
  exact StickyKept.calm (hu ▸ hset _) (hraised u)

theorem timedOut_stickyKept (c : Nat) : StickyKept s (timedOut s c) := by
  unfold timedOut
  dsimp only
  have hcount : StickyKept s { s with hi.timeouts := satAdd 65535 s.hi.timeouts 1 } := .refl s
  exact StickyKept.sticky (.ite (hcount.calm (modFunc_keeps _ _ _ rfl (Keeps.refl _ _))) hcount) 105 0

theorem keeperEnd_stickyKept (c : Nat) (e : ReadEnd) : StickyKept s (keeperEnd s c e) := by
  cases e with
  | ok => exact .refl s
  | error => exact .refl s
  | poisoned => exact .refl s
  | timeout => exact timedOut_stickyKept s c

theorem keeperRead_stickyKept (c a n : Nat) (e : ReadEnd) : StickyKept s (keeperRead s c a n e).2 := by
  have hissued : ∀ l, StickyKept s (keeperEnd (s.each l keeperIssue) c e) := fun l =>
    (Keeps.sticky (Keeps.each l _ (fun x r hx => keeperIssue_keeps x r rfl rfl rfl hx) (Keeps.refl _ s))).trans
      (keeperEnd_stickyKept _ c e)
  unfold keeperRead
  split
  next => exact .refl s
  next l _ =>
    split_ifs
    · exact .refl s
    · exact .refl s
    · exact .refl s
    all_goals
      split
      next => exact Keeps.sticky (askXlate_keeps _ _ _ _ rfl rfl rfl (Keeps.refl _ s))
    · exact hissued l
    · exact .refl s

/-! ## Cells -/

theorem finishCell_calm (id : Nat) (r : CellOut) : Keeps calmFoot s (finishCell s id r) :=
  finishCell_keeps s id r rfl rfl rfl rfl (Keeps.refl _ s)

theorem faultCheck_stickyKept (id cyc : Nat) : StickyKept s (faultCheck s id cyc) := by
  unfold faultCheck
  dsimp only
  exact StickyKept.calm ((Keeps.sticky (combCount1_keeps s _ _ _ _ rfl rfl rfl rfl (Keeps.refl _ s))).trans
    (combFault_stickyKept _ _ _ _)) (finishCell_calm _ id _)

theorem rsaApply_stickyKept (id m cyc : Nat) (fault : Bool) (f : Bytes → CellOut) :
    StickyKept s (rsaApply s id m cyc fault f) := by
  unfold rsaApply
  exact .ite (faultCheck_stickyKept s id cyc) (finishCell_calm s id _).sticky

theorem withSeed_stickyKept {id : Nat} {pr : Bool} {draw : State → Nat → Bytes × State} {f : Bytes → State → State}
    (hdraw : ∀ x c, Keeps calmFoot x (draw x c).2) (hf : ∀ b x, StickyKept x (f b x)) :
    StickyKept s (withSeed s id pr draw f) := by
  have hready : ∀ x, drbgReady s (s.job id).on pr = some x → Keeps calmFoot s x := fun x hx => by
    unfold drbgReady at hx
    dsimp only at hx
    split_ifs at hx <;> obtain rfl := Option.some.inj hx
    · exact Keeps.refl _ s
    · exact drbgInit_keeps _ _ rfl rfl (Keeps.refl _ s)
    · exact drbgReseed_keeps _ _ rfl rfl (Keeps.refl _ s)
    · exact Keeps.refl _ s
  unfold withSeed
  dsimp only
  split
  next => exact Keeps.sticky (seedFail_keeps s id rfl rfl rfl (Keeps.refl _ s))
  next x hx =>
    have hseeded : Keeps calmFoot s (seedWaited s x id) := seedWaited_keeps s x id rfl rfl (Keeps.refl _ s) (hready x hx)
    exact (Keeps.sticky (hseeded.trans (hdraw _ _))).trans (hf _ _)

theorem withDraw_stickyKept {id n : Nat} {f : Bytes → State → State} (hf : ∀ b x, StickyKept x (f b x)) :
    StickyKept s (withDraw s id n f) :=
  withSeed_stickyKept s (fun x c => drawFree_keeps x c n rfl rfl (Keeps.refl _ x)) hf

theorem opRsaPriv_stickyKept (id : Nat) (fault : Bool) : StickyKept s (opRsaPriv id fault s) := by
  unfold opRsaPriv
  dsimp only
  refine .ite (.refl s) (.ite (finishCell_calm s id _).sticky (withDraw_stickyKept s fun b x => ?_))
  exact .ite (rsaApply_stickyKept _ _ _ _ _ _) (.ite (rsaApply_stickyKept _ _ _ _ _ _)
    (.ite (rsaApply_stickyKept _ _ _ _ _ _) (rsaApply_stickyKept _ _ _ _ _ _)))

theorem opEcdsaSign_stickyKept (id : Nat) (fault : Bool) : StickyKept s (opEcdsaSign id fault s) := by
  unfold opEcdsaSign
  dsimp only
  exact .ite (.refl s) (withDraw_stickyKept s fun b x =>
    .ite (faultCheck_stickyKept x id _) (finishCell_calm x id _).sticky)

theorem opEddsaSign_stickyKept (id : Nat) (fault : Bool) : StickyKept s (opEddsaSign id fault s) := by
  unfold opEddsaSign
  dsimp only
  exact .ite (.refl s) (withDraw_stickyKept s fun b x =>
    .ite (faultCheck_stickyKept x id _) (finishCell_calm x id _).sticky)

theorem agreed_stickyKept {id cyc : Nat} {fault : Bool} {r : BitVec 8 ⊕ Bytes} {f : Bytes → State → State}
    (hf : ∀ b x, Keeps calmFoot x (f b x)) : StickyKept s (agreed s id cyc fault r f) := by
  cases r with
  | inl det =>
    exact .ite (finishCell_calm s id _).sticky (withDraw_stickyKept s fun _ x => (finishCell_calm x id _).sticky)
  | inr b => exact withDraw_stickyKept s fun _ x => .ite (faultCheck_stickyKept x id _) (hf b x).sticky

theorem outputs_calm (id cyc : Nat) (b : Bytes) (x : State) : Keeps calmFoot x (outputs id cyc b x) :=
  finishCell_calm x id _

theorem commitKey_calm (id : Nat) (m out : Bytes) (cyc : Nat) (x : State) : Keeps calmFoot x (commitKey x id m out cyc) :=
  commitKey_keeps x id m out cyc rfl rfl rfl rfl rfl rfl (Keeps.refl _ x)

theorem opEcdh_stickyKept (id : Nat) (fault : Bool) : StickyKept s (opEcdh id fault s) :=
  .ite (agreed_stickyKept s fun b x => outputs_calm id _ b x) (.refl s)

theorem opXdh_stickyKept (id : Nat) (fault : Bool) : StickyKept s (opXdh id fault s) :=
  .ite (agreed_stickyKept s fun b x => outputs_calm id _ b x) (.refl s)

theorem opEcPointMulRaw_stickyKept (id : Nat) (fault : Bool) : StickyKept s (opEcPointMulRaw id fault s) :=
  .ite (agreed_stickyKept s fun b x => outputs_calm id _ b x) (.refl s)

theorem opKeyAgreeToSlot_stickyKept (id : Nat) (fault : Bool) : StickyKept s (opKeyAgreeToSlot id fault s) := by
  unfold opKeyAgreeToSlot
  dsimp only
  exact .ite (.refl s) (.ite (withDraw_stickyKept s fun _ x => (commitKey_calm id _ _ _ x).sticky)
    (agreed_stickyKept s fun b x => commitKey_calm id b _ _ x))

/-! ## Fetches -/

theorem modQueue_calm (c q : Nat) (f : Queue → Queue) : Keeps calmFoot s (s.modQueue c q f) :=
  modQueue_keeps s c q f rfl (Keeps.refl _ s)

theorem stopQueue_calm (c q : Nat) (code : BitVec 8) (i : W32) : Keeps calmFoot s (stopQueue s c q code i) :=
  stopQueue_keeps s c q code i rfl rfl (Keeps.refl _ s)

theorem eccCorrected_calm (comb : Option Nat) : Keeps calmFoot s (eccCorrected s comb) :=
  eccCorrected_keeps s comb rfl rfl rfl (Keeps.refl _ s)

theorem fetchEcc_stickyKept (c q : Nat) (e : FetchEcc) : StickyKept s (fetchEcc s c q e) := by
  cases e with
  | clean => exact .refl s
  | corrected => exact (eccCorrected_calm s none).sticky
  | cacheSlot i => exact .ite ((modQueue_calm s c q _).sticky.sticky 70 0) (.refl s)
  | staged => exact .ite (.refl s) ((modQueue_calm s c q _).sticky.sticky 71 0)
  | queueState => exact (sticky_kept s 67 _).calm (stopQueue_calm _ c q _ _)

theorem opDescriptorFetchDone_stickyKept (c q : Nat) (e : FetchEcc) : StickyKept s (opDescriptorFetchDone c q e s) := by
  have hecc := fetchEcc_stickyKept s c q e
  unfold opDescriptorFetchDone
  dsimp only
  refine .ite (.refl s) (.ite hecc ?_)
  generalize fetchEcc s c q e = x at hecc ⊢
  split
  · exact hecc
  · exact hecc.calm (stopQueue_calm x c q _ _)
  · split
    · exact hecc.calm (stopQueue_calm x c q _ _)
    · have hjob : ∀ o d arr, Keeps calmFoot x (newJob x c (.ring q (x.queue c q).chk) (x.queue c q).clearExport false o d arr).2 :=
        fun o d arr => newJob_keeps x c _ _ _ o d arr rfl rfl (Keeps.refl _ x)
      exact .ite (hecc.calm (freezeQueue_keeps x c q rfl rfl rfl (Keeps.refl _ x)))
        ((hecc.calm (hjob _ _ _)).calm (modQueue_calm _ c q _))

/-! ## Key pulls -/

theorem tagEcc_stickyKept (c i : Nat) (hit : Bool) : StickyKept s (tagEcc s c i hit) := by
  unfold tagEcc
  split
  · exact .ite (StickyKept.sticky (Keeps.sticky (modSlot_keeps s _ _ rfl (Keeps.refl _ s))) 65 _) (.refl s)
  · exact .refl s

theorem payloadEcc_stickyKept (pos : Nat) (hit : Bool) : StickyKept s (payloadEcc s pos hit) :=
  .ite (StickyKept.sticky (Keeps.sticky (modSlot_keeps s _ _ rfl (Keeps.refl _ s))) 64 _) (.refl s)

theorem fail5_calm (id : Nat) (st : Status) (det : BitVec 8) : Keeps calmFoot s (fail5 s id st det) :=
  fail5_keeps s id st det rfl rfl rfl (Keeps.refl _ s)

theorem passFive_calm (id : Nat) : Keeps calmFoot s (passFive s id) :=
  passFive_keeps s id rfl rfl rfl rfl rfl rfl (Keeps.refl _ s)

theorem pullTarget_stickyKept (id : Nat) (e : KeyEcc) : StickyKept s (pullTarget s id e) := by
  have htag := tagEcc_stickyKept s (s.job id).client (kbTarget (s.job id).desc) (e == .targetTag)
  unfold pullTarget
  dsimp only
  generalize tagEcc s _ _ (e == .targetTag) = x at htag ⊢
  split
  · exact htag.calm (fail5_calm x id _ _)
  · exact htag
  next p _ _ =>
    have hload := htag.trans (payloadEcc_stickyKept x p (e == .targetPayload))
    generalize payloadEcc x p (e == .targetPayload) = y at hload ⊢
    have htaken : ∀ f, Keeps calmFoot y { (takeRef y p).modJob id f with freeN := y.freeN + 1 } := fun f =>
      Keeps.set_freeN rfl (modJob_keeps _ _ _ rfl (takeRef_keeps y p rfl (Keeps.refl _ y)))
    exact .ite (hload.calm (fail5_calm y id _ _)) (.ite hload ((hload.calm (htaken _)).calm (passFive_calm _ id)))

theorem deliver_calm (id pos : Nat) : Keeps calmFoot s (deliver s id pos) :=
  deliver_keeps s id pos rfl rfl rfl (Keeps.refl _ s)

theorem holdCtx_calm (id : Nat) (o : Op) (g : BitVec 16) (n : Option Bytes) : Keeps calmFoot s (holdCtx s id o g n) :=
  holdCtx_keeps s id o g n rfl rfl rfl rfl rfl rfl rfl (Keeps.refl _ s)

theorem finishPull_stickyKept (id : Nat) (o : Op) (pos : Nat) (e : KeyEcc) (n : Option Bytes) :
    StickyKept s (finishPull s id o pos e n) := by
  have hload := payloadEcc_stickyKept (s.modJob id fun j => { j with nonce := n }) pos (e == .payload)
  have hset : StickyKept s (s.modJob id fun j => { j with nonce := n }) := .refl s
  replace hload := hset.trans hload
  unfold finishPull
  dsimp only
  generalize payloadEcc (s.modJob id fun j => { j with nonce := n }) pos (e == .payload) = x at hload ⊢
  refine .ite (hload.calm (fail5_calm x id _ _)) (.ite ((hload.calm (deliver_calm x id pos)).trans
    (pullTarget_stickyKept _ id e)) ?_)
  split
  · exact hload.calm (fail5_calm x id _ _)
  · refine StickyKept.calm (.ite ?_ ?_) (passFive_calm _ id)
    · exact ((hload.calm (holdCtx_calm x id o _ n)).calm (deliver_calm _ id pos)).calm
        (modJob_keeps _ _ _ rfl (reserveRun_keeps _ _ _ _ _ _ _ _ _ rfl (Keeps.refl _ _)))
    · exact (hload.calm (holdCtx_calm x id o _ n)).calm (deliver_calm _ id pos)

theorem pullKey_stickyKept (id : Nat) (o : Op) (e : KeyEcc) : StickyKept s (pullKey s id o e) := by
  have htag := tagEcc_stickyKept s (s.job id).client (dKeySlot (s.job id).desc) (e == .tag)
  unfold pullKey
  dsimp only
  generalize tagEcc s _ _ (e == .tag) = x at htag ⊢
  split
  · exact htag.calm (fail5_calm x id _ _)
  · exact htag
  next pos _ _ =>
    refine .ite htag ?_
    split
    · exact htag.calm (fail5_calm x id _ _)
    · refine .ite ?_ (htag.trans (finishPull_stickyKept x id o pos e none))
      have hnonce : Keeps calmFoot x (takeNonce x ((s.job id).comb.getD 0) pos).2 :=
        takeNonce_keeps x _ pos rfl rfl (Keeps.refl _ x)
      generalize takeNonce x ((s.job id).comb.getD 0) pos = y at hnonce ⊢
      obtain ⟨g, y⟩ := y
      cases g with
      | exhausted => exact (htag.calm hnonce).calm (fail5_calm y id _ _)
      | waits => exact htag.calm hnonce
      | value v => exact (htag.calm hnonce).trans (finishPull_stickyKept y id o pos e _)

theorem pullAgain_stickyKept (id : Nat) (e : KeyEcc) : StickyKept s (pullAgain s id e) := by
  have hload := (tagEcc_stickyKept s (s.job id).client (dKeySlot (s.job id).desc) (e == .tag)).trans
    (payloadEcc_stickyKept _ (s.job id).keyPos (e == .payload))
  unfold pullAgain
  dsimp only
  generalize payloadEcc _ (s.job id).keyPos (e == .payload) = x at hload ⊢
  exact .ite (hload.calm (fail5_calm x id _ _)) hload

theorem opKeyPull_stickyKept (id : Nat) (e : KeyEcc) : StickyKept s (opKeyPull id e s) := by
  unfold opKeyPull
  dsimp only
  refine .ite (.refl s) ?_
  split
  · exact .refl s
  next o _ =>
    split
    · exact (fail5_calm s id _ _).sticky
    · refine .ite ((holdCtx_calm s id o 0 none).sticky.calm (passFive_calm _ id))
        (.ite (fail5_calm s id _ _).sticky (.ite (.refl s) ?_))
      have hecc : StickyKept s (if e = .corrected then eccCorrected s none else s) :=
        .ite (eccCorrected_calm s none).sticky (.refl s)
      generalize (if e = .corrected then eccCorrected s none else s) = x at hecc ⊢
      exact .ite (hecc.trans (pullAgain_stickyKept x id e)) (.ite (hecc.trans (pullKey_stickyKept x id o e))
        (hecc.trans (pullTarget_stickyKept x id e)))

end

end Sys2Proof.Machine
end

section
/-! SUPPORT. The sticky record over completions, the ends of jobs, the Hive time and the epochs. -/

namespace Sys2Proof.Machine

open Host

section

variable (s : State)

/-! ## Completions -/

theorem unexpected_stickyKept (fn : Nat) : StickyKept s (unexpected s fn) := by
  have hcount : StickyKept s { s with hi.unexpected := satAdd 65535 s.hi.unexpected 1 } := .refl s
  exact StickyKept.sticky (.ite (hcount.calm (modFunc_keeps _ _ _ rfl (Keeps.refl _ _))) hcount) 105 0

theorem retryReads_calm : Keeps calmFoot s (retryReads s) :=
  retryReads_keeps s rfl rfl rfl rfl rfl rfl rfl (Keeps.refl _ s)

theorem dropRead_calm (tag : Nat) : Keeps calmFoot s (dropRead s tag) := dropRead_keeps s tag rfl (Keeps.refl _ s)

theorem readFails_calm (r : Req) (st : Status) (det : BitVec 8) : Keeps calmFoot s (readFails s r st det) :=
  readFails_keeps s r st det rfl rfl rfl rfl rfl (Keeps.refl _ s)

theorem readDone_calm (r : Req) : Keeps calmFoot s (readDone s r) :=
  readDone_keeps s r rfl rfl rfl rfl rfl rfl (Keeps.refl _ s)

theorem opReadCompletion_stickyKept (tag : Nat) (st : CplStatus) (data : Bytes) :
    StickyKept s (opReadCompletion tag st data s) := by
  unfold opReadCompletion
  split
  next => exact unexpected_stickyKept s 0
  next r _ =>
    dsimp only
    refine .ite (unexpected_stickyKept s r.client) ?_
    have hlate : StickyKept s (if r.purpose == .dropped true then unexpected s r.client else s) :=
      .ite (unexpected_stickyKept s r.client) (.refl s)
    generalize (if r.purpose == .dropped true then unexpected s r.client else s) = x at hlate ⊢
    have hfails : ∀ y st det, y.aon = x.aon → StickyKept s (retryReads (readFails (dropRead y tag) r st det)) :=
      fun y st det hy => (((hlate.moved hy).calm (dropRead_calm y tag)).calm (readFails_calm _ _ _ _)).calm (retryReads_calm _)
    cases st with
    | ok => exact .ite hlate (((hlate.calm (dropRead_calm x tag)).calm (readDone_calm _ _)).calm (retryReads_calm _))
    | ur => exact .ite hlate (hfails (cplBad x) _ _ rfl)
    | ca => exact .ite hlate (hfails (cplBad x) _ _ rfl)
    | poisoned => exact .ite hlate (hfails (cplPoisoned x) _ _ rfl)

theorem opCompletionTimeout_stickyKept (tag : Nat) : StickyKept s (opCompletionTimeout tag s) := by
  unfold opCompletionTimeout
  split
  next => exact .refl s
  next r _ =>
    exact .ite (.refl s) ((((timedOut_stickyKept s r.client).calm (dropRead_calm _ tag)).calm (readFails_calm _ _ _ _)).calm
      (retryReads_calm _))

/-! ## The end of a job -/

theorem closeHeld_calm (id : Nat) : Keeps calmFoot s (closeHeld s id) := closeHeld_keeps s id rfl rfl (Keeps.refl _ s)

theorem poisonJob_calm (id : Nat) : Keeps calmFoot s (poisonJob s id) :=
  poisonJob_keeps s id rfl rfl rfl (Keeps.refl _ s)

theorem poisonAfter_calm (id n : Nat) : Keeps calmFoot s (poisonAfter s id n) :=
  poisonAfter_keeps s id n rfl rfl rfl (Keeps.refl _ s)

theorem jobEccAt_stickyKept (id : Nat) (e : JobEcc) : StickyKept s (jobEccAt s id e) := by
  have hfault := fun cell info => combFault_stickyKept s ((s.job id).comb.getD 0) cell info
  unfold jobEccAt
  dsimp only
  split
  · exact .refl s
  · exact (eccCorrected_calm s _).sticky
  · exact .ite (hfault _ _) (.refl s)
  · exact .ite (((sticky_kept s 66 _).calm (poisonJob_calm _ id)).calm (closeHeld_calm _ id)) (.refl s)
  · exact .ite (((hfault _ _).calm (poisonJob_calm _ id)).calm (closeHeld_calm _ id)) (.refl s)
  · exact .ite ((hfault _ _).calm (poisonAfter_calm _ id _)) (.refl s)
  · exact .ite ((hfault _ _).calm (poisonJob_calm _ id)) (.refl s)
  · exact .ite (.refl s) ((sticky_kept s 73 0).calm (poisonJob_calm _ id))
  · exact .ite ((sticky_kept s 74 0).calm (poisonJob_calm _ id)) (.refl s)

theorem sendResult_calm (id : Nat) : Keeps calmFoot s (sendResult s id) :=
  sendResult_keeps s id rfl rfl rfl rfl rfl rfl (Keeps.refl _ s)

theorem opJobEnd_stickyKept (id free : Nat) (e : JobEcc) : StickyKept s (opJobEnd id free e s) := by
  have hecc : StickyKept s (if (s.job id).noComb then s else jobEccAt s id e) := .ite (.refl s) (jobEccAt_stickyKept s id e)
  unfold opJobEnd
  dsimp only
  refine .ite (.refl s) (.ite (sendResult_calm s id).sticky ?_)
  generalize (if (s.job id).noComb then s else jobEccAt s id e) = x at hecc ⊢
  have hwrite : Keeps calmFoot x (writeDst x id).1 := writeDst_keeps x id rfl rfl rfl rfl rfl (Keeps.refl _ x)
  have hclose : ∀ y, Keeps calmFoot y (endSeven (closeJob (leaveCell y id) id free) id) := fun y =>
    endSeven_keeps _ id rfl rfl rfl rfl rfl rfl rfl rfl rfl (closeJob_keeps _ id free rfl rfl rfl rfl rfl rfl rfl rfl rfl rfl
      (leaveCell_keeps y id rfl (Keeps.refl _ y)))
  exact .ite ((hecc.calm hwrite).calm (hclose _))
    ((hecc.calm hwrite).calm (drainCell_keeps _ id rfl (Keeps.refl _ _)))

/-! ## The Hive time -/

theorem noteBound_calm : Keeps calmFoot s (noteBound s) := noteBound_keeps s rfl (Keeps.refl _ s)

theorem setSync_stickyKept (st : Nat) : StickyKept s (setSync s st) := by
  by_cases h : s.sync.state = st
  · rw [setSync_same h]
    exact .refl s
  · rw [setSync_eq h]
    have hchange : StickyKept s (syncChange s st) := by
      unfold syncChange
      refine StickyKept.raiseHive ?_ 5 0
      exact StickyKept.moved (.refl s) rfl
    refine StickyKept.calm ?_ (noteBound_calm _)
    exact .ite (hchange.sticky 97 0) hchange

theorem judgeSync_stickyKept : StickyKept s (judgeSync s) := .ite (setSync_stickyKept s 4) (.refl s)

theorem wordState_stickyKept (src : Nat) (moved : Bool) : StickyKept s (wordState s src moved) := by
  unfold wordState
  exact .ite (setSync_stickyKept s 1) (.ite (.ite (.refl s) (setSync_stickyKept s 1))
    (.ite ((setSync_stickyKept s 3).trans (judgeSync_stickyKept _)) (.ite (setSync_stickyKept s 4)
      (.ite (setSync_stickyKept s 2) (.refl s)))))

theorem useWord_stickyKept (time src est : Nat) : StickyKept s (useWord s time src est) := by
  have happly : Keeps calmFoot s (noteBound (applySync (noteBound s))) :=
    noteBound_keeps _ rfl (applySync_keeps _ rfl rfl rfl rfl (noteBound_calm s))
  unfold useWord
  dsimp only
  generalize noteBound (applySync (noteBound s)) = x at happly ⊢
  have hsteer : ∀ e ps, Keeps calmFoot x (steer x e ps).1 := fun e ps => steer_keeps x e ps rfl rfl (Keeps.refl _ x)
  refine StickyKept.calm (StickyKept.trans ?_ (wordState_stickyKept _ src _)) (noteBound_calm _)
  exact (happly.trans (hsteer _ _)).sticky.moved rfl

theorem opTodWord_stickyKept (w : BitVec 128) : StickyKept s (opTodWord w s) := by
  unfold opTodWord
  dsimp only
  have hseq : ∀ c : Prop, [Decidable c] → ∀ q n, StickyKept s
      (if c then { s with sync := { s.sync with seq := q, seqErr := n } } else { s with sync.seq := q }) :=
    fun c _ q n => .ite (StickyKept.moved (.refl s) rfl) (StickyKept.moved (.refl s) rfl)
  exact .ite (.refl s) (.ite (hseq _ _ _) ((hseq _ _ _).trans (useWord_stickyKept _ _ _ _)))

theorem opTodLost_stickyKept : StickyKept s (opTodLost s) := by
  unfold opTodLost
  split
  · refine .ite ?_ (.refl s)
    have hlost : StickyKept s (Machine.sticky { s with sync.lost := true, sync.locked := 0 } 96 0) := by
      refine StickyKept.sticky ?_ 96 0
      exact StickyKept.moved (.refl s) rfl
    dsimp only
    generalize Machine.sticky { s with sync.lost := true, sync.locked := 0 } 96 0 = x at hlost ⊢
    exact .ite ((hlost.trans (setSync_stickyKept x 3)).trans (judgeSync_stickyKept _))
      (.ite (hlost.trans (setSync_stickyKept x 4)) (.ite (hlost.moved rfl) hlost))
  · exact .refl s

theorem opErrorBoundExceeded_stickyKept : StickyKept s (opErrorBoundExceeded s) :=
  .ite (setSync_stickyKept s 4) (.refl s)

theorem opPpsTimeout_stickyKept : StickyKept s (opPpsTimeout s) := by
  unfold opPpsTimeout
  split
  · refine .ite ?_ (.refl s)
    have hgone : StickyKept s { s with sync.ppsAt := none, sync.ppsBad := false } := .refl s
    exact (hgone.calm (setPps_keeps _ 3 rfl rfl rfl rfl (Keeps.refl _ _))).trans (judgeSync_stickyKept _)
  · exact .refl s

/-! ## The waggle unit -/

theorem mlogPut_stickyKept (b : Bytes) : StickyKept s (mlogPut s b) := by
  have hresume : Keeps calmFoot s (mlogResume { s with wg.mlog := { s.wg.mlog with held := s.wg.mlog.held ++ [b] } }) :=
    mlogResume_keeps _ rfl rfl rfl rfl rfl rfl (Keeps.set_wg rfl (Keeps.refl _ s))
  unfold mlogPut
  dsimp only
  generalize mlogResume { s with wg.mlog := { s.wg.mlog with held := s.wg.mlog.held ++ [b] } } = x at hresume ⊢
  refine .ite (.refl s) (.ite (StickyKept.sticky ?_ 99 0) hresume.sticky)
  exact hresume.sticky.moved rfl

theorem deriveAlias_stickyKept : StickyKept s (deriveAlias s) := by
  unfold deriveAlias
  split
  · have hput : ∀ w b, StickyKept s (Machine.raiseHive (mlogPut { s with wg := w } b) 13 0) := fun w b =>
      (mlogPut_stickyKept { s with wg := w } b).raiseHive 13 0
    exact .ite (StickyKept.moved (.refl s) rfl) (hput _ _)
  · exact .refl s

theorem closeEpoch_stickyKept (lost : List Nat) : StickyKept s (closeEpoch s lost) := by
  unfold closeEpoch
  dsimp only
  have hlost : StickyKept s (if ((leafClients s).filter lost.contains).isEmpty then s else
      Machine.sticky (Machine.sticky s 68 0) 98 0) := .ite (.refl s) ((sticky_kept s 68 0).sticky 98 0)
  generalize (if ((leafClients s).filter lost.contains).isEmpty then s else
      Machine.sticky (Machine.sticky s 68 0) 98 0) = x at hlost ⊢
  have hlogs : ∀ b k e r g, StickyKept s (tenantLogs (mlogPut x b) k ((leafClients s).filter lost.contains) e r g) :=
    fun b k e r g => (hlost.trans (mlogPut_stickyKept x b)).calm
      (tenantLogs_keeps _ _ _ _ _ _ rfl rfl rfl rfl rfl rfl (Keeps.refl _ _))
  have hclear : ∀ y, StickyKept s y →
      StickyKept s (y.each (leafClients s) fun s c => s.modTenant c fun t => { t with leaves := [] }) := fun y hy =>
    hy.each _ fun z c hz => hz.moved rfl
  exact StickyKept.moved (hclear _ (hlogs _ _ _ _ _)) rfl

theorem opEpochClose_stickyKept (lost : List Nat) (n : Nat) : StickyKept s (opEpochClose lost n s) := by
  have hcount : StickyKept s (eccCount s n) := .refl s
  have hopen : ∀ x, Keeps calmFoot x (reserveMore (openEpoch x (s.wg.epoch + 1) 0 0 0 x.wg.prev)) := fun x =>
    reserveMore_keeps _ rfl (openEpoch_keeps x _ _ _ _ _ rfl (Keeps.refl _ x))
  exact .ite (.refl s) ((hcount.trans (closeEpoch_stickyKept _ lost)).calm (hopen _))

theorem opLeafAssign_stickyKept (id : Nat) : StickyKept s (opLeafAssign id s) := by
  have hclose := opEpochClose_stickyKept s [] 0
  unfold opLeafAssign
  dsimp only
  refine .ite (.refl s) (.ite (sendResult_calm s id).sticky (.ite hclose ?_))
  generalize opEpochClose [] 0 s = x at hclose ⊢
  refine StickyKept.calm (StickyKept.each _ hclose fun y k hy => ?_)
    (refreshPending_keeps _ rfl rfl rfl rfl rfl (Keeps.refl _ _))
  exact .ite (hy.calm (assignLeaf_keeps y k rfl rfl rfl rfl rfl rfl rfl rfl rfl rfl (Keeps.refl _ y))) hy

end

end Sys2Proof.Machine
end

section
/-! SUPPORT. The sticky record over the key store, the tamper sources and the reopening of debug. -/

namespace Sys2Proof.Machine

open Host

section

variable (s : State)

/-! ## The ladder and the end of a zeroisation -/

theorem deriveLadder_stickyKept : StickyKept s (deriveLadder s) := by
  unfold deriveLadder
  split
  · refine .ite (.refl s) ?_
    exact Keeps.sticky (deriveRoot_keeps _ _ _ rfl (Keeps.set_ks rfl (Keeps.refl _ s)))
  · refine StickyKept.sticky ?_ 88 0
    exact StickyKept.moved (.refl s) rfl
  · exact .refl s

theorem deriveAllNodes_calm : Keeps calmFoot s (deriveAllNodes s) := deriveAllNodes_keeps s rfl (Keeps.refl _ s)

theorem drawScramble_calm : Keeps calmFoot s (drawScramble s) := drawScramble_keeps s rfl rfl (Keeps.refl _ s)

/-- The test root is active, and the substitution over. -/
def rootSwitched (s : State) : State :=
  { s with ks.testRoot := true, lc.debugOpen := true, lc.subst := none, lc.substDue := false }

theorem openDebug_eq : openDebug s = openGenesis (deriveAlias (Machine.sticky (Machine.raiseHive
    { deriveAllNodes (deriveLadder (rootSwitched s)) with
      lc := { (deriveAllNodes (deriveLadder (rootSwitched s))).lc with dbgState := 3 } } 4 0) 101 0)) := rfl

theorem openDebug_stickyKept : StickyKept s (openDebug s) := by
  have hswitched : StickyKept s (rootSwitched s) := .refl s
  have hladder := (hswitched.trans (deriveLadder_stickyKept _)).calm (deriveAllNodes_calm _)
  rw [openDebug_eq]
  generalize deriveAllNodes (deriveLadder (rootSwitched s)) = x at hladder ⊢
  have hraised : Keeps calmFoot x (Machine.raiseHive { x with lc := { x.lc with dbgState := 3 } } 4 0) :=
    raiseHive_keeps _ _ _ rfl rfl rfl (Keeps.set_lc rfl (Keeps.refl _ x))
  exact (((hladder.calm hraised).sticky 101 0).trans (deriveAlias_stickyKept _)).calm
    (openGenesis_keeps _ rfl rfl (Keeps.refl _ _))

theorem poolCleared_stickyKept : StickyKept s (poolCleared s) :=
  .trans (stick_stickyKept s 89) (.of_eq (congrArg (·.sticky) (poolCleared_aon s)))

theorem opZeroisationStep5Done_stickyKept : StickyKept s (opZeroisationStep5Done s) := by
  have hpool := poolCleared_stickyKept s
  have hdrbg : Keeps calmFoot (poolCleared s) ((poolCleared s).each (List.range combCount) drbgInit) :=
    Keeps.each _ _ (fun x c hx => drbgInit_keeps x c rfl rfl hx) (Keeps.refl _ _)
  unfold opZeroisationStep5Done
  split
  · exact .refl s
  next t _ =>
    refine .ite (.refl s) ?_
    cases t with
    | tamper => exact (hpool.calm hdrbg).trans (.of_eq rfl)
    | substitution =>
      exact .ite ((hpool.calm (drawScramble_calm _)).trans (openDebug_stickyKept _)) hpool
    | lifecycle => exact hpool
    | command =>
      exact .ite hpool ((((hpool.calm (drawScramble_calm _)).trans (deriveLadder_stickyKept _)).calm
        (deriveAllNodes_calm _)).trans (restoreWaiting_stickyKept _ _))

/-! ## KS_PROV -/

theorem provEnd_calm (st : Status) (det : BitVec 8) : Keeps calmFoot s (provEnd s st det) :=
  provEnd_keeps s st det rfl rfl rfl rfl (Keeps.refl _ s)

theorem provUnwrap_stickyKept (p : ProvCfg) (e : ReadEnd) (blob : Bytes) : StickyKept s (provUnwrap s p e blob) := by
  have hends : ∀ x st det, StickyKept s x → StickyKept s (provEnd x st det) := fun x st det hx => hx.calm (provEnd_calm x st det)
  have hread := keeperRead_stickyKept s 0 p.addr.toNat p.len e
  unfold provUnwrap
  refine .ite (hends _ _ _ (.refl s)) (.ite (hends _ _ _ (.refl s)) ?_)
  split
  · exact hends _ _ _ (.refl s)
  generalize keeperRead s 0 p.addr.toNat p.len e = y at hread ⊢
  obtain ⟨w, x⟩ := y
  cases provIssue s p with
  | some f => exact hends _ _ _ (.refl s)
  | none =>
    cases w with
    | waits => exact hread
    | refused => exact hends _ _ _ hread
    | denied => exact hends _ _ _ hread
    | issued =>
      dsimp only
      split
      · exact hends _ _ _ hread
      have hcount : Keeps calmFoot x (ppCount (chargeManager x .propolis (wrapCost (p.len / 8 - 1)))) :=
        ppCount_keeps _ rfl rfl (chargeManager_keeps x _ _ rfl (Keeps.refl _ x))
      generalize ppCount (chargeManager x .propolis (wrapCost (p.len / 8 - 1))) = z at hcount ⊢
      split
      · exact hends _ _ _ (hread.calm hcount)
      · split
        · exact hends _ _ _ (hread.calm hcount)
        · exact hends _ _ _ ((hread.calm hcount).calm (provCreate_keeps z p _ rfl rfl rfl (Keeps.refl _ z)))

theorem opProvDone_stickyKept (e : ReadEnd) (blob : Bytes) : StickyKept s (opProvDone e blob s) := by
  unfold opProvDone
  split
  · exact .refl s
  next p _ =>
    exact .ite (provInvalidate_keeps s p rfl rfl rfl rfl rfl rfl (Keeps.refl _ s)).sticky
      (.ite (provWrite_keeps s p rfl rfl rfl rfl rfl rfl rfl (Keeps.refl _ s)).sticky
      (.ite (provEnd_calm s _ _).sticky (.ite (.refl s)
      (.ite (provGenerate_keeps s p rfl rfl rfl rfl rfl rfl rfl rfl rfl rfl rfl rfl rfl (Keeps.refl _ s)).sticky
        (provUnwrap_stickyKept s p e blob)))))

theorem opEntropySourceHealthFail_stickyKept : StickyKept s (opEntropySourceHealthFail s) := by
  refine StickyKept.sticky ?_ 75 0
  exact StickyKept.moved (.refl s) rfl

/-! ## The tamper sources -/

theorem wake_calm (n : Nat) : Keeps calmFoot s (wake s n) := wake_keeps s n rfl (Keeps.refl _ s)

theorem tamperResponse_stickyKept : StickyKept s (tamperResponse s) := by
  have hnoted : StickyKept s (tamperNoted s) := .of_eq rfl
  have hstart : StickyKept s (tamperStart (tamperNoted s)) := hnoted.trans (.ite (.refl _) (.moved (.refl _) rfl))
  have hwake : ∀ x, StickyKept x (tamperWake x) := fun x => .ite (.moved (.refl x) rfl) (wake_calm x 5).sticky
  have hbegun : StickyKept s (tamperBegun s) := ((hstart.sticky 87 0).trans (hwake _)).calm
    (endReopening_keeps _ rfl rfl rfl rfl (Keeps.refl _ _))
  rw [tamperResponse_eq]
  exact hbegun.calm (zeroRest_keeps _ rfl rfl rfl rfl rfl rfl rfl rfl rfl rfl rfl rfl rfl rfl rfl
    (zeroMark_keeps _ _ _ rfl rfl (Keeps.refl _ _)))

theorem trip_stickyKept (src : Nat) : StickyKept s (trip s src) := by
  have hlatch : StickyKept s { s with aon.latch := s.aon.latch ||| (1#7 <<< src) } := .of_eq rfl
  have hnoted : StickyKept s (tripNoted s src) := hlatch.sticky _ _
  rw [trip_eq]
  exact .ite (hnoted.trans (tamperResponse_stickyKept _)) hnoted

theorem opTamperInTrip_stickyKept (n : Nat) (high : Bool) : StickyKept s (opTamperInTrip n high s) := by
  have hins : StickyKept s { s with aon.ins := setBit s.aon.ins n high } := .of_eq rfl
  exact .ite (.refl s) (.ite (hins.trans (trip_stickyKept _ n)) hins)

theorem noteRails_stickyKept : StickyKept s (noteRails s) := .ite (.of_eq rfl) (.refl s)

theorem opVoltageTrip_stickyKept (d : Nat) (r : Supply) : StickyKept s (opVoltageTrip d r s) := by
  have hread : ∀ a : Aon, a.sticky = s.aon.sticky → ∀ l, StickyKept s (({ s with aon := a } : State).each l trip) :=
    fun a ha l => StickyKept.each l (.of_eq ha) fun x src hx => hx.trans (trip_stickyKept x src)
  unfold opVoltageTrip
  dsimp only
  refine StickyKept.trans (.ite ((hread _ ?_ _).trans (trip_stickyKept _ 4)) (hread _ ?_ _)) (noteRails_stickyKept _)
  all_goals rfl

theorem opPllLockLoss_stickyKept : StickyKept s (opPllLockLoss s) := by
  have hlost : ∀ h u, StickyKept s { s with hv := h, aon.unlock := u } := fun _ _ => .of_eq rfl
  exact .ite (.refl s) ((((hlost _ _).sticky 92 0).calm (wake_calm _ 8)).trans (trip_stickyKept _ 5))

theorem opRefclkFrequencyTrip_stickyKept (b : Bool) : StickyKept s (opRefclkFrequencyTrip b s) := by
  have hread : StickyKept s { s with aon.refOut := b } := .of_eq rfl
  exact .ite (hread.trans (trip_stickyKept _ 5)) hread

theorem opTemperatureTrip_stickyKept (b : Bool) : StickyKept s (opTemperatureTrip b s) := by
  have hread : StickyKept s { s with aon.hot := b } := .of_eq rfl
  exact .ite (hread.trans (trip_stickyKept _ 6)) hread

theorem opTpLatchClear_stickyKept (m : BitVec 7) : StickyKept s (opTpLatchClear m s) := .ite (.of_eq rfl) (.refl s)

/-! ## Debug -/

theorem setDbg_calm (st : Nat) : Keeps calmFoot s (setDbg s st) := setDbg_keeps s st rfl rfl rfl rfl (Keeps.refl _ s)

theorem grantDebug_stickyKept : StickyKept s (grantDebug s) := by
  have hclosed : StickyKept s (if s.wg.isOpen && s.wg.signer then closeEpoch s [] else s) :=
    .ite (closeEpoch_stickyKept s []) (.refl s)
  exact hclosed.moved rfl

theorem debugVerdict_stickyKept (ok : Bool) : StickyKept s (debugVerdict s ok) := by
  have hset : ∀ l : Lc, StickyKept s { s with lc := l } := fun _ => .refl s
  unfold debugVerdict
  exact .ite (StickyKept.sticky ((hset _).calm (setDbg_calm _ 4)) 102 0)
    (.ite ((hset _).calm (setDbg_calm _ 3)) ((hset _).trans (grantDebug_stickyKept _)))

theorem readResponse_stickyKept (e : ReadEnd) : StickyKept s (readResponse s e).2 := by
  unfold readResponse
  split
  · exact keeperRead_stickyKept s _ _ _ e
  · exact .refl s

theorem opDebugAuthVerifyDone_stickyKept (e : ReadEnd) (b : Bytes) : StickyKept s (opDebugAuthVerifyDone e b s) := by
  have hread := readResponse_stickyKept s e
  unfold opDebugAuthVerifyDone
  refine .ite (.refl s) ?_
  generalize readResponse s e = y at hread ⊢
  obtain ⟨w, x⟩ := y
  cases w with
  | waits => exact hread
  | issued => exact hread.trans (debugVerdict_stickyKept x _)
  | refused => exact hread.trans (debugVerdict_stickyKept x _)
  | denied => exact hread.trans (debugVerdict_stickyKept x _)

end

end Sys2Proof.Machine
end

section
/-! SUPPORT. The sticky record over the peers, mail, events, updates and starts. -/

namespace Sys2Proof.Machine

open Host

section

variable (s : State)

/-! ## Peers -/

theorem modPacket_calm (k : Nat) (f : Packet → Packet) : Keeps calmFoot s (modPacket s k f) :=
  modPacket_keeps s k f rfl (Keeps.refl _ s)

theorem closePacket_calm (n k : Nat) (m : PktMark) : Keeps calmFoot s (closePacket s n k m) :=
  closePacket_keeps s n k m rfl (Keeps.refl _ s)

theorem storeWord_calm (k : Nat) (w : PeerWord) (bad : Bool) : Keeps calmFoot s (storeWord s k w bad) :=
  storeWord_keeps s k w bad rfl (Keeps.refl _ s)

theorem xoffEdge_calm : Keeps calmFoot s (xoffEdge s) := xoffEdge_keeps s rfl (Keeps.refl _ s)

theorem countOverrun_stickyKept : StickyKept s (countOverrun s) := by
  refine StickyKept.sticky ?_ 91 0
  exact StickyKept.moved (.refl s) rfl

theorem startPacket_stickyKept (w : PeerWord) (bad : Bool) : StickyKept s (startPacket s w bad) := by
  unfold startPacket
  extract_lets n p x pi y framed pf k q h absent pk opened stored
  have hx : StickyKept s x := by
    dsimp only [x]
    split
    · exact (closePacket_calm s n _ _).sticky
    · exact .refl s
  have hy : StickyKept s y := hx.moved rfl
  have hopened : StickyKept s opened := hy.moved rfl
  have hstored : StickyKept s stored := hopened.calm (storeWord_calm opened k w bad)
  exact .ite (.ite (hy.moved rfl) (hy.moved rfl)) (.ite (hy.trans (countOverrun_stickyKept y))
    (.ite (hstored.calm (closePacket_calm stored n k _)) hstored))

theorem nextWord_stickyKept (w : PeerWord) (bad : Bool) : StickyKept s (nextWord s w bad) := by
  unfold nextWord
  dsimp only
  refine .ite (.ite (.moved (.refl s) rfl) (.refl s)) ?_
  split
  · exact .moved (.refl s) rfl
  next k _ =>
    have hword : ∀ f g, StickyKept s (if 16384 ≤ (tblGet {} s.peer.packets k).words.length then modPacket s k f
        else if 131072 ≤ storeUsed s then modPacket (countOverrun s) k g else storeWord s k w bad) := fun f g =>
      .ite (modPacket_calm s k f).sticky (.ite ((countOverrun_stickyKept s).calm (modPacket_calm _ k g))
        (storeWord_calm s k w bad).sticky)
    exact .ite ((hword _ _).calm (closePacket_calm _ _ k _)) (hword _ _)

theorem opPeerWordWrite_stickyKept (w : PeerWord) : StickyKept s (opPeerWordWrite w s) := by
  unfold opPeerWordWrite
  extract_lets p pi x pj y
  have hx : StickyKept s x := .ite (.moved (.refl s) rfl) (.refl s)
  clear_value x
  have hy : StickyKept s y := .ite (hx.moved rfl) hx
  exact .ite (.refl s) (StickyKept.calm (.ite (hy.trans (startPacket_stickyKept y w _)) (hy.trans (nextWord_stickyKept y w _)))
    (xoffEdge_calm _))

theorem poisonWords_stickyKept (k : Nat) (l : List Nat) : StickyKept s (poisonWords s k l) :=
  .ite (modPacket_calm s k _).sticky ((modPacket_calm s k _).sticky.sticky 72 0)

theorem opPacketRead_stickyKept (l : List Nat) (n : Nat) : StickyKept s (opPacketRead l n s) := by
  unfold opPacketRead
  split
  · exact .refl s
  next k _ =>
    have hcount : StickyKept s (eccCount s n) := .refl s
    have hread := hcount.trans (poisonWords_stickyKept _ k l)
    dsimp only
    generalize poisonWords (eccCount s n) k l = x at hread ⊢
    refine StickyKept.calm ?_ (xoffEdge_calm _)
    split
    · exact hread.calm (rejectPacket_keeps x k _ _ rfl (Keeps.refl _ x))
    · exact hread.calm (acceptPacket_keeps x k _ _ _ rfl rfl rfl (Keeps.refl _ x))

/-! ## Mail, events, updates -/

theorem modMail_calm (c : Nat) (f : Mbox → Mbox) : Keeps calmFoot s (modMail s c f) := modMail_keeps s c f rfl (Keeps.refl _ s)

theorem refuseMail_calm (c : Nat) (w : W32) (r : Nat) : Keeps calmFoot s (refuseMail s c w r) :=
  refuseMail_keeps s c w r rfl (Keeps.refl _ s)

theorem readBody_stickyKept (c : Nat) (e : ReadEnd) (b : Bytes) : StickyKept s (readBody s c e b) := by
  unfold readBody
  split
  · exact .refl s
  next r _ =>
    have hread := keeperRead_stickyKept s c r.addr.toNat r.len e
    have hrefuse : ∀ n, StickyKept s (refuseMail s c r.word n) := fun n => (refuseMail_calm s c r.word n).sticky
    dsimp only
    refine .ite (.refl s) (.ite (hrefuse 1) (.ite (hrefuse 3) (.ite (modMail_calm s c _).sticky ?_)))
    generalize keeperRead s c r.addr.toNat r.len e = y at hread ⊢
    obtain ⟨w, x⟩ := y
    cases w with
    | waits => exact hread
    | issued => exact .ite (hread.calm (modMail_calm x c _)) (hread.calm (refuseMail_calm x c _ _))
    | refused => exact hread.calm (refuseMail_calm x c _ _)
    | denied => exact hread.calm (refuseMail_calm x c _ _)

theorem opH2kKeeperRead_stickyKept (c : Nat) (e : ReadEnd) (b : Bytes) : StickyKept s (opH2kKeeperRead c e b s) := by
  unfold opH2kKeeperRead
  dsimp only
  refine .ite (.refl s) (.ite (readBody_stickyKept s c e b) ?_)
  have htaken : ∀ f, Keeps calmFoot s (if (s.tenant c).mb.h2kIe then signalVec (modMail s c f) c (s.tenant c).mb.vec
      else modMail s c f) := fun f =>
    .ite (signalVec_keeps _ c _ rfl rfl (modMail_calm s c f)) (modMail_calm s c f)
  exact .ite ((htaken _).trans (modMail_calm _ c _)).sticky
    (((htaken _).trans (modMail_calm _ c _)).sticky.trans (readBody_stickyKept _ c e b))

theorem opEventRecordWrite_stickyKept (src : Nat) : StickyKept s (opEventRecordWrite src s) := by
  have hmode : ∀ e : Ev, StickyKept s (Machine.sticky { s with ev := e } 104 0) := fun e => sticky_kept { s with ev := e } 104 0
  unfold opEventRecordWrite
  exact .ite (.refl s) (.ite (evReplay_keeps s 513 rfl rfl rfl rfl rfl rfl (Keeps.refl _ s)).sticky
    (.ite (hmode _) (evWrite_keeps s src rfl rfl rfl rfl rfl rfl (Keeps.refl _ s)).sticky))

theorem opCfUpdCommit_stickyKept : StickyKept s (opCfUpdCommit s) := by
  have htake : ∀ c : Store, StickyKept s (updTake { s with store := c }) := fun c => updTake_stickyKept { s with store := c }
  exact .ite (.refl s) (htake _)

theorem updRead_stickyKept (e : ReadEnd) {k : State → State} (hk : ∀ x, StickyKept x (k x)) :
    StickyKept s (updRead s e k) := by
  have hread := keeperRead_stickyKept s 0 s.store.updRunAddr.toNat s.store.updRunLen e
  unfold updRead
  refine .ite (updEnd_stickyKept s 10) ?_
  generalize keeperRead s 0 s.store.updRunAddr.toNat s.store.updRunLen e = y at hread ⊢
  obtain ⟨w, x⟩ := y
  cases w with
  | waits => exact hread
  | issued => exact .ite (hread.trans (hk x)) (hread.trans (updEnd_stickyKept x 2))
  | refused => exact hread.trans (updEnd_stickyKept x 2)
  | denied => exact hread.trans (updEnd_stickyKept x 2)

theorem setInactive_stickyKept (b : Bytes) : StickyKept s (setInactive s b) := .ite (.refl s) (.refl s)

theorem opUpdatePhaseDone_stickyKept (e : ReadEnd) (b : Bytes) : StickyKept s (opUpdatePhaseDone e b s) := by
  have hone : ∀ b x, StickyKept x (updPhase1 b x) := fun b x => .ite (updEnd_stickyKept x _) (.refl x)
  have hthree : ∀ b x, StickyKept x (updPhase3 b x) := fun b x =>
    .ite (updEnd_stickyKept x 8) ((setInactive_stickyKept x _).moved rfl)
  have hends : ∀ b r, StickyKept s (updEnd (setInactive s b) r) := fun b r =>
    (setInactive_stickyKept s b).trans (updEnd_stickyKept _ r)
  unfold opUpdatePhaseDone
  dsimp only
  exact .ite (.refl s) (.ite (updRead_stickyKept s e (hone _))
    (.ite (.ite ((setInactive_stickyKept s []).moved rfl) (hends _ _))
      (.ite (updRead_stickyKept s e (hthree _)) (.ite (hends _ _) (hends _ _)))))

theorem opUpdateKeeperTimeout_stickyKept : StickyKept s (opUpdateKeeperTimeout s) := .ite (updEnd_stickyKept s 11) (.refl s)

theorem updRestart_stickyKept : StickyKept s (updRestart s) :=
  .ite ((setInactive_stickyKept s []).trans (updEnd_stickyKept _ 10)) (.refl s)

/-! ## The keeper -/

theorem admCommit_stickyKept : StickyKept s (admCommit s) := by
  have htake : ∀ a : Adm, StickyKept s (admTake { s with adm := a }) := fun a => admTake_stickyKept { s with adm := a }
  exact .ite (.refl s) (htake _)

theorem keeperRestart_stickyKept (ok : Bool) : StickyKept s (keeperRestart s ok) := by
  have hdoe : StickyKept s (restartDoe s) := .refl s
  have hupd := hdoe.trans (updRestart_stickyKept _)
  unfold keeperRestart
  dsimp only
  generalize updRestart (restartDoe s) = x at hupd ⊢
  have hmail : ∀ r l, Keeps calmFoot x (State.each { x with hv.ram := r } l restartMail) := fun r l =>
    Keeps.each _ _ (fun y c hy => restartMail_keeps y c rfl hy)
      (Keeps.set_hv rfl (Keeps.refl _ x) (fun h => h) (fun h => h))
  have hdown : ∀ h : Hv, StickyKept x (Machine.sticky { x with hv := h } 94 0) := fun h => sticky_kept { x with hv := h } 94 0
  exact .ite ((hupd.calm (hmail _ _)).trans (keeperBack_stickyKept _)) (hupd.trans (hdown _))

theorem opKeeperRestart_stickyKept (e ok : Bool) : StickyKept s (opKeeperRestart e ok s) := by
  have herr : StickyKept s (if e then Machine.sticky (Machine.sticky s 69 0) 93 0 else s) :=
    .ite ((sticky_kept s 69 0).sticky 93 0) (.refl s)
  exact .ite (.refl s) (.ite (.moved (.refl s) rfl) (herr.trans (keeperRestart_stickyKept _ ok)))

theorem opKeeperWatchdogExpiry_stickyKept (ok : Bool) : StickyKept s (opKeeperWatchdogExpiry ok s) :=
  .ite (.refl s) ((sticky_kept s 93 0).trans (keeperRestart_stickyKept _ ok))

theorem opDebugKeeperHalt_stickyKept (c : DbgCmd) : StickyKept s (opDebugKeeperHalt c s) := by
  have hback : ∀ h : Hv, StickyKept s (keeperBack { s with hv := h }) := fun h => keeperBack_stickyKept { s with hv := h }
  have hset : ∀ h : Hv, StickyKept s { s with hv := h } := fun _ => .refl s
  refine .ite (.refl s) ?_
  cases c with
  | halt => exact hset _
  | run => exact hback _
  | step => exact .refl s
  | ramRead a => exact .ite (.refl s) (.moved (.refl s) rfl)
  | ramWrite a b => exact .ite (hset _) (.refl s)
  | scan => exact .ite (hset _) (.refl s)
  | memTest => exact .ite (hset _) (.refl s)
  | token k v => exact .ite (.moved (.refl s) rfl) (.refl s)

/-! ## Starts -/

theorem restart_stickyKept : StickyKept s (restart s true) := by
  have hcut : Keeps calmFoot s (cutOtp s) := cutOtp_keeps s rfl rfl (Keeps.refl _ s)
  exact hcut.sticky.trans (.of_eq rfl)

theorem opHiveRstNAssert_stickyKept : StickyKept s (opHiveRstNAssert s) := by
  have hfinish : Keeps calmFoot s (finishBegun s) := finishBegun_keeps s rfl rfl rfl rfl (Keeps.refl _ s)
  have hheld : ∀ h : Hv, StickyKept s (restart { finishBegun s with hv := h } true) := fun h =>
    (hfinish.sticky.moved rfl).trans (restart_stickyKept { finishBegun s with hv := h })
  exact .ite (.refl s) (.ite (.moved (.refl s) rfl) (hheld _))

theorem releaseReset_stickyKept : StickyKept s (releaseReset s) := by
  have hset : StickyKept s { s with hv.rstHeld := false } := .refl s
  exact .ite hset (hset.trans (restart_stickyKept _))

theorem opWarmReset_stickyKept (c : WarmCause) : StickyKept s (opWarmReset c s) := by
  cases c with
  | hiveRst => exact (opHiveRstNAssert_stickyKept s).trans (releaseReset_stickyKept _)
  | hvReset => exact .ite (restart_stickyKept s) (.refl s)
  | endpoint => exact .ite (.refl s) (restart_stickyKept s)

theorem opLcTransitionOtpDone_stickyKept : StickyKept s (opLcTransitionOtpDone s) := by
  have hend : ∀ o, Keeps calmFoot s (lcEnd { s with otp := o } 0) := fun o =>
    lcEnd_keeps _ _ rfl rfl rfl rfl (Keeps.set_otp rfl (Keeps.refl _ s))
  unfold opLcTransitionOtpDone
  split
  · exact .refl s
  · exact .ite (.refl s) ((hend _).sticky.trans (restart_stickyKept _))

theorem resumeTransition_stickyKept : StickyKept s (resumeTransition s) := by
  unfold resumeTransition
  extract_lets n e
  refine .ite (.refl s) ?_
  split
  · exact .refl s
  next t _ =>
    extract_lets x y
    have hx : StickyKept s x := .ite (eraseKeyRecs_keeps s rfl rfl (Keeps.refl calmFoot s)).sticky (.refl s)
    have hy : StickyKept s y := .ite (hx.sticky 89 0) hx
    have hdone : ∀ u : State, StickyKept s u → ∀ o l, StickyKept s (Machine.sticky { u with otp := o, lc := l } 100 0) :=
      fun u hu o l => StickyKept.sticky (s := { u with otp := o, lc := l }) (hu.moved rfl) 100 0
    exact .ite (hdone s (.refl s) _ _) (hdone y hy _ _)

theorem sampleTamper_stickyKept (ins : BitVec 4) : StickyKept s (sampleTamper s ins) := by
  have hread : ∀ k i, StickyKept s { s with aon.tampered := k, hv.tampered := k, aon.ins := i } := fun _ _ => .of_eq rfl
  exact StickyKept.each _ (hread _ _) fun x src hx => hx.trans (trip_stickyKept x src)

theorem step1_stickyKept (ins : BitVec 4) (bad : Bool) : StickyKept s (step1 s ins bad) := by
  have hsample := sampleTamper_stickyKept s ins
  have hresume := (resumeTransition_stickyKept s).trans (sampleTamper_stickyKept _ ins)
  unfold step1
  exact .ite (hsample.moved rfl) (.ite (hresume.moved rfl) (hresume.moved rfl))

theorem step3_stickyKept : StickyKept s (step3 s) := by
  unfold step3
  extract_lets h x k
  have hx : StickyKept s x := StickyKept.calm (s := { s with hv := { h with keeperUp := true, step := 4 } }) (.refl s)
    (seedPropolis_keeps _ rfl rfl (drawScramble_keeps _ rfl rfl (Keeps.refl _ _)))
  have hbase : ∀ k : Ks, StickyKept s (Machine.sticky { x with ks := k } 89 0) := fun k =>
    StickyKept.sticky (s := { x with ks := k }) (hx.moved rfl) 89 0
  exact .ite (hbase _) hx

theorem enterRecovery_stickyKept (f : BitVec 8) : StickyKept s (enterRecovery s f) := by
  refine StickyKept.sticky ?_ 95 0
  exact .moved (.refl s) rfl

theorem step4_stickyKept (e : Ecc) : StickyKept s (step4 s e) := by
  unfold step4
  extract_lets x y h st
  have hx : StickyKept s x := .ite (eccCorrected_calm s none).sticky (.refl s)
  have hy : StickyKept s y := .ite (hx.sticky 69 0) hx
  refine .ite (hy.moved rfl) ?_
  split
  extract_lets z
  have hz : StickyKept s z := hy.moved rfl
  have hrecover : ∀ u, StickyKept s u → ∀ f, StickyKept s (enterRecovery u f) := fun u hu f =>
    hu.trans (enterRecovery_stickyKept u f)
  split
  · exact hrecover z hz _
  · extract_lets b u
    have hu : StickyKept s u := hz.moved rfl
    exact .ite (hrecover u hu 4) (hu.moved rfl)

theorem makeRoot_calm : Keeps calmFoot s (makeRoot s) := makeRoot_keeps s rfl rfl (Keeps.refl _ s)

theorem step5_stickyKept (bad : Bool) : StickyKept s (step5 s bad) := by
  unfold step5
  extract_lets h x k
  have hx : StickyKept s x := .refl s
  have hfail : ∀ k : Ks, StickyKept s (Machine.sticky { x with ks := k } 88 0) := fun k =>
    StickyKept.sticky (s := { x with ks := k }) (hx.moved rfl) 88 0
  exact .ite (hx.moved rfl) (.ite (hfail _) ((hx.calm (makeRoot_calm x)).trans (deriveLadder_stickyKept _)))

theorem countDamaged_stickyKept : StickyKept s (countDamaged s) := by
  refine StickyKept.sticky ?_ 90 0
  exact .moved (.refl s) rfl

theorem scanEpoch_stickyKept (c : Nat) : StickyKept s (scanEpoch s c) := by
  unfold scanEpoch
  extract_lets id l top e x
  have hx : StickyKept s x := (countDamaged_stickyKept s).calm (writeRec_keeps _ _ _ rfl (Keeps.refl _ _))
  refine .ite (StickyKept.moved (StickyKept.each l hx fun y i hy =>
    hy.calm (eraseRec_keeps y i rfl (Keeps.refl _ y))) rfl) ?_
  split
  · exact .moved (.refl s) rfl
  · exact .refl s

theorem step6_stickyKept : StickyKept s (step6 s) := by
  unfold step6
  extract_lets bad x y anchor eres
  have hx : StickyKept s x := StickyKept.each _ (.refl s) fun u _ hu => hu.trans (countDamaged_stickyKept u)
  have hy : StickyKept s y := StickyKept.each _ hx fun u id hu => hu.trans (scanEpoch_stickyKept u _)
  exact hy.moved rfl

theorem step8_stickyKept : StickyKept s (step8 s) := by
  unfold step8
  extract_lets x h
  have hx : StickyKept s x := .ite (.refl s)
    ((createTenant_stickyKept s _).calm (modWin_keeps _ _ _ rfl (Keeps.refl _ _)))
  exact hx.moved rfl

theorem step9_stickyKept : StickyKept s (step9 s) := by
  unfold step9
  extract_lets x
  have hx : StickyKept s x := StickyKept.calm (.ite (.refl s) (deriveAlias_stickyKept s))
    (firstEpoch_keeps _ rfl rfl (Keeps.refl _ _))
  exact .ite (hx.moved rfl) (hx.moved rfl)

theorem opStartupStepDone_stickyKept (ins : BitVec 4) (e : Ecc) : StickyKept s (opStartupStepDone ins e s) := by
  unfold opStartupStepDone
  refine .ite (.refl s) ?_
  split
  · exact .ite (step1_stickyKept s ins _) (.refl s)
  · exact (step2_keeps s rfl rfl rfl rfl rfl rfl rfl rfl rfl rfl rfl rfl rfl rfl rfl rfl rfl (Keeps.refl calmFoot s)).sticky
  · exact step3_stickyKept s
  · exact step4_stickyKept s e
  · exact step5_stickyKept s _
  · exact step6_stickyKept s
  · exact (step7_keeps s rfl rfl rfl rfl rfl rfl rfl rfl rfl (Keeps.refl calmFoot s)).sticky
  · exact step8_stickyKept s
  · exact step9_stickyKept s
  · exact (step10_keeps s rfl rfl rfl rfl (Keeps.refl calmFoot s)).sticky
  · exact .refl s

theorem opPllLockTimeout_stickyKept : StickyKept s (opPllLockTimeout s) := by
  have hfail : ∀ h : Hv, StickyKept s (Machine.sticky { s with hv := h } 95 0) := fun h => sticky_kept { s with hv := h } 95 0
  exact .ite (hfail _) (.refl s)

end

end Sys2Proof.Machine
end

section
/-! SUPPORT. The sticky record over every command that may not clear it. -/

namespace Sys2Proof.Machine

open Host

section

variable {s t u : State}

theorem StickyKept.onClock {on : Bool} {k : State → State} (hk : StickyKept s (k s)) : StickyKept s (onClock on s k) :=
  .ite hk (.refl s)

theorem StickyKept.whenClocked {i : Instr} {k : State → State} (hk : StickyKept s (k s)) :
    StickyKept s (whenClocked i s k) :=
  .ite (.refl s) hk

/-- A command that wakes a sleeping Hive acts on what the wake leaves. -/
theorem StickyKept.waking {k : State → State} (n : Nat) (hk : ∀ x, StickyKept x (k x)) : StickyKept s (k (wake s n)) :=
  (wake_calm s n).sticky.trans (hk _)

theorem StickyKept.settle (h : StickyKept s t) (hpwr : s.hv.pwr = 0) : StickyKept s (settle s t) := by
  rwa [settle_of_awake hpwr]

/-- The state that a command answers, as the model writes it, is the next one. -/
theorem StickyKept.exec {c : Instr} (h : exec c s = .next t) (u : State) (he : exec c s = .next u) (hk : StickyKept s u) :
    StickyKept s t :=
  Host.Outcome.next.inj (he.symm.trans h) ▸ hk

theorem tamperSource_stickyKept {c : Instr} (hc : TamperSource c) (hpwr : s.hv.pwr = 0) (h : exec c s = .next t) :
    StickyKept s t := by
  rcases hc with ⟨n, high, rfl⟩ | ⟨d, r, rfl⟩ | rfl | ⟨b, rfl⟩ | ⟨b, rfl⟩
  · exact .exec h _ rfl ((opTamperInTrip_stickyKept s n high).settle hpwr)
  · exact .exec h _ rfl ((opVoltageTrip_stickyKept s d.val r).settle hpwr)
  · exact .exec h _ rfl ((opPllLockLoss_stickyKept s).settle hpwr)
  · exact .exec h _ rfl ((opRefclkFrequencyTrip_stickyKept s b).settle hpwr)
  · exact .exec h _ rfl ((opTemperatureTrip_stickyKept s b).settle hpwr)

end

theorem exec_stickyKept {c : Instr} {s t : State} (h : exec c s = .next t) (hc : ¬ ClearsSticky s c) : StickyKept s t := by
  by_cases haon : (footOf c).aon = false
  · exact .of_eq (congrArg Aon.sticky ((exec_keeps_of_next h).aon_eq haon))
  have hsource : TamperSource c → StickyKept s t := fun hs =>
    tamperSource_stickyKept hs (by_contra fun hpwr => hc (.inl ⟨hs, hpwr⟩)) h
  cases c with
  | coldPowerOn => exact absurd (.inr (.inl rfl)) hc
  | wakeDone => exact absurd (.inr (.inr (.inl rfl))) hc
  | pllRelockRetry l => exact absurd (.inr (.inr (.inr (.inl ⟨l, rfl⟩)))) hc
  | stickyClear i m => exact absurd (.inr (.inr (.inr (.inr (.inl ⟨i, m, rfl⟩))))) hc
  | clearSticky i m => exact absurd (.inr (.inr (.inr (.inr (.inr (.inl ⟨i, m, rfl⟩)))))) hc
  | registerWrite w a n d => exact absurd (.inr (.inr (.inr (.inr (.inr (.inr ⟨w, a, n, d, rfl⟩)))))) hc
  | tamperInTrip n high => exact hsource (.inl ⟨n, high, rfl⟩)
  | voltageTrip d r => exact hsource (.inr (.inl ⟨d, r, rfl⟩))
  | pllLockLoss => exact hsource (.inr (.inr (.inl rfl)))
  | refclkFrequencyTrip b => exact hsource (.inr (.inr (.inr (.inl ⟨b, rfl⟩))))
  | temperatureTrip b => exact hsource (.inr (.inr (.inr (.inr ⟨b, rfl⟩))))
  | warmReset cause => exact .exec h _ rfl (opWarmReset_stickyKept s cause)
  | hiveRstNAssert => exact .exec h _ rfl (opHiveRstNAssert_stickyKept s)
  | startupStepDone ins e => exact .exec h _ rfl (.ite (.refl s) (opStartupStepDone_stickyKept s ins e))
  | pllLockTimeout => exact .exec h _ rfl (opPllLockTimeout_stickyKept s)
  | keeperRestart e ok =>
    exact .exec h _ rfl (.ite (.onClock (opKeeperRestart_stickyKept s e ok))
      (.whenClocked (.waking 1 fun x => opKeeperRestart_stickyKept x e ok)))
  | keeperWatchdogExpiry ok => exact .exec h _ rfl (.onClock (opKeeperWatchdogExpiry_stickyKept s ok))
  | descriptorFetchDone c q e => exact .exec h _ rfl (opDescriptorFetchDone_stickyKept s c q e)
  | keyPull id e => exact .exec h _ rfl (opKeyPull_stickyKept s id e)
  | readCompletion tag st d => exact .exec h _ rfl (.whenClocked (opReadCompletion_stickyKept s tag st d))
  | completionTimeout tag => exact .exec h _ rfl (.onClock (opCompletionTimeout_stickyKept s tag))
  | jobEnd id ov e => exact .exec h _ rfl (opJobEnd_stickyKept s id ov e)
  | leafAssign id => exact .exec h _ rfl (opLeafAssign_stickyKept s id)
  | rsaPriv id f => exact .exec h _ rfl (opRsaPriv_stickyKept s id f)
  | ecdsaSign id f => exact .exec h _ rfl (opEcdsaSign_stickyKept s id f)
  | eddsaSign id f => exact .exec h _ rfl (opEddsaSign_stickyKept s id f)
  | ecdh id f => exact .exec h _ rfl (opEcdh_stickyKept s id f)
  | xdh id f => exact .exec h _ rfl (opXdh_stickyKept s id f)
  | ecPointMulRaw id f => exact .exec h _ rfl (opEcPointMulRaw_stickyKept s id f)
  | keyAgreeToSlot id f => exact .exec h _ rfl (opKeyAgreeToSlot_stickyKept s id f)
  | zeroisationStep5Done => exact .exec h _ rfl (.onClock (opZeroisationStep5Done_stickyKept s))
  | provDone r b => exact .exec h _ rfl (.onClock (opProvDone_stickyKept s r b))
  | todWord w => exact .exec h _ rfl (opTodWord_stickyKept s w)
  | todLost => exact .exec h _ rfl (opTodLost_stickyKept s)
  | errorBoundExceeded => exact .exec h _ rfl (opErrorBoundExceeded_stickyKept s)
  | ppsTimeout => exact .exec h _ rfl (opPpsTimeout_stickyKept s)
  | epochClose l c => exact .exec h _ rfl (opEpochClose_stickyKept s l c)
  | peerWordWrite w =>
    exact .exec h _ rfl (.ite (.refl s) (.whenClocked (.waking 2 fun x => opPeerWordWrite_stickyKept x w)))
  | packetRead e n => exact .exec h _ rfl (opPacketRead_stickyKept s e n)
  | tnAdmCreate => exact .exec h _ rfl (.whenClocked (.waking 1 fun x => .ite (admCommit_stickyKept x) (.refl x)))
  | tnAdmResize => exact .exec h _ rfl (.whenClocked (.waking 1 fun x => .ite (admCommit_stickyKept x) (.refl x)))
  | tnAdmDestroy => exact .exec h _ rfl (.whenClocked (.waking 1 fun x => .ite (admCommit_stickyKept x) (.refl x)))
  | tnAdmOp0 => exact .exec h _ rfl (.whenClocked (.waking 1 fun x => .ite (admCommit_stickyKept x) (.refl x)))
  | h2kKeeperRead c r b => exact .exec h _ rfl (opH2kKeeperRead_stickyKept s c r b)
  | eventRecordWrite src => exact .exec h _ rfl (.onClock (opEventRecordWrite_stickyKept s src))
  | tpLatchClear m => exact .exec h _ rfl (.whenClocked (.waking 1 fun x => opTpLatchClear_stickyKept x m))
  | lcTransitionOtpDone => exact .exec h _ rfl (opLcTransitionOtpDone_stickyKept s)
  | debugAuthVerifyDone r b => exact .exec h _ rfl (opDebugAuthVerifyDone_stickyKept s r b)
  | cfUpdCommit => exact .exec h _ rfl (.whenClocked (.waking 1 opCfUpdCommit_stickyKept))
  | updatePhaseDone r b => exact .exec h _ rfl (.onClock (opUpdatePhaseDone_stickyKept s r b))
  | updateKeeperTimeout => exact .exec h _ rfl (.onClock (opUpdateKeeperTimeout_stickyKept s))
  | entropySourceHealthFail => exact .exec h _ rfl (opEntropySourceHealthFail_stickyKept s)
  | debugKeeperHalt c => exact .exec h _ rfl (opDebugKeeperHalt_stickyKept s c)
  | _ => exact absurd rfl haon

end Sys2Proof.Machine
end

section
/-! SUPPORT. The life-cycle word that the OTP array votes, over every command: programming only sets bits (R392).
The theorem that settles O59. -/

namespace Sys2Proof.Machine

open Host

/-- Everything but the OTP array. -/
def unburntFoot : Foot :=
  { hv := true, store := true, aon := true, ev := true, hi := true, cap := true, dma := true, doe := true, lc := true
    peer := true, sync := true, wg := true, adm := true, ks := true, sch := true, fns := true, tenants := true
    queues := true, rings := true, ctxs := true, slots := true, combs := true, jobs := true, nextJob := true, out := true
    halves := true, latches := true, resp := true, retry := true, trngN := true, freeN := true }

/-- No bit of the voted life-cycle word clears. -/
def WordKept (o p : Otp) : Prop := ∀ b, o.lc.voted.getLsbD b = true → p.lc.voted.getLsbD b = true

/-! ## Programming -/

section

variable (o : Otp)

theorem WordKept.of_lc {p : Otp} (h : p.lc = o.lc) : WordKept o p := fun _ hb => h ▸ hb

theorem Otp3.voted_getLsbD (w : Otp3) (b : Nat) :
    w.voted.getLsbD b = (w.a.getLsbD b && w.b.getLsbD b || w.a.getLsbD b && w.c.getLsbD b ||
      w.b.getLsbD b && w.c.getLsbD b) := by
  simp only [Otp3.voted, vote, BitVec.getLsbD_or, BitVec.getLsbD_and]

/-- Copies that hold every bit that they held vote every bit that they voted. -/
theorem Otp3.voted_mono {v w : Otp3} {b : Nat} (ha : v.a.getLsbD b = true → w.a.getLsbD b = true)
    (hb : v.b.getLsbD b = true → w.b.getLsbD b = true) (hc : v.c.getLsbD b = true → w.c.getLsbD b = true)
    (h : v.voted.getLsbD b = true) : w.voted.getLsbD b = true := by
  rw [Otp3.voted_getLsbD] at h ⊢
  simp only [Bool.or_eq_true, Bool.and_eq_true] at h ⊢
  exact h.imp (Or.imp (And.imp ha hb) (And.imp ha hc)) (And.imp hb hc)

theorem getLsbD_or_of_left {n : Nat} {x : BitVec n} (w : BitVec n) {b : Nat} (h : x.getLsbD b = true) :
    (x ||| w).getLsbD b = true := by
  rw [BitVec.getLsbD_or, h, Bool.true_or]

theorem Otp3.voted_programCopy (v : Otp3) (k : Nat) (w : BitVec 32) (b : Nat) (h : v.voted.getLsbD b = true) :
    (v.programCopy k w).voted.getLsbD b = true := by
  unfold Otp3.programCopy
  split
  · exact Otp3.voted_mono (v := v) (getLsbD_or_of_left w) id id h
  · exact Otp3.voted_mono (v := v) id (getLsbD_or_of_left w) id h
  · exact Otp3.voted_mono (v := v) id id (getLsbD_or_of_left w) h

theorem Otp3.voted_program (v : Otp3) (w : BitVec 32) (b : Nat) (h : v.voted.getLsbD b = true) :
    (v.program w).voted.getLsbD b = true :=
  Otp3.voted_mono (getLsbD_or_of_left w) (getLsbD_or_of_left w) (getLsbD_or_of_left w) h

theorem Otp.put_wordKept (p : OtpWord) (w : BitVec 32) : WordKept o (o.put p w) := by
  cases p with
  | intent e k => exact .of_lc o rfl
  | owner f k i => exact .of_lc o rfl
  | lc k => exact o.lc.voted_programCopy k w
  | done e k => exact .of_lc o rfl

theorem Otp.putWords_wordKept (l : List (OtpWord × BitVec 32)) : WordKept o (o.putWords l) := by
  induction l generalizing o with
  | nil => exact .of_lc o rfl
  | cons p l ih => exact fun b hb => ih _ b (o.put_wordKept p.1 p.2 b hb)

theorem Otp.writeLc_wordKept (target : Nat) : WordKept o (o.writeLc target) :=
  o.lc.voted_program _

theorem Otp.writeDone_lc (w : BitVec 32) : (o.writeDone w).lc = o.lc := by
  unfold Otp.writeDone
  dsimp only
  split <;> rfl

theorem Otp.programSvn_lc : o.programSvn.lc = o.lc := by
  unfold Otp.programSvn
  split <;> rfl

end

/-! ## Combinators -/

/-- The state's OTP array keeps the bits of its life-cycle word. -/
def VotedKept (s t : State) : Prop := WordKept s.otp t.otp

section

variable {s u t : State}

theorem VotedKept.refl (s : State) : VotedKept s s := fun _ h => h

theorem VotedKept.trans (h : VotedKept s u) (g : VotedKept u t) : VotedKept s t := fun b hb => g b (h b hb)

theorem VotedKept.of_eq (h : t.otp = s.otp) : VotedKept s t := fun _ hb => h ▸ hb

theorem VotedKept.moved (h : VotedKept s u) (he : t.otp = u.otp) : VotedKept s t := h.trans (.of_eq he)

theorem Keeps.unburnt (hk : Keeps unburntFoot s t) : VotedKept s t := .of_eq (hk.otp_eq rfl)

theorem VotedKept.ite {c : Prop} [Decidable c] (ha : VotedKept s u) (hb : VotedKept s t) :
    VotedKept s (if c then u else t) := by
  split
  · exact ha
  · exact hb

theorem VotedKept.each {α : Type} {f : State → α → State} (l : List α) (h : VotedKept s u)
    (hf : ∀ x a, VotedKept x (f x a)) : VotedKept s (u.each l f) :=
  State.each_induction (fun x a _ hx => VotedKept.trans hx (hf x a)) h

theorem VotedKept.waking {k : State → State} (n : Nat) (hk : ∀ x, VotedKept x (k x)) : VotedKept s (k (wake s n)) :=
  (Keeps.unburnt (wake_keeps s n rfl (Keeps.refl _ s))).trans (hk _)

theorem VotedKept.whenClocked {i : Instr} {k : State → State} (hk : VotedKept s (k s)) : VotedKept s (whenClocked i s k) :=
  .ite (.of_eq rfl) hk

theorem VotedKept.whenAwakeBy {w : Nat} {i : Instr} {k : State → State} (hk : ∀ x, VotedKept x (k x)) :
    VotedKept s (whenAwakeBy w i s k) := by
  have hwake : VotedKept s (wake s w) := .waking (k := fun x => x) w .refl
  unfold Machine.whenAwakeBy
  dsimp only
  generalize wake s w = x at hwake ⊢
  exact .ite (hwake.trans (hk x)) (hwake.moved rfl)

theorem VotedKept.exec {c : Instr} (h : exec c s = .next t) (u : State) (he : exec c s = .next u) (hk : VotedKept s u) :
    VotedKept s t :=
  Host.Outcome.next.inj (he.symm.trans h) ▸ hk

end

section

variable (s : State)

/-! ## Starts and transitions -/

theorem cutOtp_votedKept : VotedKept s (cutOtp s) := by
  unfold cutOtp
  split
  · exact s.otp.put_wordKept _ _
  · exact .refl s

theorem restart_votedKept (warm : Bool) : VotedKept s (restart s warm) := (cutOtp_votedKept s).moved rfl

theorem opColdPowerOn_votedKept : VotedKept s (opColdPowerOn s) := by
  have hstart : ∀ a : Aon, VotedKept s (restart { s with aon := a } false) := fun a => restart_votedKept { s with aon := a } false
  exact (hstart _).trans (Keeps.unburnt (noteRails_keeps _ rfl (Keeps.refl _ _)))

theorem opHiveRstNAssert_votedKept : VotedKept s (opHiveRstNAssert s) := by
  have hfinish := Keeps.unburnt (finishBegun_keeps s rfl rfl rfl rfl (Keeps.refl _ s))
  have hheld : ∀ h : Hv, VotedKept s (restart { finishBegun s with hv := h } true) := fun h =>
    hfinish.trans (restart_votedKept { finishBegun s with hv := h } true)
  exact .ite (.refl s) (.ite (.of_eq rfl) (hheld _))

theorem releaseReset_votedKept : VotedKept s (releaseReset s) := by
  have hset : VotedKept s { s with hv.rstHeld := false } := .refl s
  exact .ite hset (hset.trans (restart_votedKept _ true))

theorem opWarmReset_votedKept (c : WarmCause) : VotedKept s (opWarmReset c s) := by
  cases c with
  | hiveRst => exact (opHiveRstNAssert_votedKept s).trans (releaseReset_votedKept _)
  | hvReset => exact .ite (restart_votedKept s true) (.refl s)
  | endpoint => exact .ite (.refl s) (restart_votedKept s true)

theorem opLcTransitionOtpDone_votedKept : VotedKept s (opLcTransitionOtpDone s) := by
  have hburnt : VotedKept s (lcEnd { s with otp := s.otp.putWords (otpLeft s) } 0) :=
    VotedKept.trans (u := { s with otp := s.otp.putWords (otpLeft s) }) (s.otp.putWords_wordKept _)
      (Keeps.unburnt (lcEnd_keeps _ 0 rfl rfl rfl rfl (Keeps.refl _ _)))
  unfold opLcTransitionOtpDone
  split
  · exact .refl s
  · exact .ite (.refl s) (hburnt.trans (restart_votedKept _ true))

theorem sticky_unburnt (b : Nat) (info : W32) : Keeps unburntFoot s (sticky s b info) := by
  apply sticky_keeps <;> first | rfl | exact Keeps.refl _ _

theorem resumeTransition_votedKept : VotedKept s (resumeTransition s) := by
  have hdone : ∀ (u : State) o l, WordKept s.otp o → VotedKept s (sticky { u with otp := o, lc := l } 100 0) := fun u o l ho =>
    VotedKept.trans (u := { u with otp := o, lc := l }) ho (sticky_unburnt _ 100 0).unburnt
  unfold resumeTransition
  extract_lets n e
  refine .ite (.refl s) ?_
  split
  · exact .refl s
  next t _ =>
    extract_lets x y
    have hx : x.otp = s.otp := by
      dsimp only [x]
      split
      · exact (eraseKeyRecs_keeps s rfl rfl (Keeps.refl unburntFoot s)).otp_eq rfl
      · rfl
    have hy : y.otp = s.otp := by
      dsimp only [y]
      split
      · exact ((sticky_unburnt x 89 0).otp_eq rfl).trans hx
      · exact hx
    have hword : WordKept s.otp ((y.otp.writeLc t).writeDone 1) := by
      rw [hy]
      exact fun b hb => WordKept.of_lc _ ((s.otp.writeLc t).writeDone_lc 1) b (s.otp.writeLc_wordKept t b hb)
    exact .ite (hdone s _ _ (.of_lc _ (s.otp.writeDone_lc 2))) (hdone y _ _ hword)

theorem sampleTamper_unburnt (ins : BitVec 4) : Keeps unburntFoot s (sampleTamper s ins) := by
  apply sampleTamper_keeps <;> first | rfl | exact Keeps.refl _ _

theorem step1_votedKept (ins : BitVec 4) (bad : Bool) : VotedKept s (step1 s ins bad) := by
  have hsample := (sampleTamper_unburnt s ins).unburnt
  have hresume := (resumeTransition_votedKept s).trans (sampleTamper_unburnt _ ins).unburnt
  exact .ite (hsample.moved rfl) (.ite (hresume.moved rfl) (hresume.moved rfl))

theorem makeRoot_votedKept : VotedKept s (makeRoot s) := by
  unfold makeRoot
  split
  · exact .refl s
  · split
    · exact .refl s
    · exact .of_lc _ rfl

theorem step5_votedKept (bad : Bool) : VotedKept s (step5 s bad) := by
  have hroot : ∀ h : Hv, VotedKept s (deriveLadder (makeRoot { s with hv := h })) := fun h =>
    VotedKept.trans (makeRoot_votedKept { s with hv := h })
      (Keeps.unburnt (by apply deriveLadder_keeps <;> first | rfl | exact Keeps.refl _ _))
  have hfail : ∀ h k, VotedKept s (sticky { s with hv := h, ks := k } 88 0) := fun h k =>
    (sticky_unburnt { s with hv := h, ks := k } 88 0).unburnt
  exact .ite (.of_eq rfl) (.ite (hfail _ _) (hroot _))

theorem opStartupStepDone_votedKept (ins : BitVec 4) (e : Ecc) : VotedKept s (opStartupStepDone ins e s) := by
  unfold opStartupStepDone
  refine .ite (.refl s) ?_
  split
  · exact .ite (step1_votedKept s ins _) (.refl s)
  · exact Keeps.unburnt (by apply step2_keeps <;> first | rfl | exact Keeps.refl _ _)
  · exact Keeps.unburnt (by apply step3_keeps <;> first | rfl | exact Keeps.refl _ _)
  · exact Keeps.unburnt (by apply step4_keeps <;> first | rfl | exact Keeps.refl _ _)
  · exact step5_votedKept s _
  · exact Keeps.unburnt (by apply step6_keeps <;> first | rfl | exact Keeps.refl _ _)
  · exact Keeps.unburnt (by apply step7_keeps <;> first | rfl | exact Keeps.refl _ _)
  · exact Keeps.unburnt (by apply step8_keeps <;> first | rfl | exact Keeps.refl _ _)
  · exact Keeps.unburnt (by apply step9_keeps <;> first | rfl | exact Keeps.refl _ _)
  · exact Keeps.unburnt (by apply step10_keeps <;> first | rfl | exact Keeps.refl _ _)
  · exact .refl s

theorem opSvnCommitProgram_votedKept : VotedKept s (opSvnCommitProgram s) :=
  .ite (.of_lc _ s.otp.programSvn_lc) (.refl s)

theorem opDebugKeeperHalt_votedKept (c : DbgCmd) : VotedKept s (opDebugKeeperHalt c s) := by
  have hback : ∀ h : Hv, VotedKept s (keeperBack { s with hv := h }) := fun h =>
    Keeps.unburnt (s := { s with hv := h }) (by apply keeperBack_keeps <;> first | rfl | exact Keeps.refl _ _)
  refine .ite (.refl s) ?_
  cases c with
  | halt => exact .of_eq rfl
  | run => exact hback _
  | step => exact .refl s
  | ramRead a => exact .ite (.refl s) (.of_eq rfl)
  | ramWrite a b => exact .ite (.of_eq rfl) (.refl s)
  | scan => exact .ite (.of_eq rfl) (.refl s)
  | memTest => exact .ite (.of_eq rfl) (.refl s)
  | token k v => exact .ite (.of_lc _ rfl) (.refl s)

/-! ## Register writes -/

theorem writeHv_votedKept (o : Nat) (v : W32) : VotedKept s (writeHv s o v) := by
  have hkeeper : VotedKept s (opKeeperRestart false true s) :=
    Keeps.unburnt (by apply opKeeperRestart_keeps <;> first | rfl | exact Keeps.refl _ _)
  have hsleep : ∀ x key, VotedKept x (opHvSleepEnter key x) := fun x key =>
    Keeps.unburnt (opHvSleepEnter_keeps key x rfl (Keeps.refl _ x))
  have hawake : ∀ key, VotedKept s (opHvSleepWake key s) := fun key =>
    Keeps.unburnt (opHvSleepWake_keeps key s rfl (Keeps.refl _ s))
  have hwake : ∀ key, VotedKept s (if v.getLsbD 1 then opHvSleepWake key s else if v.getLsbD 0 then s else wake s 1) :=
    fun key => .ite (hawake key) (.ite (.refl s) (VotedKept.waking (k := fun x => x) 1 .refl))
  unfold writeHv
  dsimp only
  split
  · exact .ite (.refl s) (.ite (opWarmReset_votedKept s .hvReset) (.ite hkeeper (.refl s)))
  · exact .ite ((hwake _).trans (hsleep _ _)) (hwake _)
  · exact .of_eq rfl
  · exact .refl s

theorem writeReg32_votedKept (p : Place) (v : W32) : VotedKept s (writeReg32 s p v) := by
  unfold writeReg32
  dsimp only
  split
  · exact writeHv_votedKept s _ v
  · exact Keeps.unburnt (by apply writeCf_keeps <;> first | rfl | exact Keeps.refl _ _)
  · exact Keeps.unburnt (by apply writeHi_keeps <;> first | rfl | exact Keeps.refl _ _)
  · exact Keeps.unburnt (by apply writeEv_keeps <;> first | rfl | exact Keeps.refl _ _)
  · exact Keeps.unburnt (by apply writeLc_keeps <;> first | rfl | exact Keeps.refl _ _)
  · exact Keeps.unburnt (by apply writeTp_keeps <;> first | rfl | exact Keeps.refl _ _)
  · exact Keeps.unburnt (by apply writeKs_keeps <;> first | rfl | exact Keeps.refl _ _)
  · exact Keeps.unburnt (by apply writeWg_keeps <;> first | rfl | exact Keeps.refl _ _)
  · exact Keeps.unburnt (by apply writePi_keeps <;> first | rfl | exact Keeps.refl _ _)
  · exact Keeps.unburnt (by apply writeSch_keeps <;> first | rfl | exact Keeps.refl _ _)
  · exact Keeps.unburnt (by apply writeAdm_keeps <;> first | rfl | exact Keeps.refl _ _)
  · exact Keeps.unburnt (by apply writeDmaw_keeps <;> first | rfl | exact Keeps.refl _ _)
  next c _ =>
    exact .ite (Keeps.unburnt (by apply opCbCmdInvalid_keeps <;> first | rfl | exact Keeps.refl _ _)) (.refl s)
  · exact Keeps.unburnt (by apply writeTn_keeps <;> first | rfl | exact Keeps.refl _ _)
  · exact Keeps.unburnt (by apply writeQs_keeps <;> first | rfl | exact Keeps.refl _ _)
  · exact Keeps.unburnt (by apply writePage_keeps <;> first | rfl | exact Keeps.refl _ _)
  · exact Keeps.unburnt (by apply writeBlock_keeps <;> first | rfl | exact Keeps.refl _ _)
  · exact Keeps.unburnt (by apply opMsixMaskWrite_keeps <;> first | rfl | exact Keeps.refl _ _)
  · exact .ite (Keeps.unburnt (by apply opDoeAbort_keeps <;> first | rfl | exact Keeps.refl _ _)) (.refl s)
  · exact .refl s

theorem writeReg64_votedKept (p : Place) (v : W64) : VotedKept s (writeReg64 s p v) :=
  Keeps.unburnt (by apply writeReg64_keeps <;> first | rfl | exact Keeps.refl _ _)

theorem writeWord_votedKept (who : Requester) (p : Place) (v : W32) : VotedKept s (writeWord s who p v) := by
  have hwhole : ∀ h l w, VotedKept s (writeReg64 { s with halves := h } l w) := fun h l w =>
    writeReg64_votedKept { s with halves := h } l w
  unfold writeWord
  refine .ite (.of_eq rfl) ?_
  split
  · exact hwhole _ _ _
  · exact writeReg32_votedKept s p v

theorem writeWords_votedKept (who : Requester) (p : Place) (n : Nat) (data : W64) :
    VotedKept s (writeWords s who p n data) := by
  have hwhole : ∀ h, VotedKept s (writeReg64 { s with halves := h } p data) := fun h =>
    writeReg64_votedKept { s with halves := h } p data
  have hlow := writeWord_votedKept s who p (lo32 data)
  exact .ite (hwhole _) (.ite (hlow.trans (writeWord_votedKept _ who _ _)) hlow)

theorem writeAt_votedKept (who : Requester) (p : Place) (n : Nat) (data : W64) : VotedKept s (writeAt s who p n data) := by
  have hactive : ∀ c, Keeps unburntFoot s (fnActive s c) := fun c => fnActive_keeps s c rfl rfl (Keeps.refl _ s)
  have hmail : VotedKept s (mailActive s p) :=
    Keeps.unburnt (by apply mailActive_keeps <;> first | rfl | exact Keeps.refl _ _)
  unfold writeAt
  split
  next c q _ =>
    exact (hactive c).unburnt.trans
      (Keeps.unburnt (by apply opPushWindowWrite_keeps <;> first | rfl | exact Keeps.refl _ _))
  · exact .ite (.of_eq rfl) (hmail.trans (writeWords_votedKept _ who p n data))

theorem opRegisterWrite_votedKept (old : Bool) (who : Requester) (a : Access) (n : Nat) (data : W64) :
    VotedKept s (opRegisterWrite old who a n data s) := by
  have hcount : ∀ l, VotedKept s (countUnmapped s l) := fun l =>
    Keeps.unburnt (by apply countUnmapped_keeps <;> first | rfl | exact Keeps.refl _ _)
  unfold opRegisterWrite
  dsimp only
  refine .ite (hcount _) ?_
  split
  · exact hcount _
  · exact (hcount _).trans (Keeps.unburnt (by apply cfgWrite_keeps <;> first | rfl | exact Keeps.refl _ _))
  · exact (hcount _).trans (writeAt_votedKept _ who _ n data)

theorem access_votedKept (i : Instr) (a : Access) (n : Nat) (read : Bool) {k : State → State}
    (hk : ∀ x, VotedKept x (k x)) : VotedKept s (access i a n read s k) := by
  unfold access
  dsimp only
  split
  · exact .ite (.whenAwakeBy hk) (.whenClocked (.waking _ hk))
  · exact .whenClocked (hk s)
  · exact hk s

theorem opRegWrite_votedKept (who : Requester) (a : Access) (n : Nat) (data : W64) :
    VotedKept s (opRegWrite who a n data s) :=
  .ite (.refl s) (.ite (opRegisterWrite_votedKept s false who a n data)
    (access_votedKept s _ a n false fun x => opRegisterWrite_votedKept x false who a n data))

/-! ## What a wake serves -/

theorem runHeld_votedKept (old : Bool) (i : Instr) : VotedKept s (runHeld old i s) := by
  have hactive : ∀ c, Keeps unburntFoot s (fnActive s c) := fun c => fnActive_keeps s c rfl rfl (Keeps.refl _ s)
  have hwork : ∀ i, VotedKept s (doeTake i s (doeWork i)) := fun i => Keeps.unburnt (doeTake_keeps i s (doeWork i)
    (fun y hy => by apply doeWork_keeps <;> first | rfl | exact hy) rfl (Keeps.refl _ s))
  unfold runHeld
  split
  next c v => exact Keeps.unburnt (by apply opMbH2kMsgWrite_keeps <;> first | rfl | exact hactive c)
  · exact Keeps.unburnt (by apply opMbK2hMsgRead_keeps <;> first | rfl | exact Keeps.refl _ _)
  next c r => exact Keeps.unburnt (by apply opMbPoolRegister_keeps <;> first | rfl | exact hactive c)
  · exact Keeps.unburnt (by apply cbWrite_keeps <;> first | rfl | exact Keeps.refl _ _)
  · exact Keeps.unburnt (by apply cbWrite_keeps <;> first | rfl | exact Keeps.refl _ _)
  · exact Keeps.unburnt (by apply opCbCmdInvalid_keeps <;> first | rfl | exact Keeps.refl _ _)
  · exact Keeps.unburnt (by apply opKsZeroiseStart_keeps <;> first | rfl | exact Keeps.refl _ _)
  · exact Keeps.unburnt (by apply provCommit_keeps <;> first | rfl | exact Keeps.refl _ _)
  · exact Keeps.unburnt (by apply provCommit_keeps <;> first | rfl | exact Keeps.refl _ _)
  · exact Keeps.unburnt (by apply provCommit_keeps <;> first | rfl | exact Keeps.refl _ _)
  · exact Keeps.unburnt (by apply opKsProvOp3_keeps <;> first | rfl | exact Keeps.refl _ _)
  · exact opRegisterWrite_votedKept s old _ _ _ _
  · exact Keeps.unburnt (by apply opRegisterRead_keeps <;> first | rfl | exact Keeps.refl _ _)
  · exact Keeps.unburnt (by apply splitRead_keeps <;> first | rfl | exact Keeps.refl _ _)
  · exact .ite (hwork _) (.ite (Keeps.unburnt (by apply runMctp_keeps <;> first | rfl | exact Keeps.refl _ _))
      (Keeps.unburnt (by apply heldAdmin_keeps <;> first | rfl | exact Keeps.refl _ _)))

theorem runAll_votedKept : VotedKept s (runAll s) :=
  VotedKept.each _ (.of_eq rfl) fun x e => runHeld_votedKept x _ e.1

theorem opWakeDone_votedKept : VotedKept s (opWakeDone s) :=
  .ite ((Keeps.unburnt (by apply awaken_keeps <;> first | rfl | exact Keeps.refl _ _)).trans (runAll_votedKept _)) (.refl s)

theorem settle_votedKept {t : State} (h : VotedKept s t) : VotedKept s (settle s t) :=
  .ite (h.trans (runAll_votedKept t)) h

theorem opPllRelockRetry_votedKept (locked : Bool) : VotedKept s (opPllRelockRetry locked s) := by
  have hback : ∀ x : State, VotedKept x (if x.hv.pwr = 0 then keeperBack (zeroRest x) else awaken x) := fun x => by
    have hzero : Keeps unburntFoot x (zeroRest x) := by apply zeroRest_keeps <;> first | rfl | exact Keeps.refl _ _
    exact .ite (Keeps.unburnt (by apply keeperBack_keeps <;> first | rfl | exact hzero))
      (Keeps.unburnt (by apply awaken_keeps <;> first | rfl | exact Keeps.refl _ _))
  have hrun : ∀ h a, VotedKept s (runAll (if h.pwr = 0 then keeperBack (zeroRest { s with hv := h, aon := a })
      else awaken { s with hv := h, aon := a })) := fun h a => (hback { s with hv := h, aon := a }).trans (runAll_votedKept _)
  exact .ite (.refl s) (hrun _ _)

end

/-! ## Every command -/

theorem tamperSource_votedKept {c : Instr} {s t : State} (hc : TamperSource c) (h : exec c s = .next t) :
    VotedKept s t := by
  rcases hc with ⟨n, high, rfl⟩ | ⟨d, r, rfl⟩ | rfl | ⟨b, rfl⟩ | ⟨b, rfl⟩
  · exact .exec h _ rfl (settle_votedKept s (Keeps.unburnt (by
      apply opTamperInTrip_keeps <;> first | rfl | exact Keeps.refl _ _)))
  · exact .exec h _ rfl (settle_votedKept s (Keeps.unburnt (by
      apply opVoltageTrip_keeps <;> first | rfl | exact Keeps.refl _ _)))
  · exact .exec h _ rfl (settle_votedKept s (Keeps.unburnt (by
      apply opPllLockLoss_keeps <;> first | rfl | exact Keeps.refl _ _)))
  · exact .exec h _ rfl (settle_votedKept s (Keeps.unburnt (by
      apply opRefclkFrequencyTrip_keeps <;> first | rfl | exact Keeps.refl _ _)))
  · exact .exec h _ rfl (settle_votedKept s (Keeps.unburnt (by
      apply opTemperatureTrip_keeps <;> first | rfl | exact Keeps.refl _ _)))

theorem exec_votedKept {c : Instr} {s t : State} (h : exec c s = .next t) : VotedKept s t := by
  by_cases hotp : (footOf c).otp = false
  · exact .of_eq ((exec_keeps_of_next h).otp_eq hotp)
  cases c with
  | coldPowerOn => exact .exec h _ rfl (opColdPowerOn_votedKept s)
  | warmReset cause => exact .exec h _ rfl (opWarmReset_votedKept s cause)
  | hiveRstNAssert => exact .exec h _ rfl (opHiveRstNAssert_votedKept s)
  | startupStepDone ins e => exact .exec h _ rfl (.ite (.refl s) (opStartupStepDone_votedKept s ins e))
  | svnCommitProgram => exact .exec h _ rfl (opSvnCommitProgram_votedKept s)
  | lcTransitionOtpDone => exact .exec h _ rfl (opLcTransitionOtpDone_votedKept s)
  | tamperInTrip n high => exact tamperSource_votedKept (.inl ⟨n, high, rfl⟩) h
  | voltageTrip d r => exact tamperSource_votedKept (.inr (.inl ⟨d, r, rfl⟩)) h
  | pllLockLoss => exact tamperSource_votedKept (.inr (.inr (.inl rfl))) h
  | refclkFrequencyTrip b => exact tamperSource_votedKept (.inr (.inr (.inr (.inl ⟨b, rfl⟩)))) h
  | temperatureTrip b => exact tamperSource_votedKept (.inr (.inr (.inr (.inr ⟨b, rfl⟩)))) h
  | pllRelockRetry l => exact .exec h _ rfl (opPllRelockRetry_votedKept s l)
  | wakeDone => exact .exec h _ rfl (opWakeDone_votedKept s)
  | registerWrite who a n d => exact .exec h _ rfl (opRegWrite_votedKept s who a n d)
  | debugKeeperHalt c => exact .exec h _ rfl (opDebugKeeperHalt_votedKept s c)
  | _ => exact absurd rfl hotp

/-- Settles O59: no operation of the machine clears a sticky bit but the cold start and what asks for it, and
every word that goes into the OTP array is joined to what is there. -/
theorem keptRecords : Obligations.KeptRecords :=
  ⟨fun _ _ _ b _ h hc hb => exec_stickyKept h hc b hb, fun _ _ _ b h hb => exec_votedKept h b hb⟩

end Sys2Proof.Machine
end
